-- ==== Sys2Proof/Word.lean ====
section
/-!
DEFINITION. The word types of the YD-7680 block and their plainest arithmetic: register words, bytes and byte strings
(little-endian, R13), bit fields, and tables keyed by a number.
-/

namespace Sys2Proof

/-- A 64-bit register word (R15). -/
abbrev Word := BitVec 64

/-- One byte. -/
abbrev Byte := BitVec 8

/-- A byte string: a payload, a structure, returned data. -/
abbrev Bytes := List (BitVec 8)

/-- A table keyed by a number: keys strictly rising, absent keys hold nothing. -/
abbrev Tbl (α : Type) := List (Nat × α)

end Sys2Proof
end

