-- ==== Sys2Proof/Syntax.lean ====
section
/-!
DEFINITION. The commands of the block: one constructor of `Instr` per row of spec/opcode_table.json, with the row's
operands, and the types of those operands.  A call slip is carried whole (`Slip`, R40); an event carries what the block
observes when it comes about.
-/

namespace Sys2Proof

/-- A source context (R46): where a slip came from.  Which of the codes T, O, M, P, W and K of Table 2.4 it has is read
from the state (a pair's OPERATOR bit, a peer context's KIND). -/
inductive Ctx where
  /-- host queue pair `q`, 0 to 255 (R48) -/
  | pair (q : Nat)
  /-- network peer context `p`, 0 to 4,095 -/
  | peer (p : Nat)
  /-- management connection `c`, 0 to 15 (R53) -/
  | mgmt (c : Nat)
  /-- the Rind's internal queue -/
  | rind
  deriving DecidableEq, Repr

/-- A call slip: its source context, the header of Table 2.1 but for OPCODE, which the command itself names, and the
payload bytes that reached the device with it (R48, R53). -/
structure Slip where
  src : Ctx
  version : BitVec 8
  hlen : BitVec 8
  flags : BitVec 16
  tenant : BitVec 16
  tag : BitVec 32
  epoch : BitVec 32
  accession : BitVec 64
  plen : BitVec 32
  ploc : BitVec 32
  p0 : BitVec 32
  p1 : BitVec 32
  p2 : BitVec 32
  p3 : BitVec 32
  p4 : BitVec 32
  p5 : BitVec 32
  rsvd : BitVec 32
  hcrc : BitVec 32
  payload : Bytes
  deriving DecidableEq, Repr

/-- A slip with its opcode, as a fetched submission entry or an arriving message holds it (R40). -/
structure OpSlip where
  op : BitVec 16
  slip : Slip
  deriving DecidableEq, Repr

/-- A reply as another device returns it to a slip this device sent (Table 2.3). -/
structure Reply where
  status : BitVec 16
  detail : BitVec 32
  epoch : BitVec 32
  result : BitVec 64
  result2 : BitVec 32
  data : Bytes
  deriving DecidableEq, Repr

/-- A Praol packet (Tables 11.2 and 11.3) in the clear. -/
structure Pkt where
  type : Nat
  first : Bool
  last : Bool
  retx : Bool
  cls : Nat
  dst : Nat
  src : Nat
  psn : Nat
  msgId : Nat
  offset : Nat
  msgLen : Nat
  keygen : Nat
  txc : Nat
  payload : Bytes
  deriving DecidableEq, Repr

/-- Frames that are not Praol's, as R270 and R271 name them: ARP request for an IPv4 address, ARP reply naming one with its MAC
address, Neighbour Solicitation for an IPv6 address, Router Advertisement of a router, echo requests to an address with
their data, and every other frame. -/
inductive EthKind where
  | arpRequest (target : Nat)
  | arpReply (sender : Nat) (mac : Bytes)
  | solicitation (target : Nat)
  | advertisement (router : Bytes)
  | echo4 (target : Nat) (body : Bytes)
  | echo6 (target : Nat) (body : Bytes)
  | other
  deriving DecidableEq, Repr

/-- What a handshake packet tells once its cryptography has been worked (Table 15.7, R382-R384): `genuine`, whether version,
reserved fields, chain and signature hold; the principal the chain verifies to; the digest of its leaf key. -/
structure Shake where
  src : Nat
  kind : Nat
  dev : Nat
  psn : Nat
  leaf : Bytes
  anchor : Option Nat
  genuine : Bool
  deriving DecidableEq, Repr

/-- What an NVMe command of the press port was for (R310, R313, R317): the label read or written, a slot's seal or its blocks read,
a step of a checkpoint's writes. -/
inductive NvmeOp where
  | labelRead
  | labelWrite
  | sealRead (slot : Nat)
  | blocksRead (slot : Nat)
  | ckptWrite
  /-- no command: Controller Fatal Status is found set (R444) -/
  | fatal
  deriving DecidableEq, Repr

/-- What an uncorrectable line held, and what its recovery found (Table 13.4): `found` counts the transcript entries still to be had
when some were lost for good, `imageOk` says whether the bundle image reads well. -/
inductive LostData where
  | nothing
  | kvPage
  | downCopy (accession number : Nat)
  | shelfObject (accession kind number : Nat)
  | transcript (accession : Nat) (found : Option Nat)
  | entry (index : Nat)
  | tables (imageOk : Bool)
  | catMap
  | locations (accessions : List Nat)
  | vector (collection : Nat)
  | request (accession : Nat)
  | control
  deriving DecidableEq, Repr

/-- A standard SPDM request as the responder takes it (Table 15.3); the outcome of a requester's cryptography is part of it: `leaf` is
the digest of its leaf key, `genuine` says whether its chain and signature verify. -/
inductive SpdmReq where
  | getVersion
  | getCapabilities
  | negotiateAlgorithms (supported : Bool)
  | getDigests
  | getCertificate (slot : Nat)
  | challenge (slot : Nat)
  | getMeasurements (index : Nat)
  | keyExchange
  | finish (leaf : Bytes) (genuine : Bool)
  | heartbeat (session : Nat)
  | keyUpdate (session : Nat)
  | endSession (session : Nat)
  | getCsr
  | setCertificate (slot : Nat) (chain : Bytes) (genuine : Bool)
  | other
  deriving DecidableEq, Repr

/-- A DDR5 DIMM as its SPD hub describes it (R445): capacity in GiB, ranks, rating in MT/s, and is it registered, of x4 devices, ten
per subchannel? -/
structure Dimm where
  gib : Nat
  ranks : Nat
  mts : Nat
  fit : Bool
  deriving DecidableEq, Repr

/-- An access of the host to device memory (R119, R120): a read of one 64-byte line, or a write of bytes at an offset within it. -/
inductive MemOp where
  | read
  | write (offset : Nat) (bytes : Bytes)
  deriving DecidableEq, Repr

/-- A configuration request of the host (R433): a read or a write of a word by byte offset; reads and writes of the parts whose place in
configuration space no rule gives go by what they are: the MSI-X message control (R441), the registers that say where its table and
pending bits lie, the capability word and the range sizes of DVSEC 0, what the Register Locator lists, a decoder's control (R434,
R437). -/
inductive CfgOp where
  | read (offset : Nat)
  | write (offset value : Nat)
  | msixRead
  | msixWrite (enable mask : Bool)
  | msixTable
  | msixPba
  | dvsecCap
  | dvsecSizeLow (range : Nat)
  | dvsecSizeHigh (range : Nat)
  | locator
  | decoder (dec : Nat)
  deriving DecidableEq, Repr

/-- The SSD a press port finds (R442-R444): rate (1-5) and width of its link; capacity of namespace 1 in GB; is that namespace of
4,096-byte blocks; I/O queues; MDTS in KiB; power-loss protection; Controller Fatal Status; for an SSD other than the one seen last
its label, if it has one (FUSE_DIGEST, AUTO), no slot of it holding a seal that verifies. -/
structure Ssd where
  gen : Nat
  width : Nat
  capGb : Nat
  lba4k : Bool
  queues : Nat
  mdtsKib : Nat
  plp : Bool
  fatal : Bool
  other : Option (Option (Nat × Bool))
  deriving DecidableEq, Repr

/-- The commands, one constructor per row of spec/opcode_table.json. -/
inductive Instr where
  /-- Device-class slip that does nothing and replies with RESULT 0; with ORDERED set it acts as a fence (R64) -/
  | NOP (x : Slip)
  /-- Agrees the call-slip version for the context (R59) -/
  | HELLO (x : Slip)
  /-- Returns DEV_ID and optionally a copy of the DEV registers (R64) -/
  | IDENTIFY (x : Slip)
  /-- Returns the payload unchanged as data (R64) -/
  | ECHO (x : Slip)
  /-- Allocates a session-table entry and issues a new accession number (R67) -/
  | SESS_ACCESSION (x : Slip)
  /-- Closes a session, releasing its pages, mask log and ring and telling its holders to drop their images (R78) -/
  | SESS_CLOSE (x : Slip)
  /-- Reports a session's state and fault outcome, and optionally a copy of its entry (R93) -/
  | SESS_QUERY (x : Slip)
  /-- Creates a child session that shares the parent's first FORK_LENGTH positions (R83) -/
  | SESS_FORK (x : Slip)
  /-- Arms or re-arms a session's generation request (R81) -/
  | SESS_GENERATE (x : Slip)
  /-- Ends the armed request at the step boundary (R82) -/
  | SESS_CANCEL (x : Slip)
  /-- Attaches a bitmap attention mask, or clears it, and appends a mask mark to the transcript (R87) -/
  | SESS_SET_MASK (x : Slip)
  /-- Sets a session's time-to-live values (R90) -/
  | SESS_SET_TTL (x : Slip)
  /-- Parks a WAITING session; the reply follows the holders' acknowledgement (R34) -/
  | SESS_PARK (x : Slip)
  /-- Revives a PARKED or TRANSCRIPT_ONLY session into T1 (R92) -/
  | SESS_REVIVE (x : Slip)
  /-- Attaches an output ring to a session, or detaches it (R93) -/
  | SESS_ATTACH_RING (x : Slip)
  /-- At the target, reserves an entry for an incoming session and charges its quotas (R94) -/
  | SESS_MOVE_OFFER (x : Slip)
  /-- At the target, commits a moved session into its resume state (R94) -/
  | SESS_MOVE_COMMIT (x : Slip)
  /-- At the source, the reply to SESS_MOVE_OFFER arrives and the source registers the new location (R94) -/
  | MOVE_OFFER_REPLY (acc : Nat) (status : Nat)
  /-- At the source, the commit reply arrives; the entry is freed and a forwarding record is kept, or the session returns to RESUME_STATE (R94) -/
  | MOVE_COMMIT_REPLY (acc : Nat) (status : Nat)
  /-- A target reservation with no SESS_MOVE_COMMIT within 10 s is freed (R78) -/
  | MOVE_RESERVATION_LAPSE (acc : Nat)
  /-- Appends text and token segments to a session's transcript, opening, continuing or closing a text context (R210) -/
  | TEXT_APPEND (x : Slip)
  /-- Appends a list of token IDs to a session's transcript (R225) -/
  | TEXT_APPEND_TOKENS (x : Slip)
  /-- Tokenises a segment list and returns the token IDs without touching any session (R206) -/
  | TEXT_TOKENISE (x : Slip)
  /-- Returns the bytes of a list of token IDs (R212) -/
  | TEXT_DETOKENISE (x : Slip)
  /-- Returns a range of a session's transcript entries where they lie (R225) -/
  | TEXT_TRANSCRIPT_READ (x : Slip)
  /-- Writes a tenant's sampling slot, or sets the slot a session uses (R215) -/
  | SAMP_SET (x : Slip)
  /-- Writes the stop strings of a tenant's sampling slot (R217) -/
  | SAMP_SET_STOPS (x : Slip)
  /-- Attaches a bundle grammar to a session for its next request (R222) -/
  | GRAM_ATTACH (x : Slip)
  /-- Detaches the session's grammar (R225) -/
  | GRAM_DETACH (x : Slip)
  /-- Sets a tenant's or the operator reserve's quota limit in one tier (R186) -/
  | TIER_SET_QUOTA (x : Slip)
  /-- Returns the capacity and free count of each tier (R199) -/
  | TIER_QUERY (x : Slip)
  /-- Lends a region of host memory as T3 (R199) -/
  | TIER_LEND_HOST (x : Slip)
  /-- Marks a lent region reclaiming, empties it and releases it (R200) -/
  | TIER_RECLAIM_HOST (x : Slip)
  /-- A region that cannot be emptied within 10 s makes TIER_RECLAIM_HOST reply BUSY and stays lent and reclaiming (R200) -/
  | HOST_RECLAIM_TIMEOUT (region : Nat)
  /-- A holder stores a shelf object for another device (R199) -/
  | TIER_SHELF_PUT (x : Slip)
  /-- A holder returns a shelf object (R199) -/
  | TIER_SHELF_GET (x : Slip)
  /-- A holder drops shelf objects below an ALIVE value (R199) -/
  | TIER_SHELF_DROP (x : Slip)
  /-- Creates this device's shard of a vector collection (R252) -/
  | VEC_CREATE (x : Slip)
  /-- Drops a collection shard once the searches accepted earlier have ended (R265) -/
  | VEC_DROP (x : Slip)
  /-- Inserts or updates vector records, the whole slip or none of it (R255) -/
  | VEC_INSERT (x : Slip)
  /-- Tombstones the records of the keys named (R263) -/
  | VEC_DELETE (x : Slip)
  /-- Runs a gathered top-k search in rounds over every shard (R257) -/
  | VEC_SEARCH (x : Slip)
  /-- Rewrites lists without tombstoned records and swaps their chains (R263) -/
  | VEC_COMPACT (x : Slip)
  /-- Loads a batch of centroids into a shard (R256) -/
  | VEC_SET_CENTROIDS (x : Slip)
  /-- Searches the local shard for one round on behalf of a gathering device (R260) -/
  | VEC_SHARD_SEARCH (x : Slip)
  /-- A shard's reply to a round arrives at the gathering device and is merged, possibly starting the next round (R260) -/
  | SHARD_REPLY (req : Nat) (shard : Nat) (r : Reply)
  /-- A shard that has not answered within SHARD_TIMEOUT is treated as unanswered (R260) -/
  | SHARD_TIMEOUT (req : Nat)
  /-- The device compacts a list whose tombstoned records exceed COMPACT_PCT (R263) -/
  | BACKGROUND_COMPACT (id : Nat) (list : Nat)
  /-- Returns the owning device of a session (R299) -/
  | CAT_LOOKUP (x : Slip)
  /-- Returns the change lists since an epoch, or a part of the whole map (R288) -/
  | CAT_MAP_FETCH (x : Slip)
  /-- A registrar considers a claim ballot for the next epoch and votes (R286) -/
  | CAT_PROPOSE_CLAIM (x : Slip)
  /-- A registrar considers a change list for acceptance and votes (R286) -/
  | CAT_PROPOSE_ACCEPT (x : Slip)
  /-- A proposer receives a GRANT, DENY, ACCEPTED or ABSTAIN vote (R286) -/
  | CAT_VOTE (x : Slip)
  /-- A member applies the next epoch's change list and relays it (R288) -/
  | CAT_COMMIT (x : Slip)
  /-- Joins a device to a composition, or founds one (R290) -/
  | CAT_JOIN (x : Slip)
  /-- Begins a graceful leave of the device (R296) -/
  | CAT_LEAVE (x : Slip)
  /-- A leaving device that owns no session asks for its REMOVE (R296) -/
  | CAT_LEAVE_FINAL (x : Slip)
  /-- Reports a member whose links have all failed (R296) -/
  | CAT_LEAVE_SUSPECT (x : Slip)
  /-- A bucket owner answers where a session lives (R293) -/
  | CAT_LOCATE_QUERY (x : Slip)
  /-- A bucket owner records a session's location (R292) -/
  | CAT_LOCATE_REGISTER (x : Slip)
  /-- A bucket owner removes a session's location record (R292) -/
  | CAT_LOCATE_REMOVE (x : Slip)
  /-- A new bucket owner takes over the records of a bucket (R295) -/
  | CAT_LOCATE_TRANSFER (x : Slip)
  /-- A proposer that has not succeeded within VOTE_TIMEOUT backs off and retries with a higher attempt number (R286) -/
  | VOTE_TIMEOUT
  /-- The primary owner has not answered a locate query, so the query goes to the secondary owner (R293) -/
  | LOCATE_TIMEOUT (acc : Nat)
  /-- The new owner's reply to a forwarded slip arrives and is passed back to the submitter (R58) -/
  | FORWARDED_REPLY (dev : Nat) (tag : Nat) (r : Reply)
  /-- A forwarding record is dropped after two further epochs and FWD_HOLD (R294) -/
  | FORWARD_RECORD_EXPIRY (acc : Nat)
  /-- Once per second a member sends a NOP to each registrar (R356) -/
  | REGISTRAR_KEEPALIVE
  /-- A member that reaches fewer than a majority of registrars fences itself and abandons its open steps (R356) -/
  | FENCE
  /-- The fence ends when a majority is reachable again and the map is current (R356) -/
  | FENCE_END
  /-- A registrar whose probes have gone unanswered for DEAD_CONFIRM proposes REMOVE (R296) -/
  | REMOVE_CONFIRM (dev : Nat)
  /-- A leaving device cancels the armed requests still running after DRAIN_TIME (R296) -/
  | DRAIN_TIME_EXPIRY
  /-- The primary owner begins adopting a removed device's sessions of its buckets (R321) -/
  | REHOME_DELAY_EXPIRY (dev : Nat)
  /-- Triggers a checkpoint (R305) -/
  | CKPT_TAKE (x : Slip)
  /-- Returns the seal and press state (R325) -/
  | CKPT_QUERY (x : Slip)
  /-- Restores the device from the newest eligible checkpoint (R317) -/
  | CKPT_RESTORE (x : Slip)
  /-- Sets the checkpoint triggers and the AUTO flag, or formats the press (R325) -/
  | CKPT_SET_TRIGGERS (x : Slip)
  /-- A mirror holder stores checkpoint blocks or a seal (R316) -/
  | CKPT_MIRROR_PUT (x : Slip)
  /-- A mirror holder returns checkpoint blocks or a seal to a permitted requester (R316) -/
  | CKPT_MIRROR_GET (x : Slip)
  /-- TIMER_S has elapsed since the last barrier, which triggers a checkpoint (R305) -/
  | CKPT_TIMER_EXPIRY
  /-- 2^STEPS_LOG2 decode steps have completed since the last barrier, which triggers a checkpoint (R305) -/
  | CKPT_STEP_COUNT
  /-- NEXT comes within 2^16 of SEQ_LIMIT, which triggers a checkpoint (R305) -/
  | SEQ_LIMIT_NEAR
  /-- Deferred triggers start one checkpoint when the running one ends or the lock is released (R306) -/
  | DEFERRED_CKPT_START
  /-- Write-back not done after 50 µs: the barrier is undone and retried 1 ms later (R307) -/
  | BARRIER_OVERRUN
  /-- The checkpoint is taken again 1 ms after an undone barrier (R307) -/
  | BARRIER_RETRY
  /-- A press block write, Flush or seal write completes, advancing the write sequence or sealing (R313) -/
  | PRESS_WRITE_DONE (blocks : Nat)
  /-- A press write completes with error and the checkpoint is abandoned (R314) -/
  | PRESS_WRITE_ERROR
  /-- A mirror holder acknowledges blocks or the seal (R316) -/
  | MIRROR_ACK (dev : Nat) (status : Nat)
  /-- No registrar has answered within 1 s, so the mirror candidates are skipped (R317) -/
  | RESTORE_MAP_TIMEOUT
  /-- Computes a CRC over the payload on a CRC unit (R342) -/
  | CHK_CRC (x : Slip)
  /-- Queues a scan-engine CRC over a memory range (R343) -/
  | CHK_SCAN (x : Slip)
  /-- The scan engine finishes a range, replies and starts the next queued scan (R343) -/
  | SCAN_COMPLETE
  /-- Encrypts the payload under the tenant's slip key (R346) -/
  | CHK_XTS_ENC (x : Slip)
  /-- Decrypts the payload under the tenant's slip key (R346) -/
  | CHK_XTS_DEC (x : Slip)
  /-- Sets a tenant's budget rate, burst, weight and level (R235) -/
  | SCHED_SET_TENANT (x : Slip)
  /-- Returns a tenant's scheduling state (R250) -/
  | SCHED_QUERY_TENANT (x : Slip)
  /-- Configures a shaper and sets its LEVEL (R244) -/
  | SCHED_SET_SHAPER (x : Slip)
  /-- Configures a tenant's slip policer (R245) -/
  | SCHED_SET_POLICER (x : Slip)
  /-- Advances a ring's CI, which may let a held group be written (R233) -/
  | RING_CONSUMED (x : Slip)
  /-- An error reply to a RING_PUSH arrives, leading to a retry or to ERROR (R232) -/
  | RING_PUSH_ERROR_REPLY (ring : Nat) (first : Nat) (status : Nat)
  /-- A RING_PUSH is sent again 20 µs after a class 0x2 reply (R232) -/
  | RING_PUSH_RETRY (ring : Nat) (first : Nat)
  /-- A ring MSI-X message held back by IRQ_GAP_US is sent (R231) -/
  | RING_IRQ_GAP_END (vec : Nat)
  /-- A host ring write completes with error and the ring enters ERROR (R228) -/
  | HOST_RING_WRITE_ERROR (ring : Nat)
  /-- A weight engine delivers a layer's queries and new K and V; the device attends and replies with XCHG_LAYER_REPLY (R163) -/
  | XCHG_LAYER (x : Slip)
  /-- A weight engine delivers final hidden states; the head pass, sampling, ring write and charge follow (R163) -/
  | XCHG_FINAL (x : Slip)
  /-- An error reply to XCHG_EMBED or XCHG_LAYER_REPLY arrives, leading to a retry or an abandonment (R165) -/
  | XCHG_ERROR_REPLY (step : Nat) (msg : Nat) (status : Nat)
  /-- An exchange message is sent again XCHG_RETRY_US after a class 0x2 reply (R165) -/
  | XCHG_RETRY (step : Nat) (msg : Nat)
  /-- XCHG_TIMEOUT expires without the next layer's rows and the step is abandoned (R166) -/
  | XCHG_TIMEOUT (step : Nat)
  /-- The step scheduler forms a decode batch, reserves slots and sends XCHG_EMBED (R238) -/
  | BATCH_FORM
  /-- The scheduler forms a prefill chunk step from the prefill queue (R238) -/
  | PREFILL_CHUNK_FORM
  /-- A victim's copy down completes and its T1 slots are released (R188) -/
  | PREEMPT_COPY_DONE (acc : Nat)
  /-- At the high watermark, PREEMPTED sessions are readmitted by a revive (R89) -/
  | READMIT
  /-- Enrols a management principal (R387) -/
  | SEC_PRINCIPAL_ENROL (x : Slip)
  /-- Revokes a principal and closes its connections (R388) -/
  | SEC_PRINCIPAL_REVOKE (x : Slip)
  /-- Reports a tenant's key status (R399) -/
  | SEC_TENANT_STATUS (x : Slip)
  /-- Erases a tenant's sessions, shards, rings, keys and settings (R395) -/
  | SEC_TENANT_ERASE (x : Slip)
  /-- Records confidential-host mode for the next reset (R385) -/
  | SEC_CONF_HOST (x : Slip)
  /-- Unlocks debug (R396) -/
  | SEC_DEBUG_UNLOCK (x : Slip)
  /-- Programs defect marks or row repairs (R397) -/
  | SEC_FUSE_PROGRAM (x : Slip)
  /-- Takes a maintenance lock (R422) -/
  | MAINT_LOCK (x : Slip)
  /-- Releases a maintenance lock after its running activity (R423) -/
  | MAINT_UNLOCK (x : Slip)
  /-- Checks a bundle header and reserves the staging region (R413) -/
  | BUNDLE_LOAD_BEGIN (x : Slip)
  /-- Writes bundle image bytes into staging (R413) -/
  | BUNDLE_LOAD_DATA (x : Slip)
  /-- Verifies and loads the bundle, or reloads the profile (R413) -/
  | BUNDLE_LOAD_END (x : Slip)
  /-- Erases the bundle key and clears T1 (R415) -/
  | BUNDLE_UNLOAD (x : Slip)
  /-- Writes or finalises the inactive firmware image (R428) -/
  | MAINT_FW_UPDATE (x : Slip)
  /-- Prefers the new image as a trial and performs a warm restart (R428) -/
  | MAINT_FW_ACTIVATE (x : Slip)
  /-- Prefers the inactive image and performs a warm restart (R428) -/
  | MAINT_FW_ROLLBACK (x : Slip)
  /-- Patrols a target, correcting lines and returning clean retired units (R424) -/
  | MAINT_PATROL (x : Slip)
  /-- A patrol reaches the end of its target and replies (R424) -/
  | PATROL_COMPLETE (lock : Nat) (corrected : List (Nat × Nat)) (bad : List (Nat × Nat))
  /-- The Rind starts its daily patrol of every channel and stack (R424) -/
  | BACKGROUND_PATROL (scope : Nat) (index : Nat)
  /-- Retrains a stack, a channel or a port (R425) -/
  | MAINT_RETRAIN (x : Slip)
  /-- The retrained target is up and traffic resumes (R425) -/
  | RETRAIN_COMPLETE (lock : Nat) (ok : Bool)
  /-- Moves data off a row, repairs it and records it in the ledger (R426) -/
  | MAINT_ROW_REPAIR (x : Slip)
  /-- Resets one unit (R417) -/
  | MAINT_RESET_UNIT (x : Slip)
  /-- Resets one cluster (R418) -/
  | MAINT_RESET_CLUSTER (x : Slip)
  /-- Resets one partition (R419) -/
  | MAINT_RESET_PARTITION (x : Slip)
  /-- Performs a warm restart (R318) -/
  | MAINT_RESET_DEVICE (x : Slip)
  /-- Soft-disables a unit (R430) -/
  | MAINT_UNIT_DISABLE (x : Slip)
  /-- Arms an injected error (R347) -/
  | DIAG_INJECT (x : Slip)
  /-- Stops the trace (R347) -/
  | DIAG_TRACE_STOP (x : Slip)
  /-- Clears the trace buffer and starts tracing (R347) -/
  | DIAG_TRACE_START (x : Slip)
  /-- Returns trace records (R347) -/
  | DIAG_TRACE_READ (x : Slip)
  /-- The key service delivers a tenant key and its trust list (R378) -/
  | KEY_DELIVER (session : Nat) (tenant : Nat) (flags : Nat) (key : Bytes) (kcv : Nat) (trust : List Bytes)
  /-- Reports a tenant key's presence and KCV (R377) -/
  | KEY_QUERY (session : Nat) (tenant : Nat)
  /-- Delivers the bundle key for a profile (R377) -/
  | BUNDLE_KEY (session : Nat) (profile : Nat) (key : Bytes)
  /-- Returns the confidential-host bounce keys (R386) -/
  | BOUNCE_KEYS (session : Nat)
  /-- A standard SPDM 1.2 request is answered by the responder (R374) -/
  | SPDM_REQUEST (transport : Nat) (req : SpdmReq)
  /-- A submission doorbell write makes the device fetch entries, or puts the pair in ERROR (R49) -/
  | QP_SQ_TAIL (q : Nat) (value : Word)
  /-- A read of submission entries completes; the entries are checked and executed (R52) -/
  | SQ_FETCH_DONE (q : Nat) (entries : List OpSlip) (ok : Bool)
  /-- A reply doorbell write returns reply entries and may resume fetching (R49) -/
  | QP_RQ_HEAD (q : Nat) (value : Word)
  /-- Writing ENABLE 1 activates a pair, or puts it in ERROR for an invalid configuration (R52) -/
  | QP_ENABLE (q : Nat) (value : Word)
  /-- Writing ENABLE 0 drains a pair (R52) -/
  | QP_DISABLE (q : Nat) (value : Word)
  /-- OUTSTANDING reaches 0 and the pair becomes DISABLED (R52) -/
  | QP_DRAIN_DONE (q : Nat)
  /-- A host memory access completes with error and the pair starts discarding (R52) -/
  | HOST_ACCESS_ERROR (q : Nat) (tag : Option (BitVec 32))
  /-- COAL_TIME elapses and the pair's MSI-X message is sent (R51) -/
  | COAL_TIMER (q : Nat)
  /-- A slip is taken whole from a management TLS stream (R53) -/
  | MGMT_SLIP_ARRIVAL (o : OpSlip)
  /-- A management TLS handshake is accepted or refused (R388) -/
  | MGMT_CONNECT (c : Nat) (cert : Bytes)
  /-- A management connection closes, discarding its partial slip and ending its context (R44) -/
  | MGMT_DISCONNECT (c : Nat)
  /-- The Rind submits a slip on its internal queue (R53) -/
  | RIND_SLIP (o : OpSlip)
  /-- A slip held for a newer epoch proceeds, or is answered EPOCH_STALE, once the fetch ends (R58) -/
  | EPOCH_HOLD_RESOLVE
  /-- A DATA packet is placed by OFFSET; a completed message passes to acceptance (R275) -/
  | PRAOL_DATA (sub : Nat) (ce : Bool) (auth : Bool) (k : Pkt)
  /-- An ACK updates acknowledgement, selective retransmission and credit (R276) -/
  | PRAOL_ACK (peer : Nat) (sub : Nat) (auth : Bool) (cum : Nat) (limit : Nat) (sack : Nat)
  /-- A CNP cuts the context's rate (R280) -/
  | PRAOL_CNP (peer : Nat) (sub : Nat) (auth : Bool)
  /-- An OPEN handshake is verified and answered with OPEN_ACK (R382) -/
  | PRAOL_OPEN (sub : Nat) (ipv4 : Bool) (lo : Nat) (hi : Nat) (port : Nat) (h : Shake)
  /-- An OPEN_ACK completes the handshake and the context becomes OPEN (R383) -/
  | PRAOL_OPEN_ACK (peer : Nat) (sub : Nat) (h : Shake)
  /-- A CLOSE moves the context to DRAINING (R281) -/
  | PRAOL_CLOSE (peer : Nat) (sub : Nat) (auth : Bool) (reason : Nat)
  /-- A PROBE is answered with PROBE_ACK (R282) -/
  | PRAOL_PROBE (peer : Nat) (sub : Nat) (auth : Bool)
  /-- A PROBE_ACK shows the peer alive (R282) -/
  | PRAOL_PROBE_ACK (peer : Nat) (sub : Nat) (auth : Bool)
  /-- A DISCOVER is answered with DISCOVER_ACK from any address (R283) -/
  | PRAOL_DISCOVER (sub : Nat)
  /-- A DISCOVER_ACK is taken as a hint (R283) -/
  | PRAOL_DISCOVER_ACK (sub : Nat) (body : Bytes)
  /-- RTO elapses and a DATA packet is retransmitted, or the context fails (R277) -/
  | RTO_EXPIRY (peer : Nat) (psn : Nat)
  /-- ACK_DELAY elapses and an ACK is sent (R276) -/
  | ACK_DELAY_EXPIRY (peer : Nat)
  /-- At the end of each CC_TIMER period the rate climbs or probes (R280) -/
  | CC_PERIOD (peer : Nat)
  /-- An OPEN context silent for KEEPALIVE sends a PROBE (R282) -/
  | KEEPALIVE_EXPIRY (peer : Nat)
  /-- A context silent for DEAD_TIME enters FAILED (R282) -/
  | DEAD_TIME_EXPIRY (peer : Nat)
  /-- An OPENING context without OPEN_ACK for 1 s returns to CLOSED, failing waiting messages (R281) -/
  | OPENING_TIMEOUT (peer : Nat)
  /-- A DRAINING context closes when all is acknowledged or after 100 ms (R281) -/
  | DRAINING_END (peer : Nat)
  /-- A PFC frame pauses class 5 or 3 on a sub-port (R271) -/
  | PFC_FRAME (sub : Nat) (prio : Nat) (quanta : Nat)
  /-- A class paused for PFC_WD stops honouring PFC for 1 s (R271) -/
  | PFC_WATCHDOG (sub : Nat) (cls : Nat)
  /-- A global PAUSE frame is ignored and counted (R271) -/
  | PAUSE_FRAME (sub : Nat)
  /-- An ARP, Neighbour Discovery, Router Advertisement or echo frame is answered or learnt (R270) -/
  | ETH_CONTROL_FRAME (sub : Nat) (k : EthKind)
  /-- At a frame boundary the port picks and sends the next frame under class order, WFQ and shapers (R242) -/
  | EGRESS_FRAME (port : Nat)
  /-- A sub-port link comes up or goes down (R269) -/
  | ETH_LINK_CHANGE (sub : Nat) (up : Bool)
  /-- A CMD0 write queues a program launch with a copy of its parameters (R126) -/
  | NBU_LAUNCH (n : Nat) (params : List (Nat × Word)) (work : List Bytes) (closed : Bool) (input : List (Nat × Bytes)) (expect : List (Nat × List Nat × Nat)) (value : Word)
  /-- An idle NBU takes the next launch from its queues (R127) -/
  | NBU_PROGRAM_START (n : Nat)
  /-- Attends the queries over the pages named by the work queue and emits partial records (R134) -/
  | ATTN (n : Nat)
  /-- Appends one token to a tail page, promoting it where needed (R136) -/
  | APPEND (n : Nat)
  /-- Ages a full page to Y3 in a staging slot (R137) -/
  | AGE (n : Nat)
  /-- Scans vector blocks into a distance heap (R138) -/
  | DIST_SCAN (n : Nat)
  /-- Computes the MXFP4 output head over the NBU's stripe (R139) -/
  | HEAD (n : Nat)
  /-- Copies a page, or its first k tokens, to another slot (R140) -/
  | COPY (n : Nat)
  /-- The issuer receives a program's result word (R128) -/
  | NBU_COMPLETION (n : Nat)
  /-- The base-die merge unit folds an arriving partial record in, and sends the merged record when its count is reached (R135) -/
  | MERGE_RECORD (stack : Nat)
  /-- 128 cycles after the last yield, the NBU yields to ordinary access, refresh and foreground work (R143) -/
  | FORCED_YIELD (n : Nat)
  /-- An ordinary access to a pair waits in the base die, or proceeds when no program runs (R142) -/
  | ORDINARY_ACCESS (addr : Nat) (data : Option Bytes) (len : Nat)
  /-- A bank falls due for refresh, which is performed or postponed as debt (R145) -/
  | REFRESH_DUE (n : Nat) (bank : Nat)
  /-- A word fails parity and is re-read, or the program ends with code 2 (R146) -/
  | NBU_PARITY_ERROR (n : Nat) (place : Nat) (tries : Nat) (ca : Nat)
  /-- An NBU is unit-reset and its work is aborted with code 4 (R148) -/
  | NBU_UNIT_RESET (n : Nat) (kat : Bool)
  /-- Micro-operation NOP (R130) -/
  | NBU_NOP (n : Nat)
  /-- Yield point that serves ordinary access, refresh and suspension (R143) -/
  | YIELD (n : Nat)
  /-- Writes the result word and ends the program (R128) -/
  | HALT (n : Nat)
  /-- Loads a loop counter (R130) -/
  | LOOP (n : Nat)
  /-- Decrements a loop counter and branches if it is non-zero (R130) -/
  | ENDL (n : Nat)
  /-- Branches if the operand is zero (R130) -/
  | BZ (n : Nat)
  /-- Branches if the operand is non-zero (R130) -/
  | BNZ (n : Nat)
  /-- Branches unconditionally (R130) -/
  | JMP (n : Nat)
  /-- Pops a work descriptor, waiting while the queue is empty and open (R130) -/
  | WPOP (n : Nat)
  /-- Declares ping-pong bank use (R145) -/
  | PPB (n : Nat)
  /-- Micro-operation FENCE: waits for the write-back of earlier WRCs (R130) -/
  | FENCE_UOP (n : Nat)
  /-- Loads an immediate (R130) -/
  | LI (n : Nat)
  /-- ALU add (R130) -/
  | ADD (n : Nat)
  /-- ALU subtract (R130) -/
  | SUB (n : Nat)
  /-- ALU and (R130) -/
  | AND (n : Nat)
  /-- ALU or (R130) -/
  | OR (n : Nat)
  /-- ALU exclusive or (R130) -/
  | XOR (n : Nat)
  /-- ALU shift left (R130) -/
  | SHL (n : Nat)
  /-- ALU logical shift right (R130) -/
  | SHR (n : Nat)
  /-- ALU set if less than, unsigned (R130) -/
  | SLTU (n : Nat)
  /-- ALU unsigned minimum (R130) -/
  | MINU (n : Nat)
  /-- ALU unsigned maximum (R130) -/
  | MAXU (n : Nat)
  /-- Loads an SRAM word (R130) -/
  | LDW (n : Nat)
  /-- Stores an SRAM word (R130) -/
  | STW (n : Nat)
  /-- Reads columns into the latch FIFO (R130) -/
  | RDC (n : Nat)
  /-- Writes columns from SRAM lines (R130) -/
  | WRC (n : Nat)
  /-- Moves SRAM lines into the latch FIFO (R130) -/
  | LDS (n : Nat)
  /-- Stores latch columns raw to SRAM (R130) -/
  | STS (n : Nat)
  /-- Loads input-buffer lines into SRAM (R130) -/
  | QLD (n : Nat)
  /-- Sends SRAM lines to the base die as a record (R130) -/
  | EMIT (n : Nat)
  /-- Configures the unpacker (R132) -/
  | UNP (n : Nat)
  /-- Accumulates scores against query vectors (R130) -/
  | DOT (n : Nat)
  /-- Softmax over a state block (R134) -/
  | SMX (n : Nat)
  /-- Accumulates probabilities times values (R130) -/
  | AXV (n : Nat)
  /-- Decodes elements to FP32 (R130) -/
  | DEC (n : Nat)
  /-- Encodes 32 FP32 values and records their error (R130) -/
  | ENC (n : Nat)
  /-- Accumulates the codebook errors of a group (R130) -/
  | CBE (n : Nat)
  /-- Accumulates a vector distance (R130) -/
  | DST (n : Nat)
  /-- Inserts a candidate into the heap under the live threshold (R138) -/
  | TOPK (n : Nat)
  /-- Accumulates head logits (R130) -/
  | HMV (n : Nat)
  /-- An ME finishes a tile and checks its guards; a trip replays it wider (R154): the job's kind and number, and what the guards found -/
  | ME_TILE_END (me : Nat) (kind : Nat) (ref : Nat) (cond : Nat)
  /-- An ME parity error re-executes the tile or unit-resets the ME (R157): the job's kind and number, and the outcome of the test after a reset -/
  | ME_PARITY_ERROR (me : Nat) (kind : Nat) (ref : Nat) (kat : Bool)
  /-- Once per 1 ms the ratio controller samples demand and moves MEs among pools (R178) -/
  | RATIO_PERIOD (demand : List Nat)
  /-- TTL_WAIT expires: an ACCESSIONED session closes and a WAITING session parks (R91) -/
  | EXPIRY_TTL_WAIT (acc : Nat)
  /-- A parked session's tier TTL expires and it moves down the park path or becomes TRANSCRIPT_ONLY (R91) -/
  | EXPIRY_TIER (acc : Nat)
  /-- TTL_TRANSCRIPT expires and the session becomes CLOSED (R91) -/
  | EXPIRY_TRANSCRIPT (acc : Nat)
  /-- The CLOSED hold elapses and the entry becomes FREE (R78) -/
  | CLOSED_HOLD_EXPIRY (acc : Nat)
  /-- An open text context without a slip for CTX_TIMEOUT is closed (R209) -/
  | CTX_TIMEOUT (acc : Nat)
  /-- The ripening engine commits background generations of hot sessions (R189) -/
  | COMMIT_PERIOD (part : Nat)
  /-- A holder acknowledges shelf objects or a head, advancing the commit (R190) -/
  | HOLDER_ACK (acc : Nat) (dev : Nat) (objs : List (Nat × Nat)) (status : Nat) (detail : Nat)
  /-- A holder that has not answered within GET_TIMEOUT is treated as lost (R190) -/
  | GET_TIMEOUT (dev : Nat)
  /-- A holder answering NO_SLOTS 6 for 10 s is treated as lost (R192) -/
  | HOLDER_NO_SLOTS_TIMEOUT (dev : Nat)
  /-- The manifest head arrives; slots are reserved and the fetch begins, or the revive ends (R193) -/
  | REVIVE_HEAD_ARRIVAL (acc : Nat) (dev : Nat) (obj : Option Bytes)
  /-- A returning shelf object is verified and laid into T1, or refused (R197) -/
  | SHELF_OBJECT_ARRIVAL (acc : Nat) (dev : Nat) (kind : Nat) (number : Nat) (obj : Option Bytes)
  /-- A link word fails parity and is replayed (R328) -/
  | LINK_PARITY_ERROR (link : Nat)
  /-- Replay is exhausted and the link retrains, or fails (R329) -/
  | LINK_RETRAIN (link : Nat) (word : Nat)
  /-- Retraining ends and the sender resends (R329) -/
  | LINK_RETRAIN_DONE (link : Nat) (ok : Bool)
  /-- An uncorrectable error is poisoned and recovered by data kind (R334) -/
  | UNCORRECTABLE_ERROR (mem : Nat) (addr : Nat) (data : LostData)
  /-- Corrected errors at one location reach CE_THRESH and a record is written (R331) -/
  | CE_THRESHOLD (mem : Nat) (loc : Nat) (addr : Nat) (n : Nat)
  /-- An error interrupt held back by the 10 µs limit is sent (R337) -/
  | ERR_IRQ_GAP_END
  /-- The Rind sweeps and recounts conserved quantities (R359) -/
  | AUDIT_SWEEP (left : Nat)
  /-- A violation is recorded, followed by a warm restart and a restore, or by a fault hold (R362) -/
  | CONSERVATION_VIOLATION (code : Nat) (check : Nat) (object : Nat) (slip : Option (Ctx × BitVec 32))
  /-- A lockstep mismatch resets the Rind cores from ROM (R368) -/
  | RIND_LOCKSTEP_MISMATCH
  /-- 100 ms without a kick resets the Rind cores (R368) -/
  | RIND_WATCHDOG_EXPIRY
  /-- A slip exceeds SLIP_MS of desk-core time, so its desk core's slips time out and the core is reset (R369) -/
  | DESK_WATCHDOG_EXPIRY (core : Nat) (slips : List (Ctx × BitVec 32))
  /-- A valid press opens or restarts the presence window (R391) -/
  | PRESENCE_PRESS (low : Nat)
  /-- The presence window closes after 30 s (R391) -/
  | PRESENCE_WINDOW_END
  /-- PRES_N held low over 10 s is flagged stuck (R390) -/
  | PRESENCE_STUCK (on : Bool)
  /-- More than 8 raw edges in 1 s set a chatter flag (R390) -/
  | INPUT_CHATTER (input : Nat)
  /-- Removal of the service jumper ends service mode (R392) -/
  | JUMPER_REMOVED
  /-- A SEAL_Q mismatch starts a glitch episode (R393) -/
  | SEAL_EPISODE (begins : Bool)
  /-- A broken loop zeroes keys, counts a seal fuse and warm-restarts (R394) -/
  | SEAL_BREAK
  /-- POR_N rises and the Rind begins the power-on sequence (R407) -/
  | POWER_ON (jumper : Bool) (fuseOk : Bool)
  /-- A power wave powers clusters or a stack (R408) -/
  | POWER_WAVE
  /-- HBM trains, T1 is initialised and the known-answer tests start (R407) -/
  | HBM_TRAINING_DONE
  /-- Cellar channels train, are initialised and the XTS engines are tested (R446) -/
  | DDR_TRAINING_DONE (chans : List (Option Dimm × Option Dimm)) (xts : List Nat)
  /-- A failed first training attempt is retried, and a second failure marks the resource absent (R407) -/
  | TRAINING_FAILED (scope : Nat) (index : Nat)
  /-- Known-answer tests complete and failed units are disabled (R409) -/
  | KAT_DONE (failed : List (Nat × Nat)) (gcm : Nat)
  /-- PWR_OK or POR_N falls and the device resets cold (R453) -/
  | POWER_LOSS
  /-- The Rind performs a warm device reset (R318) -/
  | WARM_RESTART (cause : Nat) (fuseOk : Bool)
  /-- A partition is reset and its hot sessions are parked (R419) -/
  | PARTITION_RESET (p : Nat) (cause : Nat) (lost : List Nat)
  /-- A reset partition completes its restart and becomes ACTIVE (R419) -/
  | PARTITION_ACTIVE (p : Nat) (ok : Bool) (failed : List Nat)
  /-- A cluster is drained, power-cycled and re-tested (R418) -/
  | CLUSTER_RESET (cluster : Nat) (drained : Bool) (failed : List Nat)
  /-- A unit failing its test after reset is soft-disabled and its work reissued (R227) -/
  | UNIT_SOFT_DISABLE (unit : Nat)
  /-- Once per 1 ms LEVEL and HBM_LEVEL are adjusted (R455) -/
  | THROTTLE_PERIOD (west : Nat) (east : Nat) (io : Nat) (hbm : Nat) (hot : Nat) (power : Nat)
  /-- Two samples at trip pull THERMTRIP_N low and reset the device (R456) -/
  | THERMAL_TRIP
  /-- A reference clock is found lost in the 100 µs check (R448) -/
  | REFCLK_LOST (clock : Nat)
  /-- The host port trains in CXL or PCIe mode (R432) -/
  | HOST_LINK_TRAINING (offered : Bool) (width : Nat) (rate : Nat)
  /-- PERST_N, hot reset, FLR or link down resets the host port, queue pairs and host rings (R440) -/
  | HOST_PORT_RESET (kind : Nat)
  /-- The host commits an HDM decoder, or the commit fails (R437) -/
  | HDM_DECODER_COMMIT (dec : Nat) (base : Nat) (size : Nat) (ways : Nat) (gran : Nat) (pos : Nat)
  /-- A host CXL.mem access reaches HBM or the cellar, or is hidden (R120) -/
  | HDM_ACCESS (dec : Nat) (hpa : Nat) (op : MemOp)
  /-- A configuration request is answered, with Retry Status until the firmware runs (R433) -/
  | CONFIG_REQUEST (op : CfgOp)
  /-- Unmasking a vector sends its pending message (R441) -/
  | MSIX_UNMASK (vec : Nat) (addr : Nat) (data : Nat)
  /-- A host snoop is answered RspIHitI (R435) -/
  | H2D_SNOOP
  /-- The press port trains after PERST release, or reports ABSENT after 1 s (R442) -/
  | PRESS_PERST_RELEASE (ssd : Option Ssd)
  /-- An NVMe command completes (R443) -/
  | NVME_COMPLETION (op : NvmeOp) (ok : Bool) (intact : Bool)
  /-- An NVMe command not completed within 2 s is aborted and the controller reset (R444) -/
  | NVME_TIMEOUT (op : NvmeOp)
  /-- Writing an index copies a coherent snapshot of the entry (R95) -/
  | SESS_INSPECT_IDX (value : Word)
  /-- A write sends a broadcast to a group of NBUs (R125) -/
  | NBU_BCAST_DATA (host : Bool) (value : Word)
  /-- Clears NBU_MAX (R149) -/
  | NBU_MAX_CLR
  /-- Clears ME_XCHG_MAX (R181) -/
  | ME_MAX_CLR
  /-- Writing VALID 1 adds a pool list entry (R201) -/
  | POOL_ENTRY_ADD (value : Word)
  /-- Writing VALID 0 retires a pool entry and starts re-replication (R201) -/
  | POOL_ENTRY_RETIRE (value : Word)
  /-- A TIER_QUOTA_Tt write takes effect as TIER_SET_QUOTA (R201) -/
  | TIER_QUOTA_WRITE (tier : Nat) (value : Word)
  /-- A write snapshots the selected sampling slot (R226) -/
  | TEXT_SLOT_SEL (value : Word)
  /-- Clears the high-water marks (R247) -/
  | HWM_CLR
  /-- Clears every histogram (R246) -/
  | HIST_CLR
  /-- Clears the selected queue's bins (R251) -/
  | HIST_QUEUE_CLR (value : Word)
  /-- Every SAMPLE_US, queue depths and delays are sampled (R246): `seen` the depths of queues 3, 4 and 7 at that instant -/
  | HIST_SAMPLE (seen : List Nat)
  /-- Writes a tenant's RATE and BURST as the slip would (R251) -/
  | SCHED_TEN_BUDGET_WRITE (value : Word)
  /-- Sets a tenant's LEVEL full or empty (R251) -/
  | LEVEL_SET (value : Word)
  /-- Sets a tenant's policer full or empty (R245) -/
  | POL_SET (value : Word)
  /-- Configures the policer and fills it (R245) -/
  | SCHED_TEN_POLICE_WRITE (value : Word)
  /-- A shaper configuration write that sets LEVEL (R244) -/
  | SCHED_SHP_CFG_WRITE (value : Word)
  /-- ENABLE 1 enables a ring, or resyncs a ring in ERROR (R228) -/
  | RING_ENABLE (value : Word)
  /-- ENABLE 0 disables a ring with no attached session (R228) -/
  | RING_DISABLE (value : Word)
  /-- Consumer doorbell that advances a ring's CI (R233) -/
  | SCHED_RING_CI (value : Word)
  /-- A write snapshots a shard's information (R267) -/
  | VEC_COL_SEL (value : Word)
  /-- A write copies an error record into the data registers (R350) -/
  | ERR_LOG_SEL (value : Word)
  /-- Empties the sticky area and ends a fault hold (R336) -/
  | ERR_STICKY_CLR (value : Word)
  /-- Takes effect as CKPT_SET_TRIGGERS and may trigger at once (R326) -/
  | CKPT_TRIG_WRITE (value : Word)
  /-- A write to a register with no row of its own, applied or ignored under the access codes (R16) -/
  | REGISTER_WRITE (src : Nat) (bar : Nat) (addr : Nat) (size : Nat) (value : Word)
  /-- A read of a host slip's payload from the payload window completes and the slip goes on to execute (R52) -/
  | PAYLOAD_READ_DONE (q : Nat) (tag : BitVec 32) (bytes : Bytes) (ok : Bool)
  /-- The reply to a device-sent CAT_LOCATE arrives: a QUERY answer lets the slip be forwarded, and REGISTER acknowledgements let a move send SESS_MOVE_COMMIT (R293) -/
  | LOCATE_REPLY (acc : Nat) (dev : Nat) (op : Nat) (r : Reply)
  /-- The reply to a device-sent CAT_MAP_FETCH arrives and the member applies the change lists or map part (R288) -/
  | MAP_FETCH_REPLY (dev : Nat) (r : Reply)
  /-- The joining device receives its assigned device ID after the JOIN commit, sets DEV_DEVID and SESS_SEQ.NEXT, and runs the ownership check of R320 (R290) -/
  | CAT_JOIN_REPLY (r : Reply)
  /-- Checkpoint blocks or a seal requested with CKPT_MIRROR_GET arrive at a restoring device or an adopter (R317) -/
  | MIRROR_GET_REPLY (dev : Nat) (r : Reply)
  /-- A registrar's reply to the once-per-second NOP arrives; a newer EPOCH makes the member fetch the map, and the packet marks the registrar reachable (R356) -/
  | REGISTRAR_NOP_REPLY (dev : Nat) (epoch : Nat)
  /-- A holder drops a device's checkpoint copies 24 hours of its own DEV_TICK after that device's REMOVE committed (R316) -/
  | MIRROR_COPY_EXPIRY (dev : Nat)
  /-- A lost reference clock returns, releasing the device reset held for CORE_REFCLK or RIND_OSC and restarting cold (R448) -/
  | REFCLK_RETURN (clock : Nat) (jumper : Bool) (fuseOk : Bool)
  /-- The core die's post-package repair of a row ends, the ledger bit is set, the slot returns to the free pool and MAINT_ROW_REPAIR replies (R426) -/
  | ROW_REPAIR_DONE (lock : Nat) (ok : Bool)
  /-- An SPI NOR write completes: a firmware image region, boot control, or the configuration record raising GEN_FLOOR, on which a slot's GEN increment waits (R309) -/
  | FLASH_WRITE_DONE (area : Nat) (ok : Bool)
  deriving DecidableEq, Repr

end Sys2Proof
end

