-- ==== Sys2Proof/Decode.lean ====
section
/-!
DEFINITION. The commands that a word spells by the opcode table's bits: the table gives no row any bits, so none.
-/

namespace Sys2Proof

/-- The command that a word of `nbits` bits spells by spec/opcode_table.json: its rows carry no bits. -/
def decodeTableWord (_nbits _w : Nat) : Option Instr := none

end Sys2Proof
end

