-- ==== Sys2Proof/Config.lean ====
section
/-!
DEFINITION. What the spec leaves open: free values, as constants without a body, so that nothing can be proved of them.
-/

namespace Sys2Proof.Config

/-- Where the plan puts a session's page directory and transcript blocks: page ID less 1 (R72, R184; log entry 21). -/
opaque place (kind index : Nat) : Nat

/-- Room of the pool tier, which its holders set and this device does not know: capacity (0) and free count (1) in quarter
pages (Table 7.1, Table 7.9; log entry 34). -/
opaque poolRoom (which counter : Nat) : Nat

/-- The normalisation tables of a version that the loaded bundle names (UNICODE of Table 8.1, R205): the normalised form (1 NFC, 2 NFKC) of
a run of code points; whether a code point is stable; and, of its full decomposition, the leading and trailing non-starters and whether
it holds no starter. -/
opaque normalise (tables : Nat × Nat) (form : Nat) (cps : List Nat) : List Nat
opaque stable (tables : Nat × Nat) (form cp : Nat) : Bool
opaque nonStarters (tables : Nat × Nat) (cp : Nat) : Nat × Nat × Bool

/-- exp in FP32, where no format of the spec fixes its last bit (R135, R151, R218); words of FP32. -/
opaque expF32 (x : Nat) : Nat

/-- cos θ and sin θ of θ = p × f, FP32 words within 2⁻²⁰ of their exact values (R462). -/
opaque cosSin (p f : Nat) : Nat × Nat

/-- What the conversion of a group that holds a NaN gives, and what is measured of it, which no rule states (R97, R99, R107; log
entry 69): `what` 4, 6 or 8 an MX group by element bits and 16 + k a Y3 group under codebook k, with item 0 the scale byte and item
i + 1 element i; 32 the group or page error; 33 the codebook chosen. -/
opaque nanGroup (what : Nat) (values : List Int) (item : Nat) : Nat

/-- FP32 accumulation of a list of products onto a starting value, in an order and with intermediate roundings that the spec
does not fix (R116, R130, R168): FP32 words. -/
opaque accumulate (start : Nat) (products : List (Nat × Nat)) : Nat

/-- The rank in which the `i`-th page record of a row reaches the base die of a stack, the `n`-th time (R135). -/
opaque arrival (n stack i : Nat) : Nat

/-- What a loaded bundle holds for a token (R161, R173-R176; log entry 52): its embedding row, FP8; group `g` of its row of the output head,
MXFP4 element codes and scale, and the NBU whose stripe holds it; has its row a shadow, and group `g` of that in MXFP8, or element
`i` of it in BF16. -/
opaque embedding (profile token : Nat) : List (BitVec 8)
opaque headGroup (profile token g : Nat) : List Nat × Nat
opaque headNbu (profile token g : Nat) : Nat
opaque hasShadow (profile token : Nat) : Bool
opaque shadowGroup (profile token g : Nat) : List Nat × Nat
opaque shadowExact (profile token i : Nat) : Nat

/-- cos(x, q) in FP32 from x·q, ‖x‖² and ‖q‖², whose last bits no rule fixes (R130, Table 10.2). -/
opaque cosine (dot nx nq : Nat) : Nat

/-- Element bytes and scale of the group at a place of a head stripe of `count` groups, 17 bytes a group: where they lie is not stated
(R139). -/
opaque stripeGroup (stripe : List (BitVec 8)) (count place : Nat) : List Nat × Nat

/-- A scratch register of an NBU when a program starts (Table 5.1): the `start`-th start, register `i`. -/
opaque scratch (start i : Nat) : Nat

/-- What this device puts into a handshake beside its plain fields, and the first PSN it offers (R276, Table 15.7): the `n`-th
time. -/
opaque handshake (n : Nat) : List (BitVec 8)
opaque initPsn (n : Nat) : Nat

/-- The duration of the `no`-th snapshot barrier, ns (R307). -/
opaque barrierNs (no : Nat) : Nat

/-- Sections 1 to 9 of checkpoint `no` as bytes, whose layout inside the section no rule gives (Table 12.1): bytes, and the byte
at an offset. -/
opaque sectionBytes (no sec : Nat) : Nat
opaque sectionByte (no sec offset : Nat) : BitVec 8

/-- The body of the record of a session whose tenant's key is absent at a barrier (R303, R371). -/
opaque keylessBody (accession no size : Nat) : List (BitVec 8)

/-- Location records the region of the placement plan has room for (R292). -/
opaque locationRoom : Nat

/-- KIND of an error record that no rule gives one (R368, R394): 0 a lockstep mismatch, 1 the third reset of the Rind, 2 a broken
seal. -/
opaque errKind (event : Nat) : Nat

/-- The Rind ROM's digest, measurement 1 (Table 15.4), and the principal table as the configuration record stores it (role, kinds,
tenant, digest of each index), whose form no rule gives. -/
opaque romDigest : List (BitVec 8)
opaque principalRecord (table : List (Nat × Nat × Nat × Nat × List (BitVec 8))) : List (BitVec 8)

/-- The `n`-th bounce key and salt the device makes, 36 bytes (R386). -/
opaque bounceKey (n : Nat) : List (BitVec 8)

/-- Do the signature and digests of a firmware image, its bytes that are not 0 by offset, verify (R404)? -/
opaque imageGenuine (image : List (Nat × BitVec 8)) : Bool

/-- Does an ECDSA P-384 signature over these bytes verify under the key of this digest (R381)? -/
opaque signatureOk (signer body signature : List (BitVec 8)) : Bool

/-- The `n`-th first load's duration in ms, before its bound (R413). -/
opaque loadMs (n : Nat) : Nat

/-- Ticks of 10 ns that a reset of the Rind's cores takes; R368 bounds it by 5 ms. -/
opaque rindTicks (n : Nat) : Nat

end Sys2Proof.Config
end

