-- ==== Sys2Proof/Machine/State.lean ====
section
/-!
DEFINITION. The state of the block as plain data, the reasons a step can stop, and the state right after reset.  Each
field's docstring names its width or shape, the rule and file of spec/ that gives it, and its reset value; INVENTORY.md
lists the same.
-/

namespace Sys2Proof.Machine

/-- The reasons the block can stop with a fault. -/
inductive Fault where
  /-- Raised by no command of the table; kept so that a fault has a name if a path ever needs one.  Safe. -/
  | outsideHdm
  deriving DecidableEq, Repr

/-- The reasons a command can be turned away by the model. -/
inductive Refusal where
  /-- Raised by an arm of `exec` whose command has no meaning yet.  Safe. -/
  | notModelled (mnemonic : String)
  deriving DecidableEq, Repr

/-- A bit field of a register: BAR0 offset of the register, highest and lowest bit (R13, R15). -/
structure Fld where
  addr : Nat
  hi : Nat
  lo : Nat
  deriving DecidableEq, Repr

/-! ## Call slips (02_call_slips.md) -/

/-- Why an accepted slip has not taken effect yet. -/
inductive Hold where
  /-- an earlier slip of its context, or of its session, must reply first (R56, R57) -/
  | order
  /-- a newer catalogue map is being fetched (R58) -/
  | epoch
  /-- the named session is being revived (R80, R92) -/
  | revive (accession : Nat)
  /-- the named session's park is being committed (R34) -/
  | park (accession : Nat)
  /-- the named session is in a decode step; the slip acts at the step boundary (R82, R34) -/
  | step (accession : Nat)
  /-- the location of the named session is being looked up (R293) -/
  | locate (accession : Nat)
  /-- the bucket's records must arrive from its old owner first (R295) -/
  | bucket (b : Nat)
  /-- a snapshot barrier has begun (R307) -/
  | barrier
  /-- searches of the collection accepted earlier must end (R265) -/
  | vec (id : Nat)
  /-- a stack the step needs is being retrained (R425) -/
  | retrain
  deriving DecidableEq, Repr

/-- Where an outstanding slip stands. -/
inductive Stage where
  /-- fetched; its payload is being read from the payload window (R52) -/
  | payload
  /-- accepted (step 10 of R55), not yet taken up or held -/
  | accepted
  /-- the device runs it now: taken from its own ready list, its command executes (R56; the model's own, log entry 1) -/
  | running
  /-- taken up; its reply waits for an event -/
  | waiting
  deriving DecidableEq, Repr

/-- One outstanding slip: accepted and not yet replied or completed (R54, R57). -/
structure Outst where
  op : Nat
  slip : Slip
  stage : Stage
  /-- note its reply carries (R92): 0 none, 1 SECONDARY_USED, 2 REBUILT with the tokens re-prefilled, 3 revived without a note -/
  note : Nat
  tokens : Nat
  /-- the host memory write of its returned data completes with error (R52) -/
  dataFails : Bool
  /-- DEV_TICK of its acceptance (R246, ME_XCHG_MAX) -/
  since : Nat
  deriving DecidableEq, Repr

/-- A host queue pair's own state beside its registers (R48-R52, Table 2.5, Table 2.16). -/
structure Qp where
  /-- STATE: 0 DISABLED, 1 ACTIVE, 2 DRAINING, 3 ERROR -/
  state : Nat
  errCause : Nat
  discarding : Bool
  /-- next submission entry the device will fetch -/
  sqHead : Nat
  /-- tail last written by the host -/
  sqTail : Nat
  /-- entries of the submission read in flight, 0 when none -/
  fetching : Nat
  /-- slips fetched and not yet replied or completed -/
  fetched : Nat
  rqHead : Nat
  rqTail : Nat
  /-- replies written since the last MSI-X message (R51) -/
  coalCount : Nat
  /-- DEV_TICK of the first of those replies -/
  coalSince : Nat
  /-- replies written since the pair was enabled: the unwrapped index of its next reply entry (Table 15.8) -/
  replies : Nat
  deriving DecidableEq, Repr

/-- A management connection (R53, R387, R388): the principal it authenticated as, and its role; principal 64 and role 0
stand for a bootstrap connection. -/
structure Mgmt where
  principal : Nat
  role : Nat
  deriving DecidableEq, Repr

/-- A reply the device forms (Table 2.3). -/
structure ReplyOut where
  version : Nat
  status : Nat
  tag : Nat
  detail : Nat
  epoch : Nat
  result : Nat
  result2 : Nat
  data : Bytes
  deriving DecidableEq, Repr
/-! ## The loaded profile (what the model bundle supplies; R114, R184, R202, R413) -/

/-- One vocabulary piece (Table 8.1): token ID, bytes and cost. -/
structure Piece where
  id : Nat
  bytes : Bytes
  cost : Nat
  deriving DecidableEq, Repr

/-- What a grammar holds for one pair of state and top symbol (R222): the accepting flag and a transition for each
permitted token (token ID, new state, pops, pushes).  `top` is none for the empty stack. -/
structure GramRow where
  state : Nat
  top : Option Nat
  accepting : Bool
  moves : List (Nat × Nat × Nat × List Nat)
  deriving DecidableEq, Repr

/-- One grammar of the bundle (R222). -/
structure Grammar where
  id : Nat
  start : Nat
  rows : List GramRow
  deriving DecidableEq, Repr

/-- A contiguous range of a space. -/
structure Range where
  space : Nat
  base : Nat
  size : Nat
  deriving DecidableEq, Repr

/-- The classes of the placement plan (R184). -/
inductive PlanClass where
  | kv
  | transcript
  | maskLog
  | sessTable
  | vecList
  | headStripe
  | embedding
  | shadow
  | bundle
  | staging
  | promotion
  | ckptShadow
  deriving DecidableEq, Repr

/-- A T1 region of the placement plan (R184, Table 7.3): `count` runs of `len` page slots, each run `stride` slots after the one
before; slot k lies in the bank pair of NBU k / 2,048 (Table 5.2). -/
structure PlanRegion where
  cls : PlanClass
  first : Nat
  len : Nat
  stride : Nat
  count : Nat
  deriving DecidableEq, Repr

/-- The tables a bundle gives the device. -/
structure Profile where
  id : Nat
  version : Nat
  layers : Nat
  hidden : Nat
  qHeads : Nat
  maxContext : Nat
  /-- page format record (Table 4.7) -/
  tokensPerPage : Nat
  kvHeads : Nat
  headDim : Nat
  escThresh : Nat
  ageThresh : Nat
  pinLayers : List Nat
  pinHeads : List (Nat × Nat)
  exactHead : Bool
  ropePair : Nat
  ropeDims : Nat
  ropeFreq : List Nat
  /-- placement plan (R184, Table 7.3): T1 regions by class, paths, watermarks, holding reserve, cellar units, host-visible regions -/
  plan : List PlanRegion
  parkPath : List Nat
  preemptPath : List Nat
  wmarkLow : Nat
  wmarkHigh : Nat
  holdCap : Nat
  cellarFirst : Nat
  cellarUnits : Nat
  visible : List Range
  /-- vocabulary record (R202, R211) -/
  vocabSize : Nat
  byteBase : Nat
  eosId : Nat
  norm : Nat
  /-- version of the normalisation tables: major and minor (Table 8.1) -/
  unicode : Nat × Nat
  controls : List Nat
  toolOpen : Nat
  toolClose : Nat
  byteCost : Nat
  pieces : List Piece
  grammars : List Grammar
  /-- charge weight and matrix-engine settings -/
  prefillWt : Nat
  prefillFmt : Nat
  headFmt : Nat
  guardExp : Nat
  mePools : List Nat
  softmaxScale : Nat
  /-- near-bank programs (Table 5.8): slot, program ID, first store entry, micro-operation words -/
  programs : List (Nat × Nat × Nat × List Nat)
  /-- peer contexts of the step plan's stages: embeddings, each layer, final hidden states (R158) -/
  embedStage : Nat
  layerStage : List Nat
  finalStage : Nat
  /-- row limit of exchange messages per kind (R158) -/
  rowLimits : List Nat
  deriving DecidableEq, Repr
/-! ## Sessions (03_sessions.md) -/

/-- One bitmap mask of a session's mask log (R87, Table 3.7). -/
structure MaskRec where
  len : Nat
  bits : Bytes
  deriving DecidableEq, Repr

/-- One page-directory entry: the page of `layer` that starts at position `index` × P, in T1 slot `slot` (and `second`
for a wide page), in format 0 MXFP4, 1 wide MXFP8 or 2 Y3 (R102, R105). -/
structure PageRef where
  layer : Nat
  index : Nat
  slot : Nat
  second : Nat
  format : Nat
  fill : Nat
  deriving DecidableEq, Repr

/-- One index entry of a shelf image (Table 7.8); CRC64 as copied from the page colophon. -/
structure IndexEnt where
  layer : Nat
  index : Nat
  format : Nat
  fill : Nat
  /-- page ID of the slot the object was written from -/
  tweakPage : Nat
  /-- device that wrote the object -/
  tweakDev : Nat
  gen : Nat
  alive : Nat
  crc : Nat
  deriving DecidableEq, Repr

/-- The manifest of a session's shelf image: generation, lengths covered, index entries and the ALIVE of every other
object (Tables 7.7 and 7.8). -/
structure Manifest where
  gen : Nat
  profile : Nat
  length : Nat
  transcriptLen : Nat
  layers : Nat
  primaryTier : Nat
  maskAlive : Nat
  entries : List IndexEnt
  partAlive : List Nat
  runAlive : List Nat
  holderSet : List Nat
  /-- masks of the log it covers -/
  maskCount : Nat
  deriving DecidableEq, Repr

/-- A generation request's record (R224): what the sampler, the grammar unit and the detokeniser carry from one token of
the request to the next. -/
structure Req where
  /-- stop strings in force (R217) -/
  stops : List Bytes
  /-- MAX_TOKENS of the request -/
  maxTokens : Nat
  /-- tokens sampled so far (R219, R220) -/
  sampled : Nat
  /-- bytes held back by stop matching (R213) -/
  heldBack : Bytes
  /-- grammar automaton stack, top last (R222) -/
  stack : List Nat
  /-- index of the stop strings' INCLUDE flag: cut after the match (R214) -/
  stopInclude : Bool
  /-- candidate bitmap of the current step, as the token IDs set (R175, R224) -/
  cands : List Nat
  /-- has a loss of the record ended the request (R224)? -/
  lost : Bool
  deriving DecidableEq, Repr

/-- One pre-emption copy of a page below T1 (R188): the page, its tier (2 or 3) and first unit, its bytes. -/
structure DownPage where
  page : PageRef
  tier : Nat
  unit : Nat
  body : Bytes
  /-- GEN of the slot it was copied from -/
  gen : Nat
  deriving DecidableEq, Repr

/-- A session: the fields of its table entry (Table 3.1, Table 3.2) and what the device keeps with it.  TRANSCRIPT_LENGTH
is the length of `transcript` (R75). -/
structure Sess where
  accession : Nat
  state : Nat
  resume : Nat
  tenant : Nat
  template : Bool
  armed : Bool
  forked : Bool
  toolWait : Bool
  heldRecord : Bool
  rebuild : Bool
  tier : Nat
  fault : Nat
  kvLength : Nat
  shelvedLength : Nat
  pending : Nat
  parent : Nat
  forkLength : Nat
  mask : Nat
  maskValid : Bool
  ring : Nat
  attached : Bool
  sampling : Nat
  grammar : Nat
  grammarState : Nat
  reqRemaining : Nat
  ttlWait : Nat
  ttlT2 : Nat
  ttlT3 : Nat
  ttlT4 : Nat
  ttlTranscript : Nat
  deadline : Nat
  entered : Nat
  vft : Nat
  holder1 : Nat
  holder2 : Nat
  holderTier1 : Nat
  holderTier2 : Nat
  shelfGen : Nat
  /-- highest generation begun, so that an abandoned one's number is not used again (R190) -/
  genTop : Nat
  steps : Nat
  preempts : Nat
  faultTag : Nat
  entryGen : Nat
  /-- transcript entries, Table 3.3, 32 bits each -/
  transcript : List Nat
  maskLog : List MaskRec
  pages : List PageRef
  down : List DownPage
  manifest : Option Manifest
  req : Option Req
  /-- groups held for a full ring, oldest first (R234): records of 64 bytes each -/
  heldGroups : List (List Bytes)
  /-- does the newest of them carry FINAL? -/
  heldFinal : Bool
  /-- charge in quarter pages of transcript and mask log in T1 (R185), 0 when they are not there -/
  logCharge : Nat
  /-- charges in quarter pages of the shelf image in T2, T3 and T4 (R185) -/
  img : List Nat
  /-- DEV_TICK when the present tier was reached (R90) -/
  reached : Nat
  /-- does the transcript lie at the holders only (a session that moved in and is not hot yet, R94)?  Then its length is
  `awayLen` and `transcript` is empty -/
  away : Bool
  awayLen : Nat
  /-- is SHELF_GEN a floor, the newest head not yet read (R319)? -/
  floor : Bool
  /-- is the session in an open step (R162)? -/
  inStep : Bool
  /-- SESS_CANCEL asked for while a step is in flight (R82) -/
  cancel : Bool
  /-- park being committed: target tier, 0 when none (R34) -/
  parking : Nat
  /-- state to return to when a revive is refused (R193) -/
  reviveFrom : Nat
  /-- DEADLINE to restore then -/
  reviveDeadline : Nat
  /-- note of the revive: 0 none, 1 SECONDARY_USED, 2 REBUILT (R92) -/
  reviveNote : Nat
  /-- tokens re-prefilled -/
  reviveTokens : Nat
  /-- INDEX of the record of transcript entries lost for good, until the next slip naming the session has been told (Table 13.4) -/
  mediaDue : Option Nat
  deriving DecidableEq, Repr

/-- A target's reservation for an incoming session, or the source's side of a move (R94). -/
structure Move where
  accession : Nat
  /-- the other device -/
  peerDev : Nat
  /-- state the session had, or will have (RESUME_STATE) -/
  resume : Nat
  /-- SHELF_GEN of the image offered -/
  shelfGen : Nat
  /-- remaining DEADLINE of the offered entry, as a duration (R90) -/
  remain : Nat
  /-- phase at the source: 0 offered, 1 registering, 2 committing -/
  phase : Nat
  deriving DecidableEq, Repr
/-! ## KV page slots (04_kv_pages.md, 05_near_bank_units.md) -/

/-- A T1 slot in use, keyed by the page ID of the page's first slot (R117): references (R85), the tenant charged, the
quarter pages charged (R185). -/
structure SlotUse where
  refs : Nat
  tenant : Nat
  charge : Nat
  /-- session that created the page -/
  acc : Nat
  deriving DecidableEq, Repr

/-! ## Tiers (07_memory_tiers.md) -/

/-- A quota: limit and usage in quarter pages; limit 0xFFFF_FFFF is unlimited (R185, R186). -/
structure Quota where
  limit : Nat
  used : Nat
  deriving DecidableEq, Repr

/-- A lent host region (R199, R201): STATE 0 free, 1 lent, 2 reclaiming. -/
structure HostRegion where
  state : Nat
  base : Nat
  units : Nat
  deriving DecidableEq, Repr

/-- A pool-list entry (R201). -/
structure PoolEnt where
  device : Nat
  deriving DecidableEq, Repr

/-- A shelf object held by this device, for itself or for another (R194): key, ALIVE, tenant and body as it rests there,
encrypted (R372). -/
structure ShelfObj where
  accession : Nat
  kind : Nat
  number : Nat
  alive : Nat
  tenant : Nat
  body : Bytes
  /-- tier of the medium it rests in: 2 or 3 -/
  tier : Nat
  /-- owner's own object (charged to quota) or held for another device (charged to TIER_HOLD) -/
  own : Bool
  /-- the second copy a composition of one device keeps itself (R191) -/
  second : Bool
  /-- first 16 KiB unit it occupies in its tier -/
  unit : Nat
  deriving DecidableEq, Repr

/-- Why a generation is being committed (R189): 0 background, 1 TTL_WAIT park, 2 SESS_PARK, 3 victim, 4 tier move,
5 re-replication, 6 page objects dropped at the last expiry.  `h1`, `h2` and `t2` are the holders the generation names, and the
secondary copy's tier; the entry names them once the head is acknowledged (R191).  `lost` are devices it replaces (R192). -/
structure Commit where
  /-- generation being committed -/
  gen : Nat
  why : Nat
  /-- tier the primary copy reaches with this commit -/
  target : Nat
  /-- manifest of the generation -/
  manifest : Manifest
  /-- objects written and not yet acknowledged: (holder device, kind, number) -/
  unacked : List (Nat × Nat × Nat)
  /-- page objects of this generation, with the slot they were copied from and its GEN then -/
  copied : List (Nat × Nat × Nat)
  /-- has the head been written (step 2)? -/
  head : Bool
  /-- did a slip change what the image carries while the park was being committed (R34)? -/
  redo : Bool
  h1 : Nat
  h2 : Nat
  t2 : Nat
  lost : List Nat
  deriving DecidableEq, Repr

/-- A revive, or another read of a session's image, in progress (R193).  `phase` says what for: 1 a revive whose head is asked
for, 2 a revive that fetches, 3 its tail of re-prefilling up to `goal` positions, 4 the logs of a session that moved in, 5 logs
to rebuild from, 6 re-replication (R192), 7 a move down of pages held elsewhere, 8 the head of a session being adopted (R321), 9 a
truncation's tail (R335), 10 the index of an image whose holder is to be replaced (R192).  `stage` is 0 before the head, 1 for index parts
and logs, 2 for pages. -/
structure Revive where
  phase : Nat
  stage : Nat
  head : Option Manifest
  /-- page objects the head counts -/
  count : Nat
  /-- objects still to come: (kind, number, device asked) -/
  asked : List (Nat × Nat × Nat)
  /-- holders lost for this revive -/
  lost : List Nat
  /-- T1 slots still reserved for it -/
  reserved : Nat
  /-- readmission of a pre-empted session (R89) -/
  readmit : Bool
  /-- transcript runs received: (run, entries) -/
  runs : List (Nat × List Nat)
  /-- mask log received -/
  masks : List MaskRec
  /-- lowest first position among lost pages of a readmission (R335) -/
  lostPos : Option Nat
  /-- objects received for a move down: (number, header and body) -/
  got : List (Nat × Bytes)
  /-- KV_LENGTH to reach again -/
  goal : Nat
  /-- objects not asked for yet, for want of a place among those in flight (R187): (kind, number, device to ask) -/
  todo : List (Nat × Nat × Nat)
  /-- a move down looks for its next tier after this one -/
  past : Nat
  deriving DecidableEq, Repr
/-! ## Near-bank units and base dies (05_near_bank_units.md) -/

/-- A queued launch (R126): program slot, queue, TAG, its copied parameters (CMD3 to CMD15 or CMD16 to CMD28), and the work
descriptors its issuer gave it, for a reissue (R141). -/
structure Launch where
  slot : Nat
  bg : Bool
  tag : Nat
  params : List Nat
  work : List Bytes
  deriving DecidableEq, Repr

/-- Unpacker configuration and progress (R132): format, page base column, SRAM address of the first group's scale, first group
index, next group index, codebook, G, P, escapes enabled, bytes of a group that straddles columns. -/
structure Unp where
  format : Nat
  base : Nat
  scale : Nat
  first : Nat
  group : Nat
  book : Nat
  g : Nat
  p : Nat
  esc : Bool
  rest : Bytes
  deriving DecidableEq, Repr

/-- What a program in progress keeps: its launch, its own copy of the launch's parameters, PC, scalar registers S0 to S15, loop counters
LC0 to LC3, unpacker, and the query count of its last SMX. -/
structure Run where
  launch : Launch
  params : List Nat
  pc : Nat
  scal : List Nat
  lc : List Nat
  unp : Unp
  queries : Nat
  deriving DecidableEq, Repr

/-- An ordinary access that waits for a pair (R142): bank-linear address, bytes to write (none for a read), length, DEV_TICK of
its arrival, whether the host made it over CXL.mem. -/
structure Access where
  addr : Nat
  data : Option Bytes
  len : Nat
  since : Nat
  host : Bool
  deriving DecidableEq, Repr

/-- An NBU (Table 5.1, Tables 5.14 and 5.15). -/
structure Nbu where
  /-- CMD0 to CMD28 as last written, results in 1 and 2 -/
  cmd : Tbl Nat
  groups : Nat
  fg : List Launch
  bg : List Launch
  run : Option Run
  susp : Option Run
  /-- foreground programs completed while a background program is suspended (R127) -/
  fgSince : Nat
  /-- local SRAM, absolute byte address and byte, no entry 0 -/
  sram : List (Nat × Byte)
  /-- columns in the latch FIFO, at most 32, and what the read engine still has to bring: columns by address, or SRAM lines -/
  latch : List Bytes
  toRead : List (Nat × Option Bytes)
  /-- work queue of the base die for this NBU, and is it closed (R116, Table 5.7)? -/
  work : List Bytes
  closed : Bool
  debt : List Nat
  ppOn : Bool
  ppActive : Nat
  /-- ordinary accesses, the first four of them admitted (R142) -/
  waiting : List Access
  rereads : Nat
  fails : Nat
  cause : Nat
  ca : Nat
  /-- DEV_TICK of its code-2 endings (R147) -/
  parity : List Nat
  /-- are scalar registers and loop counters clear, as a reset leaves them (R148)? -/
  clean : Bool
  /-- completion messages not yet taken by their issuer: launch and result word -/
  done : List (Launch × Nat)
  deriving DecidableEq, Repr

/-- A record that has reached a base die: kind 0 partial attention record, 1 head logits, 2 other; the routing word; its
bytes. -/
structure Rec where
  kind : Nat
  route : Nat
  body : Bytes
  deriving DecidableEq, Repr

/-- A record a merge unit expects or is combining (R135): kind, key (TAG, BATCH_SLOT, KV_HEAD), records expected, records folded
in, the record so far. -/
structure Merge where
  kind : Nat
  key : List Nat
  expect : Nat
  got : Nat
  body : Bytes
  deriving DecidableEq, Repr

/-- A base die (R116): input buffer entries, records arrived, merge unit. -/
structure Stack where
  input : Tbl Bytes
  inbox : List Rec
  merges : List Merge
  deriving DecidableEq, Repr
/-! ## Steps (06_matrix_engines.md) -/

/-- A row of an open step (R158, R161, R162): session index, accession, position, batch slot, WANT_FINAL, transcript entry of
its token, the layer its next XCHG_LAYER must name (the profile's layer count when all are served), slots still reserved for
its appends (R109), the final hidden state once it has arrived. -/
structure StepRow where
  idx : Nat
  acc : Nat
  pos : Nat
  slot : Nat
  want : Bool
  entry : Nat
  layer : Nat
  reserved : Nat
  hidden : Option Bytes
  /-- the sampling structure in force, taken when the step was formed (R215) -/
  sampling : Bytes
  deriving DecidableEq, Repr

/-- An exchange message the device sent (R165): number within the step, opcode, peer context, payload, retries made, DEV_TICK
of the retry to come. -/
structure XMsg where
  no : Nat
  op : Nat
  peer : Nat
  payload : Bytes
  retries : Nat
  due : Option Nat
  deriving DecidableEq, Repr

/-- A message of a stage already served (R164): opcode, LAYER, MSG_INDEX, batch slots of its rows, the stored reply and the
number it was sent under. -/
structure Served where
  op : Nat
  layer : Nat
  index : Nat
  slots : List Nat
  reply : Bytes
  no : Nat
  deriving DecidableEq, Repr

/-- An open step (R158-R166): a decode batch, or one prefill chunk of one session. -/
structure XStep where
  id : Nat
  prefill : Bool
  rows : List StepRow
  sent : List XMsg
  nextNo : Nat
  served : List Served
  /-- slips of a prefill that wait for rows of lower positions (R162) -/
  waiting : List Slip
  /-- rows of a prefill that have arrived and are not appended: (layer, position, row data) -/
  arrived : List (Nat × Nat × Bytes)
  /-- DEV_TICK at which the step's last message was sent, and XCHG_TIMEOUT at that time, in ticks -/
  lastSent : Nat
  timeout : Nat
  /-- provisionings of peer contexts up to the step's opening (R465) -/
  conf : Nat
  /-- a tile of the chunk is non-finite at BF16: nothing more of it is served (R156) -/
  failing : Bool
  deriving DecidableEq, Repr

/-- A prefill in progress (R172, R109): KV_LENGTH when it began, PREFILL_CHUNK then, slots still reserved, has its first chunk
been formed before (R237)? -/
structure Prefill where
  start : Nat
  chunk : Nat
  reserved : Nat
  charged : Bool
  deriving DecidableEq, Repr

/-- A tile (R154-R157), queued or in flight: kind of job 0 prefill, 1 head, 2 vector; its step or search; its partition; what the guards
find at its entry format and at each wider one it reaches (0 nothing, 1 NONFINITE, 2 MAGNITUDE, 3 SATURATION); its entry format and the
format it runs at now; is it on the second ME of a NONFINITE re-execution; parity errors in it; the ME it may not go back to. -/
structure Tile where
  kind : Nat
  ref : Nat
  part : Nat
  conds : List Nat
  entry : Nat
  fmt : Nat
  second : Bool
  parity : Nat
  avoid : Option Nat
  deriving DecidableEq, Repr

/-- What an ME keeps beside its registers: its tile, the DEV_TICK of its last unit resets. -/
structure Me where
  tile : Option Tile
  resets : List Nat
  deriving DecidableEq, Repr
/-! ## Text contexts (08_text_and_sampling.md) -/

/-- An open text context (R209): the carried bytes of R204, the code points the normaliser holds (R205), the normalised
bytes after the last final node with their validity (R207), the DEV_TICK at which it times out. -/
structure TextCtx where
  carry : Bytes
  hold : List Nat
  lattice : List (Byte × Bool)
  due : Nat
  /-- non-starters that end what has entered the normaliser (R205) -/
  run : Nat
  deriving DecidableEq, Repr
/-! ## Tenants, rings, scheduling (09_streaming_and_fairness.md, 08_text_and_sampling.md) -/

/-- A token bucket: RATE, BURST and LEVEL in the bucket's own units, the DEV_TICK of the last refill and the remainder
that refill carried (R235, R243, R245). -/
structure Bucket where
  rate : Nat
  burst : Nat
  level : Int
  stamp : Nat
  carry : Nat
  deriving DecidableEq, Repr

/-- A tenant's sampling slot: the sampling structure (40 bytes of Table 8.4) and its stop strings (R215, R217). -/
structure SampSlot where
  sampling : Bytes
  stops : List Bytes
  /-- INCLUDE of the stop structure (R214) -/
  incl : Bool
  deriving DecidableEq, Repr

/-- A tenant's budget ledger in 2⁻⁸ token (R353): BASE, REFILL, LOSS and CHARGE split by kind, and the counts of other units that each
part is compared with: GENERATED entries appended, input entries prefilled at their weight, searches accepted at their cost. -/
structure Ledger where
  base : Int
  refill : Nat
  loss : Nat
  sampled : Nat
  prefill : Nat
  search : Nat
  generated : Nat
  inputs : Nat
  searches : Nat
  deriving DecidableEq, Repr

/-- A tenant, or the operator reserve under key 0xFFFF: provisioning (R42), budget (R235, LEVEL in 2⁻⁸ token), weight and
finish tag (R239), policer (R245), quotas of T1 to T4 (R185), sampling slots (R215), key and trust list (R378, R379). -/
structure Tenant where
  provisioned : Bool
  budget : Bucket
  weight : Nat
  finish : Nat
  policer : Bucket
  drops : Nat
  quotas : List Quota
  slots : Tbl SampSlot
  /-- the tenant key K_T once delivered (R377), as delivered bytes; none before -/
  key : Option Bytes
  kcv : Nat
  trustOperator : Bool
  trust : List Bytes
  /-- erased by a seal break and not delivered again (R394) -/
  sealedErase : Bool
  ledger : Ledger
  deriving DecidableEq, Repr

/-- A RING_PUSH sent (R232): first INDEX, records, retries made, DEV_TICK of the retry to come. -/
structure Push where
  first : Nat
  recs : List Bytes
  retries : Nat
  due : Option Nat
  deriving DecidableEq, Repr

/-- An output ring (R228, Table 9.1): STATE 0 DISABLED, 1 ENABLED, 2 ERROR. -/
structure Ring where
  state : Nat
  network : Bool
  irqEn : Bool
  vec : Nat
  peer : Nat
  logSize : Nat
  tenant : Nat
  base : Nat
  mirror : Nat
  pi : Nat
  ci : Nat
  /-- session-table index of the attached session -/
  owner : Option Nat
  /-- records written by the current step and not yet pushed (R232) -/
  batch : List Bytes
  /-- pushes sent whose records are not all consumed: first INDEX, records, retries made (R232) -/
  pushes : List Push
  /-- the ring's ledger since it was enabled (R354): groups made, written and discarded, RESYNC and group records written -/
  made : Nat
  groups : Nat
  discarded : Nat
  written : Nat
  /-- provisionings of peer contexts up to the ring's configuration (R465) -/
  conf : Nat
  deriving DecidableEq, Repr

/-- A queued session of the step scheduler (R239): VFT, tenant, order of queueing, session index, DEV_TICK of
queueing. -/
structure Queued where
  since : Nat
  vft : Nat
  tenant : Nat
  order : Nat
  idx : Nat
  deriving DecidableEq, Repr

/-- The step scheduler (R238-R240): virtual time, the decode and prefill queues, the next order number. -/
structure Sched where
  v : Nat
  decode : List Queued
  prefill : List Queued
  next : Nat
  deriving DecidableEq, Repr

/-- A shaper (R243, R244): bucket in bytes (RATE in Mb/s, BURST in 64-byte units), OVERHEAD, enable. -/
structure Shaper where
  enable : Bool
  overhead : Nat
  bucket : Bucket
  deriving DecidableEq, Repr

/-- An observed queue's histograms (R246): samples taken before its last clear, bins 1 to 15 of depth and bins 0 to 15 of
delay that are not 0, and the sample after which a delay was last added.  Bin 0 of depth is the other samples. -/
structure Hist where
  from_ : Nat
  depth : Tbl Nat
  delay : Tbl Nat
  last : Nat
  deriving DecidableEq, Repr
/-! ## The Praol transport and the Ethernet ports (11_network_and_catalogue.md) -/

/-- To whom a message this device sends fails when its context fails (Table 11.5). -/
inductive Owner where
  /-- nobody: a reply, or a slip whose loss its own timeout covers -/
  | free
  /-- a RING_PUSH: ring and first INDEX (R232) -/
  | push (ring first : Nat)
  /-- an exchange message of an open step (R165) -/
  | xchg (step msg : Nat)
  /-- shelf or mirror traffic to a device (R192) -/
  | shelf (dev : Nat)
  deriving DecidableEq, Repr

/-- One message: a call slip with its payload, or a reply, as the bytes it is on the wire (R275). -/
structure Msg where
  cls : Nat
  tenant : Nat
  bytes : Bytes
  owner : Owner
  deriving DecidableEq, Repr

/-- A DATA packet sent and not yet known received: the packet, DEV_TICK of its last transmission, the sub-port it took (port × 4
+ sub), and whether it has been retransmitted for later packets reported received. -/
structure Flight where
  pkt : Pkt
  sent : Nat
  sub : Nat
  fast : Bool
  deriving DecidableEq, Repr

/-- A message partly received (R275): pieces placed by OFFSET. -/
structure Partial where
  msgId : Nat
  len : Nat
  pieces : Tbl Bytes
  deriving DecidableEq, Repr

/-- Sending side of a peer context (R274-R280). -/
structure PeerTx where
  psn : Nat
  msgId : Nat
  txc : Nat
  /-- CUM_PSN of the newest ACK -/
  cum : Nat
  /-- messages waiting while the context is OPENING (R465) -/
  waiting : List Msg
  /-- messages cut into packets and not wholly acknowledged -/
  msgs : List (Nat × Msg)
  /-- packets not yet sent, for want of credit -/
  queue : List Pkt
  flight : List Flight
  /-- credit units used, cumulative, and the peer's CREDIT_LIMIT -/
  used : Nat
  limit : Nat
  /-- RTO now, in µs, and consecutive timeouts (R277) -/
  rto : Nat
  timeouts : Nat
  /-- rate control (R280), in 1/256 Gb/s; DEV_TICK of the last cut -/
  rate : Nat
  ceiling : Nat
  step : Nat
  lastCut : Option Nat
  cnpSeen : Bool
  deriving DecidableEq, Repr

/-- Receiving side of a peer context (R275-R280). -/
structure PeerRx where
  /-- next PSN expected -/
  expect : Nat
  /-- later PSNs received -/
  got : List Nat
  parts : List Partial
  /-- next MSG_ID to pass to acceptance -/
  msgId : Nat
  /-- complete messages that wait for an earlier one: MSG_ID, credit units, bytes -/
  complete : List (Nat × Nat × Bytes)
  /-- DATA packets since the last ACK, and DEV_TICK of the first of them -/
  unacked : Nat
  ackSince : Nat
  /-- cumulative CREDIT_LIMIT granted, units received in all, and units now in the buffer -/
  granted : Nat
  seen : Nat
  held : Nat
  /-- DEV_TICK when anything was last received, and the sub-port (port × 4 + sub) -/
  heard : Nat
  sub : Nat
  /-- DEV_TICK of the last CNP sent, none before the first -/
  cnp : Option Nat
  deriving DecidableEq, Repr

/-- A frame queued at a port: class, peer context (4,096 for control frames of the port itself), tenant, length from
destination address to FCS, sub-port, DEV_TICK of queueing, and what it carries. -/
structure Frame where
  /-- UDP source and destination port of a Praol frame, 0 of the port's own (R270, R278) -/
  udp : Nat × Nat
  sub : Nat
  since : Nat
  cls : Nat
  peer : Nat
  tenant : Nat
  len : Nat
  pkt : Option Pkt
  body : Bytes
  deriving DecidableEq, Repr

/-- An Ethernet port (R268-R272): MODE applied at the last link training, sub-ports up, pauses as (sub-port, class, DEV_TICK
of its end, DEV_TICK since which the class has been paused without a break), (sub-port, class) for which the watchdog holds PFC off
until a DEV_TICK, rotation, queued frames in order, and the fair-queueing tags of classes and of peer queues. -/
structure Port where
  mode : Nat
  up : List Bool
  pauses : List (Nat × Nat × Nat × Nat)
  pfcOff : List (Nat × Nat × Nat)
  rot : Nat
  queue : List Frame
  classTag : Tbl Nat
  peerTag : Tbl Nat
  vtime : Nat
  /-- next hops learnt by sub-port: (sub-port, 4 or 6, address bytes) (R270) -/
  hops : List (Nat × Nat × Bytes)
  deriving DecidableEq, Repr
/-! ## Catalogue (11_network_and_catalogue.md) -/

/-- A bucket entry (Table 11.6). -/
structure Bucket11 where
  primary : Nat
  secondary : Nat
  changed : Bool
  deriving DecidableEq, Repr

/-- A device entry (Table 11.7): STATE 0 unused, 1 ACTIVE, 2 LEAVING, 3 POOL, 4 GONE. -/
structure CatDev where
  state : Nat
  registrar : Bool
  lease : Nat
  address : Bytes
  profile : Nat
  joinEpoch : Nat
  deriving DecidableEq, Repr

/-- A change entry (Table 11.8). -/
structure Change where
  kind : Nat
  first : Nat
  a : Nat
  b : Nat
  count : Nat
  address : Bytes
  deriving DecidableEq, Repr

/-- A forwarding record (R294): session, new owner, epoch in which the move committed, DEV_TICK of the commit. -/
structure FwdRec where
  accession : Nat
  owner : Nat
  epoch : Nat
  tick : Nat
  deriving DecidableEq, Repr

/-- A location record kept by a bucket owner (R292). -/
structure LocRec where
  accession : Nat
  owner : Nat
  epoch : Nat
  deriving DecidableEq, Repr

/-- A change this device, as a registrar, is to propose once it can (R285-R291): the change list proper is worked out from the
map of the epoch it is proposed in. -/
inductive Wish where
  /-- JOIN: requested ID, none for any; address; profile -/
  | join (want : Option Nat) (address : Bytes) (profile : Nat)
  | leaving (dev : Nat)
  | remove (dev : Nat)
  | lease (dev lease : Nat)
  deriving DecidableEq, Repr

/-- A proposal this device runs as a proposer (R286): phase 0 none, 1 CLAIM, 2 ACCEPT; the ballot, the wish it serves, its own
change list, the accepted list it must propose instead and that list's ballot, the registrars that granted or accepted,
the highest ballot another has been seen to hold, DEV_TICK when the attempt began. -/
structure Proposal where
  phase : Nat
  ballot : Nat
  own : List Change
  found : List Change
  foundBallot : Nat
  votes : List Nat
  seen : Nat
  since : Nat
  deriving DecidableEq, Repr

/-- A slip whose reply waits for a change to commit (Table 11.10): change KIND (1 JOIN, 2 LEAVING, 3 REMOVE), device, for a JOIN the
address, the slip's opcode and the slip. -/
structure CatClient where
  kind : Nat
  dev : Nat
  address : Bytes
  op : Nat
  slip : Slip
  deriving DecidableEq, Repr

/-- A locate query or registration in flight (R293, R292): the session, the device asked, whether the secondary has been
asked, and what it is for: 0 a slip that waits, 1 a move's registration, 2 the check of R320 -/
structure Locate where
  accession : Nat
  asked : Nat
  second : Bool
  why : Nat
  /-- acknowledgements still to come (registration goes to both owners), and DEV_TICK of the query -/
  left : Nat
  since : Nat
  deriving DecidableEq, Repr

/-- A slip forwarded to its new owner (R58, R293): the device asked, the TAG the slip carries there; the reply goes back to the
slip's context. -/
structure Fwd where
  dev : Nat
  tag : Nat
  op : Nat
  slip : Slip
  deriving DecidableEq, Repr

/-- A map fetch in flight (R288): from whom, FROM_EPOCH (0: the whole map), the epoch of its first part, the parts of a whole map so
far. -/
structure Fetch where
  dev : Nat
  from_ : Nat
  epoch : Nat
  parts : List Bytes
  deriving DecidableEq, Repr

/-- Sessions of a removed device this device is to adopt (R321): DEV_TICK of the REMOVE, its buckets not yet adopted, whether
adoption has begun. -/
structure Adopt where
  dev : Nat
  buckets : List Nat
  since : Nat
  begun : Bool
  deriving DecidableEq, Repr

/-- The catalogue as this device holds it. -/
structure Cat where
  buckets : Tbl Bucket11
  devices : Tbl CatDev
  /-- change lists of the last 16 epochs, (epoch, DIGEST after it, list), oldest first (R288) -/
  history : List (Nat × Nat × List Change)
  /-- ballot promised for the next epoch, 0 none (R286) -/
  promised : Nat
  /-- ballot and list accepted for the next epoch, ballot 0 none -/
  acceptedBallot : Nat
  acceptedList : List Change
  /-- R287 -/
  abstaining : Bool
  proposal : Proposal
  wishes : List Wish
  clients : List CatClient
  fwd : List FwdRec
  loc : List LocRec
  locates : List Locate
  forwards : List Fwd
  /-- buckets whose records have not arrived from the old owner (R295): (bucket, old owner) -/
  waiting : List (Nat × Nat)
  fetch : Option Fetch
  /-- joining (R290): 0 not, 1 asked and not answered, 2 given an ID and waiting for the map, 3 fetching the map before asking -/
  joining : Nat
  /-- the ID asked for when joining, 0xFFFFFFFF any (R290, R320) -/
  wantId : Nat
  /-- sessions whose ownership R320 has not decided -/
  undecided : List Nat
  /-- DEV_TICK of the last NOP to the registrars, none before the first (R356) -/
  nopTick : Option Nat
  /-- members this registrar probes, and since when (R296) -/
  suspects : List (Nat × Nat)
  /-- buckets waiting for adoption (R321) -/
  adopt : List Adopt
  /-- this device is leaving (R296), since when, and whether it has asked for its REMOVE -/
  leaving : Bool
  leaveTick : Nat
  finalSent : Bool
  /-- this device has been removed (R356) -/
  gone : Bool
  /-- holders found lost while the member was fenced; they are replaced when the fence ends (R192, R356) -/
  lostLate : List Nat
  deriving DecidableEq, Repr

/-- A network peer context's configuration and state (R281, Table 11.5, Table 11.13): STATE 0 CLOSED, 1 OPENING, 2 OPEN,
3 DRAINING, 4 FAILED. -/
structure Peer where
  valid : Bool
  /-- 0 FRONT_END, 1 GATEWAY, 2 YD, 3 POOL, 4 WEIGHT -/
  kind : Nat
  trusted : Bool
  ipv4 : Bool
  tenant : Nat
  port : Nat
  addrLo : Nat
  addrHi : Nat
  weight : Nat
  state : Nat
  /-- the peer's own number for the context (DST_CTX), and DEV_TICK when STATE was entered -/
  remote : Nat
  since : Nat
  /-- digest of the peer's leaf public key (R379) -/
  leaf : Bytes
  /-- device ID the peer's certificate names, for YD and POOL peers -/
  dev : Nat
  tx : PeerTx
  rx : PeerRx
  /-- DEV_TICK since which the context has been idle -/
  idle : Nat
  /-- number of its last provisioning by NET_PEER_CFG or NET_PEER_ADDR (R465) -/
  prov : Nat
  deriving DecidableEq, Repr

/-- A management principal of the configuration record (R387, Table 15.9). -/
structure Principal where
  role : Nat
  kinds : Nat
  tenant : Nat
  digest : Bytes
  deriving DecidableEq, Repr
/-! ## Vector search (10_vector_search.md) -/

/-- A shard of a collection (R252-R256).  STATE 0 FLAT, 1 LOADING, 2 READY, 3 DAMAGED.  Chains are block numbers, the first block
of the list first; centroids are kept as stored (R256); locators of live keys (R255); INDEX of the error record that damaged
it. -/
structure Shard where
  tenant : Nat
  dim : Nat
  format : Nat
  distance : Nat
  shard : Nat
  map : List Nat
  scale : Nat
  bf16 : Bool
  state : Nat
  lists : Nat
  loaded : Nat
  centBlocks : List Nat
  chains : Tbl (List Nat)
  index : List (Nat × Nat)
  err : Nat
  /-- dropped, and kept only for searches accepted earlier (R265) -/
  gone : Bool
  deriving DecidableEq, Repr

/-- A candidate of a search (R262): distance (FP32), shard, order within the shard, key. -/
structure Cand where
  dist : Nat
  shard : Nat
  order : Nat
  key : Nat
  deriving DecidableEq, Repr

/-- A search being gathered (R259, R260): its slip, collection, parameters, ranks probed, the present round, candidates so far,
tombstones skipped, shards dropped and shards whose reply to this round is outstanding, DEV_TICK of the round's end. -/
structure Search where
  slip : Slip
  id : Nat
  query : List Nat
  mask : Nat
  value : Nat
  k : Nat
  maxProbe : Nat
  widen : Bool
  partialOk : Bool
  probed : Nat
  upTo : Nat
  cands : List Cand
  skipped : Nat
  dropped : List Nat
  asked : List Nat
  due : Nat
  /-- a tile of its centroid comparison is non-finite at BF16 (R156, R264) -/
  failing : Bool
  deriving DecidableEq, Repr
/-! ## Errors, traces, scans (13_integrity.md) -/

/-- An error record (Table 13.5). -/
structure ErrRec where
  index : Nat
  cls : Nat
  injected : Bool
  kind : Nat
  unit : Nat
  tick : Nat
  address : Nat
  accession : Nat
  deriving DecidableEq, Repr

/-- An armed injection (R347): KIND, UNIT, ADDRESS and the accesses it is still applied to. -/
structure Inject where
  kind : Nat
  unit : Nat
  address : Nat
  count : Nat
  deriving DecidableEq, Repr

/-- A trace record (R347). -/
structure TraceRec where
  tick : Nat
  event : Nat
  unit : Nat
  arg0 : Nat
  arg1 : Nat
  arg2 : Nat
  deriving DecidableEq, Repr

/-- The trace (R347): running, event mask, records, at most 131,072. -/
structure Trace where
  on : Bool
  mask : Nat
  recs : List TraceRec
  deriving DecidableEq, Repr

/-- The error side of the device beside its registers: the log's last 1,024 records, the sticky area, the row candidates as
(row, corrections), when the last message was sent and whether one is held back (R336, R331, R337), armed injections,
poisoned 64-byte lines as (0 HBM by bank-linear address, 1 cellar; line number) (R330), fabric links' last exhaustion
(R329), and the data registers of ERR_LOG_SEL. -/
structure Errs where
  log : List ErrRec
  sticky : List ErrRec
  rows : List (Nat × Nat)
  lastIrq : Option Nat
  irqHeld : Bool
  inject : List Inject
  poison : List (Nat × Nat)
  exhausted : Tbl Nat
  shown : Option ErrRec
  deriving DecidableEq, Repr

/-- A memory scan (R343): the slip that asked for it, or none for one of the Rind's own. -/
structure Scan where
  slip : Slip
  hdm1 : Bool
  crc64 : Bool
  start : Nat
  len : Nat
  seed : Nat
  deriving DecidableEq, Repr
/-! ## Checkpoints (12_checkpoint_and_recovery.md), locks and flash (16_bringup_and_reset.md) -/

/-- A maintenance lock (R421-R423): activity (Table 16.7), scope code and object, the context that holds it (none: the device
itself), taken for one slip only, an activity runs under it, to be released when that ends. -/
structure Lock where
  id : Nat
  activity : Nat
  scope : Nat
  index : Nat
  holder : Option Ctx
  auto : Bool
  active : Bool
  ending : Bool
  deriving DecidableEq, Repr

/-- A checkpoint as its barrier captured it (R302, Table 12.1): what its seal says, and the contents of its sections. -/
structure Snapshot where
  no : Nat
  cause : Nat
  epoch : Nat
  tick : Nat
  steps : Nat
  dev : Nat
  profile : Nat
  fuseDigest : Nat
  /-- section 1: register words, sequence limit, pool list, lent regions, provisioned peer contexts -/
  words : List (Nat × Word)
  seqLimit : Nat
  pool : Tbl PoolEnt
  hostRegions : Tbl HostRegion
  peers : Tbl Peer
  /-- section 2: entries, DEADLINE as the time remaining, ENTERED as the time elapsed; moves in progress -/
  sessions : Tbl Sess
  moves : Tbl Move
  /-- section 3: GEN of each slot, and of a slot not listed -/
  gens : Tbl Nat
  genBase : Nat
  /-- section 3's reference counts, of slots in use -/
  refs : Tbl Nat
  /-- sections 4, 5 and 7; section 5's shapers -/
  tenants : Tbl Tenant
  shapers : Tbl Shaper
  /-- section 6 -/
  rings : Tbl Ring
  /-- section 8 -/
  catDigest : Nat
  loc : List LocRec
  fwd : List FwdRec
  /-- devices the map names as members, now or before; the first quantity found not conserved in the barrier's cycle (R360) -/
  members : List Nat
  audit : Option (Nat × Nat)
  /-- section 9 -/
  shards : Tbl Shard
  /-- section 11: records by bucket and accession number, as stored -/
  records : List (Nat × Nat × Bytes)
  deriving DecidableEq, Repr

/-- The running checkpoint (R313): `stage` 0 the slot's seal LBA is being zeroed, 1 blocks are being written, 2 the Flush, 3 the
seal; blocks still to complete; does it write to the press, and to which slot; is it sealed; the mirror holders with the next
block to send and where each stands, 0 sending blocks, 1 sending the seal, 2 acknowledged, 3 failed (R316). -/
structure CkptRun where
  snap : Snapshot
  press : Bool
  slot : Nat
  stage : Nat
  left : Nat
  isSealed : Bool
  mirrors : List (Nat × Nat × Nat)
  deriving DecidableEq, Repr

/-- The press (R310, R442-R444): an SSD has been found and is suitable; its label's FUSE_DIGEST and AUTO flag; what slots A and B
hold sealed; checkpoints abandoned in a row for write errors; label writes in flight with the slip each serves. -/
structure Press where
  found : Bool
  label : Option (Nat × Bool)
  slots : Tbl Snapshot
  fails : Nat
  writes : List ((Nat × Bool) × Slip)
  deriving DecidableEq, Repr

/-- A checkpoint of another device this device mirrors (R316): writer, CKPT_NO, digest of the leaf key it came under, blocks and
seal with the first unit each occupies in T2. -/
structure MirrorCopy where
  writer : Nat
  no : Nat
  leaf : Bytes
  blocks : Tbl (Nat × Bytes)
  sealRec : Option (Nat × Bytes)
  deriving DecidableEq, Repr

/-- A candidate of a restore (R317): CKPT_NO, the press slot (0 or 1) or the device (by ID + 2) it lies at, its seal. -/
structure Candidate where
  no : Nat
  place : Nat
  sealRec : Bytes
  deriving DecidableEq, Repr

/-- A restore (R317, R320): its slip; stage 0 the map is being fetched, 1 press seals, 2 mirror seals, 3 blocks of a candidate,
4 the device joins; when it began; addresses still to try; reads outstanding (0 and 1 press slots, device ID + 2); candidates;
did any seal verify, and one fit; the candidate in hand and its blocks so far; sessions it brought back. -/
structure Restore where
  slip : Slip
  source : Nat
  want : Nat
  stage : Nat
  since : Nat
  addrs : List Bytes
  asked : List Nat
  cands : List Candidate
  verified : Bool
  fits : Bool
  cur : Option Candidate
  blocks : List Bytes
  /-- the former device ID (R317), and CKPT_NO of the newest press seal that has verified, 0 none -/
  former : Nat
  newest : Nat
  deriving DecidableEq, Repr

/-- The reading of a removed device's mirror (R321): the device, holders not tried yet, the holder asked; stage 0 the seal, 1 the
record index, 2 the records; CKPT_NO; first blocks of sections 10 and 11; index bytes; byte runs of section 11 wanted; blocks
still to ask for; blocks received. -/
structure Adoption where
  dev : Nat
  holders : List Nat
  asked : Nat
  stage : Nat
  no : Nat
  first10 : Nat
  first11 : Nat
  wanted : List (Nat × Nat)
  todo : List Nat
  blocks : Tbl Bytes
  deriving DecidableEq, Repr

/-- The checkpoint side of the device beside its registers. -/
structure Ckpt where
  /-- CKPT_NO of the last checkpoint begun, never repeated (R302) -/
  no : Nat
  run : Option CkptRun
  /-- CAUSE bits of the checkpoint whose barrier is under way -/
  cause : Nat
  /-- DEV_TICK and decode steps at the previous barrier (R305) -/
  prevTick : Nat
  prevSteps : Nat
  /-- CAUSE bits of deferred triggers (R306) -/
  deferred : Nat
  /-- an undone barrier is taken again at this DEV_TICK, with these CAUSE bits (R307) -/
  retry : Option (Nat × Nat)
  /-- while a snapshot is protected (R308): slots and runs of units (tier, first, length) that were freed and stay allocated -/
  guarding : Bool
  heldSlots : List Nat
  guarded : List (Nat × Nat × Nat)
  /-- GENs of the newest checkpoint sealed since reset (R309), and of slots it does not list -/
  sealedGens : Option (Tbl Nat × Nat)
  press : Press
  mirrors : List MirrorCopy
  /-- checkpoints of this device as its mirror holders keep them, newest last; the model's own record -/
  mirrored : List Snapshot
  /-- DEV_TICK of each device's REMOVE (R316) -/
  removed : Tbl Nat
  restore : Option Restore
  adoptions : List Adoption
  /-- adopted records whose tenant's key is absent: writer, CKPT_NO, record (R321) -/
  keyless : List (Nat × Nat × Bytes)
  deriving DecidableEq, Repr
/-! ## Security and the Rind (15_security.md) -/

/-- A secure SPDM session (Table 15.3, R375): transport (0 CXL.io, 1 I3C, 2 TCP), the principal it was made with, its role. -/
structure SpdmSess where
  transport : Nat
  principal : Nat
  role : Nat
  deriving DecidableEq, Repr

/-- What the Rind puts off while its cores are reset (R368): a slip on its internal queue, or a register write. -/
inductive RindAct where
  | slip (o : OpSlip)
  | write (bar addr size : Nat) (value : Word)
  deriving DecidableEq, Repr

/-- The security side of the device beside its registers. -/
structure Sec where
  /-- secure sessions 0 to 7 (R374) -/
  spdm : Tbl SpdmSess
  /-- operator certificate chain of slot 1, empty for none (Table 15.3); kept across restarts -/
  chain1 : Bytes
  /-- confidential-host mode of the configuration record, for the next reset (R385) -/
  confNext : Bool
  /-- bounce keys, host to device and device to host, 36 bytes each, and the records sealed with the second (R385, R386) -/
  bounce : Option (Bytes × Bytes)
  bounceSeq : Nat
  /-- has a queue pair or ring been enabled since reset (R386)? -/
  hostUsed : Bool
  /-- end of the presence window (R391), and of the time presses are ignored after chatter (R390) -/
  windowEnd : Option Nat
  quietUntil : Nat
  stuck : Bool
  /-- filtered level of SVC_JMP_N: is a jumper fitted (R392)? -/
  jumper : Bool
  /-- DEV_TICK of the running mismatch episode's start (R393) -/
  episode : Option Nat
  /-- DEV_TICK of Rind core resets in the last 60 s of Rind timer, below 0 before the last device reset (R368), and of unit resets by
  core in the last second (R369) -/
  rindResets : List Int
  deskResets : List (Nat × Nat)
  /-- DEV_TICK of the Rind's last reset (UPTIME_S) -/
  rindSince : Nat
  /-- tick at which the reset of the Rind's cores ends -/
  rindUntil : Nat
  /-- slips and register writes of the Rind that wait until that reset is over (R368) -/
  rindWaiting : List RindAct
  deriving DecidableEq, Repr

/-! ## Bring-up, flash, bundle loading, activities (16_bringup_and_reset.md) -/

/-- A write to the SPI NOR in flight: bytes of the inactive image for a slip, of MAINT_FW_UPDATE or the activation it asks for; boot
control, then the restart asked for by a slip (R404, R428). -/
inductive FlashJob where
  | image (addr : Nat) (bytes : Bytes) (slip : Slip)
  | control (preferred : Nat) (trial : Bool) (slip : Option Slip)
  deriving DecidableEq, Repr

/-- The SPI NOR beside its configuration record (Table 16.2): PREFERRED and TRIAL of boot control, has the trial image been booted
once, the bytes of the image regions by flash address, no entry 0, and writes in flight. -/
structure Flash where
  preferred : Nat
  trial : Bool
  tried : Bool
  bytes : List (Nat × Byte)
  jobs : List FlashJob
  deriving DecidableEq, Repr

/-- A bundle image being staged (R413): its header, its size, and the bytes received by image offset. -/
structure Staging where
  header : Bytes
  size : Nat
  bytes : Tbl Byte
  deriving DecidableEq, Repr

/-- A maintenance activity that runs (R424-R426): its lock, Table 16.7's code, scope and object, the slip it answers (none: the
Rind's own), for a row repair the row, corrected lines so far. -/
structure Activity where
  lock : Nat
  activity : Nat
  scope : Nat
  index : Nat
  slip : Option Slip
  row : Nat
  deriving DecidableEq, Repr

/-- A host access that waits for a retrained cellar channel: the channel, decoder, host physical address and operation. -/
structure Traffic where
  channel : Nat
  dec : Nat
  hpa : Nat
  op : MemOp
  deriving DecidableEq, Repr

/-- The bring-up side of the device beside its registers. -/
structure Boot where
  /-- what holds device reset: 0 nothing, 1 power is off, 2 CORE_REFCLK lost, 3 RIND_OSC lost, 4 a thermal trip, 5 the third Rind
  reset in 60 s -/
  hold : Nat
  /-- THERMTRIP_N low (R456) -/
  thermTrip : Bool
  /-- HBM trained, DDR5 trained, known-answer tests complete (Table 16.4) -/
  hbm : Bool
  ddr : Bool
  kat : Bool
  /-- stacks (scope 2) and channels (scope 3) whose first training attempt failed (R407) -/
  retried : List (Nat × Nat)
  /-- GCM engines that passed their test (Table 16.5) -/
  gcm : Nat
  /-- spare MEs in service (R23, R406) -/
  spares : List Nat
  /-- tidy cores that have failed, 17c + i (R406) -/
  tidyOff : List Nat
  /-- tidy cores marked defective in the fuses as they were read at boot (R397) -/
  tidyMarks : List Nat
  /-- rows repaired in the stacks' own repair fuses (R426); kept for good -/
  repairs : List Nat
  /-- units that failed at the last boot, by UNIT (R409); kept across restarts -/
  katFailed : List Nat
  /-- cluster resets under way, and DEV_TICK of tidy-core unit resets of a cluster in the last second (Table 16.6) -/
  clusters : List Nat
  tidyResets : List (Nat × Nat)
  /-- the bundle being staged, the loaded bundle's header and image (R413, Table 13.4), the bundle key with its PROFILE_ID (R377) -/
  staging : Option Staging
  header : Bytes
  bundleKey : Option (Nat × Bytes)
  /-- a verified reload waits for the open steps: its tables, header and slip (R416) -/
  reload : Option (Profile × Bytes × Slip)
  /-- maintenance activities that run -/
  acts : List Activity
  /-- the link whose failure reset a partition that is not ACTIVE again (R329), by partition -/
  partLink : Tbl Nat
  /-- a violation has restarted the device, which serves no session until a restore has been made (R362) -/
  owed : Bool
  /-- host accesses of the cellar that wait until their channel has been retrained (R425) -/
  traffic : List Traffic
  deriving DecidableEq, Repr

/-! ## Host port (17_host_pins_electrical.md) -/

/-- An HDM decoder (R437): base, size, interleave ways and granularity, position in the set (R121), committed, Error Not Committed. -/
structure Decoder where
  base : Nat
  size : Nat
  ways : Nat
  gran : Nat
  pos : Nat
  committed : Bool
  error : Bool
  deriving DecidableEq, Repr

/-- An MSI-X table entry: message address, data, mask bit (R441). -/
structure MsixVec where
  addr : Nat
  data : Nat
  masked : Bool
  deriving DecidableEq, Repr

/-- The host port (R432-R441): link, mode, lanes and rate (0 2.5 to 4 32 GT/s); the writable configuration words, the
MSI-X capability's Enable and Function Mask, its table and pending bits, the two HDM decoders. -/
structure HostPort where
  up : Bool
  cxl : Bool
  width : Nat
  rate : Nat
  /-- configuration space words written by the host, by byte offset -/
  config : Tbl Nat
  msixEn : Bool
  funcMask : Bool
  vecs : Tbl MsixVec
  pend : List Nat
  decoders : List Decoder
  deriving DecidableEq, Repr
/-! ## What the device sends -/

/-- What leaves the block; the model's own record of it, newest last (log entry 5). -/
inductive Out where
  /-- a reply (R43); on the host path at reply-queue index `idx` -/
  | reply (dest : Ctx) (idx : Nat) (r : ReplyOut)
  /-- the mirror block of a queue pair (R48) -/
  | mirror (q sqHead rqTail : Nat)
  /-- an MSI-X message on a vector (R51, R441) -/
  | msix (vec : Nat)
  /-- a read of submission entries `first` to `first + n - 1` of a pair (R49), with D2H RdCurr or as a CXL.io memory read (R435) -/
  | fetch (q first n : Nat) (cached : Bool)
  /-- a read of a slip's payload from the payload window (R52), with D2H RdCurr or as a CXL.io memory read (R435) -/
  | payloadRead (q tag : Nat) (cached : Bool)
  /-- a slip this device sends on a network peer context: opcode, accession, tenant, parameters P0 to P5, payload -/
  | slip (peer op accession tenant : Nat) (p : List Nat) (payload : Bytes)
  /-- a write to host memory: host address and bytes (ring records, ring mirrors, T3 objects) -/
  | hostWrite (addr : Nat) (bytes : Bytes)
  /-- a message to the device with this composition device ID, to whatever context reaches it -/
  | toDevice (dev op accession tenant : Nat) (p : List Nat) (payload : Bytes)
  /-- a slip passed on to its new owner (R293) -/
  | forward (dev op : Nat) (x : Slip)
  /-- a frame leaves sub-port `sub` of a port (R242, R272) -/
  | frame (port sub : Nat) (f : Frame)
  /-- an NBU's completion message to the issuer of a launch: NBU and result word (R128) -/
  | completion (n word : Nat)
  /-- a record a base die sends to a home partition: stack, kind, bytes (R135) -/
  | record (stack kind : Nat) (body : Bytes)
  /-- an NVMe command to the press: what for, first block (0 the label or seal), blocks (R310, R313) -/
  | nvme (op : NvmeOp) (slot first blocks : Nat)
  /-- a write to the SPI NOR (R403, R309): 0 configuration record, 1 firmware image region, 2 boot control -/
  | flashWrite (area : Nat)
  /-- data an ordinary access or a host access of HBM or the cellar reads: address and bytes (R142, R435) -/
  | readData (addr : Nat) (body : Bytes)
  /-- a message of the SPDM responder: transport, response code, and what of its body the spec fixes (R374, Table 15.5) -/
  | spdm (transport code : Nat) (body : Bytes)
  /-- a completion of the host port: 0 successful, 1 Unsupported Request, 2 Configuration Request Retry Status; its data (R15, R433) -/
  | hostCompletion (status data : Nat)
  /-- a CXL.mem read response: data, and is it marked poisoned (R330)? -/
  | memData (body : Bytes) (poisoned : Bool)
  /-- a CXL.cache snoop response; 0 RspIHitI (R435) -/
  | snoopResp (code : Nat)
  deriving DecidableEq, Repr

/-- What the device itself has ready to run next. -/
inductive Todo where
  /-- an accepted slip's command -/
  | slip (op : Nat) (x : Slip)
  /-- a RING_PUSH failed with its context (R465, R232) -/
  | push (ring first : Nat)
  /-- an exchange message failed with its context (R465, R165) -/
  | xchg (step msg : Nat)
  /-- shelf or mirror traffic to a device failed (Table 11.5, R192) -/
  | holder (dev : Nat)
  /-- catalogue work goes on: the next change is proposed, a leave proceeds (R286, R296) -/
  | cat
  /-- the actions of a snapshot barrier that has begun (R307) -/
  | barrier
  /-- a restore goes on (R317, R320) -/
  | restore
  /-- a profile reload goes on now that no step is open (R416) -/
  | reload
  /-- a write of returned data of a pair completed with error (R52) -/
  | hostError (q : Nat)
  /-- a revive with nothing to fetch or to prefill is over (R92) -/
  | revived (idx : Nat)
  /-- a conserved quantity was found violated: code, check, object (R362) -/
  | violation (code check object : Nat)
  deriving DecidableEq, Repr

/-! ## The state -/

/-- The machine. -/
structure State where
  /-- commands waiting, first in, first out; the model's own queue; reset: empty (DESIGN CHOICE, log entry 1) -/
  pending : List Instr
  /-- what the device itself has ready to run: accepted slips not yet executed and failures of its own messages, first in, first out; the model's own; reset: empty (DESIGN CHOICE, log entry 1) -/
  ready : List Todo
  /-- accepted slips that wait, with the reason (R56, R57, R58, R80, R34 of 02 and 03); reset: empty -/
  held : List (OpSlip × Hold)
  /-- what the device has sent, newest last; the model's own record; reset: empty (DESIGN CHOICE, log entry 5) -/
  outbox : List Out
  /-- the BAR0 register file, sparse: (byte offset, word), offsets strictly rising, no entry equal to the register's reset word (R15, R35); reset: empty, every register at its reset word (log entry 3) -/
  regs : List (Nat × Word)
  /-- DEV_TICK: 64 bits, 10 ns (R39, 01_architecture.md); reset: 0 -/
  tick : Nat
  /-- counter of free values taken so far; the model's own (log entry 7); reset: 0 (DESIGN CHOICE) -/
  freeCtr : Nat
  /-- provisionings of peer contexts so far, by which a ring or step tells one made after its own configuration (R465); the model's own (log entry 75); reset: 0 (DESIGN CHOICE) -/
  provCtr : Nat
  /-- outstanding slips in order of acceptance, at most 65,536 (R54, R55, 02_call_slips.md); reset: empty -/
  slips : List Outst
  /-- agreed call-slip version per context, 8 bits (R59, 02_call_slips.md); reset: none agreed -/
  versions : List (Ctx × Nat)
  /-- host queue pairs 0 to 255 (R48-R52, Tables 2.5 and 2.16, 02_call_slips.md); reset: all DISABLED, indices 0 -/
  qps : Tbl Qp
  /-- open management connections, at most 16 (R53, R387, 15_security.md); reset: none -/
  mgmt : Tbl Mgmt
  /-- session table by entry index, absent entries FREE (R70, Table 3.1, 03_sessions.md); reset: all FREE -/
  sessions : Tbl Sess
  /-- tenants 0 to 0xFFF and the operator reserve 0xFFFF (R42, R185, R235, R245, R215, R378); reset: none provisioned, budgets and policers unlimited -/
  tenants : Tbl Tenant
  /-- output rings 0 to 65,535 (R228, Table 9.1, 09_streaming_and_fairness.md); reset: all DISABLED -/
  rings : Tbl Ring
  /-- the step scheduler (R238-R240, 09_streaming_and_fairness.md); reset: v 0, queues empty -/
  sched : Sched
  /-- fuse array, 256 words of 64 bits (R405, Table 16.3, 16_bringup_and_reset.md); reset: every word 0, a YD-7680 without defects (DESIGN CHOICE, log entry 3) -/
  fuses : Tbl Nat
  /-- the loaded profile's tables, none while no bundle is loaded (R114, R184, R202, R413, 16_bringup_and_reset.md); reset: none -/
  profile : Option Profile
  /-- open text contexts, by session index, at most 8,192 (R209, 08_text_and_sampling.md); reset: none -/
  text : Tbl TextCtx
  /-- ENTRY_GEN of FREE entries that have held a session, 32 bits (Table 3.1, 03_sessions.md); reset: 0 -/
  entryGens : Tbl Nat
  /-- is watermark pre-emption under way, begun below LOW and not yet at HIGH (R88, 03_sessions.md)?; reset: no -/
  preempting : Bool
  /-- T1 slots in use, keyed by first slot's page ID (R85, R117, R185); reset: none in use -/
  slots : Tbl SlotUse
  /-- GEN of each T1 slot that differs from `genBase`, 32 bits (R105, 04_kv_pages.md; start value R309); reset: none -/
  gens : Tbl Nat
  /-- HBM, bank-linear address and byte, no entry 0 (Table 5.2, R119, 05_near_bank_units.md); reset: nothing listed, every byte reads 0 (log entry 4) -/
  hbm : List (Nat × Byte)
  /-- the cellar as the host addresses it, cellar offset and byte, no entry 0 (R438, 17_host_pins_electrical.md); reset: nothing listed (log entry 4) -/
  cellar : List (Nat × Byte)
  /-- slots reserved for promotions by open steps and prefills (R109, 04_kv_pages.md); reset: 0 -/
  reserved : Nat
  /-- the operator's pool list, 256 entries (R201, 07_memory_tiers.md); reset: none valid -/
  pool : Tbl PoolEnt
  /-- lent host regions 0 to 15 (R199, R201, 07_memory_tiers.md); reset: all free -/
  hostRegions : Tbl HostRegion
  /-- shelf objects this device holds, its own and others' (R194, 07_memory_tiers.md); reset: none -/
  shelf : List ShelfObj
  /-- generations being committed, by session index (R190, 07_memory_tiers.md); reset: none -/
  commits : Tbl Commit
  /-- revives in progress, by session index (R193, 07_memory_tiers.md); reset: none -/
  revives : Tbl Revive
  /-- moves in progress at the source or target, by session index (R94, 03_sessions.md); reset: none -/
  moves : Tbl Move
  /-- network peer contexts 0 to 4,095 (R281, Tables 11.5 and 11.13, 11_network_and_catalogue.md); reset: none valid, UDP port 17,580, weight 1 -/
  peers : Tbl Peer
  /-- Ethernet ports 0 to 7 (R268-R272, 11_network_and_catalogue.md); reset: mode 0, every sub-port down -/
  ports : Tbl Port
  /-- sub-port rotation of sprayed DATA packets (R278); reset: 0 -/
  spray : Nat
  /-- TAG of the next slip this device sends; the model's own; reset: 0 (DESIGN CHOICE, log entry 5) -/
  nextTag : Nat
  /-- the host port: link, configuration words, MSI-X table, HDM decoders (R432-R441, 17_host_pins_electrical.md); reset: link down, PCIe, MSI-X disabled, every vector masked, decoders uncommitted -/
  host : HostPort
  /-- DEV_TICK of the last ring message on each MSI-X vector (R231); reset: none sent -/
  ringVec : Tbl Nat
  /-- MSI-X vectors with a ring message held back by IRQ_GAP_US (R231); reset: none -/
  ringOwed : List Nat
  /-- the catalogue: map, ballots, location and forwarding records (R284-R296, 11_network_and_catalogue.md); reset: empty, not a member -/
  cat : Cat
  /-- the configuration record's last membership: device ID, addresses of the registrars (R317, R387); reset: none (DESIGN CHOICE, log entry 3) -/
  membership : Option (Nat × List Bytes)
  /-- principals 0 to 63 of the configuration record in SPI NOR (R387, 15_security.md); reset: none enrolled (DESIGN CHOICE, log entry 3: the flash's content is not the spec's) -/
  principals : Tbl Principal
  /-- error log, sticky area, row candidates, interrupt pacing, injections, poisoned lines (R328-R337, R347, 13_integrity.md); reset: all empty -/
  errs : Errs
  /-- trace buffer (R347, 13_integrity.md); reset: stopped, empty -/
  trace : Trace
  /-- memory scans, the running one first, at most 16 (R343, 13_integrity.md); reset: none -/
  scans : List Scan
  /-- is the first scan of the list running (R343, CHK_SCAN_STATUS)?; reset: no -/
  scanning : Bool
  /-- shapers that differ from Table 9.7's defaults, by kind × 4,096 + index (R243, 09_streaming_and_fairness.md); reset: classes 6 and 7 enabled at 80,000 and 40,000 Mb/s, others disabled -/
  shapers : Tbl Shaper
  /-- histograms of the observed queues (R246, 09_streaming_and_fairness.md); reset: all bins 0 -/
  hists : Tbl Hist
  /-- samples taken since reset, and before the last HIST_CLR (R246); reset: 0 -/
  histSamples : Nat
  histBase : Nat
  /-- open steps by STEP_ID, at most 64 (R162, 06_matrix_engines.md); reset: none -/
  steps : Tbl XStep
  /-- STEP_ID of the next step, 32 bits (R162); reset: 0 (DESIGN CHOICE, log entry 5) -/
  nextStep : Nat
  /-- prefills in progress, re-prefills of revives included, by session index (R172, R109); reset: none -/
  prefills : Tbl Prefill
  /-- MEs 0 to 131 with something in flight (R154-R157); reset: none -/
  mes : Tbl Me
  /-- tiles queued for the pools, oldest first (R154, R157); reset: none -/
  tiles : List Tile
  /-- pools that a soft-disable left below their MIN, for the next period of the ratio controller (R179); reset: none -/
  meShort : List Nat
  /-- has a TARGET been written since the controller's last period (R179)?; reset: no -/
  targetSet : Bool
  /-- NBUs that differ from reset, 0 to 6,143: command registers, queues, program in progress, SRAM, latch, debt, fault log (R116, R124-R150, Tables 5.1, 5.14, 5.15, 05_near_bank_units.md); reset: idle, all 0, groups 0xFFFF_FFFF; scalar registers, SRAM and latch, for which the spec gives no value, 0 (DESIGN CHOICE, log entry 44) -/
  nbus : Tbl Nbu
  /-- base dies of stacks 0 to 11: input buffer, records, merge unit (R116, R135); reset: empty -/
  dieTab : Tbl Stack
  /-- shards by collection ID (R252-R256, 10_vector_search.md); reset: none -/
  shards : Tbl Shard
  /-- vector blocks in use, block number and collection ID (R254, VEC_OCC); reset: none -/
  vecBlocks : Tbl Nat
  /-- searches being gathered, by request number, and the next number (R259, R266 REQ); reset: none, 0 (DESIGN CHOICE, log entry 5) -/
  searches : Tbl Search
  nextReq : Nat
  /-- maintenance locks, at most 32 (R421-R423, 16_bringup_and_reset.md); reset: none -/
  locks : List Lock
  /-- ID of the next lock, 16 bits (R421); reset: 1 (DESIGN CHOICE, log entry 5) -/
  nextLock : Nat
  /-- checkpoints: the running one, triggers, the press and its slots, mirror copies, a restore, adoptions (R302-R321, 12_checkpoint_and_recovery.md); reset: no SSD found, nothing running or held, last CKPT_NO 0 (DESIGN CHOICE, log entry 3) -/
  ckpt : Ckpt
  /-- GEN_FLOOR of the configuration record, 32 bits (R309); reset: 0 (DESIGN CHOICE, log entry 3: the flash's content is not the spec's) -/
  genFloor : Nat
  /-- GEN of a slot not listed in `gens`: the floor F every slot starts from (R309); reset: 0 -/
  genBase : Nat
  /-- is a write of a higher GEN_FLOOR in flight (R309)?; reset: no -/
  floorBusy : Bool
  /-- keys and sessions of the Rind, presence window, filters (R366-R394, 15_security.md); reset: no session, no key, filters idle, no jumper, confidential-host mode off (DESIGN CHOICE, log entry 3) -/
  sec : Sec
  /-- SPI NOR: boot control and image regions (R403, R404, 16_bringup_and_reset.md); reset: PREFERRED A, no trial, bytes 0 (DESIGN CHOICE, log entry 3: the flash's content is not the spec's) -/
  flash : Flash
  /-- bring-up progress, spares and failed units, bundle staging and key, maintenance activities (R402-R431, 16_bringup_and_reset.md); reset: nothing begun -/
  boot : Boot
  deriving DecidableEq, Repr
/-- The catalogue of a device that belongs to no composition. -/
def Cat.empty : Cat :=
  { buckets := [], devices := [], history := [], promised := 0, acceptedBallot := 0, acceptedList := [],
    abstaining := false,
    proposal := { phase := 0, ballot := 0, own := [], found := [], foundBallot := 0, votes := [], seen := 0, since := 0 },
    wishes := [], clients := [], fwd := [], loc := [], locates := [], forwards := [], waiting := [], fetch := Option.none,
    joining := 0, wantId := 0xFFFFFFFF, undecided := [], nopTick := Option.none, suspects := [], adopt := [], leaving := false, leaveTick := 0,
    finalSent := false, gone := false, lostLate := [] }

/-- No errors yet. -/
def Errs.empty : Errs :=
  { log := [], sticky := [], rows := [], lastIrq := Option.none, irqHeld := false, inject := [], poison := [], exhausted := [],
    shown := Option.none }

/-- A decoder at reset: not committed. -/
def Decoder.fresh : Decoder := { base := 0, size := 0, ways := 1, gran := 256, pos := 0, committed := false, error := false }

/-- No checkpoint has been taken, no SSD found. -/
def Ckpt.fresh : Ckpt :=
  { no := 0, run := none, cause := 0, prevTick := 0, prevSteps := 0, deferred := 0, retry := none, guarding := false, heldSlots := [],
    guarded := [], sealedGens := none, press := { found := false, label := none, slots := [], fails := 0, writes := [] }, mirrors := [],
    mirrored := [], removed := [], restore := none, adoptions := [], keyless := [] }

/-- No key, session or presence window; every filter idle. -/
def Sec.fresh : Sec :=
  { spdm := [], chain1 := [], confNext := false, bounce := none, bounceSeq := 0, hostUsed := false, windowEnd := none, quietUntil := 0,
    stuck := false, jumper := false, episode := none, rindResets := [], deskResets := [], rindSince := 0, rindUntil := 0, rindWaiting := [] }

/-- Bring-up has not begun. -/
def Boot.fresh : Boot :=
  { hold := 0, thermTrip := false, hbm := false, ddr := false, kat := false, retried := [], gcm := 0, spares := [], tidyOff := [], tidyMarks := [], repairs := [],
    katFailed := [], clusters := [], tidyResets := [], staging := none, header := [], bundleKey := none, reload := none, acts := [],
    partLink := [], owed := false, traffic := [] }

/-- The machine right after reset. -/
def State.reset : State :=
  { pending := [], ready := [], held := [], outbox := [], regs := [], tick := 0, freeCtr := 0, provCtr := 0, slips := [],
    versions := [], qps := [], mgmt := [], sessions := [], tenants := [], rings := [],
    sched := { v := 0, decode := [], prefill := [], next := 0 },
    fuses := [], profile := none, text := [], entryGens := [], preempting := false, slots := [], gens := [], hbm := [], cellar := [], reserved := 0, pool := [], hostRegions := [],
    shelf := [], commits := [], revives := [], moves := [], peers := [], ports := [], spray := 0, nextTag := 0,
    host := { up := false, cxl := false, width := 0, rate := 0, config := [], msixEn := false, funcMask := false,
              vecs := [], pend := [], decoders := [Decoder.fresh, Decoder.fresh] }, ringVec := [], ringOwed := [], cat := Cat.empty, membership := none, principals := [],
    errs := Errs.empty, trace := { on := false, mask := 0, recs := [] }, scans := [], scanning := false,
    shapers := [], hists := [], histSamples := 0, histBase := 0,
    steps := [], nextStep := 0, prefills := [], mes := [], tiles := [], meShort := [], targetSet := false, nbus := [], dieTab := [], shards := [], vecBlocks := [],
    searches := [], nextReq := 0, locks := [], nextLock := 1, ckpt := Ckpt.fresh, genFloor := 0, genBase := 0, floorBusy := false,
    sec := Sec.fresh, flash := { preferred := 0, trial := false, tried := false, bytes := [], jobs := [] }, boot := Boot.fresh }

end Sys2Proof.Machine
end

