-- ==== Sys2Proof/Machine/RegMap.lean ====
section
/-!
DEFINITION. The BAR0 register map: one row per register with its byte offset in BAR0, its stride and count where it is
an array, its reset word and the masks of its RW, RO/RIND and WO bits (R15, R16, R35, R36), and one constant per named
field.  Every number is the spec's: the block bases are Table 1.11, the offsets and fields the register tables of each
chapter.  Where a table's reset column is not a number ("fuse", "image", "bundle", "plan", "label", "record", "flash",
"ROM", "variant") the reset word follows log entry 3.
-/

namespace Sys2Proof.Machine

/-- One row of a register table. -/
structure RegRow where
  name : String
  addr : Nat
  stride : Nat
  count : Nat
  /-- the word the register holds at device reset -/
  reset : Nat
  /-- bits of access code RW -/
  rw : Nat
  /-- bits of access code RO/RIND -/
  prot : Nat
  /-- bits of access code WO -/
  wo : Nat
  deriving DecidableEq, Repr

/-- Registers of the DEV block. -/
def regRowsDev1 : List RegRow :=
  [ ⟨"DEV_ID", 0x0, 0x0, 1, 0x76801F3D0059, 0x0, 0x0, 0x0⟩
  , ⟨"DEV_REV", 0x8, 0x0, 1, 0x100, 0x0, 0x0, 0x0⟩
  , ⟨"DEV_FW", 0x10, 0x0, 1, 0x0, 0x0, 0xFFFFFFFFFFFFFFFF, 0x0⟩
  , ⟨"DEV_CAP0", 0x18, 0x0, 1, 0xFFFFF0FFFFFFF, 0x0, 0xFFFFF0FFFFFFF, 0x0⟩
  , ⟨"DEV_CAP1", 0x20, 0x0, 1, 0x0, 0x0, 0xFFFFFFFFFFFC0000, 0x0⟩
  , ⟨"DEV_CAP2", 0x28, 0x0, 1, 0x108020C651C0, 0x0, 0x0, 0x0⟩
  , ⟨"DEV_BUNDLE", 0x30, 0x0, 1, 0x0, 0x0, 0x8000FFFFFFFFFFFF, 0x0⟩
  , ⟨"DEV_DEVID", 0x38, 0x0, 1, 0x0, 0x0, 0x80000000000FFFFF, 0x0⟩
  , ⟨"DEV_TICK", 0x40, 0x0, 1, 0x0, 0x0, 0x0, 0x0⟩
  , ⟨"DEV_STATE", 0x48, 0x0, 1, 0x0, 0x0, 0x0, 0x0⟩
  , ⟨"DEV_PART", 0x50, 0x0, 1, 0x0, 0x0, 0xFFFF, 0x0⟩
  , ⟨"DEV_SCRATCH", 0x58, 0x0, 1, 0x0, 0xFFFFFFFFFFFFFFFF, 0x0, 0x0⟩ ]

/-- Registers of the DEV block. -/
def regRowsDev : List RegRow := regRowsDev1

/-- Registers of the RIND block. -/
def regRowsRind1 : List RegRow :=
  [ ⟨"RIND_AUDIT_STATUS", 0x10400, 0x0, 1, 0x0, 0x0, 0xC00000FFFFFFFFFF, 0x0⟩
  , ⟨"RIND_AUDIT_LAST", 0x10408, 0x0, 1, 0x0, 0x0, 0xFFFFFFFF00000FFF, 0x0⟩
  , ⟨"RIND_AUDIT_CNT_SWEEP", 0x10410, 0x0, 1, 0x0, 0x0, 0xFFFFFFFFFFFFFFFF, 0x0⟩
  , ⟨"RIND_AUDIT_CNT_VIOL", 0x10418, 0x0, 1, 0x0, 0x0, 0xFFFFFFFFFFFFFFFF, 0x0⟩
  , ⟨"RIND_AUDIT_CNT_RECHECK", 0x10420, 0x0, 1, 0x0, 0x0, 0xFFFFFFFFFFFFFFFF, 0x0⟩
  , ⟨"RIND_AUDIT_CNT_FENCE", 0x10428, 0x0, 1, 0x0, 0x0, 0xFFFFFFFFFFFFFFFF, 0x0⟩
  , ⟨"RIND_CAP", 0x10000, 0x0, 1, 0x10014008C800, 0x0, 0x0, 0x0⟩
  , ⟨"RIND_STATUS", 0x10008, 0x0, 1, 0x0, 0x0, 0xE0000000FFFFFFFF, 0x0⟩
  , ⟨"RIND_LOCKSTEP", 0x10010, 0x0, 1, 0x0, 0x0, 0xFFFFFFFF00000000, 0x0⟩
  , ⟨"RIND_WDOG", 0x10018, 0x0, 1, 0x7D0006400000000, 0x0, 0xFFFF0000FFFF00FF, 0x0⟩
  , ⟨"RIND_KEYSTORE", 0x10020, 0x0, 1, 0x0, 0x0, 0x1FFF1FFF0001, 0x0⟩ ]

/-- Registers of the RIND block. -/
def regRowsRind : List RegRow := regRowsRind1

/-- Registers of the SLIPQ block, part 1. -/
def regRowsSlipq1 : List RegRow :=
  [ ⟨"SLIPQ_ERR_VEC", 0x20000, 0x0, 1, 0x0, 0x7FF, 0x0, 0x0⟩
  , ⟨"SLIPQ_OCC", 0x20008, 0x0, 1, 0x0, 0x0, 0x0, 0x0⟩
  , ⟨"SLIPQ_CNT_ACCEPT", 0x20010, 0x0, 1, 0x0, 0x0, 0x0, 0x0⟩
  , ⟨"SLIPQ_CNT_REJECT", 0x20018, 0x0, 1, 0x0, 0x0, 0x0, 0x0⟩
  , ⟨"SLIPQ_CNT_REFUSE", 0x20020, 0x0, 1, 0x0, 0x0, 0x0, 0x0⟩
  , ⟨"SLIPQ_CNT_POLICED", 0x20028, 0x0, 1, 0x0, 0x0, 0x0, 0x0⟩
  , ⟨"SLIPQ_CNT_DISCARD", 0x20030, 0x0, 1, 0x0, 0x0, 0x0, 0x0⟩
  , ⟨"QP_SQ_BASE", 0x21000, 0x40, 256, 0x0, 0xFFFFFFFFFFFFF000, 0x0, 0x0⟩
  , ⟨"QP_RQ_BASE", 0x21008, 0x40, 256, 0x0, 0xFFFFFFFFFFFFF000, 0x0, 0x0⟩
  , ⟨"QP_MIRROR", 0x21010, 0x40, 256, 0x0, 0xFFFFFFFFFFFFFFF0, 0x0, 0x0⟩
  , ⟨"QP_WIN_BASE", 0x21018, 0x40, 256, 0x0, 0xFFFFFFFFFFFFF000, 0x0, 0x0⟩
  , ⟨"QP_WIN_SIZE", 0x21020, 0x40, 256, 0x0, 0xFFFFFFFF, 0x0, 0x0⟩
  , ⟨"QP_CFG", 0x21028, 0x40, 256, 0x0, 0xC000FFFF07FF1F1F, 0x0, 0x0⟩
  , ⟨"QP_COAL", 0x21030, 0x40, 256, 0x0, 0xFFFFFFFF, 0x0, 0x0⟩
  , ⟨"QP_STATUS", 0x21038, 0x40, 256, 0x0, 0x0, 0x0, 0x0⟩
  , ⟨"QP_SQ_TAIL", 0x28000, 0x10, 256, 0x0, 0x0, 0x0, 0xFFFF⟩ ]

/-- Registers of the SLIPQ block, part 2. -/
def regRowsSlipq2 : List RegRow :=
  [ ⟨"QP_RQ_HEAD", 0x28008, 0x10, 256, 0x0, 0x0, 0x0, 0xFFFF⟩ ]

/-- Registers of the SLIPQ block. -/
def regRowsSlipq : List RegRow := regRowsSlipq1 ++ regRowsSlipq2

/-- Registers of the SESS block. -/
def regRowsSess1 : List RegRow :=
  [ ⟨"SESS_CTRL", 0x40000, 0x0, 1, 0x3, 0x3, 0x0, 0x0⟩
  , ⟨"SESS_SEQ", 0x40008, 0x0, 1, 0x1, 0x0, 0xFFFFFFFFFFF, 0x0⟩
  , ⟨"SESS_TTL_DEF0", 0x40010, 0x0, 1, 0x8CA000000258, 0xFFFFFFFFFFFFFFFF, 0x0, 0x0⟩
  , ⟨"SESS_TTL_DEF1", 0x40018, 0x0, 1, 0xD2F0000023280, 0xFFFFFFFFFFFFFFFF, 0x0, 0x0⟩
  , ⟨"SESS_TTL_DEF2", 0x40020, 0x0, 1, 0x258018B8200, 0xFFFFFFFFFFFFFFFF, 0x0, 0x0⟩
  , ⟨"SESS_CNT_PREEMPT", 0x40028, 0x0, 1, 0x0, 0x0, 0x0, 0x0⟩
  , ⟨"SESS_CNT_REVIVE", 0x40030, 0x0, 1, 0x0, 0x0, 0x0, 0x0⟩
  , ⟨"SESS_CNT_REBUILT", 0x40038, 0x0, 1, 0x0, 0x0, 0x0, 0x0⟩
  , ⟨"SESS_CNT_FORK", 0x40040, 0x0, 1, 0x0, 0x0, 0x0, 0x0⟩
  , ⟨"SESS_CNT_EXPIRE", 0x40048, 0x0, 1, 0x0, 0x0, 0x0, 0x0⟩
  , ⟨"SESS_CNT_MISS", 0x40050, 0x0, 1, 0x0, 0x0, 0x0, 0x0⟩
  , ⟨"SESS_INSPECT_IDX", 0x40058, 0x0, 1, 0x0, 0xFFFFF, 0x0, 0x0⟩
  , ⟨"SESS_COUNT", 0x40100, 0x8, 12, 0x0, 0x0, 0x0, 0x0⟩
  , ⟨"SESS_INSPECT_DATA", 0x40800, 0x8, 32, 0x0, 0x0, 0x0, 0x0⟩ ]

/-- Registers of the SESS block. -/
def regRowsSess : List RegRow := regRowsSess1

/-- Registers of the TIER block, part 1. -/
def regRowsTier1 : List RegRow :=
  [ ⟨"TIER_CAP", 0x60000, 0x0, 1, 0x10080100, 0x0, 0xFFFF00000000, 0x0⟩
  , ⟨"TIER_CTRL", 0x60008, 0x0, 1, 0x7, 0x7, 0x0, 0x0⟩
  , ⟨"TIER_WMARK", 0x60010, 0x0, 1, 0x0, 0xFFFFFFFFFFFFFFFF, 0x0, 0x0⟩
  , ⟨"TIER_FREE_T1", 0x60018, 0x0, 1, 0x0, 0x0, 0x0, 0x0⟩
  , ⟨"TIER_FREE_T2", 0x60020, 0x0, 1, 0x0, 0x0, 0x0, 0x0⟩
  , ⟨"TIER_FREE_T3", 0x60028, 0x0, 1, 0x0, 0x0, 0x0, 0x0⟩
  , ⟨"TIER_RIPEN_CFG", 0x60030, 0x0, 1, 0x4003E800001388, 0xFFFFFFFF0000FFFF, 0x0, 0x0⟩
  , ⟨"TIER_POOL_CFG", 0x60038, 0x0, 1, 0x4, 0xF, 0x0, 0x0⟩
  , ⟨"TIER_HOLD", 0x60040, 0x0, 1, 0x0, 0xFFFFFFFF00000000, 0x0, 0x0⟩
  , ⟨"TIER_QUOTA_SEL", 0x60048, 0x0, 1, 0x0, 0x8000000000000FFF, 0x0, 0x0⟩
  , ⟨"TIER_QUOTA", 0x60050, 0x8, 4, 0xFFFFFFFF00000000, 0xFFFFFFFF00000000, 0x0, 0x0⟩
  , ⟨"TIER_POOL_SEL", 0x60070, 0x0, 1, 0x0, 0xFF, 0x0, 0x0⟩
  , ⟨"TIER_POOL_DATA", 0x60078, 0x0, 1, 0x0, 0x80000000000FFFFF, 0x0, 0x0⟩
  , ⟨"TIER_CNT_ESCAPE", 0x60100, 0x0, 1, 0x0, 0x0, 0x0, 0x0⟩
  , ⟨"TIER_CNT_PROMOTE", 0x60108, 0x0, 1, 0x0, 0x0, 0x0, 0x0⟩
  , ⟨"TIER_CNT_AGED", 0x60110, 0x0, 1, 0x0, 0x0, 0x0, 0x0⟩ ]

/-- Registers of the TIER block, part 2. -/
def regRowsTier2 : List RegRow :=
  [ ⟨"TIER_CNT_AGE_REFUSED", 0x60118, 0x0, 1, 0x0, 0x0, 0x0, 0x0⟩
  , ⟨"TIER_CNT_SHELVED", 0x60120, 0x0, 1, 0x0, 0x0, 0x0, 0x0⟩
  , ⟨"TIER_CNT_DISCARD", 0x60128, 0x0, 1, 0x0, 0x0, 0x0, 0x0⟩
  , ⟨"TIER_CNT_SKIP", 0x60130, 0x0, 1, 0x0, 0x0, 0x0, 0x0⟩
  , ⟨"TIER_CNT_QUOTA_WAIT", 0x60138, 0x0, 1, 0x0, 0x0, 0x0, 0x0⟩
  , ⟨"TIER_CNT_HOLDER_LOST", 0x60140, 0x0, 1, 0x0, 0x0, 0x0, 0x0⟩
  , ⟨"TIER_CNT_SECONDARY", 0x60148, 0x0, 1, 0x0, 0x0, 0x0, 0x0⟩
  , ⟨"TIER_CNT_REFUSED", 0x60150, 0x0, 1, 0x0, 0x0, 0x0, 0x0⟩
  , ⟨"TIER_HOST_BASE", 0x60400, 0x10, 16, 0x0, 0x0, 0x0, 0x0⟩
  , ⟨"TIER_HOST_SIZE", 0x60408, 0x10, 16, 0x0, 0x0, 0x0, 0x0⟩ ]

/-- Registers of the TIER block. -/
def regRowsTier : List RegRow := regRowsTier1 ++ regRowsTier2

/-- Registers of the NBU block, part 1. -/
def regRowsNbu1 : List RegRow :=
  [ ⟨"NBU_CAP", 0x80000, 0x0, 1, 0x4800408100200, 0x0, 0x0, 0x0⟩
  , ⟨"NBU_CTRL", 0x80008, 0x0, 1, 0x2, 0x2, 0x0, 0x1⟩
  , ⟨"NBU_STACKMAP", 0x80010, 0x0, 1, 0x4CBA9876543210, 0x0, 0xFFFFFFFFFFFFFF, 0x0⟩
  , ⟨"NBU_BCAST_SEL", 0x80018, 0x0, 1, 0xFF000000, 0xFFF00FF00001F, 0x0, 0x0⟩
  , ⟨"NBU_BCAST_DATA", 0x80020, 0x0, 1, 0x0, 0x0, 0x0, 0xFFFFFFFFFFFFFFFF⟩
  , ⟨"NBU_CNT_PROG", 0x80028, 0x0, 1, 0x0, 0x0, 0x0, 0x0⟩
  , ⟨"NBU_CNT_FYIELD", 0x80030, 0x0, 1, 0x0, 0x0, 0x0, 0x0⟩
  , ⟨"NBU_CNT_YACC", 0x80038, 0x0, 1, 0x0, 0x0, 0x0, 0x0⟩
  , ⟨"NBU_CNT_REREAD", 0x80040, 0x0, 1, 0x0, 0x0, 0x0, 0x0⟩
  , ⟨"NBU_CNT_FAIL", 0x80048, 0x0, 1, 0x0, 0x0, 0x0, 0x0⟩
  , ⟨"NBU_CNT_RSUSP", 0x80050, 0x0, 1, 0x0, 0x0, 0x0, 0x0⟩
  , ⟨"NBU_MAX", 0x80058, 0x0, 1, 0x0, 0x0, 0x0, 0x0⟩
  , ⟨"NBU_PROG", 0x80100, 0x8, 8, 0x0, 0x0, 0x8000FFFF01FF03FF, 0x0⟩
  , ⟨"NBU_EN", 0x80400, 0x8, 96, 0x0, 0x0, 0xFFFFFFFFFFFFFFFF, 0x0⟩
  , ⟨"NBU_DIS", 0x80800, 0x8, 96, 0x0, 0x0, 0xFFFFFFFFFFFFFFFF, 0x0⟩
  , ⟨"NBU_LAUNCH", 0x1000000, 0x0, 1, 0x0, 0xFFFFFFFF0107, 0x0, 0x0⟩ ]

/-- Registers of the NBU block, part 2. -/
def regRowsNbu2 : List RegRow :=
  [ ⟨"NBU_RESULT_FG", 0x1000008, 0x0, 1, 0x0, 0x0, 0x0, 0x0⟩
  , ⟨"NBU_RESULT_BG", 0x1000010, 0x0, 1, 0x0, 0x0, 0x0, 0x0⟩
  , ⟨"NBU_PARAM_FG", 0x1000018, 0x8, 13, 0x0, 0xFFFFFFFFFFFFFFFF, 0x0, 0x0⟩
  , ⟨"NBU_PARAM_BG", 0x1000080, 0x8, 13, 0x0, 0xFFFFFFFFFFFFFFFF, 0x0, 0x0⟩
  , ⟨"NBU_STATE", 0x1000100, 0x0, 1, 0x0, 0x0, 0x0, 0x0⟩
  , ⟨"NBU_GROUPS", 0x1000108, 0x0, 1, 0xFFFFFFFF, 0xFFFFFFFF, 0x0, 0x0⟩
  , ⟨"NBU_DEBT", 0x1000110, 0x0, 1, 0x0, 0x0, 0x0, 0x0⟩
  , ⟨"NBU_ERRLOG", 0x1000118, 0x0, 1, 0x0, 0x0, 0x0, 0x0⟩ ]

/-- Registers of the NBU block. -/
def regRowsNbu : List RegRow := regRowsNbu1 ++ regRowsNbu2

/-- Registers of the ME block, part 1. -/
def regRowsMe1 : List RegRow :=
  [ ⟨"ME_CAP", 0xA0000, 0x0, 1, 0x8480804040, 0x0, 0x0, 0x0⟩
  , ⟨"ME_CTRL", 0xA0008, 0x0, 1, 0x3, 0x3, 0x0, 0x4⟩
  , ⟨"ME_FMT", 0xA0010, 0x0, 1, 0x0, 0x0, 0xFF0FF, 0x0⟩
  , ⟨"ME_HEAD_CFG", 0xA0018, 0x0, 1, 0x400040, 0x3FF, 0x0, 0x0⟩
  , ⟨"ME_RATIO_CFG", 0xA0020, 0x0, 1, 0x3E800100004, 0xFFFFFFFF, 0x0, 0x0⟩
  , ⟨"ME_POOL", 0xA0028, 0x8, 3, 0x0, 0xFF00000000FFFF, 0x0, 0x0⟩
  , ⟨"ME_DEMAND", 0xA0040, 0x8, 3, 0x0, 0x0, 0x0, 0x0⟩
  , ⟨"ME_XCHG_CFG", 0xA0058, 0x0, 1, 0x64001430002000, 0xFFFFFFFFF0003FFF, 0x0, 0x0⟩
  , ⟨"ME_XCHG_MAX", 0xA0060, 0x0, 1, 0x0, 0x0, 0x0, 0x0⟩
  , ⟨"ME_CNT_XCHG", 0xA0068, 0x0, 1, 0x0, 0x0, 0x0, 0x0⟩
  , ⟨"ME_CNT_XCHG_BAD", 0xA0070, 0x0, 1, 0x0, 0x0, 0x0, 0x0⟩
  , ⟨"ME_CNT_XCHG_DUP", 0xA0078, 0x0, 1, 0x0, 0x0, 0x0, 0x0⟩
  , ⟨"ME_CNT_ABANDON", 0xA0080, 0x0, 1, 0x0, 0x0, 0x0, 0x0⟩
  , ⟨"ME_CNT_TILES", 0xA0088, 0x0, 1, 0x0, 0x0, 0x0, 0x0⟩
  , ⟨"ME_CNT_REPLAY", 0xA0090, 0x0, 1, 0x0, 0x0, 0x0, 0x0⟩
  , ⟨"ME_CNT_MOVES", 0xA0098, 0x0, 1, 0x0, 0x0, 0x0, 0x0⟩ ]

/-- Registers of the ME block, part 2. -/
def regRowsMe2 : List RegRow :=
  [ ⟨"ME_UNIT", 0xA0200, 0x8, 132, 0x1800000000000000, 0x0, 0x0, 0x0⟩
  , ⟨"ME_TRIP", 0xA0800, 0x8, 132, 0x0, 0x0, 0x0, 0x0⟩ ]

/-- Registers of the ME block. -/
def regRowsMe : List RegRow := regRowsMe1 ++ regRowsMe2

/-- Registers of the TEXT block, part 1. -/
def regRowsText1 : List RegRow :=
  [ ⟨"TEXT_CAP", 0xC0000, 0x0, 1, 0x3010401004000040, 0x0, 0x0, 0x0⟩
  , ⟨"TEXT_CTRL", 0xC0008, 0x0, 1, 0x1, 0x1, 0x0, 0x0⟩
  , ⟨"TEXT_VOCAB", 0xC0010, 0x0, 1, 0x0, 0x0, 0xFFFFFFFFFFDFFFFF, 0x0⟩
  , ⟨"TEXT_CTX_CFG", 0xC0018, 0x0, 1, 0x27101000, 0xFFFFFFFF, 0x0, 0x0⟩
  , ⟨"TEXT_CTX_OCC", 0xC0020, 0x0, 1, 0x20000000, 0x0, 0x0, 0x0⟩
  , ⟨"TEXT_SLOT_SEL", 0xC0028, 0x0, 1, 0x0, 0xFFFF, 0x0, 0x0⟩
  , ⟨"TEXT_SLOT_DATA", 0xC0030, 0x8, 5, 0x0, 0x0, 0x0, 0x0⟩
  , ⟨"TEXT_CNT_IN_BYTES", 0xC0100, 0x0, 1, 0x0, 0x0, 0x0, 0x0⟩
  , ⟨"TEXT_CNT_IN_TOKENS", 0xC0108, 0x0, 1, 0x0, 0x0, 0x0, 0x0⟩
  , ⟨"TEXT_CNT_INVALID", 0xC0110, 0x0, 1, 0x0, 0x0, 0x0, 0x0⟩
  , ⟨"TEXT_CNT_FORCED_CUT", 0xC0118, 0x0, 1, 0x0, 0x0, 0x0, 0x0⟩
  , ⟨"TEXT_CNT_CTX_FLUSH", 0xC0120, 0x0, 1, 0x0, 0x0, 0x0, 0x0⟩
  , ⟨"TEXT_CNT_UNTRUSTED", 0xC0128, 0x0, 1, 0x0, 0x0, 0x0, 0x0⟩
  , ⟨"TEXT_CNT_SAMPLED", 0xC0130, 0x0, 1, 0x0, 0x0, 0x0, 0x0⟩
  , ⟨"TEXT_CNT_STOP", 0xC0138, 0x0, 1, 0x0, 0x0, 0x0, 0x0⟩
  , ⟨"TEXT_CNT_DEADEND", 0xC0140, 0x0, 1, 0x0, 0x0, 0x0, 0x0⟩ ]

/-- Registers of the TEXT block, part 2. -/
def regRowsText2 : List RegRow :=
  [ ⟨"TEXT_CNT_STACK_OVF", 0xC0148, 0x0, 1, 0x0, 0x0, 0x0, 0x0⟩
  , ⟨"TEXT_UNIT", 0xC0400, 0x8, 64, 0x0, 0x0, 0x0, 0x0⟩ ]

/-- Registers of the TEXT block. -/
def regRowsText : List RegRow := regRowsText1 ++ regRowsText2

/-- Registers of the SCHED block, part 1. -/
def regRowsSched1 : List RegRow :=
  [ ⟨"SCHED_CAP", 0xE0000, 0x0, 1, 0x1008101000, 0x0, 0x0, 0x0⟩
  , ⟨"SCHED_CTRL", 0xE0008, 0x0, 1, 0xA00000001, 0xFFFFFFFF0001, 0x0, 0x6⟩
  , ⟨"SCHED_BATCH", 0xE0010, 0x0, 1, 0x20030100000, 0x3FFFFFF0000, 0x0, 0x0⟩
  , ⟨"SCHED_VTIME", 0xE0018, 0x0, 1, 0x0, 0x0, 0x0, 0x0⟩
  , ⟨"SCHED_PROFILE", 0xE0020, 0x0, 1, 0x10000000000, 0xFFFF00000000, 0xFFFF, 0x0⟩
  , ⟨"SCHED_TEN_SEL", 0xE0028, 0x0, 1, 0x0, 0xFFF, 0x0, 0x0⟩
  , ⟨"SCHED_TEN_BUDGET", 0xE0030, 0x0, 1, 0xFFFFFFFF00010000, 0xFFFFFFFFFFFFFFFF, 0x0, 0x0⟩
  , ⟨"SCHED_TEN_CTRL", 0xE0038, 0x0, 1, 0x10000, 0xFFFF0000, 0x0, 0xF⟩
  , ⟨"SCHED_TEN_LEVEL", 0xE0040, 0x0, 1, 0x1000000, 0x0, 0x0, 0x0⟩
  , ⟨"SCHED_TEN_FT", 0xE0048, 0x0, 1, 0x0, 0x0, 0x0, 0x0⟩
  , ⟨"SCHED_TEN_POLICE", 0xE0050, 0x0, 1, 0xFFFF0000FFFFFFFF, 0xFFFF0000FFFFFFFF, 0x0, 0x0⟩
  , ⟨"SCHED_TEN_STAT", 0xE0058, 0x0, 1, 0x0, 0x0, 0x0, 0x0⟩
  , ⟨"SCHED_SHP_SEL", 0xE0060, 0x0, 1, 0x0, 0x3FFF, 0x0, 0x0⟩
  , ⟨"SCHED_SHP_CFG", 0xE0068, 0x0, 1, 0x400000000, 0x80FFFFFFFFFFFFFF, 0x0, 0x4000000000000000⟩
  , ⟨"SCHED_SHP_LEVEL", 0xE0070, 0x0, 1, 0x0, 0x0, 0x0, 0x0⟩
  , ⟨"SCHED_PEER_SEL", 0xE0078, 0x0, 1, 0x0, 0xFFF, 0x0, 0x0⟩ ]

/-- Registers of the SCHED block, part 2. -/
def regRowsSched2 : List RegRow :=
  [ ⟨"SCHED_PEER_WT", 0xE0080, 0x0, 1, 0x1, 0xFF, 0x0, 0x0⟩
  , ⟨"SCHED_RING_SEL", 0xE0088, 0x0, 1, 0x0, 0xFFFF, 0x0, 0x0⟩
  , ⟨"SCHED_RING_CFG", 0xE0090, 0x0, 1, 0x0, 0xE7FFFFF0F8000FFF, 0x0, 0x0⟩
  , ⟨"SCHED_RING_BASE", 0xE0098, 0x0, 1, 0x0, 0xFFFFFFFFFFFFFFC0, 0x0, 0x0⟩
  , ⟨"SCHED_RING_MIRROR", 0xE00A0, 0x0, 1, 0x0, 0xFFFFFFFFFFFFFFF8, 0x0, 0x0⟩
  , ⟨"SCHED_RING_IDX", 0xE00A8, 0x0, 1, 0x0, 0x0, 0x0, 0x0⟩
  , ⟨"SCHED_RING_OWNER", 0xE00B0, 0x0, 1, 0x0, 0x0, 0x0, 0x0⟩
  , ⟨"SCHED_RING_CI", 0xE00B8, 0x0, 1, 0x0, 0x0, 0x0, 0xFFFFFFFFFFFF⟩
  , ⟨"SCHED_HIST_SEL", 0xE00C0, 0x0, 1, 0x0, 0xFFFF, 0x0, 0x10000⟩
  , ⟨"SCHED_CLASS_WT", 0xE0100, 0x8, 8, 0x201010080402, 0xFFFFFFFFFFFF, 0x0, 0x0⟩
  , ⟨"SCHED_HWM", 0xE0200, 0x8, 3, 0x0, 0x0, 0x0, 0x0⟩
  , ⟨"SCHED_CNT_STEPS", 0xE0300, 0x0, 1, 0x0, 0x0, 0x0, 0x0⟩
  , ⟨"SCHED_CNT_PREFILL", 0xE0308, 0x0, 1, 0x0, 0x0, 0x0, 0x0⟩
  , ⟨"SCHED_CNT_SKIP", 0xE0310, 0x0, 1, 0x0, 0x0, 0x0, 0x0⟩
  , ⟨"SCHED_CNT_RING_FULL", 0xE0318, 0x0, 1, 0x0, 0x0, 0x0, 0x0⟩
  , ⟨"SCHED_CNT_PUSH", 0xE0320, 0x0, 1, 0x0, 0x0, 0x0, 0x0⟩ ]

/-- Registers of the SCHED block, part 3. -/
def regRowsSched3 : List RegRow :=
  [ ⟨"SCHED_CNT_PUSH_ERR", 0xE0328, 0x0, 1, 0x0, 0x0, 0x0, 0x0⟩
  , ⟨"SCHED_CNT_RESYNC", 0xE0330, 0x0, 1, 0x0, 0x0, 0x0, 0x0⟩
  , ⟨"SCHED_HIST_DATA", 0xE0800, 0x8, 32, 0x0, 0x0, 0x0, 0x0⟩ ]

/-- Registers of the SCHED block. -/
def regRowsSched : List RegRow := regRowsSched1 ++ regRowsSched2 ++ regRowsSched3

/-- Registers of the VEC block, part 1. -/
def regRowsVec1 : List RegRow :=
  [ ⟨"VEC_CAP0", 0x100000, 0x0, 1, 0x1000100010000400, 0x0, 0x0, 0x0⟩
  , ⟨"VEC_CAP1", 0x100008, 0x0, 1, 0x10000100000, 0x0, 0x0, 0x0⟩
  , ⟨"VEC_CTRL", 0x100010, 0x0, 1, 0x3, 0x3, 0x0, 0x0⟩
  , ⟨"VEC_CFG", 0x100018, 0x0, 1, 0x7D0190000000000, 0xFFFFFF0000000000, 0x0, 0x0⟩
  , ⟨"VEC_OCC", 0x100020, 0x0, 1, 0x0, 0x0, 0x0, 0x0⟩
  , ⟨"VEC_COL_SEL", 0x100028, 0x0, 1, 0x0, 0xFFFFFFFF, 0x0, 0x0⟩
  , ⟨"VEC_COL_INFO", 0x100030, 0x8, 3, 0x0, 0x0, 0x0, 0x0⟩
  , ⟨"VEC_CNT_SEARCH", 0x100100, 0x0, 1, 0x0, 0x0, 0x0, 0x0⟩
  , ⟨"VEC_CNT_SHARD_RX", 0x100108, 0x0, 1, 0x0, 0x0, 0x0, 0x0⟩
  , ⟨"VEC_CNT_SHARD_TIMEOUT", 0x100110, 0x0, 1, 0x0, 0x0, 0x0, 0x0⟩
  , ⟨"VEC_CNT_WIDEN", 0x100118, 0x0, 1, 0x0, 0x0, 0x0, 0x0⟩
  , ⟨"VEC_CNT_SHORT", 0x100120, 0x0, 1, 0x0, 0x0, 0x0, 0x0⟩
  , ⟨"VEC_CNT_TOMB_SKIP", 0x100128, 0x0, 1, 0x0, 0x0, 0x0, 0x0⟩
  , ⟨"VEC_CNT_INSERT", 0x100130, 0x0, 1, 0x0, 0x0, 0x0, 0x0⟩
  , ⟨"VEC_CNT_DELETE", 0x100138, 0x0, 1, 0x0, 0x0, 0x0, 0x0⟩
  , ⟨"VEC_CNT_COMPACT", 0x100140, 0x0, 1, 0x0, 0x0, 0x0, 0x0⟩ ]

/-- Registers of the VEC block, part 2. -/
def regRowsVec2 : List RegRow :=
  [ ⟨"VEC_CNT_MEDIA", 0x100148, 0x0, 1, 0x0, 0x0, 0x0, 0x0⟩ ]

/-- Registers of the VEC block. -/
def regRowsVec : List RegRow := regRowsVec1 ++ regRowsVec2

/-- Registers of the NET block, part 1. -/
def regRowsNet1 : List RegRow :=
  [ ⟨"NET_CAP", 0x120000, 0x0, 1, 0x820081000040000, 0x0, 0x0, 0x0⟩
  , ⟨"NET_CTRL", 0x120008, 0x0, 1, 0x7, 0x7, 0x0, 0x0⟩
  , ⟨"NET_IPV4", 0x120010, 0x0, 1, 0x0, 0xFFFFFFFFFFFFFFFF, 0x0, 0x0⟩
  , ⟨"NET_IPV6_LO", 0x120018, 0x0, 1, 0x0, 0xFFFFFFFFFFFFFFFF, 0x0, 0x0⟩
  , ⟨"NET_IPV6_HI", 0x120020, 0x0, 1, 0x0, 0xFFFFFFFFFFFFFFFF, 0x0, 0x0⟩
  , ⟨"NET_MAC", 0x120028, 0x0, 1, 0x0, 0x0, 0xFFFFFFFFFFFF, 0x0⟩
  , ⟨"NET_PRAOL", 0x120030, 0x0, 1, 0xC00044AC, 0xFFFFFFFF, 0x0, 0x0⟩
  , ⟨"NET_REL", 0x120038, 0x0, 1, 0x642710140C4002, 0xFFFFFFFFFFFFFFFF, 0x0, 0x0⟩
  , ⟨"NET_CC", 0x120040, 0x0, 1, 0x1044000280014, 0xFFFFFFFFFFFFFFFF, 0x0, 0x0⟩
  , ⟨"NET_CREDIT", 0x120048, 0x0, 1, 0x4000000000800, 0xFFFFFFFF0000FFFF, 0x0, 0x0⟩
  , ⟨"NET_PFC", 0x120050, 0x0, 1, 0x14080000040000, 0xFFFFFFFFFFFFFFFF, 0x0, 0x0⟩
  , ⟨"NET_CTX_TMR", 0x120058, 0x0, 1, 0x1003200002710, 0xFFFFFFFFFFFFFFFF, 0x0, 0x0⟩
  , ⟨"NET_PEER_SEL", 0x120060, 0x0, 1, 0x0, 0xFFF, 0x0, 0x0⟩
  , ⟨"NET_PEER_CFG", 0x120068, 0x0, 1, 0x44AC, 0xFC0000000FFFFFFF, 0x0, 0x0⟩
  , ⟨"NET_PEER_ADDR_LO", 0x120070, 0x0, 1, 0x0, 0xFFFFFFFFFFFFFFFF, 0x0, 0x0⟩
  , ⟨"NET_PEER_ADDR_HI", 0x120078, 0x0, 1, 0x0, 0xFFFFFFFFFFFFFFFF, 0x0, 0x0⟩ ]

/-- Registers of the NET block, part 2. -/
def regRowsNet2 : List RegRow :=
  [ ⟨"NET_PEER_STATE", 0x120080, 0x0, 1, 0x0, 0x0, 0x0, 0x0⟩
  , ⟨"NET_PORT", 0x120100, 0x8, 8, 0x232800000000, 0xE000FFFF00000000, 0x0, 0x0⟩
  , ⟨"NET_CNT_TX", 0x120200, 0x0, 1, 0x0, 0x0, 0x0, 0x0⟩
  , ⟨"NET_CNT_RX", 0x120208, 0x0, 1, 0x0, 0x0, 0x0, 0x0⟩
  , ⟨"NET_CNT_RETX", 0x120210, 0x0, 1, 0x0, 0x0, 0x0, 0x0⟩
  , ⟨"NET_CNT_RTO", 0x120218, 0x0, 1, 0x0, 0x0, 0x0, 0x0⟩
  , ⟨"NET_CNT_CE", 0x120220, 0x0, 1, 0x0, 0x0, 0x0, 0x0⟩
  , ⟨"NET_CNT_CNP_TX", 0x120228, 0x0, 1, 0x0, 0x0, 0x0, 0x0⟩
  , ⟨"NET_CNT_CNP_RX", 0x120230, 0x0, 1, 0x0, 0x0, 0x0, 0x0⟩
  , ⟨"NET_CNT_AUTH_FAIL", 0x120238, 0x0, 1, 0x0, 0x0, 0x0, 0x0⟩
  , ⟨"NET_CNT_CREDIT_VIOL", 0x120240, 0x0, 1, 0x0, 0x0, 0x0, 0x0⟩
  , ⟨"NET_CNT_PFC_WD", 0x120248, 0x0, 1, 0x0, 0x0, 0x0, 0x0⟩
  , ⟨"NET_CNT_CTX_FAIL", 0x120250, 0x0, 1, 0x0, 0x0, 0x0, 0x0⟩
  , ⟨"NET_CNT_CTX_FULL", 0x120258, 0x0, 1, 0x0, 0x0, 0x0, 0x0⟩
  , ⟨"NET_CNT_DROPPED", 0x120260, 0x0, 1, 0x0, 0x0, 0x0, 0x0⟩ ]

/-- Registers of the NET block. -/
def regRowsNet : List RegRow := regRowsNet1 ++ regRowsNet2

/-- Registers of the CAT block, part 1. -/
def regRowsCat1 : List RegRow :=
  [ ⟨"CAT_CAP", 0x140000, 0x0, 1, 0x100540000400, 0x0, 0x0, 0x0⟩
  , ⟨"CAT_STATE", 0x140008, 0x0, 1, 0x0, 0x0, 0x0, 0x0⟩
  , ⟨"CAT_EPOCH", 0x140010, 0x0, 1, 0x0, 0x0, 0x0, 0x0⟩
  , ⟨"CAT_DIGEST", 0x140018, 0x0, 1, 0x0, 0x0, 0x0, 0x0⟩
  , ⟨"CAT_CFG", 0x140020, 0x0, 1, 0x1400C8003C0A32, 0xFFFFFFFFFFFFFFFF, 0x0, 0x0⟩
  , ⟨"CAT_FWD", 0x140028, 0x0, 1, 0x0, 0x0, 0x0, 0x0⟩
  , ⟨"CAT_BKT_SEL", 0x140030, 0x0, 1, 0x0, 0xFFFF, 0x0, 0x0⟩
  , ⟨"CAT_BKT_DATA", 0x140038, 0x0, 1, 0x0, 0x0, 0x0, 0x0⟩
  , ⟨"CAT_DEV_SEL", 0x140040, 0x0, 1, 0x0, 0xFFFFF, 0x0, 0x0⟩
  , ⟨"CAT_DEV_DATA", 0x140048, 0x8, 4, 0x0, 0x0, 0x0, 0x0⟩
  , ⟨"CAT_PROMISED", 0x140068, 0x0, 1, 0x0, 0x0, 0x0, 0x0⟩
  , ⟨"CAT_ACCEPTED", 0x140070, 0x0, 1, 0x0, 0x0, 0x0, 0x0⟩
  , ⟨"CAT_CNT_LOOKUP", 0x140100, 0x0, 1, 0x0, 0x0, 0x0, 0x0⟩
  , ⟨"CAT_CNT_LOCATE", 0x140108, 0x0, 1, 0x0, 0x0, 0x0, 0x0⟩
  , ⟨"CAT_CNT_FORWARD", 0x140110, 0x0, 1, 0x0, 0x0, 0x0, 0x0⟩
  , ⟨"CAT_CNT_MOVED", 0x140118, 0x0, 1, 0x0, 0x0, 0x0, 0x0⟩ ]

/-- Registers of the CAT block, part 2. -/
def regRowsCat2 : List RegRow :=
  [ ⟨"CAT_CNT_FETCH", 0x140120, 0x0, 1, 0x0, 0x0, 0x0, 0x0⟩
  , ⟨"CAT_CNT_PROPOSE", 0x140128, 0x0, 1, 0x0, 0x0, 0x0, 0x0⟩
  , ⟨"CAT_CNT_COMMIT", 0x140130, 0x0, 1, 0x0, 0x0, 0x0, 0x0⟩
  , ⟨"CAT_CNT_ABSTAIN", 0x140138, 0x0, 1, 0x0, 0x0, 0x0, 0x0⟩
  , ⟨"CAT_CNT_DIGEST_BAD", 0x140140, 0x0, 1, 0x0, 0x0, 0x0, 0x0⟩ ]

/-- Registers of the CAT block. -/
def regRowsCat : List RegRow := regRowsCat1 ++ regRowsCat2

/-- Registers of the CKPT block, part 1. -/
def regRowsCkpt1 : List RegRow :=
  [ ⟨"CKPT_CAP", 0x160000, 0x0, 1, 0x8400B0400, 0x0, 0x0, 0x0⟩
  , ⟨"CKPT_CTRL", 0x160008, 0x0, 1, 0x3, 0x3, 0x4, 0x0⟩
  , ⟨"CKPT_TRIG", 0x160010, 0x0, 1, 0x1E00000014, 0xFFFF0000003F, 0x0, 0x0⟩
  , ⟨"CKPT_STATUS", 0x160018, 0x0, 1, 0x0, 0x0, 0x0, 0x0⟩
  , ⟨"CKPT_LAST", 0x160020, 0x0, 1, 0x0, 0x0, 0x0, 0x0⟩
  , ⟨"CKPT_PROGRESS", 0x160028, 0x0, 1, 0x0, 0x0, 0x0, 0x0⟩
  , ⟨"CKPT_SHAPE", 0x160030, 0x0, 1, 0x0, 0x0, 0xFFFFFFFFFFFFFFFF, 0x0⟩
  , ⟨"CKPT_SEQ", 0x160038, 0x0, 1, 0x0, 0x0, 0x0, 0x0⟩
  , ⟨"CKPT_SHADOW", 0x160040, 0x0, 1, 0x4000000000000, 0x0, 0x0, 0x0⟩
  , ⟨"CKPT_MIRROR", 0x160048, 0x0, 1, 0x0, 0x0, 0x0, 0x0⟩
  , ⟨"CKPT_REHOME", 0x160050, 0x0, 1, 0x258000000000000, 0xFFFF000000000000, 0x0, 0x0⟩
  , ⟨"CKPT_BARRIER", 0x160058, 0x0, 1, 0xC350, 0x0, 0x0, 0x0⟩
  , ⟨"CKPT_CNT_TAKEN", 0x160100, 0x0, 1, 0x0, 0x0, 0x0, 0x0⟩
  , ⟨"CKPT_CNT_SEALED", 0x160108, 0x0, 1, 0x0, 0x0, 0x0, 0x0⟩
  , ⟨"CKPT_CNT_ABANDON", 0x160110, 0x0, 1, 0x0, 0x0, 0x0, 0x0⟩
  , ⟨"CKPT_CNT_BARRIER_ABORT", 0x160118, 0x0, 1, 0x0, 0x0, 0x0, 0x0⟩ ]

/-- Registers of the CKPT block, part 2. -/
def regRowsCkpt2 : List RegRow :=
  [ ⟨"CKPT_CNT_DEFER", 0x160120, 0x0, 1, 0x0, 0x0, 0x0, 0x0⟩
  , ⟨"CKPT_CNT_MIRRORED", 0x160128, 0x0, 1, 0x0, 0x0, 0x0, 0x0⟩
  , ⟨"CKPT_CNT_MIRROR_FAIL", 0x160130, 0x0, 1, 0x0, 0x0, 0x0, 0x0⟩
  , ⟨"CKPT_CNT_RESTORED", 0x160138, 0x0, 1, 0x0, 0x0, 0x0, 0x0⟩
  , ⟨"CKPT_CNT_ADOPTED", 0x160140, 0x0, 1, 0x0, 0x0, 0x0, 0x0⟩ ]

/-- Registers of the CKPT block. -/
def regRowsCkpt : List RegRow := regRowsCkpt1 ++ regRowsCkpt2

/-- Registers of the CHK block. -/
def regRowsChk1 : List RegRow :=
  [ ⟨"CHK_CAP", 0x180000, 0x0, 1, 0x41004000000, 0x0, 0x0, 0x0⟩
  , ⟨"CHK_CTRL", 0x180008, 0x0, 1, 0x40000000000001, 0xFFFF000000000001, 0x0, 0x0⟩
  , ⟨"CHK_SCAN_STATUS", 0x180010, 0x0, 1, 0x0, 0x0, 0x0, 0x0⟩
  , ⟨"CHK_SCAN_POS", 0x180018, 0x0, 1, 0x0, 0x0, 0x0, 0x0⟩
  , ⟨"CHK_SCAN_LAST", 0x180020, 0x0, 1, 0x0, 0x0, 0x0, 0x0⟩
  , ⟨"CHK_CNT_CRC", 0x180100, 0x0, 1, 0x0, 0x0, 0x0, 0x0⟩
  , ⟨"CHK_CNT_SCAN", 0x180108, 0x0, 1, 0x0, 0x0, 0x0, 0x0⟩
  , ⟨"CHK_CNT_BYTES", 0x180110, 0x0, 1, 0x0, 0x0, 0x0, 0x0⟩
  , ⟨"CHK_CNT_XTS", 0x180118, 0x0, 1, 0x0, 0x0, 0x0, 0x0⟩
  , ⟨"CHK_CNT_MEDIA", 0x180120, 0x0, 1, 0x0, 0x0, 0x0, 0x0⟩
  , ⟨"CHK_UNIT", 0x180200, 0x8, 9, 0x0, 0x0, 0x0, 0x0⟩ ]

/-- Registers of the CHK block. -/
def regRowsChk : List RegRow := regRowsChk1

/-- Registers of the ERR block, part 1. -/
def regRowsErr1 : List RegRow :=
  [ ⟨"ERR_CAP", 0x1A0000, 0x0, 1, 0x40050401000, 0x0, 0x0, 0x0⟩
  , ⟨"ERR_CTRL", 0x1A0008, 0x0, 1, 0x3E, 0x7FF007F, 0x0, 0x0⟩
  , ⟨"ERR_LOG_HEAD", 0x1A0010, 0x0, 1, 0x0, 0x0, 0x0, 0x0⟩
  , ⟨"ERR_LOG_SEL", 0x1A0018, 0x0, 1, 0x0, 0x40000000FFFFFFFF, 0x0, 0x0⟩
  , ⟨"ERR_LOG_DATA", 0x1A0020, 0x8, 4, 0x0, 0x0, 0x0, 0x0⟩
  , ⟨"ERR_CE_CFG", 0x1A0040, 0x0, 1, 0x3E800000010, 0xFFFF0000FFFF, 0x0, 0x0⟩
  , ⟨"ERR_STICKY", 0x1A0048, 0x0, 1, 0x0, 0x0, 0x0, 0x8000000000000000⟩
  , ⟨"ERR_ROW_SEL", 0x1A0050, 0x0, 1, 0x0, 0x3F, 0x0, 0x0⟩
  , ⟨"ERR_ROW_DATA", 0x1A0058, 0x0, 1, 0x0, 0x0, 0x0, 0x0⟩
  , ⟨"ERR_CNT_REGACC", 0x1A0100, 0x0, 1, 0x0, 0x0, 0x0, 0x0⟩
  , ⟨"ERR_CNT_REPLAY", 0x1A0108, 0x0, 1, 0x0, 0x0, 0x0, 0x0⟩
  , ⟨"ERR_CNT_RETRAIN", 0x1A0110, 0x0, 1, 0x0, 0x0, 0x0, 0x0⟩
  , ⟨"ERR_CNT_LINK_FAIL", 0x1A0118, 0x0, 1, 0x0, 0x0, 0x0, 0x0⟩
  , ⟨"ERR_CNT_HBM_CE", 0x1A0120, 0x0, 1, 0x0, 0x0, 0x0, 0x0⟩
  , ⟨"ERR_CNT_HBM_UE", 0x1A0128, 0x0, 1, 0x0, 0x0, 0x0, 0x0⟩
  , ⟨"ERR_CNT_DDR_CE", 0x1A0130, 0x0, 1, 0x0, 0x0, 0x0, 0x0⟩ ]

/-- Registers of the ERR block, part 2. -/
def regRowsErr2 : List RegRow :=
  [ ⟨"ERR_CNT_DDR_UE", 0x1A0138, 0x0, 1, 0x0, 0x0, 0x0, 0x0⟩
  , ⟨"ERR_CNT_SRAM_CE", 0x1A0140, 0x0, 1, 0x0, 0x0, 0x0, 0x0⟩
  , ⟨"ERR_CNT_SRAM_UE", 0x1A0148, 0x0, 1, 0x0, 0x0, 0x0, 0x0⟩
  , ⟨"ERR_CNT_COLOPHON", 0x1A0150, 0x0, 1, 0x0, 0x0, 0x0, 0x0⟩
  , ⟨"ERR_CNT_RECOVERED", 0x1A0158, 0x0, 1, 0x0, 0x0, 0x0, 0x0⟩
  , ⟨"ERR_CNT_LOST", 0x1A0160, 0x0, 1, 0x0, 0x0, 0x0, 0x0⟩
  , ⟨"ERR_CNT_POISON_OUT", 0x1A0168, 0x0, 1, 0x0, 0x0, 0x0, 0x0⟩
  , ⟨"ERR_CNT_LOG_LOST", 0x1A0170, 0x0, 1, 0x0, 0x0, 0x0, 0x0⟩
  , ⟨"ERR_CNT_INJECTED", 0x1A0178, 0x0, 1, 0x0, 0x0, 0x0, 0x0⟩
  , ⟨"ERR_LINK", 0x1A0200, 0x8, 80, 0x0, 0x0, 0x0, 0x0⟩
  , ⟨"ERR_DDR", 0x1A0600, 0x8, 12, 0x0, 0x0, 0x0, 0x0⟩
  , ⟨"ERR_HBM", 0x1A0680, 0x8, 12, 0x0, 0x0, 0x0, 0x0⟩ ]

/-- Registers of the ERR block. -/
def regRowsErr : List RegRow := regRowsErr1 ++ regRowsErr2

/-- Registers of the SEC block, part 1. -/
def regRowsSec1 : List RegRow :=
  [ ⟨"SEC_CAP", 0x1C0000, 0x0, 1, 0x101E1000, 0x0, 0x0, 0x0⟩
  , ⟨"SEC_STATE", 0x1C0008, 0x0, 1, 0x0, 0x0, 0xFCFFFFFF00000000, 0x0⟩
  , ⟨"SEC_INPUTS", 0x1C0010, 0x0, 1, 0x0, 0x0, 0xFFFFFF, 0x0⟩
  , ⟨"SEC_PRES", 0x1C0018, 0x0, 1, 0x0, 0x0, 0x80000000FFFFFFFF, 0x0⟩
  , ⟨"SEC_TEN_SEL", 0x1C0020, 0x0, 1, 0x0, 0x8000000000000FFF, 0x0, 0x0⟩
  , ⟨"SEC_TEN_KEY", 0x1C0028, 0x0, 1, 0x0, 0x0, 0xFF000000FFFFFFFF, 0x0⟩
  , ⟨"SEC_PRINC_SEL", 0x1C0030, 0x0, 1, 0x0, 0x3F, 0x0, 0x0⟩
  , ⟨"SEC_PRINC_DATA", 0x1C0038, 0x8, 7, 0x0, 0x0, 0xFFFFFFFFFFFFFFFF, 0x0⟩
  , ⟨"SEC_SPDM", 0x1C0070, 0x0, 1, 0x0, 0x0, 0xF0000000FFFFFFFF, 0x0⟩
  , ⟨"SEC_CNT_PRESS", 0x1C0100, 0x0, 1, 0x0, 0x0, 0xFFFFFFFFFFFFFFFF, 0x0⟩
  , ⟨"SEC_CNT_STUCK", 0x1C0108, 0x0, 1, 0x0, 0x0, 0xFFFFFFFFFFFFFFFF, 0x0⟩
  , ⟨"SEC_CNT_CHATTER", 0x1C0110, 0x0, 1, 0x0, 0x0, 0xFFFFFFFFFFFFFFFF, 0x0⟩
  , ⟨"SEC_CNT_SEAL_GLITCH", 0x1C0118, 0x0, 1, 0x0, 0x0, 0xFFFFFFFFFFFFFFFF, 0x0⟩
  , ⟨"SEC_CNT_MGMT_REFUSED", 0x1C0120, 0x0, 1, 0x0, 0x0, 0xFFFFFFFFFFFFFFFF, 0x0⟩
  , ⟨"SEC_CNT_SPDM_FAIL", 0x1C0128, 0x0, 1, 0x0, 0x0, 0xFFFFFFFFFFFFFFFF, 0x0⟩
  , ⟨"SEC_CNT_KEY_DELIVER", 0x1C0130, 0x0, 1, 0x0, 0x0, 0xFFFFFFFFFFFFFFFF, 0x0⟩ ]

/-- Registers of the SEC block, part 2. -/
def regRowsSec2 : List RegRow :=
  [ ⟨"SEC_CNT_ERASE", 0x1C0138, 0x0, 1, 0x0, 0x0, 0xFFFFFFFFFFFFFFFF, 0x0⟩
  , ⟨"SEC_CNT_PEER_REFUSED", 0x1C0140, 0x0, 1, 0x0, 0x0, 0xFFFFFFFFFFFFFFFF, 0x0⟩ ]

/-- Registers of the SEC block. -/
def regRowsSec : List RegRow := regRowsSec1 ++ regRowsSec2

/-- Registers of the BOOT block. -/
def regRowsBoot1 : List RegRow :=
  [ ⟨"BOOT_CAP", 0x1E0000, 0x0, 1, 0x400020040000, 0x0, 0x0, 0x0⟩
  , ⟨"BOOT_STATE", 0x1E0008, 0x0, 1, 0x0, 0x0, 0xFFFFCFF000000000, 0x0⟩
  , ⟨"BOOT_IMAGE", 0x1E0010, 0x0, 1, 0x0, 0x0, 0xFC000000FFFFFFFF, 0x0⟩
  , ⟨"BOOT_TIME", 0x1E0018, 0x0, 1, 0x0, 0x0, 0xFFFFFFFFFFFFFFFF, 0x0⟩
  , ⟨"BOOT_FLOOR", 0x1E0020, 0x0, 1, 0x0, 0x0, 0x0, 0x0⟩
  , ⟨"BOOT_KAT", 0x1E0028, 0x0, 1, 0x0, 0x0, 0xFFFFFFFF00000000, 0x0⟩
  , ⟨"BOOT_RESET", 0x1E0030, 0x0, 1, 0x0, 0x0, 0xC0FFFFFFFFFFFFFF, 0x0⟩
  , ⟨"BOOT_FUSE_SEL", 0x1E0038, 0x0, 1, 0x0, 0xFF, 0x0, 0x0⟩
  , ⟨"BOOT_FUSE_DATA", 0x1E0040, 0x0, 1, 0x0, 0x0, 0x0, 0x0⟩
  , ⟨"BOOT_LOCK_SEL", 0x1E0048, 0x0, 1, 0x0, 0x1F, 0x0, 0x0⟩
  , ⟨"BOOT_LOCK_DATA", 0x1E0050, 0x0, 1, 0x0, 0x0, 0xFFFFFFFF0000FFFF, 0x0⟩
  , ⟨"BOOT_CNT_WARM", 0x1E0100, 0x0, 1, 0x0, 0x0, 0xFFFFFFFFFFFFFFFF, 0x0⟩
  , ⟨"BOOT_CNT_PARTITION", 0x1E0108, 0x0, 1, 0x0, 0x0, 0xFFFFFFFFFFFFFFFF, 0x0⟩
  , ⟨"BOOT_CNT_CLUSTER", 0x1E0110, 0x0, 1, 0x0, 0x0, 0xFFFFFFFFFFFFFFFF, 0x0⟩
  , ⟨"BOOT_CNT_UNIT", 0x1E0118, 0x0, 1, 0x0, 0x0, 0xFFFFFFFFFFFFFFFF, 0x0⟩
  , ⟨"BOOT_CNT_LOCK_BUSY", 0x1E0120, 0x0, 1, 0x0, 0x0, 0xFFFFFFFFFFFFFFFF, 0x0⟩ ]

/-- Registers of the BOOT block. -/
def regRowsBoot : List RegRow := regRowsBoot1

/-- Registers of the CXL block, part 1. -/
def regRowsCxl1 : List RegRow :=
  [ ⟨"CXL_CAP", 0x200000, 0x0, 1, 0xB0210102000, 0x0, 0x0, 0x0⟩
  , ⟨"CXL_LINK", 0x200008, 0x0, 1, 0x0, 0x0, 0x0, 0x0⟩
  , ⟨"CXL_CTRL", 0x200010, 0x0, 1, 0x1, 0x1, 0x0, 0x0⟩
  , ⟨"CXL_HDM0", 0x200018, 0x0, 1, 0x0, 0x0, 0x0, 0x0⟩
  , ⟨"CXL_HDM1", 0x200020, 0x0, 1, 0x0, 0x0, 0x0, 0x0⟩
  , ⟨"CXL_CELLAR", 0x200028, 0x0, 1, 0x0, 0x0, 0xFFFFFFFFFFF0000, 0x0⟩
  , ⟨"CXL_VIS_SEL", 0x200030, 0x0, 1, 0x0, 0xF, 0x0, 0x0⟩
  , ⟨"CXL_VIS_BASE", 0x200038, 0x0, 1, 0x0, 0x0, 0xC000FFFFFFFFFFFF, 0x0⟩
  , ⟨"CXL_VIS_SIZE", 0x200040, 0x0, 1, 0x0, 0x0, 0xFFFFFFFFFFFF, 0x0⟩
  , ⟨"CXL_PRESS", 0x200048, 0x0, 1, 0x0, 0x0, 0x0, 0x0⟩
  , ⟨"CXL_THERM", 0x200050, 0x0, 1, 0x0, 0x0, 0xFFFFFFFFFFF00000, 0x0⟩
  , ⟨"CXL_THROTTLE", 0x200058, 0x0, 1, 0x645A736900000000, 0xFFFF000000000000, 0xFC000000, 0x0⟩
  , ⟨"CXL_POWER", 0x200060, 0x0, 1, 0x578000000000000, 0xFFFF000000000000, 0xFFFFFFFF0000, 0x0⟩
  , ⟨"CXL_REFCLK", 0x200068, 0x0, 1, 0x0, 0x0, 0xE000000000000000, 0x0⟩
  , ⟨"CXL_CNT_HIDDEN_RD", 0x200100, 0x0, 1, 0x0, 0x0, 0x0, 0x0⟩
  , ⟨"CXL_CNT_HIDDEN_WR", 0x200108, 0x0, 1, 0x0, 0x0, 0x0, 0x0⟩ ]

/-- Registers of the CXL block, part 2. -/
def regRowsCxl2 : List RegRow :=
  [ ⟨"CXL_CNT_POISON_RD", 0x200110, 0x0, 1, 0x0, 0x0, 0x0, 0x0⟩
  , ⟨"CXL_CNT_SNOOP", 0x200118, 0x0, 1, 0x0, 0x0, 0x0, 0x0⟩
  , ⟨"CXL_CNT_LINK_DOWN", 0x200120, 0x0, 1, 0x0, 0x0, 0x0, 0x0⟩
  , ⟨"CXL_CNT_THROTTLE_MS", 0x200128, 0x0, 1, 0x0, 0x0, 0x0, 0x0⟩
  , ⟨"CXL_CNT_NVME_ERR", 0x200130, 0x0, 1, 0x0, 0x0, 0x0, 0x0⟩
  , ⟨"CXL_CNT_REFCLK_LOSS", 0x200138, 0x0, 1, 0x0, 0x0, 0x0, 0x0⟩ ]

/-- Registers of the CXL block. -/
def regRowsCxl : List RegRow := regRowsCxl1 ++ regRowsCxl2

/-- The rows of the block that holds a BAR0 offset (Table 1.11). -/
def regBlock (a : Nat) : List RegRow :=
  if a < 0x10000 then regRowsDev
  else if a < 0x20000 then regRowsRind
  else if a < 0x40000 then regRowsSlipq
  else if a < 0x60000 then regRowsSess
  else if a < 0x80000 then regRowsTier
  else if a < 0xA0000 then regRowsNbu
  else if a < 0xC0000 then regRowsMe
  else if a < 0xE0000 then regRowsText
  else if a < 0x100000 then regRowsSched
  else if a < 0x120000 then regRowsVec
  else if a < 0x140000 then regRowsNet
  else if a < 0x160000 then regRowsCat
  else if a < 0x180000 then regRowsCkpt
  else if a < 0x1A0000 then regRowsChk
  else if a < 0x1C0000 then regRowsErr
  else if a < 0x1E0000 then regRowsSec
  else if a < 0x200000 then regRowsBoot
  else if a < 0x220000 then regRowsCxl
  else []

/-- Does a row name the register at offset `a`? -/
def RegRow.covers (r : RegRow) (a : Nat) : Bool :=
  if r.count == 1 then r.addr == a
  else r.addr <= a && (a - r.addr) % r.stride == 0 && (a - r.addr) / r.stride < r.count

/-- The row of the register at offset `a`; the per-NBU areas share one set of rows (R36). -/
def findReg (a : Nat) : Option RegRow :=
  if 0x1000000 <= a && a < 0x2800000 then regRowsNbu.find? (fun r => r.covers (0x1000000 + a % 0x1000))
  else (regBlock a).find? (fun r => r.covers a)

/-! Byte offsets in BAR0. -/

namespace A
def DEV_ID : Nat := 0x0
def DEV_REV : Nat := 0x8
def DEV_FW : Nat := 0x10
def DEV_CAP0 : Nat := 0x18
def DEV_CAP1 : Nat := 0x20
def DEV_CAP2 : Nat := 0x28
def DEV_BUNDLE : Nat := 0x30
def DEV_DEVID : Nat := 0x38
def DEV_TICK : Nat := 0x40
def DEV_STATE : Nat := 0x48
def DEV_PART : Nat := 0x50
def DEV_SCRATCH : Nat := 0x58
def SLIPQ_ERR_VEC : Nat := 0x20000
def SLIPQ_OCC : Nat := 0x20008
def SLIPQ_CNT_ACCEPT : Nat := 0x20010
def SLIPQ_CNT_REJECT : Nat := 0x20018
def SLIPQ_CNT_REFUSE : Nat := 0x20020
def SLIPQ_CNT_POLICED : Nat := 0x20028
def SLIPQ_CNT_DISCARD : Nat := 0x20030
def QP_SQ_BASE : Nat := 0x21000  -- +0x40 each, 256
def QP_RQ_BASE : Nat := 0x21008  -- +0x40 each, 256
def QP_MIRROR : Nat := 0x21010  -- +0x40 each, 256
def QP_WIN_BASE : Nat := 0x21018  -- +0x40 each, 256
def QP_WIN_SIZE : Nat := 0x21020  -- +0x40 each, 256
def QP_CFG : Nat := 0x21028  -- +0x40 each, 256
def QP_COAL : Nat := 0x21030  -- +0x40 each, 256
def QP_STATUS : Nat := 0x21038  -- +0x40 each, 256
def QP_SQ_TAIL : Nat := 0x28000  -- +0x10 each, 256
def QP_RQ_HEAD : Nat := 0x28008  -- +0x10 each, 256
def SESS_CTRL : Nat := 0x40000
def SESS_SEQ : Nat := 0x40008
def SESS_TTL_DEF0 : Nat := 0x40010
def SESS_TTL_DEF1 : Nat := 0x40018
def SESS_TTL_DEF2 : Nat := 0x40020
def SESS_CNT_PREEMPT : Nat := 0x40028
def SESS_CNT_REVIVE : Nat := 0x40030
def SESS_CNT_REBUILT : Nat := 0x40038
def SESS_CNT_FORK : Nat := 0x40040
def SESS_CNT_EXPIRE : Nat := 0x40048
def SESS_CNT_MISS : Nat := 0x40050
def SESS_INSPECT_IDX : Nat := 0x40058
def SESS_COUNT : Nat := 0x40100  -- +0x8 each, 12
def SESS_INSPECT_DATA : Nat := 0x40800  -- +0x8 each, 32
def NBU_CAP : Nat := 0x80000
def NBU_CTRL : Nat := 0x80008
def NBU_STACKMAP : Nat := 0x80010
def NBU_BCAST_SEL : Nat := 0x80018
def NBU_BCAST_DATA : Nat := 0x80020
def NBU_CNT_PROG : Nat := 0x80028
def NBU_CNT_FYIELD : Nat := 0x80030
def NBU_CNT_YACC : Nat := 0x80038
def NBU_CNT_REREAD : Nat := 0x80040
def NBU_CNT_FAIL : Nat := 0x80048
def NBU_CNT_RSUSP : Nat := 0x80050
def NBU_MAX : Nat := 0x80058
def NBU_PROG : Nat := 0x80100  -- +0x8 each, 8
def NBU_EN : Nat := 0x80400  -- +0x8 each, 96
def NBU_DIS : Nat := 0x80800  -- +0x8 each, 96
def NBU_LAUNCH : Nat := 0x1000000
def NBU_RESULT_FG : Nat := 0x1000008
def NBU_RESULT_BG : Nat := 0x1000010
def NBU_PARAM_FG : Nat := 0x1000018  -- +0x8 each, 13
def NBU_PARAM_BG : Nat := 0x1000080  -- +0x8 each, 13
def NBU_STATE : Nat := 0x1000100
def NBU_GROUPS : Nat := 0x1000108
def NBU_DEBT : Nat := 0x1000110
def NBU_ERRLOG : Nat := 0x1000118
def ME_CAP : Nat := 0xA0000
def ME_CTRL : Nat := 0xA0008
def ME_FMT : Nat := 0xA0010
def ME_HEAD_CFG : Nat := 0xA0018
def ME_RATIO_CFG : Nat := 0xA0020
def ME_POOL : Nat := 0xA0028  -- +0x8 each, 3
def ME_DEMAND : Nat := 0xA0040  -- +0x8 each, 3
def ME_XCHG_CFG : Nat := 0xA0058
def ME_XCHG_MAX : Nat := 0xA0060
def ME_CNT_XCHG : Nat := 0xA0068
def ME_CNT_XCHG_BAD : Nat := 0xA0070
def ME_CNT_XCHG_DUP : Nat := 0xA0078
def ME_CNT_ABANDON : Nat := 0xA0080
def ME_CNT_TILES : Nat := 0xA0088
def ME_CNT_REPLAY : Nat := 0xA0090
def ME_CNT_MOVES : Nat := 0xA0098
def ME_UNIT : Nat := 0xA0200  -- +0x8 each, 132
def ME_TRIP : Nat := 0xA0800  -- +0x8 each, 132
def TIER_CAP : Nat := 0x60000
def TIER_CTRL : Nat := 0x60008
def TIER_WMARK : Nat := 0x60010
def TIER_FREE_T1 : Nat := 0x60018
def TIER_FREE_T2 : Nat := 0x60020
def TIER_FREE_T3 : Nat := 0x60028
def TIER_RIPEN_CFG : Nat := 0x60030
def TIER_POOL_CFG : Nat := 0x60038
def TIER_HOLD : Nat := 0x60040
def TIER_QUOTA_SEL : Nat := 0x60048
def TIER_QUOTA : Nat := 0x60050  -- +0x8 each, 4
def TIER_POOL_SEL : Nat := 0x60070
def TIER_POOL_DATA : Nat := 0x60078
def TIER_CNT_ESCAPE : Nat := 0x60100
def TIER_CNT_PROMOTE : Nat := 0x60108
def TIER_CNT_AGED : Nat := 0x60110
def TIER_CNT_AGE_REFUSED : Nat := 0x60118
def TIER_CNT_SHELVED : Nat := 0x60120
def TIER_CNT_DISCARD : Nat := 0x60128
def TIER_CNT_SKIP : Nat := 0x60130
def TIER_CNT_QUOTA_WAIT : Nat := 0x60138
def TIER_CNT_HOLDER_LOST : Nat := 0x60140
def TIER_CNT_SECONDARY : Nat := 0x60148
def TIER_CNT_REFUSED : Nat := 0x60150
def TIER_HOST_BASE : Nat := 0x60400  -- +0x10 each, 16
def TIER_HOST_SIZE : Nat := 0x60408  -- +0x10 each, 16
def TEXT_CAP : Nat := 0xC0000
def TEXT_CTRL : Nat := 0xC0008
def TEXT_VOCAB : Nat := 0xC0010
def TEXT_CTX_CFG : Nat := 0xC0018
def TEXT_CTX_OCC : Nat := 0xC0020
def TEXT_SLOT_SEL : Nat := 0xC0028
def TEXT_SLOT_DATA : Nat := 0xC0030  -- +0x8 each, 5
def TEXT_CNT_IN_BYTES : Nat := 0xC0100
def TEXT_CNT_IN_TOKENS : Nat := 0xC0108
def TEXT_CNT_INVALID : Nat := 0xC0110
def TEXT_CNT_FORCED_CUT : Nat := 0xC0118
def TEXT_CNT_CTX_FLUSH : Nat := 0xC0120
def TEXT_CNT_UNTRUSTED : Nat := 0xC0128
def TEXT_CNT_SAMPLED : Nat := 0xC0130
def TEXT_CNT_STOP : Nat := 0xC0138
def TEXT_CNT_DEADEND : Nat := 0xC0140
def TEXT_CNT_STACK_OVF : Nat := 0xC0148
def TEXT_UNIT : Nat := 0xC0400  -- +0x8 each, 64
def SCHED_CAP : Nat := 0xE0000
def SCHED_CTRL : Nat := 0xE0008
def SCHED_BATCH : Nat := 0xE0010
def SCHED_VTIME : Nat := 0xE0018
def SCHED_PROFILE : Nat := 0xE0020
def SCHED_TEN_SEL : Nat := 0xE0028
def SCHED_TEN_BUDGET : Nat := 0xE0030
def SCHED_TEN_CTRL : Nat := 0xE0038
def SCHED_TEN_LEVEL : Nat := 0xE0040
def SCHED_TEN_FT : Nat := 0xE0048
def SCHED_TEN_POLICE : Nat := 0xE0050
def SCHED_TEN_STAT : Nat := 0xE0058
def SCHED_SHP_SEL : Nat := 0xE0060
def SCHED_SHP_CFG : Nat := 0xE0068
def SCHED_SHP_LEVEL : Nat := 0xE0070
def SCHED_PEER_SEL : Nat := 0xE0078
def SCHED_PEER_WT : Nat := 0xE0080
def SCHED_RING_SEL : Nat := 0xE0088
def SCHED_RING_CFG : Nat := 0xE0090
def SCHED_RING_BASE : Nat := 0xE0098
def SCHED_RING_MIRROR : Nat := 0xE00A0
def SCHED_RING_IDX : Nat := 0xE00A8
def SCHED_RING_OWNER : Nat := 0xE00B0
def SCHED_RING_CI : Nat := 0xE00B8
def SCHED_HIST_SEL : Nat := 0xE00C0
def SCHED_CLASS_WT : Nat := 0xE0100  -- +0x8 each, 8
def SCHED_HWM : Nat := 0xE0200  -- +0x8 each, 3
def SCHED_CNT_STEPS : Nat := 0xE0300
def SCHED_CNT_PREFILL : Nat := 0xE0308
def SCHED_CNT_SKIP : Nat := 0xE0310
def SCHED_CNT_RING_FULL : Nat := 0xE0318
def SCHED_CNT_PUSH : Nat := 0xE0320
def SCHED_CNT_PUSH_ERR : Nat := 0xE0328
def SCHED_CNT_RESYNC : Nat := 0xE0330
def SCHED_HIST_DATA : Nat := 0xE0800  -- +0x8 each, 32
def VEC_CAP0 : Nat := 0x100000
def VEC_CAP1 : Nat := 0x100008
def VEC_CTRL : Nat := 0x100010
def VEC_CFG : Nat := 0x100018
def VEC_OCC : Nat := 0x100020
def VEC_COL_SEL : Nat := 0x100028
def VEC_COL_INFO : Nat := 0x100030  -- +0x8 each, 3
def VEC_CNT_SEARCH : Nat := 0x100100
def VEC_CNT_SHARD_RX : Nat := 0x100108
def VEC_CNT_SHARD_TIMEOUT : Nat := 0x100110
def VEC_CNT_WIDEN : Nat := 0x100118
def VEC_CNT_SHORT : Nat := 0x100120
def VEC_CNT_TOMB_SKIP : Nat := 0x100128
def VEC_CNT_INSERT : Nat := 0x100130
def VEC_CNT_DELETE : Nat := 0x100138
def VEC_CNT_COMPACT : Nat := 0x100140
def VEC_CNT_MEDIA : Nat := 0x100148
def NET_CAP : Nat := 0x120000
def NET_CTRL : Nat := 0x120008
def NET_IPV4 : Nat := 0x120010
def NET_IPV6_LO : Nat := 0x120018
def NET_IPV6_HI : Nat := 0x120020
def NET_MAC : Nat := 0x120028
def NET_PRAOL : Nat := 0x120030
def NET_REL : Nat := 0x120038
def NET_CC : Nat := 0x120040
def NET_CREDIT : Nat := 0x120048
def NET_PFC : Nat := 0x120050
def NET_CTX_TMR : Nat := 0x120058
def NET_PEER_SEL : Nat := 0x120060
def NET_PEER_CFG : Nat := 0x120068
def NET_PEER_ADDR_LO : Nat := 0x120070
def NET_PEER_ADDR_HI : Nat := 0x120078
def NET_PEER_STATE : Nat := 0x120080
def NET_PORT : Nat := 0x120100  -- +0x8 each, 8
def NET_CNT_TX : Nat := 0x120200
def NET_CNT_RX : Nat := 0x120208
def NET_CNT_RETX : Nat := 0x120210
def NET_CNT_RTO : Nat := 0x120218
def NET_CNT_CE : Nat := 0x120220
def NET_CNT_CNP_TX : Nat := 0x120228
def NET_CNT_CNP_RX : Nat := 0x120230
def NET_CNT_AUTH_FAIL : Nat := 0x120238
def NET_CNT_CREDIT_VIOL : Nat := 0x120240
def NET_CNT_PFC_WD : Nat := 0x120248
def NET_CNT_CTX_FAIL : Nat := 0x120250
def NET_CNT_CTX_FULL : Nat := 0x120258
def NET_CNT_DROPPED : Nat := 0x120260
def CAT_CAP : Nat := 0x140000
def CAT_STATE : Nat := 0x140008
def CAT_EPOCH : Nat := 0x140010
def CAT_DIGEST : Nat := 0x140018
def CAT_CFG : Nat := 0x140020
def CAT_FWD : Nat := 0x140028
def CAT_BKT_SEL : Nat := 0x140030
def CAT_BKT_DATA : Nat := 0x140038
def CAT_DEV_SEL : Nat := 0x140040
def CAT_DEV_DATA : Nat := 0x140048  -- +0x8 each, 4
def CAT_PROMISED : Nat := 0x140068
def CAT_ACCEPTED : Nat := 0x140070
def CAT_CNT_LOOKUP : Nat := 0x140100
def CAT_CNT_LOCATE : Nat := 0x140108
def CAT_CNT_FORWARD : Nat := 0x140110
def CAT_CNT_MOVED : Nat := 0x140118
def CAT_CNT_FETCH : Nat := 0x140120
def CAT_CNT_PROPOSE : Nat := 0x140128
def CAT_CNT_COMMIT : Nat := 0x140130
def CAT_CNT_ABSTAIN : Nat := 0x140138
def CAT_CNT_DIGEST_BAD : Nat := 0x140140
def CKPT_CAP : Nat := 0x160000
def CKPT_CTRL : Nat := 0x160008
def CKPT_TRIG : Nat := 0x160010
def CKPT_STATUS : Nat := 0x160018
def CKPT_LAST : Nat := 0x160020
def CKPT_PROGRESS : Nat := 0x160028
def CKPT_SHAPE : Nat := 0x160030
def CKPT_SEQ : Nat := 0x160038
def CKPT_SHADOW : Nat := 0x160040
def CKPT_MIRROR : Nat := 0x160048
def CKPT_REHOME : Nat := 0x160050
def CKPT_BARRIER : Nat := 0x160058
def CKPT_CNT_TAKEN : Nat := 0x160100
def CKPT_CNT_SEALED : Nat := 0x160108
def CKPT_CNT_ABANDON : Nat := 0x160110
def CKPT_CNT_BARRIER_ABORT : Nat := 0x160118
def CKPT_CNT_DEFER : Nat := 0x160120
def CKPT_CNT_MIRRORED : Nat := 0x160128
def CKPT_CNT_MIRROR_FAIL : Nat := 0x160130
def CKPT_CNT_RESTORED : Nat := 0x160138
def CKPT_CNT_ADOPTED : Nat := 0x160140
def CHK_CAP : Nat := 0x180000
def CHK_CTRL : Nat := 0x180008
def CHK_SCAN_STATUS : Nat := 0x180010
def CHK_SCAN_POS : Nat := 0x180018
def CHK_SCAN_LAST : Nat := 0x180020
def CHK_CNT_CRC : Nat := 0x180100
def CHK_CNT_SCAN : Nat := 0x180108
def CHK_CNT_BYTES : Nat := 0x180110
def CHK_CNT_XTS : Nat := 0x180118
def CHK_CNT_MEDIA : Nat := 0x180120
def CHK_UNIT : Nat := 0x180200  -- +0x8 each, 9
def ERR_CAP : Nat := 0x1A0000
def ERR_CTRL : Nat := 0x1A0008
def ERR_LOG_HEAD : Nat := 0x1A0010
def ERR_LOG_SEL : Nat := 0x1A0018
def ERR_LOG_DATA : Nat := 0x1A0020  -- +0x8 each, 4
def ERR_CE_CFG : Nat := 0x1A0040
def ERR_STICKY : Nat := 0x1A0048
def ERR_ROW_SEL : Nat := 0x1A0050
def ERR_ROW_DATA : Nat := 0x1A0058
def ERR_CNT_REGACC : Nat := 0x1A0100
def ERR_CNT_REPLAY : Nat := 0x1A0108
def ERR_CNT_RETRAIN : Nat := 0x1A0110
def ERR_CNT_LINK_FAIL : Nat := 0x1A0118
def ERR_CNT_HBM_CE : Nat := 0x1A0120
def ERR_CNT_HBM_UE : Nat := 0x1A0128
def ERR_CNT_DDR_CE : Nat := 0x1A0130
def ERR_CNT_DDR_UE : Nat := 0x1A0138
def ERR_CNT_SRAM_CE : Nat := 0x1A0140
def ERR_CNT_SRAM_UE : Nat := 0x1A0148
def ERR_CNT_COLOPHON : Nat := 0x1A0150
def ERR_CNT_RECOVERED : Nat := 0x1A0158
def ERR_CNT_LOST : Nat := 0x1A0160
def ERR_CNT_POISON_OUT : Nat := 0x1A0168
def ERR_CNT_LOG_LOST : Nat := 0x1A0170
def ERR_CNT_INJECTED : Nat := 0x1A0178
def ERR_LINK : Nat := 0x1A0200  -- +0x8 each, 80
def ERR_DDR : Nat := 0x1A0600  -- +0x8 each, 12
def ERR_HBM : Nat := 0x1A0680  -- +0x8 each, 12
def RIND_AUDIT_STATUS : Nat := 0x10400
def RIND_AUDIT_LAST : Nat := 0x10408
def RIND_AUDIT_CNT_SWEEP : Nat := 0x10410
def RIND_AUDIT_CNT_VIOL : Nat := 0x10418
def RIND_AUDIT_CNT_RECHECK : Nat := 0x10420
def RIND_AUDIT_CNT_FENCE : Nat := 0x10428
def RIND_CAP : Nat := 0x10000
def RIND_STATUS : Nat := 0x10008
def RIND_LOCKSTEP : Nat := 0x10010
def RIND_WDOG : Nat := 0x10018
def RIND_KEYSTORE : Nat := 0x10020
def SEC_CAP : Nat := 0x1C0000
def SEC_STATE : Nat := 0x1C0008
def SEC_INPUTS : Nat := 0x1C0010
def SEC_PRES : Nat := 0x1C0018
def SEC_TEN_SEL : Nat := 0x1C0020
def SEC_TEN_KEY : Nat := 0x1C0028
def SEC_PRINC_SEL : Nat := 0x1C0030
def SEC_PRINC_DATA : Nat := 0x1C0038  -- +0x8 each, 7
def SEC_SPDM : Nat := 0x1C0070
def SEC_CNT_PRESS : Nat := 0x1C0100
def SEC_CNT_STUCK : Nat := 0x1C0108
def SEC_CNT_CHATTER : Nat := 0x1C0110
def SEC_CNT_SEAL_GLITCH : Nat := 0x1C0118
def SEC_CNT_MGMT_REFUSED : Nat := 0x1C0120
def SEC_CNT_SPDM_FAIL : Nat := 0x1C0128
def SEC_CNT_KEY_DELIVER : Nat := 0x1C0130
def SEC_CNT_ERASE : Nat := 0x1C0138
def SEC_CNT_PEER_REFUSED : Nat := 0x1C0140
def BOOT_CAP : Nat := 0x1E0000
def BOOT_STATE : Nat := 0x1E0008
def BOOT_IMAGE : Nat := 0x1E0010
def BOOT_TIME : Nat := 0x1E0018
def BOOT_FLOOR : Nat := 0x1E0020
def BOOT_KAT : Nat := 0x1E0028
def BOOT_RESET : Nat := 0x1E0030
def BOOT_FUSE_SEL : Nat := 0x1E0038
def BOOT_FUSE_DATA : Nat := 0x1E0040
def BOOT_LOCK_SEL : Nat := 0x1E0048
def BOOT_LOCK_DATA : Nat := 0x1E0050
def BOOT_CNT_WARM : Nat := 0x1E0100
def BOOT_CNT_PARTITION : Nat := 0x1E0108
def BOOT_CNT_CLUSTER : Nat := 0x1E0110
def BOOT_CNT_UNIT : Nat := 0x1E0118
def BOOT_CNT_LOCK_BUSY : Nat := 0x1E0120
def CXL_CAP : Nat := 0x200000
def CXL_LINK : Nat := 0x200008
def CXL_CTRL : Nat := 0x200010
def CXL_HDM0 : Nat := 0x200018
def CXL_HDM1 : Nat := 0x200020
def CXL_CELLAR : Nat := 0x200028
def CXL_VIS_SEL : Nat := 0x200030
def CXL_VIS_BASE : Nat := 0x200038
def CXL_VIS_SIZE : Nat := 0x200040
def CXL_PRESS : Nat := 0x200048
def CXL_THERM : Nat := 0x200050
def CXL_THROTTLE : Nat := 0x200058
def CXL_POWER : Nat := 0x200060
def CXL_REFCLK : Nat := 0x200068
def CXL_CNT_HIDDEN_RD : Nat := 0x200100
def CXL_CNT_HIDDEN_WR : Nat := 0x200108
def CXL_CNT_POISON_RD : Nat := 0x200110
def CXL_CNT_SNOOP : Nat := 0x200118
def CXL_CNT_LINK_DOWN : Nat := 0x200120
def CXL_CNT_THROTTLE_MS : Nat := 0x200128
def CXL_CNT_NVME_ERR : Nat := 0x200130
def CXL_CNT_REFCLK_LOSS : Nat := 0x200138
end A

/-! Fields: register offset, highest bit, lowest bit. -/

namespace F
def DEV_ID_DEVICE_CODE : Fld := ⟨0x0, 47, 32⟩
def DEV_ID_VENDOR : Fld := ⟨0x0, 31, 16⟩
def DEV_ID_FAMILY : Fld := ⟨0x0, 15, 0⟩
def DEV_REV_STEP_MAJOR : Fld := ⟨0x8, 15, 8⟩
def DEV_REV_STEP_MINOR : Fld := ⟨0x8, 7, 0⟩
def DEV_FW_DESK_MAJOR : Fld := ⟨0x10, 63, 56⟩
def DEV_FW_DESK_MINOR : Fld := ⟨0x10, 55, 48⟩
def DEV_FW_DESK_PATCH : Fld := ⟨0x10, 47, 32⟩
def DEV_FW_RIND_MAJOR : Fld := ⟨0x10, 31, 24⟩
def DEV_FW_RIND_MINOR : Fld := ⟨0x10, 23, 16⟩
def DEV_FW_RIND_PATCH : Fld := ⟨0x10, 15, 0⟩
def DEV_CAP0_CELLAR_MASK : Fld := ⟨0x18, 51, 40⟩
def DEV_CAP0_PORT_MASK : Fld := ⟨0x18, 39, 32⟩
def DEV_CAP0_STACK_MASK : Fld := ⟨0x18, 27, 16⟩
def DEV_CAP0_CLUSTER_MASK : Fld := ⟨0x18, 15, 0⟩
def DEV_CAP1_ME_COUNT : Fld := ⟨0x20, 63, 56⟩
def DEV_CAP1_TIDY_COUNT : Fld := ⟨0x20, 55, 47⟩
def DEV_CAP1_NBU_COUNT : Fld := ⟨0x20, 46, 34⟩
def DEV_CAP1_TEXT_COUNT : Fld := ⟨0x20, 33, 29⟩
def DEV_CAP1_SAMPLER_COUNT : Fld := ⟨0x20, 28, 23⟩
def DEV_CAP1_GRAMMAR_COUNT : Fld := ⟨0x20, 22, 18⟩
def DEV_CAP2_SLIP_VERSION : Fld := ⟨0x28, 47, 40⟩
def DEV_CAP2_MAX_BATCH : Fld := ⟨0x28, 39, 30⟩
def DEV_CAP2_LOG2_RINGS : Fld := ⟨0x28, 29, 25⟩
def DEV_CAP2_LOG2_PEERS : Fld := ⟨0x28, 24, 20⟩
def DEV_CAP2_LOG2_TENANTS : Fld := ⟨0x28, 19, 15⟩
def DEV_CAP2_LOG2_SESSIONS : Fld := ⟨0x28, 14, 10⟩
def DEV_CAP2_DEVID_BITS : Fld := ⟨0x28, 9, 5⟩
def DEV_BUNDLE_LOADED : Fld := ⟨0x30, 63, 63⟩
def DEV_BUNDLE_BUNDLE_VER : Fld := ⟨0x30, 47, 32⟩
def DEV_BUNDLE_PROFILE_ID : Fld := ⟨0x30, 31, 0⟩
def DEV_DEVID_VALID : Fld := ⟨0x38, 63, 63⟩
def DEV_DEVID_DEVICE_ID : Fld := ⟨0x38, 19, 0⟩
def DEV_TICK_TICK : Fld := ⟨0x40, 63, 0⟩
def DEV_STATE_STATE : Fld := ⟨0x48, 7, 0⟩
def DEV_PART_EAST : Fld := ⟨0x50, 15, 8⟩
def DEV_PART_WEST : Fld := ⟨0x50, 7, 0⟩
def DEV_SCRATCH_SCRATCH : Fld := ⟨0x58, 63, 0⟩
def SLIPQ_ERR_VEC_VEC : Fld := ⟨0x20000, 10, 0⟩
def SLIPQ_OCC_OUTSTANDING : Fld := ⟨0x20008, 16, 0⟩
def SLIPQ_CNT_ACCEPT_COUNT : Fld := ⟨0x20010, 63, 0⟩
def SLIPQ_CNT_REJECT_COUNT : Fld := ⟨0x20018, 63, 0⟩
def SLIPQ_CNT_REFUSE_COUNT : Fld := ⟨0x20020, 63, 0⟩
def SLIPQ_CNT_POLICED_COUNT : Fld := ⟨0x20028, 63, 0⟩
def SLIPQ_CNT_DISCARD_COUNT : Fld := ⟨0x20030, 63, 0⟩
def QP_SQ_BASE_ADDR : Fld := ⟨0x21000, 63, 12⟩
def QP_RQ_BASE_ADDR : Fld := ⟨0x21008, 63, 12⟩
def QP_WIN_BASE_ADDR : Fld := ⟨0x21018, 63, 12⟩
def QP_MIRROR_ADDR : Fld := ⟨0x21010, 63, 4⟩
def QP_WIN_SIZE_UNITS : Fld := ⟨0x21020, 31, 0⟩
def QP_CFG_ENABLE : Fld := ⟨0x21028, 63, 63⟩
def QP_CFG_OPERATOR : Fld := ⟨0x21028, 62, 62⟩
def QP_CFG_TENANT : Fld := ⟨0x21028, 47, 32⟩
def QP_CFG_MSIX_VEC : Fld := ⟨0x21028, 26, 16⟩
def QP_CFG_LOG2_RQ : Fld := ⟨0x21028, 12, 8⟩
def QP_CFG_LOG2_SQ : Fld := ⟨0x21028, 4, 0⟩
def QP_COAL_COAL_TIME : Fld := ⟨0x21030, 31, 16⟩
def QP_COAL_COAL_COUNT : Fld := ⟨0x21030, 15, 0⟩
def QP_STATUS_STATE : Fld := ⟨0x21038, 63, 56⟩
def QP_STATUS_ERR_CAUSE : Fld := ⟨0x21038, 55, 48⟩
def QP_STATUS_DISCARDING : Fld := ⟨0x21038, 32, 32⟩
def QP_STATUS_OUTSTANDING : Fld := ⟨0x21038, 31, 16⟩
def QP_STATUS_RQ_UNCONSUMED : Fld := ⟨0x21038, 15, 0⟩
def QP_SQ_TAIL_TAIL : Fld := ⟨0x28000, 15, 0⟩
def QP_RQ_HEAD_HEAD : Fld := ⟨0x28008, 15, 0⟩
def SESS_CTRL_PREEMPT_EN : Fld := ⟨0x40000, 1, 1⟩
def SESS_CTRL_ADMIT_EN : Fld := ⟨0x40000, 0, 0⟩
def SESS_SEQ_NEXT : Fld := ⟨0x40008, 43, 0⟩
def SESS_TTL_DEF0_T2 : Fld := ⟨0x40010, 63, 32⟩
def SESS_TTL_DEF0_WAIT : Fld := ⟨0x40010, 31, 0⟩
def SESS_TTL_DEF1_T4 : Fld := ⟨0x40018, 63, 32⟩
def SESS_TTL_DEF1_T3 : Fld := ⟨0x40018, 31, 0⟩
def SESS_TTL_DEF2_CLOSED_HOLD : Fld := ⟨0x40020, 63, 32⟩
def SESS_TTL_DEF2_TRANSCRIPT : Fld := ⟨0x40020, 31, 0⟩
def SESS_CNT_PREEMPT_COUNT : Fld := ⟨0x40028, 63, 0⟩
def SESS_CNT_REVIVE_COUNT : Fld := ⟨0x40030, 63, 0⟩
def SESS_CNT_REBUILT_COUNT : Fld := ⟨0x40038, 63, 0⟩
def SESS_CNT_FORK_COUNT : Fld := ⟨0x40040, 63, 0⟩
def SESS_CNT_EXPIRE_COUNT : Fld := ⟨0x40048, 63, 0⟩
def SESS_CNT_MISS_COUNT : Fld := ⟨0x40050, 63, 0⟩
def SESS_COUNT_ENTRIES : Fld := ⟨0x40100, 20, 0⟩
def SESS_INSPECT_IDX_VALID : Fld := ⟨0x40058, 63, 63⟩
def SESS_INSPECT_IDX_INDEX : Fld := ⟨0x40058, 19, 0⟩
def SESS_INSPECT_DATA_DATA : Fld := ⟨0x40800, 63, 0⟩
def NBU_CAP_YIELD_ACCESSES : Fld := ⟨0x80000, 55, 48⟩
def NBU_CAP_FORCED_YIELD : Fld := ⟨0x80000, 47, 40⟩
def NBU_CAP_MAX_DEBT : Fld := ⟨0x80000, 39, 32⟩
def NBU_CAP_PROG_SLOTS : Fld := ⟨0x80000, 31, 24⟩
def NBU_CAP_SRAM_KIB : Fld := ⟨0x80000, 23, 16⟩
def NBU_CAP_STORE_OPS : Fld := ⟨0x80000, 15, 0⟩
def NBU_CTRL_BG_EN : Fld := ⟨0x80008, 1, 1⟩
def NBU_CTRL_MAX_CLR : Fld := ⟨0x80008, 0, 0⟩
def NBU_STACKMAP_Z : Fld := ⟨0x80010, 55, 52⟩
def NBU_STACKMAP_S : Fld := ⟨0x80010, 51, 48⟩
def NBU_STACKMAP_MAP : Fld := ⟨0x80010, 47, 0⟩
def NBU_BCAST_SEL_STACK_MASK : Fld := ⟨0x80018, 51, 40⟩
def NBU_BCAST_SEL_GROUP : Fld := ⟨0x80018, 31, 24⟩
def NBU_BCAST_SEL_REG : Fld := ⟨0x80018, 4, 0⟩
def NBU_BCAST_DATA_DATA : Fld := ⟨0x80020, 63, 0⟩
def NBU_CNT_PROG_COUNT : Fld := ⟨0x80028, 63, 0⟩
def NBU_CNT_FYIELD_COUNT : Fld := ⟨0x80030, 63, 0⟩
def NBU_CNT_YACC_COUNT : Fld := ⟨0x80038, 63, 0⟩
def NBU_CNT_REREAD_COUNT : Fld := ⟨0x80040, 63, 0⟩
def NBU_CNT_FAIL_COUNT : Fld := ⟨0x80048, 63, 0⟩
def NBU_CNT_RSUSP_COUNT : Fld := ⟨0x80050, 63, 0⟩
def NBU_MAX_DEBT_MAX : Fld := ⟨0x80058, 39, 32⟩
def NBU_MAX_ADDED_NS : Fld := ⟨0x80058, 15, 0⟩
def NBU_PROG_VALID : Fld := ⟨0x80100, 63, 63⟩
def NBU_PROG_PROG_ID : Fld := ⟨0x80100, 47, 32⟩
def NBU_PROG_ENTRY : Fld := ⟨0x80100, 24, 16⟩
def NBU_PROG_LENGTH : Fld := ⟨0x80100, 9, 0⟩
def NBU_EN_MAP : Fld := ⟨0x80400, 63, 0⟩
def NBU_DIS_MAP : Fld := ⟨0x80800, 63, 0⟩
def NBU_LAUNCH_TAG : Fld := ⟨0x1000000, 47, 16⟩
def NBU_LAUNCH_BG : Fld := ⟨0x1000000, 8, 8⟩
def NBU_LAUNCH_SLOT : Fld := ⟨0x1000000, 2, 0⟩
def NBU_RESULT_FG_CODE : Fld := ⟨0x1000008, 63, 56⟩
def NBU_RESULT_BG_CODE : Fld := ⟨0x1000010, 63, 56⟩
def NBU_RESULT_FG_TAG : Fld := ⟨0x1000008, 47, 16⟩
def NBU_RESULT_BG_TAG : Fld := ⟨0x1000010, 47, 16⟩
def NBU_RESULT_FG_AUX : Fld := ⟨0x1000008, 15, 0⟩
def NBU_RESULT_BG_AUX : Fld := ⟨0x1000010, 15, 0⟩
def NBU_PARAM_FG_PARAM : Fld := ⟨0x1000018, 63, 0⟩
def NBU_PARAM_BG_PARAM : Fld := ⟨0x1000080, 63, 0⟩
def NBU_STATE_STATE : Fld := ⟨0x1000100, 55, 53⟩
def NBU_STATE_PC : Fld := ⟨0x1000100, 52, 44⟩
def NBU_STATE_FG_DEPTH : Fld := ⟨0x1000100, 43, 41⟩
def NBU_STATE_BG_DEPTH : Fld := ⟨0x1000100, 40, 38⟩
def NBU_STATE_BG_SUSPENDED : Fld := ⟨0x1000100, 37, 37⟩
def NBU_GROUPS_G : Fld := ⟨0x1000108, 31, 0⟩
def NBU_DEBT_PP_ON : Fld := ⟨0x1000110, 9, 9⟩
def NBU_DEBT_PP_ACTIVE : Fld := ⟨0x1000110, 8, 8⟩
def NBU_DEBT_DEBT1 : Fld := ⟨0x1000110, 7, 4⟩
def NBU_DEBT_DEBT0 : Fld := ⟨0x1000110, 3, 0⟩
def NBU_ERRLOG_REREADS : Fld := ⟨0x1000118, 63, 56⟩
def NBU_ERRLOG_FAILS : Fld := ⟨0x1000118, 55, 48⟩
def NBU_ERRLOG_CAUSE : Fld := ⟨0x1000118, 47, 40⟩
def NBU_ERRLOG_CA : Fld := ⟨0x1000118, 20, 0⟩
def ME_CAP_BUILT : Fld := ⟨0xA0000, 39, 32⟩
def ME_CAP_MAX_ENABLED : Fld := ⟨0xA0000, 31, 24⟩
def ME_CAP_ROWS : Fld := ⟨0xA0000, 23, 16⟩
def ME_CAP_COLS : Fld := ⟨0xA0000, 15, 8⟩
def ME_CAP_OPEN_STEPS : Fld := ⟨0xA0000, 7, 0⟩
def ME_CTRL_MAX_CLR : Fld := ⟨0xA0008, 2, 2⟩
def ME_CTRL_HEAD_ME_EN : Fld := ⟨0xA0008, 1, 1⟩
def ME_CTRL_RATIO_EN : Fld := ⟨0xA0008, 0, 0⟩
def ME_FMT_PREFILL_FMT : Fld := ⟨0xA0010, 19, 16⟩
def ME_FMT_HEAD_FMT : Fld := ⟨0xA0010, 15, 12⟩
def ME_FMT_GUARD_EXP : Fld := ⟨0xA0010, 7, 0⟩
def ME_HEAD_CFG_RESCORE_K : Fld := ⟨0xA0018, 23, 16⟩
def ME_HEAD_CFG_HEAD_NBU_MAX : Fld := ⟨0xA0018, 9, 0⟩
def ME_RATIO_CFG_PERIOD_US : Fld := ⟨0xA0020, 63, 32⟩
def ME_RATIO_CFG_MOVE_MAX : Fld := ⟨0xA0020, 31, 16⟩
def ME_RATIO_CFG_HYST : Fld := ⟨0xA0020, 15, 0⟩
def ME_POOL_CUR : Fld := ⟨0xA0028, 63, 56⟩
def ME_POOL_TARGET : Fld := ⟨0xA0028, 55, 48⟩
def ME_POOL_WANTED : Fld := ⟨0xA0028, 47, 40⟩
def ME_POOL_MAX : Fld := ⟨0xA0028, 15, 8⟩
def ME_POOL_MIN : Fld := ⟨0xA0028, 7, 0⟩
def ME_DEMAND_ME_NS : Fld := ⟨0xA0040, 63, 0⟩
def ME_XCHG_CFG_TIMEOUT_MS : Fld := ⟨0xA0058, 63, 48⟩
def ME_XCHG_CFG_RETRY_US : Fld := ⟨0xA0058, 47, 32⟩
def ME_XCHG_CFG_RETRIES : Fld := ⟨0xA0058, 31, 28⟩
def ME_XCHG_CFG_PREFILL_CHUNK : Fld := ⟨0xA0058, 13, 0⟩
def ME_XCHG_MAX_NS : Fld := ⟨0xA0060, 31, 0⟩
def ME_CNT_XCHG_COUNT : Fld := ⟨0xA0068, 63, 0⟩
def ME_CNT_XCHG_BAD_COUNT : Fld := ⟨0xA0070, 63, 0⟩
def ME_CNT_XCHG_DUP_COUNT : Fld := ⟨0xA0078, 63, 0⟩
def ME_CNT_ABANDON_COUNT : Fld := ⟨0xA0080, 63, 0⟩
def ME_CNT_TILES_COUNT : Fld := ⟨0xA0088, 63, 0⟩
def ME_CNT_REPLAY_COUNT : Fld := ⟨0xA0090, 63, 0⟩
def ME_CNT_MOVES_COUNT : Fld := ⟨0xA0098, 63, 0⟩
def ME_UNIT_STATE : Fld := ⟨0xA0200, 63, 61⟩
def ME_UNIT_POOL : Fld := ⟨0xA0200, 60, 59⟩
def ME_UNIT_EAST : Fld := ⟨0xA0200, 58, 58⟩
def ME_UNIT_SPARE : Fld := ⟨0xA0200, 57, 57⟩
def ME_UNIT_CLUSTER : Fld := ⟨0xA0200, 56, 52⟩
def ME_UNIT_TILES : Fld := ⟨0xA0200, 47, 0⟩
def ME_TRIP_NONFINITE : Fld := ⟨0xA0800, 63, 48⟩
def ME_TRIP_MAGNITUDE : Fld := ⟨0xA0800, 47, 32⟩
def ME_TRIP_SATURATION : Fld := ⟨0xA0800, 31, 16⟩
def ME_TRIP_PARITY : Fld := ⟨0xA0800, 15, 0⟩
def TIER_CAP_CELLAR_GIB : Fld := ⟨0x60000, 47, 32⟩
def TIER_CAP_HOST_REGIONS : Fld := ⟨0x60000, 31, 24⟩
def TIER_CAP_SPREAD_MAX : Fld := ⟨0x60000, 23, 16⟩
def TIER_CAP_POOL_ENTRIES : Fld := ⟨0x60000, 15, 0⟩
def TIER_CTRL_AGE_EN : Fld := ⟨0x60008, 2, 2⟩
def TIER_CTRL_DOWN_EN : Fld := ⟨0x60008, 1, 1⟩
def TIER_CTRL_RIPEN_EN : Fld := ⟨0x60008, 0, 0⟩
def TIER_WMARK_HIGH : Fld := ⟨0x60010, 63, 32⟩
def TIER_WMARK_LOW : Fld := ⟨0x60010, 31, 0⟩
def TIER_FREE_T1_SLOTS : Fld := ⟨0x60018, 23, 0⟩
def TIER_FREE_T2_UNITS : Fld := ⟨0x60020, 35, 0⟩
def TIER_FREE_T3_UNITS : Fld := ⟨0x60028, 35, 0⟩
def TIER_RIPEN_CFG_RIPEN_BW : Fld := ⟨0x60030, 63, 48⟩
def TIER_RIPEN_CFG_COMMIT_PERIOD : Fld := ⟨0x60030, 47, 32⟩
def TIER_RIPEN_CFG_GET_TIMEOUT : Fld := ⟨0x60030, 15, 0⟩
def TIER_POOL_CFG_POOL_LEN : Fld := ⟨0x60038, 24, 16⟩
def TIER_POOL_CFG_SPREAD : Fld := ⟨0x60038, 3, 0⟩
def TIER_HOLD_CAP : Fld := ⟨0x60040, 63, 32⟩
def TIER_HOLD_USED : Fld := ⟨0x60040, 31, 0⟩
def TIER_QUOTA_SEL_OPR : Fld := ⟨0x60048, 63, 63⟩
def TIER_QUOTA_SEL_TENANT : Fld := ⟨0x60048, 11, 0⟩
def TIER_QUOTA_LIMIT : Fld := ⟨0x60050, 63, 32⟩
def TIER_QUOTA_USED : Fld := ⟨0x60050, 31, 0⟩
def TIER_POOL_SEL_INDEX : Fld := ⟨0x60070, 7, 0⟩
def TIER_POOL_DATA_VALID : Fld := ⟨0x60078, 63, 63⟩
def TIER_POOL_DATA_DEVICE_ID : Fld := ⟨0x60078, 19, 0⟩
def TIER_CNT_ESCAPE_COUNT : Fld := ⟨0x60100, 63, 0⟩
def TIER_CNT_PROMOTE_COUNT : Fld := ⟨0x60108, 63, 0⟩
def TIER_CNT_AGED_COUNT : Fld := ⟨0x60110, 63, 0⟩
def TIER_CNT_AGE_REFUSED_COUNT : Fld := ⟨0x60118, 63, 0⟩
def TIER_CNT_SHELVED_COUNT : Fld := ⟨0x60120, 63, 0⟩
def TIER_CNT_DISCARD_COUNT : Fld := ⟨0x60128, 63, 0⟩
def TIER_CNT_SKIP_COUNT : Fld := ⟨0x60130, 63, 0⟩
def TIER_CNT_QUOTA_WAIT_COUNT : Fld := ⟨0x60138, 63, 0⟩
def TIER_CNT_HOLDER_LOST_COUNT : Fld := ⟨0x60140, 63, 0⟩
def TIER_CNT_SECONDARY_COUNT : Fld := ⟨0x60148, 63, 0⟩
def TIER_CNT_REFUSED_COUNT : Fld := ⟨0x60150, 63, 0⟩
def TIER_HOST_BASE_ADDR : Fld := ⟨0x60400, 63, 21⟩
def TIER_HOST_SIZE_STATE : Fld := ⟨0x60408, 63, 62⟩
def TIER_HOST_SIZE_UNITS : Fld := ⟨0x60408, 31, 0⟩
def TEXT_CAP_MAX_PIECE : Fld := ⟨0xC0000, 63, 56⟩
def TEXT_CAP_STOPS : Fld := ⟨0xC0000, 55, 48⟩
def TEXT_CAP_STOP_LEN : Fld := ⟨0xC0000, 47, 40⟩
def TEXT_CAP_SLOTS : Fld := ⟨0xC0000, 39, 32⟩
def TEXT_CAP_TOP_K_MAX : Fld := ⟨0xC0000, 31, 16⟩
def TEXT_CAP_STACK_DEPTH : Fld := ⟨0xC0000, 15, 0⟩
def TEXT_CTRL_CTX_EN : Fld := ⟨0xC0008, 0, 0⟩
def TEXT_VOCAB_EOS_ID : Fld := ⟨0xC0010, 63, 44⟩
def TEXT_VOCAB_BYTE_BASE : Fld := ⟨0xC0010, 43, 24⟩
def TEXT_VOCAB_NORM : Fld := ⟨0xC0010, 23, 22⟩
def TEXT_VOCAB_VOCAB_SIZE : Fld := ⟨0xC0010, 20, 0⟩
def TEXT_CTX_CFG_CTX_TIMEOUT : Fld := ⟨0xC0018, 31, 16⟩
def TEXT_CTX_CFG_FORCE_WINDOW : Fld := ⟨0xC0018, 15, 0⟩
def TEXT_CTX_OCC_LIMIT : Fld := ⟨0xC0020, 29, 16⟩
def TEXT_CTX_OCC_OPEN : Fld := ⟨0xC0020, 13, 0⟩
def TEXT_SLOT_SEL_VALID : Fld := ⟨0xC0028, 63, 63⟩
def TEXT_SLOT_SEL_TENANT : Fld := ⟨0xC0028, 15, 4⟩
def TEXT_SLOT_SEL_SLOT : Fld := ⟨0xC0028, 3, 0⟩
def TEXT_SLOT_DATA_DATA : Fld := ⟨0xC0030, 63, 0⟩
def TEXT_CNT_IN_BYTES_COUNT : Fld := ⟨0xC0100, 63, 0⟩
def TEXT_CNT_IN_TOKENS_COUNT : Fld := ⟨0xC0108, 63, 0⟩
def TEXT_CNT_INVALID_COUNT : Fld := ⟨0xC0110, 63, 0⟩
def TEXT_CNT_FORCED_CUT_COUNT : Fld := ⟨0xC0118, 63, 0⟩
def TEXT_CNT_CTX_FLUSH_COUNT : Fld := ⟨0xC0120, 63, 0⟩
def TEXT_CNT_UNTRUSTED_COUNT : Fld := ⟨0xC0128, 63, 0⟩
def TEXT_CNT_SAMPLED_COUNT : Fld := ⟨0xC0130, 63, 0⟩
def TEXT_CNT_STOP_COUNT : Fld := ⟨0xC0138, 63, 0⟩
def TEXT_CNT_DEADEND_COUNT : Fld := ⟨0xC0140, 63, 0⟩
def TEXT_CNT_STACK_OVF_COUNT : Fld := ⟨0xC0148, 63, 0⟩
def TEXT_UNIT_STATE : Fld := ⟨0xC0400, 63, 61⟩
def TEXT_UNIT_KIND : Fld := ⟨0xC0400, 60, 58⟩
def TEXT_UNIT_JOBS : Fld := ⟨0xC0400, 47, 0⟩
def SCHED_CAP_HIST_BINS : Fld := ⟨0xE0000, 39, 32⟩
def SCHED_CAP_CLASSES : Fld := ⟨0xE0000, 31, 24⟩
def SCHED_CAP_LOG2_RINGS : Fld := ⟨0xE0000, 23, 16⟩
def SCHED_CAP_TENANTS : Fld := ⟨0xE0000, 15, 0⟩
def SCHED_CTRL_SAMPLE_US : Fld := ⟨0xE0008, 47, 32⟩
def SCHED_CTRL_IRQ_GAP_US : Fld := ⟨0xE0008, 31, 16⟩
def SCHED_CTRL_HWM_CLR : Fld := ⟨0xE0008, 2, 2⟩
def SCHED_CTRL_HIST_CLR : Fld := ⟨0xE0008, 1, 1⟩
def SCHED_CTRL_SCHED_EN : Fld := ⟨0xE0008, 0, 0⟩
def SCHED_BATCH_MAX_BATCH : Fld := ⟨0xE0010, 41, 32⟩
def SCHED_BATCH_DECODE_OPEN : Fld := ⟨0xE0010, 31, 24⟩
def SCHED_BATCH_PREFILL_OPEN : Fld := ⟨0xE0010, 23, 16⟩
def SCHED_VTIME_V : Fld := ⟨0xE0018, 63, 0⟩
def SCHED_PROFILE_SEARCH_COST : Fld := ⟨0xE0020, 47, 32⟩
def SCHED_PROFILE_PREFILL_WT : Fld := ⟨0xE0020, 15, 0⟩
def SCHED_TEN_SEL_TENANT : Fld := ⟨0xE0028, 11, 0⟩
def SCHED_TEN_BUDGET_RATE : Fld := ⟨0xE0030, 63, 32⟩
def SCHED_TEN_BUDGET_BURST : Fld := ⟨0xE0030, 31, 0⟩
def SCHED_TEN_CTRL_WEIGHT : Fld := ⟨0xE0038, 31, 16⟩
def SCHED_TEN_CTRL_POL_SET : Fld := ⟨0xE0038, 3, 2⟩
def SCHED_TEN_CTRL_LEVEL_SET : Fld := ⟨0xE0038, 1, 0⟩
def SCHED_TEN_LEVEL_LEVEL : Fld := ⟨0xE0040, 47, 0⟩
def SCHED_TEN_FT_F : Fld := ⟨0xE0048, 63, 0⟩
def SCHED_TEN_POLICE_BURST : Fld := ⟨0xE0050, 63, 48⟩
def SCHED_TEN_POLICE_RATE : Fld := ⟨0xE0050, 31, 0⟩
def SCHED_TEN_STAT_DROPS : Fld := ⟨0xE0058, 63, 32⟩
def SCHED_TEN_STAT_PROVISIONED : Fld := ⟨0xE0058, 31, 31⟩
def SCHED_TEN_STAT_ELIGIBLE : Fld := ⟨0xE0058, 20, 0⟩
def SCHED_SHP_SEL_KIND : Fld := ⟨0xE0060, 13, 12⟩
def SCHED_SHP_SEL_INDEX : Fld := ⟨0xE0060, 11, 0⟩
def SCHED_SHP_CFG_ENABLE : Fld := ⟨0xE0068, 63, 63⟩
def SCHED_SHP_CFG_FILL : Fld := ⟨0xE0068, 62, 62⟩
def SCHED_SHP_CFG_OVERHEAD : Fld := ⟨0xE0068, 55, 48⟩
def SCHED_SHP_CFG_BURST : Fld := ⟨0xE0068, 47, 24⟩
def SCHED_SHP_CFG_RATE : Fld := ⟨0xE0068, 23, 0⟩
def SCHED_SHP_LEVEL_LEVEL : Fld := ⟨0xE0070, 39, 0⟩
def SCHED_PEER_SEL_PEER : Fld := ⟨0xE0078, 11, 0⟩
def SCHED_PEER_WT_WEIGHT : Fld := ⟨0xE0080, 7, 0⟩
def SCHED_RING_SEL_RING : Fld := ⟨0xE0088, 15, 0⟩
def SCHED_RING_CFG_ENABLE : Fld := ⟨0xE0090, 63, 63⟩
def SCHED_RING_CFG_NETWORK : Fld := ⟨0xE0090, 62, 62⟩
def SCHED_RING_CFG_IRQ_EN : Fld := ⟨0xE0090, 61, 61⟩
def SCHED_RING_CFG_STATE : Fld := ⟨0xE0090, 60, 59⟩
def SCHED_RING_CFG_MSIX_VEC : Fld := ⟨0xE0090, 58, 48⟩
def SCHED_RING_CFG_PEER : Fld := ⟨0xE0090, 47, 36⟩
def SCHED_RING_CFG_LOG2_SIZE : Fld := ⟨0xE0090, 31, 27⟩
def SCHED_RING_CFG_TENANT : Fld := ⟨0xE0090, 11, 0⟩
def SCHED_RING_BASE_ADDR : Fld := ⟨0xE0098, 63, 6⟩
def SCHED_RING_MIRROR_ADDR : Fld := ⟨0xE00A0, 63, 3⟩
def SCHED_RING_IDX_CI : Fld := ⟨0xE00A8, 63, 32⟩
def SCHED_RING_IDX_PI : Fld := ⟨0xE00A8, 31, 0⟩
def SCHED_RING_OWNER_ATTACHED : Fld := ⟨0xE00B0, 63, 63⟩
def SCHED_RING_OWNER_INDEX : Fld := ⟨0xE00B0, 19, 0⟩
def SCHED_RING_CI_RING : Fld := ⟨0xE00B8, 47, 32⟩
def SCHED_RING_CI_CI : Fld := ⟨0xE00B8, 31, 0⟩
def SCHED_HIST_SEL_CLR : Fld := ⟨0xE00C0, 16, 16⟩
def SCHED_HIST_SEL_QUEUE : Fld := ⟨0xE00C0, 15, 0⟩
def SCHED_CLASS_WT_W : Fld := ⟨0xE0100, 47, 0⟩
def SCHED_HWM_DELAY_NS : Fld := ⟨0xE0200, 63, 32⟩
def SCHED_HWM_DEPTH : Fld := ⟨0xE0200, 15, 0⟩
def SCHED_CNT_STEPS_COUNT : Fld := ⟨0xE0300, 63, 0⟩
def SCHED_CNT_PREFILL_COUNT : Fld := ⟨0xE0308, 63, 0⟩
def SCHED_CNT_SKIP_COUNT : Fld := ⟨0xE0310, 63, 0⟩
def SCHED_CNT_RING_FULL_COUNT : Fld := ⟨0xE0318, 63, 0⟩
def SCHED_CNT_PUSH_COUNT : Fld := ⟨0xE0320, 63, 0⟩
def SCHED_CNT_PUSH_ERR_COUNT : Fld := ⟨0xE0328, 63, 0⟩
def SCHED_CNT_RESYNC_COUNT : Fld := ⟨0xE0330, 63, 0⟩
def SCHED_HIST_DATA_COUNT : Fld := ⟨0xE0800, 63, 0⟩
def VEC_CAP0_MAX_DIM : Fld := ⟨0x100000, 63, 48⟩
def VEC_CAP0_MAX_K : Fld := ⟨0x100000, 47, 32⟩
def VEC_CAP0_MAX_PROBE : Fld := ⟨0x100000, 31, 16⟩
def VEC_CAP0_SHARDS_MAX : Fld := ⟨0x100000, 15, 0⟩
def VEC_CAP1_MAX_SHARDS : Fld := ⟨0x100008, 40, 32⟩
def VEC_CAP1_MAX_CENTROIDS : Fld := ⟨0x100008, 20, 0⟩
def VEC_CTRL_COMPACT_EN : Fld := ⟨0x100010, 1, 1⟩
def VEC_CTRL_SEARCH_EN : Fld := ⟨0x100010, 0, 0⟩
def VEC_CFG_SHARD_TIMEOUT : Fld := ⟨0x100018, 63, 48⟩
def VEC_CFG_COMPACT_PCT : Fld := ⟨0x100018, 47, 40⟩
def VEC_OCC_SHARDS : Fld := ⟨0x100020, 42, 32⟩
def VEC_OCC_BLOCKS : Fld := ⟨0x100020, 31, 0⟩
def VEC_COL_SEL_VALID : Fld := ⟨0x100028, 63, 63⟩
def VEC_COL_SEL_ID : Fld := ⟨0x100028, 31, 0⟩
def VEC_COL_INFO_STATE : Fld := ⟨0x100030, 63, 61⟩
def VEC_COL_INFO_FORMAT : Fld := ⟨0x100030, 60, 58⟩
def VEC_COL_INFO_DISTANCE : Fld := ⟨0x100030, 57, 56⟩
def VEC_COL_INFO_SHARDS : Fld := ⟨0x100030, 55, 47⟩
def VEC_COL_INFO_SHARD : Fld := ⟨0x100030, 46, 39⟩
def VEC_COL_INFO_TENANT : Fld := ⟨0x100030, 35, 24⟩
def VEC_COL_INFO_DIM : Fld := ⟨0x100030, 12, 0⟩
def VEC_COL_INFO_LISTS : Fld := ⟨0x100038, 41, 21⟩
def VEC_COL_INFO_LOADED : Fld := ⟨0x100038, 20, 0⟩
def VEC_COL_INFO_LIVE : Fld := ⟨0x100040, 63, 32⟩
def VEC_COL_INFO_TOMBSTONED : Fld := ⟨0x100040, 31, 0⟩
def VEC_CNT_SEARCH_COUNT : Fld := ⟨0x100100, 63, 0⟩
def VEC_CNT_SHARD_RX_COUNT : Fld := ⟨0x100108, 63, 0⟩
def VEC_CNT_SHARD_TIMEOUT_COUNT : Fld := ⟨0x100110, 63, 0⟩
def VEC_CNT_WIDEN_COUNT : Fld := ⟨0x100118, 63, 0⟩
def VEC_CNT_SHORT_COUNT : Fld := ⟨0x100120, 63, 0⟩
def VEC_CNT_TOMB_SKIP_COUNT : Fld := ⟨0x100128, 63, 0⟩
def VEC_CNT_INSERT_COUNT : Fld := ⟨0x100130, 63, 0⟩
def VEC_CNT_DELETE_COUNT : Fld := ⟨0x100138, 63, 0⟩
def VEC_CNT_COMPACT_COUNT : Fld := ⟨0x100140, 63, 0⟩
def VEC_CNT_MEDIA_COUNT : Fld := ⟨0x100148, 63, 0⟩
def NET_CAP_PORTS : Fld := ⟨0x120000, 63, 56⟩
def NET_CAP_LANES : Fld := ⟨0x120000, 55, 48⟩
def NET_CAP_SPARES : Fld := ⟨0x120000, 47, 40⟩
def NET_CAP_CONTEXTS : Fld := ⟨0x120000, 39, 24⟩
def NET_CAP_MAX_MSG_KIB : Fld := ⟨0x120000, 23, 8⟩
def NET_CTRL_IPV4_EN : Fld := ⟨0x120008, 2, 2⟩
def NET_CTRL_IPV6_EN : Fld := ⟨0x120008, 1, 1⟩
def NET_CTRL_OPEN_EN : Fld := ⟨0x120008, 0, 0⟩
def NET_IPV4_GW4 : Fld := ⟨0x120010, 63, 32⟩
def NET_IPV4_ADDR : Fld := ⟨0x120010, 31, 0⟩
def NET_IPV6_LO_ADDR : Fld := ⟨0x120018, 63, 0⟩
def NET_IPV6_HI_ADDR : Fld := ⟨0x120020, 63, 0⟩
def NET_MAC_BASE : Fld := ⟨0x120028, 47, 0⟩
def NET_PRAOL_SPORT_BASE : Fld := ⟨0x120030, 31, 16⟩
def NET_PRAOL_PORT : Fld := ⟨0x120030, 15, 0⟩
def NET_REL_RTO_INIT : Fld := ⟨0x120038, 63, 48⟩
def NET_REL_RTO_MAX : Fld := ⟨0x120038, 47, 32⟩
def NET_REL_RTO_MIN : Fld := ⟨0x120038, 31, 24⟩
def NET_REL_RETX_MAX : Fld := ⟨0x120038, 23, 16⟩
def NET_REL_REORDER_THRESH : Fld := ⟨0x120038, 15, 8⟩
def NET_REL_ACK_DELAY : Fld := ⟨0x120038, 7, 0⟩
def NET_CC_RATE_MIN : Fld := ⟨0x120040, 63, 48⟩
def NET_CC_STEP_MIN : Fld := ⟨0x120040, 47, 40⟩
def NET_CC_STEP_MAX : Fld := ⟨0x120040, 39, 32⟩
def NET_CC_CC_TIMER : Fld := ⟨0x120040, 31, 16⟩
def NET_CC_CNP_GAP : Fld := ⟨0x120040, 15, 0⟩
def NET_CREDIT_SPRAY_SKIP : Fld := ⟨0x120048, 63, 32⟩
def NET_CREDIT_CREDIT_MAX : Fld := ⟨0x120048, 15, 0⟩
def NET_PFC_PFC_WD : Fld := ⟨0x120050, 63, 48⟩
def NET_PFC_PFC_XOFF : Fld := ⟨0x120050, 47, 24⟩
def NET_PFC_PFC_XON : Fld := ⟨0x120050, 23, 0⟩
def NET_CTX_TMR_KEEPALIVE : Fld := ⟨0x120058, 63, 48⟩
def NET_CTX_TMR_DEAD_TIME : Fld := ⟨0x120058, 47, 32⟩
def NET_CTX_TMR_IDLE_CLOSE : Fld := ⟨0x120058, 31, 0⟩
def NET_PEER_SEL_CTX : Fld := ⟨0x120060, 11, 0⟩
def NET_PEER_CFG_VALID : Fld := ⟨0x120068, 63, 63⟩
def NET_PEER_CFG_KIND : Fld := ⟨0x120068, 62, 60⟩
def NET_PEER_CFG_TRUSTED : Fld := ⟨0x120068, 59, 59⟩
def NET_PEER_CFG_IPV4 : Fld := ⟨0x120068, 58, 58⟩
def NET_PEER_CFG_TENANT : Fld := ⟨0x120068, 27, 16⟩
def NET_PEER_CFG_UDP_PORT : Fld := ⟨0x120068, 15, 0⟩
def NET_PEER_ADDR_LO_ADDR : Fld := ⟨0x120070, 63, 0⟩
def NET_PEER_ADDR_HI_ADDR : Fld := ⟨0x120078, 63, 0⟩
def NET_PEER_STATE_STATE : Fld := ⟨0x120080, 63, 61⟩
def NET_PEER_STATE_CREDIT : Fld := ⟨0x120080, 44, 29⟩
def NET_PEER_STATE_RATE : Fld := ⟨0x120080, 19, 0⟩
def NET_PORT_MODE : Fld := ⟨0x120100, 63, 62⟩
def NET_PORT_VLAN_EN : Fld := ⟨0x120100, 61, 61⟩
def NET_PORT_MTU : Fld := ⟨0x120100, 47, 32⟩
def NET_PORT_LINK : Fld := ⟨0x120100, 7, 4⟩
def NET_PORT_PFC_OFF : Fld := ⟨0x120100, 3, 0⟩
def NET_CNT_TX_COUNT : Fld := ⟨0x120200, 63, 0⟩
def NET_CNT_RX_COUNT : Fld := ⟨0x120208, 63, 0⟩
def NET_CNT_RETX_COUNT : Fld := ⟨0x120210, 63, 0⟩
def NET_CNT_RTO_COUNT : Fld := ⟨0x120218, 63, 0⟩
def NET_CNT_CE_COUNT : Fld := ⟨0x120220, 63, 0⟩
def NET_CNT_CNP_TX_COUNT : Fld := ⟨0x120228, 63, 0⟩
def NET_CNT_CNP_RX_COUNT : Fld := ⟨0x120230, 63, 0⟩
def NET_CNT_AUTH_FAIL_COUNT : Fld := ⟨0x120238, 63, 0⟩
def NET_CNT_CREDIT_VIOL_COUNT : Fld := ⟨0x120240, 63, 0⟩
def NET_CNT_PFC_WD_COUNT : Fld := ⟨0x120248, 63, 0⟩
def NET_CNT_CTX_FAIL_COUNT : Fld := ⟨0x120250, 63, 0⟩
def NET_CNT_CTX_FULL_COUNT : Fld := ⟨0x120258, 63, 0⟩
def NET_CNT_DROPPED_COUNT : Fld := ⟨0x120260, 63, 0⟩
def CAT_CAP_LOG2_BUCKETS : Fld := ⟨0x140000, 47, 40⟩
def CAT_CAP_REGISTRARS_MAX : Fld := ⟨0x140000, 39, 32⟩
def CAT_CAP_DEVICES_MAX : Fld := ⟨0x140000, 31, 16⟩
def CAT_CAP_CHANGES_MAX : Fld := ⟨0x140000, 15, 0⟩
def CAT_STATE_MEMBER : Fld := ⟨0x140008, 63, 63⟩
def CAT_STATE_REGISTRAR : Fld := ⟨0x140008, 62, 62⟩
def CAT_STATE_ABSTAINING : Fld := ⟨0x140008, 61, 61⟩
def CAT_STATE_DEV_STATE : Fld := ⟨0x140008, 60, 57⟩
def CAT_EPOCH_ACTIVE : Fld := ⟨0x140010, 46, 32⟩
def CAT_EPOCH_EPOCH : Fld := ⟨0x140010, 31, 0⟩
def CAT_DIGEST_DIGEST : Fld := ⟨0x140018, 63, 0⟩
def CAT_CFG_VOTE_TIMEOUT : Fld := ⟨0x140020, 63, 48⟩
def CAT_CFG_DEAD_CONFIRM : Fld := ⟨0x140020, 47, 32⟩
def CAT_CFG_DRAIN_TIME : Fld := ⟨0x140020, 31, 16⟩
def CAT_CFG_FWD_HOLD : Fld := ⟨0x140020, 15, 8⟩
def CAT_CFG_LOCATE_TIMEOUT : Fld := ⟨0x140020, 7, 0⟩
def CAT_FWD_RECORDS : Fld := ⟨0x140028, 16, 0⟩
def CAT_BKT_SEL_BUCKET : Fld := ⟨0x140030, 15, 0⟩
def CAT_BKT_DATA_ENTRY : Fld := ⟨0x140038, 63, 0⟩
def CAT_DEV_SEL_ID : Fld := ⟨0x140040, 19, 0⟩
def CAT_DEV_DATA_DATA : Fld := ⟨0x140048, 63, 0⟩
def CAT_PROMISED_BALLOT : Fld := ⟨0x140068, 63, 0⟩
def CAT_ACCEPTED_BALLOT : Fld := ⟨0x140070, 63, 0⟩
def CAT_CNT_LOOKUP_COUNT : Fld := ⟨0x140100, 63, 0⟩
def CAT_CNT_LOCATE_COUNT : Fld := ⟨0x140108, 63, 0⟩
def CAT_CNT_FORWARD_COUNT : Fld := ⟨0x140110, 63, 0⟩
def CAT_CNT_MOVED_COUNT : Fld := ⟨0x140118, 63, 0⟩
def CAT_CNT_FETCH_COUNT : Fld := ⟨0x140120, 63, 0⟩
def CAT_CNT_PROPOSE_COUNT : Fld := ⟨0x140128, 63, 0⟩
def CAT_CNT_COMMIT_COUNT : Fld := ⟨0x140130, 63, 0⟩
def CAT_CNT_ABSTAIN_COUNT : Fld := ⟨0x140138, 63, 0⟩
def CAT_CNT_DIGEST_BAD_COUNT : Fld := ⟨0x140140, 63, 0⟩
def CKPT_CAP_SLOT_GIB : Fld := ⟨0x160000, 47, 32⟩
def CKPT_CAP_BLOCK_KIB : Fld := ⟨0x160000, 31, 24⟩
def CKPT_CAP_SECTIONS : Fld := ⟨0x160000, 23, 16⟩
def CKPT_CAP_SHADOW_MIB : Fld := ⟨0x160000, 15, 0⟩
def CKPT_CTRL_AUTO : Fld := ⟨0x160008, 2, 2⟩
def CKPT_CTRL_PRESS_EN : Fld := ⟨0x160008, 1, 1⟩
def CKPT_CTRL_EN : Fld := ⟨0x160008, 0, 0⟩
def CKPT_TRIG_TIMER_S : Fld := ⟨0x160010, 47, 32⟩
def CKPT_TRIG_STEPS_LOG2 : Fld := ⟨0x160010, 5, 0⟩
def CKPT_STATUS_PHASE : Fld := ⟨0x160018, 63, 61⟩
def CKPT_STATUS_PRESS : Fld := ⟨0x160018, 60, 58⟩
def CKPT_STATUS_NEXT_SLOT : Fld := ⟨0x160018, 57, 57⟩
def CKPT_STATUS_LAST_ABANDON : Fld := ⟨0x160018, 47, 40⟩
def CKPT_STATUS_RUNNING : Fld := ⟨0x160018, 31, 0⟩
def CKPT_LAST_VALID : Fld := ⟨0x160020, 63, 63⟩
def CKPT_LAST_SLOT : Fld := ⟨0x160020, 62, 62⟩
def CKPT_LAST_MIRRORED : Fld := ⟨0x160020, 61, 61⟩
def CKPT_LAST_BLOCKS : Fld := ⟨0x160020, 48, 32⟩
def CKPT_LAST_CKPT_NO : Fld := ⟨0x160020, 31, 0⟩
def CKPT_PROGRESS_TOTAL : Fld := ⟨0x160028, 48, 32⟩
def CKPT_PROGRESS_WRITTEN : Fld := ⟨0x160028, 16, 0⟩
def CKPT_SHAPE_FUSE_DIGEST : Fld := ⟨0x160030, 63, 0⟩
def CKPT_SEQ_SEQ_LIMIT : Fld := ⟨0x160038, 43, 0⟩
def CKPT_SHADOW_CAP : Fld := ⟨0x160040, 63, 32⟩
def CKPT_SHADOW_USED : Fld := ⟨0x160040, 31, 0⟩
def CKPT_MIRROR_VALID1 : Fld := ⟨0x160048, 63, 63⟩
def CKPT_MIRROR_VALID0 : Fld := ⟨0x160048, 62, 62⟩
def CKPT_MIRROR_MIRROR1 : Fld := ⟨0x160048, 39, 20⟩
def CKPT_MIRROR_MIRROR0 : Fld := ⟨0x160048, 19, 0⟩
def CKPT_REHOME_REHOME_DELAY : Fld := ⟨0x160050, 63, 48⟩
def CKPT_REHOME_PENDING : Fld := ⟨0x160050, 16, 0⟩
def CKPT_BARRIER_LAST_NS : Fld := ⟨0x160058, 47, 32⟩
def CKPT_BARRIER_MAX_NS : Fld := ⟨0x160058, 31, 16⟩
def CKPT_BARRIER_LIMIT_NS : Fld := ⟨0x160058, 15, 0⟩
def CKPT_CNT_TAKEN_COUNT : Fld := ⟨0x160100, 63, 0⟩
def CKPT_CNT_SEALED_COUNT : Fld := ⟨0x160108, 63, 0⟩
def CKPT_CNT_ABANDON_COUNT : Fld := ⟨0x160110, 63, 0⟩
def CKPT_CNT_BARRIER_ABORT_COUNT : Fld := ⟨0x160118, 63, 0⟩
def CKPT_CNT_DEFER_COUNT : Fld := ⟨0x160120, 63, 0⟩
def CKPT_CNT_MIRRORED_COUNT : Fld := ⟨0x160128, 63, 0⟩
def CKPT_CNT_MIRROR_FAIL_COUNT : Fld := ⟨0x160130, 63, 0⟩
def CKPT_CNT_RESTORED_COUNT : Fld := ⟨0x160138, 63, 0⟩
def CKPT_CNT_ADOPTED_COUNT : Fld := ⟨0x160140, 63, 0⟩
def CHK_CAP_CRC_UNITS : Fld := ⟨0x180000, 47, 40⟩
def CHK_CAP_SCAN_QUEUE : Fld := ⟨0x180000, 39, 32⟩
def CHK_CAP_XTS_ENGINES : Fld := ⟨0x180000, 31, 24⟩
def CHK_CTRL_SCAN_BW : Fld := ⟨0x180008, 63, 48⟩
def CHK_CTRL_SCAN_EN : Fld := ⟨0x180008, 0, 0⟩
def CHK_SCAN_STATUS_STATE : Fld := ⟨0x180010, 63, 61⟩
def CHK_SCAN_STATUS_QUEUED : Fld := ⟨0x180010, 59, 56⟩
def CHK_SCAN_STATUS_TAG : Fld := ⟨0x180010, 31, 0⟩
def CHK_SCAN_POS_ADDR : Fld := ⟨0x180018, 63, 0⟩
def CHK_SCAN_LAST_CRC : Fld := ⟨0x180020, 63, 0⟩
def CHK_CNT_CRC_COUNT : Fld := ⟨0x180100, 63, 0⟩
def CHK_CNT_SCAN_COUNT : Fld := ⟨0x180108, 63, 0⟩
def CHK_CNT_BYTES_COUNT : Fld := ⟨0x180110, 63, 0⟩
def CHK_CNT_XTS_COUNT : Fld := ⟨0x180118, 63, 0⟩
def CHK_CNT_MEDIA_COUNT : Fld := ⟨0x180120, 63, 0⟩
def CHK_UNIT_STATE : Fld := ⟨0x180200, 63, 61⟩
def CHK_UNIT_JOBS : Fld := ⟨0x180200, 47, 0⟩
def ERR_CAP_LOG_ENTRIES : Fld := ⟨0x1A0000, 47, 32⟩
def ERR_CAP_LINKS : Fld := ⟨0x1A0000, 31, 24⟩
def ERR_CAP_ROW_CANDIDATES : Fld := ⟨0x1A0000, 23, 16⟩
def ERR_CAP_STICKY : Fld := ⟨0x1A0000, 15, 8⟩
def ERR_CTRL_VEC : Fld := ⟨0x1A0008, 26, 16⟩
def ERR_CTRL_IRQ_EN : Fld := ⟨0x1A0008, 6, 6⟩
def ERR_CTRL_IRQ_CLASS : Fld := ⟨0x1A0008, 5, 0⟩
def ERR_LOG_HEAD_NEXT : Fld := ⟨0x1A0010, 31, 0⟩
def ERR_LOG_SEL_VALID : Fld := ⟨0x1A0018, 63, 63⟩
def ERR_LOG_SEL_STICKY : Fld := ⟨0x1A0018, 62, 62⟩
def ERR_LOG_SEL_INDEX : Fld := ⟨0x1A0018, 31, 0⟩
def ERR_LOG_DATA_DATA : Fld := ⟨0x1A0020, 63, 0⟩
def ERR_CE_CFG_WINDOW_MS : Fld := ⟨0x1A0040, 47, 32⟩
def ERR_CE_CFG_CE_THRESH : Fld := ⟨0x1A0040, 15, 0⟩
def ERR_STICKY_CLR : Fld := ⟨0x1A0048, 63, 63⟩
def ERR_STICKY_COUNT : Fld := ⟨0x1A0048, 4, 0⟩
def ERR_ROW_SEL_ENTRY : Fld := ⟨0x1A0050, 5, 0⟩
def ERR_ROW_DATA_VALID : Fld := ⟨0x1A0058, 63, 63⟩
def ERR_ROW_DATA_CE_COUNT : Fld := ⟨0x1A0058, 55, 48⟩
def ERR_ROW_DATA_ROW : Fld := ⟨0x1A0058, 28, 0⟩
def ERR_CNT_REGACC_COUNT : Fld := ⟨0x1A0100, 63, 0⟩
def ERR_CNT_REPLAY_COUNT : Fld := ⟨0x1A0108, 63, 0⟩
def ERR_CNT_RETRAIN_COUNT : Fld := ⟨0x1A0110, 63, 0⟩
def ERR_CNT_LINK_FAIL_COUNT : Fld := ⟨0x1A0118, 63, 0⟩
def ERR_CNT_HBM_CE_COUNT : Fld := ⟨0x1A0120, 63, 0⟩
def ERR_CNT_HBM_UE_COUNT : Fld := ⟨0x1A0128, 63, 0⟩
def ERR_CNT_DDR_CE_COUNT : Fld := ⟨0x1A0130, 63, 0⟩
def ERR_CNT_DDR_UE_COUNT : Fld := ⟨0x1A0138, 63, 0⟩
def ERR_CNT_SRAM_CE_COUNT : Fld := ⟨0x1A0140, 63, 0⟩
def ERR_CNT_SRAM_UE_COUNT : Fld := ⟨0x1A0148, 63, 0⟩
def ERR_CNT_COLOPHON_COUNT : Fld := ⟨0x1A0150, 63, 0⟩
def ERR_CNT_RECOVERED_COUNT : Fld := ⟨0x1A0158, 63, 0⟩
def ERR_CNT_LOST_COUNT : Fld := ⟨0x1A0160, 63, 0⟩
def ERR_CNT_POISON_OUT_COUNT : Fld := ⟨0x1A0168, 63, 0⟩
def ERR_CNT_LOG_LOST_COUNT : Fld := ⟨0x1A0170, 63, 0⟩
def ERR_CNT_INJECTED_COUNT : Fld := ⟨0x1A0178, 63, 0⟩
def ERR_LINK_STATE : Fld := ⟨0x1A0200, 63, 62⟩
def ERR_LINK_RETRAINS : Fld := ⟨0x1A0200, 47, 40⟩
def ERR_LINK_REPLAYS : Fld := ⟨0x1A0200, 31, 0⟩
def ERR_DDR_CE : Fld := ⟨0x1A0600, 63, 32⟩
def ERR_HBM_CE : Fld := ⟨0x1A0680, 63, 32⟩
def ERR_DDR_UE : Fld := ⟨0x1A0600, 31, 0⟩
def ERR_HBM_UE : Fld := ⟨0x1A0680, 31, 0⟩
def RIND_AUDIT_STATUS_FENCED : Fld := ⟨0x10400, 63, 63⟩
def RIND_AUDIT_STATUS_FAULT_HOLD : Fld := ⟨0x10400, 62, 62⟩
def RIND_AUDIT_STATUS_SWEEP_CODE : Fld := ⟨0x10400, 39, 32⟩
def RIND_AUDIT_STATUS_SWEEP_POS : Fld := ⟨0x10400, 31, 0⟩
def RIND_AUDIT_LAST_INDEX : Fld := ⟨0x10408, 63, 32⟩
def RIND_AUDIT_LAST_CHECK : Fld := ⟨0x10408, 11, 8⟩
def RIND_AUDIT_LAST_CODE : Fld := ⟨0x10408, 7, 0⟩
def RIND_AUDIT_CNT_SWEEP_COUNT : Fld := ⟨0x10410, 63, 0⟩
def RIND_AUDIT_CNT_RECHECK_COUNT : Fld := ⟨0x10420, 63, 0⟩
def RIND_AUDIT_CNT_FENCE_COUNT : Fld := ⟨0x10428, 63, 0⟩
def RIND_AUDIT_CNT_VIOL_COUNT : Fld := ⟨0x10418, 63, 0⟩
def RIND_CAP_KEY_ENTRIES : Fld := ⟨0x10000, 47, 32⟩
def RIND_CAP_PRINCIPALS : Fld := ⟨0x10000, 31, 24⟩
def RIND_CAP_SPDM_SESSIONS : Fld := ⟨0x10000, 23, 16⟩
def RIND_CAP_CLOCK_MHZ : Fld := ⟨0x10000, 15, 8⟩
def RIND_STATUS_STATE : Fld := ⟨0x10008, 63, 61⟩
def RIND_STATUS_ROM_VER : Fld := ⟨0x10008, 55, 48⟩
def RIND_STATUS_UPTIME_S : Fld := ⟨0x10008, 31, 0⟩
def RIND_LOCKSTEP_MISMATCHES : Fld := ⟨0x10010, 63, 48⟩
def RIND_LOCKSTEP_WDOG_EXPIRIES : Fld := ⟨0x10010, 47, 32⟩
def RIND_WDOG_SLIP_MS : Fld := ⟨0x10018, 63, 48⟩
def RIND_WDOG_RIND_MS : Fld := ⟨0x10018, 47, 32⟩
def RIND_WDOG_DESK_RESETS : Fld := ⟨0x10018, 31, 16⟩
def RIND_WDOG_DESK_DISABLED : Fld := ⟨0x10018, 7, 0⟩
def RIND_KEYSTORE_TENANT_KEYS : Fld := ⟨0x10020, 44, 32⟩
def RIND_KEYSTORE_TRANSPORT_KEYS : Fld := ⟨0x10020, 28, 16⟩
def RIND_KEYSTORE_BUNDLE_KEY : Fld := ⟨0x10020, 0, 0⟩
def SEC_CAP_TRUST_LIST : Fld := ⟨0x1C0000, 31, 24⟩
def SEC_CAP_WINDOW_S : Fld := ⟨0x1C0000, 23, 16⟩
def SEC_CAP_MGMT_CONNECTIONS : Fld := ⟨0x1C0000, 15, 8⟩
def SEC_STATE_SERVICE : Fld := ⟨0x1C0008, 63, 63⟩
def SEC_STATE_DEBUG_UNLOCKED : Fld := ⟨0x1C0008, 62, 62⟩
def SEC_STATE_CONF_HOST : Fld := ⟨0x1C0008, 61, 61⟩
def SEC_STATE_CONF_HOST_NEXT : Fld := ⟨0x1C0008, 60, 60⟩
def SEC_STATE_BOOTSTRAP : Fld := ⟨0x1C0008, 59, 59⟩
def SEC_STATE_SEAL_BROKEN : Fld := ⟨0x1C0008, 58, 58⟩
def SEC_STATE_SEAL_COUNT : Fld := ⟨0x1C0008, 55, 48⟩
def SEC_STATE_ANTI_ROLLBACK : Fld := ⟨0x1C0008, 47, 32⟩
def SEC_INPUTS_SEAL : Fld := ⟨0x1C0010, 23, 16⟩
def SEC_INPUTS_JUMPER : Fld := ⟨0x1C0010, 15, 8⟩
def SEC_INPUTS_PRESENCE : Fld := ⟨0x1C0010, 7, 0⟩
def SEC_PRES_OPEN : Fld := ⟨0x1C0018, 63, 63⟩
def SEC_PRES_REMAIN_MS : Fld := ⟨0x1C0018, 31, 0⟩
def SEC_TEN_SEL_OPR : Fld := ⟨0x1C0020, 63, 63⟩
def SEC_TEN_SEL_TENANT : Fld := ⟨0x1C0020, 11, 0⟩
def SEC_TEN_KEY_PRESENT : Fld := ⟨0x1C0028, 63, 63⟩
def SEC_TEN_KEY_SEALED_ERASE : Fld := ⟨0x1C0028, 62, 62⟩
def SEC_TEN_KEY_TRUST_OPERATOR : Fld := ⟨0x1C0028, 61, 61⟩
def SEC_TEN_KEY_TRUST_COUNT : Fld := ⟨0x1C0028, 60, 56⟩
def SEC_TEN_KEY_KCV : Fld := ⟨0x1C0028, 31, 0⟩
def SEC_PRINC_SEL_INDEX : Fld := ⟨0x1C0030, 5, 0⟩
def SEC_PRINC_DATA_VALID : Fld := ⟨0x1C0038, 63, 63⟩
def SEC_PRINC_DATA_ROLE : Fld := ⟨0x1C0038, 62, 60⟩
def SEC_PRINC_DATA_KINDS : Fld := ⟨0x1C0038, 59, 55⟩
def SEC_PRINC_DATA_TENANT : Fld := ⟨0x1C0038, 15, 0⟩
def SEC_PRINC_DATA_DIGEST : Fld := ⟨0x1C0040, 63, 0⟩
def SEC_SPDM_SESSIONS : Fld := ⟨0x1C0070, 63, 60⟩
def SEC_SPDM_MEAS_CHANGES : Fld := ⟨0x1C0070, 31, 0⟩
def SEC_CNT_PRESS_COUNT : Fld := ⟨0x1C0100, 63, 0⟩
def SEC_CNT_STUCK_COUNT : Fld := ⟨0x1C0108, 63, 0⟩
def SEC_CNT_CHATTER_COUNT : Fld := ⟨0x1C0110, 63, 0⟩
def SEC_CNT_SEAL_GLITCH_COUNT : Fld := ⟨0x1C0118, 63, 0⟩
def SEC_CNT_MGMT_REFUSED_COUNT : Fld := ⟨0x1C0120, 63, 0⟩
def SEC_CNT_SPDM_FAIL_COUNT : Fld := ⟨0x1C0128, 63, 0⟩
def SEC_CNT_KEY_DELIVER_COUNT : Fld := ⟨0x1C0130, 63, 0⟩
def SEC_CNT_ERASE_COUNT : Fld := ⟨0x1C0138, 63, 0⟩
def SEC_CNT_PEER_REFUSED_COUNT : Fld := ⟨0x1C0140, 63, 0⟩
def BOOT_CAP_FUSE_BITS : Fld := ⟨0x1E0000, 47, 32⟩
def BOOT_CAP_LOCKS : Fld := ⟨0x1E0000, 31, 24⟩
def BOOT_CAP_REPAIRS_PER_BANK : Fld := ⟨0x1E0000, 23, 16⟩
def BOOT_STATE_STATE : Fld := ⟨0x1E0008, 63, 56⟩
def BOOT_STATE_FAULT_CAUSE : Fld := ⟨0x1E0008, 55, 48⟩
def BOOT_STATE_BELOW_FLOOR : Fld := ⟨0x1E0008, 47, 47⟩
def BOOT_STATE_RELOADING : Fld := ⟨0x1E0008, 46, 46⟩
def BOOT_STATE_WAVES : Fld := ⟨0x1E0008, 43, 40⟩
def BOOT_STATE_STACK_WAVES : Fld := ⟨0x1E0008, 39, 36⟩
def BOOT_IMAGE_ACTIVE : Fld := ⟨0x1E0010, 63, 63⟩
def BOOT_IMAGE_PREFERRED : Fld := ⟨0x1E0010, 62, 62⟩
def BOOT_IMAGE_FALLBACK : Fld := ⟨0x1E0010, 61, 61⟩
def BOOT_IMAGE_TRIAL : Fld := ⟨0x1E0010, 60, 60⟩
def BOOT_IMAGE_VALID_A : Fld := ⟨0x1E0010, 59, 59⟩
def BOOT_IMAGE_VALID_B : Fld := ⟨0x1E0010, 58, 58⟩
def BOOT_IMAGE_ROLLBACK_B : Fld := ⟨0x1E0010, 31, 16⟩
def BOOT_IMAGE_ROLLBACK_A : Fld := ⟨0x1E0010, 15, 0⟩
def BOOT_TIME_READY_MS : Fld := ⟨0x1E0018, 63, 32⟩
def BOOT_TIME_LAST_LOAD_MS : Fld := ⟨0x1E0018, 31, 0⟩
def BOOT_FLOOR_UNITS : Fld := ⟨0x1E0020, 63, 18⟩
def BOOT_KAT_FAILED : Fld := ⟨0x1E0028, 63, 48⟩
def BOOT_KAT_MARKED : Fld := ⟨0x1E0028, 47, 32⟩
def BOOT_RESET_SCOPE : Fld := ⟨0x1E0030, 63, 62⟩
def BOOT_RESET_CAUSE : Fld := ⟨0x1E0030, 55, 48⟩
def BOOT_RESET_TICK : Fld := ⟨0x1E0030, 47, 0⟩
def BOOT_FUSE_SEL_WORD : Fld := ⟨0x1E0038, 7, 0⟩
def BOOT_FUSE_DATA_DATA : Fld := ⟨0x1E0040, 63, 0⟩
def BOOT_LOCK_SEL_ENTRY : Fld := ⟨0x1E0048, 4, 0⟩
def BOOT_LOCK_DATA_VALID : Fld := ⟨0x1E0050, 63, 63⟩
def BOOT_LOCK_DATA_SOURCE : Fld := ⟨0x1E0050, 62, 61⟩
def BOOT_LOCK_DATA_ACTIVITY : Fld := ⟨0x1E0050, 60, 57⟩
def BOOT_LOCK_DATA_SCOPE : Fld := ⟨0x1E0050, 56, 54⟩
def BOOT_LOCK_DATA_OWNER : Fld := ⟨0x1E0050, 53, 44⟩
def BOOT_LOCK_DATA_INDEX : Fld := ⟨0x1E0050, 43, 32⟩
def BOOT_LOCK_DATA_LOCK_ID : Fld := ⟨0x1E0050, 15, 0⟩
def BOOT_CNT_WARM_COUNT : Fld := ⟨0x1E0100, 63, 0⟩
def BOOT_CNT_PARTITION_COUNT : Fld := ⟨0x1E0108, 63, 0⟩
def BOOT_CNT_CLUSTER_COUNT : Fld := ⟨0x1E0110, 63, 0⟩
def BOOT_CNT_UNIT_COUNT : Fld := ⟨0x1E0118, 63, 0⟩
def BOOT_CNT_LOCK_BUSY_COUNT : Fld := ⟨0x1E0120, 63, 0⟩
def CXL_CAP_LOG2_MSIX : Fld := ⟨0x200000, 47, 40⟩
def CXL_CAP_HDM_DECODERS : Fld := ⟨0x200000, 39, 32⟩
def CXL_CAP_VIS_REGIONS : Fld := ⟨0x200000, 31, 24⟩
def CXL_CAP_MAX_WIDTH : Fld := ⟨0x200000, 23, 16⟩
def CXL_CAP_MAX_GTS : Fld := ⟨0x200000, 15, 8⟩
def CXL_LINK_MODE : Fld := ⟨0x200008, 63, 61⟩
def CXL_LINK_WIDTH : Fld := ⟨0x200008, 60, 56⟩
def CXL_LINK_GEN : Fld := ⟨0x200008, 55, 52⟩
def CXL_LINK_IO : Fld := ⟨0x200008, 51, 51⟩
def CXL_LINK_CACHE : Fld := ⟨0x200008, 50, 50⟩
def CXL_LINK_MEM : Fld := ⟨0x200008, 49, 49⟩
def CXL_LINK_CONF_HOST : Fld := ⟨0x200008, 48, 48⟩
def CXL_CTRL_CACHE_EN : Fld := ⟨0x200010, 0, 0⟩
def CXL_HDM0_COMMITTED : Fld := ⟨0x200018, 63, 63⟩
def CXL_HDM1_COMMITTED : Fld := ⟨0x200020, 63, 63⟩
def CXL_HDM0_IW_LOG2 : Fld := ⟨0x200018, 62, 60⟩
def CXL_HDM1_IW_LOG2 : Fld := ⟨0x200020, 62, 60⟩
def CXL_HDM0_IG : Fld := ⟨0x200018, 59, 56⟩
def CXL_HDM1_IG : Fld := ⟨0x200020, 59, 56⟩
def CXL_HDM0_POS : Fld := ⟨0x200018, 55, 52⟩
def CXL_HDM1_POS : Fld := ⟨0x200020, 55, 52⟩
def CXL_HDM0_RANGE_MIB : Fld := ⟨0x200018, 39, 0⟩
def CXL_HDM1_RANGE_MIB : Fld := ⟨0x200020, 39, 0⟩
def CXL_CELLAR_MISMATCH : Fld := ⟨0x200028, 59, 48⟩
def CXL_CELLAR_CHANNEL_GIB : Fld := ⟨0x200028, 47, 32⟩
def CXL_CELLAR_DIMMS : Fld := ⟨0x200028, 31, 24⟩
def CXL_CELLAR_MTS_100 : Fld := ⟨0x200028, 23, 16⟩
def CXL_VIS_SEL_INDEX : Fld := ⟨0x200030, 3, 0⟩
def CXL_VIS_BASE_VALID : Fld := ⟨0x200038, 63, 63⟩
def CXL_VIS_BASE_SPACE : Fld := ⟨0x200038, 62, 62⟩
def CXL_VIS_BASE_BASE : Fld := ⟨0x200038, 47, 0⟩
def CXL_VIS_SIZE_SIZE : Fld := ⟨0x200040, 47, 0⟩
def CXL_PRESS_GEN : Fld := ⟨0x200048, 63, 60⟩
def CXL_PRESS_WIDTH : Fld := ⟨0x200048, 59, 55⟩
def CXL_PRESS_STATE : Fld := ⟨0x200048, 54, 52⟩
def CXL_PRESS_CAUSE : Fld := ⟨0x200048, 51, 48⟩
def CXL_PRESS_CAP_GB : Fld := ⟨0x200048, 31, 0⟩
def CXL_THERM_WEST_C : Fld := ⟨0x200050, 63, 56⟩
def CXL_THERM_EAST_C : Fld := ⟨0x200050, 55, 48⟩
def CXL_THERM_HBM_C : Fld := ⟨0x200050, 47, 40⟩
def CXL_THERM_IO_C : Fld := ⟨0x200050, 39, 32⟩
def CXL_THERM_HOT_STACKS : Fld := ⟨0x200050, 31, 20⟩
def CXL_THROTTLE_THROTTLE_C : Fld := ⟨0x200058, 63, 56⟩
def CXL_THROTTLE_HBM_THROTTLE_C : Fld := ⟨0x200058, 55, 48⟩
def CXL_THROTTLE_TRIP_C : Fld := ⟨0x200058, 47, 40⟩
def CXL_THROTTLE_HBM_TRIP_C : Fld := ⟨0x200058, 39, 32⟩
def CXL_THROTTLE_LEVEL : Fld := ⟨0x200058, 31, 29⟩
def CXL_THROTTLE_HBM_LEVEL : Fld := ⟨0x200058, 28, 26⟩
def CXL_POWER_PWR_CAP : Fld := ⟨0x200060, 63, 48⟩
def CXL_POWER_PWR_AVG : Fld := ⟨0x200060, 47, 32⟩
def CXL_POWER_PWR_MAX : Fld := ⟨0x200060, 31, 16⟩
def CXL_REFCLK_CXL_LOST : Fld := ⟨0x200068, 63, 63⟩
def CXL_REFCLK_ETH0_LOST : Fld := ⟨0x200068, 62, 62⟩
def CXL_REFCLK_ETH1_LOST : Fld := ⟨0x200068, 61, 61⟩
def CXL_CNT_HIDDEN_RD_COUNT : Fld := ⟨0x200100, 63, 0⟩
def CXL_CNT_HIDDEN_WR_COUNT : Fld := ⟨0x200108, 63, 0⟩
def CXL_CNT_POISON_RD_COUNT : Fld := ⟨0x200110, 63, 0⟩
def CXL_CNT_SNOOP_COUNT : Fld := ⟨0x200118, 63, 0⟩
def CXL_CNT_LINK_DOWN_COUNT : Fld := ⟨0x200120, 63, 0⟩
def CXL_CNT_THROTTLE_MS_COUNT : Fld := ⟨0x200128, 63, 0⟩
def CXL_CNT_NVME_ERR_COUNT : Fld := ⟨0x200130, 63, 0⟩
def CXL_CNT_REFCLK_LOSS_COUNT : Fld := ⟨0x200138, 63, 0⟩
end F

end Sys2Proof.Machine
end

