-- ==== Sys2Proof/Machine/Ops.lean ====
section
/-!
DEFINITION. The named operations over tables, the register file, the byte memories and the outbox, that every meaning is
written with.
-/

namespace Sys2Proof.Machine

/-! ## Sparse stores: sorted lists of (key, value) with a default for absent keys -/

/-- The value a sparse store holds at a key; `d` is what an unlisted key reads as. -/
def sGet {α : Type} (d : Nat → α) : List (Nat × α) → Nat → α
  | [], k => d k
  | (j, v) :: l, k => if j == k then v else sGet d l k

/-- Remove a key. -/
def sErase {α : Type} : List (Nat × α) → Nat → List (Nat × α)
  | [], _ => []
  | (j, v) :: l, k => if k < j then (j, v) :: l else if j == k then l else (j, v) :: sErase l k

/-- Put a value at a key, keys kept rising. -/
def sPut {α : Type} : List (Nat × α) → Nat → α → List (Nat × α)
  | [], k, w => [(k, w)]
  | (j, v) :: l, k, w =>
    if k < j then (k, w) :: (j, v) :: l else if j == k then (k, w) :: l else (j, v) :: sPut l k w

/-- Write a value: what equals the default is not listed. -/
def sSet {α : Type} [DecidableEq α] (d : Nat → α) (l : List (Nat × α)) (k : Nat) (v : α) : List (Nat × α) :=
  if v = d k then sErase l k else sPut l k v

/-- Keys strictly rising, all above `lo` when given, and no value equal to the default. -/
def sWfFrom {α : Type} [DecidableEq α] (d : Nat → α) : Option Nat → List (Nat × α) → Bool
  | _, [] => true
  | none, (k, v) :: l => decide (v ≠ d k) && sWfFrom d (some k) l
  | some lo, (k, v) :: l => decide (lo < k) && decide (v ≠ d k) && sWfFrom d (some k) l

/-! ## Tables: sorted lists whose absent keys hold nothing -/

/-- The entry at a key. -/
def tGet {α : Type} : Tbl α → Nat → Option α
  | [], _ => none
  | (j, v) :: l, k => if j == k then some v else tGet l k

/-- Put an entry. -/
def tPut {α : Type} (t : Tbl α) (k : Nat) (v : α) : Tbl α := sPut t k v

/-- Remove an entry. -/
def tDel {α : Type} (t : Tbl α) (k : Nat) : Tbl α := sErase t k

/-- The lowest key from `from`, counting by `step`, that a table does not hold, within `n` tries. -/
def tFree {α : Type} (t : Tbl α) (step : Nat) : Nat → Nat → Option Nat
  | 0, _ => none
  | n + 1, k => if (tGet t k).isNone then some k else tFree t step n (k + step)

/-- `n` entries of a table from key `k` on, absent ones filled in. -/
def dense {α : Type} (d : α) : Nat → Nat → Tbl α → List α
  | 0, _, _ => []
  | n + 1, k, [] => d :: dense d n (k + 1) []
  | n + 1, k, (j, v) :: t => if j == k then v :: dense d n (k + 1) t else d :: dense d n (k + 1) ((j, v) :: t)

/-! ## Bytes, little-endian (R13) -/

/-- `n` bytes of a number, lowest first. -/
def leBytes : Nat → Nat → Bytes
  | 0, _ => []
  | n + 1, v => BitVec.ofNat 8 v :: leBytes n (v / 256)

/-- The number a byte string spells, lowest byte first. -/
def leNat : Bytes → Nat
  | [] => 0
  | b :: l => b.toNat + 256 * leNat l

/-- `n` bytes from offset `o`; bytes past the end read 0. -/
def slice (b : Bytes) (o n : Nat) : Bytes :=
  let r := (b.drop o).take n
  r ++ List.replicate (n - r.length) 0

/-- The unsigned field of `n` bytes at offset `o`. -/
def rdLe (b : Bytes) (o n : Nat) : Nat := leNat (slice b o n)

/-- Bits hi to lo of a number. -/
def bitsOf (v hi lo : Nat) : Nat := (v >>> lo) % 2 ^ (hi + 1 - lo)

/-- Is bit `i` set? -/
def bitOf (v i : Nat) : Bool := v.testBit i

/-- 1 for true, 0 for false. -/
def b2n (b : Bool) : Nat := if b then 1 else 0

/-- Ceiling division. -/
def cdiv (a b : Nat) : Nat := (a + b - 1) / b

/-- Saturate at 2^w − 1. -/
def sat (w v : Nat) : Nat := if v < 2 ^ w then v else 2 ^ w - 1

/-- Cut a list into pieces of `n`; `fuel` bounds the pieces. -/
def chunks {α : Type} (n : Nat) : Nat → List α → List (List α)
  | 0, _ => []
  | _ + 1, [] => []
  | f + 1, l => l.take n :: chunks n f (l.drop n)

/-! ## Registers (R15, R16, R35) -/

/-- The reset word of the register at a BAR0 offset; the array entries that differ from their row's word are those of
Table 6.9 (ME_POOL), and NBU_EN, every NBU of a YD-7680 without defects, and BOOT_FLOOR, its floors (Table 16.5) (log entry 3). -/
def regResetNat (a : Nat) : Nat :=
  if a == A.ME_POOL || a == A.ME_POOL + 8 then 8 + 128 * 256
  else if a == A.ME_POOL + 16 then 64 * 256
  else if A.NBU_EN ≤ a && a < A.NBU_EN + 768 && a % 8 == 0 then 2 ^ 64 - 1
  else if a == A.BOOT_FLOOR then 120 * 2 ^ 56 + 240 * 2 ^ 47 + 6048 * 2 ^ 34 + 12 * 2 ^ 29 + 24 * 2 ^ 23 + 12 * 2 ^ 18
  else match findReg a with
    | some r => r.reset
    | none => 0

/-- The reset word of a register. -/
def regReset (a : Nat) : Word := BitVec.ofNat 64 (regResetNat a)

/-- The stored word of a register. -/
def State.reg (s : State) (a : Nat) : Word := sGet regReset s.regs a

/-- Store a register word. -/
def State.setReg (s : State) (a : Nat) (w : Word) : State := { s with regs := sSet regReset s.regs a w }

/-- The width mask of a field, at its place. -/
def Fld.mask (f : Fld) : Nat := (2 ^ (f.hi + 1 - f.lo) - 1) * 2 ^ f.lo

/-- The same field of the register `o` bytes further (an array entry). -/
def Fld.at (f : Fld) (o : Nat) : Fld := { f with addr := f.addr + o }

/-- Put a value into a field of a word. -/
def Fld.put (f : Fld) (w : Word) (v : Nat) : Word :=
  let keep := w &&& ~~~(BitVec.ofNat 64 f.mask)
  keep ||| BitVec.ofNat 64 ((v % 2 ^ (f.hi + 1 - f.lo)) * 2 ^ f.lo)

/-- Read a field of a word. -/
def Fld.get (f : Fld) (w : Word) : Nat := bitsOf w.toNat f.hi f.lo

/-- Read a stored field. -/
def State.fld (s : State) (f : Fld) : Nat := f.get (s.reg f.addr)

/-- Write a stored field. -/
def State.setFld (s : State) (f : Fld) (v : Nat) : State := s.setReg f.addr (f.put (s.reg f.addr) v)

/-- Is a one-bit field set? -/
def State.flag (s : State) (f : Fld) : Bool := s.fld f == 1

/-- Add to a wrapping counter. -/
def State.bumpBy (s : State) (f : Fld) (n : Nat) : State := s.setFld f (s.fld f + n)

/-- Count one event in a wrapping counter. -/
def State.bump (s : State) (f : Fld) : State := s.bumpBy f 1

/-- Count one event in a saturating field. -/
def State.bumpSat (s : State) (f : Fld) : State := s.setFld f (sat (f.hi + 1 - f.lo) (s.fld f + 1))

/-- Raise a field to a value if it lies below. -/
def State.maxFld (s : State) (f : Fld) (v : Nat) : State :=
  if s.fld f < v then s.setFld f (sat (f.hi + 1 - f.lo) v) else s

/-- A write ignored under R17 counts one register access error. -/
def State.regAccErr (s : State) : State := s.bump F.ERR_CNT_REGACC_COUNT

/-! ## The outbox and free values -/

/-- Send something. -/
def State.emit (s : State) (o : Out) : State := { s with outbox := s.outbox ++ [o] }

/-- Record a trace event (R347) when its group is enabled: EVENT is the group times 256 plus a code within it; the buffer
stops when full. -/
def State.traceEv (s : State) (group code unit arg0 arg1 arg2 : Nat) : State :=
  if s.trace.on && s.trace.mask.testBit group && s.trace.recs.length < 131072 then
    let r : TraceRec := { tick := s.tick, event := group * 256 + code % 256, unit := unit, arg0 := arg0, arg1 := arg1, arg2 := arg2 }
    { s with trace := { s.trace with recs := s.trace.recs ++ [r], on := decide (s.trace.recs.length + 1 < 131072) } }
  else s

/-- The catalogue epoch the device holds (R43, R58). -/
def State.epoch (s : State) : Nat := s.fld F.CAT_EPOCH_EPOCH

/-- The device's composition device ID (R67). -/
def State.devId (s : State) : Nat := s.fld F.DEV_DEVID_DEVICE_ID

/-- Is a bundle loaded? -/
def State.loaded (s : State) : Bool := s.flag F.DEV_BUNDLE_LOADED

/-- Change the catalogue. -/
def State.updCat (s : State) (f : Cat → Cat) : State := { s with cat := f s.cat }

/-- Put something at the end of the device's own ready list. -/
def State.wake (s : State) (i : Todo) : State := { s with ready := s.ready ++ [i] }

/-! ## Observed queues (R246, R247) -/

/-- Bin of a depth. -/
def depthBin (d : Nat) : Nat := if d == 0 then 0 else min 15 (Nat.log2 d + 1)

/-- Bin of a sojourn delay in ticks of 10 ns: below 64 ns, then doubling; 15 from 1.048576 ms on. -/
def delayBin (ticks : Nat) : Nat := if ticks * 10 < 64 then 0 else min 15 (Nat.log2 (ticks * 10 / 64) + 1)

/-- A queue's histograms. -/
def State.hist (s : State) (q : Nat) : Hist :=
  (tGet s.hists q).getD { from_ := s.histBase, depth := [], delay := [], last := 0 }

/-- Add one to a bin, saturating at 2^64 − 1. -/
def binAdd (t : Tbl Nat) (b : Nat) : Tbl Nat := tPut t b (sat 64 ((tGet t b).getD 0 + 1))

/-- An element leaves a queue: the first after a sample adds its delay (R246). -/
def State.dequeued (s : State) (q since : Nat) : State :=
  let h := s.hist q
  if h.last < s.histSamples then
    { s with hists := tPut s.hists q { h with delay := binAdd h.delay (delayBin (s.tick - since)), last := s.histSamples } }
  else s

/-- Enter a depth sample. -/
def State.depthSample (s : State) (q d : Nat) : State :=
  let h := s.hist q
  if d == 0 then s else { s with hists := tPut s.hists q { h with depth := binAdd h.depth (depthBin d) } }

/-- The queue of Table 9.8 that something of the device's own ready list stands in: 0 slips of the Rind, 1 management slips, 2 slips for
the catalogue's desk cores (log entry 87). -/
def Todo.queue : Todo → Option Nat
  | .slip op x => match x.src with
    | .rind => some 0
    | .mgmt _ => some 1
    | _ => if op / 0x400 == 6 then some 2 else none
  | _ => none

/-- Depth of a queue of the ready list. -/
def State.readyDepth (s : State) (q : Nat) : Nat := (s.ready.filter (fun t => t.queue == some q)).length

/-- Put something into its queue of the ready list: queues 0 to 2 keep the highest depth (R247). -/
def State.queueUp (s : State) (i : Todo) : State :=
  let s := s.wake i
  match i.queue with
  | some q => s.maxFld (F.SCHED_HWM_DEPTH.at (8 * q)) (s.readyDepth q)
  | none => s

/-- Something that entered at DEV_TICK `since` leaves its queue: a delay sample, and the longest delay of queues 0 to 2 (R246, R247). -/
def State.queueLeft (s : State) (i : Todo) (since : Nat) : State :=
  match i.queue with
  | some q => (s.dequeued q since).maxFld (F.SCHED_HWM_DELAY_NS.at (8 * q)) (10 * (s.tick - since))
  | none => s

/-! ## Records of the state's tables -/

/-- An empty token bucket of a given configuration, full at `tick`. -/
def Bucket.full (rate burst : Nat) (unit : Nat) (tick : Nat) : Bucket :=
  { rate := rate, burst := burst, level := (unit * burst : Nat), stamp := tick, carry := 0 }

/-- A quota without limit and without usage. -/
def Quota.fresh : Quota := { limit := 0xFFFFFFFF, used := 0 }

/-- The reset values of sampling slot contents are chapter 8's (Table 8.4, slot 0 column); a fresh tenant has none written. -/
def Tenant.fresh : Tenant :=
  { provisioned := false
    budget := Bucket.full 0xFFFFFFFF 65536 256 0
    weight := 1, finish := 0
    policer := Bucket.full 0xFFFFFFFF 65535 1 0
    drops := 0
    quotas := [Quota.fresh, Quota.fresh, Quota.fresh, Quota.fresh]
    slots := [], key := none, kcv := 0, trustOperator := false, trust := [], sealedErase := false
    ledger := { base := 256 * 65536, refill := 0, loss := 0, sampled := 0, prefill := 0, search := 0, generated := 0, inputs := 0, searches := 0 } }

/-- A tenant's record; a tenant never configured has the reset values. -/
def State.tenant (s : State) (t : Nat) : Tenant := (tGet s.tenants t).getD Tenant.fresh

/-- Store a tenant's record. -/
def State.setTenant (s : State) (t : Nat) (v : Tenant) : State := { s with tenants := tPut s.tenants t v }

/-- Change a tenant's record. -/
def State.updTenant (s : State) (t : Nat) (f : Tenant → Tenant) : State := s.setTenant t (f (s.tenant t))

/-- Is a tenant provisioned (R42)?  0xFFFF always is. -/
def State.isProvisioned (s : State) (t : Nat) : Bool := t == 0xFFFF || (s.tenant t).provisioned

/-- A queue pair at reset: DISABLED, indices 0. -/
def Qp.fresh : Qp :=
  { state := 0, errCause := 0, discarding := false, sqHead := 0, sqTail := 0, fetching := 0, fetched := 0,
    rqHead := 0, rqTail := 0, coalCount := 0, coalSince := 0, replies := 0 }

/-- A queue pair's state. -/
def State.qp (s : State) (q : Nat) : Qp := (tGet s.qps q).getD Qp.fresh

/-- Store a queue pair's state. -/
def State.setQp (s : State) (q : Nat) (v : Qp) : State := { s with qps := tPut s.qps q v }

/-- A ring at reset: DISABLED, nothing configured. -/
def Ring.fresh : Ring :=
  { state := 0, network := false, irqEn := false, vec := 0, peer := 0, logSize := 0, tenant := 0, base := 0,
    mirror := 0, pi := 0, ci := 0, owner := none, batch := [], pushes := [],
    made := 0, groups := 0, discarded := 0, written := 0, conf := 0 }

/-- A ring's state. -/
def State.ring (s : State) (r : Nat) : Ring := (tGet s.rings r).getD Ring.fresh

/-- Store a ring's state. -/
def State.setRing (s : State) (r : Nat) (v : Ring) : State := { s with rings := tPut s.rings r v }

/-! ## Token buckets (R235) -/

/-- What `per` × RATE per second adds between the last refill and `now`, and the remainder carried (R235). -/
def Bucket.gain (b : Bucket) (per now : Nat) : Nat × Nat :=
  let num := b.rate * per * (now - b.stamp) + b.carry
  (num / 100000000, num % 100000000)

/-- Refill a bucket to `now`: RATE × Δt of `unit` per second in integer arithmetic over 10 ns ticks, the remainder
carried, LEVEL capped at `unit` × BURST; an unlimited bucket stays full (R235, R243, R245). -/
def Bucket.refill (b : Bucket) (unlimited : Bool) (unit per now : Nat) : Bucket :=
  let cap : Int := (unit * b.burst : Nat)
  if unlimited then { b with level := cap, stamp := now, carry := 0 }
  else
    let g := b.gain per now
    let lvl := b.level + (g.1 : Nat)
    if lvl ≥ cap then { b with level := cap, stamp := now, carry := 0 }
    else { b with level := lvl, stamp := now, carry := g.2 }

/-- A tenant's budget refilled to now (R235), REFILL and LOSS with it (R353): units of 2⁻⁸ token. -/
def Tenant.refillBudget (t : Tenant) (now : Nat) : Tenant :=
  let unlimited := t.budget.rate == 0xFFFFFFFF
  let b := t.budget.refill unlimited 256 256 now
  let g := if unlimited then 0 else (t.budget.gain 256 now).1
  let loss := (t.budget.level + (g : Nat) - b.level).toNat
  { t with budget := b, ledger := { t.ledger with refill := t.ledger.refill + g, loss := t.ledger.loss + loss } }

/-- Is a tenant's budget ledger in balance (Table 14.1, code 4)? -/
def Tenant.ledgerOk (t : Tenant) : Bool :=
  t.budget.level + (t.ledger.loss + t.ledger.sampled + t.ledger.prefill + t.ledger.search : Nat) == t.ledger.base + (t.ledger.refill : Nat)

/-- Re-baseline a budget ledger (Table 14.2): BASE is LEVEL, the other terms 0. -/
def Tenant.rebase (t : Tenant) : Tenant :=
  { t with ledger := { base := t.budget.level, refill := 0, loss := 0, sampled := 0, prefill := 0, search := 0,
                       generated := 0, inputs := 0, searches := 0 } }

/-- A tenant's policer refilled to now (R245): units of one slip. -/
def Tenant.refillPolicer (t : Tenant) (now : Nat) : Tenant :=
  { t with policer := t.policer.refill (t.policer.rate == 0xFFFFFFFF) 1 1 now }

/-- Apply a charge in 2⁻⁸ token to a tenant's LEVEL, refill first (R235, R236, R248), and enter it in the ledger under its
kind: 0 SAMPLED, 1 PREFILL, 2 SEARCH; while RATE is unlimited an equal REFILL matches it (R353).  The operator has no
budget. -/
def State.charge (s : State) (t kind amount : Nat) : State :=
  if t == 0xFFFF then s else
  s.updTenant t fun v =>
    let v := v.refillBudget s.tick
    let unlimited := v.budget.rate == 0xFFFFFFFF
    let lvl := if unlimited then v.budget.level else v.budget.level - (amount : Nat)
    let l := v.ledger
    { v with budget := { v.budget with level := lvl },
             ledger := { l with refill := l.refill + (if unlimited then amount else 0),
                                sampled := l.sampled + (if kind == 0 then amount else 0),
                                prefill := l.prefill + (if kind == 1 then amount else 0),
                                search := l.search + (if kind == 2 then amount else 0) } }

/-- Do the parts of a tenant's CHARGE agree with the counts other units keep (R353)? -/
def Tenant.partsOk (t : Tenant) : Bool :=
  t.ledger.sampled == 256 * t.ledger.generated && t.ledger.prefill == t.ledger.inputs && t.ledger.search == t.ledger.searches

/-- A unit other than the step scheduler counts what a charge is for (R353): 0 GENERATED entries, 1 weighted input entries, 2 searches. -/
def State.tally (s : State) (t kind n : Nat) : State :=
  if t == 0xFFFF then s
  else s.updTenant t fun v =>
    { v with ledger := { v.ledger with generated := v.ledger.generated + (if kind == 0 then n else 0),
                                       inputs := v.ledger.inputs + (if kind == 1 then n else 0),
                                       searches := v.ledger.searches + (if kind == 2 then n else 0) } }

/-- A tenant's LEVEL now. -/
def State.level (s : State) (t : Nat) : Int := ((s.tenant t).refillBudget s.tick).budget.level

/-! ## MSI-X and DEV_TICK -/

/-- DEV_TICK in units of 100 ms (R90). -/
def tick100ms : Nat := 10000000

end Sys2Proof.Machine
end

