-- ==== Sys2Proof/Machine/Crc.lean ====
section
/-!
DEFINITION. The two CRCs of the device (R338, Table 13.7): CRC-32C and CRC-64, reflected, chained by seed.
-/

namespace Sys2Proof.Machine

/-- Shift one register bit by bit: `n` steps of a reflected CRC with polynomial `poly` (bit-reversed). -/
def crcBits (poly : Nat) : Nat → Nat → Nat
  | 0, c => c
  | n + 1, c => crcBits poly n (if c % 2 == 1 then (c / 2) ^^^ poly else c / 2)

/-- Run a reflected CRC over bytes, least significant bit of each byte first. -/
def crcRun (poly : Nat) : Bytes → Nat → Nat
  | [], c => c
  | b :: l, c => crcRun poly l (crcBits poly 8 (c ^^^ b.toNat))

/-- CRC-32C of data that follows a prefix of CRC `seed`; seed 0 is no prefix (R338). -/
def crc32cFrom (seed : Nat) (b : Bytes) : Nat :=
  (crcRun 0x82F63B78 b (seed ^^^ 0xFFFFFFFF)) ^^^ 0xFFFFFFFF

/-- CRC-32C. -/
def crc32c (b : Bytes) : Nat := crc32cFrom 0 b

/-- CRC-64 of data that follows a prefix of CRC `seed`. -/
def crc64From (seed : Nat) (b : Bytes) : Nat :=
  (crcRun 0xC96C5795D7870F42 b (seed ^^^ 0xFFFFFFFFFFFFFFFF)) ^^^ 0xFFFFFFFFFFFFFFFF

/-- CRC-64. -/
def crc64 (b : Bytes) : Nat := crc64From 0 b

/-- The colophon of an object (Table 13.8): CRC-64 of all that precedes it, ALIVE, FORMAT. -/
def colophon (body : Bytes) (alive format : Nat) : Bytes :=
  leBytes 8 (crc64 body) ++ leBytes 4 alive ++ leBytes 2 format ++ leBytes 2 0

end Sys2Proof.Machine

namespace Sys2Proof

open Machine in
/-- The 60 bytes a slip's HCRC covers (Table 2.1). -/
def Slip.headBytes (op : Nat) (x : Slip) : Bytes :=
  leBytes 1 x.version.toNat ++ leBytes 1 x.hlen.toNat ++ leBytes 2 op ++ leBytes 2 x.flags.toNat
  ++ leBytes 2 x.tenant.toNat ++ leBytes 4 x.tag.toNat ++ leBytes 4 x.epoch.toNat ++ leBytes 8 x.accession.toNat
  ++ leBytes 4 x.plen.toNat ++ leBytes 4 x.ploc.toNat ++ leBytes 4 x.p0.toNat ++ leBytes 4 x.p1.toNat
  ++ leBytes 4 x.p2.toNat ++ leBytes 4 x.p3.toNat ++ leBytes 4 x.p4.toNat ++ leBytes 4 x.p5.toNat
  ++ leBytes 4 x.rsvd.toNat

end Sys2Proof
end

