-- ==== Sys2Proof/Machine/Num.lean ====
section
/-!
DEFINITION. Number formats (R96-R100): element and scale encodings, round to nearest even, MX groups, Y3 groups, and FP32
arithmetic rounded once per operation.  A real number is kept as an integer in units of 2^-160, which holds every value of
every finite value of every format of Table 4.1 exactly; FP32 words carry infinities, NaNs and the sign of zero.
-/

namespace Sys2Proof.Machine

/-- The unit: a value v is kept as v × 2^160. -/
def fxOne : Nat := 2 ^ 160

/-- 2^e as a numerator or a denominator. -/
def pow2 (e : Int) : Nat × Nat := if e ≥ 0 then (2 ^ e.toNat, 1) else (1, 2 ^ (-e).toNat)

/-- floor(log2(n ÷ d)) for positive n and d. -/
def floorLog2 (n d : Nat) : Int :=
  let e : Int := (n.log2 : Int) - d.log2
  let p := pow2 e
  if n * p.2 < d * p.1 then e - 1 else e

/-- ceil(log2(n ÷ d)) for positive n and d. -/
def ceilLog2 (n d : Nat) : Int :=
  let e := floorLog2 n d
  let p := pow2 e
  if n * p.2 = d * p.1 then e else e + 1

/-- n ÷ d rounded to nearest, ties to even. -/
def roundDiv (n d : Nat) : Nat :=
  let q := n / d
  let r := n % d
  if 2 * r > d || (2 * r = d && q % 2 == 1) then q + 1 else q

/-- The magnitude code nearest to n ÷ d in a binary format of a given bias and mantissa width (R97): subnormals kept, no
upper limit. -/
def roundCode (bias mb n d : Nat) : Nat :=
  if n == 0 then 0
  else
    let e := max (floorLog2 n d) (1 - (bias : Int))
    let p := pow2 (e - mb)
    let q := roundDiv (n * p.2) (d * p.1)
    (e + bias - 1).toNat * 2 ^ mb + q

/-- The value of a magnitude code, in units of 2^-160. -/
def codeFx (bias mb c : Nat) : Nat :=
  let ef := c / 2 ^ mb
  let m := c % 2 ^ mb
  if ef == 0 then m * 2 ^ (161 - bias - mb) else (2 ^ mb + m) * 2 ^ (160 + ef - bias - mb)

/-- Round a fixed-point value into a sign-and-magnitude format, saturating at `maxCode`. -/
def fxEncode (bias mb bits maxCode : Nat) (x : Int) (unit : Nat) : Nat :=
  let c := min (roundCode bias mb x.natAbs unit) maxCode
  (if x < 0 then 2 ^ (bits - 1) else 0) + c

/-- Decode a sign-and-magnitude code. -/
def fxDecode (bias mb bits v : Nat) : Int :=
  let m : Int := codeFx bias mb (v % 2 ^ (bits - 1))
  if v ≥ 2 ^ (bits - 1) then -m else m

/-! ## FP32 and BF16 -/

/-- Is an FP32 word finite? -/
def f32Finite (v : Nat) : Bool := bitsOf v 30 23 != 255

/-- Is it a NaN? -/
def f32Nan (v : Nat) : Bool := bitsOf v 30 23 == 255 && v % 2 ^ 23 != 0

/-- The canonical NaN and the infinities. -/
def f32QNaN : Nat := 0x7FC00000
def f32Inf (neg : Bool) : Nat := if neg then 0xFF800000 else 0x7F800000

/-- FP32 to fixed point, a finite word. -/
def f32Fx (v : Nat) : Int := fxDecode 127 23 32 (v % 2 ^ 32)

/-- Stand-ins in fixed point for an infinity and a NaN, beyond every finite value. -/
def fxInf : Int := 2 ^ 450
def fxNaN : Int := 2 ^ 800

/-- Is a fixed-point value one of the stand-ins? -/
def fxOdd (x : Int) : Bool := x.natAbs ≥ 2 ^ 310

/-- FP32 to fixed point, any word. -/
def wordFx (v : Nat) : Int :=
  if f32Nan v then fxNaN else if f32Finite v then f32Fx v else if bitOf v 31 then -fxInf else fxInf

/-- The FP32 word nearest to ± n ÷ d. -/
def f32Round (neg : Bool) (n d : Nat) : Nat :=
  (if neg then 2 ^ 31 else 0) + min (roundCode 127 23 n d) 0x7F800000

/-- Fixed point to FP32. -/
def fxF32 (x : Int) : Nat := f32Round (decide (x < 0)) x.natAbs fxOne

/-- Sign of an FP32 word. -/
def f32Neg (v : Nat) : Bool := bitOf v 31

/-- Addition. -/
def f32Add (a b : Nat) : Nat :=
  if f32Nan a || f32Nan b then f32QNaN
  else if !f32Finite a then (if !f32Finite b && f32Neg a != f32Neg b then f32QNaN else a)
  else if !f32Finite b then b
  else
    let x := f32Fx a + f32Fx b
    if x == 0 then (if f32Neg a && f32Neg b then 2 ^ 31 else 0) else fxF32 x

/-- Negation and subtraction. -/
def f32Negate (a : Nat) : Nat := a ^^^ 0x80000000
def f32Sub (a b : Nat) : Nat := f32Add a (f32Negate b)

/-- Multiplication. -/
def f32Mul (a b : Nat) : Nat :=
  let neg := f32Neg a != f32Neg b
  if f32Nan a || f32Nan b then f32QNaN
  else if !f32Finite a || !f32Finite b then
    (if (f32Finite a && f32Fx a == 0) || (f32Finite b && f32Fx b == 0) then f32QNaN else f32Inf neg)
  else f32Round neg ((f32Fx a).natAbs * (f32Fx b).natAbs) (fxOne * fxOne)

/-- Division. -/
def f32Div (a b : Nat) : Nat :=
  let neg := f32Neg a != f32Neg b
  if f32Nan a || f32Nan b then f32QNaN
  else if !f32Finite a then (if !f32Finite b then f32QNaN else f32Inf neg)
  else if !f32Finite b then (if neg then 2 ^ 31 else 0)
  else if f32Fx b == 0 then (if f32Fx a == 0 then f32QNaN else f32Inf neg)
  else f32Round neg (f32Fx a).natAbs (f32Fx b).natAbs

/-- Order: a < b, false when either is a NaN. -/
def f32Lt (a b : Nat) : Bool :=
  if f32Nan a || f32Nan b then false
  else
    let key := fun v => if !f32Finite v then (if f32Neg v then -(2 ^ 400 : Int) else 2 ^ 400) else f32Fx v
    decide (key a < key b)

/-- FP32 rounded to BF16. -/
def f32Bf16 (v : Nat) : Nat :=
  if f32Nan v then 0x7FC0
  else if !f32Finite v then v / 2 ^ 16
  else (if f32Neg v then 2 ^ 15 else 0) + min (roundCode 127 7 (f32Fx v).natAbs fxOne) 0x7F80

/-- BF16 to FP32. -/
def bf16F32 (v : Nat) : Nat := v * 2 ^ 16

/-- An integer to FP32. -/
def natF32 (n : Nat) : Nat := f32Round false n 1

/-! ## MX groups (R97, R98) -/

/-- An MX element format: 0 MXFP4 (E2M1), 1 MXFP6 (E3M2), 2 MXFP8 (E4M3). -/
structure MxFmt where
  bits : Nat
  bias : Nat
  mb : Nat
  /-- code and value of the largest finite magnitude -/
  maxCode : Nat
  emax : Nat
  deriving DecidableEq, Repr

def mxFp4 : MxFmt := { bits := 4, bias := 1, mb := 1, maxCode := 7, emax := 6 }
def mxFp6 : MxFmt := { bits := 6, bias := 3, mb := 2, maxCode := 31, emax := 28 }
def mxFp8 : MxFmt := { bits := 8, bias := 7, mb := 3, maxCode := 0x7E, emax := 448 }

/-- The scale exponent of a group: ceil(log2(amax ÷ top)) clamped to -127 .. 127; `top` as a fraction. -/
def scaleExp (amax topN topD : Nat) : Int :=
  if amax == 0 then -127 else max (-127) (min 127 (ceilLog2 (amax * topD) (fxOne * topN)))

/-- Largest magnitude of a group. -/
def amaxOf (xs : List Int) : Nat := xs.foldl (fun a x => max a x.natAbs) 0

/-- The code of an FP32 word divided by the unit: rounded, saturating, the sign of zero kept; an infinity takes the largest. -/
def encWord (bias mb bits maxCode w unit : Nat) : Nat :=
  (if f32Neg w then 2 ^ (bits - 1) else 0)
    + (if f32Finite w then min (roundCode bias mb (f32Fx w).natAbs unit) maxCode else maxCode)

/-- Encode a group of FP32 words: scale byte and element codes (R97); of a group that holds a NaN no rule states the result (log entry
69). -/
def mxEncode (f : MxFmt) (ws : List Nat) : Nat × List Nat :=
  if ws.any f32Nan then
    let xs := ws.map wordFx
    (Config.nanGroup f.bits xs 0 % 255, (List.range ws.length).map (fun i => Config.nanGroup f.bits xs (i + 1) % 2 ^ f.bits))
  else
    let a := amaxOf (ws.map f32Fx)
    if a == 0 then (0, ws.map (fun _ => 0))
    else
      let x := if ws.all f32Finite then scaleExp a f.emax 1 else 127
      let unit := 2 ^ (160 + x).toNat
      ((x + 127).toNat, ws.map (fun w => encWord f.bias f.mb f.bits f.maxCode w unit))

/-- A scaled value: v × 2^(s − 127). -/
def scaleFx (v : Int) (s : Nat) : Int := if s ≥ 127 then v * 2 ^ (s - 127) else v / 2 ^ (127 - s)

/-- Is an element code a NaN: S.1111.111 of E4M3 (Table 4.1)? -/
def MxFmt.nan (f : MxFmt) (e : Nat) : Bool := f.bits == 8 && e % 128 == 127

/-- Decode a group to exact values; a scale of 0xFF is a NaN (Table 4.1). -/
def mxDecode (f : MxFmt) (scale : Nat) (es : List Nat) : List Int :=
  es.map (fun e => if scale == 0xFF || f.nan e then fxNaN else scaleFx (fxDecode f.bias f.mb f.bits e) scale)

/-- A signed code times 2^(s − 127) as an FP32 word, rounded once. -/
def codeWord (f : MxFmt) (s e : Nat) : Nat :=
  if s == 0xFF || f.nan e then f32QNaN
  else f32Round (decide (e % 2 ^ f.bits ≥ 2 ^ (f.bits - 1))) (codeFx f.bias f.mb (e % 2 ^ (f.bits - 1)) * 2 ^ s) (fxOne * 2 ^ 127)

/-- Decode a group to FP32 words. -/
def mxWords (f : MxFmt) (scale : Nat) (es : List Nat) : List Nat := es.map (codeWord f scale)

/-- A signed byte. -/
def int8 (b : Byte) : Int := b.toInt

/-- An FP8 (E4M3) value as an FP32 word. -/
def fp8Word (e : Nat) : Nat := codeWord mxFp8 127 e

/-- An FP16 value as an FP32 word. -/
def fp16Word (v : Nat) : Nat :=
  if bitsOf v 14 10 == 31 then (if v % 2 ^ 10 == 0 then f32Inf (bitOf v 15) else f32QNaN)
  else f32Round (bitOf v 15) (codeFx 15 10 (v % 2 ^ 15)) fxOne

/-- An E2M1 code rewritten in E4M3, lossless (R108). -/
def fp4To8 (e : Nat) : Nat := (if e % 16 ≥ 8 then 128 else 0) + roundCode mxFp8.bias mxFp8.mb (codeFx mxFp4.bias mxFp4.mb (e % 8)) fxOne

/-- Pack element codes of `b` bits little-endian (Table 4.2). -/
def packBits (b : Nat) (es : List Nat) : Bytes :=
  leBytes (es.length * b / 8) (es.foldr (fun e acc => e + 2 ^ b * acc) 0)

/-- Unpack `n` element codes of `b` bits. -/
def unpackBits (b n : Nat) (bytes : Bytes) : List Nat :=
  let v := leNat bytes
  (List.range n).map (fun i => v / 2 ^ (b * i) % 2 ^ b)

/-! ## Errors (R103, R107) -/

/-- Sum of squares. -/
def sumSq (xs : List Int) : Nat := xs.foldl (fun a x => a + x.natAbs * x.natAbs) 0

/-- Sum of squared differences. -/
def sumDiff (xs ys : List Int) : Nat := sumSq ((xs.zip ys).map (fun p => p.1 - p.2))

/-- Is √(num ÷ den) above a threshold in units of 2^-16?  Not when den is 0. -/
def errAbove (num den thresh : Nat) : Bool := den != 0 && num * 2 ^ 32 > thresh * thresh * den

/-- √(num ÷ den) in units of 2^-16, rounded upwards, saturating at 0xFFFF; 0 when den is 0. -/
def errUnits (num den : Nat) : Nat :=
  if den == 0 then 0
  else
    let q := num * 2 ^ 32
    let r := kthSqrt (q / den)
    min 0xFFFF (if r * r * den ≥ q then r else r + 1)
where
  /-- integer square root -/
  kthSqrt (n : Nat) : Nat := (List.range 80).reverse.foldl (fun r b => if (r + 2 ^ b) * (r + 2 ^ b) ≤ n then r + 2 ^ b else r) 0

/-- Numerator and denominator of e², for values and their decoded forms; where one is no finite number no rule states the error (log
entry 69). -/
def errPair (xs ys : List Int) : Nat × Nat :=
  if xs.any fxOdd || ys.any fxOdd then
    let e := Config.nanGroup 32 (xs ++ ys) 0 % 2 ^ 16
    (e * e, 2 ^ 32)
  else (sumDiff xs ys, sumSq xs)

/-! ## Y3 (R99, R100) -/

/-- The codebooks of Table 4.3, in quarters. -/
def codebooks : List (List Int) :=
  [ [-28, -20, -12, -4, 4, 12, 20, 28], [-16, -12, -8, -4, 0, 4, 8, 12], [-24, -15, -8, -3, 3, 8, 15, 24],
    [-24, -12, -6, -2, 2, 6, 12, 24], [-24, -8, -4, -1, 1, 4, 8, 24], [-32, -16, -8, -4, 4, 8, 16, 32],
    [-12, -6, -2, 2, 6, 12, 18, 24], [-24, -18, -12, -6, -2, 2, 6, 12], [0, 2, 4, 6, 8, 12, 16, 24],
    [-24, -16, -12, -8, -6, -4, -2, 0], [0, 4, 8, 12, 16, 20, 24, 28], [-28, -24, -20, -16, -12, -8, -4, 0],
    [-24, -17, -10, -3, 3, 10, 17, 24], [-24, -20, -16, -12, 12, 16, 20, 24], [-4, 0, 4, 8, 12, 16, 20, 24],
    [-24, -20, -16, -12, -8, -4, 0, 4] ]

/-- A codebook. -/
def codebook (k : Nat) : List Int := codebooks.getD k []

/-- Its largest magnitude, in quarters. -/
def cmax (k : Nat) : Nat := amaxOf (codebook k)

/-- Index of the entry nearest to x, in the unit `unit` of one quarter; ties to the lower index (R99). -/
def nearestEntry (c : List Int) (x : Int) (unit : Nat) : Nat :=
  let d := c.map (fun v => (x - v * unit).natAbs)
  d.idxOf (d.foldl min (d.headD 0))

/-- Encode a Y3 group under codebook k: scale byte and indices (R99); of a group that holds an infinity or a NaN no rule states the
result (log entry 69). -/
def y3Encode (k : Nat) (xs : List Int) : Nat × List Nat :=
  if xs.any fxOdd then
    (Config.nanGroup (16 + k) xs 0 % 255, (List.range xs.length).map (fun i => Config.nanGroup (16 + k) xs (i + 1) % 8))
  else
    let a := amaxOf xs
    let x := scaleExp a (cmax k) 4
    let unit := 2 ^ (158 + x).toNat
    (if a == 0 then 0 else (x + 127).toNat, xs.map (fun v => nearestEntry (codebook k) v unit))

/-- Decode a Y3 group. -/
def y3Decode (k scale : Nat) (is : List Nat) : List Int :=
  is.map (fun i => if scale == 0xFF then fxNaN else scaleFx ((codebook k).getD i 0 * 2 ^ 158) scale)

/-- The same as FP32 words, exact for every value an append can produce (R113). -/
def fxWord (x : Int) : Nat := if fxOdd x then f32QNaN else fxF32 x
def y3Words (k scale : Nat) (is : List Nat) : List Nat := (y3Decode k scale is).map fxWord

end Sys2Proof.Machine
end

