-- ==== Sys2Proof/Machine/Pages.lean ====
section
/-!
DEFINITION. KV pages (R101-R113): layout, header, groups and escapes; append, promotion, ageing and copy of a page as pure
functions on its image; pages in the slots of T1.
-/

namespace Sys2Proof.Machine

/-! ## HBM (R119) -/

/-- `n` bytes of HBM from a bank-linear address. -/
def State.hbmRd (s : State) (a n : Nat) : Bytes := (List.range n).map (fun i => sGet (fun _ => 0) s.hbm (a + i))

/-- Write bytes into a sparse byte memory. -/
def memPut : List (Nat × Byte) → Nat → Bytes → List (Nat × Byte)
  | m, _, [] => m
  | m, a, b :: l => memPut (sSet (fun _ => 0) m a b) (a + 1) l

/-- Write bytes of HBM. -/
def State.hbmWr (s : State) (a : Nat) (b : Bytes) : State := { s with hbm := memPut s.hbm a b }

/-- Bank-linear address of a page slot (R117, R119). -/
def slotAddr (slot : Nat) : Nat := slot * 65536

/-! ## Layout (R101, R102, Table 4.4) -/

/-- Groups per head per token, and groups per page (R101). -/
def Profile.G (p : Profile) : Nat := p.headDim / 32
def Profile.N (p : Profile) : Nat := 2 * p.kvHeads * p.tokensPerPage * p.G

/-- Where the regions of a page image lie.  The image is the page as one range: a T1 slot, a pair of T1 slots, or the 48 KiB
class. -/
structure Layout where
  format : Nat
  elem : Nat
  scale : Nat
  esc : Nat
  escCap : Nat
  header : Nat
  size : Nat
  deriving DecidableEq, Repr

/-- Layout of a page in T1.  Table 4.4 gives the offsets for Quire-104; that for any profile the regions follow one another without
gaps, and ESC_CAP is what the space before the header holds, is the model's choice (log entry 84). -/
def Profile.lay (p : Profile) (format : Nat) : Layout :=
  let n := p.N
  if format == 0 then
    { format := 0, elem := 16, scale := 16 * n, esc := 17 * n, escCap := (0xFB20 - 17 * n) / 36, header := 0xFB20, size := 0x10000 }
  else if format == 1 then
    { format := 1, elem := 32, scale := 32 * n, esc := 33 * n, escCap := 0, header := 0x1FB20, size := 0x20000 }
  else
    { format := 2, elem := 12, scale := 12 * n, esc := 13 * n, escCap := (0xBB20 - 13 * n) / 36, header := 0xFB20, size := 0x10000 }

/-- Write bytes at an offset of an image. -/
def patch (b : Bytes) (o : Nat) (v : Bytes) : Bytes := slice b 0 o ++ v ++ b.drop (o + v.length)

/-- Offset and size of the header fields of Table 4.5. -/
structure HF where
  off : Nat
  size : Nat
  deriving DecidableEq, Repr

namespace Hd
def PAGE_ID : HF := ⟨0x000, 8⟩
def SECOND : HF := ⟨0x008, 8⟩
def ACCESSION : HF := ⟨0x010, 8⟩
def PROFILE_ID : HF := ⟨0x018, 4⟩
def GEN : HF := ⟨0x01C, 4⟩
def FIRST_POS : HF := ⟨0x020, 4⟩
def LAYER : HF := ⟨0x024, 2⟩
def TENANT : HF := ⟨0x026, 2⟩
def FORMAT : HF := ⟨0x028, 1⟩
def FILL : HF := ⟨0x029, 1⟩
def FLAGS : HF := ⟨0x02A, 2⟩
def ESC_COUNT : HF := ⟨0x02C, 2⟩
def ESC_CAP : HF := ⟨0x02E, 2⟩
def APPEND_ERR_MAX : HF := ⟨0x030, 2⟩
def AGE_ERR : HF := ⟨0x032, 2⟩
def PROMOTE_SLOT : HF := ⟨0x034, 2⟩
def CODEBOOKS : HF := ⟨0x038, 8⟩
end Hd

/-- Header field of an image. -/
def hdGet (l : Layout) (b : Bytes) (f : HF) : Nat := rdLe b (l.header + f.off) f.size

/-- Set a header field. -/
def hdPut (l : Layout) (b : Bytes) (f : HF) (v : Nat) : Bytes := patch b (l.header + f.off) (leBytes f.size v)

/-- Transcript entry of a token slot, and its update (TOKENS of Table 4.5). -/
def hdToken (l : Layout) (b : Bytes) (t : Nat) : Nat := rdLe b (l.header + 0x40 + 4 * t) 4
def hdPutToken (l : Layout) (b : Bytes) (t v : Nat) : Bytes := patch b (l.header + 0x40 + 4 * t) (leBytes 4 v)

/-- Set a colophon's fields (Table 13.8). -/
def colPut (b : Bytes) (crc alive format : Nat) : Bytes :=
  patch b (b.length - 16) (leBytes 8 crc ++ leBytes 4 alive ++ leBytes 2 format ++ leBytes 2 0)

/-- Format code of a page's colophon (R104). -/
def pageCode (format : Nat) : Nat := 0x0401 + format

/-! ## Groups and escapes (R101, R106) -/

/-- Token slot and pair j of group g. -/
def Profile.groupSlot (p : Profile) (g : Nat) : Nat := g / p.G % p.tokensPerPage
def Profile.groupPair (p : Profile) (g : Nat) : Nat := g / p.G / p.tokensPerPage

/-- Groups of a token slot, in increasing order. -/
def Profile.slotGroups (p : Profile) (t : Nat) : List Nat := (List.range p.N).filter (fun g => p.groupSlot g == t)

/-- Element bytes and scale of a group. -/
def elemBytes (l : Layout) (b : Bytes) (g : Nat) : Bytes := slice b (g * l.elem) l.elem
def scaleOf (l : Layout) (b : Bytes) (g : Nat) : Nat := rdLe b (l.scale + g) 1

/-- Put a group: its element bytes and its scale. -/
def putGroup (l : Layout) (b : Bytes) (g : Nat) (es : Bytes) (scale : Nat) : Bytes :=
  patch (patch b (g * l.elem) es) (l.scale + g) (leBytes 1 scale)

/-- An escape entry: its scale and its E4M3 elements (Table 4.6). -/
def escEntry (l : Layout) (b : Bytes) (e : Nat) : Nat × List Nat :=
  (bitsOf (rdLe b (l.esc + 36 * e) 4) 31 24, (slice b (l.esc + 36 * e + 4) 32).map (·.toNat))

/-- Write an escape entry for group g. -/
def putEsc (l : Layout) (b : Bytes) (e g scale : Nat) (es : List Nat) : Bytes :=
  patch b (l.esc + 36 * e) (leBytes 4 (g + scale * 2 ^ 24) ++ es.flatMap (leBytes 1))

/-- Mark a group as escaped to entry e. -/
def markEsc (l : Layout) (b : Bytes) (g e : Nat) : Bytes :=
  putGroup l b g (leBytes 2 e ++ List.replicate (l.elem - 2) 0) 0xFF

/-- Is a group escaped, and to which entry? -/
def escOf (l : Layout) (b : Bytes) (g : Nat) : Option Nat :=
  if l.format != 1 && scaleOf l b g == 0xFF then some (rdLe b (g * l.elem) 2) else none

/-- Element codes of a group, by format. -/
def elemCodes (l : Layout) (b : Bytes) (g : Nat) : List Nat :=
  unpackBits (if l.format == 0 then 4 else if l.format == 1 then 8 else 3) 32 (elemBytes l b g)

/-- Codebook selected for pair j (R100). -/
def selection (l : Layout) (b : Bytes) (j : Nat) : Nat := bitsOf (hdGet l b Hd.CODEBOOKS) (4 * j + 3) (4 * j)

/-- Decode a group, escapes included. -/
def decodeGroup (p : Profile) (l : Layout) (b : Bytes) (g : Nat) : List Int :=
  match escOf l b g with
  | some e => let x := escEntry l b e; mxDecode mxFp8 x.1 x.2
  | none =>
    let c := elemCodes l b g
    let sc := scaleOf l b g
    if l.format == 0 then mxDecode mxFp4 sc c
    else if l.format == 1 then mxDecode mxFp8 sc c
    else y3Decode (selection l b (p.groupPair g)) sc c

/-- The same as FP32 words. -/
def groupWords (p : Profile) (l : Layout) (b : Bytes) (g : Nat) : List Nat :=
  match escOf l b g with
  | some e => let x := escEntry l b e; mxWords mxFp8 x.1 x.2
  | none =>
    let c := elemCodes l b g
    let sc := scaleOf l b g
    if l.format == 0 then mxWords mxFp4 sc c
    else if l.format == 1 then mxWords mxFp8 sc c
    else y3Words (selection l b (p.groupPair g)) sc c

/-! ## A fresh tail page (R107) -/

/-- The image of a fresh tail page: MXFP4, or wide when its layer has a pin (R110). -/
def freshPage (p : Profile) (format slot second acc gen first layer tenant : Nat) : Bytes :=
  let l := p.lay format
  let b : Bytes := List.replicate l.size 0
  let pinned := format == 1
  let b := [(Hd.PAGE_ID, slot), (Hd.SECOND, second), (Hd.ACCESSION, acc), (Hd.PROFILE_ID, p.id), (Hd.GEN, gen),
    (Hd.FIRST_POS, first), (Hd.LAYER, layer), (Hd.TENANT, tenant), (Hd.FORMAT, format), (Hd.FLAGS, b2n pinned),
    (Hd.ESC_CAP, l.escCap), (Hd.PROMOTE_SLOT, if pinned then 0 else 0xFFFF)].foldl (fun b f => hdPut l b f.1 f.2) b
  colPut b 0 gen (pageCode format)

/-! ## Append (R107) -/

/-- Errors of a group as stored: numerator and denominator of e². -/
def groupErr (f : MxFmt) (xs : List Nat) : Nat × Nat :=
  let r := mxEncode f xs
  errPair (xs.map wordFx) (mxDecode f r.1 r.2)

/-- Is a group an escape candidate? -/
def candidate (p : Profile) (xs : List Nat) : Bool := let e := groupErr mxFp4 xs; errAbove e.1 e.2 p.escThresh

/-- Does appending these groups promote the MXFP4 page (step 4)? -/
def promotes (p : Profile) (l : Layout) (b : Bytes) (gs : List (Nat × List Nat)) : Bool :=
  l.format == 0 && hdGet l b Hd.ESC_COUNT + (gs.filter (fun g => candidate p g.2)).length > l.escCap

/-- Write one group in MXFP8. -/
def putFp8 (l : Layout) (b : Bytes) (g : Nat) (xs : List Nat) : Bytes :=
  let r := mxEncode mxFp8 xs
  putGroup l b g (packBits 8 r.2) r.1

/-- Write one group of an MXFP4 page, escaping it where it must be; the count is the next escape entry. -/
def putFp4 (p : Profile) (l : Layout) (s : Bytes × Nat) (g : Nat) (xs : List Nat) : Bytes × Nat :=
  if candidate p xs then
    let r := mxEncode mxFp8 xs
    (markEsc l (putEsc l s.1 s.2 g r.1 r.2) g s.2, s.2 + 1)
  else
    let r := mxEncode mxFp4 xs
    (putGroup l s.1 g (packBits 4 r.2) r.1, s.2)

/-- Append one token to a page that takes it without promotion: groups (index, values) in increasing order, first escape
entry `e0`, its token slot and transcript entry (steps 4 to 6). -/
def appendToken (p : Profile) (l : Layout) (b : Bytes) (t entry e0 : Nat) (gs : List (Nat × List Nat)) : Bytes :=
  let wide := l.format == 1
  let r := gs.foldl (fun s g => if wide then (putFp8 l s.1 g.1 g.2, s.2) else putFp4 p l s g.1 g.2) (b, e0)
  let errs := gs.map (fun g =>
    let e := if wide || candidate p g.2 then groupErr mxFp8 g.2 else groupErr mxFp4 g.2
    errUnits e.1 e.2)
  let b := if wide then r.1 else hdPut l r.1 Hd.ESC_COUNT r.2
  let b := hdPutToken l b t entry
  let b := hdPut l b Hd.APPEND_ERR_MAX (errs.foldl max (hdGet l b Hd.APPEND_ERR_MAX))
  let b := hdPut l b Hd.FILL (t + 1)
  if t + 1 == p.tokensPerPage then hdPut l b Hd.FLAGS (hdGet l b Hd.FLAGS ||| 4) else b

/-! ## Promotion (R108) -/

/-- The wide image of an MXFP4 page: same scales and values, escapes folded in. -/
def promotePage (p : Profile) (b : Bytes) (second t gen : Nat) : Bytes :=
  let l := p.lay 0
  let w := p.lay 1
  let one := fun (acc : Bytes) (g : Nat) =>
    match escOf l b g with
    | some e => let x := escEntry l b e; putGroup w acc g (x.2.flatMap (leBytes 1)) x.1
    | none =>
      putGroup w acc g (packBits 8 ((elemCodes l b g).map fp4To8)) (scaleOf l b g)
  let c := (List.range p.N).foldl one (List.replicate w.size 0)
  let c := patch c w.header (slice b l.header 0x4D0)
  let c := [(Hd.FORMAT, 1), (Hd.SECOND, second), (Hd.FLAGS, hdGet l b Hd.FLAGS ||| 2), (Hd.PROMOTE_SLOT, t), (Hd.ESC_COUNT, 0),
    (Hd.ESC_CAP, 0), (Hd.GEN, gen)].foldl (fun c f => hdPut w c f.1 f.2) c
  colPut c 0 gen (pageCode 1)

/-! ## Ageing (R100, R112) -/

/-- Squared error of a group under codebook k. -/
def y3Err (k : Nat) (xs : List Int) : Nat := let r := y3Encode k xs; sumDiff xs (y3Decode k r.1 r.2)

/-- The codebook of least total squared error over a pair's groups; a tie goes to the lowest. -/
def chooseBook (gs : List (List Int)) : Nat :=
  if gs.any (fun g => g.any fxOdd) then Config.nanGroup 33 gs.flatten 0 % 16 else
  let tot := (List.range 16).map (fun k => (gs.map (y3Err k)).foldl (· + ·) 0)
  tot.idxOf (tot.foldl min (tot.headD 0))

/-- Result of ageing a full page: the Y3 image in its T1 layout, or the reason it is refused (AUX of AGE). -/
inductive Aged where
  | page (b : Bytes) (err : Nat)
  | overflow
  | error (err : Nat)
  deriving DecidableEq, Repr

/-- Age a full MXFP4 page (R112): codebooks, groups, escapes, page error.  GEN and PAGE_ID are the caller's. -/
def agePage (p : Profile) (b : Bytes) (escThresh ageThresh : Nat) : Aged :=
  let l := p.lay 0
  let y := p.lay 2
  let src := (List.range p.N).map (fun g => decodeGroup p l b g)
  let pairs := List.range (2 * p.kvHeads)
  let ofPair := fun j => (List.range p.N).filter (fun g => p.groupPair g == j)
  let books := pairs.map (fun j => chooseBook ((ofPair j).map (fun g => src.getD g [])))
  let one := fun (acc : Bytes × Nat) (g : Nat) =>
    let xs := src.getD g []
    let k := books.getD (p.groupPair g) 0
    let r := y3Encode k xs
    let e := errPair xs (y3Decode k r.1 r.2)
    if errAbove e.1 e.2 escThresh then
      let x := match escOf l b g with
        | some e => escEntry l b e
        | none => (scaleOf l b g, (elemCodes l b g).map fp4To8)
      (markEsc y (putEsc y acc.1 acc.2 g x.1 x.2) g acc.2, acc.2 + 1)
    else (putGroup y acc.1 g (packBits 3 r.2) r.1, acc.2)
  let r := (List.range p.N).foldl one (List.replicate y.size 0, 0)
  if r.2 > y.escCap then .overflow
  else
    let c := patch r.1 y.header (slice b l.header 0x4D0)
    let code := (books.zipIdx.map (fun k => k.1 * 2 ^ (4 * k.2))).foldl (· + ·) 0
    let c := [(Hd.FORMAT, 2), (Hd.ESC_COUNT, r.2), (Hd.ESC_CAP, y.escCap), (Hd.CODEBOOKS, code)].foldl
      (fun c f => hdPut y c f.1 f.2) c
    let dec := (List.range p.N).map (fun g => decodeGroup p y c g)
    let pair := fun (gs : List Nat) => errPair (gs.flatMap (fun g => src.getD g [])) (gs.flatMap (fun g => dec.getD g []))
    let e := pair (List.range p.N)
    let err := errUnits e.1 e.2
    if errAbove e.1 e.2 ageThresh then .error err
    else
      let c := hdPut y c Hd.AGE_ERR err
      let c := pairs.foldl (fun c j => let e := pair (ofPair j); patch c (y.header + 0x120 + 2 * j) (leBytes 2 (errUnits e.1 e.2))) c
      .page c err

/-! ## Copy (R140) -/

/-- Copy a page, or its first k tokens: the image of the new page and its format; the escape entries kept are renumbered from 0 in
increasing order.  GEN, PAGE_ID and SECOND are the caller's. -/
def copyPage (p : Profile) (format : Nat) (b : Bytes) (k : Nat) : Bytes × Nat :=
  let l := p.lay format
  if k ≥ p.tokensPerPage then (b, format)
  else
    let f := if format == 2 then 1 else format
    let w := p.lay f
    let keep := (List.range p.N).filter (fun g => p.groupSlot g < k)
    let kept := (keep.filterMap (escOf l b)).mergeSort
    let one := fun (acc : Bytes) (g : Nat) =>
      if format == 2 then putFp8 w acc g (groupWords p l b g)
      else match escOf l b g with
        | some e => let x := escEntry l b e; let n := kept.idxOf e; markEsc w (putEsc w acc n g x.1 x.2) g n
        | none => putGroup w acc g (elemBytes l b g) (scaleOf l b g)
    let r := keep.foldl one (List.replicate w.size 0)
    let c := patch r w.header (slice b l.header 0x4D0)
    let c := ((List.range p.tokensPerPage).drop k).foldl (fun c t => hdPutToken w c t 0) c
    let flags := (hdGet l b Hd.FLAGS &&& 0xFFFB) ||| 8
    let c := [(Hd.FILL, k), (Hd.FLAGS, if format == 2 then flags ||| 2 else flags), (Hd.ESC_COUNT, if format == 2 then 0 else kept.length)].foldl
      (fun c f => hdPut w c f.1 f.2) c
    let c := if format == 2 then
        [(Hd.FORMAT, 1), (Hd.PROMOTE_SLOT, 0), (Hd.ESC_CAP, 0), (Hd.CODEBOOKS, 0), (Hd.AGE_ERR, 0)].foldl
          (fun c f => hdPut w c f.1 f.2) (patch c (w.header + 0x120) (List.replicate 32 0))
      else c
    (colPut c 0 0 (pageCode f), f)

/-- Escape entries a copy keeps (AUX of COPY). -/
def copyKept (p : Profile) (format : Nat) (b : Bytes) (k : Nat) : Nat :=
  let l := p.lay format
  ((List.range p.N).filter (fun g => p.groupSlot g < k && (escOf l b g).isSome)).length

/-! ## Images that leave T1 and return (R102, R104, R372) -/

/-- The image that leaves T1: `fill` token slots, everything above them and above ESC_COUNT zero, in its size class, the
colophon's CRC-64 computed. -/
def leavingImage (p : Profile) (format : Nat) (b : Bytes) (fill : Nat) : Bytes :=
  let l := p.lay format
  let b := ((List.range p.N).filter (fun g => p.groupSlot g ≥ fill)).foldl
    (fun b g => putGroup l b g (List.replicate l.elem 0) 0) b
  let b := ((List.range p.tokensPerPage).drop fill).foldl (fun b t => hdPutToken l b t 0) b
  let b := if fill < hdGet l b Hd.FILL then hdPut l b Hd.FILL fill else b
  let n := hdGet l b Hd.ESC_COUNT
  let b := if format == 1 then b else patch b (l.esc + 36 * n) (List.replicate (36 * (l.escCap - n)) 0)
  let gen := hdGet l b Hd.GEN
  let b := if format == 2 then slice b 0 0xBB20 ++ slice b l.header 0x4D0 ++ List.replicate 16 0 else b
  let body := b.take (b.length - 16)
  body ++ colophon body gen (pageCode format)

/-- A returning image in its T1 layout, for the slot it is laid into: PAGE_ID, SECOND, GEN and colophon rewritten. -/
def laidImage (p : Profile) (format : Nat) (b : Bytes) (slot second gen : Nat) : Bytes :=
  let l := p.lay format
  let b := if format == 2 then slice b 0 0xBB20 ++ List.replicate 0x4000 0 ++ slice b 0xBB20 0x4D0 ++ List.replicate 16 0 else b
  let b := hdPut l (hdPut l (hdPut l b Hd.PAGE_ID slot) Hd.SECOND second) Hd.GEN gen
  colPut b 0 gen (pageCode format)

/-! ## Pages in their slots -/

/-- The image of a page in T1: one slot, or its two slots as one range (R102). -/
def State.pageImage (s : State) (r : PageRef) : Bytes :=
  if r.format == 1 then s.hbmRd (slotAddr r.slot) 65536 ++ s.hbmRd (slotAddr r.second) 65536 else s.hbmRd (slotAddr r.slot) 65536

/-- Write a page image into its slots. -/
def State.putImage (s : State) (r : PageRef) (b : Bytes) : State :=
  if r.format == 1 then (s.hbmWr (slotAddr r.slot) (slice b 0 65536)).hbmWr (slotAddr r.second) (slice b 65536 65536)
  else s.hbmWr (slotAddr r.slot) (slice b 0 65536)

end Sys2Proof.Machine
end

