-- ==== Sys2Proof/Machine/Crypto.lean ====
section
/-!
DEFINITION. The ciphers the spec names (R370, R372): SHA-384, HKDF-SHA-384 (RFC 5869) and AES-256-XTS (IEEE 1619-2018) and AES-256-GCM,
taken from their own standards (log entry 20), the keys of Table 15.1 and the tweaks of Table 15.2.
-/

namespace Sys2Proof.Machine

/-! ## SHA-384 -/

/-- Big-endian bytes. -/
def beBytes (n v : Nat) : Bytes := (leBytes n v).reverse

/-- A big-endian number. -/
def beNat (b : Bytes) : Nat := leNat b.reverse

/-- The 80 round constants of the SHA-512 family (FIPS 180-4): fractions of the cube roots of the first 80 primes. -/
def shaK : List (BitVec 64) :=
  [0x428a2f98d728ae22, 0x7137449123ef65cd, 0xb5c0fbcfec4d3b2f, 0xe9b5dba58189dbbc, 0x3956c25bf348b538] ++
  [0x59f111f1b605d019, 0x923f82a4af194f9b, 0xab1c5ed5da6d8118, 0xd807aa98a3030242, 0x12835b0145706fbe] ++
  [0x243185be4ee4b28c, 0x550c7dc3d5ffb4e2, 0x72be5d74f27b896f, 0x80deb1fe3b1696b1, 0x9bdc06a725c71235] ++
  [0xc19bf174cf692694, 0xe49b69c19ef14ad2, 0xefbe4786384f25e3, 0x0fc19dc68b8cd5b5, 0x240ca1cc77ac9c65] ++
  [0x2de92c6f592b0275, 0x4a7484aa6ea6e483, 0x5cb0a9dcbd41fbd4, 0x76f988da831153b5, 0x983e5152ee66dfab] ++
  [0xa831c66d2db43210, 0xb00327c898fb213f, 0xbf597fc7beef0ee4, 0xc6e00bf33da88fc2, 0xd5a79147930aa725] ++
  [0x06ca6351e003826f, 0x142929670a0e6e70, 0x27b70a8546d22ffc, 0x2e1b21385c26c926, 0x4d2c6dfc5ac42aed] ++
  [0x53380d139d95b3df, 0x650a73548baf63de, 0x766a0abb3c77b2a8, 0x81c2c92e47edaee6, 0x92722c851482353b] ++
  [0xa2bfe8a14cf10364, 0xa81a664bbc423001, 0xc24b8b70d0f89791, 0xc76c51a30654be30, 0xd192e819d6ef5218] ++
  [0xd69906245565a910, 0xf40e35855771202a, 0x106aa07032bbd1b8, 0x19a4c116b8d2d0c8, 0x1e376c085141ab53] ++
  [0x2748774cdf8eeb99, 0x34b0bcb5e19b48a8, 0x391c0cb3c5c95a63, 0x4ed8aa4ae3418acb, 0x5b9cca4f7763e373] ++
  [0x682e6ff3d6b2b8a3, 0x748f82ee5defb2fc, 0x78a5636f43172f60, 0x84c87814a1f0ab72, 0x8cc702081a6439ec] ++
  [0x90befffa23631e28, 0xa4506cebde82bde9, 0xbef9a3f7b2c67915, 0xc67178f2e372532b, 0xca273eceea26619c] ++
  [0xd186b8c721c0c207, 0xeada7dd6cde0eb1e, 0xf57d4f7fee6ed178, 0x06f067aa72176fba, 0x0a637dc5a2c898a6] ++
  [0x113f9804bef90dae, 0x1b710b35131c471b, 0x28db77f523047d84, 0x32caab7b40c72493, 0x3c9ebe0a15c9bebc] ++
  [0x431d67c49c100d4c, 0x4cc5d4becb3e42b6, 0x597f299cfc657e2a, 0x5fcb6fab3ad6faec, 0x6c44198c4a475817]

/-- The initial state of SHA-384 (FIPS 180-4): fractions of the square roots of the ninth to sixteenth primes. -/
def sha384Init : List (BitVec 64) :=
  [0xcbbb9d5dc1059ed8, 0x629a292a367cd507, 0x9159015a3070dd17, 0x152fecd8f70e5939] ++
  [0x67332667ffc00b31, 0x8eb44a8768581511, 0xdb0c2e0d64f98fa7, 0x47b5481dbefa4fa4]

/-- Rotate right. -/
def ror (x : BitVec 64) (n : Nat) : BitVec 64 := (x >>> n) ||| (x <<< (64 - n))

/-- Extend a block's 16 words to 80; the list is newest first. -/
def shaExtend : Nat → List (BitVec 64) → List (BitVec 64)
  | 0, w => w
  | n + 1, w =>
    let a := w.getD 14 0
    let b := w.getD 1 0
    let s0 := ror a 1 ^^^ ror a 8 ^^^ (a >>> 7)
    let s1 := ror b 19 ^^^ ror b 61 ^^^ (b >>> 6)
    shaExtend n ((w.getD 15 0 + s0 + w.getD 6 0 + s1) :: w)

/-- One round over the eight working words. -/
def shaRound (v : List (BitVec 64)) (k w : BitVec 64) : List (BitVec 64) :=
  match v with
  | [a, b, c, d, e, f, g, h] =>
    let t1 := h + (ror e 14 ^^^ ror e 18 ^^^ ror e 41) + ((e &&& f) ^^^ (~~~e &&& g)) + k + w
    let t2 := (ror a 28 ^^^ ror a 34 ^^^ ror a 39) + ((a &&& b) ^^^ (a &&& c) ^^^ (b &&& c))
    [t1 + t2, a, b, c, d + t1, e, f, g]
  | _ => v

/-- Compress one block of 128 bytes. -/
def shaBlock (h : List (BitVec 64)) (b : Bytes) : List (BitVec 64) :=
  let w := (List.range 16).map (fun i => BitVec.ofNat 64 (beNat (slice b (8 * i) 8)))
  let w := (shaExtend 64 w.reverse).reverse
  let v := (shaK.zip w).foldl (fun v kw => shaRound v kw.1 kw.2) h
  (h.zip v).map (fun p => p.1 + p.2)

/-- SHA-384. -/
def sha384 (b : Bytes) : Bytes :=
  let n := b.length
  let pad := b ++ [0x80] ++ List.replicate ((239 - n % 128) % 128) 0 ++ beBytes 16 (8 * n)
  let h := (chunks 128 (pad.length + 1) pad).foldl shaBlock sha384Init
  (h.take 6).flatMap (fun w => beBytes 8 w.toNat)

/-- HMAC-SHA-384 under a key of at most 128 bytes. -/
def hmac384 (key b : Bytes) : Bytes :=
  let k := slice key 0 128
  sha384 (k.map (· ^^^ 0x5C) ++ sha384 (k.map (· ^^^ 0x36) ++ b))

/-- HKDF-Expand, `n` blocks. -/
def hkdfExpand (prk info : Bytes) : Nat → Nat → Bytes → Bytes
  | 0, _, _ => []
  | n + 1, i, t =>
    let t := hmac384 prk (t ++ info ++ [BitVec.ofNat 8 i])
    t ++ hkdfExpand prk info n (i + 1) t

/-- HKDF-SHA-384 with the salt of R370, 48 zero bytes. -/
def hkdf (ikm info : Bytes) (len : Nat) : Bytes :=
  (hkdfExpand (hmac384 (List.replicate 48 0) ikm) info (cdiv len 48) 1 []).take len

/-! ## AES-256 -/

/-- Multiply by x in GF(2^8). -/
def xtime (a : Byte) : Byte := (a <<< 1) ^^^ (if a.msb then 0x1B else 0)

/-- Multiply in GF(2^8). -/
def gmul (a : Byte) : Nat → Byte → Byte
  | 0, _ => 0
  | n + 1, b => (if b.getLsbD 0 then a else 0) ^^^ gmul (xtime a) n (b >>> 1)

/-- The S-box as a table (FIPS 197), and its inverse. -/
def sboxTab : Bytes :=
  [0x63, 0x7c, 0x77, 0x7b, 0xf2, 0x6b, 0x6f, 0xc5, 0x30, 0x01, 0x67, 0x2b, 0xfe, 0xd7, 0xab, 0x76] ++
  [0xca, 0x82, 0xc9, 0x7d, 0xfa, 0x59, 0x47, 0xf0, 0xad, 0xd4, 0xa2, 0xaf, 0x9c, 0xa4, 0x72, 0xc0] ++
  [0xb7, 0xfd, 0x93, 0x26, 0x36, 0x3f, 0xf7, 0xcc, 0x34, 0xa5, 0xe5, 0xf1, 0x71, 0xd8, 0x31, 0x15] ++
  [0x04, 0xc7, 0x23, 0xc3, 0x18, 0x96, 0x05, 0x9a, 0x07, 0x12, 0x80, 0xe2, 0xeb, 0x27, 0xb2, 0x75] ++
  [0x09, 0x83, 0x2c, 0x1a, 0x1b, 0x6e, 0x5a, 0xa0, 0x52, 0x3b, 0xd6, 0xb3, 0x29, 0xe3, 0x2f, 0x84] ++
  [0x53, 0xd1, 0x00, 0xed, 0x20, 0xfc, 0xb1, 0x5b, 0x6a, 0xcb, 0xbe, 0x39, 0x4a, 0x4c, 0x58, 0xcf] ++
  [0xd0, 0xef, 0xaa, 0xfb, 0x43, 0x4d, 0x33, 0x85, 0x45, 0xf9, 0x02, 0x7f, 0x50, 0x3c, 0x9f, 0xa8] ++
  [0x51, 0xa3, 0x40, 0x8f, 0x92, 0x9d, 0x38, 0xf5, 0xbc, 0xb6, 0xda, 0x21, 0x10, 0xff, 0xf3, 0xd2] ++
  [0xcd, 0x0c, 0x13, 0xec, 0x5f, 0x97, 0x44, 0x17, 0xc4, 0xa7, 0x7e, 0x3d, 0x64, 0x5d, 0x19, 0x73] ++
  [0x60, 0x81, 0x4f, 0xdc, 0x22, 0x2a, 0x90, 0x88, 0x46, 0xee, 0xb8, 0x14, 0xde, 0x5e, 0x0b, 0xdb] ++
  [0xe0, 0x32, 0x3a, 0x0a, 0x49, 0x06, 0x24, 0x5c, 0xc2, 0xd3, 0xac, 0x62, 0x91, 0x95, 0xe4, 0x79] ++
  [0xe7, 0xc8, 0x37, 0x6d, 0x8d, 0xd5, 0x4e, 0xa9, 0x6c, 0x56, 0xf4, 0xea, 0x65, 0x7a, 0xae, 0x08] ++
  [0xba, 0x78, 0x25, 0x2e, 0x1c, 0xa6, 0xb4, 0xc6, 0xe8, 0xdd, 0x74, 0x1f, 0x4b, 0xbd, 0x8b, 0x8a] ++
  [0x70, 0x3e, 0xb5, 0x66, 0x48, 0x03, 0xf6, 0x0e, 0x61, 0x35, 0x57, 0xb9, 0x86, 0xc1, 0x1d, 0x9e] ++
  [0xe1, 0xf8, 0x98, 0x11, 0x69, 0xd9, 0x8e, 0x94, 0x9b, 0x1e, 0x87, 0xe9, 0xce, 0x55, 0x28, 0xdf] ++
  [0x8c, 0xa1, 0x89, 0x0d, 0xbf, 0xe6, 0x42, 0x68, 0x41, 0x99, 0x2d, 0x0f, 0xb0, 0x54, 0xbb, 0x16]
def sub (a : Byte) : Byte := sboxTab.getD a.toNat 0
def invSub (a : Byte) : Byte := BitVec.ofNat 8 (sboxTab.idxOf a)

/-- AES-256 key expansion: words newest first. -/
def aesExpand : Nat → Nat → Byte → List Bytes → List Bytes
  | 0, _, _, w => w
  | n + 1, i, rc, w =>
    let t := w.headD []
    let t := if i % 8 == 0 then
        match (t.drop 1 ++ t.take 1).map sub with
        | a :: l => (a ^^^ rc) :: l
        | [] => []
      else if i % 8 == 4 then t.map sub else t
    let t := ((w.getD 7 []).zip t).map (fun p => p.1 ^^^ p.2)
    aesExpand n (i + 1) (if i % 8 == 0 then xtime rc else rc) (t :: w)

/-- The fifteen round keys. -/
def aesKeys (key : Bytes) : List Bytes :=
  let w := (List.range 8).map (fun i => slice key (4 * i) 4)
  chunks 16 15 (aesExpand 52 8 1 w.reverse).reverse.flatten

/-- Exclusive or of byte strings. -/
def xorBytes (a b : Bytes) : Bytes := (a.zip b).map (fun p => p.1 ^^^ p.2)

/-- Shift rows, by `d` columns per row. -/
def shiftRows (d : Nat) (b : Bytes) : Bytes :=
  (List.range 16).map (fun i => b.getD ((i + d * 4 * (i % 4)) % 16) 0)

/-- Mix columns with a coefficient row. -/
def mixCols (c b : Bytes) : Bytes :=
  (List.range 16).map (fun i =>
    (List.range 4).foldl (fun r j => r ^^^ gmul (c.getD ((j + 4 - i % 4) % 4) 0) 8 (b.getD (i / 4 * 4 + j) 0)) 0)

/-- Encrypt one block. -/
def aesEnc (ks : List Bytes) (b : Bytes) : Bytes :=
  let b := xorBytes b (ks.getD 0 [])
  let b := ((ks.drop 1).take 13).foldl (fun b k => xorBytes (mixCols [2, 3, 1, 1] (shiftRows 1 (b.map sub))) k) b
  xorBytes (shiftRows 1 (b.map sub)) (ks.getD 14 [])

/-- Decrypt one block. -/
def aesDec (ks : List Bytes) (b : Bytes) : Bytes :=
  let b := (shiftRows 3 (xorBytes b (ks.getD 14 []))).map invSub
  let b := ((ks.drop 1).take 13).reverse.foldl
    (fun b k => (shiftRows 3 (mixCols [14, 11, 13, 9] (xorBytes b k))).map invSub) b
  xorBytes b (ks.getD 0 [])

/-! ## XTS -/

/-- Multiply a tweak by α. -/
def xtsNext (t : Bytes) : Bytes :=
  let v := leNat t * 2
  leBytes 16 (if v ≥ 2 ^ 128 then (v - 2 ^ 128) ^^^ 0x87 else v)

/-- One XTS block. -/
def xtsBlock (f : Bytes → Bytes) (t b : Bytes) : Bytes := xorBytes (f (xorBytes b t)) t

/-- XTS over a data unit of 16 bytes or more; the last two blocks are stolen from when the length is no multiple of 16.
`dec` swaps the last two tweaks. -/
def xtsRun (f : Bytes → Bytes) (dec : Bool) : Nat → Bytes → Bytes → Bytes
  | 0, _, _ => []
  | n + 1, t, b =>
    if b.length ≤ 16 then xtsBlock f t b
    else if b.length < 32 then
      let m := b.length - 16
      let t' := xtsNext t
      let c := xtsBlock f (if dec then t' else t) (b.take 16)
      let last := xtsBlock f (if dec then t else t') (b.drop 16 ++ c.drop m)
      last ++ c.take m
    else xtsBlock f t (b.take 16) ++ xtsRun f dec n (xtsNext t) (b.drop 16)

/-- AES-256-XTS encryption of a data unit under a 64-byte key and a tweak (R372). -/
def xtsEnc (key : Bytes) (tweak : Nat) (b : Bytes) : Bytes :=
  let t := aesEnc (aesKeys (slice key 32 32)) (leBytes 16 tweak)
  xtsRun (aesEnc (aesKeys (slice key 0 32))) false b.length t b

/-- AES-256-XTS decryption. -/
def xtsDec (key : Bytes) (tweak : Nat) (b : Bytes) : Bytes :=
  let t := aesEnc (aesKeys (slice key 32 32)) (leBytes 16 tweak)
  xtsRun (aesDec (aesKeys (slice key 0 32))) true b.length t b

/-! ## Keys and tweaks -/

/-- An ASCII label. -/
def label (s : String) : Bytes := s.toList.map (fun c => BitVec.ofNat 8 c.toNat)

/-- A tenant-derived XTS key (Table 15.1). -/
def tenantXts (k : Bytes) (l : String) : Bytes := hkdf k (label l) 64

/-- The key check value of a tenant key, as the u32 that carries it. -/
def kcvOf (k : Bytes) : Nat := leNat (hkdf k (label "yudar kcv") 4)

/-- Tweak of a page leaving T1 (Table 15.2). -/
def pageTweak (gen page dev fill : Nat) : Nat := gen + page * 2 ^ 32 + dev * 2 ^ 72 + fill * 2 ^ 92

/-- Tweak of a shelf object other than a page. -/
def objectTweak (acc alive kind number : Nat) : Nat := acc + alive * 2 ^ 64 + kind * 2 ^ 96 + (number % 2 ^ 24) * 2 ^ 104

/-! ## GMAC (R312, R373) -/

/-- Product in GF(2^128) as GCM counts bits: bit 0 is the most significant of the first byte. -/
def ghMul (x y : Nat) : Nat :=
  ((List.range 128).foldl (fun (a : Nat × Nat) i =>
    let z := if x.testBit (127 - i) then a.1 ^^^ a.2 else a.1
    (z, if a.2 % 2 == 1 then a.2 / 2 ^^^ (0xE1 * 2 ^ 120) else a.2 / 2)) (0, y)).1

/-- GHASH of whole 16-byte blocks under a subkey. -/
def ghash (h : Nat) (b : Bytes) : Nat :=
  (chunks 16 (b.length / 16 + 1) b).foldl (fun y c => ghMul (y ^^^ beNat (slice c 0 16)) h) 0

/-- The AES-256-GCM tag over additional data alone, with a 12-byte nonce. -/
def gmac (key nonce aad : Bytes) : Bytes :=
  let ks := aesKeys key
  let h := beNat (aesEnc ks (List.replicate 16 0))
  let pad := List.replicate ((16 - aad.length % 16) % 16) (0 : Byte)
  let g := ghash h (aad ++ pad ++ beBytes 8 (8 * aad.length) ++ beBytes 8 0)
  xorBytes (beBytes 16 g) (aesEnc ks (nonce ++ [0, 0, 0, 1]))

/-- AES-256 in counter mode from a 16-byte block whose last four bytes count (GCM); `fuel` bounds the blocks. -/
def ctrRun (nonce : Bytes) (keys : List Bytes) : Nat → Nat → Bytes → Bytes
  | 0, _, _ => []
  | f + 1, c, b =>
    if b.isEmpty then [] else xorBytes b (aesEnc keys (nonce ++ beBytes 4 c)) ++ ctrRun nonce keys f (c + 1) (b.drop 16)

/-- The AES-256-GCM tag over additional data and ciphertext. -/
def gcmTag (key nonce aad cipher : Bytes) : Bytes :=
  let ks := aesKeys key
  let pad := fun (b : Bytes) => b ++ List.replicate ((16 - b.length % 16) % 16) (0 : Byte)
  let g := ghash (beNat (aesEnc ks (List.replicate 16 0))) (pad aad ++ pad cipher ++ beBytes 8 (8 * aad.length) ++ beBytes 8 (8 * cipher.length))
  xorBytes (beBytes 16 g) (aesEnc ks (nonce ++ [0, 0, 0, 1]))

/-- AES-256-GCM encryption or decryption of the text alone: both are the same exclusive or. -/
def gcmText (key nonce b : Bytes) : Bytes := ctrRun nonce (aesKeys key) (b.length / 16 + 1) 2 b

end Sys2Proof.Machine
end

