-- ==== Sys2Proof/Machine/SlipTable.lean ====
section
/-!
DEFINITION. The opcode table of the call slips (Table 2.8): which contexts may send an opcode, which opcodes the device
only sends (D), which accept ERROR_REPLY_ONLY (E), which return data (R53), and the command an accepted slip runs as.
-/

namespace Sys2Proof.Machine

/-- A row of Table 2.8.  `ctxs` has one bit per context code: 1 T, 2 O, 4 M, 8 P, 16 W, 32 K. -/
structure OpRow where
  op : Nat
  ctxs : Nat
  /-- sent by the device only (D) -/
  sent : Bool
  /-- ERROR_REPLY_ONLY accepted (E) -/
  quiet : Bool
  /-- returns data under OUT_LOC and OUT_CAP -/
  data : Bool
  deriving DecidableEq, Repr

/-- Table 2.8, part 1. -/
def opRows1 : List OpRow :=
  [ ⟨0x0000, 63, false, false, false⟩  -- NOP
  , ⟨0x0001, 31, false, false, false⟩  -- HELLO
  , ⟨0x0002, 63, false, false, true⟩  -- IDENTIFY
  , ⟨0x0003, 31, false, false, true⟩  -- ECHO
  , ⟨0x0400, 7, false, false, false⟩  -- SESS_ACCESSION
  , ⟨0x0401, 39, false, false, false⟩  -- SESS_CLOSE
  , ⟨0x0402, 15, false, false, true⟩  -- SESS_QUERY
  , ⟨0x0403, 7, false, false, false⟩  -- SESS_FORK
  , ⟨0x0404, 7, false, false, false⟩  -- SESS_GENERATE
  , ⟨0x0405, 7, false, false, false⟩  -- SESS_CANCEL
  , ⟨0x0406, 7, false, false, false⟩  -- SESS_SET_MASK
  , ⟨0x0407, 7, false, false, false⟩  -- SESS_SET_TTL
  , ⟨0x0408, 39, false, false, false⟩  -- SESS_PARK
  , ⟨0x0409, 7, false, false, false⟩  -- SESS_REVIVE
  , ⟨0x040A, 7, false, false, false⟩  -- SESS_ATTACH_RING
  , ⟨0x0410, 8, false, false, false⟩  -- SESS_MOVE_OFFER
  , ⟨0x0411, 8, false, false, false⟩  -- SESS_MOVE_COMMIT
  , ⟨0x0800, 7, false, false, false⟩  -- TEXT_APPEND
  , ⟨0x0801, 7, false, false, false⟩  -- TEXT_APPEND_TOKENS
  , ⟨0x0802, 7, false, false, true⟩  -- TEXT_TOKENISE
  , ⟨0x0803, 7, false, false, true⟩  -- TEXT_DETOKENISE
  , ⟨0x0804, 15, false, false, true⟩  -- TEXT_TRANSCRIPT_READ
  , ⟨0x0C00, 7, false, false, false⟩  -- SAMP_SET
  , ⟨0x0C01, 7, false, false, false⟩  -- SAMP_SET_STOPS
  , ⟨0x0C02, 7, false, false, false⟩  -- GRAM_ATTACH
  ]

/-- Table 2.8, part 2. -/
def opRows2 : List OpRow :=
  [ ⟨0x0C03, 7, false, false, false⟩  -- GRAM_DETACH
  , ⟨0x1000, 38, false, false, false⟩  -- TIER_SET_QUOTA
  , ⟨0x1001, 6, false, false, true⟩  -- TIER_QUERY
  , ⟨0x1002, 2, false, false, false⟩  -- TIER_LEND_HOST
  , ⟨0x1003, 2, false, false, false⟩  -- TIER_RECLAIM_HOST
  , ⟨0x1010, 8, false, false, false⟩  -- TIER_SHELF_PUT
  , ⟨0x1011, 8, false, false, true⟩  -- TIER_SHELF_GET
  , ⟨0x1012, 8, false, false, false⟩  -- TIER_SHELF_DROP
  , ⟨0x1400, 7, false, false, false⟩  -- VEC_CREATE
  , ⟨0x1401, 7, false, false, false⟩  -- VEC_DROP
  , ⟨0x1402, 7, false, false, false⟩  -- VEC_INSERT
  , ⟨0x1403, 7, false, false, false⟩  -- VEC_DELETE
  , ⟨0x1404, 7, false, false, true⟩  -- VEC_SEARCH
  , ⟨0x1405, 7, false, false, false⟩  -- VEC_COMPACT
  , ⟨0x1406, 7, false, false, false⟩  -- VEC_SET_CENTROIDS
  , ⟨0x1410, 8, false, false, true⟩  -- VEC_SHARD_SEARCH
  , ⟨0x1800, 15, false, false, true⟩  -- CAT_LOOKUP
  , ⟨0x1801, 14, false, false, true⟩  -- CAT_MAP_FETCH
  , ⟨0x1810, 40, false, false, false⟩  -- CAT_PROPOSE
  , ⟨0x1811, 8, false, false, false⟩  -- CAT_VOTE
  , ⟨0x1812, 8, false, false, false⟩  -- CAT_COMMIT
  , ⟨0x1813, 12, false, false, false⟩  -- CAT_JOIN
  , ⟨0x1814, 44, false, false, false⟩  -- CAT_LEAVE
  , ⟨0x1815, 8, false, false, false⟩  -- CAT_LOCATE
  , ⟨0x1C00, 38, false, false, false⟩  -- CKPT_TAKE
  ]

/-- Table 2.8, part 3. -/
def opRows3 : List OpRow :=
  [ ⟨0x1C01, 38, false, false, true⟩  -- CKPT_QUERY
  , ⟨0x1C02, 36, false, false, false⟩  -- CKPT_RESTORE
  , ⟨0x1C03, 6, false, false, false⟩  -- CKPT_SET_TRIGGERS
  , ⟨0x1C10, 8, false, false, false⟩  -- CKPT_MIRROR_PUT
  , ⟨0x1C11, 8, false, false, true⟩  -- CKPT_MIRROR_GET
  , ⟨0x2000, 38, false, false, false⟩  -- CHK_CRC
  , ⟨0x2001, 38, false, false, false⟩  -- CHK_SCAN
  , ⟨0x2002, 6, false, false, true⟩  -- CHK_XTS_ENC
  , ⟨0x2003, 6, false, false, true⟩  -- CHK_XTS_DEC
  , ⟨0x2400, 6, false, false, false⟩  -- SCHED_SET_TENANT
  , ⟨0x2401, 7, false, false, true⟩  -- SCHED_QUERY_TENANT
  , ⟨0x2402, 6, false, false, false⟩  -- SCHED_SET_SHAPER
  , ⟨0x2403, 6, false, false, false⟩  -- SCHED_SET_POLICER
  , ⟨0x2410, 0, true, true, false⟩  -- RING_PUSH
  , ⟨0x2411, 3, false, true, false⟩  -- RING_CONSUMED
  , ⟨0x2420, 0, true, true, false⟩  -- XCHG_EMBED
  , ⟨0x2421, 16, false, true, false⟩  -- XCHG_LAYER
  , ⟨0x2422, 0, true, true, false⟩  -- XCHG_LAYER_REPLY
  , ⟨0x2423, 16, false, true, false⟩  -- XCHG_FINAL
  , ⟨0x2800, 36, false, false, false⟩  -- SEC_PRINCIPAL_ENROL
  , ⟨0x2801, 36, false, false, false⟩  -- SEC_PRINCIPAL_REVOKE
  , ⟨0x2802, 6, false, false, false⟩  -- SEC_TENANT_STATUS
  , ⟨0x2803, 36, false, false, false⟩  -- SEC_TENANT_ERASE
  , ⟨0x2804, 4, false, false, false⟩  -- SEC_CONF_HOST
  , ⟨0x2805, 4, false, false, false⟩  -- SEC_DEBUG_UNLOCK
  ]

/-- Table 2.8, part 4. -/
def opRows4 : List OpRow :=
  [ ⟨0x2806, 4, false, false, false⟩  -- SEC_FUSE_PROGRAM
  , ⟨0x2C00, 38, false, false, false⟩  -- MAINT_LOCK
  , ⟨0x2C01, 38, false, false, false⟩  -- MAINT_UNLOCK
  , ⟨0x2C02, 6, false, false, false⟩  -- MAINT_BUNDLE_LOAD
  , ⟨0x2C03, 4, false, false, false⟩  -- MAINT_FW_UPDATE
  , ⟨0x2C04, 4, false, false, false⟩  -- MAINT_FW_ROLLBACK
  , ⟨0x2C05, 38, false, false, false⟩  -- MAINT_PATROL
  , ⟨0x2C06, 38, false, false, false⟩  -- MAINT_RETRAIN
  , ⟨0x2C07, 36, false, false, false⟩  -- MAINT_ROW_REPAIR
  , ⟨0x2C08, 38, false, false, false⟩  -- MAINT_RESET
  , ⟨0x2C09, 36, false, false, false⟩  -- MAINT_UNIT_DISABLE
  , ⟨0xFC00, 4, false, false, false⟩  -- DIAG_INJECT
  , ⟨0xFC01, 4, false, false, true⟩  -- DIAG_TRACE
  ]

/-- Table 2.8. -/
def opRows : List OpRow := opRows1 ++ opRows2 ++ opRows3 ++ opRows4

/-- The row of an opcode; none when it is unknown. -/
def opRow (op : Nat) : Option OpRow := opRows.find? (fun r => r.op == op)

/-! Opcodes by name. -/

namespace Op
def NOP : Nat := 0x0000
def HELLO : Nat := 0x0001
def IDENTIFY : Nat := 0x0002
def ECHO : Nat := 0x0003
def SESS_ACCESSION : Nat := 0x0400
def SESS_CLOSE : Nat := 0x0401
def SESS_QUERY : Nat := 0x0402
def SESS_FORK : Nat := 0x0403
def SESS_GENERATE : Nat := 0x0404
def SESS_CANCEL : Nat := 0x0405
def SESS_SET_MASK : Nat := 0x0406
def SESS_SET_TTL : Nat := 0x0407
def SESS_PARK : Nat := 0x0408
def SESS_REVIVE : Nat := 0x0409
def SESS_ATTACH_RING : Nat := 0x040A
def SESS_MOVE_OFFER : Nat := 0x0410
def SESS_MOVE_COMMIT : Nat := 0x0411
def TEXT_APPEND : Nat := 0x0800
def TEXT_APPEND_TOKENS : Nat := 0x0801
def TEXT_TOKENISE : Nat := 0x0802
def TEXT_DETOKENISE : Nat := 0x0803
def TEXT_TRANSCRIPT_READ : Nat := 0x0804
def SAMP_SET : Nat := 0x0C00
def SAMP_SET_STOPS : Nat := 0x0C01
def GRAM_ATTACH : Nat := 0x0C02
def GRAM_DETACH : Nat := 0x0C03
def TIER_SET_QUOTA : Nat := 0x1000
def TIER_QUERY : Nat := 0x1001
def TIER_LEND_HOST : Nat := 0x1002
def TIER_RECLAIM_HOST : Nat := 0x1003
def TIER_SHELF_PUT : Nat := 0x1010
def TIER_SHELF_GET : Nat := 0x1011
def TIER_SHELF_DROP : Nat := 0x1012
def VEC_CREATE : Nat := 0x1400
def VEC_DROP : Nat := 0x1401
def VEC_INSERT : Nat := 0x1402
def VEC_DELETE : Nat := 0x1403
def VEC_SEARCH : Nat := 0x1404
def VEC_COMPACT : Nat := 0x1405
def VEC_SET_CENTROIDS : Nat := 0x1406
def VEC_SHARD_SEARCH : Nat := 0x1410
def CAT_LOOKUP : Nat := 0x1800
def CAT_MAP_FETCH : Nat := 0x1801
def CAT_PROPOSE : Nat := 0x1810
def CAT_VOTE : Nat := 0x1811
def CAT_COMMIT : Nat := 0x1812
def CAT_JOIN : Nat := 0x1813
def CAT_LEAVE : Nat := 0x1814
def CAT_LOCATE : Nat := 0x1815
def CKPT_TAKE : Nat := 0x1C00
def CKPT_QUERY : Nat := 0x1C01
def CKPT_RESTORE : Nat := 0x1C02
def CKPT_SET_TRIGGERS : Nat := 0x1C03
def CKPT_MIRROR_PUT : Nat := 0x1C10
def CKPT_MIRROR_GET : Nat := 0x1C11
def CHK_CRC : Nat := 0x2000
def CHK_SCAN : Nat := 0x2001
def CHK_XTS_ENC : Nat := 0x2002
def CHK_XTS_DEC : Nat := 0x2003
def SCHED_SET_TENANT : Nat := 0x2400
def SCHED_QUERY_TENANT : Nat := 0x2401
def SCHED_SET_SHAPER : Nat := 0x2402
def SCHED_SET_POLICER : Nat := 0x2403
def RING_PUSH : Nat := 0x2410
def RING_CONSUMED : Nat := 0x2411
def XCHG_EMBED : Nat := 0x2420
def XCHG_LAYER : Nat := 0x2421
def XCHG_LAYER_REPLY : Nat := 0x2422
def XCHG_FINAL : Nat := 0x2423
def SEC_PRINCIPAL_ENROL : Nat := 0x2800
def SEC_PRINCIPAL_REVOKE : Nat := 0x2801
def SEC_TENANT_STATUS : Nat := 0x2802
def SEC_TENANT_ERASE : Nat := 0x2803
def SEC_CONF_HOST : Nat := 0x2804
def SEC_DEBUG_UNLOCK : Nat := 0x2805
def SEC_FUSE_PROGRAM : Nat := 0x2806
def MAINT_LOCK : Nat := 0x2C00
def MAINT_UNLOCK : Nat := 0x2C01
def MAINT_BUNDLE_LOAD : Nat := 0x2C02
def MAINT_FW_UPDATE : Nat := 0x2C03
def MAINT_FW_ROLLBACK : Nat := 0x2C04
def MAINT_PATROL : Nat := 0x2C05
def MAINT_RETRAIN : Nat := 0x2C06
def MAINT_ROW_REPAIR : Nat := 0x2C07
def MAINT_RESET : Nat := 0x2C08
def MAINT_UNIT_DISABLE : Nat := 0x2C09
def DIAG_INJECT : Nat := 0xFC00
def DIAG_TRACE : Nat := 0xFC01
end Op

/-- The command a slip runs as: its opcode's row, and where several rows share an opcode the one its operation bits name.
Device-sent opcodes run as nothing here. -/
def slipInstr (op : Nat) (x : Slip) : Option Instr :=
  if op < 0x1801 then
    if op < 0x0804 then
      if op < 0x0406 then
        if op < 0x0401 then
          if op < 0x0002 then
            if op == 0x0000 then some (.NOP x) else
            if op == 0x0001 then some (.HELLO x) else
            none
          else
            if op == 0x0002 then some (.IDENTIFY x) else
            if op == 0x0003 then some (.ECHO x) else
            if op == 0x0400 then some (.SESS_ACCESSION x) else
            none
        else
          if op < 0x0403 then
            if op == 0x0401 then some (.SESS_CLOSE x) else
            if op == 0x0402 then some (.SESS_QUERY x) else
            none
          else
            if op == 0x0403 then some (.SESS_FORK x) else
            if op == 0x0404 then some (.SESS_GENERATE x) else
            if op == 0x0405 then some (.SESS_CANCEL x) else
            none
      else
        if op < 0x0410 then
          if op < 0x0408 then
            if op == 0x0406 then some (.SESS_SET_MASK x) else
            if op == 0x0407 then some (.SESS_SET_TTL x) else
            none
          else
            if op == 0x0408 then some (.SESS_PARK x) else
            if op == 0x0409 then some (.SESS_REVIVE x) else
            if op == 0x040A then some (.SESS_ATTACH_RING x) else
            none
        else
          if op < 0x0801 then
            if op == 0x0410 then some (.SESS_MOVE_OFFER x) else
            if op == 0x0411 then some (.SESS_MOVE_COMMIT x) else
            if op == 0x0800 then some (.TEXT_APPEND x) else
            none
          else
            if op == 0x0801 then some (.TEXT_APPEND_TOKENS x) else
            if op == 0x0802 then some (.TEXT_TOKENISE x) else
            if op == 0x0803 then some (.TEXT_DETOKENISE x) else
            none
    else
      if op < 0x1011 then
        if op < 0x1000 then
          if op < 0x0C01 then
            if op == 0x0804 then some (.TEXT_TRANSCRIPT_READ x) else
            if op == 0x0C00 then some (.SAMP_SET x) else
            none
          else
            if op == 0x0C01 then some (.SAMP_SET_STOPS x) else
            if op == 0x0C02 then some (.GRAM_ATTACH x) else
            if op == 0x0C03 then some (.GRAM_DETACH x) else
            none
        else
          if op < 0x1002 then
            if op == 0x1000 then some (.TIER_SET_QUOTA x) else
            if op == 0x1001 then some (.TIER_QUERY x) else
            none
          else
            if op == 0x1002 then some (.TIER_LEND_HOST x) else
            if op == 0x1003 then some (.TIER_RECLAIM_HOST x) else
            if op == 0x1010 then some (.TIER_SHELF_PUT x) else
            none
      else
        if op < 0x1403 then
          if op < 0x1400 then
            if op == 0x1011 then some (.TIER_SHELF_GET x) else
            if op == 0x1012 then some (.TIER_SHELF_DROP x) else
            none
          else
            if op == 0x1400 then some (.VEC_CREATE x) else
            if op == 0x1401 then some (.VEC_DROP x) else
            if op == 0x1402 then some (.VEC_INSERT x) else
            none
        else
          if op < 0x1406 then
            if op == 0x1403 then some (.VEC_DELETE x) else
            if op == 0x1404 then some (.VEC_SEARCH x) else
            if op == 0x1405 then some (.VEC_COMPACT x) else
            none
          else
            if op == 0x1406 then some (.VEC_SET_CENTROIDS x) else
            if op == 0x1410 then some (.VEC_SHARD_SEARCH x) else
            if op == 0x1800 then some (.CAT_LOOKUP x) else
            none
  else
    if op < 0x2411 then
      if op < 0x1C03 then
        if op < 0x1814 then
          if op < 0x1811 then
            if op == 0x1801 then some (.CAT_MAP_FETCH x) else
            if op == 0x1810 then some (if bitsOf x.p1.toNat 0 0 == 0 then .CAT_PROPOSE_CLAIM x else .CAT_PROPOSE_ACCEPT x) else
            none
          else
            if op == 0x1811 then some (.CAT_VOTE x) else
            if op == 0x1812 then some (.CAT_COMMIT x) else
            if op == 0x1813 then some (.CAT_JOIN x) else
            none
        else
          if op < 0x1C00 then
            if op == 0x1814 then some (if bitsOf x.p0.toNat 1 0 == 0 then .CAT_LEAVE x else if bitsOf x.p0.toNat 1 0 == 1 then .CAT_LEAVE_FINAL x else if bitsOf x.p0.toNat 1 0 == 2 then .CAT_LEAVE_SUSPECT x else .CAT_LEAVE x) else
            if op == 0x1815 then some (if bitsOf x.p0.toNat 1 0 == 0 then .CAT_LOCATE_QUERY x else if bitsOf x.p0.toNat 1 0 == 1 then .CAT_LOCATE_REGISTER x else if bitsOf x.p0.toNat 1 0 == 2 then .CAT_LOCATE_REMOVE x else .CAT_LOCATE_TRANSFER x) else
            none
          else
            if op == 0x1C00 then some (.CKPT_TAKE x) else
            if op == 0x1C01 then some (.CKPT_QUERY x) else
            if op == 0x1C02 then some (.CKPT_RESTORE x) else
            none
      else
        if op < 0x2002 then
          if op < 0x1C11 then
            if op == 0x1C03 then some (.CKPT_SET_TRIGGERS x) else
            if op == 0x1C10 then some (.CKPT_MIRROR_PUT x) else
            none
          else
            if op == 0x1C11 then some (.CKPT_MIRROR_GET x) else
            if op == 0x2000 then some (.CHK_CRC x) else
            if op == 0x2001 then some (.CHK_SCAN x) else
            none
        else
          if op < 0x2401 then
            if op == 0x2002 then some (.CHK_XTS_ENC x) else
            if op == 0x2003 then some (.CHK_XTS_DEC x) else
            if op == 0x2400 then some (.SCHED_SET_TENANT x) else
            none
          else
            if op == 0x2401 then some (.SCHED_QUERY_TENANT x) else
            if op == 0x2402 then some (.SCHED_SET_SHAPER x) else
            if op == 0x2403 then some (.SCHED_SET_POLICER x) else
            none
    else
      if op < 0x2C01 then
        if op < 0x2802 then
          if op < 0x2423 then
            if op == 0x2411 then some (.RING_CONSUMED x) else
            if op == 0x2421 then some (.XCHG_LAYER x) else
            none
          else
            if op == 0x2423 then some (.XCHG_FINAL x) else
            if op == 0x2800 then some (.SEC_PRINCIPAL_ENROL x) else
            if op == 0x2801 then some (.SEC_PRINCIPAL_REVOKE x) else
            none
        else
          if op < 0x2805 then
            if op == 0x2802 then some (.SEC_TENANT_STATUS x) else
            if op == 0x2803 then some (.SEC_TENANT_ERASE x) else
            if op == 0x2804 then some (.SEC_CONF_HOST x) else
            none
          else
            if op == 0x2805 then some (.SEC_DEBUG_UNLOCK x) else
            if op == 0x2806 then some (.SEC_FUSE_PROGRAM x) else
            if op == 0x2C00 then some (.MAINT_LOCK x) else
            none
      else
        if op < 0x2C06 then
          if op < 0x2C03 then
            if op == 0x2C01 then some (.MAINT_UNLOCK x) else
            if op == 0x2C02 then some (if bitsOf x.p0.toNat 1 0 == 0 then .BUNDLE_LOAD_BEGIN x else if bitsOf x.p0.toNat 1 0 == 1 then .BUNDLE_LOAD_DATA x else if bitsOf x.p0.toNat 1 0 == 2 then .BUNDLE_LOAD_END x else .BUNDLE_UNLOAD x) else
            none
          else
            if op == 0x2C03 then some (if bitsOf x.p1.toNat 1 1 == 0 then .MAINT_FW_UPDATE x else .MAINT_FW_ACTIVATE x) else
            if op == 0x2C04 then some (.MAINT_FW_ROLLBACK x) else
            if op == 0x2C05 then some (.MAINT_PATROL x) else
            none
        else
          if op < 0x2C09 then
            if op == 0x2C06 then some (.MAINT_RETRAIN x) else
            if op == 0x2C07 then some (.MAINT_ROW_REPAIR x) else
            if op == 0x2C08 then some (if bitsOf x.p0.toNat 1 0 == 0 then .MAINT_RESET_UNIT x else if bitsOf x.p0.toNat 1 0 == 1 then .MAINT_RESET_CLUSTER x else if bitsOf x.p0.toNat 1 0 == 2 then .MAINT_RESET_PARTITION x else .MAINT_RESET_DEVICE x) else
            none
          else
            if op == 0x2C09 then some (.MAINT_UNIT_DISABLE x) else
            if op == 0xFC00 then some (.DIAG_INJECT x) else
            if op == 0xFC01 then some (if bitsOf x.p0.toNat 1 0 == 0 then .DIAG_TRACE_STOP x else if bitsOf x.p0.toNat 1 0 == 1 then .DIAG_TRACE_START x else if bitsOf x.p0.toNat 1 0 == 2 then .DIAG_TRACE_READ x else .DIAG_TRACE_READ x) else
            none

end Sys2Proof.Machine
end

