-- ==== Sys2Proof/Machine/NetFrame.lean ====
section
/-!
DEFINITION. How everything the device sends over the network leaves it: messages, packets, credit, spraying and port
queues (R270-R281, R465), shared by every command that sends a slip or a reply.
-/

namespace Sys2Proof.Machine

/-- The sending side of a context just opened: CREDIT_LIMIT is the guaranteed 4 units (R279). -/
def PeerTx.fresh : PeerTx :=
  { psn := 0, msgId := 0, txc := 0, cum := 0, waiting := [], msgs := [], queue := [], flight := [], used := 0,
    limit := 4, rto := 100, timeouts := 0, rate := 0, ceiling := 0, step := 0, lastCut := none, cnpSeen := false }

/-- The receiving side of a context just opened. -/
def PeerRx.fresh : PeerRx :=
  { expect := 0, got := [], parts := [], msgId := 0, complete := [], unacked := 0, ackSince := 0, granted := 4, seen := 0,
    held := 0, heard := 0, sub := 0, cnp := none }

/-- A network peer context's record; one never provisioned has the reset values of Table 11.13. -/
def Peer.fresh : Peer :=
  { valid := false, kind := 0, trusted := false, ipv4 := false, tenant := 0, port := 17580, addrLo := 0, addrHi := 0,
    weight := 1, state := 0, remote := 0, since := 0, leaf := [], dev := 0, tx := PeerTx.fresh, rx := PeerRx.fresh, idle := 0, prov := 0 }

/-- A network peer context's record. -/
def State.peer (s : State) (p : Nat) : Peer := (tGet s.peers p).getD Peer.fresh

/-- Store a network peer context's record. -/
def State.setPeer (s : State) (p : Nat) (v : Peer) : State := { s with peers := tPut s.peers p v }

/-- Change a network peer context's record. -/
def State.updPeer (s : State) (p : Nat) (f : Peer → Peer) : State := s.setPeer p (f (s.peer p))

/-- A port at reset: mode 0, every sub-port down. -/
def Port.fresh : Port :=
  { mode := 0, up := [false, false, false, false], pauses := [], pfcOff := [], rot := 0, queue := [], classTag := [],
    peerTag := [], vtime := 0, hops := [] }

/-- A port's record. -/
def State.port (s : State) (p : Nat) : Port := (tGet s.ports p).getD Port.fresh

/-- Store a port's record. -/
def State.setPort (s : State) (p : Nat) (v : Port) : State := { s with ports := tPut s.ports p v }

/-! ## Ports and sub-ports (R268-R272) -/

/-- Sub-ports of a mode (Table 11.1). -/
def subCount (mode : Nat) : Nat := if mode == 0 then 1 else if mode == 1 then 2 else if mode == 2 then 4 else 0

/-- Rate of one sub-port of a mode, Gb/s. -/
def subRate (mode : Nat) : Nat := if mode == 0 then 800 else if mode == 1 then 400 else if mode == 2 then 200 else 0

/-- Is a sub-port's link up? -/
def Port.subUp (p : Port) (k : Nat) : Bool := k < subCount p.mode && p.up.getD k false

/-- Is a class paused on a sub-port at a time (R271)?  Only with VLAN_EN, and not while the watchdog holds PFC off. -/
def State.classPaused (s : State) (p k cls : Nat) : Bool :=
  let v := s.port p
  s.flag (F.NET_PORT_VLAN_EN.at (8 * p)) && v.pauses.any (fun z => z.1 == k && z.2.1 == cls && s.tick < z.2.2.1)
    && !(v.pfcOff.any (fun z => z.1 == k && z.2.1 == cls && s.tick < z.2.2))

/-- LINE (R280), in 1/256 Gb/s: the sum of the rates of the sub-ports that are up. -/
def State.lineRate (s : State) : Nat :=
  (s.ports.map (fun p => ((List.range 4).filter (fun k => p.2.subUp k)).length * subRate p.2.mode * 256)).foldl (· + ·) 0

/-- Bytes of a class queued at a port. -/
def Port.classBytes (p : Port) (cls : Nat) : Nat :=
  ((p.queue.filter (fun f => f.cls == cls)).map (·.len)).foldl (· + ·) 0

/-- Does sub-port `k` (port × 4 + sub) qualify for a DATA packet of a class (R278)? -/
def State.sprayOk (s : State) (cls k : Nat) : Bool :=
  let p := s.port (k / 4)
  p.subUp (k % 4) && !s.classPaused (k / 4) (k % 4) cls && p.classBytes cls ≤ s.fld F.NET_CREDIT_SPRAY_SKIP

/-- The next qualifying sub-port in rotation, `avoid` last. -/
def State.spraySub (s : State) (cls : Nat) (avoid : Option Nat) : Option Nat :=
  let order := (List.range 32).map (fun i => (s.spray + i) % 32)
  let ok := order.filter (fun k => s.sprayOk cls k)
  match ok.find? (fun k => some k != avoid) with
  | some k => some k
  | none => ok.head?

/-- Length of the frame of a packet: Ethernet with its optional tag, IP, UDP, Praol header, payload, authentication tag,
FCS (R273, R243). -/
def State.frameLen (s : State) (port peer pay : Nat) : Nat :=
  14 + (if s.flag (F.NET_PORT_VLAN_EN.at (8 * port)) then 4 else 0) + (if (s.peer peer).ipv4 then 20 else 40) + 8 + 40
    + pay + 16 + 4

/-- Key of a peer queue's finish tag, and of the virtual time of a class's peer queues, within a port. -/
def peerTagKey (cls peer : Nat) : Nat := cls * 8192 + peer
def classTimeKey (cls : Nat) : Nat := cls * 8192 + 8191

/-- Put a frame on a port's queue.  A class, or a peer queue of a class, that was empty restarts from the virtual time, so that
idleness earns nothing (R242). -/
def State.queueFrame (s : State) (port : Nat) (f : Frame) : State :=
  let p := s.port port
  let ct := if p.queue.any (fun g => g.cls == f.cls) then p.classTag
            else tPut p.classTag f.cls (max ((tGet p.classTag f.cls).getD 0) p.vtime)
  let k := peerTagKey f.cls f.peer
  let pt := if p.queue.any (fun g => g.cls == f.cls && g.peer == f.peer) then p.peerTag
            else tPut p.peerTag k (max ((tGet p.peerTag k).getD 0) ((tGet p.peerTag (classTimeKey f.cls)).getD 0))
  s.setPort port { p with queue := p.queue ++ [f], classTag := ct, peerTag := pt }

/-- UDP ports of a packet (R270, R278): a DATA packet's source port spreads by its PSN, any other's is SPORT_BASE (log entry 54). -/
def State.udpPorts (s : State) (peer : Nat) (k : Pkt) : Nat × Nat :=
  (s.fld F.NET_PRAOL_SPORT_BASE + (if k.type == 0 then k.psn % 64 else 0), (s.peer peer).port)

/-- Seal and queue one packet of a context: TXC increments for every packet sent (R274), and the key generation after every
2^32 of them (R383).  A context is idle while it sends and receives no DATA (R282, log entry 26). -/
def State.sendPkt (s : State) (port sub peer tenant : Nat) (k : Pkt) : State :=
  let v := s.peer peer
  let k := { k with keygen := v.tx.txc / 2 ^ 32 % 2 ^ 16, txc := v.tx.txc, dst := v.remote, src := peer }
  let s := s.setPeer peer { v with tx := { v.tx with txc := v.tx.txc + 1 }, idle := if k.type == 0 then s.tick else v.idle }
  (s.queueFrame port { udp := s.udpPorts peer k, sub := sub, since := s.tick, cls := k.cls, peer := peer, tenant := tenant, len := s.frameLen port peer k.payload.length,
                       pkt := some k, body := [] }).bump F.NET_CNT_TX_COUNT

/-- A control packet of a context, on the sub-port last received on (R278). -/
def State.sendControl (s : State) (peer type : Nat) (payload : Bytes) : State :=
  s.sendPkt ((s.peer peer).rx.sub / 4) ((s.peer peer).rx.sub % 4) peer 0xFFFF
    { type := type, first := false, last := false, retx := false, cls := 6, dst := peer, src := peer, psn := 0,
      msgId := 0, offset := 0, msgLen := 0, keygen := 0, txc := 0, payload := payload }

/-- Credit units of a DATA packet (R279). -/
def creditUnits (n : Nat) : Nat := cdiv n 4096

/-- Payload bytes of a DATA packet to a context (R275), at the lowest MTU of the ports. -/
def State.segment (s : State) (peer : Nat) : Nat :=
  let mtu := ((List.range 8).map (fun p => s.fld (F.NET_PORT_MTU.at (8 * p)))).foldl min 9000
  64 * ((mtu - (if (s.peer peer).ipv4 then 20 else 40) - 64) / 64)

/-- Cut a message into DATA packets (R275). -/
def cutMsg (n cls msgId len : Nat) : Nat → Nat → Bytes → List Pkt
  | 0, _, _ => []
  | fuel + 1, off, b =>
    if b.isEmpty then []
    else
      { type := 0, first := off == 0, last := b.length ≤ n, retx := false, cls := cls, dst := 0, src := 0, psn := 0,
        msgId := msgId, offset := off, msgLen := len, keygen := 0, txc := 0, payload := b.take n }
      :: cutMsg n cls msgId len fuel (off + n) (b.drop n)

/-- Send the head of a context's packet queue if credit and a sub-port allow. -/
def State.pumpOne (s : State) (peer : Nat) : State :=
  let v := s.peer peer
  match v.tx.queue with
  | [] => s
  | k :: rest =>
    let u := creditUnits k.payload.length
    if v.tx.used + u > v.tx.limit then s
    else match s.spraySub k.cls none with
      | none => s
      | some sub =>
        let k := { k with psn := v.tx.psn }
        let tx := { v.tx with queue := rest, used := v.tx.used + u, psn := (v.tx.psn + 1) % 2 ^ 32,
                              flight := v.tx.flight ++ [{ pkt := k, sent := s.tick, sub := sub, fast := false }] }
        let tenant := match v.tx.msgs.find? (fun m => m.1 == k.msgId) with | some m => m.2.tenant | none => 0xFFFF
        { s.setPeer peer { v with tx := tx } with spray := (sub + 1) % 32 }.sendPkt (sub / 4) (sub % 4) peer tenant k

/-- Send what credit and sub-ports allow. -/
def State.pump (s : State) (peer : Nat) : State :=
  (s.peer peer).tx.queue.foldl (fun s _ => s.pumpOne peer) s

/-- Hand a message to an OPEN context. -/
def State.postMsg (s : State) (peer : Nat) (m : Msg) : State :=
  let v := s.peer peer
  let n := s.segment peer
  let pkts := cutMsg n m.cls v.tx.msgId m.bytes.length (m.bytes.length + 1) 0 m.bytes
  let tx := { v.tx with msgId := (v.tx.msgId + 1) % 2 ^ 32, msgs := v.tx.msgs ++ [(v.tx.msgId, m)],
                        queue := v.tx.queue ++ pkts }
  (s.setPeer peer { v with tx := tx }).pump peer

/-- A message fails towards its owner (Table 11.5): the owner's own command runs next. -/
def State.failMsg (s : State) (m : Msg) : State :=
  match m.owner with
  | .free => s
  | .push r f => s.wake (.push r f)
  | .xchg st i => s.wake (.xchg st i)
  | .shelf d => s.wake (.holder d)

/-- The payload of an OPEN or OPEN_ACK of this device (Table 15.7): KIND YD, the first PSN, its DEVICE_ID or 0xFFFFF while it is
no member; nonce, ephemeral key, chain and signature are free. -/
def State.shake (s : State) (psn : Nat) : Bytes :=
  [0x10, 2, 0, 0] ++ leBytes 4 psn ++ leBytes 4 (if s.flag F.DEV_DEVID_VALID then s.devId else 0xFFFFF) ++ leBytes 4 0
    ++ Config.handshake s.freeCtr

/-- Start the handshake of a context: it is OPENING and an OPEN is sent (R281, R465).  The first PSN is free. -/
def State.openPeer (s : State) (p : Nat) : State :=
  let v := s.peer p
  let psn := Config.initPsn s.freeCtr % 2 ^ 32
  let s := { s with freeCtr := s.freeCtr + 1 }
  (s.setPeer p { v with state := 1, since := s.tick, remote := 0,
                        tx := { PeerTx.fresh with waiting := v.tx.waiting, psn := psn, cum := psn },
                        rx := { PeerRx.fresh with sub := v.rx.sub, heard := s.tick } }).sendControl p 3 (s.shake psn)

/-- Send a message on a context: at once when OPEN, waiting while OPENING, opening it when CLOSED and provisioned, else
failing (R465). -/
def State.sendMsg (s : State) (p : Nat) (m : Msg) : State :=
  let v := s.peer p
  if v.state == 2 then s.postMsg p m
  else if v.state == 1 then s.setPeer p { v with tx := { v.tx with waiting := v.tx.waiting ++ [m] } }
  else if v.state == 0 && v.valid && s.flag F.NET_CTRL_OPEN_EN then
    (s.setPeer p { v with tx := { v.tx with waiting := [m] } }).openPeer p
  else s.failMsg m

/-- A reply to a slip of a context whose slip was accepted: sent while the context is OPEN or DRAINING (Table 11.5). -/
def State.sendPeerReply (s : State) (p : Nat) (m : Msg) : State :=
  let v := s.peer p
  if v.state == 2 || v.state == 3 then s.postMsg p m else s.bump F.SLIPQ_CNT_DISCARD_COUNT

/-- Egress class of an opcode's slips and replies (Table 9.6). -/
def egressClass (op : Nat) : Nat :=
  if op / 0x400 == 6 then 7
  else if Op.XCHG_EMBED ≤ op && op ≤ Op.XCHG_FINAL then 5
  else if op / 0x400 == 5 then 2
  else if op == Op.TIER_SHELF_GET || op == Op.SESS_MOVE_OFFER || op == Op.SESS_MOVE_COMMIT then 3
  else if op == Op.TIER_SHELF_PUT || op == Op.TIER_SHELF_DROP || op == Op.CKPT_MIRROR_PUT || op == Op.CKPT_MIRROR_GET then 1
  else if op == Op.ECHO || op / 0x400 == 0x3F then 0
  else 4

/-- The bytes of a slip this device sends (R40, R53): version 1.0, HLEN 8. -/
def slipBytes (op flags tenant tag epoch acc : Nat) (p : List Nat) (payload : Bytes) : Bytes :=
  let head := leBytes 1 0x10 ++ leBytes 1 8 ++ leBytes 2 op ++ leBytes 2 flags ++ leBytes 2 tenant ++ leBytes 4 tag
    ++ leBytes 4 epoch ++ leBytes 8 acc ++ leBytes 4 payload.length ++ leBytes 4 0
    ++ (List.range 6).flatMap (fun i => leBytes 4 (p.getD i 0)) ++ leBytes 4 0
  head ++ leBytes 4 (crc32c head) ++ payload

/-- The bytes of a reply (Table 2.3) with the data it returns. -/
def ReplyOut.bytes (r : ReplyOut) : Bytes :=
  let b := leBytes 1 r.version ++ leBytes 1 4 ++ leBytes 2 r.status ++ leBytes 4 r.tag ++ leBytes 4 r.detail
    ++ leBytes 4 r.epoch ++ leBytes 8 r.result ++ leBytes 4 r.result2
  b ++ leBytes 4 (crc32c b) ++ r.data

/-- Send a slip on a peer context.  Catalogue slips carry this member's EPOCH, but for a map fetch, which an older EPOCH would
only see refused (R58, R299). -/
def State.sendSlip (s : State) (p op flags tenant acc : Nat) (ps : List Nat) (payload : Bytes) (owner : Owner) : State :=
  let s := s.emit (.slip p op acc tenant ps payload)
  let b := slipBytes op flags tenant s.nextTag (if op / 0x400 == 6 && op != Op.CAT_MAP_FETCH && s.flag F.DEV_DEVID_VALID then s.epoch else 0) acc ps payload
  ({ s with nextTag := (s.nextTag + 1) % 2 ^ 32 }).sendMsg p
    { cls := egressClass op, tenant := tenant, bytes := b, owner := owner }

/-- The YD or pool context that reaches a device. -/
def State.ctxOf (s : State) (dev : Nat) : Option Nat :=
  (s.peers.find? (fun p => p.2.valid && (p.2.kind == 2 || p.2.kind == 3) && p.2.dev == dev)).map (·.1)

/-- A context number for a new YD or pool context: the lowest free one, or the YD or pool context idle longest once that is
at least IDLE_CLOSE (R282). -/
def State.newCtx (s : State) : Option Nat :=
  match (List.range 4096).find? (fun p => !(s.peer p).valid && (s.peer p).state == 0) with
  | some p => some p
  | none =>
    let old := s.peers.filter (fun p => (p.2.kind == 2 || p.2.kind == 3)
      && s.tick - p.2.idle ≥ s.fld F.NET_CTX_TMR_IDLE_CLOSE * 100000)
    match old with
    | [] => none
    | q :: l => some (l.foldl (fun a b => if b.2.idle < a.2.idle then b else a) q).1

/-- A slip of context `c` now belongs to `d`. -/
def slipRetag (c d : Ctx) (x : Slip) : Slip := if x.src == c then { x with src := d } else x

/-- A context is gone: the slips accepted from it run on under a number no context has, so that their replies are discarded
(Table 11.5, R387), and its own number has nothing outstanding (R54) and no agreed version (R59). -/
def State.orphan (s : State) (c d : Ctx) : State :=
  let f := slipRetag c d
  let todo : Todo → Todo := fun t => match t with | .slip op x => .slip op (f x) | t => t
  { s with
    slips := s.slips.map (fun o => { o with slip := f o.slip })
    held := s.held.map (fun h => ({ h.1 with slip := f h.1.slip }, h.2))
    ready := s.ready.map todo
    versions := s.versions.filter (fun v => v.1 != c)
    scans := s.scans.map (fun (z : Scan) => { z with slip := f z.slip })
    searches := s.searches.map (fun (z : Nat × Search) => (z.1, { z.2 with slip := f z.2.slip }))
    steps := s.steps.map (fun (z : Nat × XStep) => (z.1, { z.2 with waiting := z.2.waiting.map f }))
    cat := { s.cat with
      forwards := s.cat.forwards.map (fun (z : Fwd) => { z with slip := f z.slip })
      clients := s.cat.clients.map (fun (z : CatClient) => { z with slip := f z.slip }) }
    ckpt := { s.ckpt with
      restore := s.ckpt.restore.map (fun (z : Restore) => { z with slip := f z.slip })
      press := { s.ckpt.press with writes := s.ckpt.press.writes.map (fun w => (w.1, f w.2)) } }
    flash := { s.flash with jobs := s.flash.jobs.map (fun (j : FlashJob) => match j with
      | .image a b x => .image a b (f x)
      | .control p t x => .control p t (x.map f)) }
    boot := { s.boot with
      acts := s.boot.acts.map (fun (a : Activity) => { a with slip := a.slip.map f })
      reload := s.boot.reload.map (fun r => (r.1, r.2.1, f r.2.2)) } }

/-- A context becomes CLOSED: messages not acknowledged and messages waiting fail towards their owners, what was partly
received is discarded, and its credits return (Table 11.5). -/
def State.closePeer (s : State) (p : Nat) : State :=
  let v := s.peer p
  let lost := v.tx.msgs.map (·.2) ++ v.tx.waiting
  let gone := (tFree s.peers 1 1048576 4096).getD 4096
  let s := (s.orphan (.peer p) (.peer gone)).setPeer gone { v with valid := false, state := 0, tx := PeerTx.fresh, rx := PeerRx.fresh }
  lost.foldl State.failMsg
    (s.setPeer p { v with state := 0, since := s.tick, tx := PeerTx.fresh, rx := { PeerRx.fresh with sub := v.rx.sub } })

/-- Make a YD or pool context for a device (R281, R282). -/
def State.makeCtx (s : State) (dev : Nat) : Option (Nat × State) :=
  match s.newCtx with
  | none => none
  | some p =>
    let (k, addr) := match tGet s.cat.devices dev with | some d => (if d.state == 3 then 3 else 2, d.address) | none => (2, [])
    let s := if (s.peer p).state == 0 then s else s.closePeer p
    some (p, s.setPeer p { Peer.fresh with valid := true, weight := (s.peer p).weight, kind := k, dev := dev, addrLo := rdLe addr 0 8,
                                           addrHi := rdLe addr 8 8, idle := s.tick })

/-- The context that reaches a device: found, or made on demand (R281). -/
def State.reach (s : State) (dev : Nat) : Option (Nat × State) :=
  match s.ctxOf dev with
  | some p => some (p, s)
  | none => s.makeCtx dev

/-- Pass a slip on to a device, with FORWARDED set (R293). -/
def State.sendForward (s : State) (dev op : Nat) (x : Slip) : State :=
  let x := { x with flags := x.flags ||| 0x10, tag := BitVec.ofNat 32 s.nextTag, ploc := 0 }
  let s := { s.emit (.forward dev op x) with nextTag := (s.nextTag + 1) % 2 ^ 32 }
  let h := x.headBytes op
  match s.reach dev with
  | some (p, s) =>
    s.sendMsg p { cls := egressClass op, tenant := x.tenant.toNat, bytes := h ++ leBytes 4 (crc32c h) ++ x.payload, owner := .free }
  | none => s.bump F.NET_CNT_CTX_FULL_COUNT

/-- Send a slip to a device of the composition: its YD or pool context is found, or opened on demand (R281). -/
def State.sendDev (s : State) (dev op acc tenant : Nat) (ps : List Nat) (payload : Bytes) (owner : Owner := .free) : State :=
  let s := s.emit (.toDevice dev op acc tenant ps payload)
  match s.reach dev with
  | some (p, s) => s.sendSlip p op 0 tenant acc ps payload owner
  | none => (s.bump F.NET_CNT_CTX_FULL_COUNT).failMsg { cls := 0, tenant := tenant, bytes := [], owner := owner }

end Sys2Proof.Machine
end

