-- ==== Sys2Proof/Machine/BounceFrame.lean ====
section
/-!
DEFINITION. Writes to host memory: plain, or as the sealed records of confidential-host mode (R385, Table 15.8).
-/

namespace Sys2Proof.Machine

/-- Is confidential-host mode active (R385)? -/
def State.conf (s : State) : Bool := s.flag F.SEC_STATE_CONF_HOST

/-- A queue pair or ring may be enabled: outside confidential-host mode, or once its keys are there (R386). -/
def State.hostReady (s : State) : Bool := !s.conf || s.sec.bounce.isSome

/-- A bounce record (Table 15.8) under a 36-byte key and salt. -/
def bounceRecord (key : Bytes) (kind seq ref : Nat) (plain : Bytes) : Bytes :=
  let head := leBytes 2 kind ++ leBytes 2 0 ++ leBytes 4 plain.length ++ leBytes 8 seq ++ leBytes 8 ref ++ leBytes 8 0
  let nonce := slice key 32 4 ++ leBytes 8 seq
  let text := gcmText (key.take 32) nonce plain
  head ++ text ++ gcmTag (key.take 32) nonce head text

/-- Seal a record with the device's own counter and write it; without keys nothing is written. -/
def State.writeSealed (s : State) (kind ref addr : Nat) (plain : Bytes) : State :=
  match s.sec.bounce with
  | some k =>
    let r := bounceRecord k.2 kind s.sec.bounceSeq ref plain
    { s.emit (.hostWrite addr r) with sec := { s.sec with bounceSeq := s.sec.bounceSeq + 1 } }
  | none => s

/-- REF of a record: queue pair, ring or lent region, and unwrapped index. -/
def bounceRef (owner index : Nat) : Nat := owner % 65536 + index % 2 ^ 32 * 65536

/-- Write a span of a payload window, output area or lent region in confidential-host mode: slots of 4,096 bytes carry 4,048 of
plaintext each; what a slot holds beside the span reads 0 (log entry 67). -/
def State.writeSpan (s : State) (kind owner base off : Nat) (b : Bytes) : State :=
  if b.isEmpty then s
  else
    let first := off / 4048
    (List.range ((off + b.length - 1) / 4048 + 1 - first)).foldl (fun s k =>
      let lead := if k == 0 then off % 4048 else 0
      let done := if k == 0 then 0 else k * 4048 - off % 4048
      s.writeSealed kind (bounceRef owner (first + k)) (base + 4096 * (first + k))
        (slice (List.replicate lead 0 ++ (b.drop done).take (4048 - lead)) 0 4048)) s

end Sys2Proof.Machine
end

