-- ==== Sys2Proof/Machine/Accept.lean ====
section
/-!
DEFINITION. Call slips from arrival to reply: the ordered acceptance checks (R55), the forming and sending of replies
(R43, R44, R49-R51, R53), the order slips take effect in (R56-R58), the device-state checks (R63), and the frame every
slip command runs in (`runSlip`, `runSession`).
-/

namespace Sys2Proof.Machine

/-! ## Status codes (Table 2.10) -/

namespace St
def OK : Nat := 0x0000
def SHORT : Nat := 0x1001
def REBUILT : Nat := 0x1002
def SECONDARY_USED : Nat := 0x1003
def INVALID_UTF8 : Nat := 0x1004
def ALREADY_DONE : Nat := 0x1005
def VERSION_LOWERED : Nat := 0x1006
def FORWARDED : Nat := 0x1007
def BUDGET_EMPTY : Nat := 0x2001
def MOVED : Nat := 0x2002
def BUSY : Nat := 0x2003
def NO_SLOTS : Nat := 0x2004
def QUOTA_FULL : Nat := 0x2005
def EPOCH_STALE : Nat := 0x2006
def NOT_READY : Nat := 0x2008
def SESSION_BUSY : Nat := 0x2009
def POLICED : Nat := 0x200A
def BAD_CRC : Nat := 0x3001
def BAD_VERSION : Nat := 0x3002
def BAD_HEADER_LENGTH : Nat := 0x3003
def RESERVED_NONZERO : Nat := 0x3004
def UNKNOWN_OPCODE : Nat := 0x3005
def NOT_ACCEPTED : Nat := 0x3006
def NEED_HELLO : Nat := 0x3007
def BAD_PARAM : Nat := 0x3008
def PAYLOAD_TOO_LONG : Nat := 0x3009
def PAYLOAD_TRUNCATED : Nat := 0x300A
def BAD_LOCATOR : Nat := 0x300B
def DUPLICATE_TAG : Nat := 0x300C
def UNKNOWN_SESSION : Nat := 0x300D
def BAD_STATE : Nat := 0x300E
def BAD_TENANT : Nat := 0x300F
def ABSENT_RESOURCE : Nat := 0x3010
def BAD_DEVICE_ID : Nat := 0x3011
def GRAMMAR_DEADEND : Nat := 0x3012
def CONTEXT_FULL : Nat := 0x3013
def PROFILE_MISMATCH : Nat := 0x3014
def OUT_TOO_SMALL : Nat := 0x3015
def BAD_FLAGS : Nat := 0x3016
def NOT_PERMITTED : Nat := 0x4001
def TENANT_MISMATCH : Nat := 0x4002
def UNTRUSTED_TOKENS : Nat := 0x4003
def PRESENCE_REQUIRED : Nat := 0x4004
def NO_KEY : Nat := 0x4005
def DEBUG_LOCKED : Nat := 0x4006
def SEALED : Nat := 0x4007
def INTERNAL : Nat := 0x8001
def CONSERVATION : Nat := 0x8002
def UNIT_FAILED : Nat := 0x8003
def MEDIA : Nat := 0x8004
def TIMEOUT : Nat := 0x8005
end St

/-- The class of a status: its high nibble (R19). -/
def statusClass (st : Nat) : Nat := st / 0x1000

/-- What a command answers its slip with. -/
structure Answer where
  status : Nat
  detail : Nat
  result : Nat
  result2 : Nat
  data : Bytes
  /-- the epoch of a reply passed back unchanged (R58); none for the device's own -/
  epoch : Option Nat
  deriving DecidableEq, Repr

/-- A plain answer. -/
def Answer.mk' (status : Nat) (detail : Nat := 0) (result : Nat := 0) (result2 : Nat := 0) (data : Bytes := []) : Answer :=
  { status := status, detail := detail, result := result, result2 := result2, data := data, epoch := none }

/-- Success. -/
def Answer.ok (result : Nat := 0) (result2 : Nat := 0) (data : Bytes := []) : Answer :=
  Answer.mk' St.OK 0 result result2 data

/-- A status with a detail. -/
def Answer.st (status : Nat) (detail : Nat := 0) : Answer := Answer.mk' status detail

end Sys2Proof.Machine

namespace Sys2Proof

/-! ## Slip flags (Table 2.2) and parameters -/

def Slip.ordered (x : Slip) : Bool := x.flags.toNat.testBit 0
def Slip.trusted (x : Slip) : Bool := x.flags.toNat.testBit 1
def Slip.quiet (x : Slip) : Bool := x.flags.toNat.testBit 2
def Slip.noForward (x : Slip) : Bool := x.flags.toNat.testBit 3
def Slip.forwarded (x : Slip) : Bool := x.flags.toNat.testBit 4
def Slip.acc (x : Slip) : Nat := x.accession.toNat
def Slip.ten (x : Slip) : Nat := x.tenant.toNat
def Slip.P0 (x : Slip) : Nat := x.p0.toNat
def Slip.P1 (x : Slip) : Nat := x.p1.toNat
def Slip.P2 (x : Slip) : Nat := x.p2.toNat
def Slip.P3 (x : Slip) : Nat := x.p3.toNat
def Slip.P4 (x : Slip) : Nat := x.p4.toNat
def Slip.P5 (x : Slip) : Nat := x.p5.toNat

/-- The parameters in order. -/
def Slip.params (x : Slip) : List Nat := [x.P0, x.P1, x.P2, x.P3, x.P4, x.P5]

end Sys2Proof

namespace Sys2Proof.Machine

/-- Every bit of a parameter word. -/
def w32 : Nat := 0xFFFFFFFF

/-- The first parameter with a bit outside the mask its opcode uses (R41), by index. -/
def badParam (x : Slip) (masks : List Nat) : Option Nat :=
  ((x.params.zip masks).findIdx? fun p => p.1 &&& (0xFFFFFFFF ^^^ p.2) != 0)

/-! ## Contexts and tenants (R46, R47, R42, R463) -/

/-- The code of a context as a bit: 1 T, 2 O, 4 M, 8 P, 16 W, 32 K (Table 2.4). -/
def State.code (s : State) : Ctx → Nat
  | .pair q => if s.flag (F.QP_CFG_OPERATOR.at (0x40 * q)) then 2 else 1
  | .peer p =>
    let k := (s.peer p).kind
    if k ≤ 1 then 1 else if k ≤ 3 then 8 else 16
  | .mgmt _ => 4
  | .rind => 32

/-- May the context name this tenant (Table 2.4)?  Read of every slip's TENANT field (log entry 8). -/
def State.tenantAllowed (s : State) (c : Ctx) (t : Nat) : Bool :=
  match c with
  | .pair q => if s.flag (F.QP_CFG_OPERATOR.at (0x40 * q)) then true else t == s.fld (F.QP_CFG_TENANT.at (0x40 * q))
  | .peer p =>
    let v := s.peer p
    if v.kind == 0 then t == v.tenant
    else if v.kind == 1 then t != 0xFFFF
    else if v.kind ≤ 3 then true
    else t == 0xFFFF
  | .mgmt _ => true
  | .rind => true

/-- Opcodes exempt from the provisioning check (R42). -/
def provisioningExempt (op : Nat) : Bool :=
  op == Op.SCHED_SET_TENANT || op == Op.SCHED_SET_POLICER || op == Op.TIER_SET_QUOTA || op == Op.SEC_TENANT_STATUS
    || op == Op.SEC_TENANT_ERASE

/-- Opcodes on which TENANT 0xFFFF is invalid at step 8 (R463). -/
def operatorInvalid (op : Nat) (x : Slip) : Bool :=
  op == Op.SCHED_SET_TENANT || op == Op.SCHED_QUERY_TENANT || op == Op.SCHED_SET_POLICER || op == Op.RING_CONSUMED
    || op / 0x400 == 0x05 || op == Op.SAMP_SET_STOPS || (op == Op.SAMP_SET && x.acc == 0)

/-- Is the context trusted for tenant t (R379)? -/
def State.trustedFor (s : State) (c : Ctx) (t : Nat) : Bool :=
  let v := s.tenant t
  v.key.isSome && match c with
    | .peer p => (s.peer p).trusted && v.trust.contains (s.peer p).leaf
    | .pair q => s.flag (F.QP_CFG_OPERATOR.at (0x40 * q)) && v.trustOperator
    | .mgmt _ => v.trustOperator
    | .rind => false

/-- May a management connection's role send this opcode (Table 15.9, R388)?  Role 0 is a bootstrap connection. -/
def roleGrants (role op : Nat) : Bool :=
  if role == 0 then op == Op.NOP || op == Op.HELLO || op == Op.IDENTIFY || op == Op.SEC_PRINCIPAL_ENROL
  else if role == 1 then true
  else if role == 2 then
    !(op / 0x400 == 0x0A || op / 0x400 == 0x3F || op == Op.MAINT_FW_UPDATE || op == Op.MAINT_FW_ROLLBACK)
  else if role == 3 then
    op == Op.NOP || op == Op.HELLO || op == Op.IDENTIFY || op == Op.ECHO || op == Op.SESS_QUERY || op == Op.TIER_QUERY
      || op == Op.CAT_LOOKUP || op == Op.CKPT_QUERY || op == Op.SCHED_QUERY_TENANT || op == Op.SEC_TENANT_STATUS
  else false

/-- Is the context a non-member context (R384)?  On it the member serves only four opcodes. -/
def State.nonMember (s : State) (c : Ctx) : Bool :=
  match c with
  | .peer p => (s.peer p).kind == 2 && (s.peer p).dev == 0xFFFFF
  | _ => false

/-- Opcodes a non-member context may send (R384). -/
def nonMemberOp (op : Nat) : Bool := op == Op.HELLO || op == Op.CAT_MAP_FETCH || op == Op.CAT_JOIN || op == Op.CKPT_MIRROR_GET

/-- May the context send the opcode (R47, R384, step 7 of R55)? -/
def State.permitted (s : State) (r : OpRow) (x : Slip) : Bool :=
  if s.nonMember x.src && !nonMemberOp r.op then false
  else if x.forwarded then r.ctxs &&& 3 != 0
  else (r.ctxs &&& s.code x.src != 0) && match x.src with
    | .mgmt c => match tGet s.mgmt c with
      | some m => roleGrants m.role r.op
      | none => false
    | _ => true

/-! ## Outstanding slips -/

/-- The outstanding slip of a context with a tag. -/
def State.outst (s : State) (c : Ctx) (tag : BitVec 32) : Option Outst :=
  s.slips.find? (fun o => o.slip.src == c && o.slip.tag == tag)

/-- Slips outstanding of one context. -/
def State.outstOf (s : State) (c : Ctx) : Nat := (s.slips.filter (fun o => o.slip.src == c)).length

/-- Change the outstanding slip of a context with a tag. -/
def State.updOutst (s : State) (c : Ctx) (tag : BitVec 32) (f : Outst → Outst) : State :=
  { s with slips := s.slips.map (fun o => if o.slip.src == c && o.slip.tag == tag then f o else o) }

/-- The version agreed on a context (R59); the Rind always has 1.0. -/
def State.agreed (s : State) (c : Ctx) : Option Nat :=
  if c == .rind then some 0x10 else (s.versions.find? (fun v => v.1 == c)).map (·.2)

/-- Payload limit of the path (R53). -/
def plenLimit : Ctx → Nat
  | .pair _ => 16777216
  | .rind => 0xFFFFFFFF
  | _ => 1048512

/-- Does [off × 64, off × 64 + len) lie in the pair's payload window (R48)? -/
def State.inWindow (s : State) (q off len : Nat) : Bool :=
  off * 64 + len ≤ s.fld (F.QP_WIN_SIZE_UNITS.at (0x40 * q)) * 64

/-- What the acceptance checks answer. -/
inductive Verdict where
  /-- accepted: the slip passed step 10 -/
  | accept
  /-- rejected or refused; `early` when a step up to 4 failed (R43) -/
  | reply (status detail : Nat) (early : Bool)
  /-- dropped by policing on the network path (R44) -/
  | drop
  deriving DecidableEq, Repr

/-- Step 10 of R55: lengths and locators, in that order. -/
def State.checkPayload (s : State) (r : OpRow) (x : Slip) : Option Nat :=
  let n := x.plen.toNat
  if n > plenLimit x.src then some St.PAYLOAD_TOO_LONG
  else match x.src with
    | .pair q =>
      if n == 0 && x.ploc != 0 then some St.BAD_LOCATOR
      else if n != 0 && !s.inWindow q x.ploc.toNat n then some St.BAD_LOCATOR
      else if r.data && x.P5 != 0 && !s.inWindow q x.P4 x.P5 then some St.BAD_LOCATOR
      else none
    | .peer _ =>
      if x.payload.length != n then some St.PAYLOAD_TRUNCATED
      else if x.ploc != 0 then some St.BAD_LOCATOR else none
    | .mgmt _ => if x.ploc != 0 then some St.BAD_LOCATOR else none
    | .rind => none

/-- The device IDs a slip's parameters carry, for the check of R14 at step 8; a ballot's low bits are one (R286). -/
def paramDevs (op : Nat) (x : Slip) : List Nat :=
  if op == Op.SESS_MOVE_OFFER then [bitsOf x.P0 19 0]
  else if op == Op.CAT_JOIN then (if x.P1 == 0xFFFFFFFF then [] else [bitsOf x.P1 19 0])
  else if op == Op.CAT_LEAVE || op == Op.CAT_LOCATE then [bitsOf x.P1 19 0]
  else if op == Op.CKPT_MIRROR_GET then [bitsOf x.P0 19 0]
  else if op == Op.CAT_PROPOSE || op == Op.CAT_COMMIT then [bitsOf x.P2 19 0]
  else if op == Op.CAT_VOTE then [bitsOf x.P2 19 0, bitsOf x.P4 19 0]
  else []

/-! ## Resources of the variant (R7) -/

/-- Is a cluster, a stack, a channel present? -/
def State.clusterOn (s : State) (c : Nat) : Bool := c < 16 && (s.fld F.DEV_CAP0_CLUSTER_MASK).testBit c
def State.stackOn (s : State) (k : Nat) : Bool := k < 12 && (s.fld F.DEV_CAP0_STACK_MASK).testBit k
def State.channelOn (s : State) (c : Nat) : Bool := c < 12 && (s.fld F.DEV_CAP0_CELLAR_MASK).testBit c
def State.portOn (s : State) (p : Nat) : Bool := p < 8 && (s.fld F.DEV_CAP0_PORT_MASK).testBit p

/-- Does a UNIT (Table 13.5, R430) lie in a cluster, stack, channel or link that the variant lacks? -/
def State.unitLacks (s : State) (u : Nat) : Bool :=
  let n := u % 8192
  match u / 8192 with
  | 1 => n < 6144 && !s.stackOn (n / 512)
  | 2 => n < 128 && !s.clusterOn (n / 8)
  | 3 => n < 272 && !s.clusterOn (n / 17)
  | 4 => n < 80 && s.fld (F.ERR_LINK_STATE.at (8 * n)) == 3
  | 5 => n < 12 && !s.channelOn n
  | 6 => n < 12 && !s.stackOn n
  | 7 => n / 256 == 7 && n % 256 < 16 && !s.clusterOn (n % 256)
  | _ => false

/-- Does a scope of Table 16.7 name a stack, channel or port that the variant lacks? -/
def State.scopeLacks (s : State) (scope index : Nat) : Bool :=
  (scope == 2 && index < 12 && !s.stackOn index) || (scope == 3 && index < 12 && !s.channelOn index)
    || (scope == 4 && index < 8 && !s.portOn index)

/-- Do the slip's parameters name a resource that the variant lacks (R7, step 8 of R55)? -/
def State.variantLacks (s : State) (op : Nat) (x : Slip) : Bool :=
  if op == Op.SCHED_SET_SHAPER then
    let i := bitsOf x.P0 27 16
    (bitsOf x.P0 1 0 == 0 && i < 8 && !s.portOn i) || (bitsOf x.P0 1 0 == 1 && i < 64 && !s.portOn (i / 8))
  else if op == Op.MAINT_LOCK then s.scopeLacks x.P1 x.P2
  else if op == Op.MAINT_PATROL || op == Op.MAINT_RETRAIN then s.scopeLacks x.P0 x.P1
  else if op == Op.MAINT_ROW_REPAIR then s.scopeLacks 2 (x.P0 / 2 ^ 25)
  else if op == Op.MAINT_RESET then
    let k := bitsOf x.P0 1 0
    ((k == 0 || k == 1) && s.unitLacks x.P1) || (k == 2 && x.P1 == 1 && (List.range 8).all (fun c => !s.clusterOn (8 + c)))
  else if op == Op.MAINT_UNIT_DISABLE then s.unitLacks x.P0
  else if op == Op.DIAG_INJECT then s.unitLacks (bitsOf x.P0 31 16)
  else false

/-- Is a device ID invalid in this generation (R14)? -/
def badDev (d : Nat) : Bool := d ≥ 0x4000

/-- Is a slip subject to ingress policing (R245)? -/
def State.policedSlip (s : State) (x : Slip) : Bool :=
  x.ten ≤ 0xFFF && !x.forwarded && (s.code x.src &&& 48 == 0)

/-- What counts against the device-wide limit of R54: slips outstanding, and entries of submission reads in flight, each of which may
become one (log entry 14). -/
def State.slipLoad (s : State) : Nat := s.slips.length + (s.qps.map (fun p => p.2.fetching)).sum

/-- Is the slip beyond a limit of R54?  A Rind slip beyond the device-wide limit is treated as a management slip (log entry 13); a
host entry has its place from when it was fetched. -/
def State.beyondLimit (s : State) (x : Slip) : Bool :=
  match x.src with
  | .peer _ => s.outstOf x.src ≥ 1024 || s.slipLoad ≥ 65536
  | .mgmt _ => s.outstOf x.src ≥ 64 || s.slipLoad ≥ 65536
  | _ => s.slips.length ≥ 65536

/-- The checks of R55 in order, steps 1 to 10 but for policing, against the state as it stands; `idx` is the submission-queue index of
a host entry. -/
def State.check (s : State) (op : Nat) (x : Slip) (idx : Nat) : Verdict :=
  if x.src != .rind && crc32c (x.headBytes op) != x.hcrc.toNat then .reply St.BAD_CRC idx true
  else if bitsOf x.version.toNat 7 4 != 1 then .reply St.BAD_VERSION 0 true
  else if x.hlen != 8 then .reply St.BAD_HEADER_LENGTH 0 true
  else if s.agreed x.src == none && op != Op.HELLO then .reply St.NEED_HELLO 0 true
  else if op != Op.HELLO && s.agreed x.src != some x.version.toNat then .reply St.BAD_VERSION 0 false
  else if bitsOf x.flags.toNat 15 5 != 0 then .reply St.RESERVED_NONZERO 0x04 false
  else if x.rsvd != 0 then .reply St.RESERVED_NONZERO 0x38 false
  else
    let row := opRow op
    let quietOk := match row with | some r => r.quiet | none => false
    let trustOk := op == Op.TEXT_APPEND || op == Op.TEXT_APPEND_TOKENS || op == Op.TEXT_TOKENISE
    if x.forwarded && s.code x.src != 8 then .reply St.BAD_FLAGS 0 false
    else if x.quiet && !quietOk then .reply St.BAD_FLAGS 0 false
    else if x.trusted && !trustOk then .reply St.BAD_FLAGS 0 false
    else match row with
      | none => .reply St.UNKNOWN_OPCODE 0 false
      | some r =>
        if r.sent then .reply St.NOT_ACCEPTED 0 false
        else if !s.permitted r x then .reply St.NOT_PERMITTED 0 false
        else if op / 0x400 == 0x3F && !s.flag F.SEC_STATE_DEBUG_UNLOCKED then .reply St.DEBUG_LOCKED 0 false
        else if !x.forwarded && !s.tenantAllowed x.src x.ten then .reply St.TENANT_MISMATCH 0 false
        else if 0xFFF < x.ten && x.ten < 0xFFFF then .reply St.BAD_TENANT 0 false
        else if x.ten ≤ 0xFFF && !provisioningExempt op && !s.isProvisioned x.ten then .reply St.BAD_TENANT 0 false
        else if x.ten == 0xFFFF && operatorInvalid op x then .reply St.BAD_TENANT 0 false
        else if badDev (x.acc / 2 ^ 44) || (paramDevs op x).any badDev then .reply St.BAD_DEVICE_ID 0 false
        else if s.variantLacks op x then .reply St.ABSENT_RESOURCE 0 false
        else if x.trusted && !s.trustedFor x.src x.ten then .reply St.UNTRUSTED_TOKENS 0 false
        else if (s.outst x.src x.tag).isSome then .reply St.DUPLICATE_TAG 0 false
        else if s.beyondLimit x then .reply St.BUSY 0 false
        else match s.checkPayload r x with
          | some st => .reply st 0 false
          | none =>
            if s.policedSlip x && ((s.tenant x.ten).refillPolicer s.tick).policer.level < 1 then
              (match x.src with | .peer _ => .drop | _ => .reply St.POLICED 0 false)
            else .accept

/-! ## Sending replies (R43, R44, R49, R51, R53) -/

/-- Is an MSI-X vector masked?  Table entries are masked until the host writes them. -/
def State.vecMasked (s : State) (v : Nat) : Bool :=
  s.host.funcMask || match tGet s.host.vecs v with | some e => e.masked | none => true

/-- Send an MSI-X message (R441): discarded while the link is down or MSI-X is disabled, pending while masked. -/
def State.sendMsix (s : State) (v : Nat) : State :=
  if !s.host.up || !s.host.msixEn then s
  else if s.vecMasked v then { s with host := { s.host with pend := if s.host.pend.contains v then s.host.pend else s.host.pend ++ [v] } }
  else s.emit (.msix v)

/-- A pair's reply is written: entry at RQ_TAIL, mirror block, then the message R51 calls for. -/
def State.pairReply (s : State) (q : Nat) (r : ReplyOut) : State :=
  let p := s.qp q
  let m := s.fld (F.QP_CFG_LOG2_RQ.at (0x40 * q))
  let tail := (p.rqTail + 1) % 2 ^ m
  let s1 := (s.emit (.reply (.pair q) p.rqTail r)).emit (.mirror q p.sqHead tail)
  let s1 := if s.conf then
      (s1.writeSealed 2 (bounceRef q p.replies) ((s.reg (A.QP_RQ_BASE + 0x40 * q)).toNat + 128 * p.rqTail) ({ r with data := [] } : ReplyOut).bytes).writeSealed
        3 (bounceRef q 0) (s.reg (A.QP_MIRROR + 0x40 * q)).toNat (leBytes 4 p.sqHead ++ leBytes 4 tail ++ leBytes 8 0)
    else s1
  let p1 := { p with replies := p.replies + 1, rqTail := tail, fetched := p.fetched - 1, coalCount := p.coalCount + 1,
                     coalSince := if p.coalCount == 0 then s.tick else p.coalSince }
  if p1.coalCount ≥ s.fld (F.QP_COAL_COAL_COUNT.at (0x40 * q)) then
    (s1.setQp q { p1 with coalCount := 0 }).sendMsix (s.fld (F.QP_CFG_MSIX_VEC.at (0x40 * q)))
  else s1.setQp q p1

/-- Count a reply's status (R66, Table 2.12). -/
def State.countStatus (s : State) (st : Nat) : State :=
  if statusClass st == 3 then s.bump F.SLIPQ_CNT_REJECT_COUNT
  else if statusClass st == 4 then s.bump F.SLIPQ_CNT_REFUSE_COUNT
  else if st == St.POLICED then s.bump F.SLIPQ_CNT_POLICED_COUNT
  else s

/-- Complete the data of an answer under R53: too much data is OUT_TOO_SMALL with the size needed; RESULT is 0 on classes
2, 3, 4 and 8 but where Table 2.10 gives it a meaning (R43). -/
def Answer.settle (a : Answer) (op : Nat) (x : Slip) : Answer :=
  if a.epoch.isSome then a
  else if !a.data.isEmpty && a.data.length > x.P5 then Answer.mk' St.OUT_TOO_SMALL 0 0 a.data.length
  else
    let a := if a.data.isEmpty then a else { a with result2 := a.data.length }
    if statusClass a.status ≤ 1 || a.status == St.MOVED || (a.status == St.EPOCH_STALE && op / 0x400 == 6)
        || (a.status == St.MEDIA && (op == Op.VEC_SEARCH || op == Op.VEC_SHARD_SEARCH)) then a
    else { a with result := 0 }

/-- The data a host slip returns is written at OUT_LOC of its pair's payload window, before the reply entry (R53); in confidential-host
mode as sealed records (R385). -/
def State.writeData (s : State) (q : Nat) (x : Slip) (data : Bytes) : State :=
  let win := (s.reg (A.QP_WIN_BASE + 0x40 * q)).toNat
  if s.conf then s.writeSpan 4 q win (64 * x.P4) data
  else if data.isEmpty then s
  else s.emit (.hostWrite (win + 64 * x.P4) data)

/-- Form the reply and send it on its path, or suppress or discard it (R44). -/
def State.sendReply (s : State) (op : Nat) (x : Slip) (version : Nat) (a : Answer) : State :=
  let s := s.traceEv 1 0 0 a.status x.acc 0
  let r : ReplyOut := { version := version, status := a.status, tag := x.tag.toNat, detail := a.detail,
                        epoch := a.epoch.getD s.epoch, result := a.result, result2 := a.result2, data := a.data }
  if x.quiet && statusClass a.status ≤ 1 then
    match x.src with
    | .pair q => s.setQp q { s.qp q with fetched := (s.qp q).fetched - 1 }
    | _ => s
  else match x.src with
    | .pair q =>
      let p := s.qp q
      if p.discarding || p.state == 0 then
        (s.setQp q { p with fetched := p.fetched - 1 }).bump F.SLIPQ_CNT_DISCARD_COUNT
      else (s.writeData q x a.data).pairReply q r
    | .peer p =>
      (s.emit (.reply x.src 0 r)).sendPeerReply p { cls := egressClass op, tenant := x.ten, bytes := r.bytes, owner := .free }
    | .mgmt c => if (tGet s.mgmt c).isSome then s.emit (.reply x.src 0 r) else s
    | .rind => s.emit (.reply x.src 0 r)

/-- Held slips whose reason a test accepts go to the ready list, in order. -/
def State.release (s : State) (why : Hold → Bool) : State :=
  let go := s.held.filter (fun h => why h.2)
  { s with held := s.held.filter (fun h => !why h.2),
           ready := s.ready ++ go.map (fun h => Todo.slip h.1.op.toNat h.1.slip) }

/-- Slips held for order may go. -/
def State.releaseOrder (s : State) : State := s.release (fun h => h == Hold.order)

/-- An outstanding slip ends without a reply; a host pair's reservation is freed. -/
def State.dropSlip (s : State) (c : Ctx) (tag : BitVec 32) : State :=
  let s := { s with slips := s.slips.filter (fun o => !(o.slip.src == c && o.slip.tag == tag)),
                    held := s.held.filter (fun h => !(h.1.slip.src == c && h.1.slip.tag == tag)) }
  match c with
  | .pair q => (s.setQp q { s.qp q with fetched := (s.qp q).fetched - 1 }).releaseOrder
  | _ => s.releaseOrder

/-- A class 0x8 status is noted in the entry of the session its slip names (R45, FAULT and FAULT_TAG of Table 3.1); such
slips leave the session as it was: 1, not applied. -/
def State.noteFault (s : State) (x : Slip) (status : Nat) : State :=
  if statusClass status == 8 && x.acc != 0 then
    { s with sessions := s.sessions.map (fun p => if p.2.accession == x.acc then
        (p.1, { p.2 with fault := 1, faultTag := x.tag.toNat, entryGen := (p.2.entryGen + 1) % 2 ^ 32 }) else p) }
  else s

/-- Register offset step of a pair's configuration registers. -/
def qpOff (q : Nat) : Nat := 0x40 * q

/-- Entries of the submission queue (2^n) and of the reply queue (2^m) of a pair. -/
def State.sqSize (s : State) (q : Nat) : Nat := 2 ^ s.fld (F.QP_CFG_LOG2_SQ.at (qpOff q))
def State.rqSize (s : State) (q : Nat) : Nat := 2 ^ s.fld (F.QP_CFG_LOG2_RQ.at (qpOff q))

/-- Replies written and not consumed. -/
def State.unconsumed (s : State) (q : Nat) : Nat :=
  let p := s.qp q
  (p.rqTail + s.rqSize q - p.rqHead) % s.rqSize q

/-- Are submission entries and payloads read with D2H RdCurr, current in the host's caches (R435)? -/
def State.fromCaches (s : State) : Bool := s.flag F.CXL_CTRL_CACHE_EN && s.host.up && s.host.cxl && !s.conf

/-- Fetch what R50 allows: an ACTIVE pair with no read in flight reads as many entries as it can reserve reply entries
for; while the device-wide limit of R54 is reached nothing is fetched. -/
def State.fetchMore (s : State) (q : Nat) : State :=
  let p := s.qp q
  let want := (p.sqTail + s.sqSize q - p.sqHead) % s.sqSize q
  let room := s.rqSize q - 1 - (p.fetched + s.unconsumed q)
  let n := min (min want room) (65536 - s.slipLoad)
  if p.state == 1 && p.fetching == 0 && n != 0 then
    (s.setQp q { p with fetching := n }).emit (.fetch q p.sqHead n s.fromCaches)
  else s

/-- Entries that became fetchable are fetched: those of every pair once the device-wide limit of R54 is no longer reached, else
those of the pair whose reservation was freed (R50). -/
def State.refetch (s : State) (c : Ctx) (full : Bool) : State :=
  if full then (s.qps.map (·.1)).foldl State.fetchMore s
  else match c with
    | .pair q => s.fetchMore q
    | _ => s

/-- The write of a slip's returned data completes with error: its reservation is freed without a reply, and the pair has an access
that failed to deal with next (R52). -/
def State.dataError (s : State) (c : Ctx) : State :=
  match c with
  | .pair q => (s.setQp q { s.qp q with fetched := (s.qp q).fetched - 1 }).wake (.hostError q)
  | _ => s

/-- An accepted slip is answered, once: its reply is formed, it stops being outstanding, and slips held for order may go. -/
def State.finish (s : State) (op : Nat) (x : Slip) (a : Answer) : State :=
  if (s.outst x.src x.tag).isNone then s else
  let a := a.settle op x
  let a := match s.outst x.src x.tag with
    | some o =>
      if (o.note == 1 || o.note == 2) && statusClass a.status ≤ 1 then
        (if o.note == 2 then { a with status := St.REBUILT, detail := o.tokens } else { a with status := St.SECONDARY_USED })
      else a
    | none => a
  let version := if op == Op.HELLO then 0x10 else (s.agreed x.src).getD 0x10
  let fails : Bool := match s.outst x.src x.tag with | some o => o.dataFails && !a.data.isEmpty | none => false
  let s1 := { s with slips := s.slips.filter (fun o => !(o.slip.src == x.src && o.slip.tag == x.tag)) }
  let s2 := s1.noteFault x a.status
  let s3 := if fails then s2.dataError x.src else (s2.countStatus a.status).sendReply op x version a
  s3.releaseOrder.refetch x.src (s.slipLoad ≥ 65536)

/-- A slip that fails acceptance is answered; it was never outstanding. -/
def State.reject (s : State) (op : Nat) (x : Slip) (status detail : Nat) (early : Bool) : State :=
  let version := if early then 0x10 else (s.agreed x.src).getD 0x10
  let s := if status == St.UNTRUSTED_TOKENS then s.bump F.TEXT_CNT_UNTRUSTED_COUNT else s
  let s := if status == St.POLICED then s.updTenant x.ten (fun t => { t with drops := sat 32 (t.drops + 1) }) else s
  (s.countStatus status).sendReply op x version (Answer.st status detail)

/-- Take one policer token for an accepted slip (R245). -/
def State.takeToken (s : State) (x : Slip) : State :=
  if s.policedSlip x then
    s.updTenant x.ten fun t =>
      let t := t.refillPolicer s.tick
      if t.policer.rate == 0xFFFFFFFF then t
      else { t with policer := { t.policer with level := t.policer.level - 1 } }
  else s

/-- Does the device take slips at all in its present state (Table 16.1)?  Not in the ROM, while RESETTING, nor FAULTED with
cause 1 or 2. -/
def State.takesSlips (s : State) : Bool :=
  let st := s.fld F.BOOT_STATE_STATE
  let fc := s.fld F.BOOT_STATE_FAULT_CAUSE
  !(st == 0 || st == 7 || (st == 8 && (fc == 1 || fc == 2)))

/-- The acceptance of one arriving slip (R55, R44): the state after it and whether it is now outstanding.  A device that
takes no slips leaves it alone (Table 16.1).  `idx` is the submission-queue index of a host entry. -/
def State.enrol (s : State) (op : Nat) (x : Slip) (stage : Stage) (idx : Nat) : State × Bool :=
  if !s.takesSlips then (s, false)
  else match s.check op x idx with
  | .reply st d early => (s.reject op x st d early, false)
  | .drop =>
    ((s.bump F.SLIPQ_CNT_POLICED_COUNT).updTenant x.ten (fun t => { t with drops := sat 32 (t.drops + 1) }), false)
  | .accept =>
    let s := ((s.takeToken x).bump F.SLIPQ_CNT_ACCEPT_COUNT).traceEv 0 op 0 x.tag.toNat x.acc 0
    let s := if op / 0x400 == 6 then s.traceEv 7 op 0 x.tag.toNat x.acc 0 else s
    ({ s with slips := s.slips ++ [{ op := op, slip := x, stage := stage, note := 0, tokens := 0, dataFails := false,
                                      since := s.tick }] }, true)

/-! ## Order (R56, R57) -/

/-- Must the outstanding slip `x` wait for an earlier one?  Earlier slips of its context block it when either is ORDERED;
an earlier slip naming the same session blocks it until it has been taken up. -/
def blockedBy (op : Nat) (x : Slip) : List Outst → Bool
  | [] => false
  | o :: l =>
    if o.slip.src == x.src && o.slip.tag == x.tag then false
    else if o.slip.src == x.src && (o.slip.ordered || x.ordered) then true
    else if x.acc != 0 && o.slip.acc == x.acc && o.stage != .waiting then true
    else blockedBy op x l

/-- NOT_READY, DETAIL 2 and 1 (R63): by device state and bundle. -/
def State.notReady (s : State) (op : Nat) : Option Nat :=
  let c := op / 0x400
  let st := s.fld F.BOOT_STATE_STATE
  if !(st == 4 || st == 5 || st == 6) && !(c == 0 || c == 8 || c == 0xA || c == 0xB) then some 2
  else if !s.loaded && (c == 1 || c == 2 || c == 3 || c == 5 || c == 6 || (0x2420 ≤ op && op ≤ 0x2423)) then some 1
  else none

/-- What the body of a slip command answers. -/
inductive SlipRes where
  /-- effect done, reply now -/
  | done (s : State) (a : Answer)
  /-- held; run again when the reason is gone -/
  | hold (s : State) (why : Hold)
  /-- taken up; an event will answer it -/
  | wait (s : State)
  /-- no reply ever: the device is restarting (R44) -/
  | gone (s : State)

/-- A status without effect. -/
def SlipRes.no (s : State) (status : Nat) (detail : Nat := 0) : SlipRes := .done s (Answer.st status detail)

/-- Finish a slip's command with its body's result.  A slip held for a revive has begun its effect; one held only until the session's
logs are here has not, and later slips of its context and session stay behind it (R56, R57). -/
def SlipRes.close (r : SlipRes) (op : Nat) (x : Slip) : State :=
  match r with
  | .done s a => s.finish op x a
  | .hold s why =>
    let reviving := fun (a : Nat) => s.sessions.any (fun q => q.2.accession == a && q.2.state == 8)
    let stage := match why with
      | .revive a => if reviving a then Stage.waiting else .accepted
      | .park _ => .waiting
      | _ => .accepted
    { s.updOutst x.src x.tag (fun o => { o with stage := stage }) with
      held := s.held ++ [({ op := BitVec.ofNat 16 op, slip := x }, why)] }
  | .wait s => s.updOutst x.src x.tag (fun o => { o with stage := .waiting })
  | .gone s => { s with slips := s.slips.filter (fun o => !(o.slip.src == x.src && o.slip.tag == x.tag)) }

/-- Run an accepted slip: order, device state, then its body. -/
def State.execSlip (s : State) (op : Nat) (x : Slip) (body : State → SlipRes) : State :=
  if blockedBy op x s.slips then (SlipRes.hold s .order).close op x
  else match s.notReady op with
    | some d => (SlipRes.no s St.NOT_READY d).close op x
    | none => (body s).close op x

/-- The submission-queue index a slip that arrives by itself is reported under: its pair's next one. -/
def State.arrivalIdx (s : State) (x : Slip) : Nat := match x.src with | .pair q => (s.qp q).sqHead | _ => 0

/-- The frame of every slip command: the accepted slip that the device runs has its effect; any other slip arrives: it is put to the
checks of R55, and has its effect once accepted. -/
def runSlip (op : Nat) (x : Slip) (s : State) (body : State → SlipRes) : Host.Outcome State Fault Refusal :=
  match s.outst x.src x.tag with
  | some o =>
    if o.op == op && o.slip == x && o.stage == .running then .next (s.execSlip op x body)
    else .next (s.enrol op x .accepted (s.arrivalIdx x)).1
  | none =>
    let a := s.enrol op x .accepted (s.arrivalIdx x)
    if a.2 then .next (a.1.execSlip op x body) else .next a.1

end Sys2Proof.Machine
end

