-- ==== Sys2Proof/Machine/ErrFrame.lean ====
section
/-!
DEFINITION. Error records (R336, R337): the log, the sticky area, the interrupt; shared by every command that finds an error.
-/

namespace Sys2Proof.Machine

/-! ## Kinds (Table 13.6) -/

namespace Ek
def LINK_REPLAY_EXHAUSTED : Nat := 1
def LINK_FAILED : Nat := 2
def NBU_PARITY : Nat := 3
def NBU_STORE : Nat := 4
def ME_PARITY : Nat := 5
def HBM_CE_THRESHOLD : Nat := 6
def HBM_UE : Nat := 7
def DDR_CE_THRESHOLD : Nat := 8
def DDR_UE : Nat := 9
def SRAM_CE_THRESHOLD : Nat := 10
def SRAM_UE : Nat := 11
def COLOPHON_FORMAT : Nat := 12
def COLOPHON_CRC : Nat := 13
def COLOPHON_ALIVE : Nat := 14
def KNOWN_ANSWER : Nat := 15
def UNIT_DISABLED : Nat := 16
def CONSERVATION : Nat := 17
def WATCHDOG : Nat := 18
end Ek

/-- UNIT of an error record: type in [15:13], number below (Table 13.5). -/
def errUnit (type number : Nat) : Nat := type * 8192 + number

/-- An error record as its 32 bytes (Table 13.5). -/
def ErrRec.bytes (r : ErrRec) : Bytes :=
  leBytes 4 r.index ++ leBytes 1 (r.cls + 16 * b2n r.injected) ++ leBytes 1 r.kind ++ leBytes 2 r.unit ++ leBytes 8 r.tick
    ++ leBytes 8 r.address ++ leBytes 8 r.accession

/-- Change the error side. -/
def State.updErrs (s : State) (f : Errs → Errs) : State := { s with errs := f s.errs }

/-- The interrupt of a record (R337): at most one message per 10 µs, a later one held back. -/
def State.errIrq (s : State) (cls : Nat) : State :=
  if s.flag F.ERR_CTRL_IRQ_EN && bitOf (s.fld F.ERR_CTRL_IRQ_CLASS) cls then
    let held : Bool := match s.errs.lastIrq with | some t => decide (s.tick < t + 1000) | none => false
    if held then s.updErrs (fun e => { e with irqHeld := true })
    else (s.updErrs (fun e => { e with lastIrq := some s.tick })).sendMsix (s.fld F.ERR_CTRL_VEC)
  else s

/-- Does an armed injection match a record to be written (R347)?  The lines of HBM and of the cellar are matched as lines. -/
def Inject.hits (j : Inject) (kind unit address : Nat) : Bool :=
  j.count != 0 && j.kind == kind && j.unit == unit
    && (if kind == Ek.HBM_UE || kind == Ek.DDR_UE then j.address / 64 == address / 64 else j.address == address)

/-- Use up one access of the injection that matches; answers whether there was one. -/
def State.useInject (s : State) (kind unit address : Nat) : State × Bool :=
  match s.errs.inject.findIdx? (fun j => j.hits kind unit address) with
  | some k =>
    let less := s.errs.inject.modify k (fun j => { j with count := j.count - 1 })
    (s.updErrs (fun e => { e with inject := less.filter (fun j => j.count != 0) }), true)
  | none => (s, false)

/-- Write an error record (R336): its INDEX is ERR_LOG_HEAD.NEXT before; classes 4 and 5 go to the sticky area too, whose
oldest entry makes room when it is full (log entry 33).  An error an armed injection matches carries INJECTED (R347). -/
def State.errRecord (s : State) (cls kind unit address acc : Nat) : State :=
  let j := s.useInject kind unit address
  let s := j.1
  let r : ErrRec := { index := s.fld F.ERR_LOG_HEAD_NEXT, cls := cls, injected := j.2, kind := kind, unit := unit, tick := s.tick,
                      address := address, accession := acc }
  let full := s.errs.log.length ≥ 1024
  let s := s.updErrs fun e =>
    { e with log := (if full then e.log.drop 1 else e.log) ++ [r],
             sticky := if cls ≥ 4 then (if e.sticky.length ≥ 16 then e.sticky.drop 1 else e.sticky) ++ [r] else e.sticky }
  let s := if full then s.bump F.ERR_CNT_LOG_LOST_COUNT else s
  let s := if j.2 then s.bump F.ERR_CNT_INJECTED_COUNT else s
  let s := if cls == 1 then s.bump F.ERR_CNT_RECOVERED_COUNT else if cls == 2 then s.bump F.ERR_CNT_LOST_COUNT else s
  (((s.bump F.ERR_LOG_HEAD_NEXT).traceEv 2 kind unit r.index acc address)).errIrq cls

/-- INDEX the last record got: the DETAIL of MEDIA and INTERNAL. -/
def State.lastErr (s : State) : Nat := (s.fld F.ERR_LOG_HEAD_NEXT + 2 ^ 32 - 1) % 2 ^ 32

/-- An object refused by its colophon (R341): the record of the step that failed and the count. -/
def State.colophonErr (s : State) (kind address acc : Nat) : State :=
  (s.bump F.ERR_CNT_COLOPHON_COUNT).errRecord 1 kind 0 address acc

/-- A count of DEV_CAP1 falls by one; below its floor the device goes on, sets BELOW_FLOOR and writes a record (R411). -/
def State.dropUnit (s : State) (f : Fld) : State :=
  let n := s.fld f
  let s := s.setFld f (n - 1)
  let st := s.fld F.BOOT_STATE_STATE
  if (st == 4 || st == 5 || st == 6) && n == s.fld { f with addr := A.BOOT_FLOOR } then
    (s.setFld F.BOOT_STATE_BELOW_FLOOR 1).errRecord 3 Ek.UNIT_DISABLED 0 0 0
  else s

end Sys2Proof.Machine
end

