-- ==== Sys2Proof/Machine/LockFrame.lean ====
section
/-!
DEFINITION. Maintenance locks (R421-R423): scopes, the compatibility matrix, taking and releasing.
-/

namespace Sys2Proof.Machine

/-! ## Activities (Table 16.7) -/

namespace Ac
def CHECKPOINT : Nat := 1
def PROFILE_RELOAD : Nat := 2
def FW_ACTIVATE : Nat := 3
def PATROL : Nat := 4
def RETRAIN : Nat := 5
def ROW_REPAIR : Nat := 6
def PROGRAM_RELOAD : Nat := 7
def HOST_RECLAIM : Nat := 8
end Ac

/-- Activities Table 16.8 marks S against each activity. -/
def serialised (a : Nat) : List Nat :=
  match a with
  | 1 => [1, 2, 3, 8]
  | 2 => [1, 2, 3, 5, 6, 7]
  | 3 => [1, 2, 3, 4, 5, 6, 7, 8]
  | 4 => [3, 4, 5, 6]
  | 5 => [2, 3, 4, 5, 6, 7]
  | 6 => [2, 3, 4, 5, 6, 7]
  | 7 => [2, 3, 5, 6, 7]
  | 8 => [1, 3, 8]
  | _ => []

/-- Do two scopes overlap (R421)?  Codes 0 device, 1 tier, 2 stack, 3 channel, 4 port. -/
def scopesOverlap (sa ia sb ib : Nat) : Bool :=
  sa == 0 || sb == 0 || (sa == sb && ia == ib)
    || (sa == 1 && ia == 1 && sb == 2) || (sb == 1 && ib == 1 && sa == 2)
    || (sa == 1 && ia == 2 && sb == 3) || (sb == 1 && ib == 2 && sa == 3)

/-- Does a held lock stand against a request (R422)? -/
def Lock.against (l : Lock) (activity scope index : Nat) : Bool :=
  (serialised activity).contains l.activity && scopesOverlap l.scope l.index scope index

/-- A background patrol of the Rind gives way (R422). -/
def Lock.yields (l : Lock) : Bool := l.activity == Ac.PATROL && l.holder.isNone

/-- The lock that refuses a request, the Rind's background patrol apart. -/
def State.lockBusy (s : State) (activity scope index : Nat) : Option Lock :=
  s.locks.find? (fun l => l.against activity scope index && !l.yields)

/-- Source code and index of a lock's holder (R422). -/
def Lock.source (l : Lock) : Nat × Nat :=
  match l.holder with
  | some (.pair q) => (1, q)
  | some (.mgmt c) => (2, c)
  | some (.peer c) => (1, c)
  | _ => (0, 0)

/-- DETAIL of a refused lock request (R422). -/
def Lock.detail (l : Lock) : Nat :=
  let h := l.source
  h.1 * 2 ^ 30 + l.activity * 2 ^ 26 + (h.2 % 2 ^ 10) * 2 ^ 16 + l.id % 2 ^ 16

/-- ID of the next lock: the first from `nextLock` on, of 1 to 65,535, that no held lock has (R430). -/
def State.lockId (s : State) : Nat :=
  (((List.range 65535).map (fun k => (s.nextLock + 65534 + k) % 65535 + 1)).find? (fun n => !s.locks.any (fun l => l.id == n))).getD 1

/-- Take a lock: the background patrols it conflicts with end (R422). -/
def State.takeLock (s : State) (holder : Option Ctx) (activity scope index : Nat) (auto active : Bool) : State :=
  let n := s.lockId
  let l : Lock := { id := n, activity := activity, scope := scope, index := index, holder := holder, auto := auto,
                    active := active, ending := false }
  let overridden := s.locks.filter (fun o => o.against activity scope index && o.yields)
  { s with locks := s.locks.filter (fun o => !(o.against activity scope index && o.yields)) ++ [l],
           nextLock := n % 65535 + 1,
           boot := { s.boot with acts := s.boot.acts.filter (fun (a : Activity) => !overridden.any (fun o => o.id == a.lock)) } }

/-- A lock request is refused (R422): BUSY with the holder, counted. -/
def State.lockRefused (s : State) (l : Lock) : SlipRes := .no (s.bump F.BOOT_CNT_LOCK_BUSY_COUNT) St.BUSY l.detail

/-- Does a held lock cover a scope (R421, R423)? -/
def Lock.covers (l : Lock) (scope index : Nat) : Bool :=
  l.scope == 0 || (l.scope == scope && l.index == index) || (l.scope == 1 && l.index == 1 && scope == 2)
    || (l.scope == 1 && l.index == 2 && scope == 3)

/-- The lock a maintenance slip runs under (R423): its own, for LOCK 0, or the one it names.  Answers the state with that lock taken
and active, and the lock's ID. -/
def State.lockFor (s : State) (x : Slip) (activity scope index want : Nat) : Except SlipRes (State × Nat) :=
  if want == 0 then
    match s.lockBusy activity scope index with
    | some l => .error (s.lockRefused l)
    | none =>
      if (s.locks.filter (fun o => !(o.against activity scope index && o.yields))).length ≥ 32 then .error (.no s St.NO_SLOTS 14)
      else .ok (s.takeLock (some x.src) activity scope index true true, s.lockId)
  else match s.locks.find? (fun l => l.id == want) with
    | some l =>
      if l.holder != some x.src || l.activity != activity || !l.covers scope index then .error (.no s St.BAD_PARAM 3)
      else if l.active then .error (s.lockRefused l)
      else .ok ({ s with locks := s.locks.map (fun (o : Lock) => if o.id == want then { o with active := true } else o) }, want)
    | none => .error (.no s St.BAD_PARAM 3)

/-- Release the locks a test picks. -/
def State.dropLocks (s : State) (p : Lock → Bool) : State := { s with locks := s.locks.filter (fun l => !p l) }

/-- The activity under a lock ends: the lock goes with it when it was taken for that alone, or its context has ended (R423). -/
def State.endActivity (s : State) (id : Nat) : State :=
  let keep := s.locks.filter (fun l => !(l.id == id && (l.auto || l.ending)))
  { s with locks := keep.map (fun (l : Lock) => if l.id == id then { l with active := false } else l) }

/-- A context ends: its locks go, those with an activity running under them once it completes (R423). -/
def State.contextLocks (s : State) (c : Ctx) : State :=
  let keep := s.locks.filter (fun l => !(l.holder == some c && !l.active))
  { s with locks := keep.map (fun (l : Lock) => if l.holder == some c then { l with ending := true } else l) }

/-- Is a stack (scope 2) or cellar channel (scope 3) being retrained, its traffic held (R425)? -/
def State.retraining (s : State) (scope index : Nat) : Bool :=
  s.boot.acts.any (fun a => a.activity == 5 && a.scope == scope && a.index == index)

/-- Is any stack being retrained? -/
def State.stackRetrains (s : State) : Bool := s.boot.acts.any (fun a => a.activity == 5 && a.scope == 2)

end Sys2Proof.Machine
end

