-- ==== Sys2Proof/Machine/SessFrame.lean ====
section
/-!
DEFINITION. What every command on sessions shares: the session table (R70-R75), quotas and page slots (R85, R105, R185),
the step queues (R239), revive and hold (R80, R92), the checks of a slip that names a session (R58, R63, R293, R464), and
the life-cycle transitions of Table 3.5.
-/

namespace Sys2Proof.Machine

/-! ## States (Table 3.4) -/

namespace Ss
def FREE : Nat := 0
def ACCESSIONED : Nat := 1
def PREFILL : Nat := 2
def DECODE : Nat := 3
def WAITING : Nat := 4
def RING_FULL : Nat := 5
def PARKED : Nat := 6
def MOVING : Nat := 7
def REVIVING : Nat := 8
def PREEMPTED : Nat := 9
def TRANSCRIPT_ONLY : Nat := 10
def CLOSED : Nat := 11
end Ss

/-- A table entry with nothing in it. -/
def Sess.blank : Sess :=
  { accession := 0, state := 0, resume := 0, tenant := 0, template := false, armed := false, forked := false,
    toolWait := false, heldRecord := false, rebuild := false, tier := 0, fault := 0, kvLength := 0, shelvedLength := 0,
    pending := 0, parent := 0, forkLength := 0, mask := 0, maskValid := false, ring := 0, attached := false,
    sampling := 0, grammar := 0, grammarState := 0, reqRemaining := 0, ttlWait := 0, ttlT2 := 0, ttlT3 := 0, ttlT4 := 0,
    ttlTranscript := 0, deadline := 0, entered := 0, vft := 0, holder1 := 0,
    holder2 := 0, holderTier1 := 0, holderTier2 := 0, shelfGen := 0, genTop := 0, steps := 0, preempts := 0, faultTag := 0,
    entryGen := 0, transcript := [], maskLog := [], pages := [], down := [], manifest := none, req := none,
    heldGroups := [], heldFinal := false, logCharge := 0, img := [0, 0, 0], reached := 0,
    away := false, awayLen := 0, floor := false, inStep := false, cancel := false, parking := 0,
    reviveFrom := 0, reviveDeadline := 0, reviveNote := 0, reviveTokens := 0, mediaDue := none }

/-- The entry at an index; a FREE one keeps its ENTRY_GEN (Table 3.1). -/
def State.sess (s : State) (i : Nat) : Sess :=
  (tGet s.sessions i).getD { Sess.blank with entryGen := (tGet s.entryGens i).getD 0 }

/-- Store an entry; ENTRY_GEN increments on every change (Table 3.1).  The table is read and written at once: how many entries the
entry cache of R71 holds and which it evicts, and so SESS_CNT_MISS, are left out (log entry 78). -/
def State.setSess (s : State) (i : Nat) (e : Sess) : State :=
  let old := s.sess i
  if e = old then s
  else
    let s := if e.state == old.state then s else s.traceEv 3 e.state 0 0 e.accession 0
    { s with sessions := tPut s.sessions i { e with entryGen := (old.entryGen + 1) % 2 ^ 32 } }

/-- Change an entry. -/
def State.updSess (s : State) (i : Nat) (f : Sess → Sess) : State := s.setSess i (f (s.sess i))

/-- The entry becomes FREE (R78). -/
def State.freeSess (s : State) (i : Nat) : State :=
  { s with entryGens := tPut s.entryGens i (((s.sess i).entryGen + 1) % 2 ^ 32), sessions := tDel s.sessions i }

/-- The session with an accession number, with its index. -/
def State.findSess (s : State) (acc : Nat) : Option (Nat × Sess) :=
  if acc == 0 then none else s.sessions.find? (fun p => p.2.accession == acc)

/-- Sessions in a state (SESS_COUNT_s, Table 3.13). -/
def State.countState (s : State) (st : Nat) : Nat :=
  if st == 0 then 1048576 - s.sessions.length else (s.sessions.filter (fun p => p.2.state == st)).length

/-- TTL of a state or tier in units of 100 ms; none when no expiry runs there (Table 3.4, R90). -/
def State.ttlOf (s : State) (e : Sess) : Option Nat :=
  if e.state == Ss.ACCESSIONED || e.state == Ss.WAITING then some e.ttlWait
  else if e.state == Ss.PARKED then
    some (if e.tier == 2 then e.ttlT2 else if e.tier == 3 then e.ttlT3 else e.ttlT4)
  else if e.state == Ss.TRANSCRIPT_ONLY then some e.ttlTranscript
  else if e.state == Ss.CLOSED then some (s.fld F.SESS_TTL_DEF2_CLOSED_HOLD)
  else none

/-- DEADLINE as set on entering a state or reaching a tier: that moment plus the value for it (R90). -/
def State.deadlineOf (s : State) (e : Sess) : Nat :=
  match s.ttlOf e with
  | some t => (if e.state == Ss.PARKED then e.reached else e.entered) + t * tick100ms
  | none => 0

/-- Enter a state: STATE, ENTERED and DEADLINE; `resume` is the RESUME_STATE of the new state (0 where it has none). -/
def State.enter (s : State) (i st : Nat) (resume : Nat := 0) : State :=
  let s := if s.cat.leaving then s.wake .cat else s
  s.updSess i fun e =>
    let e := { e with state := st, resume := resume, entered := s.tick, reached := s.tick }
    { e with deadline := s.deadlineOf e }

/-! ## Partitions and variants (R24, R405, Table 16.3) -/

/-- A fuse word. -/
def State.fuse (s : State) (w : Nat) : Nat := (tGet s.fuses w).getD 0

/-- VARIANT: 0 YD-7680, 1 YD-5120, 2 YD-3840. -/
def State.variant (s : State) : Nat := bitsOf (s.fuse 0) 7 0

/-- A YD-3840 has no east partition. -/
def State.onePartition (s : State) : Bool := s.variant == 2

/-- Home partition of an entry: 0 west, 1 east (R24). -/
def State.home (s : State) (i : Nat) : Nat := if s.onePartition then 0 else i % 2

/-- State of a partition in DEV_PART. -/
def State.part (s : State) (p : Nat) : Nat := s.fld (if p == 0 then F.DEV_PART_WEST else F.DEV_PART_EAST)

/-- Entry index for a new session (R70): lowest free index of the parity whose partition holds fewer live entries, west on
a tie, else of the other parity; lowest free index on a YD-3840. -/
def State.newIndex (s : State) : Option Nat :=
  if s.onePartition then tFree s.sessions 1 1048576 0
  else
    let live := s.sessions.filter (fun p => p.2.state != Ss.CLOSED)
    let west := (live.filter (fun p => p.1 % 2 == 0)).length
    let east := (live.filter (fun p => p.1 % 2 == 1)).length
    let first := if east < west then 1 else 0
    match tFree s.sessions 2 524288 first with
    | some i => some i
    | none => tFree s.sessions 2 524288 (1 - first)

/-! ## Quotas (R185, R186) -/

/-- A tenant's quota in tier 1 to 4; the operator reserve is tenant 0xFFFF. -/
def State.quota (s : State) (t tier : Nat) : Quota := ((s.tenant t).quotas[tier - 1]?).getD Quota.fresh

/-- Does a charge of `n` quarter pages fit? -/
def State.quotaFits (s : State) (t tier n : Nat) : Bool :=
  let q := s.quota t tier
  n == 0 || q.limit == 0xFFFFFFFF || q.used + n ≤ q.limit

/-- Store a quota's usage. -/
def State.setUsed (s : State) (t tier n : Nat) : State :=
  s.updTenant t fun v => { v with quotas := v.quotas.set (tier - 1) { s.quota t tier with used := n } }

/-- Charge and discharge quarter pages. -/
def State.addUsed (s : State) (t tier n : Nat) : State :=
  if n == 0 then s else s.setUsed t tier ((s.quota t tier).used + n)
def State.subUsed (s : State) (t tier n : Nat) : State :=
  if n == 0 then s else s.setUsed t tier ((s.quota t tier).used - n)

/-! ## T1 page slots (R85, R105, R109) -/

/-- Is NBU n enabled and not soft-disabled (R36, R149)? -/
def State.nbuOn (s : State) (n : Nat) : Bool :=
  n < 6144 && (s.reg (A.NBU_EN + 8 * (n / 64))).toNat.testBit (n % 64)
    && !(s.reg (A.NBU_DIS + 8 * (n / 64))).toNat.testBit (n % 64)

/-- GEN of a slot (R105). -/
def State.gen (s : State) (slot : Nat) : Nat := (tGet s.gens slot).getD s.genBase

/-- GEN increments (R105); well before it reaches GEN_FLOOR the Rind starts to raise the record (R309). -/
def State.bumpGen (s : State) (slot : Nat) : State :=
  let g := s.gen slot + 1
  let s := { s with gens := tPut s.gens slot g }
  if g + 2 ^ 15 ≥ s.genFloor && !s.floorBusy && s.genFloor + 2 ^ 16 < 2 ^ 32 then { s.emit (.flashWrite 0) with floorBusy := true } else s

/-- May a slot's GEN rise for a new page: below its end (R105), GEN_FLOOR, and 4,095 above the newest sealed checkpoint (R309)? -/
def State.genFree (s : State) (k : Nat) : Bool :=
  let g := s.gen k
  g < 0xFFFFFFFF && (g + 1 < s.genFloor || s.genFloor + 2 ^ 16 ≥ 2 ^ 32) && match s.ckpt.sealedGens with
    | some t => g < (tGet t.1 k).getD t.2 + 4095
    | none => true

/-- Does a slot hold a line marked as damaged (R334)? -/
def State.slotHurt (s : State) (k : Nat) : Bool :=
  s.errs.poison.any (fun l => l.1 == 0 && l.2 / 1024 == k) || s.boot.acts.any (fun a => a.activity == 6 && a.row / 32 == k)

/-- The first of `n` numbers from `k` that a test accepts. -/
def firstFrom (ok : Nat → Bool) : Nat → Nat → Option Nat
  | 0, _ => none
  | n + 1, k => if ok k then some k else firstFrom ok n (k + 1)

/-- How many of `n` numbers from `k` a test accepts, on top of `c`. -/
def countFrom (ok : Nat → Bool) : Nat → Nat → Nat → Nat
  | 0, _, c => c
  | n + 1, k, c => countFrom ok n (k + 1) (if ok k then c + 1 else c)

/-- Can a slot of the plan's region take a new page?  Not allocated, its GEN can still rise (R105, R309), not held for a checkpoint
(R308), without a damaged line (R334), and of a pair whose NBU is enabled (R123). -/
def State.slotFree (s : State) (k : Nat) : Bool :=
  (tGet s.slots k).isNone && s.genFree k && !s.ckpt.heldSlots.contains k && !s.slotHurt k && s.nbuOn (k / 2048)

/-- The runs of slots the plan gives a class: (first, length). -/
def Profile.runs (p : Profile) (c : PlanClass) : List (Nat × Nat) :=
  (p.plan.filter (·.cls == c)).flatMap fun r => (List.range r.count).map fun n => (r.first + n * r.stride, r.len)

/-- Slots of a class. -/
def Profile.slotsOf (p : Profile) (c : PlanClass) : Nat := ((p.runs c).map (·.2)).foldl (· + ·) 0

/-- Does a slot lie in a region of a class? -/
def Profile.holds (p : Profile) (c : PlanClass) (k : Nat) : Bool := (p.runs c).any fun r => r.1 ≤ k && k < r.1 + r.2

/-- The n-th slot of a list of runs. -/
def nthOf : List (Nat × Nat) → Nat → Option Nat
  | [], _ => none
  | r :: l, n => if n < r.2 then some (r.1 + n) else nthOf l (n - r.2)

/-- Slots of a class that can take a page. -/
def State.freeOf (s : State) (p : Profile) (c : PlanClass) : Nat :=
  ((p.runs c).map fun r => countFrom s.slotFree r.2 r.1 0).foldl (· + ·) 0

/-- Free KV slots (TIER_FREE_T1, quantity SLOT of Table 14.1): those of the KV region that can take a page, less those reserved
beyond what the promotion reserve holds (R109, R184). -/
def State.freeT1 (s : State) : Nat :=
  match s.profile with
  | some p => s.freeOf p .kv - (s.reserved - s.freeOf p .promotion)
  | none => 0

/-- Stack of a slot: 512 bank pairs of 2,048 slots (Table 5.2). -/
def slotStack (k : Nat) : Nat := k / 2 ^ 20

/-- Pages of a session in a stack. -/
def State.stackLoad (s : State) (acc st : Nat) : Nat :=
  match s.findSess acc with
  | some q => ((q.2.pages.flatMap fun r => if r.format == 1 then [r.slot, r.second] else [r.slot]).filter (fun k => slotStack k == st)).length
  | none => 0

/-- A slot for a new page of a session: the pages of every session lie in all enabled stacks (R24), so the stack that holds fewest
of its pages is taken, and its lowest free slot (log entry 11). -/
def State.pickSlot (s : State) (acc : Nat) : Option Nat :=
  match s.profile with
  | some p =>
    let best := fun (b : Option Nat) (k : Nat) => match b with
      | none => some k
      | some j =>
        let lj := s.stackLoad acc (slotStack j)
        let lk := s.stackLoad acc (slotStack k)
        if lk < lj || (lk == lj && k < j) then some k else b
    ((p.runs .kv).filterMap fun r => firstFrom s.slotFree r.2 r.1).foldl best none
  | none => none

/-- A slot beside another: of slot `k`'s own bank pair, where a promotion takes its second slot (R136), from the promotion reserve
first; else as `pickSlot`, or from the rest of the reserve. -/
def State.pickNear (s : State) (acc : Nat) : Option Nat → Option Nat
  | none => s.pickSlot acc
  | some k => match s.profile with
    | some p =>
      let pair := fun (c : PlanClass) => firstFrom (fun j => p.holds c j && s.slotFree j) 2048 (k / 2048 * 2048)
      let rest := ((p.runs .promotion).filterMap fun r => firstFrom s.slotFree r.2 r.1).head?
      [pair .promotion, pair .kv, s.pickSlot acc, rest].findSome? id
    | none => none

/-- Place a page of session `acc` in a fresh slot of tenant `t`, near a slot where one is given: four quarter pages, reference count 1,
GEN incremented; charging it is the caller's. -/
def State.placeSlot (s : State) (t acc : Nat) (near : Option Nat := none) : Option (Nat × State) :=
  match s.pickNear acc near with
  | some k =>
    let s := { s with slots := tPut s.slots k { refs := 1, tenant := t, charge := 4, acc := acc } }
    some (k, s.bumpGen k)
  | none => none

/-- Place a page and charge it.  The quota test is the caller's. -/
def State.takeSlot (s : State) (t acc : Nat) (near : Option Nat := none) : Option (Nat × State) :=
  match s.placeSlot t acc near with
  | some (k, s) => some (k, s.addUsed t 1 4)
  | none => none

/-- Raise a slot's reference count. -/
def State.refSlot (s : State) (k : Nat) : State :=
  match tGet s.slots k with
  | some u => { s with slots := tPut s.slots k { u with refs := u.refs + 1 } }
  | none => s

/-- Drop one reference; at 0 the slot is released and its charge with it (R85); while a snapshot is protected it stays allocated
(R308). -/
def State.dropSlot (s : State) (k : Nat) : State :=
  match tGet s.slots k with
  | some u =>
    if u.refs ≤ 1 then
      ({ s with slots := tDel s.slots k,
                ckpt := { s.ckpt with heldSlots := if s.ckpt.guarding then s.ckpt.heldSlots ++ [k] else s.ckpt.heldSlots } }).subUsed u.tenant 1 u.charge
    else { s with slots := tPut s.slots k { u with refs := u.refs - 1 } }
  | none => s

/-- The slots of a page: one, or two for a wide page (R102). -/
def PageRef.slots (p : PageRef) : List Nat := if p.format == 1 then [p.slot, p.second] else [p.slot]

/-- Bytes of a mask log (Table 3.7). -/
def maskBytes (l : List MaskRec) : Nat := (l.map (fun m => 16 + cdiv m.len 8)).foldl (· + ·) 0
/-- T1 slots charged to a session (PAGES_T1): the pages it created, and its mask log in whole slots. -/
def State.pagesT1 (s : State) (e : Sess) : Nat :=
  ((e.pages.flatMap PageRef.slots).filter (fun k => match tGet s.slots k with | some u => u.acc == e.accession | none => false)).length
    + (if e.logCharge == 0 then 0 else cdiv (maskBytes e.maskLog) 65536)

/-- CHILDREN (R72): live sessions, forked from this one or from its forks, that reference a T1 page it created. -/
def State.childCount (s : State) (e : Sess) : Nat :=
  (s.sessions.filter fun q => q.2.accession != e.accession && (q.2.pages.flatMap PageRef.slots).any fun k =>
    match tGet s.slots k with | some u => u.acc == e.accession | none => false).length

/-- Release every T1 page a session references. -/
def State.dropPages (s : State) (i : Nat) : State :=
  (((s.sess i).pages.flatMap PageRef.slots).foldl State.dropSlot s).updSess i (fun e => { e with pages := [] })

/-- TRANSCRIPT_LENGTH (R75). -/
def Sess.tlen (e : Sess) : Nat := (if e.away then e.awayLen else 0) + e.transcript.length

/-- Quarter pages of a session's transcript blocks and mask log together (R185, R87). -/
def Sess.logQuarters (e : Sess) : Nat := cdiv (cdiv e.tlen 1024 * 4096 + maskBytes e.maskLog) 16384

/-- Bring the T1 charge of a session's transcript and mask log to `n` quarter pages. -/
def State.setLog (s : State) (i n : Nat) : State :=
  let e := s.sess i
  let s := if n ≥ e.logCharge then s.addUsed e.tenant 1 (n - e.logCharge) else s.subUsed e.tenant 1 (e.logCharge - n)
  s.updSess i (fun e => { e with logCharge := n })

/-- Charge the transcript and mask log of a hot session in T1. -/
def State.chargeLog (s : State) (i : Nat) : State := s.setLog i (s.sess i).logQuarters

/-- Set the charges of a session's shelf image in T2, T3 and T4. -/
def State.setImg (s : State) (i : Nat) (q : List Nat) : State :=
  let e := s.sess i
  let one := fun (s : State) (k : Nat) =>
    let a := e.img.getD k 0
    let b := q.getD k 0
    if b ≥ a then s.addUsed e.tenant (k + 2) (b - a) else s.subUsed e.tenant (k + 2) (a - b)
  ([0, 1, 2].foldl one s).updSess i (fun e => { e with img := q })

/-! ## The step queues (R239) -/

/-- Signed wrapping comparison of tags: `a` before `b`. -/
def tagLt (a b : Nat) : Bool := (b + 2 ^ 64 - a) % 2 ^ 64 < 2 ^ 63 && a != b

/-- Insert in order of VFT, then tenant, then order of queueing (R240). -/
def qInsert (x : Queued) : List Queued → List Queued
  | [] => [x]
  | y :: l =>
    if tagLt x.vft y.vft || (x.vft == y.vft && (x.tenant < y.tenant || (x.tenant == y.tenant && x.order < y.order)))
    then x :: y :: l else y :: qInsert x l

/-- Queue a session at a cost in 2⁻⁸ token (R239): its VFT and its tenant's finish tag are set. -/
def State.enqueue (s : State) (i : Nat) (prefill : Bool) (cost : Nat) : State :=
  let e := s.sess i
  let t := s.tenant e.tenant
  let base := if tagLt s.sched.v t.finish then t.finish else s.sched.v
  let vft := (base + cdiv (cost * 2 ^ 16) (max t.weight 1)) % 2 ^ 64
  let s := (s.setTenant e.tenant { t with finish := vft }).updSess i (fun e => { e with vft := vft })
  let x : Queued := { since := s.tick, vft := vft, tenant := e.tenant, order := s.sched.next, idx := i }
  { s with sched := { s.sched with next := s.sched.next + 1,
                                   decode := if prefill then s.sched.decode else qInsert x s.sched.decode,
                                   prefill := if prefill then qInsert x s.sched.prefill else s.sched.prefill } }

/-- Take a session off both queues. -/
def State.dequeue (s : State) (i : Nat) : State :=
  { s with sched := { s.sched with decode := s.sched.decode.filter (fun q => q.idx != i),
                                   prefill := s.sched.prefill.filter (fun q => q.idx != i) } }

/-- Tokens of the next prefill chunk of a session: of its pending entries, or of the positions a revive has still to reach. -/
def State.chunkTokens (s : State) (i : Nat) : Nat :=
  let left := match tGet s.revives i with | some r => r.goal - (s.sess i).kvLength | none => (s.sess i).pending
  min left (s.fld F.ME_XCHG_CFG_PREFILL_CHUNK)

/-- Queue a session's next prefill chunk (R239). -/
def State.enqueuePrefill (s : State) (i : Nat) : State :=
  s.enqueue i true (s.chunkTokens i * s.fld F.SCHED_PROFILE_PREFILL_WT)

/-! ## Generation requests (R81) -/

/-- Is a text context open on the session (R209)? -/
def State.textOpen (s : State) (i : Nat) : Bool := (tGet s.text i).isSome

/-- GENERATED bit of a transcript entry (Table 3.3). -/
def entryGenerated (v : Nat) : Bool := v.testBit 29

/-- KIND of a transcript entry. -/
def entryKind (v : Nat) : Nat := bitsOf v 31 30

/-- Input tokens among a session's pending entries (Table 9.4): sampled tokens were charged when they were sampled. -/
def Sess.pendingInputs (e : Sess) : Nat :=
  let toks := e.transcript.filter (fun v => entryKind v == 0)
  ((toks.drop (toks.length - e.pending)).filter (fun v => !entryGenerated v)).length

/-- The last token entry of a transcript. -/
def Sess.lastToken (e : Sess) : Nat := ((e.transcript.filter (fun v => entryKind v == 0)).getLast?).getD 0

/-- The sampling slot a session's requests use (R215): none when never written, which reads as slot 0. -/
def State.sampSlot (s : State) (e : Sess) : Option SampSlot :=
  if e.sampling == 0 then none else tGet (s.tenant e.tenant).slots e.sampling

/-- A grammar of the loaded bundle (R222). -/
def State.grammarOf (s : State) (id : Nat) : Option Grammar := (s.profile.map (·.grammars)).bind (fun l => l.find? (·.id == id))

/-- A request record at the start of a request: stop strings from the slot (R214, R215), the grammar in its initial
configuration (R223), nothing sampled or held back (R224). -/
def State.openRequest (s : State) (i : Nat) : State :=
  let e := s.sess i
  let slot := s.sampSlot e
  let r : Req := { stops := (slot.map (·.stops)).getD [], maxTokens := e.reqRemaining, sampled := 0, heldBack := [], stack := [], cands := [],
                   stopInclude := (slot.map (·.incl)).getD false, lost := false }
  let g := (s.grammarOf e.grammar).map (·.start)
  s.updSess i fun e => { e with req := some r, steps := 0, grammarState := g.getD 0 }

/-! ## The catalogue's answer for a session not held (R284, R292, R293) -/

/-- The bucket of an accession number (R284). -/
def bucketOf (acc : Nat) : Nat := crc32c (leBytes 8 acc) / 2 ^ 16

/-- Where the owner of a session not in the table can be learnt. -/
inductive OwnerAt where
  | known (dev : Nat)
  | ask (dev : Nat)
  | unknown
  deriving DecidableEq, Repr

/-- Origin device of an accession number (R67). -/
def originOf (acc : Nat) : Nat := acc / 2 ^ 44

/-- A device's catalogue state: 0 unused, 1 ACTIVE, 2 LEAVING, 3 POOL, 4 GONE. -/
def State.devState (s : State) (d : Nat) : Nat := match tGet s.cat.devices d with | some v => v.state | none => 0

/-- This device's own location records answer for its buckets (R292). -/
def State.ownLocation (s : State) (acc : Nat) : Nat :=
  match s.cat.loc.find? (fun l => l.accession == acc) with
  | some l => l.owner
  | none => originOf acc

/-- The owner of a session, from a forwarding record, from the bucket this device owns, or from the bucket's primary owner
(R293); a bucket not yet received is asked of its old owner (R295). -/
def State.ownerAt (s : State) (acc : Nat) : OwnerAt :=
  match s.cat.fwd.find? (fun r => r.accession == acc) with
  | some r => .known r.owner
  | none =>
    match tGet s.cat.buckets (bucketOf acc) with
    | none => .unknown
    | some b =>
      match s.cat.waiting.find? (fun w => w.1 == bucketOf acc) with
      | some w => .ask w.2
      | none => if b.primary == s.devId || b.secondary == s.devId then .known (s.ownLocation acc) else .ask b.primary

/-- A slip whose session another device owns: forwarded with FORWARDED set, or answered MOVED; UNKNOWN_SESSION when the
owner is this device, GONE or unknown (R58, R293).  An owner that is LEAVING still owns its sessions (log entry 12). -/
def State.foreignTo (s : State) (op : Nat) (x : Slip) (owner : Nat) : SlipRes :=
  let st := s.devState owner
  if owner == s.devId || !(st == 1 || st == 2) then .no s St.UNKNOWN_SESSION
  else if x.noForward || x.forwarded then .done (s.bump F.CAT_CNT_MOVED_COUNT) (Answer.mk' St.MOVED 0 owner)
  else
    let s1 := (s.bump F.CAT_CNT_FORWARD_COUNT).sendForward owner op x
    .wait { s1 with cat := { s1.cat with forwards := s1.cat.forwards ++ [{ dev := owner, tag := s.nextTag, op := op, slip := x }] } }

/-- Is the session one of a removed device whose bucket this device has yet to adopt (R321)? -/
def State.adopting (s : State) (acc : Nat) : Bool :=
  s.cat.adopt.any (fun a => a.buckets.contains (bucketOf acc) && s.ownLocation acc == a.dev)

/-- A slip names a session this device does not hold (R293); one being adopted is busy (R321). -/
def State.foreign (s : State) (op : Nat) (x : Slip) : SlipRes :=
  if s.adopting x.acc then .no s St.SESSION_BUSY 7
  else match s.ownerAt x.acc with
  | .known d => s.foreignTo op x d
  | .unknown => .no s St.UNKNOWN_SESSION
  | .ask d =>
    let q : Locate := { accession := x.acc, asked := d, second := false, why := 0, left := 1, since := s.tick }
    let s := if s.cat.locates.any (fun l => l.accession == x.acc && l.why == 0) then s
      else (s.sendDev d Op.CAT_LOCATE x.acc x.ten [0, 0, s.epoch] []).updCat fun c => { c with locates := c.locates ++ [q] }
    .hold (s.bump F.CAT_CNT_LOCATE_COUNT) (.locate x.acc)

/-- Ask a device for the change lists since this member's epoch, or for the whole map, unless a fetch is in flight (R58,
R288). -/
def State.fetchFrom (s : State) (dev from_ part : Nat) : State :=
  let s := (s.sendDev dev Op.CAT_MAP_FETCH 0 0xFFFF [from_, part, 0, 0, 0, 1048448] []).bump F.CAT_CNT_FETCH_COUNT
  s.updCat fun c =>
    match c.fetch with
    | some f => { c with fetch := some { f with dev := dev, from_ := from_, parts := if part == 0 then [] else f.parts } }
    | none => { c with fetch := some { dev := dev, from_ := from_, epoch := 0, parts := [] } }

/-- A registrar other than this device, by the map it holds. -/
def State.someRegistrar (s : State) : Option Nat := (s.cat.devices.find? (fun d => d.2.registrar && d.1 != s.devId)).map (·.1)

/-- Ask a registrar for the newer map, once. -/
def State.fetchMap (s : State) : State :=
  if s.cat.fetch.isSome then s else s.fetchFrom (s.someRegistrar.getD 0) s.epoch 0

/-! ## Slips that name a session -/

/-- Slips that revive a parked session (R92). -/
def revivingOp (op : Nat) : Bool :=
  op == Op.SESS_REVIVE || op == Op.SESS_GENERATE || op == Op.TEXT_APPEND || op == Op.TEXT_APPEND_TOKENS || op == Op.SESS_FORK

/-- Is the member fenced (R356)? -/
def State.fenced (s : State) : Bool := s.flag F.RIND_AUDIT_STATUS_FENCED

/-- A payload structure refused under R60 and Table 2.10: preamble missing, another SID, an unknown major version, an SLEN
below the minimum or past the payload. -/
def badStruct (sid minLen : Nat) (b : Bytes) : Option (Nat × Nat) :=
  if b.length < 8 then some (St.PAYLOAD_TRUNCATED, 0)
  else if rdLe b 0 2 != sid then some (St.BAD_PARAM, 0x100 + sid)
  else if rdLe b 2 1 / 16 != 1 then some (St.BAD_VERSION, 0)
  else if rdLe b 4 4 < minLen || rdLe b 4 4 > b.length then some (St.PAYLOAD_TRUNCATED, 0)
  else none

/-- The status of a slip that needs a tenant's key, when it is absent (R371, R394). -/
def State.keyMissing (s : State) (t : Nat) : Option Nat :=
  let v := s.tenant t
  if v.key.isSome then none else some (if v.sealedErase then St.SEALED else St.NO_KEY)

/-- Has a snapshot barrier begun whose instant has not come (R307)?  Steps are not formed, slips do not act on sessions, expiries
and victim choices wait. -/
def State.barring (s : State) : Bool := s.fld F.CKPT_STATUS_PHASE == 1

/-- Is a restore running (R317)? -/
def State.restoring (s : State) : Bool := s.fld F.CKPT_STATUS_PHASE == 5

/-- Does a restore bar every session: one that runs (R317), or one that a violation's restart waits for (R362, log entry 93)? -/
def State.restoreDue (s : State) : Bool := s.restoring || s.boot.owed

/-- Is a profile reload under way, between its END and the resumption (R416)? -/
def State.reloading (s : State) : Bool := s.flag F.BOOT_STATE_RELOADING

/-- Does a slip carry a newer epoch than this device's (R58)? -/
def State.epochAhead (s : State) (x : Slip) : Bool := x.epoch.toNat != 0 && decide (x.epoch.toNat > s.epoch)

/-- Is a session's home partition out of service: RESETTING, or FAULTED until a device reset (R63, R419, log entry 95)? -/
def State.partDown (s : State) (i : Nat) : Bool := s.part (s.home i) ≥ 4

/-- Does this device hold a session whose home partition is out of service (R63)? -/
def State.homeResetting (s : State) (acc : Nat) : Bool :=
  acc != 0 && match s.findSess acc with
    | some (i, _) => s.partDown i
    | none => false

/-- The frame of a tier slip (R199): one that carries a newer epoch waits for the newer map (R58). -/
def runTier (op : Nat) (x : Slip) (s : State) (f : State → SlipRes) : Host.Outcome State Fault Refusal :=
  runSlip op x s fun s => if s.epochAhead x then .hold s.fetchMap .epoch else f s

/-- What bars a session slip before its session is looked up: a restore (R317), a reload (R416), a barrier (R307), a fence (R356), a
newer epoch (R58). -/
def State.sessGate (s : State) (op : Nat) (x : Slip) : Option SlipRes :=
  if s.restoreDue then some (.no s St.BUSY 0x1C02)
  else if s.reloading then some (.no s St.BUSY 0x2C02)
  else if s.barring && op != Op.SESS_QUERY then some (.hold s .barrier)
  else if s.fenced then some (.no s St.EPOCH_STALE)
  else if s.epochAhead x then some (.hold s.fetchMap .epoch)
  else none

/-- The frame of a slip that names a session: a restore (R317), a reload (R416), a barrier (R307), fence (R356), epoch (R58), ownership (R293, R320), tenant (R464), partition (R63), REVIVING and
MOVING (R80), a park being committed (R34), parameters (R41), then the opcode's own effect.  The order inside step 11 is
log entry 10. -/
def runSession (op : Nat) (x : Slip) (masks : List Nat) (s : State) (f : State → Nat → Sess → SlipRes) :
    Host.Outcome State Fault Refusal :=
  runSlip op x s fun s =>
    if x.acc == 0 then .no s St.UNKNOWN_SESSION
    else match s.sessGate op x with
    | some r => r
    | none => match s.findSess x.acc with
      | none => s.foreign op x
      | some (i, e) =>
        if s.cat.undecided.contains x.acc then .no s St.SESSION_BUSY 7
        else if op != Op.SESS_FORK && x.ten != e.tenant then .no s St.TENANT_MISMATCH
        else if s.partDown i then .no s St.NOT_READY 3
        else if (e.state == Ss.MOVING && op != Op.SESS_QUERY)
            || (e.state == Ss.REVIVING && op != Op.SESS_QUERY && op != Op.SESS_CLOSE) then
          .no s St.SESSION_BUSY e.state
        else match badParam x masks with
          | some k => .no s St.BAD_PARAM k
          | none => match e.mediaDue with
            | some d => .no (s.updSess i (fun e => { e with mediaDue := none })) St.MEDIA d
            | none => if e.parking != 0 && revivingOp op then .hold s (.park x.acc) else f s i e

/-- Record a session's owner with one owner of its bucket: here, or by CAT_LOCATE REGISTER (R292). -/
def State.registerAt (s : State) (dev acc owner : Nat) : State :=
  if dev == s.devId then
    s.updCat fun c =>
      { c with loc := { accession := acc, owner := owner, epoch := s.epoch } :: c.loc.filter (fun (l : LocRec) => l.accession != acc) }
  else s.sendDev dev Op.CAT_LOCATE acc 0xFFFF [1, owner, s.epoch] []

/-! ## Holders and commits: shared pieces (R190, R194, R198) -/

/-- Send a shelf command to a holder: carried out here when the holder is this device, sent otherwise.  Local DROP removes
the objects at once. -/
def State.sendDrop (s : State) (dev acc kind number alive : Nat) : State :=
  if dev == s.devId then
    let keep := fun (o : ShelfObj) => !(o.accession == acc && o.own && (kind == 0 || o.kind == kind)
      && (number == 0xFFFFFFFF || o.number == number) && (alive == 0xFFFFFFFF || o.alive < alive))
    { s with shelf := s.shelf.filter keep }
  else s.sendDev dev Op.TIER_SHELF_DROP acc 0xFFFF [kind, number, alive] []

/-- The devices holding copies of a session: both holders and the members of a T4 holder set. -/
def Sess.holderDevs (e : Sess) : List Nat :=
  if e.shelfGen == 0 && e.manifest.isNone then []
  else (e.holder1 :: e.holder2 :: (match e.manifest with | some m => m.holderSet | none => [])).eraseDups

/-- The devices a generation being committed is written to. -/
def Commit.devs (c : Commit) : List Nat := (c.h1 :: c.h2 :: c.manifest.holderSet).eraseDups

/-- Quarter pages a shelf body of `n` bytes rests in: whole 16 KiB units. -/
def bodyQuarters (n : Nat) : Nat := cdiv n 16384

/-- Drop every object of a session at every holder, discharging what rests here (R78, R198). -/
def State.dropImage (s : State) (i : Nat) : State :=
  let e := s.sess i
  let s := s.setImg i [0, 0, 0]
  let busy := match tGet s.commits i with | some c => c.devs | none => []
  let s := (e.holderDevs ++ busy).eraseDups.foldl (fun s d => s.sendDrop d e.accession 0 0xFFFFFFFF 0xFFFFFFFF) s
  let s := { s with shelf := s.shelf.filter (fun o => !(o.accession == e.accession && o.own)),
                    commits := tDel s.commits i }
  s.updSess i (fun e => { e with manifest := none, shelfGen := 0, shelvedLength := 0, parking := 0 })

/-- Drop the pre-emption copies of a session (R188). -/
def State.dropDown (s : State) (i : Nat) : State :=
  let e := s.sess i
  let s := e.down.foldl (fun s d => s.subUsed e.tenant d.tier (bodyQuarters d.body.length)) s
  s.updSess i (fun e => { e with down := [] })

/-- Detach a session's ring, discarding a held group (Table 3.5, Table 9.9). -/
def State.detachRing (s : State) (i : Nat) : State :=
  let e := s.sess i
  let s := if e.attached then s.setRing e.ring { s.ring e.ring with
      owner := none, discarded := (s.ring e.ring).discarded + e.heldGroups.length } else s
  s.updSess i (fun e => { e with ring := 0, attached := false, heldGroups := [], heldFinal := false, heldRecord := false })

/-- Answer every slip of a session that waits under an opcode. -/
def State.answerWaiters (s : State) (op acc : Nat) (a : Answer) : State :=
  let w := s.slips.filter (fun o => o.op == op && o.slip.acc == acc && o.stage == .waiting
    && !(s.held.any (fun h => h.1.slip == o.slip)))
  w.foldl (fun s o => s.finish op o.slip a) s

/-- A session that had moved in from elsewhere tells its bucket owners that its location record can go (R292). -/
def State.removeLocation (s : State) (acc : Nat) : State :=
  if originOf acc == s.devId then s
  else match tGet s.cat.buckets (bucketOf acc) with
    | none => s
    | some b =>
      let one := fun (s : State) (d : Nat) =>
        if d == s.devId then { s with cat := { s.cat with loc := s.cat.loc.filter (fun l => l.accession != acc) } }
        else s.sendDev d Op.CAT_LOCATE acc 0xFFFF [2, s.devId, s.epoch] []
      [b.primary, b.secondary].eraseDups.foldl one s

/-- Close a session (Table 3.5, R198): pages, copies, mask log, ring and text context go, holders are told to drop their
images, a commit or revive in progress is abandoned, and the entry stays CLOSED for its hold time. -/
def State.closeSess (s : State) (i : Nat) : State :=
  let e := s.sess i
  let back := (match tGet s.revives i with | some r => r.reserved | none => 0) + (match tGet s.prefills i with | some f => f.reserved | none => 0)
  let s := ({ s with reserved := s.reserved - back, prefills := tDel s.prefills i } : State).subUsed e.tenant 1 (4 * back)
  let s := ((((s.dropPages i).dropDown i).dropImage i).detachRing i).dequeue i
  let s := (s.setLog i 0).removeLocation e.accession
  let s := { s with text := tDel s.text i, revives := tDel s.revives i }
  let s := s.updSess i fun e =>
    { e with maskLog := [], mask := 0, maskValid := false, armed := false, toolWait := false, tier := 0,
             req := none, rebuild := false }
  let s := s.enter i Ss.CLOSED
  let s := s.answerWaiters Op.SESS_PARK e.accession (Answer.st St.BAD_STATE Ss.CLOSED)
  s.release (fun h => h == .revive e.accession || h == .park e.accession || h == .step e.accession)

/-- A read of a session's image, with nothing received. -/
def Revive.start (phase goal holder : Nat) : Revive :=
  { phase := phase, stage := 0, head := none, count := 0, asked := [(1, 0, holder)], lost := [], reserved := 0, readmit := false,
    runs := [], masks := [], lostPos := none, got := [], goal := goal, todo := [], past := 0 }

/-- Queue the next chunk of positions to prefill again (R193 phase 4); nothing is charged for it. -/
def State.enqueueTail (s : State) (i goal : Nat) : State :=
  s.enqueue i true (min (goal - (s.sess i).kvLength) (s.fld F.ME_XCHG_CFG_PREFILL_CHUNK) * s.fld F.SCHED_PROFILE_PREFILL_WT)

/-- Rebuild a session from its transcript (R92, R193): no position is in the KV cache, every position it held is to be
prefilled again, and the revive is in its tail phase; with no position to prefill it is over. -/
def State.rebuild (s : State) (i : Nat) : State :=
  let s := s.dropPages i
  let r := (tGet s.revives i).getD (Revive.start 3 (s.sess i).kvLength 0)
  let s := s.updSess i fun e =>
    { e with kvLength := 0, pending := e.pending + e.kvLength, tier := 1, rebuild := true, reviveNote := 2, reviveTokens := r.goal }
  let s := { s with revives := tPut s.revives i { r with phase := 3, asked := [], reserved := 0 }, reserved := s.reserved - r.reserved }
  if r.goal == 0 then (s.chargeLog i).wake (.revived i) else (s.chargeLog i).enqueueTail i r.goal

/-- Ask a holder for an object of a session; what this device holds itself it reads itself (R187); a device that is GONE has
nothing to answer with (R192). -/
def State.askObject (s : State) (i dev kind number alive : Nat) : State :=
  let e := s.sess i
  if dev == s.devId then s
  else if s.devState dev == 4 then s.wake (.holder dev)
  else s.sendDev dev Op.TIER_SHELF_GET e.accession e.tenant [kind, number, alive] [] (.shelf dev)

/-- Hold a slip until the transcript and mask log of a session that moved in have been read from its holders; the session
keeps its state (log entry 24). -/
def State.reviveRead (s : State) (i : Nat) (x : Slip) : SlipRes :=
  let e := s.sess i
  let busy : Bool := (tGet s.revives i).isSome
  let r := Revive.start 4 e.kvLength e.holder1
  .hold (if busy then s else ({ s with revives := tPut s.revives i r }).askObject i e.holder1 1 0 (if e.floor then 0 else e.shelfGen)) (.revive x.acc)

end Sys2Proof.Machine
end

