-- ==== Sys2Proof/Machine/MeFrame.lean ====
section
/-!
DEFINITION. Matrix engines (R151-R157): where they lie, the tiles queued for their pools, the precision ladder and its guards.
-/

namespace Sys2Proof.Machine

/-! ## Engines (R151, R23) -/

/-- What an ME keeps. -/
def State.me (s : State) (e : Nat) : Me := (tGet s.mes e).getD { tile := none, resets := [] }

/-- Store an ME. -/
def State.setMe (s : State) (e : Nat) (m : Me) : State := { s with mes := tPut s.mes e m }

/-- Partition of an ME: 0 west, 1 east. -/
def mePart (e : Nat) : Nat := if e < 64 then 0 else if e < 128 then 1 else (e - 128) / 2

/-- Is an ME enabled: neither absent nor disabled? -/
def State.meOn (s : State) (e : Nat) : Bool := s.fld (F.ME_UNIT_STATE.at (8 * e)) ≥ 2

/-- A fuse bit. -/
def State.fuseBit (s : State) (a : Nat) : Bool := (s.fuse (a / 64)).testBit (a % 64)

/-- Free spares of a partition, lowest number first (R23, R406): built, not defective, and neither enabled nor disabled. -/
def State.freeSpares (s : State) (part : Nat) : List Nat :=
  [128, 129, 130, 131].filter (fun k => mePart k == part && s.clusterOn (8 * part) && !s.fuseBit (0x10 + k)
    && s.fld (F.ME_UNIT_STATE.at (8 * k)) == 0)

/-- Put spare `k` into service in the place of ME `e` of pool `pool`. -/
def State.useSpare (s : State) (e k pool : Nat) : State :=
  { (s.setFld (F.ME_UNIT_STATE.at (8 * k)) 2).setFld (F.ME_UNIT_POOL.at (8 * k)) pool with
    boot := { s.boot with spares := s.boot.spares.filter (· != e) ++ [k] } }

/-- Entry format of a job (R152): PREFILL_FMT, HEAD_FMT, or BF16 for vectors. -/
def State.entryFmt (s : State) (kind : Nat) : Nat :=
  if kind == 0 then s.fld F.ME_FMT_PREFILL_FMT else if kind == 1 then s.fld F.ME_FMT_HEAD_FMT else 3

/-! ## Queues of tiles (R154-R157, R179) -/

/-- Is an ME within a cluster or a partition that is being reset (R418, R419)? -/
def State.meResetting (s : State) (e : Nat) : Bool := (e < 128 && s.boot.clusters.contains (e / 8)) || s.part (mePart e) == 4

/-- Enabled MEs of a partition in the pool that serves a kind of job, those that are being reset apart. -/
def State.mesOf (s : State) (kind part : Nat) : List Nat :=
  (List.range 132).filter (fun e => s.meOn e && mePart e == part && s.fld (F.ME_UNIT_POOL.at (8 * e)) == kind && !s.meResetting e)

/-- The idle ME that a tile may go to, lowest number first; not the one it must leave while its pool has another. -/
def State.idleFor (s : State) (t : Tile) : Option Nat :=
  let l := s.mesOf t.kind t.part
  l.find? (fun e => (s.me e).tile.isNone && (t.avoid != some e || l.length == 1))

/-- Issue queued tiles, oldest first, to the idle MEs of their pools; `n` bounds their number. -/
def State.issueTiles : Nat → State → State
  | 0, s => s
  | n + 1, s =>
    match s.tiles.findSome? (fun t => (s.idleFor t).map (fun e => (t, e))) with
    | some (t, e) => State.issueTiles n ({ s with tiles := s.tiles.erase t }.setMe e { s.me e with tile := some t })
    | none => s

/-- Issue what can be issued. -/
def State.issue (s : State) : State := State.issueTiles s.tiles.length s

/-- Tiles of a job: (partition, what the guards find at the entry format and each wider one reached). -/
def tilesOf (kind ref entry : Nat) (l : List (Nat × List Nat)) : List Tile :=
  l.map fun t => { kind := kind, ref := ref, part := t.1, conds := t.2, entry := entry, fmt := entry, second := false, parity := 0, avoid := none }

/-- Queue tiles and issue what can be issued. -/
def State.queueTiles (s : State) (l : List Tile) : State := ({ s with tiles := s.tiles ++ l }).issue

/-- A tile goes back to the head of its queue, for another ME than `e`. -/
def State.requeue (s : State) (e : Nat) (t : Tile) : State := ({ s with tiles := { t with avoid := some e } :: s.tiles }).issue

/-- Tiles in flight on MEs that `p` picks go back to their queues, and these MEs keep nothing. -/
def State.takeBack (s : State) (p : Nat → Bool) : State :=
  let back := (s.mes.filter (fun v => p v.1)).filterMap (fun (v : Nat × Me) => v.2.tile.map (fun t => { t with avoid := some v.1 }))
  ({ s with mes := s.mes.filter (fun v => !p v.1), tiles := back ++ s.tiles }).issue

/-- A step is over: its tiles that have not been issued go with it. -/
def State.dropTiles (s : State) (id : Nat) : State := { s with tiles := s.tiles.filter (fun t => t.kind == 2 || t.ref != id) }

/-! ## The precision ladder (R153-R156) -/

/-- The MX format of a rung: 0 MXFP4, 1 MXFP6, 2 MXFP8; none for 3, BF16. -/
def ladderFmt (f : Nat) : Option MxFmt := if f == 0 then some mxFp4 else if f == 1 then some mxFp6 else if f == 2 then some mxFp8 else none

/-- A group that an ME produces, as it enters the array: quantised under R97 to the format and decoded (R153). -/
def quantGroup (f : Nat) (ws : List Nat) : List Nat :=
  match ladderFmt f with
  | some m => let x := mxEncode m ws; mxWords m x.1 x.2
  | none => ws.map (fun w => bf16F32 (f32Bf16 w))

/-- Did the quantiser clamp the scale exponent of a group (step 2 of R97)? -/
def clamps (f : Nat) (ws : List Nat) : Bool :=
  match ladderFmt f with
  | some m =>
    let a := amaxOf (ws.map f32Fx)
    a != 0 && (let x := ceilLog2 a (fxOne * m.emax); decide (x < -127) || decide (127 < x))
  | none => false

/-- What the guards find at the end of a tile (R154), in their order: `accs` its accumulators, `outs` its outputs, `groups` what it
quantised.  A group that holds an infinity or a NaN makes an accumulator that is not finite. -/
def guardOf (guard f : Nat) (groups : List (List Nat)) (accs outs : List Nat) : Nat :=
  if (accs ++ outs).any (fun a => !f32Finite a) then 1
  else if accs.any (fun a => (f32Fx a).natAbs ≥ 2 ^ (160 + guard)) then 2
  else if groups.any (clamps f) then 3
  else 0

/-- Run a tile up the ladder from format `f` until it passes or ends at BF16 (R155): what the guards found at each format, and its last
run. -/
def climb {α : Type} (run : Nat → Nat × α) : Nat → Nat → List Nat × α
  | 0, f => ([], (run f).2)
  | n + 1, f =>
    let r := run f
    if r.1 == 0 || f ≥ 3 then ([r.1], r.2) else let z := climb run n (f + 1); (r.1 :: z.1, z.2)

/-- Does a tile end non-finite at BF16, so that its job fails (R156)? -/
def tileFails (conds : List Nat) : Bool := conds.getLast? == some 1

end Sys2Proof.Machine
end

