-- ==== Sys2Proof/Machine/VecFrame.lean ====
section
/-!
DEFINITION. What vector search shares (R252-R263): element formats and distances, converted queries, blocks and records in HBM,
ranking and scanning a shard.
-/

namespace Sys2Proof.Machine

/-! ## Formats and distances (Table 10.2) -/

/-- Element bytes of a vector. -/
def elemSize (fmt dim : Nat) : Nat := if fmt == 0 then dim / 2 + dim / 32 else if fmt == 4 then 2 * dim else dim

/-- RECORD_BYTES and CAPACITY (Table 10.3). -/
def recordBytes (fmt dim : Nat) : Nat := 64 * cdiv (16 + elemSize fmt dim) 64
def blockCap (fmt dim : Nat) : Nat := min 1021 (65344 / recordBytes fmt dim)

/-- Elements of a stored vector as FP32 words, INT8 in units of SCALE. -/
def vecElems (fmt dim : Nat) (b : Bytes) : List Nat :=
  if fmt == 0 then
    (List.range (dim / 32)).flatMap fun g =>
      mxWords mxFp4 (rdLe b (dim / 2 + g) 1) (unpackBits 4 32 (slice b (16 * g) 16))
  else if fmt == 3 then (slice b 0 dim).map (fun v => fp8Word v.toNat)
  else if fmt == 4 then (List.range dim).map (fun i => fp16Word (rdLe b (2 * i) 2))
  else (slice b 0 dim).map (fun v => fxF32 (int8 v * fxOne))

/-- Largest magnitude an element may have, in units of 2^-160. -/
def top8 : Nat := 448 * fxOne
def top16 : Nat := 65504 * fxOne

/-- A vector of FP32 words as stored (Table 10.2); none when an element is rejected. -/
def vecStore (fmt scale : Nat) (xs : List Nat) : Option Bytes :=
  if xs.any (fun x => !f32Finite x) then none
  else
    let fx := xs.map f32Fx
    if fmt == 0 then
      let gs := (chunks 32 (xs.length + 1) xs).map (mxEncode mxFp4)
      some (gs.flatMap (fun g => packBits 4 g.2) ++ gs.flatMap (fun g => leBytes 1 g.1))
    else if fmt == 3 then
      if fx.any (fun x => x.natAbs > top8) then none else some (xs.flatMap (fun x => leBytes 1 (encWord 7 3 8 0x7E x fxOne)))
    else if fmt == 4 then
      if fx.any (fun x => x.natAbs > top16) then none else some (xs.flatMap (fun x => leBytes 2 (encWord 15 10 16 0x7BFF x fxOne)))
    else
      let sc := (f32Fx scale).natAbs
      some (fx.map fun x =>
        let v : Int := (min (roundDiv x.natAbs sc) 127 : Nat)
        BitVec.ofInt 8 (if x < 0 then -v else v))

/-- A converted query: FP32 words, and X (R253). -/
structure Query where
  words : List Nat
  x : Int
  deriving DecidableEq, Repr

/-- x times a power of two. -/
def shiftFx (x : Int) (e : Int) : Int := if e ≥ 0 then x * 2 ^ e.toNat else x / 2 ^ (-e).toNat

/-- Convert a query (R253); none when it is rejected. -/
def convQuery (fmt dist scale : Nat) (xs : List Nat) : Option Query :=
  if xs.any (fun x => !f32Finite x) then none
  else
    let fx := xs.map f32Fx
    let unit := if fmt == 5 then (f32Fx scale).natAbs else fxOne
    let amax := amaxOf fx
    if dist == 1 && amax == 0 then none
    else if fmt == 4 then
      if amax > top16 then none
      else some { words := xs.map (fun x => fp16Word (encWord 15 10 16 0x7BFF x fxOne)), x := 0 }
    else if dist == 2 then
      if amax > 448 * unit then none
      else some { words := xs.map (fun x => fp8Word (encWord 7 3 8 0x7E x unit)), x := 0 }
    else
      let e : Int := if amax == 0 then 0 else max (-127) (min 127 (ceilLog2 amax (448 * unit)))
      let enc := fun (x : Nat) => (if f32Neg x then 128 else 0)
        + min (if e ≥ 0 then roundCode 7 3 (f32Fx x).natAbs (unit * 2 ^ e.toNat) else roundCode 7 3 ((f32Fx x).natAbs * 2 ^ (-e).toNat) unit) 0x7E
      some { words := xs.map (fun x => fp8Word (enc x)), x := e }

/-- Distance of two vectors of FP32 words before any correction (Table 10.2), accumulated in FP32. -/
def rawDist (dist : Nat) (x q : List Nat) : Nat :=
  if dist == 0 then f32Negate (Config.accumulate 0 (x.zip q))
  else if dist == 1 then
    if x.all (fun v => f32Fx v == 0) then 0x3F800000
    else f32Sub 0x3F800000 (Config.cosine (Config.accumulate 0 (x.zip q)) (Config.accumulate 0 (x.zip x)) (Config.accumulate 0 (q.zip q)))
  else let d := (x.zip q).map (fun p => f32Sub p.1 p.2); Config.accumulate 0 (d.zip d)

/-- 2^e as an FP32 word. -/
def pow2F32 (e : Int) : Nat := let p := pow2 e; f32Round false p.1 p.2

/-- The reported distance: inner product by 2^X, inner product and squared Euclidean of INT8 by SCALE² (R253). -/
def reportDist (fmt dist scale : Nat) (q : Query) (d : Nat) : Nat :=
  let d := if dist == 0 then f32Mul d (pow2F32 q.x) else d
  if fmt == 5 && dist != 1 then f32Mul d (f32Mul scale scale) else d

/-! ## Centroids (R256, R257) -/

/-- A centroid of BF16 words as stored: BF16, or MXFP8 groups of 32 with the scales last. -/
def centStore (bf16 : Bool) (ws : List Nat) : Bytes :=
  if bf16 then ws.flatMap (leBytes 2)
  else
    let gs := (chunks 32 (ws.length + 1) (ws.map bf16F32)).map (mxEncode mxFp8)
    gs.flatMap (fun g => g.2.flatMap (leBytes 1)) ++ gs.flatMap (fun g => leBytes 1 g.1)

/-- Its values as FP32 words. -/
def centWords (bf16 : Bool) (dim : Nat) (b : Bytes) : List Nat :=
  if bf16 then (List.range dim).map (fun i => bf16F32 (rdLe b (2 * i) 2))
  else (List.range dim).map fun i => codeWord mxFp8 (rdLe b (dim + i / 32) 1) (rdLe b i 1)

/-- Bytes a stored centroid takes. -/
def centSize (bf16 : Bool) (dim : Nat) : Nat := if bf16 then 2 * dim else dim + cdiv dim 32

/-- A query in the units of the centroids. -/
def Query.real (q : Query) (fmt scale : Nat) : List Nat := if fmt == 5 then q.words.map (fun w => f32Mul w scale) else q.words

/-! ## Shards and blocks -/

/-- Store a shard. -/
def State.setShard (s : State) (id : Nat) (v : Shard) : State := { s with shards := tPut s.shards id v }

/-- Slot of a vector block. -/
def State.blockSlot (s : State) (b : Nat) : Nat := (s.profile.bind (fun p => nthOf (p.runs .vecList) b)).getD 0

/-- The lowest free block of the region on an enabled NBU, without a damaged line (R123, R334; log entry 11). -/
def State.pickBlock (s : State) : Option Nat :=
  match s.profile with
  | some p => firstFrom (fun b => (tGet s.vecBlocks b).isNone && !s.slotHurt (s.blockSlot b) && s.nbuOn (s.blockSlot b / 2048)) (p.slotsOf .vecList) 0
  | none => none

/-- Bytes of a block header with no record (Table 10.3). -/
def blockHeader (id shard rb list next cap gen : Nat) : Bytes :=
  leBytes 4 id ++ leBytes 2 shard ++ leBytes 2 rb ++ leBytes 4 list ++ leBytes 4 next ++ leBytes 2 0 ++ leBytes 2 cap ++ leBytes 4 gen
    ++ List.replicate 168 0

/-- Header fields of a block: NEXT, RECORDS, and the tombstone bit of a record. -/
def State.blockAddr (s : State) (b : Nat) : Nat := slotAddr (s.blockSlot b)
def State.blkRecords (s : State) (b : Nat) : Nat := leNat (s.hbmRd (s.blockAddr b + 0x10) 2)
def State.blkTomb (s : State) (b r : Nat) : Bool := ((s.hbmRd (s.blockAddr b + 0x40 + r / 8) 1).headD 0).getLsbD (r % 8)

/-- Set a record's tombstone. -/
def State.setTomb (s : State) (b r : Nat) : State :=
  let a := s.blockAddr b + 0x40 + r / 8
  s.hbmWr a (leBytes 1 (leNat (s.hbmRd a 1) ||| 2 ^ (r % 8)))

/-- Bytes of a record. -/
def State.blkRecord (s : State) (rb b r : Nat) : Bytes := s.hbmRd (s.blockAddr b + 0xC0 + r * rb) rb

/-- Blocks of a list. -/
def Shard.chain (v : Shard) (list : Nat) : List Nat := (tGet v.chains list).getD []

/-- Add a fresh block to a list's chain. -/
def State.addBlock (s : State) (id list gen : Nat) : Option (Nat × State) :=
  match tGet s.shards id, s.pickBlock with
  | some v, some b =>
    let rb := recordBytes v.format v.dim
    let s := { s with vecBlocks := tPut s.vecBlocks b id }
    let s := s.hbmWr (s.blockAddr b) (blockHeader id v.shard rb list 0xFFFFFFFF (blockCap v.format v.dim) gen)
    let s := match (v.chain list).getLast? with
      | some prev => s.hbmWr (s.blockAddr prev + 0x0C) (leBytes 4 b)
      | none => s
    some (b, s.setShard id { v with chains := tPut v.chains list (v.chain list ++ [b]) })
  | _, _ => none

/-- Write a record at the end of a list, in a block with room or a fresh one; the key index follows (R255).  GEN of a fresh block
is `gen`. -/
def State.putRecord (s : State) (id list gen key tag : Nat) (elems : Bytes) : Option State :=
  match tGet s.shards id with
  | none => none
  | some v =>
    let rb := recordBytes v.format v.dim
    let room := match (v.chain list).getLast? with
      | some b => if s.blkRecords b < blockCap v.format v.dim then some (b, s) else s.addBlock id list gen
      | none => s.addBlock id list gen
    match room with
    | none => none
    | some (b, s) =>
      let r := s.blkRecords b
      let s := s.hbmWr (s.blockAddr b + 0xC0 + r * rb) (slice (leBytes 8 key ++ leBytes 8 tag ++ elems) 0 rb)
      let s := s.hbmWr (s.blockAddr b + 0x10) (leBytes 2 (r + 1))
      match tGet s.shards id with
      | some v => some (s.setShard id { v with index := (key, b * 1024 + r) :: v.index.filter (fun x => x.1 != key) })
      | none => some s

/-- Records of a list: (locator, bytes, tombstoned). -/
def State.listRecords (s : State) (v : Shard) (list : Nat) : List (Nat × Bytes × Bool) :=
  let rb := recordBytes v.format v.dim
  (v.chain list).flatMap fun b => (List.range (s.blkRecords b)).map fun r => (b * 1024 + r, s.blkRecord rb b r, s.blkTomb b r)

/-- Records written in a shard, tombstoned ones included. -/
def State.shardRecords (s : State) (v : Shard) : Nat :=
  ((v.chains.flatMap (·.2)).map s.blkRecords).foldl (· + ·) 0

/-- Blocks a shard occupies. -/
def Shard.blocks (v : Shard) : Nat := (v.chains.map (fun c => c.2.length)).foldl (· + ·) 0 + v.centBlocks.length

/-- Quarter pages of a shard: blocks at a page each, the key index at 16 bytes per live record (R252). -/
def Shard.quarters (v : Shard) : Nat := 4 * v.blocks + cdiv (16 * v.index.length) 16384

/-! ## Search of one shard (R257, R258, R262) -/

/-- Is `a` before `b` in the order of a result? -/
def candLe (a b : Cand) : Bool :=
  f32Lt a.dist b.dist || (!f32Lt b.dist a.dist && (a.shard < b.shard || (a.shard == b.shard && a.order ≤ b.order)))

/-- The first K candidates. -/
def nearest (k : Nat) (l : List Cand) : List Cand := (l.mergeSort candLe).take k

/-- Bytes `o` to `o + n - 1` of the blocks that hold a shard's centroids, one after another (R256; log entry 58). -/
def State.centRd (s : State) (v : Shard) (o n : Nat) : Bytes :=
  let at_ := fun (k : Nat) => s.blockAddr (v.centBlocks.getD k 0)
  let m := min n (65536 - o % 65536)
  s.hbmRd (at_ (o / 65536) + o % 65536) m ++ (if m < n then s.hbmRd (at_ (o / 65536 + 1)) (n - m) else [])

/-- Write bytes there. -/
def State.centWr (s : State) (v : Shard) (o : Nat) (b : Bytes) : State :=
  let at_ := fun (k : Nat) => s.blockAddr (v.centBlocks.getD k 0)
  let m := min b.length (65536 - o % 65536)
  let s := s.hbmWr (at_ (o / 65536) + o % 65536) (b.take m)
  if m < b.length then s.hbmWr (at_ (o / 65536 + 1)) (b.drop m) else s

/-- Values of a shard's centroid as FP32 words. -/
def State.centroid (s : State) (v : Shard) (i : Nat) : List Nat :=
  centWords v.bf16 v.dim (s.centRd v (i * centSize v.bf16 v.dim) (centSize v.bf16 v.dim))

/-- Distance of a vector, in the units of the centroids, to each centroid. -/
def State.centDists (s : State) (v : Shard) (x : List Nat) : List (Nat × Nat) :=
  (List.range v.loaded).map (fun i => (rawDist v.distance (s.centroid v i) x, i))

/-- Lists by increasing distance of their centroids, ties to the lower number; list 0 alone without centroids. -/
def State.rankOf (s : State) (v : Shard) (x : List Nat) : List Nat :=
  if v.loaded == 0 then [0]
  else (((s.centDists v x).mergeSort (fun a b => !f32Lt b.1 a.1)).map (·.2)).take 4096

/-- The tiles of a centroid comparison: 128 centroids each, in the partition of their first block; what the guards find of the distances
(R154, R257; log entry 58). -/
def State.rankTiles (s : State) (v : Shard) (q : Query) : List (Nat × List Nat) :=
  (chunks 128 (v.loaded + 1) (s.centDists v (q.real v.format v.scale))).map fun l =>
    let o := match l.head? with | some d => d.2 * centSize v.bf16 v.dim | none => 0
    (s.blockAddr (v.centBlocks.getD (o / 65536) 0) / 2 ^ 36 / 6, [guardOf (s.fld F.ME_FMT_GUARD_EXP) 3 [] (l.map (·.1)) []])

/-- The ranking of a converted query (R257). -/
def State.ranking (s : State) (v : Shard) (q : Query) : List Nat := s.rankOf v (q.real v.format v.scale)

/-- What one round on one shard finds. -/
structure Round where
  cands : List Cand
  skipped : Nat
  /-- first list with an uncorrectable line -/
  hurt : Option Nat
  deriving DecidableEq, Repr

/-- Search ranks `from_` to `from_ + n - 1` of a shard for the K nearest below a threshold. -/
def State.searchShard (s : State) (v : Shard) (q : Query) (mask value from_ n k thr : Nat) : Round :=
  let lists := ((s.ranking v q).drop from_).take n
  let recs := lists.flatMap (fun l => s.listRecords v l)
  let live := recs.filter (fun r => !r.2.2 && (rdLe r.2.1 8 8 &&& mask) == value)
  let cands := live.map fun r =>
    let x := vecElems v.format v.dim (r.2.1.drop 16)
    { dist := reportDist v.format v.distance v.scale q (rawDist v.distance x q.words), shard := v.shard, order := r.1, key := rdLe r.2.1 0 8 : Cand }
  { cands := nearest k (cands.filter (fun c => f32Lt c.dist thr)),
    skipped := (recs.filter (fun r => r.2.2)).length,
    hurt := lists.find? (fun l => (v.chain l).any (fun b => s.slotHurt (s.blockSlot b))) }

/-- The next FP32 value above; none lies above +∞. -/
def f32Next (v : Nat) : Nat :=
  if v == 0x80000000 || v == 0 then 1 else if v == 0x7F800000 then v else if f32Neg v then v - 1 else v + 1

/-- The threshold of a search: +∞ until K are held, then the next value above the K-th distance (R257). -/
def threshold (k : Nat) (l : List Cand) : Nat :=
  if l.length < k then 0x7F800000 else match (nearest k l).getLast? with | some c => f32Next c.dist | none => 0x7F800000

/-! ## Evacuation (R147) -/

/-- Move a block of a disabled pair to a free block of an enabled one; chain, locators and NEXT follow. -/
def State.moveBlock (s : State) (b : Nat) : State :=
  match tGet s.vecBlocks b, s.pickBlock with
  | some id, some c =>
    match tGet s.shards id with
    | none => s
    | some v =>
      let s := s.hbmWr (s.blockAddr c) (s.hbmRd (s.blockAddr b) 65536)
      let prev := v.chains.findSome? fun l => (l.2.zip (l.2.drop 1)).findSome? fun p => if p.2 == b then some p.1 else none
      let s := match prev with | some a => s.hbmWr (s.blockAddr a + 0x0C) (leBytes 4 c) | none => s
      let swap := fun (x : Nat) => if x == b then c else x
      let v := { v with chains := v.chains.map (fun l => (l.1, l.2.map swap)), centBlocks := v.centBlocks.map swap,
                        index := v.index.map (fun x => if x.2 / 1024 == b then (x.1, c * 1024 + x.2 % 1024) else x) }
      ({ s with vecBlocks := tPut (tDel s.vecBlocks b) c id }).setShard id v
  | _, _ => s

/-- A shard loses data: it enters DAMAGED (R264). -/
def State.damageShard (s : State) (id : Nat) : State :=
  match tGet s.shards id with
  | some v => s.setShard id { v with state := 3, err := s.lastErr }
  | none => s

end Sys2Proof.Machine
end

