-- ==== Sys2Proof/Machine/RingFrame.lean ====
section
/-!
DEFINITION. Output rings (R228-R234): records, groups, writing and holding them, RING_PUSH, the end of a request.
-/

namespace Sys2Proof.Machine

/-! ## End reasons (Table 9.3) -/

namespace End
def MAX_TOKENS : Nat := 1
def EOS : Nat := 2
def STOP : Nat := 3
def TOOL_CALL : Nat := 4
def GRAMMAR_COMPLETE : Nat := 5
def GRAMMAR_DEADEND : Nat := 6
def CONTEXT_FULL : Nat := 7
def CANCELLED : Nat := 8
def DEVICE_FAULT : Nat := 9
end End

/-- What a record group says of its token and request (Table 9.2); `token` none is NO_TOKEN. -/
structure GroupInfo where
  accession : Nat
  token : Option Nat
  control : Bool
  position : Nat
  stopTail : Bool
  toolCall : Bool
  resync : Bool
  /-- END_REASON, 0 when the group is not the request's last -/
  reason : Nat
  detail : Nat
  deriving DecidableEq, Repr

/-- One record of 64 bytes (Table 9.2); INDEX is filled in when it is written. -/
def ringRecord (g : GroupInfo) (frag : Bytes) (more : Bool) : Bytes :=
  let tok := match g.token with | some t => t + b2n g.control * 2 ^ 20 | none => 2 ^ 21
  let fin := g.reason != 0 && !more
  let flags := b2n fin + 2 * b2n more + 4 * b2n g.toolCall + 8 * b2n g.stopTail + 16 * b2n g.resync
  leBytes 8 g.accession ++ leBytes 4 0 ++ leBytes 4 tok ++ leBytes 4 g.position ++ leBytes 1 flags
    ++ leBytes 1 frag.length ++ leBytes 1 (if fin then g.reason else 0) ++ leBytes 1 (if fin then g.detail else 0)
    ++ slice frag 0 40

/-- The records of a group: max(1, ⌈b ÷ 40⌉), MORE on all but the last (R230). -/
def ringGroup (g : GroupInfo) (bytes : Bytes) : List Bytes :=
  let parts := match chunks 40 (bytes.length + 1) bytes with | [] => [[]] | l => l
  parts.zipIdx.map fun p => ringRecord g p.1 (decide (p.2 + 1 < parts.length))

/-- Room of a ring: 2^k − (PI − CI) (R233). -/
def Ring.room (r : Ring) : Nat := 2 ^ r.logSize - (r.pi + 2 ^ 32 - r.ci) % 2 ^ 32

/-- Does a peer context serve a ring's pushes: a front end of its tenant, or a gateway (R228)? -/
def State.pushPeerOk (s : State) (r : Ring) : Bool :=
  let v := s.peer r.peer
  v.valid && ((v.kind == 0 && v.tenant == r.tenant) || v.kind == 1)

/-- A ring enters ERROR (Table 9.1). -/
def State.ringError (s : State) (n : Nat) : State :=
  let r := s.ring n
  if r.state == 1 then (s.setRing n { r with state := 2 }).bump F.SCHED_CNT_PUSH_ERR_COUNT else s

/-- The payload of a RING_PUSH (R232). -/
def pushPayload (n first : Nat) (recs : List Bytes) : Bytes :=
  let body := leBytes 2 n ++ leBytes 2 0 ++ leBytes 4 first ++ leBytes 4 recs.length ++ leBytes 4 0 ++ recs.flatten
  leBytes 2 0x2410 ++ leBytes 1 0x10 ++ leBytes 1 0 ++ leBytes 4 (8 + body.length) ++ body

/-- Send records as one RING_PUSH; a context no longer provisioned for the ring fails it at once (R232, R465). -/
def State.sendPush (s : State) (n first : Nat) (recs : List Bytes) : State :=
  let r := s.ring n
  if s.pushPeerOk r && (s.peer r.peer).prov ≤ r.conf then
    (s.sendSlip r.peer Op.RING_PUSH 4 r.tenant 0 [] (pushPayload n first recs) (.push n first)).bump F.SCHED_CNT_PUSH_COUNT
  else s.wake (.push n first)

/-- Send a ring's batch of records not yet pushed (R232); the push is kept, for a reply may still fail it when its records are consumed
(Table 9.9). -/
def State.flushRing (s : State) (n : Nat) : State :=
  let r := s.ring n
  if r.batch.isEmpty then s
  else
    let first := (r.pi + 2 ^ 32 - r.batch.length) % 2 ^ 32
    let s := s.setRing n { r with batch := [],
                                  pushes := r.pushes.filter (fun p => p.first != first) ++ [{ first := first, recs := r.batch, retries := 0, due := none }] }
    s.sendPush n first r.batch

/-- Send the message on a host ring's vector, unless IRQ_GAP_US holds it back (R231). -/
def State.ringIrq (s : State) (n : Nat) : State :=
  let r := s.ring n
  if !r.irqEn then s
  else
    let gap := s.fld F.SCHED_CTRL_IRQ_GAP_US * 100
    let held : Bool := match tGet s.ringVec r.vec with | some t => decide (s.tick < t + gap) | none => false
    if held then { s with ringOwed := if s.ringOwed.contains r.vec then s.ringOwed else s.ringOwed ++ [r.vec] }
    else { s with ringVec := tPut s.ringVec r.vec s.tick }.sendMsix r.vec

/-- Write one record at PI: to host memory, or into the ring's batch. -/
def State.writeRecord (s : State) (n : Nat) (w : Bytes) : State :=
  let r := s.ring n
  let w := w.take 8 ++ leBytes 4 r.pi ++ w.drop 12
  let s := if r.network then s
    else if s.conf then s.writeSealed 5 (bounceRef n r.pi) (r.base + (r.pi % 2 ^ r.logSize) * 128) w
    else s.emit (.hostWrite (r.base + (r.pi % 2 ^ r.logSize) * 64) w)
  s.setRing n { r with pi := (r.pi + 1) % 2 ^ 32, written := r.written + 1,
                       batch := if r.network then r.batch ++ [w] else r.batch }

/-- Write PI into a host ring's mirror word (R231). -/
def State.writePi (s : State) (n : Nat) : State :=
  let r := s.ring n
  if s.conf then s.writeSealed 6 (bounceRef n 0) r.mirror (leBytes 4 r.pi) else s.emit (.hostWrite r.mirror (leBytes 4 r.pi))

/-- Write a whole group (R230, R231), which the ring writer takes at once (queue 7 of Table 9.8): its records, then PI into the mirror word and the ring's message. -/
def State.writeGroup (s : State) (n : Nat) (recs : List Bytes) : State :=
  let s := recs.foldl (fun s r => s.writeRecord n r) (s.dequeued 7 s.tick)
  let s := s.setRing n { s.ring n with groups := (s.ring n).groups + 1 }
  let r := s.ring n
  if r.network then s else (s.writePi n).ringIrq n

/-- Does a group fit the ring now? -/
def State.groupFits (s : State) (n : Nat) (recs : List Bytes) : Bool :=
  (s.ring n).state == 1 && recs.length ≤ (s.ring n).room

/-- The request of a session is over (R82): nothing is armed, its record is gone, it waits. -/
def State.endRequest (s : State) (i : Nat) : State :=
  (s.updSess i fun e => { e with armed := false, req := none, reqRemaining := 0, cancel := false }).enter i Ss.WAITING

/-- Groups held for a ring. -/
def State.ringHolds (s : State) (n : Nat) : Nat :=
  ((s.sessions.filter (fun p => p.2.attached && p.2.ring == n)).map (·.2.heldGroups.length)).foldl (· + ·) 0

/-- A group is made for an attached ring (R354). -/
def State.groupMade (s : State) (i : Nat) : State :=
  let e := s.sess i
  if e.attached then s.setRing e.ring { s.ring e.ring with made := (s.ring e.ring).made + 1 } else s

/-- Deliver a group for a session (R230, R234): written when it fits and none is held before it; otherwise held, the session entering RING_FULL with
DECODE, or WAITING after a last group, as its return state.  Answers whether it was written. -/
def State.deliver (s : State) (i : Nat) (recs : List Bytes) (final : Bool) : State × Bool :=
  let e := s.sess i
  let s := s.groupMade i
  if !e.attached then (s, true)
  else if e.heldGroups.isEmpty && s.groupFits e.ring recs then (s.writeGroup e.ring recs, true)
  else
    let s := s.updSess i fun e => { e with heldGroups := e.heldGroups ++ [recs], heldFinal := final, heldRecord := true }
    let s := if e.state == Ss.RING_FULL then s.updSess i (fun e => { e with resume := if final then Ss.WAITING else Ss.DECODE })
      else (s.enter i Ss.RING_FULL (if final then Ss.WAITING else Ss.DECODE)).bump F.SCHED_CNT_RING_FULL_COUNT
    (s, false)

/-- The NO_TOKEN group that ends a request without a sampled token (R230). -/
def noTokenGroup (acc reason : Nat) (bytes : Bytes) : List Bytes :=
  ringGroup { accession := acc, token := none, control := false, position := 0xFFFFFFFF, stopTail := false, toolCall := false,
              resync := false, reason := reason, detail := 0 } bytes

/-- End a request without a sampled token: its last group is written or held, and the session goes to WAITING or
RING_FULL. -/
def State.endWithout (s : State) (i reason : Nat) (bytes : Bytes) : State :=
  let e := s.sess i
  let s := s.updSess i (fun e => { e with armed := false, cancel := false })
  let r := s.deliver i (noTokenGroup e.accession reason bytes) true
  if r.2 then r.1.endRequest i else r.1

/-- Queue a session that returns to DECODE (R239). -/
def State.toDecode (s : State) (i : Nat) : State := (s.enter i Ss.DECODE).enqueue i false 256

/-- Is a session's request lost with its record (R224)? -/
def Sess.reqLost (e : Sess) : Bool := e.armed && (match e.req with | some q => q.lost | none => false)

/-- A request starts as soon as input is pending and no text context is open (R81): DECODE when the one pending entry was
generated, else PREFILL over every pending entry.  One whose record is lost ends instead (R224). -/
def State.startRequest (s : State) (i : Nat) : State :=
  let e := s.sess i
  if e.armed && e.pending != 0 && !s.textOpen i && (e.state == Ss.ACCESSIONED || e.state == Ss.WAITING) then
    if e.reqLost then s.endWithout i End.DEVICE_FAULT []
    else
      let s := s.openRequest i
      if e.pending == 1 && entryGenerated e.lastToken then (s.enter i Ss.DECODE).enqueue i false 256
      else
        let n := e.pendingInputs * s.fld F.SCHED_PROFILE_PREFILL_WT
        (((s.enter i Ss.PREFILL).charge e.tenant 1 n).tally e.tenant 1 n).enqueuePrefill i
  else s

/-- Write the groups held for a session, oldest first, while they fit, each in a push of its own (R232, R234). -/
def State.writeHeld (s : State) (n i : Nat) : Nat → State
  | 0 => s
  | k + 1 =>
    match (s.sess i).heldGroups with
    | [] => s
    | g :: l =>
      if s.groupFits n g then
        (((s.writeGroup n g).flushRing n).updSess i (fun e => { e with heldGroups := l, heldRecord := !l.isEmpty })).writeHeld n i k
      else s

/-- Room has appeared in a ring: the groups held for its session are written first, and the session leaves RING_FULL with the last of
them; a request cancelled meanwhile then has its final group formed (R234).  A pre-empted session keeps its groups until it is
readmitted. -/
def State.ringRoom (s : State) (n : Nat) : State :=
  match (s.ring n).owner with
  | none => s
  | some i =>
    let e := s.sess i
    if e.heldGroups.isEmpty || e.state == Ss.PREEMPTED || e.state == Ss.REVIVING then s
    else
      let s := s.writeHeld n i e.heldGroups.length
      if !(s.sess i).heldGroups.isEmpty then s
      else
        let s := s.updSess i (fun e => { e with heldFinal := false })
        if e.state != Ss.RING_FULL then s
        else
          let s := if e.heldFinal then s.endRequest i
            else if e.reqLost then s.endWithout i End.DEVICE_FAULT []
            else if !e.armed then s.endWithout i End.CANCELLED ((e.req.map (·.heldBack)).getD [])
            else s.toDecode i
          s.flushRing n

end Sys2Proof.Machine
end

