-- ==== Sys2Proof/Machine/TierFrame.lean ====
section
/-!
DEFINITION. Below T1 (07_memory_tiers.md): units, shelf objects, generations and their commit, parks and moves down, victims
and pre-emption copies, revives; shared by the session, tier, ripening and scheduling commands.
-/

namespace Sys2Proof.Machine

/-! ## Structures: preambles, the session entry, shelf objects (Tables 2.6, 3.1, 7.6 to 7.8) -/

/-- A structure with its preamble (Table 2.6). -/
def structure0 (sid : Nat) (body : Bytes) : Bytes := leBytes 2 sid ++ leBytes 1 0x10 ++ leBytes 1 0 ++ leBytes 4 (8 + body.length) ++ body

/-- FLAGS of an entry (Table 3.2). -/
def Sess.flagBits (e : Sess) : Nat :=
  b2n e.template + 2 * b2n e.armed + 4 * b2n e.forked + 8 * b2n e.toolWait + 16 * b2n e.heldRecord + 32 * b2n e.rebuild

/-- PAGE_DIR: the page ID of the directory, in T1, 0 while the session has no page there (R72); which slot it lies in is free. -/
def Sess.pageDir (e : Sess) (i : Nat) : Nat := if e.tier != 1 || e.pages.isEmpty then 0 else 1 + Config.place 0 i % 12582911

/-- TRANSCRIPT: the page ID of the first transcript block (R72): a free slot of T1 while the logs are charged there, else the first
unit of run 0 below T1 (R183). -/
def State.transcriptPage (s : State) (e : Sess) (i : Nat) : Nat :=
  if e.tlen == 0 then 0
  else if e.logCharge != 0 then 1 + Config.place 1 i % 12582911
  else match s.shelf.find? (fun o => o.own && !o.second && o.accession == e.accession && o.kind == 4 && o.number == 0) with
    | some o => o.tier * 2 ^ 36 + o.unit
    | none => 2 * 2 ^ 36 + Config.place 1 i % 2 ^ 36

/-- The 256 bytes of an entry (Table 3.1); `hide` reads PAGE_DIR and TRANSCRIPT as 0 (Table 3.9). -/
def State.entryBytes (s : State) (i : Nat) (e : Sess) (hide : Bool) : Bytes :=
  leBytes 8 e.accession ++ leBytes 1 e.state ++ leBytes 1 e.resume ++ leBytes 2 e.tenant ++ leBytes 2 e.flagBits
    ++ leBytes 1 e.tier ++ leBytes 1 e.fault ++ leBytes 4 e.kvLength ++ leBytes 4 e.tlen
    ++ leBytes 4 e.shelvedLength ++ leBytes 4 e.pending ++ leBytes 8 (if hide then 0 else e.pageDir i)
    ++ leBytes 8 (if hide then 0 else s.transcriptPage e i) ++ leBytes 8 e.parent ++ leBytes 4 e.forkLength
    ++ leBytes 4 (e.mask + (if e.maskValid then 2 ^ 31 else 0)) ++ leBytes 4 (e.ring + (if e.attached then 2 ^ 31 else 0))
    ++ leBytes 4 (e.sampling + e.grammar * 2 ^ 16) ++ leBytes 4 e.grammarState ++ leBytes 4 e.reqRemaining
    ++ leBytes 4 e.ttlWait ++ leBytes 4 e.ttlT2 ++ leBytes 4 e.ttlT3 ++ leBytes 4 e.ttlT4 ++ leBytes 4 e.ttlTranscript
    ++ leBytes 4 (s.childCount e) ++ leBytes 8 e.deadline ++ leBytes 8 e.entered ++ leBytes 8 e.vft
    ++ leBytes 8 (e.holder1 + e.holder2 * 2 ^ 20 + e.holderTier1 * 2 ^ 40 + e.holderTier2 * 2 ^ 43)
    ++ leBytes 4 e.shelfGen ++ leBytes 4 (s.pagesT1 e) ++ leBytes 4 e.steps ++ leBytes 4 e.preempts ++ leBytes 4 e.faultTag
    ++ leBytes 4 0 ++ List.replicate 88 0 ++ leBytes 4 e.entryGen ++ leBytes 4 0

/-- The canonical entry of a manifest head (R195). -/
def Sess.canonical (e : Sess) (noPages : Bool) : Sess :=
  { e with pages := [], transcript := [], away := true, awayLen := 0, ring := 0, attached := false, vft := 0, deadline := 0, entered := 0,
           holder1 := 0, holder2 := 0, holderTier1 := 0, holderTier2 := 0, maskLog := [],
           state := if noPages then Ss.TRANSCRIPT_ONLY else Ss.PARKED }

/-- Bytes 0x14 to 0x17 of the canonical entry keep TRANSCRIPT_LENGTH. -/
def State.canonicalBytes (s : State) (i : Nat) (e : Sess) (noPages : Bool) : Bytes :=
  patch (s.entryBytes i (e.canonical noPages) true) 0x14 (leBytes 4 e.tlen)

/-- An index entry (Table 7.8). -/
def IndexEnt.bytes (x : IndexEnt) : Bytes :=
  leBytes 2 x.layer ++ leBytes 2 x.index ++ leBytes 1 x.format ++ leBytes 1 x.fill ++ leBytes 2 0
    ++ leBytes 8 (x.tweakPage + x.tweakDev * 2 ^ 40) ++ leBytes 4 x.gen ++ leBytes 4 x.alive ++ leBytes 8 x.crc

/-- Read an index entry. -/
def IndexEnt.ofBytes (b : Bytes) : IndexEnt :=
  { layer := rdLe b 0 2, index := rdLe b 2 2, format := rdLe b 4 1 % 4, fill := rdLe b 5 1,
    tweakPage := rdLe b 8 8 % 2 ^ 40, tweakDev := bitsOf (rdLe b 8 8) 59 40, gen := rdLe b 16 4, alive := rdLe b 20 4,
    crc := rdLe b 24 8 }

/-- Number of a page object (Table 7.6). -/
def pageNumber (layer index : Nat) : Nat := layer * 2 ^ 16 + index

/-- The manifest head body (Table 7.7). -/
def Manifest.head (m : Manifest) (p : Profile) (entry : Bytes) : Bytes :=
  let words := fun (n : Nat) (l : List Nat) => (List.range n).flatMap (fun k => leBytes 4 (l.getD k 0))
  let body := leBytes 4 m.gen ++ leBytes 4 m.profile ++ leBytes 4 m.length ++ leBytes 4 m.transcriptLen
    ++ leBytes 4 m.entries.length ++ leBytes 1 m.partAlive.length ++ leBytes 1 m.runAlive.length
    ++ leBytes 1 m.holderSet.length ++ leBytes 1 p.tokensPerPage ++ leBytes 2 p.layers ++ leBytes 1 m.primaryTier ++ leBytes 1 0
    ++ leBytes 4 m.maskAlive ++ slice entry 0 256 ++ words 64 m.partAlive ++ words 32 m.runAlive ++ words 8 m.holderSet
    ++ List.replicate 16 0
  body ++ colophon body m.gen 0x0410

/-- Read a manifest head; its index entries come with the parts. -/
def Manifest.ofBytes (b : Bytes) : Manifest :=
  let words := fun (o n : Nat) => (List.range n).map (fun k => rdLe b (o + 4 * k) 4)
  { gen := rdLe b 0 4, profile := rdLe b 4 4, length := rdLe b 8 4, transcriptLen := rdLe b 12 4, layers := rdLe b 0x18 2,
    primaryTier := rdLe b 0x1A 1, maskAlive := rdLe b 0x1C 4, entries := [], partAlive := words 0x120 (rdLe b 0x14 1),
    runAlive := words 0x220 (rdLe b 0x15 1), holderSet := (words 0x2A0 (rdLe b 0x16 1)).map (· % 2 ^ 20), maskCount := 0 }

/-- A shelf object header (Table 7.6). -/
def objHeader (acc kind tenant number alive len : Nat) : Bytes :=
  leBytes 8 acc ++ leBytes 1 kind ++ leBytes 1 0 ++ leBytes 2 tenant ++ leBytes 4 number ++ leBytes 4 alive ++ leBytes 4 len
    ++ leBytes 8 0

/-- A mask structure (Table 3.7). -/
def MaskRec.bytes (m : MaskRec) : Bytes := structure0 0x0406 (leBytes 4 m.len ++ leBytes 4 0 ++ m.bits)

/-- A transcript run: up to 64 blocks of 1,024 entries, the last zero-filled (R194). -/
def runBody (t : List Nat) (r alive : Nat) : Bytes :=
  let es := (t.drop (65536 * r)).take 65536
  let b := es.flatMap (leBytes 4)
  let b := b ++ List.replicate ((4096 - b.length % 4096) % 4096) 0
  b ++ colophon b alive 0x0412

/-! ## Pages that move or are copied within T1 -/

/-- Copy a page, its first k tokens, into fresh slots of a session (R83, R113, COPY): FILL k.  The copy is the session's own. -/
def State.copyTail (s : State) (p : Profile) (acc tenant : Nat) (r : PageRef) (k : Nat) : State × Option PageRef :=
  let (b, f) := copyPage p r.format (s.pageImage r) k
  match s.takeSlot tenant acc with
  | none => (s, none)
  | some (a, s) =>
    match (if f == 1 then s.takeSlot tenant acc (some a) else some (0, s)) with
    | none => (s, none)
    | some (a2, s) =>
      let l := p.lay f
      let g := s.gen a
      let b := [(Hd.PAGE_ID, a), (Hd.SECOND, a2), (Hd.ACCESSION, acc), (Hd.GEN, g), (Hd.TENANT, tenant)].foldl
        (fun b h => hdPut l b h.1 h.2) b
      let n : PageRef := { layer := r.layer, index := r.index, slot := a, second := a2, format := f, fill := k }
      (s.putImage n (colPut b 0 g (pageCode f)), some n)

/-- Does a page use a slot? -/
def PageRef.uses (r : PageRef) (k : Nat) : Bool := r.slot == k || (r.format == 1 && r.second == k)

/-- Move a page slot to a given free slot: bytes, references, charges, directories and header follow (R147, R140).  The page's first
slot takes a new GEN, whichever slot of it moved (R105). -/
def State.moveTo (s : State) (k j : Nat) : State :=
  match tGet s.slots k, s.profile with
  | some u, some p =>
    let s := s.hbmWr (slotAddr j) (s.hbmRd (slotAddr k) 65536)
    let s := ({ s with slots := tPut (tDel s.slots k) j u }).bumpGen j
    let swap := fun (r : PageRef) =>
      { r with slot := if r.slot == k then j else r.slot, second := if r.format == 1 && r.second == k then j else r.second }
    let owners := s.sessions.filter (fun q => q.2.pages.any (·.uses k))
    let s := owners.foldl (fun s q => s.updSess q.1 (fun e => { e with pages := e.pages.map swap })) s
    match s.sessions.findSome? (fun q => q.2.pages.find? (·.uses j)) with
    | some r =>
      let l := p.lay r.format
      let s := if r.slot == j then s else s.bumpGen r.slot
      let b := s.pageImage r
      let g := s.gen r.slot
      s.putImage r (colPut (hdPut l (hdPut l (hdPut l b Hd.PAGE_ID r.slot) Hd.SECOND r.second) Hd.GEN g) 0 g (pageCode r.format))
    | none => s
  | _, _ => s

/-- Move a page slot to a free slot of an enabled pair (R147). -/
def State.moveSlot (s : State) (k : Nat) : State :=
  match s.pickSlot ((tGet s.slots k).map (·.acc) |>.getD 0) with
  | some j => s.moveTo k j
  | none => s

/-! ## Units of T2 and T3 (R183, R186) -/

/-- Quarter pages of a page below T1, by format (R185). -/
def belowQuarters (format : Nat) : Nat := if format == 1 then 8 else if format == 2 then 3 else 4

/-- Capacity of a tier in 16 KiB units: the trained cellar, or the lent regions. -/
def State.tierUnits (s : State) (tier : Nat) : Nat :=
  if tier == 2 then s.fld F.TIER_CAP_CELLAR_GIB * 65536
  else (s.hostRegions.map (fun r => if r.2.state == 0 then 0 else r.2.units * 128)).foldl (· + ·) 0

/-- Runs of units in use in a tier by what is kept there: (first, length).  Checkpoint copies held for other devices lie in T2
(R316). -/
def State.liveRuns (s : State) (tier : Nat) : List (Nat × Nat) :=
  (if tier == 2 then s.ckpt.mirrors.flatMap (fun m => m.blocks.map (fun b => (b.2.1, bodyQuarters b.2.2.length))
      ++ (match m.sealRec with | some r => [(r.1, 1)] | none => [])) else [])
  ++ (s.shelf.filter (fun o => o.tier == tier)).map (fun o => (o.unit, bodyQuarters o.body.length))
  ++ (s.sessions.flatMap (fun e => e.2.down)).filterMap (fun d => if d.tier == tier then some (d.unit, bodyQuarters d.body.length) else none)

/-- Runs of units in use, those freed since a barrier included while its snapshot is protected (R308). -/
def State.usedRuns (s : State) (tier : Nat) : List (Nat × Nat) :=
  let live := s.liveRuns tier
  live ++ s.ckpt.guarded.filterMap (fun g => if g.1 == tier && !live.contains g.2 then some g.2 else none)

/-- Note a run taken into use while a snapshot is protected (R308). -/
def State.guardRun (s : State) (tier u n : Nat) : State :=
  if s.ckpt.guarding then { s with ckpt := { s.ckpt with guarded := s.ckpt.guarded ++ [(tier, u, n)] } } else s

/-- Bytes of a bundle image, by its header (R380). -/
def bundleSize (h : Bytes) : Nat := 256 + rdLe h 0x10 8 + 16 * rdLe h 0x0C 4

/-- Units at the top of the cellar that belong to the bundle image, staged or loaded: whole GiB (R413). -/
def State.stagingUnits (s : State) : Nat :=
  let staged := match s.boot.staging with | some g => g.size | none => 0
  let loaded := if s.boot.header.isEmpty then 0 else bundleSize s.boot.header
  cdiv (max staged loaded) (2 ^ 30) * 65536

/-- Areas of a tier where something new may be placed: (first unit, length); in T2 the plan's units below the bundle's, in T3 every
lent region that is not being reclaimed (R184, R200). -/
def State.areas (s : State) (tier : Nat) : List (Nat × Nat) :=
  if tier == 2 then
    let top := s.tierUnits 2 - s.stagingUnits
    match s.profile with
    | some p => let first := max 1 p.cellarFirst; [(first, min top (p.cellarFirst + p.cellarUnits) - first)]
    | none => [(1, top - 1)]
  else ((List.range 16).foldl (fun (acc : List (Nat × Nat) × Nat) r =>
    match tGet s.hostRegions r with
    | some v => (if v.state == 1 then acc.1 ++ [(acc.2, v.units * 128)] else acc.1, acc.2 + (if v.state == 0 then 0 else v.units * 128))
    | none => acc) ([], 0)).1

/-- Does a run of units of a tier hold a damaged line of the cellar (R330)? -/
def State.unitsHurt (s : State) (tier unit len : Nat) : Bool :=
  tier == 2 && s.errs.poison.any (fun l => l.1 == 1 && 256 * unit ≤ l.2 && l.2 < 256 * (unit + bodyQuarters len))

/-- Free units of a tier (TIER_FREE_T2, TIER_FREE_T3): those of its areas that are not in use. -/
def State.freeUnits (s : State) (tier : Nat) : Nat :=
  let used := s.usedRuns tier
  ((s.areas tier).map fun a => a.2 - (used.map (fun r => min (r.1 + r.2) (a.1 + a.2) - max r.1 a.1)).foldl (· + ·) 0).foldl (· + ·) 0

/-- Channels of the cellar: unit u lies on the one of rank u % C (R183). -/
def State.cellarWays (s : State) : Nat := max 1 ((List.range 12).filter s.channelOn).length

/-- A run of `n` free units: the lowest whose first unit lies on the channel asked for, else the lowest (R184: the device's choice;
log entry 11). -/
def State.pickUnits (s : State) (tier n : Nat) (chan : Option Nat := none) : Option Nat :=
  let used := s.usedRuns tier
  let bad := if tier == 2 then s.errs.poison.filterMap (fun l => if l.1 == 1 then some (l.2 / 256, 1) else none) else []
  let used := used ++ bad
  let fits := fun (a : Nat × Nat) (u : Nat) =>
    a.1 ≤ u && u + n ≤ a.1 + a.2 && used.all (fun r => u + n ≤ r.1 || r.1 + r.2 ≤ u)
  let low := fun (f : Nat → Nat) =>
    ((s.areas tier).filterMap (fun a => ((a.1 :: used.map (fun r => r.1 + r.2)).map f).filter (fits a) |>.min?)).head?
  match chan with
  | some c =>
    let ways := s.cellarWays
    (match low (fun u => u + (c % ways + ways - u % ways) % ways) with | some u => some u | none => low id)
  | none => low id

/-- The channel after that of the last page of a session placed in T2, on which its next page begins (R183). -/
def State.nextChan (s : State) (acc : Nat) : Option Nat :=
  ((s.shelf.filter (fun o => o.accession == acc && o.kind == 3 && o.tier == 2)).getLast?).map (fun o => o.unit + 1)

/-- Do runs of units of these lengths fit a tier together? -/
def State.roomFor (s : State) (tier : Nat) (ns : List Nat) : Bool :=
  (ns.foldl (fun (o : Option State) n => o.bind fun s => (s.pickUnits tier n).map fun u =>
    { s with ckpt := { s.ckpt with guarded := s.ckpt.guarded ++ [(tier, u, n)] } }) (some s)).isSome

/-- Host address of a T3 unit. -/
def State.unitAddr (s : State) (u : Nat) : Nat :=
  ((List.range 16).foldl (fun (acc : Option Nat × Nat) r =>
    match tGet s.hostRegions r with
    | some v =>
      let n := if v.state == 0 then 0 else v.units * 128
      (if acc.1.isNone && acc.2 ≤ u && u < acc.2 + n then some (v.base + (u - acc.2) * 16384) else acc.1, acc.2 + n)
    | none => acc) (none, 0)).1.getD 0

/-- Write an object to T3 at a unit: plain, or in the records of its lent region (R385). -/
def State.writeT3 (s : State) (u : Nat) (b : Bytes) : State :=
  if s.conf then
    let at_ := (List.range 16).foldl (fun (acc : Option (Nat × Nat × Nat) × Nat) r =>
      match tGet s.hostRegions r with
      | some v =>
        let n := if v.state == 0 then 0 else v.units * 128
        (if acc.1.isNone && acc.2 ≤ u && u < acc.2 + n then some (r, v.base, u - acc.2) else acc.1, acc.2 + n)
      | none => acc) (none, 0)
    match at_.1 with
    | some (r, base, k) => s.writeSpan 7 r base (16384 * k) b
    | none => s
  else s.emit (.hostWrite (s.unitAddr u) b)

/-- 16 KiB units of a lent region. -/
def HostRegion.len (r : HostRegion) : Nat := if r.state == 0 then 0 else r.units * 128

/-- First T3 unit of a region (R183). -/
def State.regionFirst (s : State) (n : Nat) : Nat :=
  ((s.hostRegions.filter (fun r => r.1 < n)).map (fun r => r.2.len)).foldl (· + ·) 0

/-- T3 unit numbers from `first` on shift when a region before them comes or goes: `add` then `sub`. -/
def State.shiftT3 (s : State) (first add sub : Nat) : State :=
  let f := fun (u : Nat) => if first ≤ u then u + add - sub else u
  { s with
    ckpt := { s.ckpt with guarded := s.ckpt.guarded.map (fun g => if g.1 == 3 then (3, f g.2.1, g.2.2) else g) }
    shelf := s.shelf.map (fun (o : ShelfObj) => if o.tier == 3 then { o with unit := f o.unit } else o)
    sessions := s.sessions.map (fun p => (p.1, { p.2 with down := p.2.down.map (fun (d : DownPage) => if d.tier == 3 then { d with unit := f d.unit } else d) })) }

/-- Units of a region still in use: (first unit, length). -/
def State.regionUse (s : State) (n : Nat) : List (Nat × Nat) :=
  let first := s.regionFirst n
  let len := match tGet s.hostRegions n with | some r => r.len | none => 0
  (s.usedRuns 3).filter (fun u => first ≤ u.1 && u.1 < first + len)

/-- Regions being reclaimed that have become empty are released, and the slips that wait for them answered (R200). -/
def State.reclaimCheck (s : State) : State :=
  (s.hostRegions.filter (fun r => r.2.state == 2)).foldl (fun s r =>
    if (s.regionUse r.1).isEmpty then
      let first := s.regionFirst r.1 + r.2.len
      let s := ({ (s.shiftT3 first 0 r.2.len) with hostRegions := tDel s.hostRegions r.1 }).dropLocks (fun l => l.activity == Ac.HOST_RECLAIM && l.auto)
      let w := s.slips.filter (fun o => o.op == Op.TIER_RECLAIM_HOST && o.slip.P0 == r.1 && o.stage == .waiting)
      w.foldl (fun s o => s.finish Op.TIER_RECLAIM_HOST o.slip (Answer.ok)) s
    else s) s

/-- Keep an object in this device's own T2 or T3 (R194); what goes to T3 is written to host memory.  The caller has tested the
room. -/
def State.keepObject (s : State) (o : ShelfObj) : State :=
  match s.pickUnits o.tier (bodyQuarters o.body.length) (if o.kind == 3 && o.tier == 2 then s.nextChan o.accession else none) with
  | none => s
  | some u =>
    let s := if o.tier == 3 then s.writeT3 u o.body else s
    { s.guardRun o.tier u (bodyQuarters o.body.length) with shelf := s.shelf ++ [{ o with unit := u }] }

/-- Where the transcript runs and mask log of a session rest for its owner: here, or at a holder while it is away. -/
def State.logDev (s : State) (e : Sess) : Nat :=
  if !e.away then s.devId else if e.holderTier1 == 4 then e.holder2 else e.holder1

/-! ## Keys -/

/-- Tenant key, empty when absent. -/
def State.tenantKey (s : State) (t : Nat) : Bytes := (s.tenant t).key.getD []

/-- The body of a shelf object other than a page, encrypted (R197, Table 15.2). -/
def State.sealObject (s : State) (tenant acc kind number alive : Nat) (body : Bytes) : Bytes :=
  xtsEnc (tenantXts (s.tenantKey tenant) "yudar object") (objectTweak acc alive kind number) body

/-- A page body, encrypted. -/
def State.sealPage (s : State) (tenant gen page fill : Nat) (body : Bytes) : Bytes :=
  xtsEnc (tenantXts (s.tenantKey tenant) "yudar page") (pageTweak gen page s.devId fill) body

/-! ## Holders (R191) -/

/-- Members of a holder set at T4: SPREAD consecutive valid entries of the pool list from CRC-32C(accession) % POOL_LEN,
skipping the owner and the secondary holder. -/
def State.holderSetOf (s : State) (acc second : Nat) : List Nat :=
  let n := s.pool.length
  if n == 0 then []
  else
    let start := crc32c (leBytes 8 acc) % n
    let ring := (s.pool.drop start ++ s.pool.take start).map (·.2.device)
    (ring.filter (fun d => d != s.devId && d != second)).take (s.fld F.TIER_POOL_CFG_SPREAD)

/-- The secondary holder of a session and the tier its copy rests in there. -/
def State.chooseSecond (s : State) (acc : Nat) : Nat × Nat :=
  let own := s.devId
  let d := match tGet s.cat.buckets (bucketOf acc) with
    | some b => if b.secondary == own then b.primary else b.secondary
    | none => own
  if d != own then (d, 2)
  else (own, if s.hostRegions.any (fun r => r.2.state == 1) then 3 else 2)

/-! ## A generation (R190) -/

/-- Pages a generation covers: every page for a park or a move, full pages only while the session is hot (R189). -/
def Sess.coveredPages (e : Sess) (p : Profile) (all : Bool) : List PageRef :=
  if all then e.pages.filter (fun r => r.fill != 0) else e.pages.filter (fun r => r.fill == p.tokensPerPage)

/-- Positions a set of pages covers in every layer. -/
def coveredLength (p : Profile) (pages : List PageRef) : Nat :=
  ((List.range p.layers).map (fun l => ((pages.filter (fun r => r.layer == l)).map (·.fill)).foldl (· + ·) 0)).foldl min (2 ^ 32)

/-- The index entry a page has in the new generation: unchanged when the old one still describes it. -/
def State.indexEntry (s : State) (old : Option Manifest) (g : Nat) (r : PageRef) : IndexEnt :=
  let keep := (old.map (·.entries)).bind fun es =>
    es.find? (fun x => x.layer == r.layer && x.index == r.index && x.gen == s.gen r.slot && x.tweakPage == r.slot && x.fill == r.fill)
  match keep with
  | some x => x
  | none =>
    let crc := match s.profile with
      | some p => rdLe (leavingImage p r.format (s.pageImage r) r.fill) ((if r.format == 1 then 0x20000 else if r.format == 2 then 0xC000 else 0x10000) - 16) 8
      | none => 0
    { layer := r.layer, index := r.index, format := r.format, fill := r.fill, tweakPage := r.slot, tweakDev := s.devId,
      gen := s.gen r.slot, alive := g, crc := crc }

/-- Charges of an image in T2, T3 and T4 (R185): pages in the primary tier, logs in the owner's T2, and the secondary copy
of both: at T4 when another device holds it. -/
def State.imageCharge (s : State) (m : Manifest) (logs second secondTier : Nat) : List Nat :=
  let pages := (m.entries.map (fun x => belowQuarters x.format)).foldl (· + ·) 0
  let add := fun (l : List Nat) (tier n : Nat) => l.set (tier - 2) (l.getD (tier - 2) 0 + n)
  let l := add (add [0, 0, 0] 2 logs) m.primaryTier pages
  add l (if second == s.devId then secondTier else 4) (pages + logs)

/-- The first charge of a growth that does not fit: (tier, is the tier itself full?). -/
def State.chargeRefused (s : State) (t : Nat) (old new : List Nat) : Option (Nat × Bool) :=
  ([2, 3, 4].filterMap fun tier =>
    let n := new.getD (tier - 2) 0 - old.getD (tier - 2) 0
    if n == 0 then none
    else if !s.quotaFits t tier n then some (tier, false)
    else if tier != 4 && s.freeUnits tier < n then some (tier, true) else none).head?

/-- Send an object of a generation to a holder, or keep it here. -/
def State.putObject (s : State) (i dev tier : Nat) (second : Bool) (kind number alive : Nat) (body : Bytes) : State :=
  let e := s.sess i
  if dev == s.devId then
    s.keepObject { accession := e.accession, kind := kind, number := number, alive := alive, tenant := e.tenant, body := body,
                   tier := tier, own := true, second := second, unit := 0 }
  else
    s.sendDev dev Op.TIER_SHELF_PUT e.accession e.tenant [kind, number, alive]
      (structure0 0x1010 (objHeader e.accession kind e.tenant number alive body.length ++ body)) (.shelf dev)

/-- Device holding the primary copy of an object: the first holder, or for a page at T4 the member of its index. -/
def Manifest.holderOf (m : Manifest) (primary kind index : Nat) : Nat :=
  if m.primaryTier == 4 && kind == 3 && !m.holderSet.isEmpty then m.holderSet.getD (index % m.holderSet.length) primary else primary

/-- Write one object of a generation to both holders and note it unacknowledged. -/
def State.writeBoth (s : State) (i : Nat) (c : Commit) (kind number index : Nat) (body : Bytes) : State :=
  let e := s.sess i
  let d1 := if kind == 4 || kind == 5 then s.logDev e else c.manifest.holderOf c.h1 kind index
  let t1 := if kind == 4 || kind == 5 || c.manifest.primaryTier == 4 then 2 else c.manifest.primaryTier
  let s := s.putObject i d1 t1 false kind number c.gen body
  let s := s.putObject i c.h2 c.t2 true kind number c.gen body
  match tGet s.commits i with
  | some c => { s with commits := tPut s.commits i { c with unacked := c.unacked ++ [(d1, kind, number), (c.h2, kind, number)] } }
  | none => s

/-- The secondary holder of the generation to come and its tier: chosen with the first generation, then kept (R191). -/
def State.secondOf (s : State) (e : Sess) : Nat × Nat := if e.shelfGen == 0 then s.chooseSecond e.accession else (e.holder2, e.holderTier2)

/-- Begin generation g of a session's image (R190 step 1): `pages` are the T1 pages it covers with their images, `entries`
its index; every new object goes to both holders, which the entry names once the head is acknowledged (R191).  The charges were
tested by the caller. -/
def State.beginCommit (s : State) (i why target : Nat) (m : Manifest) (bodies : List (IndexEnt × Bytes)) : State :=
  let e := s.sess i
  let (h2, t2) := s.secondOf e
  let h1 := if target == 4 then m.holderSet.headD s.devId else s.devId
  let s := s.updSess i fun e => { e with genTop := max e.genTop m.gen,
                                          parking := if why == 1 || why == 2 || why == 3 || (why == 6 && e.state == Ss.WAITING) then target else e.parking }
  let s := s.setImg i (s.imageCharge m e.logQuarters h2 t2)
  let c : Commit := { gen := m.gen, why := why, target := target, manifest := m, unacked := [],
                      copied := bodies.map (fun b => (pageNumber b.1.layer b.1.index, b.1.tweakPage, b.1.gen)), head := false, redo := false,
                      h1 := h1, h2 := h2, t2 := t2, lost := [] }
  let s := { s with commits := tPut s.commits i c }
  let s := bodies.foldl (fun s b => s.writeBoth i c 3 (pageNumber b.1.layer b.1.index) b.1.index
    (s.sealPage e.tenant b.1.gen b.1.tweakPage b.1.fill b.2)) s
  let runs := m.runAlive.zipIdx.filter (fun r => r.1 == m.gen)
  let s := runs.foldl (fun s r => s.writeBoth i c 4 r.2 0 (s.sealObject e.tenant e.accession 4 r.2 m.gen (runBody (e.transcript.take m.transcriptLen) r.2 m.gen))) s
  if m.maskAlive == m.gen then
    let b := e.maskLog.flatMap MaskRec.bytes
    s.writeBoth i c 5 0 0 (s.sealObject e.tenant e.accession 5 0 m.gen (b ++ colophon b m.gen 0x0413))
  else s

/-- The manifest of the next generation from the session's T1 pages, and the page objects it adds (R190, R194): a page keeps its old
object while the tier and the holder set of the primary copy stay as they were. -/
def State.nextManifest (s : State) (p : Profile) (i target : Nat) (all bare : Bool) : Manifest × List (IndexEnt × Bytes) :=
  let e := s.sess i
  let g := max e.shelfGen e.genTop + 1
  let set := if target == 4 then s.holderSetOf e.accession (s.secondOf e).1 else []
  let pages := if bare then [] else e.coveredPages p all
  let same := e.manifest.filter (fun m => m.primaryTier == target && m.holderSet == set)
  let ents := pages.map (fun r => (s.indexEntry same g r, r))
  let sorted := ents.mergeSort (fun a b => a.1.index < b.1.index || (a.1.index == b.1.index && a.1.layer ≤ b.1.layer))
  let entries := sorted.map (·.1)
  let oldEnts := (e.manifest.map (·.entries)).getD []
  let parts := chunks 32000 (entries.length + 1) entries
  let oldParts := chunks 32000 (oldEnts.length + 1) oldEnts
  let partAlive := parts.zipIdx.map (fun k =>
    if oldParts.getD k.2 [] == k.1 then ((e.manifest.map (·.partAlive)).getD []).getD k.2 g else g)
  let n := if all then e.tlen else e.tlen / 1024 * 1024
  let nRuns := max 1 (cdiv n 65536)
  let oldLen := (e.manifest.map (·.transcriptLen)).getD 0
  let runAlive := (List.range nRuns).map (fun r =>
    if 65536 * (r + 1) ≤ oldLen || (oldLen == n && e.manifest.isSome) then ((e.manifest.map (·.runAlive)).getD []).getD r g else g)
  let oldMask := (e.manifest.map (·.maskAlive)).getD 0
  let maskAlive := if e.maskLog.isEmpty then 0 else if oldMask != 0 && oldLen == n then oldMask else g
  let m : Manifest :=
    { gen := g, profile := p.id, length := coveredLength p pages, transcriptLen := n, layers := p.layers, primaryTier := target,
      maskAlive := maskAlive, entries := entries, partAlive := partAlive, runAlive := runAlive, holderSet := set, maskCount := e.maskLog.length }
  let fresh := (sorted.filter (fun x => x.1.alive == g)).map (fun x => (x.1, leavingImage p x.2.format (s.pageImage x.2) x.2.fill))
  (m, fresh)

/-- Units the objects a generation adds take at this device, in the order they are written: (tier, units); pages, runs, mask log,
index parts and head, each at the holders this device is. -/
def State.ownNeeds (s : State) (e : Sess) (m : Manifest) (h2 t2 : Nat) : List (Nat × Nat) :=
  let low := if m.primaryTier == 4 then 2 else m.primaryTier
  let h1 := if m.primaryTier == 4 then m.holderSet.headD s.devId else s.devId
  let both := fun (dev tier n : Nat) => (if dev == s.devId then [(tier, n)] else []) ++ (if h2 == s.devId then [(t2, n)] else [])
  (m.entries.filter (fun x => x.alive == m.gen)).flatMap (fun x => both (m.holderOf h1 3 x.index) low (belowQuarters x.format))
    ++ (m.runAlive.zipIdx.filter (fun r => r.1 == m.gen)).flatMap (fun r =>
        both (s.logDev e) 2 (bodyQuarters (4096 * min 64 (cdiv (m.transcriptLen - 65536 * r.2) 1024) + 16)))
    ++ (if m.maskAlive == m.gen then both (s.logDev e) 2 (bodyQuarters (maskBytes e.maskLog + 16)) else [])
    ++ (m.partAlive.zipIdx.filter (fun r => r.1 == m.gen)).flatMap (fun r =>
        both h1 low (bodyQuarters (32 * min 32000 (m.entries.length - 32000 * r.2) + 16)))
    ++ both h1 low 1

/-- A tier of this device in which the objects of a generation do not fit (R186), or none. -/
def State.roomShort (s : State) (e : Sess) (m : Manifest) (h2 t2 : Nat) : Option Nat :=
  let needs := s.ownNeeds e m h2 t2
  [2, 3].find? fun t => !s.roomFor t (needs.filterMap (fun x => if x.1 == t then some x.2 else none))

/-- Try to start a commit from T1 (R189): answers the refusal of a charge instead (Table 7.4). -/
def State.tryCommit (s : State) (i why target : Nat) (all : Bool) : State × Option (Nat × Bool) :=
  match s.profile with
  | none => (s, none)
  | some p =>
    let e := s.sess i
    let (m, bodies) := s.nextManifest p i target all (why == 6)
    let (h2, t2) := s.secondOf e
    match s.chargeRefused e.tenant e.img (s.imageCharge m e.logQuarters h2 t2) with
    | some r => (s, some r)
    | none => match s.roomShort e m h2 t2 with
      | some tier => (s, some (tier, true))
      | none => (s.beginCommit i why target m bodies, none)

/-- The head and the changed index parts are written (R190 step 2). -/
def State.writeHead (s : State) (i : Nat) : State :=
  match tGet s.commits i, s.profile with
  | some c, some p =>
    let e := s.sess i
    let s := { s with commits := tPut s.commits i { c with head := true } }
    let parts := chunks 32000 (c.manifest.entries.length + 1) c.manifest.entries
    let s := (parts.zipIdx.filter (fun k => c.manifest.partAlive.getD k.2 0 == c.gen)).foldl (fun s k =>
      let b := k.1.flatMap IndexEnt.bytes
      s.writeBoth i c 2 k.2 0 (s.sealObject e.tenant e.accession 2 k.2 c.gen (b ++ colophon b c.gen 0x0411))) s
    let h := c.manifest.head p (s.canonicalBytes i e c.manifest.entries.isEmpty)
    s.writeBoth i c 1 0 0 (s.sealObject e.tenant e.accession 1 0 c.gen h)
  | _, _ => s

/-! ## The end of a commit: parks and moves down (R34, R91, R190 steps 3 and 4) -/

/-- TTL of a tier, 100 ms units. -/
def Sess.tierTtl (e : Sess) (tier : Nat) : Nat := if tier == 2 then e.ttlT2 else if tier == 3 then e.ttlT3 else e.ttlT4

/-- Objects that generation g superseded are dropped at every holder of the old and the new generation (step 4): of each kind those
the new manifest does not name. -/
def State.dropOld (s : State) (i : Nat) (c : Commit) : State :=
  let e := s.sess i
  let m := c.manifest
  let named := fun (o : ShelfObj) =>
    match o.kind with
    | 1 => o.alive == m.gen
    | 2 => m.partAlive.getD o.number 0 == o.alive
    | 3 => m.entries.any (fun x => pageNumber x.layer x.index == o.number && x.alive == o.alive)
    | 4 => m.runAlive.getD o.number 0 == o.alive
    | _ => m.maskAlive == o.alive
  let s := { s with shelf := s.shelf.filter (fun o => !(o.accession == e.accession && o.own) || named o) }
  let old := ((e.manifest.map (·.entries)).getD []).filter (fun x =>
    !(m.entries.any (fun y => y.layer == x.layer && y.index == x.index && y.alive == x.alive)))
  let gone := fun (o n : List Nat) => (o.zipIdx.filter (fun a => n.getD a.2 0 != a.1)).map (·.2)
  let parts := (gone ((e.manifest.map (·.partAlive)).getD []) m.partAlive).map (fun k => (2, k))
  let runs := (gone ((e.manifest.map (·.runAlive)).getD []) m.runAlive).map (fun k => (4, k))
  let mask := if (e.manifest.map (·.maskAlive)).getD 0 == m.maskAlive then [] else [(5, 0)]
  let keys := (1, 0) :: (parts ++ old.map (fun x => (3, pageNumber x.layer x.index)) ++ runs ++ mask)
  let devs := (c.devs ++ e.holderDevs).eraseDups.filter (fun d => d != s.devId && !c.lost.contains d)
  devs.foldl (fun s d => keys.foldl (fun s k => s.sendDrop d e.accession k.1 k.2 m.gen) s) s

/-- A park has been committed: the T1 slots go, the session is PARKED at the target tier, and what waited for it runs (R34).  That
TOOL_WAIT goes then, and at SESS_GENERATE, is the model's choice: R72 says what sets it (log entry 79). -/
def State.parkDone (s : State) (i target : Nat) : State :=
  let e := s.sess i
  let s := ((s.dropPages i).dropDown i).setLog i 0
  let s := s.updSess i (fun e => { e with parking := 0, tier := target, toolWait := false })
  let s := s.enter i Ss.PARKED
  let s := s.answerWaiters Op.SESS_PARK e.accession (Answer.ok)
  s.release (· == .park e.accession)

/-- The session keeps only its transcript (R91): its page objects go everywhere. -/
def State.toTranscriptOnly (s : State) (i : Nat) : State :=
  let e := s.sess i
  let s := ((s.dropPages i).dropDown i).setLog i 0
  let s := s.updSess i (fun e => { e with tier := 0, rebuild := true, shelvedLength := 0, parking := 0, toolWait := false })
  let s := (s.enter i Ss.TRANSCRIPT_ONLY).answerWaiters Op.SESS_PARK e.accession (Answer.ok)
  s.release (· == .park e.accession)

/-- A move down the park path is complete: the upper page objects go, and DEADLINE follows from the new tier (R90, R191). -/
def State.movedDown (s : State) (i target : Nat) : State :=
  let e := s.sess i
  let up := fun (o : ShelfObj) => o.accession == e.accession && o.own && !o.second && o.kind == 3 && (target == 4 || o.tier != target)
  let s := { s with shelf := s.shelf.filter (fun o => !up o) }
  let s := s.updSess i (fun e => { e with tier := target, reached := s.tick })
  s.updSess i (fun e => { e with deadline := s.deadlineOf e })

/-- A park cannot be committed (R186, Table 7.4): the session stays as it is, SESS_PARK is answered, and what waited for the park goes
on. -/
def State.parkRefused (s : State) (i : Nat) (r : Nat × Bool) : State :=
  let acc := (s.sess i).accession
  let s := s.updSess i (fun e => { e with parking := 0 })
  let s := s.answerWaiters Op.SESS_PARK acc (if r.2 then Answer.st St.NO_SLOTS (14 + r.1) else Answer.st St.QUOTA_FULL r.1)
  s.release (· == .park acc)

/-- Try to commit a park; a refusal ends it. -/
def State.parkAgain (s : State) (i why target : Nat) : State :=
  match s.tryCommit i why target true with
  | (s, none) => s
  | (s, some r) => s.parkRefused i r

/-- A slip has changed what the image of a session carries; a park being committed commits one further generation (R34). -/
def State.imageChanged (s : State) (i : Nat) : State :=
  match tGet s.commits i with
  | some c => if (s.sess i).parking != 0 then { s with commits := tPut s.commits i { c with redo := true } } else s
  | none => s

/-- Step 3 and 4 of R190. -/
def State.commitDone (s : State) (i : Nat) : State :=
  match tGet s.commits i with
  | none => s
  | some c =>
    let s := s.dropOld i c
    let s := s.updSess i fun e => { e with shelfGen := c.gen, shelvedLength := c.manifest.length, manifest := some c.manifest,
                                           holder1 := c.h1, holder2 := c.h2, holderTier1 := c.manifest.primaryTier, holderTier2 := c.t2 }
    let s := { s with commits := tDel s.commits i }
    if c.why == 1 || c.why == 2 || c.why == 3 then
      if c.redo then s.parkAgain i c.why c.target else s.parkDone i c.target
    else if c.why == 4 then s.movedDown i c.target
    else if c.why == 5 && (s.sess i).parking != 0 then s.parkAgain i 2 (s.sess i).parking
    else if c.why == 6 then s.toTranscriptOnly i
    else s

/-- A commit is abandoned: what it wrote is dropped, and the previous generation stays the image (R190, R198).  A holder's DROP takes
every ALIVE of a key below a value, so a key the previous generation names too is left to the next generation, whose number is
higher (log entry 80). -/
def State.abandonCommit (s : State) (i : Nat) : State :=
  match tGet s.commits i with
  | none => s
  | some c =>
    let e := s.sess i
    let below := fun (o : ShelfObj) => c.why == 4 && o.kind == 3 && !o.second && o.tier == c.target
    let s := { s with shelf := s.shelf.filter (fun o => !(o.accession == e.accession && o.own && (o.alive == c.gen || below o))),
                      commits := tDel s.commits i }
    let far := c.devs.filter (· != s.devId)
    let old := (e.manifest.map (·.entries)).getD []
    let fresh := c.manifest.entries.filter (fun x => x.alive == c.gen && !(old.any (fun y => y.layer == x.layer && y.index == x.index)))
    let s := far.foldl (fun s d =>
      if !e.holderDevs.contains d then s.sendDrop d e.accession 0 0xFFFFFFFF 0xFFFFFFFF
      else fresh.foldl (fun s x => s.sendDrop d e.accession 3 (pageNumber x.layer x.index) (c.gen + 1)) s) s
    let s := match e.manifest with
      | some m => s.setImg i (s.imageCharge m e.logQuarters e.holder2 e.holderTier2)
      | none => s.setImg i [0, 0, 0]
    s.updSess i (fun e => { e with parking := 0 })

/-- Is a session barred from parking: a template with children, or a text context open (R84, R209)? -/
def State.parkBarred (s : State) (i : Nat) : Bool :=
  let e := s.sess i
  (e.template && s.childCount e != 0) || s.textOpen i || e.parking != 0

/-! ## Victims (R88, R188) -/

/-- May a page be aged on its way down (R111)? -/
def State.ageable (s : State) (p : Profile) (r : PageRef) (len : Nat) : Bool :=
  s.flag F.TIER_CTRL_AGE_EN && r.format == 0 && r.fill == p.tokensPerPage && r.index * p.tokensPerPage ≥ 64
    && (r.index + 1) * p.tokensPerPage + 1024 ≤ len && p.ageThresh != 0

/-- The image of a page on its way down: aged where R111 allows and R112 does not refuse; counted. -/
def State.downImage (s : State) (p : Profile) (r : PageRef) (len : Nat) : State × Bytes × Nat :=
  if s.ageable p r len then
    match agePage p (s.pageImage r) p.escThresh p.ageThresh with
    | .page b _ =>
      let n := hdGet (p.lay 2) b Hd.ESC_COUNT
      ((s.bump F.TIER_CNT_AGED_COUNT).bumpBy F.TIER_CNT_ESCAPE_COUNT n, leavingImage p 2 b r.fill, 2)
    | _ => (s.bump F.TIER_CNT_AGE_REFUSED_COUNT, leavingImage p r.format (s.pageImage r) r.fill, r.format)
  else (s, leavingImage p r.format (s.pageImage r) r.fill, r.format)

/-- Does the victim's newest acknowledged shelf copy cover the page, at the owner in T2 or T3 (R188 step 1)? -/
def State.shelved (s : State) (e : Sess) (r : PageRef) : Bool :=
  e.holder1 == s.devId && (e.holderTier1 == 2 || e.holderTier1 == 3) && match e.manifest with
    | some m => m.entries.any (fun x => x.layer == r.layer && x.index == r.index && x.gen == s.gen r.slot && r.fill ≤ x.fill)
    | none => false

/-- Copy one page of a victim down the pre-emption path: cellar, then host (R88); none when neither takes it. -/
def State.copyDown (s : State) (p : Profile) (i : Nat) (r : PageRef) (len : Nat) : Option State :=
  let e := s.sess i
  let (s, b, f) := s.downImage p r len
  let n := belowQuarters f
  match p.preemptPath.find? (fun t => s.quotaFits e.tenant t n && (s.pickUnits t n).isSome) with
  | none => none
  | some t =>
    let d : DownPage := { page := { r with format := f }, tier := t, unit := (s.pickUnits t n).getD 0,
                          body := s.sealPage e.tenant (s.gen r.slot) r.slot r.fill b,
                          gen := s.gen r.slot }
    let s := if t == 3 then s.writeT3 d.unit d.body else s
    some (((s.guardRun t d.unit n).addUsed e.tenant t n).updSess i (fun e => { e with down := e.down ++ [d] }))

/-- Pre-empt a session (R188): its pages are copied down or found on the shelf, its slots wait for the copy's end. -/
def State.preempt (s : State) (i : Nat) : Option State :=
  match s.profile with
  | none => none
  | some p =>
    let e := s.sess i
    let todo := e.pages.filter (fun r => !s.shelved e r && r.fill != 0)
    let r := todo.foldl (fun (s : Option State) r => s.bind (fun s => s.copyDown p i r e.kvLength)) (some s)
    r.map fun s =>
      let s := (s.dequeue i).updSess i (fun e => { e with preempts := e.preempts + 1 })
      (s.enter i Ss.PREEMPTED e.state).bump F.SESS_CNT_PREEMPT_COUNT

/-- Rank of a session as a victim (Table 3.8), none when it never is one; `tenant` limits the choice to one tenant. -/
def State.victimRank (s : State) (i : Nat) (e : Sess) (tenant : Option Nat) : Option Nat :=
  if (tenant.isSome && tenant != some e.tenant) || (e.template && s.childCount e != 0) || e.inStep then none
  else if e.state == Ss.WAITING then (if s.parkBarred i then none else some 1)
  else if e.state == Ss.RING_FULL then some 2
  else if e.state == Ss.DECODE then (if e.tenant != 0xFFFF && s.level e.tenant ≤ 0 then some 3 else some 4)
  else none

/-- Is candidate `a` taken before `b` within the order of Table 3.8? -/
def State.victimBefore (s : State) (a b : Nat × Sess × Nat) : Bool :=
  let (_, ea, ra) := a
  let (_, eb, rb) := b
  if ra != rb then ra < rb
  else if ra == 1 then ea.deadline < eb.deadline
  else if ra == 2 then ea.entered < eb.entered
  else if ra == 3 then s.pagesT1 ea > s.pagesT1 eb
  else
    let wa := (s.tenant ea.tenant).weight
    let wb := (s.tenant eb.tenant).weight
    if wa != wb then wa < wb
    else if ea.vft != eb.vft then tagLt eb.vft ea.vft
    else s.pagesT1 ea > s.pagesT1 eb

/-- Slots that parks and pre-emptions under way will release. -/
def State.slotsLeaving (s : State) : Nat :=
  (s.sessions.map (fun p => if p.2.parking != 0 || p.2.state == Ss.PREEMPTED then (p.2.pages.flatMap PageRef.slots).length else 0)).foldl (· + ·) 0

/-- Is a session named by a slip that is accepted and has still to act?  An expiry and a victim choice pass it over (R79). -/
def State.slipReady (s : State) (acc : Nat) : Bool :=
  acc != 0 && s.ready.any fun t => match t with | .slip _ x => x.acc == acc | _ => false

/-- Commit a WAITING session towards the first tier of the park path, or towards TRANSCRIPT_ONLY where the path is empty (R91). -/
def State.parkFirst (s : State) (i why : Nat) : State × Option (Nat × Bool) :=
  match ((s.profile.map (·.parkPath)).getD []).head? with
  | some t => s.tryCommit i why t true
  | none => s.tryCommit i 6 2 true

/-- Take one victim: a WAITING session parks early, another is pre-empted; one that no tier takes, or that a fenced member may not commit (R356), is
passed over. -/
def State.takeVictim (s : State) (i rank : Nat) : Option State :=
  if rank == 1 && s.fenced then none
  else if rank == 1 then
    let r := (s.abandonCommit i).parkFirst i 3
    if r.2.isSome then none else some r.1
  else s.preempt i

/-- Victims in order until `enough` holds; each candidate is tried once. -/
def State.victims (s : State) (tenant : Option Nat) (except : Nat) (enough : State → Bool) : State :=
  let c := s.sessions.filterMap (fun p =>
    if p.1 == except || s.slipReady p.2.accession then none else (s.victimRank p.1 p.2 tenant).map (fun r => (p.1, p.2, r)))
  (c.mergeSort (fun a b => !(s.victimBefore b a))).foldl (fun s v =>
    if enough s then s else (s.takeVictim v.1 v.2.2).getD s) s

/-- Watermark pre-emption at a step boundary (R88): it begins below LOW and goes on until HIGH.  That candidates which come up only at
a later boundary, while free slots lie between the two marks, are still taken is the model's choice (log entry 81). -/
def State.watermark (s : State) : State :=
  let free := s.freeT1 + s.slotsLeaving
  let on := free < s.fld F.TIER_WMARK_LOW || (s.preempting && free < s.fld F.TIER_WMARK_HIGH)
  if s.flag F.SESS_CTRL_PREEMPT_EN && s.profile.isSome && on then
    let s := s.victims none 0x100000 (fun s => s.freeT1 + s.slotsLeaving ≥ s.fld F.TIER_WMARK_HIGH)
    { s with preempting := decide (s.freeT1 + s.slotsLeaving < s.fld F.TIER_WMARK_HIGH) }
  else { s with preempting := false }

/-! ## Revives (R92, R193, R197) -/

/-- Change a revive. -/
def State.updRevive (s : State) (i : Nat) (f : Revive → Revive) : State :=
  match tGet s.revives i with
  | some r => { s with revives := tPut s.revives i (f r) }
  | none => s

/-- Verify a returning object (R197, R341): the header matches, then the decrypted body's colophon; answers the plaintext, or
the error kind of the first step that failed, 0 for the header. -/
def verifyObject (e : Sess) (kind number alive : Nat) (key : Bytes) (tweak gen code : Nat) (obj : Bytes) : Except Nat Bytes :=
  let h := slice obj 0 32
  let body := obj.drop 32
  if h != objHeader e.accession kind e.tenant number alive body.length || body.length < 16 then .error 0
  else
    let b := xtsDec key tweak body
    let n := b.length - 16
    if rdLe b (n + 12) 2 != code then .error Ek.COLOPHON_FORMAT
    else if rdLe b n 8 != crc64 (b.take n) then .error Ek.COLOPHON_CRC
    else if rdLe b (n + 8) 4 != gen then .error Ek.COLOPHON_ALIVE
    else .ok b

end Sys2Proof.Machine
end

