-- ==== Sys2Proof/Machine/Revive.lean ====
section
/-!
DEFINITION. Reading images back and moving them (R192, R193, R335, Table 7.5): heads, index parts, page objects, logs; the end
of a revive; lost holders; truncation; moves down the park path.
-/

namespace Sys2Proof.Machine

/-! ## Objects -/

/-- An object this device holds for one of its own sessions, header and body; one on a damaged line reads as nothing (R330). -/
def State.ownObject (s : State) (acc kind number alive : Nat) : Option Bytes :=
  (s.shelf.find? (fun o => o.own && o.accession == acc && o.kind == kind && o.number == number && o.alive == alive
      && !s.unitsHurt o.tier o.unit o.body.length)).map
    (fun o => objHeader acc kind o.tenant number alive o.body.length ++ o.body)

/-- The pre-emption copy of a page (R188). -/
def Sess.downOf (e : Sess) (number : Nat) : Option DownPage :=
  e.down.find? (fun d => pageNumber d.page.layer d.page.index == number)

/-- The index entry of a page object. -/
def Manifest.entryOf (m : Manifest) (number : Nat) : Option IndexEnt :=
  m.entries.find? (fun x => pageNumber x.layer x.index == number)

/-- ALIVE the requester expects of an object (R194); a head's, where SHELF_GEN is a floor, is taken from its own header (R319). -/
def Revive.alive (r : Revive) (e : Sess) (kind number : Nat) : Nat :=
  match r.head with
  | none => e.shelfGen
  | some m =>
    if kind == 1 then e.shelfGen
    else if kind == 2 then m.partAlive.getD number 0
    else if kind == 3 then ((m.entryOf number).map (·.alive)).getD 0
    else if kind == 4 then m.runAlive.getD number 0 else m.maskAlive

/-- Take an object as delivered and verify it (R197): the plaintext, or the step that failed; 100 when it was not delivered.
Of this device's own media, `obj` none means the medium gave what it holds. -/
def State.reviveFetched (s : State) (i : Nat) (r : Revive) (dev kind number : Nat) (obj : Option Bytes) : Except Nat Bytes :=
  let e := s.sess i
  let pageKey := tenantXts (s.tenantKey e.tenant) "yudar page"
  let objKey := tenantXts (s.tenantKey e.tenant) "yudar object"
  match (if r.readmit && dev == s.devId && kind == 3 then e.downOf number else none) with
  | some d =>
    let own := objHeader e.accession 3 e.tenant number 0 d.body.length ++ d.body
    if s.unitsHurt d.tier d.unit d.body.length then .error 100
    else verifyObject e 3 number 0 pageKey (pageTweak d.gen d.page.slot s.devId d.page.fill) d.gen (pageCode d.page.format) (obj.getD own)
  | none =>
    let newest := ((s.shelf.filter (fun o => o.own && o.accession == e.accession && o.kind == 1)).map (·.alive)).foldl max 0
    let want := if kind == 1 && e.floor then newest else r.alive e kind number
    match (if dev == s.devId && obj.isNone then s.ownObject e.accession kind number want else obj) with
    | none => .error 100
    | some raw =>
      let alive := if kind == 1 && e.floor && rdLe raw 16 4 ≥ e.shelfGen then rdLe raw 16 4 else want
      if kind == 3 then
        match r.head.bind (·.entryOf number) with
        | none => .error 0
        | some x =>
          match verifyObject e 3 number alive pageKey (pageTweak x.gen x.tweakPage x.tweakDev x.fill) x.gen (pageCode x.format) raw with
          | .ok b => if rdLe b (b.length - 16) 8 == x.crc then .ok b else .error Ek.COLOPHON_CRC
          | .error k => .error k
      else verifyObject e kind number alive objKey (objectTweak e.accession alive kind number) alive (0x040F + (if kind == 1 then 1 else if kind == 2 then 2 else if kind == 4 then 3 else 4)) raw

/-- A refused object is counted, and its colophon's failure recorded (R197, R341). -/
def State.refuseObject (s : State) (acc kind number why : Nat) : State :=
  if why == 100 then s
  else
    let s := s.bump F.TIER_CNT_REFUSED_COUNT
    if why == 0 then s else s.colophonErr why (kind * 2 ^ 32 + number) acc

/-- Objects of a read in flight at most (R187): 64 at another device, 32 per channel of the cellar, 256 of host memory. -/
def State.inFlight (s : State) (e : Sess) (r : Revive) (dev kind number : Nat) : Bool :=
  let own := fun (kind number : Nat) => match (if r.readmit && kind == 3 then e.downOf number else none) with
    | some d => some (d.tier, d.unit)
    | none => (s.shelf.find? (fun (o : ShelfObj) => o.own && o.accession == e.accession && o.kind == kind && o.number == number
        && o.alive == r.alive e kind number)).map (fun (o : ShelfObj) => (o.tier, o.unit))
  let mine := r.asked.filter (fun a => a.2.2 == dev)
  if dev != s.devId then decide (mine.length < 64)
  else match own kind number with
    | none => true
    | some (tier, unit) =>
      let same := mine.filter (fun a => match own a.1 a.2.1 with
        | some (t, u) => t == tier && (tier != 2 || u % s.cellarWays == unit % s.cellarWays)
        | none => false)
      decide (same.length < (if tier == 2 then 32 else 256))

/-- Ask for what a read has still to ask for, in order, as far as its places in flight go (R187). -/
def State.askMore (s : State) (i : Nat) : State :=
  match tGet s.revives i with
  | none => s
  | some r =>
    r.todo.foldl (fun s o =>
      match tGet s.revives i with
      | none => s
      | some r =>
        if s.inFlight (s.sess i) r o.2.2 o.1 o.2.1 then
          ({ s with revives := tPut s.revives i { r with asked := r.asked ++ [o] } }).askObject i o.2.2 o.1 o.2.1 (r.alive (s.sess i) o.1 o.2.1)
        else { s with revives := tPut s.revives i { r with todo := r.todo ++ [o] } })
      { s with revives := tPut s.revives i { r with todo := [] } }

/-- Ask a device for several objects. -/
def State.askAll (s : State) (i dev : Nat) (objs : List (Nat × Nat)) : State :=
  (match tGet s.revives i with
    | some r => { s with revives := tPut s.revives i { r with todo := r.todo ++ objs.map (fun (o : Nat × Nat) => (o.1, o.2, dev)) } }
    | none => s).askMore i

/-! ## Adoption (R321) -/

/-- The session an offered entry describes, MOVING at the target: what an image carries, and the holders. -/
def Sess.ofEntry (b : Bytes) (resume : Nat) : Sess :=
  let fl := rdLe b 0x0C 2
  { Sess.blank with
    accession := rdLe b 0 8, state := Ss.MOVING, resume := resume, tenant := rdLe b 0x0A 2, template := bitOf fl 0,
    forked := bitOf fl 2, toolWait := bitOf fl 3, rebuild := bitOf fl 5, armed := bitOf fl 1, tier := bitsOf (rdLe b 0x0E 1) 2 0,
    kvLength := rdLe b 0x10 4, shelvedLength := rdLe b 0x18 4, pending := rdLe b 0x1C 4, parent := rdLe b 0x30 8,
    forkLength := rdLe b 0x38 4, mask := bitsOf (rdLe b 0x3C 4) 5 0, maskValid := bitOf (rdLe b 0x3C 4) 31,
    sampling := rdLe b 0x44 2, grammar := rdLe b 0x46 2, grammarState := rdLe b 0x48 4, reqRemaining := rdLe b 0x4C 4,
    ttlWait := rdLe b 0x50 4, ttlT2 := rdLe b 0x54 4, ttlT3 := rdLe b 0x58 4, ttlT4 := rdLe b 0x5C 4, ttlTranscript := rdLe b 0x60 4,
    holder1 := bitsOf (rdLe b 0x80 8) 19 0, holder2 := bitsOf (rdLe b 0x80 8) 39 20, holderTier1 := bitsOf (rdLe b 0x80 8) 42 40,
    holderTier2 := bitsOf (rdLe b 0x80 8) 45 43, shelfGen := rdLe b 0x88 4, steps := rdLe b 0x90 4, preempts := rdLe b 0x94 4,
    away := true, awayLen := rdLe b 0x14 4 }

/-- The head at an adopted session's secondary holder has been tested (R321 step 3): PARKED when it verifies at or above the
record's SHELF_GEN, else TRANSCRIPT_ONLY with what transcript is left; this device is its owner from here on. -/
def State.adoptSettle (s : State) (i : Nat) (ok : Bool) : State :=
  let acc := (s.sess i).accession
  let s := { s with revives := tDel s.revives i }
  let s := s.updSess i fun e =>
    if ok then { e with tier := if e.holderTier1 ≥ 2 then e.holderTier1 else 2 }
    else
      let whole := e.awayLen == 0
      { e with tier := 0, rebuild := true, away := false, awayLen := 0, floor := false, shelfGen := 0, shelvedLength := 0,
               transcript := if whole then e.transcript else [], maskLog := if whole then e.maskLog else [],
               kvLength := if whole then e.kvLength else 0, pending := if whole then e.pending else 0 }
  let s := s.enter i (if ok then Ss.PARKED else Ss.TRANSCRIPT_ONLY)
  let s := s.updCat fun c => { c with undecided := c.undecided.filter (· != acc) }
  let owners := match tGet s.cat.buckets (bucketOf acc) with | some b => [b.primary, b.secondary].eraseDups | none => []
  (owners.foldl (fun s d => s.registerAt d acc s.devId) s).bump F.CKPT_CNT_ADOPTED_COUNT

/-! ## Laying pages into T1 -/

/-- Put a page reference in its place: by page index, then layer. -/
def insertPage (r : PageRef) : List PageRef → List PageRef
  | [] => [r]
  | x :: l => if r.index < x.index || (r.index == x.index && r.layer < x.layer) then r :: x :: l else x :: insertPage r l

/-- Lay one page of a session into reserved slots: GEN increments, PAGE_ID is rewritten (R193 phase 3), and
TENANT names the tenant charged (Table 4.5). -/
def State.layPage (s : State) (p : Profile) (i : Nat) (layer index format fill : Nat) (b : Bytes) : State :=
  let e := s.sess i
  match s.placeSlot e.tenant e.accession with
  | none => s
  | some (k, s1) =>
    match (if format == 1 then s1.placeSlot e.tenant e.accession (some k) else some (0, s1)) with
    | none => s
    | some (k2, s) =>
      let n := if format == 1 then 2 else 1
      let r : PageRef := { layer := layer, index := index, slot := k, second := k2, format := format, fill := fill }
      let s := s.putImage r (hdPut (p.lay format) (laidImage p format b k k2 (s.gen k)) Hd.TENANT e.tenant)
      let s := { (s.updRevive i (fun r => { r with reserved := r.reserved - n })) with reserved := s.reserved - n }
      s.updSess i (fun e => { e with pages := insertPage r e.pages })

/-- Give back the slots a revive still reserves, and their charge. -/
def State.unreserve (s : State) (i : Nat) : State :=
  let n := match tGet s.revives i with | some r => r.reserved | none => 0
  let s := { (s.updRevive i (fun r => { r with reserved := 0 })) with reserved := s.reserved - n }
  s.subUsed (s.sess i).tenant 1 (4 * n)

/-! ## Lost holders (R192) -/

/-- The secondary holder chosen when the devices `lost` no longer serve (R191). -/
def State.chooseSecondBut (s : State) (acc : Nat) (lost : List Nat) : Nat × Nat :=
  let own := s.devId
  let c := match tGet s.cat.buckets (bucketOf acc) with | some b => [b.secondary, b.primary] | none => []
  match c.find? (fun d => d != own && !lost.contains d) with
  | some d => (d, 2)
  | none => (own, if s.hostRegions.any (fun r => r.2.state == 1) then 3 else 2)

/-- The next pool device for a holder set from which `lost` are gone. -/
def State.nextMember (s : State) (acc second : Nat) (lost set : List Nat) : Option Nat :=
  let n := s.pool.length
  let start := crc32c (leBytes 8 acc) % (max n 1)
  ((s.pool.drop start ++ s.pool.take start).map (·.2.device)).find?
    (fun d => d != s.devId && d != second && !lost.contains d && !set.contains d)

/-- Every object of an image but its head: (kind, number, ALIVE, device of the primary copy). -/
def State.imageObjects (s : State) (e : Sess) (m : Manifest) : List (Nat × Nat × Nat × Nat) :=
  m.partAlive.zipIdx.map (fun a => (2, a.2, a.1, e.holder1))
    ++ m.entries.map (fun x => (3, pageNumber x.layer x.index, x.alive, m.holderOf e.holder1 3 x.index))
    ++ m.runAlive.zipIdx.map (fun a => (4, a.2, a.1, s.logDev e))
    ++ (if m.maskAlive == 0 then [] else [(5, 0, m.maskAlive, s.logDev e)])

/-- Copy one object of an image from what this device holds to a new holder, verified as it is read (R192, R197). -/
def State.copyHere (s : State) (i : Nat) (r : Revive) (kind number alive dest tier : Nat) (second : Bool) : State :=
  let e := s.sess i
  match s.reviveFetched i r s.devId kind number none, s.ownObject e.accession kind number alive with
  | .ok _, some raw =>
    let s := s.putObject i dest tier second kind number alive (raw.drop 32)
    (match tGet s.commits i with
    | some c => { s with commits := tPut s.commits i { c with unacked := c.unacked ++ [(dest, kind, number)] } }
    | none => s)
  | .ok _, none => s
  | .error k, _ => s.refuseObject e.accession kind number k

/-- Where an object of a re-replication goes, and the tier it rests in there: the new secondary, or the new place of the primary copy. -/
def Commit.placeOf (c : Commit) (e : Sess) (kind number : Nat) : Nat × Nat × Bool :=
  if c.h2 != e.holder2 || c.lost.contains e.holder2 then (c.h2, c.t2, true)
  else (c.manifest.holderOf c.h1 kind (number % 65536), if kind ≥ 4 || c.manifest.primaryTier == 4 then 2 else c.manifest.primaryTier, false)

/-- Replace lost holders of a session and copy the current generation to their replacements from the surviving copy; the next
generation, which names them, is committed (R192).  The index of an image this device has not read is read first.  With both copies
lost there is nothing to copy. -/
def State.replaceHolder (s : State) (i : Nat) (devs : List Nat) : State :=
  let e := s.sess i
  let parking := e.parking
  let devs := ((match tGet s.commits i with | some c => c.lost | none => []) ++ devs).eraseDups
  let s := s.abandonCommit i
  match e.manifest with
  | none =>
    if e.shelfGen != 0 then
      let s := s.updSess i (fun e => { e with parking := parking })
      if (tGet s.revives i).isSome then s.updRevive i (fun r => { r with lost := (r.lost ++ devs).eraseDups })
      else
        let src := if devs.contains e.holder1 then e.holder2 else e.holder1
        ({ s with revives := tPut s.revives i { Revive.start 10 e.kvLength src with lost := devs } }).askObject i src 1 0
          (if e.floor then 0 else e.shelfGen)
    else
      let (h2, t2) := s.chooseSecondBut e.accession devs
      let s := s.updSess i (fun e => { e with holder2 := h2, holderTier2 := t2 })
      if parking == 0 then s else s.parkAgain i 2 parking
  | some m =>
    let second := devs.contains e.holder2
    let (h2, t2) := if second then s.chooseSecondBut e.accession devs else (e.holder2, e.holderTier2)
    let set := m.holderSet.foldl (fun l d =>
      l ++ [if devs.contains d then (s.nextMember e.accession h2 devs (m.holderSet ++ l)).getD s.devId else d]) []
    let h1 := if !devs.contains e.holder1 then e.holder1 else if m.primaryTier == 4 then set.headD s.devId else s.devId
    let need := (s.imageObjects e m).filter (fun o => devs.contains o.2.2.2 != second)
    let g := max e.shelfGen e.genTop + 1
    let c : Commit := { gen := g, why := 5, target := m.primaryTier, manifest := { m with gen := g, holderSet := set }, unacked := [],
                        copied := [], head := false, redo := false, h1 := h1, h2 := h2, t2 := t2, lost := devs }
    let s := s.updSess i (fun e => { e with parking := parking, genTop := g })
    let s := { s with commits := tPut s.commits i c }
    let from_ := fun (o : Nat × Nat × Nat × Nat) => if second then o.2.2.2 else e.holder2
    let r := { Revive.start 6 e.kvLength 0 with asked := [], head := some m, stage := 2 }
    let s := (need.filter (fun o => from_ o == s.devId)).foldl (fun s o =>
      let q := c.placeOf e o.1 o.2.1
      s.copyHere i r o.1 o.2.1 o.2.2.1 q.1 q.2.1 q.2.2) s
    let far := need.filter (fun o => from_ o != s.devId)
    if need.isEmpty then s.writeHead i
    else if far.isEmpty then s
    else far.foldl (fun s o => s.askAll i (from_ o) [(o.1, o.2.1)]) { s with revives := tPut s.revives i r }

/-- Is a device a holder of a session's copies? -/
def Sess.heldBy (e : Sess) (dev : Nat) : Bool := e.holderDevs.contains dev

/-- A holder is lost: every session this device owns and the holder held gets a replacement; one being revived does so after
its revive (R192, R198), all of a fenced member when its fence ends (R356). -/
def State.holderLost (s : State) (dev : Nat) : State :=
  if dev == s.devId then s
  else
    let hit := s.sessions.filter (fun p => p.2.state != Ss.CLOSED && p.2.state != Ss.MOVING
      && (p.2.heldBy dev || (match tGet s.commits p.1 with | some c => c.unacked.any (·.1 == dev) | none => false)))
    if hit.isEmpty then s
    else if s.fenced then s.updCat fun c => { c with lostLate := if c.lostLate.contains dev then c.lostLate else c.lostLate ++ [dev] }
    else (hit.foldl (fun s p =>
      if p.2.state == Ss.REVIVING then s.updRevive p.1 (fun r => { r with lost := (r.lost ++ [dev]).eraseDups })
      else s.replaceHolder p.1 [dev]) s).bump F.TIER_CNT_HOLDER_LOST_COUNT

/-- Holders found lost during a revive are replaced after it (R198). -/
def State.replaceAfter (s : State) (i : Nat) (lost : List Nat) : State :=
  lost.foldl (fun s d => if d == s.devId then s.replaceHolder i [d] else s.holderLost d) s

/-- A revive ends refused at its reserve phase: the session returns to the state it held before, its DEADLINE unchanged, and
the slip is answered (R193). -/
def State.reviveRefused (s : State) (i : Nat) (a : Answer) : State :=
  let e := s.sess i
  let lost := match tGet s.revives i with | some r => r.lost | none => []
  let s := s.unreserve i
  let s := { s with revives := tDel s.revives i }
  let s := s.updSess i (fun e => { e with state := e.reviveFrom, resume := 0, deadline := e.reviveDeadline, entered := s.tick })
  let go := s.held.filter (fun h => h.2 == Hold.revive e.accession)
  let s : State := { s with held := s.held.filter (fun h => h.2 != Hold.revive e.accession) }
  (go.foldl (fun s h => s.finish h.1.op.toNat h.1.slip a) s).replaceAfter i lost

/-! ## The end of a revive (R92, R193) -/

/-- The revive has ended: the session is hot again, and the slip that waited takes effect with the revive's note (R92).  A
request whose record was lost ends with DEVICE_FAULT (R224). -/
def State.reviveDone (s : State) (i : Nat) : State :=
  let e := s.sess i
  let r := (tGet s.revives i).getD (Revive.start 3 e.kvLength 0)
  let s := { s with revives := tDel s.revives i }
  let s := s.updSess i (fun e => { e with rebuild := false, tier := 1 })
  let gone : Bool := e.armed && (match e.req with | some q => q.lost | none => false)
  let s := if gone then (s.enter i Ss.WAITING).endWithout i End.DEVICE_FAULT []
    else if e.resume == Ss.DECODE then s.toDecode i
    else if e.resume == Ss.PREFILL then (s.enter i Ss.PREFILL).enqueuePrefill i
    else if e.resume == Ss.RING_FULL then
      (s.enter i Ss.RING_FULL (if e.heldFinal then Ss.WAITING else Ss.DECODE)).ringRoom e.ring
    else (s.enter i Ss.WAITING).startRequest i
  let s := if r.phase == 9 then s else s.bump F.SESS_CNT_REVIVE_COUNT
  let s := if e.reviveNote == 2 then s.bump F.SESS_CNT_REBUILT_COUNT else s
  let waits := fun (h : OpSlip × Hold) => h.2 == .revive e.accession
  let note := if e.reviveNote == 0 then 3 else e.reviveNote
  let s := { s with slips := s.slips.map (fun (o : Outst) =>
    if s.held.any (fun h => waits h && h.1.slip == o.slip) then { o with stage := .accepted, note := note, tokens := e.reviveTokens } else o) }
  let s := s.release (· == .revive e.accession)
  let s := s.updSess i (fun e => { e with reviveNote := 0, reviveTokens := 0 })
  s.replaceAfter i r.lost

/-- The tail phase (R193 phase 4, R335): positions beyond `kv` are prefilled again, up to the revive's goal. -/
def State.reviveTail (s : State) (i kv : Nat) : State :=
  let goal := match tGet s.revives i with | some r => r.goal | none => (s.sess i).kvLength
  let s := s.updRevive i (fun r => { r with phase := 3, asked := [] })
  let s := s.updSess i fun e => { e with kvLength := kv, pending := e.pending + (e.kvLength - kv), tier := 1 }
  let s := s.chargeLog i
  if kv ≥ goal then s.reviveDone i else s.enqueueTail i goal

/-- Abandon every page laid so far and rebuild from the transcript (R193): that of the owner's T2 runs, or, where one of them cannot be
read, of the runs at the secondary holder. -/
def State.reviveRebuild (s : State) (i : Nat) : State :=
  let s := s.unreserve i
  let e := s.sess i
  let hurt := s.shelf.any (fun o => o.own && !o.second && o.accession == e.accession && o.kind == 4 && s.unitsHurt o.tier o.unit o.body.length)
  match e.manifest with
  | some m =>
    let tried : Bool := match tGet s.revives i with | some r => r.lost.contains s.devId | none => false
    if !hurt || tried || e.away then s.rebuild i
    else
      let s := (s.dropPages i).updSess i fun e =>
        { e with away := true, awayLen := m.transcriptLen, transcript := e.transcript.drop m.transcriptLen }
      let s := s.updRevive i fun r => { r with phase := 5, stage := 1, asked := [], todo := [], head := some m, count := 0,
                                                lost := (r.lost ++ [s.devId]).eraseDups }
      s.askAll i e.holder2 ((List.range m.runAlive.length).map (fun k => (4, k)))
  | none => s.rebuild i

/-- The received logs of a session that moved in, or was restored or adopted, become its own (R94, R319): entries of its own
that the runs cover give way to them. -/
def State.takeLogs (s : State) (i : Nat) : State :=
  match tGet s.revives i with
  | some r =>
    if !(s.sess i).away then s
    else
      let n := match r.head with | some m => m.transcriptLen | none => 0
      let runs := r.runs.mergeSort (fun a b => a.1 ≤ b.1)
      s.updSess i fun e =>
        let whole := (runs.flatMap (·.2)).take n ++ e.transcript.drop (n - e.awayLen)
        let e := { e with away := false, awayLen := 0, transcript := whole,
                          maskLog := r.masks ++ e.maskLog.filter (fun m => !r.masks.contains m) }
        if e.floor then
          let toks := (whole.filter (fun v => entryKind v == 0)).length
          { e with floor := false, kvLength := min e.kvLength toks, pending := toks - min e.kvLength toks }
        else e
  | none => s

/-- First transcript entry no acknowledged generation covers. -/
def Sess.uncovered (e : Sess) : Nat := if e.away then e.awayLen else match e.manifest with | some m => min m.transcriptLen e.transcript.length | none => 0

/-- The newest sealed checkpoint this device can read (R302). -/
def State.newestSnapshot (s : State) : Option Snapshot :=
  (s.ckpt.press.slots.map (·.2) ++ s.ckpt.mirrored).foldl
    (fun (b : Option Snapshot) k => match b with | some v => if k.no > v.no then some k else b | none => some k) none

/-- The transcript entries a record of the newest sealed checkpoint gives a session: first position and entries. -/
def State.recordEntries (s : State) (acc : Nat) : Option (Nat × List Nat) :=
  s.newestSnapshot.bind fun k => (k.sessions.find? (fun p => p.2.accession == acc)).map fun p => (p.2.uncovered, p.2.transcript.drop p.2.uncovered)

/-- The entries of a transcript that its runs and the newest checkpoint give, up to the first gap (R193). -/
def State.foundEntries (s : State) (e : Sess) (r : Revive) : List Nat :=
  let runs := r.runs.mergeSort (fun a b => a.1 ≤ b.1)
  let have_ := ((runs.zipIdx.takeWhile (fun x => x.1.1 == x.2)).flatMap (·.1.2)).take e.awayLen
  let found := if have_.length == e.awayLen then have_ ++ e.transcript else have_
  match s.recordEntries e.accession with
  | some (f, es) => if f ≤ found.length && found.length < f + es.length then found.take f ++ es else found
  | none => found

/-- No holder's copy of some transcript run verifies (R193).  Where the checkpoint makes the transcript whole, the session is rebuilt
from it; else it keeps the entries found before the first gap, is TRANSCRIPT_ONLY, the loss is recorded, and the slips that waited
are answered MEDIA. -/
def State.logsLost (s : State) (i : Nat) : State :=
  let e := s.sess i
  let r := (tGet s.revives i).getD (Revive.start 4 0 0)
  let found := s.foundEntries e r
  let masks := if r.masks.isEmpty then e.maskLog else r.masks
  if found.length ≥ e.tlen && r.phase != 4 then
    (s.updSess i (fun e => { e with away := false, awayLen := 0, floor := false, transcript := found, maskLog := masks })).reviveRebuild i
  else
    let n := (found.filter (fun v => entryKind v == 0)).length
    let s := ((s.unreserve i).dropPages i).dequeue i
    let s := { s with revives := tDel s.revives i }
    let s := s.updSess i fun e =>
      { e with away := false, awayLen := 0, floor := false, transcript := found, maskLog := masks, kvLength := min e.kvLength n,
               pending := n - min e.kvLength n, rebuild := true, tier := 0 }
    let s := (s.enter i Ss.TRANSCRIPT_ONLY).errRecord 2 Ek.COLOPHON_CRC 0 (4 * 2 ^ 32) e.accession
    let go := s.held.filter (fun h => h.2 == .revive e.accession)
    let s := { s with held := s.held.filter (fun h => h.2 != .revive e.accession) }
    let d := s.lastErr
    go.foldl (fun s h => s.finish h.1.op.toNat h.1.slip (Answer.st St.MEDIA d)) s

/-- The logs have been read: slips that only waited for them may go (log entry 24). -/
def State.readDone (s : State) (i : Nat) : State :=
  let s := s.takeLogs i
  let acc := (s.sess i).accession
  let s := { s with revives := tDel s.revives i }
  let waits := fun (h : OpSlip × Hold) => h.2 == .revive acc
  let s := { s with slips := s.slips.map (fun (o : Outst) =>
    if s.held.any (fun h => waits h && h.1.slip == o.slip) then { o with stage := .accepted } else o) }
  s.release (· == .revive acc)

/-! ## Moves down the park path (R191, Table 7.5) -/

/-- The page object of an index entry on its way down: aged where R111 allows and R112 does not refuse, else as it is. -/
def State.downObject (s : State) (p : Profile) (e : Sess) (g : Nat) (x : IndexEnt) (body : Bytes) : State × IndexEnt × Bytes × Bool :=
  let r : PageRef := { layer := x.layer, index := x.index, slot := x.tweakPage, second := 0, format := x.format, fill := x.fill }
  if s.ageable p r e.kvLength then
    let plain := xtsDec (tenantXts (s.tenantKey e.tenant) "yudar page") (pageTweak x.gen x.tweakPage x.tweakDev x.fill) body
    match agePage p (laidImage p x.format plain x.tweakPage 0 x.gen) p.escThresh p.ageThresh with
    | .page b _ =>
      let stage := (nthOf (p.runs .staging) 0).getD 0
      let s := s.bumpGen stage
      let gen := s.gen stage
      let l := p.lay 2
      let out := leavingImage p 2 (hdPut l (hdPut l b Hd.PAGE_ID stage) Hd.GEN gen) x.fill
      let s := (s.bump F.TIER_CNT_AGED_COUNT).bumpBy F.TIER_CNT_ESCAPE_COUNT (hdGet l b Hd.ESC_COUNT)
      let y := { x with format := 2, tweakPage := stage, tweakDev := s.devId, gen := gen, alive := g, crc := rdLe out (out.length - 16) 8 }
      (s, y, s.sealPage e.tenant gen stage x.fill out, true)
    | _ => (s.bump F.TIER_CNT_AGE_REFUSED_COUNT, x, body, false)
  else (s, x, body, false)

/-- The index parts' ALIVE of a new generation: unchanged parts keep theirs. -/
def partsOf (old new : List IndexEnt) (oldAlive : List Nat) (g : Nat) : List Nat :=
  let parts := chunks 32000 (new.length + 1) new
  let olds := chunks 32000 (old.length + 1) old
  parts.zipIdx.map (fun k => if olds.getD k.2 [] == k.1 then oldAlive.getD k.2 g else g)

/-- Commit a generation without pages: the last expiry of the park path (R91, Table 7.5). -/
def State.dropPageObjects (s : State) (i : Nat) : State :=
  match s.profile, (s.sess i).manifest with
  | some _, some m =>
    let e := s.sess i
    let g := max e.shelfGen e.genTop + 1
    let m := { m with gen := g, length := 0, entries := [], partAlive := [], holderSet := [], primaryTier := 2 }
    let s := (s.setImg i (s.imageCharge m e.logQuarters e.holder2 e.holderTier2)).updSess i (fun e => { e with genTop := g })
    let c : Commit := { gen := g, why := 6, target := 0, manifest := m, unacked := [], copied := [], head := false, redo := false,
                        h1 := if e.away then e.holder1 else s.devId, h2 := e.holder2, t2 := e.holderTier2, lost := [] }
    { s with commits := tPut s.commits i c }.writeHead i
  | _, _ => s.toTranscriptOnly i

/-- Take a session down from its tier (R91): the next tier of the path whose time-to-live is not 0 and whose charge fits
(Table 7.4), or TRANSCRIPT_ONLY after the last; where a tier after its own has refused, the ones after `past`.  `objs` are its page
objects, header and body, by number. -/
def State.moveDown (s : State) (i : Nat) (objs : List (Nat × Bytes)) (past : Nat) : State :=
  match s.profile, (s.sess i).manifest with
  | some p, some m =>
    let e := s.sess i
    let g := max e.shelfGen e.genTop + 1
    let later := ((p.parkPath.dropWhile (· != (if past == 0 then e.tier else past))).drop 1).filter (fun t => e.tierTtl t != 0)
    if later.isEmpty then s.dropPageObjects i
    else
      let r := m.entries.foldl (fun (a : State × List (IndexEnt × Bytes × Bool)) x =>
        let raw := ((objs.find? (·.1 == pageNumber x.layer x.index)).map (·.2)).getD []
        let d := a.1.downObject p e g x (raw.drop 32)
        (d.1, a.2 ++ [d.2])) (s, [])
      let s := r.1
      let entries := r.2.map (·.1)
      let at_ := fun (t : Nat) =>
        { m with gen := g, primaryTier := t, entries := entries, partAlive := partsOf m.entries entries m.partAlive g,
                 holderSet := if t == 4 then s.holderSetOf e.accession e.holder2 else [] }
      let fits := fun (t : Nat) => (s.chargeRefused e.tenant e.img (s.imageCharge (at_ t) e.logQuarters e.holder2 e.holderTier2)).isNone
        && (t == 4 || s.roomFor t (entries.map (fun x => belowQuarters x.format)))
        && (s.roomShort e (at_ t) e.holder2 e.holderTier2).isNone && (t != 4 || !(at_ 4).holderSet.isEmpty)
      let skipped := (later.takeWhile (fun t => !fits t)).length
      let s := s.bumpBy F.TIER_CNT_SKIP_COUNT skipped
      match later.find? fits with
      | none => s.dropPageObjects i
      | some t =>
        let m2 := at_ t
        let h1 := if t == 4 then m2.holderSet.headD s.devId else s.devId
        let s := s.updSess i (fun e => { e with genTop := g })
        let s := s.setImg i (s.imageCharge m2 e.logQuarters e.holder2 e.holderTier2)
        let c : Commit := { gen := g, why := 4, target := t, manifest := m2, unacked := [], copied := [], head := false, redo := false,
                            h1 := h1, h2 := e.holder2, t2 := e.holderTier2, lost := [] }
        let s := { s with commits := tPut s.commits i c }
        r.2.foldl (fun s o =>
          let n := pageNumber o.1.layer o.1.index
          if o.2.2 then s.writeBoth i c 3 n o.1.index o.2.1
          else
            let d := m2.holderOf h1 3 o.1.index
            let s := s.putObject i d (if t == 4 then 2 else t) false 3 n o.1.alive o.2.1
            match tGet s.commits i with
            | some c => { s with commits := tPut s.commits i { c with unacked := c.unacked ++ [(d, 3, n)] } }
            | none => s) s
  | _, _ => s.toTranscriptOnly i

/-- Begin a move down: page objects that lie here are taken from here, others are read from their holders first. -/
def State.beginDown (s : State) (i : Nat) (past : Nat := 0) : State :=
  let e := s.sess i
  match e.manifest with
  | some m =>
    if e.holder1 == s.devId && m.primaryTier != 4 then
      s.moveDown i (m.entries.map (fun x => let n := pageNumber x.layer x.index; (n, (s.ownObject e.accession 3 n x.alive).getD []))) past
    else
      let r := { Revive.start 7 e.kvLength e.holder1 with asked := [], head := some m, stage := 2, past := past }
      let s := { s with revives := tPut s.revives i r }
      m.entries.foldl (fun s x => s.askAll i (m.holderOf e.holder1 3 x.index) [(3, pageNumber x.layer x.index)]) s
  | none =>
    if e.shelfGen == 0 then s.toTranscriptOnly i
    else ({ s with revives := tPut s.revives i { Revive.start 7 e.kvLength e.holder1 with past := past } }).askObject i e.holder1 1 0 (if e.floor then 0 else e.shelfGen)

/-! ## Arrivals -/

/-- T1 slots a set of index entries takes: two per wide page. -/
def slotsOf (es : List IndexEnt) : Nat := (es.map (fun x => if x.format == 1 then 2 else 1)).foldl (· + ·) 0

/-- Reserve further slots for a revive (R193 phase 2). -/
def State.reserveFor (s : State) (i n : Nat) : Option State :=
  let e := s.sess i
  if s.freeT1 < n || !s.quotaFits e.tenant 1 (4 * n) then none
  else some ({ (s.updRevive i (fun r => { r with reserved := r.reserved + n })) with reserved := s.reserved + n }.addUsed e.tenant 1 (4 * n))

/-- The answer when a revive's slots cannot be reserved (R193). -/
def State.noReserve (s : State) (n : Nat) : Answer := if s.freeT1 < n then Answer.st St.NO_SLOTS 4 else Answer.st St.QUOTA_FULL 1

/-- Every object asked for has come: the next stage begins, or the read is over. -/
def State.reviveNext (s : State) (i : Nat) : State :=
  match tGet s.revives i with
  | none => s
  | some r =>
    let e := s.sess i
    if !r.asked.isEmpty || !r.todo.isEmpty || r.stage == 0 then s
    else if r.phase == 6 then { s with revives := tDel s.revives i }
    else if r.stage == 1 then
      let s := match r.head with
        | some m => if r.phase == 4 || (r.phase == 5 && r.count != 0) then s else s.updSess i (fun e => { e with manifest := some m })
        | none => s
      if r.phase == 4 then s.readDone i
      else if r.phase == 5 then
        (if e.reviveFrom == Ss.PARKED && r.lost.isEmpty then ((s.takeLogs i).unreserve i).reviveTail i 0 else (s.takeLogs i).reviveRebuild i)
      else if r.phase == 10 then ({ s with revives := tDel s.revives i }).replaceHolder i r.lost
      else
        let es := (r.head.map (·.entries)).getD []
        if r.phase == 7 then
          es.foldl (fun s x => s.askAll i (match r.head with | some m => m.holderOf e.holder1 3 x.index | none => e.holder1)
            [(3, pageNumber x.layer x.index)]) (s.updRevive i (fun r => { r with stage := 2 }))
        else match s.reserveFor i (slotsOf es - r.reserved) with
          | none => s.reviveRefused i (s.noReserve (slotsOf es - r.reserved))
          | some s =>
            let s := (s.takeLogs i).updRevive i (fun r => { r with stage := 2, phase := 2 })
            if es.isEmpty then (s.unreserve i).reviveTail i 0
            else
              es.foldl (fun s x =>
                let d := match r.head with | some m => m.holderOf e.holder1 3 x.index | none => e.holder1
                s.askAll i (if r.lost.contains d then e.holder2 else d) [(3, pageNumber x.layer x.index)]) s
    else if r.phase == 7 then ({ s with revives := tDel s.revives i }).moveDown i r.got r.past
    else
      let s := if r.readmit then s.dropDown i else s
      match r.lostPos, s.profile with
      | some f, some p =>
        let lose := fun (g : PageRef) => g.index * p.tokensPerPage ≥ f
        let s := ((e.pages.filter lose).flatMap PageRef.slots).foldl State.dropSlot (s.unreserve i)
        (s.updSess i (fun e => { e with pages := e.pages.filter (fun g => !lose g) })).reviveTail i f
      | _, _ => (s.unreserve i).reviveTail i (if r.readmit then e.kvLength else min e.shelvedLength r.goal)

/-- The manifest head of a read has come and verified; where SHELF_GEN was a floor it gives KV_LENGTH, SHELVED_LENGTH and SHELF_GEN
(R319).  A revive reserves a slot for each page it counts (phase 2); index parts, and the logs where they are needed, are asked for. -/
def State.headIn (s : State) (i : Nat) (dev : Nat) (b : Bytes) : State :=
  let m := Manifest.ofBytes b
  let s := if (s.sess i).floor then (s.updSess i fun e => { e with kvLength := rdLe b 0x30 4, shelvedLength := m.length, shelfGen := m.gen }).updRevive i
      (fun r => { r with goal := rdLe b 0x30 4 }) else s
  let e := s.sess i
  let s := s.updRevive i fun r => { r with head := some m, stage := 1, asked := [], count := rdLe b 0x10 4,
                                            phase := if r.phase == 1 && rdLe b 0x10 4 == 0 then 5 else if r.phase == 1 then 2 else r.phase }
  let ph := match tGet s.revives i with | some r => r.phase | none => 0
  let parts := (List.range m.partAlive.length).map (fun k => (2, k))
  let logs := if e.away && ph != 7 && ph != 10 then (List.range m.runAlive.length).map (fun k => (4, k)) ++ (if m.maskAlive == 0 then [] else [(5, 0)]) else []
  let count := match tGet s.revives i with | some r => r.count | none => 0
  match (if ph == 2 then s.reserveFor i count else some s) with
  | none => s.reviveRefused i (s.noReserve count)
  | some s => ((s.askAll i dev (if ph == 4 || ph == 5 then [] else parts)).askAll i (s.logDev e) logs).reviveNext i

/-- An object of a read could not be had from a device (R193 phase 3): it is asked of the secondary holder, to which every
other object still expected of that device goes too; when the secondary fails it as well, the session is rebuilt, or its logs
are lost. -/
def State.fetchFailed (s : State) (i dev kind number : Nat) : State :=
  match tGet s.revives i with
  | none => s
  | some r =>
    let e := s.sess i
    let others := (r.asked ++ r.todo).filter (fun a => a.2.2 == dev)
    let copyDown := r.readmit && kind == 3 && (e.downOf number).isSome
    if r.phase == 8 then s.adoptSettle i false else
    if dev != e.holder2 && !copyDown && !r.lost.contains e.holder2 then
      let s := s.updRevive i (fun r => { r with asked := r.asked.filter (fun a => a.2.2 != dev), todo := r.todo.filter (fun a => a.2.2 != dev),
                                                      lost := (r.lost ++ [dev]).eraseDups })
      let s := s.updSess i (fun e => { e with reviveNote := if e.reviveNote == 0 then 1 else e.reviveNote })
      s.askAll i e.holder2 (others.map (fun a => (a.1, a.2.1)))
    else if r.readmit then
      let pos := (number % 65536) * ((s.profile.map (·.tokensPerPage)).getD 0)
      let s := s.updRevive i fun r =>
        { r with asked := r.asked.filter (fun a => !(a.1 == kind && a.2.1 == number)), lostPos := some (min pos (r.lostPos.getD pos)) }
      let known : Bool := match e.downOf number with | some d => s.unitsHurt d.tier d.unit d.body.length | none => false
      ((if known then s else s.errRecord 1 Ek.DDR_UE 0 0 e.accession).askMore i).reviveNext i
    else if r.phase == 6 then
      let s := ({ s with revives := tDel s.revives i }).abandonCommit i
      (if e.parking == 0 then s else s.parkAgain i 2 e.parking)
    else if r.phase == 7 || r.phase == 10 then { s with revives := tDel s.revives i }
    else if !e.away then s.reviveRebuild i
    else if kind == 2 || kind == 3 then
      let s := (s.unreserve i).dropPages i
      (s.updRevive i (fun r => { r with phase := 5, stage := 1, asked := r.asked.filter (fun a => a.1 ≥ 4), todo := r.todo.filter (fun a => a.1 ≥ 4) })).reviveNext i
    else s.logsLost i

/-- An object has come: it is no longer expected, and its place in flight is another's. -/
def State.gotObject (s : State) (i kind number : Nat) : State :=
  (s.updRevive i (fun r => { r with asked := r.asked.filter (fun a => !(a.1 == kind && a.2.1 == number)) })).askMore i

/-- The mask structures of a mask log's body (R194). -/
def masksOf : Nat → Bytes → List MaskRec
  | 0, _ => []
  | f + 1, b =>
    let n := rdLe b 4 4
    if b.length < 32 || n < 16 then [] else { len := rdLe b 8 4, bits := slice b 16 (n - 16) } :: masksOf f (b.drop n)

/-- An object that verified takes its place. -/
def State.placeObject (s : State) (i dev kind number : Nat) (raw : Option Bytes) (b : Bytes) : State :=
  match tGet s.revives i, s.profile with
  | some r, some p =>
    let e := s.sess i
    let s := if dev == e.holder2 && dev != e.holder1 then s.bump F.TIER_CNT_SECONDARY_COUNT else s
    let s := s.gotObject i kind number
    let s :=
      if kind == 2 then
        let es := (chunks 32 (b.length / 32 + 1) (b.take (b.length - 16))).map IndexEnt.ofBytes
        s.updRevive i fun r => { r with head := r.head.map fun m =>
          { m with entries := (m.entries ++ es).mergeSort (fun a b => a.index < b.index || (a.index == b.index && a.layer ≤ b.layer)) } }
      else if kind == 3 then
        if r.phase == 7 then s.updRevive i (fun r => { r with got := r.got ++ [(number, raw.getD [])] })
        else match (if r.readmit then e.downOf number else none), r.head.bind (·.entryOf number) with
          | some d, _ => s.layPage p i d.page.layer d.page.index d.page.format d.page.fill b
          | none, some x => s.layPage p i x.layer x.index x.format x.fill b
          | none, none => s
      else if kind == 4 then
        s.updRevive i (fun r => { r with runs := r.runs ++ [(number, (chunks 4 (b.length / 4 + 1) (b.take (b.length - 16))).map leNat)] })
      else
        s.updRevive i (fun r => { r with masks := masksOf 64 b, head := r.head.map (fun m => { m with maskCount := (masksOf 64 b).length }) })
    s.reviveNext i
  | _, _ => s

/-- A session passes on at once from a tier whose time-to-live is 0 (R90). -/
def State.passOn (s : State) (i : Nat) : State :=
  let e := s.sess i
  if e.state == Ss.PARKED && e.tierTtl e.tier == 0 && (tGet s.commits i).isNone && (tGet s.revives i).isNone && !s.fenced then s.beginDown i else s

/-- A revive with nothing to fetch or to prefill again is over (R92). -/
def State.reviveOver (s : State) (i : Nat) : State :=
  match tGet s.revives i with
  | some r => if r.phase == 3 && r.goal ≤ (s.sess i).kvLength then s.reviveDone i else s
  | none => s

/-! ## The start of a revive -/

/-- What a revive interrupts: a move down or a re-replication is given up, and the devices it was replacing are replaced after the
revive (R192, R198). -/
def State.leaveDown (s : State) (i : Nat) : State × List Nat :=
  let lost := (match tGet s.commits i with | some c => c.lost | none => [])
    ++ (match tGet s.revives i with | some r => if r.phase == 6 || r.phase == 10 then r.lost else [] | none => [])
  let s := s.abandonCommit i
  ({ s with revives := tDel s.revives i }, lost.eraseDups)

/-- Start a revive (R92, R193): the session is REVIVING from here on; the head is asked of the primary holder, or of the secondary
where that one is lost, or the session goes straight to its rebuild when no page image is left. -/
def State.startRevive (s : State) (i : Nat) : State :=
  let e := s.sess i
  let (s, lost) := s.leaveDown i
  let s := s.updSess i fun e =>
    { e with reviveFrom := e.state, reviveDeadline := e.deadline, reviveNote := 0, reviveTokens := 0, state := Ss.REVIVING,
             resume := Ss.WAITING, entered := s.tick, deadline := 0 }
  let src := if lost.contains e.holder1 && !lost.contains e.holder2 then e.holder2 else e.holder1
  let r := { Revive.start 1 e.kvLength src with lost := lost }
  let s := { s with revives := tPut s.revives i r }
  if e.state == Ss.TRANSCRIPT_ONLY && !e.away then s.reviveRebuild i
  else if src == e.holder1 then s.askObject i src 1 0 (if e.floor then 0 else e.shelfGen)
  else (s.updSess i (fun e => { e with reviveNote := 1 })).askObject i src 1 0 (if e.floor then 0 else e.shelfGen)

/-- Hold a slip for the revive it starts (R80). -/
def State.reviveFor (s : State) (i : Nat) (x : Slip) : SlipRes := .hold (s.startRevive i) (.revive x.acc)

end Sys2Proof.Machine
end

