-- ==== Sys2Proof/Machine/AttnFrame.lean ====
section
/-!
DEFINITION. Attention and the output head (R134, R147, R168-R176): stored keys and values, partial records and their merging, the tiles
of the matrix engines, first-pass logits by either route and rescoring.
-/

namespace Sys2Proof.Machine

/-! ## Stored keys and values -/

/-- The head of dimension D that pair `j` of a token slot holds, decoded: K heads 0 to H − 1, then V heads (R101). -/
def readHead (p : Profile) (l : Layout) (img : Bytes) (t j : Nat) : List Nat :=
  (List.range p.G).flatMap (fun d => groupWords p l img ((j * p.tokensPerPage + t) * p.G + d))

/-- FP8 values of a byte string times 2^(s − 127), as FP32 words (R107 step 1). -/
def fp8s (b : Bytes) (s : Nat) : List Nat := b.map (fun v => codeWord mxFp8 s v.toNat)

/-- Mask in force at each token entry of a transcript (R74, R87): mask-log index, none for the causal default. -/
def masksAt : Option Nat → List Nat → List (Option Nat)
  | _, [] => []
  | m, v :: l =>
    if entryKind v == 2 then masksAt (if bitsOf v 19 0 == 0xFFFFF then none else some (bitsOf v 19 0)) l
    else if entryKind v == 0 then m :: masksAt m l else masksAt m l

/-- Does the query of position `q` attend position `k` (R87)? -/
def Sess.attends (e : Sess) (q k : Nat) : Bool :=
  if q == k then true
  else if k > q then false
  else match ((masksAt none e.transcript).getD q none).bind (fun m => e.maskLog[m]?) with
    | none => true
    | some m => k ≥ m.len || (m.bits.getD (k / 8) 0).getLsbD (k % 8)

/-! ## Partial records (R134, R135, R168) -/

/-- What a query has gathered over some positions: the largest score m, the sum l, the weighted values o (R134). -/
structure AttnPart where
  m : Nat
  l : Nat
  o : List Nat
  deriving DecidableEq, Repr

/-- Softmax of attended scores: probabilities, m, l (R134). -/
def softmaxOf (scores : List Nat) (scale : Nat) : List Nat × Nat × Nat :=
  let sc := scores.map (fun x => f32Mul x scale)
  match sc with
  | [] => ([], f32Inf true, 0)
  | x :: l =>
    let m := l.foldl (fun a b => if f32Lt a b then b else a) x
    let e := sc.map (fun v => Config.expF32 (f32Sub v m))
    (e, m, Config.accumulate 0 (e.map (fun v => (v, 0x3F800000))))

/-- The partial of a query over keys and values of dimension `dim` (R134). -/
def partialOf (dim scale : Nat) (q : List Nat) (keys vals : List (List Nat)) : AttnPart :=
  let x := softmaxOf (keys.map (fun kv => Config.accumulate 0 (kv.zip q))) scale
  { m := x.2.1, l := x.2.2,
    o := (List.range dim).map (fun i => Config.accumulate 0 ((x.1.zip vals).map (fun z => (z.1, z.2.getD i 0)))) }

/-- Two partials combined (R135), in FP32. -/
def AttnPart.mix (x y : AttnPart) : AttnPart :=
  let m := if f32Lt x.m y.m then y.m else x.m
  let e1 := Config.expF32 (f32Sub x.m m)
  let e2 := Config.expF32 (f32Sub y.m m)
  let go := fun (u v : Nat) => f32Add (f32Mul u e1) (f32Mul v e2)
  { m := m, l := go x.l y.l, o := (x.o.zip y.o).map (fun z => go z.1 z.2) }

/-- Partials combined from the first on; none of none. -/
def mixAll : List AttnPart → Option AttnPart
  | [] => none
  | x :: l => some (l.foldl AttnPart.mix x)

/-- Do the NBUs of a page's pairs serve it (R147)? -/
def State.pageOnNbu (s : State) (r : PageRef) : Bool := r.slots.all (fun k => s.nbuOn (k / 2048))

/-- What a stack's pages of a session give one query head at position `pos` of a layer (R134, R135): a partial per page with an
attended position below `pos`, combined in the order they reach the base die, which is free. -/
def State.stackPartial (s : State) (p : Profile) (e : Sess) (layer pos h : Nat) (q : List Nat) (k : Nat) : Option AttnPart :=
  let one := fun (r : PageRef) =>
    let ts := (List.range p.tokensPerPage).filter (fun t => r.index * p.tokensPerPage + t < pos && e.attends pos (r.index * p.tokensPerPage + t))
    if ts.isEmpty then none
    else
      let img := s.pageImage r
      some (partialOf p.headDim p.softmaxScale q (ts.map (fun t => readHead p (p.lay r.format) img t h))
        (ts.map (fun t => readHead p (p.lay r.format) img t (p.kvHeads + h))))
  let parts := ((e.pages.filter (fun r => r.layer == layer && slotAddr r.slot / 2 ^ 36 == k && s.pageOnNbu r)).filterMap one).zipIdx
  mixAll ((parts.mergeSort (fun a b => Config.arrival s.freeCtr k a.2 ≤ Config.arrival s.freeCtr k b.2)).map (·.1))

/-! ## Tiles of attention (R170, R171, Table 6.8) -/

/-- A key of a block: its key and its value as stored, and which queries of the block see it. -/
structure KeyCol where
  k : List Nat
  v : List Nat
  sees : List Bool
  deriving DecidableEq, Repr

/-- The larger of a maximum so far and a score. -/
def maxOpt (a : Option Nat) (x : Nat) : Option Nat := match a with | some m => some (if f32Lt m x then x else m) | none => some x

/-- One query of a tile at a format, onto what it has gathered before (Table 6.8): groups quantised, accumulators, and what it has
gathered then.  The softmax is online: what was gathered is scaled by exp of the old maximum less the new (log entry 73). -/
def tileQuery (dim scale f : Nat) (cols : List KeyCol) (q : List Nat) (at_ : Nat) (acc : Option AttnPart) :
    List (List Nat) × List Nat × Option AttnPart :=
  let groups := chunks 32 (dim + 1) q
  let qq := groups.flatMap (quantGroup f)
  let raw := cols.map (fun c => Config.accumulate 0 (c.k.zip qq))
  let sc := (raw.zip cols).map (fun z => if z.2.sees.getD at_ false then some (f32Mul z.1 scale) else none)
  match (sc.filterMap id).foldl maxOpt none with
  | none => (groups, raw, acc)
  | some top =>
    let m := match acc with | some a => if f32Lt top a.m then a.m else top | none => top
    let pg := chunks 32 (sc.length + 1) (sc.map (fun z => match z with | some v => Config.expF32 (f32Sub v m) | none => 0))
    let p := pg.flatMap (quantGroup f)
    let old := match acc with
      | some a => let e := Config.expF32 (f32Sub a.m m); (f32Mul a.l e, a.o.map (fun v => f32Mul v e))
      | none => (0, [])
    let l := Config.accumulate old.1 (p.map (fun v => (v, 0x3F800000)))
    let o := (List.range dim).map (fun i => Config.accumulate (old.2.getD i 0) (p.zip (cols.map (fun c => c.v.getD i 0))))
    (groups ++ pg, raw ++ l :: o, some { m := m, l := l, o := o })

/-- A tile of a query block against a key block at a format: what its guards find, and what each query has gathered. -/
def tileAt (dim scale guard : Nat) (cols : List KeyCol) (qs : List (List Nat × Option AttnPart)) (f : Nat) : Nat × List (Option AttnPart) :=
  let r := qs.zipIdx.map (fun q => tileQuery dim scale f cols q.1.1 q.2 q.1.2)
  let outs := (r.filterMap (·.2.2)).flatMap (fun a => a.l :: a.o)
  (guardOf guard f (r.flatMap (·.1)) (r.flatMap (·.2.1)) outs, r.map (·.2.2))

/-- The tiles of a query block over a sequence of key blocks: a block that no query sees is skipped (R171), each other starts at the
entry format (R155).  Answers what the guards found, tile by tile, and what each query gathered. -/
def runTiles (dim scale guard entry : Nat) (qs : List (List Nat)) :
    List (List KeyCol) → List (Option AttnPart) → List (List Nat) × List (Option AttnPart)
  | [], a => ([], a)
  | b :: l, a =>
    if !b.any (fun c => c.sees.any id) then runTiles dim scale guard entry qs l a
    else
      let z := climb (tileAt dim scale guard b (qs.zip a)) 4 entry
      let r := runTiles dim scale guard entry qs l z.2
      (z.1 :: r.1, r.2)

/-- Stored keys of KV head `h` in a layer at some positions, for queries at positions `qpos`; those whose page lies in partition `part`,
or all. -/
def State.keyCols (s : State) (p : Profile) (e : Sess) (layer h : Nat) (part : Option Nat) (qpos ks : List Nat) : List KeyCol :=
  ks.filterMap fun k =>
    (e.pages.find? (fun r => r.layer == layer && r.index == k / p.tokensPerPage
        && (part.isNone || part == some (slotAddr r.slot / 2 ^ 36 / 6)))).map fun r =>
      let head := fun (j : Nat) => readHead p (p.lay r.format) (s.pageImage r) (k % p.tokensPerPage) j
      { k := head h, v := head (p.kvHeads + h), sees := qpos.map (fun q => e.attends q k) }

/-- A merged record's output: o ÷ l in BF16 (R169). -/
def AttnPart.out (x : AttnPart) : List Nat := x.o.map (fun v => f32Bf16 (f32Div v x.l))

/-- Bytes of an attention output: Hq × D BF16, query head by query head; `out` gives each one's words. -/
def outBytes (p : Profile) (out : Nat → List Nat) : Bytes :=
  (List.range p.qHeads).flatMap (fun hq => let o := out hq; (List.range p.headDim).flatMap (fun d => leBytes 2 (o.getD d 0 % 2 ^ 16)))

/-- Query vector of a query head in an XCHG_LAYER row. -/
def rowQuery (p : Profile) (row : Bytes) (hq : Nat) : List Nat := fp8s (slice row (32 + hq * p.headDim) p.headDim) 127

/-- A query block of a prefill chunk (R170): query heads of KV head `h` at some of the chunk's positions.  Each partition attends the
stored positions below the chunk's first in its own stacks, 64 at a time; the home partition also the new positions up to the last of
the block, from the first.  Answers the tiles and the outputs, (position, query head, words). -/
def State.queryBlock (s : State) (p : Profile) (i layer first h : Nat) (rows : List (Nat × Bytes)) :
    List (Nat × List Nat) × List (Nat × Nat × List Nat) :=
  let e := s.sess i
  let per := p.qHeads / p.kvHeads
  let ids := rows.flatMap (fun r => (List.range per).map (fun j => (r.1, h * per + j, rowQuery p r.2 (h * per + j))))
  let qpos := ids.map (·.1)
  let qs := ids.map (·.2.2)
  let none_ := qs.map (fun _ => (none : Option AttnPart))
  let go := fun (part : Option Nat) (ks : List Nat) =>
    let cols := s.keyCols p e layer h part qpos ks
    runTiles p.headDim p.softmaxScale (s.fld F.ME_FMT_GUARD_EXP) (s.entryFmt 0) qs (chunks 64 (cols.length + 1) cols) none_
  let west := go (some 0) (List.range first)
  let east := go (some 1) (List.range first)
  let new := go none ((List.range (qpos.foldl max first + 1 - first)).map (first + ·))
  let outs := ids.zipIdx.map fun d =>
    let x := mixAll ([west, east, new].filterMap (fun z => z.2.getD d.2 none))
    (d.1.1, d.1.2.1, match x with | some a => a.out | none => [])
  (west.1.map (fun c => (0, c)) ++ east.1.map (fun c => (1, c)) ++ new.1.map (fun c => (s.home i, c)), outs)

/-- Attention of some rows of a prefill chunk that begins at position `first` (R170), from a state in which every position up to theirs is
stored: the tiles, and each row's output.  A query block holds 128 ÷ (Hq ÷ H) consecutive positions, counted from the chunk's first
(log entry 73). -/
def State.chunkAttention (s : State) (p : Profile) (i layer first : Nat) (rows : List (Nat × Bytes)) : List (Nat × List Nat) × List Bytes :=
  let size := max 1 (128 / max 1 (p.qHeads / p.kvHeads))
  let keys := (rows.map (fun r => (r.1 - first) / size)).eraseDups
  let blocks := (List.range p.kvHeads).flatMap fun h => keys.map fun b =>
    s.queryBlock p i layer first h ((rows.filter (fun r => (r.1 - first) / size == b)).mergeSort (fun x y => x.1 ≤ y.1))
  let outs := blocks.flatMap (·.2)
  (blocks.flatMap (·.1), rows.map (fun r => outBytes p (fun hq => ((outs.find? (fun o => o.1 == r.1 && o.2.1 == hq)).map (·.2.2)).getD [])))

/-! ## Attention of a decode row (R168, R169) -/

/-- Output heads of a KV head of a decode row: the stacks' records in ascending order, then those of the MEs that serve pages of disabled
pairs (R147), then position n itself.  Answers the tiles and each query head's words. -/
def State.outputHeads (s : State) (p : Profile) (i layer pos h : Nat) (row : Bytes) : List (Nat × List Nat) × List (List Nat) :=
  let e := s.sess i
  let per := p.qHeads / p.kvHeads
  let qs := (List.range per).map (fun j => rowQuery p row (h * per + j))
  let own := match e.pages.find? (fun r => r.layer == layer && r.index == pos / p.tokensPerPage) with
    | some r => fun j => readHead p (p.lay r.format) (s.pageImage r) (pos % p.tokensPerPage) j
    | none => fun _ => []
  let apart := (e.pages.filter (fun r => r.layer == layer && !s.pageOnNbu r)).map fun r =>
    let ks := ((List.range p.tokensPerPage).map (r.index * p.tokensPerPage + ·)).filter (· < pos)
    let cols := s.keyCols p e layer h none (qs.map (fun _ => pos)) ks
    runTiles p.headDim p.softmaxScale (s.fld F.ME_FMT_GUARD_EXP) (s.entryFmt 0) qs (chunks 64 (cols.length + 1) cols) (qs.map (fun _ => none))
  let ranked := apart.zipIdx.mergeSort (fun a b => Config.arrival s.freeCtr 12 a.2 % 132 ≤ Config.arrival s.freeCtr 12 b.2 % 132)
  let outs := qs.zipIdx.map fun q =>
    let n : AttnPart := { m := f32Mul (Config.accumulate 0 ((own h).zip q.1)) p.softmaxScale, l := 0x3F800000, o := own (p.kvHeads + h) }
    match mixAll ((List.range 12).filterMap (s.stackPartial p e layer pos h q.1) ++ ranked.filterMap (fun z => z.1.2.getD q.2 none) ++ [n]) with
    | some x => x.out
    | none => []
  (apart.flatMap (fun z => z.1.map (fun c => (s.home i, c))), outs)

/-- Attention output of a decode row, from a state in which the row's own position is stored, and the tiles of MEs in it. -/
def State.rowAttention (s : State) (p : Profile) (i layer pos : Nat) (row : Bytes) : List (Nat × List Nat) × Bytes :=
  let per := p.qHeads / p.kvHeads
  let heads := (List.range p.kvHeads).map (fun h => s.outputHeads p i layer pos h row)
  (heads.flatMap (·.1), outBytes p (fun hq => (((heads[hq / per]?).map (·.2)).getD []).getD (hq % per) []))

/-! ## The output head (R173-R176) -/

/-- A BF16 hidden state as FP32 words. -/
def hiddenWords (p : Profile) (b : Bytes) : List Nat := (List.range p.hidden).map (fun i => bf16F32 (rdLe b (2 * i) 2))

/-- A hidden state on the NBU route (R174): X, and its elements times 2^-X in FP8, as FP32 words. -/
def scaledState (h : List Nat) : Int × List Nat :=
  let a := amaxOf (h.map f32Fx)
  let x := if a == 0 then 0 else scaleExp a 448 1
  (x, h.map (fun w => fp8Word (encWord 7 3 8 0x7E w (2 ^ (160 + x).toNat))))

/-- Products of a token's head row with a state, over the groups that `keep` picks by the NBU whose stripe holds them. -/
def headProducts (p : Profile) (keep : Nat → Bool) (tok : Nat) (h : List Nat) : List (Nat × Nat) :=
  ((List.range (p.hidden / 32)).filter (fun g => keep (Config.headNbu p.id tok g % 6144))).flatMap fun g =>
    let x := Config.headGroup p.id tok g
    (mxWords mxFp4 x.2 x.1).zip ((h.drop (32 * g)).take 32)

/-- Sum in FP32, in the order of a list; nothing of none. -/
def sumF32 : List Nat → Option Nat
  | [] => none
  | x :: l => some (l.foldl f32Add x)

/-- A first-pass logit on the NBU route: a partial logit per stripe, added in each stack, then over the stacks, times 2^X (R139, R174). -/
def State.nbuLogit (s : State) (p : Profile) (tok : Nat) (h : Int × List Nat) : Option Nat :=
  let ns := ((((List.range (p.hidden / 32)).map (fun g => Config.headNbu p.id tok g % 6144)).filter s.nbuOn).eraseDups).mergeSort (· ≤ ·)
  let stack := fun (k : Nat) => sumF32 ((ns.filter (fun n => n / 512 == k)).map (fun n => Config.accumulate 0 (headProducts p (· == n) tok h.2)))
  let e := pow2 h.1
  (sumF32 ((List.range 12).filterMap stack)).map (fun v => f32Mul v (f32Round false e.1 e.2))

/-- Tiles of the head on a partition's MEs (R174): 128 rows against 64 hidden states, over the stripes of that partition's stacks that
`keep` picks.  Answers what their guards found and the logits by state and token. -/
def State.headTiles (s : State) (p : Profile) (part : Nat) (keep : Nat → Bool) (hs : List (List Nat)) :
    List (List Nat) × List (Nat × Nat × Nat) :=
  let mine := fun (n : Nat) => n / 512 / 6 == part && keep n
  let toks := (List.range p.vocabSize).filter (fun t => (List.range (p.hidden / 32)).any (fun g => mine (Config.headNbu p.id t g % 6144)))
  let tile := fun (rows : List Nat) (sts : List (List Nat × Nat)) (f : Nat) =>
    let groups := sts.flatMap (fun h => chunks 32 (h.1.length + 1) h.1)
    let r := sts.flatMap fun h =>
      let q := (chunks 32 (h.1.length + 1) h.1).flatMap (quantGroup f)
      rows.map (fun t => (h.2, t, Config.accumulate 0 (headProducts p mine t q)))
    (guardOf (s.fld F.ME_FMT_GUARD_EXP) f groups (r.map (·.2.2)) [], r)
  let runs := (chunks 128 (toks.length + 1) toks).flatMap fun rows => (chunks 64 (hs.length + 1) hs.zipIdx).map fun sts =>
    climb (tile rows sts) 4 (s.entryFmt 1)
  (runs.map (·.1), runs.flatMap (·.2))

/-- First-pass logits of the whole vocabulary for some hidden states by a route (0 NBUs, 1 MEs), and the tiles run (R173, R174).  On the NBU
route MEs read the stripes of disabled pairs (R147); a pass that fails on MEs runs again on the NBUs (R156). -/
def State.headPass (s : State) (p : Profile) (route : Nat) (states : List Bytes) : List (Nat × List Nat) × List (List Nat) :=
  let hs := states.map (hiddenWords p)
  let sc := hs.map scaledState
  let onMe := fun (keep : Nat → Bool) => [0, 1].map (fun q => s.headTiles p q keep hs)
  let all := if route == 1 then onMe (fun _ => true) else []
  let failed := all.any (fun z => z.1.any tileFails)
  let byNbu := route == 0 || failed
  let mes := if byNbu then onMe (fun n => !s.nbuOn n) else all
  let tiles := (if failed then all ++ mes else mes).zipIdx.flatMap (fun z => z.1.1.map (fun c => (z.2 % 2, c)))
  (tiles, sc.zipIdx.map fun h => (List.range p.vocabSize).map fun t =>
    let m := mes.filterMap (fun z => (z.2.find? (fun x => x.1 == h.2 && x.2.1 == t)).map (·.2.2))
    (sumF32 ((if byNbu then (s.nbuLogit p t h.1).toList else []) ++ m)).getD 0)

/-- The rescored logit of a candidate whose row has a shadow: the shadow row, in MXFP8, or in BF16 with EXACT_HEAD, times the hidden state
(R176). -/
def rescored (p : Profile) (hidden : Bytes) (tok : Nat) : Option Nat :=
  if !Config.hasShadow p.id tok then none
  else
    let row := if p.exactHead then (List.range p.hidden).map (fun i => bf16F32 (Config.shadowExact p.id tok i % 2 ^ 16))
      else (List.range (p.hidden / 32)).flatMap (fun g => let x := Config.shadowGroup p.id tok g; mxWords mxFp8 x.2 x.1)
    some (Config.accumulate 0 (row.zip (hiddenWords p hidden)))

end Sys2Proof.Machine
end

