-- ==== Sys2Proof/Machine/Text.lean ====
section
/-!
DEFINITION. Text, tokens and sampling settings (08_text_and_sampling.md): UTF-8, the normaliser, the tokeniser, text contexts,
the text and sampling slips.
-/

namespace Sys2Proof.Machine

/-! ## UTF-8 (R204) -/

/-- What stands at the head of a byte string. -/
inductive Utf8 where
  /-- a well-formed sequence: its code point and length -/
  | cp (c n : Nat)
  /-- the whole string begins a well-formed sequence and does not complete it -/
  | cut
  /-- the first byte is invalid -/
  | bad
  deriving DecidableEq, Repr

/-- Length and second-byte range of a sequence by its first byte (Table 3-7 of the Unicode Standard). -/
def utf8Lead (b : Nat) : Option (Nat × Nat × Nat) :=
  if b < 0x80 then some (1, 0, 0)
  else if 0xC2 ≤ b && b ≤ 0xDF then some (2, 0x80, 0xBF)
  else if b == 0xE0 then some (3, 0xA0, 0xBF)
  else if b == 0xED then some (3, 0x80, 0x9F)
  else if 0xE1 ≤ b && b ≤ 0xEF then some (3, 0x80, 0xBF)
  else if b == 0xF0 then some (4, 0x90, 0xBF)
  else if 0xF1 ≤ b && b ≤ 0xF3 then some (4, 0x80, 0xBF)
  else if b == 0xF4 then some (4, 0x80, 0x8F)
  else none

/-- Read the head of a byte string. -/
def utf8Head (b : Bytes) : Utf8 :=
  match b.map (·.toNat) with
  | [] => .cut
  | b0 :: rest =>
    match utf8Lead b0 with
    | none => .bad
    | some (n, lo, hi) =>
      let tail := rest.take (n - 1)
      let ok := tail.zipIdx.all (fun t => if t.2 == 0 then lo ≤ t.1 && t.1 ≤ hi else 0x80 ≤ t.1 && t.1 ≤ 0xBF)
      if !ok then .bad
      else if tail.length < n - 1 then .cut
      else
        let first := if n == 1 then b0 else b0 % 2 ^ (7 - n)
        .cp (tail.foldl (fun a t => a * 64 + t % 64) first) n

/-- UTF-8 of a code point. -/
def utf8Enc (c : Nat) : Bytes :=
  if c < 0x80 then leBytes 1 c
  else if c < 0x800 then [c / 64 + 0xC0, c % 64 + 0x80].flatMap (leBytes 1)
  else if c < 0x10000 then [c / 4096 + 0xE0, c / 64 % 64 + 0x80, c % 64 + 0x80].flatMap (leBytes 1)
  else [c / 262144 + 0xF0, c / 4096 % 64 + 0x80, c / 64 % 64 + 0x80, c % 64 + 0x80].flatMap (leBytes 1)

/-! ## The tokeniser (R203, R206, R207) -/

/-- Longest ordinary piece (MAX_PIECE of Table 8.1). -/
def Profile.maxPiece (p : Profile) : Nat := (p.pieces.map (·.bytes.length)).foldl max 1

/-- A node of the lattice: minimal cost, start of the kept edge, its token. -/
structure Node where
  cost : Nat
  from_ : Nat
  tok : Nat
  deriving DecidableEq, Repr

/-- The node after `lat` bytes, from the nodes before it: the longest last piece of minimal cost, an ordinary piece before a
byte token (R206). -/
def nextNode (p : Profile) (lat : List (Byte × Bool)) (nodes : List Node) : Node :=
  let j := lat.length
  let costAt := fun (i : Nat) => if i == 0 then 0 else ((nodes[i - 1]?).map (·.cost)).getD 0
  let last := (lat.getLast?.map (·.1.toNat)).getD 0
  let lens := ((List.range (min j p.maxPiece)).map (· + 1)).reverse
  let cands := lens.filterMap fun n =>
    let seg := lat.drop (j - n)
    if seg.any (fun b => !b.2) then none
    else (p.pieces.find? (fun q => q.bytes == seg.map (·.1))).map (fun q => ({ cost := costAt (j - n) + q.cost, from_ := j - n, tok := q.id } : Node))
  let byte : Node := { cost := costAt (j - 1) + p.byteCost, from_ := j - 1, tok := p.byteBase + last }
  (cands ++ [byte]).foldl (fun a b => if b.cost < a.cost then b else a) ((cands ++ [byte]).headD byte)

/-- Every node of a lattice, node 1 first. -/
def lattice (p : Profile) (bytes : List (Byte × Bool)) : List Node :=
  (List.range bytes.length).foldl (fun ns k => ns ++ [nextNode p (bytes.take (k + 1)) ns]) []

/-- The nodes and tokens of the best path to a node, in order; `fuel` bounds its length. -/
def bestPath (nodes : List Node) : Nat → Nat → List (Nat × Nat)
  | 0, _ => []
  | fuel + 1, j =>
    if j == 0 then []
    else match nodes[j - 1]? with
      | none => []
      | some n => bestPath nodes fuel n.from_ ++ [(j, n.tok)]

/-- The last common node of the best paths to every node a later path can leave from (R207), 0 when there is none. -/
def commonNode (p : Profile) (nodes : List Node) : Nat :=
  let f := nodes.length
  let lo := f + 1 - min (f + 1) p.maxPiece
  let paths := ((List.range (f + 1 - lo)).map (· + lo)).map (fun j => (bestPath nodes (j + 1) j).map (·.1))
  match paths with
  | [] => 0
  | a :: l => (a.filter (fun n => l.all (·.contains n))).getLast?.getD 0

/-- A lattice takes one byte more: the bytes that stay, the tokens that become final, and whether the cut was forced. -/
def feedByte (p : Profile) (window : Nat) (lat : List (Byte × Bool)) (b : Byte × Bool) : List (Byte × Bool) × List Nat × Bool :=
  let lat := lat ++ [b]
  let nodes := lattice p lat
  let c := commonNode p nodes
  if c != 0 then (lat.drop c, (bestPath nodes (c + 1) c).map (·.2), false)
  else if lat.length ≥ window then
    let c := lat.length - p.maxPiece
    (lat.drop c, (bestPath nodes (c + 1) c).map (·.2), true)
  else (lat, [], false)

/-- The tokens of what a lattice still holds when its input ends. -/
def latticeEnd (p : Profile) (lat : List (Byte × Bool)) : List Nat :=
  let nodes := lattice p lat
  (bestPath nodes (lat.length + 1) lat.length).map (·.2)

/-! ## One input on its way through carry, normaliser and tokeniser -/

/-- An input being taken in: its context, the tokens so far as (ID, control), invalid bytes, forced cuts, bytes taken. -/
structure Feed where
  ctx : TextCtx
  toks : List (Nat × Bool)
  invalid : Nat
  cuts : Nat
  bytes : Nat
  deriving DecidableEq, Repr

/-- A context with nothing in it. -/
def TextCtx.fresh : TextCtx := { carry := [], hold := [], lattice := [], due := 0, run := 0 }

/-- Normalised bytes enter the lattice. -/
def Feed.push (p : Profile) (window : Nat) (f : Feed) (bs : List (Byte × Bool)) : Feed :=
  bs.foldl (fun f b =>
    let r := feedByte p window f.ctx.lattice b
    { f with ctx := { f.ctx with lattice := r.1 }, toks := f.toks ++ r.2.1.map (fun t => (t, false)), cuts := f.cuts + b2n r.2.2 }) f

/-- The normaliser releases what it holds, as if the input ended there; holding nothing (always so for form NONE) it releases nothing. -/
def Feed.release (p : Profile) (window : Nat) (f : Feed) : Feed :=
  if f.ctx.hold.isEmpty then f
  else
    let out := (Config.normalise p.unicode p.norm f.ctx.hold).flatMap utf8Enc
    ({ f with ctx := { f.ctx with hold := [] } }).push p window (out.map (fun b => (b, true)))

/-- Non-starters that end the input once a code point has entered it (Stream-Safe Text Format of UAX #15). -/
def runAfter (tables : Nat × Nat) (n c : Nat) : Nat := let k := Config.nonStarters tables c; if k.2.2 then n + k.1 else k.2.1

/-- A valid code point enters the normaliser (R205). -/
def Feed.codePoint (p : Profile) (window : Nat) (f : Feed) (c : Nat) : Feed :=
  if p.norm == 0 then f.push p window ((utf8Enc c).map (fun b => (b, true)))
  else
    let put := fun (f : Feed) (c : Nat) =>
      if Config.stable p.unicode p.norm c then
        let f := f.release p window
        { f with ctx := { f.ctx with hold := [c] } }
      else if f.ctx.hold.length ≥ 64 then
        let f := f.release p window
        { f with ctx := { f.ctx with hold := [c] }, cuts := f.cuts + 1 }
      else { f with ctx := { f.ctx with hold := f.ctx.hold ++ [c] } }
    let cut := f.ctx.run + (Config.nonStarters p.unicode c).1 > 30
    let f := { f with ctx := { f.ctx with run := runAfter p.unicode (if cut then 0 else f.ctx.run) c } }
    if cut then put (put f 0x34F) c else put f c

/-- An invalid byte passes unchanged and ends any combining sequence (R204). -/
def Feed.badByte (p : Profile) (window : Nat) (f : Feed) (b : Byte) : Feed :=
  let f := f.release p window
  let f := { f with ctx := { f.ctx with run := 0 } }
  { (f.push p window [(b, false)]) with invalid := f.invalid + 1 }

/-- Take in bytes that follow the carry; an incomplete sequence at the end is carried; `fuel` bounds the steps. -/
def Feed.take (p : Profile) (window : Nat) : Nat → Bytes → Feed → Feed
  | 0, _, f => f
  | fuel + 1, b, f =>
    match b with
    | [] => { f with ctx := { f.ctx with carry := [] } }
    | b0 :: rest =>
      match utf8Head b with
      | .cut => { f with ctx := { f.ctx with carry := b } }
      | .bad => Feed.take p window fuel rest (f.badByte p window b0)
      | .cp c n => Feed.take p window fuel (b.drop n) (f.codePoint p window c)

/-- One text segment. -/
def Feed.text (p : Profile) (window : Nat) (f : Feed) (b : Bytes) : Feed :=
  let all := f.ctx.carry ++ b
  { (Feed.take p window (all.length + 1) all { f with ctx := { f.ctx with carry := [] } }) with bytes := f.bytes + b.length }

/-- The input ends: carried bytes are invalid, the hold and the lattice are released. -/
def Feed.finish (p : Profile) (window : Nat) (f : Feed) : Feed :=
  let left := f.ctx.carry
  let f := left.foldl (fun f b => f.badByte p window b) { f with ctx := { f.ctx with carry := [] } }
  let f := f.release p window
  { f with toks := f.toks ++ (latticeEnd p f.ctx.lattice).map (fun t => (t, false)), ctx := { f.ctx with lattice := [], run := 0 } }

/-! ## Segment lists and token lists (Table 8.7, R225) -/

/-- A segment: text, or token IDs. -/
inductive Seg where
  | text (b : Bytes)
  | toks (ids : List Nat)
  deriving DecidableEq, Repr

/-- The segments of a list from its bytes; a refusal is a status and DETAIL. -/
def readSegs (sid : Nat) : Nat → Bytes → Except (Nat × Nat) (List Seg)
  | 0, _ => .ok []
  | n + 1, b =>
    let ty := rdLe b 0 1
    let len := rdLe b 4 4
    let size := if ty == 1 then 4 * len else len
    let padded := (size + 7) / 8 * 8
    if b.length < 8 then .error (St.PAYLOAD_TRUNCATED, 0)
    else if ty > 1 then .error (St.BAD_PARAM, 0x100 + sid)
    else if b.length < 8 + padded then .error (St.PAYLOAD_TRUNCATED, 0)
    else
      let data := (b.drop 8).take size
      let s := if ty == 1 then Seg.toks ((chunks 4 (len + 1) data).map leNat) else Seg.text data
      match readSegs sid n (b.drop (8 + padded)) with
      | .ok l => .ok (s :: l)
      | .error e => .error e

/-- Token IDs of a slip refused: out of the vocabulary, or control IDs without TRUSTED_TOKENS (R211, R225). -/
def badToks (p : Profile) (sid : Nat) (trusted : Bool) (ids : List Nat) : Option (Nat × Nat) :=
  if ids.any (fun t => t ≥ p.vocabSize) then some (St.BAD_PARAM, 0x100 + sid)
  else if !trusted && ids.any p.controls.contains then some (St.UNTRUSTED_TOKENS, 0)
  else none

/-- A segment list checked whole. -/
def segList (p : Profile) (sid : Nat) (trusted : Bool) (b : Bytes) : Except (Nat × Nat) (List Seg) :=
  match badStruct sid 16 b with
  | some e => .error e
  | none =>
    let n := rdLe b 8 4
    if n == 0 || n > 4096 then .error (St.BAD_PARAM, 0x100 + sid)
    else match readSegs sid n ((b.take (rdLe b 4 4)).drop 16) with
      | .error e => .error e
      | .ok l =>
        match badToks p sid trusted (l.flatMap (fun g => match g with | .toks ids => ids | .text _ => [])) with
        | some e => .error e
        | none => .ok l

/-- A token list checked whole. -/
def tokList (p : Profile) (sid : Nat) (trusted : Bool) (b : Bytes) : Except (Nat × Nat) (List Nat) :=
  match badStruct sid 16 b with
  | some e => .error e
  | none =>
    let n := rdLe b 8 4
    if rdLe b 4 4 < 16 + 4 * n then .error (St.PAYLOAD_TRUNCATED, 0)
    else if rdLe b 0x0C 4 != 0 then .error (St.BAD_PARAM, 0x100 + sid)
    else
      let ids := (chunks 4 (n + 1) ((b.drop 16).take (4 * n))).map leNat
      match badToks p sid trusted ids with
      | some e => .error e
      | none => .ok ids

/-- Take a segment list in order (R210): a token segment ends the input of the text before it. -/
def feedSegs (p : Profile) (window : Nat) (f : Feed) (segs : List Seg) : Feed :=
  segs.foldl (fun f g => match g with
    | .text b => f.text p window b
    | .toks ids =>
      let f := f.finish p window
      { f with toks := f.toks ++ ids.map (fun t => (t, p.controls.contains t)) }) f

/-! ## Text slips -/

/-- Those of `n` like units from register `first` of an array that are in service. -/
def State.unitsOn (s : State) (reg first n : Nat) : List Nat :=
  ((List.range n).map (first + ·)).filter (fun u => s.fld ⟨reg + 8 * u, 63, 61⟩ ≥ 2)

/-- Count the work of one of `n` like units (JOBS); which of those in service does it is the device's choice (log entry 40). -/
def State.jobOn (s : State) (reg field_hi : Nat) (first n : Nat) : State :=
  let on := s.unitsOn reg first n
  match on[Config.place reg s.freeCtr % (max on.length 1)]? with
  | some u => ({ s with freeCtr := s.freeCtr + 1 }).bump ⟨reg + 8 * u, field_hi, 0⟩
  | none => s

/-- Is no text unit in service (R333)? -/
def State.noTextUnit (s : State) : Bool := (s.unitsOn A.TEXT_UNIT 0 16).isEmpty

/-- Count what an input did (Table 8.8). -/
def State.countFeed (s : State) (f : Feed) : State :=
  (((s.bumpBy F.TEXT_CNT_IN_BYTES_COUNT f.bytes).bumpBy F.TEXT_CNT_INVALID_COUNT f.invalid).bumpBy F.TEXT_CNT_FORCED_CUT_COUNT f.cuts).jobOn
    A.TEXT_UNIT 47 0 16

/-- Do `n` more tokens fit a session's context and transcript (R75, R195)? -/
def State.tokensFit (s : State) (e : Sess) (n : Nat) : Bool :=
  e.kvLength + e.pending + n ≤ ((s.profile.map (·.maxContext)).getD 0) && e.tlen + n ≤ 2097152

/-- Append input tokens to a session: they are pending; an ACCESSIONED session without a request goes to WAITING; a request
that is armed starts once no context is open (R81, Table 3.5). -/
def State.appendInput (s : State) (i : Nat) (toks : List (Nat × Bool)) : State :=
  let s := s.updSess i fun e =>
    { e with transcript := e.transcript ++ toks.map (fun t => t.1 + b2n t.2 * 2 ^ 28), pending := e.pending + toks.length }
  let s := (s.chargeLog i).bumpBy F.TEXT_CNT_IN_TOKENS_COUNT toks.length
  let e := s.sess i
  let s := if e.state == Ss.ACCESSIONED && (s.textOpen i || (!e.armed && !toks.isEmpty)) then s.enter i Ss.WAITING else s
  s.startRequest i

/-- States in which input is taken (Table 8.6). -/
def takesInput (st : Nat) : Bool := atRestState st
where
  atRestState (st : Nat) : Bool := st == Ss.ACCESSIONED || st == Ss.WAITING || st == Ss.PARKED || st == Ss.TRANSCRIPT_ONLY

/-- TEXT_APPEND (R209, R210). -/
def execTEXT_APPEND (x : Slip) (s : State) : Host.Outcome State Fault Refusal :=
  runSession Op.TEXT_APPEND x [1, 0, 0, 0, 0, 0] s fun s i e =>
    match s.profile with
    | none => .no s St.NOT_READY 1
    | some p =>
      if !takesInput e.state then .no s St.BAD_STATE e.state
      else match segList p 0x800 x.trusted x.payload with
        | .error b => .no (if b.1 == St.UNTRUSTED_TOKENS then s.bump F.TEXT_CNT_UNTRUSTED_COUNT else s) b.1 b.2
        | .ok segs =>
          let firstTok := match segs.head? with | some (.toks _) => true | _ => false
          let lastText := match segs.getLast? with | some (.text _) => true | _ => false
          let more := bitOf x.P0 0 && lastText
          let open_ := s.textOpen i
          if open_ && firstTok then .no s St.BUSY
          else if s.noTextUnit then .no s St.UNIT_FAILED
          else if more && !s.flag F.TEXT_CTRL_CTX_EN then .no s St.BUSY
          else if more && !open_ && s.text.length ≥ 8192 then .no s St.NO_SLOTS 8
          else if e.state == Ss.PARKED || e.state == Ss.TRANSCRIPT_ONLY then s.reviveFor i x
          else
            let window := s.fld F.TEXT_CTX_CFG_FORCE_WINDOW
            let f0 : Feed := { ctx := (tGet s.text i).getD TextCtx.fresh, toks := [], invalid := 0, cuts := 0, bytes := 0 }
            let f := feedSegs p window f0 segs
            let f := if more then f else f.finish p window
            if !s.tokensFit e f.toks.length then .no s St.CONTEXT_FULL
            else
              let s := { s with text := if more then tPut s.text i { f.ctx with due := s.tick + s.fld F.TEXT_CTX_CFG_CTX_TIMEOUT * 100000 } else tDel s.text i }
              let s := (s.countFeed f).appendInput i f.toks
              if f.invalid == 0 then .done s (Answer.ok f.toks.length 0)
              else .done s (Answer.mk' St.INVALID_UTF8 f.invalid f.toks.length f.invalid)

/-- TEXT_APPEND_TOKENS. -/
def execTEXT_APPEND_TOKENS (x : Slip) (s : State) : Host.Outcome State Fault Refusal :=
  runSession Op.TEXT_APPEND_TOKENS x [0, 0, 0, 0, 0, 0] s fun s i e =>
    match s.profile with
    | none => .no s St.NOT_READY 1
    | some p =>
      if !takesInput e.state then .no s St.BAD_STATE e.state
      else match tokList p 0x801 x.trusted x.payload with
        | .error b => .no (if b.1 == St.UNTRUSTED_TOKENS then s.bump F.TEXT_CNT_UNTRUSTED_COUNT else s) b.1 b.2
        | .ok ids =>
          if s.textOpen i then .no s St.BUSY
          else if e.state == Ss.PARKED || e.state == Ss.TRANSCRIPT_ONLY then s.reviveFor i x
          else if !s.tokensFit e ids.length then .no s St.CONTEXT_FULL
          else .done (s.appendInput i (ids.map (fun t => (t, p.controls.contains t)))) (Answer.ok ids.length)

/-- A slip of no session: ACCESSION must be 0 (R41). -/
def noSession (x : Slip) (masks : List Nat) (s : State) (f : SlipRes) : SlipRes :=
  if x.acc != 0 then .no s St.RESERVED_NONZERO 0x10
  else match badParam x masks with
    | some k => .no s St.BAD_PARAM k
    | none => f

/-- TEXT_TOKENISE (R206). -/
def execTEXT_TOKENISE (x : Slip) (s : State) : Host.Outcome State Fault Refusal :=
  runSlip Op.TEXT_TOKENISE x s fun s => noSession x [0, 0, 0, 0, w32, w32] s <|
    match s.profile with
    | none => .no s St.NOT_READY 1
    | some p => match segList p 0x802 x.trusted x.payload with
      | .error b => .no (if b.1 == St.UNTRUSTED_TOKENS then s.bump F.TEXT_CNT_UNTRUSTED_COUNT else s) b.1 b.2
      | .ok segs =>
        if s.noTextUnit then .no s St.UNIT_FAILED else
        let window := s.fld F.TEXT_CTX_CFG_FORCE_WINDOW
        let f := (feedSegs p window { ctx := TextCtx.fresh, toks := [], invalid := 0, cuts := 0, bytes := 0 } segs).finish p window
        let data := structure0 0x802 (leBytes 4 f.toks.length ++ leBytes 4 0 ++ f.toks.flatMap (fun t => leBytes 4 t.1))
        let s := s.countFeed f
        if f.invalid == 0 then .done s (Answer.ok f.toks.length 0 data)
        else .done s (Answer.mk' St.INVALID_UTF8 f.invalid f.toks.length 0 data)

/-- The bytes a token spells (R212). -/
def Profile.tokenBytes (p : Profile) (t : Nat) : Bytes :=
  if p.controls.contains t then []
  else if p.byteBase ≤ t && t < p.byteBase + 256 then leBytes 1 (t - p.byteBase)
  else match p.pieces.find? (fun q => q.id == t) with | some q => q.bytes | none => []

/-- TEXT_DETOKENISE (R212). -/
def execTEXT_DETOKENISE (x : Slip) (s : State) : Host.Outcome State Fault Refusal :=
  runSlip Op.TEXT_DETOKENISE x s fun s => noSession x [0, 0, 0, 0, w32, w32] s <|
    match s.profile with
    | none => .no s St.NOT_READY 1
    | some p => match tokList p 0x803 true x.payload with
      | .error b => .no s b.1 b.2
      | .ok ids => if s.noTextUnit then .no s St.UNIT_FAILED else .done (s.jobOn A.TEXT_UNIT 47 0 16) (Answer.ok 0 0 (ids.flatMap p.tokenBytes))

/-- TEXT_TRANSCRIPT_READ: the entries that exist in the range, where the transcript lies. -/
def execTEXT_TRANSCRIPT_READ (x : Slip) (s : State) : Host.Outcome State Fault Refusal :=
  runSession Op.TEXT_TRANSCRIPT_READ x [w32, w32, 0, 0, w32, w32] s fun s i e =>
    if x.P1 == 0 || x.P1 > 262144 then .no s St.BAD_PARAM 1
    else if x.P0 ≥ e.tlen then .no s St.BAD_PARAM 0
    else if e.away then s.reviveRead i x
    else .done s (Answer.ok e.tlen 0 (((e.transcript.drop x.P0).take x.P1).flatMap (leBytes 4)))

/-! ## Sampling settings (R215 to R217) -/

/-- Order of finite FP32 values. -/
def f32Key (v : Nat) : Int := if f32Neg v then -((v % 2 ^ 31 : Nat) : Int) else ((v % 2 ^ 31 : Nat) : Int)

/-- Is an FP32 value finite and within bounds, both inclusive? -/
def f32In (lo hi v : Nat) : Bool := f32Finite v && f32Key lo ≤ f32Key v && f32Key v ≤ f32Key hi

/-- The sampling structure of slot 0 from offset 0x08 on (Table 8.4). -/
def slot0 : Bytes :=
  leBytes 4 0x3F800000 ++ leBytes 4 0x3F800000 ++ leBytes 4 0 ++ leBytes 4 0x3F800000 ++ leBytes 4 0 ++ leBytes 4 0 ++ leBytes 16 0

/-- Does a sampling structure keep its ranges (R216)?  The bounds 0.01 and 0.1 are those values rounded to FP32 (log entry 41). -/
def samplingOk (b : Bytes) : Bool :=
  let w := fun (o : Nat) => rdLe b o 4
  let zero := fun (v : Nat) => v % 2 ^ 31 == 0
  f32Finite (w 0) && (zero (w 0) || f32In 0x3C23D70A 0x42C80000 (w 0))
    && f32In 0 0x3F800000 (w 4) && !zero (w 4)
    && f32In 0 0x3F800000 (w 8) && w 8 != 0x3F800000
    && f32In 0x3DCCCCCD 0x41200000 (w 12)
    && f32In 0xC2C80000 0x42C80000 (w 16) && f32In 0xC2C80000 0x42C80000 (w 20)
    && rdLe b 0x18 2 ≤ 1024 && rdLe b 0x1B 1 == 0 && w 0x1C ≤ 65536

/-- A slot as it stands; one never written reads as slot 0. -/
def State.slotOf (s : State) (t k : Nat) : SampSlot :=
  (if k == 0 then none else tGet (s.tenant t).slots k).getD { sampling := slot0, stops := [], incl := false }

/-- SAMP_SET (R215, R216). -/
def execSAMP_SET (x : Slip) (s : State) : Host.Outcome State Fault Refusal :=
  if x.acc == 0 then
    runSlip Op.SAMP_SET x s fun s => noSession x [15, 0, 0, 0, 0, 0] s <|
      if x.P0 == 0 then .no s St.BAD_PARAM 0
      else match badStruct 0xC00 48 x.payload with
        | some b => .no s b.1 (if b.1 == St.BAD_PARAM then 0xD00 else b.2)
        | none =>
          let b := slice x.payload 8 40
          if !samplingOk b then .no s St.BAD_PARAM 0xD00
          else
            let v := { s.slotOf x.ten x.P0 with sampling := b }
            .done (s.updTenant x.ten (fun t => { t with slots := tPut t.slots x.P0 v })) (Answer.ok x.P0)
  else
    runSession Op.SAMP_SET x [15, 0, 0, 0, 0, 0] s fun s i e =>
      if e.state == Ss.CLOSED then .no s St.BAD_STATE e.state
      else if !x.payload.isEmpty then .no s St.BAD_PARAM 0
      else .done ((s.updSess i (fun e => { e with sampling := x.P0 })).imageChanged i) (Answer.ok x.P0)

/-- The stop strings of a stop structure (Table 8.5), none when it is refused (R217). -/
def stopList (b : Bytes) : Option (List Bytes) :=
  let n := rdLe b 8 1
  if n > 16 || rdLe b 4 4 < 16 + 72 * n then none
  else
    let items := (List.range n).map (fun i => (rdLe b (0x10 + 72 * i) 1, slice b (0x18 + 72 * i) 64))
    if items.all (fun s => 1 ≤ s.1 && s.1 ≤ 64 && (s.2.drop s.1).all (· == 0)) then some (items.map (fun s => s.2.take s.1)) else none

/-- SAMP_SET_STOPS (R217). -/
def execSAMP_SET_STOPS (x : Slip) (s : State) : Host.Outcome State Fault Refusal :=
  runSlip Op.SAMP_SET_STOPS x s fun s => noSession x [15, 0, 0, 0, 0, 0] s <|
    if x.P0 == 0 then .no s St.BAD_PARAM 0
    else match badStruct 0xC01 16 x.payload with
      | some b => .no s b.1 b.2
      | none => match stopList x.payload with
        | none => .no s (if rdLe x.payload 8 1 ≤ 16 && rdLe x.payload 4 4 < 16 + 72 * rdLe x.payload 8 1 then St.PAYLOAD_TRUNCATED else St.BAD_PARAM)
            (if rdLe x.payload 8 1 ≤ 16 && rdLe x.payload 4 4 < 16 + 72 * rdLe x.payload 8 1 then 0 else 0xD01)
        | some stops =>
          let v := { s.slotOf x.ten x.P0 with stops := stops, incl := bitOf (rdLe x.payload 9 1) 0 }
          .done (s.updTenant x.ten (fun t => { t with slots := tPut t.slots x.P0 v })) (Answer.ok stops.length)

/-- GRAM_ATTACH (R222): applies from the next request. -/
def execGRAM_ATTACH (x : Slip) (s : State) : Host.Outcome State Fault Refusal :=
  runSession Op.GRAM_ATTACH x [0xFFFF, 0, 0, 0, 0, 0] s fun s i e =>
    if !takesInput e.state || e.armed then .no s St.BAD_STATE e.state
    else if (s.grammarOf x.P0).isNone then .no s St.BAD_PARAM 0
    else .done ((s.updSess i (fun e => { e with grammar := x.P0 })).imageChanged i) (Answer.ok x.P0)

/-- GRAM_DETACH. -/
def execGRAM_DETACH (x : Slip) (s : State) : Host.Outcome State Fault Refusal :=
  runSession Op.GRAM_DETACH x [0, 0, 0, 0, 0, 0] s fun s i e =>
    if !takesInput e.state || e.armed then .no s St.BAD_STATE e.state
    else if e.grammar == 0 then .no s St.ALREADY_DONE
    else .done ((s.updSess i (fun e => { e with grammar := 0 })).imageChanged i) (Answer.ok e.grammar)

/-! ## Events -/

/-- CTX_TIMEOUT (R209): the context is closed as if an empty final segment had arrived; tokens that do not fit are
discarded. -/
def execCTX_TIMEOUT (acc : Nat) (s : State) : Host.Outcome State Fault Refusal :=
  match s.findSess acc, s.profile with
  | some (i, e), some p =>
    match tGet s.text i with
    | none => .next s
    | some c =>
      if s.tick < c.due then .next s
      else
        let f := Feed.finish p (s.fld F.TEXT_CTX_CFG_FORCE_WINDOW) { ctx := c, toks := [], invalid := 0, cuts := 0, bytes := 0 }
        let s := ({ s with text := tDel s.text i }).bump F.TEXT_CNT_CTX_FLUSH_COUNT
        .next ((s.countFeed f).appendInput i (if s.tokensFit e f.toks.length then f.toks else []))
  | _, _ => .next s

/-- TEXT_SLOT_SEL (R226): the selected slot's sampling structure is copied into the data registers. -/
def execTEXT_SLOT_SEL (value : Word) (s : State) : Host.Outcome State Fault Refusal :=
  let v := value.toNat
  let b := (s.slotOf (bitsOf v 15 4) (bitsOf v 3 0)).sampling
  let s := s.setReg A.TEXT_SLOT_SEL (BitVec.ofNat 64 (2 ^ 63 + v % 2 ^ 16))
  .next ((List.range 5).foldl (fun s w => s.setReg (A.TEXT_SLOT_DATA + 8 * w) (BitVec.ofNat 64 (rdLe b (8 * w) 8))) s)

end Sys2Proof.Machine
end

