-- ==== Sys2Proof/Machine/Sampler.lean ====
section
/-!
DEFINITION. The sampler (R218-R220), the grammar automaton (R222, R223), hold-back and stop matching (R213, R214), as pure
functions.
-/

namespace Sys2Proof.Machine

/-! ## Philox-4×32-10 (R220), constants from its publication (log entry 20) -/

/-- One round. -/
def philoxRound (k0 k1 : Nat) (c : Nat × Nat × Nat × Nat) : Nat × Nat × Nat × Nat :=
  let p0 := 0xD2511F53 * c.1
  let p1 := 0xCD9E8D57 * c.2.2.1
  ((p1 / 2 ^ 32 ^^^ c.2.1) ^^^ k0, p1 % 2 ^ 32, (p0 / 2 ^ 32 ^^^ c.2.2.2) ^^^ k1, p0 % 2 ^ 32)

/-- `n` rounds, the key rising by the Weyl constants. -/
def philoxRun : Nat → Nat → Nat → Nat × Nat × Nat × Nat → Nat × Nat × Nat × Nat
  | 0, _, _, c => c
  | n + 1, k0, k1, c => philoxRun n ((k0 + 0x9E3779B9) % 2 ^ 32) ((k1 + 0xBB67AE85) % 2 ^ 32) (philoxRound k0 k1 c)

/-- u of R220 as an FP32 word: the top 24 bits of the first output word. -/
def drawU (seed acc pos : Nat) : Nat :=
  let x := (philoxRun 10 (seed % 2 ^ 32) (seed / 2 ^ 32 % 2 ^ 32) (pos, 0, acc % 2 ^ 32, acc / 2 ^ 32)).1
  f32Round false (x / 2 ^ 8) (2 ^ 24)

/-! ## Penalties (R219) -/

/-- Count of each token among the last WINDOW token positions that end at the last position fed. -/
def penaltyCounts (window : Nat) (input : Bool) (fed : List Nat) : Tbl Nat :=
  let last := fed.drop (fed.length - window)
  let hit := last.filter (fun v => (input || entryGenerated v) && !v.testBit 28)
  hit.foldl (fun t v => let k := bitsOf v 19 0; tPut t k ((tGet t k).getD 0 + 1)) []

/-- A penalised logit (step 2). -/
def penalise (rep pres freq l c : Nat) : Nat :=
  let l := if f32Lt 0 l then f32Div l rep else f32Mul l rep
  f32Sub (f32Sub l pres) (f32Mul freq (natF32 c))

/-! ## The draw (R218) -/

/-- Descending logit, ties to the lower ID. -/
def logitBefore (a b : Nat × Nat) : Bool := f32Lt b.2 a.2 || (!f32Lt a.2 b.2 && a.1 ≤ b.1)

/-- Running FP32 sums of a list. -/
def prefixSums (w : List Nat) : List Nat := (w.foldl (fun a x => (f32Add a.1 x, a.2 ++ [f32Add a.1 x])) (0, [])).2

/-- A word of a sampling structure, offset 0x08 of Table 8.4 being 0. -/
def sampWord (b : Bytes) (o : Nat) : Nat := rdLe b o 4

/-- Choose a token among the permitted ones, (ID, logit) in ascending ID with penalties applied (steps 3 to 8). -/
def chooseToken (b : Bytes) (acc pos : Nat) (ls : List (Nat × Nat)) : Option Nat :=
  let temp := sampWord b 0
  let topP := sampWord b 4
  let minP := sampWord b 8
  let topK := rdLe b 0x18 2
  let one := 0x3F800000
  if temp % 2 ^ 31 == 0 then (ls.mergeSort logitBefore).head?.map (·.1)
  else
    let cut := topP != one || minP % 2 ^ 31 != 0
    let cands := if topK != 0 then (ls.mergeSort logitBefore).take topK
      else if cut then (ls.mergeSort logitBefore).take 1024 else ls
    let lmax := cands.foldl (fun m c => if f32Lt m c.2 then c.2 else m) (f32Inf true)
    let ws := cands.map (fun c => (c.1, Config.expF32 (f32Div (f32Sub c.2 lmax) temp)))
    let ws := if topP == one then ws
      else
        let sums := prefixSums (ws.map (·.2))
        let goal := f32Mul topP (sums.getLast?.getD 0)
        match sums.findIdx? (fun c => !f32Lt c goal) with | some i => ws.take (i + 1) | none => ws
    let ws := if minP % 2 ^ 31 == 0 then ws else ws.take 1 ++ (ws.drop 1).filter (fun w => !f32Lt w.2 minP)
    let sums := prefixSums (ws.map (·.2))
    let goal := f32Mul (drawU (rdLe b 0x20 8) acc pos) (sums.getLast?.getD 0)
    match sums.findIdx? (fun c => f32Lt goal c) with
    | some i => (ws[i]?).map (·.1)
    | none => ws.getLast?.map (·.1)

/-! ## Grammars (R222, R223) -/

/-- What a grammar holds for a configuration. -/
def Grammar.row (g : Grammar) (state : Nat) (stack : List Nat) : Option GramRow :=
  g.rows.find? (fun r => r.state == state && r.top == stack.getLast?)

/-- Token IDs a configuration permits; EOS_ID only where it accepts. -/
def Grammar.permitted (g : Grammar) (eos state : Nat) (stack : List Nat) : List Nat :=
  match g.row state stack with | some r => (r.moves.map (·.1)).filter (fun t => r.accepting || t != eos) | none => []

/-- Is a configuration accepting? -/
def Grammar.accepts (g : Grammar) (state : Nat) (stack : List Nat) : Bool :=
  match g.row state stack with | some r => r.accepting | none => false

/-- The configuration after a token; none when its pushes would pass 64 symbols. -/
def Grammar.next (g : Grammar) (state : Nat) (stack : List Nat) (token : Nat) : Option (Nat × List Nat) :=
  match (g.row state stack).bind (fun r => r.moves.find? (fun m => m.1 == token)) with
  | some (_, st, pops, pushes) =>
    let stack := stack.take (stack.length - pops) ++ pushes
    if stack.length > 64 then none else some (st, stack)
  | none => some (state, stack)

/-! ## Hold-back and stop strings (R213, R214) -/

/-- The release point `c` of a stream moved back to the start of a UTF-8 sequence it would split. -/
def releasePoint (b : Bytes) (c : Nat) : Nat :=
  let at_ := fun i => (b.getD i 0).toNat
  let cont := fun i => 0x80 ≤ at_ i && at_ i < 0xC0
  let lead := fun i => if 0xC2 ≤ at_ i && at_ i < 0xE0 then 2 else if 0xE0 ≤ at_ i && at_ i < 0xF0 then 3
    else if 0xF0 ≤ at_ i && at_ i < 0xF5 then 4 else 0
  if c < b.length && !cont c then c
  else if 1 ≤ c && lead (c - 1) > 1 then c - 1
  else if 2 ≤ c && cont (c - 1) && lead (c - 2) > 2 then c - 2
  else if 3 ≤ c && cont (c - 1) && cont (c - 2) && lead (c - 3) > 3 then c - 3
  else c

/-- W of R213. -/
def stopWindow (stops : List Bytes) : Nat := (stops.map (·.length)).foldl max 1 - 1

/-- Is `p` a suffix of the first `e` bytes of a stream? -/
def endsAt (b : Bytes) (e : Nat) (p : Bytes) : Bool := p.length ≤ e && (b.take e).drop (e - p.length) == p

/-- The first byte after `from_` at which a stop string ends: (end, index); longest first, then lowest index. -/
def stopMatch (stops : List Bytes) (b : Bytes) (from_ : Nat) : Option (Nat × Nat) :=
  (List.range (b.length - from_)).findSome? fun k =>
    let e := from_ + k + 1
    let hits := stops.zipIdx.filter (fun p => endsAt b e p.1)
    match hits with
    | [] => none
    | h :: t => some (e, (t.foldl (fun a x => if x.1.length > a.1.length then x else a) h).2)

end Sys2Proof.Machine
end

