-- ==== Sys2Proof/Machine/XchgFrame.lean ====
section
/-!
DEFINITION. What the layer exchange shares (R158-R176): messages and their checks, appends, forming and abandoning steps, the end of a
step.
-/

namespace Sys2Proof.Machine

/-! ## Messages (R158-R161) -/

/-- The exchange opcode of a kind: 0 EMBED, 1 LAYER, 2 LAYER_REPLY, 3 FINAL. -/
def xop (kind : Nat) : Nat := Op.XCHG_EMBED + kind

/-- Bytes of a row of a kind, row header included (Table 6.5). -/
def Profile.rowBytes (p : Profile) (kind : Nat) : Nat :=
  32 + (if kind == 0 then p.hidden else if kind == 1 then p.qHeads * p.headDim + 2 * p.kvHeads * p.headDim
    else if kind == 2 then 2 * p.qHeads * p.headDim else 2 * p.hidden)

/-- Row limit of a message of a kind (R158). -/
def Profile.rowLimit (p : Profile) (kind : Nat) : Nat := p.rowLimits.getD kind 0

/-- The payload of a message (Table 6.3). -/
def xPayload (p : Profile) (kind id layer index count : Nat) (rows : List Bytes) : Bytes :=
  structure0 (xop kind) (leBytes 4 id ++ leBytes 2 layer ++ leBytes 2 rows.length ++ leBytes 2 index ++ leBytes 2 count
    ++ leBytes 4 (p.rowBytes kind) ++ leBytes 4 p.id ++ leBytes 4 0 ++ leBytes 8 0 ++ rows.flatten)

/-- A row header (Table 6.4). -/
def rowHead (acc pos slot flags : Nat) : Bytes :=
  leBytes 8 acc ++ leBytes 4 pos ++ leBytes 2 slot ++ leBytes 1 flags ++ leBytes 17 0

/-- Rows of a message. -/
def xRows (b : Bytes) : List Bytes := (chunks (rdLe b 0x14 4) (rdLe b 0x0E 2) (b.drop 0x28)).take (rdLe b 0x0E 2)

/-- Is an FP8 element a NaN, or a BF16 element not finite? -/
def fp8Bad (b : Byte) : Bool := b.toNat % 128 == 127
def bf16Bad (b : Bytes) : Bool := (chunks 2 (b.length + 1) b).any (fun e => bitsOf (leNat e) 14 7 == 255)

/-- A step is over; a reload that waited for the last open one goes on (R416). -/
def State.delStep (s : State) (id : Nat) : State :=
  let s := { s with steps := tDel s.steps id }.dropTiles id
  if s.steps.isEmpty && s.boot.reload.isSome then s.wake .reload else s

/-- Change an open step. -/
def State.updStep (s : State) (id : Nat) (f : XStep → XStep) : State :=
  match tGet s.steps id with
  | some t => { s with steps := tPut s.steps id (f t) }
  | none => s

/-- Put an exchange message of a step on its context.  One whose context has been provisioned anew since the step was opened fails at
once (R465). -/
def State.postX (s : State) (id conf no op peer : Nat) (payload : Bytes) : State :=
  if (s.peer peer).prov > conf then s.wake (.xchg id no) else s.sendSlip peer op 4 0xFFFF 0 [] payload (.xchg id no)

/-- Send an exchange message of a step (R159), kept for a retry (R165). -/
def State.sendX (s : State) (id op peer : Nat) (payload : Bytes) : State :=
  match tGet s.steps id with
  | none => s
  | some t =>
    let m : XMsg := { no := t.nextNo, op := op, peer := peer, payload := payload, retries := 0, due := none }
    let s := s.updStep id (fun t => { t with sent := t.sent ++ [m], nextNo := t.nextNo + 1, lastSent := s.tick,
                                             timeout := s.fld F.ME_XCHG_CFG_TIMEOUT_MS * 100000 })
    s.postX id t.conf t.nextNo op peer payload

/-! ## Keys and values -/

/-- Index of the group of pair j, token slot t, dimension group d. -/
def Profile.groupAt (p : Profile) (j t d : Nat) : Nat := (j * p.tokensPerPage + t) * p.G + d

/-- Rotate a head of K for a position (R462), in FP32. -/
def rotate (p : Profile) (pos : Nat) (k : List Nat) : List Nat :=
  let r := p.ropeDims
  let pair := fun (i : Nat) => if p.ropePair == 0 then (i, i + r / 2) else (2 * i, 2 * i + 1)
  (List.range (r / 2)).foldl (fun k i =>
    let (a, b) := pair i
    let (c, s) := Config.cosSin pos (p.ropeFreq.getD i 0)
    let xa := k.getD a 0
    let xb := k.getD b 0
    (k.set a (f32Sub (f32Mul xa c) (f32Mul xb s))).set b (f32Add (f32Mul xa s) (f32Mul xb c))) k

/-- What a row's K and V append: the 32-value groups of its token slot (R107 step 1). -/
def rowGroups (p : Profile) (pos : Nat) (row : Bytes) : List (Nat × List Nat) :=
  let t := pos % p.tokensPerPage
  let hd := p.kvHeads * p.headDim
  let data := row.drop 32
  let k := fp8s (slice data (p.qHeads * p.headDim) hd) (rdLe row 0x10 1)
  let v := fp8s (slice data (p.qHeads * p.headDim + hd) hd) (rdLe row 0x11 1)
  let heads := (chunks p.headDim p.kvHeads k).map (rotate p pos) ++ chunks p.headDim p.kvHeads v
  let gs := heads.zipIdx.flatMap (fun h => (chunks 32 p.G h.1).zipIdx.map (fun d => (p.groupAt h.2 t d.2, d.1)))
  gs.mergeSort (fun a b => a.1 ≤ b.1)

/-- Is a layer pinned to MXFP8 (R110)? -/
def Profile.pinned (p : Profile) (layer : Nat) : Bool := p.pinLayers.contains layer || p.pinHeads.any (fun h => h.1 == layer)

/-- The page of a wide append or promotion stands in a pair with a free slot, moved there where its own has none: promotion takes its
second slot in the tail page's own pair (R136); where no pair has two, it stays (log entry 11). -/
def State.roomBeside (s : State) (p : Profile) (k : Nat) : State :=
  let kv := fun (j : Nat) => (p.holds .kv j || p.holds .promotion j) && s.slotFree j
  if (firstFrom kv 2048 (k / 2048 * 2048)).isSome && s.gen k < 0xFFFFFFFF then s
  else
    let two := fun (j : Nat) => kv j && (firstFrom (fun m => m != j && kv m) 2048 (j / 2048 * 2048)).isSome
    match (p.runs .kv).findSome? (fun r => firstFrom two r.2 r.1) with
    | some j => s.moveTo k j
    | none => s

/-- A slot for a fresh tail page: a free one, else from the row's own reservation (R109). -/
def State.freshSlot (s : State) (tenant acc own : Nat) : Option (Nat × State × Nat) :=
  if s.freeT1 != 0 then (s.takeSlot tenant acc).map (fun (r : Nat × State) => (r.1, r.2, own))
  else if own != 0 then
    ((({ s with reserved := s.reserved - 1 } : State).subUsed tenant 1 4).takeSlot tenant acc).map (fun (r : Nat × State) => (r.1, r.2, own - 1))
  else none

/-- A second slot for an append: from the row's own reservation while it lasts, else a free one (R109).  Answers the slot and what is
left of the reservation. -/
def State.appendSlot (s : State) (tenant acc own : Nat) (near : Option Nat := none) : Option (Nat × State × Nat) :=
  if own != 0 then
    ((({ s with reserved := s.reserved - 1 } : State).subUsed tenant 1 4).takeSlot tenant acc near).map (fun (r : Nat × State) => (r.1, r.2, own - 1))
  else if s.freeT1 == 0 then none
  else (s.takeSlot tenant acc near).map (fun (r : Nat × State) => (r.1, r.2, 0))

/-- Store a page of a session's directory. -/
def State.setPage (s : State) (i : Nat) (r : PageRef) : State :=
  s.updSess i fun e =>
    if e.pages.any (fun q => q.layer == r.layer && q.index == r.index) then
      { e with pages := e.pages.map (fun (q : PageRef) => if q.layer == r.layer && q.index == r.index then r else q) }
    else { e with pages := insertPage r e.pages, tier := 1 }

/-- The page of a layer that takes position `pos`: the tail, or a fresh page when `pos` starts one (R107, R110). -/
def State.tailPage (s : State) (p : Profile) (i layer pos own : Nat) : Option (PageRef × State × Nat) :=
  let e := s.sess i
  match e.pages.find? (fun r => r.layer == layer && r.index == pos / p.tokensPerPage) with
  | some r => some (r, s, own)
  | none =>
    (s.freshSlot e.tenant e.accession own).bind fun (k, s, own) =>
      let finish := fun (s : State) (format second own : Nat) =>
        let r : PageRef := { layer := layer, index := pos / p.tokensPerPage, slot := k, second := second, format := format, fill := 0 }
        (r, s.putImage r (freshPage p format k second e.accession (s.gen k) pos layer e.tenant), own)
      if p.pinned layer then (s.appendSlot e.tenant e.accession own (some k)).map fun (k2, s, own) => finish s 1 k2 own
      else some (finish s 0 0 own)

/-- Append one position of one layer (R107, R108), drawing slots on a reservation.  None when no slot is left at all. -/
def State.appendAt (s : State) (p : Profile) (i layer pos entry own : Nat) (row : Bytes) : Option (State × Nat) :=
  (s.tailPage p i layer pos own).bind fun (r, s, own) =>
    let t := pos % p.tokensPerPage
    let gs := rowGroups p pos row
    let img := s.pageImage r
    let e := s.sess i
    let put := fun (s : State) (r : PageRef) (img : Bytes) =>
      let l := p.lay r.format
      let e0 := hdGet l img Hd.ESC_COUNT
      let b := appendToken p l img t entry e0 gs
      let s := if r.format == 0 then s.bumpBy F.TIER_CNT_ESCAPE_COUNT (hdGet l b Hd.ESC_COUNT - e0) else s
      (s.putImage r b).setPage i { r with fill := t + 1 }
    if promotes p (p.lay r.format) img gs then
      let s := s.roomBeside p r.slot
      let r := ((s.sess i).pages.find? (fun q => q.layer == r.layer && q.index == r.index)).getD r
      let img := s.pageImage r
      (s.appendSlot e.tenant e.accession own (some r.slot)).map fun (k2, s, own) =>
        let s := s.bumpGen r.slot
        let r1 := { r with format := 1, second := k2 }
        ((put s r1 (promotePage p img k2 t (s.gen r.slot))).bump F.TIER_CNT_PROMOTE_COUNT, own)
    else some (put s r img, own)

/-! ## Abandoning (R166) -/

/-- Cut one page in place to its first `k` token slots: FILL and ESC_COUNT fall, the entries above are zero, GEN rises (R166). -/
def State.cutInPlace (s : State) (p : Profile) (i : Nat) (r : PageRef) (k : Nat) : State :=
  let l := p.lay r.format
  let s := s.bumpGen r.slot
  let b := s.pageImage r
  let g := s.gen r.slot
  let kept := ((List.range p.N).filter (fun g => p.groupSlot g < k && (escOf l b g).isSome)).length
  let b := hdPut l (hdPut l (hdPut l b Hd.FILL k) Hd.FLAGS (hdGet l b Hd.FLAGS &&& 0xFFFB)) Hd.GEN g
  let b := ((List.range p.tokensPerPage).drop k).foldl (fun b t => hdPutToken l b t 0) b
  let b := if r.format == 1 then b else hdPut l b Hd.ESC_COUNT kept
  (s.putImage r (colPut b 0 g (pageCode r.format))).setPage i { r with fill := k }

/-- Cut one page to its first `k` token slots.  A Y3 page, which may not be a tail, gives way to a wide copy of them (R113), and so
does a page that another session shares or whose GEN is at its end to a copy; without a free slot for it the page is cut in place. -/
def State.cutPage (s : State) (p : Profile) (i : Nat) (r : PageRef) (k : Nat) : State :=
  if r.fill ≤ k then s
  else
    let shared : Bool := match tGet s.slots r.slot with | some u => decide (u.refs > 1) | none => false
    let e := s.sess i
    let need := if r.format == 0 then 1 else 2
    if (r.format == 2 || shared || s.gen r.slot ≥ 0xFFFFFFFF) && s.freeT1 ≥ need then
      match s.copyTail p e.accession e.tenant r k with
      | (s, some n) => (r.slots.foldl State.dropSlot s).setPage i n
      | (s, none) => s.cutInPlace p i r k
    else s.cutInPlace p i r k

/-- Remove every stored position from `n` on in every layer. -/
def State.cutKv (s : State) (p : Profile) (i n : Nat) : State :=
  let e := s.sess i
  let gone := e.pages.filter (fun r => r.index * p.tokensPerPage ≥ n)
  let s := (gone.flatMap PageRef.slots).foldl State.dropSlot s
  let s := s.updSess i (fun e => { e with pages := e.pages.filter (fun r => r.index * p.tokensPerPage < n) })
  (e.pages.filter (fun r => r.index == n / p.tokensPerPage && r.index * p.tokensPerPage < n)).foldl
    (fun s r => s.cutPage p i r (n % p.tokensPerPage)) s

/-- Give back reserved slots of a tenant and their charge (R109). -/
def State.giveBack (s : State) (tenant n : Nat) : State := ({ s with reserved := s.reserved - n }).subUsed tenant 1 (4 * n)

/-- Reserve slots and charge them; none when they, or `spare` further ones for fresh tail pages, are not free or the quota refuses
(R109, Table 7.4). -/
def State.reserve (s : State) (tenant n spare : Nat) : Option State :=
  if s.freeT1 < n + spare || !s.quotaFits tenant 1 (4 * (n + spare)) then none
  else some (({ s with reserved := s.reserved + n }).addUsed tenant 1 (4 * n))

/-- Drop the prefill in progress of a session, its reservation with it. -/
def State.dropPrefill (s : State) (i : Nat) : State :=
  match tGet s.prefills i with
  | some f => ({ s with prefills := tDel s.prefills i }).giveBack (s.sess i).tenant f.reserved
  | none => s

/-- Abandon a step (R166): every session of its batch is as before; messages still in service are answered BAD_PARAM. -/
def State.abandonStep (s : State) (id : Nat) : State :=
  match tGet s.steps id, s.profile with
  | some t, some p =>
    let s := (s.delStep id).bump F.ME_CNT_ABANDON_COUNT
    let s := t.waiting.foldl (fun s x => s.finish Op.XCHG_LAYER x (Answer.st St.BAD_PARAM (0x100 + Op.XCHG_LAYER))) s
    if t.prefill then
      match t.rows with
      | [] => s
      | r :: _ =>
        let i := r.idx
        let start := match tGet s.prefills i with | some f => f.start | none => (s.sess i).kvLength
        let s := s.cutKv p i start
        let s := s.updSess i fun e => { e with kvLength := start, pending := e.pending + (e.kvLength - start), inStep := false }
        let s := match tGet s.prefills i with
          | some f => ({ s with prefills := tPut s.prefills i { f with reserved := 0 } }).giveBack (s.sess i).tenant f.reserved
          | none => s
        let s := s.enqueuePrefill i
        s.release (· == .step r.acc)
    else
      t.rows.foldl (fun s r =>
        let e := s.sess r.idx
        let s := (s.cutKv p r.idx e.kvLength).giveBack e.tenant r.reserved
        let s := s.updSess r.idx (fun e => { e with inStep := false })
        let s := if e.state == Ss.DECODE then s.enqueue r.idx false 256 else s
        s.release (· == .step r.acc)) s
  | _, _ => s

/-- Abandon every open step with a row whose home partition is `part`, or every step (R166, R356). -/
def State.abandonSteps (s : State) (part : Option Nat) : State :=
  (s.steps.filter (fun t => t.2.rows.any (fun r => match part with | some q => s.home r.idx == q | none => true))).foldl
    (fun s t => s.abandonStep t.1) s

/-! ## Forming steps (R109, R172, R238) -/

/-- Slots to reserve for `n` new positions of a session (R109): one per page and layer they write into; a pinned layer's fresh
page needs its second slot too (log entry 43). -/
def State.slotsNeeded (s : State) (p : Profile) (i n : Nat) : Nat :=
  let kv := (s.sess i).kvLength
  let fill := kv % p.tokensPerPage
  let pages := cdiv (fill + n) p.tokensPerPage
  let fresh := pages - (if fill == 0 then 0 else 1)
  ((List.range p.layers).map (fun l => pages + (if p.pinned l then fresh else 0))).foldl (· + ·) 0

/-- Fresh tail pages that `n` new positions of a session begin, one per layer. -/
def State.freshNeeded (s : State) (p : Profile) (i n : Nat) : Nat :=
  let fill := (s.sess i).kvLength % p.tokensPerPage
  p.layers * (cdiv (fill + n) p.tokensPerPage - (if fill == 0 then 0 else 1))

/-- Does a session's work wait for a slip that acts at the step boundary? -/
def State.boundarySlip (s : State) (acc : Nat) : Bool :=
  s.held.any (fun h => h.2 == .step acc)
    || s.ready.any (fun t => match t with | .slip _ x => x.acc == acc | _ => false)

/-- Transcript entries of a session's token positions. -/
def Sess.tokens (e : Sess) : List Nat := e.transcript.filter (fun v => entryKind v == 0)

/-- The row of a position of a session. -/
def State.stepRow (s : State) (i pos slot reserved : Nat) (want : Bool) : StepRow :=
  let e := s.sess i
  { idx := i, acc := e.accession, pos := pos, slot := slot, want := want, entry := e.tokens.getD pos 0, layer := 0, reserved := reserved,
    hidden := none, sampling := (s.slotOf e.tenant e.sampling).sampling }

/-- Open a step and send its embeddings (R162). -/
def State.openStep (s : State) (p : Profile) (prefill : Bool) (rows : List StepRow) : State :=
  let id := s.nextStep
  let t : XStep := { id := id, prefill := prefill, rows := rows, sent := [], nextNo := 0, served := [], waiting := [], arrived := [],
                     lastSent := s.tick, timeout := 0, conf := s.provCtr, failing := false }
  let s := { s with nextStep := (id + 1) % 2 ^ 32, steps := tPut s.steps id t }
  let s := rows.foldl (fun s r => s.updSess r.idx (fun e => { e with inStep := true })) s
  let data := rows.map (fun r => rowHead r.acc r.pos r.slot (b2n r.want + 2 * b2n prefill)
    ++ slice (Config.embedding p.id (bitsOf r.entry 19 0)) 0 p.hidden)
  let parts := chunks (max 1 (p.rowLimit 0)) (data.length + 1) data
  parts.zipIdx.foldl (fun s m => s.sendX id Op.XCHG_EMBED p.embedStage (xPayload p 0 id 0xFFFF m.2 parts.length m.1)) s

/-- May a step be formed at all (R238, R356)? -/
def State.mayStep (s : State) : Bool :=
  s.flag F.SCHED_CTRL_SCHED_EN && s.fld F.BOOT_STATE_STATE == 6 && !s.fenced && !s.barring && !s.reloading && s.part 0 != 4 && s.part 1 != 4 && s.steps.length < 64

/-- Pages move out for a session whose slots could not be reserved: of its tenant when the quota refused, else by the watermark
(Table 7.4, R88), while SESS_CTRL.PREEMPT_EN lets it. -/
def State.makeRoom (s : State) (i n : Nat) : State :=
  let t := (s.sess i).tenant
  if !s.flag F.SESS_CTRL_PREEMPT_EN then s
  else if !s.quotaFits t 1 (4 * n) then s.victims (some t) i (fun s => s.quotaFits t 1 (4 * n)) else s.watermark

/-! ## The end of a step (R30, R82, R212-R224) -/

/-- What sampling decided for a row. -/
inductive Drawn where
  /-- nothing is sampled: the request ends with this reason (R223) -/
  | none_ (reason : Nat) (stackFull : Bool)
  /-- a token with the grammar's configuration after it -/
  | token (t : Nat) (config : Nat × List Nat)
  deriving DecidableEq, Repr

/-- Token IDs a session's grammar permits in its current configuration; all without a grammar. -/
def State.permittedToks (s : State) (p : Profile) (e : Sess) : List Nat :=
  let all := List.range p.vocabSize
  match s.grammarOf e.grammar with
  | some g =>
    let l := g.permitted p.eosId e.grammarState ((e.req.map (·.stack)).getD [])
    all.filter (fun t => l.contains t)
  | none => all

/-- The candidates of a row: the 64 highest first-pass logits among the tokens permitted, ties to the lower ID (R175). -/
def State.candidates (s : State) (p : Profile) (e : Sess) (first : List Nat) : List (Nat × Nat) :=
  (((s.permittedToks p e).map (fun t => (t, first.getD t 0))).mergeSort logitBefore).take 64

/-- Rescoring and sampling of a row from its first-pass logits (R176, R218-R223). -/
def State.drawToken (s : State) (p : Profile) (r : StepRow) (first : List Nat) (hidden : Bytes) : Drawn :=
  let e := s.sess r.idx
  let stack := (e.req.map (·.stack)).getD []
  let g := s.grammarOf e.grammar
  let permitted := s.permittedToks p e
  if permitted.isEmpty then
    .none_ (if (g.map (·.accepts e.grammarState stack)).getD false then End.GRAMMAR_COMPLETE else End.GRAMMAR_DEADEND) false
  else
    let cands := (s.candidates p e first).map (·.1)
    let counts := penaltyCounts (rdLe r.sampling 0x1C 4) (bitOf (rdLe r.sampling 0x1A 1) 0) (e.tokens.take (r.pos + 1))
    let ls := permitted.map fun t =>
      let l := if cands.contains t then (rescored p hidden t).getD (first.getD t 0) else first.getD t 0
      let n := (tGet counts t).getD 0
      (t, if n == 0 then l else penalise (sampWord r.sampling 0x0C) (sampWord r.sampling 0x10) (sampWord r.sampling 0x14) l n)
    let t := (chooseToken r.sampling r.acc (r.pos + 1) ls).getD 0
    match g with
    | none => .token t (e.grammarState, stack)
    | some g => match g.next e.grammarState stack t with
      | some c => .token t c
      | none => .none_ End.GRAMMAR_DEADEND true

/-- Take up a sampled token (actions 6 to 8 of R30): transcript, hold-back, ring, charge, end of the request or return to
DECODE.  Of several reasons that hold on one token the first of STOP, TOOL_CALL, EOS, GRAMMAR_COMPLETE, CONTEXT_FULL, MAX_TOKENS is the
end reason: the model's choice (log entry 88). -/
def State.takeToken' (s : State) (p : Profile) (r : StepRow) (tok : Nat) (config : Nat × List Nat) : State :=
  let i := r.idx
  let e := s.sess i
  let q := (e.req).getD { stops := [], maxTokens := 0, sampled := 0, heldBack := [], stack := [], cands := [], stopInclude := false, lost := false }
  let bytes := p.tokenBytes tok
  let stream := q.heldBack ++ bytes
  let hit := stopMatch q.stops stream q.heldBack.length
  let kind := if hit.isSome then 1 else 0
  let control := p.controls.contains tok
  let pending := if kind == 1 then 0 else 1
  let len := e.kvLength + pending
  let complete : Bool := match s.grammarOf e.grammar with
    | some g => g.accepts config.1 config.2 && (g.permitted p.eosId config.1 config.2).isEmpty
    | none => false
  let reason := if kind == 1 then End.STOP
    else if tok == p.toolClose && control then End.TOOL_CALL
    else if tok == p.eosId then End.EOS
    else if complete then End.GRAMMAR_COMPLETE
    else if len ≥ p.maxContext then End.CONTEXT_FULL
    else if e.reqRemaining ≤ 1 then End.MAX_TOKENS else 0
  let (out, keep) := match hit with
    | some (at_, k) =>
      let cut := if q.stopInclude then at_ else at_ - (q.stops.getD k []).length
      (stream.take cut, [])
    | none =>
      if reason != 0 then (stream, [])
      else
        let c := releasePoint stream (stream.length - stopWindow q.stops)
        (stream.take c, stream.drop c)
  let g : GroupInfo := { accession := e.accession, token := some tok, control := control, position := r.pos + 1, stopTail := kind == 1,
                         toolCall := reason == End.TOOL_CALL, resync := false, reason := reason,
                         detail := match hit with | some (_, k) => k | none => 0 }
  let s := s.updSess i fun e =>
    { e with transcript := e.transcript ++ [tok + 2 ^ 29 + kind * 2 ^ 30], pending := pending, reqRemaining := e.reqRemaining - 1,
             steps := e.steps + 1, grammarState := config.1, toolWait := reason == End.TOOL_CALL,
             req := some { q with sampled := q.sampled + 1, heldBack := keep, stack := config.2 },
             armed := reason == 0 }
  let s := ((s.chargeLog i).charge e.tenant 0 256).tally e.tenant 0 1
  let s := s.bump F.TEXT_CNT_SAMPLED_COUNT
  let s := if hit.isSome then s.bump F.TEXT_CNT_STOP_COUNT else s
  let d := s.deliver i (ringGroup g out) (reason != 0)
  if !d.2 then d.1
  else if reason != 0 then d.1.endRequest i
  else d.1.toDecode i

/-- One session leaves a step with a final hidden state and its first-pass logits: candidates, sampling, actions 6 to 8.  A prefill cancelled meanwhile
discards its token (Table 3.5). -/
def State.finishRow (s : State) (p : Profile) (first : List Nat) (r : StepRow) : State :=
  let i := r.idx
  let s := s.updSess i (fun e => { e with inStep := false })
  let e := s.sess i
  let s := if !e.armed then s.endWithout i End.CANCELLED ((e.req.map (·.heldBack)).getD [])
    else match r.hidden with
      | none => s
      | some h =>
        let s := if (s.grammarOf e.grammar).isSome then s.jobOn A.TEXT_UNIT 47 48 16 else s
        let s := s.updSess i (fun e => { e with req := e.req.map (fun q => { q with cands := (s.candidates p e first).map (·.1) }) })
        match s.drawToken p r first h with
        | .none_ reason full =>
          let s := if reason == End.GRAMMAR_DEADEND then s.bump F.TEXT_CNT_DEADEND_COUNT else s
          let s := if full then s.bump F.TEXT_CNT_STACK_OVF_COUNT else s
          s.endWithout i reason ((e.req.map (·.heldBack)).getD [])
        | .token t c => (s.jobOn A.TEXT_UNIT 47 16 32).takeToken' p r t c
  s.release (· == .step r.acc)

/-- The head route of a step (R173). -/
def State.headRoute (s : State) (n : Nat) : Nat :=
  if n ≤ s.fld F.ME_HEAD_CFG_HEAD_NBU_MAX || !s.flag F.ME_CTRL_HEAD_ME_EN || s.fld (F.ME_POOL_CUR.at 8) == 0 then 0 else 1

/-- A decode step has every final hidden state (R30 actions 4 to 8): positions count, tokens are sampled, rings are pushed, the
boundary's slips and victims follow. -/
def State.finishDecode (s : State) (p : Profile) (id : Nat) : State :=
  match tGet s.steps id with
  | none => s
  | some t =>
    let s := s.delStep id
    let s := t.rows.foldl (fun s r =>
      (s.giveBack (s.sess r.idx).tenant r.reserved).updSess r.idx (fun e => { e with kvLength := e.kvLength + 1, pending := e.pending - 1 })) s
    let h := s.headPass p (s.headRoute t.rows.length) (t.rows.map (fun r => r.hidden.getD []))
    let s := s.queueTiles (tilesOf 1 id (s.entryFmt 1) h.1)
    let s := t.rows.zipIdx.foldl (fun s r => s.finishRow p (h.2.getD r.2 []) r.1) s
    let rings := (t.rows.map (fun r => s.sess r.idx)).filterMap (fun e => if e.attached then some e.ring else none)
    (rings.eraseDups.foldl State.flushRing s).watermark

/-- A prefill chunk has every layer appended, and the final hidden state of its last row where it wants one (R172): the next
chunk is queued, the first token sampled, or the revive it belongs to goes on. -/
def State.finishChunk (s : State) (p : Profile) (id : Nat) : State :=
  match tGet s.steps id with
  | none => s
  | some t =>
    match t.rows.getLast? with
    | none => s.delStep id
    | some r =>
      let i := r.idx
      let s := s.delStep id
      let s := s.updSess i fun e => { e with kvLength := e.kvLength + t.rows.length, pending := e.pending - t.rows.length, inStep := false }
      let e := s.sess i
      match tGet s.revives i with
      | some v =>
        if e.kvLength ≥ v.goal then ((s.dropPrefill i).reviveDone i).release (· == .step r.acc)
        else (s.enqueueTail i v.goal).release (· == .step r.acc)
      | none =>
        if !r.want then (s.enqueuePrefill i).release (· == .step r.acc)
        else
          let h := s.headPass p (s.headRoute 1) [r.hidden.getD []]
          let s := s.queueTiles (tilesOf 1 id (s.entryFmt 1) h.1)
          let s := (s.dropPrefill i).finishRow p (h.2.getD 0 []) r
          (if (s.sess i).attached then s.flushRing (s.sess i).ring else s).watermark

end Sys2Proof.Machine
end

