-- ==== Sys2Proof/Machine/AuditFrame.lean ====
section
/-!
DEFINITION. The conserved quantities (Table 14.1) as tests on the state: each answers the first object that breaks its invariant
(R351, R359, R360).
-/

namespace Sys2Proof.Machine

/-- Receive units of all peer contexts (R279): 32,768. -/
def creditUnitsAll : Nat := 32768

/-- CREDIT: an OPEN context holds at least 4 units granted or in use, none has sent past its limit, and all together fit. -/
def State.badCredit (s : State) : Option Nat :=
  let holds := fun (v : Peer) => v.rx.granted - v.rx.seen + v.rx.held
  let sum := (s.peers.map (fun p => if p.2.state == 2 then holds p.2 else 0)).foldl (· + ·) 0
  match s.peers.find? (fun p => p.2.state == 2 && (holds p.2 < 4 || p.2.tx.used > p.2.tx.limit)) with
  | some p => some p.1
  | none => if sum > creditUnitsAll then some 0 else none

/-- Slots reserved by revives, prefills and rows of open steps for a tenant, or for all (R109, R193). -/
def State.reservedFor (s : State) (t : Option Nat) : Nat :=
  let own := fun (i : Nat) => t.isNone || t == some (s.sess i).tenant
  ((s.revives.filter (fun r => own r.1)).map (·.2.reserved)).foldl (· + ·) 0
    + ((s.prefills.filter (fun r => own r.1)).map (·.2.reserved)).foldl (· + ·) 0
    + (((s.steps.flatMap (fun x => x.2.rows)).filter (fun r => own r.idx)).map (·.reserved)).foldl (· + ·) 0

/-- SLOT: reservations add up, nothing is both allocated and held, and every allocated slot lies in the plan's region. -/
def State.badSlot (s : State) : Option Nat :=
  match s.slots.find? (fun u => s.ckpt.heldSlots.contains u.1 || match s.profile with
      | some p => !p.holds .kv u.1 && !p.holds .promotion u.1
      | none => true) with
  | some u => some u.1
  | none => if s.reserved != s.reservedFor none then some 0 else none

/-- Page-directory entries that name a slot. -/
def State.namedBy (s : State) (k : Nat) : Nat :=
  (s.sessions.map (fun p => ((p.2.pages.flatMap PageRef.slots).filter (· == k)).length)).foldl (· + ·) 0

/-- REFERENCE: the count of each allocated slot is the number of entries that name it. -/
def State.badRef (s : State) : Option Nat := (s.slots.find? (fun u => u.2.refs != s.namedBy u.1 || u.2.refs == 0)).map (·.1)

/-- BUDGET: each tenant's ledger is in balance, and the parts of its CHARGE agree with the counts kept elsewhere (R353). -/
def State.badBudget (s : State) : Option Nat :=
  (s.tenants.find? (fun t => t.1 != 0xFFFF && !(t.2.ledgerOk && t.2.partsOk))).map (·.1)

/-- RING: the indices of each enabled ring fit, its groups add up, and HELD_RECORD is set exactly when a group is held. -/
def State.badRing (s : State) : Option Nat :=
  match s.rings.find? (fun r => r.2.state == 1 && (decide ((r.2.pi + 2 ^ 32 - r.2.ci) % 2 ^ 32 > 2 ^ r.2.logSize)
      || r.2.made != r.2.groups + s.ringHolds r.1 + r.2.discarded)) with
  | some r => some r.1
  | none => (s.sessions.find? (fun p => p.2.heldRecord == p.2.heldGroups.isEmpty)).map (·.2.ring)

/-- Quarter pages charged to a tenant in a tier by what rests there (R185, R252). -/
def State.chargesOf (s : State) (t tier : Nat) : Nat :=
  let mine := s.sessions.filter (fun p => p.2.tenant == t)
  if tier == 1 then
    ((s.slots.filter (fun u => u.2.tenant == t)).map (·.2.charge)).foldl (· + ·) 0 + (mine.map (·.2.logCharge)).foldl (· + ·) 0
      + 4 * s.reservedFor (some t) + ((s.shards.filter (fun v => v.2.tenant == t)).map (·.2.quarters)).foldl (· + ·) 0
  else
    (mine.map (fun p => p.2.img.getD (tier - 2) 0 + ((p.2.down.filter (fun d => d.tier == tier)).map (fun d => bodyQuarters d.body.length)).foldl (· + ·) 0)).foldl (· + ·) 0

/-- QUOTA: USED of each tenant and tier is the sum of its charges. -/
def State.badQuota (s : State) : Option Nat :=
  (s.tenants.find? (fun t => [1, 2, 3, 4].any (fun k => (s.quota t.1 k).used != s.chargesOf t.1 k))).map (·.1)

/-- Does an accession number stand in two entries? -/
def doubled : List Nat → Option Nat
  | [] => none
  | a :: l => if l.contains a then some a else doubled l

/-- OWNERSHIP on one device: no accession number stands in two entries. -/
def State.badOwner (s : State) : Option Nat :=
  match doubled (s.sessions.map (·.2.accession)) with
  | some a => (s.sessions.find? (fun p => p.2.accession == a)).map (·.1)
  | none => none

/-- The first object that breaks the invariant of a quantity, by its code (Table 14.1). -/
def State.breach (s : State) (code : Nat) : Option Nat :=
  match code with
  | 1 => s.badCredit
  | 2 => s.badSlot
  | 3 => s.badRef
  | 4 => s.badBudget
  | 5 => s.badRing
  | 6 => s.badQuota
  | 7 => s.badOwner
  | _ => none

/-- The first quantity that is not conserved, with its object. -/
def State.firstBreach (s : State) : Option (Nat × Nat) :=
  [1, 2, 3, 4, 5, 6, 7].findSome? (fun c => (s.breach c).map (fun o => (c, o)))

/-- The audit of a snapshot's own sections (R360, R361): the quantity that fails and its object.  A location record may name a removed
device whose sessions wait for adoption (R321), so that the check of CATALOGUE takes every ID in use for ACTIVE (log entry 91). -/
def Snapshot.breach (k : Snapshot) : Option (Nat × Nat) :=
  match doubled (k.sessions.map (·.2.accession)) with
  | some a => some (7, ((k.sessions.find? (fun p => p.2.accession == a)).map (·.1)).getD 0)
  | none => match k.refs.find? (fun r => r.2 == 0) with
    | some r => some (2, r.1)
    | none => match k.rings.find? (fun r => decide ((r.2.pi + 2 ^ 32 - r.2.ci) % 2 ^ 32 > 2 ^ r.2.logSize)
          || match r.2.owner with
             | some i => (match tGet k.sessions i with
                | some e => !e.attached || e.ring != r.1
                | none => true)
             | none => false) with
      | some r => some (5, r.1)
      | none => match k.tenants.find? (fun t => t.1 != 0xFFFF && !t.2.ledgerOk) with
        | some t => some (4, t.1)
        | none => match k.loc.find? (fun l => !k.members.contains l.owner) with
          | some _ => some (7, 0)
          | none => none

end Sys2Proof.Machine
end

