-- ==== Sys2Proof/Machine/HostQueue.lean ====
section
/-!
DEFINITION. The four paths slips arrive by: host queue pairs (R48-R52), management connections (R53, R388), and the
Rind's internal queue.
-/

namespace Sys2Proof.Machine

/-- An accepted slip without a payload to read goes on to execute. -/
def State.wakeSlip (s : State) (op : Nat) (x : Slip) : State :=
  s.queueUp (.slip op x)

/-- A slip arrives whole on a path other than the host's: acceptance, then execution (R55, R53). -/
def State.arrive (s : State) (o : OpSlip) : State :=
  let r := s.enrol o.op.toNat o.slip .accepted (s.arrivalIdx o.slip)
  if r.2 then r.1.wakeSlip o.op.toNat o.slip else r.1

/-- The pair's agreed version ends when it leaves ACTIVE (R59), and with it the locks it holds (R423). -/
def State.dropVersion (s : State) (c : Ctx) : State :=
  ({ s with versions := s.versions.filter (fun v => v.1 != c) }).contextLocks c

/-- A pair enters ERROR with a cause, signalled on SLIPQ_ERR_VEC (R51, Table 2.5); the first cause since it was last ACTIVE stays
(Table 2.16). -/
def State.pairError (s : State) (q cause : Nat) : State :=
  let p := s.qp q
  let s := s.setQp q { p with state := 3, errCause := if p.errCause == 0 then cause else p.errCause }
  (s.dropVersion (.pair q)).sendMsix (s.fld F.SLIPQ_ERR_VEC_VEC)

/-- A host memory access of a pair completed with error (R52). -/
def State.hostError (s : State) (q : Nat) : State :=
  let s1 := if (s.qp q).state == 1 then s.pairError q 3 else s
  if (s1.qp q).state == 0 then s1 else s1.setQp q { s1.qp q with discarding := true }

/-- QP_SQ_TAIL (R49): a doorbell write; a tail at or above 2^n is ERROR cause 1; ignored and counted unless ACTIVE. -/
def execQP_SQ_TAIL (q : Nat) (value : Word) (s : State) : Host.Outcome State Fault Refusal :=
  let p := s.qp q
  let tail := F.QP_SQ_TAIL_TAIL.get value
  if p.state != 1 then .next s.regAccErr
  else if tail ≥ s.sqSize q then .next (s.pairError q 1)
  else .next ((s.setQp q { p with sqTail := tail }).fetchMore q)

/-- QP_RQ_HEAD (R49): the new head must lie from the current head to the current tail; else ERROR cause 2. -/
def execQP_RQ_HEAD (q : Nat) (value : Word) (s : State) : Host.Outcome State Fault Refusal :=
  let p := s.qp q
  let h := F.QP_RQ_HEAD_HEAD.get value
  let m := s.rqSize q
  if p.state != 1 then .next s.regAccErr
  else if h ≥ m || (h + m - p.rqHead) % m > s.unconsumed q then .next (s.pairError q 2)
  else .next ((s.setQp q { p with rqHead := h }).fetchMore q)

/-- One fetched entry, of submission-queue index `idx`, leaves queue 3 of Table 9.8 as it is checked; it is a slip in flight of its pair, and its payload, if any, is
read first (R52). -/
def State.fetched (s : State) (q : Nat) (o : OpSlip) (idx : Nat) : State :=
  let x := { o.slip with src := Ctx.pair q, payload := [] }
  let op := o.op.toNat
  let s := s.dequeued 3 s.tick
  let r := s.enrol op x (if x.plen == 0 then .accepted else .payload) idx
  if r.2 then (if x.plen == 0 then r.1.wakeSlip op x else r.1.emit (.payloadRead q x.tag.toNat r.1.fromCaches)) else r.1

/-- SQ_HEAD covers `n` entries more, whose slips are in flight, and is written to the mirror block (R49, R52). -/
def State.headMirror (s : State) (q n : Nat) : State :=
  let p := s.qp q
  let s := s.setQp q { p with fetching := 0, fetched := p.fetched + n, sqHead := (p.sqHead + n) % s.sqSize q }
  let p := s.qp q
  let s := s.emit (.mirror q p.sqHead p.rqTail)
  if s.conf then s.writeSealed 3 (bounceRef q 0) (s.reg (A.QP_MIRROR + qpOff q)).toNat (leBytes 4 p.sqHead ++ leBytes 4 p.rqTail ++ leBytes 8 0) else s

/-- SQ_FETCH_DONE (R49, R52): a read of submission entries completes, whatever state the pair has reached meanwhile: SQ_HEAD is written
to the mirror block, then the entries are checked in order; with error none of its entries is executed. -/
def execSQ_FETCH_DONE (q : Nat) (entries : List OpSlip) (ok : Bool) (s : State) : Host.Outcome State Fault Refusal :=
  let p := s.qp q
  let n := p.fetching
  if n == 0 then .next s
  else
    if !ok then .next ((s.setQp q { p with fetching := 0 }).hostError q)
    else
      let es := entries.take n
      let m := s.sqSize q
      .next ((es.zipIdx.foldl (fun s o => s.fetched q o.1 ((p.sqHead + o.2) % m)) (s.headMirror q es.length)).fetchMore q)

/-- PAYLOAD_READ_DONE (R52): the payload has arrived and the slip goes on to execute; with error the slip has no effect,
gets no reply and frees its reservation. -/
def execPAYLOAD_READ_DONE (q : Nat) (tag : BitVec 32) (bytes : Bytes) (ok : Bool) (s : State) :
    Host.Outcome State Fault Refusal :=
  match s.outst (.pair q) tag with
  | none => .next s
  | some o =>
    if o.stage != .payload then .next s
    else if ok then
      let x := { o.slip with payload := slice bytes 0 o.slip.plen.toNat }
      .next ((s.updOutst (.pair q) tag (fun o => { o with slip := x, stage := .accepted })).wakeSlip o.op x)
    else
      .next ((s.dropSlip (Ctx.pair q) tag).hostError q)

/-- HOST_ACCESS_ERROR (R52): a host memory access of the pair other than a fetch or a payload read completes with error.  With the tag
of an outstanding slip it is the write of that slip's returned data, which follows the slip's effect: the slip takes effect, its
data write fails, and it gets no reply (log entry 14). -/
def execHOST_ACCESS_ERROR (q : Nat) (tag : Option (BitVec 32)) (s : State) : Host.Outcome State Fault Refusal :=
  match tag with
  | some t =>
    if (s.outst (.pair q) t).isSome then .next (s.updOutst (.pair q) t (fun o => { o with dataFails := true }))
    else .next (s.hostError q)
  | none => .next (s.hostError q)

/-- Is the pair's configuration valid, with QP_CFG holding `w` (Table 2.16, cause 4)? -/
def State.pairValid (s : State) (q : Nat) (w : Word) : Bool :=
  let n := F.QP_CFG_LOG2_SQ.get w
  let m := F.QP_CFG_LOG2_RQ.get w
  let units := s.fld (F.QP_WIN_SIZE_UNITS.at (qpOff q))
  1 ≤ n && n ≤ 16 && 1 ≤ m && m ≤ 16
    && (F.QP_CFG_OPERATOR.get w == 1 || F.QP_CFG_TENANT.get w ≤ 0xFFF)
    && (s.reg (A.QP_SQ_BASE + qpOff q)).toNat + 64 * 2 ^ n ≤ 2 ^ 64
    && (s.reg (A.QP_RQ_BASE + qpOff q)).toNat + 32 * 2 ^ m ≤ 2 ^ 64
    && (units == 0 || (s.reg (A.QP_WIN_BASE + qpOff q)).toNat + 64 * units ≤ 2 ^ 64)

/-- The RW fields of QP_CFG other than ENABLE. -/
def qpCfgMask : Nat :=
  F.QP_CFG_OPERATOR.mask + F.QP_CFG_TENANT.mask + F.QP_CFG_MSIX_VEC.mask + F.QP_CFG_LOG2_RQ.mask + F.QP_CFG_LOG2_SQ.mask

/-- QP_ENABLE (R52): QP_CFG written with ENABLE 1.  A DISABLED pair takes the configuration and becomes ACTIVE with every
index 0, or ERROR with cause 4; on any other pair, or while confidential-host mode has no keys (R386, log entry 67), the write is ignored
and counted. -/
def execQP_ENABLE (q : Nat) (value : Word) (s : State) : Host.Outcome State Fault Refusal :=
  if (s.qp q).state != 0 || !s.hostReady then .next s.regAccErr
  else
    let w := value &&& BitVec.ofNat 64 (qpCfgMask + F.QP_CFG_ENABLE.mask)
    let ok := s.pairValid q w
    let s := { s.setReg (A.QP_CFG + qpOff q) w with sec := { s.sec with hostUsed := true } }
    if ok then .next (s.setQp q { Qp.fresh with state := 1 })
    else .next (s.pairError q 4)

/-- QP_DISABLE (R52): QP_CFG written with ENABLE 0.  An ACTIVE or ERROR pair drains; its other fields keep their values,
counted under R17 when the write would change one.  A DISABLED pair takes the fields. -/
def execQP_DISABLE (q : Nat) (value : Word) (s : State) : Host.Outcome State Fault Refusal :=
  let a := A.QP_CFG + qpOff q
  let w := value &&& BitVec.ofNat 64 qpCfgMask
  let p := s.qp q
  if p.state == 0 then .next (s.setReg a w)
  else
    let same := s.reg a &&& BitVec.ofNat 64 qpCfgMask == w
    let s := if same then s else s.regAccErr
    let s := (s.setFld (F.QP_CFG_ENABLE.at (qpOff q)) 0).dropVersion (.pair q)
    .next (s.setQp q { s.qp q with state := 2 })

/-- QP_DRAIN_DONE (R52): a DRAINING pair with no slip in flight becomes DISABLED. -/
def execQP_DRAIN_DONE (q : Nat) (s : State) : Host.Outcome State Fault Refusal :=
  let p := s.qp q
  if p.state == 2 && p.fetched == 0 && p.fetching == 0 then .next (s.setQp q { p with state := 0 }) else .next s

/-- COAL_TIMER (R51): COAL_TIME, in units of 100 ns, has elapsed since the first reply not yet announced. -/
def execCOAL_TIMER (q : Nat) (s : State) : Host.Outcome State Fault Refusal :=
  let p := s.qp q
  let t := s.fld (F.QP_COAL_COAL_TIME.at (qpOff q))
  if p.coalCount != 0 && t != 0 && p.coalSince + 10 * t ≤ s.tick then
    .next ((s.setQp q { p with coalCount := 0 }).sendMsix (s.fld (F.QP_CFG_MSIX_VEC.at (qpOff q))))
  else .next s

/-- MGMT_SLIP_ARRIVAL (R53): a slip is taken whole from an open management connection, whose port needs ETH_REFCLK0 (R448). -/
def execMGMT_SLIP_ARRIVAL (o : OpSlip) (s : State) : Host.Outcome State Fault Refusal :=
  match o.slip.src with
  | .mgmt c => if (tGet s.mgmt c).isSome && !s.flag F.CXL_REFCLK_ETH0_LOST then .next (s.arrive o) else .next s
  | _ => .next s

/-- Is the device in bootstrap: no ADMIN principal enrolled (R388)? -/
def State.bootstrap (s : State) : Bool := !(s.principals.any fun p => p.2.role == 1)

/-- MGMT_CONNECT (R388, R53): the handshake completes when the client's leaf digest names a principal of role 1 to 3, or in
bootstrap; a 17th connection is refused.  The ROM brings the management port up not at all (R404), and without ETH_REFCLK0 it is down
(R448). -/
def execMGMT_CONNECT (c : Nat) (cert : Bytes) (s : State) : Host.Outcome State Fault Refusal :=
  if !s.takesSlips || s.flag F.CXL_REFCLK_ETH0_LOST then .next s
  else if s.mgmt.length ≥ 16 || (tGet s.mgmt c).isSome then .next (s.bump F.SEC_CNT_MGMT_REFUSED_COUNT)
  else match s.principals.find? (fun p => p.2.digest == cert && 1 ≤ p.2.role && p.2.role ≤ 3) with
    | some p => .next { s with mgmt := tPut s.mgmt c { principal := p.1, role := p.2.role } }
    | none =>
      if s.bootstrap then .next { s with mgmt := tPut s.mgmt c { principal := 64, role := 0 } }
      else .next (s.bump F.SEC_CNT_MGMT_REFUSED_COUNT)

/-- What the Rind issues while its cores are reset waits until the reset is over (R368). -/
def State.rindLater (s : State) (i : RindAct) : State := { s with sec := { s.sec with rindWaiting := s.sec.rindWaiting ++ [i] } }

/-- RIND_SLIP (R53): the Rind submits a slip on its internal queue. -/
def execRIND_SLIP (o : OpSlip) (s : State) : Host.Outcome State Fault Refusal :=
  if s.tick < s.sec.rindUntil then .next (s.rindLater (.slip o))
  else .next (s.arrive { o with slip := { o.slip with src := .rind } })

end Sys2Proof.Machine
end

