-- ==== Sys2Proof/Machine/Sched.lean ====
section
/-!
DEFINITION. The scheduling commands (Table 9.10): tenants, shapers and policers; ring doorbells, enabling and push failures
(R228-R233); the SCHED register events and histograms (R244-R247, R251).
-/

namespace Sys2Proof.Machine

/-! ## Tenants (R235, R245, R250) -/

/-- Two's complement in `n` bits. -/
def twos (n : Nat) (v : Int) : Nat := (v % (2 ^ n : Nat)).toNat

/-- Write a tenant's RATE and BURST, LEVEL kept and clamped, then re-baselined; the tenant is provisioned (R42, R235). -/
def State.setBudget (s : State) (t rate burst : Nat) : State :=
  s.updTenant t fun v =>
    let v := v.refillBudget s.tick
    let cap : Int := (256 * burst : Nat)
    let lvl := if rate == 0xFFFFFFFF then cap else min v.budget.level cap
    { v with provisioned := true,
             budget := { rate := rate, burst := burst, level := lvl, stamp := s.tick, carry := 0 } }.rebase

/-- Set a tenant's LEVEL: 1 full, 2 empty (0); anything else keeps it.  A budget without limit stays full (R235). -/
def State.setLevel (s : State) (t how : Nat) : State :=
  s.updTenant t fun v =>
    let v := v.refillBudget s.tick
    let cap : Int := (256 * v.budget.burst : Nat)
    if how == 1 || (how == 2 && v.budget.rate == 0xFFFFFFFF) then { v with budget := { v.budget with level := cap, carry := 0 } }.rebase
    else if how == 2 then { v with budget := { v.budget with level := 0, carry := 0 } }.rebase
    else v

/-- Write a tenant's policer (R245): FILL 0 full, 1 empty; the tenant is provisioned. -/
def State.setPolicer (s : State) (t rate burst : Nat) (empty : Bool) : State :=
  s.updTenant t fun v =>
    { v with provisioned := true,
             policer := { rate := rate, burst := burst, level := if empty && rate != 0xFFFFFFFF then 0 else (burst : Nat), stamp := s.tick, carry := 0 } }

/-- SCHED_SET_TENANT (R235). -/
def execSCHED_SET_TENANT (x : Slip) (s : State) : Host.Outcome State Fault Refusal :=
  runSlip Op.SCHED_SET_TENANT x s fun s =>
    if x.acc != 0 then .no s St.RESERVED_NONZERO 0x10
    else match badParam x [w32, w32, 0x3FFFF, 0, 0, 0] with
      | some k => .no s St.BAD_PARAM k
      | none =>
        if x.P1 == 0 || x.P1 > 2 ^ 31 then .no s St.BAD_PARAM 1
        else if bitsOf x.P2 15 0 == 0 || bitsOf x.P2 17 16 == 3 then .no s St.BAD_PARAM 2
        else
          let s := (s.setBudget x.ten x.P0 x.P1).updTenant x.ten (fun v => { v with weight := bitsOf x.P2 15 0 })
          let s := s.setLevel x.ten (bitsOf x.P2 17 16)
          .done s (Answer.ok (twos 64 (s.level x.ten)))

/-- Sessions of a tenant queued under R239 (ELIGIBLE). -/
def State.eligible (s : State) (t : Nat) : Nat := ((s.sched.decode ++ s.sched.prefill).filter (fun q => q.tenant == t)).length

/-- SCHED_QUERY_TENANT (R250). -/
def execSCHED_QUERY_TENANT (x : Slip) (s : State) : Host.Outcome State Fault Refusal :=
  runSlip Op.SCHED_QUERY_TENANT x s fun s =>
    if x.acc != 0 then .no s St.RESERVED_NONZERO 0x10
    else match badParam x [0, 0, 0, 0, w32, w32] with
      | some k => .no s St.BAD_PARAM k
      | none =>
        let s := s.updTenant x.ten (fun v => v.refillBudget s.tick)
        let v := s.tenant x.ten
        let body := leBytes 4 v.budget.rate ++ leBytes 4 v.budget.burst ++ leBytes 2 v.weight ++ leBytes 2 v.policer.burst
          ++ leBytes 4 v.policer.rate ++ leBytes 8 (twos 64 v.budget.level) ++ leBytes 8 v.finish
          ++ leBytes 4 (s.eligible x.ten) ++ leBytes 4 v.drops ++ leBytes 8 0
        .done s (Answer.ok 0 0 (structure0 0x2401 body))

/-- SCHED_SET_POLICER (R245). -/
def execSCHED_SET_POLICER (x : Slip) (s : State) : Host.Outcome State Fault Refusal :=
  runSlip Op.SCHED_SET_POLICER x s fun s =>
    if x.acc != 0 then .no s St.RESERVED_NONZERO 0x10
    else match badParam x [w32, 0xFFFF, 1, 0, 0, 0] with
      | some k => .no s St.BAD_PARAM k
      | none =>
        if x.P1 == 0 then .no s St.BAD_PARAM 1
        else .done (s.setPolicer x.ten x.P0 x.P1 (bitOf x.P2 0)) (Answer.ok 0)

/-- The tenant SCHED_TEN_SEL names. -/
def State.selTenant (s : State) : Nat := s.fld F.SCHED_TEN_SEL_TENANT

/-- SCHED_TEN_BUDGET_WRITE (R251): RATE and BURST as the slip writes them; a BURST out of range is ignored and counted. -/
def execSCHED_TEN_BUDGET_WRITE (value : Word) (s : State) : Host.Outcome State Fault Refusal :=
  let burst := F.SCHED_TEN_BUDGET_BURST.get value
  if burst == 0 || burst > 2 ^ 31 then .next s.regAccErr
  else .next (s.setBudget s.selTenant (F.SCHED_TEN_BUDGET_RATE.get value) burst)

/-- A write of SCHED_TEN_CTRL (R251, R245): WEIGHT, LEVEL_SET and POL_SET; a reserved value is ignored in full and counted
(R17); any other write provisions the tenant. -/
def State.writeTenCtrl (s : State) (value : Word) : State :=
  let w := F.SCHED_TEN_CTRL_WEIGHT.get value
  let l := F.SCHED_TEN_CTRL_LEVEL_SET.get value
  let p := F.SCHED_TEN_CTRL_POL_SET.get value
  let t := s.selTenant
  if w == 0 || l == 3 || p == 3 then s.regAccErr
  else
    let s := s.updTenant t (fun v => { v with provisioned := true, weight := w })
    let s := s.setLevel t l
    let v := s.tenant t
    if p == 0 then s else s.setPolicer t v.policer.rate v.policer.burst (p == 2)

/-- LEVEL_SET (R251): SCHED_TEN_CTRL written to set LEVEL full or empty. -/
def execLEVEL_SET (value : Word) (s : State) : Host.Outcome State Fault Refusal := .next (s.writeTenCtrl value)

/-- POL_SET (R245): SCHED_TEN_CTRL written to set the policer full or empty. -/
def execPOL_SET (value : Word) (s : State) : Host.Outcome State Fault Refusal := .next (s.writeTenCtrl value)

/-- SCHED_TEN_POLICE_WRITE (R245): the policer is configured and filled; a BURST of 0 is ignored in full and counted. -/
def execSCHED_TEN_POLICE_WRITE (value : Word) (s : State) : Host.Outcome State Fault Refusal :=
  let burst := F.SCHED_TEN_POLICE_BURST.get value
  if burst == 0 then .next s.regAccErr
  else .next (s.setPolicer s.selTenant (F.SCHED_TEN_POLICE_RATE.get value) burst false)

/-! ## Shapers (R243, R244) -/

/-- Key of a shaper. -/
def shaperKey (kind index : Nat) : Nat := kind * 4096 + index

/-- A shaper at reset (Table 9.7). -/
def Shaper.fresh (kind index : Nat) : Shaper :=
  let rate := if kind == 1 && index % 8 == 7 then 40000 else if kind == 1 && index % 8 == 6 then 80000 else 0
  { enable := rate != 0, overhead := if kind ≤ 1 then 20 else 0, bucket := { rate := rate, burst := 1024, level := 0, stamp := 0, carry := 0 } }

/-- A shaper as configured. -/
def State.shaper (s : State) (kind index : Nat) : Shaper := (tGet s.shapers (shaperKey kind index)).getD (Shaper.fresh kind index)

/-- A shaper refilled to now: RATE × 125,000 bytes per second, capped at 64 × BURST (R243). -/
def Shaper.refill (h : Shaper) (now : Nat) : Shaper := { h with bucket := h.bucket.refill false 64 125000 now }

/-- Configure a shaper (R244): LEVEL is set by FILL, 0 full and 1 empty; a disabled shaper keeps no LEVEL. -/
def State.setShaper (s : State) (kind index rate burst overhead : Nat) (enable empty : Bool) : State :=
  let lvl : Int := if empty || !enable then 0 else (64 * burst : Nat)
  let b : Bucket := { rate := rate, burst := burst, level := lvl, stamp := s.tick, carry := 0 }
  let h : Shaper := { enable := enable, overhead := overhead, bucket := b }
  { s with shapers := tPut s.shapers (shaperKey kind index) h }

/-- A shaper's LEVEL now; a disabled one has none and reads 0. -/
def State.shaperLevel (s : State) (kind index : Nat) : Int :=
  let h := (s.shaper kind index).refill s.tick
  if h.enable then h.bucket.level else 0

/-- Ethernet ports of the variant (R21). -/
def State.portCount (s : State) : Nat := if s.variant == 0 then 8 else if s.variant == 1 then 6 else 4

/-- Largest index of a kind of shaper, plus 1 (Table 9.7). -/
def shaperCount (kind : Nat) : Nat := if kind == 0 then 8 else if kind == 1 then 64 else if kind == 2 then 4096 else 256

/-- SCHED_SET_SHAPER (R244). -/
def execSCHED_SET_SHAPER (x : Slip) (s : State) : Host.Outcome State Fault Refusal :=
  runSlip Op.SCHED_SET_SHAPER x s fun s =>
    let kind := bitsOf x.P0 1 0
    let index := bitsOf x.P0 27 16
    let burst := bitsOf x.P2 23 0
    if x.acc != 0 then .no s St.RESERVED_NONZERO 0x10
    else match badParam x [0x0FFF0003, 0xFFFFFF, 0xFFFFFF, 0x3FF, 0, 0] with
      | some k => .no s St.BAD_PARAM k
      | none =>
        if index ≥ shaperCount kind then .no s St.BAD_PARAM 0
        else if burst < 150 then .no s St.BAD_PARAM 2
        else if (kind == 0 && index ≥ s.portCount) || (kind == 1 && index / 8 ≥ s.portCount) then .no s St.ABSENT_RESOURCE
        else
          let s := s.setShaper kind index (bitsOf x.P1 23 0) burst (bitsOf x.P3 7 0) (bitOf x.P3 9) (bitOf x.P3 8)
          .done s (Answer.ok (twos 64 (s.shaperLevel kind index)))

/-- SCHED_SHP_CFG_WRITE (R244): the selected shaper is configured; a BURST below 150, or a selector that names none, is
ignored and counted. -/
def execSCHED_SHP_CFG_WRITE (value : Word) (s : State) : Host.Outcome State Fault Refusal :=
  let kind := s.fld F.SCHED_SHP_SEL_KIND
  let index := s.fld F.SCHED_SHP_SEL_INDEX
  let burst := F.SCHED_SHP_CFG_BURST.get value
  let absent : Bool := (kind == 0 && index ≥ s.portCount) || (kind == 1 && index / 8 ≥ s.portCount)
  if burst < 150 || index ≥ shaperCount kind || absent then .next s.regAccErr
  else .next (s.setShaper kind index (F.SCHED_SHP_CFG_RATE.get value) burst (F.SCHED_SHP_CFG_OVERHEAD.get value)
    (F.SCHED_SHP_CFG_ENABLE.get value == 1) (F.SCHED_SHP_CFG_FILL.get value == 1))

/-! ## Rings (R228, R231-R233) -/

/-- May CI move to `c`: between CI and PI, both inclusive, counting round the ring (R233)? -/
def Ring.ciOk (r : Ring) (c : Nat) : Bool := (c + 2 ^ 32 - r.ci) % 2 ^ 32 ≤ (r.pi + 2 ^ 32 - r.ci) % 2 ^ 32

/-- CI advances, and a held group may go (R233, R234). -/
def State.advanceCi (s : State) (n c : Nat) : State :=
  let r := s.ring n
  (s.setRing n { r with ci := c }).ringRoom n

/-- RING_CONSUMED (R233). -/
def execRING_CONSUMED (x : Slip) (s : State) : Host.Outcome State Fault Refusal :=
  runSlip Op.RING_CONSUMED x s fun s =>
    if x.acc != 0 then .no s St.RESERVED_NONZERO 0x10
    else match badParam x [0xFFFF, w32, 0, 0, 0, 0] with
      | some k => .no s St.BAD_PARAM k
      | none =>
        let r := s.ring x.P0
        if r.state == 0 then .no s St.BAD_PARAM 0
        else if r.tenant != x.ten then .no s St.TENANT_MISMATCH
        else if !r.ciOk x.P1 then .no s St.BAD_PARAM 1
        else
          let s := s.advanceCi x.P0 x.P1
          .done s (Answer.ok (s.ring x.P0).room)

/-- SCHED_RING_CI (R233): the consumer's doorbell; out of range, or for a ring that is not enabled, it is ignored and counted. -/
def execSCHED_RING_CI (value : Word) (s : State) : Host.Outcome State Fault Refusal :=
  let n := F.SCHED_RING_CI_RING.get value
  let c := F.SCHED_RING_CI_CI.get value
  let r := s.ring n
  if r.state == 0 || !r.ciOk c then .next s.regAccErr else .next (s.advanceCi n c)

/-- RING_PUSH_ERROR_REPLY (R232): class 0x2 asks for a retry 20 µs later, at most three times; anything worse, or the failure
of the last retry, puts the ring in ERROR. -/
def execRING_PUSH_ERROR_REPLY (ring first status : Nat) (s : State) : Host.Outcome State Fault Refusal :=
  let r := s.ring ring
  match r.pushes.find? (fun p => p.first == first) with
  | none => .next s
  | some p =>
    if statusClass status ≤ 1 then .next s
    else if statusClass status == 2 && p.retries < 3 then
      .next (s.setRing ring { r with pushes := r.pushes.map (fun (q : Push) => if q.first == first then { q with due := some (s.tick + 2000) } else q) })
    else .next (s.ringError ring)

/-- RING_PUSH_RETRY (R232): 20 µs after a class 0x2 reply the same records are sent again. -/
def execRING_PUSH_RETRY (ring first : Nat) (s : State) : Host.Outcome State Fault Refusal :=
  let r := s.ring ring
  match r.pushes.find? (fun p => p.first == first) with
  | none => .next s
  | some p =>
    let ready : Bool := match p.due with | some d => decide (d ≤ s.tick) | none => false
    if r.state == 1 && ready then
      let ps := r.pushes.map (fun (q : Push) => if q.first == first then { q with retries := q.retries + 1, due := none } else q)
      .next ((s.setRing ring { r with pushes := ps }).sendPush ring first p.recs)
    else .next s

/-- RING_IRQ_GAP_END (R231): the gap of a vector has ended and the message held back is sent. -/
def execRING_IRQ_GAP_END (vec : Nat) (s : State) : Host.Outcome State Fault Refusal :=
  let due : Bool := match tGet s.ringVec vec with | some t => decide (t + s.fld F.SCHED_CTRL_IRQ_GAP_US * 100 ≤ s.tick) | none => true
  if due && s.ringOwed.contains vec then
    .next ({ s with ringOwed := s.ringOwed.filter (· != vec), ringVec := tPut s.ringVec vec s.tick }.sendMsix vec)
  else .next s

/-- HOST_RING_WRITE_ERROR (R228): a host memory write of a host ring completes with error; the ring enters ERROR. -/
def execHOST_RING_WRITE_ERROR (ring : Nat) (s : State) : Host.Outcome State Fault Refusal :=
  if (s.ring ring).network then .next s else .next (s.ringError ring)

/-- The ring SCHED_RING_SEL names. -/
def State.selRing (s : State) : Nat := s.fld F.SCHED_RING_SEL_RING

/-- A ring with the configuration a word of SCHED_RING_CFG carries. -/
def Ring.withCfg (r : Ring) (w : Word) : Ring :=
  { r with network := F.SCHED_RING_CFG_NETWORK.get w == 1, irqEn := F.SCHED_RING_CFG_IRQ_EN.get w == 1,
           vec := F.SCHED_RING_CFG_MSIX_VEC.get w, peer := F.SCHED_RING_CFG_PEER.get w,
           logSize := F.SCHED_RING_CFG_LOG2_SIZE.get w, tenant := F.SCHED_RING_CFG_TENANT.get w }

/-- Is a ring's configuration valid (R228)? -/
def State.ringValid (s : State) (r : Ring) : Bool :=
  r.tenant ≤ 0xFFF && 3 ≤ r.logSize && r.logSize ≤ (if r.network then 16 else 20)
    && (if r.network then s.pushPeerOk r
        else r.mirror != 0 && r.base + 64 * 2 ^ r.logSize ≤ 2 ^ 64 && r.mirror + 8 ≤ 2 ^ 64)

/-- A ring in ERROR is enabled again (Table 9.1): CI is set to PI, and a RESYNC record, which carries the session's
TRANSCRIPT_LENGTH, is written first; then the group held for it (R234), which the new ledger counts as made (log entry 92). -/
def State.resync (s : State) (n : Nat) : State :=
  let r := s.ring n
  let (acc, pos) := match r.owner with | some i => ((s.sess i).accession, (s.sess i).tlen) | none => (0, 0)
  let s := s.setRing n { r with state := 1, ci := r.pi, pushes := [], batch := [],
                                made := s.ringHolds n, groups := 0, discarded := 0, written := 0 }
  let s := s.writeRecord n (ringRecord { accession := acc, token := none, control := false, position := pos, stopTail := false,
                                         toolCall := false, resync := true, reason := 0, detail := 0 } [] false)
  let s := s.bump F.SCHED_CNT_RESYNC_COUNT
  let r := s.ring n
  let s := if r.network then s.flushRing n else (s.writePi n).ringIrq n
  s.ringRoom n

/-- RING_ENABLE (R228): SCHED_RING_CFG written with ENABLE 1.  While ENABLE is 1 a change of the other fields is ignored and
counted. -/
def execRING_ENABLE (value : Word) (s : State) : Host.Outcome State Fault Refusal :=
  let n := s.selRing
  let r := s.ring n
  let r1 := r.withCfg value
  if r.state == 0 then
    if s.ringValid r1 && s.hostReady then
      let s := { s with sec := { s.sec with hostUsed := true } }
      .next (s.setRing n { r1 with state := 1, pi := 0, ci := 0, batch := [], pushes := [],
                                   made := 0, groups := 0, discarded := 0, written := 0, conf := s.provCtr })
    else .next s.regAccErr
  else
    let s := if r1 = r then s else s.regAccErr
    if r.state == 2 then .next (s.resync n) else .next s

/-- RING_DISABLE (R228): SCHED_RING_CFG written with ENABLE 0.  Ignored and counted while a session is attached; a DISABLED
ring takes the fields. -/
def execRING_DISABLE (value : Word) (s : State) : Host.Outcome State Fault Refusal :=
  let n := s.selRing
  let r := s.ring n
  if r.state == 0 then .next (s.setRing n (r.withCfg value))
  else if r.owner.isSome then .next s.regAccErr
  else
    let s := if r.withCfg value = r then s else s.regAccErr
    .next (s.setRing n { r with state := 0, pushes := [], batch := [] })

/-! ## Queue observation (R246, R247) -/

/-- Is a queue ID one of Table 9.8? -/
def observed (q : Nat) : Bool := q ≤ 7 || (16 ≤ q && q < 80) || (4096 ≤ q && q < 8192)

/-- Bin `b` of a queue as SCHED_HIST_DATA shows it: 0-15 depth, 16-31 delay. -/
def State.histBin (s : State) (q b : Nat) : Nat :=
  let h := s.hist q
  if !observed q then 0
  else if b == 0 then s.histSamples - h.from_ - (h.depth.map (·.2)).foldl (· + ·) 0
  else if b < 16 then (tGet h.depth b).getD 0
  else (tGet h.delay (b - 16)).getD 0

/-- Depth of a queue (Table 9.8); slips pass from queues 3 and 4 to acceptance, and groups from queue 7 into their ring, within the
happening that brings them, so that these are empty at every sample (log entry 87). -/
def State.queueDepth (s : State) (q : Nat) : Nat :=
  if q ≤ 2 then s.readyDepth q
  else if q == 3 || q == 4 || q == 7 then 0
  else if q == 5 then s.sched.decode.length
  else if q == 6 then s.sched.prefill.length
  else if q < 80 then ((s.port ((q - 16) / 8)).queue.filter (fun f => f.cls == (q - 16) % 8)).length
  else (s.ports.map (fun p => (p.2.queue.filter (fun f => f.peer == q - 4096)).length)).foldl (· + ·) 0

/-- Queues of the state that may hold something now. -/
def State.busyQueues (s : State) : List Nat :=
  [0, 1, 2, 5, 6] ++ (s.ports.flatMap (fun (p : Nat × Port) => p.2.queue.flatMap (fun f => [16 + 8 * p.1 + f.cls, 4096 + f.peer]))).eraseDups

/-- HIST_SAMPLE (R246): SAMPLE_US has passed; the depth of every queue is sampled.  Queues 3, 4 and 7 are empty between the model's
commands, so that `seen` gives what stood in them at that instant (log entry 87). -/
def execHIST_SAMPLE (seen : List Nat) (s : State) : Host.Outcome State Fault Refusal :=
  let s := s.busyQueues.foldl (fun s q => s.depthSample q (s.queueDepth q)) s
  let s := ([3, 4, 7].zip seen).foldl (fun (s : State) (o : Nat × Nat) => s.depthSample o.1 o.2) s
  .next { s with histSamples := s.histSamples + 1 }

/-- A queue's histograms cleared: every bin is 0; whether a delay was added since the last sample stays. -/
def State.cleared (s : State) (q : Nat) : Hist := { from_ := s.histSamples, depth := [], delay := [], last := (s.hist q).last }

/-- Every histogram is cleared. -/
def State.clearHists (s : State) : State :=
  { s with hists := s.hists.map (fun (h : Nat × Hist) => (h.1, s.cleared h.1)), histBase := s.histSamples }

/-- HIST_CLR (R246): SCHED_CTRL.HIST_CLR clears every histogram. -/
def execHIST_CLR (s : State) : Host.Outcome State Fault Refusal := .next s.clearHists

/-- A write of SCHED_HIST_SEL with CLR set clears the queue it selects (R251). -/
def State.clearHist (s : State) (q : Nat) : State := { s with hists := tPut s.hists q (s.cleared q) }

/-- HIST_QUEUE_CLR (R251): SCHED_HIST_SEL.CLR clears the selected queue's bins; the write also selects. -/
def execHIST_QUEUE_CLR (value : Word) (s : State) : Host.Outcome State Fault Refusal :=
  let q := F.SCHED_HIST_SEL_QUEUE.get value
  .next ((s.setFld F.SCHED_HIST_SEL_QUEUE q).clearHist q)

/-- HWM_CLR (R247): the high-water marks are cleared. -/
def execHWM_CLR (s : State) : Host.Outcome State Fault Refusal :=
  .next ([0, 1, 2].foldl (fun s q => s.setReg (A.SCHED_HWM + 8 * q) 0) s)

end Sys2Proof.Machine
end

