-- ==== Sys2Proof/Machine/Network.lean ====
section
/-!
DEFINITION. The Praol transport's packets and timers (R273-R283, R465), handshakes (R382-R384), PFC, link changes and the
frames a port answers itself (R268-R272), and the egress scheduler (R241-R244).
-/

namespace Sys2Proof.Machine

/-- Is the sub-port (port × 4 + sub) there and up?  Nothing arrives by one that is not. -/
def State.linkUp (s : State) (k : Nat) : Bool := k < 32 && (s.port (k / 4)).subUp (k % 4)

/-- A Praol packet of a context's key arrives: counted; dropped unless the context is OPEN or DRAINING and the packet
authenticates with its reserved fields 0 (R274); else the context has heard from its peer there. -/
def State.hear (s : State) (p sub : Nat) (auth : Bool) : State × Bool :=
  let s := s.bump F.NET_CNT_RX_COUNT
  let v := s.peer p
  if !(v.state == 2 || v.state == 3) then (s.bump F.NET_CNT_DROPPED_COUNT, false)
  else if !auth then (s.bump F.NET_CNT_AUTH_FAIL_COUNT, false)
  else (s.setPeer p { v with rx := { v.rx with heard := s.tick, sub := sub } }, true)

/-! ## Receiving DATA (R275, R276, R279, R280) -/

/-- Credit units a context may still have in the buffer or on their way: granted less released. -/
def PeerRx.out (r : PeerRx) : Nat := r.granted - (r.seen - r.held)

/-- Units a context may have outstanding now: the guaranteed 4, and of the shared rest what others do not hold, up to
CREDIT_MAX (R279). -/
def State.creditWindow (s : State) (p : Nat) : Nat :=
  let open_ := s.peers.filter (fun q => q.2.state == 2 || q.2.state == 3)
  let others := ((open_.filter (fun q => q.1 != p)).map (fun q => q.2.rx.out - 4)).foldl (· + ·) 0
  4 + min (s.fld F.NET_CREDIT_CREDIT_MAX - 4) (32768 - 4 * open_.length - others)

/-- SACK: bit i, PSN CUM + 1 + i received (Table 11.4). -/
def sackBits (cum : Nat) (got : List Nat) : Nat :=
  ((List.range 64).map (fun i => if got.contains ((cum + 1 + i) % 2 ^ 32) then 2 ^ i else 0)).foldl (· + ·) 0

/-- Send an ACK: CUM_PSN, the credit limit raised as messages have left the buffer, SACK (R276, R279). -/
def State.sendAck (s : State) (p : Nat) : State :=
  let v := s.peer p
  let granted := max v.rx.granted (v.rx.seen - v.rx.held + s.creditWindow p)
  (s.setPeer p { v with rx := { v.rx with granted := granted, unacked := 0 } }).sendControl p 1
    (leBytes 4 v.rx.expect ++ leBytes 4 (granted % 2 ^ 32) ++ leBytes 8 (sackBits v.rx.expect v.rx.got))

/-- The slip a message's bytes spell: header, then payload (Table 2.1); bytes past the end read 0. -/
def parseSlip (src : Ctx) (b : Bytes) : OpSlip :=
  let w (o : Nat) := BitVec.ofNat 32 (rdLe b o 4)
  { op := BitVec.ofNat 16 (rdLe b 2 2)
    slip :=
      { src := src, version := BitVec.ofNat 8 (rdLe b 0 1), hlen := BitVec.ofNat 8 (rdLe b 1 1)
        flags := BitVec.ofNat 16 (rdLe b 4 2), tenant := BitVec.ofNat 16 (rdLe b 6 2), tag := w 8, epoch := w 12
        accession := BitVec.ofNat 64 (rdLe b 16 8), plen := w 24, ploc := w 28
        p0 := w 32, p1 := w 36, p2 := w 40, p3 := w 44, p4 := w 48, p5 := w 52, rsvd := w 56, hcrc := w 60
        payload := b.drop 64 } }

/-- A complete message leaves the buffer: a slip goes to acceptance; a reply (HLEN 4, Table 2.3) is its own command's; a message too
short for the header it would be is dropped and counted (R53). -/
def State.passMessage (s : State) (p : Nat) (b : Bytes) : State :=
  if rdLe b 1 1 == 4 && 32 ≤ b.length then s
  else if b.length < 64 then s.bump F.NET_CNT_DROPPED_COUNT
  else (s.dequeued 4 s.tick).arrive (parseSlip (.peer p) b)

/-- Pass complete messages on in MSG_ID order; `fuel` bounds them. -/
def State.passMessages (p : Nat) : Nat → State → State
  | 0, s => s
  | fuel + 1, s =>
    let v := s.peer p
    match v.rx.complete.find? (fun m => m.1 == v.rx.msgId) with
    | none => s
    | some m =>
      let rx := { v.rx with msgId := (v.rx.msgId + 1) % 2 ^ 32, held := v.rx.held - m.2.1,
                            complete := v.rx.complete.filter (fun c => c.1 != m.1) }
      State.passMessages p fuel ((s.setPeer p { v with rx := rx }).passMessage p m.2.2)

/-- The next PSN expected once `got` is in, and the later ones still apart. -/
def advancePsn : Nat → Nat → List Nat → Nat × List Nat
  | 0, e, got => (e, got)
  | fuel + 1, e, got => if got.contains e then advancePsn fuel ((e + 1) % 2 ^ 32) (got.filter (· != e)) else (e, got)

/-- Is PSN `a` before PSN `b` in sequence? -/
def psnBefore (a b : Nat) : Bool := (b + 2 ^ 32 - a) % 2 ^ 32 != 0 && (b + 2 ^ 32 - a) % 2 ^ 32 < 2 ^ 31

/-- Place a packet's payload by OFFSET (R275), and collect the message when it is whole. -/
def PeerRx.place (r : PeerRx) (k : Pkt) : PeerRx :=
  let old := (r.parts.find? (fun m => m.msgId == k.msgId)).getD { msgId := k.msgId, len := k.msgLen, pieces := [] }
  let m := { old with pieces := tPut old.pieces k.offset k.payload }
  let rest := r.parts.filter (fun m => m.msgId != k.msgId)
  let u := creditUnits k.payload.length
  let got := advancePsn (r.got.length + 1) r.expect (k.psn :: r.got)
  let r := { r with expect := got.1, got := got.2, seen := r.seen + u, held := r.held + u }
  if ((m.pieces.map (fun x => x.2.length)).foldl (· + ·) 0) ≥ m.len then
    let units := (m.pieces.map (fun x => creditUnits x.2.length)).foldl (· + ·) 0
    { r with parts := rest, complete := r.complete ++ [(m.msgId, units, (m.pieces.flatMap (·.2)).take m.len)] }
  else { r with parts := rest ++ [m] }

/-- A CNP goes out for a DATA packet that met congestion, at most once per CNP_GAP (R280). -/
def State.noteCe (s : State) (p : Nat) : State :=
  let s := s.bump F.NET_CNT_CE_COUNT
  let v := s.peer p
  let due : Bool := match v.rx.cnp with
    | none => true
    | some t => decide (s.tick - t ≥ s.fld F.NET_CC_CNP_GAP * 100)
  if due then ((s.setPeer p { v with rx := { v.rx with cnp := some s.tick } }).sendControl p 2 []).bump F.NET_CNT_CNP_TX_COUNT
  else s

/-- A DATA packet has been received, new or again: an ACK after every 16, the delay timer from the first (R276). -/
def State.countData (s : State) (p : Nat) : State :=
  let v := s.peer p
  let s := s.setPeer p { v with rx := { v.rx with unacked := v.rx.unacked + 1,
                                                   ackSince := if v.rx.unacked == 0 then s.tick else v.rx.ackSince } }
  if v.rx.unacked + 1 ≥ 16 then s.sendAck p else s

/-- PRAOL_DATA (R275, R276, R279): a DATA packet of context DST_CTX arrives by a sub-port, with or without ECN CE; `auth`: it
authenticates and its reserved fields are 0.  A message longer than R275 allows is dropped. -/
def execPRAOL_DATA (sub : Nat) (ce auth : Bool) (k : Pkt) (s : State) : Host.Outcome State Fault Refusal :=
  if !s.linkUp sub then .next s
  else
    let p := k.dst
    let h := s.hear p sub auth
    let s := h.1
    if !h.2 then .next s
    else if k.msgLen == 0 || k.msgLen > 1048576 || k.offset + k.payload.length > k.msgLen then .next (s.bump F.NET_CNT_DROPPED_COUNT)
    else
      let v := s.peer p
      if psnBefore k.psn v.rx.expect || v.rx.got.contains k.psn then
        .next ((if ce then s.noteCe p else s).countData p)
      else if v.rx.seen + creditUnits k.payload.length > v.rx.granted then .next (s.bump F.NET_CNT_CREDIT_VIOL_COUNT)
      else
        let s := if ce then s.noteCe p else s
        let s := s.updPeer p fun v => { v with rx := v.rx.place k, idle := s.tick }
        let s := State.passMessages p ((s.peer p).rx.complete.length) s
        .next (s.countData p)

/-- ACK_DELAY_EXPIRY (R276). -/
def execACK_DELAY_EXPIRY (peer : Nat) (s : State) : Host.Outcome State Fault Refusal :=
  let v := s.peer peer
  if (v.state == 2 || v.state == 3) && v.rx.unacked != 0 && s.tick - v.rx.ackSince ≥ s.fld F.NET_REL_ACK_DELAY * 100 then
    .next (s.sendAck peer)
  else .next s

/-! ## Sending: acknowledgement and retransmission (R276, R277) -/

/-- Transmit a DATA packet again with RETX set, on a different sub-port where one qualifies (R277). -/
def State.resend (s : State) (p : Nat) (f : Flight) : State :=
  match s.spraySub f.pkt.cls (some f.sub) with
  | none => s
  | some sub =>
    let tenant := match (s.peer p).tx.msgs.find? (fun m => m.1 == f.pkt.msgId) with | some m => m.2.tenant | none => 0xFFFF
    let s := s.updPeer p fun v => { v with tx := { v.tx with flight := v.tx.flight.map (fun g =>
      if g.pkt.psn == f.pkt.psn then { g with sent := s.tick, sub := sub } else g) } }
    ((({ s with spray := (sub + 1) % 32 }).sendPkt (sub / 4) (sub % 4) p tenant { f.pkt with retx := true }).bump F.NET_CNT_RETX_COUNT).traceEv 6 0 0 p 0 0

/-- Does an ACK report a PSN received? -/
def acked (cum sack psn : Nat) : Bool :=
  psnBefore psn cum || ((psn + 2 ^ 33 - cum - 1) % 2 ^ 32 < 64 && sack.testBit ((psn + 2 ^ 33 - cum - 1) % 2 ^ 32))

/-- PSNs after a given one that an ACK's SACK reports received. -/
def laterReported (cum sack psn : Nat) : Nat :=
  ((List.range 64).filter (fun i => sack.testBit i && psnBefore psn ((cum + 1 + i) % 2 ^ 32))).length

/-- Packets of the flight an ACK leaves unreported that REORDER_THRESH later ones have passed, not retransmitted for it before (R277). -/
def PeerTx.late (t : PeerTx) (cum sack thresh : Nat) : List Flight :=
  t.flight.filter (fun f => !acked cum sack f.pkt.psn && !f.fast && laterReported cum sack f.pkt.psn ≥ thresh)

/-- The sending side after an ACK (R276, R277, R279): CUM_PSN and CREDIT_LIMIT rise, RTO returns to RTO_INIT when CUM_PSN advances, what
is reported leaves the flight, and with its last packet a message is done. -/
def PeerTx.ack (t : PeerTx) (cum limit sack thresh rtoInit : Nat) : PeerTx :=
  let adv := psnBefore t.cum cum
  let late := t.late cum sack thresh
  let flight := t.flight.filter (fun f => !acked cum sack f.pkt.psn)
  let rise := (limit + 2 ^ 32 - t.limit % 2 ^ 32) % 2 ^ 32
  { t with
    cum := if adv then cum else t.cum
    rto := if adv then rtoInit else t.rto
    timeouts := if adv then 0 else t.timeouts
    flight := flight.map (fun (f : Flight) => if late.any (fun g => g.pkt.psn == f.pkt.psn) then { f with fast := true } else f)
    msgs := t.msgs.filter (fun m => flight.any (fun f => f.pkt.msgId == m.1) || t.queue.any (fun k => k.msgId == m.1))
    limit := if rise < 2 ^ 31 then t.limit + rise else t.limit }

/-- PRAOL_ACK (R276, R277, R279): what it reports leaves the flight, RTO returns to RTO_INIT when CUM_PSN advances, packets
REORDER_THRESH behind are retransmitted once, the credit limit rises, and what it allows is sent. -/
def execPRAOL_ACK (peer sub : Nat) (auth : Bool) (cum limit sack : Nat) (s : State) : Host.Outcome State Fault Refusal :=
  if !s.linkUp sub then .next s
  else
    let h := s.hear peer sub auth
    let s := h.1
    if !h.2 then .next s
    else
      let v := s.peer peer
      let late := v.tx.late cum sack (s.fld F.NET_REL_REORDER_THRESH)
      let s := s.setPeer peer { v with tx := v.tx.ack cum limit sack (s.fld F.NET_REL_REORDER_THRESH) (s.fld F.NET_REL_RTO_INIT) }
      .next ((late.foldl (fun s f => s.resend peer f) s).pump peer)

/-- The registrars, ascending. -/
def Cat.registrars (c : Cat) : List Nat := (c.devices.filter (fun d => d.2.registrar)).map (·.1)

/-- This device is a member: it has a composition device ID (R67). -/
def State.member (s : State) : Bool := s.flag F.DEV_DEVID_VALID

/-- This device is a registrar. -/
def State.registrar (s : State) : Bool := s.member && s.cat.registrars.contains s.devId

/-- Probe a context on every sub-port that is up (R296). -/
def State.probeAll (s : State) (p : Nat) : State :=
  ((List.range 32).filter s.linkUp).foldl (fun (s : State) k =>
    s.sendPkt (k / 4) (k % 4) p 0xFFFF
      { type := 6, first := false, last := false, retx := false, cls := 6, dst := p, src := p, psn := 0, msgId := 0, offset := 0,
        msgLen := 0, keygen := 0, txc := 0, payload := [] }) s

/-- Every link to a member has failed (R296): a registrar suspects it and probes it on every sub-port, another member reports it to a
registrar. -/
def State.reportLost (s : State) (dev : Nat) : State :=
  if !s.member || dev == s.devId || !(s.devState dev == 1 || s.devState dev == 2) then s
  else if s.registrar then
    let s := s.updCat fun c => { c with suspects := if c.suspects.any (fun z => z.1 == dev) then c.suspects else c.suspects ++ [(dev, s.tick)] }
    match s.reach dev with | some (p, s) => s.probeAll p | none => s
  else match s.cat.registrars.find? (· != dev) with
    | some r => s.sendDev r Op.CAT_LEAVE 0 0xFFFF [2, dev] []
    | none => s

/-- A context FAILED (Table 11.5): counted, and at once CLOSED; packets to its peer have then gone unanswered on every sub-port. -/
def State.failPeer (s : State) (p : Nat) : State :=
  let s1 := (s.bump F.NET_CNT_CTX_FAIL_COUNT).closePeer p
  if (s.peer p).kind == 2 && (s.peer p).valid then s1.reportLost (s.peer p).dev else s1

/-- RTO_EXPIRY (R277): RTO has passed since a packet's last transmission. -/
def execRTO_EXPIRY (peer psn : Nat) (s : State) : Host.Outcome State Fault Refusal :=
  let v := s.peer peer
  if !(v.state == 2 || v.state == 3) then .next s
  else match v.tx.flight.find? (fun f => f.pkt.psn == psn) with
    | none => .next s
    | some f =>
      if s.tick - f.sent < v.tx.rto * 100 then .next s
      else
        let s := s.bump F.NET_CNT_RTO_COUNT
        if v.tx.timeouts + 1 ≥ s.fld F.NET_REL_RETX_MAX then .next (s.failPeer peer)
        else
          let rto := min (s.fld F.NET_REL_RTO_MAX) (max (s.fld F.NET_REL_RTO_MIN) (2 * v.tx.rto))
          let tx := { v.tx with rto := rto, timeouts := v.tx.timeouts + 1,
                                flight := v.tx.flight.map (fun (g : Flight) => if g.pkt.psn == psn then { g with sent := s.tick } else g) }
          .next ((s.setPeer peer { v with tx := tx }).resend peer f)

/-! ## Rate control (R280) -/

/-- PRAOL_CNP (R280): the rate is cut by a quarter, at most once per CC_TIMER, and the step returns to STEP_MIN. -/
def execPRAOL_CNP (peer sub : Nat) (auth : Bool) (s : State) : Host.Outcome State Fault Refusal :=
  if !s.linkUp sub then .next s
  else
    let h := s.hear peer sub auth
    let s := h.1
    if !h.2 then .next s
    else
      let s := s.bump F.NET_CNT_CNP_RX_COUNT
      let v := s.peer peer
      let cut : Bool := match v.tx.lastCut with
        | none => true
        | some t => decide (s.tick - t ≥ s.fld F.NET_CC_CC_TIMER * 100)
      let tx := if cut then { v.tx with ceiling := v.tx.rate, rate := max (s.fld F.NET_CC_RATE_MIN * 256) (v.tx.rate * 3 / 4),
                                        lastCut := some s.tick } else v.tx
      .next (s.setPeer peer { v with tx := { tx with step := s.fld F.NET_CC_STEP_MIN * 256, cnpSeen := true } })

/-- CC_PERIOD (R280): the end of a CC_TIMER period of a context. -/
def execCC_PERIOD (peer : Nat) (s : State) : Host.Outcome State Fault Refusal :=
  let v := s.peer peer
  if !(v.state == 2 || v.state == 3) then .next s
  else
    let t := v.tx
    let tx :=
      if t.cnpSeen then { t with cnpSeen := false }
      else if t.rate < t.ceiling then
        { t with rate := min t.ceiling (t.rate + (t.ceiling - t.rate) / 2 + s.fld F.NET_CC_STEP_MIN * 256) }
      else
        let r := min s.lineRate (t.rate + t.step)
        { t with rate := r, ceiling := r, step := min (s.fld F.NET_CC_STEP_MAX * 256) (2 * t.step) }
    .next (s.setPeer peer { v with tx := tx })

/-! ## Handshakes and the life of a context (R281, R282, R382-R384, R465) -/

/-- Is a peer's chain accepted for a kind and tenant (R384)?  It verifies to an ANCHOR principal of that scope; kinds bound to
no tenant need one of every tenant. -/
def State.anchored (s : State) (h : Shake) (kind tenant : Nat) : Bool :=
  h.genuine && match h.anchor with
    | none => false
    | some i => match tGet s.principals i with
      | none => false
      | some a => a.role == 6 && a.kinds.testBit kind && (a.tenant == 0xFFFF || (kind == 0 && a.tenant == tenant))

/-- The device ID the catalogue gives for an address. -/
def State.devAt (s : State) (lo hi : Nat) : Option Nat :=
  let a := leBytes 8 lo ++ leBytes 8 hi
  (s.cat.devices.find? (fun d => d.2.state != 0 && d.2.state != 4 && d.2.address == a)).map (·.1)

/-- A context opens (R276, R279, R280): PSNs as agreed, rate and ceiling LINE, step STEP_MIN. -/
def State.opened (s : State) (p : Nat) (h : Shake) : State :=
  s.updPeer p fun v =>
    { v with state := 2, since := s.tick, remote := h.src, leaf := h.leaf, idle := s.tick,
             tx := { v.tx with rate := s.lineRate, ceiling := s.lineRate, step := s.fld F.NET_CC_STEP_MIN * 256,
                               rto := s.fld F.NET_REL_RTO_INIT },
             rx := { v.rx with expect := h.psn, heard := s.tick } }

/-- A handshake is refused: counted (R384). -/
def State.shakeRefused (s : State) : State := s.bump F.SEC_CNT_PEER_REFUSED_COUNT

/-- The device accepts an OPEN on a context: OPEN_ACK goes out and the context is OPEN. -/
def State.acceptOpen (s : State) (p sub : Nat) (h : Shake) : State :=
  let psn := Config.initPsn s.freeCtr % 2 ^ 32
  let s := { s with freeCtr := s.freeCtr + 1 }
  let s := s.updPeer p fun v => { v with remote := h.src, tx := { PeerTx.fresh with psn := psn, cum := psn }, rx := { PeerRx.fresh with sub := sub, heard := s.tick } }
  (s.sendControl p 4 (s.shake psn)).opened p h

/-- PRAOL_OPEN (R382, R384, R282): an OPEN from an address.  Front-end, gateway and weight peers need a provisioned context of
that kind and address; a YD or pool peer is the catalogue's device of that address, or no member yet (0xFFFFF), and takes a
context on demand.  An OPEN for a context that is not CLOSED is dropped. -/
def execPRAOL_OPEN (sub : Nat) (ipv4 : Bool) (lo hi port : Nat) (h : Shake) (s : State) : Host.Outcome State Fault Refusal :=
  if !s.linkUp sub then .next s
  else
    let s := s.bump F.NET_CNT_RX_COUNT
    if !s.flag F.NET_CTRL_OPEN_EN then .next s.shakeRefused
    else if h.kind == 2 || h.kind == 3 then
      let known : Bool := (h.dev == 0xFFFFF && h.kind == 2) || (s.devAt lo hi == some h.dev && h.dev != 0xFFFFF)
      if !known || !s.anchored h h.kind 0xFFFF then .next s.shakeRefused
      else
        let found := (s.peers.find? (fun q => q.2.valid && q.2.kind == h.kind && q.2.dev == h.dev && q.2.addrLo == lo && q.2.addrHi == hi)).map (·.1)
        match found with
        | some p => if (s.peer p).state == 0 then .next (s.acceptOpen p sub h) else .next (s.bump F.NET_CNT_DROPPED_COUNT)
        | none => match s.newCtx with
          | none => .next (s.bump F.NET_CNT_CTX_FULL_COUNT)
          | some p =>
            let s := if (s.peer p).state == 0 then s else s.closePeer p
            let s := s.setPeer p { Peer.fresh with valid := true, weight := (s.peer p).weight, kind := h.kind, ipv4 := ipv4, port := port, addrLo := lo, addrHi := hi, dev := h.dev }
            .next (s.acceptOpen p sub h)
    else
      match s.peers.find? (fun q => q.1 < 4096 && q.2.valid && q.2.kind == h.kind && q.2.ipv4 == ipv4 && q.2.addrLo == lo && q.2.addrHi == hi) with
      | none => .next s.shakeRefused
      | some q =>
        if !s.anchored h h.kind q.2.tenant then .next s.shakeRefused
        else if q.2.state == 0 then .next (s.acceptOpen q.1 sub h)
        else .next (s.bump F.NET_CNT_DROPPED_COUNT)

/-- An OPENING context returns to CLOSED: each waiting message fails towards its owner (R465). -/
def State.openFailed (s : State) (p : Nat) : State := s.closePeer p

/-- PRAOL_OPEN_ACK (R383, R384, R465): the handshake this device began completes, and waiting messages go; or it is refused.  A
device that is no member holds no map to compare a DEVICE_ID with. -/
def execPRAOL_OPEN_ACK (peer sub : Nat) (h : Shake) (s : State) : Host.Outcome State Fault Refusal :=
  if !s.linkUp sub then .next s
  else
    let s := s.bump F.NET_CNT_RX_COUNT
    let v := s.peer peer
    if v.state != 1 then .next (s.bump F.NET_CNT_DROPPED_COUNT)
    else
      let devOk : Bool := !(v.kind == 2 || v.kind == 3) || h.dev == 0xFFFFF || s.devAt v.addrLo v.addrHi == some h.dev
        || !s.flag F.DEV_DEVID_VALID
      if h.kind != v.kind || !devOk || !s.anchored h v.kind v.tenant then .next (s.shakeRefused.openFailed peer)
      else
        let waiting := v.tx.waiting
        let s := (s.setPeer peer { v with tx := { v.tx with waiting := [] }, rx := { v.rx with sub := sub } }).opened peer h
        .next (waiting.foldl (fun s m => s.postMsg peer m) s)

/-- OPENING_TIMEOUT (Table 11.5, R465): 1 s without an OPEN_ACK. -/
def execOPENING_TIMEOUT (peer : Nat) (s : State) : Host.Outcome State Fault Refusal :=
  let v := s.peer peer
  if v.state == 1 && s.tick - v.since ≥ 100000000 then .next (s.openFailed peer) else .next s

/-- PRAOL_CLOSE (Table 11.5): an OPEN context drains. -/
def execPRAOL_CLOSE (peer sub : Nat) (auth : Bool) (_reason : Nat) (s : State) : Host.Outcome State Fault Refusal :=
  if !s.linkUp sub then .next s
  else
    let h := s.hear peer sub auth
    let s := h.1
    if !h.2 then .next s
    else .next (s.updPeer peer fun v => if v.state == 2 then { v with state := 3, since := s.tick } else v)

/-- DRAINING_END (Table 11.5): every sent message acknowledged, or 100 ms. -/
def execDRAINING_END (peer : Nat) (s : State) : Host.Outcome State Fault Refusal :=
  let v := s.peer peer
  if v.state == 3 && (v.tx.msgs.isEmpty || s.tick - v.since ≥ 10000000) then .next (s.closePeer peer) else .next s

/-- KEEPALIVE_EXPIRY (R282). -/
def execKEEPALIVE_EXPIRY (peer : Nat) (s : State) : Host.Outcome State Fault Refusal :=
  let v := s.peer peer
  if v.state == 2 && s.tick - v.rx.heard ≥ s.fld F.NET_CTX_TMR_KEEPALIVE * 100000 then .next (s.sendControl peer 6 []) else .next s

/-- DEAD_TIME_EXPIRY (R282). -/
def execDEAD_TIME_EXPIRY (peer : Nat) (s : State) : Host.Outcome State Fault Refusal :=
  let v := s.peer peer
  if v.state == 2 && s.tick - v.rx.heard ≥ s.fld F.NET_CTX_TMR_DEAD_TIME * 100000 then .next (s.failPeer peer) else .next s

/-- PRAOL_PROBE (R282): answered with PROBE_ACK. -/
def execPRAOL_PROBE (peer sub : Nat) (auth : Bool) (s : State) : Host.Outcome State Fault Refusal :=
  if !s.linkUp sub then .next s
  else
    let h := s.hear peer sub auth
    if h.2 then .next (h.1.sendControl peer 7 []) else .next h.1

/-- Answer the slips that wait for a change. -/
def State.answerClients (s : State) (pick : CatClient → Bool) (a : CatClient → Answer) : State :=
  let go := s.cat.clients.filter pick
  go.foldl (fun s k => s.finish k.op k.slip (a k)) (s.updCat fun c => { c with clients := c.clients.filter (fun k => !pick k) })

/-- PRAOL_PROBE_ACK (R282, R296): the peer is alive; a device a registrar suspects is one no longer, and the slip that
reported it is answered without a change. -/
def execPRAOL_PROBE_ACK (peer sub : Nat) (auth : Bool) (s : State) : Host.Outcome State Fault Refusal :=
  if !s.linkUp sub then .next s
  else
    let h := s.hear peer sub auth
    let s := h.1
    if !h.2 then .next s
    else
      let v := s.peer peer
      if v.kind == 2 || v.kind == 3 then
        let s := s.updCat fun (c : Cat) => { c with suspects := c.suspects.filter (fun z => z.1 != v.dev) }
        .next (s.answerClients (fun k => k.kind == 3 && k.dev == v.dev && bitsOf k.slip.P0 1 0 == 2) (fun _ => Answer.ok 0))
      else .next s

/-- A frame of the port's own, which belongs to no context. -/
def State.sendFrame (s : State) (sub len : Nat) (body : Bytes) : State :=
  let tag := if s.flag (F.NET_PORT_VLAN_EN.at (8 * (sub / 4))) then 4 else 0
  s.queueFrame (sub / 4) { udp := (0, 0), sub := sub % 4, since := s.tick, cls := 6, peer := 4096, tenant := 0xFFFF, len := max 64 (len + tag),
                           pkt := none, body := body }

/-- PRAOL_DISCOVER (R283): answered from any address, in the clear, before readiness and without a bundle. -/
def execPRAOL_DISCOVER (sub : Nat) (s : State) : Host.Outcome State Fault Refusal :=
  if !s.linkUp sub then .next s
  else
    let s := (s.bump F.NET_CNT_RX_COUNT)
    let me := tGet s.cat.devices s.devId
    let ok := s.flag F.DEV_DEVID_VALID
    let reg : Bool := match me with | some d => ok && d.registrar | none => false
    let prof := match s.profile with | some p => p.id | none => 0
    let body := leBytes 4 (s.devId + (if ok then 2 ^ 31 else 0)) ++ leBytes 4 prof ++ leBytes 4 s.epoch
      ++ leBytes 1 (b2n reg + 2 * b2n s.cat.leaving) ++ [0, 0, 0]
    .next ((s.sendFrame sub (14 + 40 + 8 + 40 + 16 + 4) body).bump F.NET_CNT_TX_COUNT)

/-- PRAOL_DISCOVER_ACK (R283): a hint without authentication; nothing in the device depends on it. -/
def execPRAOL_DISCOVER_ACK (sub : Nat) (_body : Bytes) (s : State) : Host.Outcome State Fault Refusal :=
  if !s.linkUp sub then .next s else .next (s.bump F.NET_CNT_RX_COUNT)

/-! ## The ports themselves (R269-R272) -/

/-- Ticks of a pause of `q` quanta of 512 bit times at `gbps` Gb/s. -/
def quantaTicks (q gbps : Nat) : Nat := if gbps == 0 then 0 else cdiv (q * 512) (gbps * 10)

/-- PFC_FRAME (R271): a pause of class 5 or 3 on the receiving sub-port of a port with VLAN_EN; 0 quanta end it.  Others are
ignored and counted. -/
def execPFC_FRAME (sub prio quanta : Nat) (s : State) : Host.Outcome State Fault Refusal :=
  if !s.linkUp sub then .next s
  else if !((prio == 5 || prio == 3) && s.flag (F.NET_PORT_VLAN_EN.at (8 * (sub / 4)))) then .next (s.bump F.NET_CNT_DROPPED_COUNT)
  else
    let v := s.port (sub / 4)
    let mine (z : Nat × Nat × Nat × Nat) : Bool := z.1 == sub % 4 && z.2.1 == prio
    let since := match v.pauses.find? mine with
      | some z => if s.tick < z.2.2.1 then z.2.2.2 else s.tick
      | none => s.tick
    let rest := v.pauses.filter (fun z => !mine z)
    let p := if quanta == 0 then rest else rest ++ [(sub % 4, prio, s.tick + quantaTicks quanta (subRate v.mode), since)]
    .next (s.setPort (sub / 4) { v with pauses := p })

/-- PFC_WATCHDOG (R271): a class paused without a break for PFC_WD ms stops honouring PFC on its sub-port for 1 s. -/
def execPFC_WATCHDOG (sub cls : Nat) (s : State) : Host.Outcome State Fault Refusal :=
  let v := s.port (sub / 4)
  let wd := s.fld F.NET_PFC_PFC_WD
  if wd != 0 && s.classPaused (sub / 4) (sub % 4) cls
      && v.pauses.any (fun z => z.1 == sub % 4 && z.2.1 == cls && s.tick < z.2.2.1 && s.tick - z.2.2.2 ≥ wd * 100000) then
    .next ((s.setPort (sub / 4) { v with pfcOff := v.pfcOff.filter (fun z => !(z.1 == sub % 4 && z.2.1 == cls)) ++ [(sub % 4, cls, s.tick + 100000000)] }).bump
      F.NET_CNT_PFC_WD_COUNT)
  else .next s

/-- PAUSE_FRAME (R271): ignored and counted. -/
def execPAUSE_FRAME (sub : Nat) (s : State) : Host.Outcome State Fault Refusal :=
  if !s.linkUp sub then .next s else .next (s.bump F.NET_CNT_DROPPED_COUNT)

/-- The MAC address of a sub-port (R270). -/
def State.subMac (s : State) (sub : Nat) : Bytes := leBytes 6 (s.fld F.NET_MAC_BASE + sub)

/-- The device's IPv6 address. -/
def State.ipv6 (s : State) : Nat := s.fld F.NET_IPV6_LO_ADDR + 2 ^ 64 * s.fld F.NET_IPV6_HI_ADDR

/-- A next hop of a sub-port is learnt. -/
def State.learnHop (s : State) (sub fam : Nat) (a : Bytes) : State :=
  let v := s.port (sub / 4)
  s.setPort (sub / 4) { v with hops := v.hops.filter (fun h => !(h.1 == sub % 4 && h.2.1 == fam)) ++ [(sub % 4, fam, a)] }

/-- ETH_CONTROL_FRAME (R270): ARP, Neighbour Discovery and echo for the device's own addresses are answered (an ARP or
Neighbour answer carries the sub-port's MAC address, an echo its data); Router Advertisements and ARP replies of the gateway
are learnt; every other frame is dropped and counted. -/
def execETH_CONTROL_FRAME (sub : Nat) (k : EthKind) (s : State) : Host.Outcome State Fault Refusal :=
  if !s.linkUp sub then .next s
  else
    let v4 (a : Nat) : Bool := s.flag F.NET_CTRL_IPV4_EN && s.fld F.NET_IPV4_ADDR == a
    let v6 (a : Nat) : Bool := s.flag F.NET_CTRL_IPV6_EN && s.ipv6 == a
    let drop := s.bump F.NET_CNT_DROPPED_COUNT
    match k with
    | .arpRequest a => if v4 a then .next (s.sendFrame sub 64 (s.subMac sub)) else .next drop
    | .arpReply a mac =>
      if s.flag F.NET_CTRL_IPV4_EN && s.fld F.NET_IPV4_GW4 == a then .next (s.learnHop sub 4 mac) else .next drop
    | .solicitation a => if v6 a then .next (s.sendFrame sub (14 + 40 + 32 + 4) (s.subMac sub)) else .next drop
    | .advertisement r => if s.flag F.NET_CTRL_IPV6_EN then .next (s.learnHop sub 6 r) else .next drop
    | .echo4 a b => if v4 a then .next (s.sendFrame sub (14 + 20 + 8 + b.length + 4) b) else .next drop
    | .echo6 a b => if v6 a then .next (s.sendFrame sub (14 + 40 + 8 + b.length + 4) b) else .next drop
    | .other => .next drop

/-- When LINE falls, a rate above it is lowered to it at once (R280). -/
def State.capRates (s : State) : State :=
  let line := s.lineRate
  { s with peers := s.peers.map (fun (q : Nat × Peer) =>
      if q.2.tx.rate > line then (q.1, { q.2 with tx := { q.2.tx with rate := line } }) else q) }

/-- ETH_LINK_CHANGE (R268, R269): a sub-port's link comes up or goes down.  The first to come up trains the port in the MODE
its register names; a sub-port that MODE does not have, or of a disabled port, cannot. -/
def execETH_LINK_CHANGE (sub : Nat) (up : Bool) (s : State) : Host.Outcome State Fault Refusal :=
  if sub ≥ 32 then .next s
  else
    let v := s.port (sub / 4)
    let idle := !v.up.any id
    let mode := if up && idle then s.fld (F.NET_PORT_MODE.at (8 * (sub / 4))) else v.mode
    if up && sub % 4 ≥ subCount mode then .next s
    else
      let s := s.setPort (sub / 4) { v with mode := mode, up := v.up.set (sub % 4) up,
                                            pauses := if up then v.pauses else v.pauses.filter (fun z => z.1 != sub % 4) }
      .next (s.peers.foldl (fun s q => if up then s.pump q.1 else s) s.capRates)

/-! ## Egress (R241-R244, R272) -/

/-- Shapers that apply to a frame of a port (Table 9.7), by kind and index. -/
def State.frameShapers (s : State) (port : Nat) (f : Frame) : List (Nat × Nat) :=
  let v := s.peer f.peer
  let pool := if (v.kind == 2 || v.kind == 3) && f.peer < 4096 then ((s.pool.filter (fun e => e.2.device == v.dev)).map (fun e => (3, e.1))) else []
  [(0, port), (1, 8 * port + f.cls)] ++ (if f.tenant ≤ 0xFFF then [(2, f.tenant)] else []) ++ pool

/-- Do the shapers let a frame leave: every enabled one has a LEVEL of at least 0 (R243)? -/
def State.shapersPermit (s : State) (port : Nat) (f : Frame) : Bool :=
  (s.frameShapers port f).all (fun h => !(s.shaper h.1 h.2).enable || s.shaperLevel h.1 h.2 ≥ 0)

/-- Every enabled shaper of a frame subtracts its length and its own OVERHEAD. -/
def State.shapersTake (s : State) (port : Nat) (f : Frame) : State :=
  (s.frameShapers port f).foldl (fun (s : State) h =>
    let x := s.shaper h.1 h.2
    if x.enable then
      let x := x.refill s.tick
      let b := { x.bucket with level := x.bucket.level - (f.len + x.overhead : Nat) }
      { s with shapers := tPut s.shapers (shaperKey h.1 h.2) { x with bucket := b } }
    else s) s

/-- The sub-port a frame of a class leaves by (R272, R278): the one it was sent to when that is up and not paused, else the
next in rotation that is. -/
def State.exitSub (s : State) (port cls want : Nat) : Option Nat :=
  let v := s.port port
  let ok (k : Nat) : Bool := v.subUp k && !s.classPaused port k cls
  if ok want then some want else ((List.range 4).map (fun i => (v.rot + i) % 4)).find? ok

/-- Weight of a class of a port, and of a peer queue (R242). -/
def State.classWeight (s : State) (port c : Nat) : Nat := max 1 (bitsOf (s.fld (F.SCHED_CLASS_WT_W.at (8 * port))) (8 * c + 7) (8 * c))
def State.peerWeight (s : State) (p : Nat) : Nat := if p < 4096 then max 1 (s.peer p).weight else 1

/-- Finish tag of a frame of a given length after a tag, under a weight: weighted fair queueing on frame length. -/
def finishTag (tag len weight : Nat) : Nat := tag + len * 65536 / weight

/-- The head frames of a class's peer queues that may leave now. -/
def State.heads (s : State) (port c : Nat) : List Frame :=
  let q := (s.port port).queue.filter (fun f => f.cls == c)
  let ps := (q.map (·.peer)).eraseDups
  (ps.filterMap (fun p => q.find? (fun f => f.peer == p))).filter (fun f => s.shapersPermit port f && (s.exitSub port c f.sub).isSome)

/-- The least of a list by a measure, first among equals. -/
def leastBy {α : Type} (m : α → Nat) : List α → Option α
  | [] => none
  | a :: l => match leastBy m l with
    | none => some a
    | some b => if m b < m a then some b else some a

/-- The frame a class would send, by fair queueing over its peer queues. -/
def State.classHead (s : State) (port c : Nat) : Option Frame :=
  let v := s.port port
  leastBy (fun f => finishTag ((tGet v.peerTag (peerTagKey c f.peer)).getD 0) f.len (s.peerWeight f.peer)) (s.heads port c)

/-- The frame a port sends next (R242): class 7, class 6, then classes 0 to 5 by fair queueing. -/
def State.nextFrame (s : State) (port : Nat) : Option Frame :=
  match s.classHead port 7 with
  | some f => some f
  | none => match s.classHead port 6 with
    | some f => some f
    | none =>
      let v := s.port port
      leastBy (fun f => finishTag ((tGet v.classTag f.cls).getD 0) f.len (s.classWeight port f.cls))
        ((List.range 6).filterMap (fun c => s.classHead port c))

/-- EGRESS_FRAME (R242-R244, R272, R246): a frame boundary of a port. -/
def execEGRESS_FRAME (port : Nat) (s : State) : Host.Outcome State Fault Refusal :=
  if port ≥ 8 then .next s
  else match s.nextFrame port with
    | none => .next s
    | some f => match s.exitSub port f.cls f.sub with
      | none => .next s
      | some k =>
        let v := s.port port
        let ft := finishTag ((tGet v.peerTag (peerTagKey f.cls f.peer)).getD 0) f.len (s.peerWeight f.peer)
        let pt := tPut (tPut v.peerTag (peerTagKey f.cls f.peer) ft) (classTimeKey f.cls) ft
        let cf := finishTag ((tGet v.classTag f.cls).getD 0) f.len (s.classWeight port f.cls)
        let wfq := f.cls ≤ 5
        let s := s.setPort port { v with queue := v.queue.erase f, peerTag := pt, rot := (k + 1) % 4,
                                         classTag := if wfq then tPut v.classTag f.cls cf else v.classTag,
                                         vtime := if wfq then cf else v.vtime }
        let s := (s.shapersTake port f).dequeued (16 + 8 * port + f.cls) f.since
        let s := if f.peer < 4096 then s.dequeued (4096 + f.peer) f.since else s
        let s := s.emit (.frame port k { f with sub := k })
        .next (if f.peer < 4096 then s.pump f.peer else s)

end Sys2Proof.Machine
end

