-- ==== Sys2Proof/Machine/Session.lean ====
section
/-!
DEFINITION. The session commands: Table 3.9 and the events of a move (R94).
-/

namespace Sys2Proof.Machine

/-! ## Accession, close, query -/


/-- A session as accessioned (R95): defaults for its times, nothing in its transcript. -/
def State.newSess (s : State) (acc tenant : Nat) (template : Bool) : Sess :=
  { Sess.blank with
    accession := acc, tenant := tenant, template := template,
    ttlWait := s.fld F.SESS_TTL_DEF0_WAIT, ttlT2 := s.fld F.SESS_TTL_DEF0_T2, ttlT3 := s.fld F.SESS_TTL_DEF1_T3,
    ttlT4 := s.fld F.SESS_TTL_DEF1_T4, ttlTranscript := s.fld F.SESS_TTL_DEF2_TRANSCRIPT }

/-- Why no session may be admitted now: BUSY 0 while the device has no ID, admissions are off, it leaves, or the next sequence
number is at SEQ_LIMIT or the lease end (R69, Table 3.11, R296, R305, R290). -/
def State.admitBarred (s : State) : Bool :=
  let next := s.fld F.SESS_SEQ_NEXT
  let lease := match tGet s.cat.devices s.devId with | some d => d.lease * 2 ^ 32 | none => 0
  !s.flag F.SESS_CTRL_ADMIT_EN || !s.flag F.DEV_DEVID_VALID || s.cat.leaving
    || (next != 0 && (next ≥ s.fld F.CKPT_SEQ_SEQ_LIMIT || next ≥ lease))

/-- The next accession number and entry index, or the DETAIL of NO_SLOTS (R67, R70).  NEXT starts at 1 and stands in 44 bits, so that 0
says that sequence number 2^44 − 1 has been given out. -/
def State.nextSession (s : State) : Except Nat (Nat × Nat) :=
  match s.newIndex with
  | none => .error 1
  | some i => if s.fld F.SESS_SEQ_NEXT == 0 then .error 2 else .ok (s.devId * 2 ^ 44 + s.fld F.SESS_SEQ_NEXT, i)

/-- Place a new session in its entry and step SESS_SEQ.NEXT. -/
def State.placeSess (s : State) (i st : Nat) (e : Sess) : State :=
  ((s.setSess i e).enter i st).setFld F.SESS_SEQ_NEXT ((s.fld F.SESS_SEQ_NEXT + 1) % 2 ^ 44)

/-- SESS_ACCESSION (R67, R69, R70, R84). -/
def execSESS_ACCESSION (x : Slip) (s : State) : Host.Outcome State Fault Refusal :=
  runSlip Op.SESS_ACCESSION x s fun s =>
    let template := bitOf x.P0 0
    if x.acc != 0 then .no s St.RESERVED_NONZERO 0x10
    else match badParam x [1, 0, 0, 0, 0, 0] with
      | some k => .no s St.BAD_PARAM k
      | none =>
        if (template && s.code x.src == 1) || (x.ten == 0xFFFF && !template) then .no s St.BAD_PARAM 0
        else if s.restoreDue then .no s St.BUSY 0x1C02
        else if s.barring then .hold s .barrier
        else if s.admitBarred then .no s St.BUSY
        else match s.keyMissing x.ten with
          | some st => .no s st
          | none => match s.nextSession with
            | .error d => .no s St.NO_SLOTS d
            | .ok (acc, i) =>
              .done (s.placeSess i Ss.ACCESSIONED (s.newSess acc x.ten template)) (Answer.ok acc i)

/-- SESS_CLOSE: the entry becomes CLOSED, after a step in flight (Table 3.5, R198). -/
def execSESS_CLOSE (x : Slip) (s : State) : Host.Outcome State Fault Refusal :=
  runSession Op.SESS_CLOSE x [0, 0, 0, 0, 0, 0] s fun s i e =>
    if e.state == Ss.CLOSED then .no s St.ALREADY_DONE
    else if e.inStep then .hold s (.step x.acc)
    else .done ((s.closeSess i).reclaimCheck) (Answer.ok e.tlen)

/-- SESS_QUERY: state, outcome of the last failed slip and KV_LENGTH, with the entry where the slip asks for it. -/
def execSESS_QUERY (x : Slip) (s : State) : Host.Outcome State Fault Refusal :=
  runSession Op.SESS_QUERY x [0, 0, 0, 0, w32, w32] s fun s i e =>
    let r := e.state + e.resume * 2 ^ 8 + e.fault * 2 ^ 16 + e.kvLength * 2 ^ 32
    let data := if x.P4 == 0 && x.P5 == 0 then [] else s.entryBytes i e (s.code x.src == 1)
    .done s (Answer.mk' St.OK e.faultTag r 0 data)

/-! ## Fork (R83 to R85) -/

/-- The pages a fork at position f shares whole, and those it copies in part. -/
def Sess.forkPages (e : Sess) (p : Profile) (f : Nat) : List PageRef × List PageRef :=
  let n := f / p.tokensPerPage
  (e.pages.filter (fun r => r.index < n), if f % p.tokensPerPage == 0 then [] else e.pages.filter (fun r => r.index == n))

/-- The transcript a child inherits: up to the entry of position f − 1, and the marks that follow it before the next token. -/
def forkTranscript : Nat → List Nat → List Nat
  | _, [] => []
  | 0, v :: l => if entryKind v == 2 then v :: forkTranscript 0 l else if entryKind v == 1 then forkTranscript 0 l else []
  | n + 1, v :: l => v :: forkTranscript (if entryKind v == 0 then n else n + 1) l

/-- The mask a transcript leaves in force, and the marks it holds (R87). -/
def maskMarks (t : List Nat) : List Nat := (t.filter (fun v => entryKind v == 2)).map (fun v => bitsOf v 19 0)

/-- Slots of the pages a partial copy makes: a Y3 tail becomes wide (R113). -/
def copySlots (r : PageRef) : Nat := if r.format == 0 then 1 else 2

/-- The child of a fork. -/
def State.makeChild (s : State) (p : Profile) (pi ci acc tenant f : Nat) (template : Bool) : State :=
  let e := s.sess pi
  let (shared, partly) := e.forkPages p f
  let t := forkTranscript f e.transcript
  let marks := maskMarks t
  let top := (marks.filter (· != 0xFFFFF)).foldl (fun m v => max m (v + 1)) 0
  let last := marks.getLast?.getD 0xFFFFF
  let child := { s.newSess acc tenant template with
    forked := true, parent := e.accession, forkLength := f, kvLength := f, tier := 1, transcript := t,
    maskLog := e.maskLog.take top, mask := if last == 0xFFFFF then 0 else last, maskValid := last != 0xFFFFF,
    sampling := e.sampling, ttlWait := e.ttlWait, ttlT2 := e.ttlT2, ttlT3 := e.ttlT3, ttlT4 := e.ttlT4,
    ttlTranscript := e.ttlTranscript }
  let s := s.placeSess ci Ss.WAITING child
  let s := (shared.flatMap PageRef.slots).foldl State.refSlot s
  let r := partly.foldl (fun (a : State × List PageRef) pg =>
    let c := a.1.copyTail p acc tenant pg (f % p.tokensPerPage)
    (c.1, match c.2 with | some n => a.2 ++ [n] | none => a.2)) (s, [])
  let s := r.1.updSess ci (fun c => { c with pages := shared ++ r.2 })
  (s.chargeLog ci).bump F.SESS_CNT_FORK_COUNT

/-- Is a slot's reference count at its greatest value (R85)? -/
def State.refFull (s : State) (k : Nat) : Bool := match tGet s.slots k with | some u => u.refs ≥ 0xFFFFFFFF | none => false

/-- SESS_FORK (R83, R84, R85); TENANT names the child's tenant (R464). -/
def execSESS_FORK (x : Slip) (s : State) : Host.Outcome State Fault Refusal :=
  runSession Op.SESS_FORK x [w32, 1, 0, 0, 0, 0] s fun s i e =>
    let f := if x.P0 == w32 then e.kvLength else x.P0
    if !(e.template && e.tenant == 0xFFFF) && x.ten != e.tenant then .no s St.TENANT_MISMATCH
    else if !(e.state == Ss.WAITING || e.state == Ss.DECODE || e.state == Ss.RING_FULL || e.state == Ss.PARKED) then
      .no s St.BAD_STATE e.state
    else if f == 0 || f > e.kvLength then .no s St.BAD_PARAM 0
    else if x.ten == 0xFFFF && !bitOf x.P1 0 then .no s St.BAD_PARAM 1
    else if s.admitBarred then .no s St.BUSY
    else match s.keyMissing x.ten, s.profile with
      | some st, _ => .no s st
      | none, none => .no s St.NOT_READY 1
      | none, some p =>
        if e.state == Ss.PARKED then s.reviveFor i x
        else if e.inStep then .hold s (.step x.acc)
        else match s.nextSession with
          | .error d => .no s St.NO_SLOTS d
          | .ok (acc, ci) =>
            let (shared, partly) := e.forkPages p f
            let need := (partly.map copySlots).foldl (· + ·) 0
            let t := forkTranscript f e.transcript
            let top := ((maskMarks t).filter (· != 0xFFFFF)).foldl (fun m v => max m (v + 1)) 0
            let logs := cdiv (cdiv t.length 1024 * 4096 + maskBytes (e.maskLog.take top)) 16384
            if (shared.flatMap PageRef.slots).any s.refFull then
              .no s St.NO_SLOTS 5
            else if s.freeT1 < need then .no s St.NO_SLOTS 4
            else if !s.quotaFits x.ten 1 (4 * need + logs) then .no s St.QUOTA_FULL 1
            else .done (s.makeChild p i ci acc x.ten f (bitOf x.P1 0)) (Answer.ok acc ci)

/-! ## Requests and rings -/

/-- May a session be attached to a ring?  The refusal otherwise: DISABLED, another tenant's, or held by another session. -/
def State.ringBarred (s : State) (i ring tenant param : Nat) : Option (Nat × Nat) :=
  let r := s.ring ring
  if r.state == 0 then some (St.BAD_PARAM, param)
  else if r.tenant != tenant then some (St.TENANT_MISMATCH, 0)
  else match r.owner with
    | some j => if j == i then none else some (St.BUSY, j)
    | none => none

/-- Attach a ring to a session, detaching the one it had; a held group goes to the new ring, and with it its place in the ledger
(R353, log entry 92). -/
def State.attachRing (s : State) (i ring : Nat) : State :=
  let e := s.sess i
  let k := e.heldGroups.length
  let s := if e.attached then s.setRing e.ring { s.ring e.ring with owner := none, made := (s.ring e.ring).made - k } else s
  let s := s.setRing ring { s.ring ring with owner := some i, made := (s.ring ring).made + k }
  (s.updSess i (fun e => { e with ring := ring, attached := true })).ringRoom ring

/-- States in which a request may be armed and a ring attached (Table 3.9). -/
def atRest (st : Nat) : Bool := st == Ss.ACCESSIONED || st == Ss.WAITING || st == Ss.PARKED || st == Ss.TRANSCRIPT_ONLY

/-- SESS_GENERATE (R81): arms a request, or re-arms one not yet started. -/
def execSESS_GENERATE (x : Slip) (s : State) : Host.Outcome State Fault Refusal :=
  runSession Op.SESS_GENERATE x [w32, 0x1FFFF, 0, 0, 0, 0] s fun s i e =>
    let ring := bitsOf x.P1 15 0
    let use := bitOf x.P1 16
    let barred := if use then s.ringBarred i ring e.tenant 1 else if e.attached then none else some (St.BAD_PARAM, 1)
    if x.P0 == 0 || x.P0 > 1048576 then .no s St.BAD_PARAM 0
    else if e.template || !atRest e.state then .no s St.BAD_STATE e.state
    else match barred with
      | some b => .no s b.1 b.2
      | none =>
        if e.kvLength + e.pending ≥ ((s.profile.map (·.maxContext)).getD 0) then .no s St.CONTEXT_FULL
        else if e.state == Ss.PARKED || e.state == Ss.TRANSCRIPT_ONLY then s.reviveFor i x
        else
          let s := if use then s.attachRing i ring else s
          let s := s.updSess i (fun e => { e with armed := true, reqRemaining := x.P0, toolWait := false })
          .done (s.startRequest i) (Answer.ok e.kvLength e.pending)

/-- A request that has not started is cancelled: its last group is written, or held until its ring has room, behind a group held
already (log entry 22). -/
def State.cancelIdle (s : State) (i : Nat) : State :=
  let e := s.sess i
  let g := noTokenGroup e.accession End.CANCELLED []
  let s := s.updSess i (fun e => { e with armed := false, req := none, reqRemaining := 0 })
  let s := s.groupMade i
  if !e.attached then s
  else if e.heldGroups.isEmpty && s.groupFits e.ring g then (s.writeGroup e.ring g).flushRing e.ring
  else s.updSess i (fun e => { e with heldGroups := e.heldGroups ++ [g], heldFinal := true, heldRecord := true })

/-- SESS_CANCEL (R82, R234): the request ends at the step boundary; a prefill runs on to its end (Table 3.5).  A request cancelled in
PREEMPTED has its CANCELLED group made at the boundary of its first step after readmission: the model's choice (log entry 82). -/
def execSESS_CANCEL (x : Slip) (s : State) : Host.Outcome State Fault Refusal :=
  runSession Op.SESS_CANCEL x [0, 0, 0, 0, 0, 0] s fun s i e =>
    let a := Answer.ok e.steps
    if !e.armed || (e.state == Ss.RING_FULL && e.heldFinal) then .no s St.ALREADY_DONE
    else if e.inStep then .hold s (.step x.acc)
    else if e.state == Ss.DECODE then
      let s := (s.dequeue i).endWithout i End.CANCELLED ((e.req.map (·.heldBack)).getD [])
      .done (s.flushRing e.ring) a
    else if e.state == Ss.PREFILL || e.state == Ss.RING_FULL || e.state == Ss.PREEMPTED then
      .done (s.updSess i (fun e => { e with armed := false })) a
    else .done ((s.cancelIdle i).imageChanged i) a

/-- SESS_ATTACH_RING. -/
def execSESS_ATTACH_RING (x : Slip) (s : State) : Host.Outcome State Fault Refusal :=
  runSession Op.SESS_ATTACH_RING x [0x1FFFF, 0, 0, 0, 0, 0] s fun s i e =>
    let ring := bitsOf x.P0 15 0
    if !atRest e.state then .no s St.BAD_STATE e.state
    else if bitOf x.P0 16 then
      if e.armed || e.heldRecord then .no s St.BAD_STATE e.state
      else .done (s.detachRing i) (Answer.ok e.ring)
    else match s.ringBarred i ring e.tenant 0 with
      | some b => .no s b.1 b.2
      | none => .done (s.attachRing i ring) (Answer.ok ring)

/-! ## Masks, times, parks, revives -/

/-- The logs of a session have grown: they are charged where they rest, in T1 while they are there, below it in the copies of the
image (R185, R87). -/
def State.chargeGrowth (s : State) (i : Nat) : State :=
  let e := s.sess i
  if e.logCharge != 0 || e.state == Ss.ACCESSIONED || e.state == Ss.WAITING then s.chargeLog i
  else match e.manifest with
    | some m => s.setImg i (s.imageCharge m e.logQuarters e.holder2 e.holderTier2)
    | none => s.setImg i ([e.logQuarters + e.img.getD 0 0 - min (e.img.getD 0 0) e.logQuarters] ++ e.img.drop 1)

/-- Append a mark to the transcript: a mask of the log, or the return to the causal default (R87, Table 3.3). -/
def State.addMark (s : State) (i : Nat) (m : Option MaskRec) : State :=
  let e := s.sess i
  let k := e.maskLog.length
  let v := 2 * 2 ^ 30 + (match m with | some _ => k | none => 0xFFFFF)
  let s := s.updSess i fun e =>
    { e with transcript := e.transcript ++ [v], maskLog := (match m with | some r => e.maskLog ++ [r] | none => e.maskLog),
             mask := if m.isSome then k else 0, maskValid := m.isSome }
  let e := s.sess i
  (s.chargeGrowth i).imageChanged i

/-- SESS_SET_MASK (R87).  That RESULT with CLEAR is 0xFFFFF, the index that a mark of the causal default carries, is the model's choice
(log entry 83).  The transcript's limit is treated as the maximum context (R195). -/
def execSESS_SET_MASK (x : Slip) (s : State) : Host.Outcome State Fault Refusal :=
  runSession Op.SESS_SET_MASK x [1, 0, 0, 0, 0, 0] s fun s i e =>
    let clear := bitOf x.P0 0
    let n := rdLe x.payload 8 4
    let len := cdiv n 8
    let mask : MaskRec := { len := n, bits := slice x.payload 16 len }
    if e.state == Ss.PREFILL || e.state == Ss.CLOSED then .no s St.BAD_STATE e.state
    else if clear && !x.payload.isEmpty then .no s St.BAD_PARAM 0
    else match (if clear then none else
        match badStruct 0x0406 16 x.payload with
        | some b => some b
        | none => if n == 0 || n > ((s.profile.map (·.maxContext)).getD 0) then some (St.BAD_PARAM, 0x506)
                  else if rdLe x.payload 4 4 < 16 + len then some (St.PAYLOAD_TRUNCATED, 0) else none) with
      | some b => .no s b.1 b.2
      | none =>
        if e.away then s.reviveRead i x
        else if e.tlen ≥ 2097152 then .no s St.CONTEXT_FULL
        else if (maskMarks e.transcript).length ≥ 64 then .no s St.NO_SLOTS 3
        else
          let log := if clear then e.maskLog else e.maskLog ++ [mask]
          let grown := cdiv (cdiv (e.tlen + 1) 1024 * 4096 + maskBytes log) 16384
          if !s.quotaFits e.tenant 1 (grown - e.logQuarters) then .no s St.QUOTA_FULL 1
          else .done (s.addMark i (if clear then none else some mask)) (Answer.ok (if clear then 0xFFFFF else e.maskLog.length))

/-- SESS_SET_TTL: DEADLINE follows from the state the slip leaves (R79, R90). -/
def execSESS_SET_TTL (x : Slip) (s : State) : Host.Outcome State Fault Refusal :=
  runSession Op.SESS_SET_TTL x [w32, w32, w32, w32, w32, 0] s fun s i e =>
    let pick := fun (p old : Nat) => if p == w32 then old else p
    if e.state == Ss.CLOSED then .no s St.BAD_STATE e.state
    else
      let s := s.updSess i fun e =>
        { e with ttlWait := pick x.P0 e.ttlWait, ttlT2 := pick x.P1 e.ttlT2, ttlT3 := pick x.P2 e.ttlT3,
                 ttlT4 := pick x.P3 e.ttlT4, ttlTranscript := pick x.P4 e.ttlTranscript }
      let s := (s.updSess i (fun e => { e with deadline := s.deadlineOf e })).imageChanged i
      .done s (Answer.ok ((s.sess i).deadline - s.tick))

/-- The tier a park goes to: its target, or the first tier of the plan path; one whose time-to-live is 0 is passed on from at
once (R90, R91). -/
def State.parkTier (s : State) (target : Nat) : Option Nat :=
  if target == 0 then ((s.profile.map (·.parkPath)).getD []).head? else some target

/-- SESS_PARK (R34, R91, R186): the image is committed towards its tier; the reply follows the commit. -/
def execSESS_PARK (x : Slip) (s : State) : Host.Outcome State Fault Refusal :=
  runSession Op.SESS_PARK x [7, 0, 0, 0, 0, 0] s fun s i e =>
    let t := bitsOf x.P0 2 0
    if e.state == Ss.PARKED || e.state == Ss.TRANSCRIPT_ONLY then .no s St.ALREADY_DONE
    else if e.state != Ss.WAITING || (e.template && s.childCount e != 0) then .no s St.BAD_STATE e.state
    else if t != 0 && !(((s.profile.map (·.parkPath)).getD []).contains t) then .no s St.BAD_PARAM 0
    else if s.textOpen i then .no s St.BUSY
    else if e.parking != 0 then .wait s
    else
      let r := match s.parkTier t with
        | some tier => (s.abandonCommit i).tryCommit i 2 tier true
        | none => (s.abandonCommit i).tryCommit i 6 2 true
      match r.2 with
      | some (tier, true) => .no s St.NO_SLOTS (14 + tier)
      | some (tier, false) => .no s St.QUOTA_FULL tier
      | none => .wait r.1

/-- SESS_REVIVE (R92): answered when the session is hot. -/
def execSESS_REVIVE (x : Slip) (s : State) : Host.Outcome State Fault Refusal :=
  runSession Op.SESS_REVIVE x [0, 0, 0, 0, 0, 0] s fun s i e =>
    let revived : Bool := match s.outst x.src x.tag with | some o => decide (o.note != 0) | none => false
    if revived then .done s (Answer.ok e.kvLength)
    else if e.state == Ss.PARKED || e.state == Ss.TRANSCRIPT_ONLY then s.reviveFor i x
    else if e.state == Ss.ACCESSIONED || e.state == Ss.PREFILL || e.state == Ss.DECODE || e.state == Ss.WAITING
        || e.state == Ss.RING_FULL then .no s St.ALREADY_DONE
    else .no s St.BAD_STATE e.state

/-! ## Moves (R94, R296, R355) -/

/-- The charges of an offered image with this device as owner (R355, R185): each copy in the tier it rests in here, or T4
when another device holds it.  Page formats are not in the offered entry: every page counts as MXFP4 (log entry 23). -/
def State.offerCharge (s : State) (p : Profile) (e : Sess) : List Nat :=
  let n := 4 * p.layers * cdiv e.shelvedLength p.tokensPerPage + cdiv (cdiv e.tlen 1024 * 4096) 16384
  let add := fun (l : List Nat) (tier : Nat) => l.set (tier - 2) (l.getD (tier - 2) 0 + n)
  add (add [0, 0, 0] (if e.holder1 == s.devId && e.holderTier1 ≥ 2 then min e.holderTier1 4 else 4))
    (if e.holder2 == s.devId && e.holderTier2 ≥ 2 then min e.holderTier2 4 else 4)

/-- SESS_MOVE_OFFER, at the target (R94, R355). -/
def execSESS_MOVE_OFFER (x : Slip) (s : State) : Host.Outcome State Fault Refusal :=
  runSlip Op.SESS_MOVE_OFFER x s fun s =>
    let src := bitsOf x.P0 19 0
    let resume := bitsOf x.P1 3 0
    let e := Sess.ofEntry (x.payload.drop 8) resume
    if x.acc == 0 then .no s St.UNKNOWN_SESSION
    else match s.sessGate Op.SESS_MOVE_OFFER x with
    | some r => r
    | none => match badParam x [0xFFFFF, 15, 0, 0, 0, 0] with
      | some k => .no s St.BAD_PARAM k
      | none =>
        if resume != Ss.PARKED && resume != Ss.TRANSCRIPT_ONLY then .no s St.BAD_PARAM 1
        else match badStruct 0x0410 264 x.payload with
          | some b => .no s b.1 b.2
          | none =>
            if e.accession != x.acc || e.tenant != x.ten then .no s St.BAD_PARAM 0x510
            else match s.findSess x.acc with
            | some (_, f) => .no s St.BAD_STATE f.state
            | none => match s.keyMissing x.ten, s.profile with
              | some st, _ => .no s st
              | none, none => .no s St.NOT_READY 1
              | none, some p =>
                let alien : Bool := match tGet s.cat.devices src with | some d => decide (d.profile != p.id) | none => false
                if alien then .no s St.PROFILE_MISMATCH
                else match s.newIndex with
                | none => .no s St.NO_SLOTS 1
                | some i =>
                  let q := s.offerCharge p e
                  match [2, 3, 4].find? (fun t => !s.quotaFits e.tenant t (q.getD (t - 2) 0)) with
                  | some t => .no s St.QUOTA_FULL t
                  | none =>
                    let m : Move := { accession := x.acc, peerDev := src, resume := resume, shelfGen := e.shelfGen,
                                      remain := rdLe x.payload (8 + 0x68) 8, phase := 3 }
                    let s := (s.setSess i { e with entered := s.tick }).setImg i q
                    .done { s with moves := tPut s.moves i m } (Answer.ok 0 i)

/-- The move in progress of a session, with its index. -/
def State.moveOf (s : State) (acc : Nat) (target : Bool) : Option (Nat × Move) :=
  s.moves.find? (fun m => m.2.accession == acc && (m.2.phase == 3) == target)

/-- SESS_MOVE_COMMIT, at the target (R94): the session arrives in its resume state; a fence answers EPOCH_STALE and the
reservation lapses (Table 14.4). -/
def execSESS_MOVE_COMMIT (x : Slip) (s : State) : Host.Outcome State Fault Refusal :=
  runSlip Op.SESS_MOVE_COMMIT x s fun s =>
    let lapsed : Option Nat := if s.fenced then (s.moveOf x.acc true).map (·.1) else none
    if x.acc == 0 then .no s St.UNKNOWN_SESSION
    else match lapsed, s.sessGate Op.SESS_MOVE_COMMIT x with
    | some i, some (.done _ a) => .done { (s.setImg i [0, 0, 0]).freeSess i with moves := tDel s.moves i } a
    | _, some r => r
    | _, none => match s.moveOf x.acc true with
    | none =>
      (match s.findSess x.acc with
      | some (_, e) => if x.ten != e.tenant then .no s St.TENANT_MISMATCH else .no s St.BAD_STATE e.state
      | none => .no s St.UNKNOWN_SESSION)
    | some (i, m) =>
      if x.ten != (s.sess i).tenant then .no s St.TENANT_MISMATCH
      else if s.partDown i then .no s St.NOT_READY 3
      else match badParam x [w32, 0, 0, 0, 0, 0] with
        | some k => .no s St.BAD_PARAM k
        | none =>
          if x.P0 != m.shelfGen then .no s St.BAD_PARAM 0
          else
            let s := { s with moves := tDel s.moves i,
                              shelf := s.shelf.map (fun (o : ShelfObj) => if o.accession == x.acc && !o.own then { o with own := true } else o) }
            let s := s.enter i m.resume
            let s := s.updSess i (fun e => { e with deadline := s.tick + m.remain })
            .done s (Answer.ok x.acc)

/-- A reservation that no commit claimed within 10 s is freed (Table 3.5). -/
def execMOVE_RESERVATION_LAPSE (acc : Nat) (s : State) : Host.Outcome State Fault Refusal :=
  match s.moveOf acc true with
  | none => .next s
  | some (i, _) =>
    if s.tick < (s.sess i).entered + 10 ^ 9 then .next s
    else .next { (s.setImg i [0, 0, 0]).freeSess i with moves := tDel s.moves i }

/-- Begin to move a PARKED or TRANSCRIPT_ONLY session to another device (R94 steps 1 and 2): MOVING, its expiry suspended,
the offer sent with the time left to DEADLINE as a duration (R90). -/
def State.beginMove (s : State) (i dev : Nat) : State :=
  let e := s.sess i
  let remain := e.deadline - s.tick
  let m : Move := { accession := e.accession, peerDev := dev, resume := e.state, shelfGen := e.shelfGen, remain := remain, phase := 0 }
  let entry := s.entryBytes i { e with deadline := remain } true
  let s := s.updSess i (fun e => { e with state := Ss.MOVING, resume := m.resume, entered := s.tick, deadline := 0 })
  let s := { s with moves := tPut s.moves i m }
  s.sendDev dev Op.SESS_MOVE_OFFER e.accession e.tenant [s.devId, m.resume] (structure0 0x0410 entry)

/-- A move fails at the source: the session returns to the state it had, with the time it had left (R94). -/
def State.moveFailed (s : State) (i : Nat) (m : Move) : State :=
  let s := { s with moves := tDel s.moves i }.updCat fun c =>
    { c with locates := c.locates.filter (fun (l : Locate) => !(l.accession == m.accession && l.why == 1)) }
  s.updSess i (fun e => { e with state := m.resume, resume := 0, entered := s.tick, reached := s.tick,
                                  deadline := s.tick + m.remain })

/-- The commit of a move is sent (R94 step 4). -/
def State.sendCommit (s : State) (i : Nat) (m : Move) : State :=
  let s := { s with moves := tPut s.moves i { m with phase := 2 } }
  s.sendDev m.peerDev Op.SESS_MOVE_COMMIT m.accession (s.sess i).tenant [m.shelfGen] []

/-- Register the new owner with both owners of the session's bucket and wait for both (R94 step 3, R292). -/
def State.registerMove (s : State) (i : Nat) (m : Move) : State :=
  match tGet s.cat.buckets (bucketOf m.accession) with
  | none => s.sendCommit i m
  | some b =>
    let devs := [b.primary, b.secondary].eraseDups
    let far := devs.filter (· != s.devId)
    let s := devs.foldl (fun s d => s.registerAt d m.accession m.peerDev) s
    let s := { s with moves := tPut s.moves i { m with phase := 1 } }
    if far.isEmpty then s.sendCommit i m
    else
      let l : Locate := { accession := m.accession, asked := far.headD 0, second := false, why := 1, left := far.length, since := s.tick }
      s.updCat fun c => { c with locates := c.locates ++ [l] }

/-- MOVE_OFFER_REPLY, at the source (R94). -/
def execMOVE_OFFER_REPLY (acc status : Nat) (s : State) : Host.Outcome State Fault Refusal :=
  match s.moveOf acc false with
  | none => .next s
  | some (i, m) =>
    if m.phase != 0 then .next s
    else if statusClass status ≤ 1 then .next (s.registerMove i m) else .next (s.moveFailed i m)

/-- The source gives the session up: its entry becomes FREE, a forwarding record is kept, its charges go, and objects it
goes on holding are charged to TIER_HOLD (Table 3.5, R294, R355). -/
def State.moveDone (s : State) (i : Nat) (m : Move) : State :=
  let s := ((s.setLog i 0).setImg i [0, 0, 0]).detachRing i
  let shelf := s.shelf.map (fun (o : ShelfObj) => if o.accession == m.accession then { o with own := false } else o)
  let s := { s.freeSess i with moves := tDel s.moves i, commits := tDel s.commits i, shelf := shelf }
  s.updCat fun c =>
    let recs := c.fwd.filter (fun (r : FwdRec) => r.accession != m.accession)
    let recs := if recs.length ≥ 65536 then recs.drop 1 else recs
    { c with fwd := recs ++ [{ accession := m.accession, owner := m.peerDev, epoch := s.epoch, tick := s.tick }] }

/-- MOVE_COMMIT_REPLY, at the source (R94, R294). -/
def execMOVE_COMMIT_REPLY (acc status : Nat) (s : State) : Host.Outcome State Fault Refusal :=
  match s.moveOf acc false with
  | none => .next s
  | some (i, m) =>
    if m.phase != 2 then .next s
    else if statusClass status ≤ 1 then .next (s.moveDone i m) else .next (s.moveFailed i m)

end Sys2Proof.Machine
end

