-- ==== Sys2Proof/Machine/CkptFrame.lean ====
section
/-!
DEFINITION. Checkpoints: what a snapshot holds and its bytes (R302, R303, R311, R312), triggers and the barrier (R305-R308), the
write sequence, sealing and abandoning (R313, R314), mirrors (R315, R316).
-/

namespace Sys2Proof.Machine

/-! ## Keys and the fuse digest (R312, R370, R373, R376) -/

/-- Bytes of the fuse array from word `w` on. -/
def State.fuseBytes (s : State) (w n : Nat) : Bytes := slice ((List.range (n / 8 + 2)).flatMap (fun k => leBytes 8 (s.fuse (w + k)))) 0 n

/-- A fuse field of `n` bits from bit `a` (a multiple of 16), padded to whole bytes. -/
def State.fuseField (s : State) (a n : Nat) : Bytes :=
  let v := leNat (slice (s.fuseBytes (a / 64) (n / 8 + 16)) (a % 64 / 8) (cdiv n 8)) % 2 ^ n
  leBytes (cdiv n 8) v

/-- FUSE_DIGEST (R376). -/
def State.fuseDigest (s : State) : Nat :=
  rdLe (sha384 (s.fuseField 0x0 16 ++ s.fuseField 0x10 132 ++ s.fuseField 0xA0 272 ++ s.fuseField 0x200 6144 ++ s.fuseField 0x1A00 64)) 0 8

/-- The identity seed (Table 16.3), read by the Rind alone. -/
def State.seed (s : State) : Bytes := s.fuseField 0x1A40 256

/-- The checkpoint keys (Table 15.1). -/
def State.ckptXts (s : State) : Bytes := hkdf s.seed (label "yudar checkpoint xts") 64
def State.ckptGcm (s : State) : Bytes := hkdf s.seed (label "yudar checkpoint gcm") 32

/-- Record key of writer w under a tenant key (Table 15.1), and the tweak of a record (Table 15.2). -/
def recordKey (k : Bytes) (w : Nat) : Bytes := hkdf k (label "yudar record" ++ leBytes 4 w) 64
def recordTweak (acc first no : Nat) : Nat := acc + first * 2 ^ 64 + no * 2 ^ 96

/-! ## Session records (R303) -/

/-- The masks no acknowledged generation covers. -/
def Sess.newMasks (e : Sess) : List MaskRec := e.maskLog.drop (match e.manifest with | some m => m.maskCount | none => 0)

/-- The plain body of a session's record: the entry in canonical form with HOLDERS kept, the transcript entries and masks not yet
covered, padded (Table 12.2). -/
def State.recordBody (s : State) (i : Nat) (e : Sess) : Bytes :=
  let bare : Bool := match e.manifest with | some m => m.entries.isEmpty | none => e.shelfGen == 0 || e.state == Ss.TRANSCRIPT_ONLY
  let c := { e.canonical bare with holder1 := e.holder1, holder2 := e.holder2, holderTier1 := e.holderTier1, holderTier2 := e.holderTier2 }
  let entry := patch (s.entryBytes i c true) 0x14 (leBytes 4 e.tlen)
  let tail := if e.away then e.transcript else e.transcript.drop e.uncovered
  let b := slice entry 0 256 ++ tail.flatMap (leBytes 4) ++ e.newMasks.flatMap MaskRec.bytes
  b ++ List.replicate ((16 - b.length % 16) % 16) 0

/-- A session's record in checkpoint `no`, its body encrypted (R303); a tenant without a key gives a body no rule fixes. -/
def State.recordOf (s : State) (no i : Nat) (e : Sess) : Bytes :=
  let body := s.recordBody i e
  let n := (if e.away then e.transcript else e.transcript.drop e.uncovered).length
  let sealed_ := match (s.tenant e.tenant).key with
    | some k => xtsEnc (recordKey k s.devId) (recordTweak e.accession e.uncovered no) body
    | none => slice (Config.keylessBody e.accession no body.length) 0 body.length
  leBytes 8 e.accession ++ leBytes 2 e.tenant ++ leBytes 2 0 ++ leBytes 4 (if e.shelfGen == 0 then 0xFFFFF else e.holder2)
    ++ leBytes 4 e.uncovered ++ leBytes 4 n ++ leBytes 4 (e.newMasks.flatMap MaskRec.bytes).length ++ leBytes 4 e.shelfGen ++ sealed_

/-! ## Sections, blocks, the seal (R302, R311, R312) -/

/-- Section 10: where each bucket's records begin in section 11, and how many (Table 12.1). -/
def Snapshot.indexBytes (k : Snapshot) : Bytes :=
  let t := k.records.foldl (fun (a : Tbl (Nat × Nat) × Nat) r =>
    let old := (tGet a.1 r.1).getD (a.2, 0)
    (tPut a.1 r.1 (old.1, old.2 + 1), a.2 + r.2.2.length)) ([], 0)
  (dense (0, 0) 65536 0 t.1).flatMap (fun (x : Nat × Nat) => leBytes 8 x.1 ++ leBytes 4 x.2 ++ leBytes 4 0)

/-- Section 11. -/
def Snapshot.recordBytes (k : Snapshot) : Bytes := k.records.flatMap (fun r => r.2.2)

/-- Bytes of each section; sections 1 to 9 have at least one. -/
def Snapshot.sizes (k : Snapshot) : List Nat :=
  (List.range 9).map (fun i => 1 + Config.sectionBytes k.no (i + 1)) ++ [1048576, (k.records.map (fun r => r.2.2.length)).foldl (· + ·) 0]

/-- First block, blocks and bytes of each section (R311). -/
def Snapshot.sections (k : Snapshot) : List (Nat × Nat × Nat) :=
  (k.sizes.foldl (fun (a : List (Nat × Nat × Nat) × Nat) n =>
    let m := cdiv n 65520
    (a.1 ++ [if n == 0 then (0, 0, 0) else (a.2, m, n)], a.2 + m)) ([], 1)).1

/-- Data blocks of the checkpoint. -/
def Snapshot.blocks (k : Snapshot) : Nat := (k.sections.map (·.2.1)).foldl (· + ·) 0

/-- 65,520 bytes of a section from an offset, zeros past its end. -/
def Snapshot.data (k : Snapshot) (section_ off : Nat) : Bytes :=
  if section_ ≤ 9 then
    let n := k.sizes.getD (section_ - 1) 0
    (List.range 65520).map (fun i => if off + i < n then Config.sectionByte k.no section_ (off + i) else 0)
  else slice (if section_ == 10 then k.indexBytes else k.recordBytes) off 65520

/-- The plain bytes of block b, data and colophon (R311), and its section. -/
def Snapshot.plainBlock (k : Snapshot) (b : Nat) : Nat × Bytes :=
  match k.sections.zipIdx.find? (fun x => x.1.1 ≤ b && b < x.1.1 + x.1.2.1) with
  | some x =>
    let d := k.data (x.2 + 1) (65520 * (b - x.1.1))
    (x.2 + 1, d ++ colophon d k.no 0x0420)
  | none => (0, [])

/-- Block b as written: encrypted whole in sections 1 to 9 (R311, Table 15.2). -/
def Snapshot.block (k : Snapshot) (xts : Bytes) (b : Nat) : Bytes :=
  let p := k.plainBlock b
  if p.1 ≤ 9 then xtsEnc xts (k.no + b * 2 ^ 32) p.2 else p.2

/-- The nonce of a seal's TAG (R373). -/
def sealNonce (no slot : Nat) : Bytes := leBytes 4 no ++ leBytes 1 slot ++ List.replicate 7 0

/-- The seal record (Table 12.4). -/
def Snapshot.seal (k : Snapshot) (gcm : Bytes) (slot devCode : Nat) : Bytes :=
  let crcs := (List.range k.blocks).flatMap (fun b => slice (k.plainBlock (b + 1)).2 65520 8)
  let head := leBytes 1 0x10 ++ leBytes 1 slot ++ leBytes 2 devCode ++ leBytes 4 k.no ++ leBytes 4 k.profile ++ leBytes 4 k.dev
    ++ leBytes 8 k.fuseDigest ++ leBytes 4 k.epoch ++ leBytes 4 k.blocks ++ leBytes 8 k.tick ++ leBytes 8 k.steps
    ++ leBytes 8 (crc64 crcs) ++ leBytes 1 k.cause ++ List.replicate 7 0
    ++ k.sections.flatMap (fun x => leBytes 4 x.1 ++ leBytes 4 x.2.1 ++ leBytes 8 x.2.2)
  let body := slice head 0 0xFE0
  let b := body ++ gmac gcm (sealNonce k.no slot) body
  b ++ colophon b k.no 0x0421

/-- Does a seal record's colophon and TAG verify (R312, R317)? -/
def sealVerifies (gcm b : Bytes) : Bool :=
  let no := rdLe b 4 4
  b.length == 4096 && rdLe b 0xFFC 2 == 0x0421 && rdLe b 0xFF0 8 == crc64 (b.take 0xFF0) && rdLe b 0xFF8 4 == no
    && slice b 0xFE0 16 == gmac gcm (sealNonce no (rdLe b 1 1)) (b.take 0xFE0)

/-! ## Mirror pairs (R315) -/

/-- IDs after `d` in ascending order, wrapping. -/
def following (d : Nat) (ids : List Nat) : List Nat := ids.filter (fun x => decide (x > d)) ++ ids.filter (fun x => decide (x < d))

/-- The mirror pair of a device by a map (R315). -/
def mirrorPairOf (c : Cat) (d : Nat) : List Nat :=
  let of (st : Nat) := following d ((c.devices.filter (fun v => v.2.state == st)).map (·.1))
  let pool := (of 3).take 2
  pool ++ (of 1).take (2 - pool.length)

/-- This device's pair; none while it is no member. -/
def State.mirrorPair (s : State) : List Nat := if s.flag F.DEV_DEVID_VALID then mirrorPairOf s.cat s.devId else []

/-- Change the checkpoint side. -/
def State.updCkpt (s : State) (f : Ckpt → Ckpt) : State := { s with ckpt := f s.ckpt }

/-- Change the running checkpoint. -/
def State.updRun (s : State) (f : CkptRun → CkptRun) : State := s.updCkpt fun c => { c with run := c.run.map f }

/-! ## Triggers (R305, R306) -/

/-- PHASE of CKPT_STATUS. -/
def State.phase (s : State) : Nat := s.fld F.CKPT_STATUS_PHASE
def State.setPhase (s : State) (p : Nat) : State := s.setFld F.CKPT_STATUS_PHASE p

/-- A checkpoint begins: its number, its lock, its barrier (R302, R306, R307). -/
def State.beginCkpt (s : State) (cause : Nat) : State :=
  let no := s.ckpt.no + 1
  let more := match s.ckpt.retry with | some r => r.2 | none => 0
  let s := s.updCkpt fun c => { c with no := no, cause := cause ||| c.deferred ||| more, deferred := 0, retry := none }
  let s := (s.takeLock none Ac.CHECKPOINT 0 0 false true).bump F.CKPT_CNT_TAKEN_COUNT
  ((s.setPhase 1).setFld F.CKPT_STATUS_RUNNING no).wake .barrier

/-- May a checkpoint begin now: none runs, nothing is being restored, and no lock stands against it (R306, R422)? -/
def State.ckptFree (s : State) : Bool := s.phase == 0 && (s.lockBusy Ac.CHECKPOINT 0 0).isNone

/-- A trigger, by its place in R305: ignored while EN is 0, deferred while a checkpoint runs or a lock stands against it. -/
def State.trigger (s : State) (i : Nat) : State :=
  if !s.flag F.CKPT_CTRL_EN then s
  else if s.ckptFree then s.beginCkpt (2 ^ i)
  else (s.updCkpt fun c => { c with deferred := c.deferred ||| 2 ^ i }).bump F.CKPT_CNT_DEFER_COUNT

/-- The pair of the present map is reported, and a change of it is a trigger (R315). -/
def State.mirrorCheck (s : State) : State :=
  let p := s.mirrorPair
  let old := (if s.flag F.CKPT_MIRROR_VALID0 then [s.fld F.CKPT_MIRROR_MIRROR0] else []) ++ (if s.flag F.CKPT_MIRROR_VALID1 then [s.fld F.CKPT_MIRROR_MIRROR1] else [])
  if p == old then s
  else
    let s := (s.setFld F.CKPT_MIRROR_VALID0 (b2n (p.length ≥ 1))).setFld F.CKPT_MIRROR_VALID1 (b2n (p.length ≥ 2))
    ((s.setFld F.CKPT_MIRROR_MIRROR0 (p.getD 0 0)).setFld F.CKPT_MIRROR_MIRROR1 (p.getD 1 0)).trigger 4

/-! ## The end of a checkpoint -/

/-- Slips that wait for the running checkpoint: CKPT_TAKE with WAIT_SEAL, or every one of them. -/
def State.answerTakes (s : State) (all : Bool) (a : Answer) : State :=
  let w := s.slips.filter (fun o => o.op == Op.CKPT_TAKE && o.stage == .waiting && (all || o.slip.P0 % 2 == 0))
  w.foldl (fun s o => s.finish o.op o.slip a) s

/-- The snapshot is protected no longer: what was freed since the barrier returns to the free pools (R308, R313). -/
def State.unguard (s : State) : State := s.updCkpt fun c => { c with guarding := false, heldSlots := [], guarded := [] }

/-- The running checkpoint is over. -/
def State.endCkpt (s : State) : State :=
  let s := (s.updCkpt fun c => { c with run := none, cause := 0 }).unguard
  (((s.dropLocks (fun l => l.activity == Ac.CHECKPOINT && l.holder.isNone)).setPhase 0).setFld F.CKPT_STATUS_RUNNING 0).setReg A.CKPT_PROGRESS 0

/-- A checkpoint is abandoned (R314); those that wait for its seal are answered. -/
def State.abandonCkpt (s : State) (cause : Nat) (a : Answer) : State :=
  let s := if cause == 0 then s else s.setFld F.CKPT_STATUS_LAST_ABANDON cause
  ((s.bump F.CKPT_CNT_ABANDON_COUNT).answerTakes true a).endCkpt

/-- The press has failed for good: three abandoned in a row (R314). -/
def State.pressFault (s : State) : State :=
  let n := s.ckpt.press.fails + 1
  let s := s.updCkpt fun c => { c with press := { c.press with fails := n } }
  if n ≥ 3 then s.setFld F.CKPT_STATUS_PRESS 3 else s

/-- The first check of R360 a snapshot fails. -/
def Snapshot.failed (k : Snapshot) : Option (Nat × Nat) := match k.audit with | some a => some a | none => k.breach

/-- A snapshot fails its audit before the seal: a violation, whose reset abandons the checkpoint (R360). -/
def State.auditFailed (s : State) (k : Snapshot) : State :=
  match k.failed with
  | some f => s.wake (.violation f.1 2 f.2)
  | none => s

/-! ## Mirroring (R316) -/

/-- Blocks of the running checkpoint's next PUT to a holder, or its seal after the last. -/
def State.mirrorSend (s : State) (dev : Nat) : State :=
  match s.ckpt.run with
  | none => s
  | some r =>
    match r.mirrors.find? (fun m => m.1 == dev) with
    | none => s
    | some m =>
      let total := r.snap.blocks
      if m.2.1 ≤ total then
        let n := min 15 (total + 1 - m.2.1)
        let body := (List.range n).flatMap (fun k => r.snap.block s.ckptXts (m.2.1 + k))
        let s := s.updRun fun r => { r with mirrors := r.mirrors.map (fun (x : Nat × Nat × Nat) => if x.1 == dev then (dev, x.2.1 + n, 0) else x) }
        s.sendDev dev Op.CKPT_MIRROR_PUT 0 0xFFFF [r.snap.no, m.2.1, n] (structure0 0x1C10 body) (.shelf dev)
      else if !r.isSealed && r.snap.failed.isSome then s.auditFailed r.snap
      else
        let s := s.updRun fun r => { r with mirrors := r.mirrors.map (fun (x : Nat × Nat × Nat) => if x.1 == dev then (dev, x.2.1, 1) else x) }
        s.sendDev dev Op.CKPT_MIRROR_PUT 0 0xFFFF [r.snap.no, 0, 1]
          (structure0 0x1C10 (r.snap.seal s.ckptGcm r.slot (s.fld F.DEV_ID_DEVICE_CODE))) (.shelf dev)

/-- Mirroring begins, to the pair as computed now; without a pair there is none. -/
def State.beginMirror (s : State) : State :=
  let p := s.mirrorPair
  let s := (s.updRun fun r => { r with mirrors := p.map (fun d => (d, 1, 0)) }).setPhase 4
  p.foldl State.mirrorSend s

/-! ## Sealing and the write sequence (R313) -/

/-- A run's checkpoint is sealed: it is the newest, its GENs bind (R309), what was held returns, and waiting slips are
answered. -/
def State.sealCkpt (s : State) : State :=
  match s.ckpt.run with
  | none => s
  | some r =>
    let k := r.snap
    let s := s.updCkpt fun c =>
      { c with run := some { r with isSealed := true }, sealedGens := some (k.gens, k.genBase),
               press := if r.press then { c.press with slots := tPut c.press.slots r.slot k, fails := 0 } else c.press }
    let s := if r.press then s.setFld F.CKPT_STATUS_NEXT_SLOT (1 - r.slot) else s
    let s := ((s.setFld F.CKPT_LAST_VALID 1).setFld F.CKPT_LAST_SLOT (if r.press then r.slot else 0)).setFld F.CKPT_LAST_MIRRORED 0
    let s := ((s.setFld F.CKPT_LAST_BLOCKS k.blocks).setFld F.CKPT_LAST_CKPT_NO k.no).bump F.CKPT_CNT_SEALED_COUNT
    s.unguard.answerTakes true (Answer.ok k.no)

/-- What is left when mirroring ends (R316): MIRRORED when every holder has acknowledged the seal. -/
def State.mirrorEnd (s : State) : State :=
  match s.ckpt.run with
  | none => s
  | some r =>
    if r.mirrors.any (fun m => m.2.2 ≤ 1) then s
    else
      let all := !r.mirrors.isEmpty && r.mirrors.all (fun m => m.2.2 == 2)
      if r.isSealed then
        (if all then ((s.updCkpt fun c => { c with mirrored := (c.mirrored ++ [r.snap]).drop ((c.mirrored.length + 1) - 2) }).setFld F.CKPT_LAST_MIRRORED 1).bump
            F.CKPT_CNT_MIRRORED_COUNT
          else if r.mirrors.isEmpty then s else s.bump F.CKPT_CNT_MIRROR_FAIL_COUNT).endCkpt
      else if all then
        (((s.updCkpt fun c => { c with mirrored := (c.mirrored ++ [r.snap]).drop ((c.mirrored.length + 1) - 2) }).sealCkpt.setFld F.CKPT_LAST_MIRRORED 1).bump
            F.CKPT_CNT_MIRRORED_COUNT).endCkpt
      else (if r.mirrors.isEmpty then s else s.bump F.CKPT_CNT_MIRROR_FAIL_COUNT).abandonCkpt 0 (Answer.st St.TIMEOUT)

/-- A holder of the running checkpoint has failed (R316). -/
def State.mirrorLost (s : State) (dev : Nat) : State :=
  match s.ckpt.run with
  | none => s
  | some r =>
    if s.phase == 4 && r.mirrors.any (fun m => m.1 == dev && m.2.2 ≤ 1) then
      (s.updRun fun r => { r with mirrors := r.mirrors.map (fun (m : Nat × Nat × Nat) => if m.1 == dev then (dev, m.2.1, 3) else m) }).mirrorEnd
    else s

/-- Does the next checkpoint go to the press (R313)? -/
def State.pressUsable (s : State) : Bool := s.flag F.CKPT_CTRL_PRESS_EN && s.fld F.CKPT_STATUS_PRESS == 1

/-! ## The barrier (R305, R307, R308) -/

/-- Addresses of the register words the CONTROL section holds (Table 12.1). -/
def controlWords : List Nat :=
  [A.SESS_CTRL, A.SESS_TTL_DEF0, A.SESS_TTL_DEF1, A.SESS_TTL_DEF2, A.TIER_CTRL, A.TIER_WMARK, A.TIER_RIPEN_CFG, A.TIER_POOL_CFG,
   A.TIER_HOLD, A.ME_CTRL, A.ME_RATIO_CFG, A.ME_HEAD_CFG, A.ME_POOL, A.ME_POOL + 8, A.ME_POOL + 16, A.ME_XCHG_CFG, A.SCHED_CTRL,
   A.SCHED_BATCH, A.SCHED_PROFILE, A.CKPT_CTRL, A.CKPT_TRIG, A.CKPT_REHOME]

/-- An entry as section 2 holds it (Table 12.1): DEADLINE as the time remaining plus 1, 0 where it has none. -/
def State.savedSess (s : State) (e : Sess) : Sess :=
  { e with deadline := if e.deadline == 0 then 0 else e.deadline - s.tick + 1, entered := s.tick - e.entered, pages := [], down := [] }

/-- A tenant as sections 4, 5 and 7 hold it. -/
def State.savedTenant (s : State) (t : Tenant) : Tenant :=
  { t.refillBudget s.tick with key := none, kcv := 0, trust := [], trustOperator := false, finish := 0 }

/-- The state captured at the instant of a barrier (R302, Table 12.1). -/
def State.capture (s : State) (no cause seqLimit : Nat) : Snapshot :=
  let live := s.sessions.filter (fun p => p.2.state != Ss.FREE && p.2.state != Ss.CLOSED)
  let recs := live.map (fun p => (bucketOf p.2.accession, p.2.accession, s.recordOf no p.1 p.2))
  { no := no, cause := cause, epoch := s.epoch, tick := s.tick, steps := s.fld F.SCHED_CNT_STEPS_COUNT, dev := s.devId,
    profile := (s.profile.map (·.id)).getD 0, fuseDigest := s.fuseDigest,
    words := controlWords.map (fun a => (a, s.reg a)), seqLimit := seqLimit, pool := s.pool, hostRegions := s.hostRegions,
    peers := (s.peers.filter (fun p => p.2.valid && p.2.kind != 2 && p.2.kind != 3)).map
      (fun (p : Nat × Peer) => (p.1, { p.2 with state := 0, tx := PeerTx.fresh, rx := PeerRx.fresh, prov := 0 })),
    sessions := s.sessions.map (fun p => (p.1, s.savedSess p.2)), moves := s.moves, gens := s.gens, genBase := s.genBase,
    refs := s.slots.map (fun u => (u.1, u.2.refs)), audit := s.firstBreach,
    members := (s.cat.devices.filter (fun d => d.2.state != 0 && d.2.state != 3)).map (·.1),
    tenants := s.tenants.map (fun t => (t.1, s.savedTenant t.2)), shapers := s.shapers,
    rings := s.rings.map (fun (r : Nat × Ring) => (r.1, { r.2 with batch := [], pushes := [], conf := 0 })),
    catDigest := s.fld F.CAT_DIGEST_DIGEST, loc := s.cat.loc, fwd := s.cat.fwd,
    shards := s.shards,
    records := recs.mergeSort (fun a b => a.1 < b.1 || (a.1 == b.1 && a.2.1 ≤ b.2.1)) }

/-- SEQ_LIMIT a barrier sets: NEXT + 2^20, at most the lease end (R305). -/
def State.newLimit (s : State) : Nat :=
  let next := s.fld F.SESS_SEQ_NEXT + 2 ^ 20
  if !s.flag F.DEV_DEVID_VALID then next
  else match tGet s.cat.devices s.devId with | some d => min next (d.lease * 2 ^ 32) | none => next

/-- The checkpoint outgrows its slot (R314 cause 3): transcripts with long tails are committed at once, and it is taken again. -/
def State.tooLarge (s : State) (k : Snapshot) : State :=
  let long := s.sessions.filter (fun p => p.2.state != Ss.CLOSED && p.2.tlen - p.2.uncovered > 4096)
  let s := s.abandonCkpt 3 (Answer.st St.NO_SLOTS 11)
  let s := long.foldl (fun s p =>
    match (s.profile.map (·.parkPath)).getD [] with
    | t :: _ => if (tGet s.commits p.1).isNone && p.2.tier == 1 then (s.tryCommit p.1 0 t false).1 else s
    | [] => s) s
  s.updCkpt fun c => { c with deferred := c.deferred ||| k.cause }

/-- The barrier's instant (R307 steps 2 to 4): the snapshot is taken and protected, SEQ_LIMIT moves, the write sequence begins, and
what was held goes on.  `Config.barrierNs` gives its duration, at most 50 µs. -/
def State.doBarrier (s : State) : State :=
  if s.phase != 1 then s
  else
    let ns := Config.barrierNs s.ckpt.no % 50001
    let s := (s.setFld F.CKPT_BARRIER_LAST_NS ns).maxFld F.CKPT_BARRIER_MAX_NS ns
    let limit := s.newLimit
    let s := s.setFld F.CKPT_SEQ_SEQ_LIMIT limit
    let k := s.capture s.ckpt.no s.ckpt.cause limit
    let press := s.pressUsable
    let slot := if press then s.fld F.CKPT_STATUS_NEXT_SLOT else 0
    let run : CkptRun := { snap := k, press := press, slot := slot, stage := 0, left := k.blocks, isSealed := false, mirrors := [] }
    let s := s.updCkpt fun c =>
      { c with run := some run, prevTick := s.tick, prevSteps := k.steps, guarding := true, heldSlots := [],
               guarded := (s.liveRuns 2).map (fun r => (2, r)) ++ (s.liveRuns 3).map (fun r => (3, r)) }
    let s := (s.answerTakes false (Answer.ok k.no)).release (· == .barrier)
    let s := ((s.setPhase 2).setFld F.CKPT_PROGRESS_TOTAL k.blocks).setFld F.CKPT_PROGRESS_WRITTEN 0
    if k.blocks > 131071 then s.tooLarge k
    else if press then s.emit (.nvme .ckptWrite slot 0 0)
    else s.beginMirror.mirrorEnd

/-- A write of the running checkpoint to the press has completed: `n` blocks, the Flush, or the seal (R313). -/
def State.pressStep (s : State) (n : Nat) : State :=
  match s.ckpt.run with
  | none => s
  | some r =>
    if !r.press || r.isSealed then s
    else if r.stage == 0 then
      let s := s.updCkpt fun c => { c with run := some { r with stage := 1 }, press := { c.press with slots := tDel c.press.slots r.slot } }
      s.emit (.nvme .ckptWrite r.slot 1 r.snap.blocks)
    else if r.stage == 1 then
      let left := r.left - n
      let s := (s.updRun fun r => { r with left := left }).setFld F.CKPT_PROGRESS_WRITTEN (r.snap.blocks - left)
      if left == 0 then (((s.updRun fun r => { r with stage := 2 }).setPhase 3).emit (.nvme .ckptWrite r.slot 0 0)) else s
    else if r.stage == 2 && r.snap.failed.isSome then s.auditFailed r.snap
    else if r.stage == 2 then (s.updRun fun r => { r with stage := 3 }).emit (.nvme .ckptWrite r.slot 0 1)
    else s.sealCkpt.beginMirror.mirrorEnd

/-- A write of the running checkpoint to the press has failed (R314 cause 4). -/
def State.pressError (s : State) : State :=
  match s.ckpt.run with
  | none => s
  | some r => if !r.press || r.isSealed then s else s.pressFault.abandonCkpt 4 (Answer.st St.MEDIA s.lastErr)

end Sys2Proof.Machine
end

