-- ==== Sys2Proof/Machine/Tier.lean ====
section
/-!
DEFINITION. The tier commands (Table 7.9), the expiries (R91), the ripening engine's events (R189, R190, R192), the events of
revives and pre-emption copies (R188, R193), and the TIER register events (R201).
-/

namespace Sys2Proof.Machine

/-! ## Tier slips -/

/-- Set a quota limit; the tenant is provisioned by it (R42, R186). -/
def State.setLimit (s : State) (t tier limit : Nat) : State :=
  s.updTenant t fun v =>
    { v with provisioned := true, quotas := v.quotas.set (tier - 1) { s.quota t tier with limit := limit } }

/-- TIER_SET_QUOTA (R186). -/
def execTIER_SET_QUOTA (x : Slip) (s : State) : Host.Outcome State Fault Refusal :=
  runTier Op.TIER_SET_QUOTA x s fun s =>
    if x.acc != 0 then .no s St.RESERVED_NONZERO 0x10
    else match badParam x [7, w32, 0, 0, 0, 0] with
      | some k => .no s St.BAD_PARAM k
      | none =>
        if x.P0 == 0 || x.P0 > 4 then .no s St.BAD_PARAM 0
        else .done (s.setLimit x.ten x.P0 x.P1) (Answer.ok (s.quota x.ten x.P0).used)

/-- TIER_QUERY: capacity and free count of T1 to T4 in quarter pages; T4's are its holders' (log entry 34). -/
def execTIER_QUERY (x : Slip) (s : State) : Host.Outcome State Fault Refusal :=
  runTier Op.TIER_QUERY x s fun s =>
    if x.acc != 0 then .no s St.RESERVED_NONZERO 0x10
    else match badParam x [0, 0, 0, 0, w32, w32] with
      | some k => .no s St.BAD_PARAM k
      | none =>
        let slots := match s.profile with | some p => p.slotsOf .kv | none => 0
        let body := [4 * slots, 4 * s.freeT1, s.tierUnits 2, s.freeUnits 2, s.tierUnits 3, s.freeUnits 3,
                     Config.poolRoom 0 s.freeCtr, Config.poolRoom 1 s.freeCtr].flatMap (leBytes 8)
        .done { s with freeCtr := s.freeCtr + 1 } (Answer.ok 0 0 (structure0 0x1001 body))

/-- TIER_LEND_HOST (R199, R201). -/
def execTIER_LEND_HOST (x : Slip) (s : State) : Host.Outcome State Fault Refusal :=
  runTier Op.TIER_LEND_HOST x s fun s =>
    let base := x.P0 + x.P1 * 2 ^ 32
    let size := x.P2 * 2 ^ 21
    let overlap := s.hostRegions.any (fun r => r.2.state != 0 && base < r.2.base + r.2.units * 2 ^ 21 && r.2.base < base + size)
    if x.acc != 0 then .no s St.RESERVED_NONZERO 0x10
    else match badParam x [w32, w32, w32, 0, 0, 0] with
      | some k => .no s St.BAD_PARAM k
      | none =>
        if base % 2 ^ 21 != 0 then .no s St.BAD_PARAM 0
        else if x.P2 == 0 then .no s St.BAD_PARAM 2
        else if overlap then .no s St.BAD_PARAM 1
        else match tFree s.hostRegions 1 16 0 with
          | none => .no s St.NO_SLOTS 7
          | some r =>
            let s := s.shiftT3 (s.regionFirst r) (x.P2 * 128) 0
            .done { s with hostRegions := tPut s.hostRegions r { state := 1, base := base, units := x.P2 } } (Answer.ok r)

/-- Move the pre-emption copies of a session that lie in some units to another lent region, or to T2 (R200). -/
def State.moveDowns (s : State) (i : Nat) (inRegion : Nat → Bool) : State :=
  let e := s.sess i
  (e.down.filter (fun d => d.tier == 3 && inRegion d.unit)).foldl (fun s d =>
    let n := bodyQuarters d.body.length
    let other := match s.pickUnits 3 n with | some u => some (3, u) | none => (if s.quotaFits e.tenant 2 n then (s.pickUnits 2 n).map (fun u => (2, u)) else none)
    match other with
    | none => s
    | some (t, u) =>
      let s := (if t == 3 then s.writeT3 u d.body else (s.subUsed e.tenant 3 n).addUsed e.tenant 2 n).guardRun t u n
      s.updSess i (fun e => { e with down := e.down.map (fun (x : DownPage) => if x = d then { d with tier := t, unit := u } else x) })) s

/-- Clear a region (R200): shelf copies go to another lent region with room, else their session takes its T3 expiry at once;
pre-emption copies go to another region or T2. -/
def State.clearRegion (s : State) (n : Nat) : State :=
  let first := s.regionFirst n
  let len := match tGet s.hostRegions n with | some r => r.len | none => 0
  let inside := fun (u : Nat) => first ≤ u && u < first + len
  let s := (s.shelf.filter (fun o => o.tier == 3 && inside o.unit)).foldl (fun (s : State) o =>
    match s.pickUnits 3 (bodyQuarters o.body.length) with
    | some u =>
      { s.guardRun 3 u (bodyQuarters o.body.length) with shelf := s.shelf.map (fun (x : ShelfObj) => if x = o then { o with unit := u } else x) }.writeT3 u o.body
    | none => s) s
  let stuck := (s.shelf.filter (fun o => o.tier == 3 && o.own && !o.second && inside o.unit)).map (·.accession)
  let s := stuck.eraseDups.foldl (fun s a =>
    match s.findSess a with
    | some (i, e) => if e.state == Ss.PARKED && (tGet s.commits i).isNone && (tGet s.revives i).isNone && s.flag F.TIER_CTRL_DOWN_EN && !s.fenced then s.beginDown i else s
    | none => s) s
  s.sessions.foldl (fun s p => if p.2.down.isEmpty then s else s.moveDowns p.1 inside) s

/-- Regions being reclaimed are cleared further, as sessions whose commit was in progress allow (R200). -/
def State.clearAgain (s : State) : State :=
  (s.hostRegions.filter (fun r => r.2.state == 2)).foldl (fun s r => s.clearRegion r.1) s

/-- TIER_RECLAIM_HOST (R200): answered when the region is empty; it runs under the lock of Table 16.7 (R421, R423). -/
def execTIER_RECLAIM_HOST (x : Slip) (s : State) : Host.Outcome State Fault Refusal :=
  runTier Op.TIER_RECLAIM_HOST x s fun s =>
    if x.acc != 0 then .no s St.RESERVED_NONZERO 0x10
    else match badParam x [15, 0, 0, 0, 0, 0] with
      | some k => .no s St.BAD_PARAM k
      | none => match tGet s.hostRegions x.P0 with
        | none => .no s St.BAD_PARAM 0
        | some r => match s.lockBusy Ac.HOST_RECLAIM 1 3 with
          | some l => s.lockRefused l
          | none =>
            let s := ({ s with hostRegions := tPut s.hostRegions x.P0 { r with state := 2 } }).clearRegion x.P0
            if (s.regionUse x.P0).isEmpty then .done s.reclaimCheck (Answer.ok)
            else .wait (s.takeLock (some x.src) Ac.HOST_RECLAIM 1 3 true true)

/-- HOST_RECLAIM_TIMEOUT (R200): the region could not be emptied within 10 s. -/
def execHOST_RECLAIM_TIMEOUT (region : Nat) (s : State) : Host.Outcome State Fault Refusal :=
  let s := s.reclaimCheck
  let w := s.slips.filter (fun o => o.op == Op.TIER_RECLAIM_HOST && o.slip.P0 == region && o.stage == .waiting)
  let left := ((s.regionUse region).map (fun u => cdiv u.2 4)).foldl (· + ·) 0
  .next (w.foldl (fun s o => s.finish Op.TIER_RECLAIM_HOST o.slip (Answer.st St.BUSY left)) (s.dropLocks (fun l => l.activity == Ac.HOST_RECLAIM && l.auto)))

/-- Objects and checkpoint copies held for other devices, in units (TIER_HOLD.USED; R186, R316). -/
def State.holdUsed (s : State) : Nat :=
  ((s.shelf.filter (fun o => !o.own)).map (fun o => bodyQuarters o.body.length)).foldl (· + ·) 0
    + (s.ckpt.mirrors.map (fun m => 4 * m.blocks.length + b2n m.sealRec.isSome)).foldl (· + ·) 0

/-- TIER_SHELF_PUT, at a holder (R194, R199). -/
def execTIER_SHELF_PUT (x : Slip) (s : State) : Host.Outcome State Fault Refusal :=
  runTier Op.TIER_SHELF_PUT x s fun s =>
    match badParam x [0xFF, w32, w32, 0, 0, 0] with
    | some k => .no s St.BAD_PARAM k
    | none => match badStruct 0x1010 40 x.payload with
      | some b => .no s b.1 b.2
      | none =>
        let h := x.payload.drop 8
        let n := rdLe h 0x14 4
        let body := (h.drop 32).take n
        let same := s.shelf.filter (fun o => !o.own && o.accession == x.acc && o.kind == x.P0 && o.number == x.P1)
        let top := (same.map (·.alive)).foldl max 0
        let want := objHeader x.acc x.P0 x.ten x.P1 x.P2 n
        if x.acc == 0 then .no s St.UNKNOWN_SESSION
        else if x.P0 == 0 || x.P0 > 5 then .no s St.BAD_PARAM 0
        else if rdLe x.payload 4 4 < 40 + n then .no s St.PAYLOAD_TRUNCATED
        else if slice h 0 9 != slice want 0 9 || slice h 10 14 != slice want 10 14 then .no s St.BAD_PARAM (0x100 + 0x1010)
        else if same.any (·.alive == x.P2) then .done s (Answer.mk' St.ALREADY_DONE 0 0 n)
        else if x.P2 < top then .no s St.BAD_PARAM 2
        else
          let units := bodyQuarters n
          match s.pickUnits 2 units with
          | some u =>
            if s.holdUsed + units > s.fld F.TIER_HOLD_CAP then .no s St.NO_SLOTS 6
            else
              let o : ShelfObj := { accession := x.acc, kind := x.P0, number := x.P1, alive := x.P2, tenant := x.ten, body := body,
                                    tier := 2, own := false, second := false, unit := u }
              .done { s.guardRun 2 u units with shelf := s.shelf ++ [o] } (Answer.ok 0 n)
          | none => .no s St.NO_SLOTS 6

/-- TIER_SHELF_GET, at a holder. -/
def execTIER_SHELF_GET (x : Slip) (s : State) : Host.Outcome State Fault Refusal :=
  runTier Op.TIER_SHELF_GET x s fun s =>
    match badParam x [0xFF, w32, w32, 0, w32, w32] with
    | some k => .no s St.BAD_PARAM k
    | none =>
      let same := s.shelf.filter (fun o => o.accession == x.acc && o.kind == x.P0 && o.number == x.P1)
      let top := (same.map (·.alive)).foldl max 0
      match same.find? (fun o => o.alive == (if x.P2 == 0 then top else x.P2)) with
      | none => .no s St.UNKNOWN_SESSION 1
      | some o =>
        if s.unitsHurt o.tier o.unit o.body.length then .no (s.bump F.ERR_CNT_POISON_OUT_COUNT) St.MEDIA s.lastErr
        else .done s (Answer.ok 0 0 (objHeader o.accession o.kind o.tenant o.number o.alive o.body.length ++ o.body))

/-- TIER_SHELF_DROP, at a holder. -/
def execTIER_SHELF_DROP (x : Slip) (s : State) : Host.Outcome State Fault Refusal :=
  runTier Op.TIER_SHELF_DROP x s fun s =>
    match badParam x [0xFF, w32, w32, 0, 0, 0] with
    | some k => .no s St.BAD_PARAM k
    | none =>
      let go := fun (o : ShelfObj) => !o.own && o.accession == x.acc && (x.P0 == 0 || o.kind == x.P0)
        && (x.P1 == w32 || o.number == x.P1) && (x.P2 == w32 || o.alive < x.P2)
      let n := (s.shelf.filter go).length
      if n == 0 then .no s St.ALREADY_DONE
      else .done { s with shelf := s.shelf.filter (fun o => !go o) } (Answer.ok n)

/-! ## Expiries (R79, R90, R91, Table 7.5) -/

/-- Has the expiry of a session in its present state come due?  A slip that is to act on the session goes before it (R79). -/
def State.due (s : State) (e : Sess) : Bool := (s.ttlOf e).isSome && e.deadline ≤ s.tick && !s.slipReady e.accession

/-- EXPIRY_TTL_WAIT: an ACCESSIONED session closes; a WAITING one parks, unless its expiry is held or deferred. -/
def execEXPIRY_TTL_WAIT (acc : Nat) (s : State) : Host.Outcome State Fault Refusal :=
  match s.findSess acc with
  | none => .next s
  | some (i, e) =>
    if !s.due e || s.textOpen i || s.barring then .next s
    else if e.state == Ss.ACCESSIONED then .next ((s.closeSess i).bump F.SESS_CNT_EXPIRE_COUNT)
    else if e.state != Ss.WAITING || !s.flag F.TIER_CTRL_DOWN_EN || s.parkBarred i || s.fenced then .next s
    else
      let r := (s.abandonCommit i).parkFirst i 1
      if r.2.isSome then .next s else .next (r.1.bump F.SESS_CNT_EXPIRE_COUNT)

/-- EXPIRY_TIER: a PARKED session goes down one tier of its path, or becomes TRANSCRIPT_ONLY after the last. -/
def execEXPIRY_TIER (acc : Nat) (s : State) : Host.Outcome State Fault Refusal :=
  match s.findSess acc with
  | none => .next s
  | some (i, e) =>
    if e.state != Ss.PARKED || !s.due e || s.barring || !s.flag F.TIER_CTRL_DOWN_EN || s.fenced || (tGet s.commits i).isSome
        || (tGet s.revives i).isSome then .next s
    else .next ((s.beginDown i).bump F.SESS_CNT_EXPIRE_COUNT)

/-- EXPIRY_TRANSCRIPT: the session becomes CLOSED and every object is dropped; it waits while a lost holder is being replaced (R191,
R192). -/
def execEXPIRY_TRANSCRIPT (acc : Nat) (s : State) : Host.Outcome State Fault Refusal :=
  match s.findSess acc with
  | none => .next s
  | some (i, e) =>
    if e.state == Ss.TRANSCRIPT_ONLY && s.due e && !s.barring && (tGet s.commits i).isNone && (tGet s.revives i).isNone then .next (((s.closeSess i).reclaimCheck).bump F.SESS_CNT_EXPIRE_COUNT)
    else .next s

/-- CLOSED_HOLD_EXPIRY: the entry becomes FREE. -/
def execCLOSED_HOLD_EXPIRY (acc : Nat) (s : State) : Host.Outcome State Fault Refusal :=
  match s.findSess acc with
  | none => .next s
  | some (i, e) => if e.state == Ss.CLOSED && s.due e && !s.barring then .next (s.freeSess i) else .next s

/-! ## The ripening engine -/

/-- Has a hot session anything not yet copied: a full page, or a completed transcript block (R189)? -/
def State.uncopied (s : State) (p : Profile) (e : Sess) : Bool :=
  let m := e.manifest
  let newPage := (e.coveredPages p false).any fun r => match m with
    | none => true
    | some m => !(m.entries.any (fun x => x.layer == r.layer && x.index == r.index && x.gen == s.gen r.slot && x.tweakPage == r.slot && x.fill == r.fill))
  newPage || e.tlen / 1024 * 1024 > ((m.map (·.transcriptLen)).getD 0)

/-- COMMIT_PERIOD (R189): background generations of the hot sessions of a partition. -/
def execCOMMIT_PERIOD (part : Nat) (s : State) : Host.Outcome State Fault Refusal :=
  match s.profile with
  | none => .next s
  | some p =>
    if !s.flag F.TIER_CTRL_RIPEN_EN || s.fenced then .next s
    else
      let hot := s.sessions.filter (fun q => s.home q.1 == part && !q.2.away
        && (q.2.state == Ss.PREFILL || q.2.state == Ss.DECODE || q.2.state == Ss.WAITING || q.2.state == Ss.RING_FULL)
        && (tGet s.commits q.1).isNone && s.uncopied p q.2)
      .next (hot.foldl (fun s q =>
        match p.parkPath.head? with
        | none => s
        | some t =>
          let r := s.tryCommit q.1 0 t false
          if r.2.isSome then s.bump F.TIER_CNT_QUOTA_WAIT_COUNT else r.1) s)

/-- Pages whose GEN has changed since their copy are discarded from the generation and copied again (R190); answers whether
there were any. -/
def State.recopy (s : State) (i : Nat) (p : Profile) (c : Commit) : State × Bool :=
  let e := s.sess i
  let stale := c.copied.filter (fun x => s.gen x.2.1 != x.2.2 || !(e.pages.any (fun r => r.slot == x.2.1)))
  if stale.isEmpty then (s, false)
  else
    let s := s.bumpBy F.TIER_CNT_DISCARD_COUNT stale.length
    let s := stale.foldl (fun s x =>
      match tGet s.commits i with
      | none => s
      | some c =>
        let ents := c.manifest.entries.filter (fun y => pageNumber y.layer y.index != x.1)
        let copied := c.copied.filter (fun y => y.1 != x.1)
        match e.pages.find? (fun r => pageNumber r.layer r.index == x.1) with
        | none => { s with commits := tPut s.commits i { c with copied := copied, manifest := { c.manifest with entries := ents } } }
        | some r =>
          let y := s.indexEntry none c.gen r
          let ents := (ents ++ [y]).mergeSort (fun a b => a.index < b.index || (a.index == b.index && a.layer ≤ b.layer))
          let c := { c with copied := copied ++ [(x.1, r.slot, y.gen)], manifest := { c.manifest with entries := ents } }
          let s := { s with commits := tPut s.commits i c }
          s.writeBoth i c 3 x.1 r.index (s.sealPage e.tenant y.gen y.tweakPage y.fill (leavingImage p r.format (s.pageImage r) r.fill))) s
    (s, true)

/-- Every object of the generation's present step is acknowledged: the next step of R190. -/
def State.commitStep (s : State) (i : Nat) : State :=
  match tGet s.commits i, s.profile with
  | some c, some p =>
    if !c.unacked.isEmpty || (match tGet s.revives i with | some r => r.phase == 6 | none => false) then s
    else if c.head then ((s.commitDone i).passOn i).clearAgain.reclaimCheck
    else
      let r := s.recopy i p c
      if r.2 then r.1 else r.1.writeHead i
  | _, _ => s

/-- A holder without room refuses (R186, Table 7.4, R199): background work pauses, a park stays WAITING, a tier is skipped for
the ones after it. -/
def State.holderFull (s : State) (i : Nat) (c : Commit) : State :=
  let s := s.abandonCommit i
  if c.why == 0 || c.why == 5 then s.bump F.TIER_CNT_QUOTA_WAIT_COUNT
  else if c.why == 4 then
    let s := s.bump F.TIER_CNT_SKIP_COUNT
    if s.fenced then s else s.beginDown i c.target
  else s.parkRefused i (4, false)

/-- HOLDER_ACK: a holder answers PUTs of a session (R190). -/
def execHOLDER_ACK (acc dev : Nat) (objs : List (Nat × Nat)) (status detail : Nat) (s : State) :
    Host.Outcome State Fault Refusal :=
  match s.findSess acc with
  | none => .next s
  | some (i, _) =>
    match tGet s.commits i with
    | none => .next s
    | some c =>
      let mine := c.unacked.filter (fun u => u.1 == dev && objs.contains (u.2.1, u.2.2))
      if mine.isEmpty then .next s
      else if statusClass status ≤ 1 then
        let s := { s with commits := tPut s.commits i { c with unacked := c.unacked.filter (fun u => !mine.contains u) } }
        .next ((s.bumpBy F.TIER_CNT_SHELVED_COUNT mine.length).commitStep i)
      else if status == St.NO_SLOTS && detail == 6 then .next (s.holderFull i c)
      else .next (s.holderLost dev)

/-- GET_TIMEOUT: a holder has not answered within GET_TIMEOUT; what was asked of it is asked of the secondary, and it is
lost (R190, R192, R193). -/
def execGET_TIMEOUT (dev : Nat) (s : State) : Host.Outcome State Fault Refusal :=
  let waiting := s.revives.filter (fun r => r.2.asked.any (fun a => a.2.2 == dev))
  let s := waiting.foldl (fun s r =>
    match r.2.asked.find? (fun a => a.2.2 == dev) with
    | some a => s.fetchFailed r.1 dev a.1 a.2.1
    | none => s) s
  .next ((s.holderLost dev).mirrorLost dev)

/-- HOLDER_NO_SLOTS_TIMEOUT: a holder that has answered NO_SLOTS 6 for 10 s is lost (R192). -/
def execHOLDER_NO_SLOTS_TIMEOUT (dev : Nat) (s : State) : Host.Outcome State Fault Refusal := .next (s.holderLost dev)

/-! ## Revives, readmission, pre-emption copies -/

/-- REVIVE_HEAD_ARRIVAL (R193 phases 1 and 2; R321 for a session being adopted). -/
def execREVIVE_HEAD_ARRIVAL (acc dev : Nat) (obj : Option Bytes) (s : State) : Host.Outcome State Fault Refusal :=
  match s.findSess acc with
  | none => .next s
  | some (i, _) =>
    match tGet s.revives i with
    | none => .next s
    | some r =>
      if r.stage != 0 || !(r.asked.contains (1, 0, dev)) then .next s
      else match s.reviveFetched i r dev 1 0 obj with
        | .ok b => .next (if r.phase == 8 then s.adoptSettle i true else s.headIn i dev b)
        | .error k => .next ((s.refuseObject acc 1 0 k).fetchFailed i dev 1 0)

/-- SHELF_OBJECT_ARRIVAL (R193 phase 3, R197); an object read for re-replication goes on to the replacement as it came,
once it has verified (R192). -/
def execSHELF_OBJECT_ARRIVAL (acc dev kind number : Nat) (obj : Option Bytes) (s : State) : Host.Outcome State Fault Refusal :=
  match s.findSess acc with
  | none => .next s
  | some (i, e) =>
    match tGet s.revives i with
    | none => .next s
    | some r =>
      if !(r.asked.contains (kind, number, dev)) then .next s
      else if r.phase == 6 then
        match obj, tGet s.commits i with
        | some raw, some c => match s.reviveFetched i r dev kind number obj with
          | .error k => .next ((s.refuseObject acc kind number k).fetchFailed i dev kind number)
          | .ok _ =>
            let q := c.placeOf e kind number
            let s := (s.gotObject i kind number).putObject i q.1 q.2.1 q.2.2 kind number (r.alive e kind number) (raw.drop 32)
            let c := { c with unacked := c.unacked ++ [(q.1, kind, number)] }
            .next (({ s with commits := tPut s.commits i c }).reviveNext i)
        | _, _ => .next (s.fetchFailed i dev kind number)
      else match s.reviveFetched i r dev kind number obj with
        | .ok b => .next (s.placeObject i dev kind number obj b)
        | .error k => .next ((s.refuseObject acc kind number k).fetchFailed i dev kind number)

/-- PREEMPT_COPY_DONE (R188): the copies of a victim are down; its references to T1 pages are dropped. -/
def execPREEMPT_COPY_DONE (acc : Nat) (s : State) : Host.Outcome State Fault Refusal :=
  match s.findSess acc with
  | none => .next s
  | some (i, e) =>
    if e.state == Ss.PREEMPTED && !e.pages.isEmpty then
      .next ((s.dropPages i).updSess i (fun e => { e with tier := ((e.down.map (·.tier)).head?).getD e.holderTier1 }))
    else .next s

/-- May a PREEMPTED session be readmitted: its copies are down, and a held group has room (R89)? -/
def State.readmissible (s : State) (e : Sess) : Bool :=
  e.state == Ss.PREEMPTED && e.pages.isEmpty
    && (!e.heldRecord || s.groupFits e.ring (e.heldGroups.headD []))

/-- Pages a readmission lays: every pre-emption copy, and what the shelf image holds beside them. -/
def readmitObjects (e : Sess) : List (Nat × Nat) × Nat :=
  let shelf := ((e.manifest.map (·.entries)).getD []).filter (fun x => (e.downOf (pageNumber x.layer x.index)).isNone)
  (e.down.map (fun d => (3, pageNumber d.page.layer d.page.index)) ++ shelf.map (fun x => (3, pageNumber x.layer x.index)),
   (e.down.map (fun d => d.page.slots.length)).foldl (· + ·) 0 + slotsOf shelf)

/-- Has a session pre-emption copies in a region being reclaimed, which neither another region nor T2 takes (R200)? -/
def State.stranded (s : State) (e : Sess) : Bool :=
  (s.hostRegions.filter (fun r => r.2.state == 2)).any fun r =>
    let first := s.regionFirst r.1
    e.down.any (fun d => d.tier == 3 && first ≤ d.unit && d.unit < first + r.2.len)

/-- READMIT (R89): at the high watermark the PREEMPTED session of earliest ENTERED is readmitted by a revive of its copies; ahead of
that order, and at any watermark, one whose copies keep a region from being emptied (R200). -/
def execREADMIT (s : State) : Host.Outcome State Fault Refusal :=
  let all := s.sessions.filter (fun p => s.readmissible p.2)
  let ahead := all.filter (fun p => s.stranded p.2)
  if (s.freeT1 < s.fld F.TIER_WMARK_HIGH && ahead.isEmpty) || s.barring then .next s
  else
    let c := if ahead.isEmpty then all else ahead
    match c with
    | [] => .next s
    | a :: l =>
      let b := l.foldl (fun (x : Nat × Sess) y => if y.2.entered < x.2.entered then y else x) a
      let i := b.1
      let e := b.2
      let (objs, n) := readmitObjects e
      if s.freeT1 < n || !s.quotaFits e.tenant 1 (4 * n) then .next s
      else
        let hurt := e.pages.filter (fun g => g.slots.any s.slotHurt)
        let first := ((hurt.map (fun g => g.index * (s.profile.map (·.tokensPerPage)).getD 0)).min?)
        let r := { Revive.start 2 e.kvLength s.devId with asked := [], head := e.manifest, stage := 2, readmit := true, lostPos := first }
        let s := { s with revives := tPut s.revives i r }
        match s.reserveFor i n with
        | none => .next s
        | some s =>
          let s := s.updSess i (fun e => { e with reviveFrom := Ss.PREEMPTED, reviveDeadline := 0, reviveNote := 0, reviveTokens := 0,
                                                   state := Ss.REVIVING, entered := s.tick, deadline := 0 })
          .next ((objs.foldl (fun s o => s.askAll i s.devId [o]) s).reviveNext i)

/-! ## TIER register events (R201) -/

/-- TIER_QUOTA_WRITE: a write of TIER_QUOTA_Tt takes effect as TIER_SET_QUOTA for the selected tenant. -/
def execTIER_QUOTA_WRITE (tier : Nat) (value : Word) (s : State) : Host.Outcome State Fault Refusal :=
  let t := if s.flag F.TIER_QUOTA_SEL_OPR then 0xFFFF else s.fld F.TIER_QUOTA_SEL_TENANT
  if tier == 0 || tier > 4 then .next s else .next (s.setLimit t tier (bitsOf value.toNat 63 32))

/-- POOL_ENTRY_ADD: VALID 1 makes an entry valid; one already valid is left alone and counted under R17. -/
def execPOOL_ENTRY_ADD (value : Word) (s : State) : Host.Outcome State Fault Refusal :=
  let k := s.fld F.TIER_POOL_SEL_INDEX
  if !bitOf value.toNat 63 then .next s
  else if (tGet s.pool k).isSome then .next s.regAccErr
  else .next { s with pool := tPut s.pool k { device := bitsOf value.toNat 19 0 } }

/-- POOL_ENTRY_RETIRE: VALID 0 retires an entry; what it holds is replicated elsewhere (R192). -/
def execPOOL_ENTRY_RETIRE (value : Word) (s : State) : Host.Outcome State Fault Refusal :=
  let k := s.fld F.TIER_POOL_SEL_INDEX
  if bitOf value.toNat 63 then .next s
  else match tGet s.pool k with
    | none => .next s
    | some v =>
      let s := { s with pool := tDel s.pool k }
      let hit := s.sessions.filter (fun p => match p.2.manifest with | some m => m.holderSet.contains v.device | none => false)
      if hit.isEmpty || s.fenced then .next s
      else .next ((hit.foldl (fun s p =>
        if p.2.state == Ss.REVIVING then s.updRevive p.1 (fun r => { r with lost := (r.lost ++ [v.device]).eraseDups })
        else s.replaceHolder p.1 [v.device]) s).bump F.TIER_CNT_HOLDER_LOST_COUNT)

end Sys2Proof.Machine
end

