-- ==== Sys2Proof/Machine/CatFrame.lean ====
section
/-!
DEFINITION. The catalogue map: its image and digest (R284), change lists (R289), the lists a registrar proposes (R285, R290,
R291), what a new epoch brings about (R288, R292, R295, R296, R315, R321, R322, R356), agreement (R286, R287) and leaving (R296).
-/

namespace Sys2Proof.Machine

/-! ## The map (R284) -/

/-- A bucket entry (Table 11.6). -/
def Bucket11.bytes (b : Bucket11) : Bytes := leBytes 8 (b.primary + b.secondary * 2 ^ 20 + b2n b.changed * 2 ^ 40)

/-- A device entry (Table 11.7). -/
def CatDev.bytes (d : CatDev) (id : Nat) : Bytes :=
  leBytes 4 (id + d.state * 2 ^ 20 + b2n d.registrar * 2 ^ 24) ++ leBytes 2 d.lease ++ leBytes 2 0 ++ slice d.address 0 16
    ++ leBytes 4 d.profile ++ leBytes 4 d.joinEpoch

/-- The two arrays of the map, 1 MiB (R284, R297); the entry of an ID never used is zero. -/
def Cat.image (c : Cat) : Bytes :=
  (dense (List.replicate 8 0) 65536 0 (c.buckets.map (fun (b : Nat × Bucket11) => (b.1, b.2.bytes)))).flatMap id
    ++ (dense (List.replicate 32 0) 16384 0 (c.devices.map (fun (d : Nat × CatDev) => (d.1, d.2.bytes d.1)))).flatMap id

/-- DIGEST (R284). -/
def Cat.digest (c : Cat) : Nat := crc64 c.image

/-- The map an image spells. -/
def readMap (b : Bytes) : Tbl Bucket11 × Tbl CatDev :=
  let w := (chunks 8 65536 (b.take 524288)).zipIdx.map (fun (p : Bytes × Nat) =>
    (p.2, Bucket11.mk (bitsOf (leNat p.1) 19 0) (bitsOf (leNat p.1) 39 20) (bitOf (leNat p.1) 40)))
  let d := (chunks 32 16384 (b.drop 524288)).zipIdx.filterMap (fun (p : Bytes × Nat) =>
    let st := bitsOf (rdLe p.1 0 4) 23 20
    if st == 0 then none
    else some (p.2, CatDev.mk st (bitOf (rdLe p.1 0 4) 24) (rdLe p.1 4 2) (slice p.1 8 16) (rdLe p.1 0x18 4) (rdLe p.1 0x1C 4)))
  (w, d)

/-- Devices in a state, ascending. -/
def Cat.inState (c : Cat) (st : Nat) : List Nat := (c.devices.filter (fun d => d.2.state == st)).map (·.1)

/-- Members: ACTIVE and LEAVING devices, ascending. -/
def Cat.members (c : Cat) : List Nat := (c.devices.filter (fun d => d.2.state == 1 || d.2.state == 2)).map (·.1)

/-- An ID no device has had. -/
def CatDev.blank : CatDev := { state := 0, registrar := false, lease := 0, address := [], profile := 0, joinEpoch := 0 }

/-- Change a device's entry. -/
def Cat.updDev (c : Cat) (id : Nat) (f : CatDev → CatDev) : Cat :=
  { c with devices := tPut c.devices id (f ((tGet c.devices id).getD CatDev.blank)) }

/-! ## Change lists (R289) -/

/-- A change entry's bytes (Table 11.8). -/
def Change.bytes (h : Change) : Bytes :=
  leBytes 1 h.kind ++ leBytes 1 0 ++ leBytes 2 h.first ++ leBytes 4 h.a ++ leBytes 4 h.b ++ leBytes 2 h.count ++ leBytes 2 0
    ++ slice h.address 0 16

/-- A change entry read from bytes. -/
def Change.read (b : Bytes) : Change :=
  { kind := rdLe b 0 1, first := rdLe b 2 2, a := rdLe b 4 4, b := rdLe b 8 4, count := rdLe b 12 2, address := slice b 16 16 }

/-- A change list as it travels (R299). -/
def changeList (sid digest : Nat) (l : List Change) : Bytes :=
  structure0 sid (leBytes 4 l.length ++ leBytes 4 0 ++ leBytes 8 digest ++ l.flatMap Change.bytes)

/-- The digest and entries of a change list as it travels. -/
def readChanges (b : Bytes) : Nat × List Change :=
  let n := rdLe b 8 4
  (rdLe b 16 8, (chunks 32 (min n 1024) (b.drop 24)).map Change.read)

/-- Device IDs a change entry carries (Table 11.8). -/
def Change.devs (h : Change) : List Nat := if h.kind == 4 then [bitsOf h.a 19 0, bitsOf h.b 19 0] else [bitsOf h.a 19 0]

/-- Is a change list's structure sound: 1 to 1,024 entries, all there (R60, R289), none with a device ID that is invalid in this
generation: a message with one is rejected and has no effect (R14)? -/
def badChanges (sid : Nat) (b : Bytes) : Option (Nat × Nat) :=
  match badStruct sid 56 b with
  | some e => some e
  | none =>
    if rdLe b 8 4 == 0 || rdLe b 8 4 > 1024 then some (St.BAD_PARAM, 0x100 + sid)
    else if rdLe b 4 4 < 24 + 32 * rdLe b 8 4 then some (St.PAYLOAD_TRUNCATED, 0)
    else if (readChanges b).2.any (fun h => h.devs.any badDev) then some (St.BAD_DEVICE_ID, 0)
    else none

/-- One change entry applied to the map of epoch `e` (Table 11.8, R290). -/
def Cat.change (e : Nat) (c : Cat) (h : Change) : Cat :=
  let id := bitsOf h.a 19 0
  if h.kind == 1 then
    c.updDev id fun d => { d with state := 1, registrar := false, lease := d.lease + 1, address := h.address, profile := h.b, joinEpoch := e }
  else if h.kind == 2 then c.updDev id fun d => { d with state := 2 }
  else if h.kind == 3 then c.updDev id fun d => { d with state := 4 }
  else if h.kind == 4 then
    let sec := bitsOf h.b 19 0
    { c with buckets := c.buckets.map (fun (b : Nat × Bucket11) =>
        if h.first ≤ b.1 && b.1 ≤ h.first + h.count then
          (b.1, { primary := id, secondary := sec, changed := b.2.changed || b.2.primary != id || b.2.secondary != sec })
        else b) }
  else if h.kind == 5 then c.updDev id fun d => { d with registrar := bitOf h.b 0 }
  else if h.kind == 6 then c.updDev id fun d => { d with lease := h.b }
  else if h.kind == 7 then c.updDev id fun d => { d with state := 3, registrar := false, address := h.address, profile := 0, joinEpoch := e }
  else c

/-- A change list applied, in order, to make the map of epoch `e`. -/
def Cat.applyList (c : Cat) (e : Nat) (l : List Change) : Cat :=
  l.foldl (Cat.change e) { c with buckets := c.buckets.map (fun (b : Nat × Bucket11) => (b.1, { b.2 with changed := false })) }

/-! ## What a registrar proposes (R285, R290, R291) -/

/-- Buckets each device may own: 65,536 ÷ N rounded down, or up for the devices that hold most now. -/
def ownerCaps (devs owners : List Nat) : Tbl Nat :=
  let tally := owners.foldl (fun (t : Tbl Nat) o => tPut t o ((tGet t o).getD 0 + 1)) []
  let f := 65536 / devs.length
  let r := 65536 % devs.length
  let more (d : Nat) : Nat := (devs.filter (fun x =>
    let a := (tGet tally x).getD 0
    let b := (tGet tally d).getD 0
    a > b || (a == b && x < d))).length
  devs.foldl (fun (t : Tbl Nat) d => tPut t d (if more d < r then f + 1 else f)) []

/-- Share 65,536 buckets among devices (R291): a bucket keeps its owner while that stands and has room, lowest buckets first,
so that the highest are taken; each other one goes to the device with most room.  `avoid` is the device a bucket may not
have. -/
def share (devs owners : List Nat) (avoid : List (Option Nat)) : List Nat :=
  let caps := ownerCaps devs owners
  let room (t : Tbl Nat) (d : Nat) : Nat := (tGet caps d).getD 0 - (tGet t d).getD 0
  let take (t : Tbl Nat) (d : Nat) : Tbl Nat := tPut t d ((tGet t d).getD 0 + 1)
  let kept := (owners.zip avoid).foldl (fun (a : List (Option Nat × Option Nat) × Tbl Nat) p =>
    if devs.contains p.1 && some p.1 != p.2 && room a.2 p.1 > 0 then ((some p.1, p.2) :: a.1, take a.2 p.1)
    else ((none, p.2) :: a.1, a.2)) ([], [])
  let filled := kept.1.reverse.foldl (fun (a : List (Option Nat × Option Nat) × Tbl Nat) p =>
    match p.1 with
    | some _ => (p :: a.1, a.2)
    | none =>
      match leastBy (fun d => 65536 - room a.2 d) (devs.filter (fun d => some d != p.2 && room a.2 d > 0)) with
      | some d => ((some d, p.2) :: a.1, take a.2 d)
      | none => (p :: a.1, a.2)) ([], kept.2)
  let l := filled.1.reverse
  let fixed := l.zipIdx.foldl (fun (a : List (Option Nat × Option Nat)) p =>
    match p.1.1, p.1.2 with
    | none, some x =>
      match a.findIdx? (fun q => match q.1 with | some d => d != x && q.2 != some x | none => false) with
      | some k =>
        let q := a.getD k (none, none)
        (a.set k (some x, q.2)).set p.2 (q.1, some x)
      | none => a
    | _, _ => a) l
  fixed.map (fun p => p.1.getD 0)

/-- BUCKETS entries that turn one assignment into another, one per run of neighbours. -/
def bucketRuns (old new : List (Nat × Nat)) : List Change :=
  ((old.zip new).zipIdx.foldl (fun (acc : List Change) p =>
    if p.1.1 == p.1.2 then acc
    else match acc with
      | h :: t =>
        if h.first + h.count + 1 == p.2 && h.a == p.1.2.1 && h.b == p.1.2.2 then { h with count := h.count + 1 } :: t
        else { kind := 4, first := p.2, a := p.1.2.1, b := p.1.2.2, count := 0, address := [] } :: acc
      | [] => [{ kind := 4, first := p.2, a := p.1.2.1, b := p.1.2.2, count := 0, address := [] }]) []).reverse

/-- A change entry without bucket fields. -/
def Change.of (kind a b : Nat) (address : Bytes := []) : Change :=
  { kind := kind, first := 0, a := a, b := b, count := 0, address := address }

/-- The BUCKETS entries R291 asks for after a change of the ACTIVE devices; none when no device is ACTIVE. -/
def Cat.rebalance (c : Cat) : List Change :=
  let devs := c.inState 1
  if devs.isEmpty then []
  else
    let cur := c.buckets.map (fun (b : Nat × Bucket11) => (b.2.primary, b.2.secondary))
    let p := share devs (cur.map (·.1)) (cur.map (fun _ => none))
    let s := share devs (cur.map (·.2)) (p.map (fun x => if devs.length > 1 then some x else none))
    bucketRuns cur (p.zip s)

/-- Registrars of a composition of N ACTIVE devices (R285). -/
def registrarCount (n : Nat) : Nat := if n < 64 then min n 3 else 5

/-- The REGISTRAR entries R285 asks for: registrars no longer ACTIVE go; the lowest others come, the highest go. -/
def Cat.registrarChanges (c : Cat) : List Change :=
  let active := c.inState 1
  if active.isEmpty then []
  else
    let regs := active.filter (fun d => c.registrars.contains d)
    let gone := c.registrars.filter (fun d => !active.contains d)
    let want := registrarCount active.length
    let on := (active.filter (fun d => !regs.contains d)).take (want - regs.length)
    let off := regs.drop (if regs.length > want then want else regs.length)
    gone.map (fun d => Change.of 5 d 0) ++ on.map (fun d => Change.of 5 d 1) ++ off.map (fun d => Change.of 5 d 0)

/-- The ID a JOIN gives (R290): the one asked for when unused or GONE, else the lowest such. -/
def Cat.joinId (c : Cat) (want : Option Nat) : Option Nat :=
  let free (d : Nat) : Bool := d < 0x4000 && match tGet c.devices d with | some v => v.state == 0 || v.state == 4 | none => true
  match want with
  | some d => if free d then some d else (List.range 0x4000).find? free
  | none => (List.range 0x4000).find? free

/-- The change list of a wish, none when it is fulfilled or impossible. -/
def Cat.changesFor (c : Cat) (e : Nat) (w : Wish) : Option (List Change) :=
  let full (base : List Change) : List Change :=
    let c1 := c.applyList e base
    let regs := c1.registrarChanges
    base ++ regs ++ (c1.applyList e regs).rebalance
  let st (d : Nat) : Nat := match tGet c.devices d with | some v => v.state | none => 0
  match w with
  | .join want addr prof => match c.joinId want with
    | some id => some (full [Change.of 1 id prof addr])
    | none => none
  | .leaving d => if st d == 1 then some (full [Change.of 2 d 0]) else none
  | .remove d => if st d == 1 || st d == 2 then some (full [Change.of 3 d 0]) else none
  | .lease d n => match tGet c.devices d with
    | some v => if v.lease < n then some [Change.of 6 d n] else none
    | none => none

/-! ## Membership -/

/-- The device's data-plane address as the catalogue writes it. -/
def State.ownAddress (s : State) : Bytes :=
  if s.flag F.NET_CTRL_IPV6_EN && s.ipv6 != 0 then leBytes 8 (s.fld F.NET_IPV6_LO_ADDR) ++ leBytes 8 (s.fld F.NET_IPV6_HI_ADDR)
  else leBytes 4 (s.fld F.NET_IPV4_ADDR) ++ leBytes 2 0xFFFF ++ List.replicate 10 0

/-- Slips held for a newer map proceed once the map is that new, and are answered EPOCH_STALE when no fetch is left that
could bring it (R58). -/
def State.resolveEpoch (s : State) : State :=
  if s.cat.fetch.isSome then s
  else
    let mine := s.held.filter (fun h => h.2 == .epoch)
    let s := { s with held := s.held.filter (fun h => h.2 != .epoch) }
    mine.foldl (fun s h =>
      if h.1.slip.epoch.toNat ≤ s.epoch then s.wake (.slip h.1.op.toNat h.1.slip)
      else s.finish h.1.op.toNat h.1.slip (Answer.st St.EPOCH_STALE)) s

/-! ## What a new epoch brings about -/

/-- A location record's bytes (R292). -/
def LocRec.bytes (l : LocRec) : Bytes := leBytes 8 l.accession ++ leBytes 4 l.owner ++ leBytes 4 l.epoch

/-- Send location records to another bucket owner (R295). -/
def State.sendTransfer (s : State) (dev : Nat) (l : List LocRec) : State :=
  (chunks 65528 (l.length / 65528 + 1) l ++ (if l.isEmpty then [[]] else [])).foldl (fun s (part : List LocRec) =>
    s.sendDev dev Op.CAT_LOCATE 0 0xFFFF [3, s.devId, s.epoch] (part.flatMap LocRec.bytes)) s

/-- Buckets whose owners differ between two maps: bucket, old entry, new entry. -/
def changedBuckets (old new : Cat) : List (Nat × Bucket11 × Bucket11) :=
  (old.buckets.zip new.buckets).filterMap (fun (p : (Nat × Bucket11) × (Nat × Bucket11)) =>
    if p.1.2.primary == p.2.2.primary && p.1.2.secondary == p.2.2.secondary then none else some (p.1.1, p.1.2, p.2.2))

/-- The two owners of a bucket. -/
def Bucket11.owners (b : Bucket11) : List Nat := [b.primary, b.secondary].eraseDups

/-- Hand location records on, wait for those to come, and register anew what no old owner can hand on (R295, R322). -/
def State.handOver (s : State) (old : Cat) : State :=
  let me := s.devId
  let here := s.cat.members
  let ch := changedBuckets old s.cat
  let lost := ch.filter (fun b => b.2.1.owners.contains me)
  let dests := ((lost.flatMap (fun b => b.2.2.owners.filter (fun d => d != me && !b.2.1.owners.contains d))).eraseDups)
  let s := dests.foldl (fun s d =>
    let bs := lost.filter (fun b => b.2.2.owners.contains d && !b.2.1.owners.contains d)
    s.sendTransfer d (s.cat.loc.filter (fun l => bs.any (fun b => b.1 == bucketOf l.accession)))) s
  let gained := ch.filter (fun b => b.2.2.owners.contains me && !b.2.1.owners.contains me)
  let wait := gained.filterMap (fun b => match b.2.1.owners.find? (fun d => here.contains d) with | some d => some (b.1, d) | none => none)
  let s := s.updCat fun c => { c with
    waiting := c.waiting.filter (fun w => !ch.any (fun b => b.1 == w.1)) ++ wait
    loc := c.loc.filter (fun l => !lost.any (fun b => b.1 == bucketOf l.accession && !b.2.2.owners.contains me)) }
  let orphaned := ch.filter (fun b => !b.2.1.owners.any (fun d => here.contains d))
  let mine := s.sessions.filter (fun p => p.2.state != Ss.FREE && originOf p.2.accession != me && orphaned.any (fun b => b.1 == bucketOf p.2.accession))
  mine.foldl (fun s p => match orphaned.find? (fun b => b.1 == bucketOf p.2.accession) with
    | some b => b.2.2.owners.foldl (fun s d => s.registerAt d p.2.accession me) s
    | none => s) s

/-- The device's registers that show the epoch. -/
def State.showEpoch (s : State) (e : Nat) : State :=
  ((s.setFld F.CAT_EPOCH_EPOCH e).setFld F.CAT_EPOCH_ACTIVE (s.cat.inState 1).length).setFld F.CAT_DIGEST_DIGEST
    (if s.cat.buckets.isEmpty then 0 else s.cat.digest)

/-- The member is fenced (R356): open steps are abandoned; counted. -/
def State.fence (s : State) : State :=
  if s.fenced then s else ((s.setFld F.RIND_AUDIT_STATUS_FENCED 1).bump F.RIND_AUDIT_CNT_FENCE_COUNT).abandonSteps none

/-- Ask a registrar to let this device join, under an ID or any (R290). -/
def State.askJoin (s : State) (dev want : Nat) : State :=
  let prof := match s.profile with | some p => p.id | none => 0
  (s.sendDev dev Op.CAT_JOIN 0 0xFFFF [0, want] (s.ownAddress ++ leBytes 4 prof)).updCat fun c => { c with joining := 1, wantId := want }

/-- Membership ends. -/
def State.endMembership (s : State) : State :=
  (({ s with cat := { Cat.empty with fwd := s.cat.fwd, forwards := s.cat.forwards } }).setFld F.DEV_DEVID_VALID 0).showEpoch 0

/-- The device itself is GONE in the new map: one that has left is no member any more; any other fences and joins again under
its ID, its sessions undecided until then (R356, R320). -/
def State.removed (s : State) : State :=
  if s.cat.finalSent then s.endMembership
  else
    let s := s.fence
    let reg := s.someRegistrar.getD 0
    let s := (s.setFld F.DEV_DEVID_VALID 0).updCat fun c =>
      { c with gone := true, leaving := false, undecided := s.sessions.map (·.2.accession) }
    s.askJoin reg s.devId

/-- What follows the map's change from one epoch to the next (R288, R292, R295, R296, R321, R356, Table 11.10). -/
def State.epochEntered (s : State) (old : Cat) (e : Nat) : State :=
  let me := s.devId
  let st (c : Cat) (d : Nat) : Nat := match tGet c.devices d with | some v => v.state | none => 0
  let new := s.cat
  let ids := (new.devices.map (·.1))
  let s := (s.showEpoch e).updCat fun c =>
    { c with promised := 0, acceptedBallot := 0, acceptedList := [],
             proposal := { c.proposal with phase := 0, own := [], found := [], foundBallot := 0, votes := [], seen := 0 },
             wishes := c.wishes.filter (fun w => match w with
               | .join _ a _ => !(c.devices.any (fun d => d.2.state == 1 && d.2.joinEpoch == e && d.2.address == a))
               | w => (c.changesFor (e + 1) w).isSome) }
  let s := s.handOver old
  let left := ids.filter (fun d => d != me && (st old d == 1 || st old d == 2) && st new d == 4)
  let s := left.foldl (fun (s : State) d =>
    let mineB := (new.buckets.filter (fun b => b.2.primary == me)).map (·.1)
    (s.updCat fun c => { c with adopt := c.adopt ++ [{ dev := d, buckets := mineB, since := s.tick, begun := false }] }).holderLost d) s
  let s := (ids.filter (fun d => d != me && ((st old d == 1 && st new d == 2) || (st old d == 3 && st new d == 4)))).foldl (fun s d => s.holderLost d) s
  let s := left.foldl (fun s d => s.updCkpt fun c => { c with removed := tPut c.removed d s.tick }) s
  let back := ids.filter (fun d => st old d == 4 && st new d == 1)
  let s := back.foldl (fun s d => s.updCkpt fun c => { c with removed := tDel c.removed d }) s
  let s := s.updCat fun c => { c with adopt := c.adopt.filter (fun a => a.begun || !back.contains a.dev) }
  let s := s.answerClients (fun k => k.kind == 1 && new.devices.any (fun d => d.2.state == 1 && d.2.joinEpoch == e && d.2.address == k.address))
    (fun k => Answer.ok (((new.devices.find? (fun d => d.2.joinEpoch == e && d.2.address == k.address)).map (·.1)).getD 0))
  let s := s.answerClients (fun k => k.kind == 2 && st new k.dev == 2) (fun _ => Answer.ok e)
  let s := s.answerClients (fun k => k.kind == 3 && st new k.dev == 4) (fun _ => Answer.ok e)
  let s := s.updCat fun c => { c with suspects := c.suspects.filter (fun z => st new z.1 != 4) }
  let s := if s.member && st new me != 4 then
      { s with membership := some (me, (new.registrars.map (fun d => match tGet new.devices d with | some v => v.address | none => []))) }
    else s
  let s := if st new me == 2 && !s.cat.leaving then s.updCat fun c => { c with leaving := true, leaveTick := s.tick } else s
  let s := if s.member && st new me == 4 && st old me != 4 then s.removed else s
  s.mirrorCheck.resolveEpoch.wake .cat

/-- Apply the change list of the next epoch (R288): the map, its history and its consequences.  Nothing is applied when the
digest does not agree. -/
def State.applyCommit (s : State) (digest : Nat) (l : List Change) : Option State :=
  let e := s.epoch + 1
  let old := s.cat
  let voted := old.acceptedBallot != 0
  let new := old.applyList e l
  if new.digest != digest then none
  else
    let h := old.history ++ [(e, digest, l)]
    let new := { new with history := h.drop (h.length - 16), abstaining := new.abstaining && voted }
    some ((({ s with cat := new }).bump F.CAT_CNT_COMMIT_COUNT).epochEntered old e)

/-- Relay a commit down the fan-out tree (R288): members but the proposer take positions from 1 in ascending order, the proposer
position 0; position i relays to 16i + 1 to 16i + 16. -/
def State.relay (s : State) (members : List Nat) (ballot e digest : Nat) (l : List Change) : State :=
  let root := ballot % 2 ^ 20
  let order := members.filter (· != root)
  let pos := if s.devId == root then some 0 else (order.findIdx? (· == s.devId)).map (· + 1)
  match pos with
  | none => s
  | some i => ((order.drop (16 * i)).take 16).foldl (fun s d =>
      s.sendDev d Op.CAT_COMMIT 0 0xFFFF [e, 0, ballot % 2 ^ 32, ballot / 2 ^ 32] (changeList Op.CAT_COMMIT digest l)) s

/-! ## Agreement (R286, R287) -/

/-- Change the proposal. -/
def State.updProposal (s : State) (f : Proposal → Proposal) : State := s.updCat fun c => { c with proposal := f c.proposal }

/-- Is a set of registrars a majority? -/
def State.majority (s : State) (votes : List Nat) : Bool := decide (2 * votes.eraseDups.length > s.cat.registrars.length)

/-- With ACCEPTED from a majority the list is chosen: committed here and sent out (R286 step 5). -/
def State.tallyAccepts (s : State) : State :=
  let p := s.cat.proposal
  if p.phase == 2 && s.majority p.votes then
    let l := if p.foundBallot == 0 then p.own else p.found
    let e := s.epoch + 1
    let digest := (s.cat.applyList e l).digest
    let s := s.relay s.cat.members p.ballot e digest l
    (s.applyCommit digest l).getD s
  else s

/-- With GRANT from a majority the proposer asks for acceptance (R286 step 3), its own first. -/
def State.tallyGrants (s : State) : State :=
  let p := s.cat.proposal
  if p.phase == 1 && s.majority p.votes then
    let l := if p.foundBallot == 0 then p.own else p.found
    let e := s.epoch + 1
    let digest := (s.cat.applyList e l).digest
    let s := s.updProposal fun p => { p with phase := 2, votes := [] }
    let s := (s.cat.registrars.filter (· != s.devId)).foldl (fun s d =>
      s.sendDev d Op.CAT_PROPOSE 0 0xFFFF [e, 1, p.ballot % 2 ^ 32, p.ballot / 2 ^ 32] (changeList Op.CAT_PROPOSE digest l)) s
    let s := if s.cat.promised ≤ p.ballot && !s.cat.abstaining then
        s.updCat fun c => { c with promised := p.ballot, acceptedBallot := p.ballot, acceptedList := l,
                                   proposal := { c.proposal with votes := [s.devId] } }
      else s
    s.tallyAccepts
  else s

/-- Begin an attempt at a proposal: CLAIM to every registrar (R286 step 1), its own vote first. -/
def State.claim (s : State) (own : List Change) : State :=
  let c := s.cat
  let attempt := max (max c.promised c.proposal.ballot) c.proposal.seen / 2 ^ 20 + 1
  let ballot := attempt * 2 ^ 20 + s.devId
  let s := (s.updProposal fun p => { p with phase := 1, ballot := ballot, own := own, found := [], foundBallot := 0, votes := [], since := s.tick }).bump
    F.CAT_CNT_PROPOSE_COUNT
  let s := (s.cat.registrars.filter (· != s.devId)).foldl (fun s d =>
    s.sendDev d Op.CAT_PROPOSE 0 0xFFFF [s.epoch + 1, 0, ballot % 2 ^ 32, ballot / 2 ^ 32] []) s
  let s := if c.abstaining then s
    else s.updCat fun c => { c with promised := ballot, proposal := { c.proposal with votes := [s.devId], found := c.acceptedList, foundBallot := c.acceptedBallot } }
  s.tallyGrants

/-- Propose the next wish, when no proposal runs; a wish that has no change to make is dropped, and with it a JOIN for which no
ID is free is answered NO_SLOTS 1. -/
def State.proposeNext (s : State) : State :=
  if !s.registrar || s.cat.proposal.phase != 0 then s
  else match s.cat.wishes with
    | [] => s
    | w :: rest => match s.cat.changesFor (s.epoch + 1) w with
      | some l => s.claim l
      | none =>
        let s := (s.updCat fun c => { c with wishes := rest }).wake .cat
        match w with
        | .join _ a _ => s.answerClients (fun k => k.kind == 1 && k.address == a) (fun _ => Answer.st St.NO_SLOTS 1)
        | _ => s

/-- A wish joins the registrar's list. -/
def State.wish (s : State) (w : Wish) : State :=
  (s.updCat fun c => { c with wishes := if c.wishes.contains w then c.wishes else c.wishes ++ [w] }).wake .cat

/-- Ask for a change: a registrar wishes it itself, any other member asks a registrar with the CAT_LEAVE phase given (R296). -/
def State.askLeave (s : State) (phase suspect : Nat) (w : Wish) : State :=
  if s.registrar then s.wish w
  else s.sendDev (s.someRegistrar.getD 0) Op.CAT_LEAVE 0 0xFFFF [phase, suspect] []

/-! ## Leaving (R296) -/

/-- Where a session of a leaving device goes: its bucket's primary owner, the secondary where that is this device. -/
def State.moveTarget (s : State) (acc : Nat) : Option Nat :=
  match tGet s.cat.buckets (bucketOf acc) with
  | none => none
  | some b => if b.primary != s.devId then some b.primary else if b.secondary != s.devId then some b.secondary else none

/-- One session of a leaving device: a parked one moves, a hot one without a request is parked. -/
def State.leaveOne (s : State) (i : Nat) : State :=
  let e := s.sess i
  let busy := (tGet s.commits i).isSome || (tGet s.revives i).isSome || s.textOpen i || s.fenced
  if busy then s
  else if e.state == Ss.PARKED || e.state == Ss.TRANSCRIPT_ONLY then
    (match s.moveTarget e.accession with | some d => s.beginMove i d | none => s)
  else if e.state == Ss.WAITING && !e.armed && !(e.template && s.childCount e != 0) then
    (match s.parkTier 0 with | some t => (s.tryCommit i 2 t true).1 | none => (s.tryCommit i 6 2 true).1)
  else s

/-- A leave proceeds: sessions park and move; when none is left and nothing is held for others, the REMOVE is asked for. -/
def State.leaveStep (s : State) : State :=
  if !s.cat.leaving then s
  else
    let s := s.sessions.foldl (fun s p => s.leaveOne p.1) s
    if !s.cat.finalSent && s.sessions.all (fun p => p.2.state == Ss.CLOSED) && s.holdUsed == 0 then
      (s.updCat fun c => { c with finalSent := true }).askLeave 1 0 (.remove s.devId)
    else s

/-- The catalogue's own work goes on. -/
def State.catWork (s : State) : State := s.proposeNext.leaveStep

end Sys2Proof.Machine
end

