-- ==== Sys2Proof/Machine/Catalogue.lean ====
section
/-!
DEFINITION. The catalogue-class slips (Table 11.10), the replies other devices give to catalogue slips this device sent, the
catalogue's timers (R286, R293, R294, R296), and the fence (R356).
-/

namespace Sys2Proof.Machine

/-- The frame of a catalogue slip: an older EPOCH is answered EPOCH_STALE with this device's epoch (R299); one that names a
session meets the fence (R356), waits for a newer map (R58), and is busy during a restore or a reload (R317, R416), and is not ready while that session's home partition is RESETTING (R63);
parameters (R41). -/
def runCat (op : Nat) (x : Slip) (masks : List Nat) (s : State) (f : State → SlipRes) : Host.Outcome State Fault Refusal :=
  runSlip op x s fun s =>
    if x.epoch.toNat != 0 && x.epoch.toNat < s.epoch then .done s (Answer.mk' St.EPOCH_STALE 0 s.epoch)
    else if x.acc != 0 && s.fenced then .no s St.EPOCH_STALE
    else if x.acc != 0 && x.epoch.toNat > s.epoch then .hold s.fetchMap .epoch
    else if x.acc != 0 && s.restoreDue then .no s St.BUSY 0x1C02
    else if x.acc != 0 && s.reloading then .no s St.BUSY 0x2C02
    else if s.homeResetting x.acc then .no s St.NOT_READY 3
    else match badParam x masks with
      | some k => .no s St.BAD_PARAM k
      | none => f s

/-! ## Lookups and the map -/

/-- The answer of CAT_LOOKUP: owner, whether a record names it, and the owner's device entry where the slip asks for data. -/
def State.lookupAnswer (s : State) (x : Slip) (owner : Nat) (record : Bool) : Answer :=
  if s.devState (originOf x.acc) == 0 && owner != s.devId then Answer.st St.UNKNOWN_SESSION
  else
    let entry := match tGet s.cat.devices owner with | some d => d.bytes owner | none => List.replicate 32 0
    Answer.ok (owner + b2n record * 2 ^ 20) 0 (if x.P4 == 0 && x.P5 == 0 then [] else entry)

/-- Ask a device where a session lives, for a slip that waits (R293). -/
def State.askLocation (s : State) (acc ten dev : Nat) : State :=
  let q : Locate := { accession := acc, asked := dev, second := false, why := 0, left := 1, since := s.tick }
  let s := s.bump F.CAT_CNT_LOCATE_COUNT
  if s.cat.locates.any (fun l => l.accession == acc && l.why == 0) then s
  else (s.sendDev dev Op.CAT_LOCATE acc ten [0, 0, s.epoch] []).updCat fun c => { c with locates := c.locates ++ [q] }

/-- CAT_LOOKUP (R299): the owner of a session as R293 finds it. -/
def execCAT_LOOKUP (x : Slip) (s : State) : Host.Outcome State Fault Refusal :=
  runCat Op.CAT_LOOKUP x [0, 0, 0, 0, w32, w32] s fun s =>
    let s := s.bump F.CAT_CNT_LOOKUP_COUNT
    if x.acc == 0 then .no s St.UNKNOWN_SESSION
    else match s.findSess x.acc with
      | some (_, e) =>
        let there := match s.cat.fwd.find? (fun r => r.accession == x.acc) with | some r => r.owner | none => s.devId
        .done s (s.lookupAnswer x (if e.state == Ss.FREE then there else s.devId) (originOf x.acc != s.devId))
      | none => match s.ownerAt x.acc with
        | .known d => .done s (s.lookupAnswer x d (d != originOf x.acc))
        | .unknown => .no s St.UNKNOWN_SESSION
        | .ask d => .hold (s.askLocation x.acc x.ten d) (.locate x.acc)

/-- CAT_MAP_FETCH (R288): the change lists since an epoch, or a part of the whole map. -/
def execCAT_MAP_FETCH (x : Slip) (s : State) : Host.Outcome State Fault Refusal :=
  runCat Op.CAT_MAP_FETCH x [w32, 15, 0, 0, w32, w32] s fun s =>
    if x.P0 == 0 then .done s (Answer.ok s.epoch 0 (slice s.cat.image (65536 * x.P1) 65536))
    else
      let l := s.cat.history.filter (fun h => h.1 > x.P0)
      if x.P0 > s.epoch || l.length != s.epoch - x.P0 then .no s St.BAD_PARAM 0
      else .done s (Answer.ok s.epoch 0 (l.flatMap (fun h => changeList Op.CAT_MAP_FETCH h.2.1 h.2.2)))

/-! ## Votes (R286, R287) -/

/-- A vote reaches the proposer. -/
def State.receiveVote (s : State) (voter epoch kind ballot accepted : Nat) (l : List Change) : State :=
  let p := s.cat.proposal
  if kind == 1 then
    let s := s.updProposal fun p => { p with seen := max p.seen ballot }
    if epoch > s.epoch then s.fetchMap else s
  else if ballot != p.ballot || epoch != s.epoch + 1 || !s.cat.registrars.contains voter then s
  else if kind == 0 && p.phase == 1 then
    (s.updProposal fun p =>
      let p := { p with votes := p.votes ++ [voter] }
      if accepted > p.foundBallot then { p with found := l, foundBallot := accepted } else p).tallyGrants
  else if kind == 2 && p.phase == 2 then
    (s.updProposal fun p => { p with votes := p.votes ++ [voter] }).tallyAccepts
  else s

/-- Send a vote to the ballot's proposer, this device itself included. -/
def State.vote (s : State) (proposer epoch kind ballot accepted : Nat) (l : List Change) : State :=
  if proposer == s.devId then s.receiveVote s.devId epoch kind ballot accepted l
  else s.sendDev proposer Op.CAT_VOTE 0 0xFFFF
    [epoch, kind, ballot % 2 ^ 32, ballot / 2 ^ 32, accepted % 2 ^ 32, accepted / 2 ^ 32]
    (if accepted == 0 then [] else changeList Op.CAT_VOTE (s.cat.applyList epoch l).digest l)

/-- The ballot in P2 and P3. -/
def ballotOf (x : Slip) : Nat := x.P2 + x.P3 * 2 ^ 32

/-- CAT_PROPOSE with phase CLAIM (R286 step 2, R287). -/
def execCAT_PROPOSE_CLAIM (x : Slip) (s : State) : Host.Outcome State Fault Refusal :=
  runCat Op.CAT_PROPOSE x [w32, 1, w32, w32, 0, 0] s fun s =>
    let b := ballotOf x
    let from_ := b % 2 ^ 20
    let c := s.cat
    if !s.registrar then .no s St.NOT_PERMITTED
    else if c.abstaining then .done ((s.bump F.CAT_CNT_ABSTAIN_COUNT).vote from_ x.P0 3 b 0 []) (Answer.ok 0)
    else if x.P0 != s.epoch + 1 || c.promised > b then .done (s.vote from_ s.epoch 1 c.promised 0 []) (Answer.ok 0)
    else .done ((s.updCat fun c => { c with promised := b }).vote from_ x.P0 0 b c.acceptedBallot c.acceptedList) (Answer.ok 0)

/-- CAT_PROPOSE with phase ACCEPT (R286 step 4). -/
def execCAT_PROPOSE_ACCEPT (x : Slip) (s : State) : Host.Outcome State Fault Refusal :=
  runCat Op.CAT_PROPOSE x [w32, 1, w32, w32, 0, 0] s fun s =>
    let b := ballotOf x
    let from_ := b % 2 ^ 20
    let c := s.cat
    if !s.registrar then .no s St.NOT_PERMITTED
    else match badChanges Op.CAT_PROPOSE x.payload with
      | some e => .no s e.1 e.2
      | none =>
        if c.abstaining then .done ((s.bump F.CAT_CNT_ABSTAIN_COUNT).vote from_ x.P0 3 b 0 []) (Answer.ok 0)
        else if x.P0 != s.epoch + 1 || c.promised > b then .done (s.vote from_ s.epoch 1 c.promised 0 []) (Answer.ok 0)
        else
          let l := (readChanges x.payload).2
          .done ((s.updCat fun c => { c with promised := b, acceptedBallot := b, acceptedList := l }).vote from_ x.P0 2 b 0 []) (Answer.ok 0)

/-- CAT_VOTE (R286): a registrar's vote reaches this proposer. -/
def execCAT_VOTE (x : Slip) (s : State) : Host.Outcome State Fault Refusal :=
  runCat Op.CAT_VOTE x [w32, 3, w32, w32, w32, w32] s fun s =>
    let accepted := x.P4 + x.P5 * 2 ^ 32
    let voter := match x.src with | .peer p => (s.peer p).dev | _ => s.devId
    match (if accepted == 0 then none else badChanges Op.CAT_VOTE x.payload) with
    | some e => .no s e.1 e.2
    | none => .done (s.receiveVote voter x.P0 x.P1 (ballotOf x) accepted (if accepted == 0 then [] else (readChanges x.payload).2)) (Answer.ok 0)

/-- VOTE_TIMEOUT (R286): an attempt that has not succeeded within VOTE_TIMEOUT is tried again with a higher attempt number
after VOTE_TIMEOUT × (1 + r), r this registrar's rank. -/
def execVOTE_TIMEOUT (s : State) : Host.Outcome State Fault Refusal :=
  let p := s.cat.proposal
  let r := (s.cat.registrars.findIdx? (· == s.devId)).getD 0
  if p.phase != 0 && s.registrar && s.tick - p.since ≥ s.fld F.CAT_CFG_VOTE_TIMEOUT * 100000 * (2 + r) then .next (s.claim p.own)
  else .next s

/-! ## Commits and the map fetched (R288) -/

/-- CAT_COMMIT (R288): the next epoch's list is applied and relayed; a gap or a digest mismatch makes the member fetch from the
sender. -/
def execCAT_COMMIT (x : Slip) (s : State) : Host.Outcome State Fault Refusal :=
  runCat Op.CAT_COMMIT x [w32, 0, w32, w32, 0, 0] s fun s =>
    let sender := match x.src with | .peer p => (s.peer p).dev | _ => s.devId
    match badChanges Op.CAT_COMMIT x.payload with
    | some e => .no s e.1 e.2
    | none =>
      if !s.member then .no s St.BAD_STATE
      else if x.P0 ≤ s.epoch then .done s (Answer.mk' St.ALREADY_DONE 0 s.epoch)
      else if x.P0 > s.epoch + 1 then
        .done (if s.cat.fetch.isSome then s else s.fetchFrom sender s.epoch 0) (Answer.ok s.epoch)
      else
        let l := readChanges x.payload
        let members := s.cat.members
        match s.applyCommit l.1 l.2 with
        | some t => .done (t.relay members (ballotOf x) x.P0 l.1 l.2) (Answer.ok t.epoch)
        | none =>
          let s := s.bump F.CAT_CNT_DIGEST_BAD_COUNT
          .done (if s.cat.fetch.isSome then s else s.fetchFrom sender s.epoch 0) (Answer.ok s.epoch)

/-- The change lists of a CAT_MAP_FETCH reply, in order; `fuel` bounds them. -/
def splitLists : Nat → Bytes → List Bytes
  | 0, _ => []
  | fuel + 1, b => if b.length < 24 then [] else
      let n := max 24 (rdLe b 4 4)
      b.take n :: splitLists fuel (b.drop n)

/-- Apply fetched change lists one epoch after another; none when a digest does not agree. -/
def State.applyLists (s : State) : List Bytes → Option State
  | [] => some s
  | b :: rest => match s.applyCommit (readChanges b).1 (readChanges b).2 with
    | some t => t.applyLists rest
    | none => none

/-- A restore that waits for the map, or for its device to join, goes on (R317, R320). -/
def State.pokeRestore (s : State) : State :=
  match s.ckpt.restore with
  | some r => if r.stage == 0 || (r.stage == 4 && s.cat.undecided.isEmpty && s.cat.joining == 0) then s.wake .restore else s
  | none => s

/-- A restored or rejoining session is this device's own after all, or its entry goes (R320 step 3). -/
def State.decideOwner (s : State) (acc owner : Nat) : State :=
  let s := s.updCat fun c => { c with undecided := c.undecided.filter (· != acc) }
  let s := s.pokeRestore
  if owner == s.devId then s
  else match s.findSess acc with
    | none => s
    | some (i, _) =>
      let s := ((((s.dropPages i).detachRing i).dequeue i).setLog i 0).setImg i [0, 0, 0]
      { s with text := tDel s.text i, revives := tDel s.revives i, commits := tDel s.commits i }.freeSess i

/-- The ownership of one undecided session is looked for as R293 finds it. -/
def State.checkOwner (s : State) (acc : Nat) : State :=
  match s.ownerAt acc with
  | .known d => s.decideOwner acc d
  | .unknown => s.decideOwner acc 0xFFFFFFFF
  | .ask d =>
    let q : Locate := { accession := acc, asked := d, second := false, why := 2, left := 1, since := s.tick }
    (s.sendDev d Op.CAT_LOCATE acc 0xFFFF [0, 0, s.epoch] []).updCat fun c => { c with locates := c.locates ++ [q] }

/-- The joiner holds the map of the epoch it joined in: SESS_SEQ.NEXT is the larger of 1 and the ID's previous LEASE × 2^32
(R290), it votes from here on (R287), and sessions it had are checked (R320). -/
def State.settleJoin (s : State) : State :=
  let me := s.devId
  let lease := match tGet s.cat.devices me with | some d => d.lease | none => 1
  let s := (s.setFld F.SESS_SEQ_NEXT (max 1 ((lease - 1) * 2 ^ 32))).setFld F.RIND_AUDIT_STATUS_FENCED 0
  let want := s.cat.wantId
  let mine (acc : Nat) : Bool := match tGet s.cat.buckets (bucketOf acc) with | some b => b.owners.contains me | none => false
  let s := s.updCat fun c => { c with joining := 0, abstaining := false, gone := false, undecided := s.sessions.map (·.2.accession),
                                      loc := c.loc.filter (fun l => mine l.accession), fwd := c.fwd.filter (fun l => mine l.accession) }
  let s := { s with membership := some (me, s.cat.registrars.map (fun d => match tGet s.cat.devices d with | some v => v.address | none => [])) }
  if want != 0xFFFFFFFF && want != me then (s.cat.undecided.foldl (fun s acc => s.decideOwner acc 0xFFFFFFFF) s).pokeRestore
  else (s.cat.undecided.foldl (fun s acc => s.checkOwner acc) s).mirrorCheck.pokeRestore

/-- The map is current: a device that fetched it to join asks now, one that joined settles, and held slips go on. -/
def State.mapCurrent (s : State) : State :=
  let s := s.updCat fun c => { c with fetch := none }
  let s := if s.cat.joining == 3 then s.askJoin 0xFFFFF s.cat.wantId else if s.cat.joining == 2 then s.settleJoin else s.pokeRestore
  s.resolveEpoch

/-- The fetch failed: slips held for it are answered (R58); a device that could not fetch the map does not join. -/
def State.fetchLost (s : State) : State :=
  let s := s.updCat fun c => { c with fetch := none, joining := if c.joining == 3 then 0 else c.joining }
  (if s.cat.joining == 0 then s.answerClients (fun k => k.kind == 1 && k.address == []) (fun _ => Answer.st St.TIMEOUT) else s).resolveEpoch.pokeRestore

/-- Does what a map fetch brings carry a device ID that is invalid in this generation (R14)?  Change lists, or the part `k` of the map:
buckets, 8,192 a part, then device entries. -/
def badFetch (f : Fetch) (b : Bytes) : Bool :=
  if f.from_ != 0 then (splitLists 16 b).any (fun l => (readChanges l).2.any (fun h => h.devs.any badDev))
  else if f.parts.length < 8 then (chunks 8 8192 b).any (fun w => badDev (bitsOf (leNat w) 19 0) || badDev (bitsOf (leNat w) 39 20))
  else (chunks 32 2048 b).any (fun w => badDev (bitsOf (rdLe w 0 4) 19 0))

/-- MAP_FETCH_REPLY (R288): change lists since this member's epoch, or one of the sixteen parts of the whole map; a message with an
invalid device ID is ignored (R14). -/
def execMAP_FETCH_REPLY (dev : Nat) (r : Reply) (s : State) : Host.Outcome State Fault Refusal :=
  match s.cat.fetch with
  | none => .next s
  | some f =>
    if f.dev != dev || (statusClass r.status.toNat ≤ 1 && badFetch f r.data) then .next s
    else if statusClass r.status.toNat ≤ 1 then
      if f.from_ != 0 then
        match s.applyLists (splitLists 16 r.data) with
        | some t => .next t.mapCurrent
        | none => .next ((s.bump F.CAT_CNT_DIGEST_BAD_COUNT).fetchFrom dev 0 0)
      else
        let parts := f.parts ++ [r.data]
        let epoch := r.result.toNat % 2 ^ 32
        if !f.parts.isEmpty && f.epoch != epoch then .next (s.fetchFrom dev 0 0)
        else if parts.length < 16 then
          let s := s.updCat fun c => { c with fetch := some { f with parts := parts, epoch := epoch } }
          .next (s.fetchFrom dev 0 parts.length)
        else
          let old := s.cat
          let m := readMap (parts.flatMap (fun b => slice b 0 65536))
          let s := s.updCat fun c => { c with buckets := m.1, devices := m.2, history := [] }
          .next (if s.member then (s.epochEntered old epoch).mapCurrent else (s.showEpoch epoch).mapCurrent)
    else if f.from_ != 0 && r.status.toNat == St.BAD_PARAM then .next (s.fetchFrom dev 0 0)
    else .next s.fetchLost

/-- EPOCH_HOLD_RESOLVE (R58): slips held for a newer map proceed with it, or are answered EPOCH_STALE when no fetch is left. -/
def execEPOCH_HOLD_RESOLVE (s : State) : Host.Outcome State Fault Refusal := .next s.resolveEpoch

/-! ## Joining and leaving (R290, R296) -/

/-- Found a composition (R299): epoch 1, this device its only member and registrar; a session it restored stays its own when its
number names this ID (R320). -/
def State.found (s : State) (id : Nat) : State :=
  let prof := match s.profile with | some p => p.id | none => 0
  let d : CatDev := { state := 1, registrar := true, lease := 1, address := s.ownAddress, profile := prof, joinEpoch := 1 }
  let s := (s.setFld F.DEV_DEVID_DEVICE_ID id).setFld F.DEV_DEVID_VALID 1
  let s := s.updCat fun (c : Cat) =>
    { Cat.empty with fwd := c.fwd, loc := c.loc, devices := [(id, d)],
                     buckets := (List.range 65536).map (fun b => (b, { primary := id, secondary := id, changed := true })) }
  let s := { (s.setFld F.SESS_SEQ_NEXT (max 1 (s.fld F.SESS_SEQ_NEXT))).showEpoch 1 with membership := some (id, [d.address]) }
  (s.sessions.foldl (fun s p => s.decideOwner p.2.accession (if originOf p.2.accession == id then id else 0xFFFFFFFF)) s).mirrorCheck

/-- A context to a device of no known ID, at an address, as a non-member (R384, R317). -/
def State.sponsor (s : State) (addr : Bytes) : State :=
  match s.ctxOf 0xFFFFF with
  | some _ => s
  | none => match s.newCtx with
    | none => s.bump F.NET_CNT_CTX_FULL_COUNT
    | some p =>
      let s := if (s.peer p).state == 0 then s else s.closePeer p
      s.setPeer p { Peer.fresh with valid := true, kind := 2, dev := 0xFFFFF, addrLo := rdLe addr 0 8, addrHi := rdLe addr 8 8, idle := s.tick }

/-- CAT_JOIN (R290, R299): from M, found a composition, or fetch the map from a registrar's address and ask it; from P, at a
registrar, propose the JOIN; the reply follows the commit. -/
def execCAT_JOIN (x : Slip) (s : State) : Host.Outcome State Fault Refusal :=
  runCat Op.CAT_JOIN x [1, w32, 0, 0, 0, 0] s fun s =>
    let want := if x.P1 == 0xFFFFFFFF then none else some (bitsOf x.P1 19 0)
    let k : CatClient := { kind := 1, dev := 0, address := [], op := Op.CAT_JOIN, slip := x }
    if x.P1 != 0xFFFFFFFF && x.P1 ≥ 2 ^ 20 then .no s St.BAD_PARAM 1
    else match x.src with
    | .peer _ =>
      let addr := slice x.payload 0 16
      let prof := rdLe x.payload 16 4
      let own := match s.profile with | some p => p.id | none => 0
      if !s.registrar then .no s St.NOT_PERMITTED
      else if x.payload.length < 20 then .no s St.PAYLOAD_TRUNCATED
      else if prof != own then .no s St.PROFILE_MISMATCH
      else match s.cat.joinId want with
        | none => .no s St.NO_SLOTS 1
        | some _ =>
          .wait ((s.updCat fun c => { c with clients := c.clients ++ [{ k with address := addr }] }).wish (.join want addr prof))
    | _ =>
      if s.member || s.cat.joining != 0 then .no s St.BUSY
      else if bitOf x.P0 0 then
        let id := (Cat.empty.joinId want).getD 0
        .done (s.found id) (Answer.ok id)
      else if x.payload.length < 16 then .no s St.PAYLOAD_TRUNCATED
      else
        let s := (s.sponsor (slice x.payload 0 16)).updCat fun c =>
          { c with joining := 3, wantId := x.P1, abstaining := true, clients := c.clients ++ [k] }
        .wait (s.fetchFrom 0xFFFFF 0 0)

/-- CAT_JOIN_REPLY (R290, R320): the joining device has its ID; its non-member contexts close, and it brings its map up to the
epoch it joined in. -/
def execCAT_JOIN_REPLY (r : Reply) (s : State) : Host.Outcome State Fault Refusal :=
  if s.cat.joining != 1 || (statusClass r.status.toNat ≤ 1 && badDev (bitsOf r.result.toNat 19 0)) then .next s
  else if statusClass r.status.toNat ≤ 1 then
    let id := bitsOf r.result.toNat 19 0
    let s := (s.setFld F.DEV_DEVID_DEVICE_ID id).setFld F.DEV_DEVID_VALID 1
    let s := s.updCat fun c => { c with joining := 2 }
    let s := s.answerClients (fun k => k.kind == 1 && k.address == []) (fun _ => Answer.ok id)
    let s := s.peers.foldl (fun (s : State) q =>
      if q.2.valid && q.2.kind == 2 && q.2.dev == 0xFFFFF then (s.closePeer q.1).setPeer q.1 Peer.fresh else s) s
    .next (s.fetchFrom (s.someRegistrar.getD 0) (if s.cat.buckets.isEmpty then 0 else s.epoch) 0)
  else
    .next ((s.updCat fun c => { c with joining := 0 }).answerClients (fun k => k.kind == 1 && k.address == [])
      (fun _ => Answer.st r.status.toNat r.detail.toNat)).pokeRestore

/-- The device a CAT_LEAVE is about when it leaves itself: the peer's, or this one. -/
def State.leaver (s : State) (x : Slip) : Nat := match x.src with | .peer p => (s.peer p).dev | _ => s.devId

/-- Ask for a change on behalf of a slip, which waits for it: a registrar proposes it; another member passes it to a
registrar when the slip came from M or K. -/
def State.leaveFor (s : State) (x : Slip) (kind phase suspect dev : Nat) (w : Wish) : SlipRes :=
  let k : CatClient := { kind := kind, dev := dev, address := [], op := Op.CAT_LEAVE, slip := x }
  let far : Bool := match x.src with | .peer _ => true | _ => false
  if far && !s.registrar then .no s St.NOT_PERMITTED
  else .wait ((s.updCat fun c => { c with clients := c.clients ++ [k] }).askLeave phase suspect w)

/-- CAT_LEAVE, graceful (R296 step 1). -/
def execCAT_LEAVE (x : Slip) (s : State) : Host.Outcome State Fault Refusal :=
  runCat Op.CAT_LEAVE x [3, 0xFFFFF, 0, 0, 0, 0] s fun s =>
    let d := s.leaver x
    if bitsOf x.P0 1 0 == 3 then .no s St.BAD_PARAM 0
    else if !s.member || s.devState d == 0 || s.devState d > 2 then .no s St.BAD_STATE
    else if s.devState d == 2 then .done s (Answer.ok s.epoch)
    else s.leaveFor x 2 0 0 d (.leaving d)

/-- CAT_LEAVE FINAL (R296 step 4): a leaving device that owns no session and holds nothing for others. -/
def execCAT_LEAVE_FINAL (x : Slip) (s : State) : Host.Outcome State Fault Refusal :=
  runCat Op.CAT_LEAVE x [3, 0xFFFFF, 0, 0, 0, 0] s fun s =>
    let d := s.leaver x
    if !s.member || s.devState d != 2 then .no s St.BAD_STATE
    else if d == s.devId && !(s.sessions.all (fun p => p.2.state == Ss.CLOSED) && s.holdUsed == 0) then .no s St.BAD_STATE
    else
      let s := if d == s.devId then s.updCat fun c => { c with finalSent := true } else s
      s.leaveFor x 3 1 0 d (.remove d)

/-- CAT_LEAVE SUSPECT (R296): a registrar probes the member on every sub-port; its REMOVE is proposed only when that goes
unanswered. -/
def execCAT_LEAVE_SUSPECT (x : Slip) (s : State) : Host.Outcome State Fault Refusal :=
  runCat Op.CAT_LEAVE x [3, 0xFFFFF, 0, 0, 0, 0] s fun s =>
    let d := bitsOf x.P1 19 0
    if !s.member || !(s.devState d == 1 || s.devState d == 2) || d == s.devId then .no s St.BAD_STATE
    else if s.registrar then
      let k : CatClient := { kind := 3, dev := d, address := [], op := Op.CAT_LEAVE, slip := x }
      let s := s.updCat fun c => { c with clients := c.clients ++ [k],
                                          suspects := if c.suspects.any (fun z => z.1 == d) then c.suspects else c.suspects ++ [(d, s.tick)] }
      .wait (match s.reach d with | some (p, s) => s.probeAll p | none => s)
    else s.leaveFor x 3 2 d d (.remove d)

/-- REMOVE_CONFIRM (R296): probes of a suspect have gone unanswered for DEAD_CONFIRM. -/
def execREMOVE_CONFIRM (dev : Nat) (s : State) : Host.Outcome State Fault Refusal :=
  match s.cat.suspects.find? (fun z => z.1 == dev) with
  | none => .next s
  | some z =>
    if !s.registrar || s.tick - z.2 < s.fld F.CAT_CFG_DEAD_CONFIRM * 100000 then .next s
    else .next ((s.updCat fun c => { c with suspects := c.suspects.filter (fun y => y.1 != dev) }).wish (.remove dev))

/-- End the armed request of one session of a leaving device (R296 step 2); one in a step goes on to its boundary. -/
def State.cancelLeaving (s : State) (i : Nat) : State :=
  let e := s.sess i
  if !e.armed || e.inStep || (e.state == Ss.RING_FULL && e.heldFinal) then s
  else if e.state == Ss.DECODE then
    ((s.dequeue i).endWithout i End.CANCELLED ((e.req.map (·.heldBack)).getD [])).flushRing e.ring
  else if e.state == Ss.PREFILL || e.state == Ss.RING_FULL || e.state == Ss.PREEMPTED then s.updSess i (fun e => { e with armed := false })
  else s.cancelIdle i

/-- DRAIN_TIME_EXPIRY (R296): armed requests still running after DRAIN_TIME are cancelled, and the leave goes on. -/
def execDRAIN_TIME_EXPIRY (s : State) : Host.Outcome State Fault Refusal :=
  if !s.cat.leaving || s.tick - s.cat.leaveTick < s.fld F.CAT_CFG_DRAIN_TIME * 100000000 then .next s
  else .next (s.sessions.foldl (fun s p => s.cancelLeaving p.1) s).leaveStep

/-! ## Locations and forwarding (R292-R295) -/

/-- What this device answers for a session's location: owner, and whether a record names it.  A session of a removed device
that it is to adopt is its own (R321). -/
def State.locateResult (s : State) (acc : Nat) : Nat :=
  if s.adopting acc then s.devId + 2 ^ 20
  else match s.cat.loc.find? (fun l => l.accession == acc) with
    | some l => l.owner + 2 ^ 20
    | none => originOf acc

/-- The bucket of a session has not yet arrived from its old owner (R295). -/
def State.bucketWait (s : State) (acc : Nat) : Option Nat := (s.cat.waiting.find? (fun w => w.1 == bucketOf acc)).map (·.2)

/-- CAT_LOCATE QUERY (R293); of a bucket not yet received, the old owner is asked (R295). -/
def execCAT_LOCATE_QUERY (x : Slip) (s : State) : Host.Outcome State Fault Refusal :=
  runCat Op.CAT_LOCATE x [3, 0xFFFFF, w32, 0, 0, 0] s fun s =>
    match s.bucketWait x.acc with
    | some d => .hold (s.askLocation x.acc x.ten d) (.locate x.acc)
    | none => .done (s.bump F.CAT_CNT_LOCATE_COUNT) (Answer.ok (s.locateResult x.acc))

/-- Does the region of the placement plan have room for location records of these sessions (R292)?  A session that has one here
needs no more. -/
def State.locRoom (s : State) (accs : List Nat) : Bool :=
  let n := (accs.filter (fun a => !s.cat.loc.any (fun l => l.accession == a))).length
  n == 0 || decide (s.cat.loc.length + n ≤ Config.locationRoom)

/-- Pass a record made here for a bucket that has moved on to its new owners (R295). -/
def State.passRecord (s : State) (acc : Nat) : State :=
  match tGet s.cat.buckets (bucketOf acc), s.cat.loc.find? (fun l => l.accession == acc) with
  | some b, some l => if b.owners.contains s.devId then s
      else (b.owners.foldl (fun s d => s.sendTransfer d [l]) s).updCat fun c => { c with loc := c.loc.filter (fun r => r.accession != acc) }
  | _, _ => s

/-- CAT_LOCATE REGISTER (R292): the record is kept; updates of a bucket not yet received wait for it (R295). -/
def execCAT_LOCATE_REGISTER (x : Slip) (s : State) : Host.Outcome State Fault Refusal :=
  runCat Op.CAT_LOCATE x [3, 0xFFFFF, w32, 0, 0, 0] s fun s =>
    let owner := bitsOf x.P1 19 0
    if (s.bucketWait x.acc).isSome then .hold s (.bucket (bucketOf x.acc))
    else if !s.locRoom [x.acc] then .no s St.NO_SLOTS 6
    else
      let s := (s.bump F.CAT_CNT_LOCATE_COUNT).registerAt s.devId x.acc owner
      .done (s.passRecord x.acc) (Answer.ok (owner + 2 ^ 20))

/-- CAT_LOCATE REMOVE (R292). -/
def execCAT_LOCATE_REMOVE (x : Slip) (s : State) : Host.Outcome State Fault Refusal :=
  runCat Op.CAT_LOCATE x [3, 0xFFFFF, w32, 0, 0, 0] s fun s =>
    if (s.bucketWait x.acc).isSome then .hold s (.bucket (bucketOf x.acc))
    else
      let r := s.locateResult x.acc
      let s := (s.bump F.CAT_CNT_LOCATE_COUNT).updCat fun c => { c with loc := c.loc.filter (fun l => l.accession != x.acc) }
      .done s (Answer.ok r)

/-- The records of a TRANSFER's payload. -/
def readRecords (b : Bytes) : List LocRec :=
  (chunks 16 (b.length / 16 + 1) b).filterMap (fun r => if r.length == 16 then some (LocRec.mk (rdLe r 0 8) (bitsOf (rdLe r 8 4) 19 0) (rdLe r 12 4)) else none)

/-- Does a location record carry a device ID that is invalid in this generation (R14)? -/
def LocRec.bad (l : LocRec) : Bool := badDev (originOf l.accession) || badDev l.owner

/-- CAT_LOCATE TRANSFER (R295): a message with an invalid device ID is rejected and has no effect (R14); records of buckets come from their old owner; a newer record already here stands; what
waited for those buckets goes on. -/
def execCAT_LOCATE_TRANSFER (x : Slip) (s : State) : Host.Outcome State Fault Refusal :=
  runCat Op.CAT_LOCATE x [3, 0xFFFFF, w32, 0, 0, 0] s fun s =>
    let from_ := match x.src with | .peer p => (s.peer p).dev | _ => s.devId
    let l := readRecords x.payload
    if l.any LocRec.bad then .no s St.BAD_DEVICE_ID
    else if !s.locRoom (l.map (fun r => r.accession)) then .no s St.NO_SLOTS 6
    else
      let s := s.updCat fun c =>
        let fresh := l.filter (fun r => !c.loc.any (fun q => q.accession == r.accession && q.epoch ≥ r.epoch))
        let came := (c.waiting.filter (fun w => w.2 == from_)).map (·.1)
        { c with loc := c.loc.filter (fun q => !fresh.any (fun r => r.accession == q.accession)) ++ fresh
                 waiting := c.waiting.filter (fun w => !came.contains w.1) }
      let open_ (b : Nat) : Bool := !s.cat.waiting.any (fun w => w.1 == b)
      let s := s.release (fun h => match h with | .bucket b => open_ b | _ => false)
      .done (s.bump F.CAT_CNT_LOCATE_COUNT) (Answer.ok 0)

/-- A slip that waited for a session's location goes on: lookups and queries are answered, others forwarded (R293). -/
def State.located (s : State) (h : OpSlip) (result : Nat) : State :=
  let op := h.op.toNat
  let owner := bitsOf result 19 0
  if op == Op.CAT_LOOKUP then s.finish op h.slip (s.lookupAnswer h.slip owner (bitOf result 20))
  else if op == Op.CAT_LOCATE then s.finish op h.slip (Answer.ok result)
  else (s.foreignTo op h.slip owner).close op h.slip

/-- Every slip that waits for a session's location takes an answer. -/
def State.allLocated (s : State) (acc : Nat) (f : State → OpSlip → State) : State :=
  let go := s.held.filter (fun h => h.2 == .locate acc)
  let s := { s with held := s.held.filter (fun h => h.2 != .locate acc) }
  go.foldl (fun s h => f s h.1) s

/-- A location nobody can give: the session is unknown (R293). -/
def State.unlocated (s : State) (l : Locate) : State :=
  let s := s.updCat fun c => { c with locates := c.locates.filter (fun q => !(q.accession == l.accession && q.why == l.why)) }
  if l.why == 2 then s.decideOwner l.accession 0xFFFFFFFF
  else s.allLocated l.accession (fun s h => s.finish h.op.toNat h.slip (Answer.st St.UNKNOWN_SESSION))

/-- The owner asked first has no answer: the secondary is asked, once (R293). -/
def State.askSecond (s : State) (l : Locate) : State :=
  match tGet s.cat.buckets (bucketOf l.accession) with
  | none => s.unlocated l
  | some b =>
    if l.second || b.secondary == l.asked || b.secondary == s.devId then s.unlocated l
    else
      let s := s.updCat fun c => { c with locates := c.locates.map (fun (q : Locate) =>
        if q.accession == l.accession && q.why == l.why then { q with asked := b.secondary, second := true, since := s.tick } else q) }
      s.sendDev b.secondary Op.CAT_LOCATE l.accession 0xFFFF [0, 0, s.epoch] []

/-- LOCATE_TIMEOUT (R293). -/
def execLOCATE_TIMEOUT (acc : Nat) (s : State) : Host.Outcome State Fault Refusal :=
  match s.cat.locates.find? (fun l => l.accession == acc && l.why != 1) with
  | none => .next s
  | some l => if s.tick - l.since < s.fld F.CAT_CFG_LOCATE_TIMEOUT * 100 then .next s else .next (s.askSecond l)

/-- LOCATE_REPLY (R292, R293): a device answers a CAT_LOCATE of this one, `op` its P0; a reply with an invalid device ID is ignored
(R14). -/
def execLOCATE_REPLY (acc dev op : Nat) (r : Reply) (s : State) : Host.Outcome State Fault Refusal :=
  let ok := decide (statusClass r.status.toNat ≤ 1)
  if ok && badDev (bitsOf r.result.toNat 19 0) then .next s
  else if op == 0 then
    match s.cat.locates.find? (fun l => l.accession == acc && l.asked == dev && l.why != 1) with
    | none => .next s
    | some l =>
      if !ok then .next (s.askSecond l)
      else
        let res := r.result.toNat
        let s := s.updCat fun c => { c with locates := c.locates.filter (fun q => !(q.accession == acc && q.why == l.why)) }
        .next (if l.why == 2 then s.decideOwner acc (bitsOf res 19 0) else s.allLocated acc (fun s h => s.located h res))
  else if op == 1 then
    match s.cat.locates.find? (fun l => l.accession == acc && l.why == 1), s.moveOf acc false with
    | some l, some (i, m) =>
      if m.phase != 1 then .next s
      else if !ok then .next (s.moveFailed i m)
      else if l.left > 1 then
        .next (s.updCat fun c => { c with locates := c.locates.map (fun (q : Locate) =>
          if q.accession == acc && q.why == 1 then { q with left := q.left - 1 } else q) })
      else
        .next ((s.updCat fun c => { c with locates := c.locates.filter (fun q => !(q.accession == acc && q.why == 1)) }).sendCommit i m)
    | _, _ => .next s
  else .next s

/-- FORWARDED_REPLY (R58): the new owner's reply goes back unchanged, but that OK becomes FORWARDED with the owner in DETAIL. -/
def execFORWARDED_REPLY (dev tag : Nat) (r : Reply) (s : State) : Host.Outcome State Fault Refusal :=
  match s.cat.forwards.find? (fun f => f.dev == dev && f.tag == tag) with
  | none => .next s
  | some f =>
    let s := s.updCat fun c => { c with forwards := c.forwards.filter (fun g => !(g.dev == dev && g.tag == tag)) }
    let plain := r.status == 0
    .next (s.finish f.op f.slip
      { status := if plain then St.FORWARDED else r.status.toNat, detail := if plain then dev else r.detail.toNat,
        result := r.result.toNat, result2 := r.result2.toNat, data := r.data, epoch := some r.epoch.toNat })

/-- FORWARD_RECORD_EXPIRY (R294): two further epochs and FWD_HOLD have passed. -/
def execFORWARD_RECORD_EXPIRY (acc : Nat) (s : State) : Host.Outcome State Fault Refusal :=
  .next (s.updCat fun c => { c with fwd := c.fwd.filter (fun r =>
    !(r.accession == acc && s.epoch ≥ r.epoch + 2 && s.tick - r.tick ≥ s.fld F.CAT_CFG_FWD_HOLD * 100000000)) })

/-! ## The fence (R356) -/

/-- Is a registrar reachable: a packet from it within DEAD_CONFIRM ÷ 2?  A device reaches itself. -/
def State.reachable (s : State) (d : Nat) : Bool :=
  d == s.devId || s.peers.any (fun q => q.2.valid && q.2.kind == 2 && q.2.dev == d && q.2.state == 2
    && 2 * (s.tick - q.2.rx.heard) ≤ s.fld F.CAT_CFG_DEAD_CONFIRM * 100000)

/-- Does the member reach a majority of the registrars? -/
def State.reachesMajority (s : State) : Bool := s.majority (s.cat.registrars.filter s.reachable)

/-- REGISTRAR_KEEPALIVE (R356): once per second a member sends a NOP to each registrar. -/
def execREGISTRAR_KEEPALIVE (s : State) : Host.Outcome State Fault Refusal :=
  let due : Bool := match s.cat.nopTick with | none => true | some t => decide (s.tick - t ≥ 100000000)
  if !s.member || !due then .next s
  else
    let s := s.updCat fun c => { c with nopTick := some s.tick }
    .next ((s.cat.registrars.filter (· != s.devId)).foldl (fun s d => s.sendDev d Op.NOP 0 0xFFFF [] []) s)

/-- REGISTRAR_NOP_REPLY (R356): the registrar is reachable; a newer EPOCH makes the member fetch the map. -/
def execREGISTRAR_NOP_REPLY (dev epoch : Nat) (s : State) : Host.Outcome State Fault Refusal :=
  match s.ctxOf dev with
  | none => .next s
  | some p =>
    let s := s.updPeer p fun v => { v with rx := { v.rx with heard := s.tick } }
    .next (if epoch > s.epoch && s.member && s.cat.fetch.isNone then s.fetchFrom dev s.epoch 0 else s)

/-- FENCE (R356): a member that reaches fewer than a majority of the registrars fences itself. -/
def execFENCE (s : State) : Host.Outcome State Fault Refusal :=
  if s.member && !s.reachesMajority && !s.fenced then .next s.fence else .next s

/-- FENCE_END (R356): a majority is reachable again and the map is current; holders lost meanwhile are replaced now (R192). -/
def execFENCE_END (s : State) : Host.Outcome State Fault Refusal :=
  if s.fenced && s.member && s.reachesMajority && s.cat.fetch.isNone then
    let late := s.cat.lostLate
    let s := (s.setFld F.RIND_AUDIT_STATUS_FENCED 0).updCat fun c => { c with lostLate := [] }
    .next (late.foldl State.holderLost s)
  else .next s

end Sys2Proof.Machine
end

