-- ==== Sys2Proof/Machine/Checkpoint.lean ====
section
/-!
DEFINITION. The checkpoint slips (Table 12.9) and events: triggers (R305-R307), press writes (R313, R314), mirror copies (R316), the
restore (R317-R320) and re-homing (R321).
-/

namespace Sys2Proof.Machine

/-! ## Triggers -/

/-- CKPT_TAKE (R325): BUSY while checkpoints are off or one runs; otherwise the reply follows the barrier or the seal. -/
def execCKPT_TAKE (x : Slip) (s : State) : Host.Outcome State Fault Refusal :=
  runSlip Op.CKPT_TAKE x s fun s =>
    if x.acc != 0 then .no s St.RESERVED_NONZERO 0x10
    else match badParam x [1, 0, 0, 0, 0, 0] with
      | some k => .no s St.BAD_PARAM k
      | none =>
        if !s.flag F.CKPT_CTRL_EN then .no s St.BUSY
        else if s.phase != 0 then .no s St.BUSY (s.fld F.CKPT_STATUS_RUNNING)
        else .wait (s.trigger 2)

/-- Has TIMER_S elapsed since the previous barrier, or have 2^STEPS_LOG2 decode steps completed (R305)? -/
def State.timerDue (s : State) : Bool :=
  let t := s.fld F.CKPT_TRIG_TIMER_S
  t != 0 && s.tick - s.ckpt.prevTick ≥ t * 100000000
def State.stepsDue (s : State) : Bool :=
  let n := s.fld F.CKPT_TRIG_STEPS_LOG2
  n != 0 && s.fld F.SCHED_CNT_STEPS_COUNT - s.ckpt.prevSteps ≥ 2 ^ n

/-- CKPT_TIMER_EXPIRY (R305). -/
def execCKPT_TIMER_EXPIRY (s : State) : Host.Outcome State Fault Refusal :=
  .next (if s.timerDue then s.trigger 0 else s)

/-- CKPT_STEP_COUNT (R305). -/
def execCKPT_STEP_COUNT (s : State) : Host.Outcome State Fault Refusal :=
  .next (if s.stepsDue then s.trigger 1 else s)

/-- SEQ_LIMIT_NEAR (R305, R290): NEXT within 2^16 of SEQ_LIMIT is a trigger; NEXT within 2^24 of the lease end has a registrar
propose one more LEASE. -/
def execSEQ_LIMIT_NEAR (s : State) : Host.Outcome State Fault Refusal :=
  let next := s.fld F.SESS_SEQ_NEXT
  let lease := match tGet s.cat.devices s.devId with | some d => d.lease | none => 0
  let s := if s.registrar && next + 2 ^ 24 ≥ lease * 2 ^ 32 then s.wish (.lease s.devId (lease + 1)) else s
  .next (if next + 2 ^ 16 ≥ s.fld F.CKPT_SEQ_SEQ_LIMIT then s.trigger 3 else s)

/-- DEFERRED_CKPT_START (R306): deferred triggers start one checkpoint together once nothing stands against it. -/
def execDEFERRED_CKPT_START (s : State) : Host.Outcome State Fault Refusal :=
  .next (if s.ckpt.deferred != 0 && s.ckptFree && s.flag F.CKPT_CTRL_EN then s.beginCkpt s.ckpt.deferred else s)

/-- BARRIER_OVERRUN (R307): the barrier is undone and what it held goes on; the checkpoint is taken again 1 ms later. -/
def execBARRIER_OVERRUN (s : State) : Host.Outcome State Fault Refusal :=
  if s.phase != 1 then .next s
  else
    let cause := s.ckpt.cause
    let s := (s.setFld F.CKPT_STATUS_LAST_ABANDON 1).bump F.CKPT_CNT_BARRIER_ABORT_COUNT
    let s := s.endCkpt.updCkpt fun c => { c with retry := some (s.tick + 100000, cause) }
    .next (s.release (· == .barrier))

/-- BARRIER_RETRY (R307): 1 ms after an undone barrier. -/
def execBARRIER_RETRY (s : State) : Host.Outcome State Fault Refusal :=
  match s.ckpt.retry with
  | some r =>
    if s.tick < r.1 then .next s
    else if s.ckptFree then .next (s.beginCkpt r.2)
    else .next ((s.updCkpt fun c => { c with retry := none, deferred := c.deferred ||| r.2 }).bump F.CKPT_CNT_DEFER_COUNT)
  | none => .next s

/-- New trigger values (R325, R326), which may trigger at once. -/
def State.setTriggers (s : State) (timer steps : Option Nat) : State :=
  let s := match timer with | some t => s.setFld F.CKPT_TRIG_TIMER_S t | none => s
  let s := match steps with | some n => s.setFld F.CKPT_TRIG_STEPS_LOG2 n | none => s
  let s := if s.timerDue then s.trigger 0 else s
  if s.stepsDue then s.trigger 1 else s

/-- Is a STEPS_LOG2 value one Table 12.12 gives? -/
def stepsOk (n : Nat) : Bool := n == 0 || (10 ≤ n && n ≤ 40)

/-- CKPT_SET_TRIGGERS (R325, R310): AUTO and FORMAT are written to the press label before the reply. -/
def execCKPT_SET_TRIGGERS (x : Slip) (s : State) : Host.Outcome State Fault Refusal :=
  runSlip Op.CKPT_SET_TRIGGERS x s fun s =>
    let timer := if x.P0 == w32 then none else some x.P0
    let steps := if x.P1 == w32 then none else some x.P1
    let format := bitOf x.P2 2
    let setAuto := bitOf x.P2 1
    if x.acc != 0 then .no s St.RESERVED_NONZERO 0x10
    else match badParam x [w32, w32, 7, 0, 0, 0] with
      | some k => .no s St.BAD_PARAM k
      | none =>
        if timer.any (· > 0xFFFF) then .no s St.BAD_PARAM 0
        else if steps.any (fun n => !stepsOk n) then .no s St.BAD_PARAM 1
        else if format && s.code x.src == 2 then .no s St.NOT_PERMITTED
        else if format && s.phase != 0 then .no s St.BUSY
        else
          let s := s.setTriggers timer steps
          let p := s.ckpt.press
          let own : Bool := match p.label with | some l => l.1 == s.fuseDigest | none => false
          if !format && !setAuto then .done s (Answer.ok 0)
          else if !p.found || (!format && !own) then .no s St.MEDIA s.lastErr
          else
            let auto := if setAuto then bitOf x.P2 0 else match p.label with | some l => own && l.2 | none => false
            .wait ((s.updCkpt fun c => { c with press := { c.press with writes := c.press.writes ++ [((s.fuseDigest, auto), x)] } }).emit
              (.nvme .labelWrite 0 0 1))

/-- CKPT_TRIG_WRITE (R326): a value that is no value of STEPS_LOG2 is ignored in full and counted (R17). -/
def execCKPT_TRIG_WRITE (value : Word) (s : State) : Host.Outcome State Fault Refusal :=
  let steps := F.CKPT_TRIG_STEPS_LOG2.get value
  if !stepsOk steps then .next s.regAccErr
  else .next (s.setTriggers (some (F.CKPT_TRIG_TIMER_S.get value)) (some steps))

/-- CKPT_NO of the seal in a press slot, 0 for none. -/
def State.slotNo (s : State) (k : Nat) : Nat := match tGet s.ckpt.press.slots k with | some v => v.no | none => 0

/-- CKPT_QUERY (R325). -/
def execCKPT_QUERY (x : Slip) (s : State) : Host.Outcome State Fault Refusal :=
  runSlip Op.CKPT_QUERY x s fun s =>
    if x.acc != 0 then .no s St.RESERVED_NONZERO 0x10
    else match badParam x [0, 0, 0, 0, w32, w32] with
      | some k => .no s St.BAD_PARAM k
      | none =>
        let newest := if s.flag F.CKPT_LAST_VALID then s.fld F.CKPT_LAST_CKPT_NO else max (s.slotNo 0) (s.slotNo 1)
        let mir := if s.flag F.CKPT_LAST_VALID && s.flag F.CKPT_LAST_MIRRORED then s.fld F.CKPT_LAST_CKPT_NO
          else (s.ckpt.mirrored.map (·.no)).foldl max 0
        let body := leBytes 4 (s.slotNo 0) ++ leBytes 4 (s.slotNo 1) ++ leBytes 4 newest ++ leBytes 4 mir ++ leBytes 1 s.phase
          ++ leBytes 1 (s.fld F.CKPT_STATUS_PRESS) ++ leBytes 2 0 ++ leBytes 4 (s.fld F.CKPT_LAST_BLOCKS) ++ leBytes 8 s.fuseDigest
          ++ leBytes 4 ((s.profile.map (·.id)).getD 0) ++ leBytes 4 0
        .done s (Answer.ok newest 0 (structure0 0x1C01 body))

/-! ## Press writes (R313, R314) -/

/-- PRESS_WRITE_DONE (R313): `blocks` block writes, the Flush or a seal write has completed. -/
def execPRESS_WRITE_DONE (blocks : Nat) (s : State) : Host.Outcome State Fault Refusal := .next (s.pressStep blocks)

/-- PRESS_WRITE_ERROR (R314, R444). -/
def execPRESS_WRITE_ERROR (s : State) : Host.Outcome State Fault Refusal :=
  match s.ckpt.run with
  | some r => if r.press && !r.isSealed then .next (s.pressError.bump F.CXL_CNT_NVME_ERR_COUNT) else .next s
  | none => .next s

/-! ## Mirror copies (R316) -/

/-- MIRROR_ACK (R316): a holder answers the PUT last sent it; the next blocks or the seal follow. -/
def execMIRROR_ACK (dev status : Nat) (s : State) : Host.Outcome State Fault Refusal :=
  match s.ckpt.run with
  | none => .next s
  | some r =>
    match r.mirrors.find? (fun m => m.1 == dev) with
    | none => .next s
    | some m =>
      if m.2.2 ≥ 2 || s.phase != 4 then .next s
      else if statusClass status ≥ 2 then .next (s.mirrorLost dev)
      else if m.2.2 == 0 then .next (s.mirrorSend dev)
      else
        let s := s.updRun fun r => { r with mirrors := r.mirrors.map (fun (z : Nat × Nat × Nat) => if z.1 == dev then (dev, z.2.1, 2) else z) }
        .next s.mirrorEnd

/-- The device a YD context reaches. -/
def State.writerOf (s : State) (x : Slip) : Nat := match x.src with | .peer p => (s.peer p).dev | _ => s.devId

/-- Digest of the leaf key of a slip's context. -/
def State.leafOf (s : State) (x : Slip) : Bytes := match x.src with | .peer p => (s.peer p).leaf | _ => []

/-- Is a PUT's data held already? -/
def MirrorCopy.holds (m : MirrorCopy) (first n : Nat) : Bool :=
  if first == 0 then m.sealRec.isSome else (List.range n).all (fun k => (tGet m.blocks (first + k)).isSome)

/-- Keep blocks or a seal in T2; none when no run of units is free. -/
def State.keepMirror (s : State) (m : MirrorCopy) (first : Nat) : List Bytes → Option (State × MirrorCopy)
  | [] => some (s, m)
  | b :: rest =>
    match s.pickUnits 2 (bodyQuarters b.length) with
    | none => none
    | some u =>
      let m := if first == 0 then { m with sealRec := some (u, b) } else { m with blocks := tPut m.blocks first (u, b) }
      let s := (s.guardRun 2 u (bodyQuarters b.length)).updCkpt fun c =>
        { c with mirrors := c.mirrors.filter (fun z => !(z.writer == m.writer && z.no == m.no)) ++ [m] }
      s.keepMirror m (first + 1) rest

/-- CKPT_MIRROR_PUT, at a holder (R316): the two newest checkpoints of a writer are kept. -/
def execCKPT_MIRROR_PUT (x : Slip) (s : State) : Host.Outcome State Fault Refusal :=
  runSlip Op.CKPT_MIRROR_PUT x s fun s =>
    let n := x.P2
    let size := if x.P1 == 0 then 4096 else 65536 * n
    if x.acc != 0 then .no s St.RESERVED_NONZERO 0x10
    else match badParam x [w32, w32, w32, 0, 0, 0] with
      | some k => .no s St.BAD_PARAM k
      | none =>
        if n == 0 || n > 15 || (x.P1 == 0 && n != 1) then .no s St.BAD_PARAM 2
        else if x.P1 + n > 131072 then .no s St.BAD_PARAM 1
        else match badStruct 0x1C10 (8 + size) x.payload with
          | some e => .no s e.1 e.2
          | none =>
            let w := s.writerOf x
            let mine := s.ckpt.mirrors.filter (fun m => m.writer == w)
            let oldest := (mine.map (·.no)).foldl min (2 ^ 32)
            let body := (x.payload.drop 8).take size
            let m := (mine.find? (fun m => m.no == x.P0)).getD { writer := w, no := x.P0, leaf := s.leafOf x, blocks := [], sealRec := none }
            if m.holds x.P1 n then .done s (Answer.mk' St.ALREADY_DONE 0 0 size)
            else if mine.length ≥ 2 && x.P0 < oldest then .no s St.BAD_PARAM 0
            else if x.P1 == 0 && m.blocks.length < rdLe body 0x1C 4 then .no s St.BAD_PARAM 1
            else
              let fresh := !mine.any (fun m => m.no == x.P0)
              let t := if fresh && mine.length ≥ 2 then s.updCkpt fun c => { c with mirrors := c.mirrors.filter (fun z => !(z.writer == w && z.no == oldest)) } else s
              let parts := if x.P1 == 0 then [body] else (chunks 65536 16 body)
              let units := (parts.map (fun b => bodyQuarters b.length)).foldl (· + ·) 0
              if t.holdUsed + units > t.fld F.TIER_HOLD_CAP then .no s St.NO_SLOTS 6
              else match t.keepMirror { m with leaf := s.leafOf x } x.P1 parts with
                | some (t, _) => .done t (Answer.ok 0 size)
                | none => .no s St.NO_SLOTS 6

/-- May a requester read a writer's copies (R316)? -/
def State.mayReadMirror (s : State) (x : Slip) (w : Nat) (m : MirrorCopy) : Bool :=
  m.leaf == s.leafOf x || (s.devState w == 4 && s.devState (s.writerOf x) == 1)

/-- CKPT_MIRROR_GET, at a holder (R316). -/
def execCKPT_MIRROR_GET (x : Slip) (s : State) : Host.Outcome State Fault Refusal :=
  runSlip Op.CKPT_MIRROR_GET x s fun s =>
    let w := bitsOf x.P0 19 0
    if x.acc != 0 then .no s St.RESERVED_NONZERO 0x10
    else match badParam x [0xFFFFF, w32, w32, w32, w32, w32] with
      | some k => .no s St.BAD_PARAM k
      | none =>
        if x.P2 != 0 && (x.P3 == 0 || x.P3 > 15) then .no s St.BAD_PARAM 3
        else
          let mine := s.ckpt.mirrors.filter (fun m => m.writer == w)
          let newest := ((mine.filter (fun m => m.sealRec.isSome)).map (·.no)).foldl max 0
          let no := if x.P1 == 0 then newest else x.P1
          match mine.find? (fun m => m.no == no) with
          | none => .no s St.UNKNOWN_SESSION 1
          | some m =>
            if !s.mayReadMirror x w m then .no s St.NOT_PERMITTED
            else if x.P2 == 0 then (match m.sealRec with
              | some r => .done s (Answer.ok no 0 r.2)
              | none => .no s St.UNKNOWN_SESSION 1)
            else
              let got := (List.range x.P3).filterMap (fun k => (tGet m.blocks (x.P2 + k)).map (·.2))
              let hurt := (List.range x.P3).any (fun k => match tGet m.blocks (x.P2 + k) with
                | some b => s.unitsHurt 2 b.1 b.2.length
                | none => false)
              if got.length < x.P3 then .no s St.UNKNOWN_SESSION 1
              else if hurt then .no (s.bump F.ERR_CNT_POISON_OUT_COUNT) St.MEDIA s.lastErr else .done s (Answer.ok no 0 (got.flatMap id))

/-- MIRROR_COPY_EXPIRY (R316): 24 hours after a device's REMOVE its copies go. -/
def execMIRROR_COPY_EXPIRY (dev : Nat) (s : State) : Host.Outcome State Fault Refusal :=
  match tGet s.ckpt.removed dev with
  | some t =>
    if s.tick - t < 24 * 3600 * 100000000 then .next s
    else .next (s.updCkpt fun c => { c with mirrors := c.mirrors.filter (fun m => m.writer != dev), removed := tDel c.removed dev })
  | none => .next s

/-! ## Restore: what a checkpoint brings back (R309, R319) -/

/-- A saved entry as it is after a restore (Table 12.6); DEADLINE and ENTERED are still durations. -/
def Sess.restored (e : Sess) (kept : List Nat) : Sess :=
  let shelved := e.shelfGen != 0
  let calm := e.state == Ss.ACCESSIONED || e.state == Ss.PARKED || e.state == Ss.TRANSCRIPT_ONLY || e.state == Ss.CLOSED
  let st := if calm then e.state else if e.state == Ss.MOVING then e.resume else if shelved then Ss.PARKED else Ss.TRANSCRIPT_ONLY
  { e with
    state := st, resume := 0, tier := if st == Ss.PARKED then max e.holderTier1 2 else if st == Ss.ACCESSIONED then e.tier else 0,
    rebuild := e.rebuild || st == Ss.TRANSCRIPT_ONLY, toolWait := false, heldRecord := false, heldGroups := [], heldFinal := false,
    transcript := if shelved && !e.away then e.transcript.drop e.uncovered else e.transcript,
    away := shelved, awayLen := if shelved then e.uncovered else 0, floor := shelved, manifest := none,
    maskLog := if shelved then e.newMasks else e.maskLog, pages := [], down := [], logCharge := 0,
    img := [kept.getD 0 0, kept.getD 1 0, e.img.getD 2 0], inStep := false, cancel := false, parking := 0, reviveNote := 0,
    reviveTokens := 0,
    req := if e.armed then some { stops := [], maxTokens := 0, sampled := 0, heldBack := [], stack := [], cands := [], stopInclude := false, lost := true }
           else none }

/-- Quarter pages this device's own media still hold of a session in T2 and T3. -/
def State.keptUnits (s : State) (acc : Nat) : List Nat :=
  [2, 3].map (fun t => ((s.shelf.filter (fun o => o.own && o.accession == acc && o.tier == t)).map (fun o => bodyQuarters o.body.length)).foldl (· + ·) 0)

/-- A saved tenant, with the key that may have been delivered since, and its usage as it is now (R319, Table 14.2). -/
def Tenant.restored (saved now : Tenant) (tick : Nat) : Tenant :=
  ({ saved with key := now.key, kcv := now.kcv, trust := now.trust, trustOperator := now.trustOperator, sealedErase := now.sealedErase,
                finish := 0, budget := { saved.budget with stamp := tick, carry := 0 },
                policer := { saved.policer with stamp := tick, carry := 0 } }).rebase

/-- Usage of every tenant, counted again from what there is (R319). -/
def State.recount (s : State) : State :=
  { s with tenants := s.tenants.map (fun (t : Nat × Tenant) =>
      (t.1, { t.2 with quotas := t.2.quotas.zipIdx.map (fun (q : Quota × Nat) => { q.1 with used := s.chargesOf t.1 (q.2 + 1) }) })) }

/-- A shard after a restore: FLAT when it held nothing, else DAMAGED (R319). -/
def Shard.restored (v : Shard) : Shard :=
  let empty := v.index.isEmpty && v.loaded == 0
  { v with state := if empty then 0 else 3, lists := if empty then v.lists else v.lists, loaded := 0, centBlocks := [], chains := [],
           index := [], err := 0, gone := false }

/-- Apply the sections of a checkpoint (R305, R309, R319): every ring comes back in ERROR, and location records that T2 has kept stand
before saved ones (Table 12.5). -/
def State.applySnapshot (s : State) (k : Snapshot) : State :=
  let auto := s.fld F.CKPT_CTRL_AUTO
  let s := (k.words.foldl (fun s w => s.setReg w.1 w.2) s).setFld F.CKPT_CTRL_AUTO auto
  let s := (s.setFld F.SESS_SEQ_NEXT k.seqLimit).setFld F.CKPT_SEQ_SEQ_LIMIT k.seqLimit
  let s := k.peers.foldl (fun (s : State) p => (if (s.peer p.1).state == 0 then s else s.closePeer p.1).setPeer p.1 p.2) s
  let target := fun (i : Nat) => match tGet k.moves i with | some m => m.phase == 3 | none => false
  let live := k.sessions.filter (fun p => !(p.2.state == Ss.MOVING && target p.1))
  let sessions := live.map (fun (p : Nat × Sess) => (p.1, p.2.restored (s.keptUnits p.2.accession)))
  let rings := k.rings.map (fun (r : Nat × Ring) =>
    let p := (r.2.pi + 2 ^ 31) % 2 ^ 32
    (r.1, { r.2 with state := 2, pi := p, ci := p, made := 0, groups := 0, discarded := 0, written := 0 }))
  let tenants := (k.tenants.map (fun (t : Nat × Tenant) => (t.1, t.2.restored (s.tenant t.1) s.tick)))
  let shapers := k.shapers.map (fun (h : Nat × Shaper) => (h.1, { h.2 with bucket := { h.2.bucket with stamp := s.tick, carry := 0 } }))
  let others := s.tenants.filter (fun t => !k.tenants.any (fun u => u.1 == t.1))
  let floor := s.genBase
  let s := { s with
    pool := k.pool
    hostRegions := k.hostRegions.map (fun (r : Nat × HostRegion) => (r.1, { r.2 with state := if r.2.state == 0 then 0 else 1 }))
    sessions := sessions, rings := rings, tenants := others.foldl (fun (t : Tbl Tenant) (o : Nat × Tenant) => tPut t o.1 o.2) tenants, shapers := shapers,
    sched := { s.sched with v := 0 }, hists := [], histBase := s.histSamples
    gens := k.gens.map (fun (g : Nat × Nat) => (g.1, max (g.2 + 4096) floor)), genBase := max (k.genBase + 4096) floor
    shards := k.shards.map (fun (v : Nat × Shard) => (v.1, v.2.restored)), vecBlocks := []
    cat := { s.cat with loc := s.cat.loc ++ k.loc.filter (fun (l : LocRec) => !s.cat.loc.any (fun z => z.accession == l.accession)), fwd := k.fwd } }
  s.recount

/-! ## Restore: finding a checkpoint (R317, R361) -/

/-- Change the restore. -/
def State.updRestore (s : State) (f : Restore → Restore) : State := s.updCkpt fun c => { c with restore := c.restore.map f }

/-- A restore has been made: it is no longer owed (R362). -/
def State.restoreMade (s : State) : State := { s with boot := { s.boot with owed := false } }

/-- A restore ends without a checkpoint: the device starts empty (R317 step 3). -/
def State.restoreFails (s : State) : State :=
  match s.ckpt.restore with
  | none => s
  | some r =>
    let s := ((s.updCkpt fun c => { c with restore := none }).setPhase 0).restoreMade
    s.finish Op.CKPT_RESTORE r.slip (if r.verified && !r.fits then Answer.st St.PROFILE_MISMATCH else Answer.st St.MEDIA s.lastErr)

/-- Does a seal fit this device (R317)? -/
def State.sealFits (s : State) (b : Bytes) : Bool :=
  rdLe b 2 2 == s.fld F.DEV_ID_DEVICE_CODE && rdLe b 0x10 8 == s.fuseDigest && some (rdLe b 8 4) == s.profile.map (·.id)

/-- A seal has been read: one that verifies and fits is a candidate, a press seal not where only mirrors are asked for. -/
def State.sealRead (s : State) (place : Nat) (b : Bytes) : State :=
  if !sealVerifies s.ckptGcm b then s
  else
    let fits := s.sealFits b
    let no := rdLe b 4 4
    s.updRestore fun r =>
      let take := fits && (r.source != 2 || place ≥ 2) && (r.want == 0 || r.want == no)
      let newer := decide (place < 2 && no > r.newest)
      { r with former := if newer then rdLe b 0xC 4 % 2 ^ 20 else r.former, newest := if newer then no else r.newest, verified := true, fits := r.fits || fits, cands := if take then r.cands ++ [{ no := no, place := place, sealRec := b }] else r.cands }

/-- Is a block of a candidate sound: its colophon verifies with alive counter CKPT_NO (R311, R317)? -/
def State.blockSound (s : State) (c : Candidate) (b : Nat) (body : Bytes) : Bool :=
  let clear := (List.range 2).any (fun i => let f := rdLe c.sealRec (0x40 + 16 * (9 + i)) 4; f != 0 && f ≤ b && b < f + rdLe c.sealRec (0x44 + 16 * (9 + i)) 4)
  let p := if clear then body else xtsDec s.ckptXts (c.no + b * 2 ^ 32) body
  p.length == 65536 && rdLe p 65532 2 == 0x0420 && rdLe p 65528 4 == c.no && rdLe p 65520 8 == crc64 (p.take 65520)

/-- The colophon CRC-64 of a block as it lies in a candidate. -/
def State.blockCrc (s : State) (c : Candidate) (b : Nat) (body : Bytes) : Bytes :=
  let clear := (List.range 2).any (fun i => let f := rdLe c.sealRec (0x40 + 16 * (9 + i)) 4; f != 0 && f ≤ b && b < f + rdLe c.sealRec (0x44 + 16 * (9 + i)) 4)
  slice (if clear then body else xtsDec s.ckptXts (c.no + b * 2 ^ 32) body) 65520 8

/-- Are all blocks of a candidate sound, and do they give BLOCKS_CRC? -/
def State.blocksSound (s : State) (c : Candidate) (bs : List Bytes) : Bool :=
  bs.length == rdLe c.sealRec 0x1C 4 && bs.zipIdx.all (fun x => s.blockSound c (x.2 + 1) x.1)
    && crc64 (bs.zipIdx.flatMap (fun x => s.blockCrc c (x.2 + 1) x.1)) == rdLe c.sealRec 0x30 8

/-- The former device's mirror pair is asked for its seals, or none (R317). -/
def State.askMirrors (s : State) (r : Restore) : State :=
  let known := !s.cat.buckets.isEmpty
  let pair := if r.source == 1 || !known then [] else mirrorPairOf s.cat r.former
  let s := s.updRestore fun r => { r with stage := 2, asked := pair.map (· + 2) }
  pair.foldl (fun s d => s.sendDev d Op.CKPT_MIRROR_GET 0 0xFFFF [r.former, r.want, 0, 1, 0, 4096] []) s

/-- Ask a holder for the next blocks of the candidate in hand. -/
def State.askBlocks (s : State) (r : Restore) (c : Candidate) : State :=
  let have_ := r.blocks.length
  let n := min 15 (rdLe c.sealRec 0x1C 4 - have_)
  s.sendDev (c.place - 2) Op.CKPT_MIRROR_GET 0 0xFFFF [r.former, c.no, have_ + 1, n, 0, 65536 * n] []

/-- The checkpoint a candidate stands for, as it was captured. -/
def State.snapshotAt (s : State) (c : Candidate) : Option Snapshot :=
  if c.place < 2 then tGet s.ckpt.press.slots c.place else s.ckpt.mirrored.find? (fun k => k.no == c.no)

/-- Is candidate `a` tried before `b`: newest first, the press before a mirror (R317)? -/
def Candidate.before (a b : Candidate) : Bool := a.no > b.no || (a.no == b.no && a.place ≤ b.place)

/-- The next candidate is read, or the restore fails. -/
def State.nextCandidate (s : State) : State :=
  match s.ckpt.restore with
  | none => s
  | some r =>
    match r.cands with
    | [] => s.restoreFails
    | a :: l =>
      let c := l.foldl (fun m x => if m.before x then m else x) a
      let rest := r.cands.filter (fun x => x != c)
      let r := { r with stage := 3, cur := some c, cands := rest, blocks := [], asked := [c.place] }
      let s := s.updRestore fun _ => r
      if c.place < 2 then s.emit (.nvme (.blocksRead c.place) c.place 1 (rdLe c.sealRec 0x1C 4)) else s.askBlocks r c

/-- The candidate in hand is not whole: the next is tried; an older copy of the same holder is asked for too. -/
def State.candidateFails (s : State) : State :=
  match s.ckpt.restore with
  | none => s
  | some r =>
    match r.cur with
    | none => s.nextCandidate
    | some c =>
      if c.place ≥ 2 && r.want == 0 && c.no > 1 then
        let s := s.updRestore fun r => { r with stage := 2, cur := none, asked := [c.place] }
        s.sendDev (c.place - 2) Op.CKPT_MIRROR_GET 0 0xFFFF [r.former, c.no - 1, 0, 1, 0, 4096] []
      else (s.updRestore fun r => { r with cur := none }).nextCandidate

/-- Bring every DEADLINE and ENTERED of the restored sessions onto this device's DEV_TICK (R319). -/
def State.startTimers (s : State) : State :=
  { s with sessions := s.sessions.map (fun (p : Nat × Sess) =>
      let e := { p.2 with entered := (s.tick + 2 ^ 64 - p.2.entered) % 2 ^ 64, reached := s.tick }
      (p.1, { e with deadline := if p.2.deadline != 0 then s.tick + p.2.deadline - 1
                                 else match s.ttlOf e with | some t => s.tick + t * tick100ms | none => 0 })) }

/-- A session whose armed request was lost is revived in the background, once its tenant's key is here (R319, R224). -/
def State.reviveArmed (s : State) (i : Nat) : State :=
  let e := s.sess i
  let lost : Bool := match e.req with | some q => q.lost | none => false
  if e.armed && lost && (e.state == Ss.PARKED || e.state == Ss.TRANSCRIPT_ONLY) && (s.keyMissing e.tenant).isNone
      && !s.cat.undecided.contains e.accession && !s.restoring && (tGet s.revives i).isNone then s.startRevive i
  else s

/-- A restore ends (R317, R319, R320). -/
def State.restoreDone (s : State) (r : Restore) (no : Nat) : State :=
  let s := ((s.updCkpt fun c => { c with restore := none }).setPhase 0).restoreMade.startTimers
  let s := s.bump F.CKPT_CNT_RESTORED_COUNT
  let s := s.finish Op.CKPT_RESTORE r.slip (Answer.ok no s.sessions.length)
  s.sessions.foldl (fun s p => s.reviveArmed p.1) s

/-- A candidate is taken: its sections are applied, it is the newest sealed checkpoint, and the device asks to join again under
its former ID (R317, R319, R320). -/
def State.takeCandidate (s : State) (r : Restore) (c : Candidate) : State :=
  match s.snapshotAt c with
  | none => s.candidateFails
  | some k =>
    if k.failed.isSome then s.candidateFails
    else
      let s := s.applySnapshot k
      let s := ((s.setFld F.CKPT_LAST_VALID 1).setFld F.CKPT_LAST_SLOT (if c.place < 2 then c.place else 0)).setFld F.CKPT_LAST_BLOCKS k.blocks
      let s := (s.setFld F.CKPT_LAST_CKPT_NO k.no).setFld F.CKPT_LAST_MIRRORED (b2n (s.ckpt.mirrored.any (fun m => m.no == k.no)))
      let s := s.updCkpt fun c => { c with no := max c.no k.no }
      let r := { r with stage := 4, cur := some c, asked := [] }
      let s := s.updRestore fun _ => r
      let addrs := if rdLe r.slip.payload 0 2 == 0x1C02 then [slice r.slip.payload 8 16] else match s.membership with | some m => m.2 | none => []
      if k.epoch == 0 then s.restoreDone r k.no
      else
        let s := s.updCat fun c => { c with undecided := s.sessions.map (·.2.accession), abstaining := true }
        if !s.cat.buckets.isEmpty then s.askJoin 0xFFFFF k.dev
        else match addrs with
          | [] => s.restoreDone r k.no
          | a :: _ => ((s.sponsor a).updCat fun c => { c with joining := 3, wantId := k.dev }).fetchFrom 0xFFFFF 0 0

/-- Read the press's seals, whose newest names the former device ID too (R317). -/
def State.readSeals (s : State) : State :=
  let found := s.ckpt.press.found
  let s := s.updRestore fun r => { r with stage := 1, asked := if found then [0, 1] else [] }
  if found then (s.emit (.nvme (.sealRead 0) 0 0 1)).emit (.nvme (.sealRead 1) 1 0 1) else s

/-- The next address the map may be had from, or none left. -/
def State.tryAddress (s : State) (r : Restore) : State :=
  match r.addrs with
  | [] => s.readSeals
  | a :: rest =>
    let s := match s.ctxOf 0xFFFFF with | some p => (s.closePeer p).setPeer p Peer.fresh | none => s
    ((s.updRestore fun r => { r with addrs := rest }).sponsor a).fetchFrom 0xFFFFF 0 0

/-- A restore goes on as far as it can (R317, R320). -/
def State.restoreStep (s : State) : State :=
  match s.ckpt.restore with
  | none => s
  | some r =>
    if r.stage == 0 then
      (if s.cat.fetch.isSome then s else if !s.cat.buckets.isEmpty then s.readSeals.wake .restore else
        let t := s.tryAddress r
        if t.cat.fetch.isSome then t else t.wake .restore)
    else if r.stage == 1 then (if r.asked.isEmpty then
        (s.askMirrors r).wake .restore else s)
    else if r.stage == 2 then (if r.asked.isEmpty then s.nextCandidate else s)
    else if r.stage == 4 then (if s.cat.joining == 0 && (s.cat.undecided.isEmpty || !s.member) then s.restoreDone r ((r.cur.map (·.no)).getD 0) else s)
    else s

/-- CKPT_RESTORE (R317, R325): with a bundle loaded, every entry FREE, and no member. -/
def execCKPT_RESTORE (x : Slip) (s : State) : Host.Outcome State Fault Refusal :=
  runSlip Op.CKPT_RESTORE x s fun s =>
    if x.acc != 0 then .no s St.RESERVED_NONZERO 0x10
    else match badParam x [3, w32, 0, 0, 0, 0] with
      | some k => .no s St.BAD_PARAM k
      | none =>
        let source := bitsOf x.P0 1 0
        if source == 3 then .no s St.BAD_PARAM 0
        else if !x.payload.isEmpty && (badStruct 0x1C02 24 x.payload).isSome then .no s St.BAD_PARAM 0x1D02
        else if !s.loaded then .no s St.NOT_READY 1
        else if !s.sessions.isEmpty || s.member then .no s St.BUSY 1
        else if s.phase != 0 then .no s St.BUSY (s.fld F.CKPT_STATUS_RUNNING)
        else
          let addrs := if source == 1 then [] else if x.payload.isEmpty then (match s.membership with | some m => m.2 | none => []) else [slice x.payload 8 16]
          let r : Restore := { slip := x, source := source, want := x.P1, stage := 0, since := s.tick, addrs := addrs, asked := [], cands := [],
                               verified := false, fits := false, cur := none, blocks := [], former := (match s.membership with | some m => m.1 | none => s.devId), newest := 0 }
          .wait (((s.updCkpt fun c => { c with restore := some r }).setPhase 5).wake .restore)

/-- RESTORE_MAP_TIMEOUT (R317): no registrar has answered within 1 s; the choice goes on with the press alone. -/
def execRESTORE_MAP_TIMEOUT (s : State) : Host.Outcome State Fault Refusal :=
  match s.ckpt.restore with
  | some r =>
    if r.stage == 0 && s.cat.fetch.isSome && s.tick - r.since ≥ 100000000 then
      .next ((s.updCat fun c => { c with fetch := none }).readSeals.wake .restore)
    else .next s
  | none => .next s

/-- A press read of a restore has completed: `ok` its status, `intact` whether what was read verifies. -/
def State.restoreRead (s : State) (op : NvmeOp) (ok intact : Bool) : State :=
  match s.ckpt.restore with
  | none => s
  | some r =>
    match op with
    | .sealRead k =>
      if r.stage != 1 || !r.asked.contains k then s
      else
        let s := s.updRestore fun r => { r with asked := r.asked.filter (· != k) }
        let s := match tGet s.ckpt.press.slots k with
          | some v => if ok && intact then s.sealRead k (v.seal s.ckptGcm k (s.fld F.DEV_ID_DEVICE_CODE)) else s
          | none => s
        s.wake .restore
    | .blocksRead k => match r.cur with
      | some c =>
        if r.stage != 3 || c.place != k then s
        else if ok && intact then s.takeCandidate r c
        else (if ok then s.colophonErr Ek.COLOPHON_CRC 0 0 else s).candidateFails
      | none => s
    | _ => s

/-! ## Re-homing (R321) -/

/-- Ask the holder in hand for what an adoption needs next. -/
def State.askAdoption (s : State) : State :=
  match s.ckpt.adoptions with
  | [] => s
  | a :: _ =>
    if a.stage == 0 then s.sendDev a.asked Op.CKPT_MIRROR_GET 0 0xFFFF [a.dev, 0, 0, 1, 0, 4096] []
    else match a.todo with
      | [] => s
      | b :: _ =>
        let n := ((List.range 15).takeWhile (fun k => a.todo.contains (b + k))).length
        s.sendDev a.asked Op.CKPT_MIRROR_GET 0 0xFFFF [a.dev, a.no, b, n, 0, 65536 * n] []

/-- Change the adoption in hand. -/
def State.updAdoption (s : State) (f : Adoption → Adoption) : State :=
  s.updCkpt fun c => { c with adoptions := match c.adoptions with | [] => [] | a :: l => f a :: l }

/-- The adoption in hand is over: buckets whose records wait for a key stay until it comes. -/
def State.endAdoption (s : State) : State :=
  match s.ckpt.adoptions with
  | [] => s
  | a :: rest =>
    let left := ((s.ckpt.keyless.filter (fun k => k.1 == a.dev)).map (fun k => bucketOf (rdLe k.2.2 0 8))).eraseDups
    let s := (s.updCkpt fun c => { c with adoptions := rest }).updCat fun c =>
      { c with adopt := (c.adopt.map (fun (z : Adopt) => if z.dev == a.dev && z.begun then { z with buckets := left } else z)).filter (fun z => !z.buckets.isEmpty) }
    s.askAdoption

/-- The holder in hand has not served: the next one is tried from the start, or nothing is left to adopt. -/
def State.nextHolder (s : State) : State :=
  match s.ckpt.adoptions with
  | [] => s
  | a :: _ =>
    match a.holders with
    | [] => s.endAdoption
    | h :: rest => (s.updAdoption fun a => { a with holders := rest, asked := h, stage := 0, todo := [], blocks := [] }).askAdoption

/-- Adopt one session from its record (R321 step 3): a new entry, not its own until the head at the secondary holder has been
tested. -/
def State.adoptRecord (s : State) (dev no : Nat) (b : Bytes) : State :=
  let acc := rdLe b 0 8
  let tenant := rdLe b 8 2
  let second := bitsOf (rdLe b 12 4) 19 0
  let first := rdLe b 16 4
  let count := rdLe b 20 4
  let masks := rdLe b 24 4
  let gen := rdLe b 28 4
  if s.ownLocation acc != dev || (s.findSess acc).isSome then s
  else match (s.tenant tenant).key, s.newIndex with
    | none, _ => s.updCkpt fun c => { c with keyless := if c.keyless.contains (dev, no, b) then c.keyless else c.keyless ++ [(dev, no, b)] }
    | _, none => s
    | some key, some i =>
      let body := xtsDec (recordKey key dev) (recordTweak acc first no) (b.drop 32)
      let tail := (chunks 4 (count + 1) (slice body 256 (4 * count))).map leNat
      let e := { Sess.ofEntry body 0 with
        tenant := tenant, armed := false, holder2 := if second == 0xFFFFF then 0 else second, shelfGen := gen, transcript := tail,
        maskLog := masksOf 64 (slice body (256 + 4 * count) masks), away := gen != 0, awayLen := first, floor := gen != 0 }
      let s := (s.setSess i e).updCat fun c => { c with undecided := c.undecided ++ [acc] }
      if second == 0xFFFFF || gen == 0 then s.adoptSettle i false
      else ({ s with revives := tPut s.revives i (Revive.start 8 e.kvLength second) }).askObject i second 1 0 0

/-- Bytes of a record: its header, and its body padded to 16 (Table 12.2). -/
def recordLen (b : Bytes) : Nat := 32 + 16 * cdiv (256 + 4 * rdLe b 20 4 + rdLe b 24 4) 16

/-- The records of a run of section 11; `fuel` bounds them. -/
def splitRecords : Nat → Bytes → List Bytes
  | 0, _ => []
  | fuel + 1, b => if b.length < 32 || b.length < recordLen b then [] else b.take (recordLen b) :: splitRecords fuel (b.drop (recordLen b))

/-- Bytes of a section out of the blocks received. -/
def Adoption.bytes (a : Adoption) (first off len : Nat) : Bytes :=
  let b0 := off / 65520
  let n := (off + len) / 65520 + 1 - b0
  slice ((List.range n).flatMap (fun k => slice ((tGet a.blocks (first + b0 + k)).getD []) 0 65520)) (off - 65520 * b0) len

/-- The record index has been read: the runs of the buckets to adopt, and the blocks they lie in. -/
def State.indexRead (s : State) (a : Adoption) (end_ : Nat) : State :=
  let idx := (chunks 16 65536 (a.bytes a.first10 0 1048576)).zipIdx.map (fun x => (x.2, rdLe x.1 0 8, rdLe x.1 8 4))
  let own := (s.cat.adopt.filter (fun z => z.dev == a.dev)).flatMap (·.buckets)
  let starts := (idx.filter (fun x => x.2.2 != 0)).map (·.2.1)
  let runs := (idx.filter (fun x => x.2.2 != 0 && own.contains x.1)).map (fun x =>
    (x.2.1, (starts.filter (· > x.2.1)).foldl min end_ - x.2.1))
  let blocks := (runs.flatMap (fun r => (List.range ((r.1 + r.2 - 1) / 65520 + 1 - r.1 / 65520)).map (fun k => a.first11 + r.1 / 65520 + k))).eraseDups
  if runs.isEmpty then s.endAdoption
  else (s.updAdoption fun a => { a with stage := 2, wanted := runs, todo := blocks, blocks := [] }).askAdoption

/-- Blocks of an adoption have come: each must carry a colophon of its checkpoint. -/
def State.adoptBlocks (s : State) (a : Adoption) (data : Bytes) : State :=
  let bs := chunks 65536 16 data
  let sound := fun (p : Bytes) => p.length == 65536 && rdLe p 65532 2 == 0x0420 && rdLe p 65528 4 == a.no && rdLe p 65520 8 == crc64 (p.take 65520)
  match a.todo with
  | [] => s
  | b :: _ =>
    if bs.isEmpty || !bs.all sound then s.nextHolder
    else
      let a := { a with blocks := bs.zipIdx.foldl (fun t x => tPut t (b + x.2) x.1) a.blocks,
                        todo := a.todo.filter (fun k => !(b ≤ k && k < b + bs.length)) }
      let s := s.updAdoption fun _ => a
      if !a.todo.isEmpty then s.askAdoption
      else if a.stage == 1 then s.indexRead a ((a.wanted.headD (0, 0)).2)
      else
        let recs := a.wanted.flatMap (fun r => splitRecords (r.2 / 32 + 1) (a.bytes a.first11 r.1 r.2))
        (recs.foldl (fun s b => s.adoptRecord a.dev a.no b) s).endAdoption

/-- A reply of the holder in hand to an adoption's request. -/
def State.adoptReply (s : State) (a : Adoption) (r : Reply) : State :=
  if statusClass r.status.toNat ≥ 2 then s.nextHolder
  else if a.stage != 0 then s.adoptBlocks a r.data
  else
    let b := r.data
    let sec := fun (i o : Nat) => rdLe b (0x40 + 16 * (i - 1) + o)
    if b.length != 4096 || rdLe b 0xFFC 2 != 0x0421 || rdLe b 0xFF0 8 != crc64 (b.take 0xFF0) then s.nextHolder
    else if sec 11 0 4 == 0 then s.endAdoption
    else
      (s.updAdoption fun a => { a with stage := 1, no := rdLe b 4 4, first10 := sec 10 0 4, first11 := sec 11 0 4, wanted := [(0, sec 11 8 8)],
                                       todo := (List.range (sec 10 4 4)).map (· + sec 10 0 4), blocks := [] }).askAdoption

/-- REHOME_DELAY_EXPIRY (R321): the primary owner begins to adopt a removed device's sessions; not while fenced (R356). -/
def execREHOME_DELAY_EXPIRY (dev : Nat) (s : State) : Host.Outcome State Fault Refusal :=
  match s.cat.adopt.find? (fun a => a.dev == dev) with
  | none => .next s
  | some a =>
    if a.begun || s.fenced || s.tick - a.since < s.fld F.CKPT_REHOME_REHOME_DELAY * 100000000 then .next s
    else
      let z : Adoption := { dev := dev, holders := mirrorPairOf s.cat dev, asked := 0, stage := 0, no := 0, first10 := 0, first11 := 0, wanted := [],
                            todo := [], blocks := [] }
      let first := s.ckpt.adoptions.isEmpty
      let s := s.updCat fun c => { c with adopt := c.adopt.map (fun (y : Adopt) => if y.dev == dev then { y with begun := true } else y) }
      let s := s.updCkpt fun c => { c with adoptions := c.adoptions ++ [z] }
      .next (if first then s.nextHolder else s)

/-- MIRROR_GET_REPLY (R317, R321): a holder answers a CKPT_MIRROR_GET of a restore, or of the adoption in hand. -/
def execMIRROR_GET_REPLY (dev : Nat) (r : Reply) (s : State) : Host.Outcome State Fault Refusal :=
  match s.ckpt.restore with
  | some z =>
    if !z.asked.contains (dev + 2) then .next s
    else if z.stage == 2 then
      let s := s.updRestore fun z => { z with asked := z.asked.filter (· != dev + 2) }
      .next ((if statusClass r.status.toNat ≤ 1 then s.sealRead (dev + 2) r.data else s).wake .restore)
    else if z.stage == 3 then (match z.cur with
      | none => .next s
      | some c =>
        if statusClass r.status.toNat ≥ 2 || r.data.isEmpty then .next s.candidateFails
        else
          let z := { z with blocks := z.blocks ++ chunks 65536 16 r.data }
          let s := s.updRestore fun _ => z
          if z.blocks.length < rdLe c.sealRec 0x1C 4 then .next (s.askBlocks z c)
          else if s.blocksSound c z.blocks then .next (s.takeCandidate z c)
          else .next (s.colophonErr Ek.COLOPHON_CRC 0 0).candidateFails)
    else .next s
  | none => match s.ckpt.adoptions with
    | [] => .next s
    | a :: _ => if a.asked == dev then .next (s.adoptReply a r) else .next s

end Sys2Proof.Machine
end

