-- ==== Sys2Proof/Machine/Vector.lean ====
section
/-!
DEFINITION. The vector-class commands (R252-R267): collections, inserts and deletes, searches in rounds over every shard,
compaction, shard inspection.
-/

namespace Sys2Proof.Machine

/-! ## Shared checks -/

/-- The shard a slip names, or how it is answered: not held, or another tenant's (R266). -/
def State.vecShard (s : State) (x : Slip) : Shard ⊕ Answer :=
  match tGet s.shards x.P0 with
  | none => .inr (Answer.st St.BAD_PARAM 0)
  | some v =>
    if v.gone then .inr (Answer.st St.BAD_PARAM 0)
    else if v.tenant != x.ten then .inr (Answer.st St.TENANT_MISMATCH)
    else .inl v

/-- The frame of a vector slip that names a held collection: ACCESSION 0, parameters, the shard (R266). -/
def runVec (op : Nat) (x : Slip) (masks : List Nat) (s : State) (f : State → Shard → SlipRes) : Host.Outcome State Fault Refusal :=
  runSlip op x s fun s =>
    if x.acc != 0 then .no s St.RESERVED_NONZERO 0x10
    else match badParam x masks with
      | some i => .no s St.BAD_PARAM i
      | none => match s.vecShard x with
        | .inr a => .done s a
        | .inl v => f s v

/-- Bring a tenant's charge to what a shard now takes (R252); none when the quota refuses. -/
def State.rechargeShard (s : State) (id old : Nat) : Option State :=
  match tGet s.shards id with
  | none => some s
  | some v =>
    let n := v.quarters
    if n ≤ old then some (s.subUsed v.tenant 1 (old - n))
    else if s.quotaFits v.tenant 1 (n - old) then some (s.addUsed v.tenant 1 (n - old)) else none

/-- FP32 or BF16 words of a payload. -/
def wordsAt (b : Bytes) (o n size : Nat) : List Nat := (List.range n).map (fun i => rdLe b (o + size * i) size)

/-- Is a BF16 word finite? -/
def bf16Finite (w : Nat) : Bool := bitsOf w 14 7 != 255

/-- Is the VECTOR pool closed (R264)? -/
def State.vecPoolShut (s : State) : Bool := s.fld (F.ME_POOL_MAX.at 16) == 0

/-! ## VEC_CREATE, VEC_DROP -/

/-- VEC_CREATE (R252). -/
def execVEC_CREATE (x : Slip) (s : State) : Host.Outcome State Fault Refusal :=
  runSlip Op.VEC_CREATE x s fun s =>
    let b := x.payload
    let bad := SlipRes.no s St.BAD_PARAM 0x1500
    if x.acc != 0 then .no s St.RESERVED_NONZERO 0x10
    else match badParam x [0, 0, 0, 0, 0, 0], badStruct 0x1400 0x1C b with
      | some i, _ => .no s St.BAD_PARAM i
      | none, some e => .no s e.1 e.2
      | none, none =>
        let id := rdLe b 8 4
        let dim := rdLe b 0x0C 2
        let fmt := rdLe b 0x0E 1
        let dist := rdLe b 0x0F 1
        let shard := rdLe b 0x10 2
        let shards := rdLe b 0x12 2
        let scale := rdLe b 0x14 4
        let flags := rdLe b 0x18 1
        let scaleOk := if fmt == 5 then f32Finite scale && f32Fx scale > 0 else scale == 0
        if id == 0xFFFFFFFF || dim < 8 || dim > 4096 || !(fmt == 0 || (3 ≤ fmt && fmt ≤ 5)) || dist > 2
            || (if fmt == 0 then dim % 32 != 0 else dim % 8 != 0) || shards < 1 || shards > 256 || shard ≥ shards || !scaleOk
            then bad
        else if rdLe b 4 4 < 0x1C + 4 * shards then .no s St.PAYLOAD_TRUNCATED
        else
          let map := wordsAt b 0x1C shards 4
          if map.any badDev then bad
          else if (tGet s.shards id).isSome then .no s St.BUSY
          else if s.shards.length ≥ 1024 then .no s St.NO_SLOTS 9
          else
            let v : Shard := { tenant := x.ten, dim := dim, format := fmt, distance := dist, shard := shard, map := map, scale := scale,
                               bf16 := flags % 2 == 1, state := 0, lists := 1, loaded := 0, centBlocks := [], chains := [],
                               index := [], err := 0, gone := false }
            .done (s.setShard id v) (Answer.ok id)

/-- A shard goes: its blocks and charges with it.  Answers the blocks freed. -/
def State.dropShard (s : State) (id : Nat) : State × Nat :=
  match tGet s.shards id with
  | none => (s, 0)
  | some v =>
    ({ s.subUsed v.tenant 1 v.quarters with shards := tDel s.shards id, vecBlocks := s.vecBlocks.filter (fun b => b.2 != id) }, v.blocks)

/-- VEC_DROP (R265): waits for the searches accepted earlier; later slips find no collection. -/
def execVEC_DROP (x : Slip) (s : State) : Host.Outcome State Fault Refusal :=
  runSlip Op.VEC_DROP x s fun s =>
    if x.acc != 0 then .no s St.RESERVED_NONZERO 0x10
    else match badParam x [w32, 0, 0, 0, 0, 0], tGet s.shards x.P0 with
      | some i, _ => .no s St.BAD_PARAM i
      | none, none => .no s St.BAD_PARAM 0
      | none, some v =>
        let resumed : Bool := match s.outst x.src x.tag with | some o => o.note == 3 | none => false
        if v.gone && !resumed then .no s St.BAD_PARAM 0
        else if v.tenant != x.ten then .no s St.TENANT_MISMATCH
        else if s.searches.any (fun q => q.2.id == x.P0) then
          .hold ((s.setShard x.P0 { v with gone := true }).updOutst x.src x.tag (fun o => { o with note := 3 })) (.vec x.P0)
        else let r := s.dropShard x.P0; .done r.1 (Answer.ok r.2)

/-! ## VEC_INSERT, VEC_DELETE -/

/-- The list a record goes to: the one named, or the nearest centroid's (R255).  A vector that R253 would refuse as a query, a zero one
under cosine or one too large for squared Euclidean, is ranked as it was given (log entry 58). -/
def State.listFor (s : State) (v : Shard) (named : Nat) (words : List Nat) : Nat :=
  if named != 0xFFFFFFFF then named
  else (match convQuery v.format v.distance v.scale words with
    | some q => s.ranking v q
    | none => s.rankOf v words).headD 0

/-- Insert the entries of a slip, updating keys that live; none when blocks run out.  Answers the keys updated. -/
def State.insertAll (s : State) (id : Nat) : List (Nat × Nat × Nat × Bytes) → Option (State × Nat)
  | [] => some (s, 0)
  | (key, tag, list, elems) :: rest =>
    match tGet s.shards id with
    | none => none
    | some v =>
      let old := (v.index.find? (fun k => k.1 == key)).map (·.2)
      let s := match old with | some l => s.setTomb (l / 1024) (l % 1024) | none => s
      match s.putRecord id list 0 key tag elems with
      | none => none
      | some s => (s.insertAll id rest).map (fun r => (r.1, r.2 + b2n old.isSome))

/-- VEC_INSERT (R255): the whole slip or none of it. -/
def execVEC_INSERT (x : Slip) (s : State) : Host.Outcome State Fault Refusal :=
  runVec Op.VEC_INSERT x [w32, 0, 0, 0, 0, 0] s fun s v =>
    let b := x.payload
    let size := 24 + 4 * v.dim
    match badStruct 0x1402 0x10 b with
    | some e => .no s e.1 e.2
    | none =>
      let n := rdLe b 8 4
      let entry := fun (i : Nat) => slice b (0x10 + size * i) size
      let es := (List.range n).map entry
      if n < 1 || n > 4096 then .no s St.BAD_PARAM 0x1502
      else if rdLe b 4 4 < 0x10 + size * n then .no s St.PAYLOAD_TRUNCATED
      else if v.state == 1 then .no s St.BUSY 0x101
      else if v.state == 3 then .no s St.MEDIA v.err
      else if es.any (fun e => rdLe e 0x10 4 != 0xFFFFFFFF && rdLe e 0x10 4 ≥ v.lists) then .no s St.BAD_PARAM 0x1502
      else
        let stored := es.map (fun e => (vecStore v.format v.scale (wordsAt e 0x18 v.dim 4)))
        if stored.any Option.isNone then .no s St.BAD_PARAM 0x1502
        else if v.loaded != 0 && s.vecPoolShut && es.any (fun e => rdLe e 0x10 4 == 0xFFFFFFFF) then .no s St.BUSY 0
        else
          let items := (es.zip stored).map fun p =>
            (rdLe p.1 0 8, rdLe p.1 8 8, s.listFor v (rdLe p.1 0x10 4) (wordsAt p.1 0x18 v.dim 4), p.2.getD [])
          match s.insertAll x.P0 items with
          | none => .no s St.NO_SLOTS 10
          | some (t, k) =>
            let full : Bool := match tGet t.shards x.P0 with | some w => decide (w.blocks > 4194304) | none => false
            if full then .no s St.NO_SLOTS 10
            else match t.rechargeShard x.P0 v.quarters with
              | none => .no s St.QUOTA_FULL 1
              | some t => .done ((t.bumpBy F.VEC_CNT_INSERT_COUNT n).bumpBy F.VEC_CNT_DELETE_COUNT k) (Answer.ok n k)

/-- Tombstone the records of keys and take them from the index; answers how many were live. -/
def State.deleteKeys (s : State) (id : Nat) : List Nat → State × Nat
  | [] => (s, 0)
  | key :: rest =>
    match tGet s.shards id with
    | none => (s, 0)
    | some v =>
      match v.index.find? (fun k => k.1 == key) with
      | none => s.deleteKeys id rest
      | some (_, l) =>
        let r := ((s.setTomb (l / 1024) (l % 1024)).setShard id { v with index := v.index.filter (fun k => k.1 != key) }).deleteKeys id rest
        (r.1, r.2 + 1)

/-- VEC_DELETE (R263). -/
def execVEC_DELETE (x : Slip) (s : State) : Host.Outcome State Fault Refusal :=
  runVec Op.VEC_DELETE x [w32, 0, 0, 0, 0, 0] s fun s v =>
    let b := x.payload
    match badStruct 0x1403 0x10 b with
    | some e => .no s e.1 e.2
    | none =>
      let n := rdLe b 8 4
      if rdLe b 4 4 < 0x10 + 8 * n then .no s St.PAYLOAD_TRUNCATED
      else if v.state == 1 then .no s St.BUSY 0x101
      else if v.state == 3 then .no s St.MEDIA v.err
      else
        let r := s.deleteKeys x.P0 (wordsAt b 0x10 n 8)
        let t := ((r.1.rechargeShard x.P0 v.quarters).getD r.1).bumpBy F.VEC_CNT_DELETE_COUNT r.2
        .done t (Answer.mk' (if r.2 == 0 then St.ALREADY_DONE else St.OK) 0 r.2 (n - r.2))

/-! ## Searches (R257-R262) -/

/-- A search structure (R266): MASK, VALUE, REQ and the query words. -/
structure SearchArg where
  mask : Nat
  value : Nat
  req : Nat
  query : List Nat
  deriving DecidableEq, Repr

/-- Read one, or how it is refused. -/
def searchArg (sid dim : Nat) (b : Bytes) : SearchArg ⊕ (Nat × Nat) :=
  match badStruct sid (32 + 4 * dim) b with
  | some e => .inr e
  | none =>
    let mask := rdLe b 8 8
    let value := rdLe b 0x10 8
    if value &&& mask != value then .inr (St.BAD_PARAM, 0x100 + sid)
    else .inl { mask := mask, value := value, req := rdLe b 0x18 4, query := wordsAt b 0x20 dim 4 }

/-- Result data (Table 10.8). -/
def searchData (cands : List Cand) (probed skipped answered shards : Nat) : Bytes :=
  structure0 0x1404 (leBytes 4 cands.length ++ leBytes 4 probed ++ leBytes 4 skipped ++ leBytes 2 answered ++ leBytes 2 shards
    ++ cands.flatMap (fun c => leBytes 8 c.key ++ leBytes 4 c.dist ++ leBytes 2 c.shard ++ leBytes 2 0))

/-- A search ends with an answer; a drop that waited for it may go. -/
def State.endSearch (s : State) (req : Nat) (q : Search) (a : Answer) : State :=
  let s := ({ s with searches := tDel s.searches req }).finish Op.VEC_SEARCH q.slip a
  let s := if a.status == St.SHORT then s.bump F.VEC_CNT_SHORT_COUNT else if a.status == St.MEDIA then s.bump F.VEC_CNT_MEDIA_COUNT else s
  if s.searches.any (fun p => p.2.id == q.id) then s else s.release (· == .vec q.id)

/-- A search whose lists hold an uncorrectable line is answered MEDIA (R264): the record, and the list. -/
def State.vecMedia (s : State) (v : Shard) (list : Nat) : State × Answer :=
  let b := ((v.chain list).find? (fun b => s.slotHurt (s.blockSlot b))).getD 0
  let s := s.errRecord 2 Ek.HBM_UE (errUnit 6 (s.blockAddr b / 2 ^ 36)) (s.blockAddr b) 0
  (s, Answer.mk' St.MEDIA s.lastErr list)

/-- The round over ranks `probed` to `upTo` − 1 starts (R259, R260): the own shard is searched, the others are asked.  None when it
ended with MEDIA. -/
def State.startRound (s : State) (req : Nat) (q : Search) : State × Option Search :=
  match tGet s.shards q.id with
  | none => (s.endSearch req q (Answer.st St.BAD_PARAM 0), none)
  | some v =>
    match convQuery v.format v.distance v.scale q.query with
    | none => (s.endSearch req q (Answer.st St.BAD_PARAM 0x1504), none)
    | some c =>
      let thr := threshold q.k q.cands
      let tiles := s.rankTiles v c
      let s := s.queueTiles (tilesOf 2 req (s.entryFmt 2) tiles)
      if tiles.any (fun t => tileFails t.2) then ({ s with searches := tPut s.searches req { q with failing := true } }, none)
      else
      let r := s.searchShard v c q.mask q.value q.probed (q.upTo - q.probed) q.k thr
      match r.hurt with
      | some l => let m := s.vecMedia v l; (m.1.endSearch req q m.2, none)
      | none =>
        let s := s.bumpBy F.VEC_CNT_TOMB_SKIP_COUNT r.skipped
        let others := (List.range v.map.length).filter (fun k => k != v.shard && !q.dropped.contains k)
        let pay := structure0 0x1407 (leBytes 8 q.mask ++ leBytes 8 q.value ++ leBytes 4 req ++ leBytes 4 0 ++ q.query.flatMap (leBytes 4))
        let ask := fun (s : State) (k : Nat) => s.sendDev (v.map.getD k 0) Op.VEC_SHARD_SEARCH 0 v.tenant
          [q.id, q.k, q.probed + (q.upTo - q.probed) * 65536, thr, 0, 24 + 16 * q.k] pay
        let s := others.foldl ask s
        let q := { q with cands := nearest q.k (q.cands ++ r.cands), skipped := q.skipped + r.skipped, asked := others,
                          due := s.tick + s.fld F.VEC_CFG_SHARD_TIMEOUT * 100 }
        ({ s with searches := tPut s.searches req q }, some q)

/-- Rounds go on while every shard asked has answered: another where the result is short and may widen, else the reply. -/
def State.goSearch : Nat → State → Nat → State
  | 0, s, _ => s
  | fuel + 1, s, req =>
    match tGet s.searches req with
    | none => s
    | some q =>
      if q.failing || !q.asked.isEmpty then s
      else
        let shards := match tGet s.shards q.id with | some v => v.map.length | none => 1
        if q.cands.length < q.k && q.widen && q.upTo < q.maxProbe then
          let s := s.bump F.VEC_CNT_WIDEN_COUNT
          let r := s.startRound req { q with probed := q.upTo, upTo := min (2 * q.upTo) q.maxProbe }
          goSearch fuel r.1 req
        else
          let n := q.cands.length
          s.endSearch req q (Answer.mk' (if n < q.k then St.SHORT else St.OK) (if n < q.k then n else 0) (n + q.upTo * 2 ^ 32) 0
            (searchData q.cands q.upTo q.skipped (shards - q.dropped.length) shards))

/-- Wait, in µs, until a tenant's LEVEL reaches one unit (R237). -/
def State.budgetWait (s : State) (t : Nat) : Nat :=
  let r := (s.tenant t).budget.rate
  if r == 0 then 0xFFFFFFFF else sat 32 (cdiv ((1 - s.level t).toNat * 1000000) (256 * r))

/-- How a shard in no state to be searched answers (Table 10.4, R264, R267). -/
def State.searchShut (s : State) (v : Shard) : Option (Nat × Nat) :=
  if v.state == 1 then some (St.BUSY, 0x101)
  else if v.state == 3 then some (St.MEDIA, v.err)
  else if !s.flag F.VEC_CTRL_SEARCH_EN || (v.loaded != 0 && s.vecPoolShut) then some (St.BUSY, 0)
  else none

/-- VEC_SEARCH (R257-R262): charged at acceptance; gathered in rounds. -/
def execVEC_SEARCH (x : Slip) (s : State) : Host.Outcome State Fault Refusal :=
  runSlip Op.VEC_SEARCH x s fun s =>
    if s.level x.ten ≤ 0 then .no s St.BUDGET_EMPTY (s.budgetWait x.ten)
    else
      let cost := s.fld F.SCHED_PROFILE_SEARCH_COST
      let s := ((s.charge x.ten 2 cost).tally x.ten 2 cost).bump F.VEC_CNT_SEARCH_COUNT
      if x.acc != 0 then .no s St.RESERVED_NONZERO 0x10
      else match badParam x [w32, 0x1FFF, 0x1FFF1FFF, 3, w32, w32] with
        | some i => .no s St.BAD_PARAM i
        | none => match s.vecShard x with
          | .inr a => .done s a
          | .inl v =>
            let np := x.P2 % 8192
            let mp := bitsOf x.P2 28 16
            if x.P1 < 1 || x.P1 > 4096 then .no s St.BAD_PARAM 1
            else if np < 1 || np > 4096 || mp > 4096 then .no s St.BAD_PARAM 2
            else match searchArg 0x1404 v.dim x.payload with
              | .inr e => .no s e.1 e.2
              | .inl g =>
                if g.req != 0 || (convQuery v.format v.distance v.scale g.query).isNone then .no s St.BAD_PARAM 0x1504
                else match s.searchShut v with
                  | some e => .no s e.1 e.2
                  | none =>
                    let q : Search := { slip := x, id := x.P0, query := g.query, mask := g.mask, value := g.value, k := x.P1,
                                        maxProbe := if mp == 0 then np else mp, widen := x.P3.testBit 0, partialOk := x.P3.testBit 1,
                                        probed := 0, upTo := np, cands := [], skipped := 0, dropped := [], asked := [], due := 0,
                                        failing := false }
                    let req := s.nextReq
                    let s := { s with nextReq := (req + 1) % 2 ^ 32 }
                    let s := s.updOutst x.src x.tag (fun o => { o with stage := .waiting })
                    let r := s.startRound req q
                    .wait (State.goSearch 14 r.1 req)

/-- VEC_SHARD_SEARCH (R260): the K nearest of this shard in the ranks named, below the sender's threshold. -/
def execVEC_SHARD_SEARCH (x : Slip) (s : State) : Host.Outcome State Fault Refusal :=
  runVec Op.VEC_SHARD_SEARCH x [w32, 0x1FFF, w32, w32, w32, w32] s fun s v =>
    let first := x.P2 % 65536
    let n := x.P2 / 65536
    if x.P1 < 1 || x.P1 > 4096 then .no s St.BAD_PARAM 1
    else if n == 0 || n > 4096 then .no s St.BAD_PARAM 2
    else match searchArg 0x1407 v.dim x.payload with
      | .inr e => .no s e.1 e.2
      | .inl g =>
        match convQuery v.format v.distance v.scale g.query, s.searchShut v with
        | none, _ => .no s St.BAD_PARAM 0x1507
        | some _, some e => .no s e.1 e.2
        | some c, none =>
          let s := s.bump F.VEC_CNT_SHARD_RX_COUNT
          let r := s.searchShard v c g.mask g.value first n x.P1 x.P3
          match r.hurt with
          | some l => let m := s.vecMedia v l; .done (m.1.bump F.VEC_CNT_MEDIA_COUNT) m.2
          | none =>
            .done (s.bumpBy F.VEC_CNT_TOMB_SKIP_COUNT r.skipped)
              (Answer.ok (r.cands.length + n * 2 ^ 32) 0 (searchData r.cands n r.skipped 1 v.map.length))

/-- A shard is unanswered (R260): the search goes on without it where it may, else ends BUSY. -/
def State.unanswered (s : State) (req : Nat) (q : Search) (shard : Nat) : State :=
  let s := s.bump F.VEC_CNT_SHARD_TIMEOUT_COUNT
  if q.partialOk then
    let q := { q with asked := q.asked.filter (· != shard), dropped := q.dropped ++ [shard] }
    State.goSearch 14 { s with searches := tPut s.searches req q } req
  else s.endSearch req q (Answer.st St.BUSY shard)

/-- SHARD_REPLY (R260): a shard's reply to the present round, merged by distance, shard and its own order. -/
def execSHARD_REPLY (req shard : Nat) (r : Reply) (s : State) : Host.Outcome State Fault Refusal :=
  match tGet s.searches req with
  | none => .next s
  | some q =>
    if !q.asked.contains shard then .next s
    else if statusClass r.status.toNat ≥ 2 then .next (s.unanswered req q shard)
    else
      let n := rdLe r.data 8 4
      let cands := (List.range n).map fun i =>
        let e := slice r.data (0x18 + 16 * i) 16
        ({ dist := rdLe e 8 4, shard := shard, order := q.probed * 2 ^ 32 + i, key := rdLe e 0 8 } : Cand)
      let q := { q with cands := nearest q.k (q.cands ++ cands), skipped := q.skipped + rdLe r.data 0x10 4, asked := q.asked.filter (· != shard) }
      .next (State.goSearch 14 { s with searches := tPut s.searches req q } req)

/-- SHARD_TIMEOUT (R260): SHARD_TIMEOUT has passed since the round began; of the shards that have not answered, the lowest is named. -/
def execSHARD_TIMEOUT (req : Nat) (s : State) : Host.Outcome State Fault Refusal :=
  match tGet s.searches req with
  | none => .next s
  | some q =>
    match q.asked.foldl (fun (m : Option Nat) k => match m with | some a => some (min a k) | none => some k) none with
    | none => .next s
    | some k =>
      if s.tick < q.due then .next s
      else if q.partialOk then
        let s := s.bumpBy F.VEC_CNT_SHARD_TIMEOUT_COUNT q.asked.length
        let q := { q with dropped := q.dropped ++ q.asked, asked := [] }
        .next (State.goSearch 14 { s with searches := tPut s.searches req q } req)
      else .next (s.unanswered req q k)

/-- A centroid comparison has failed under R156 (R264): MEDIA, and the shard is DAMAGED. -/
def State.searchFailed (s : State) (req : Nat) : State :=
  match tGet s.searches req with
  | none => s
  | some q => (s.damageShard q.id).endSearch req q (Answer.st St.MEDIA s.lastErr)

/-! ## Compaction (R263) -/

/-- Rewrite one list without its tombstoned records: fresh blocks, index, chain swapped, old blocks freed.  None when fresh blocks run
out.  Answers the records removed and the blocks freed. -/
def State.compactList (s : State) (id list : Nat) : Option (State × Nat × Nat) :=
  match tGet s.shards id with
  | none => none
  | some v =>
    let recs := s.listRecords v list
    let live := recs.filter (fun r => !r.2.2)
    let old := v.chain list
    let gen := match old with | b :: _ => leNat (s.hbmRd (s.blockAddr b + 0x14) 4) + 1 | [] => 0
    let s0 := s.setShard id { v with chains := tDel v.chains list }
    let put := fun (a : Option State) (r : Nat × Bytes × Bool) =>
      match a with | some s => s.putRecord id list gen (rdLe r.2.1 0 8) (rdLe r.2.1 8 8) (r.2.1.drop 16) | none => none
    match live.foldl put (some s0) with
    | none => none
    | some s =>
      some ({ s with vecBlocks := s.vecBlocks.filter (fun b => !old.contains b.1) }.bump F.VEC_CNT_COMPACT_COUNT,
        recs.length - live.length, old.length)

/-- Does a list hold tombstoned records? -/
def State.tombs (s : State) (v : Shard) (list : Nat) : Nat := ((s.listRecords v list).filter (fun r => r.2.2)).length

/-- VEC_COMPACT (R263): the lists named that hold tombstoned records. -/
def execVEC_COMPACT (x : Slip) (s : State) : Host.Outcome State Fault Refusal :=
  runVec Op.VEC_COMPACT x [w32, w32, 0, 0, 0, 0] s fun s v =>
    if x.P1 != 0xFFFFFFFF && x.P1 ≥ v.lists then .no s St.BAD_PARAM 1
    else
      let named := if x.P1 == 0xFFFFFFFF then v.chains.map (·.1) else [x.P1]
      let todo := named.filter (fun l => s.tombs v l != 0)
      if todo.isEmpty then .no s St.ALREADY_DONE
      else
        let one := fun (a : Option (State × Nat × Nat)) (l : Nat) => match a with
          | some (s, n, f) => (s.compactList x.P0 l).map (fun r => (r.1, n + r.2.1, f + r.2.2))
          | none => none
        match todo.foldl one (some (s, 0, 0)) with
        | none => .no s St.NO_SLOTS 10
        | some (t, n, f) =>
          let t := (t.rechargeShard x.P0 v.quarters).getD t
          .done t (Answer.ok n f)

/-- BACKGROUND_COMPACT (R263): a list whose tombstoned records exceed COMPACT_PCT percent of its records. -/
def execBACKGROUND_COMPACT (id list : Nat) (s : State) : Host.Outcome State Fault Refusal :=
  match tGet s.shards id with
  | none => .next s
  | some v =>
    let pct := s.fld F.VEC_CFG_COMPACT_PCT
    if s.flag F.VEC_CTRL_COMPACT_EN && pct != 0 && s.tombs v list * 100 > pct * (s.listRecords v list).length then
      match s.compactList id list with
      | some r => .next ((r.1.rechargeShard id v.quarters).getD r.1)
      | none => .next s
    else .next s

/-! ## Centroids (R256) -/

/-- Blocks that C centroids take. -/
def centBlocks (bf16 : Bool) (dim c : Nat) : Nat := cdiv (c * centSize bf16 dim) 65536

/-- Reserve `n` blocks of the region for a shard. -/
def State.takeBlocks (s : State) (id : Nat) : Nat → List Nat → Option (State × List Nat)
  | 0, l => some (s, l)
  | n + 1, l =>
    match s.pickBlock with
    | some b => { s with vecBlocks := tPut s.vecBlocks b id }.takeBlocks id n (l ++ [b])
    | none => none

/-- VEC_SET_CENTROIDS (R256): batches in index order; the first fixes C. -/
def execVEC_SET_CENTROIDS (x : Slip) (s : State) : Host.Outcome State Fault Refusal :=
  runVec Op.VEC_SET_CENTROIDS x [w32, w32, 1, w32, 0, 0] s fun s v =>
    let b := x.payload
    match badStruct 0x1406 0x10 b with
    | some e => .no s e.1 e.2
    | none =>
      let n := rdLe b 8 4
      let words := (List.range n).map (fun i => wordsAt b (0x10 + 2 * v.dim * i) v.dim 2)
      let records := s.shardRecords v
      let first := v.state != 1
      if rdLe b 4 4 < 0x10 + 2 * v.dim * n then .no s St.PAYLOAD_TRUNCATED
      else if words.any (fun w => w.any (fun z => !bf16Finite z)) then .no s St.BAD_PARAM 0x1506
      else if x.P1 != (if first then 0 else v.loaded) then .no s St.BAD_PARAM 1
      else if x.P3 < 1 || x.P3 > 1048576 || x.P1 + n > x.P3 || (!first && x.P3 != v.lists)
          || (v.state == 3 && records != 0 && x.P3 != v.lists) then .no s St.BAD_PARAM 3
      else if first && records != 0 && v.state != 3 then .no s St.BUSY records
      else
        let prep : Option State :=
          if !first then some s
          else
            let s := { s with vecBlocks := s.vecBlocks.filter (fun k => !v.centBlocks.contains k.1) }
            match s.takeBlocks x.P0 (centBlocks v.bf16 v.dim x.P3) [] with
            | none => none
            | some (s, l) => some (s.setShard x.P0 { v with state := 1, lists := x.P3, loaded := 0, centBlocks := l })
        match prep with
        | none => .no s St.NO_SLOTS 10
        | some t =>
          match t.rechargeShard x.P0 v.quarters with
          | none => .no s St.QUOTA_FULL 1
          | some t =>
            match tGet t.shards x.P0 with
            | none => .no s St.BAD_PARAM 0
            | some w =>
              let t := (words.zipIdx).foldl (fun t z => t.centWr w ((x.P1 + z.2) * centSize w.bf16 w.dim) (centStore w.bf16 z.1)) t
              let loaded := x.P1 + n
              let w := { w with loaded := loaded, state := if x.P2 == 1 && loaded == w.lists then 2 else 1 }
              .done (t.setShard x.P0 w) (Answer.ok n)

/-! ## Inspection (R267) -/

/-- VEC_COL_SEL: takes the snapshot of a shard. -/
def execVEC_COL_SEL (value : Word) (s : State) : Host.Outcome State Fault Refusal :=
  let id := value.toNat % 2 ^ 32
  match tGet s.shards id with
  | none =>
    .next ((((s.setReg A.VEC_COL_SEL (BitVec.ofNat 64 id)).setReg A.VEC_COL_INFO 0).setReg (A.VEC_COL_INFO + 8) 0).setReg (A.VEC_COL_INFO + 16) 0)
  | some v =>
    let i0 := v.state * 2 ^ 61 + v.format * 2 ^ 58 + v.distance * 2 ^ 56 + v.map.length * 2 ^ 47 + v.shard * 2 ^ 39 + v.tenant * 2 ^ 24 + v.dim
    let i2 := v.index.length * 2 ^ 32 + (s.shardRecords v - v.index.length)
    .next ((((s.setReg A.VEC_COL_SEL (BitVec.ofNat 64 (2 ^ 63 + id))).setReg A.VEC_COL_INFO (BitVec.ofNat 64 i0)).setReg
      (A.VEC_COL_INFO + 8) (BitVec.ofNat 64 (v.lists * 2 ^ 21 + v.loaded))).setReg (A.VEC_COL_INFO + 16) (BitVec.ofNat 64 i2))

end Sys2Proof.Machine
end

