-- ==== Sys2Proof/Machine/Exchange.lean ====
section
/-!
DEFINITION. The layer exchange commands (R158-R166), the forming of steps (R172, R238), the matrix engines' events (R154-R157)
and the ratio controller (R177-R179).
-/

namespace Sys2Proof.Machine

/-! ## Forming steps -/

/-- A session leaves the step queues for a step; its place in the queue is observed (R246). -/
def State.admitStep (s : State) (q : Queued) (queue : Nat) : State :=
  let s := (s.dequeued queue q.since).dequeue q.idx
  { s with sched := { s.sched with v := q.vft } }

/-- Is a session's home partition ACTIVE (R238)? -/
def State.partActive (s : State) (i : Nat) : Bool := s.part (s.home i) == 3

/-- Take decode sessions in queue order (R238): skip those of tenants without budget, stop at the limit or at the first whose
slots cannot be reserved.  Answers the state, the rows and the session that had to wait. -/
def State.takeDecode (s : State) (p : Profile) : Nat → List Queued → List StepRow → State × List StepRow × Option (Nat × Nat)
  | _, [], rows => (s, rows, none)
  | 0, _, rows => (s, rows, none)
  | n + 1, q :: l, rows =>
    let e := s.sess q.idx
    if e.state != Ss.DECODE || e.inStep || !s.partActive q.idx || s.boundarySlip e.accession then s.takeDecode p (n + 1) l rows
    else if e.tenant != 0xFFFF && s.level e.tenant ≤ 0 then (s.bump F.SCHED_CNT_SKIP_COUNT).takeDecode p (n + 1) l rows
    else
      let need := s.slotsNeeded p q.idx 1
      let spare := s.freshNeeded p q.idx 1
      match s.reserve e.tenant need spare with
      | none => (s, rows, some (q.idx, need + spare))
      | some s => (s.admitStep q 5).takeDecode p n l (rows ++ [s.stepRow q.idx e.kvLength rows.length need true])

/-- BATCH_FORM (R238): the scheduler forms a decode batch when it can. -/
def execBATCH_FORM (s : State) : Host.Outcome State Fault Refusal :=
  match s.profile with
  | none => .next s
  | some p =>
    let open_ := (s.steps.filter (fun t => !t.2.prefill)).length
    if !s.mayStep || open_ ≥ s.fld F.SCHED_BATCH_DECODE_OPEN then .next s
    else
      let (s, rows, wait) := s.takeDecode p (s.fld F.SCHED_BATCH_MAX_BATCH) s.sched.decode []
      let s := match wait with | some (i, n) => s.makeRoom i n | none => s
      if rows.isEmpty then .next s else .next ((s.openStep p false rows).bump F.SCHED_CNT_STEPS_COUNT)

/-- The first prefill of the queue that may start or go on (R237, R238), with its record, or the one that must wait for slots. -/
def State.pickPrefill (s : State) (p : Profile) : List Queued → State × Option (Queued × Prefill) × Option (Nat × Nat)
  | [] => (s, none, none)
  | q :: l =>
    let e := s.sess q.idx
    let goal : Option Nat := (tGet s.revives q.idx).map (fun v => v.goal)
    let f := (tGet s.prefills q.idx).getD { start := e.kvLength, chunk := s.fld F.ME_XCHG_CFG_PREFILL_CHUNK, reserved := 0, charged := false }
    let left := match goal with | some g => g - e.kvLength | none => e.pending
    let first := e.kvLength == f.start
    if (e.state != Ss.PREFILL && e.state != Ss.REVIVING) || e.inStep || !s.partActive q.idx || left == 0 then s.pickPrefill p l
    else if first && !f.charged && goal.isNone && e.tenant != 0xFFFF && s.level e.tenant ≤ 0 then
      (s.bump F.SCHED_CNT_SKIP_COUNT).pickPrefill p l
    else if first && f.reserved == 0 then
      let need := s.slotsNeeded p q.idx left
      let spare := s.freshNeeded p q.idx left
      match s.reserve e.tenant need spare with
      | none => (s, none, some (q.idx, need + spare))
      | some s => (s, some (q, { f with reserved := need, charged := true }), none)
    else (s, some (q, f), none)

/-- PREFILL_CHUNK_FORM (R172, R238): the next prefill chunk is formed when it can be. -/
def execPREFILL_CHUNK_FORM (s : State) : Host.Outcome State Fault Refusal :=
  match s.profile with
  | none => .next s
  | some p =>
    let open_ := (s.steps.filter (fun t => t.2.prefill)).length
    if !s.mayStep || open_ ≥ s.fld F.SCHED_BATCH_PREFILL_OPEN then .next s
    else match s.pickPrefill p s.sched.prefill with
      | (s, some (q, f), _) =>
        let i := q.idx
        let e := s.sess i
        let goal : Option Nat := (tGet s.revives i).map (fun v => v.goal)
        let left := match goal with | some g => g - e.kvLength | none => e.pending
        let n := min left f.chunk
        let rows := (List.range n).map (fun k => s.stepRow i (e.kvLength + k) k 0 (goal.isNone && n == left && k + 1 == n))
        let s := { s.admitStep q 6 with prefills := tPut s.prefills i f }
        .next ((s.openStep p true rows).bump F.SCHED_CNT_PREFILL_COUNT)
      | (s, none, some (i, n)) => .next (s.makeRoom i n)
      | (s, none, none) => .next s

/-! ## Messages from the weight engines -/

/-- Header checks of an exchange message: R159, then steps 1 and 2 of R163. -/
def xHeadBad (p : Profile) (kind : Nat) (x : Slip) : Option (Nat × Nat) :=
  let b := x.payload
  let bad := (St.BAD_PARAM, 0x100 + xop kind)
  if x.acc != 0 then some (St.RESERVED_NONZERO, 0x10)
  else if x.epoch != 0 then some (St.RESERVED_NONZERO, 0x0C)
  else match badParam x [0, 0, 0, 0, 0, 0] with
    | some k => some (St.BAD_PARAM, k)
    | none =>
      if b.length < 40 then some (St.PAYLOAD_TRUNCATED, 0)
      else if rdLe b 0 2 != xop kind then some bad
      else if rdLe b 0x18 4 != p.id then some (St.PROFILE_MISMATCH, 0)
      else if rdLe b 2 1 != 0x10 || rdLe b 3 1 != 0
          || rdLe b 0x0E 2 == 0 || rdLe b 0x0E 2 > p.rowLimit kind
          || rdLe b 0x14 4 != p.rowBytes kind
          || rdLe b 4 4 != 40 + rdLe b 0x0E 2 * rdLe b 0x14 4 || rdLe b 4 4 > b.length
          || rdLe b 0x12 2 == 0 || rdLe b 0x12 2 > 1024 || rdLe b 0x10 2 ≥ rdLe b 0x12 2
          || rdLe b 0x1C 4 != 0 || rdLe b 0x20 8 != 0
          || (xRows b).any (fun r => rdLe r 0x0E 1 &&& 0xFD != 0 || rdLe r 0x0F 1 != 0 || rdLe r 0x12 14 != 0
                || (kind != 1 && rdLe r 0x10 2 != 0)) then some bad
      else none

/-- The step row a message's row names (step 4 of R163). -/
def XStep.rowOf (t : XStep) (r : Bytes) : Option StepRow :=
  t.rows.find? (fun q => q.acc == rdLe r 0 8 && q.pos == rdLe r 8 4 && q.slot == rdLe r 0x0C 2)

/-- Steps 3 to 5 of R163 for a message of a step. -/
def xRowsBad (p : Profile) (t : XStep) (kind layer stage : Nat) (x : Slip) : Bool :=
  let rows := xRows x.payload
  let expect := if kind == 1 then layer else p.layers
  rdLe x.payload 0x0C 2 != (if kind == 1 then layer else 0xFFFF) || (kind == 1 && layer ≥ p.layers)
    || x.src != .peer stage
    || rows.any (fun r => match t.rowOf r with
        | some q => q.layer != expect || (kind == 3 && (!q.want || q.hidden.isSome))
        | none => true)
    || (rows.map (fun r => rdLe r 0x0C 2)).eraseDups.length != rows.length
    || (kind == 1 && t.arrived.any (fun a => a.1 == layer && rows.any (fun r => rdLe r 8 4 == a.2.1)))
    || (if kind == 1 then rows.any (fun r => (r.drop 32).any fp8Bad || rdLe r 0x10 1 == 0xFF || rdLe r 0x11 1 == 0xFF)
        else rows.any (fun r => bf16Bad (r.drop 32)))

/-- Answer a served message's rows: XCHG_LAYER_REPLY with the rows in the same order (R162), kept for duplicates (R164); the time since its
acceptance is its service time (ME_XCHG_MAX). -/
def State.layerReply (s : State) (p : Profile) (t : XStep) (layer : Nat) (x : Slip) (outs : List Bytes) : State :=
  let b := x.payload
  let rows := ((xRows b).zip outs).map (fun r => rowHead (rdLe r.1 0 8) (rdLe r.1 8 4) (rdLe r.1 0x0C 2) (rdLe r.1 0x0E 1 &&& 2) ++ r.2)
  let reply := xPayload p 2 t.id layer (rdLe b 0x10 2) (rdLe b 0x12 2) rows
  let slots := (xRows b).map (fun r => rdLe r 0x0C 2)
  let no := match tGet s.steps t.id with | some u => u.nextNo | none => 0
  let s := s.updStep t.id fun u =>
    { u with served := u.served ++ [{ op := xop 1, layer := layer, index := rdLe b 0x10 2, slots := slots, reply := reply, no := no }],
             rows := u.rows.map (fun (q : StepRow) => if slots.contains q.slot then { q with layer := layer + 1 } else q) }
  let since := match s.outst x.src x.tag with | some o => o.since | none => s.tick
  ((s.sendX t.id (xop 2) (p.layerStage.getD layer 0) reply).bump F.ME_CNT_XCHG_COUNT).maxFld F.ME_XCHG_MAX_NS (sat 32 (10 * (s.tick - since)))

/-- Serve a message of a decode step (R31): each row's K and V are stored and its output formed over what is then stored. -/
def State.serveDecode (s : State) (p : Profile) (t : XStep) (layer : Nat) (x : Slip) : Option State :=
  let go := fun (a : Option (State × List Bytes)) (r : Bytes) => a.bind fun (s, outs) =>
    (t.rowOf r).bind fun q =>
      let own := match (tGet s.steps t.id).bind (fun u => u.rows.find? (fun z => z.slot == q.slot)) with | some z => z.reserved | none => 0
      (s.appendAt p q.idx layer q.pos q.entry own r).map fun (s, own) =>
        let z := s.rowAttention p q.idx layer q.pos r
        let out := z.2
        let s := ({ s with freeCtr := s.freeCtr + 1 }).queueTiles (tilesOf 0 t.id (s.entryFmt 0) z.1)
        (s.updStep t.id (fun u => { u with rows := u.rows.map (fun (z : StepRow) => if z.slot == q.slot then { z with reserved := own } else z) }),
         outs ++ [out])
  ((xRows x.payload).foldl go (some (s, []))).map fun (s, outs) => s.layerReply p t layer x outs

/-- Append the arrived rows of a layer of a prefill in position order, up to position `last`, on the prefill's reservation. -/
def State.appendChunk (s : State) (p : Profile) (t : XStep) (layer last : Nat) : Option State :=
  let rows := (t.arrived.filter (fun a => a.1 == layer && a.2.1 ≤ last)).mergeSort (fun a b => a.2.1 ≤ b.2.1)
  rows.foldl (fun s a => s.bind fun s =>
    (t.rows.find? (fun q => q.pos == a.2.1)).bind fun q =>
      let own := match tGet s.prefills q.idx with | some f => f.reserved | none => 0
      (s.appendAt p q.idx layer q.pos q.entry own a.2.2).map fun (s, own) =>
        match tGet s.prefills q.idx with
        | some f => { s with prefills := tPut s.prefills q.idx { f with reserved := own } }
        | none => s) (some s)

/-- Has every row of a prefill up to the last of a message arrived in a layer (R162)? -/
def XStep.covered (t : XStep) (layer last : Nat) : Bool :=
  t.rows.all (fun q => q.pos > last || q.layer > layer || t.arrived.any (fun a => a.1 == layer && a.2.1 == q.pos))

/-- What serving a message of a prefill comes to. -/
inductive Served? where
  /-- answered -/
  | yes (s : State)
  /-- a tile is non-finite at BF16: the message waits for its second end (R156) -/
  | fails (s : State)
  /-- an append found no slot -/
  | none_

/-- Serve a message of a prefill (R168, R170): its tiles run and its outputs are formed over the chunk's positions as the appends will
store them; once the layer is complete they are appended (R33). -/
def State.servePrefill (s : State) (p : Profile) (id layer : Nat) (x : Slip) : Served? :=
  match tGet s.steps id with
  | none => .none_
  | some t =>
    let rows := (xRows x.payload).map (fun r => (rdLe r 8 4, r))
    match s.appendChunk p t layer ((rows.map (·.1)).foldl max 0) with
    | none => .none_
    | some seen =>
      let i := ((t.rows.head?).map (·.idx)).getD 0
      let z := seen.chunkAttention p i layer (((t.rows.head?).map (·.pos)).getD 0) rows
      let s := s.queueTiles (tilesOf 0 id (s.entryFmt 0) z.1)
      if z.1.any (fun c => tileFails c.2) then .fails (s.updStep id (fun t => { t with failing := true }))
      else
        let s := s.layerReply p t layer x z.2
        match tGet s.steps id with
        | some u =>
          if u.rows.all (fun q => q.layer > layer) then
            match s.appendChunk p u layer (2 ^ 32) with
            | some s => .yes (s.updStep id (fun u => { u with arrived := u.arrived.filter (fun a => a.1 != layer) }))
            | none => .none_
          else .yes s
        | none => .yes s

/-- Is a prefill chunk complete: every layer served for every row, and the final hidden state there where one is wanted? -/
def XStep.chunkDone (t : XStep) (p : Profile) : Bool := t.rows.all (fun q => q.layer ≥ p.layers && (!q.want || q.hidden.isSome))

/-- Close a prefill chunk that is complete. -/
def State.closeChunk (s : State) (p : Profile) (id : Nat) : State :=
  match tGet s.steps id with
  | some t => if t.prefill && t.chunkDone p then s.finishChunk p id else s
  | none => s

/-- Serve the messages of a prefill that waited and can be served now; a failed append abandons the step. -/
def State.serveWaiting (s : State) (p : Profile) (id : Nat) : Nat → State
  | 0 => s
  | n + 1 =>
    match tGet s.steps id with
    | none => s
    | some t =>
      let ready := fun (x : Slip) => t.covered (rdLe x.payload 0x0C 2) (((xRows x.payload).map (fun r => rdLe r 8 4)).foldl max 0)
      match (if t.failing then none else t.waiting.find? ready) with
      | none => s
      | some x =>
        let s := s.updStep id (fun t => { t with waiting := t.waiting.filter (fun y => y != x) })
        match s.servePrefill p id (rdLe x.payload 0x0C 2) x with
        | .yes s => (s.finish (xop 1) x (Answer.ok 0)).serveWaiting p id n
        | .fails s => s.updStep id (fun t => { t with waiting := t.waiting ++ [x] })
        | .none_ => (s.finish (xop 1) x (Answer.st St.BAD_PARAM (0x100 + xop 1))).abandonStep id

/-- XCHG_LAYER (R162-R169); it waits while a stack is being retrained (R425). -/
def execXCHG_LAYER (x : Slip) (s : State) : Host.Outcome State Fault Refusal :=
  runSlip Op.XCHG_LAYER x s fun s =>
    let bad := fun (s : State) => SlipRes.no (s.bump F.ME_CNT_XCHG_BAD_COUNT) St.BAD_PARAM (0x100 + xop 1)
    match s.profile with
    | none => .no s St.NOT_READY 1
    | some p => match xHeadBad p 1 x with
      | some b => .no (s.bump F.ME_CNT_XCHG_BAD_COUNT) b.1 b.2
      | none =>
        let layer := rdLe x.payload 0x0C 2
        let id := rdLe x.payload 8 4
        match tGet s.steps id with
        | none => bad s
        | some t =>
          let slots := (xRows x.payload).map (fun r => rdLe r 0x0C 2)
          let same := (xRows x.payload).all (fun r => (t.rowOf r).isSome) && x.src == .peer (p.layerStage.getD layer 0)
          match t.served.find? (fun v => v.op == xop 1 && v.layer == layer && v.index == rdLe x.payload 0x10 2 && v.slots == slots && same) with
          | some v => .done ((s.sendX id (xop 2) (p.layerStage.getD layer 0) v.reply).bump F.ME_CNT_XCHG_DUP_COUNT) (Answer.st St.ALREADY_DONE)
          | none =>
            if xRowsBad p t 1 layer (p.layerStage.getD layer 0) x then bad s
            else if s.stackRetrains then .hold s .retrain
            else if !t.prefill then
              match s.serveDecode p t layer x with
              | some s => .done s (Answer.ok 0)
              | none => bad (s.abandonStep id)
            else
              let s := s.updStep id (fun t => { t with arrived := t.arrived ++ (xRows x.payload).map (fun r => (layer, rdLe r 8 4, r)) })
              let last := ((xRows x.payload).map (fun r => rdLe r 8 4)).foldl max 0
              let t := (tGet s.steps id).getD t
              let hold := fun (s : State) => SlipRes.wait (s.updStep id (fun t => { t with waiting := t.waiting ++ [x] }))
              if t.failing || !t.covered layer last then hold s
              else match s.servePrefill p id layer x with
                | .yes s => .done ((s.serveWaiting p id t.waiting.length).closeChunk p id) (Answer.ok 0)
                | .fails s => hold s
                | .none_ => bad (s.abandonStep id)

/-- XCHG_FINAL (R163, R164, R172-R176): final hidden states arrive; with the last of them the step goes on to the output head. -/
def execXCHG_FINAL (x : Slip) (s : State) : Host.Outcome State Fault Refusal :=
  runSlip Op.XCHG_FINAL x s fun s =>
    let bad := fun (s : State) => SlipRes.no (s.bump F.ME_CNT_XCHG_BAD_COUNT) St.BAD_PARAM (0x100 + xop 3)
    match s.profile with
    | none => .no s St.NOT_READY 1
    | some p => match xHeadBad p 3 x with
      | some b => .no (s.bump F.ME_CNT_XCHG_BAD_COUNT) b.1 b.2
      | none =>
        let id := rdLe x.payload 8 4
        let rows := xRows x.payload
        let slots := rows.map (fun r => rdLe r 0x0C 2)
        match tGet s.steps id with
        | none => bad s
        | some t =>
          let same := rows.all (fun r => (t.rowOf r).isSome) && x.src == .peer p.finalStage && rdLe x.payload 0x0C 2 == 0xFFFF
          match t.served.find? (fun v => v.op == xop 3 && v.index == rdLe x.payload 0x10 2 && v.slots == slots && same) with
          | some _ => .done (s.bump F.ME_CNT_XCHG_DUP_COUNT) (Answer.st St.ALREADY_DONE)
          | none =>
            if xRowsBad p t 3 0 p.finalStage x then bad s
            else if s.stackRetrains then .hold s .retrain
            else
              let hid := fun (q : StepRow) => rows.find? (fun r => rdLe r 0x0C 2 == q.slot)
              let s := s.updStep id fun t =>
                { t with served := t.served ++ [{ op := xop 3, layer := 0xFFFF, index := rdLe x.payload 0x10 2, slots := slots, reply := [], no := 0 }],
                         rows := t.rows.map (fun (q : StepRow) => match hid q with | some r => { q with hidden := some (r.drop 32) } | none => q) }
              let t := (tGet s.steps id).getD t
              if t.prefill then .done (s.closeChunk p id) (Answer.ok 0)
              else if t.rows.all (fun q => q.hidden.isSome) then .done (s.finishDecode p id) (Answer.ok 0)
              else .done s (Answer.ok 0)

/-- XCHG_ERROR_REPLY (R165): class 0x2 asks for a retry after XCHG_RETRY_US, at most XCHG_RETRIES times; anything worse, or the
failure of the last retry, abandons the step. -/
def execXCHG_ERROR_REPLY (step msg status : Nat) (s : State) : Host.Outcome State Fault Refusal :=
  match tGet s.steps step with
  | none => .next s
  | some t => match t.sent.find? (fun m => m.no == msg) with
    | none => .next s
    | some m =>
      if statusClass status ≤ 1 then .next s
      else if statusClass status == 2 && m.retries < s.fld F.ME_XCHG_CFG_RETRIES then
        let due := s.tick + s.fld F.ME_XCHG_CFG_RETRY_US * 100
        .next (s.updStep step (fun t => { t with sent := t.sent.map (fun (q : XMsg) => if q.no == msg then { q with due := some due } else q) }))
      else .next (s.abandonStep step)

/-- XCHG_RETRY (R165): the message is sent again when its time has come. -/
def execXCHG_RETRY (step msg : Nat) (s : State) : Host.Outcome State Fault Refusal :=
  match (tGet s.steps step).bind (fun t => (t.sent.find? (fun m => m.no == msg)).map (fun m => (t, m))) with
  | none => .next s
  | some (t, m) =>
    let ready : Bool := match m.due with | some d => decide (d ≤ s.tick) | none => false
    if !ready then .next s
    else
      let s := s.updStep step fun t =>
        { t with sent := t.sent.map (fun (q : XMsg) => if q.no == msg then { q with due := none, retries := q.retries + 1 } else q),
                 lastSent := s.tick, timeout := s.fld F.ME_XCHG_CFG_TIMEOUT_MS * 100000 }
      .next (s.postX step t.conf msg m.op m.peer m.payload)

/-- XCHG_TIMEOUT (R166): rows that must follow the step's last message have not arrived in time. -/
def execXCHG_TIMEOUT (step : Nat) (s : State) : Host.Outcome State Fault Refusal :=
  match tGet s.steps step with
  | none => .next s
  | some t => if t.lastSent + t.timeout ≤ s.tick then .next (s.abandonStep step) else .next s

/-! ## Matrix engines (R154-R157) -/

/-- A failed prefill (R156): abandoned, the session WAITING with its input pending, the request ended with DEVICE_FAULT. -/
def State.prefillFailed (s : State) (i : Nat) : State :=
  let s := (s.steps.filter (fun t => t.2.prefill && t.2.rows.any (fun r => r.idx == i))).foldl (fun s t => s.abandonStep t.1) s
  let s := (s.dequeue i).dropPrefill i
  let s := s.endWithout i End.DEVICE_FAULT []
  let e := s.sess i
  if e.attached then s.flushRing e.ring else s

/-- The tile an ME reports on: the enabled ME's own, of the job named and, where the report says it, with this finding of its guards.  A
report of anything else is none of this ME's (log entry 55). -/
def State.reported (s : State) (me kind ref : Nat) (cond : Option Nat) : Option Tile :=
  if me < 132 && s.meOn me then
    (s.me me).tile.filter (fun t => t.kind == kind && t.ref == ref && (match cond with | some c => t.conds.getD (t.fmt - t.entry) 0 == c | none => true))
  else none

/-- ME_TILE_END (R154-R156): an ME ends its tile and checks its guards; `cond` is what they found, as the tile's own arithmetic gives it. -/
def execME_TILE_END (me kind ref cond : Nat) (s : State) : Host.Outcome State Fault Refusal :=
  let m := s.me me
  match s.reported me kind ref (some cond) with
  | none => .next s
  | some t =>
    let s := s.traceEv 5 (s.fld (F.ME_UNIT_POOL.at (8 * me))) (errUnit 2 me) 0 0 0
    let free := fun (s : State) => s.setMe me { m with tile := none }
    let pass := fun (s : State) => (((free s).bump (F.ME_UNIT_TILES.at (8 * me))).bump F.ME_CNT_TILES_COUNT).issue
    let count := fun (s : State) =>
      s.bumpSat ((if cond == 1 then F.ME_TRIP_NONFINITE else if cond == 2 then F.ME_TRIP_MAGNITUDE else F.ME_TRIP_SATURATION).at (8 * me))
    if cond == 0 then .next (pass s)
    else if t.fmt < 3 then .next (((count s).bump F.ME_CNT_REPLAY_COUNT).setMe me { m with tile := some { t with fmt := t.fmt + 1 } })
    else if cond != 1 then .next (pass (count s))
    else if !t.second then .next (((free (count s)).bump F.ME_CNT_REPLAY_COUNT).requeue me { t with second := true })
    else
      let first := match (tGet s.steps t.ref).bind (fun x => x.rows.head?) with | some r => if t.kind == 0 then some r else none | none => none
      let s := (free (count s)).errRecord 1 Ek.ME_PARITY (errUnit 2 me) 0 ((first.map (fun r => r.acc)).getD 0)
      let s := match first with
        | some r => if (match tGet s.steps t.ref with | some (x : XStep) => x.prefill | none => false) then s.prefillFailed r.idx else s
        | none => if t.kind == 2 then s.searchFailed t.ref else s
      .next s.issue

/-- Soft-disable an ME (R157, R179): it leaves its pool, ME_COUNT falls, its tile goes back to its queue, and a free spare of its
partition takes its place (R23, R406); a pool left below its MIN is restored at the controller's next period. -/
def State.disableMe (s : State) (e : Nat) : State :=
  let pool := s.fld (F.ME_UNIT_POOL.at (8 * e))
  let s := s.errRecord 3 Ek.UNIT_DISABLED (errUnit 2 e) 0 0
  let s := (s.setFld (F.ME_UNIT_STATE.at (8 * e)) 1).setFld (F.ME_UNIT_POOL.at (8 * e)) 3
  let s := match s.freeSpares (mePart e) with
    | k :: _ => s.useSpare e k pool
    | [] =>
      let s := if pool < 3 then s.setFld (F.ME_POOL_CUR.at (8 * pool)) (s.fld (F.ME_POOL_CUR.at (8 * pool)) - 1) else s
      let low : Bool := pool < 3 && s.fld (F.ME_POOL_CUR.at (8 * pool)) < s.fld (F.ME_POOL_MIN.at (8 * pool))
      { s.dropUnit F.DEV_CAP1_ME_COUNT with boot := { s.boot with spares := s.boot.spares.filter (· != e) },
                                            meShort := if low && !s.meShort.contains pool then s.meShort ++ [pool] else s.meShort }
  s.takeBack (· == e)

/-- Unit reset of an ME (R157): its tile goes back to the pool's queue and to another ME; the third within 1 s, or a failed known-answer
test, disables it. -/
def State.resetMe (s : State) (e : Nat) (kat : Bool) : State :=
  let recent := ((s.me e).resets.filter (fun t => s.tick < t + 100000000)) ++ [s.tick]
  let s := ((s.takeBack (· == e)).bump F.BOOT_CNT_UNIT_COUNT)
  let s := s.setMe e { s.me e with resets := recent }
  if recent.length ≥ 3 || !kat then s.disableMe e else s

/-- ME_PARITY_ERROR (R157): the tile is re-executed at the same format; a second parity error in it unit-resets the ME.  `kat` is the
outcome of the known-answer test that follows a reset. -/
def execME_PARITY_ERROR (me kind ref : Nat) (kat : Bool) (s : State) : Host.Outcome State Fault Refusal :=
  let m := s.me me
  match s.reported me kind ref none with
  | none => .next s
  | some t =>
    let s := (s.bumpSat (F.ME_TRIP_PARITY.at (8 * me))).bump F.ME_CNT_REPLAY_COUNT
    if t.parity == 0 then .next (s.setMe me { m with tile := some { t with parity := 1 } })
    else
      let s := s.setMe me { m with tile := some { t with parity := 0 } }
      .next ((s.errRecord 3 Ek.ME_PARITY (errUnit 2 me) 0 0).resetMe me kat)

/-! ## The ratio controller (R177-R179) -/

/-- The first pool, in order, that beats the others: index of the best under a strict order. -/
def bestPool (ok : Nat → Bool) (better : Nat → Nat → Bool) : Option Nat :=
  ([0, 1, 2].filter ok).foldl (fun (b : Option Nat) q => match b with | none => some q | some p => if better q p then some q else some p) none

/-- Raise the wanted counts until they sum to n. -/
def growWant (d hi : List Nat) : Nat → Nat → List Nat → List Nat
  | 0, _, w => w
  | f + 1, n, w =>
    if w.foldl (· + ·) 0 ≥ n then w
    else match bestPool (fun q => w.getD q 0 < hi.getD q 0) (fun q p => d.getD q 0 * (w.getD p 0 + 1) > d.getD p 0 * (w.getD q 0 + 1)) with
      | some p => growWant d hi f n (w.set p (w.getD p 0 + 1))
      | none => w

/-- Lower them until they sum to n. -/
def shrinkWant (d lo : List Nat) : Nat → Nat → List Nat → List Nat
  | 0, _, w => w
  | f + 1, n, w =>
    if w.foldl (· + ·) 0 ≤ n then w
    else match bestPool (fun q => w.getD q 0 > lo.getD q 0 && w.getD q 0 > b2n (d.getD q 0 > 0))
        (fun q p => d.getD q 0 * w.getD p 0 < d.getD p 0 * w.getD q 0) with
      | some p => shrinkWant d lo f n (w.set p (w.getD p 0 - 1))
      | none => w

/-- The wanted assignment in units (R178). -/
def wantedUnits (cur d lo hi : List Nat) (n : Nat) : List Nat :=
  let total := d.foldl (· + ·) 0
  if total == 0 then cur
  else
    let w := [0, 1, 2].map (fun p => min (hi.getD p 0) (max (lo.getD p 0) (n * d.getD p 0 / total)))
    let w := [0, 1, 2].map (fun p => if d.getD p 0 > 0 && w.getD p 0 == 0 && w.getD p 0 < hi.getD p 0 then 1 else w.getD p 0)
    shrinkWant d lo 400 n (growWant d hi 400 n w)

/-- Move at most `m` units from pools above their wanted counts to pools below, largest first. -/
def moveUnits (want : List Nat) : Nat → List Nat → List Nat × Nat
  | 0, cur => (cur, 0)
  | m + 1, cur =>
    let surplus := fun q => cur.getD q 0 - want.getD q 0
    let under := fun q => want.getD q 0 - cur.getD q 0
    match bestPool (fun q => surplus q > 0) (fun q p => surplus q > surplus p), bestPool (fun q => under q > 0) (fun q p => under q > under p) with
    | some a, some b =>
      let r := moveUnits want m ((cur.set a (cur.getD a 0 - 1)).set b (cur.getD b 0 + 1))
      (r.1, r.2 + 1)
    | _, _ => (cur, 0)

/-- Put each enabled ME of the partitions into pools so that pool p has the given number of MEs in each (R177): MEs that can keep
their pool do. -/
def State.assignMes (s : State) (perPart : List Nat) (part : Nat) : State :=
  let mes := (List.range 132).filter (fun e => mePart e == part && s.meOn e && s.fld (F.ME_UNIT_POOL.at (8 * e)) < 3)
  let keep := fun (acc : List (Nat × Nat) × List Nat) (e : Nat) =>
    let p := s.fld (F.ME_UNIT_POOL.at (8 * e))
    if acc.2.getD p 0 > 0 then (acc.1 ++ [(e, p)], acc.2.set p (acc.2.getD p 0 - 1)) else acc
  let kept := mes.foldl keep ([], perPart)
  let rest := mes.filter (fun e => !(kept.1.any (fun k => k.1 == e)))
  (rest.foldl (fun (a : State × List Nat) e =>
    let p := (a.2.findIdx? (· > 0)).getD 0
    (a.1.setFld (F.ME_UNIT_POOL.at (8 * e)) p, a.2.set p (a.2.getD p 0 - 1))) (s, kept.2)).1

/-- RATIO_PERIOD (R178, R179): demand in ME-ns of the three pools is sampled and at most MOVE_MAX units move; while RATIO_EN is 0
assignments hold, and TARGETs written since the last period are applied; a pool that a soft-disable left below its MIN is restored to it.  An ME
without a partner serves PREFILL, and of the units the other two pools
do not hold PREFILL holds the rest (log entry 72). -/
def execRATIO_PERIOD (demand : List Nat) (s : State) : Host.Outcome State Fault Refusal :=
  let per := if s.onePartition then 1 else 2
  let count := fun (part : Nat) => ((List.range 132).filter (fun e => mePart e == part && s.meOn e && s.fld (F.ME_UNIT_POOL.at (8 * e)) < 3)).length
  let n := if s.onePartition then count 0 else min (count 0) (count 1)
  let extra := if s.onePartition then 0 else max (count 0) (count 1) - n
  let pools := [0, 1, 2]
  let units := fun (p : Nat) => s.fld (F.ME_POOL_CUR.at (8 * p)) / per
  let cur := [n - (units 1 + units 2), units 1, units 2]
  let lo := pools.map (fun p => s.fld (F.ME_POOL_MIN.at (8 * p)) / per)
  let hi := pools.map (fun p => s.fld (F.ME_POOL_MAX.at (8 * p)) / per)
  let d := pools.map (fun p => demand.getD p 0)
  let on := s.flag F.ME_CTRL_RATIO_EN
  let want := if on then wantedUnits cur d lo hi n
    else if s.targetSet then pools.map (fun p => min (hi.getD p 0) (max (lo.getD p 0) (s.fld (F.ME_POOL_TARGET.at (8 * p)) / per)))
    else cur
  let hyst := s.fld F.ME_RATIO_CFG_HYST
  let want' := if !on then want else pools.map (fun p =>
    let c := cur.getD p 0
    let w := want.getD p 0
    if (c - w) + (w - c) ≤ hyst && lo.getD p 0 ≤ c && c ≤ hi.getD p 0 then c else w)
  let r := moveUnits want' (if on then s.fld F.ME_RATIO_CFG_MOVE_MAX else 400) cur
  let z := moveUnits (pools.map (fun p => if s.meShort.contains p then lo.getD p 0 else min (lo.getD p 0) (r.1.getD p 0))) 400 r.1
  let r := (z.1, r.2 + z.2)
  let s := pools.foldl (fun s p =>
    let s := if on then s.setFld (F.ME_DEMAND_ME_NS.at (8 * p)) (d.getD p 0) else s
    let s := s.setFld (F.ME_POOL_WANTED.at (8 * p)) (if on then want.getD p 0 * per else 0)
    s.setFld (F.ME_POOL_CUR.at (8 * p)) (r.1.getD p 0 * per + (if p == 0 then extra else 0))) s
  let s := (if s.onePartition then [0] else [0, 1]).foldl
    (fun s q => s.assignMes (r.1.set 0 (r.1.getD 0 0 + (count q - n))) q) s
  .next ({ s.bumpBy F.ME_CNT_MOVES_COUNT (r.2 * per) with meShort := [], targetSet := false }).issue

/-- ME_MAX_CLR (R181): ME_CTRL.MAX_CLR clears ME_XCHG_MAX. -/
def execME_MAX_CLR (s : State) : Host.Outcome State Fault Refusal := .next (s.setFld F.ME_XCHG_MAX_NS 0)

end Sys2Proof.Machine
end

