-- ==== Sys2Proof/Machine/NbuFrame.lean ====
section
/-!
DEFINITION. Near-bank units: their records, SRAM, latch FIFO and unpacker (R116-R132), launches, endings and yields
(R126-R128, R142-R148), and the frame every micro-operation runs in (R130).
-/

namespace Sys2Proof.Machine

/-! ## Records -/

/-- The unpacker before any UNP. -/
def Unp.fresh : Unp :=
  { format := 0, base := 0, scale := 0, first := 0, group := 0, book := 0, g := 1, p := 1, esc := false, rest := [] }

/-- An NBU at reset. -/
def Nbu.fresh : Nbu :=
  { cmd := [], groups := 0xFFFFFFFF, fg := [], bg := [], run := none, susp := none, fgSince := 0, sram := [], latch := [], toRead := [],
    work := [], closed := true, debt := [0, 0], ppOn := false, ppActive := 0, waiting := [], rereads := 0, fails := 0, cause := 0, ca := 0,
    parity := [], clean := true, done := [] }

/-- An NBU. -/
def State.nbu (s : State) (n : Nat) : Nbu := (tGet s.nbus n).getD Nbu.fresh

/-- Store an NBU. -/
def State.setNbu (s : State) (n : Nat) (v : Nbu) : State := { s with nbus := tPut s.nbus n v }

/-- Change an NBU. -/
def State.updNbu (s : State) (n : Nat) (f : Nbu → Nbu) : State := s.setNbu n (f (s.nbu n))

/-- Base die of a stack. -/
def State.stack (s : State) (k : Nat) : Stack := (tGet s.dieTab k).getD { input := [], inbox := [], merges := [] }

/-- Change a base die. -/
def State.updStack (s : State) (k : Nat) (f : Stack → Stack) : State := { s with dieTab := tPut s.dieTab k (f (s.stack k)) }

/-- A command register. -/
def Nbu.cmdReg (v : Nbu) (r : Nat) : Nat := (tGet v.cmd r).getD 0

/-- Set a command register. -/
def Nbu.setCmd (v : Nbu) (r w : Nat) : Nbu := { v with cmd := tPut v.cmd r w }

/-! ## Ordinary accesses (R142, R143) -/

/-- Lines of HBM wholly overwritten are no longer marked (R330). -/
def State.clearMarks (s : State) (a n : Nat) : State :=
  s.updErrs (fun e => { e with poison := e.poison.filter (fun l => !(l.1 == 0 && a ≤ 64 * l.2 && 64 * l.2 + 64 ≤ a + n)) })

/-- Carry out one ordinary access; a host read of a damaged line receives the poison indication (R330). -/
def State.doAccess (s : State) (a : Access) : State :=
  match a.data with
  | some b => (s.hbmWr a.addr b).clearMarks a.addr b.length
  | none =>
    if a.host then
      (if s.errs.poison.contains (0, a.addr / 64) then (s.bump F.CXL_CNT_POISON_RD_COUNT).emit (.memData [] true)
       else s.emit (.memData (s.hbmRd a.addr a.len) false))
    else s.emit (.readData a.addr (s.hbmRd a.addr a.len))

/-- An ordinary access to a pair: it waits while a program runs there or its stack is being retrained (R425), else it proceeds at once
(R142). -/
def State.access (s : State) (a : Access) : State :=
  let n := a.addr / 2 ^ 27
  if (s.nbu n).run.isSome || s.retraining 2 (n / 512) then s.updNbu n (fun v => { v with waiting := v.waiting ++ [a] }) else s.doAccess a

/-- Serve accesses that waited; the latency added is measured in ticks of DEV_TICK. -/
def State.serve (s : State) (n k : Nat) : State :=
  let v := s.nbu n
  let k := if s.retraining 2 (n / 512) then 0 else k
  let go := v.waiting.take k
  let s := s.setNbu n { v with waiting := v.waiting.drop k }
  go.foldl (fun s a => (s.doAccess a).maxFld F.NBU_MAX_ADDED_NS ((s.tick - a.since) * 10)) s

/-! ## Launch and end (R126-R128) -/

/-- A result word (Table 5.15). -/
def resultWord (code tag aux : Nat) : Nat := code * 2 ^ 56 + (tag % 2 ^ 32) * 2 ^ 16 + aux % 2 ^ 16

/-- Write a launch's result and send its completion. -/
def State.complete (s : State) (n : Nat) (l : Launch) (code aux : Nat) : State :=
  let w := resultWord code l.tag aux
  let s := s.updNbu n fun v => { v.setCmd (if l.bg then 2 else 1) w with
    done := v.done ++ [(l, w)], fails := if code == 2 || code == 5 || code == 6 then sat 8 (v.fails + 1) else v.fails }
  let s := if code == 0 then s.bump F.NBU_CNT_PROG_COUNT
    else if code == 2 || code == 5 || code == 6 || code == 7 then s.bump F.NBU_CNT_FAIL_COUNT else s
  s.emit (.completion n w)

/-- A launch into a queue (R126); a full queue ignores it; a slot not loaded ends it at once.  Its work descriptors stay with it until it
starts; that CLOSED, as last written, holds for whichever launch runs is the model's choice (R134; log entry 48). -/
def State.queueLaunch (s : State) (n : Nat) (l : Launch) : State :=
  let v := s.nbu n
  if (if l.bg then v.bg else v.fg).length ≥ 4 then s.regAccErr
  else if !s.flag (F.NBU_PROG_VALID.at (8 * l.slot)) then s.complete n l 3 0
  else s.setNbu n { v with fg := if l.bg then v.fg else v.fg ++ [l], bg := if l.bg then v.bg ++ [l] else v.bg }

/-- A write of a command register from the fabric (R124-R126): CMD0 launches with a copy of the queue's parameters, results and
reserved registers ignore it. -/
def State.nbuWrite (s : State) (n r : Nat) (w : Nat) (work : List Bytes := []) : State :=
  if !s.nbuOn n then s
  else if r == 0 then
    let v := s.nbu n
    let bg := w.testBit 8
    let l : Launch := { slot := w % 8, bg := bg, tag := bitsOf w 47 16,
                        params := (List.range 13).map (fun i => v.cmdReg ((if bg then 16 else 3) + i)), work := work }
    (s.setNbu n (v.setCmd 0 (bitsOf w 47 16 * 2 ^ 16 + b2n bg * 256 + w % 8))).queueLaunch n l
  else if 3 ≤ r && r ≤ 28 then s.updNbu n (fun v => v.setCmd r w)
  else s

/-- The running program ends: result, completion; while nothing runs, accesses proceed and the base die pays refresh debt
(R128, R142, R145); descriptors it has not taken are its issuer's to give again (R141).  The model's choices: columns left in the
latch FIFO or still to be brought stay there for the next program (R131), and a PPB declaration ends with whichever program ends
(R145; log entry 85). -/
def State.endRun (s : State) (n code aux : Nat) : State :=
  match (s.nbu n).run with
  | none => s
  | some r =>
    let s := s.complete n r.launch code aux
    let s := s.updNbu n fun v =>
      let idle := v.fg.isEmpty && v.bg.isEmpty && v.susp.isNone
      { v with run := none, work := [], ppOn := false, ppActive := 0, debt := if idle then [0, 0] else v.debt,
               fgSince := if v.susp.isSome && !r.launch.bg then v.fgSince + 1 else v.fgSince }
    s.serve n (s.nbu n).waiting.length

/-- Start a launch; its PC is the program's first entry, its descriptors are the work queue; its scratch registers are clear after a
reset (R148), else they hold values no rule gives (log entry 44). -/
def State.startRun (s : State) (n : Nat) (l : Launch) (v : Nbu) : State :=
  let s := s.traceEv 4 l.slot (errUnit 1 n) l.tag 0 0
  let r : Run := { launch := l, params := l.params, pc := s.fld (F.NBU_PROG_ENTRY.at (8 * l.slot)),
                   scal := (List.range 16).map (fun i => if v.clean then 0 else Config.scratch s.freeCtr i % 2 ^ 64),
                   lc := (List.range 4).map (fun i => if v.clean then 0 else Config.scratch s.freeCtr (16 + i) % 2 ^ 32), unp := Unp.fresh, queries := 1 }
  { s.setNbu n { v with run := some r, work := l.work, clean := false } with freeCtr := s.freeCtr + 1 }

/-- Are new launches withheld: L µs of every 8 µs at HBM_LEVEL L (R455)?  That they are the first L is the model's choice (log entry
96). -/
def State.launchHeld (s : State) : Bool := s.tick % 800 < 100 * s.fld F.CXL_THROTTLE_HBM_LEVEL

/-- An idle NBU takes its next work (R127), but while programs are being reloaded (R133) or its stack is retrained (R425): a suspended program that has waited for 16, else foreground, else the suspended program,
else background while BG_EN is set. -/
def State.nextRun (s : State) (n : Nat) : State :=
  let v := s.nbu n
  if v.run.isSome || !s.nbuOn n || s.reloading || s.retraining 2 (n / 512) then s
  else
    let fg := if s.launchHeld then [] else v.fg
    let bg := if s.launchHeld then [] else v.bg
    match v.susp with
    | some r =>
      (match fg with
      | l :: rest => if v.fgSince ≥ 16 then s.setNbu n { v with run := some r, susp := none, fgSince := 0 } else s.startRun n l { v with fg := rest }
      | [] => s.setNbu n { v with run := some r, susp := none, fgSince := 0 })
    | none =>
      match fg, bg with
      | l :: rest, _ => s.startRun n l { v with fg := rest }
      | [], l :: rest => if s.flag F.NBU_CTRL_BG_EN then s.startRun n l { v with bg := rest } else s
      | [], [] => s

/-! ## Yields (R143, R145) -/

/-- Refresh debt paid at a yield: each bank one refresh; with ping-pong the idle bank in the background, the active bank only once it
has reached 3.  Answers the debts left and whether the program was suspended for it. -/
def payDebt (debt : List Nat) (on : Bool) (active : Nat) : List Nat × Bool :=
  let a := debt.getD active 0
  let i := debt.getD (1 - active) 0
  if !on then (debt.map (· - 1), decide (a + i != 0))
  else
    let a' := if a ≥ 3 then a - 1 else a
    (if active == 0 then [a', i - 1] else [i - 1, a'], decide (a ≥ 3))

/-- A yield of a running program, in the order of R143.  Answers the state and whether there was anything to serve. -/
def State.yieldAt (s : State) (n : Nat) : State × Bool :=
  let v := s.nbu n
  match v.run with
  | none => (s, false)
  | some r =>
    let k := min 4 v.waiting.length
    let s := (s.serve n 4).bumpBy F.NBU_CNT_YACC_COUNT k
    let paid := payDebt v.debt v.ppOn v.ppActive
    let s := (if paid.2 then s.bump F.NBU_CNT_RSUSP_COUNT else s).updNbu n (fun v => { v with debt := paid.1 })
    let out := r.launch.bg && !v.fg.isEmpty
    let s := if out then s.updNbu n (fun v => { v with run := none, susp := some r, fgSince := 0 }) else s
    (s, decide (k != 0) || paid.1 != v.debt || out)

/-! ## Unit reset (R148) -/

/-- An NBU is unit-reset: everything on it ends with code 4, scratch is cleared, accesses go on. -/
def State.resetNbu (s : State) (n : Nat) : State :=
  let v := s.nbu n
  let ls := (v.run.map (·.launch)).toList ++ (v.susp.map (·.launch)).toList ++ v.fg ++ v.bg
  let s := ls.foldl (fun s l => s.complete n l 4 0) s
  let s := s.updNbu n fun v =>
    { v with run := none, susp := none, fg := [], bg := [], fgSince := 0, sram := [], latch := [], toRead := [], work := [], closed := true,
             debt := [0, 0], ppOn := false, ppActive := 0, clean := true }
  s.serve n (s.nbu n).waiting.length

/-! ## SRAM (R129) -/

/-- Base and size of the region of a queue. -/
def regionBase (bg : Bool) : Nat := if bg then 0x3000 else 0
def regionSize (bg : Bool) : Nat := if bg then 0xC00 else 0x3000

/-- Does an access stay within its region? -/
def inRegion (bg : Bool) (a len : Nat) : Bool := a + len ≤ regionSize bg

/-- Bytes of a program's region. -/
def Nbu.rd (v : Nbu) (bg : Bool) (a len : Nat) : Bytes :=
  (List.range len).map (fun i => sGet (fun _ => 0) v.sram (regionBase bg + a + i))

/-- Write bytes of a program's region. -/
def Nbu.wr (v : Nbu) (bg : Bool) (a : Nat) (b : Bytes) : Nbu := { v with sram := memPut v.sram (regionBase bg + a) b }

/-- An FP32 word, and writing one. -/
def Nbu.rdW (v : Nbu) (bg : Bool) (a : Nat) : Nat := leNat (v.rd bg a 4)
def Nbu.wrW (v : Nbu) (bg : Bool) (a w : Nat) : Nbu := v.wr bg a (leBytes 4 w)

/-! ## Latch FIFO (R117, R131) -/

/-- Bank-linear byte address of a column of a pair. -/
def colAddr (n ca : Nat) : Nat := n * 2 ^ 27 + ca % 2 ^ 21 * 64

/-- Bring what the read engine still has to bring while the FIFO has room for `room` columns: the FIFO, what is left, and the first
column that cannot be corrected (R330). -/
def State.bring (s : State) (n : Nat) : Nat → List (Nat × Option Bytes) → List Bytes → List Bytes × List (Nat × Option Bytes) × Option Nat
  | _, [], l => (l, [], none)
  | 0, todo, l => (l, todo, none)
  | room + 1, (ca, src) :: todo, l =>
    match src with
    | some b => s.bring n room todo (l ++ [b])
    | none =>
      if s.errs.poison.contains (0, colAddr n ca / 64) then (l, (ca, src) :: todo, some ca)
      else s.bring n room todo (l ++ [s.hbmRd (colAddr n ca) 64])

/-- Is this column, or any of an entry's bytes, marked? -/
def State.hurtAt (s : State) (a len : Nat) : Bool :=
  s.errs.poison.any (fun l => l.1 == 0 && a / 64 ≤ l.2 && l.2 ≤ (a + len - 1) / 64)

/-! ## Micro-operations (R130) -/

/-- A micro-operation (Table 5.5). -/
structure Uop where
  op : Nat
  mod : Nat
  d : Nat
  a : Nat
  b : Nat
  imm : Nat
  deriving DecidableEq, Repr

/-- Its fields. -/
def Uop.of (w : Nat) : Uop :=
  { op := bitsOf w 63 58, mod := bitsOf w 57 54, d := bitsOf w 53 48, a := bitsOf w 47 42, b := bitsOf w 41 36, imm := bitsOf w 31 0 }

/-- What an operation uses: bits of MOD, selectors D, A and B, bits of IMM; none when OP is reserved (Table 5.7). -/
def Uop.uses (u : Uop) : Option (Nat × Bool × Bool × Bool × Nat) :=
  let n := 0xFF000000
  if u.op == 0 || u.op == 1 || u.op == 0x0A then some (0, false, false, false, 0)
  else if u.op == 2 then some (0, false, false, false, 0xFFFFFF)
  else if u.op == 3 then some (0, true, true, false, 0xFFFF)
  else if u.op == 4 then some (0, true, false, false, 0x1FF)
  else if u.op == 5 || u.op == 6 then some (0, false, true, false, 0x1FF)
  else if u.op == 7 then some (0, false, false, false, 0x1FF)
  else if u.op == 8 then some (0, true, false, false, 0x3FFF)
  else if u.op == 9 then some (3, false, false, false, 0)
  else if u.op == 0x10 then some (1, true, false, false, 0xFFFFFFFF)
  else if 0x11 ≤ u.op && u.op ≤ 0x1A then some (1, true, true, u.mod % 2 == 0, if u.mod % 2 == 0 then 0 else 0xFFFFFFFF)
  else if u.op == 0x1B then some (0, true, true, false, 0x3FFF)
  else if u.op == 0x1C then some (0, false, true, true, 0x3FFF)
  else if u.op == 0x20 then some (0, false, true, false, n + 0x1FFFFF)
  else if u.op == 0x21 then some (0, true, true, true, n + 0x1FFFFF)
  else if u.op == 0x22 || u.op == 0x23 || u.op == 0x25 then some (0, false, true, false, n + 0x3FFF)
  else if u.op == 0x24 then some (0, false, true, true, n + 0x3FFF)
  else if u.op == 0x30 then some (0xF, true, true, true, 0x7FFF)
  else if u.op == 0x31 || u.op == 0x37 || u.op == 0x39 then some (7, false, true, true, n)
  else if u.op == 0x32 then some (7, true, true, true, 0xFFFFFFFF)
  else if u.op == 0x33 || u.op == 0x34 then some (0, false, true, false, n)
  else if u.op == 0x35 then some (0xF, true, true, true, 0xF)
  else if u.op == 0x36 then some (0, false, true, true, 0)
  else if u.op == 0x38 then some (0, true, true, true, 0x3FFF)
  else none

/-- Is a selector one of Table 5.6's? -/
def selOk (x : Nat) : Bool := x < 16 || (32 ≤ x && x ≤ 51) || x == 63

/-- Is a word a micro-operation that may execute: a defined operation, RSVD and unused fields zero, no reserved selector; LOOP and
ENDL name a loop counter; UNP and ENC a format they know? -/
def Uop.legal (u : Uop) (w : Nat) : Bool :=
  match u.uses with
  | none => false
  | some (m, d, a, b, i) =>
    bitsOf w 35 32 == 0 && u.mod &&& (15 - m) == 0 && u.imm &&& (0xFFFFFFFF - i) == 0
      && (if d then selOk u.d else u.d == 0) && (if a then selOk u.a else u.a == 0) && (if b then selOk u.b else u.b == 0)
      && (if u.op == 3 || u.op == 4 then 48 ≤ u.d && u.d ≤ 51 else true)
      && (if u.op == 0x30 then u.mod ≤ 5 else if u.op == 0x35 then u.mod ≤ 2 else if u.op == 0x37 then u.mod % 4 ≤ 2 else true)

/-- N, the count in IMM[31:24] plus 1. -/
def Uop.n (u : Uop) : Nat := bitsOf u.imm 31 24 + 1

/-- IMM sign-extended to 64 bits. -/
def Uop.simm (u : Uop) : Nat := if u.imm ≥ 2 ^ 31 then 2 ^ 64 - 2 ^ 32 + u.imm else u.imm

/-- A selector's value (Table 5.6); DIST_SCAN reads CMD15 live (R126). -/
def Nbu.sel (v : Nbu) (r : Run) (x : Nat) : Nat :=
  if x < 3 then v.cmdReg x
  else if x == 15 && r.launch.slot == 3 && !r.launch.bg then v.cmdReg 15
  else if x < 16 then r.params.getD (x - 3) 0
  else if 32 ≤ x && x < 48 then r.scal.getD (x - 32) 0
  else if 48 ≤ x && x < 52 then r.lc.getD (x - 48) 0
  else 0

/-- Write a selector: parameters are the program's own copy; results keep what HALT writes (log entry 45). -/
def Run.put (r : Run) (x w : Nat) : Run :=
  if 3 ≤ x && x < 16 then { r with params := r.params.set (x - 3) (w % 2 ^ 64) }
  else if 32 ≤ x && x < 48 then { r with scal := r.scal.set (x - 32) (w % 2 ^ 64) }
  else if 48 ≤ x && x < 52 then { r with lc := r.lc.set (x - 48) (w % 2 ^ 32) }
  else r

/-- The word of the micro-operation store at an entry: the loaded program that covers it. -/
def Profile.storeWord (p : Profile) (pc : Nat) : Option Nat :=
  p.programs.findSome? fun x => if x.2.2.1 ≤ pc then x.2.2.2[pc - x.2.2.1]? else none

/-- Is an entry inside a program? -/
def State.inProgram (s : State) (slot pc : Nat) : Bool :=
  let e := s.fld (F.NBU_PROG_ENTRY.at (8 * slot))
  e ≤ pc && pc < e + s.fld (F.NBU_PROG_LENGTH.at (8 * slot))

/-- What a micro-operation did. -/
inductive UopRes where
  /-- on to the next -/
  | next (s : State) (r : Run)
  /-- branch -/
  | jump (s : State) (r : Run) (pc : Nat)
  /-- waits: nothing changed -/
  | stall
  /-- ends the program -/
  | stop (s : State) (code aux : Nat)
  /-- a yield that may have suspended the program -/
  | yield (s : State)
  deriving DecidableEq, Repr

/-- A column that cannot be corrected ends the program with code 5 (R146, R330). -/
def State.mediaStop (s : State) (n ca : Nat) : UopRes := .stop (s.updNbu n (fun v => { v with cause := 4, ca := ca })) 5 0

/-- Go to an entry of the running program; outside it the program ends with code 7. -/
def State.goto (s : State) (n : Nat) (r : Run) (pc : Nat) : State :=
  let s := s.updNbu n (fun v => { v with run := some { r with pc := pc } })
  if s.inProgram r.launch.slot pc then s else s.endRun n 7 0

/-- The frame of a micro-operation: it executes when it is the one at the running program's PC; a word that may not execute ends the
program with code 7. -/
def runUop (op : Nat) (n : Nat) (s : State) (body : State → Nbu → Run → Uop → UopRes) : Host.Outcome State Fault Refusal :=
  let v := s.nbu n
  match v.run, s.profile with
  | some r, some p =>
    match p.storeWord r.pc with
    | none => .next (s.endRun n 7 0)
    | some w =>
      let u := Uop.of w
      if !u.legal w then .next (s.endRun n 7 0)
      else if u.op != op then .next s
      else .next (match body s v r u with
        | .next s r => s.goto n r (r.pc + 1)
        | .jump s r pc => s.goto n r pc
        | .stall => s
        | .stop s code aux => s.endRun n code aux
        | .yield s =>
          match (s.nbu n).run, (s.nbu n).susp with
          | some r, _ => s.goto n r (r.pc + 1)
          | none, some r => s.updNbu n (fun v => { v with susp := some { r with pc := r.pc + 1 } })
          | none, none => s)
  | _, _ => .next s

/-- Take N columns for a consumer: none while the FIFO and the read engine hold fewer. -/
def State.takeCols (s : State) (n k : Nat) : Option (List Bytes × Nbu ⊕ Nat) :=
  let v := s.nbu n
  if v.latch.length + v.toRead.length < k then none
  else
    let b := s.bring n (k - v.latch.length) v.toRead v.latch
    match b.2.2 with
    | some ca => some (.inr ca)
    | none =>
      let rest := s.bring n (32 - (b.1.length - k)) b.2.1 (b.1.drop k)
      some (.inl (b.1.take k, { v with latch := rest.1, toRead := rest.2.1 }))

/-! ## The unpacker (R132) -/

/-- Element bytes of a group by format. -/
def groupBytes (fmt : Nat) : Nat := if fmt == 0 then 16 else if fmt == 2 then 12 else if fmt == 4 then 64 else 32

/-- Values of a group's element bytes under a scale byte, as FP32 words. -/
def groupVals (fmt book scale : Nat) (b : Bytes) : List Nat :=
  if fmt == 0 then mxWords mxFp4 scale (unpackBits 4 32 b)
  else if fmt == 1 then mxWords mxFp8 scale (b.map (·.toNat))
  else if fmt == 2 then y3Words book scale (unpackBits 3 32 b)
  else if fmt == 3 then b.map (fun v => fp8Word v.toNat)
  else if fmt == 4 then (List.range 32).map (fun i => fp16Word (rdLe b (2 * i) 2))
  else b.map (fun v => fxF32 (int8 v * fxOne))

/-- Unpack whole groups from bytes: (token slot, dimension group, index from the first group, values), or a column that cannot be
corrected. -/
def State.unpackGo (s : State) (n : Nat) (v : Nbu) (bg : Bool) (p : Profile) : Nat → Unp → Bytes → List (Nat × Nat × Nat × List Nat) →
    List (Nat × Nat × Nat × List Nat) × Unp × Option Nat
  | 0, u, b, acc => (acc, { u with rest := b }, none)
  | fuel + 1, u, b, acc =>
    let k := groupBytes u.format
    if b.length < k then (acc, { u with rest := b }, none)
    else
      let eb := b.take k
      let i := u.group - u.first
      let scale := if u.format ≤ 2 then rdLe (v.rd bg (u.scale + i) 1) 0 1 else 0
      let a := n * 2 ^ 27 + (u.base * 64 + (p.lay u.format).esc + 36 * rdLe eb 0 2) % 2 ^ 27
      let esc := u.esc && u.format != 1 && u.format ≤ 2 && scale == 0xFF
      if esc && s.hurtAt a 36 then (acc, u, some (a / 64 % 2 ^ 21))
      else
        let x := s.hbmRd a 36
        let vals := if esc then mxWords mxFp8 (bitsOf (rdLe x 0 4) 31 24) ((x.drop 4).map (·.toNat)) else groupVals u.format u.book scale eb
        s.unpackGo n v bg p fuel { u with group := u.group + 1 } (b.drop k)
          (acc ++ [(u.group / u.g % u.p, u.group % u.g, i, vals)])

/-- A column consumer: takes N columns, unpacks them and hands the groups to `f`, which answers the NBU changed, or none when an SRAM
address lies outside its region. -/
def State.consume (s : State) (n : Nat) (r : Run) (k : Nat) (f : Nbu → Run → List (Nat × Nat × Nat × List Nat) → Option (Nbu × Run)) : UopRes :=
  match s.takeCols n k, s.profile with
  | none, _ => .stall
  | some (.inr ca), _ => s.mediaStop n ca
  | some (.inl (cols, v)), some p =>
    let bytes := r.unp.rest ++ cols.flatten
    if r.unp.format ≤ 2 && !inRegion r.launch.bg (r.unp.scale + (r.unp.group - r.unp.first)) (bytes.length / groupBytes r.unp.format) then .stop s 7 0
    else
      let g := s.unpackGo n v r.launch.bg p (bytes.length + 1) r.unp bytes []
      match g.2.2 with
      | some ca => s.mediaStop n ca
      | none =>
        match f v { r with unp := g.2.1 } g.1 with
        | some (v, r) => .next (s.setNbu n v) r
        | none => .stop s 7 0
  | some (.inl _), none => .stall

end Sys2Proof.Machine
end

