-- ==== Sys2Proof/Machine/Nbu.lean ====
section
/-!
DEFINITION. The near-bank units' own commands: launches, the standard programs (R133-R141), completions, the merge unit (R135),
ordinary access and refresh (R142-R145), faults (R146-R148), broadcast (R125).
-/

namespace Sys2Proof.Machine

/-! ## Soft-disabling and evacuation (R147) -/

/-- Soft-disable an NBU (R147): its work ends, its area reads as zero, NBU_COUNT falls, its pair is evacuated. -/
def State.disableNbu (s : State) (n : Nat) : State :=
  if !s.nbuOn n then s
  else
    let s := s.resetNbu n
    let a := A.NBU_DIS + 8 * (n / 64)
    let s := s.setReg a (s.reg a ||| BitVec.ofNat 64 (2 ^ (n % 64)))
    let s := ({ s with nbus := tDel s.nbus n }).errRecord 3 Ek.UNIT_DISABLED (errUnit 1 n) 0 0
    let s := s.dropUnit F.DEV_CAP1_NBU_COUNT
    let s := ((s.slots.map (·.1)).filter (fun k => k / 2048 == n)).foldl State.moveSlot s
    ((s.vecBlocks.map (·.1)).filter (fun b => s.blockSlot b / 2048 == n)).foldl State.moveBlock s

/-! ## Launch, start, completion -/

/-- NBU_LAUNCH (R126): what the issuer wrote over the fabric before (parameters, work descriptors, input-buffer entries, expected
counts) and then CMD0 (log entry 48). -/
def execNBU_LAUNCH (n : Nat) (params : List (Nat × Word)) (work : List Bytes) (closed : Bool) (input : List (Nat × Bytes))
    (expect : List (Nat × List Nat × Nat)) (value : Word) (s : State) : Host.Outcome State Fault Refusal :=
  if !s.nbuOn n then .next s
  else
    let s := params.foldl (fun s w => if w.1 == 0 then s else s.nbuWrite n w.1 w.2.toNat) s
    let s := s.updStack (n / 512) fun k =>
      { k with input := input.foldl (fun t e => tPut t e.1 e.2) k.input,
               merges := k.merges ++ expect.map (fun e => { kind := e.1, key := e.2.1, expect := e.2.2, got := 0, body := [] }) }
    let s := s.updNbu n (fun v => { v with closed := closed })
    .next (s.nbuWrite n 0 value.toNat work)

/-- NBU_PROGRAM_START (R127). -/
def execNBU_PROGRAM_START (n : Nat) (s : State) : Host.Outcome State Fault Refusal := .next (s.nextRun n)

/-- Groups of a token that are candidates, by the append record of an input-buffer entry (R136). -/
def candCount (k : Nat) (b : Bytes) : Nat :=
  ((List.range k).filter (fun i => (rdLe b (17 * k + i / 8) 1).testBit (i % 8))).length

/-- The issuer of an APPEND names the wide page in the directory when the append has promoted it, as E and the candidates it gave tell
(R136); the second slot is charged with it (R108). -/
def State.nameWide (s : State) (n : Nat) (l : Launch) : State :=
  let first := l.params.getD 0 0 % 2 ^ 40
  let second := l.params.getD 2 0 % 2 ^ 40
  let entry := (tGet (s.stack (n / 512)).input (l.params.getD 3 0 % 65536)).getD []
  match s.profile with
  | none => s
  | some p =>
    if bitsOf (l.params.getD 1 0) 23 8 + candCount (2 * p.kvHeads * p.G) entry > (p.lay 0).escCap then
      let b := s.hbmRd (slotAddr first) 65536 ++ s.hbmRd (slotAddr second) 65536
      let w := p.lay 1
      let s := match tGet s.slots first, tGet s.slots second with
        | some u, none => ({ s with slots := tPut s.slots second { u with charge := 4 } } : State).addUsed u.tenant 1 4
        | _, _ => s
      let owners := s.sessions.filter (fun q => q.2.pages.any (fun r => r.slot == first && r.format == 0))
      owners.foldl (fun s q => s.updSess q.1 (fun e => { e with pages := e.pages.map (fun (r : PageRef) =>
        if r.slot == first && r.format == 0 then { r with format := 1, second := second, fill := hdGet w b Hd.FILL } else r) })) s
    else s

/-- NBU_COMPLETION: the issuer takes the oldest result word of an NBU: code 2 resets the unit, the third within 1 s disables it
(R147); codes 2, 4 and 6 launch the work again (R141, Table 13.3); an APPEND's code 0 may rename its page (R136). -/
def execNBU_COMPLETION (n : Nat) (s : State) : Host.Outcome State Fault Refusal :=
  match (s.nbu n).done with
  | [] => .next s
  | (l, w) :: rest =>
    let code := w / 2 ^ 56
    let s := s.updNbu n (fun v => { v with done := rest })
    if code == 2 then
      let recent := ((s.nbu n).parity.filter (fun t => s.tick < t + 100000000)) ++ [s.tick]
      let s := s.updNbu n (fun v => { v with parity := recent })
      if recent.length ≥ 3 then .next (s.disableNbu n) else .next ((s.resetNbu n).queueLaunch n l)
    else if code == 4 || code == 6 then .next (if s.nbuOn n then s.queueLaunch n l else s)
    else if code == 0 && l.slot == 1 then .next (s.nameWide n l)
    else .next s

/-! ## The merge unit (R135) -/

/-- Key of a partial record: TAG, BATCH_SLOT, KV_HEAD; of a logit record: its row. -/
def Rec.key (r : Rec) : List Nat := if r.kind == 0 then [rdLe r.body 0 4, rdLe r.body 4 2, rdLe r.body 6 1] else [rdLe r.body 0 4]

/-- Is a partial record EMPTY? -/
def recEmpty (b : Bytes) : Bool := (rdLe b 0x0A 2).testBit 0

/-- Two partial records combined (R135): per query m, l and o, in FP32. -/
def mergeRecs (x y : Bytes) : Bytes :=
  let q := rdLe x 7 1
  let d := rdLe x 8 2
  let pages := leBytes 4 (rdLe x 0x0C 4 + rdLe y 0x0C 4)
  if recEmpty y then patch x 0x0C pages
  else if recEmpty x then patch y 0x0C pages
  else
    let part := fun (b : Bytes) (k : Nat) =>
      let o := 0x20 + 8 * q + 4 * k * d
      ({ m := rdLe b (0x20 + 8 * k) 4, l := rdLe b (0x24 + 8 * k) 4, o := (List.range d).map (fun i => rdLe b (o + 4 * i) 4) } : AttnPart)
    let one := fun (acc : Bytes) (k : Nat) =>
      let r := (part x k).mix (part y k)
      patch (patch acc (0x20 + 8 * k) (leBytes 4 r.m ++ leBytes 4 r.l)) (0x20 + 8 * q + 4 * k * d) (r.o.flatMap (leBytes 4))
    patch ((List.range q).foldl one x) 0x0C pages

/-- Two partial logit records of a row added (R139): row, vectors, one FP32 each. -/
def addLogits (x y : Bytes) : Bytes :=
  slice x 0 8 ++ (List.range (rdLe x 4 4)).flatMap (fun i => leBytes 4 (f32Add (rdLe x (8 + 4 * i) 4) (rdLe y (8 + 4 * i) 4)))

/-- MERGE_RECORD (R135): the oldest record that has reached a stack's base die is folded in; when the expected count has arrived, one
record goes to the home partition, MERGED set.  A record nobody announced goes on as it is. -/
def execMERGE_RECORD (stack : Nat) (s : State) : Host.Outcome State Fault Refusal :=
  let k := s.stack stack
  match k.inbox with
  | [] => .next s
  | r :: rest =>
    let s := s.updStack stack (fun k => { k with inbox := rest })
    match k.merges.find? (fun m => m.kind == r.kind && m.key == r.key) with
    | none => .next (s.emit (.record stack r.kind r.body))
    | some m =>
      let body := if m.got == 0 then r.body else if r.kind == 0 then mergeRecs m.body r.body else addLogits m.body r.body
      let others := k.merges.filter (fun x => !(x.kind == r.kind && x.key == r.key))
      if m.got + 1 ≥ m.expect then
        let out := if r.kind == 0 then patch body 0x0A (leBytes 2 (rdLe body 0x0A 2 ||| 2)) else body
        .next ((s.updStack stack (fun k => { k with merges := others })).emit (.record stack r.kind out))
      else .next (s.updStack stack (fun k => { k with merges := others ++ [{ m with got := m.got + 1, body := body }] }))

/-! ## Standard programs (R133-R141) -/

/-- A standard program runs to its end as one command when it is the one running on the NBU. -/
def runProgram (slot n : Nat) (s : State) (body : State → Profile → Nbu → Run → State × Nat × Nat) : Host.Outcome State Fault Refusal :=
  let v := s.nbu n
  match v.run, s.profile with
  | some r, some p =>
    if r.launch.slot != slot then .next s
    else let x := body s p v r; .next (x.1.endRun n x.2.1 x.2.2)
  | _, _ => .next s

/-- Does a page ID name a slot of the NBU's pair? -/
def inPair (n id : Nat) : Bool := id / 2048 == n

/-- The directory entry of a slot, in any session. -/
def State.refOf (s : State) (k : Nat) : Option PageRef := s.sessions.findSome? (fun q => q.2.pages.find? (fun r => r.slot == k))

/-- Image of a page of a given format; a wide page's second slot is the one its directory entry names (log entry 48). -/
def State.imageAt (s : State) (k format : Nat) : Bytes :=
  let second := match s.refOf k with | some r => r.second | none => k
  s.pageImage { layer := 0, index := 0, slot := k, second := second, format := format, fill := 0 }

/-- Where a part of a page's image, offset and length, lies in HBM: (address, length); a wide page's second slot is the one its
directory entry names. -/
def State.imgRange (s : State) (k : Nat) (x : Nat × Nat) : List (Nat × Nat) :=
  let second := match s.refOf k with | some r => r.second | none => k
  let low := min (x.1 + x.2) 65536 - min x.1 65536
  (if low == 0 then [] else [(slotAddr k + x.1, low)])
    ++ (if low == x.2 then [] else [(slotAddr second + (x.1 + low - 65536), x.2 - low)])

/-- Parts of a page's image a program reads for some groups: elements, scales and the escape entries they use (R134, R137, R140). -/
def State.groupReads (s : State) (p : Profile) (k format : Nat) (gs : List Nat) : List (Nat × Nat) :=
  let l := p.lay format
  let img := s.imageAt k format
  (gs.flatMap fun g => [(g * l.elem, l.elem), (l.scale + g, 1)] ++ (match escOf l img g with | some e => [(l.esc + 36 * e, 36)] | none => []))
    |>.flatMap (s.imgRange k)

/-- The header of a page, as a range. -/
def State.headRead (s : State) (p : Profile) (k format : Nat) : List (Nat × Nat) := s.imgRange k ((p.lay format).header, 0x4E0)

/-- Is a line of some ranges marked? -/
def State.anyHurt (s : State) (l : List (Nat × Nat)) : Bool := l.any (fun x => s.hurtAt x.1 x.2)

/-- A standard program meets data that cannot be corrected: NBU_ERRLOG takes the cause and the first such column of the pair's part of
`ranges` (R146, Table 5.15). -/
def State.noteMedia (s : State) (n : Nat) (ranges : List (Nat × Nat)) : State :=
  let cols := ranges.flatMap fun x =>
    (s.errs.poison.filter (fun l => l.1 == 0 && x.1 / 64 ≤ l.2 && l.2 ≤ (x.1 + x.2 - 1) / 64)).map (fun l => l.2 % 2 ^ 21)
  s.updNbu n (fun v => { v with cause := 4, ca := cols.headD 0 })

/-- What ATTN reads for a descriptor: of each KV head the K and V groups of the token slots it counts; no header field (R134). -/
def State.descReads (s : State) (p : Profile) (d : Bytes) : List (Nat × Nat) :=
  let page := rdLe d 0 8
  let heads := (List.range (rdLe d 0x17 1)).flatMap (fun i => [rdLe d 0x16 1 + i, p.kvHeads + rdLe d 0x16 1 + i])
  s.groupReads p (page % 2 ^ 40) (bitsOf page 41 40)
    ((List.range p.N).filter (fun g => heads.contains (p.groupPair g) && p.groupSlot g < bitsOf page 53 48))

/-- What DIST_SCAN reads of a block: its head and bitmap, the tag of every live vector, the vectors that pass the filter (R138). -/
def State.blockReads (s : State) (mask value : Nat) (d : Bytes) : List (Nat × Nat) :=
  let a := slotAddr (rdLe d 0 8 % 2 ^ 40)
  let rb := 64 * rdLe d 0x0E 2
  (a, 0xC0) :: ((List.range (rdLe d 0x0C 2)).filter (fun i => !(rdLe (s.hbmRd (a + 0x40 + i / 8) 1) 0 1).testBit (i % 8))).map (fun i =>
    (a + 0xC0 + i * rb, if rdLe (s.hbmRd (a + 0xC0 + i * rb + 8) 8) 0 8 &&& mask == value then rb else 16))

/-- Is a descriptor of Table 5.9 in range? -/
def descOk (p : Profile) (n : Nat) (d : Bytes) : Bool :=
  let page := rdLe d 0 8
  let tokens := bitsOf page 53 48
  inPair n (page % 2 ^ 40) && bitsOf page 41 40 ≤ 2 && 1 ≤ tokens && tokens ≤ p.tokensPerPage && rdLe d 0x17 1 ≥ 1
    && rdLe d 0x16 1 + rdLe d 0x17 1 ≤ p.kvHeads

/-- The partial record of one page and one KV head (R134, Table 5.10). -/
def State.partial (s : State) (p : Profile) (d : Bytes) (h q scale : Nat) (queries : Bytes) : Bytes :=
  let page := rdLe d 0 8
  let mask := rdLe d 8 8
  let fmt := bitsOf page 41 40
  let img := s.imageAt (page % 2 ^ 40) fmt
  let l := p.lay fmt
  let ts := (List.range (bitsOf page 53 48)).filter (fun t => mask.testBit t)
  let keys := ts.map (fun t => readHead p l img t h)
  let vals := ts.map (fun t => readHead p l img t (p.kvHeads + h))
  let rs := (List.range q).map fun k =>
    partialOf p.headDim scale ((slice queries (k * p.headDim) p.headDim).map (fun b => fp8Word b.toNat)) keys vals
  leBytes 4 (rdLe d 0x10 4) ++ leBytes 2 (rdLe d 0x14 2) ++ leBytes 1 h ++ leBytes 1 q ++ leBytes 2 p.headDim
    ++ leBytes 2 (b2n ts.isEmpty) ++ leBytes 4 1 ++ List.replicate 16 0 ++ rs.flatMap (fun r => leBytes 4 r.m ++ leBytes 4 r.l)
    ++ rs.flatMap (fun r => r.o.flatMap (leBytes 4))

/-- Input-buffer entry of a query block: batch slot and KV head (log entry 48). -/
def queryEntry (slot head : Nat) : Nat := 65536 + slot * 256 + head

/-- The records of one descriptor: one per KV head it names. -/
def State.descRecs (s : State) (p : Profile) (q scale : Nat) (input : List (Nat × Bytes)) (d : Bytes) : List Rec :=
  (List.range (rdLe d 0x17 1)).map fun i =>
    let h := rdLe d 0x16 1 + i
    { kind := 0, route := rdLe d 0x10 4,
      body := s.partial p d h q scale ((tGet input (queryEntry (rdLe d 0x14 2) h)).getD []) }

/-- ATTN (R134): every page the closed work queue names; a record per page and KV head. -/
def execATTN (n : Nat) (s : State) : Host.Outcome State Fault Refusal :=
  if !(s.nbu n).closed then .next s
  else runProgram 0 n s fun s p v r =>
    let scale := r.launch.params.getD 0 0 % 2 ^ 32
    let q := r.launch.params.getD 1 0 % 16
    let s0 := s.updNbu n (fun v => { v with work := [] })
    if !(1 ≤ q && q ≤ 8) || v.work.any (fun d => !descOk p n d) then (s0, 3, 0)
    else
      let reads := v.work.flatMap (s.descReads p)
      if s.anyHurt reads then (s0.noteMedia n reads, 5, 0)
      else
        let recs := v.work.flatMap (s.descRecs p q scale (s.stack (n / 512)).input)
        (s0.updStack (n / 512) (fun k => { k with inbox := k.inbox ++ recs }), 0, v.work.length)

/-- Where the save record of a promotion lies in the second slot: after the wide scale array (Table 4.4, R136). -/
def saveAt (p : Profile) : Nat := 33 * p.N - 65536

/-- Lengths of its parts: scale array, escape area, header; the progress word follows. -/
def saveParts (p : Profile) : Nat × Nat × Nat := (p.N, 0xFB20 - 17 * p.N, 0x4D0)
def progressAt (p : Profile) : Nat := let x := saveParts p; saveAt p + x.1 + x.2.1 + x.2.2

/-- The progress word: page ID, t, PHASE, GEN, NEXT. -/
def progressWord (page t phase gen next : Nat) : Bytes :=
  leBytes 8 (page % 2 ^ 40 + t % 256 * 2 ^ 40 + phase % 16 * 2 ^ 48) ++ leBytes 4 gen ++ leBytes 4 next

/-- The narrow image a promotion reads: elements of the first slot, scales, escapes and header of the save record. -/
def savedImage (p : Profile) (first second : Bytes) : Bytes :=
  let x := saveParts p
  slice first 0 (16 * p.N) ++ slice second (saveAt p) (x.1 + x.2.1 + x.2.2) ++ List.replicate 16 0

/-- MXFP8 form of a group of the narrow image: element bytes and scale (R108). -/
def wideForm (p : Profile) (img : Bytes) (g : Nat) : Bytes × Nat :=
  let l := p.lay 0
  match escOf l img g with
  | some e => let x := escEntry l img e; (x.2.flatMap (leBytes 1), x.1)
  | none =>
    (packBits 8 ((elemCodes l img g).map fp4To8), scaleOf l img g)

/-- Phase Upper of R136: groups whose wide offset lies in the second slot, and the wide scale array. -/
def promoteUpper (p : Profile) (first second : Bytes) : Bytes :=
  let img := savedImage p first second
  let up := (List.range p.N).filter (fun g => 32 * g ≥ 65536)
  let b := up.foldl (fun b g => patch b (32 * g - 65536) (wideForm p img g).1) second
  patch b (32 * p.N - 65536) ((List.range p.N).flatMap (fun g => leBytes 1 (wideForm p img g).2))

/-- Phase Lower: groups of the first slot from `next` down to 0, each read before it is overwritten. -/
def promoteLower (p : Profile) (second : Bytes) : Nat → Bytes → Bytes
  | 0, first => patch first 0 (wideForm p (savedImage p first second) 0).1
  | g + 1, first =>
    promoteLower p second g (if 32 * (g + 1) < 65536 then patch first (32 * (g + 1)) (wideForm p (savedImage p first second) (g + 1)).1 else first)

/-- The append record of the input buffer (R136): MXFP4 groups and scales, candidate bitmap, MXFP8 groups and scales, then the
transcript entry and the largest error (log entry 48). -/
structure AppendRec where
  narrow : List (Bytes × Nat)
  cand : List Bool
  wide : List (Bytes × Nat)
  entry : Nat
  err : Nat
  deriving DecidableEq, Repr

/-- Read it: `k` groups. -/
def appendRec (k : Nat) (b : Bytes) : AppendRec :=
  let o1 := 16 * k
  let o2 := 17 * k
  let o3 := o2 + cdiv k 8
  let o4 := o3 + 32 * k
  { narrow := (List.range k).map (fun i => (slice b (16 * i) 16, rdLe b (o1 + i) 1)),
    cand := (List.range k).map (fun i => (rdLe b (o2 + i / 8) 1).testBit (i % 8)),
    wide := (List.range k).map (fun i => (slice b (o3 + 32 * i) 32, rdLe b (o4 + i) 1)),
    entry := rdLe b (o4 + k) 4, err := rdLe b (o4 + k + 4) 2 }

/-- Write a token's groups in MXFP8 and the header fields, FILL last (R107 actions 4 to 6). -/
def writeWide (p : Profile) (b : Bytes) (t : Nat) (a : AppendRec) : Bytes :=
  let l := p.lay 1
  let b := ((p.slotGroups t).zip a.wide).foldl (fun b x => putGroup l b x.1 x.2.1 x.2.2) b
  finish p l b t a
where
  /-- header fields of an append -/
  finish (p : Profile) (l : Layout) (b : Bytes) (t : Nat) (a : AppendRec) : Bytes :=
    let b := hdPutToken l b t a.entry
    let b := hdPut l b Hd.APPEND_ERR_MAX (max (hdGet l b Hd.APPEND_ERR_MAX) a.err)
    let b := hdPut l b Hd.FILL (t + 1)
    if t + 1 == p.tokensPerPage then hdPut l b Hd.FLAGS (hdGet l b Hd.FLAGS ||| 4) else b

/-- The same in MXFP4, candidates escaped from entry E onwards: image and new ESC_COUNT. -/
def writeNarrow (p : Profile) (b : Bytes) (t e : Nat) (a : AppendRec) : Bytes × Nat :=
  let l := p.lay 0
  let one := fun (s : Bytes × Nat) (x : Nat × (Bytes × Nat) × Bool × (Bytes × Nat)) =>
    if x.2.2.1 then (markEsc l (putEsc l s.1 s.2 x.1 x.2.2.2.2 (x.2.2.2.1.map (·.toNat))) x.1 s.2, s.2 + 1)
    else (putGroup l s.1 x.1 x.2.1.1 x.2.1.2, s.2)
  let r := ((p.slotGroups t).zip (a.narrow.zip (a.cand.zip a.wide))).foldl one (b, e)
  (writeWide.finish p l (hdPut l r.1 Hd.ESC_COUNT r.2) t a, r.2)

/-- A promotion from the phase it stands at (1 saved, 2 upper done, 3 lower done) to its commit; `next` as the progress word has
it. -/
def promoteFrom (p : Profile) (page second t gen phase next : Nat) (a : AppendRec) (b1 b2 : Bytes) : Bytes × Bytes :=
  let b2 := if phase ≤ 1 then promoteUpper p b1 b2 else b2
  let top := min (p.N - 1) 2047
  let b1 := if phase ≤ 2 then promoteLower p b2 (if phase == 2 then min next top else top) b1 else b1
  let hd := slice b2 (saveAt p + (saveParts p).1 + (saveParts p).2.1) 0x4D0
  let w := p.lay 1
  let img := patch (b1 ++ b2) w.header hd
  let img := [(Hd.PAGE_ID, page), (Hd.FORMAT, 1), (Hd.SECOND, second), (Hd.FLAGS, hdGet w img Hd.FLAGS ||| 2), (Hd.PROMOTE_SLOT, t),
    (Hd.ESC_COUNT, 0), (Hd.ESC_CAP, 0), (Hd.GEN, gen)].foldl (fun c f => hdPut w c f.1 f.2) img
  let img := patch (colPut (writeWide p img t a) 0 gen (pageCode 1)) (65536 + progressAt p) (List.replicate 16 0)
  (slice img 0 65536, slice img 65536 65536)

/-- APPEND (R136): one token to the tail page of CMD3; resumes a promotion that was cut short; AUX is the new ESC_COUNT. -/
def execAPPEND (n : Nat) (s : State) : Host.Outcome State Fault Refusal :=
  runProgram 1 n s fun s p _ r =>
    let pr := fun (i : Nat) => r.launch.params.getD i 0
    let page := pr 0 % 2 ^ 40
    let t := pr 1 % 64
    let e := bitsOf (pr 1) 23 8
    let second := pr 2 % 2 ^ 40
    let a := appendRec (2 * p.kvHeads * p.G) ((tGet (s.stack (n / 512)).input (pr 3 % 65536)).getD [])
    let wide : Bool := match s.refOf page with | some q => q.format == 1 | none => false
    let named := match s.refOf page with | some q => if q.format == 1 then q.second else second | none => second
    let grows := !wide && e + (a.cand.filter id).length > (p.lay 0).escCap
    let reads := s.headRead p page (b2n wide)
      ++ s.groupReads p page (b2n wide) (if grows then List.range p.N else p.slotGroups t)
    if !inPair n page || !inPair n second || t ≥ p.tokensPerPage || (grows && s.gen page ≥ 0xFFFFFFFF) then (s, 3, 0)
    else if s.anyHurt reads then (s.noteMedia n reads, 5, 0)
    else
      let b1 := s.hbmRd (slotAddr page) 65536
      let b2 := s.hbmRd (slotAddr named) 65536
      let put := fun (s : State) (c : Bytes × Bytes) => (s.hbmWr (slotAddr page) c.1).hbmWr (slotAddr named) c.2
      let w := slice b2 (progressAt p) 16
      let word := rdLe w 0 8
      if !wide && word % 2 ^ 40 == page && bitsOf word 47 40 == t && bitsOf word 51 48 != 0 && rdLe w 8 4 == s.gen page then
        let s := (s.bumpGen page).bump F.TIER_CNT_PROMOTE_COUNT
        (put s (promoteFrom p page second t (s.gen page) (bitsOf word 51 48) (rdLe w 12 4) a b1 b2), 0, 0)
      else
        let l := p.lay (b2n wide)
        let img := if wide then b1 ++ b2 else b1
        let fill := hdGet l img Hd.FILL
        if fill == t + 1 then (s, 0, hdGet l img Hd.ESC_COUNT)
        else if fill != t then (s, 3, 0)
        else if wide then
          let c := writeWide p img t a
          (put s (slice c 0 65536, slice c 65536 65536), 0, 0)
        else if grows then
          let x := saveParts p
          let save := slice b1 (16 * p.N) (x.1 + x.2.1 + x.2.2) ++ progressWord page t 1 (s.gen page) 0
          let b2 := patch b2 (saveAt p) save
          let s := (s.bumpGen page).bump F.TIER_CNT_PROMOTE_COUNT
          (put s (promoteFrom p page second t (s.gen page) 1 0 a b1 b2), 0, 0)
        else
          let c := writeNarrow p b1 t e a
          ((s.hbmWr (slotAddr page) (slice c.1 0 65536)).bumpBy F.TIER_CNT_ESCAPE_COUNT (c.2 - e), 0, c.2)

/-- AGE (R137): the Y3 image of a full page into the staging slot, in the layout of the 48 KiB class (Table 4.4); code 1 leaves the slot
as it is. -/
def execAGE (n : Nat) (s : State) : Host.Outcome State Fault Refusal :=
  runProgram 2 n s fun s p _ r =>
    let pr := fun (i : Nat) => r.launch.params.getD i 0
    let src := pr 0 % 2 ^ 40
    let dst := pr 1 % 2 ^ 40
    if !inPair n src || !inPair n dst then (s, 3, 0)
    else if s.anyHurt (s.headRead p src 0 ++ s.groupReads p src 0 (List.range p.N)) then
      (s.noteMedia n (s.headRead p src 0 ++ s.groupReads p src 0 (List.range p.N)), 5, 0)
    else match agePage p (s.hbmRd (slotAddr src) 65536) (pr 2 % 65536) (bitsOf (pr 2) 31 16) with
      | .page b err =>
        let s := s.bumpGen dst
        let y := p.lay 2
        let b := hdPut y (hdPut y b Hd.PAGE_ID dst) Hd.GEN (s.gen dst)
        let small := colPut (slice b 0 0xBB20 ++ slice b y.header 0x4D0 ++ List.replicate 16 0) 0 (s.gen dst) (pageCode 2)
        (((s.hbmWr (slotAddr dst) small).bump F.TIER_CNT_AGED_COUNT).bumpBy F.TIER_CNT_ESCAPE_COUNT (hdGet y b Hd.ESC_COUNT), 0, err)
      | .overflow => (s.bump F.TIER_CNT_AGE_REFUSED_COUNT, 1, 0xFFFF)
      | .error err => (s.bump F.TIER_CNT_AGE_REFUSED_COUNT, 1, err)

/-- A heap record (Table 10.5 and after): TAG, entry count, entries of locator and distance. -/
def heapRecord (tag : Nat) (l : List (Nat × Nat)) : Bytes :=
  leBytes 4 tag ++ leBytes 2 l.length ++ leBytes 2 0 ++ l.flatMap (fun x => leBytes 4 x.1 ++ leBytes 4 x.2)

/-- A block scanned (R138): locator and distance of the live vectors that pass the filter and lie below the threshold, and how many
tombstones were skipped. -/
def State.scanBlock (s : State) (fmt dist dim mask value thr : Nat) (qw : List Nat) (d : Bytes) : List (Nat × Nat) × Nat :=
  let blk := s.hbmRd (slotAddr (rdLe d 0 8 % 2 ^ 40)) 65536
  let rb := 64 * rdLe d 0x0E 2
  let ids := List.range (rdLe d 0x0C 2)
  let dead := ids.filter (fun i => (rdLe blk (0x40 + i / 8) 1).testBit (i % 8))
  let live := ids.filter (fun i => !dead.contains i && (rdLe blk (0xC0 + i * rb + 8) 8 &&& mask) == value)
  let hits := live.filterMap fun i =>
    let x := rawDist dist (vecElems fmt dim (blk.drop (0xC0 + i * rb + 16))) qw
    if f32Lt x thr then some (rdLe d 8 4 + i, x) else none
  (hits, dead.length)

/-- The hits of a scan as they leave the heap (R138): for each TAG in turn, in records of 64 entries; the heap is emptied when it holds
512, eight whole records. -/
def heapRecs (l : List (Nat × List (Nat × Nat))) : List Rec :=
  (l.map (·.1)).eraseDups.flatMap fun tag =>
    let hits := (l.filter (·.1 == tag)).flatMap (·.2)
    (chunks 64 (hits.length + 1) hits).map (fun h => Rec.mk 2 tag (heapRecord tag h))

/-- The query of an input-buffer entry as FP32 words. -/
def queryWords (fmt dim : Nat) (q : Bytes) : List Nat :=
  if fmt == 4 then (List.range dim).map (fun i => fp16Word (rdLe q (2 * i) 2)) else (slice q 0 dim).map (fun b => fp8Word b.toNat)

/-- DIST_SCAN (R138): the records of every block the closed work queue names; heap records of up to 64 entries; AUX the tombstones
skipped. -/
def execDIST_SCAN (n : Nat) (s : State) : Host.Outcome State Fault Refusal :=
  if !(s.nbu n).closed then .next s
  else runProgram 3 n s fun s _ v r =>
    let pr := fun (i : Nat) => r.launch.params.getD i 0
    let fmt := pr 0 % 16
    let dist := bitsOf (pr 0) 5 4
    let dim := 8 * bitsOf (pr 0) 17 6
    let thr := v.cmdReg 15 % 2 ^ 32
    let s0 := s.updNbu n (fun v => { v with work := [] })
    let page := fun (d : Bytes) => rdLe d 0 8 % 2 ^ 40
    if !(fmt == 0 || (3 ≤ fmt && fmt ≤ 5)) || dist > 2 || v.work.any (fun d => !inPair n (page d)) then (s0, 3, 0)
    else if s.anyHurt (v.work.flatMap (s.blockReads (pr 1) (pr 2))) then (s0.noteMedia n (v.work.flatMap (s.blockReads (pr 1) (pr 2))), 5, 0)
    else
      let qw := queryWords fmt dim ((tGet (s.stack (n / 512)).input (pr 3 % 65536)).getD [])
      let x := v.work.map (s.scanBlock fmt dist dim (pr 1) (pr 2) thr qw)
      let recs := heapRecs ((v.work.map (fun d => rdLe d 0x10 4)).zip (x.map (·.1)))
      (s0.updStack (n / 512) (fun k => { k with inbox := k.inbox ++ recs }), 0, (x.map (·.2)).sum)

/-- Groups of the head, in row-major numbers, in the order a stripe holds them (R139): every row's segment of chunk 0, then of chunk 1,
and so on; `per` groups a row, `seg` of them a chunk. -/
def stripeOrder (first count per seg : Nat) : List Nat :=
  ((List.range count).map (first + ·)).mergeSort (fun a b => a % per / seg < b % per / seg || (a % per / seg == b % per / seg && a ≤ b))

/-- A row's logit over the groups of it that a stripe covers (R139): MXFP4 weights times the FP8 values of the hidden state, added up in
the NBU's order.  Where a group's elements and its scale lie among the stripe's 17 bytes a group is free (log entry 48). -/
def stripeLogit (stripe : Bytes) (count : Nat) (order : List Nat) (per row : Nat) (h : Bytes) : Nat :=
  Config.accumulate 0 <| (order.zipIdx.filter (fun g => g.1 / per == row)).flatMap fun g =>
    let x := Config.stripeGroup stripe count g.2
    (mxWords mxFp4 x.2 x.1).zip ((slice h (32 * (g.1 % per)) 32).map (fun b => fp8Word b.toNat))

/-- The logit records of a stripe: one per row it covers. -/
def headRecs (p : Profile) (stripe : Bytes) (first count chunks_ vectors : Nat) (hidden : List Bytes) : List Rec :=
  let per := p.hidden / 32
  let order := stripeOrder first count per (max 1 (per / max 1 chunks_))
  let rows := if count == 0 then [] else (List.range ((first + count - 1) / per - first / per + 1)).map (· + first / per)
  rows.map fun row => Rec.mk 1 row (leBytes 4 row ++ leBytes 4 vectors ++ (List.range vectors).flatMap (fun k =>
    leBytes 4 (stripeLogit stripe count order per row (hidden.getD k []))))

/-- HEAD (R139): one FP32 logit per covered row and vector of the NBU's stripe, a record per row.  The hidden states come chunk by chunk:
chunk c, vector after vector, in the input-buffer entry c after the one named (log entry 48). -/
def execHEAD (n : Nat) (s : State) : Host.Outcome State Fault Refusal :=
  runProgram 4 n s fun s p _ r =>
    let pr := fun (i : Nat) => r.launch.params.getD i 0
    let slot := pr 0 % 2 ^ 40
    let first := pr 1 % 2 ^ 32
    let count := bitsOf (pr 1) 55 32
    let vectors := pr 2 % 8 + 1
    let parts := max 1 (pr 4 % 256)
    let dims := p.hidden / parts
    let hidden := (List.range vectors).map fun k => (List.range parts).flatMap fun c =>
      slice ((tGet (s.stack (n / 512)).input (pr 3 % 65536 + c)).getD []) (k * dims) dims
    if !inPair n slot || p.hidden < 32 then (s, 3, 0)
    else if s.hurtAt (slotAddr slot) (17 * count) then (s.noteMedia n [(slotAddr slot, 17 * count)], 5, 0)
    else
      let recs := headRecs p (s.hbmRd (slotAddr slot) (17 * count)) first count parts vectors hidden
      (s.updStack (n / 512) (fun k => { k with inbox := k.inbox ++ recs }), 0, recs.length)

/-- What COPY reads: the header, and the groups it keeps. -/
def State.copyReads (s : State) (p : Profile) (k format tokens : Nat) : List (Nat × Nat) :=
  s.headRead p k format ++ s.groupReads p k format ((List.range p.N).filter (fun g => p.groupSlot g < tokens))

/-- COPY (R140): a page, or its first k tokens, to another slot of the pair; AUX the escape entries kept.  The source's format is its
directory entry's (R102); a slot that no directory names is no page, and the program ends with code 3. -/
def execCOPY (n : Nat) (s : State) : Host.Outcome State Fault Refusal :=
  runProgram 5 n s fun s p _ r =>
    let pr := fun (i : Nat) => r.launch.params.getD i 0
    let src := pr 0 % 2 ^ 40
    let dst := pr 1 % 2 ^ 40
    let second := pr 2 % 2 ^ 40
    let k := bitsOf (pr 2) 45 40
    let fmt := match s.refOf src with | some q => q.format | none => 3
    if !inPair n src || !inPair n dst || fmt > 2 then (s, 3, 0)
    else
      let img := s.imageAt src fmt
      let c := copyPage p fmt img k
      if c.2 == 1 && !inPair n second then (s, 3, 0)
      else if s.anyHurt (s.copyReads p src fmt k) then (s.noteMedia n (s.copyReads p src fmt k), 5, 0)
      else
        let s := if c.2 == 1 then (s.bumpGen dst).bumpGen second else s.bumpGen dst
        let l := p.lay c.2
        let second := if c.2 == 1 then second else 0
        let b := hdPut l (hdPut l (hdPut l c.1 Hd.PAGE_ID dst) Hd.SECOND second) Hd.GEN (s.gen dst)
        let b := colPut b 0 (s.gen dst) (pageCode c.2)
        let ref : PageRef := { layer := 0, index := 0, slot := dst, second := second, format := c.2, fill := 0 }
        (s.putImage ref b, 0, if k ≥ p.tokensPerPage then hdGet l b Hd.ESC_COUNT else if fmt == 2 then 0 else copyKept p fmt img k)

/-! ## Yields, ordinary access, refresh (R142-R145) -/

/-- FORCED_YIELD (R143). -/
def execFORCED_YIELD (n : Nat) (s : State) : Host.Outcome State Fault Refusal :=
  let r := s.yieldAt n
  .next (if r.2 then r.1.bump F.NBU_CNT_FYIELD_COUNT else r.1)

/-- ORDINARY_ACCESS (R142): to the pair of a bank-linear address; waits while a program runs there.  An address of no pair, or of an
absent stack, reads as zero and ignores writes (R119). -/
def execORDINARY_ACCESS (addr : Nat) (data : Option Bytes) (len : Nat) (s : State) : Host.Outcome State Fault Refusal :=
  let n := addr / 2 ^ 27
  let a : Access := { addr := addr, data := data, len := len, since := s.tick, host := false }
  if n ≥ 6144 || !s.stackOn (n / 512) then .next (match data with | some _ => s | none => s.emit (.readData addr (List.replicate len 0)))
  else .next (s.access a)

/-- REFRESH_DUE (R145): performed at once while no program runs, else the bank's debt rises, up to the limit of four. -/
def execREFRESH_DUE (n bank : Nat) (s : State) : Host.Outcome State Fault Refusal :=
  let v := s.nbu n
  if v.run.isNone || bank > 1 then .next s
  else
    let d := min 4 (v.debt.getD bank 0 + 1)
    .next ((s.setNbu n { v with debt := v.debt.set bank d }).maxFld F.NBU_MAX_DEBT_MAX d)

/-! ## Faults (R146-R148) -/

/-- NBU_PARITY_ERROR (R146): `place` 0 operand path, 1 SRAM, 2 micro-operation store; `tries` is the re-read that passed, 1 or 2, or 0
when both failed; `ca` the column. -/
def execNBU_PARITY_ERROR (n place tries ca : Nat) (s : State) : Host.Outcome State Fault Refusal :=
  let v := s.nbu n
  match v.run with
  | none => .next s
  | some r =>
    if place == 0 && tries != 0 then
      .next ((s.setNbu n { v with rereads := sat 8 (v.rereads + min tries 2) }).bump F.NBU_CNT_REREAD_COUNT)
    else if place == 0 then
      .next (((s.setNbu n { v with rereads := sat 8 (v.rereads + 2), cause := 1, ca := ca }).errRecord 3 Ek.NBU_PARITY (errUnit 1 n) ca 0).endRun n 2 0)
    else if place == 1 then
      .next (((s.setNbu n { v with cause := 2 }).errRecord 3 Ek.NBU_PARITY (errUnit 1 n) ca 0).endRun n 2 0)
    else .next (((s.setNbu n { v with cause := 3 }).errRecord 1 Ek.NBU_STORE (errUnit 1 n) r.pc 0).endRun n 6 0)

/-- NBU_UNIT_RESET (R148); `kat` is the outcome of the known-answer test that follows: a failure soft-disables the unit (R147). -/
def execNBU_UNIT_RESET (n : Nat) (kat : Bool) (s : State) : Host.Outcome State Fault Refusal :=
  if !s.nbuOn n then .next s
  else
    let s := (s.resetNbu n).bump F.BOOT_CNT_UNIT_COUNT
    .next (if kat then s else (s.errRecord 3 Ek.KNOWN_ANSWER (errUnit 1 n) 0 0).disableNbu n)

/-! ## Registers of the block (R125, R149) -/

/-- Is an NBU a member of a broadcast group? -/
def State.inGroup (s : State) (n g : Nat) : Bool :=
  g == 255 || [0, 1, 2, 3].any (fun i => (s.nbu n).groups / 256 ^ i % 256 == g)

/-- NBU_BCAST_DATA (R125): a desk core's or the Rind's write reaches every enabled member of the group in the masked stacks; a host's is
ignored and counted. -/
def execNBU_BCAST_DATA (host : Bool) (value : Word) (s : State) : Host.Outcome State Fault Refusal :=
  if host then .next s.regAccErr
  else
    let g := s.fld F.NBU_BCAST_SEL_GROUP
    let r := s.fld F.NBU_BCAST_SEL_REG
    let m := s.fld F.NBU_BCAST_SEL_STACK_MASK
    let ns := (List.range 6144).filter (fun n => m.testBit (n / 512) && s.nbuOn n && s.inGroup n g)
    .next (ns.foldl (fun s n => s.nbuWrite n r value.toNat) s)

/-- NBU_MAX_CLR (R149). -/
def execNBU_MAX_CLR (s : State) : Host.Outcome State Fault Refusal := .next (s.setReg A.NBU_MAX 0)

end Sys2Proof.Machine
end

