-- ==== Sys2Proof/Machine/UnitFrame.lean ====
section
/-!
DEFINITION. Units by the UNIT code of error records (Table 13.5, R430): presence, counts, floors, reset and soft disable; what
the variants of the device have (R21, R405, R410).
-/

namespace Sys2Proof.Machine

/-! ## Variants (R21, Table 16.3, Table 16.5) -/

/-- Blow fuse bits. -/
def State.blow (s : State) (as : List Nat) : State :=
  as.foldl (fun s a => { s with fuses := tPut s.fuses (a / 64) (s.fuse (a / 64) ||| 2 ^ (a % 64)) }) s

/-- Set bits of a number below `n`. -/
def popBits (v n : Nat) : Nat := ((List.range n).filter v.testBit).length

/-- Clusters, stacks (and cellar channels), ports of a variant. -/
def clusterMask (v : Nat) : Nat := if v == 0 then 0xFFFF else if v == 1 then 0x3F3F else 0x00FF
def stackMask (v : Nat) : Nat := if v == 0 then 0xFFF else if v == 1 then 0x3CF else 0x03F
def portMask (v : Nat) : Nat := if v == 0 then 0xFF else if v == 1 then 0x3F else 0x0F

/-- DEVICE_CODE of a variant. -/
def deviceCode (v : Nat) : Nat := if v == 0 then 0x7680 else if v == 1 then 0x5120 else 0x3840

/-- Floors of a variant: MEs, tidy cores, NBUs, text units, samplers, grammar mask units, GCM engines (Table 16.5). -/
def floors (v : Nat) : List Nat :=
  if v == 0 then [120, 240, 6048, 12, 24, 12, 10] else if v == 1 then [90, 180, 4032, 9, 18, 9, 8] else [60, 120, 3024, 6, 12, 6, 6]

/-- Floor `i` of the device's own variant. -/
def State.floorOf (s : State) (i : Nat) : Nat := (floors s.variant).getD i 0

/-- The word that holds six counts at their places in DEV_CAP1. -/
def countsWord (l : List Nat) : Nat :=
  l.getD 0 0 * 2 ^ 56 + l.getD 1 0 * 2 ^ 47 + l.getD 2 0 * 2 ^ 34 + l.getD 3 0 * 2 ^ 29 + l.getD 4 0 * 2 ^ 23 + l.getD 5 0 * 2 ^ 18

/-- Partition of a cluster, of a stack or cellar channel (R24). -/
def clusterPart (c : Nat) : Nat := c / 8
def stackPart (k : Nat) : Nat := k / 6

/-! ## Units -/

/-- Where a text unit, sampler or grammar mask unit (kinds 0 to 2) has its register. -/
def textIndex (kind i : Nat) : Option Nat :=
  if kind == 0 then (if i < 16 then some i else none)
  else if kind == 1 then (if i < 32 then some (16 + i) else none)
  else if i < 16 then some (48 + i) else none

/-- Where a CRC unit, scan engine or XTS engine (kinds 4 to 6) has its register. -/
def chkIndex (kind i : Nat) : Option Nat :=
  if kind == 4 then (if i < 4 then some i else none)
  else if kind == 5 then (if i < 1 then some 4 else none)
  else if i < 4 then some (5 + i) else none

/-- State code of a unit as this model counts it: 0 absent, 1 disabled, 2 in service or able to serve. -/
def unitCode (state : Nat) : Nat := if state ≥ 2 then 2 else state

/-- Is tidy core n (17 per cluster) marked defective, as read at boot (R397)? -/
def State.tidyMarked (s : State) (n : Nat) : Bool := s.boot.tidyMarks.contains n

/-- Tidy cores of a cluster in service: at most 16 of those neither marked nor failed (R406). -/
def State.tidyOf (s : State) (c : Nat) : Nat :=
  if !s.clusterOn c then 0
  else min 16 ((List.range 17).filter (fun i => !s.tidyMarked (17 * c + i) && !s.boot.tidyOff.contains (17 * c + i))).length

/-- Presence of a unit: 0 absent, 1 soft-disabled or failed, 2 on. -/
def State.unitState (s : State) (u : Nat) : Nat :=
  let n := u % 8192
  match u / 8192 with
  | 1 => if n ≥ 6144 || !(s.reg (A.NBU_EN + 8 * (n / 64))).toNat.testBit (n % 64) then 0 else if s.nbuOn n then 2 else 1
  | 2 => if n ≥ 132 then 0 else unitCode (s.fld (F.ME_UNIT_STATE.at (8 * n)))
  | 3 => if n ≥ 272 || !s.clusterOn (n / 17) || s.tidyMarked n then 0 else if s.boot.tidyOff.contains n then 1 else 2
  | 4 => if n ≥ 80 then 0 else (match s.fld (F.ERR_LINK_STATE.at (8 * n)) with | 3 => 0 | 2 => 1 | _ => 2)
  | 5 => if s.channelOn n then 2 else 0
  | 6 => if s.stackOn n then 2 else 0
  | 7 =>
    let i := n % 256
    match n / 256 with
    | 3 => if i ≥ 8 then 0 else if (s.fld F.RIND_WDOG_DESK_DISABLED).testBit i then 1 else 2
    | 7 => if s.clusterOn i then 2 else 0
    | k =>
      if k ≤ 2 then (match textIndex k i with | some r => unitCode (s.fld (F.TEXT_UNIT_STATE.at (8 * r))) | none => 0)
      else if k ≤ 6 then (match chkIndex k i with | some r => unitCode (s.fld (F.CHK_UNIT_STATE.at (8 * r))) | none => 0)
      else 0
  | _ => 0

/-- Units of a unit's kind in service. -/
def State.unitCount (s : State) (u : Nat) : Nat :=
  let on := fun (f : Fld) (first n : Nat) => ((List.range n).filter (fun i => s.fld (f.at (8 * (first + i))) ≥ 2)).length
  match u / 8192 with
  | 1 => s.fld F.DEV_CAP1_NBU_COUNT
  | 2 => s.fld F.DEV_CAP1_ME_COUNT
  | 3 => s.fld F.DEV_CAP1_TIDY_COUNT
  | 7 =>
    match u % 8192 / 256 with
    | 0 => s.fld F.DEV_CAP1_TEXT_COUNT
    | 1 => s.fld F.DEV_CAP1_SAMPLER_COUNT
    | 2 => s.fld F.DEV_CAP1_GRAMMAR_COUNT
    | 3 => 8 - popBits (s.fld F.RIND_WDOG_DESK_DISABLED) 8
    | 4 => on F.CHK_UNIT_STATE 0 4
    | 5 => on F.CHK_UNIT_STATE 4 1
    | 6 => on F.CHK_UNIT_STATE 5 4
    | _ => 0
  | _ => 0

/-- Floor of a unit's kind (Table 16.5); the scan engine has none. -/
def State.unitFloor (s : State) (u : Nat) : Nat :=
  match u / 8192 with
  | 1 => s.floorOf 2
  | 2 => s.floorOf 0
  | 3 => s.floorOf 1
  | 7 =>
    match u % 8192 / 256 with
    | 0 => s.floorOf 3
    | 1 => s.floorOf 4
    | 2 => s.floorOf 5
    | 3 => 6
    | 4 => 2
    | 6 => 3
    | _ => 0
  | _ => 0

/-- A count that DEV_CAP1 does not hold has fallen: below its floor the device goes on and says so (R411). -/
def State.noteBelow (s : State) (u : Nat) : State :=
  let st := s.fld F.BOOT_STATE_STATE
  if (st == 4 || st == 5 || st == 6) && s.unitCount u + 1 == s.unitFloor u then
    (s.setFld F.BOOT_STATE_BELOW_FLOOR 1).errRecord 3 Ek.UNIT_DISABLED 0 0 0
  else s

/-- Soft-disable a tidy core: the cluster's seventeenth takes its place while it has one (R406). -/
def State.disableTidy (s : State) (n : Nat) : State :=
  let before := s.tidyOf (n / 17)
  let s := ({ s with boot := { s.boot with tidyOff := s.boot.tidyOff ++ [n] } }).errRecord 3 Ek.UNIT_DISABLED (errUnit 3 n) 0 0
  if s.tidyOf (n / 17) < before then s.dropUnit F.DEV_CAP1_TIDY_COUNT else s

/-- Without a scan engine no scan can be made (R333). -/
def State.failScans (s : State) : State :=
  s.scans.foldl (fun s k => s.finish Op.CHK_SCAN k.slip (Answer.st St.UNIT_FAILED)) { s with scans := [], scanning := false }

/-- Soft-disable a unit that is on (R430, R227, R369, R409): what it worked on is reissued; the record is class 3. -/
def State.disableUnit (s : State) (u : Nat) : State :=
  let n := u % 8192
  let i := n % 256
  if s.unitState u != 2 then s
  else match u / 8192 with
  | 1 => s.disableNbu n
  | 2 => s.disableMe n
  | 3 => s.disableTidy n
  | 7 =>
    let s1 := s.errRecord 3 Ek.UNIT_DISABLED u 0 0
    match n / 256 with
    | 3 => (s1.setFld F.RIND_WDOG_DESK_DISABLED (s1.fld F.RIND_WDOG_DESK_DISABLED ||| 2 ^ i)).noteBelow u
    | 7 => s
    | k =>
      if k ≤ 2 then match textIndex k i with
        | some r => (s1.setFld (F.TEXT_UNIT_STATE.at (8 * r)) 1).dropUnit
            (if k == 0 then F.DEV_CAP1_TEXT_COUNT else if k == 1 then F.DEV_CAP1_SAMPLER_COUNT else F.DEV_CAP1_GRAMMAR_COUNT)
        | none => s
      else match chkIndex k i with
        | some r =>
          let s1 := (s1.setFld (F.CHK_UNIT_STATE.at (8 * r)) 1).noteBelow u
          if k == 5 then s1.failScans else s1
        | none => s
  | _ => s

/-- Can a unit be soft-disabled at all: NBU, ME, tidy core, or kinds 0 to 6 of type 7 (R430)? -/
def disablable (u : Nat) : Bool := u / 8192 == 1 || u / 8192 == 2 || u / 8192 == 3 || (u / 8192 == 7 && u % 8192 / 256 ≤ 6)

/-- Can a unit be reset on its own (Table 16.6)? -/
def resettable (u : Nat) : Bool := u / 8192 == 1 || u / 8192 == 2 || u / 8192 == 3 || (u / 8192 == 7 && u % 8192 / 256 ≤ 3)

/-- UNIT of a cluster (R430). -/
def clusterUnit (c : Nat) : Nat := errUnit 7 (7 * 256 + c)

/-- A unit reset above those of NBUs (Table 16.6): counted; a tidy core's is remembered for its cluster. -/
def State.resetUnit (s : State) (u : Nat) : State :=
  let n := u % 8192
  match u / 8192 with
  | 1 => (s.resetNbu n).bump F.BOOT_CNT_UNIT_COUNT
  | 2 => s.resetMe n true
  | 3 =>
    let s := s.bump F.BOOT_CNT_UNIT_COUNT
    { s with boot := { s.boot with tidyResets := s.boot.tidyResets.filter (fun t => s.tick < t.2 + 100000000) ++ [(n / 17, s.tick)] } }
  | _ => (if n / 256 == 3 then s.bumpSat F.RIND_WDOG_DESK_RESETS else s).bump F.BOOT_CNT_UNIT_COUNT

end Sys2Proof.Machine
end

