-- ==== Sys2Proof/Machine/HdmFrame.lean ====
section
/-!
DEFINITION. Device memory as the host and the scan engine address it: HDM0's interleave over HBM, the cellar above it, HDM1
(R119-R122, R438, R439).
-/

namespace Sys2Proof.Machine

/-- Enabled stacks and cellar channels, ascending. -/
def State.stackList (s : State) : List Nat := (List.range 12).filter s.stackOn
def State.channelList (s : State) : List Nat := (List.range 12).filter s.channelOn

/-- Bytes of HBM that HDM0 reaches, of the trained cellar, and of HDM1 in every variant (R434). -/
def State.hbmBytes (s : State) : Nat := s.stackList.length * 2 ^ 36
def State.cellarBytes (s : State) : Nat := s.fld F.TIER_CAP_CELLAR_GIB * 2 ^ 30
def hdm1Bytes : Nat := 12 * 2 ^ 36

/-- Range size of an HDM space: HDM0 (R434) or HDM1. -/
def State.hdmSize (s : State) (hdm1 : Bool) : Nat := if hdm1 then hdm1Bytes else s.hbmBytes + s.cellarBytes

/-- Bank-linear address of an HDM0 offset below the HBM part (R120, R118). -/
def State.hdm0Hbm (s : State) (a : Nat) : Nat :=
  let l := s.stackList
  let n := l.length
  let z := if n == 6 then 2 else 4
  let g := a / 256
  let o := a % 256
  let s0 := g % n
  let q := g / n
  let row := (q >>> 13) % 2 ^ 15
  let c := (q % 32) ^^^ (row % 32)
  let pc := ((q >>> 5) % 2) ^^^ ((row >>> 5) % 2)
  let bpi := ((q >>> 6) % 8) ^^^ ((row >>> 6) % 8)
  let bank := ((q >>> 9) % 2) ^^^ ((row >>> 9) % 2)
  let st := z * (s0 / z) + ((s0 % z) ^^^ ((row >>> 10) % z))
  let stack := l.getD st 0
  let column := ((q >>> 10) % 8) * 4 + o / 64
  let nbu := stack * 512 + c / 2 * 32 + (c % 2) * 16 + pc * 8 + bpi
  nbu * 2 ^ 27 + bank * 2 ^ 26 + row * 2 ^ 11 + column * 2 ^ 6 + o % 64

/-- What an offset of an HDM space reaches: HBM by bank-linear address, the cellar by cellar offset, or nothing. -/
inductive Spot where
  | hbm (a : Nat)
  | cellar (c : Nat)
  | nothing
  deriving DecidableEq, Repr

/-- Where an offset leads (R119, R120, R438). -/
def State.spot (s : State) (hdm1 : Bool) (a : Nat) : Spot :=
  if hdm1 then (if a < hdm1Bytes && s.stackOn (a / 2 ^ 36) then .hbm a else .nothing)
  else if a < s.hbmBytes then .hbm (s.hdm0Hbm a)
  else if a - s.hbmBytes < s.cellarBytes then .cellar (a - s.hbmBytes)
  else .nothing

/-- The byte at an offset; absent stacks read as zero (R119). -/
def State.hdmByte (s : State) (hdm1 : Bool) (a : Nat) : Byte :=
  match s.spot hdm1 a with
  | .hbm b => sGet (fun _ => 0) s.hbm b
  | .cellar c => sGet (fun _ => 0) s.cellar c
  | .nothing => 0

/-- Write a byte at an offset; absent stacks ignore it (R119). -/
def State.hdmPut (s : State) (hdm1 : Bool) (a : Nat) (v : Byte) : State :=
  match s.spot hdm1 a with
  | .hbm b => { s with hbm := sSet (fun _ => 0) s.hbm b v }
  | .cellar c => { s with cellar := sSet (fun _ => 0) s.cellar c v }
  | .nothing => s

/-- Bytes at an offset. -/
def State.hdmRead (s : State) (hdm1 : Bool) (a n : Nat) : Bytes := (List.range n).map (fun i => s.hdmByte hdm1 (a + i))

/-- The mark of the line an offset lies in: 0 HBM, 1 cellar, and the line. -/
def State.lineOf (s : State) (hdm1 : Bool) (a : Nat) : Option (Nat × Nat) :=
  match s.spot hdm1 a with
  | .hbm b => some (0, b / 64)
  | .cellar c => some (1, c / 64)
  | .nothing => none

/-- Is the line at an offset marked as damaged (R330)? -/
def State.lineHurt (s : State) (hdm1 : Bool) (a : Nat) : Bool :=
  match s.lineOf hdm1 a with
  | some l => s.errs.poison.contains l
  | none => false

/-- Host-visible regions: the plan's while a bundle is loaded, else both spaces whole (R122, R439). -/
def State.visible (s : State) : List Range :=
  match s.profile with
  | some p => if s.loaded then p.visible.take 16 else []
  | none => [{ space := 0, base := 0, size := s.hdmSize false }, { space := 1, base := 0, size := s.hdmSize true }]

/-- Is an offset host-visible? -/
def State.visibleAt (s : State) (hdm1 : Bool) (a : Nat) : Bool :=
  s.visible.any (fun r => r.space == b2n hdm1 && r.base ≤ a && a < r.base + r.size)

/-- Is a range wholly host-visible?  Regions are multiples of 2 MiB (R439). -/
def State.visibleRange (s : State) (hdm1 : Bool) (a n : Nat) : Bool :=
  let first := a / 2 ^ 21
  (List.range ((a + n - 1) / 2 ^ 21 + 1 - first)).all (fun k => s.visibleAt hdm1 ((first + k) * 2 ^ 21))

/-- Does a range reach an absent stack, or a cellar channel that is not there (R344)? -/
def State.absentRange (s : State) (hdm1 : Bool) (a n : Nat) : Bool :=
  if hdm1 then (List.range 12).any (fun k => !s.stackOn k && a < (k + 1) * 2 ^ 36 && k * 2 ^ 36 < a + n)
  else a + n > s.hdmSize false

end Sys2Proof.Machine
end

