-- ==== Sys2Proof/Machine/ResetFrame.lean ====
section
/-!
DEFINITION. What resets do (R318, R319, R335, R417-R419, Table 13.4): sessions that lose their T1 pages or their entry, truncation,
partition resets, and what a device reset keeps.
-/

namespace Sys2Proof.Machine

/-! ## Sessions that lose what T1 held (R419 step 5) -/

/-- Held slips of a session whose revive, or whose park, is abandoned are answered. -/
def State.answerHeld (s : State) (acc : Nat) (a : Answer) : State :=
  let go := s.held.filter (fun h => h.2 == .revive acc || h.2 == .park acc)
  let s := { s with held := s.held.filter (fun h => !(h.2 == .revive acc || h.2 == .park acc)) }
  go.foldl (fun s h => s.finish h.1.op.toNat h.1.slip a) s

/-- Whatever keeps a session in T1 ends: an open step of its own, a prefill, a revive with its reservation, a commit, its pages, a
held group (R357). -/
def State.leaveT1 (s : State) (i : Nat) : State :=
  let acc := (s.sess i).accession
  let s := (s.steps.filter (fun t => t.2.rows.any (fun r => r.idx == i))).foldl (fun s t => s.abandonStep t.1) s
  let s := ((s.dropPrefill i).unreserve i).dequeue i
  let goal := match tGet s.revives i with | some r => if r.phase == 3 || r.phase == 9 then r.goal else 0 | none => 0
  let s := s.updSess i fun e =>
    { e with pending := e.pending - (goal - e.kvLength), kvLength := max e.kvLength goal, parking := 0, cancel := false }
  let s := { s with revives := tDel s.revives i, commits := tDel s.commits i }
  let s := s.dropPages i
  let e := s.sess i
  let s := if e.heldGroups.isEmpty then s
    else if e.attached then s.setRing e.ring { s.ring e.ring with discarded := (s.ring e.ring).discarded + e.heldGroups.length } else s
  let s := s.updSess i (fun e => { e with heldGroups := [], heldFinal := false, heldRecord := false })
  (s.answerHeld acc (Answer.st St.NOT_READY 3)).answerWaiters Op.SESS_PARK acc (Answer.st St.NOT_READY 3)

/-- The request record of a session is lost; its request ends when the session is next hot (R224). -/
def Sess.loseRequest (e : Sess) : Sess :=
  { e with req := if e.armed then some { stops := [], maxTokens := 0, sampled := 0, heldBack := [], stack := [], cands := [], stopInclude := false, lost := true }
                  else none }

/-- A session homed in a partition that is reset takes its place (R419). -/
def State.placeCold (s : State) (i : Nat) : State :=
  let st := (s.sess i).state
  if st == Ss.PREEMPTED then (s.dropPages i).updSess i Sess.loseRequest
  else if st == Ss.PREFILL || st == Ss.DECODE || st == Ss.WAITING || st == Ss.RING_FULL || st == Ss.REVIVING then
    let s := (s.leaveT1 i).updSess i Sess.loseRequest
    let e := s.sess i
    if e.shelfGen != 0 then
      let kv := match e.manifest with | some m => m.length | none => e.shelvedLength
      let s := s.updSess i fun e =>
        { e with tier := max e.holderTier1 2, pending := e.pending + (e.kvLength - kv), kvLength := kv, shelvedLength := kv }
      (s.enter i Ss.PARKED).passOn i
    else (s.updSess i (fun e => { e with tier := 0, rebuild := true })).enter i Ss.TRANSCRIPT_ONLY
  else s

/-! ## Entries and pages that cannot be corrected (Table 13.4, R335) -/

/-- A session-table entry cannot be corrected: the canonical entry of the newest acknowledged manifest head, else the newest sealed
checkpoint's record, gives it back in its place of Table 12.6; without either the number becomes unknown. -/
def State.entryLost (s : State) (i : Nat) (kind unit address : Nat) : State :=
  match tGet s.sessions i with
  | none => s
  | some e0 =>
    let s := (s.leaveT1 i).setLog i 0
    let e := s.sess i
    let put := fun (s : State) (v : Sess) =>
      let v := { v with entered := s.tick, reached := s.tick, ring := e.ring, attached := e.attached }
      let s := { s with sessions := tPut s.sessions i { v with deadline := 0, entryGen := (e.entryGen + 1) % 2 ^ 32 } }
      (s.updSess i (fun x => { x with deadline := s.deadlineOf x })).errRecord 1 kind unit address e.accession
    match e.manifest with
    | some m =>
      let v := (e.canonical false).restored (s.keptUnits e.accession)
      put s { v with kvLength := m.length, shelvedLength := m.length, pending := 0, awayLen := m.transcriptLen, transcript := [], maskLog := [],
                     holder1 := e.holder1, holder2 := e.holder2, holderTier1 := e.holderTier1, holderTier2 := e.holderTier2,
                     tier := max e.holderTier1 2 }
    | none =>
      match s.newestSnapshot.bind (fun k => k.sessions.find? (fun p => p.2.accession == e.accession)) with
      | some p => put s (p.2.restored (s.keptUnits e.accession))
      | none =>
        let s := ((s.dropDown i).detachRing i).errRecord 2 kind unit address e0.accession
        let s := { s with text := tDel s.text i, moves := tDel s.moves i }
        (s.freeSess i).release (fun h => match h with | .step a => a == e0.accession | .locate a => a == e0.accession | _ => false)

/-- A session whose KV pages from position `f` on are lost (R335): it leaves its step, is cut to `f`, and prefills the rest again in
the tail phase of a revive; then it returns to the state it was in (log entry 66). -/
def State.truncateKv (s : State) (i f : Nat) : State :=
  match s.profile with
  | none => s
  | some p =>
    let s := (s.steps.filter (fun t => t.2.rows.any (fun r => r.idx == i))).foldl (fun s t => s.abandonStep t.1) s
    let e := s.sess i
    if e.kvLength ≤ f then s
    else
      let goal := match tGet s.revives i with | some r => max r.goal e.kvLength | none => e.kvLength
      let fresh := (tGet s.revives i).isNone
      let s := ((s.dropPrefill i).dequeue i).cutKv p i f
      let s := s.updSess i fun e =>
        { e with kvLength := f, pending := e.pending + (e.kvLength - f), state := Ss.REVIVING, resume := if fresh then e.state else e.resume,
                 entered := s.tick, deadline := 0 }
      let r := (tGet s.revives i).getD { Revive.start 9 goal 0 with asked := [] }
      let s := { s with revives := tPut s.revives i { r with goal := goal } }
      s.enqueueTail i goal

/-! ## Activities (R424-R426) -/

/-- The opcode whose slip an activity answers. -/
def activityOp (a : Nat) : Nat :=
  if a == Ac.PATROL then Op.MAINT_PATROL else if a == Ac.RETRAIN then Op.MAINT_RETRAIN else Op.MAINT_ROW_REPAIR

/-- A retrain is over: accesses of its stack go on, steps too when no other stack is retrained (R425). -/
def State.retrained (s : State) (a : Activity) : State :=
  if a.activity != Ac.RETRAIN || a.scope != 2 then s
  else
    let s := ((s.nbus.filter (fun v => v.1 / 512 == a.index && v.2.run.isNone && !v.2.waiting.isEmpty)).map (·.1)).foldl
      (fun s n => s.serve n (s.nbu n).waiting.length) s
    if s.stackRetrains then s else s.release (fun h => h == .retrain)

/-- An activity is over: its lock with it, its slip answered, and an unlock that waited for it. -/
def State.endAct (s : State) (a : Activity) (ans : Answer) : State :=
  let s := { s with boot := { s.boot with acts := s.boot.acts.filter (fun x => x.lock != a.lock) } }
  let s := (s.retrained a).endActivity a.lock
  let s := (s.slips.filter (fun o => o.op == Op.MAINT_UNLOCK && o.stage == .waiting && bitsOf o.slip.P0 15 0 == a.lock)).foldl
    (fun s o => s.finish Op.MAINT_UNLOCK o.slip (Answer.ok)) s
  match a.slip with
  | some x => s.finish (activityOp a.activity) x ans
  | none => s

/-- Does an activity lie on a partition's stacks or channels? -/
def Activity.inPart (a : Activity) (p : Nat) : Bool := ((a.scope == 2 || a.scope == 3) && stackPart a.index == p) || a.scope == 1

/-! ## Partition reset (R419) -/

/-- Set DEV_PART of a partition. -/
def State.setPart (s : State) (p v : Nat) : State := s.setFld (if p == 0 then F.DEV_PART_WEST else F.DEV_PART_EAST) v

/-- Note the last reset above unit scope. -/
def State.noteReset (s : State) (scope cause tick : Nat) : State :=
  ((s.setFld F.BOOT_RESET_SCOPE scope).setFld F.BOOT_RESET_CAUSE cause).setFld F.BOOT_RESET_TICK tick

/-- A partition is reset (R419): open steps are abandoned, entries in `lost` were not written back in time, what runs in it ends, and
the sessions homed there take their places; DEV_PART reads RESETTING until it is ACTIVE again. -/
def State.resetPartition (s : State) (p cause : Nat) (lost : List Nat) : State :=
  let s := ((s.abandonSteps none).setPart p 4).noteReset 2 cause s.tick
  let s := s.bump F.BOOT_CNT_PARTITION_COUNT
  let s := (s.boot.acts.filter (·.inPart p)).foldl (fun s a =>
    (s.endAct a (Answer.st St.NOT_READY 3)).dropLocks (fun l => l.id == a.lock)) s
  let s := { s with nbus := s.nbus.filter (fun v => stackPart (v.1 / 512) != p), dieTab := s.dieTab.filter (fun v => stackPart v.1 != p),
                    boot := { s.boot with clusters := s.boot.clusters.filter (fun c => clusterPart c != p) } }
  let s := s.takeBack (fun e => mePart e == p)
  let s := (lost.filter (fun i => s.home i == p)).foldl (fun s i => s.entryLost i Ek.SRAM_UE 0 0) s
  ((s.sessions.filter (fun q => s.home q.1 == p)).map (·.1)).foldl State.placeCold s

/-! ## Device reset (R318, Table 12.5) -/

/-- Registers kept across a warm restart: the audit's last violation and count, debug unlock, lockstep counts (Tables 14.6, 15.15,
15.17), and which reference clocks are lost (R448). -/
def State.keepWarm (s r : State) : State :=
  let r := (r.setReg A.RIND_AUDIT_LAST (s.reg A.RIND_AUDIT_LAST)).setReg A.RIND_AUDIT_CNT_VIOL (s.reg A.RIND_AUDIT_CNT_VIOL)
  let r := (r.setReg A.RIND_LOCKSTEP (s.reg A.RIND_LOCKSTEP)).setReg A.BOOT_CNT_WARM (s.reg A.BOOT_CNT_WARM)
  let r := r.setReg A.CXL_REFCLK (s.reg A.CXL_REFCLK)
  r.setFld F.SEC_STATE_DEBUG_UNLOCKED (s.fld F.SEC_STATE_DEBUG_UNLOCKED)

/-- The machine after a device reset: what lies outside the device, in fuses and in flash stays; a warm one keeps T2 too.  Slips in
flight are gone without a reply (R44). -/
def State.afterReset (s : State) (cold : Bool) : State :=
  let r : State :=
    { State.reset with
      pending := s.pending, outbox := s.outbox, freeCtr := s.freeCtr, nextTag := s.nextTag, fuses := s.fuses, principals := s.principals,
      membership := s.membership, genFloor := s.genFloor, flash := { s.flash with jobs := [] },
      shelf := s.shelf.filter (fun o => !cold || o.tier == 3), cellar := if cold then [] else s.cellar,
      tenants := if cold then [] else (s.tenants.filter (fun (t : Nat × Tenant) => t.2.sealedErase)).map
        (fun (t : Nat × Tenant) => (t.1, { Tenant.fresh with sealedErase := true })),
      cat := { Cat.empty with loc := if cold then [] else s.cat.loc },
      errs := { Errs.empty with sticky := if cold then [] else s.errs.sticky,
                                poison := if cold then [] else s.errs.poison.filter (fun l => l.1 == 1) },
      sec := { Sec.fresh with chain1 := s.sec.chain1, confNext := s.sec.confNext, jumper := s.sec.jumper
                              rindResets := if cold then [] else s.sec.rindResets.map (fun (t : Int) => t - (s.tick : Int)) },
      boot := { Boot.fresh with katFailed := s.boot.katFailed, hold := s.boot.hold, repairs := s.boot.repairs, owed := !cold && s.boot.owed },
      ckpt := { Ckpt.fresh with
        no := s.ckpt.no, mirrored := s.ckpt.mirrored, mirrors := if cold then [] else s.ckpt.mirrors,
        removed := if cold then [] else s.ckpt.removed.map (fun (v : Nat × Nat) => (v.1, 0)),
        press := { s.ckpt.press with found := false, fails := 0, writes := [] } } }
  let r := if cold then r else s.keepWarm r
  let unsealed : Bool := match s.ckpt.run with | some k => !k.isSealed | none => false
  if unsealed || s.phase == 1 then r.setFld F.CKPT_STATUS_LAST_ABANDON 5 else r

/-- A warm restart begins (R318): STATE RESETTING, and nothing in flight is answered. -/
def State.beginWarm (s : State) (cause : Nat) : State :=
  (((s.afterReset false).bump F.BOOT_CNT_WARM_COUNT).noteReset 1 cause 0).setFld F.BOOT_STATE_STATE 7

/-- A cold reset, held for a reason (0 none).  Which reference clocks are lost is live state (R448); without power it starts anew. -/
def State.coldReset (s : State) (hold : Nat) : State :=
  let r := s.afterReset true
  let r := if hold == 1 then r else r.setReg A.CXL_REFCLK (s.reg A.CXL_REFCLK)
  { r with boot := { r.boot with hold := hold } }

/-- An error of class DEVICE (Table 13.3): its record, then a warm restart. -/
def State.deviceError (s : State) (kind unit address acc : Nat) : State := (s.errRecord 5 kind unit address acc).beginWarm 6

/-- Measurement 5, 6 or 7 has changed: every secure session ends (R375). -/
def State.measured (s : State) : State :=
  { s.bump F.SEC_SPDM_MEAS_CHANGES with sec := { s.sec with spdm := [] } }

end Sys2Proof.Machine
end

