-- ==== Sys2Proof/Machine/Errors.lean ====
section
/-!
DEFINITION. Errors as they are found (R328-R337, Tables 13.2 to 13.4), error registers, and violations of conserved quantities
(R359-R363).
-/

namespace Sys2Proof.Machine

/-! ## Links (R328, R329) -/

/-- STATE of a link: 0 UP, 1 RETRAINING, 2 FAILED, 3 ABSENT. -/
def State.linkState (s : State) (l : Nat) : Nat := if l < 80 then s.fld (F.ERR_LINK_STATE.at (8 * l)) else 3

/-- LINK_PARITY_ERROR: a word is replayed; nothing but the counts changes (R328). -/
def execLINK_PARITY_ERROR (link : Nat) (s : State) : Host.Outcome State Fault Refusal :=
  if s.linkState link == 0 then .next ((s.bump F.ERR_CNT_REPLAY_COUNT).bumpSat (F.ERR_LINK_REPLAYS.at (8 * link)))
  else .next s

/-- The partition that the failure of a link resets (Table 13.2). -/
def State.linkPart (s : State) (l : Nat) : Option Nat :=
  if l < 64 then none
  else if l < 66 then (if s.linkState (if l == 64 then 65 else 64) ≥ 2 then some 1 else none)
  else if l < 68 then some (l - 66)
  else some (stackPart (l - 68))

/-- A link becomes FAILED (R329, Table 13.2); the failure of the link that caused a partition's reset, while that is under way, leaves
the partition FAULTED. -/
def State.linkFailed (s : State) (l : Nat) : State :=
  let part := s.linkPart l
  let s := ((s.setFld (F.ERR_LINK_STATE.at (8 * l)) 2).bump F.ERR_CNT_LINK_FAIL_COUNT).errRecord (if part.isSome then 4 else 3)
    Ek.LINK_FAILED (errUnit 4 l) 0 0
  match part with
  | none => s
  | some p =>
    if s.part p == 4 then (if tGet s.boot.partLink p == some l then s.setPart p 5 else s)
    else if s.part p == 3 then
      let s := s.resetPartition p 5 []
      { s with boot := { s.boot with partLink := tPut s.boot.partLink p l } }
    else s

/-- LINK_RETRAIN: replays of a word are exhausted; the link retrains, or fails at the second time within 1 s (R329). -/
def execLINK_RETRAIN (link word : Nat) (s : State) : Host.Outcome State Fault Refusal :=
  if s.linkState link != 0 then .next s
  else
    let again : Bool := match tGet s.errs.exhausted link with | some t => decide (s.tick < t + 100000000) | none => false
    let s := s.errRecord 1 Ek.LINK_REPLAY_EXHAUSTED (errUnit 4 link) word 0
    let s := s.updErrs (fun e => { e with exhausted := tPut e.exhausted link s.tick })
    if again then .next (s.linkFailed link)
    else .next (((s.setFld (F.ERR_LINK_STATE.at (8 * link)) 1).bump F.ERR_CNT_RETRAIN_COUNT).bumpSat (F.ERR_LINK_RETRAINS.at (8 * link)))

/-- LINK_RETRAIN_DONE: the link is up again and its sender resends, or it fails (R329). -/
def execLINK_RETRAIN_DONE (link : Nat) (ok : Bool) (s : State) : Host.Outcome State Fault Refusal :=
  if s.linkState link != 1 then .next s
  else if ok then .next (s.setFld (F.ERR_LINK_STATE.at (8 * link)) 0)
  else .next (s.linkFailed link)

/-! ## Uncorrectable errors (R330, R334, R335) -/

/-- Mark a 64-byte line as poisoned: 0 HBM, 1 cellar (R330). -/
def State.poisonLine (s : State) (mem addr : Nat) : State :=
  let l := (mem, addr / 64)
  if mem ≥ 2 || s.errs.poison.contains l then s else s.updErrs (fun e => { e with poison := e.poison ++ [l] })

/-- Cellar channel of a cellar offset (R438). -/
def State.channelAt (s : State) (c : Nat) : Nat :=
  let l := s.channelList
  l.getD ((c / 16384) % max l.length 1) 0

/-- Record kind and unit of an uncorrectable error: HBM by bank-linear address, the cellar by cellar offset, SRAM. -/
def State.ueWhere (s : State) (mem addr : Nat) : Nat × Nat :=
  if mem == 0 then (Ek.HBM_UE, errUnit 6 (addr / 2 ^ 36)) else if mem == 1 then (Ek.DDR_UE, errUnit 5 (s.channelAt addr)) else (Ek.SRAM_UE, 0)

/-- Count an uncorrectable error, for its stack or channel too. -/
def State.countUe (s : State) (mem addr : Nat) : State :=
  if mem == 0 then (s.bump F.ERR_CNT_HBM_UE_COUNT).bumpSat (F.ERR_HBM_UE.at (8 * (addr / 2 ^ 36 % 16)))
  else if mem == 1 then (s.bump F.ERR_CNT_DDR_UE_COUNT).bumpSat (F.ERR_DDR_UE.at (8 * s.channelAt addr))
  else s.bump F.ERR_CNT_SRAM_UE_COUNT

/-- Whatever of a session is at work on a step or a prefill stops. -/
def State.stopWork (s : State) (i : Nat) : State :=
  let s := (s.steps.filter (fun t => t.2.rows.any (fun r => r.idx == i))).foldl (fun s t => s.abandonStep t.1) s
  (s.dropPrefill i).dequeue i

/-- A hot session's request ends with the device-fault reason (R224, Table 9.3). -/
def State.failRequest (s : State) (i : Nat) : State := ((s.stopWork i).enter i Ss.WAITING).endWithout i End.DEVICE_FAULT []

/-- The request record of a session is lost (R224): the request ends at once when the session is hot, with its held group first when
the ring is full. -/
def State.requestLost (s : State) (i : Nat) : State :=
  let e := s.sess i
  if !e.armed then s
  else if e.state == Ss.PREFILL || e.state == Ss.DECODE || e.state == Ss.WAITING then s.failRequest i
  else s.updSess i Sess.loseRequest

/-- Transcript entries from `k` on are lost for good (Table 13.4): the KV cache is cut to match, a request of a hot session ends, and
the next slip naming the session is told. -/
def State.transcriptCut (s : State) (i k : Nat) : State :=
  let d := s.lastErr
  let acc := (s.sess i).accession
  let st := (s.sess i).state
  let s := if st == Ss.REVIVING then ((s.answerHeld acc (Answer.st St.MEDIA d)).leaveT1 i) else s.stopWork i
  let e := s.sess i
  let kept := e.transcript.take k
  let n := (kept.filter (fun v => entryKind v == 0)).length
  let s := match s.profile with
    | some p => if n < e.kvLength && !e.pages.isEmpty then s.cutKv p i n else s
    | none => s
  let s := s.updSess i fun e =>
    { e with transcript := kept, kvLength := min e.kvLength n, pending := n - min e.kvLength n, shelvedLength := min e.shelvedLength n,
             mediaDue := some d }
  if st == Ss.REVIVING then (s.updSess i (fun e => { e with tier := 0, rebuild := true })).enter i Ss.TRANSCRIPT_ONLY
  else if (s.sess i).armed && (st == Ss.PREFILL || st == Ss.DECODE || st == Ss.WAITING) then
    (s.enter i Ss.WAITING).endWithout i End.DEVICE_FAULT []
  else if (s.sess i).armed then s.updSess i Sess.loseRequest
  else if st == Ss.PREFILL then (s.enter i Ss.PREFILL).enqueuePrefill i
  else s

/-- KV pages of a session are lost from position `f` on: a readmission under way cuts at its end, a pre-empted session is cut when it is
readmitted, any other is cut now (R335). -/
def State.pagesLost (s : State) (i f : Nat) : State :=
  match tGet s.revives i with
  | some r =>
    if r.stage == 2 && r.phase == 2 then s.updRevive i (fun r => { r with lostPos := some (min f (r.lostPos.getD f)) })
    else s.truncateKv i f
  | none => if (s.sess i).state == Ss.PREEMPTED then s else s.truncateKv i f

/-- First positions of the pages of each session that lie in a T1 slot. -/
def State.pagesIn (s : State) (k : Nat) : List (Nat × Nat) :=
  let p := (s.profile.map (·.tokensPerPage)).getD 0
  s.sessions.filterMap fun v => ((v.2.pages.filter (fun g => g.slots.contains k)).map (fun g => g.index * p)).min?.map (fun f => (v.1, f))

/-- Table 13.4, by what the line held. -/
def State.lose (s : State) (mem addr : Nat) (data : LostData) : State :=
  let w := s.ueWhere mem addr
  let note := fun (cls acc : Nat) => s.errRecord cls w.1 w.2 addr acc
  match data with
  | .nothing => note 2 0
  | .kvPage =>
    let hit := s.pagesIn (addr / 65536)
    let acc := match hit with | h :: _ => (s.sess h.1).accession | [] => 0
    hit.foldl (fun s h => s.pagesLost h.1 h.2) (note 1 acc)
  | .downCopy acc _ => note 1 acc
  | .shelfObject acc _ _ => note 1 acc
  | .transcript acc found =>
    match found, s.findSess acc with
    | some k, some (i, _) => (note 2 acc).transcriptCut i k
    | _, _ => note 1 acc
  | .entry i => s.entryLost i w.1 w.2 addr
  | .tables ok => if ok then note 1 0 else s.deviceError w.1 w.2 addr 0
  | .catMap => (note 1 0).fetchFrom (s.someRegistrar.getD 0) 0 0
  | .locations accs =>
    (note 1 0).updCat (fun c => { c with loc := c.loc.filter (fun (l : LocRec) => !accs.contains l.accession || l.owner == s.devId) })
  | .vector id => (note 2 0).damageShard id
  | .request acc =>
    match s.findSess acc with
    | some (i, _) => (note 2 acc).requestLost i
    | none => note 2 acc
  | .control => s.deviceError w.1 w.2 addr 0

/-- UNCORRECTABLE_ERROR: the line is poisoned and counted, and what it held is recovered or lost.  `mem` is 0 for HBM, 1 for the
cellar, 2 for SRAM. -/
def execUNCORRECTABLE_ERROR (mem addr : Nat) (data : LostData) (s : State) : Host.Outcome State Fault Refusal :=
  .next (((s.countUe mem addr).poisonLine mem addr).lose mem addr data)

/-! ## Corrected errors (R331) -/

/-- Note a row candidate: its corrections add up; in a full list the entry with the fewest is replaced. -/
def State.rowCandidate (s : State) (row n : Nat) : State :=
  s.updErrs fun e =>
    if e.rows.any (·.1 == row) then { e with rows := e.rows.map (fun r => if r.1 == row then (row, min 255 (r.2 + n)) else r) }
    else if e.rows.length < 64 then { e with rows := e.rows ++ [(row, min 255 n)] }
    else
      let least := (e.rows.map (·.2)).foldl min 255
      match e.rows.findIdx? (·.2 == least) with
      | some k => { e with rows := e.rows.set k (row, min 255 n) }
      | none => e

/-- CE_THRESHOLD: a location has reached CE_THRESH corrections within WINDOW_MS, `n` of them not yet counted.  `mem` is 0 for HBM and
`loc` its stack, 1 for the cellar and `loc` its channel, 2 for SRAM. -/
def execCE_THRESHOLD (mem loc addr n : Nat) (s : State) : Host.Outcome State Fault Refusal :=
  let more := fun (s : State) (f : Fld) => s.setFld f (sat 32 (s.fld f + n))
  let s := if mem == 0 then more (s.bumpBy F.ERR_CNT_HBM_CE_COUNT n) (F.ERR_HBM_CE.at (8 * (loc % 12)))
    else if mem == 1 then more (s.bumpBy F.ERR_CNT_DDR_CE_COUNT n) (F.ERR_DDR_CE.at (8 * (loc % 12)))
    else s.bumpBy F.ERR_CNT_SRAM_CE_COUNT n
  if s.fld F.ERR_CE_CFG_CE_THRESH == 0 then .next s
  else if mem == 0 then .next ((s.errRecord 0 Ek.HBM_CE_THRESHOLD (errUnit 6 (loc % 12)) addr 0).rowCandidate (addr / 2048 % 2 ^ 29) n)
  else if mem == 1 then .next (s.errRecord 0 Ek.DDR_CE_THRESHOLD (errUnit 5 (loc % 12)) addr 0)
  else .next (s.errRecord 0 Ek.SRAM_CE_THRESHOLD 0 addr 0)

/-! ## Error registers (R336, R337, Table 13.17) -/

/-- ERR_IRQ_GAP_END: the message held back by the 10 µs limit is sent (R337). -/
def execERR_IRQ_GAP_END (s : State) : Host.Outcome State Fault Refusal :=
  let elapsed : Bool := match s.errs.lastIrq with | some t => decide (t + 1000 ≤ s.tick) | none => true
  if s.errs.irqHeld && elapsed then
    .next ((s.updErrs (fun e => { e with irqHeld := false, lastIrq := some s.tick })).sendMsix (s.fld F.ERR_CTRL_VEC))
  else .next s

/-- ERR_LOG_SEL: a write clears VALID and copies the record, of the log or of the sticky area, while it is held. -/
def execERR_LOG_SEL (value : Word) (s : State) : Host.Outcome State Fault Refusal :=
  let v := value.toNat
  let sticky := v.testBit 62
  let s := s.setReg A.ERR_LOG_SEL (BitVec.ofNat 64 (v % 2 ^ 32 + (if sticky then 2 ^ 62 else 0)))
  let r := if sticky then s.errs.sticky[v % 16]? else s.errs.log.find? (fun r => r.index == v % 2 ^ 32)
  .next ((s.updErrs (fun e => { e with shown := r })).setFld F.ERR_LOG_SEL_VALID (b2n r.isSome))

/-- ERR_STICKY_CLR: CLR empties the sticky area and ends a fault hold, whose restart then follows (R363, log entry 64). -/
def execERR_STICKY_CLR (value : Word) (s : State) : Host.Outcome State Fault Refusal :=
  if !value.toNat.testBit 63 then .next s
  else
    let s := s.updErrs (fun e => { e with sticky := [] })
    if s.flag F.RIND_AUDIT_STATUS_FAULT_HOLD then
      let s := s.beginWarm 3
      .next { s with boot := { s.boot with owed := true } }
    else .next s

/-! ## Violations (R359, R362, R363) -/

/-- Every slip in flight ends without a reply (R44, R362). -/
def State.dropFlight (s : State) : State :=
  let s := s.slips.foldl (fun s o => s.dropSlip o.slip.src o.slip.tag) s
  { s with ready := s.ready.filter (fun t => match t with | .slip _ _ => false | _ => true), held := [] }

/-- A conserved quantity is found violated (R362): recorded, the causing slip answered, then a warm restart, or a fault hold when the
sticky area already holds two such records (R363).  After the restart no session is served until a restore has been made. -/
def State.violation (s : State) (code check object : Nat) (slip : Option (Ctx × BitVec 32)) : State :=
  let two := (s.errs.sticky.filter (fun r => r.kind == Ek.CONSERVATION)).length ≥ 2
  let s := s.errRecord 5 Ek.CONSERVATION 0 (object % 2 ^ 40 * 65536 + check % 16 * 256 + code % 256) 0
  let s := ((s.setFld F.RIND_AUDIT_LAST_INDEX s.lastErr).setFld F.RIND_AUDIT_LAST_CHECK check).setFld F.RIND_AUDIT_LAST_CODE code
  let s := s.bump F.RIND_AUDIT_CNT_VIOL_COUNT
  let s := match slip.bind (fun k => s.outst k.1 k.2) with
    | some o => s.finish o.op o.slip (Answer.st St.CONSERVATION s.lastErr)
    | none => s
  if two then
    (((s.abandonSteps none).dropFlight.setFld F.RIND_AUDIT_STATUS_FAULT_HOLD 1).setFld F.BOOT_STATE_STATE 8).setFld F.BOOT_STATE_FAULT_CAUSE 5
  else
    let s := s.beginWarm 3
    { s with boot := { s.boot with owed := true } }

/-- CONSERVATION_VIOLATION: quantity (Table 14.1), check that found it (Table 14.3), object, and the slip that caused it. -/
def execCONSERVATION_VIOLATION (code check object : Nat) (slip : Option (Ctx × BitVec 32)) (s : State) : Host.Outcome State Fault Refusal :=
  if s.takesSlips && 1 ≤ code && code ≤ 7 then .next (s.violation code check object slip) else .next s

/-- Objects a sweep of a quantity recounts. -/
def State.sweepSize (s : State) (code : Nat) : Nat :=
  match code with
  | 1 => s.peers.length
  | 2 => s.slots.length
  | 3 => s.slots.length
  | 4 => s.tenants.length
  | 5 => s.rings.length
  | 6 => s.tenants.length
  | _ => s.sessions.length

/-- AUDIT_SWEEP: the Rind recounts the next quantity (R359); `left` objects kept changing and are left for the next sweep. -/
def execAUDIT_SWEEP (left : Nat) (s : State) : Host.Outcome State Fault Refusal :=
  if !s.takesSlips || s.fld F.BOOT_STATE_STATE == 8 then .next s
  else
    let last := s.fld F.RIND_AUDIT_STATUS_SWEEP_CODE
    let code := if last ≥ 7 then 1 else last + 1
    let s := (s.setFld F.RIND_AUDIT_STATUS_SWEEP_CODE code).setFld F.RIND_AUDIT_STATUS_SWEEP_POS (s.sweepSize code)
    let s := s.bumpBy F.RIND_AUDIT_CNT_RECHECK_COUNT left
    match s.breach code with
    | some o => .next (s.violation code 1 o none)
    | none => .next (if code == 7 then s.bump F.RIND_AUDIT_CNT_SWEEP_COUNT else s)

end Sys2Proof.Machine
end

