-- ==== Sys2Proof/Machine/MaintFrame.lean ====
section
/-!
DEFINITION. What security and maintenance slips share: physical presence (R389, R391), management connections (R387, R388),
measurements (Table 15.4), row repairs (R426).
-/

namespace Sys2Proof.Machine

/-! ## Presence -/

/-- Is there presence for a slip of this context: the window is open, or service mode is on, or it does not come from an M context? -/
def State.present (s : State) (c : Ctx) : Bool :=
  match c with
  | .mgmt _ => s.flag F.SEC_STATE_SERVICE || (match s.sec.windowEnd with | some t => decide (s.tick < t) | none => false)
  | _ => true

/-- The presence window closes. -/
def State.closeWindow (s : State) : State := { s with sec := { s.sec with windowEnd := none } }

/-- A slip of an M context that needed presence has completed with this status: class 0 or 1 closes the window (R391). -/
def State.usePresence (s : State) (x : Slip) (status : Nat) : State :=
  match x.src with
  | .mgmt _ => if statusClass status ≤ 1 then s.closeWindow else s
  | _ => s

/-- The frame of a slip that needs presence. -/
def State.withPresence (s : State) (x : Slip) (r : SlipRes) : SlipRes :=
  if !s.present x.src then .no s St.PRESENCE_REQUIRED
  else match r with
    | .done s a => .done (s.usePresence x a.status) a
    | r => r

/-! ## Connections -/

/-- A management connection closes (R44, R387, R423): replies to its outstanding slips are discarded, its locks go. -/
def State.closeMgmt (s : State) (c : Nat) : State :=
  let free := ((List.range (s.slips.length + 1)).map (· + 16)).find? (fun n => !s.slips.any (fun o => o.slip.src == .mgmt n))
  (({ s with mgmt := tDel s.mgmt c }).contextLocks (.mgmt c)).orphan (.mgmt c) (.mgmt (free.getD 16))

/-! ## Measurements (R375, R376, Table 15.4) -/

/-- Set bits of a thermometer fuse field. -/
def State.thermo (s : State) (a n : Nat) : Nat := ((List.range n).filter (fun k => s.fuseBit (a + k))).length

/-- First bytes of a firmware image region: 0 A, 1 B. -/
def imageBase (b : Nat) : Nat := if b == 0 then 0x200000 else 0x2100000
def State.flashRd (s : State) (a n : Nat) : Bytes := (List.range n).map (fun i => sGet (fun _ => 0) s.flash.bytes (a + i))

/-- A measurement's value: digests, and the 16 bytes of measurement 6. -/
def State.measurement (s : State) (i : Nat) : Bytes :=
  match i with
  | 1 => Config.romDigest
  | 5 => if s.loaded then sha384 s.boot.header else List.replicate 48 0
  | 6 =>
    let flags := b2n (s.flag F.SEC_STATE_SERVICE) + 2 * b2n (s.flag F.SEC_STATE_DEBUG_UNLOCKED) + 4 * b2n s.conf
      + 8 * b2n (s.flag F.SEC_STATE_SEAL_BROKEN)
    leBytes 1 flags ++ leBytes 1 (s.fld F.SEC_STATE_SEAL_COUNT) ++ leBytes 2 (s.fld F.SEC_STATE_ANTI_ROLLBACK) ++ leBytes 8 s.fuseDigest ++ leBytes 4 0
  | 7 => sha384 (Config.principalRecord (s.principals.map (fun p => (p.1, p.2.role, p.2.kinds, p.2.tenant, p.2.digest))))
  | _ => s.flashRd (imageBase (s.fld F.BOOT_IMAGE_ACTIVE) + 8 + 48 * (i - 2)) 48

/-! ## Row repairs (R426) -/

/-- Repairs the ledger holds. -/
def State.ledger (s : State) : Nat := s.thermo 0x1C00 4096

/-- What bars a repair of a row: an absent stack, a fifth repair of its bank, a full ledger, or no slot to move its data to. -/
def State.repairBarred (s : State) (row : Nat) : Option Answer :=
  let used := (tGet s.slots (row / 32)).isSome || s.vecBlocks.any (fun b => s.blockSlot b.1 == row / 32)
  if !s.stackOn (row / 2 ^ 25) then some (Answer.st St.ABSENT_RESOURCE)
  else if (s.boot.repairs.filter (fun r => r / 2 ^ 15 == row / 2 ^ 15)).length ≥ 4 || s.ledger ≥ 4096 then some (Answer.st St.NO_SLOTS 13)
  else if used && s.freeT1 == 0 then some (Answer.st St.NO_SLOTS 4)
  else none

/-- Steps 1 and 2: the page or vector block of the slot holding the row moves to another slot. -/
def State.repairMove (s : State) (row : Nat) : State :=
  let k := row / 32
  let s := if (tGet s.slots k).isSome then s.moveSlot k else s
  ((s.vecBlocks.map (·.1)).filter (fun b => s.blockSlot b == k)).foldl State.moveBlock s

/-- Steps 3 to 5: the row is repaired, the next ROW_LEDGER bit set, its candidate cleared, and its slot is free again. -/
def State.repairBurn (s : State) (row : Nat) : State :=
  let s := s.blow [0x1C00 + s.ledger]
  let s := s.updErrs (fun e => { e with rows := e.rows.filter (·.1 != row), poison := e.poison.filter (fun l => !(l.1 == 0 && l.2 / 32 == row)) })
  { s with boot := { s.boot with repairs := s.boot.repairs ++ [row] } }

end Sys2Proof.Machine
end

