-- ==== Sys2Proof/Machine/Maint.lean ====
section
/-!
DEFINITION. Maintenance slips (Table 16.10, R417-R430): locks, patrol, retrain, row repair, resets of units, clusters and partitions,
unit disable, firmware; the events that end them.
-/

namespace Sys2Proof.Machine

/-! ## Locks (R421-R423) -/

/-- An object a scope names that is out of range, answered on parameter `k`, or absent in the variant (R430). -/
def State.scopeBad (s : State) (scope index k : Nat) : Option Answer :=
  let check := fun (n : Nat) (on : Bool) =>
    if index ≥ n then some (Answer.st St.BAD_PARAM k) else if on then none else some (Answer.st St.ABSENT_RESOURCE)
  match scope with
  | 0 => none
  | 1 => if 1 ≤ index && index ≤ 3 then none else some (Answer.st St.BAD_PARAM k)
  | 2 => check 12 (s.stackOn index)
  | 3 => check 12 (s.channelOn index)
  | _ => check 8 (s.portOn index)

/-- Scope codes of an activity, and the tiers it may name (Table 16.7). -/
def activityScopes (a : Nat) : List Nat × List Nat :=
  match a with
  | 4 => ([1, 2, 3], [1, 2])
  | 5 => ([2, 3, 4], [])
  | 6 => ([2], [])
  | 7 => ([1, 2], [1])
  | 8 => ([1], [3])
  | _ => ([0], [])

/-- MAINT_LOCK.  The device has one object, so INDEX is 0 for its scope. -/
def execMAINT_LOCK (x : Slip) (s : State) : Host.Outcome State Fault Refusal :=
  runSlip Op.MAINT_LOCK x s fun s => noSession x [15, 7, 0xFFFF, 0, 0, 0] s <|
    let sc := activityScopes x.P0
    let index := if x.P1 == 0 then 0 else x.P2
    if x.P0 == 0 || x.P0 > 8 then .no s St.BAD_PARAM 0
    else if !sc.1.contains x.P1 then .no s St.BAD_PARAM 1
    else if x.P1 == 1 && !sc.2.contains index then .no s St.BAD_PARAM 2
    else match s.scopeBad x.P1 index 2 with
      | some a => .done s a
      | none => match s.lockBusy x.P0 x.P1 index with
        | some l => s.lockRefused l
        | none =>
          if (s.locks.filter (fun o => !(o.against x.P0 x.P1 index && o.yields))).length ≥ 32 then .no s St.NO_SLOTS 14
          else .done (s.takeLock (some x.src) x.P0 x.P1 index false false) (Answer.ok s.lockId)

/-- MAINT_UNLOCK: the reply follows the activity that runs under the lock. -/
def execMAINT_UNLOCK (x : Slip) (s : State) : Host.Outcome State Fault Refusal :=
  runSlip Op.MAINT_UNLOCK x s fun s => noSession x [0xFFFF, 0, 0, 0, 0, 0] s <|
    match s.locks.find? (fun l => l.id == x.P0 && l.holder == some x.src) with
    | none => .no s St.BAD_PARAM 0
    | some l =>
      if l.active then
        .wait { s with locks := s.locks.map (fun (o : Lock) => if o.id == l.id then { o with ending := true } else o) }
      else .done (s.dropLocks (fun o => o.id == l.id)) (Answer.ok)

/-! ## Patrol (R424) -/

/-- Note a running activity. -/
def State.beginAct (s : State) (a : Activity) : State := { s with boot := { s.boot with acts := s.boot.acts ++ [a] } }

/-- The running activity under a lock. -/
def State.actOf (s : State) (lock activity : Nat) : Option Activity :=
  s.boot.acts.find? (fun a => a.lock == lock && a.activity == activity)

/-- MAINT_PATROL. -/
def execMAINT_PATROL (x : Slip) (s : State) : Host.Outcome State Fault Refusal :=
  runSlip Op.MAINT_PATROL x s fun s => noSession x [7, 0xFFFF, 0xFF, w32, 0, 0] s <|
    if x.P0 == 0 || x.P0 > 3 then .no s St.BAD_PARAM 0
    else if x.P0 == 1 && x.P1 > 2 then .no s St.BAD_PARAM 1
    else match s.scopeBad x.P0 x.P1 1 with
      | some a => .done s a
      | none =>
        if x.P2 == 0 || x.P2 > 64 then .no s St.BAD_PARAM 2
        else match s.lockFor x Ac.PATROL x.P0 x.P1 x.P3 with
          | .error r => r
          | .ok (s, l) => .wait (s.beginAct { lock := l, activity := Ac.PATROL, scope := x.P0, index := x.P1, slip := some x, row := 0 })

/-- BACKGROUND_PATROL: the Rind takes a patrol lock on a stack (scope 2) or channel (scope 3), unless one stands against it. -/
def execBACKGROUND_PATROL (scope index : Nat) (s : State) : Host.Outcome State Fault Refusal :=
  if !s.takesSlips || (scope != 2 && scope != 3) || (s.scopeBad scope index 0).isSome || (s.lockBusy Ac.PATROL scope index).isSome
      || s.locks.any (fun l => l.against Ac.PATROL scope index) || s.locks.length ≥ 32 then .next s
  else .next ((s.takeLock none Ac.PATROL scope index true true).beginAct
    { lock := s.lockId, activity := Ac.PATROL, scope := scope, index := index, slip := none, row := 0 })

/-- Is a damaged line (memory, line) in an activity's target? -/
def State.lineIn (s : State) (a : Activity) (l : Nat × Nat) : Bool :=
  match a.scope with
  | 1 => l.1 + 1 == a.index
  | 2 => l.1 == 0 && l.2 / 2 ^ 30 == a.index
  | _ => l.1 == 1 && s.channelAt (64 * l.2) == a.index

/-- The retired slot or unit a damaged line lies in, when it holds no data: T1 slots of the plan's KV and vector regions, T2 units of
the plan's areas. -/
def State.retiredOf (s : State) (l : Nat × Nat) : Option Nat :=
  match s.profile with
  | none => none
  | some p =>
    if l.1 == 0 then
      let k := l.2 / 1024
      let kv := (p.holds .kv k || p.holds .promotion k) && (tGet s.slots k).isNone && !s.ckpt.heldSlots.contains k
      let vec := p.holds .vecList k && !(s.vecBlocks.any (fun b => s.blockSlot b.1 == k))
      if kv || vec then some k else none
    else
      let u := l.2 / 256
      if (s.areas 2).any (fun a => a.1 ≤ u && u < a.1 + a.2) && (s.usedRuns 2).all (fun r => u < r.1 || r.1 + r.2 ≤ u) then some u else none

/-- Retired slots and units of an activity's target that hold no data are overwritten with zeros; lines in `bad` read back damaged.
Answers the units that return to their pools. -/
def State.patrolClean (s : State) (a : Activity) (bad : List (Nat × Nat)) : State × Nat :=
  let hit := s.errs.poison.filter (fun l => s.lineIn a l && (s.retiredOf l).isSome)
  let units := (hit.filterMap (fun l => (s.retiredOf l).map (fun u => (l.1, u)))).eraseDups
  let stays := fun (v : Nat × Nat) => bad.any (fun l => l.1 == v.1 && s.retiredOf l == some v.2)
  let gone := fun (mem n : Nat) => units.contains (mem, n)
  let s := { s with hbm := s.hbm.filter (fun c => !gone 0 (c.1 / 65536)), cellar := s.cellar.filter (fun c => !gone 1 (c.1 / 16384)) }
  (s.updErrs (fun e => { e with poison := e.poison.filter (fun l => !hit.contains l || bad.contains l) }), (units.filter (fun v => !stays v)).length)

/-- Count lines corrected in a stack or channel (R331). -/
def State.countCe (s : State) (hbm : Bool) (index n : Nat) : State :=
  let add := fun (s : State) (f : Fld) => s.setFld f (sat 32 (s.fld f + n))
  if hbm then add (s.bumpBy F.ERR_CNT_HBM_CE_COUNT n) (F.ERR_HBM_CE.at (8 * (index % 12)))
  else add (s.bumpBy F.ERR_CNT_DDR_CE_COUNT n) (F.ERR_DDR_CE.at (8 * (index % 12)))

/-- PATROL_COMPLETE: lines corrected by stack or channel, and lines of retired units, as (memory, line), that read back damaged. -/
def execPATROL_COMPLETE (lock : Nat) (corrected bad : List (Nat × Nat)) (s : State) : Host.Outcome State Fault Refusal :=
  match s.actOf lock Ac.PATROL with
  | none => .next s
  | some a =>
    let hbm := a.scope == 2 || (a.scope == 1 && a.index == 1)
    let s := corrected.foldl (fun s c => s.countCe hbm c.1 c.2) s
    let r := s.patrolClean a bad
    .next (r.1.endAct a (Answer.ok ((corrected.map (·.2)).foldl (· + ·) 0) r.2))

/-! ## Retrain (R425) -/

/-- The links of a port go down while it retrains. -/
def State.portDown (s : State) (p : Nat) : State :=
  let v := s.port p
  (s.setPort p { v with up := v.up.map (fun _ => false), pauses := [] }).capRates

/-- MAINT_RETRAIN. -/
def execMAINT_RETRAIN (x : Slip) (s : State) : Host.Outcome State Fault Refusal :=
  runSlip Op.MAINT_RETRAIN x s fun s => noSession x [7, 0xFFFF, 0, w32, 0, 0] s <|
    if x.P0 < 2 || x.P0 > 4 then .no s St.BAD_PARAM 0
    else match s.scopeBad x.P0 x.P1 1 with
      | some a => .done s a
      | none => match s.lockFor x Ac.RETRAIN x.P0 x.P1 x.P3 with
        | .error r => r
        | .ok (s, l) =>
          let s := s.beginAct { lock := l, activity := Ac.RETRAIN, scope := x.P0, index := x.P1, slip := some x, row := 0 }
          .wait (if x.P0 == 4 then s.portDown x.P1 else s)

/-- RETRAIN_COMPLETE: the target is up again, or its training has failed. -/
def execRETRAIN_COMPLETE (lock : Nat) (ok : Bool) (s : State) : Host.Outcome State Fault Refusal :=
  match s.actOf lock Ac.RETRAIN with
  | none => .next s
  | some a => .next (s.endAct a (if ok then Answer.ok else Answer.st St.MEDIA))

/-! ## Row repair (R426) -/

/-- MAINT_ROW_REPAIR: the data leaves the row at once; the repair itself ends with ROW_REPAIR_DONE. -/
def execMAINT_ROW_REPAIR (x : Slip) (s : State) : Host.Outcome State Fault Refusal :=
  runSlip Op.MAINT_ROW_REPAIR x s fun s => s.withPresence x <| noSession x [2 ^ 29 - 1, 0, 0, w32, 0, 0] s <|
    if !s.stackOn (x.P0 / 2 ^ 25) then .no s St.ABSENT_RESOURCE
    else match s.lockFor x Ac.ROW_REPAIR 2 (x.P0 / 2 ^ 25) x.P3 with
      | .error r => r
      | .ok (t, l) => match s.repairBarred x.P0 with
        | some a => .done s a
        | none =>
          .wait ((t.repairMove x.P0).beginAct
            { lock := l, activity := Ac.ROW_REPAIR, scope := 2, index := x.P0 / 2 ^ 25, slip := some x, row := x.P0 })

/-- ROW_REPAIR_DONE: the fuses are burnt and the slot is free again, or the repair has failed. -/
def execROW_REPAIR_DONE (lock : Nat) (ok : Bool) (s : State) : Host.Outcome State Fault Refusal :=
  match s.actOf lock Ac.ROW_REPAIR with
  | none => .next s
  | some a =>
    let n := s.ledger
    let s := if ok then s.repairBurn a.row else s
    let s := match a.slip with
      | some x => s.usePresence x (if ok then St.OK else St.MEDIA)
      | none => s
    .next (s.endAct a (if ok then Answer.ok n else Answer.st St.MEDIA))

/-! ## Units (R417, R430) -/

/-- Numbers a unit kind has in the largest variant (Table 13.5, R430). -/
def unitLimit (u : Nat) : Nat :=
  match u / 8192 with
  | 1 => 6144
  | 2 => 132
  | 3 => 272
  | 7 => u % 8192 / 256 * 256 + ([16, 32, 16, 8, 4, 1, 4, 16].getD (u % 8192 / 256) 0)
  | _ => 0

/-- Is a UNIT code a unit's at all? -/
def unitValid (u : Nat) : Bool := u % 8192 < unitLimit u

/-- Slips of MAINT_RESET with an operation that wait, and meet a test. -/
def State.resetWaiters (s : State) (op : Nat) (p : Nat → Bool) : List Slip :=
  (s.slips.filter (fun o => o.op == Op.MAINT_RESET && o.stage == .waiting && bitsOf o.slip.P0 1 0 == op && p o.slip.P1)).map (·.slip)

/-- Answer them. -/
def State.resetDone (s : State) (op : Nat) (p : Nat → Bool) (a : Answer) : State :=
  (s.resetWaiters op p).foldl (fun s x => s.finish Op.MAINT_RESET x a) s

/-- A cluster reset begins (R418): its MEs' tiles go back to their pools. -/
def State.beginCluster (s : State) (c cause : Nat) : State :=
  let s := (s.noteReset 3 cause s.tick).bump F.BOOT_CNT_CLUSTER_COUNT
  let s := s.takeBack (fun e => e < 128 && e / 8 == c)
  { s with boot := { s.boot with clusters := s.boot.clusters ++ [c], tidyResets := s.boot.tidyResets.filter (·.1 != c) } }

/-- Does a unit belong to a cluster? -/
def inCluster (c u : Nat) : Bool :=
  let n := u % 8192
  match u / 8192 with
  | 2 => n < 128 && n / 8 == c
  | 3 => n / 17 == c
  | 7 => match n / 256 with
    | 0 => n % 256 == c
    | 1 => n % 256 / 2 == c
    | 2 => n % 256 == c
    | _ => false
  | _ => false

/-- Does a unit belong to a partition? -/
def inPart (p u : Nat) : Bool :=
  match u / 8192 with
  | 1 => stackPart (u % 8192 / 512) == p
  | 2 => mePart (u % 8192) == p
  | _ => (List.range 8).any (fun k => inCluster (8 * p + k) u)

/-- Is a unit within a cluster or a partition whose reset is under way? -/
def State.unitResetting (s : State) (u : Nat) : Bool :=
  s.boot.clusters.any (fun c => inCluster c u) || [0, 1].any (fun p => s.part p == 4 && inPart p u)

/-- MAINT_RESET of a unit: work in flight ends and is reissued; a third tidy-core reset of a cluster within 1 s resets the cluster
(Table 16.6); one that is being reset with its cluster or partition is BUSY. -/
def execMAINT_RESET_UNIT (x : Slip) (s : State) : Host.Outcome State Fault Refusal :=
  runSlip Op.MAINT_RESET x s fun s => noSession x [3, 0xFFFF, 0, 0, 0, 0] s <|
    if !resettable x.P1 || !unitValid x.P1 then .no s St.BAD_PARAM 1
    else if s.unitState x.P1 == 0 then .no s St.ABSENT_RESOURCE
    else if s.unitResetting x.P1 then .no s St.BUSY
    else
      let s := s.resetUnit x.P1
      let c := x.P1 % 8192 / 17
      let three := x.P1 / 8192 == 3 && (s.boot.tidyResets.filter (·.1 == c)).length ≥ 3 && !s.boot.clusters.contains c
      .done (if three then s.beginCluster c 8 else s) (Answer.ok)

/-- MAINT_RESET of a cluster: the reply follows its tests. -/
def execMAINT_RESET_CLUSTER (x : Slip) (s : State) : Host.Outcome State Fault Refusal :=
  runSlip Op.MAINT_RESET x s fun s => noSession x [3, 0xFFFF, 0, 0, 0, 0] s <|
    let c := x.P1 % 256
    if x.P1 != clusterUnit c || c ≥ 16 then .no s St.BAD_PARAM 1
    else if !s.clusterOn c then .no s St.ABSENT_RESOURCE
    else if s.boot.clusters.contains c || s.part (clusterPart c) != 3 then .no s St.BUSY
    else .wait (s.beginCluster c 1)

/-- CLUSTER_RESET: a cluster whose reset is under way has been drained, powered down and up and tested, with the units that failed; a
drain over 20 µs resets the partition instead (Table 16.6). -/
def execCLUSTER_RESET (c : Nat) (drained : Bool) (failed : List Nat) (s : State) : Host.Outcome State Fault Refusal :=
  if !s.boot.clusters.contains c then .next s
  else if !drained then .next (s.resetPartition (clusterPart c) 7 [])
  else
    let s := { s with boot := { s.boot with clusters := s.boot.clusters.filter (· != c) } }
    let s := ((failed.filter (inCluster c)).foldl State.disableUnit s).issue
    .next (s.resetDone 1 (fun p => p == clusterUnit c) (Answer.ok))

/-- MAINT_RESET of a partition: the reply follows ACTIVE. -/
def execMAINT_RESET_PARTITION (x : Slip) (s : State) : Host.Outcome State Fault Refusal :=
  runSlip Op.MAINT_RESET x s fun s => noSession x [3, 0xFFFF, 0, 0, 0, 0] s <|
    if x.P1 > 1 then .no s St.BAD_PARAM 1
    else if x.P1 == 1 && s.onePartition then .no s St.ABSENT_RESOURCE
    else if s.part x.P1 == 5 then .no s St.UNIT_FAILED
    else if s.part x.P1 != 3 then .no s St.BUSY
    else .wait (s.resetPartition x.P1 1 [])

/-- MAINT_RESET of the device: a warm restart, without a reply. -/
def execMAINT_RESET_DEVICE (x : Slip) (s : State) : Host.Outcome State Fault Refusal :=
  runSlip Op.MAINT_RESET x s fun s => noSession x [3, 0, 0, 0, 0, 0] s <| .gone (s.beginWarm 1)

/-- PARTITION_RESET: a partition is reset, with the entries of its sessions that were not written back in time (R419 step 2); those may
also be found while the reset is under way. -/
def execPARTITION_RESET (p cause : Nat) (lost : List Nat) (s : State) : Host.Outcome State Fault Refusal :=
  if p > 1 || (p == 1 && s.onePartition) || cause > 8 then .next s
  else if s.part p == 3 then .next (s.resetPartition p cause lost)
  else if s.part p == 4 then .next ((lost.filter (fun i => s.home i == p)).foldl (fun s i => s.entryLost i Ek.SRAM_UE 0 0) s)
  else .next s

/-- Links that lead to a partition come up with it (Table 13.2). -/
def State.partLinksUp (s : State) (p : Nat) : State :=
  let ls := [66 + p] ++ (List.range 6).map (fun k => 68 + 6 * p + k) ++ (if p == 1 then [64, 65] else [])
  ls.foldl (fun s l => if s.linkState l == 1 || s.linkState l == 2 then s.setFld (F.ERR_LINK_STATE.at (8 * l)) 0 else s) s

/-- PARTITION_ACTIVE: a reset partition is ACTIVE again, with the units that failed their tests, and revives its armed sessions in the
background; or it has failed again and reads FAULTED (R419). -/
def execPARTITION_ACTIVE (p : Nat) (ok : Bool) (failed : List Nat) (s : State) : Host.Outcome State Fault Refusal :=
  if p > 1 || s.part p != 4 then .next s
  else
    let s := { s with boot := { s.boot with partLink := tDel s.boot.partLink p } }
    let mine := fun (u : Nat) => u / 256 == clusterUnit 0 / 256 && clusterPart (u % 256) == p
    if !ok then .next (((s.setPart p 5).resetDone 2 (· == p) (Answer.st St.UNIT_FAILED)).resetDone 1 mine (Answer.st St.UNIT_FAILED))
    else
      let s := (s.setPart p 3).partLinksUp p
      let s := ((failed.filter (inPart p)).foldl State.disableUnit s).issue
      let s := (s.resetDone 2 (· == p) (Answer.ok)).resetDone 1 mine (Answer.ok)
      .next (((s.sessions.filter (fun q => s.home q.1 == p)).map (·.1)).foldl State.reviveArmed s)

/-- UNIT_SOFT_DISABLE: a unit that fails its test after a reset is taken out of service (R227, R430). -/
def execUNIT_SOFT_DISABLE (unit : Nat) (s : State) : Host.Outcome State Fault Refusal :=
  if disablable unit && unitValid unit then .next (s.disableUnit unit) else .next s

/-- MAINT_UNIT_DISABLE. -/
def execMAINT_UNIT_DISABLE (x : Slip) (s : State) : Host.Outcome State Fault Refusal :=
  runSlip Op.MAINT_UNIT_DISABLE x s fun s => noSession x [0xFFFF, 1, 0, 0, 0, 0] s <|
    if !disablable x.P0 || !unitValid x.P0 then .no s St.BAD_PARAM 0
    else if s.unitState x.P0 == 0 then .no s St.ABSENT_RESOURCE
    else if s.unitState x.P0 == 1 then .no s St.ALREADY_DONE
    else
      let t := s.disableUnit x.P0
      if t.unitCount x.P0 < s.unitCount x.P0 && t.unitCount x.P0 < s.unitFloor x.P0 && x.P1 == 0 then .no s St.BAD_PARAM 1
      else .done t (Answer.ok (t.unitCount x.P0))

/-! ## Firmware images and flash (R403, R404, R428, R309) -/

/-- The bytes of an image region: 0 A, 1 B, by offset. -/
def State.image (s : State) (b : Nat) : List (Nat × Byte) :=
  (s.flash.bytes.filter (fun c => imageBase b ≤ c.1 && c.1 < imageBase b + 0x1F00000)).map (fun c => (c.1 - imageBase b, c.2))

/-- ROLLBACK of an image (R403). -/
def State.rollback (s : State) (b : Nat) : Nat := rdLe (s.flashRd (imageBase b) 6) 4 2

/-- Does an image pass R404: its signature and digests verify, and its ROLLBACK is at least the fuse count? -/
def State.imageOk (s : State) (b : Nat) : Bool := Config.imageGenuine (s.image b) && decide (s.thermo 0x1B40 64 ≤ s.rollback b)

/-- The image region that is not active. -/
def State.inactive (s : State) : Nat := 1 - s.fld F.BOOT_IMAGE_ACTIVE

/-- Begin a write to the SPI NOR. -/
def State.flashJob (s : State) (j : FlashJob) : State :=
  let s := s.emit (.flashWrite (match j with | .image _ _ _ => 1 | .control _ _ _ => 2))
  { s with flash := { s.flash with jobs := s.flash.jobs ++ [j] } }

/-- The lock a firmware activation took is released. -/
def State.dropActivate (s : State) : State :=
  s.dropLocks (fun l => l.activity == Ac.FW_ACTIVATE && l.auto)

/-- MAINT_FW_UPDATE, with or without ACTIVATE: what precedes the write. -/
def State.fwWrite (s : State) (x : Slip) (activate : Bool) : SlipRes :=
  match badStruct 0x2C03 8 x.payload with
  | some e => .no s e.1 e.2
  | none =>
    let n := rdLe x.payload 4 4 - 8
    if x.P0 + n > 0x1F00000 then .no s St.BAD_PARAM 0
    else
      let job : FlashJob := .image (imageBase s.inactive + x.P0) (slice x.payload 8 n) x
      if activate then match s.lockFor x Ac.FW_ACTIVATE 0 0 0 with
        | .error r => r
        | .ok (s, _) => .wait (s.flashJob job)
      else .wait (s.flashJob job)

/-- MAINT_FW_UPDATE. -/
def execMAINT_FW_UPDATE (x : Slip) (s : State) : Host.Outcome State Fault Refusal :=
  runSlip Op.MAINT_FW_UPDATE x s fun s => noSession x [w32, 3, 0, 0, 0, 0] s <| s.fwWrite x false

/-- MAINT_FW_UPDATE with ACTIVATE. -/
def execMAINT_FW_ACTIVATE (x : Slip) (s : State) : Host.Outcome State Fault Refusal :=
  runSlip Op.MAINT_FW_UPDATE x s fun s => noSession x [w32, 3, 0, 0, 0, 0] s <| s.fwWrite x true

/-- MAINT_FW_ROLLBACK. -/
def execMAINT_FW_ROLLBACK (x : Slip) (s : State) : Host.Outcome State Fault Refusal :=
  runSlip Op.MAINT_FW_ROLLBACK x s fun s => s.withPresence x <| noSession x [0, 0, 0, 0, 0, 0] s <|
    match s.lockFor x Ac.FW_ACTIVATE 0 0 0 with
    | .error r => r
    | .ok (t, _) =>
      if !s.imageOk s.inactive then .no s St.NOT_PERMITTED
      else .wait (t.flashJob (.control s.inactive false (some x)))

/-- An image write has ended. -/
def State.imageWritten (s : State) (addr : Nat) (bytes : Bytes) (x : Slip) (ok : Bool) : State :=
  let activate := x.P1.testBit 1
  let stop := fun (s : State) (a : Answer) => (if activate then s.dropActivate else s).finish Op.MAINT_FW_UPDATE x a
  if !ok then stop s (Answer.st St.MEDIA)
  else
    let put := (bytes.zip (List.range bytes.length)).foldl (fun m c => sSet (fun _ => 0) m (addr + c.2) c.1) s.flash.bytes
    let s := { s with flash := { s.flash with bytes := put } }
    let b := if addr < imageBase 1 then 0 else 1
    if x.P1.testBit 0 && !s.imageOk b then stop s (Answer.st St.NOT_PERMITTED)
    else if activate then s.flashJob (.control b true (some x))
    else stop s (Answer.ok bytes.length)

/-- A boot control write has ended: PREFERRED and TRIAL hold, and a restart that waited for it begins. -/
def State.controlWritten (s : State) (preferred : Nat) (trial : Bool) (slip : Option Slip) (ok : Bool) : State :=
  if ok then
    let s := { s with flash := { s.flash with preferred := preferred, trial := trial, tried := false } }
    match slip with
    | some x => (s.usePresence x St.OK).beginWarm 2
    | none => (s.setFld F.BOOT_IMAGE_PREFERRED preferred).setFld F.BOOT_IMAGE_TRIAL (b2n trial)
  else match slip with
    | some x =>
      let op := match s.outst x.src x.tag with | some o => o.op | none => Op.MAINT_FW_UPDATE
      (s.dropActivate).finish op x (Answer.st St.MEDIA)
    | none => s.flashJob (.control preferred trial none)

/-- FLASH_WRITE_DONE: the write of the raised GEN_FLOOR (area 0), or the oldest write of an image region (1) or of boot control (2), has
ended; a floor that was not written is written again. -/
def execFLASH_WRITE_DONE (area : Nat) (ok : Bool) (s : State) : Host.Outcome State Fault Refusal :=
  if area == 0 then
    if !s.floorBusy then .next s
    else if ok then .next { s with genFloor := min (s.genFloor + 2 ^ 16) (2 ^ 32 - 1), floorBusy := false }
    else .next (s.emit (.flashWrite 0))
  else
    let mine := fun (j : FlashJob) => match j with | .image _ _ _ => area == 1 | .control _ _ _ => area == 2
    match s.flash.jobs.findIdx? mine with
    | none => .next s
    | some k =>
      let t := { s with flash := { s.flash with jobs := s.flash.jobs.eraseIdx k } }
      match s.flash.jobs[k]? with
      | some (.image a b x) => .next (t.imageWritten a b x ok)
      | some (.control p tr x) => .next (t.controlWritten p tr x ok)
      | none => .next s

end Sys2Proof.Machine
end

