-- ==== Sys2Proof/Machine/PortFrame.lean ====
section
/-!
DEFINITION. Resets of the host port (R420, R440) and the variant's parts at boot (R406), shared by host events, reference clocks and
restarts.
-/

namespace Sys2Proof.Machine

/-! ## Host port resets -/

/-- A context number no pair has, for the slips of a pair that a host port reset caught (R52): nothing is outstanding under it. -/
def State.deadPair (s : State) : Ctx :=
  .pair (((List.range (s.slips.length + 1)).map (· + 256)).find? (fun n => !s.slips.any (fun o => o.slip.src == .pair n)) |>.getD 256)

/-- A pair caught by a host port reset is DISABLED at once (R52): a slip whose payload has not been read never runs, the others run to
their end and their replies are discarded.  That this clears the register field QP_CFG.ENABLE, which R16 lets software alone change, is
the model's choice (log entry 90): a DISABLED pair whose ENABLE read 1 could not be enabled by the write that R420 asks of software. -/
def State.portPair (s : State) (q : Nat) : State :=
  let p := s.qp q
  if p.state == 0 then s
  else
    let cut := s.slips.filter (fun o => o.slip.src == .pair q && o.stage == .payload)
    let s := cut.foldl (fun s o => s.dropSlip o.slip.src o.slip.tag) s
    let s := (s.dropVersion (.pair q)).orphan (.pair q) s.deadPair
    let s := s.setFld (F.QP_CFG_ENABLE.at (qpOff q)) 0
    s.setQp q { Qp.fresh with errCause := p.errCause, discarding := p.discarding }

/-- Host accesses of device memory that wait are dropped at the port, the memory unchanged (R460). -/
def State.dropHostAccesses (s : State) : State :=
  { s with nbus := s.nbus.map (fun v => (v.1, { v.2 with waiting := v.2.waiting.filter (fun a => !a.host) })),
           boot := { s.boot with traffic := [] } }

/-- The host port is reset (R420, R440): every queue pair is DISABLED, every enabled ring of host memory is in ERROR, the decoders are
uncommitted, the configuration words the host wrote are gone; a Function Level Reset (kind 2) clears the MSI-X table and leaves the
link up.  Kinds 0 PERST_N, 1 hot reset, 3 surprise link down. -/
def State.portReset (s : State) (kind : Nat) : State :=
  let s := (s.qps.map (·.1)).foldl State.portPair s
  let s := ((s.rings.filter (fun r => !r.2.network)).map (·.1)).foldl State.ringError s
  let s := s.dropHostAccesses
  let h := s.host
  { s.bump F.CXL_CNT_LINK_DOWN_COUNT with
    host := { h with up := kind == 2 && h.up, config := [], msixEn := false, funcMask := false, vecs := if kind == 2 then [] else h.vecs,
                     pend := [], decoders := [Decoder.fresh, Decoder.fresh] } }

/-- The links of some Ethernet ports go down (R448). -/
def State.portsDown (s : State) (ps : List Nat) : State := ps.foldl State.portDown s

end Sys2Proof.Machine
end

