-- ==== Sys2Proof/Machine/Security.lean ====
section
/-!
DEFINITION. Security slips (Table 15.12), the SPDM responder and key delivery (R374-R379), management disconnects, the Rind's and
the desk cores' watchdogs (R368, R369), presence, jumper and seal (R389-R394).
-/

namespace Sys2Proof.Machine

/-! ## Principals (R387, R388) -/

/-- The principal table has changed: BOOTSTRAP follows, measurement 7 changes. -/
def State.principalsChanged (s : State) : State := ((s.setFld F.SEC_STATE_BOOTSTRAP (b2n s.bootstrap)).emit (.flashWrite 0)).measured

/-- SEC_PRINCIPAL_ENROL; the reserved bits of KINDS are ignored (R60). -/
def execSEC_PRINCIPAL_ENROL (x : Slip) (s : State) : Host.Outcome State Fault Refusal :=
  runSlip Op.SEC_PRINCIPAL_ENROL x s fun s => s.withPresence x <| noSession x [0, 0, 0, 0, 0, 0] s <|
    match badStruct 0x2800 17 x.payload with
    | some e => .no s e.1 e.2
    | none =>
      let role := rdLe x.payload 8 1
      let kinds := rdLe x.payload 9 1
      let tenant := rdLe x.payload 10 2
      let n := rdLe x.payload 12 2
      if role == 0 || role > 7 || n == 0 || n > 256 || (role == 6 && 0xFFF < tenant && tenant < 0xFFFF) then
        .no s St.BAD_PARAM 0x2900
      else if 16 + n > rdLe x.payload 4 4 then .no s St.PAYLOAD_TRUNCATED
      else
        let d := sha384 (slice x.payload 16 n)
        match s.principals.find? (fun p => p.2.digest == d && p.2.role == role), tFree s.principals 1 64 0 with
        | some _, _ => .no s St.ALREADY_DONE
        | none, none => .no s St.NO_SLOTS 12
        | none, some i =>
          let p : Principal := { role := role, kinds := if role == 6 then kinds % 32 else 0, tenant := if role == 6 then tenant else 0, digest := d }
          .done ({ s with principals := tPut s.principals i p } : State).principalsChanged (Answer.ok i)

/-- SEC_PRINCIPAL_REVOKE: the principal's connections close at once; a slip that came on one of them gets no reply. -/
def execSEC_PRINCIPAL_REVOKE (x : Slip) (s : State) : Host.Outcome State Fault Refusal :=
  runSlip Op.SEC_PRINCIPAL_REVOKE x s fun s => noSession x [0x3F, 0, 0, 0, 0, 0] s <|
    if (tGet s.principals x.P0).isNone then .no s St.ALREADY_DONE
    else
      let cs := (s.mgmt.filter (fun c => c.2.principal == x.P0)).map (·.1)
      let s := ({ s with principals := tDel s.principals x.P0 } : State).principalsChanged
      if cs.any (fun c => x.src == .mgmt c) then
        let s := { s with slips := s.slips.filter (fun o => !(o.slip.src == x.src && o.slip.tag == x.tag)) }
        .gone (cs.foldl State.closeMgmt s)
      else .done (cs.foldl State.closeMgmt s) (Answer.ok cs.length)

/-- MGMT_DISCONNECT. -/
def execMGMT_DISCONNECT (c : Nat) (s : State) : Host.Outcome State Fault Refusal :=
  if (tGet s.mgmt c).isSome then .next (s.closeMgmt c) else .next s

/-! ## Tenants (R395) -/

/-- SEC_TENANT_STATUS. -/
def execSEC_TENANT_STATUS (x : Slip) (s : State) : Host.Outcome State Fault Refusal :=
  runSlip Op.SEC_TENANT_STATUS x s fun s => noSession x [0, 0, 0, 0, 0, 0] s <|
    let v := s.tenant x.ten
    .done s (Answer.ok (b2n v.key.isSome + 2 * b2n v.sealedErase + 4 * b2n v.trustOperator + 8 * v.trust.length + v.kcv * 2 ^ 32))

/-- Settings of a tenant back at their reset values, its key and trust list gone, its usage and finish tag kept (R395 steps 4 to
6). -/
def State.forgetTenant (s : State) (t : Nat) : State :=
  let s := s.updTenant t fun v =>
    { Tenant.fresh with
      budget := Bucket.full 0xFFFFFFFF 65536 256 s.tick, policer := Bucket.full 0xFFFFFFFF 65535 1 s.tick, finish := v.finish
      quotas := v.quotas.map (fun (q : Quota) => { q with limit := 0xFFFFFFFF }) }
  { s with shapers := tDel s.shapers (shaperKey 2 t) }

/-- SEC_TENANT_ERASE. -/
def execSEC_TENANT_ERASE (x : Slip) (s : State) : Host.Outcome State Fault Refusal :=
  runSlip Op.SEC_TENANT_ERASE x s fun s => s.withPresence x <| noSession x [0, 0, 0, 0, 0, 0] s <|
    let t := x.ten
    let open_ := (s.sessions.filter (fun p => p.2.tenant == t && p.2.state != Ss.CLOSED)).map (·.1)
    if (s.tenant t).key.isNone && open_.isEmpty then .no s St.ALREADY_DONE
    else
      let s := open_.foldl (fun s i => { (s.stopWork i).closeSess i with moves := tDel s.moves i }) s
      let ids := (s.shards.filter (fun v => v.2.tenant == t)).map (·.1)
      let s := ids.foldl (fun s i => (s.dropShard i).1) s
      let rs := (s.rings.filter (fun r => r.2.tenant == t && r.2.state != 0)).map (·.1)
      let s := rs.foldl (fun s n => s.setRing n { s.ring n with state := 0, owner := none, pushes := [], batch := [] }) s
      .done ((s.forgetTenant t).reclaimCheck.bump F.SEC_CNT_ERASE_COUNT) (Answer.ok open_.length ids.length)

/-! ## Confidential host, debug, fuses (R385, R396, R397) -/

/-- SEC_CONF_HOST. -/
def execSEC_CONF_HOST (x : Slip) (s : State) : Host.Outcome State Fault Refusal :=
  runSlip Op.SEC_CONF_HOST x s fun s => noSession x [1, 0, 0, 0, 0, 0] s <|
    let want := bitOf x.P0 0
    if s.sec.confNext == want then .done s (Answer.mk' St.ALREADY_DONE 0 (b2n want))
    else
      let s := { s with sec := { s.sec with confNext := want } }
      .done ((s.setFld F.SEC_STATE_CONF_HOST_NEXT (b2n want)).emit (.flashWrite 0)) (Answer.ok (b2n want))

/-- SEC_DEBUG_UNLOCK. -/
def execSEC_DEBUG_UNLOCK (x : Slip) (s : State) : Host.Outcome State Fault Refusal :=
  runSlip Op.SEC_DEBUG_UNLOCK x s fun s => s.withPresence x <| noSession x [0, 0, 0, 0, 0, 0] s <|
    if s.flag F.SEC_STATE_DEBUG_UNLOCKED then .no s St.ALREADY_DONE
    else if s.loaded then .no s St.BUSY 1
    else if s.tenants.any (fun t => t.2.key.isSome) then .no s St.BUSY 2
    else .done (s.setFld F.SEC_STATE_DEBUG_UNLOCKED 1).measured (Answer.ok)

/-- Fuse address of a defect mark, when the unit can have one: 1 ME, 2 tidy core, 3 NBU. -/
def markFuse (field n : Nat) : Option Nat :=
  if field == 1 then (if n < 132 then some (0x10 + n) else none)
  else if field == 2 then (if n < 272 then some (0xA0 + n) else none)
  else if n < 6144 then some (0x200 + n) else none

/-- Is the unit of a mark, or the stack of a row, in this variant? -/
def State.markPresent (s : State) (field n : Nat) : Bool :=
  if field == 1 then (if n < 128 then s.clusterOn (n / 8) else s.variant != 2 || n < 130)
  else if field == 2 then s.clusterOn (n / 17)
  else if field == 3 then s.stackOn (n / 512)
  else s.stackOn (n / 2 ^ 25)

/-- SEC_FUSE_PROGRAM: defect marks, which change FUSE_DIGEST and so measurement 6, or row repairs (R397, R426). -/
def execSEC_FUSE_PROGRAM (x : Slip) (s : State) : Host.Outcome State Fault Refusal :=
  runSlip Op.SEC_FUSE_PROGRAM x s fun s => s.withPresence x <| noSession x [0, 0, 0, 0, 0, 0] s <|
    match badStruct 0x2806 12 x.payload with
    | some e => .no s e.1 e.2
    | none =>
      let field := rdLe x.payload 8 1
      let n := rdLe x.payload 10 2
      let es := (List.range n).map (fun k => rdLe x.payload (12 + 4 * k) 4)
      if field == 0 || field > 4 || n == 0 || n > 64 then .no s St.BAD_PARAM 0x2906
      else if 12 + 4 * n > rdLe x.payload 4 4 then .no s St.PAYLOAD_TRUNCATED
      else if es.any (fun e => if field == 4 then e ≥ 2 ^ 29 else (markFuse field e).isNone) then .no s St.BAD_PARAM 0x2906
      else if es.any (fun e => !s.markPresent field e) then .no s St.ABSENT_RESOURCE
      else if field == 4 then
        let r := es.foldl (fun (a : State × Option Answer × Nat) row =>
          match a.2.1, a.1.repairBarred row with
          | some _, _ => a
          | none, some no => (a.1, some no, a.2.2)
          | none, none => ((a.1.repairMove row).repairBurn row, none, a.2.2 + 1)) (s, none, 0)
        match r.2.1 with
        | some no => .done s no
        | none => .done r.1 (Answer.ok r.2.2)
      else
        let fresh := (es.filterMap (markFuse field)).eraseDups.filter (fun a => !s.fuseBit a)
        .done (if fresh.isEmpty then s else (s.blow fresh).measured) (Answer.ok fresh.length)

/-! ## SPDM (R374, R375) -/

/-- The responder answers on a transport. -/
def State.spdm (s : State) (transport code : Nat) (body : Bytes) : State := s.emit (.spdm transport code body)

/-- An SPDM error response; each counts (SEC_CNT_SPDM_FAIL). -/
def State.spdmError (s : State) (transport err : Nat) : State :=
  (s.bump F.SEC_CNT_SPDM_FAIL_COUNT).spdm transport 0x7F (leBytes 1 err)

/-- Does the responder run: desk firmware does (step 4 of Table 16.4)? -/
def State.responds (s : State) : Bool := s.takesSlips

/-- SPDM_REQUEST: a standard request; response codes are those of SPDM 1.2 (log entry 68). -/
def execSPDM_REQUEST (transport : Nat) (req : SpdmReq) (s : State) : Host.Outcome State Fault Refusal :=
  if !s.responds then .next s
  else if s.tick < s.sec.rindUntil then .next (s.spdmError transport 0x03)
  else
    let inSession := fun (k : Nat) (code : Nat) => match tGet s.sec.spdm k with
      | some v => if v.transport == transport then s.spdm transport code [] else s.spdmError transport 0x01
      | none => s.spdmError transport 0x01
    match req with
    | .getVersion => .next (s.spdm transport 0x04 [0x12])
    | .getCapabilities => .next (s.spdm transport 0x61 [])
    | .negotiateAlgorithms ok => .next (if ok then s.spdm transport 0x63 [] else s.spdmError transport 0x01)
    | .getDigests => .next (s.spdm transport 0x01 (leBytes 1 (if s.sec.chain1.isEmpty then 1 else 3)))
    | .getCertificate k =>
      .next (if k == 0 then s.spdm transport 0x02 [] else if k == 1 && !s.sec.chain1.isEmpty then s.spdm transport 0x02 s.sec.chain1
        else s.spdmError transport 0x01)
    | .challenge k => .next (if k == 0 || (k == 1 && !s.sec.chain1.isEmpty) then s.spdm transport 0x03 [] else s.spdmError transport 0x01)
    | .getMeasurements i =>
      .next (if i == 0 then s.spdm transport 0x60 [7]
        else if i == 0xFF then s.spdm transport 0x60 ([1, 2, 3, 4, 5, 6, 7].flatMap s.measurement)
        else if i ≤ 7 then s.spdm transport 0x60 (s.measurement i) else s.spdmError transport 0x01)
    | .keyExchange => .next (if s.sec.spdm.length ≥ 8 then s.spdmError transport 0x0A else s.spdm transport 0x64 [])
    | .finish leaf genuine =>
      match s.principals.find? (fun p => p.2.digest == leaf && (p.2.role == 4 || p.2.role == 5)), tFree s.sec.spdm 1 8 0 with
      | some p, some k =>
        if !genuine then .next (s.spdmError transport 0x06)
        else
          let v : SpdmSess := { transport := transport, principal := p.1, role := p.2.role }
          .next ({ s with sec := { s.sec with spdm := tPut s.sec.spdm k v } }.spdm transport 0x65 (leBytes 1 k))
      | none, _ => .next (s.spdmError transport 0x06)
      | some _, none => .next (s.spdmError transport 0x0A)
    | .heartbeat k => .next (inSession k 0x68)
    | .keyUpdate k => .next (inSession k 0x69)
    | .endSession k =>
      let r := inSession k 0x6C
      let mine : Bool := match tGet s.sec.spdm k with | some v => v.transport == transport | none => false
      .next (if mine then { r with sec := { r.sec with spdm := tDel r.sec.spdm k } } else r)
    | .getCsr => .next (s.spdm transport 0x6D [])
    | .setCertificate k chain genuine =>
      if k == 1 && genuine then .next ({ s with sec := { s.sec with chain1 := chain } }.spdm transport 0x6E [])
      else .next (s.spdmError transport 0x01)
    | .other => .next (s.spdmError transport 0x07)

/-! ## Vendor-defined messages (R377-R379, R386) -/

/-- The frame of a vendor-defined message: inside an open secure session whose role may send it; the response carries STATUS. -/
def State.vendor (s : State) (session role : Nat) (f : SpdmSess → State × Nat × Bytes) : State :=
  if !s.responds then s
  else match tGet s.sec.spdm session with
    | none => s
    | some v =>
      if s.tick < s.sec.rindUntil then s.spdmError v.transport 0x03
      else if v.role != role then s.spdm v.transport 0x7E (leBytes 2 St.NOT_PERMITTED)
      else let r := f v; r.1.spdm v.transport 0x7E (leBytes 2 r.2.1 ++ r.2.2)

/-- Keys may not be delivered: the seal is broken, or debug is unlocked or service mode on (R378, R392, R396). -/
def State.keysBarred (s : State) : Option Nat :=
  if s.flag F.SEC_STATE_SEAL_BROKEN then some St.SEALED
  else if s.flag F.SEC_STATE_DEBUG_UNLOCKED || s.flag F.SEC_STATE_SERVICE then some St.NOT_PERMITTED
  else none

/-- What waited for a tenant's key goes on: records of an adoption (R321), armed sessions to revive (R319). -/
def State.keyHere (s : State) (t : Nat) : State :=
  let ks := s.ckpt.keyless
  let s := s.updCkpt (fun c => { c with keyless := [] })
  let s := ks.foldl (fun s k => s.adoptRecord k.1 k.2.1 k.2.2) s
  let left := fun (d : Nat) => (s.ckpt.keyless.filter (fun k => k.1 == d)).map (fun k => bucketOf (rdLe k.2.2 0 8))
  let cut := fun (z : Adopt) =>
    if z.begun && !s.ckpt.adoptions.any (·.dev == z.dev) then { z with buckets := z.buckets.filter (left z.dev).contains } else z
  let s := s.updCat (fun c => { c with adopt := (c.adopt.map cut).filter (fun z => !z.buckets.isEmpty) })
  ((s.sessions.filter (fun p => p.2.tenant == t)).map (·.1)).foldl State.reviveArmed s

/-- KEY_DELIVER, checked in the order of R378. -/
def execKEY_DELIVER (session tenant flags : Nat) (key : Bytes) (kcv : Nat) (trust : List Bytes) (s : State) : Host.Outcome State Fault Refusal :=
  .next <| s.vendor session 4 fun _ =>
    let v := s.tenant tenant
    let held := (s.tenants.filter (fun t => t.2.key.isSome)).length
    let put := fun (s : State) (key : Bytes) =>
      s.updTenant tenant (fun v => { v with provisioned := true, key := some key, kcv := kcv, trustOperator := bitOf flags 0, trust := trust, sealedErase := false })
    match s.keysBarred with
    | some st => (s, st, [])
    | none =>
      if (0xFFF < tenant && tenant != 0xFFFF) || trust.length > 16 || key.length != 32 || kcvOf key != kcv then (s, St.BAD_PARAM, [])
      else match v.key with
        | some k =>
          if k == key then ((put s key).bump F.SEC_CNT_KEY_DELIVER_COUNT, St.ALREADY_DONE, [])
          else (s, St.BAD_PARAM, [])
        | none =>
          if held ≥ 4097 then (s, St.NO_SLOTS, [])
          else (((put s key).bump F.SEC_CNT_KEY_DELIVER_COUNT).keyHere tenant, St.OK, [])

/-- KEY_QUERY. -/
def execKEY_QUERY (session tenant : Nat) (s : State) : Host.Outcome State Fault Refusal :=
  .next <| s.vendor session 4 fun _ =>
    let v := s.tenant tenant
    if 0xFFF < tenant && tenant != 0xFFFF then (s, St.BAD_PARAM, [])
    else (s, St.OK, leBytes 1 (b2n v.key.isSome + 2 * b2n v.sealedErase) ++ leBytes 4 v.kcv)

/-- BUNDLE_KEY: the key for a profile, in place of one held before. -/
def execBUNDLE_KEY (session profile : Nat) (key : Bytes) (s : State) : Host.Outcome State Fault Refusal :=
  .next <| s.vendor session 4 fun _ =>
    match s.keysBarred with
    | some st => (s, st, [])
    | none => if key.length != 32 then (s, St.BAD_PARAM, []) else ({ s with boot := { s.boot with bundleKey := some (profile, key) } }, St.OK, [])

/-- BOUNCE_KEYS (R386): over MCTP in CXL.io, while the mode is active, before any pair or ring has been enabled. -/
def execBOUNCE_KEYS (session : Nat) (s : State) : Host.Outcome State Fault Refusal :=
  .next <| s.vendor session 5 fun v =>
    if v.transport != 0 || !s.conf || s.sec.hostUsed || s.flag F.SEC_STATE_DEBUG_UNLOCKED || s.flag F.SEC_STATE_SERVICE then
      (s, St.NOT_PERMITTED, [])
    else
      let k := (slice (Config.bounceKey s.freeCtr) 0 36, slice (Config.bounceKey (s.freeCtr + 1)) 0 36)
      ({ s with freeCtr := s.freeCtr + 2, sec := { s.sec with bounce := some k, bounceSeq := 0 } }, St.OK, k.1 ++ k.2)

/-! ## The Rind and the desk cores (R368, R369) -/

/-- The Rind's cores are reset from ROM, for at most 5 ms; the third time within 60 s the device is held in reset until power is removed. -/
def State.rindReset (s : State) (kind : Nat) : State :=
  let recent := s.sec.rindResets.filter (fun (t : Int) => decide ((s.tick : Int) < t + 6000000000)) ++ [(s.tick : Int)]
  let s := { s with freeCtr := s.freeCtr + 1, sec := { s.sec with
    rindResets := recent, rindSince := s.tick, rindUntil := s.tick + min (Config.rindTicks s.freeCtr) 500000 } }
  let s := s.errRecord 3 kind (errUnit 7 0) 0 0
  if recent.length ≥ 3 then (s.errRecord 5 (Config.errKind 1 % 256) (errUnit 7 0) 0 0).coldReset 5 else s

/-- RIND_LOCKSTEP_MISMATCH. -/
def execRIND_LOCKSTEP_MISMATCH (s : State) : Host.Outcome State Fault Refusal :=
  if s.boot.hold != 0 then .next s
  else .next ((s.bumpSat F.RIND_LOCKSTEP_MISMATCHES).rindReset (Config.errKind 0 % 256))

/-- RIND_WATCHDOG_EXPIRY. -/
def execRIND_WATCHDOG_EXPIRY (s : State) : Host.Outcome State Fault Refusal :=
  if s.boot.hold != 0 then .next s
  else .next ((s.bumpSat F.RIND_LOCKSTEP_WDOG_EXPIRIES).rindReset Ek.WATCHDOG)

/-- A revive that no slip waits for any more is given up: the session is again in the state before it (R45).  A step in flight runs
on. -/
def State.giveUpRevive (s : State) (acc : Nat) : State :=
  match s.findSess acc with
  | none => s
  | some (i, e) => match tGet s.revives i with
    | none => s
    | some r =>
      if e.state != Ss.REVIVING || e.inStep || r.readmit || s.held.any (fun h => h.2 == .revive acc) then s
      else
        let s := ((s.dropPrefill i).dequeue i).dropPages i
        let s := s.updSess i fun e =>
          { e with pending := if r.phase == 3 then e.pending - (r.goal - e.kvLength) else e.pending, kvLength := max e.kvLength r.goal,
                   tier := if e.reviveFrom == Ss.PARKED then max e.holderTier1 2 else 0 }
        (s.setLog i 0).reviveRefused i (Answer.st St.TIMEOUT)

/-- A park that no SESS_PARK waits for any more is given up (R45). -/
def State.giveUpPark (s : State) (acc : Nat) : State :=
  match s.findSess acc with
  | none => s
  | some (i, e) =>
    if e.parking == 0 || s.slips.any (fun o => o.op == Op.SESS_PARK && o.slip.acc == acc && o.stage == .waiting) then s
    else (s.abandonCommit i).release (· == .park acc)

/-- DESK_WATCHDOG_EXPIRY: the slips outstanding on a desk core are answered TIMEOUT and the core is reset; at the third time within 1 s
it is soft-disabled.  A slip answered so has no effect afterwards: what waited for it is given up (R45). -/
def execDESK_WATCHDOG_EXPIRY (core : Nat) (slips : List (Ctx × BitVec 32)) (s : State) : Host.Outcome State Fault Refusal :=
  let u := errUnit 7 (3 * 256 + core)
  if core ≥ 8 || s.unitState u != 2 then .next s
  else
    let s := slips.foldl (fun s k =>
      match s.outst k.1 k.2 with
      | some o =>
        let s := { s with held := s.held.filter (fun h => !(h.1.slip.src == k.1 && h.1.slip.tag == k.2)) }
        let s := s.finish o.op o.slip (Answer.st St.TIMEOUT)
        if o.op == Op.SESS_PARK then s.giveUpPark o.slip.acc else s.giveUpRevive o.slip.acc
      | none => s) s
    let mine := (s.sec.deskResets.filter (fun d => s.tick < d.2 + 100000000)) ++ [(core, s.tick)]
    let s := ({ s with sec := { s.sec with deskResets := mine } }.errRecord 3 Ek.WATCHDOG u 0 0).resetUnit u
    .next (if (mine.filter (·.1 == core)).length ≥ 3 then s.disableUnit u else s)

/-! ## Presence and the jumper (R390-R392) -/

/-- Set or clear a bit of SEC_INPUTS. -/
def State.setInput (s : State) (f : Fld) (bit : Nat) (on : Bool) : State :=
  let v := s.fld f
  s.setFld f (if on then v ||| 2 ^ bit else v - (if v.testBit bit then 2 ^ bit else 0))

/-- PRESENCE_PRESS: the button is released after `low` ms of filtered low; 100 ms to 3 s opens or restarts the window. -/
def execPRESENCE_PRESS (low : Nat) (s : State) : Host.Outcome State Fault Refusal :=
  if s.sec.stuck || s.tick < s.sec.quietUntil || low < 100 || low > 3000 || s.boot.hold != 0 then .next s
  else .next (({ s with sec := { s.sec with windowEnd := some (s.tick + 3000000000) } }).bump F.SEC_CNT_PRESS_COUNT)

/-- PRESENCE_WINDOW_END. -/
def execPRESENCE_WINDOW_END (s : State) : Host.Outcome State Fault Refusal :=
  match s.sec.windowEnd with
  | some t => .next (if t ≤ s.tick then s.closeWindow else s)
  | none => .next s

/-- PRESENCE_STUCK: PRES_N is stuck, or has been high for 1 s again; the levels in SEC_INPUTS read 1 for a pressed button (log
entry 94). -/
def execPRESENCE_STUCK (on : Bool) (s : State) : Host.Outcome State Fault Refusal :=
  if s.sec.stuck == on then .next s
  else
    let s := (((({ s with sec := { s.sec with stuck := on } }).setInput F.SEC_INPUTS_PRESENCE 0 on).setInput F.SEC_INPUTS_PRESENCE 1 on).setInput
      F.SEC_INPUTS_PRESENCE 2 on)
    .next (if on then s.bump F.SEC_CNT_STUCK_COUNT else s)

/-- The service jumper is gone: service mode ends until the next reset (R392). -/
def State.noJumper (s : State) : State :=
  let s := ((({ s with sec := { s.sec with jumper := false } }).setInput F.SEC_INPUTS_JUMPER 0 false).setInput F.SEC_INPUTS_JUMPER 1 false)
  if s.flag F.SEC_STATE_SERVICE then (s.setFld F.SEC_STATE_SERVICE 0).measured else s

/-- JUMPER_REMOVED. -/
def execJUMPER_REMOVED (s : State) : Host.Outcome State Fault Refusal := .next s.noJumper

/-! ## The seal (R393, R394) -/

/-- The loop is broken: keys are zeroed, the next SEAL_COUNT fuse is programmed, a sticky record written, and the device restarts; once
in a boot, and never while device reset is held. -/
def State.sealBreak (s : State) : State :=
  if s.flag F.SEC_STATE_SEAL_BROKEN || s.boot.hold != 0 then s
  else
    let s := { s with
      tenants := s.tenants.map (fun (t : Nat × Tenant) =>
        (t.1, { t.2 with key := none, kcv := 0, trust := [], trustOperator := false, sealedErase := t.2.sealedErase || t.2.key.isSome }))
      boot := { s.boot with bundleKey := none }
      sec := { s.sec with bounce := none } }
    let n := s.thermo 0x1B80 8
    let s := if n < 8 then s.blow [0x1B80 + n] else s
    let s := (s.errRecord 5 (Config.errKind 2 % 256) (errUnit 7 0) 0 0).beginWarm 4
    (s.setFld F.SEC_STATE_SEAL_BROKEN 1).setInput F.SEC_INPUTS_SEAL 5 true

/-- SEAL_EPISODE: a mismatch begins an episode, or a matching bit ends it. -/
def execSEAL_EPISODE (begins : Bool) (s : State) : Host.Outcome State Fault Refusal :=
  if begins then
    match s.sec.episode with
    | some _ => .next s
    | none =>
      .next (({ s with sec := { s.sec with episode := some s.tick } }.setInput F.SEC_INPUTS_SEAL 1 false).bump F.SEC_CNT_SEAL_GLITCH_COUNT)
  else .next ({ s with sec := { s.sec with episode := none } }.setInput F.SEC_INPUTS_SEAL 1 true)

/-- SEAL_BREAK: an episode has lasted longer than 500 µs. -/
def execSEAL_BREAK (s : State) : Host.Outcome State Fault Refusal :=
  match s.sec.episode with
  | some t => .next (if s.tick > t + 50000 then s.sealBreak else s)
  | none => .next s

/-- INPUT_CHATTER: more than 8 raw edges, or mismatch episodes, in 1 s: 0 PRES_N, whose presses are ignored for 10 s; 1 SVC_JMP_N, which
counts as removed; 2 the seal loop, which is broken (Table 15.10). -/
def execINPUT_CHATTER (input : Nat) (s : State) : Host.Outcome State Fault Refusal :=
  if s.boot.hold != 0 then .next s
  else
    let s := s.bump F.SEC_CNT_CHATTER_COUNT
    if input == 0 then .next ({ s with sec := { s.sec with quietUntil := s.tick + 1000000000 } })
    else if input == 1 then .next (s.noJumper.setInput F.SEC_INPUTS_JUMPER 3 true)
    else .next ((s.setInput F.SEC_INPUTS_SEAL 3 true).sealBreak)

end Sys2Proof.Machine
end

