-- ==== Sys2Proof/Machine/Bring.lean ====
section
/-!
DEFINITION. Power-on and restarts (R402-R412, Table 16.4, R445-R448, R453-R456, R318): images, fuses, waves, training, known-answer
tests, floors; reference clocks, thermal limits and throttling.
-/

namespace Sys2Proof.Machine

/-! ## Steps 1 to 5 -/

/-- The units a variant and its fuses give (R21, R406): masks, MEs and their fields, spares for defective MEs, NBUs, text units, checking
units, links of absent parts (Table 13.2).  A spare not enabled reads ABSENT (R181). -/
def State.bootUnits (s : State) : State :=
  let v := s.variant
  let s := (((s.setFld F.DEV_CAP0_CLUSTER_MASK (clusterMask v)).setFld F.DEV_CAP0_STACK_MASK (stackMask v)).setFld F.DEV_CAP0_PORT_MASK
    (portMask v)).setFld F.DEV_CAP0_CELLAR_MASK (stackMask v)
  let s := { s with boot := { s.boot with tidyMarks := (List.range 272).filter (fun n => s.fuseBit (0xA0 + n)), spares := [], tidyOff := [] } }
  let s := (List.range 132).foldl (fun s e =>
    let built := if e < 128 then s.clusterOn (e / 8) else s.clusterOn (8 * mePart e)
    let on := e < 128 && built && !s.fuseBit (0x10 + e)
    let word := b2n on * 2 ^ 62 + 3 * 2 ^ 59 + mePart e * 2 ^ 58 + b2n (decide (e ≥ 128)) * 2 ^ 57 + (if e < 128 then e / 8 else 0) * 2 ^ 52
    s.setReg (A.ME_UNIT + 8 * e) (BitVec.ofNat 64 word)) s
  let s := ((List.range 128).filter (fun e => s.clusterOn (e / 8) && s.fuseBit (0x10 + e))).foldl (fun s e =>
    match s.freeSpares (mePart e) with
    | k :: _ => s.useSpare e k 3
    | [] => s) s
  let s := (List.range 96).foldl (fun s w =>
    s.setReg (A.NBU_EN + 8 * w) (if s.stackOn (w / 8) then ~~~(BitVec.ofNat 64 (s.fuse (8 + w))) else 0)) s
  let s := (List.range 64).foldl (fun s i =>
    let kind := if i < 16 then 0 else if i < 48 then 1 else 2
    let c := if i < 16 then i else if i < 48 then (i - 16) / 2 else i - 48
    s.setReg (A.TEXT_UNIT + 8 * i) (BitVec.ofNat 64 (b2n (s.clusterOn c) * 2 ^ 62 + kind * 2 ^ 58))) s
  let s := (List.range 9).foldl (fun s i => s.setReg (A.CHK_UNIT + 8 * i) (BitVec.ofNat 64 (2 ^ 62))) s
  (List.range 80).foldl (fun s l =>
    let absent := if l < 64 then l ≥ 32 && s.onePartition else if l < 66 then s.onePartition else if l == 67 then s.onePartition
      else l ≥ 68 && !s.stackOn (l - 68)
    if absent then s.setFld (F.ERR_LINK_STATE.at (8 * l)) 3 else s) s

/-- The stack map of HDM0's interleave (R120, Table 5.13); entries at or above S read 0xF. -/
def State.bootMap (s : State) : State :=
  let l := s.stackList
  let map := (List.range 12).foldl (fun a i => a + l.getD i 15 * 16 ^ i) 0
  ((s.setFld F.NBU_STACKMAP_Z (if l.length == 6 then 2 else 4)).setFld F.NBU_STACKMAP_S l.length).setFld F.NBU_STACKMAP_MAP map

/-- Registers the Rind fills from fuses, configuration record and jumper at boot (R385, R388, R392, R394, R405, R410). -/
def State.bootRegs (s : State) : State :=
  let v := s.variant
  let s := s.setFld F.DEV_ID_DEVICE_CODE (deviceCode v)
  let s := s.setReg A.BOOT_FLOOR (BitVec.ofNat 64 (countsWord (floors v)))
  let s := s.setFld F.CXL_POWER_PWR_CAP (if v == 0 then 1400 else if v == 1 then 1050 else 750)
  let s := s.setFld F.NET_MAC_BASE (bitsOf (s.fuse 0x6E) 63 16)
  let s := (((s.setFld F.SEC_STATE_SERVICE (b2n s.sec.jumper)).setFld F.SEC_STATE_CONF_HOST (b2n s.sec.confNext)).setFld
    F.SEC_STATE_CONF_HOST_NEXT (b2n s.sec.confNext)).setFld F.SEC_STATE_BOOTSTRAP (b2n s.bootstrap)
  let s := (s.setFld F.SEC_STATE_SEAL_COUNT (s.thermo 0x1B80 8)).setFld F.SEC_STATE_ANTI_ROLLBACK (s.thermo 0x1B40 64)
  let s := ((s.setInput F.SEC_INPUTS_JUMPER 0 s.sec.jumper).setInput F.SEC_INPUTS_JUMPER 1 s.sec.jumper).setInput F.SEC_INPUTS_JUMPER 4 s.sec.jumper
  let s := s.setInput F.SEC_INPUTS_SEAL 1 s.sec.episode.isNone
  (s.setPart 0 2).setPart 1 (if s.onePartition then 0 else 2)

/-- The image the ROM boots (R404): the preferred one, or the other when that does not pass or was a trial image that did not get ready
and the other passes; none when neither passes. -/
def State.bootChoice (s : State) : Option Nat :=
  let p := s.flash.preferred
  if s.imageOk p && !(s.flash.trial && s.flash.tried) then some p else if s.imageOk (1 - p) then some (1 - p) else if s.imageOk p then some p else none

/-- Stay in the ROM, FAULTED (R404, R405). -/
def State.romFault (s : State) (cause : Nat) : State := (s.setFld F.BOOT_STATE_STATE 8).setFld F.BOOT_STATE_FAULT_CAUSE cause

/-- Steps 2 to 5 of Table 16.4: device reset is released, DEV_TICK starts from zero (R39); fuses, image, desk cores; the raised GEN_FLOOR
is written before the first slot is allocated (R309). -/
def State.boot25 (s : State) (fuseOk : Bool) : State :=
  let s := { s with tick := 0 }
  if !fuseOk then s.romFault 2
  else
    let s := ((s.setFld F.BOOT_IMAGE_PREFERRED s.flash.preferred).setFld F.BOOT_IMAGE_TRIAL (b2n s.flash.trial)).setFld F.BOOT_IMAGE_VALID_A
      (b2n (s.imageOk 0))
    let s := ((s.setFld F.BOOT_IMAGE_VALID_B (b2n (s.imageOk 1))).setFld F.BOOT_IMAGE_ROLLBACK_A (s.rollback 0)).setFld F.BOOT_IMAGE_ROLLBACK_B
      (s.rollback 1)
    match s.bootChoice with
    | none => s.romFault 1
    | some b =>
      let s := (s.setFld F.BOOT_IMAGE_ACTIVE b).setFld F.BOOT_IMAGE_FALLBACK (b2n (b != s.flash.preferred))
      let s := { s with flash := { s.flash with tried := s.flash.trial && (s.flash.tried || b == s.flash.preferred) } }
      let s := s.setReg A.DEV_FW (BitVec.ofNat 64 (leNat (s.flashRd (imageBase b + 152) 8)))
      let s := (s.bootUnits.bootMap.bootRegs).setFld F.RIND_STATUS_STATE 1
      let s := { s.emit (.flashWrite 0) with genBase := s.genFloor, floorBusy := true }
      s.setFld F.BOOT_STATE_STATE 1

/-- POWER_ON: POR_N rises; `jumper` is the filtered level of the service jumper, `fuseOk` whether every fuse word passes its ECC. -/
def execPOWER_ON (jumper fuseOk : Bool) (s : State) : Host.Outcome State Fault Refusal :=
  if s.boot.hold > 1 || s.fld F.BOOT_STATE_STATE != 0 then .next s
  else .next ({ s with boot := { s.boot with hold := 0 }, sec := { s.sec with jumper := jumper } }.boot25 fuseOk)

/-! ## Steps 6 to 12 -/

/-- Cluster waves and stack waves of a variant (R408). -/
def State.waveCounts (s : State) : Nat × Nat := (if s.variant == 1 then 6 else 8, s.stackList.length)

/-- POWER_WAVE: the next power wave, then the next stack wave, has completed; after the last STATE becomes 2 (step 8). -/
def execPOWER_WAVE (s : State) : Host.Outcome State Fault Refusal :=
  let n := s.waveCounts
  let w := s.fld F.BOOT_STATE_WAVES
  let k := s.fld F.BOOT_STATE_STACK_WAVES
  if s.fld F.BOOT_STATE_STATE != 1 then .next s
  else if w < n.1 then .next (s.setFld F.BOOT_STATE_WAVES (w + 1))
  else
    let s := s.setFld F.BOOT_STATE_STACK_WAVES (k + 1)
    .next (if k + 1 ≥ n.2 then s.setFld F.BOOT_STATE_STATE 2 else s)

/-- Counts of units in service in the order of Table 16.5's first six rows. -/
def State.bootCounts (s : State) : List Nat :=
  let mes := ((List.range 132).filter (fun e => s.meOn e && (e < 128 || s.boot.spares.contains e))).length
  let tidy := ((List.range 16).map s.tidyOf).foldl (· + ·) 0
  let nbus := ((List.range 96).map (fun w =>
    popBits ((s.reg (A.NBU_EN + 8 * w)) &&& ~~~(s.reg (A.NBU_DIS + 8 * w))).toNat 64)).foldl (· + ·) 0
  let text := fun (first n : Nat) => ((List.range n).filter (fun i => s.fld (F.TEXT_UNIT_STATE.at (8 * (first + i))) ≥ 2)).length
  [min 128 mes, tidy, nbus, text 0 16, text 16 32, text 48 16]

/-- Is every count at or above its floor (Table 16.5)? -/
def State.floorsMet (s : State) : Bool :=
  let fl := floors s.variant
  let chk := fun (first n : Nat) => ((List.range n).filter (fun i => s.fld (F.CHK_UNIT_STATE.at (8 * (first + i))) ≥ 2)).length
  let part := fun (q : Nat) => (List.range 6).any (fun c => s.channelOn (6 * q + c))
  ((s.bootCounts.zip fl).all (fun p => p.1 ≥ p.2)) && 8 - popBits (s.fld F.RIND_WDOG_DESK_DISABLED) 8 ≥ 6 && chk 0 4 ≥ 2 && chk 5 4 ≥ 3
    && s.boot.gcm ≥ fl.getD 6 0 && part 0 && (s.onePartition || part 1)

/-- A trial image has got ready (R404): TRIAL is cleared and the anti-rollback count raised to the image's ROLLBACK. -/
def State.trialReady (s : State) : State :=
  if s.flag F.BOOT_IMAGE_TRIAL && s.fld F.BOOT_IMAGE_ACTIVE == s.flash.preferred then
    let r := min 64 (s.rollback s.flash.preferred)
    let s := if s.thermo 0x1B40 64 < r then (s.blow ((List.range r).map (0x1B40 + ·))).measured else s
    (s.setFld F.SEC_STATE_ANTI_ROLLBACK (s.thermo 0x1B40 64)).flashJob (.control s.flash.preferred false none)
  else s

/-- Step 12, once training and tests are complete: DEV_CAP1, then STANDALONE_READY, or FAULTED with cause 4 (R411). -/
def State.tryReady (s : State) : State :=
  let b := s.boot
  if !(b.hbm && b.ddr && b.kat) || s.fld F.BOOT_STATE_STATE != 3 then s
  else
    let s := s.setReg A.DEV_CAP1 (BitVec.ofNat 64 (countsWord s.bootCounts))
    if !s.floorsMet then s.romFault 4
    else
      let s := (s.setPart 0 3).setPart 1 (if s.onePartition then 0 else 3)
      ((s.setFld F.BOOT_TIME_READY_MS (s.tick / 100000)).setFld F.BOOT_STATE_STATE 4).trialReady

/-- Both trainings complete: STATE becomes 3. -/
def State.trained (s : State) : State :=
  if s.boot.hbm && s.boot.ddr && s.fld F.BOOT_STATE_STATE == 2 then s.setFld F.BOOT_STATE_STATE 3 else s

/-- HBM_TRAINING_DONE (step 9): every stack still present has trained, T1 is initialised, and the tests begin. -/
def execHBM_TRAINING_DONE (s : State) : Host.Outcome State Fault Refusal :=
  if s.fld F.BOOT_STATE_STATE != 2 || s.boot.hbm then .next s
  else .next ({ s with boot := { s.boot with hbm := true } }.trained.tryReady)

/-- May a channel's population be trained (R445, R446)? -/
def populated (p : Option Dimm × Option Dimm) : Bool :=
  let fit := fun (d : Dimm) => d.fit && 16 ≤ d.gib && d.gib ≤ 256 && (d.mts == 6400 || d.mts == 7200 || d.mts == 8000)
  match p with
  | (some a, none) => fit a
  | (some a, some b) => fit a && fit b && a.gib == b.gib && a.ranks == b.ranks && a.mts == b.mts
  | _ => false

/-- Capacity of a channel in GiB, its DIMMs, and its rate. -/
def channelGib (p : Option Dimm × Option Dimm) : Nat := (match p.1 with | some a => a.gib | none => 0) + (match p.2 with | some a => a.gib | none => 0)
def channelDimms (p : Option Dimm × Option Dimm) : Nat := b2n p.1.isSome + b2n p.2.isSome
def channelRate (p : Option Dimm × Option Dimm) : Nat := match p.1 with | some a => a.mts | none => 0

/-- DDR_TRAINING_DONE (step 11): the channels of `chans`, in order, that are populated as R446 asks and have not failed, have trained;
`xts` are the inline XTS engines that fail their test. -/
def execDDR_TRAINING_DONE (chans : List (Option Dimm × Option Dimm)) (xts : List Nat) (s : State) : Host.Outcome State Fault Refusal :=
  if s.fld F.BOOT_STATE_STATE != 2 || s.boot.ddr then .next s
  else
    let pop := fun (c : Nat) => chans.getD c (none, none)
    let on := (List.range 12).filter (fun c => s.channelOn c && populated (pop c))
    let per := ((on.map (fun c => channelGib (pop c))).min?).getD 0
    let odd := (on.filter (fun c => channelGib (pop c) > per)).foldl (fun a c => a + 2 ^ c) 0
    let rate := ((on.map (fun c => channelRate (pop c))).min?).getD 0
    let dimms := ((List.range 12).map (fun c => channelDimms (pop c))).foldl (· + ·) 0
    let s := s.setFld F.DEV_CAP0_CELLAR_MASK (on.foldl (fun a c => a + 2 ^ c) 0)
    let s := s.setFld F.TIER_CAP_CELLAR_GIB (on.length * per)
    let s := (((s.setFld F.CXL_CELLAR_MISMATCH odd).setFld F.CXL_CELLAR_CHANNEL_GIB per).setFld F.CXL_CELLAR_DIMMS dimms).setFld
      F.CXL_CELLAR_MTS_100 (rate / 100)
    let bad := xts.eraseDups.filter (fun k => k < 4)
    let s := bad.foldl (fun s k => (s.errRecord 3 Ek.KNOWN_ANSWER (errUnit 7 (6 * 256 + k)) 0 0).disableUnit (errUnit 7 (6 * 256 + k))) s
    let s := s.setFld F.BOOT_KAT_FAILED (s.fld F.BOOT_KAT_FAILED + bad.length)
    .next ({ s with boot := { s.boot with ddr := true } }.trained.tryReady)

/-- A stack or channel is absent (R407): its units count as failed. -/
def State.markAbsent (s : State) (scope index : Nat) : State :=
  if scope == 2 then
    let s := s.setFld F.DEV_CAP0_STACK_MASK (s.fld F.DEV_CAP0_STACK_MASK - 2 ^ index)
    let s := (List.range 8).foldl (fun s w => s.setReg (A.NBU_EN + 8 * (8 * index + w)) 0) s
    (s.setFld (F.ERR_LINK_STATE.at (8 * (68 + index))) 3).bootMap
  else s.setFld F.DEV_CAP0_CELLAR_MASK (s.fld F.DEV_CAP0_CELLAR_MASK - 2 ^ index)

/-- TRAINING_FAILED: the first failed attempt of a stack (scope 2) or channel (scope 3) is followed by another; the second marks it
absent (R407). -/
def execTRAINING_FAILED (scope index : Nat) (s : State) : Host.Outcome State Fault Refusal :=
  let now := s.fld F.BOOT_STATE_STATE == 2 && ((scope == 2 && s.stackOn index && !s.boot.hbm) || (scope == 3 && s.channelOn index && !s.boot.ddr))
  if !now then .next s
  else if s.boot.retried.contains (scope, index) then .next (s.markAbsent scope index)
  else .next { s with boot := { s.boot with retried := s.boot.retried ++ [(scope, index)] } }

/-- Fuse address of a unit's defect mark (Table 16.3). -/
def defectFuse (u : Nat) : Option Nat :=
  match u / 8192 with
  | 1 => some (0x200 + u % 8192)
  | 2 => some (0x10 + u % 8192)
  | 3 => some (0xA0 + u % 8192)
  | _ => none

/-- KAT_DONE (step 10): units that failed, each with the number of the test, are soft-disabled and replaced; one that failed at the last
boot too gets its defect mark, which takes effect at the next (R409) and changes measurement 6.  `gcm` counts the GCM engines that passed. -/
def execKAT_DONE (failed : List (Nat × Nat)) (gcm : Nat) (s : State) : Host.Outcome State Fault Refusal :=
  let st := s.fld F.BOOT_STATE_STATE
  if (st != 2 && st != 3) || !s.boot.hbm || s.boot.kat then .next s
  else
    let bad := failed.filter (fun p => disablable p.1 && unitValid p.1 && s.unitState p.1 == 2)
    let units := (bad.map (·.1)).eraseDups
    let marks := (units.filter s.boot.katFailed.contains).filterMap defectFuse
    let s := bad.foldl (fun s p => (s.errRecord 3 Ek.KNOWN_ANSWER p.1 p.2 0).disableUnit p.1) s
    let s := if marks.isEmpty then s else (s.blow marks).measured
    let s := (s.setFld F.BOOT_KAT_FAILED (s.fld F.BOOT_KAT_FAILED + units.length)).setFld F.BOOT_KAT_MARKED marks.length
    .next ({ s with boot := { s.boot with kat := true, gcm := gcm, katFailed := units } }.tryReady)

/-! ## Restarts (R318, R453) -/

/-- POWER_LOSS: PWR_OK or POR_N falls. -/
def execPOWER_LOSS (s : State) : Host.Outcome State Fault Refusal :=
  let s := s.coldReset 1
  .next { s with boot := { s.boot with thermTrip := false } }

/-- WARM_RESTART: a restart that has begun goes on from step 2 of Table 16.4; else the Rind begins one for a cause (Table 16.13). -/
def execWARM_RESTART (cause : Nat) (fuseOk : Bool) (s : State) : Host.Outcome State Fault Refusal :=
  if s.fld F.BOOT_STATE_STATE == 7 then .next ((s.setFld F.BOOT_STATE_STATE 0).boot25 fuseOk)
  else if !s.takesSlips || s.boot.hold != 0 || cause > 8 then .next s
  else .next (((s.beginWarm cause).setFld F.BOOT_STATE_STATE 0).boot25 fuseOk)

/-- The FAULT_N pin: low exactly while BOOT_STATE.STATE is FAULTED (R450). -/
def State.faultN (s : State) : Bool := s.fld F.BOOT_STATE_STATE != 8

/-! ## Reference clocks (R448) -/

/-- The LOST bit of a reference clock: 1 CXL, 2 ETH0, 3 ETH1. -/
def clockBit (k : Nat) : Fld := if k == 1 then F.CXL_REFCLK_CXL_LOST else if k == 2 then F.CXL_REFCLK_ETH0_LOST else F.CXL_REFCLK_ETH1_LOST

/-- REFCLK_LOST: clocks 0 CORE_REFCLK, 1 CXL_REFCLK, 2 and 3 ETH_REFCLK0 and 1, 4 RIND_OSC. -/
def execREFCLK_LOST (clock : Nat) (s : State) : Host.Outcome State Fault Refusal :=
  if s.boot.hold != 0 || clock > 4 then .next s
  else if clock == 0 then .next (s.coldReset 2)
  else if clock == 4 then .next (s.coldReset 3)
  else if s.flag (clockBit clock) then .next s
  else
    let s := (s.setFld (clockBit clock) 1).bump F.CXL_CNT_REFCLK_LOSS_COUNT
    .next (if clock == 1 then s.portReset 3 else s.portsDown (if clock == 2 then [0, 1, 2, 3] else [4, 5, 6, 7]))

/-- REFCLK_RETURN: CORE_REFCLK or RIND_OSC releases the device reset it held, and the device starts cold. -/
def execREFCLK_RETURN (clock : Nat) (jumper fuseOk : Bool) (s : State) : Host.Outcome State Fault Refusal :=
  if (clock == 0 && s.boot.hold == 2) || (clock == 4 && s.boot.hold == 3) then
    .next ({ s with boot := { s.boot with hold := 0 }, sec := { s.sec with jumper := jumper } }.boot25 fuseOk)
  else if 1 ≤ clock && clock ≤ 3 then .next (s.setFld (clockBit clock) 0)
  else .next s

/-! ## Temperatures (R454-R456) -/

/-- THERMAL_TRIP: THERMTRIP_N goes low, and device reset holds until power is removed. -/
def execTHERMAL_TRIP (s : State) : Host.Outcome State Fault Refusal :=
  if s.boot.hold == 1 then .next s
  else
    let s := s.coldReset 4
    .next { s with boot := { s.boot with thermTrip := true } }

/-- A level after one comparison (R455): up when over a limit, down when clearly below. -/
def nextLevel (level : Nat) (above below : Bool) : Nat := if above then min 7 (level + 1) else if below then level - 1 else level

/-- THROTTLE_PERIOD: the hottest sensors in °C, stacks above 85 °C, and PWR_AVG in W. -/
def execTHROTTLE_PERIOD (west east io hbm hot power : Nat) (s : State) : Host.Outcome State Fault Refusal :=
  if !s.takesSlips || s.boot.hold != 0 then .next s
  else
    let east := if s.onePartition then 0 else east
    let top := max west (max east io)
    let lim := s.fld F.CXL_THROTTLE_THROTTLE_C
    let hlim := s.fld F.CXL_THROTTLE_HBM_THROTTLE_C
    let cap := s.fld F.CXL_POWER_PWR_CAP
    let l := s.fld F.CXL_THROTTLE_LEVEL
    let h := s.fld F.CXL_THROTTLE_HBM_LEVEL
    let s := if l > 0 || h > 0 then s.bump F.CXL_CNT_THROTTLE_MS_COUNT else s
    let s := (((s.setFld F.CXL_THERM_WEST_C west).setFld F.CXL_THERM_EAST_C east).setFld F.CXL_THERM_HBM_C hbm).setFld F.CXL_THERM_IO_C io
    let s := (s.setFld F.CXL_THERM_HOT_STACKS hot).setFld F.CXL_POWER_PWR_AVG power
    let s := s.maxFld F.CXL_POWER_PWR_MAX power
    let s := s.setFld F.CXL_THROTTLE_LEVEL (nextLevel l (decide (top > lim) || decide (power > cap)) (decide (top + 3 ≤ lim) && decide (power < cap)))
    .next (s.setFld F.CXL_THROTTLE_HBM_LEVEL (nextLevel h (decide (hbm > hlim)) (decide (hbm + 3 ≤ hlim))))

end Sys2Proof.Machine
end

