-- ==== Sys2Proof/Machine/Bundle.lean ====
section
/-!
DEFINITION. The model bundle (R380, R381, R413-R416): staging, verification, the first load, the profile reload, unloading.
-/

/-- The tables a verified bundle's plaintext gives the device; no rule gives their form.  None when they break a bound of the spec
(R114, R202). -/
opaque Sys2Proof.Config.bundleProfile (plain : List (BitVec 8)) : Option Sys2Proof.Machine.Profile

namespace Sys2Proof.Machine

/-- DEV_STATE's device state. -/
def State.devState16 (s : State) : Nat := s.fld F.BOOT_STATE_STATE

/-! ## Checks of R381 -/

/-- Step 1: VERSION, sizes and reserved fields of a header (Table 15.6). -/
def headerValid (h : Bytes) : Bool :=
  rdLe h 0 1 == 0x10 && rdLe h 1 3 == 0 && rdLe h 0x0A 2 == 0 && rdLe h 0x78 8 == 0 && leNat (slice h 0xE0 32) == 0
    && rdLe h 0x0C 4 ≥ 1 && rdLe h 0x10 8 ≥ 1 && cdiv (rdLe h 0x10 8) (2 ^ 20) == rdLe h 0x0C 4

/-- PROFILE_ID of a header. -/
def headerProfile (h : Bytes) : Nat := rdLe h 4 4

/-- Steps 1 to 3, and in SERVING the loaded profile only (R416). -/
def State.headerRefused (s : State) (h : Bytes) : Option (Nat × Nat) :=
  if !headerValid h then some (St.BAD_PARAM, 0x2D02)
  else if !s.principals.any (fun p => p.2.role == 7 && p.2.digest == slice h 0x18 48)
      || !Config.signatureOk (slice h 0x18 48) (slice h 0 128) (slice h 0x80 96) then some (St.NOT_PERMITTED, 0)
  else match s.boot.bundleKey with
    | none => some (St.NO_KEY, 0)
    | some k =>
      if k.1 != headerProfile h || (s.devState16 == 6 && s.fld F.DEV_BUNDLE_PROFILE_ID != headerProfile h) then some (St.PROFILE_MISMATCH, 0)
      else none

/-- The key held for a bundle. -/
def State.bundleKeyNow (s : State) : Bytes := match s.boot.bundleKey with | some k => k.2 | none => []

/-- Bytes of a staged image from an offset; those not received read 0. -/
def Staging.read (g : Staging) (o n : Nat) : Bytes := dense 0 n o (g.bytes.filter (fun c => o ≤ c.1))

/-- Ciphertext and tag of chunk `i`. -/
def Staging.chunk (g : Staging) (i : Nat) : Bytes × Bytes :=
  let plain := rdLe g.header 0x10 8
  let n := min (2 ^ 20) (plain - i * 2 ^ 20)
  let o := 256 + i * (2 ^ 20 + 16)
  (g.read o n, g.read (o + n) 16)

/-- Nonce of a chunk (R373). -/
def chunkNonce (h : Bytes) (i : Nat) : Bytes := leBytes 8 i ++ leBytes 4 (headerProfile h)

/-- Step 4 and the decryption: the plaintext when every tag verifies and their digest is MANIFEST. -/
def Staging.open (g : Staging) (key : Bytes) : Option Bytes :=
  let cs := (List.range (rdLe g.header 0x0C 4)).map (fun i => (i, g.chunk i))
  let ok := cs.all (fun c => gcmTag key (chunkNonce g.header c.1) (slice g.header 0 128) c.2.1 == c.2.2)
  if ok && sha384 (cs.flatMap (fun c => c.2.2)) == slice g.header 0x48 48 then
    some (cs.flatMap (fun c => gcmText key (chunkNonce g.header c.1) c.2.1))
  else none

/-! ## Staging (R413) -/

/-- Why a first load is refused while the device holds units for others. -/
def State.holdBars (s : State) : Bool := s.devState16 == 4 && s.holdUsed != 0

/-- First byte of the staging region: the top of the trained cellar, whole GiB. -/
def State.stagingBase (s : State) (size : Nat) : Nat := s.cellarBytes - cdiv size (2 ^ 30) * 2 ^ 30

/-- Write image bytes into staging. -/
def State.stage (s : State) (g : Staging) (o : Nat) (b : Bytes) : State :=
  let cells := (List.range b.length).zip b
  let g := { g with bytes := cells.foldl (fun m c => tPut m (o + c.1) c.2) g.bytes }
  { s with boot := { s.boot with staging := some g },
           cellar := cells.foldl (fun m c => sSet (fun _ => 0) m (s.stagingBase g.size + o + c.1) c.2) s.cellar }

/-- The states bundles are loaded in: STANDALONE_READY and SERVING. -/
def State.bundleEarly (s : State) : Bool := s.devState16 != 4 && s.devState16 != 6

/-- MAINT_BUNDLE_LOAD BEGIN. -/
def execBUNDLE_LOAD_BEGIN (x : Slip) (s : State) : Host.Outcome State Fault Refusal :=
  runSlip Op.MAINT_BUNDLE_LOAD x s fun s => noSession x [3, w32, w32, 0, 0, 0] s <|
    if s.bundleEarly then .no s St.NOT_READY 2
    else match badStruct 0x2C02 264 x.payload with
      | some e => .no s e.1 e.2
      | none =>
        let h := slice x.payload 8 256
        if s.holdBars then .no s St.BUSY s.holdUsed
        else match s.headerRefused h with
          | some e => .no s e.1 e.2
          | none =>
            if bundleSize h + 2 ^ 30 > s.cellarBytes then .no s St.NO_SLOTS 15
            else .done (s.stage { header := h, size := bundleSize h, bytes := [] } 0 h) (Answer.ok)

/-- MAINT_BUNDLE_LOAD DATA: bytes at an image offset, within the image, equal where they overlap what was received. -/
def execBUNDLE_LOAD_DATA (x : Slip) (s : State) : Host.Outcome State Fault Refusal :=
  runSlip Op.MAINT_BUNDLE_LOAD x s fun s => noSession x [3, w32, w32, 0, 0, 0] s <|
    if s.bundleEarly then .no s St.NOT_READY 2
    else match badStruct 0x2C02 8 x.payload, s.boot.staging with
      | some e, _ => .no s e.1 e.2
      | none, none => .no s St.BAD_PARAM 0
      | none, some g =>
        let o := x.P1 + x.P2 * 2 ^ 32
        let b := (x.payload.drop 8).take (rdLe x.payload 4 4 - 8)
        let clash := ((List.range b.length).zip b).any (fun c => match tGet g.bytes (o + c.1) with | some v => v != c.2 | none => false)
        if o + b.length > g.size || clash then .no s St.BAD_PARAM 1
        else .done (s.stage g o b) (Answer.ok)

/-! ## Loading -/

/-- What a profile's tables set at every load: every sampling slot is as slot 0 again (R215), and registers (R133, Tables 6.13, 7.12, 8.9, 9.12, 1.19). -/
def State.loadTables (s : State) (p : Profile) (h : Bytes) : State :=
  let s := { s with profile := some p, boot := { s.boot with header := h, staging := none },
                    tenants := s.tenants.map (fun (t : Nat × Tenant) => (t.1, { t.2 with slots := [] })) }
  let s := ((s.setFld F.DEV_BUNDLE_LOADED 1).setFld F.DEV_BUNDLE_BUNDLE_VER (rdLe h 8 2)).setFld F.DEV_BUNDLE_PROFILE_ID (headerProfile h)
  let s := (List.range 8).foldl (fun s k => s.setReg (A.NBU_PROG + 8 * k) 0) s
  let s := (p.programs.filter (fun g => g.1 < 6)).foldl (fun s g =>
    (((s.setFld (F.NBU_PROG_VALID.at (8 * g.1)) 1).setFld (F.NBU_PROG_PROG_ID.at (8 * g.1)) g.2.1).setFld (F.NBU_PROG_ENTRY.at (8 * g.1)) g.2.2.1).setFld
      (F.NBU_PROG_LENGTH.at (8 * g.1)) g.2.2.2.length) s
  let s := ((s.setFld F.ME_FMT_PREFILL_FMT p.prefillFmt).setFld F.ME_FMT_HEAD_FMT p.headFmt).setFld F.ME_FMT_GUARD_EXP p.guardExp
  let s := (((s.setFld F.TEXT_VOCAB_EOS_ID p.eosId).setFld F.TEXT_VOCAB_BYTE_BASE p.byteBase).setFld F.TEXT_VOCAB_NORM p.norm).setFld
    F.TEXT_VOCAB_VOCAB_SIZE p.vocabSize
  let s := s.setFld F.SCHED_PROFILE_PREFILL_WT p.prefillWt
  let s := ((s.setFld F.TIER_WMARK_HIGH p.wmarkHigh).setFld F.TIER_WMARK_LOW p.wmarkLow).setFld F.TIER_HOLD_CAP p.holdCap
  [0, 1, 2].foldl (fun s q => s.setFld (F.ME_POOL_TARGET.at (8 * q)) (p.mePools.getD q 0)) s

/-- MEs that serve: enabled, and no free spare. -/
def State.servingMes (s : State) (part : Nat) : List Nat :=
  (List.range 132).filter (fun e => mePart e == part && s.meOn e && (e < 128 || s.boot.spares.contains e))

/-- The pools as the profile assigns them (Table 6.9): its numbers when every ME of the plan is there, else in their proportion
(R178). -/
def State.assignPools (s : State) (plan : List Nat) : State :=
  let parts := if s.onePartition then [0] else [0, 1]
  let per := parts.length
  let n := (parts.map (fun q => (s.servingMes q).length)).min?.getD 0
  let lo := [0, 1, 2].map (fun p => s.fld (F.ME_POOL_MIN.at (8 * p)) / per)
  let hi := [0, 1, 2].map (fun p => s.fld (F.ME_POOL_MAX.at (8 * p)) / per)
  let want := wantedUnits plan plan lo hi n
  let extra := (parts.map (fun q => (s.servingMes q).length - n)).foldl (· + ·) 0
  let s := parts.foldl (fun s q => (s.servingMes q).foldl (fun s e => s.setFld (F.ME_UNIT_POOL.at (8 * e)) 0) s) s
  let s := parts.foldl (fun s q => s.assignMes (want.set 0 (want.getD 0 0 + ((s.servingMes q).length - n))) q) s
  [0, 1, 2].foldl (fun s p => s.setFld (F.ME_POOL_CUR.at (8 * p)) (want.getD p 0 * per + (if p == 0 then extra else 0))) s

/-- Every HBM location is written anew: nothing of it is damaged. -/
def State.clearT1 (s : State) : State :=
  { s with hbm := [], errs := { s.errs with poison := s.errs.poison.filter (fun l => l.1 != 0) } }

/-- The CKPT_RESTORE the Rind issues itself when a bundle has loaded and the press label's AUTO flag is set (R317). -/
def State.autoRestore (s : State) : State :=
  let tag := ((List.range 65537).find? (fun t => (s.outst .rind (BitVec.ofNat 32 t)).isNone)).getD 0
  let x : Slip := { src := .rind, version := 0x10, hlen := 8, flags := 0, tenant := 0xFFFF, tag := BitVec.ofNat 32 tag, epoch := 0, accession := 0,
                    plen := 0, ploc := 0, p0 := 0, p1 := 0, p2 := 0, p3 := 0, p4 := 0, p5 := 0, rsvd := 0, hcrc := 0, payload := [] }
  let o : OpSlip := { op := BitVec.ofNat 16 Op.CKPT_RESTORE, slip := x }
  if !s.flag F.CKPT_CTRL_AUTO then s else if s.tick < s.sec.rindUntil then s.rindLater (.slip o) else s.arrive o

/-- The first load (R413): tables and programs in place, every HBM location written, SERVING; its duration is free within its bound. -/
def State.firstLoad (s : State) (p : Profile) (g : Staging) : State :=
  let s := ((s.setFld F.BOOT_STATE_STATE 5).clearT1.loadTables p g.header).assignPools p.mePools
  let s := s.setFld F.BOOT_TIME_LAST_LOAD_MS (min (Config.loadMs s.freeCtr) (3000 + g.size / 1000000))
  ({ s with freeCtr := s.freeCtr + 1 }.measured).setFld F.BOOT_STATE_STATE 6

/-- What a reload may not change (R416): the profile but for its grammars, programs, formats, pools and stages. -/
def Profile.shape (p : Profile) : Profile :=
  { p with id := 0, version := 0, maxContext := 0, grammars := [], prefillWt := 0, prefillFmt := 0, headFmt := 0, guardExp := 0, mePools := [],
           softmaxScale := 0, programs := [], embedStage := 0, layerStage := [], finalStage := 0 }

/-- Steps 2 and 3 of a reload, when no step is open: tables and programs are replaced, step formation resumes. -/
def State.reloadStep (s : State) : State :=
  match s.boot.reload with
  | some r =>
    if !s.steps.isEmpty then s
    else
      let s := { s with boot := { s.boot with reload := none } }
      let changed := s.boot.header != r.2.1
      let s := (s.loadTables r.1 r.2.1).setFld F.BOOT_STATE_RELOADING 0
      let s := if changed then s.measured else s
      let s := s.dropLocks (fun l => l.activity == Ac.PROFILE_RELOAD && l.auto)
      s.finish Op.MAINT_BUNDLE_LOAD r.2.2 (Answer.ok (headerProfile r.2.1))
  | none => s

/-- A reload (R416): refused when it would change the device's shape or take a grammar in use; else it runs under its lock once the open
steps have completed. -/
def State.beginReload (s : State) (p : Profile) (g : Staging) (x : Slip) : SlipRes :=
  let armed := (s.sessions.filter (fun v => v.2.armed)).map (·.2)
  let lacks := armed.any (fun e => e.grammar != 0 && !p.grammars.any (fun r => r.id == e.grammar))
  if s.profile.map Profile.shape != some p.shape then .no s St.PROFILE_MISMATCH
  else if lacks then .no s St.BUSY armed.length
  else match s.lockFor x Ac.PROFILE_RELOAD 0 0 0 with
    | .error r => r
    | .ok (s, _) =>
      let s := { s with boot := { s.boot with staging := none, reload := some (p, g.header, x) } }
      let s := s.setFld F.BOOT_STATE_RELOADING 1
      .wait (if s.steps.isEmpty then s.wake .reload else s)

/-- MAINT_BUNDLE_LOAD END; a first load writes the programs under a PROGRAM_RELOAD lock of T1, held until the reply (Table 16.7). -/
def execBUNDLE_LOAD_END (x : Slip) (s : State) : Host.Outcome State Fault Refusal :=
  runSlip Op.MAINT_BUNDLE_LOAD x s fun s => noSession x [3, w32, w32, 0, 0, 0] s <|
    if s.bundleEarly then .no s St.NOT_READY 2
    else match s.boot.staging with
      | none => .no s St.BAD_PARAM 0
      | some g =>
        if s.holdBars then .no s St.BUSY s.holdUsed
        else match s.headerRefused g.header with
          | some e => .no s e.1 e.2
          | none => match (g.open s.bundleKeyNow).bind Config.bundleProfile with
            | none => .no s St.MEDIA
            | some p =>
              let p := { p with id := headerProfile g.header, version := rdLe g.header 8 2 }
              if (p.cellarFirst + p.cellarUnits) * 16384 > s.stagingBase g.size then .no s St.NO_SLOTS 15
              else if s.devState16 == 6 then s.beginReload p g x
              else match s.lockFor x Ac.PROGRAM_RELOAD 1 1 0 with
                | .error r => r
                | .ok _ => .done (s.firstLoad p g).autoRestore (Answer.ok p.id)

/-- MAINT_BUNDLE_LOAD UNLOAD (R415): only with every entry FREE, outside a composition; the bundle key goes and T1 is cleared. -/
def execBUNDLE_UNLOAD (x : Slip) (s : State) : Host.Outcome State Fault Refusal :=
  runSlip Op.MAINT_BUNDLE_LOAD x s fun s => noSession x [3, w32, w32, 0, 0, 0] s <|
    if s.bundleEarly then .no s St.NOT_READY 2
    else if !s.loaded then .no s St.ALREADY_DONE
    else if !s.sessions.isEmpty || s.member then .no s St.BUSY
    else if s.reloading then .no s St.BUSY 0x2C02
    else if s.restoring then .no s St.BUSY 0x1C02
    else
      let s := (s.shards.map (·.1)).foldl (fun s id => (s.dropShard id).1) s
      let s := { s.clearT1 with
        profile := none,
        tenants := s.tenants.map (fun (t : Nat × Tenant) => (t.1, { t.2 with slots := [] })),
        boot := { s.boot with header := [], bundleKey := none, staging := none } }
      let s := s.setReg A.DEV_BUNDLE 0
      let s := (List.range 8).foldl (fun s k => s.setReg (A.NBU_PROG + 8 * k) 0) s
      let s := (s.setReg A.TEXT_VOCAB 0).setReg A.ME_FMT 0
      let s := (List.range 132).foldl (fun s e => s.setFld (F.ME_UNIT_POOL.at (8 * e)) 3) s
      let s := [0, 1, 2].foldl (fun s p => s.setFld (F.ME_POOL_CUR.at (8 * p)) 0) s
      .done (s.measured.setFld F.BOOT_STATE_STATE 4) (Answer.ok)

end Sys2Proof.Machine
end

