-- ==== Sys2Proof/Machine/Checks.lean ====
section
/-!
DEFINITION. Check-value slips and vendor diagnostics (R342-R347): CRCs, memory scans, the XTS slips, injection and trace.
-/

namespace Sys2Proof.Machine

/-! ## CRCs (R338, R342, R345) -/

/-- A CRC by ALG (false CRC-32C), chained on a seed where there is one. -/
def crcOf (c64 : Bool) (seed : Option Nat) (b : Bytes) : Nat :=
  match c64, seed with
  | false, none => crc32c b
  | false, some v => crc32cFrom v b
  | true, none => crc64 b
  | true, some v => crc64From v b

/-- CHK_CRC (R345). -/
def execCHK_CRC (x : Slip) (s : State) : Host.Outcome State Fault Refusal :=
  runSlip Op.CHK_CRC x s fun s => noSession x [3, w32, w32, 0, 0, 0] s <|
    let c64 := bitOf x.P0 0
    if !c64 && x.P2 != 0 then .no s St.BAD_PARAM 2
    else if (s.unitsOn A.CHK_UNIT 0 4).isEmpty then .no s St.UNIT_FAILED
    else
      let crc := crcOf c64 (if bitOf x.P0 1 then some (x.P1 + 2 ^ 32 * x.P2) else none) x.payload
      let s := ((s.bump F.CHK_CNT_CRC_COUNT).bumpBy F.CHK_CNT_BYTES_COUNT x.payload.length).jobOn A.CHK_UNIT 47 0 4
      .done s (Answer.ok crc x.payload.length)

/-! ## Scans (R343, R344) -/

/-- The next queued scan starts, unless one runs or SCAN_EN holds them. -/
def State.startScan (s : State) : State :=
  if !s.scanning && s.flag F.CHK_CTRL_SCAN_EN && !s.scans.isEmpty then { s with scanning := true } else s

/-- Queue a scan: the Rind's at the head, behind the one that runs. -/
def State.queueScan (s : State) (k : Scan) : State :=
  let run := if s.scanning then s.scans.take 1 else []
  let rest := if s.scanning then s.scans.drop 1 else s.scans
  let (own, other) := rest.partition (fun r => r.slip.src == .rind)
  let l := if k.slip.src == .rind then own ++ [k] ++ other else own ++ other ++ [k]
  ({ s with scans := run ++ l } : State).startScan

/-- Is the scan queue full: 15 wait, and this one could not start at once? -/
def State.scanFull (s : State) : Bool :=
  s.scans.length - b2n s.scanning ≥ 15 && (s.scanning || !s.flag F.CHK_CTRL_SCAN_EN || !s.scans.isEmpty)

/-- CHK_SCAN (R343-R345): answered after the scan.  The order of its refusals is log entry 62. -/
def execCHK_SCAN (x : Slip) (s : State) : Host.Outcome State Fault Refusal :=
  runSlip Op.CHK_SCAN x s fun s => noSession x [7, w32, w32, w32, w32, w32] s <|
    let hdm1 := bitOf x.P0 0
    let start := x.P1 + 2 ^ 32 * x.P2
    let len := 64 * x.P3
    if x.P1 % 64 != 0 then .no s St.BAD_PARAM 1
    else if hdm1 && start ≥ hdm1Bytes then .no s St.BAD_PARAM 2
    else if x.P3 == 0 || (hdm1 && start + len > hdm1Bytes) then .no s St.BAD_PARAM 3
    else if !bitOf x.P0 1 && x.P5 != 0 then .no s St.BAD_PARAM 5
    else if s.absentRange hdm1 start len then .no s St.ABSENT_RESOURCE
    else if x.src != .rind && !s.visibleRange hdm1 start len then .no s St.NOT_PERMITTED
    else if (s.unitsOn A.CHK_UNIT 4 1).isEmpty then .no s St.UNIT_FAILED
    else if s.scanFull then .no s St.BUSY 15
    else .wait (s.queueScan { slip := x, hdm1 := hdm1, crc64 := bitOf x.P0 1, start := start, len := len, seed := x.P4 + 2 ^ 32 * x.P5 })

/-- The record that tells of a damaged line: one still in the log, else one written now (log entry 62). -/
def State.lineRecord (s : State) (l : Nat × Nat) : State × Nat :=
  let kind := if l.1 == 0 then Ek.HBM_UE else Ek.DDR_UE
  match s.errs.log.reverse.find? (fun r => r.kind == kind && r.address / 64 == l.2) with
  | some r => (s, r.index)
  | none =>
    let s := s.errRecord 2 kind (if l.1 == 0 then errUnit 6 (l.2 * 64 / 2 ^ 36) else 0) (l.2 * 64) 0
    (s, s.lastErr)

/-- SCAN_COMPLETE (R343): the CRC over the range as it reads now; a damaged line gives MEDIA and RESULT 0. -/
def execSCAN_COMPLETE (s : State) : Host.Outcome State Fault Refusal :=
  match s.scans with
  | k :: rest =>
    if !s.scanning then .next s
    else
      let hurt := (List.range (k.len / 64)).findSome? (fun i =>
        if s.lineHurt k.hdm1 (k.start + 64 * i) then s.lineOf k.hdm1 (k.start + 64 * i) else none)
      let crc := crcOf k.crc64 (if bitOf k.slip.P0 2 then some k.seed else none) (s.hdmRead k.hdm1 k.start k.len)
      let s := { s with scans := rest, scanning := false }
      let s := ((s.bump F.CHK_CNT_SCAN_COUNT).bumpBy F.CHK_CNT_BYTES_COUNT k.len).jobOn A.CHK_UNIT 47 4 1
      let s := match hurt with
        | some l =>
          let r := (s.bump F.CHK_CNT_MEDIA_COUNT).lineRecord l
          r.1.finish Op.CHK_SCAN k.slip (Answer.st St.MEDIA r.2)
        | none => (s.setFld F.CHK_SCAN_LAST_CRC crc).finish Op.CHK_SCAN k.slip (Answer.ok crc)
      .next s.startScan
  | [] => .next s

/-! ## XTS slips (R346) -/

/-- CHK_XTS_ENC and CHK_XTS_DEC: the payload as one data unit under the tenant's slip key. -/
def State.xtsSlip (s : State) (dec : Bool) (x : Slip) : SlipRes :=
  noSession x [w32, w32, w32, w32, w32, w32] s <|
    if x.payload.length == 0 || x.payload.length % 16 != 0 then .no s St.BAD_PARAM 0x100
    else match s.keyMissing x.ten, (s.tenant x.ten).key with
      | none, some k =>
        let tweak := x.P0 + 2 ^ 32 * x.P1 + 2 ^ 64 * x.P2 + 2 ^ 96 * x.P3
        let key := tenantXts k "yudar slip"
        let data := if dec then xtsDec key tweak x.payload else xtsEnc key tweak x.payload
        if (s.unitsOn A.CHK_UNIT 5 4).isEmpty then .no s St.UNIT_FAILED
        else if x.payload.length > x.P5 then .done s (Answer.ok 0 0 data)
        else .done ((s.bump F.CHK_CNT_XTS_COUNT).jobOn A.CHK_UNIT 47 5 4) (Answer.ok 0 0 data)
      | some st, _ => .no s st
      | none, none => .no s St.NO_KEY

/-- CHK_XTS_ENC. -/
def execCHK_XTS_ENC (x : Slip) (s : State) : Host.Outcome State Fault Refusal :=
  runSlip Op.CHK_XTS_ENC x s fun s => s.xtsSlip false x

/-- CHK_XTS_DEC. -/
def execCHK_XTS_DEC (x : Slip) (s : State) : Host.Outcome State Fault Refusal :=
  runSlip Op.CHK_XTS_DEC x s fun s => s.xtsSlip true x

/-! ## Diagnostics (R347) -/

/-- The frame of a diagnostic slip: from an M context, while debug is unlocked. -/
def State.diag (s : State) (x : Slip) (masks : List Nat) (f : SlipRes) : SlipRes :=
  if s.code x.src != 4 || !s.flag F.SEC_STATE_DEBUG_UNLOCKED then .no s St.DEBUG_LOCKED
  else noSession x masks s f

/-- Kinds an injection may have (Table 13.11). -/
def injectKinds : List Nat := [1, 3, 5, 7, 9, 11, 12, 13, 14]

/-- DIAG_INJECT: arms an injection; the accesses it applies to come as the error commands they cause (log entry 63). -/
def execDIAG_INJECT (x : Slip) (s : State) : Host.Outcome State Fault Refusal :=
  runSlip Op.DIAG_INJECT x s fun s => s.diag x [0xFFFF00FF, w32, w32, 0xFF, 0, 0] <|
    let unit := bitsOf x.P0 31 16
    if !injectKinds.contains (bitsOf x.P0 7 0) then .no s St.BAD_PARAM 0
    else if x.P3 == 0 then .no s St.BAD_PARAM 3
    else if unit / 8192 != 0 && s.unitState unit == 0 then .no s St.ABSENT_RESOURCE
    else
      let j : Inject := { kind := bitsOf x.P0 7 0, unit := unit, address := x.P1 + 2 ^ 32 * x.P2, count := x.P3 }
      .done (s.updErrs (fun e => { e with inject := e.inject ++ [j] })) (Answer.ok 0)

/-- DIAG_TRACE OP 0. -/
def execDIAG_TRACE_STOP (x : Slip) (s : State) : Host.Outcome State Fault Refusal :=
  runSlip Op.DIAG_TRACE x s fun s => s.diag x [3, 0xFF, w32, 0, w32, w32] <|
    .done { s with trace := { s.trace with on := false } } (Answer.ok s.trace.recs.length)

/-- DIAG_TRACE OP 1: the buffer is cleared and the groups of P1 are traced. -/
def execDIAG_TRACE_START (x : Slip) (s : State) : Host.Outcome State Fault Refusal :=
  runSlip Op.DIAG_TRACE x s fun s => s.diag x [3, 0xFF, w32, 0, w32, w32] <|
    .done { s with trace := { on := true, mask := x.P1, recs := [] } } (Answer.ok 0)

/-- A trace record as its 32 bytes. -/
def TraceRec.bytes (r : TraceRec) : Bytes :=
  leBytes 8 r.tick ++ leBytes 2 r.event ++ leBytes 2 r.unit ++ leBytes 4 r.arg0 ++ leBytes 8 r.arg1 ++ leBytes 8 r.arg2

/-- DIAG_TRACE OP 2: the records from P2 on; OP 3 is reserved. -/
def execDIAG_TRACE_READ (x : Slip) (s : State) : Host.Outcome State Fault Refusal :=
  runSlip Op.DIAG_TRACE x s fun s => s.diag x [3, 0xFF, w32, 0, w32, w32] <|
    if bitsOf x.P0 1 0 == 3 then .no s St.BAD_PARAM 0
    else .done s (Answer.ok s.trace.recs.length 0 (structure0 0xFC01 ((s.trace.recs.drop x.P2).flatMap TraceRec.bytes)))

end Sys2Proof.Machine
end

