-- ==== Sys2Proof/Machine/Device.lean ====
section
/-!
DEFINITION. Device-class slips (R64, Table 2.9).
-/

namespace Sys2Proof.Machine

/-- A DEV register as software reads it: DEV_TICK and DEV_STATE are copies (Table 1.20). -/
def State.devReg (s : State) (a : Nat) : Word :=
  if a == A.DEV_TICK then BitVec.ofNat 64 s.tick
  else if a == A.DEV_STATE then BitVec.ofNat 64 (s.fld F.BOOT_STATE_STATE)
  else s.reg a

/-- Registers 0x000 to 0x058 of the DEV block, 96 bytes in address order. -/
def State.devBytes (s : State) : Bytes :=
  (List.range 12).flatMap fun i => leBytes 8 (s.devReg (8 * i)).toNat

/-- NOP (R64): replies with RESULT 0; with ORDERED it is a fence by the order of R56. -/
def execNOP (x : Slip) (s : State) : Host.Outcome State Fault Refusal :=
  runSlip Op.NOP x s fun s =>
    match badParam x [0, 0, 0, 0, 0, 0] with
    | some i => .no s St.BAD_PARAM i
    | none => .done s (Answer.ok)

/-- HELLO (R59): agrees the lower of the offered version and 0x10. -/
def execHELLO (x : Slip) (s : State) : Host.Outcome State Fault Refusal :=
  runSlip Op.HELLO x s fun s =>
    match badParam x [0xFF, 0, 0, 0, 0, 0] with
    | some i => .no s St.BAD_PARAM i
    | none =>
      let highest := s.fld F.DEV_CAP2_SLIP_VERSION
      let agreed := min x.P0 highest
      if s.outstOf x.src > 1 then .no s St.BUSY
      else if agreed / 16 != 1 then .no s St.BAD_VERSION
      else
        let s := { s with versions := (x.src, agreed) :: s.versions.filter (fun v => v.1 != x.src) }
        .done s (Answer.mk' (if agreed < x.P0 then St.VERSION_LOWERED else St.OK) 0 agreed highest)

/-- IDENTIFY (R64): DEV_ID, and the DEV registers when OUT_CAP asks for them. -/
def execIDENTIFY (x : Slip) (s : State) : Host.Outcome State Fault Refusal :=
  runSlip Op.IDENTIFY x s fun s =>
    match badParam x [0, 0, 0, 0, 0xFFFFFFFF, 0xFFFFFFFF] with
    | some i => .no s St.BAD_PARAM i
    | none => .done s (Answer.ok (s.devReg A.DEV_ID).toNat 0 (if x.P5 == 0 then [] else s.devBytes))

/-- ECHO (R64): the payload comes back as data. -/
def execECHO (x : Slip) (s : State) : Host.Outcome State Fault Refusal :=
  runSlip Op.ECHO x s fun s =>
    match badParam x [0, 0, 0, 0, 0xFFFFFFFF, 0xFFFFFFFF] with
    | some i => .no s St.BAD_PARAM i
    | none => .done s (Answer.ok 0 0 x.payload)

end Sys2Proof.Machine
end

