-- ==== Sys2Proof/Machine/Host.lean ====
section
/-!
DEFINITION. The host port (R432-R441): training, resets, decoders, host accesses to device memory, configuration requests, MSI-X
vectors, snoops; the press port and its NVMe commands (R442-R444).
-/

namespace Sys2Proof.Config

/-- A configuration word at an offset whose contents no rule gives (R433 names the capabilities, not their places): mode CXL.mem
capable, byte offset, the word the host last wrote there. -/
opaque configWord (cxl : Bool) (offset : Nat) (written : Option Nat) : Nat

end Sys2Proof.Config

namespace Sys2Proof.Machine

/-- Is CXL.mem and CXL.cache use of the link possible: up, in CXL mode, outside confidential-host mode (R385, R434, R435)? -/
def State.cxlMem (s : State) : Bool := s.host.up && s.host.cxl && !s.conf

/-! ## Training and resets -/

/-- Does the port train with what the host offers (R432, Table 17.1)?  Answers the mode. -/
def trainMode (offered : Bool) (width rate : Nat) : Option Bool :=
  if offered && rate == 4 && (width == 16 || width == 8) then some true
  else if (width == 16 || width == 8 || width == 4) && rate ≤ 4 then some false
  else none

/-- HOST_LINK_TRAINING (R432): the link comes up; `rate` 0 is 2.5 GT/s, 4 is 32 GT/s. -/
def execHOST_LINK_TRAINING (offered : Bool) (width rate : Nat) (s : State) : Host.Outcome State Fault Refusal :=
  match trainMode offered width rate with
  | some cxl =>
    if s.boot.hold != 0 || s.flag F.CXL_REFCLK_CXL_LOST then .next s
    else .next { s with host := { s.host with up := true, cxl := cxl, width := width, rate := rate } }
  | none => .next s

/-- HOST_PORT_RESET (R440, R420): 0 PERST_N, 1 hot reset, 2 Function Level Reset, 3 surprise link down. -/
def execHOST_PORT_RESET (kind : Nat) (s : State) : Host.Outcome State Fault Refusal :=
  if kind > 3 || s.boot.hold != 0 || (kind ≥ 1 && !s.host.up) then .next s
  else .next (s.portReset kind)

/-! ## Decoders and device memory -/

/-- May a decoder be committed with these values (R437)? -/
def decoderOk (range base size ways gran : Nat) : Bool :=
  [1, 2, 4, 8, 16].contains ways && [256, 512, 1024, 2048, 4096, 8192, 16384].contains gran
    && size == range * ways && base % 2 ^ 28 == 0

/-- HDM_DECODER_COMMIT (R437): the host has programmed a decoder and commits it. -/
def execHDM_DECODER_COMMIT (dec base size ways gran pos : Nat) (s : State) : Host.Outcome State Fault Refusal :=
  if dec > 1 || !s.cxlMem then .next s
  else
    let ok := decoderOk (s.hdmSize (dec == 1)) base size ways gran
    let d : Decoder := { base := base, size := size, ways := ways, gran := gran, pos := pos, committed := ok, error := !ok }
    .next { s with host := { s.host with decoders := s.host.decoders.set dec d } }

/-- Memory_Active (R434, R437): set at STANDALONE_READY; the fault hold of a device that was running keeps it. -/
def State.memActive (s : State) : Bool :=
  let st := s.fld F.BOOT_STATE_STATE
  st == 4 || st == 5 || st == 6 || (st == 8 && s.fld F.BOOT_STATE_FAULT_CAUSE == 5)

/-- The offset of a host physical address within this device's range (R121), when the decoder claims it. -/
def Decoder.offset (d : Decoder) (hpa : Nat) : Option Nat :=
  if !d.committed || hpa < d.base || d.base + d.size ≤ hpa then none
  else
    let rel := hpa - d.base
    let g := rel / d.gran
    if g % d.ways != d.pos then none else some (g / d.ways * d.gran + rel % d.gran)

/-- The mark of a line is cleared by a full overwrite (R330). -/
def State.unmark (s : State) (hdm1 : Bool) (a : Nat) : State :=
  match s.lineOf hdm1 a with
  | some l => s.updErrs (fun e => { e with poison := e.poison.filter (· != l) })
  | none => s

/-- A host read of the 64-byte line at an offset (R119-R122, R330, R437, R439); one to a pair where a program runs waits (R142). -/
def State.hostRead (s : State) (hdm1 : Bool) (line : Nat) : State :=
  if !s.memActive then s.emit (.memData (List.replicate 64 0) false)
  else if !s.visibleAt hdm1 line then (s.bump F.CXL_CNT_HIDDEN_RD_COUNT).emit (.memData (List.replicate 64 0) false)
  else match s.spot hdm1 line with
    | .hbm b => s.access { addr := b, data := none, len := 64, since := s.tick, host := true }
    | _ =>
      if s.lineHurt hdm1 line then (s.bump F.CXL_CNT_POISON_RD_COUNT).emit (.memData [] true)
      else s.emit (.memData (s.hdmRead hdm1 line 64) false)

/-- Write bytes at an offset. -/
def State.hdmWrite (s : State) (hdm1 : Bool) : Nat → Bytes → State
  | _, [] => s
  | a, b :: l => (s.hdmPut hdm1 a b).hdmWrite hdm1 (a + 1) l

/-- A host write within the line at an offset (R119-R122, R330, R437, R439); one to a pair where a program runs waits (R142). -/
def State.hostWriteLine (s : State) (hdm1 : Bool) (line off : Nat) (b : Bytes) : State :=
  if !s.memActive then s
  else if !s.visibleAt hdm1 line then s.bump F.CXL_CNT_HIDDEN_WR_COUNT
  else match s.spot hdm1 (line + off) with
    | .hbm a => s.access { addr := a, data := some b, len := b.length, since := s.tick, host := true }
    | _ =>
      let s := s.hdmWrite hdm1 (line + off) b
      if b.length == 64 then s.unmark hdm1 line else s

/-- The cellar channel an access waits for because it is being retrained (R425). -/
def State.channelBusy (s : State) (hdm1 : Bool) (a : Nat) : Option Nat :=
  match s.spot hdm1 a with
  | .cellar c => if s.retraining 3 (s.channelAt c) then some (s.channelAt c) else none
  | _ => none

/-- A host access of the line of a host physical address through decoder `dec` (R120, R122, R437, R438); one to a channel that is being
retrained waits (R425). -/
def State.hostAccess (s : State) (dec hpa : Nat) (op : MemOp) : State :=
  if !s.cxlMem then s
  else match s.host.decoders[dec]? with
    | none => s
    | some d => match d.offset (hpa / 64 * 64) with
      | none => s
      | some a => match (if s.memActive && s.visibleAt (dec == 1) a then s.channelBusy (dec == 1) a else none), op with
        | some c, op => { s with boot := { s.boot with traffic := s.boot.traffic ++ [{ channel := c, dec := dec, hpa := hpa, op := op }] } }
        | none, .read => s.hostRead (dec == 1) a
        | none, .write off b => if off + b.length > 64 || b.isEmpty then s else s.hostWriteLine (dec == 1) a off b

/-- HDM_ACCESS (R120, R122, R437, R438): a CXL.mem access through decoder `dec`. -/
def execHDM_ACCESS (dec hpa : Nat) (op : MemOp) (s : State) : Host.Outcome State Fault Refusal := .next (s.hostAccess dec hpa op)

/-! ## MSI-X (R441) -/

/-- Messages pending on vectors that are no longer masked are sent. -/
def State.sendPending (s : State) : State :=
  if !s.host.up || !s.host.msixEn then s
  else
    let go := s.host.pend.filter (fun v => !s.vecMasked v)
    go.foldl (fun s v => s.emit (.msix v)) { s with host := { s.host with pend := s.host.pend.filter s.vecMasked } }

/-- A vector's table entry is written. -/
def State.setVec (s : State) (v : Nat) (e : MsixVec) : State :=
  { s with host := { s.host with vecs := tPut s.host.vecs v e } }.sendPending

/-- MSIX_UNMASK (R441): the host gives a vector its address and data and unmasks it. -/
def execMSIX_UNMASK (vec addr data : Nat) (s : State) : Host.Outcome State Fault Refusal :=
  if vec ≥ 2048 || !s.host.up then .next s
  else .next (s.setVec vec { addr := addr, data := data, masked := false })

/-! ## Configuration space (R433, R434) -/

/-- Bits of a header word the host may write (PRESUMED, the PCI header of type 0: Command at 0x04, BAR0 of 64 MiB at 0x10, BAR2 and
BAR4 of 64 KiB at 0x18 and 0x20). -/
def headerMask (o : Nat) : Option Nat :=
  if o == 0x04 then some 0x0546
  else if o == 0x10 then some 0xFC000000
  else if o == 0x18 || o == 0x20 then some 0xFFFF0000
  else if o == 0x14 || o == 0x1C || o == 0x24 then some 0xFFFFFFFF
  else none

/-- The fixed bits of a header word: identity (Table 17.2), the type of a BAR (64-bit, non-prefetchable). -/
def State.headerFixed (s : State) (o : Nat) : Option Nat :=
  if o == 0x00 then some (s.fld F.DEV_ID_DEVICE_CODE * 2 ^ 16 + 0x1F3D)
  else if o == 0x04 then some (16 * 2 ^ 16)
  else if o == 0x08 then some (0x120000 * 2 ^ 8 + s.fld F.DEV_REV_STEP_MAJOR * 16 + s.fld F.DEV_REV_STEP_MINOR)
  else if o == 0x2C then some 0x1F3D
  else if o == 0x10 || o == 0x18 || o == 0x20 then some 4
  else if o == 0x14 || o == 0x1C || o == 0x24 then some 0
  else none

/-- A configuration word as it reads. -/
def State.configRead (s : State) (o : Nat) : Nat :=
  let w := tGet s.host.config o
  match s.headerFixed o with
  | some v => v + w.getD 0
  | none => Config.configWord s.cxlMem o w

/-- Range of a DVSEC size register: 1 HDM0, 2 HDM1. -/
def State.rangeSize (s : State) (r : Nat) : Nat := s.hdmSize (r == 2)

/-- Low word of a range size: Memory_Info_Valid, Memory_Active, timeout 0b100, size bits 31 to 28 (R434; the places are CXL 2.0's,
PRESUMED; the bits R434 does not name are open). -/
def State.rangeLow (s : State) (r : Nat) : Nat :=
  b2n s.boot.ddr + 2 * b2n s.memActive + 4 * (Config.configWord s.cxlMem (0x10000 + r) none % 2 ^ 11) + 4 * 2 ^ 13
    + bitsOf (s.rangeSize r) 31 28 * 2 ^ 28

/-- Control of a decoder (R437; the places are CXL 2.0's, PRESUMED): granularity, ways, commit, committed, Error Not Committed. -/
def Decoder.control (d : Decoder) : Nat :=
  Nat.log2 (d.gran / 256) + 16 * Nat.log2 d.ways + 2 ^ 9 * b2n (d.committed || d.error) + 2 ^ 10 * b2n d.committed + 2 ^ 11 * b2n d.error

/-- What a configuration read returns. -/
def State.cfgData (s : State) (op : CfgOp) : Nat :=
  match op with
  | .read o => s.configRead o
  | .write _ _ => 0
  | .msixRead => 2047 + 2 ^ 14 * b2n s.host.funcMask + 2 ^ 15 * b2n s.host.msixEn
  | .msixWrite _ _ => 0
  | .msixTable => 4
  | .msixPba => 0x8000 + 4
  | .dvsecCap => if s.cxlMem then 0x27 else 2
  | .dvsecSizeLow r => s.rangeLow r
  | .dvsecSizeHigh r => s.rangeSize r / 2 ^ 32
  | .locator => if s.cxlMem then 2 else 0
  | .decoder d => match s.host.decoders[d]? with | some d => d.control | none => 0

/-- What a configuration write changes. -/
def State.cfgWrite (s : State) (op : CfgOp) : State :=
  match op with
  | .write o v =>
    let v := match headerMask o with | some m => v % 2 ^ 32 &&& m | none => v % 2 ^ 32
    if (s.headerFixed o).isSome && (headerMask o).isNone then s
    else { s with host := { s.host with config := tPut s.host.config o v } }
  | .msixWrite en mask => { s with host := { s.host with msixEn := en, funcMask := mask } }.sendPending
  | _ => s

/-- CONFIG_REQUEST (R433): Retry Status until the desk cores run. -/
def execCONFIG_REQUEST (op : CfgOp) (s : State) : Host.Outcome State Fault Refusal :=
  if !s.host.up then .next s
  else if !s.takesSlips then .next (s.emit (.hostCompletion 2 0))
  else .next ((s.cfgWrite op).emit (.hostCompletion 0 (s.cfgData op)))

/-- H2D_SNOOP (R435): the device holds no line. -/
def execH2D_SNOOP (s : State) : Host.Outcome State Fault Refusal :=
  if !s.cxlMem then .next s else .next ((s.bump F.CXL_CNT_SNOOP_COUNT).emit (.snoopResp 0))

/-! ## The press port (R442-R444) -/

/-- The requirement of Table 17.4 an SSD fails: its CAUSE; one that no CAUSE names reads 0. -/
def unfit (d : Ssd) : Option Nat :=
  if !d.lba4k then some 1
  else if d.capGb < 256 then some 2
  else if d.queues < 4 then some 3
  else if d.mdtsKib < 64 then some 4
  else if !d.plp then some 0
  else none

/-- Change the press. -/
def State.updPress (s : State) (f : Press → Press) : State := s.updCkpt fun c => { c with press := f c.press }

/-- The press's state for software: CXL_PRESS STATE and CAUSE, CKPT_STATUS.PRESS. -/
def State.setPress (s : State) (state cause press : Nat) : State :=
  ((s.setFld F.CXL_PRESS_STATE state).setFld F.CXL_PRESS_CAUSE cause).setFld F.CKPT_STATUS_PRESS press

/-- Label writes in flight fail with the port. -/
def State.dropLabelWrites (s : State) : State :=
  s.ckpt.press.writes.foldl (fun s w => s.finish Op.CKPT_SET_TRIGGERS w.2 (Answer.st St.MEDIA s.lastErr))
    (s.updPress fun p => { p with writes := [] })

/-- An NVMe command that fails (R444): a press write error of the running checkpoint, and the count. -/
def State.nvmeError (s : State) : State := s.pressError.bump F.CXL_CNT_NVME_ERR_COUNT

/-- PRESS_PERST_RELEASE (R442, R443): 100 ms after step 4 of Table 16.4, or at a press port reset; none when the port has not trained
within 1 s. -/
def execPRESS_PERST_RELEASE (ssd : Option Ssd) (s : State) : Host.Outcome State Fault Refusal :=
  if !s.takesSlips then .next s
  else
    let s := s.pressError.dropLabelWrites
    let s := (((s.setFld F.CXL_PRESS_GEN 0).setFld F.CXL_PRESS_WIDTH 0).setFld F.CXL_PRESS_CAP_GB 0).updPress fun p => { p with found := false }
    match ssd with
    | none => .next (s.setPress 0 0 0)
    | some d =>
      if d.gen == 0 || d.gen > 5 || !([1, 2, 4].contains d.width) then .next (s.setPress 0 0 0)
      else
        let s := ((s.setFld F.CXL_PRESS_GEN d.gen).setFld F.CXL_PRESS_WIDTH d.width).setFld F.CXL_PRESS_CAP_GB d.capGb
        match unfit d with
        | some c => .next (s.setPress 2 c 0)
        | none =>
          if d.fatal then .next (s.nvmeError.setPress 3 5 0)
          else
            let s := s.updPress fun p => match d.other with
              | some l => { p with found := true, fails := 0, label := l, slots := [] }
              | none => { p with found := true, fails := 0 }
            .next ((s.setPress 1 0 0).emit (.nvme .labelRead 0 0 1))

/-- The slot that does not hold the newest seal (R313). -/
def State.olderSlot (s : State) : Nat := if s.slotNo 0 != 0 && s.slotNo 0 ≥ s.slotNo 1 then 1 else 0

/-- The label has been read (R310): READY for this device's own, FOREIGN else. -/
def State.labelSeen (s : State) (good : Bool) : State :=
  if !s.ckpt.press.found || s.fld F.CKPT_STATUS_PRESS != 0 then s
  else
    let auto : Option Bool := match s.ckpt.press.label with
      | some l => if good && l.1 == s.fuseDigest then some l.2 else none
      | none => none
    match auto with
    | some a => ((s.setFld F.CKPT_STATUS_PRESS 1).setFld F.CKPT_CTRL_AUTO (b2n a)).setFld F.CKPT_STATUS_NEXT_SLOT s.olderSlot
    | none => (s.setFld F.CKPT_STATUS_PRESS 2).setFld F.CKPT_CTRL_AUTO 0

/-- The oldest label write has completed (R310, R325): FORMAT invalidates both slots and makes the press READY (R314). -/
def State.labelWritten (s : State) (ok : Bool) : State :=
  match s.ckpt.press.writes with
  | [] => s
  | (l, x) :: rest =>
    let s := s.updPress fun p => { p with writes := rest }
    if !ok then s.finish Op.CKPT_SET_TRIGGERS x (Answer.st St.MEDIA s.lastErr)
    else
      let s := (s.updPress fun p => { p with label := some l }).setFld F.CKPT_CTRL_AUTO (b2n l.2)
      let s := if bitOf x.P2 2 then
          ((s.updPress fun p => { p with slots := [], fails := 0 }).setFld F.CKPT_STATUS_PRESS 1).setFld F.CKPT_STATUS_NEXT_SLOT 0
        else s
      s.finish Op.CKPT_SET_TRIGGERS x (Answer.ok 0)

/-- Is a command of this purpose in flight? -/
def State.nvmeDue (s : State) (op : NvmeOp) : Bool :=
  let p := s.ckpt.press
  p.found && match op with
    | .labelRead => s.fld F.CKPT_STATUS_PRESS == 0
    | .labelWrite => !p.writes.isEmpty
    | .ckptWrite => match s.ckpt.run with | some r => r.press && !r.isSealed | none => false
    | .sealRead k => match s.ckpt.restore with | some r => r.stage == 1 && r.asked.contains k | none => false
    | .blocksRead k => match s.ckpt.restore with
      | some r => r.stage == 3 && (match r.cur with | some c => c.place == k | none => false)
      | none => false
    | .fatal => true

/-- What a completed command brings, once any error has been counted. -/
def State.nvmeDone (s : State) (op : NvmeOp) (ok intact : Bool) : State :=
  match op with
  | .labelRead => s.labelSeen (ok && intact)
  | .labelWrite => s.labelWritten ok
  | .ckptWrite => if ok then s.pressStep 1 else s
  | .sealRead k => s.restoreRead (.sealRead k) ok intact
  | .blocksRead k => s.restoreRead (.blocksRead k) ok intact
  | .fatal => (s.setFld F.CXL_PRESS_STATE 3).setFld F.CXL_PRESS_CAUSE 5

/-- NVME_COMPLETION (R443, R444): a command completes, `ok` its status and `intact` whether what it read verifies; or Controller Fatal
Status shows. -/
def execNVME_COMPLETION (op : NvmeOp) (ok intact : Bool) (s : State) : Host.Outcome State Fault Refusal :=
  if !s.nvmeDue op then .next s
  else
    let bad := !ok || op == .fatal
    .next ((if bad then s.nvmeError else s).nvmeDone op ok intact)

/-- NVME_TIMEOUT (R444): a command of 2 s is aborted, and the controller is reset. -/
def execNVME_TIMEOUT (op : NvmeOp) (s : State) : Host.Outcome State Fault Refusal :=
  if !s.nvmeDue op || op == .fatal then .next s
  else .next (((s.nvmeError.nvmeDone op false false).setFld F.CXL_PRESS_STATE 3).setFld F.CXL_PRESS_CAUSE 6)

/-! ## A tick of time -/

/-- Accesses that waited for a retrained channel proceed (R425). -/
def State.trafficBack (s : State) : State :=
  let go := s.boot.traffic.filter (fun a => !s.retraining 3 a.channel)
  let s := { s with boot := { s.boot with traffic := s.boot.traffic.filter (fun a => s.retraining 3 a.channel) } }
  go.foldl (fun s a => s.hostAccess a.dec a.hpa a.op) s

/-- One tick of time passes: DEV_TICK counts unless device reset is held (R39), and the accesses
that waited for a retrained channel go on. -/
def State.tickOver (s : State) : State :=
  if s.boot.hold != 0 then s
  else { s with tick := (s.tick + 1) % 2 ^ 64 }.trafficBack

end Sys2Proof.Machine
end

