-- ==== Sys2Proof/Machine/MicroOps.lean ====
section
/-!
DEFINITION. The micro-operations of the near-bank units (R130-R132, R143, R145, Table 5.7).  Where the spec leaves the layout of
a state block, a heap or a table in SRAM open, the layout is log entry 46's.
-/

namespace Sys2Proof.Machine

/-! ## Control -/

/-- NOP. -/
def execNBU_NOP (n : Nat) (s : State) : Host.Outcome State Fault Refusal := runUop 0x00 n s fun s _ r _ => .next s r

/-- YIELD: the actions of R143. -/
def execYIELD (n : Nat) (s : State) : Host.Outcome State Fault Refusal := runUop 0x01 n s fun s _ _ _ => .yield (s.yieldAt n).1

/-- HALT: the result word, and the program ends. -/
def execHALT (n : Nat) (s : State) : Host.Outcome State Fault Refusal :=
  runUop 0x02 n s fun s _ _ u => .stop s (bitsOf u.imm 7 0) (bitsOf u.imm 23 8)

/-- LOOP: LCx ← A + IMM[15:0]. -/
def execLOOP (n : Nat) (s : State) : Host.Outcome State Fault Refusal :=
  runUop 0x03 n s fun s v r u => .next s (r.put u.d (v.sel r u.a + bitsOf u.imm 15 0))

/-- ENDL: LCx ← LCx − 1; branch if non-zero. -/
def execENDL (n : Nat) (s : State) : Host.Outcome State Fault Refusal :=
  runUop 0x04 n s fun s v r u =>
    let c := (v.sel r u.d + 2 ^ 32 - 1) % 2 ^ 32
    if c != 0 then .jump s (r.put u.d c) (bitsOf u.imm 8 0) else .next s (r.put u.d c)

/-- BZ and BNZ: branch if A is zero, or is not. -/
def execBZ (n : Nat) (s : State) : Host.Outcome State Fault Refusal :=
  runUop 0x05 n s fun s v r u => if v.sel r u.a == 0 then .jump s r (bitsOf u.imm 8 0) else .next s r
def execBNZ (n : Nat) (s : State) : Host.Outcome State Fault Refusal :=
  runUop 0x06 n s fun s v r u => if v.sel r u.a != 0 then .jump s r (bitsOf u.imm 8 0) else .next s r

/-- JMP. -/
def execJMP (n : Nat) (s : State) : Host.Outcome State Fault Refusal := runUop 0x07 n s fun s _ r u => .jump s r (bitsOf u.imm 8 0)

/-- An SRAM address taken down to its alignment (log entry 46). -/
def alignDown (a k : Nat) : Nat := a / k * k

/-- WPOP: the next work descriptor into SRAM; waits while the queue is empty and open. -/
def execWPOP (n : Nat) (s : State) : Host.Outcome State Fault Refusal :=
  runUop 0x08 n s fun s v r u =>
    let a := alignDown (bitsOf u.imm 13 0) 8
    match v.work with
    | d :: rest =>
      if !inRegion r.launch.bg a 32 then .stop s 7 0
      else .next (s.setNbu n ({ v with work := rest }.wr r.launch.bg a (slice d 0 32))) (r.put u.d 1)
    | [] => if v.closed then .next s (r.put u.d 0) else .stall

/-- PPB: declares ping-pong use. -/
def execPPB (n : Nat) (s : State) : Host.Outcome State Fault Refusal :=
  runUop 0x09 n s fun s v r u => .next (s.setNbu n { v with ppOn := u.mod.testBit 1, ppActive := u.mod % 2 }) r

/-- FENCE: every earlier WRC is written back, as it is at its issue here (log entry 47). -/
def execFENCE_UOP (n : Nat) (s : State) : Host.Outcome State Fault Refusal := runUop 0x0A n s fun s _ r _ => .next s r

/-! ## ALU and scalar memory -/

/-- LI: D ← IMM sign-extended, or its upper half ← IMM. -/
def execLI (n : Nat) (s : State) : Host.Outcome State Fault Refusal :=
  runUop 0x10 n s fun s v r u => .next s (r.put u.d (if u.mod % 2 == 0 then u.simm else u.imm * 2 ^ 32 + v.sel r u.d % 2 ^ 32))

/-- D ← A op second operand: B, or IMM sign-extended when MOD[0] is 1. -/
def alu (op n : Nat) (s : State) (f : Nat → Nat → Nat) : Host.Outcome State Fault Refusal :=
  runUop op n s fun s v r u => .next s (r.put u.d (f (v.sel r u.a) (if u.mod % 2 == 0 then v.sel r u.b else u.simm) % 2 ^ 64))

def execADD (n : Nat) (s : State) : Host.Outcome State Fault Refusal := alu 0x11 n s (fun a b => a + b)
def execSUB (n : Nat) (s : State) : Host.Outcome State Fault Refusal := alu 0x12 n s (fun a b => a + 2 ^ 64 - b % 2 ^ 64)
def execAND (n : Nat) (s : State) : Host.Outcome State Fault Refusal := alu 0x13 n s (fun a b => a &&& b)
def execOR (n : Nat) (s : State) : Host.Outcome State Fault Refusal := alu 0x14 n s (fun a b => a ||| b)
def execXOR (n : Nat) (s : State) : Host.Outcome State Fault Refusal := alu 0x15 n s (fun a b => a ^^^ b)
def execSHL (n : Nat) (s : State) : Host.Outcome State Fault Refusal := alu 0x16 n s (fun a b => a <<< (b % 64))
def execSHR (n : Nat) (s : State) : Host.Outcome State Fault Refusal := alu 0x17 n s (fun a b => a >>> (b % 64))
def execSLTU (n : Nat) (s : State) : Host.Outcome State Fault Refusal := alu 0x18 n s (fun a b => if a < b then 1 else 0)
def execMINU (n : Nat) (s : State) : Host.Outcome State Fault Refusal := alu 0x19 n s (fun a b => min a b)
def execMAXU (n : Nat) (s : State) : Host.Outcome State Fault Refusal := alu 0x1A n s (fun a b => max a b)

/-- LDW: D ← 8 bytes at SA A + IMM[13:0]. -/
def execLDW (n : Nat) (s : State) : Host.Outcome State Fault Refusal :=
  runUop 0x1B n s fun s v r u =>
    let a := alignDown (v.sel r u.a + bitsOf u.imm 13 0) 8
    if !inRegion r.launch.bg a 8 then .stop s 7 0 else .next s (r.put u.d (leNat (v.rd r.launch.bg a 8)))

/-- STW: 8 bytes at SA A + IMM[13:0] ← B. -/
def execSTW (n : Nat) (s : State) : Host.Outcome State Fault Refusal :=
  runUop 0x1C n s fun s v r u =>
    let a := alignDown (v.sel r u.a + bitsOf u.imm 13 0) 8
    if !inRegion r.launch.bg a 8 then .stop s 7 0 else .next (s.setNbu n (v.wr r.launch.bg a (leBytes 8 (v.sel r u.b)))) r

/-! ## Columns and lines -/

/-- Hand the read engine work, and let it fill the FIFO. -/
def State.feed (s : State) (n : Nat) (v : Nbu) (todo : List (Nat × Option Bytes)) (r : Run) : UopRes :=
  let b := s.bring n (32 - v.latch.length) (v.toRead ++ todo) v.latch
  let s := s.setNbu n { v with latch := b.1, toRead := b.2.1 }
  match b.2.2 with
  | some ca => s.mediaStop n ca
  | none => .next s r

/-- RDC: N columns from CA A + IMM[20:0] into the latch FIFO. -/
def execRDC (n : Nat) (s : State) : Host.Outcome State Fault Refusal :=
  runUop 0x20 n s fun s v r u =>
    s.feed n v ((List.range u.n).map (fun i => ((v.sel r u.a + bitsOf u.imm 20 0 + i) % 2 ^ 21, none))) r

/-- The columns of a WRC: byte i of each is written where bit i of the enables is set (R131). -/
def writeCols (m : List (Nat × Byte)) (en : Nat) : List (Nat × Bytes) → List (Nat × Byte)
  | [] => m
  | (a, b) :: l =>
    writeCols (b.zipIdx.foldl (fun m x => if en.testBit x.2 then memPut m (a + x.2) [x.1] else m) m) en l

/-- WRC: N columns at CA A + IMM[20:0] from SRAM lines at SA B, byte enables D; a column written whole is marked no longer (R330). -/
def execWRC (n : Nat) (s : State) : Host.Outcome State Fault Refusal :=
  runUop 0x21 n s fun s v r u =>
    let b := alignDown (v.sel r u.b) 64
    if !inRegion r.launch.bg b (64 * u.n) then .stop s 7 0
    else
      let cols := (List.range u.n).map fun i => (colAddr n (v.sel r u.a + bitsOf u.imm 20 0 + i), v.rd r.launch.bg (b + 64 * i) 64)
      let t := { s with hbm := writeCols s.hbm (v.sel r u.d) cols }
      .next (if v.sel r u.d % 2 ^ 64 == 2 ^ 64 - 1 then cols.foldl (fun t c => t.clearMarks c.1 64) t else t) r

/-- LDS: N SRAM lines from SA A + IMM[13:0] into the latch FIFO. -/
def execLDS (n : Nat) (s : State) : Host.Outcome State Fault Refusal :=
  runUop 0x22 n s fun s v r u =>
    let a := alignDown (v.sel r u.a + bitsOf u.imm 13 0) 64
    if !inRegion r.launch.bg a (64 * u.n) then .stop s 7 0
    else s.feed n v ((List.range u.n).map (fun i => (0, some (v.rd r.launch.bg (a + 64 * i) 64)))) r

/-- STS: the next N latch columns, raw, to SRAM from SA A + IMM[13:0]. -/
def execSTS (n : Nat) (s : State) : Host.Outcome State Fault Refusal :=
  runUop 0x23 n s fun s v r u =>
    let a := alignDown (v.sel r u.a + bitsOf u.imm 13 0) 64
    if !inRegion r.launch.bg a (64 * u.n) then .stop s 7 0
    else match s.takeCols n u.n with
      | none => .stall
      | some (.inr ca) => s.mediaStop n ca
      | some (.inl (cols, v)) => .next (s.setNbu n (v.wr r.launch.bg a cols.flatten)) r

/-- QLD: N lines of input-buffer entry A, from line offset B, to SA IMM[13:0]. -/
def execQLD (n : Nat) (s : State) : Host.Outcome State Fault Refusal :=
  runUop 0x24 n s fun s v r u =>
    let a := alignDown (bitsOf u.imm 13 0) 64
    let b := (tGet (s.stack (n / 512)).input (v.sel r u.a)).getD []
    if !inRegion r.launch.bg a (64 * u.n) then .stop s 7 0
    else .next (s.setNbu n (v.wr r.launch.bg a (slice b (64 * v.sel r u.b) (64 * u.n)))) r

/-- EMIT: N SRAM lines from SA IMM[13:0] to the base die, routing word A. -/
def execEMIT (n : Nat) (s : State) : Host.Outcome State Fault Refusal :=
  runUop 0x25 n s fun s v r u =>
    let a := alignDown (bitsOf u.imm 13 0) 64
    let kind := if r.launch.slot == 0 then 0 else if r.launch.slot == 4 then 1 else 2
    if !inRegion r.launch.bg a (64 * u.n) then .stop s 7 0
    else .next (s.updStack (n / 512) (fun k => { k with inbox := k.inbox ++ [{ kind := kind, route := v.sel r u.a, body := v.rd r.launch.bg a (64 * u.n) }] })) r

/-! ## Computing -/

/-- UNP: configures the unpacker. -/
def execUNP (n : Nat) (s : State) : Host.Outcome State Fault Refusal :=
  runUop 0x30 n s fun s v r u =>
    let w : Unp := { format := u.mod, base := v.sel r u.d, scale := v.sel r u.a, first := v.sel r u.b, group := v.sel r u.b,
                     book := bitsOf u.imm 3 0, g := bitsOf u.imm 7 4 + 1, p := bitsOf u.imm 13 8, esc := u.imm.testBit 14, rest := [] }
    .next s { r with unp := w }

/-- FP8 vector elements in SRAM, as FP32 words. -/
def Nbu.fp8At (v : Nbu) (bg : Bool) (a k : Nat) : List Nat := (v.rd bg a k).map (fun b => fp8Word b.toNat)

/-- Add products to FP32 words in SRAM, one list of products per address. -/
def Nbu.accum (v : Nbu) (bg : Bool) : List (Nat × List (Nat × Nat)) → Nbu
  | [] => v
  | (a, ps) :: l => (v.wrW bg a (Config.accumulate (v.rdW bg a) ps)).accum bg l

/-- Distinct token slots of groups, in order. -/
def slotsIn (gs : List (Nat × Nat × Nat × List Nat)) : List Nat := (gs.map (·.1)).eraseDups

/-- What a DOT or HMV adds: per query k and token slot t in the groups, at `place k t`, the products of the groups' elements with vector
k at SA `a`, of `d` elements. -/
def vectorSums (v : Nbu) (bg : Bool) (a q d : Nat) (place : Nat → Nat → Nat) (gs : List (Nat × Nat × Nat × List Nat)) :
    List (Nat × List (Nat × Nat)) :=
  let one := fun (k t : Nat) => (place k t,
    (gs.filter (fun g => g.1 == t)).flatMap (fun g => g.2.2.2.zip (v.fp8At bg (a + k * d + 32 * g.2.1) 32)))
  (List.range q).flatMap (fun k => (slotsIn gs).map (one k))

/-- DOT: scores += unpacked elements × MOD[2:0] + 1 FP8 vectors; score[q][t] at SA B. -/
def execDOT (n : Nat) (s : State) : Host.Outcome State Fault Refusal :=
  runUop 0x31 n s fun s v r u =>
    let a := v.sel r u.a
    let b := v.sel r u.b
    let q := u.mod % 8 + 1
    let d := 32 * r.unp.g
    let bg := r.launch.bg
    if !inRegion bg a (q * d) || !inRegion bg b (256 * q) then .stop s 7 0
    else s.consume n r u.n fun v r gs =>
      some (v.accum bg (vectorSums v bg a q d (fun k t => b + 256 * k + 4 * t) gs), r)

/-- Softmax of one query's scores over the attended slots (R134): probabilities of slots 0 to B − 1, m and l. -/
def softmax (scores : List Nat) (mask scale : Nat) : List Nat × Nat × Nat :=
  let sc := scores.zipIdx.map (fun x => if mask.testBit x.2 then some (f32Mul x.1 scale) else none)
  let live := sc.filterMap id
  match live with
  | [] => (sc.map (fun _ => 0), f32Inf true, 0)
  | x :: l =>
    let m := l.foldl (fun a b => if f32Lt a b then b else a) x
    let p := sc.map (fun v => match v with | some v => Config.expF32 (f32Sub v m) | none => 0)
    (p, m, Config.accumulate 0 ((sc.zip p).filterMap (fun z => if z.1.isSome then some (z.2, 0x3F800000) else none)))

/-- The softmax of query k of the state block at SA `a`, over `t` token slots: probabilities, m and l. -/
def smxOne (bg : Bool) (a t mask scale : Nat) (v : Nbu) (k : Nat) : Nbu :=
  let x := softmax ((List.range t).map (fun i => v.rdW bg (a + 256 * k + 4 * i))) mask scale
  let v := x.1.zipIdx.foldl (fun v p => v.wrW bg (a + 256 * k + 4 * p.2) p.1) v
  (v.wrW bg (a + 2048 + 8 * k) x.2.1).wrW bg (a + 2048 + 8 * k + 4) x.2.2

/-- SMX: softmax over the state block at SA A. -/
def execSMX (n : Nat) (s : State) : Host.Outcome State Fault Refusal :=
  runUop 0x32 n s fun s v r u =>
    let a := v.sel r u.a
    let t := min 64 (v.sel r u.b)
    let q := u.mod % 8 + 1
    let bg := r.launch.bg
    if !inRegion bg a 2112 then .stop s 7 0
    else .next (s.setNbu n ((List.range q).foldl (smxOne bg a t (v.sel r u.d) u.imm) v)) { r with queries := q }

/-- What an AXV adds to the state block at SA `a`: per query and dimension, the products of probabilities and elements. -/
def outputSums (v : Nbu) (bg : Bool) (a q d : Nat) (gs : List (Nat × Nat × Nat × List Nat)) : List (Nat × List (Nat × Nat)) :=
  let dims := (gs.map (fun g => g.2.1)).eraseDups
  let one := fun (k dg i : Nat) => (a + 2112 + 4 * (k * d + 32 * dg + i),
    (gs.filter (fun g => g.2.1 == dg)).map (fun g => (v.rdW bg (a + 256 * k + 4 * g.1), g.2.2.2.getD i 0)))
  (List.range q).flatMap (fun k => dims.flatMap (fun dg => (List.range 32).map (one k dg)))

/-- AXV: outputs += probabilities × unpacked elements, of the state block at SA A; it works on as many queries as the program's last SMX
gave, one before any: the model's choice (R130; log entry 86). -/
def execAXV (n : Nat) (s : State) : Host.Outcome State Fault Refusal :=
  runUop 0x33 n s fun s v r u =>
    let a := v.sel r u.a
    let d := 32 * r.unp.g
    let bg := r.launch.bg
    if !inRegion bg a (2112 + 4 * d * r.queries) then .stop s 7 0
    else s.consume n r u.n fun v r gs =>
      some (v.accum bg (outputSums v bg a r.queries d gs), r)

/-- DEC: unpacked elements as FP32 to SA A onwards. -/
def execDEC (n : Nat) (s : State) : Host.Outcome State Fault Refusal :=
  runUop 0x34 n s fun s v r u =>
    let a := v.sel r u.a
    s.consume n r u.n fun v r gs =>
      let b := gs.flatMap (fun g => g.2.2.2.flatMap (leBytes 4))
      if inRegion r.launch.bg a b.length then some (v.wr r.launch.bg a b, r) else none

/-- Differences of two lists of values as FP32 products. -/
def squares (xs ys : List Int) : List (Nat × Nat) := (xs.zip ys).map (fun p => let d := fxWord (p.1 - p.2); (d, d))

/-- 32 FP32 words of a program's region. -/
def Nbu.words32 (v : Nbu) (bg : Bool) (a : Nat) : List Nat := (List.range 32).map (fun i => v.rdW bg (a + 4 * i))

/-- A group of 32 FP32 words encoded in the format of a MOD (0 MXFP4, 1 MXFP8, 2 Y3 under a codebook): scale byte and codes. -/
def encGroup (mod book : Nat) (ws : List Nat) : Nat × List Nat :=
  if mod == 0 then mxEncode mxFp4 ws else if mod == 1 then mxEncode mxFp8 ws else y3Encode book (ws.map wordFx)

/-- Its exact values. -/
def decGroup (mod book : Nat) (e : Nat × List Nat) : List Int :=
  if mod == 0 then mxDecode mxFp4 e.1 e.2 else if mod == 1 then mxDecode mxFp8 e.1 e.2 else y3Decode book e.1 e.2

/-- What ENC leaves in its registers: scale byte and group error in D, ‖x − q‖² added to S14 and ‖x‖² to S15. -/
def encRegs (v : Nbu) (r : Run) (d : Nat) (scale : Nat) (xs ys : List Int) : Run :=
  let x := errPair xs ys
  let old := v.sel r d
  let r := r.put d (old - old % 2 ^ 32 + errUnits x.1 x.2 * 2 ^ 16 + bitsOf old 15 8 * 2 ^ 8 + scale)
  let low := fun (x w : Nat) => x - x % 2 ^ 32 + w
  let r := r.put 46 (low (v.sel r 46) (Config.accumulate (v.sel r 46 % 2 ^ 32) (squares xs ys)))
  r.put 47 (low (v.sel r 47) (Config.accumulate (v.sel r 47 % 2 ^ 32) (squares xs (xs.map (fun _ => 0)))))

/-- ENC: encodes 32 FP32 at SA A into format MOD at SA B; scale byte and group error to D, error and norm to S14 and S15. -/
def execENC (n : Nat) (s : State) : Host.Outcome State Fault Refusal :=
  runUop 0x35 n s fun s v r u =>
    let a := v.sel r u.a
    let b := v.sel r u.b
    let bg := r.launch.bg
    if !inRegion bg a 128 || !inRegion bg b (groupBytes u.mod) then .stop s 7 0
    else
      let book := bitsOf u.imm 3 0
      let e := encGroup u.mod book (v.words32 bg a)
      .next (s.setNbu n (v.wr bg b (packBits (if u.mod == 0 then 4 else if u.mod == 1 then 8 else 3) e.2)))
        (encRegs v r u.d e.1 ((v.words32 bg a).map wordFx) (decGroup u.mod book e))

/-- What CBE adds to the table at SA `b`: the squared errors of the values under each codebook. -/
def bookSums (b : Nat) (xs : List Int) : List (Nat × List (Nat × Nat)) :=
  (List.range 16).map (fun k => let e := y3Encode k xs; (b + 4 * k, squares xs (y3Decode k e.1 e.2)))

/-- CBE: adds the squared error of 32 FP32 values under each codebook to the FP32 table at SA B. -/
def execCBE (n : Nat) (s : State) : Host.Outcome State Fault Refusal :=
  runUop 0x36 n s fun s v r u =>
    let a := v.sel r u.a
    let b := v.sel r u.b
    let bg := r.launch.bg
    if !inRegion bg a 128 || !inRegion bg b 64 then .stop s 7 0
    else .next (s.setNbu n (v.accum bg (bookSums b ((v.words32 bg a).map wordFx)))) r

/-- The distance a final DST writes from its accumulators: x·q or ‖x − q‖², ‖x‖² and ‖q‖². -/
def finalDist (dist acc nx nq : Nat) : Nat :=
  if dist == 0 then f32Negate acc
  else if dist == 1 then (if f32Finite nx && f32Fx nx == 0 then 0x3F800000 else f32Sub 0x3F800000 (Config.cosine acc nx nq))
  else acc

/-- The query elements that group `i` meets, at SA `a`: FP8, or FP16 for FP16 records. -/
def Nbu.queryAt (v : Nbu) (bg : Bool) (a : Nat) (fp16 : Bool) (i : Nat) : List Nat :=
  if fp16 then (List.range 32).map (fun j => fp16Word (leNat (v.rd bg (a + 64 * i + 2 * j) 2))) else v.fp8At bg (a + 32 * i) 32

/-- One DST: its groups accumulated at SA `b` against the query at SA `a`, and the distance written where it is final. -/
def dstOne (v : Nbu) (bg : Bool) (a b dist : Nat) (fp16 last : Bool) (gs : List (Nat × Nat × Nat × List Nat)) : Nbu :=
  let x := gs.flatMap (fun g => g.2.2.2)
  let y := gs.flatMap (fun g => v.queryAt bg a fp16 g.2.2.1)
  let d := (x.zip y).map (fun p => f32Sub p.1 p.2)
  let v := v.accum bg [(b, if dist == 2 then d.zip d else x.zip y), (b + 4, x.zip x), (b + 8, y.zip y)]
  if last then v.wrW bg b (finalDist dist (v.rdW bg b) (v.rdW bg (b + 4)) (v.rdW bg (b + 8))) else v

/-- DST: elements against the query at SA A, accumulated at SA B; final writes the distance. -/
def execDST (n : Nat) (s : State) : Host.Outcome State Fault Refusal :=
  runUop 0x37 n s fun s v r u =>
    let a := v.sel r u.a
    let b := v.sel r u.b
    let bg := r.launch.bg
    let fp16 := r.unp.format == 4
    let w := if fp16 then 64 else 32
    if !inRegion bg b 12 then .stop s 7 0
    else s.consume n r u.n fun v r gs =>
      if gs.any (fun g => !inRegion bg (a + w * g.2.2.1) w) then none
      else some (dstOne v bg a b (u.mod % 4) fp16 (u.mod.testBit 2) gs, r)

/-- The heap at SA `h` after a candidate is offered: taken when it is below the threshold and there is room (R138). -/
def topkOne (v : Nbu) (bg : Bool) (h id dist thr : Nat) : Nbu :=
  let c := v.rdW bg h
  if f32Lt dist thr && c < 512 then ((v.wrW bg (h + 8 + 8 * c) id).wrW bg (h + 12 + 8 * c) dist).wrW bg h (c + 1) else v

/-- TOPK: offers a candidate to the heap at SA IMM[13:0]: refused unless below CMD15; D ← 1 when the heap is full (R138). -/
def execTOPK (n : Nat) (s : State) : Host.Outcome State Fault Refusal :=
  runUop 0x38 n s fun s v r u =>
    let h := alignDown (bitsOf u.imm 13 0) 8
    let bg := r.launch.bg
    if !inRegion bg h 4104 then .stop s 7 0
    else
      let w := topkOne v bg h (v.sel r u.a) (v.sel r u.b % 2 ^ 32) (v.sel r 15 % 2 ^ 32)
      .next (s.setNbu n w) (r.put u.d (if w.rdW bg h ≥ 512 then 1 else 0))

/-- HMV: logits += elements × MOD[2:0] + 1 FP8 chunks at SA A, per row and vector at SA B. -/
def execHMV (n : Nat) (s : State) : Host.Outcome State Fault Refusal :=
  runUop 0x39 n s fun s v r u =>
    let a := v.sel r u.a
    let b := v.sel r u.b
    let q := u.mod % 8 + 1
    let d := 32 * r.unp.g
    let bg := r.launch.bg
    if !inRegion bg a (q * d) then .stop s 7 0
    else s.consume n r u.n fun v r gs =>
      if (slotsIn gs).any (fun t => !inRegion bg (b + 32 * t) 32) then none
      else some (v.accum bg (vectorSums v bg a q d (fun k t => b + 4 * (8 * t + k)) gs), r)

end Sys2Proof.Machine
end

