-- ==== Sys2Proof/Machine/RegView.lean ====
section
/-!
DEFINITION. Registers as software reads them (R15, R16, R36): what the register file stores, and the fields that show other state of
the machine.
-/

namespace Sys2Proof.Machine

/-! ## Blocks -/

/-- DEV, RIND and SLIPQ (Tables 1.20, 2.12, 2.16, 15.17): DEV_TICK and DEV_STATE copy, UPTIME_S, keys held now, slips outstanding. -/
def State.viewLow (s : State) (a : Nat) (w : Word) : Word :=
  if a < 0x10000 then s.devReg a
  else if a == A.RIND_STATUS then 
    F.RIND_STATUS_UPTIME_S.put (if s.tick < s.sec.rindUntil then F.RIND_STATUS_STATE.put w 2 else w) ((s.tick - s.sec.rindSince) / 100000000)
  else if a == A.RIND_KEYSTORE then
    F.RIND_KEYSTORE_BUNDLE_KEY.put (F.RIND_KEYSTORE_TRANSPORT_KEYS.put (F.RIND_KEYSTORE_TENANT_KEYS.put w
      (s.tenants.filter (fun t => t.2.key.isSome)).length) (s.peers.filter (fun p => p.1 < 4096 && (p.2.state == 2 || p.2.state == 3))).length)
      (b2n s.boot.bundleKey.isSome)
  else if a == A.SLIPQ_OCC then F.SLIPQ_OCC_OUTSTANDING.put w s.slips.length
  else if A.QP_SQ_BASE ≤ a && a < A.QP_SQ_BASE + 0x4000 && a % 0x40 == 0x38 then
    let q := (a - A.QP_SQ_BASE) / 0x40
    let p := s.qp q
    BitVec.ofNat 64 (p.state % 256 * 2 ^ 56 + p.errCause % 256 * 2 ^ 48 + b2n p.discarding * 2 ^ 32 + p.fetched % 65536 * 2 ^ 16
      + s.unconsumed q % 65536)
  else w

/-- Entries in a session state; FREE entries are those the table does not hold. -/
def State.sessCount (s : State) (st : Nat) : Nat :=
  if st == 0 then 2 ^ 20 - s.sessions.length else (s.sessions.filter (fun p => p.2.state == st)).length

/-- The tenant a quota selector names. -/
def State.quotaTenant (s : State) : Nat := if s.flag F.TIER_QUOTA_SEL_OPR then 0xFFFF else s.fld F.TIER_QUOTA_SEL_TENANT

/-- SESS and TIER (Tables 3.13, 7.11). -/
def State.viewTier (s : State) (a : Nat) (w : Word) : Word :=
  if A.SESS_COUNT ≤ a && a < A.SESS_COUNT + 96 then BitVec.ofNat 64 (s.sessCount ((a - A.SESS_COUNT) / 8))
  else if a == A.TIER_FREE_T1 then BitVec.ofNat 64 (sat 24 s.freeT1)
  else if a == A.TIER_FREE_T2 then BitVec.ofNat 64 (sat 36 (s.freeUnits 2))
  else if a == A.TIER_FREE_T3 then BitVec.ofNat 64 (sat 36 (s.freeUnits 3))
  else if a == A.TIER_POOL_CFG then F.TIER_POOL_CFG_POOL_LEN.put w s.pool.length
  else if a == A.TIER_HOLD then F.TIER_HOLD_USED.put w s.holdUsed
  else if A.TIER_QUOTA ≤ a && a < A.TIER_QUOTA + 32 then
    let q := (s.tenant s.quotaTenant).quotas.getD ((a - A.TIER_QUOTA) / 8) Quota.fresh
    BitVec.ofNat 64 (q.limit % 2 ^ 32 * 2 ^ 32 + sat 32 q.used)
  else if a == A.TIER_POOL_DATA then
    match tGet s.pool (s.fld F.TIER_POOL_SEL_INDEX) with
    | some v => BitVec.ofNat 64 (2 ^ 63 + v.device % 2 ^ 20)
    | none => 0
  else if A.TIER_HOST_BASE ≤ a && a < A.TIER_HOST_BASE + 256 then
    match tGet s.hostRegions ((a - A.TIER_HOST_BASE) / 16) with
    | some v => if a % 16 == 0 then BitVec.ofNat 64 v.base else BitVec.ofNat 64 (v.state % 4 * 2 ^ 62 + v.units % 2 ^ 32)
    | none => 0
  else w

/-- STATE of an NBU (Table 5.15): this model shows 0 IDLE, 1 RUN_FG, 2 RUN_BG; yields, refreshes and resets take no time in it. -/
def Nbu.stateCode (v : Nbu) : Nat := match v.run with | some r => if r.launch.bg then 2 else 1 | none => 0

/-- A register of an NBU's command area (Tables 5.14 and 5.15), by offset. -/
def Nbu.view (v : Nbu) (o : Nat) : Nat :=
  if o < 0xE8 then v.cmdReg (o / 8)
  else if o == 0x100 then
    v.stateCode * 2 ^ 53 + (match v.run with | some r => r.pc % 512 | none => 0) * 2 ^ 44 + v.fg.length % 8 * 2 ^ 41 + v.bg.length % 8 * 2 ^ 38
      + b2n v.susp.isSome * 2 ^ 37
  else if o == 0x108 then v.groups
  else if o == 0x110 then b2n v.ppOn * 2 ^ 9 + v.ppActive % 2 * 2 ^ 8 + v.debt.getD 1 0 % 16 * 16 + v.debt.getD 0 0 % 16
  else if o == 0x118 then v.rereads % 256 * 2 ^ 56 + v.fails % 256 * 2 ^ 48 + v.cause % 256 * 2 ^ 40 + v.ca % 2 ^ 21
  else 0

/-- ME and TEXT (Tables 6.13, 8.13): what the fuses fix of a unit; an ME with a tile reads RUN, REPLAY when the tile runs again, MOVING when
it has been assigned to another pool; contexts open. -/
def State.viewUnit (s : State) (a : Nat) (w : Word) : Word :=
  if A.ME_UNIT ≤ a && a < A.ME_UNIT + 8 * 132 then
    let e := (a - A.ME_UNIT) / 8
    let st := (F.ME_UNIT_STATE.at 0).get w
    let st := match (s.me e).tile with
      | some t => if st < 2 then st else if t.kind != (F.ME_UNIT_POOL.at 0).get w then 5 else if t.fmt != t.entry || t.second || t.parity != 0 then 4 else 3
      | none => st
    let w := (F.ME_UNIT_STATE.at 0).put w st
    (F.ME_UNIT_CLUSTER.at (a - A.ME_UNIT)).put ((F.ME_UNIT_SPARE.at 0).put ((F.ME_UNIT_EAST.at 0).put w (mePart e)) (b2n (e ≥ 128)))
      (if e < 128 then e / 8 else 0)
  else if a == A.TEXT_CTX_OCC then F.TEXT_CTX_OCC_OPEN.put w s.text.length
  else if A.TEXT_UNIT ≤ a && a < A.TEXT_UNIT + 8 * 64 then
    let u := (a - A.TEXT_UNIT) / 8
    F.TEXT_UNIT_KIND.put w (if u < 16 then 0 else if u < 48 then 1 else 2)
  else w

/-- SCHED (Table 9.13): the windows of tenants, shapers, peers, rings and histograms. -/
def State.viewSched (s : State) (a : Nat) (w : Word) : Word :=
  let t := s.selTenant
  let v := s.tenant t
  let kind := s.fld F.SCHED_SHP_SEL_KIND
  let index := s.fld F.SCHED_SHP_SEL_INDEX
  let h := s.shaper kind index
  let r := s.ring s.selRing
  if a == A.SCHED_VTIME then BitVec.ofNat 64 s.sched.v
  else if a == A.SCHED_TEN_BUDGET then BitVec.ofNat 64 (v.budget.rate % 2 ^ 32 * 2 ^ 32 + v.budget.burst % 2 ^ 32)
  else if a == A.SCHED_TEN_CTRL then BitVec.ofNat 64 (v.weight % 65536 * 65536)
  else if a == A.SCHED_TEN_LEVEL then BitVec.ofNat 64 (twos 48 (s.level t))
  else if a == A.SCHED_TEN_FT then BitVec.ofNat 64 v.finish
  else if a == A.SCHED_TEN_POLICE then BitVec.ofNat 64 (v.policer.burst % 65536 * 2 ^ 48 + v.policer.rate % 2 ^ 32)
  else if a == A.SCHED_TEN_STAT then BitVec.ofNat 64 (v.drops % 2 ^ 32 * 2 ^ 32 + b2n (s.isProvisioned t) * 2 ^ 31 + s.eligible t % 2 ^ 21)
  else if a == A.SCHED_SHP_CFG then
    BitVec.ofNat 64 (b2n h.enable * 2 ^ 63 + h.overhead % 256 * 2 ^ 48 + h.bucket.burst % 2 ^ 24 * 2 ^ 24 + h.bucket.rate % 2 ^ 24)
  else if a == A.SCHED_SHP_LEVEL then BitVec.ofNat 64 (twos 40 (s.shaperLevel kind index))
  else if a == A.SCHED_PEER_WT then BitVec.ofNat 64 ((s.peer (s.fld F.SCHED_PEER_SEL_PEER)).weight % 256)
  else if a == A.SCHED_RING_CFG then
    BitVec.ofNat 64 (b2n (r.state != 0) * 2 ^ 63 + b2n r.network * 2 ^ 62 + b2n r.irqEn * 2 ^ 61 + r.state % 4 * 2 ^ 59 + r.vec % 2 ^ 11 * 2 ^ 48
      + r.peer % 2 ^ 12 * 2 ^ 36 + r.logSize % 32 * 2 ^ 27 + r.tenant % 2 ^ 12)
  else if a == A.SCHED_RING_BASE then BitVec.ofNat 64 r.base
  else if a == A.SCHED_RING_MIRROR then BitVec.ofNat 64 r.mirror
  else if a == A.SCHED_RING_IDX then BitVec.ofNat 64 (r.ci % 2 ^ 32 * 2 ^ 32 + r.pi % 2 ^ 32)
  else if a == A.SCHED_RING_OWNER then (match r.owner with | some i => BitVec.ofNat 64 (2 ^ 63 + i % 2 ^ 20) | none => 0)
  else if A.SCHED_HIST_DATA ≤ a && a < A.SCHED_HIST_DATA + 256 then
    BitVec.ofNat 64 (sat 64 (s.histBin (s.fld F.SCHED_HIST_SEL_QUEUE) ((a - A.SCHED_HIST_DATA) / 8)))
  else w

/-- Flags as a number, the first lowest. -/
def flagsNat : List Bool → Nat
  | [] => 0
  | b :: l => b2n b + 2 * flagsNat l

/-- VEC and NET (Tables 10.11, 11.13). -/
def State.viewNet (s : State) (a : Nat) (w : Word) : Word :=
  let v := s.peer (s.fld F.NET_PEER_SEL_CTX)
  if a == A.VEC_OCC then BitVec.ofNat 64 (s.shards.length % 2 ^ 11 * 2 ^ 32 + s.vecBlocks.length % 2 ^ 32)
  else if a == A.NET_PEER_CFG then
    BitVec.ofNat 64 (b2n v.valid * 2 ^ 63 + v.kind % 8 * 2 ^ 60 + b2n v.trusted * 2 ^ 59 + b2n v.ipv4 * 2 ^ 58 + v.tenant % 2 ^ 12 * 2 ^ 16
      + v.port % 65536)
  else if a == A.NET_PEER_ADDR_LO then BitVec.ofNat 64 v.addrLo
  else if a == A.NET_PEER_ADDR_HI then BitVec.ofNat 64 v.addrHi
  else if a == A.NET_PEER_STATE then
    BitVec.ofNat 64 (v.state % 8 * 2 ^ 61 + (v.rx.granted - v.rx.seen) % 65536 * 2 ^ 29 + sat 20 v.tx.rate)
  else if A.NET_PORT ≤ a && a < A.NET_PORT + 64 then
    let p := s.port ((a - A.NET_PORT) / 8)
    F.NET_PORT_PFC_OFF.put (F.NET_PORT_LINK.put w (flagsNat ((List.range 4).map p.subUp)))
      (flagsNat ((List.range 4).map (fun k => p.pfcOff.any (fun z => z.1 == k && s.tick < z.2.2))))
  else w

/-- CAT (Table 11.15). -/
def State.viewCat (s : State) (a : Nat) (w : Word) : Word :=
  let own := tGet s.cat.devices s.devId
  if a == A.CAT_STATE then
    match own with
    | some d =>
      if s.member then BitVec.ofNat 64 (2 ^ 63 + b2n d.registrar * 2 ^ 62 + b2n s.cat.abstaining * 2 ^ 61 + d.state % 16 * 2 ^ 57) else 0
    | none => 0
  else if a == A.CAT_FWD then BitVec.ofNat 64 s.cat.fwd.length
  else if a == A.CAT_BKT_DATA then
    match tGet s.cat.buckets (s.fld F.CAT_BKT_SEL_BUCKET) with | some b => BitVec.ofNat 64 (leNat b.bytes) | none => 0
  else if A.CAT_DEV_DATA ≤ a && a < A.CAT_DEV_DATA + 32 then
    let id := s.fld F.CAT_DEV_SEL_ID
    match tGet s.cat.devices id with | some d => BitVec.ofNat 64 (rdLe (d.bytes id) (a - A.CAT_DEV_DATA) 8) | none => 0
  else if a == A.CAT_PROMISED then BitVec.ofNat 64 s.cat.promised
  else if a == A.CAT_ACCEPTED then BitVec.ofNat 64 s.cat.acceptedBallot
  else w

/-- 4 KiB granules of checkpointed control state in T1 written since the barrier (R308): of the session table, 16 entries each, those with
an entry whose ENTRY_GEN has moved, and of the slot table, 512 slots each, those with a slot whose GEN or count has (log entry 89). -/
def State.shadowed (s : State) : Nat :=
  match s.ckpt.run with
  | none => 0
  | some r =>
    if !s.ckpt.guarding then 0
    else
      let k := r.snap
      let entry := fun (t : Tbl Sess) (i : Nat) => (tGet t i).map (·.entryGen)
      let ents := ((s.sessions ++ k.sessions).map (·.1)).filter (fun i => entry s.sessions i != entry k.sessions i)
      let slots := (s.gens.map (·.1) ++ k.gens.map (·.1) ++ s.slots.map (·.1) ++ k.refs.map (·.1)).filter (fun n =>
        tGet s.gens n != tGet k.gens n || (tGet s.slots n).map (·.refs) != tGet k.refs n)
      ((ents.map (· / 16)).eraseDups).length + ((slots.map (· / 512)).eraseDups).length

/-- CKPT and CHK (Tables 12.12, 13.15). -/
def State.viewChk (s : State) (a : Nat) (w : Word) : Word :=
  if a == A.CKPT_SHAPE then BitVec.ofNat 64 s.fuseDigest
  else if a == A.CKPT_SHADOW then F.CKPT_SHADOW_USED.put w s.shadowed
  else if a == A.CKPT_REHOME then F.CKPT_REHOME_PENDING.put w ((s.cat.adopt.map (fun v => v.buckets.length)).foldl (· + ·) 0)
  else if a == A.CHK_SCAN_STATUS then
    let q := s.scans.length - b2n s.scanning
    let st := if s.scanning then 1 else if q != 0 && !s.flag F.CHK_CTRL_SCAN_EN then 2 else 0
    let tag := if s.scanning then (match s.scans with | k :: _ => k.slip.tag.toNat | [] => 0) else 0
    BitVec.ofNat 64 (st * 2 ^ 61 + min q 15 * 2 ^ 56 + tag)
  else if a == A.CHK_SCAN_POS then
    if s.scanning then (match s.scans with | k :: _ => BitVec.ofNat 64 k.start | [] => 0) else 0
  else w

/-- The row candidate that ERR_ROW_SEL names. -/
def State.rowShown (s : State) : Option (Nat × Nat) := s.errs.rows[s.fld F.ERR_ROW_SEL_ENTRY]?

/-- ERR and SEC (Tables 13.17, 15.15). -/
def State.viewSec (s : State) (a : Nat) (w : Word) : Word :=
  if A.ERR_LOG_DATA ≤ a && a < A.ERR_LOG_DATA + 32 then
    match s.errs.shown with | some r => BitVec.ofNat 64 (rdLe r.bytes (a - A.ERR_LOG_DATA) 8) | none => 0
  else if a == A.ERR_STICKY then BitVec.ofNat 64 s.errs.sticky.length
  else if a == A.ERR_ROW_DATA then
    match s.rowShown with | some r => BitVec.ofNat 64 (2 ^ 63 + sat 8 r.2 * 2 ^ 48 + r.1 % 2 ^ 29) | none => 0
  else if a == A.SEC_INPUTS then
    if s.tick < s.sec.quietUntil then w ||| 8 else w
  else if a == A.SEC_PRES then
    match s.sec.windowEnd with
    | some t => if s.tick < t then BitVec.ofNat 64 (2 ^ 63 + (t - s.tick) / 100000) else 0
    | none => 0
  else if a == A.SEC_TEN_KEY then
    let t := s.tenant (if (s.reg A.SEC_TEN_SEL).toNat.testBit 63 then 0xFFFF else s.fld F.SEC_TEN_SEL_TENANT)
    BitVec.ofNat 64 (b2n t.key.isSome * 2 ^ 63 + b2n t.sealedErase * 2 ^ 62 + b2n t.trustOperator * 2 ^ 61 + t.trust.length % 32 * 2 ^ 56
      + (if t.key.isSome then t.kcv % 2 ^ 32 else 0))
  else if A.SEC_PRINC_DATA ≤ a && a < A.SEC_PRINC_DATA + 56 then
    let k := (a - A.SEC_PRINC_DATA) / 8
    match tGet s.principals (s.fld F.SEC_PRINC_SEL_INDEX) with
    | some p =>
      if k == 0 then BitVec.ofNat 64 (2 ^ 63 + p.role % 8 * 2 ^ 60 + p.kinds % 32 * 2 ^ 55 + p.tenant % 65536)
      else BitVec.ofNat 64 (rdLe p.digest (8 * (k - 1)) 8)
    | none => 0
  else if a == A.SEC_SPDM then F.SEC_SPDM_SESSIONS.put w s.sec.spdm.length
  else w

/-- Code of a lock's scope object as BOOT_LOCK_DATA shows it. -/
def Lock.word (l : Lock) : Nat :=
  let h := l.source
  2 ^ 63 + h.1 % 4 * 2 ^ 61 + l.activity % 16 * 2 ^ 57 + l.scope % 8 * 2 ^ 54 + h.2 % 2 ^ 10 * 2 ^ 44 + l.index % 2 ^ 12 * 2 ^ 32 + l.id % 65536

/-- BOOT (Table 16.13): fuse words, the identity seed reading 0; locks. -/
def State.viewBoot (s : State) (a : Nat) (w : Word) : Word :=
  if a == A.BOOT_FUSE_DATA then
    let k := s.fld F.BOOT_FUSE_SEL_WORD
    if 0x69 ≤ k && k ≤ 0x6C then 0 else BitVec.ofNat 64 (s.fuse k)
  else if a == A.BOOT_LOCK_DATA then
    match s.locks[s.fld F.BOOT_LOCK_SEL_ENTRY]? with | some l => BitVec.ofNat 64 l.word | none => 0
  else w

/-- An HDM decoder's register (Table 17.15); the range size stands once the cellar is trained (R434). -/
def State.hdmWord (s : State) (k : Nat) : Nat :=
  let size := if s.boot.ddr then s.hdmSize (k == 1) / 2 ^ 20 % 2 ^ 40 else 0
  match s.host.decoders[k]? with
  | some d =>
    if d.committed then
      2 ^ 63 + Nat.log2 d.ways % 8 * 2 ^ 60 + Nat.log2 (d.gran / 256) % 16 * 2 ^ 56 + d.pos % 16 * 2 ^ 52 + size
    else size
  | none => size

/-- CXL (Table 17.15). -/
def State.viewCxl (s : State) (a : Nat) (w : Word) : Word :=
  let h := s.host
  if a == A.CXL_LINK then
    if h.up then
      BitVec.ofNat 64 ((if h.cxl then 1 else 2) * 2 ^ 61 + h.width % 32 * 2 ^ 56 + (h.rate + 1) % 16 * 2 ^ 52 + b2n h.cxl * 2 ^ 51
        + b2n s.cxlMem * 2 ^ 50 + b2n s.cxlMem * 2 ^ 49 + b2n s.conf * 2 ^ 48)
    else BitVec.ofNat 64 (b2n s.conf * 2 ^ 48)
  else if a == A.CXL_HDM0 then BitVec.ofNat 64 (s.hdmWord 0)
  else if a == A.CXL_HDM1 then BitVec.ofNat 64 (s.hdmWord 1)
  else if a == A.CXL_VIS_BASE then
    match s.visible[s.fld F.CXL_VIS_SEL_INDEX]? with
    | some r => BitVec.ofNat 64 (2 ^ 63 + r.space % 2 * 2 ^ 62 + r.base % 2 ^ 48)
    | none => 0
  else if a == A.CXL_VIS_SIZE then
    match s.visible[s.fld F.CXL_VIS_SEL_INDEX]? with | some r => BitVec.ofNat 64 (r.size % 2 ^ 48) | none => 0
  else w

/-- The word software reads at an aligned BAR0 offset (R15, R16, R35, R36): WO bits and unimplemented offsets read zero. -/
def State.readReg (s : State) (a : Nat) : Word :=
  if 0x1000000 ≤ a && a < 0x2800000 then
    let n := (a - 0x1000000) / 4096
    if s.nbuOn n then BitVec.ofNat 64 ((s.nbu n).view (a % 4096)) else 0
  else match findReg a with
    | none => 0
    | some r =>
      let w := s.reg a &&& ~~~(BitVec.ofNat 64 r.wo)
      if a < 0x40000 then s.viewLow a w
      else if a < 0x80000 then s.viewTier a w
      else if a < 0xA0000 then w
      else if a < 0xE0000 then s.viewUnit a w
      else if a < 0x100000 then s.viewSched a w
      else if a < 0x140000 then s.viewNet a w
      else if a < 0x160000 then s.viewCat a w
      else if a < 0x1A0000 then s.viewChk a w
      else if a < 0x1E0000 then s.viewSec a w
      else if a < 0x200000 then s.viewBoot a w
      else s.viewCxl a w

end Sys2Proof.Machine
end

