-- ==== Sys2Proof/Machine/Registers.lean ====
section
/-!
DEFINITION. Writes of registers that have no row of their own (R15-R17, R36, R124) and the inspection window of sessions (R95).
-/

namespace Sys2Proof.Machine

/-! ## The inspection window (R95) -/

/-- SESS_INSPECT_IDX (R95, R71): the entry is copied into the data registers, and VALID is set. -/
def execSESS_INSPECT_IDX (value : Word) (s : State) : Host.Outcome State Fault Refusal :=
  let i := value.toNat % 2 ^ 20
  let b := match tGet s.sessions i with | some e => s.entryBytes i e false | none => List.replicate 256 0
  let s := s.setReg A.SESS_INSPECT_IDX (BitVec.ofNat 64 (2 ^ 63 + i))
  .next ((List.range 32).foldl (fun s w => s.setReg (A.SESS_INSPECT_DATA + 8 * w) (BitVec.ofNat 64 (rdLe b (8 * w) 8))) s)

/-! ## What a write must keep to (R17) -/

/-- Is a field of a word to be written within bounds? -/
def Fld.within (f : Fld) (w : Word) (lo hi : Nat) : Bool := lo ≤ f.get w && f.get w ≤ hi

/-- Limits of the three pools once pool `p`'s register reads `w` (R177). -/
def State.poolsOk (s : State) (p : Nat) (w : Word) : Bool :=
  let word := fun q => if q == p then w else s.reg (A.ME_POOL + 8 * q)
  let lo := fun q => (F.ME_POOL_MIN.at 0).get (word q)
  let hi := fun q => (F.ME_POOL_MAX.at 0).get (word q)
  let n := s.fld F.DEV_CAP1_ME_COUNT
  lo 0 + lo 1 + lo 2 ≤ n && n ≤ hi 0 + hi 1 + hi 2 && lo p ≤ hi p && (s.onePartition || (lo p % 2 == 0 && hi p % 2 == 0))

/-- Design power of the variant, W (R451). -/
def State.designPower (s : State) : Nat := if s.variant == 0 then 1400 else if s.variant == 1 then 1050 else 750

/-- May a register hold a word (R17, and the ranges its fields' descriptions give)?  `a` is its BAR0 offset. -/
def State.wordOk (s : State) (a : Nat) (w : Word) : Bool :=
  if a == A.DEV_PART then
    F.DEV_PART_WEST.within w 0 5 && F.DEV_PART_EAST.within w 0 5 && (!s.onePartition || F.DEV_PART_EAST.get w == 0)
  else if a == A.DEV_DEVID then !badDev (F.DEV_DEVID_DEVICE_ID.get w)
  else if a == A.ME_FMT then F.ME_FMT_PREFILL_FMT.within w 0 3 && F.ME_FMT_HEAD_FMT.within w 0 3 && F.ME_FMT_GUARD_EXP.within w 1 126
  else if a == A.TIER_WMARK then F.TIER_WMARK_LOW.get w < F.TIER_WMARK_HIGH.get w
  else if a == A.TIER_RIPEN_CFG then
    F.TIER_RIPEN_CFG_RIPEN_BW.within w 1 800 && F.TIER_RIPEN_CFG_COMMIT_PERIOD.within w 10 60000 && F.TIER_RIPEN_CFG_GET_TIMEOUT.within w 100 65535
  else if a == A.TIER_POOL_CFG then F.TIER_POOL_CFG_SPREAD.within w 1 8
  else if a == A.ME_HEAD_CFG then F.ME_HEAD_CFG_HEAD_NBU_MAX.within w 0 512
  else if a == A.ME_RATIO_CFG then F.ME_RATIO_CFG_MOVE_MAX.within w 1 128 && F.ME_RATIO_CFG_HYST.within w 0 64
  else if A.ME_POOL ≤ a && a < A.ME_POOL + 24 then s.poolsOk ((a - A.ME_POOL) / 8) w
  else if a == A.ME_XCHG_CFG then F.ME_XCHG_CFG_TIMEOUT_MS.within w 1 65535 && F.ME_XCHG_CFG_PREFILL_CHUNK.within w 64 16320
  else if a == A.TEXT_CTX_CFG then F.TEXT_CTX_CFG_CTX_TIMEOUT.within w 1 65535 && F.TEXT_CTX_CFG_FORCE_WINDOW.within w 1024 16384
  else if a == A.SCHED_CTRL then F.SCHED_CTRL_SAMPLE_US.within w 1 65535
  else if a == A.SCHED_BATCH then
    F.SCHED_BATCH_MAX_BATCH.within w 1 512 && F.SCHED_BATCH_DECODE_OPEN.within w 1 63 && F.SCHED_BATCH_PREFILL_OPEN.within w 1 63
      && F.SCHED_BATCH_DECODE_OPEN.get w + F.SCHED_BATCH_PREFILL_OPEN.get w ≤ 64
  else if A.SCHED_CLASS_WT ≤ a && a < A.SCHED_CLASS_WT + 64 then (List.range 6).all (fun c => bitsOf w.toNat (8 * c + 7) (8 * c) != 0)
  else if a == A.SCHED_PEER_WT then F.SCHED_PEER_WT_WEIGHT.within w 1 255
  else if a == A.VEC_CFG then F.VEC_CFG_SHARD_TIMEOUT.within w 1 65535 && F.VEC_CFG_COMPACT_PCT.within w 0 90
  else if a == A.NET_PRAOL then F.NET_PRAOL_SPORT_BASE.get w % 64 == 0
  else if a == A.NET_REL then
    F.NET_REL_RETX_MAX.within w 1 255 && F.NET_REL_REORDER_THRESH.within w 1 64 && F.NET_REL_ACK_DELAY.within w 1 255
  else if a == A.NET_CREDIT then F.NET_CREDIT_CREDIT_MAX.within w 4 32768
  else if a == A.NET_PFC then F.NET_PFC_PFC_XON.get w < F.NET_PFC_PFC_XOFF.get w
  else if a == A.NET_PEER_CFG then F.NET_PEER_CFG_KIND.within w 0 4
  else if A.NET_PORT ≤ a && a < A.NET_PORT + 64 then (F.NET_PORT_MTU.at 0).within w 1500 9000
  else if a == A.CHK_CTRL then F.CHK_CTRL_SCAN_BW.within w 1 256
  else if a == A.ERR_CE_CFG then F.ERR_CE_CFG_WINDOW_MS.within w 1 65535
  else if a == A.CXL_THROTTLE then F.CXL_THROTTLE_THROTTLE_C.within w 95 110 && F.CXL_THROTTLE_HBM_THROTTLE_C.within w 85 95
  else if a == A.CXL_POWER then F.CXL_POWER_PWR_CAP.within w 600 s.designPower
  else true

/-- Is a write ignored and counted for the state its object is in: a pair's registers but QP_COAL while it is not DISABLED (R52), a
ring's base and mirror while it is enabled (R228), a peer context's configuration and address while it is not CLOSED (R300)? -/
def State.writeBarred (s : State) (a : Nat) : Bool :=
  if A.QP_SQ_BASE ≤ a && a < A.QP_SQ_BASE + 0x4000 then a % 0x40 < 0x28 && (s.qp ((a - A.QP_SQ_BASE) / 0x40)).state != 0
  else if a == A.SCHED_RING_BASE || a == A.SCHED_RING_MIRROR then (s.ring s.selRing).state != 0
  else if a == A.NET_PEER_CFG || a == A.NET_PEER_ADDR_LO || a == A.NET_PEER_ADDR_HI then (s.peer (s.fld F.NET_PEER_SEL_CTX)).state != 0
  else false

/-! ## Effects beside the register file -/

/-- The selected peer context is provisioned: its record takes what was written, and the provisioning its number (R281, R465). -/
def State.provision (s : State) (f : Peer → Peer) : State :=
  { s.updPeer (s.fld F.NET_PEER_SEL_CTX) (fun p => { f p with prov := s.provCtr + 1 }) with provCtr := s.provCtr + 1 }

/-- A write of NET_PEER_CFG (Table 11.13). -/
def State.writePeerCfg (s : State) (w : Word) : State :=
  s.provision fun v =>
    { v with valid := F.NET_PEER_CFG_VALID.get w == 1, kind := F.NET_PEER_CFG_KIND.get w,
             trusted := F.NET_PEER_CFG_TRUSTED.get w == 1, ipv4 := F.NET_PEER_CFG_IPV4.get w == 1,
             tenant := F.NET_PEER_CFG_TENANT.get w, port := F.NET_PEER_CFG_UDP_PORT.get w }

/-- Store the word an accepted write leaves. -/
def State.storeReg (s : State) (a : Nat) (w : Word) : State :=
  let v := w.toNat
  if a == A.SCHED_PEER_WT then s.updPeer (s.fld F.SCHED_PEER_SEL_PEER) (fun p => { p with weight := v % 256 })
  else if a == A.SCHED_RING_BASE then s.setRing s.selRing { s.ring s.selRing with base := v }
  else if a == A.SCHED_RING_MIRROR then s.setRing s.selRing { s.ring s.selRing with mirror := v }
  else if a == A.NET_PEER_CFG then s.writePeerCfg w
  else if a == A.NET_PEER_ADDR_LO then s.provision (fun p => { p with addrLo := v })
  else if a == A.NET_PEER_ADDR_HI then s.provision (fun p => { p with addrHi := v })
  else if a == A.CHK_CTRL then (s.setReg a w).startScan
  else if A.ME_POOL ≤ a && a < A.ME_POOL + 24 && !s.flag F.ME_CTRL_RATIO_EN then { s.setReg a w with targetSet := true }
  else s.setReg a w

/-- What the WO bits of a register do (Table 0.8): MAX_CLR, HWM_CLR, HIST_CLR and CLR set with other fields. -/
def State.writeOnly (s : State) (a : Nat) (v : Nat) : State :=
  if a == A.NBU_CTRL then (if bitOf v 0 then s.setReg A.NBU_MAX 0 else s)
  else if a == A.ME_CTRL then (if bitOf v 2 then s.setFld F.ME_XCHG_MAX_NS 0 else s)
  else if a == A.SCHED_CTRL then
    let s := if bitOf v 1 then s.clearHists else s
    if bitOf v 2 then [0, 1, 2].foldl (fun s q => s.setReg (A.SCHED_HWM + 8 * q) 0) s else s
  else if a == A.SCHED_HIST_SEL && bitOf v 16 then s.clearHist (bitsOf v 15 0)
  else s

/-- Bits of a register a source may write beside RW: the Rind writes the RO/RIND ones (R16). -/
def rowBits (r : RegRow) (rind : Bool) : Nat := if rind then r.rw ||| r.prot else r.rw

/-- Does KIND of NET_PEER_CFG fall under RO/RIND in a write: it would become, or stop being, YD or POOL (Table 11.13)? -/
def State.kindHeld (s : State) (a : Nat) (w : Word) (rind : Bool) : Bool :=
  let k := (s.peer (s.fld F.NET_PEER_SEL_CTX)).kind
  let n := F.NET_PEER_CFG_KIND.get w
  a == A.NET_PEER_CFG && !rind && n ≤ 4 && n != k && (n == 2 || n == 3 || k == 2 || k == 3)

/-- A full write of a register (R16, R17): ignored in full when a field would take a value it may not hold, counted once when it is, or
when it would change a protected field. -/
def State.writeReg (s : State) (a : Nat) (value : Word) (rind : Bool) : State :=
  match findReg a with
  | none => s
  | some r =>
    let cur := s.readReg a
    let m := BitVec.ofNat 64 (rowBits r rind)
    let w := (cur &&& ~~~m) ||| (value &&& m)
    let w := if A.ME_POOL ≤ a && a < A.ME_POOL + 24 && s.flag F.ME_CTRL_RATIO_EN then
        (F.ME_POOL_TARGET.at 0).put w ((F.ME_POOL_TARGET.at 0).get cur) else w
    let held := s.kindHeld a w rind
    let w := if held then F.NET_PEER_CFG_KIND.put w (F.NET_PEER_CFG_KIND.get cur) else w
    if r.rw == 0 && !(rind && r.prot != 0) then
      (if (cur ^^^ value) &&& BitVec.ofNat 64 r.prot = 0 then s else s.regAccErr)
    else if s.writeBarred a || !s.wordOk a w then s.regAccErr
    else
      let prot := !rind && (cur ^^^ value) &&& BitVec.ofNat 64 r.prot != 0
      ((if held || prot then s.regAccErr else s).storeReg a w).writeOnly a value.toNat

/-- A write to an NBU's command area (R36, R124) by a source (R37): of these the desk cores' alone is accepted, and the host's is counted
(R17); parameters and groups take the word. -/
def State.writeNbu (s : State) (a : Nat) (value : Word) (src : Nat) : State :=
  let n := (a - 0x1000000) / 4096
  let o := a % 4096
  if !s.nbuOn n then s
  else if src == 0 then s.regAccErr
  else if src != 1 then s
  else if o < 0xE8 then s.nbuWrite n (o / 8) value.toNat
  else if o == 0x108 then s.updNbu n (fun v => { v with groups := value.toNat % 2 ^ 32 })
  else s

/-- A write to BAR4 (Table 17.2, R441): a word of the MSI-X table; the pending bits are read-only. -/
def State.writeBar4 (s : State) (a size : Nat) (value : Word) : State :=
  let k := a / 16
  let e := (tGet s.host.vecs k).getD { addr := 0, data := 0, masked := true }
  let put := fun (e : MsixVec) (o v : Nat) =>
    if o == 0 then { e with addr := e.addr / 2 ^ 32 * 2 ^ 32 + v }
    else if o == 4 then { e with addr := e.addr % 2 ^ 32 + v * 2 ^ 32 }
    else if o == 8 then { e with data := v }
    else { e with masked := v % 2 == 1 }
  if k ≥ 2048 then s
  else
    let e := put e (a % 16) (value.toNat % 2 ^ 32)
    s.setVec k (if size == 8 then put e (a % 16 + 4) (value.toNat / 2 ^ 32) else e)

/-- Registers whose writes have rows of their own in the table. -/
def ownRow (a : Nat) : Bool :=
  a == A.SESS_INSPECT_IDX || (A.TIER_QUOTA ≤ a && a < A.TIER_QUOTA + 32) || a == A.TIER_POOL_DATA || a == A.TEXT_SLOT_SEL
    || a == A.SCHED_TEN_BUDGET || a == A.SCHED_TEN_CTRL || a == A.SCHED_TEN_POLICE || a == A.SCHED_SHP_CFG || a == A.SCHED_RING_CFG
    || a == A.SCHED_RING_CI || a == A.VEC_COL_SEL || a == A.ERR_LOG_SEL || a == A.ERR_STICKY || a == A.CKPT_TRIG || a == A.NBU_BCAST_DATA
    || (A.QP_SQ_BASE ≤ a && a < A.QP_SQ_BASE + 0x4000 && a % 0x40 == 0x28)
    || (A.QP_SQ_TAIL ≤ a && a < A.QP_SQ_TAIL + 0x1000)

/-- An aligned access of 4 or 8 bytes within BAR0 (R15). -/
def accessOk (addr size : Nat) : Bool := (size == 4 || size == 8) && addr % size == 0 && addr + size ≤ 0x4000000

/-- The word a write of one half or of the whole register asks for (R15): the other half as it reads. -/
def State.mergedWord (s : State) (addr size : Nat) (value : Word) : Word :=
  let cur := (s.readReg (addr / 8 * 8)).toNat
  let v := value.toNat % 2 ^ 32
  if size == 8 then value
  else if addr % 8 == 0 then BitVec.ofNat 64 (cur / 2 ^ 32 * 2 ^ 32 + v)
  else BitVec.ofNat 64 (cur % 2 ^ 32 + v * 2 ^ 32)

/-- A write of a register whose writes have rows of their own does what the row does, with the word the access leaves (R15). -/
def State.ownWrite (s : State) (a : Nat) (w : Word) (src : Nat) : Host.Outcome State Fault Refusal :=
  if A.QP_SQ_TAIL ≤ a && a < A.QP_SQ_TAIL + 0x1000 then
    let q := (a - A.QP_SQ_TAIL) / 16
    if a % 16 == 0 then execQP_SQ_TAIL q w s else execQP_RQ_HEAD q w s
  else if A.QP_SQ_BASE ≤ a && a < A.QP_SQ_BASE + 0x4000 then
    let q := (a - A.QP_SQ_BASE) / 0x40
    if F.QP_CFG_ENABLE.get w == 1 then execQP_ENABLE q w s else execQP_DISABLE q w s
  else if a == A.SESS_INSPECT_IDX then execSESS_INSPECT_IDX w s
  else if A.TIER_QUOTA ≤ a && a < A.TIER_QUOTA + 32 then execTIER_QUOTA_WRITE ((a - A.TIER_QUOTA) / 8 + 1) w s
  else if a == A.TIER_POOL_DATA then (if bitOf w.toNat 63 then execPOOL_ENTRY_ADD w s else execPOOL_ENTRY_RETIRE w s)
  else if a == A.TEXT_SLOT_SEL then execTEXT_SLOT_SEL w s
  else if a == A.SCHED_TEN_BUDGET then execSCHED_TEN_BUDGET_WRITE w s
  else if a == A.SCHED_TEN_CTRL then execLEVEL_SET w s
  else if a == A.SCHED_TEN_POLICE then execSCHED_TEN_POLICE_WRITE w s
  else if a == A.SCHED_SHP_CFG then execSCHED_SHP_CFG_WRITE w s
  else if a == A.SCHED_RING_CFG then (if bitOf w.toNat 63 then execRING_ENABLE w s else execRING_DISABLE w s)
  else if a == A.SCHED_RING_CI then execSCHED_RING_CI w s
  else if a == A.VEC_COL_SEL then execVEC_COL_SEL w s
  else if a == A.ERR_LOG_SEL then execERR_LOG_SEL w s
  else if a == A.ERR_STICKY then execERR_STICKY_CLR w s
  else if a == A.CKPT_TRIG then execCKPT_TRIG_WRITE w s
  else execNBU_BCAST_DATA (src == 0) w s

/-- REGISTER_WRITE (R15-R17, R37): a write of `size` bytes at an offset of a BAR by a source, 0 the host, 1 the desk cores, 2 the
Rind, whose writes wait while its cores are reset (R368). -/
def execREGISTER_WRITE (src bar addr size : Nat) (value : Word) (s : State) : Host.Outcome State Fault Refusal :=
  if src == 2 && s.tick < s.sec.rindUntil then .next (s.rindLater (.write bar addr size value))
  else if bar == 4 then .next (if accessOk addr size && addr < 0x8000 && src == 0 then s.writeBar4 addr size value else s)
  else if bar != 0 then .next s
  else if !accessOk addr size then .next (if src == 0 then s.emit (.hostCompletion 1 0) else s)
  else
    let a := addr / 8 * 8
    let w := s.mergedWord addr size value
    if ownRow a then s.ownWrite a w src
    else if 0x1000000 ≤ a && a < 0x2800000 then .next (s.writeNbu a w src)
    else if a == A.NBU_BCAST_SEL && src == 0 then .next s.regAccErr
    else .next (s.writeReg a w (src == 2))

/-- Nothing else is waiting: the Rind issues the next of what it put off while its cores were reset (R368), or a tick of time passes. -/
def State.passTime (s : State) : Host.Outcome State Fault Refusal :=
  if s.tick < s.sec.rindUntil then .next s.tickOver
  else match s.sec.rindWaiting with
    | [] => .next s.tickOver
    | .slip o :: rest => execRIND_SLIP o { s with sec := { s.sec with rindWaiting := rest } }
    | .write bar addr size value :: rest => execREGISTER_WRITE 2 bar addr size value { s with sec := { s.sec with rindWaiting := rest } }

end Sys2Proof.Machine
end

