-- ==== Sys2Proof/Machine/Dispatch.lean ====
section
/-!
DEFINITION. `exec`: one arm per command, each a direct call of its meaning.
-/

namespace Sys2Proof.Machine

/-- The effect of a command on everything but the queue of waiting commands. -/
def exec (i : Instr) (s : State) : Host.Outcome State Fault Refusal :=
  match i with
  | .NOP x => Sys2Proof.Machine.execNOP x s
  | .HELLO x => Sys2Proof.Machine.execHELLO x s
  | .IDENTIFY x => Sys2Proof.Machine.execIDENTIFY x s
  | .ECHO x => Sys2Proof.Machine.execECHO x s
  | .SESS_ACCESSION x => Sys2Proof.Machine.execSESS_ACCESSION x s
  | .SESS_CLOSE x => Sys2Proof.Machine.execSESS_CLOSE x s
  | .SESS_QUERY x => Sys2Proof.Machine.execSESS_QUERY x s
  | .SESS_FORK x => Sys2Proof.Machine.execSESS_FORK x s
  | .SESS_GENERATE x => Sys2Proof.Machine.execSESS_GENERATE x s
  | .SESS_CANCEL x => Sys2Proof.Machine.execSESS_CANCEL x s
  | .SESS_SET_MASK x => Sys2Proof.Machine.execSESS_SET_MASK x s
  | .SESS_SET_TTL x => Sys2Proof.Machine.execSESS_SET_TTL x s
  | .SESS_PARK x => Sys2Proof.Machine.execSESS_PARK x s
  | .SESS_REVIVE x => Sys2Proof.Machine.execSESS_REVIVE x s
  | .SESS_ATTACH_RING x => Sys2Proof.Machine.execSESS_ATTACH_RING x s
  | .SESS_MOVE_OFFER x => Sys2Proof.Machine.execSESS_MOVE_OFFER x s
  | .SESS_MOVE_COMMIT x => Sys2Proof.Machine.execSESS_MOVE_COMMIT x s
  | .MOVE_OFFER_REPLY acc status => Sys2Proof.Machine.execMOVE_OFFER_REPLY acc status s
  | .MOVE_COMMIT_REPLY acc status => Sys2Proof.Machine.execMOVE_COMMIT_REPLY acc status s
  | .MOVE_RESERVATION_LAPSE acc => Sys2Proof.Machine.execMOVE_RESERVATION_LAPSE acc s
  | .TEXT_APPEND x => Sys2Proof.Machine.execTEXT_APPEND x s
  | .TEXT_APPEND_TOKENS x => Sys2Proof.Machine.execTEXT_APPEND_TOKENS x s
  | .TEXT_TOKENISE x => Sys2Proof.Machine.execTEXT_TOKENISE x s
  | .TEXT_DETOKENISE x => Sys2Proof.Machine.execTEXT_DETOKENISE x s
  | .TEXT_TRANSCRIPT_READ x => Sys2Proof.Machine.execTEXT_TRANSCRIPT_READ x s
  | .SAMP_SET x => Sys2Proof.Machine.execSAMP_SET x s
  | .SAMP_SET_STOPS x => Sys2Proof.Machine.execSAMP_SET_STOPS x s
  | .GRAM_ATTACH x => Sys2Proof.Machine.execGRAM_ATTACH x s
  | .GRAM_DETACH x => Sys2Proof.Machine.execGRAM_DETACH x s
  | .TIER_SET_QUOTA x => Sys2Proof.Machine.execTIER_SET_QUOTA x s
  | .TIER_QUERY x => Sys2Proof.Machine.execTIER_QUERY x s
  | .TIER_LEND_HOST x => Sys2Proof.Machine.execTIER_LEND_HOST x s
  | .TIER_RECLAIM_HOST x => Sys2Proof.Machine.execTIER_RECLAIM_HOST x s
  | .HOST_RECLAIM_TIMEOUT region => Sys2Proof.Machine.execHOST_RECLAIM_TIMEOUT region s
  | .TIER_SHELF_PUT x => Sys2Proof.Machine.execTIER_SHELF_PUT x s
  | .TIER_SHELF_GET x => Sys2Proof.Machine.execTIER_SHELF_GET x s
  | .TIER_SHELF_DROP x => Sys2Proof.Machine.execTIER_SHELF_DROP x s
  | .VEC_CREATE x => Sys2Proof.Machine.execVEC_CREATE x s
  | .VEC_DROP x => Sys2Proof.Machine.execVEC_DROP x s
  | .VEC_INSERT x => Sys2Proof.Machine.execVEC_INSERT x s
  | .VEC_DELETE x => Sys2Proof.Machine.execVEC_DELETE x s
  | .VEC_SEARCH x => Sys2Proof.Machine.execVEC_SEARCH x s
  | .VEC_COMPACT x => Sys2Proof.Machine.execVEC_COMPACT x s
  | .VEC_SET_CENTROIDS x => Sys2Proof.Machine.execVEC_SET_CENTROIDS x s
  | .VEC_SHARD_SEARCH x => Sys2Proof.Machine.execVEC_SHARD_SEARCH x s
  | .SHARD_REPLY req shard r => Sys2Proof.Machine.execSHARD_REPLY req shard r s
  | .SHARD_TIMEOUT req => Sys2Proof.Machine.execSHARD_TIMEOUT req s
  | .BACKGROUND_COMPACT id list => Sys2Proof.Machine.execBACKGROUND_COMPACT id list s
  | .CAT_LOOKUP x => Sys2Proof.Machine.execCAT_LOOKUP x s
  | .CAT_MAP_FETCH x => Sys2Proof.Machine.execCAT_MAP_FETCH x s
  | .CAT_PROPOSE_CLAIM x => Sys2Proof.Machine.execCAT_PROPOSE_CLAIM x s
  | .CAT_PROPOSE_ACCEPT x => Sys2Proof.Machine.execCAT_PROPOSE_ACCEPT x s
  | .CAT_VOTE x => Sys2Proof.Machine.execCAT_VOTE x s
  | .CAT_COMMIT x => Sys2Proof.Machine.execCAT_COMMIT x s
  | .CAT_JOIN x => Sys2Proof.Machine.execCAT_JOIN x s
  | .CAT_LEAVE x => Sys2Proof.Machine.execCAT_LEAVE x s
  | .CAT_LEAVE_FINAL x => Sys2Proof.Machine.execCAT_LEAVE_FINAL x s
  | .CAT_LEAVE_SUSPECT x => Sys2Proof.Machine.execCAT_LEAVE_SUSPECT x s
  | .CAT_LOCATE_QUERY x => Sys2Proof.Machine.execCAT_LOCATE_QUERY x s
  | .CAT_LOCATE_REGISTER x => Sys2Proof.Machine.execCAT_LOCATE_REGISTER x s
  | .CAT_LOCATE_REMOVE x => Sys2Proof.Machine.execCAT_LOCATE_REMOVE x s
  | .CAT_LOCATE_TRANSFER x => Sys2Proof.Machine.execCAT_LOCATE_TRANSFER x s
  | .VOTE_TIMEOUT => Sys2Proof.Machine.execVOTE_TIMEOUT s
  | .LOCATE_TIMEOUT acc => Sys2Proof.Machine.execLOCATE_TIMEOUT acc s
  | .FORWARDED_REPLY dev tag r => Sys2Proof.Machine.execFORWARDED_REPLY dev tag r s
  | .FORWARD_RECORD_EXPIRY acc => Sys2Proof.Machine.execFORWARD_RECORD_EXPIRY acc s
  | .REGISTRAR_KEEPALIVE => Sys2Proof.Machine.execREGISTRAR_KEEPALIVE s
  | .FENCE => Sys2Proof.Machine.execFENCE s
  | .FENCE_END => Sys2Proof.Machine.execFENCE_END s
  | .REMOVE_CONFIRM dev => Sys2Proof.Machine.execREMOVE_CONFIRM dev s
  | .DRAIN_TIME_EXPIRY => Sys2Proof.Machine.execDRAIN_TIME_EXPIRY s
  | .REHOME_DELAY_EXPIRY dev => Sys2Proof.Machine.execREHOME_DELAY_EXPIRY dev s
  | .CKPT_TAKE x => Sys2Proof.Machine.execCKPT_TAKE x s
  | .CKPT_QUERY x => Sys2Proof.Machine.execCKPT_QUERY x s
  | .CKPT_RESTORE x => Sys2Proof.Machine.execCKPT_RESTORE x s
  | .CKPT_SET_TRIGGERS x => Sys2Proof.Machine.execCKPT_SET_TRIGGERS x s
  | .CKPT_MIRROR_PUT x => Sys2Proof.Machine.execCKPT_MIRROR_PUT x s
  | .CKPT_MIRROR_GET x => Sys2Proof.Machine.execCKPT_MIRROR_GET x s
  | .CKPT_TIMER_EXPIRY => Sys2Proof.Machine.execCKPT_TIMER_EXPIRY s
  | .CKPT_STEP_COUNT => Sys2Proof.Machine.execCKPT_STEP_COUNT s
  | .SEQ_LIMIT_NEAR => Sys2Proof.Machine.execSEQ_LIMIT_NEAR s
  | .DEFERRED_CKPT_START => Sys2Proof.Machine.execDEFERRED_CKPT_START s
  | .BARRIER_OVERRUN => Sys2Proof.Machine.execBARRIER_OVERRUN s
  | .BARRIER_RETRY => Sys2Proof.Machine.execBARRIER_RETRY s
  | .PRESS_WRITE_DONE blocks => Sys2Proof.Machine.execPRESS_WRITE_DONE blocks s
  | .PRESS_WRITE_ERROR => Sys2Proof.Machine.execPRESS_WRITE_ERROR s
  | .MIRROR_ACK dev status => Sys2Proof.Machine.execMIRROR_ACK dev status s
  | .RESTORE_MAP_TIMEOUT => Sys2Proof.Machine.execRESTORE_MAP_TIMEOUT s
  | .CHK_CRC x => Sys2Proof.Machine.execCHK_CRC x s
  | .CHK_SCAN x => Sys2Proof.Machine.execCHK_SCAN x s
  | .SCAN_COMPLETE => Sys2Proof.Machine.execSCAN_COMPLETE s
  | .CHK_XTS_ENC x => Sys2Proof.Machine.execCHK_XTS_ENC x s
  | .CHK_XTS_DEC x => Sys2Proof.Machine.execCHK_XTS_DEC x s
  | .SCHED_SET_TENANT x => Sys2Proof.Machine.execSCHED_SET_TENANT x s
  | .SCHED_QUERY_TENANT x => Sys2Proof.Machine.execSCHED_QUERY_TENANT x s
  | .SCHED_SET_SHAPER x => Sys2Proof.Machine.execSCHED_SET_SHAPER x s
  | .SCHED_SET_POLICER x => Sys2Proof.Machine.execSCHED_SET_POLICER x s
  | .RING_CONSUMED x => Sys2Proof.Machine.execRING_CONSUMED x s
  | .RING_PUSH_ERROR_REPLY ring first status => Sys2Proof.Machine.execRING_PUSH_ERROR_REPLY ring first status s
  | .RING_PUSH_RETRY ring first => Sys2Proof.Machine.execRING_PUSH_RETRY ring first s
  | .RING_IRQ_GAP_END vec => Sys2Proof.Machine.execRING_IRQ_GAP_END vec s
  | .HOST_RING_WRITE_ERROR ring => Sys2Proof.Machine.execHOST_RING_WRITE_ERROR ring s
  | .XCHG_LAYER x => Sys2Proof.Machine.execXCHG_LAYER x s
  | .XCHG_FINAL x => Sys2Proof.Machine.execXCHG_FINAL x s
  | .XCHG_ERROR_REPLY step msg status => Sys2Proof.Machine.execXCHG_ERROR_REPLY step msg status s
  | .XCHG_RETRY step msg => Sys2Proof.Machine.execXCHG_RETRY step msg s
  | .XCHG_TIMEOUT step => Sys2Proof.Machine.execXCHG_TIMEOUT step s
  | .BATCH_FORM => Sys2Proof.Machine.execBATCH_FORM s
  | .PREFILL_CHUNK_FORM => Sys2Proof.Machine.execPREFILL_CHUNK_FORM s
  | .PREEMPT_COPY_DONE acc => Sys2Proof.Machine.execPREEMPT_COPY_DONE acc s
  | .READMIT => Sys2Proof.Machine.execREADMIT s
  | .SEC_PRINCIPAL_ENROL x => Sys2Proof.Machine.execSEC_PRINCIPAL_ENROL x s
  | .SEC_PRINCIPAL_REVOKE x => Sys2Proof.Machine.execSEC_PRINCIPAL_REVOKE x s
  | .SEC_TENANT_STATUS x => Sys2Proof.Machine.execSEC_TENANT_STATUS x s
  | .SEC_TENANT_ERASE x => Sys2Proof.Machine.execSEC_TENANT_ERASE x s
  | .SEC_CONF_HOST x => Sys2Proof.Machine.execSEC_CONF_HOST x s
  | .SEC_DEBUG_UNLOCK x => Sys2Proof.Machine.execSEC_DEBUG_UNLOCK x s
  | .SEC_FUSE_PROGRAM x => Sys2Proof.Machine.execSEC_FUSE_PROGRAM x s
  | .MAINT_LOCK x => Sys2Proof.Machine.execMAINT_LOCK x s
  | .MAINT_UNLOCK x => Sys2Proof.Machine.execMAINT_UNLOCK x s
  | .BUNDLE_LOAD_BEGIN x => Sys2Proof.Machine.execBUNDLE_LOAD_BEGIN x s
  | .BUNDLE_LOAD_DATA x => Sys2Proof.Machine.execBUNDLE_LOAD_DATA x s
  | .BUNDLE_LOAD_END x => Sys2Proof.Machine.execBUNDLE_LOAD_END x s
  | .BUNDLE_UNLOAD x => Sys2Proof.Machine.execBUNDLE_UNLOAD x s
  | .MAINT_FW_UPDATE x => Sys2Proof.Machine.execMAINT_FW_UPDATE x s
  | .MAINT_FW_ACTIVATE x => Sys2Proof.Machine.execMAINT_FW_ACTIVATE x s
  | .MAINT_FW_ROLLBACK x => Sys2Proof.Machine.execMAINT_FW_ROLLBACK x s
  | .MAINT_PATROL x => Sys2Proof.Machine.execMAINT_PATROL x s
  | .PATROL_COMPLETE lock corrected bad => Sys2Proof.Machine.execPATROL_COMPLETE lock corrected bad s
  | .BACKGROUND_PATROL scope index => Sys2Proof.Machine.execBACKGROUND_PATROL scope index s
  | .MAINT_RETRAIN x => Sys2Proof.Machine.execMAINT_RETRAIN x s
  | .RETRAIN_COMPLETE lock ok => Sys2Proof.Machine.execRETRAIN_COMPLETE lock ok s
  | .MAINT_ROW_REPAIR x => Sys2Proof.Machine.execMAINT_ROW_REPAIR x s
  | .MAINT_RESET_UNIT x => Sys2Proof.Machine.execMAINT_RESET_UNIT x s
  | .MAINT_RESET_CLUSTER x => Sys2Proof.Machine.execMAINT_RESET_CLUSTER x s
  | .MAINT_RESET_PARTITION x => Sys2Proof.Machine.execMAINT_RESET_PARTITION x s
  | .MAINT_RESET_DEVICE x => Sys2Proof.Machine.execMAINT_RESET_DEVICE x s
  | .MAINT_UNIT_DISABLE x => Sys2Proof.Machine.execMAINT_UNIT_DISABLE x s
  | .DIAG_INJECT x => Sys2Proof.Machine.execDIAG_INJECT x s
  | .DIAG_TRACE_STOP x => Sys2Proof.Machine.execDIAG_TRACE_STOP x s
  | .DIAG_TRACE_START x => Sys2Proof.Machine.execDIAG_TRACE_START x s
  | .DIAG_TRACE_READ x => Sys2Proof.Machine.execDIAG_TRACE_READ x s
  | .KEY_DELIVER session tenant flags key kcv trust => Sys2Proof.Machine.execKEY_DELIVER session tenant flags key kcv trust s
  | .KEY_QUERY session tenant => Sys2Proof.Machine.execKEY_QUERY session tenant s
  | .BUNDLE_KEY session profile key => Sys2Proof.Machine.execBUNDLE_KEY session profile key s
  | .BOUNCE_KEYS session => Sys2Proof.Machine.execBOUNCE_KEYS session s
  | .SPDM_REQUEST transport req => Sys2Proof.Machine.execSPDM_REQUEST transport req s
  | .QP_SQ_TAIL q value => Sys2Proof.Machine.execQP_SQ_TAIL q value s
  | .SQ_FETCH_DONE q entries ok => Sys2Proof.Machine.execSQ_FETCH_DONE q entries ok s
  | .QP_RQ_HEAD q value => Sys2Proof.Machine.execQP_RQ_HEAD q value s
  | .QP_ENABLE q value => Sys2Proof.Machine.execQP_ENABLE q value s
  | .QP_DISABLE q value => Sys2Proof.Machine.execQP_DISABLE q value s
  | .QP_DRAIN_DONE q => Sys2Proof.Machine.execQP_DRAIN_DONE q s
  | .HOST_ACCESS_ERROR q tag => Sys2Proof.Machine.execHOST_ACCESS_ERROR q tag s
  | .COAL_TIMER q => Sys2Proof.Machine.execCOAL_TIMER q s
  | .MGMT_SLIP_ARRIVAL o => Sys2Proof.Machine.execMGMT_SLIP_ARRIVAL o s
  | .MGMT_CONNECT c cert => Sys2Proof.Machine.execMGMT_CONNECT c cert s
  | .MGMT_DISCONNECT c => Sys2Proof.Machine.execMGMT_DISCONNECT c s
  | .RIND_SLIP o => Sys2Proof.Machine.execRIND_SLIP o s
  | .EPOCH_HOLD_RESOLVE => Sys2Proof.Machine.execEPOCH_HOLD_RESOLVE s
  | .PRAOL_DATA sub ce auth k => Sys2Proof.Machine.execPRAOL_DATA sub ce auth k s
  | .PRAOL_ACK peer sub auth cum limit sack => Sys2Proof.Machine.execPRAOL_ACK peer sub auth cum limit sack s
  | .PRAOL_CNP peer sub auth => Sys2Proof.Machine.execPRAOL_CNP peer sub auth s
  | .PRAOL_OPEN sub ipv4 lo hi port h => Sys2Proof.Machine.execPRAOL_OPEN sub ipv4 lo hi port h s
  | .PRAOL_OPEN_ACK peer sub h => Sys2Proof.Machine.execPRAOL_OPEN_ACK peer sub h s
  | .PRAOL_CLOSE peer sub auth reason => Sys2Proof.Machine.execPRAOL_CLOSE peer sub auth reason s
  | .PRAOL_PROBE peer sub auth => Sys2Proof.Machine.execPRAOL_PROBE peer sub auth s
  | .PRAOL_PROBE_ACK peer sub auth => Sys2Proof.Machine.execPRAOL_PROBE_ACK peer sub auth s
  | .PRAOL_DISCOVER sub => Sys2Proof.Machine.execPRAOL_DISCOVER sub s
  | .PRAOL_DISCOVER_ACK sub body => Sys2Proof.Machine.execPRAOL_DISCOVER_ACK sub body s
  | .RTO_EXPIRY peer psn => Sys2Proof.Machine.execRTO_EXPIRY peer psn s
  | .ACK_DELAY_EXPIRY peer => Sys2Proof.Machine.execACK_DELAY_EXPIRY peer s
  | .CC_PERIOD peer => Sys2Proof.Machine.execCC_PERIOD peer s
  | .KEEPALIVE_EXPIRY peer => Sys2Proof.Machine.execKEEPALIVE_EXPIRY peer s
  | .DEAD_TIME_EXPIRY peer => Sys2Proof.Machine.execDEAD_TIME_EXPIRY peer s
  | .OPENING_TIMEOUT peer => Sys2Proof.Machine.execOPENING_TIMEOUT peer s
  | .DRAINING_END peer => Sys2Proof.Machine.execDRAINING_END peer s
  | .PFC_FRAME sub prio quanta => Sys2Proof.Machine.execPFC_FRAME sub prio quanta s
  | .PFC_WATCHDOG sub cls => Sys2Proof.Machine.execPFC_WATCHDOG sub cls s
  | .PAUSE_FRAME sub => Sys2Proof.Machine.execPAUSE_FRAME sub s
  | .ETH_CONTROL_FRAME sub k => Sys2Proof.Machine.execETH_CONTROL_FRAME sub k s
  | .EGRESS_FRAME port => Sys2Proof.Machine.execEGRESS_FRAME port s
  | .ETH_LINK_CHANGE sub up => Sys2Proof.Machine.execETH_LINK_CHANGE sub up s
  | .NBU_LAUNCH n params work closed input expect value => Sys2Proof.Machine.execNBU_LAUNCH n params work closed input expect value s
  | .NBU_PROGRAM_START n => Sys2Proof.Machine.execNBU_PROGRAM_START n s
  | .ATTN n => Sys2Proof.Machine.execATTN n s
  | .APPEND n => Sys2Proof.Machine.execAPPEND n s
  | .AGE n => Sys2Proof.Machine.execAGE n s
  | .DIST_SCAN n => Sys2Proof.Machine.execDIST_SCAN n s
  | .HEAD n => Sys2Proof.Machine.execHEAD n s
  | .COPY n => Sys2Proof.Machine.execCOPY n s
  | .NBU_COMPLETION n => Sys2Proof.Machine.execNBU_COMPLETION n s
  | .MERGE_RECORD stack => Sys2Proof.Machine.execMERGE_RECORD stack s
  | .FORCED_YIELD n => Sys2Proof.Machine.execFORCED_YIELD n s
  | .ORDINARY_ACCESS addr data len => Sys2Proof.Machine.execORDINARY_ACCESS addr data len s
  | .REFRESH_DUE n bank => Sys2Proof.Machine.execREFRESH_DUE n bank s
  | .NBU_PARITY_ERROR n place tries ca => Sys2Proof.Machine.execNBU_PARITY_ERROR n place tries ca s
  | .NBU_UNIT_RESET n kat => Sys2Proof.Machine.execNBU_UNIT_RESET n kat s
  | .NBU_NOP n => Sys2Proof.Machine.execNBU_NOP n s
  | .YIELD n => Sys2Proof.Machine.execYIELD n s
  | .HALT n => Sys2Proof.Machine.execHALT n s
  | .LOOP n => Sys2Proof.Machine.execLOOP n s
  | .ENDL n => Sys2Proof.Machine.execENDL n s
  | .BZ n => Sys2Proof.Machine.execBZ n s
  | .BNZ n => Sys2Proof.Machine.execBNZ n s
  | .JMP n => Sys2Proof.Machine.execJMP n s
  | .WPOP n => Sys2Proof.Machine.execWPOP n s
  | .PPB n => Sys2Proof.Machine.execPPB n s
  | .FENCE_UOP n => Sys2Proof.Machine.execFENCE_UOP n s
  | .LI n => Sys2Proof.Machine.execLI n s
  | .ADD n => Sys2Proof.Machine.execADD n s
  | .SUB n => Sys2Proof.Machine.execSUB n s
  | .AND n => Sys2Proof.Machine.execAND n s
  | .OR n => Sys2Proof.Machine.execOR n s
  | .XOR n => Sys2Proof.Machine.execXOR n s
  | .SHL n => Sys2Proof.Machine.execSHL n s
  | .SHR n => Sys2Proof.Machine.execSHR n s
  | .SLTU n => Sys2Proof.Machine.execSLTU n s
  | .MINU n => Sys2Proof.Machine.execMINU n s
  | .MAXU n => Sys2Proof.Machine.execMAXU n s
  | .LDW n => Sys2Proof.Machine.execLDW n s
  | .STW n => Sys2Proof.Machine.execSTW n s
  | .RDC n => Sys2Proof.Machine.execRDC n s
  | .WRC n => Sys2Proof.Machine.execWRC n s
  | .LDS n => Sys2Proof.Machine.execLDS n s
  | .STS n => Sys2Proof.Machine.execSTS n s
  | .QLD n => Sys2Proof.Machine.execQLD n s
  | .EMIT n => Sys2Proof.Machine.execEMIT n s
  | .UNP n => Sys2Proof.Machine.execUNP n s
  | .DOT n => Sys2Proof.Machine.execDOT n s
  | .SMX n => Sys2Proof.Machine.execSMX n s
  | .AXV n => Sys2Proof.Machine.execAXV n s
  | .DEC n => Sys2Proof.Machine.execDEC n s
  | .ENC n => Sys2Proof.Machine.execENC n s
  | .CBE n => Sys2Proof.Machine.execCBE n s
  | .DST n => Sys2Proof.Machine.execDST n s
  | .TOPK n => Sys2Proof.Machine.execTOPK n s
  | .HMV n => Sys2Proof.Machine.execHMV n s
  | .ME_TILE_END me kind ref cond => Sys2Proof.Machine.execME_TILE_END me kind ref cond s
  | .ME_PARITY_ERROR me kind ref kat => Sys2Proof.Machine.execME_PARITY_ERROR me kind ref kat s
  | .RATIO_PERIOD demand => Sys2Proof.Machine.execRATIO_PERIOD demand s
  | .EXPIRY_TTL_WAIT acc => Sys2Proof.Machine.execEXPIRY_TTL_WAIT acc s
  | .EXPIRY_TIER acc => Sys2Proof.Machine.execEXPIRY_TIER acc s
  | .EXPIRY_TRANSCRIPT acc => Sys2Proof.Machine.execEXPIRY_TRANSCRIPT acc s
  | .CLOSED_HOLD_EXPIRY acc => Sys2Proof.Machine.execCLOSED_HOLD_EXPIRY acc s
  | .CTX_TIMEOUT acc => Sys2Proof.Machine.execCTX_TIMEOUT acc s
  | .COMMIT_PERIOD part => Sys2Proof.Machine.execCOMMIT_PERIOD part s
  | .HOLDER_ACK acc dev objs status detail => Sys2Proof.Machine.execHOLDER_ACK acc dev objs status detail s
  | .GET_TIMEOUT dev => Sys2Proof.Machine.execGET_TIMEOUT dev s
  | .HOLDER_NO_SLOTS_TIMEOUT dev => Sys2Proof.Machine.execHOLDER_NO_SLOTS_TIMEOUT dev s
  | .REVIVE_HEAD_ARRIVAL acc dev obj => Sys2Proof.Machine.execREVIVE_HEAD_ARRIVAL acc dev obj s
  | .SHELF_OBJECT_ARRIVAL acc dev kind number obj => Sys2Proof.Machine.execSHELF_OBJECT_ARRIVAL acc dev kind number obj s
  | .LINK_PARITY_ERROR link => Sys2Proof.Machine.execLINK_PARITY_ERROR link s
  | .LINK_RETRAIN link word => Sys2Proof.Machine.execLINK_RETRAIN link word s
  | .LINK_RETRAIN_DONE link ok => Sys2Proof.Machine.execLINK_RETRAIN_DONE link ok s
  | .UNCORRECTABLE_ERROR mem addr data => Sys2Proof.Machine.execUNCORRECTABLE_ERROR mem addr data s
  | .CE_THRESHOLD mem loc addr n => Sys2Proof.Machine.execCE_THRESHOLD mem loc addr n s
  | .ERR_IRQ_GAP_END => Sys2Proof.Machine.execERR_IRQ_GAP_END s
  | .AUDIT_SWEEP left => Sys2Proof.Machine.execAUDIT_SWEEP left s
  | .CONSERVATION_VIOLATION code check object slip => Sys2Proof.Machine.execCONSERVATION_VIOLATION code check object slip s
  | .RIND_LOCKSTEP_MISMATCH => Sys2Proof.Machine.execRIND_LOCKSTEP_MISMATCH s
  | .RIND_WATCHDOG_EXPIRY => Sys2Proof.Machine.execRIND_WATCHDOG_EXPIRY s
  | .DESK_WATCHDOG_EXPIRY core slips => Sys2Proof.Machine.execDESK_WATCHDOG_EXPIRY core slips s
  | .PRESENCE_PRESS low => Sys2Proof.Machine.execPRESENCE_PRESS low s
  | .PRESENCE_WINDOW_END => Sys2Proof.Machine.execPRESENCE_WINDOW_END s
  | .PRESENCE_STUCK on => Sys2Proof.Machine.execPRESENCE_STUCK on s
  | .INPUT_CHATTER input => Sys2Proof.Machine.execINPUT_CHATTER input s
  | .JUMPER_REMOVED => Sys2Proof.Machine.execJUMPER_REMOVED s
  | .SEAL_EPISODE begins => Sys2Proof.Machine.execSEAL_EPISODE begins s
  | .SEAL_BREAK => Sys2Proof.Machine.execSEAL_BREAK s
  | .POWER_ON jumper fuseOk => Sys2Proof.Machine.execPOWER_ON jumper fuseOk s
  | .POWER_WAVE => Sys2Proof.Machine.execPOWER_WAVE s
  | .HBM_TRAINING_DONE => Sys2Proof.Machine.execHBM_TRAINING_DONE s
  | .DDR_TRAINING_DONE chans xts => Sys2Proof.Machine.execDDR_TRAINING_DONE chans xts s
  | .TRAINING_FAILED scope index => Sys2Proof.Machine.execTRAINING_FAILED scope index s
  | .KAT_DONE failed gcm => Sys2Proof.Machine.execKAT_DONE failed gcm s
  | .POWER_LOSS => Sys2Proof.Machine.execPOWER_LOSS s
  | .WARM_RESTART cause fuseOk => Sys2Proof.Machine.execWARM_RESTART cause fuseOk s
  | .PARTITION_RESET p cause lost => Sys2Proof.Machine.execPARTITION_RESET p cause lost s
  | .PARTITION_ACTIVE p ok failed => Sys2Proof.Machine.execPARTITION_ACTIVE p ok failed s
  | .CLUSTER_RESET cluster drained failed => Sys2Proof.Machine.execCLUSTER_RESET cluster drained failed s
  | .UNIT_SOFT_DISABLE unit => Sys2Proof.Machine.execUNIT_SOFT_DISABLE unit s
  | .THROTTLE_PERIOD west east io hbm hot power => Sys2Proof.Machine.execTHROTTLE_PERIOD west east io hbm hot power s
  | .THERMAL_TRIP => Sys2Proof.Machine.execTHERMAL_TRIP s
  | .REFCLK_LOST clock => Sys2Proof.Machine.execREFCLK_LOST clock s
  | .HOST_LINK_TRAINING offered width rate => Sys2Proof.Machine.execHOST_LINK_TRAINING offered width rate s
  | .HOST_PORT_RESET kind => Sys2Proof.Machine.execHOST_PORT_RESET kind s
  | .HDM_DECODER_COMMIT dec base size ways gran pos => Sys2Proof.Machine.execHDM_DECODER_COMMIT dec base size ways gran pos s
  | .HDM_ACCESS dec hpa op => Sys2Proof.Machine.execHDM_ACCESS dec hpa op s
  | .CONFIG_REQUEST op => Sys2Proof.Machine.execCONFIG_REQUEST op s
  | .MSIX_UNMASK vec addr data => Sys2Proof.Machine.execMSIX_UNMASK vec addr data s
  | .H2D_SNOOP => Sys2Proof.Machine.execH2D_SNOOP s
  | .PRESS_PERST_RELEASE ssd => Sys2Proof.Machine.execPRESS_PERST_RELEASE ssd s
  | .NVME_COMPLETION op ok intact => Sys2Proof.Machine.execNVME_COMPLETION op ok intact s
  | .NVME_TIMEOUT op => Sys2Proof.Machine.execNVME_TIMEOUT op s
  | .SESS_INSPECT_IDX value => Sys2Proof.Machine.execSESS_INSPECT_IDX value s
  | .NBU_BCAST_DATA host value => Sys2Proof.Machine.execNBU_BCAST_DATA host value s
  | .NBU_MAX_CLR => Sys2Proof.Machine.execNBU_MAX_CLR s
  | .ME_MAX_CLR => Sys2Proof.Machine.execME_MAX_CLR s
  | .POOL_ENTRY_ADD value => Sys2Proof.Machine.execPOOL_ENTRY_ADD value s
  | .POOL_ENTRY_RETIRE value => Sys2Proof.Machine.execPOOL_ENTRY_RETIRE value s
  | .TIER_QUOTA_WRITE tier value => Sys2Proof.Machine.execTIER_QUOTA_WRITE tier value s
  | .TEXT_SLOT_SEL value => Sys2Proof.Machine.execTEXT_SLOT_SEL value s
  | .HWM_CLR => Sys2Proof.Machine.execHWM_CLR s
  | .HIST_CLR => Sys2Proof.Machine.execHIST_CLR s
  | .HIST_QUEUE_CLR value => Sys2Proof.Machine.execHIST_QUEUE_CLR value s
  | .HIST_SAMPLE seen => Sys2Proof.Machine.execHIST_SAMPLE seen s
  | .SCHED_TEN_BUDGET_WRITE value => Sys2Proof.Machine.execSCHED_TEN_BUDGET_WRITE value s
  | .LEVEL_SET value => Sys2Proof.Machine.execLEVEL_SET value s
  | .POL_SET value => Sys2Proof.Machine.execPOL_SET value s
  | .SCHED_TEN_POLICE_WRITE value => Sys2Proof.Machine.execSCHED_TEN_POLICE_WRITE value s
  | .SCHED_SHP_CFG_WRITE value => Sys2Proof.Machine.execSCHED_SHP_CFG_WRITE value s
  | .RING_ENABLE value => Sys2Proof.Machine.execRING_ENABLE value s
  | .RING_DISABLE value => Sys2Proof.Machine.execRING_DISABLE value s
  | .SCHED_RING_CI value => Sys2Proof.Machine.execSCHED_RING_CI value s
  | .VEC_COL_SEL value => Sys2Proof.Machine.execVEC_COL_SEL value s
  | .ERR_LOG_SEL value => Sys2Proof.Machine.execERR_LOG_SEL value s
  | .ERR_STICKY_CLR value => Sys2Proof.Machine.execERR_STICKY_CLR value s
  | .CKPT_TRIG_WRITE value => Sys2Proof.Machine.execCKPT_TRIG_WRITE value s
  | .REGISTER_WRITE src bar addr size value => Sys2Proof.Machine.execREGISTER_WRITE src bar addr size value s
  | .PAYLOAD_READ_DONE q tag bytes ok => Sys2Proof.Machine.execPAYLOAD_READ_DONE q tag bytes ok s
  | .LOCATE_REPLY acc dev op r => Sys2Proof.Machine.execLOCATE_REPLY acc dev op r s
  | .MAP_FETCH_REPLY dev r => Sys2Proof.Machine.execMAP_FETCH_REPLY dev r s
  | .CAT_JOIN_REPLY r => Sys2Proof.Machine.execCAT_JOIN_REPLY r s
  | .MIRROR_GET_REPLY dev r => Sys2Proof.Machine.execMIRROR_GET_REPLY dev r s
  | .REGISTRAR_NOP_REPLY dev epoch => Sys2Proof.Machine.execREGISTRAR_NOP_REPLY dev epoch s
  | .MIRROR_COPY_EXPIRY dev => Sys2Proof.Machine.execMIRROR_COPY_EXPIRY dev s
  | .REFCLK_RETURN clock jumper fuseOk => Sys2Proof.Machine.execREFCLK_RETURN clock jumper fuseOk s
  | .ROW_REPAIR_DONE lock ok => Sys2Proof.Machine.execROW_REPAIR_DONE lock ok s
  | .FLASH_WRITE_DONE area ok => Sys2Proof.Machine.execFLASH_WRITE_DONE area ok s

end Sys2Proof.Machine
end

