-- ==== Sys2Proof/Machine/Step.lean ====
section
/-!
DEFINITION. One step of the block: the command at the front of the queue, else the device's own next ready command, else
one tick of DEV_TICK.
-/

namespace Sys2Proof.Machine

/-- Nothing is waiting: the device runs its own next ready command, or time passes by one tick of 10 ns, which DEV_TICK counts unless
device reset is held (R39; log entry 1). -/
def idle (s : State) : Host.Outcome State Fault Refusal :=
  match s.ready with
  | .slip op x :: rest =>
    match s.outst x.src x.tag with
    | some o =>
      match (if o.op == op && o.slip == x && o.stage != .payload then slipInstr op x else none) with
      | some i => exec i (({ s with ready := rest }.queueLeft (.slip op x) o.since).updOutst x.src x.tag (fun o => { o with stage := .running }))
      | none => .next { s with ready := rest }
    | none => .next { s with ready := rest }
  | .push r f :: rest => Sys2Proof.Machine.execRING_PUSH_ERROR_REPLY r f St.TIMEOUT { s with ready := rest }
  | .xchg st i :: rest => Sys2Proof.Machine.execXCHG_ERROR_REPLY st i St.TIMEOUT { s with ready := rest }
  | .holder d :: rest => Sys2Proof.Machine.execGET_TIMEOUT d { s with ready := rest }
  | .cat :: rest => .next ({ s with ready := rest }).catWork
  | .barrier :: rest => .next ({ s with ready := rest }).doBarrier
  | .restore :: rest => .next ({ s with ready := rest }).restoreStep
  | .violation c k o :: rest => Sys2Proof.Machine.execCONSERVATION_VIOLATION c k o none { s with ready := rest }
  | .hostError q :: rest => .next (({ s with ready := rest }).hostError q)
  | .revived i :: rest => .next (({ s with ready := rest }).reviveOver i)
  | .reload :: rest => .next ({ s with ready := rest }).reloadStep
  | [] => s.passTime

/-- One step. -/
def step (s : State) : Host.Outcome State Fault Refusal :=
  match s.pending with
  | i :: rest => exec i { s with pending := rest }
  | [] => idle s

/-- The state with the command a table word spells put at the front of the queue; no word spells one. -/
def State.withFetchWord (s : State) (nbits w : Nat) : State :=
  match decodeTableWord nbits w with
  | some i => { s with pending := i :: s.pending }
  | none => s

end Sys2Proof.Machine
end

