-- ==== Sys2Proof/Safety.lean ====
section
/-!
DEFINITION. What claims are stated in: the canonical form of the stores, and when a command is taken up.
-/

namespace Sys2Proof.Machine

/-! ## The canonical form -/

/-- A byte memory in its one form: addresses strictly rising, no entry equal to the 0 an unlisted address reads as (log
entry 2). -/
def Memory.wf (m : List (Nat × Byte)) : Bool := sWfFrom (fun _ => 0) none m

/-- The register file in its one form: offsets strictly rising, no entry equal to its register's reset word (log entry 3). -/
def Regs.wf (r : List (Nat × Word)) : Bool := sWfFrom regReset none r

/-- The register file and the three byte memories (HBM, cellar, flash) are in canonical form, and GEN_FLOOR fits its 32 bits
(R309). -/
def State.wf (s : State) : Bool :=
  Regs.wf s.regs && (Memory.wf s.hbm && (Memory.wf s.cellar && (Memory.wf s.flash.bytes && decide (s.genFloor < 2 ^ 32))))

/-! ## When a slip's command takes effect -/

/-- The slip was accepted as opcode `op` and the device runs it now, no earlier slip holds it back (R56, R57), and the device state
serves the opcode (R63): its command runs the opcode's own effect. -/
def State.takenUp (s : State) (op : Nat) (x : Slip) : Bool :=
  (match s.outst x.src x.tag with | some o => o.op == op && o.slip == x && o.stage == .running | none => false)
    && !blockedBy op x s.slips && s.notReady op == none

/-- A slip that names the live session `e`, at entry `i`, taken up with nothing in the session's or the device's state that has it
answered or held without effect: no restore made or owed (R317, R362), reload (R416), barrier (R307), fence (R356) or newer epoch (R58), its own
tenant (R464), a serving home partition (R63), neither REVIVING nor MOVING (R80), reserved parameter bits zero (R41), no media
error to report, and no park to wait for (R34). -/
def State.sessionUp (s : State) (op : Nat) (x : Slip) (masks : List Nat) (i : Nat) (e : Sess) : Bool :=
  s.takenUp op x
    && (x.acc != 0
    && (!s.restoreDue
    && (!s.reloading
    && ((!s.barring || op == Op.SESS_QUERY)
    && (!s.fenced
    && ((x.epoch.toNat == 0 || decide (x.epoch.toNat ≤ s.epoch))
    && (s.findSess x.acc == some (i, e)
    && (!s.cat.undecided.contains x.acc
    && ((op == Op.SESS_FORK || x.ten == e.tenant)
    && (!s.partDown i
    && (!((e.state == Ss.MOVING && op != Op.SESS_QUERY) || (e.state == Ss.REVIVING && op != Op.SESS_QUERY && op != Op.SESS_CLOSE))
    && (badParam x masks == none
    && (e.mediaDue == none
    && (e.parking == 0 || !revivingOp op))))))))))))))

/-- A tier slip taken up: one not of an epoch ahead of the device's (R199, R58). -/
def State.tierUp (s : State) (op : Nat) (x : Slip) : Bool := s.takenUp op x && !s.epochAhead x

/-- A vector slip that names the held shard `v`, taken up with ACCESSION 0 and its reserved parameter bits zero (R266). -/
def State.vecUp (s : State) (op : Nat) (x : Slip) (masks : List Nat) (v : Shard) : Bool :=
  s.takenUp op x && (x.acc == 0 && (badParam x masks == none && decide (s.vecShard x = .inl v)))

/-- A catalogue slip taken up: not of an older epoch than the device's (R299), not barred by a fence nor sent ahead of the map when it
names a session (R356, R58), nor during a restore or reload nor while that session's home partition is down (R317, R416, R63), its
reserved parameter bits zero (R41). -/
def State.catUp (s : State) (op : Nat) (x : Slip) (masks : List Nat) : Bool :=
  s.takenUp op x && ((x.epoch.toNat == 0 || decide (s.epoch ≤ x.epoch.toNat))
    && ((x.acc == 0 || (!s.fenced && (decide (x.epoch.toNat ≤ s.epoch) && (!s.restoreDue && !s.reloading))))
    && (!s.homeResetting x.acc && badParam x masks == none)))

/-! ## When a micro-operation takes effect -/

/-- NBU `n` runs `r`, and the word of the micro-operation store at its PC is the legal micro-operation `u` of operation code `op`
(R130, Table 5.7). -/
def State.uopUp (s : State) (op n : Nat) (r : Run) (u : Uop) : Bool :=
  (s.nbu n).run == some r && match s.profile.bind (fun p => p.storeWord r.pc) with
    | some w => Uop.of w == u && u.legal w && u.op == op
    | none => false

/-- The second operand of an ALU operation: B, or IMM sign-extended when MOD[0] is 1 (R130). -/
def Nbu.second (v : Nbu) (r : Run) (u : Uop) : Nat := if u.mod % 2 = 0 then v.sel r u.b else u.simm

/-- The micro-operations of an NBU (Table 5.7). -/
def microOps (n : Nat) : List Instr :=
  [.NBU_NOP n, .YIELD n, .HALT n, .LOOP n, .ENDL n, .BZ n, .BNZ n, .JMP n, .WPOP n, .PPB n, .FENCE_UOP n, .LI n, .ADD n, .SUB n,
   .AND n, .OR n, .XOR n, .SHL n, .SHR n, .SLTU n, .MINU n, .MAXU n, .LDW n, .STW n, .RDC n, .WRC n, .LDS n, .STS n, .QLD n,
   .EMIT n, .UNP n, .DOT n, .SMX n, .AXV n, .DEC n, .ENC n, .CBE n, .DST n, .TOPK n, .HMV n]

/-- The N columns of a consumer `u` are there, its scale bytes lie in the program's region, and they unpack, no damaged escape among
them, into the groups `gs`; `w` is the NBU with the columns taken and `up` the unpacker after them (R131, R132). -/
def State.unpacked (s : State) (n : Nat) (r : Run) (u : Uop) (w : Nbu) (gs : List (Nat × Nat × Nat × List Nat)) (up : Unp) : Prop :=
  ∃ p cols b, s.profile = some p ∧ s.takeCols n u.n = some (.inl (cols, w)) ∧ b = r.unp.rest ++ cols.flatten
    ∧ (r.unp.format ≤ 2 → inRegion r.launch.bg (r.unp.scale + (r.unp.group - r.unp.first)) (b.length / groupBytes r.unp.format) = true)
    ∧ s.unpackGo n w r.launch.bg p (b.length + 1) r.unp b [] = (gs, up, none)

/-- NBU `n` runs `r`, a launch of the standard program of a slot, while the profile `p` is loaded (R133). -/
def State.programUp (s : State) (slot n : Nat) (p : Profile) (r : Run) : Prop :=
  (s.nbu n).run = some r ∧ s.profile = some p ∧ r.launch.slot = slot

/-- Parameter i of a launch: CMD3 + i of a foreground launch, CMD16 + i of a background one (R126). -/
def Run.param (r : Run) (i : Nat) : Nat := r.launch.params.getD i 0

end Sys2Proof.Machine
end

