-- ==== Sys2Proof/Certificates/Slice0/Obligations.lean ====
section
/-!
DEFINITION. The statements for the provers.
-/

open Sys2Proof Sys2Proof.Machine

/-- For every command c, every state s and every queue rest: a step of s with c at the front of its queue is exec c on s with the queue's rest. Where the queue is empty, a step runs the device's own next ready command or lets one tick of 10 ns pass, which is the model's choice (log entry 1). -/
def Obligations.StepRunsTheFrontCommand : Prop :=
  ∀ (c : Instr) (rest : List Instr) (s : State),
    step { s with pending := c :: rest } = exec c { s with pending := rest }

/-- For every state whose queue of commands and list of ready commands are empty, in which nothing the Rind issued waits for its cores: with device reset released and no host access waiting for a channel that retrains, a step answers the next state with DEV_TICK one higher, wrapping at 2^64, and every other field as it was; while device reset is held it leaves the state as it is, DEV_TICK included. That time passes in an idle step is the model's choice (log entry 1); R39 gives the counter. -/
def Obligations.IdleStepLetsOneTickPass : Prop :=
  ∀ s : State, s.pending = [] → s.ready = [] → s.sec.rindWaiting = [] →
    (s.boot.hold = 0 → s.boot.traffic = [] → step s = .next { s with tick := (s.tick + 1) % 2 ^ 64 })
    ∧ (s.boot.hold ≠ 0 → step s = .next s)

/-- A NOP, IDENTIFY or ECHO slip that is taken up with its reserved parameter bits zero completes: NOP answers OK with RESULT 0; IDENTIFY answers DEV_ID in RESULT, and the first 96 bytes of the DEV registers as data when P5 (OUT_CAP) is not 0; ECHO answers its payload as data. A HELLO taken up as the only slip outstanding on its context, offering a version whose minimum with the highest served one has major number 1, records that minimum as the context's version and answers it in RESULT with the highest in RESULT2, with status VERSION_LOWERED when the offer was higher and OK otherwise. Nothing but the reply and that record is done. -/
def Obligations.DeviceSlipsComplete : Prop :=
  ∀ (x : Slip) (s : State),
    (s.takenUp Op.NOP x = true → badParam x [0, 0, 0, 0, 0, 0] = none →
      exec (.NOP x) s = .next (s.finish Op.NOP x (Answer.ok)))
    ∧ (s.takenUp Op.IDENTIFY x = true → badParam x [0, 0, 0, 0, 0xFFFFFFFF, 0xFFFFFFFF] = none →
      exec (.IDENTIFY x) s = .next (s.finish Op.IDENTIFY x
        (Answer.ok (s.reg A.DEV_ID).toNat 0 (if x.P5 = 0 then [] else s.devBytes))))
    ∧ (s.takenUp Op.ECHO x = true → badParam x [0, 0, 0, 0, 0xFFFFFFFF, 0xFFFFFFFF] = none →
      exec (.ECHO x) s = .next (s.finish Op.ECHO x (Answer.ok 0 0 x.payload)))
    ∧ (s.takenUp Op.HELLO x = true → badParam x [0xFF, 0, 0, 0, 0, 0] = none → s.outstOf x.src ≤ 1 →
      min x.P0 (s.fld F.DEV_CAP2_SLIP_VERSION) / 16 = 1 →
      exec (.HELLO x) s = .next (({ s with versions :=
          (x.src, min x.P0 (s.fld F.DEV_CAP2_SLIP_VERSION)) :: s.versions.filter (fun v => v.1 != x.src) } : State).finish Op.HELLO x
        (Answer.mk' (if min x.P0 (s.fld F.DEV_CAP2_SLIP_VERSION) < x.P0 then St.VERSION_LOWERED else St.OK) 0
          (min x.P0 (s.fld F.DEV_CAP2_SLIP_VERSION)) (s.fld F.DEV_CAP2_SLIP_VERSION))))

/-- For every pair q. On an ACTIVE pair (state 1) a QP_SQ_TAIL write below the queue's size sets the tail and fetches what may be fetched, and a QP_RQ_HEAD write from the current head to the current tail sets the head and fetches likewise. A completed fetch of at least one entry advances SQ_HEAD over its entries, writes the mirror block, takes the entries one by one and fetches on. A payload read that completes puts its bytes, cut to PLEN, into the slip and wakes it; one that fails, and a failed fetch, counts against the pair, and the slip is given up without a reply. A failed host access that is of no outstanding slip's data counts against the pair: an ACTIVE pair enters ERROR, and replies are discarded from then on unless the pair is DISABLED; one of an outstanding slip's data write marks that slip. QP_ENABLE of a DISABLED pair with a valid configuration makes it ACTIVE with fresh indices; QP_DISABLE of a pair that is not DISABLED clears ENABLE, drops its version and leaves it DRAINING; a DRAINING pair with nothing in flight becomes DISABLED; and the coalescing timer, with replies unannounced and the configured time elapsed since the first, sends the pair's MSI-X message. -/
def Obligations.HostQueueCommandsComplete : Prop :=
  ∀ (q : Nat) (s : State),
    (∀ v : Word, (s.qp q).state = 1 → F.QP_SQ_TAIL_TAIL.get v < s.sqSize q →
      exec (.QP_SQ_TAIL q v) s = .next ((s.setQp q { s.qp q with sqTail := F.QP_SQ_TAIL_TAIL.get v }).fetchMore q))
    ∧ (∀ v : Word, (s.qp q).state = 1 → F.QP_RQ_HEAD_HEAD.get v < s.rqSize q →
      (F.QP_RQ_HEAD_HEAD.get v + s.rqSize q - (s.qp q).rqHead) % s.rqSize q ≤ s.unconsumed q →
      exec (.QP_RQ_HEAD q v) s = .next ((s.setQp q { s.qp q with rqHead := F.QP_RQ_HEAD_HEAD.get v }).fetchMore q))
    ∧ (∀ entries : List OpSlip, (s.qp q).fetching ≠ 0 →
      (∃ es, es = entries.take (s.qp q).fetching ∧ exec (.SQ_FETCH_DONE q entries true) s =
        .next ((es.zipIdx.foldl (fun z o => z.fetched q o.1 (((s.qp q).sqHead + o.2) % s.sqSize q)) (s.headMirror q es.length)).fetchMore q))
      ∧ exec (.SQ_FETCH_DONE q entries false) s = .next ((s.setQp q { s.qp q with fetching := 0 }).hostError q))
    ∧ (∀ n : Nat, s.conf = false → ∃ t, t = s.setQp q { s.qp q with
        fetching := 0, fetched := (s.qp q).fetched + n, sqHead := ((s.qp q).sqHead + n) % s.sqSize q }
      ∧ s.headMirror q n = t.emit (.mirror q (t.qp q).sqHead (t.qp q).rqTail))
    ∧ (∀ (tag : BitVec 32) (bytes : Bytes) (o : Outst), s.outst (.pair q) tag = some o → o.stage = .payload →
      exec (.PAYLOAD_READ_DONE q tag bytes true) s =
        .next ((s.updOutst (.pair q) tag (fun o' => { o' with
            slip := { o.slip with payload := slice bytes 0 o.slip.plen.toNat }, stage := .accepted })).wakeSlip o.op
          { o.slip with payload := slice bytes 0 o.slip.plen.toNat })
      ∧ exec (.PAYLOAD_READ_DONE q tag bytes false) s = .next ((s.dropSlip (.pair q) tag).hostError q))
    ∧ exec (.HOST_ACCESS_ERROR q none) s = .next (s.hostError q)
    ∧ (∀ tag : BitVec 32, (s.outst (.pair q) tag).isSome = true → exec (.HOST_ACCESS_ERROR q (some tag)) s =
        .next (s.updOutst (.pair q) tag (fun o => { o with dataFails := true })))
    ∧ (∀ v : Word, (s.qp q).state = 0 → s.hostReady = true →
      s.pairValid q (v &&& BitVec.ofNat 64 (qpCfgMask + F.QP_CFG_ENABLE.mask)) = true →
      exec (.QP_ENABLE q v) s = .next
        (({ s.setReg (A.QP_CFG + 0x40 * q) (v &&& BitVec.ofNat 64 (qpCfgMask + F.QP_CFG_ENABLE.mask)) with
            sec := { s.sec with hostUsed := true } } : State).setQp q { Qp.fresh with state := 1 }))
    ∧ (∀ v : Word, (s.qp q).state ≠ 0 → s.reg (A.QP_CFG + 0x40 * q) &&& BitVec.ofNat 64 qpCfgMask = v &&& BitVec.ofNat 64 qpCfgMask →
      ∃ t, t = (s.setFld (F.QP_CFG_ENABLE.at (0x40 * q)) 0).dropVersion (.pair q)
        ∧ exec (.QP_DISABLE q v) s = .next (t.setQp q { t.qp q with state := 2 }))
    ∧ ((s.qp q).state = 2 → (s.qp q).fetched = 0 → (s.qp q).fetching = 0 →
      exec (.QP_DRAIN_DONE q) s = .next (s.setQp q { s.qp q with state := 0 }))
    ∧ ((s.qp q).coalCount ≠ 0 → s.fld (F.QP_COAL_COAL_TIME.at (0x40 * q)) ≠ 0 →
      (s.qp q).coalSince + 10 * s.fld (F.QP_COAL_COAL_TIME.at (0x40 * q)) ≤ s.tick →
      exec (.COAL_TIMER q) s = .next ((s.setQp q { s.qp q with coalCount := 0 }).sendMsix
        (s.fld (F.QP_CFG_MSIX_VEC.at (0x40 * q)))))

/-- A slip on an open management connection while ETH_REFCLK0 is there, and a slip the Rind submits, arrive: they are put to the acceptance checks and, when accepted, go on to execute; one the Rind submits while its cores are reset waits for them. A connection is opened, once the device takes slips and with ETH_REFCLK0 there, with fewer than sixteen open and its number free, for a certificate digest that names an enrolled principal of role 1 to 3, with that principal's role. Disconnecting an open connection closes it. Resolving the epoch hold lets the slips held for a newer epoch go on. -/
def Obligations.SlipArrivalPathsComplete : Prop :=
  ∀ (o : OpSlip) (c : Nat) (cert : Bytes) (p : Nat × Principal) (s : State),
    (o.slip.src = .mgmt c → (tGet s.mgmt c).isSome = true → s.flag F.CXL_REFCLK_ETH0_LOST = false →
      exec (.MGMT_SLIP_ARRIVAL o) s = .next (s.arrive o))
    ∧ (s.sec.rindUntil ≤ s.tick → exec (.RIND_SLIP o) s = .next (s.arrive { o with slip := { o.slip with src := .rind } }))
    ∧ (s.tick < s.sec.rindUntil → exec (.RIND_SLIP o) s = .next (s.rindLater (.slip o)))
    ∧ (s.takesSlips = true → s.flag F.CXL_REFCLK_ETH0_LOST = false → s.mgmt.length < 16 → tGet s.mgmt c = none →
      s.principals.find? (fun p => p.2.digest == cert && 1 ≤ p.2.role && p.2.role ≤ 3) = some p →
      exec (.MGMT_CONNECT c cert) s = .next { s with mgmt := tPut s.mgmt c { principal := p.1, role := p.2.role } })
    ∧ ((tGet s.mgmt c).isSome = true → exec (.MGMT_DISCONNECT c) s = .next (s.closeMgmt c))
    ∧ exec .EPOCH_HOLD_RESOLVE s = .next s.resolveEpoch

/-- For a slip that is taken up and names the live session e at entry i. SESS_CLOSE on a session not CLOSED and in no step closes it and answers its TRANSCRIPT_LENGTH. SESS_QUERY answers STATE, RESUME_STATE, FAULT and KV_LENGTH packed in RESULT, FAULT_TAG in DETAIL, and the 256-byte entry when P4 or P5 is not 0. SESS_SET_TTL on a session not CLOSED stores the five times, keeping each whose parameter is all ones, recomputes DEADLINE, and answers what is left to it. SESS_FORK of a WAITING, DECODE or RING_FULL parent in no step, at a position of its cache, with the tenant's key present, an entry and the slots and quota the copies need, makes the child and answers its number and index. SESS_ACCESSION with admission open and the key present places a new ACCESSIONED session at the next number and the free index and answers both. -/
def Obligations.SessionSlipsComplete : Prop :=
  ∀ (x : Slip) (s : State) (i : Nat) (e : Sess),
    (s.sessionUp Op.SESS_CLOSE x [0, 0, 0, 0, 0, 0] i e = true → e.state ≠ Ss.CLOSED → e.inStep = false →
      exec (.SESS_CLOSE x) s = .next (((s.closeSess i).reclaimCheck).finish Op.SESS_CLOSE x (Answer.ok e.tlen)))
    ∧ (s.sessionUp Op.SESS_QUERY x [0, 0, 0, 0, 0xFFFFFFFF, 0xFFFFFFFF] i e = true →
      exec (.SESS_QUERY x) s = .next (s.finish Op.SESS_QUERY x (Answer.mk' St.OK e.faultTag
        (e.state + e.resume * 2 ^ 8 + e.fault * 2 ^ 16 + e.kvLength * 2 ^ 32) 0
        (if x.P4 = 0 ∧ x.P5 = 0 then [] else s.entryBytes i e (s.code x.src == 1)))))
    ∧ (s.sessionUp Op.SESS_SET_TTL x [0xFFFFFFFF, 0xFFFFFFFF, 0xFFFFFFFF, 0xFFFFFFFF, 0xFFFFFFFF, 0] i e = true → e.state ≠ Ss.CLOSED →
      ∃ t, t = ((s.updSess i (fun e => { e with
            ttlWait := if x.P0 = 0xFFFFFFFF then e.ttlWait else x.P0, ttlT2 := if x.P1 = 0xFFFFFFFF then e.ttlT2 else x.P1,
            ttlT3 := if x.P2 = 0xFFFFFFFF then e.ttlT3 else x.P2, ttlT4 := if x.P3 = 0xFFFFFFFF then e.ttlT4 else x.P3,
            ttlTranscript := if x.P4 = 0xFFFFFFFF then e.ttlTranscript else x.P4 }))) ∧
        ∃ u, u = ((t.updSess i (fun e => { e with deadline := t.deadlineOf e })).imageChanged i) ∧
        exec (.SESS_SET_TTL x) s = .next (u.finish Op.SESS_SET_TTL x (Answer.ok ((u.sess i).deadline - u.tick))))
    ∧ (∀ (p : Profile) (acc ci f : Nat), s.sessionUp Op.SESS_FORK x [0xFFFFFFFF, 1, 0, 0, 0, 0] i e = true →
      f = (if x.P0 = 0xFFFFFFFF then e.kvLength else x.P0) → 0 < f → f ≤ e.kvLength →
      (x.ten = e.tenant ∨ (e.template = true ∧ e.tenant = 0xFFFF)) → (x.ten ≠ 0xFFFF ∨ bitOf x.P1 0 = true) →
      (e.state = Ss.WAITING ∨ e.state = Ss.DECODE ∨ e.state = Ss.RING_FULL) → e.inStep = false →
      s.admitBarred = false → s.keyMissing x.ten = none → s.profile = some p → s.nextSession = .ok (acc, ci) →
      ((e.forkPages p f).1.flatMap PageRef.slots).any s.refFull = false →
      (((e.forkPages p f).2.map copySlots).foldl (· + ·) 0) ≤ s.freeT1 →
      s.quotaFits x.ten 1 (4 * (((e.forkPages p f).2.map copySlots).foldl (· + ·) 0)
        + cdiv (cdiv (forkTranscript f e.transcript).length 1024 * 4096 + maskBytes (e.maskLog.take
          (((maskMarks (forkTranscript f e.transcript)).filter (· != 0xFFFFF)).foldl (fun m v => max m (v + 1)) 0))) 16384) = true →
      exec (.SESS_FORK x) s = .next ((s.makeChild p i ci acc x.ten f (bitOf x.P1 0)).finish Op.SESS_FORK x (Answer.ok acc ci)))
    ∧ (∀ (acc ci : Nat), s.takenUp Op.SESS_ACCESSION x = true → x.acc = 0 → badParam x [1, 0, 0, 0, 0, 0] = none →
      (bitOf x.P0 0 = false ∨ s.code x.src ≠ 1) → (x.ten ≠ 0xFFFF ∨ bitOf x.P0 0 = true) →
      s.restoreDue = false → s.barring = false → s.admitBarred = false → s.keyMissing x.ten = none →
      s.nextSession = .ok (acc, ci) →
      exec (.SESS_ACCESSION x) s = .next ((s.placeSess ci Ss.ACCESSIONED (s.newSess acc x.ten (bitOf x.P0 0))).finish
        Op.SESS_ACCESSION x (Answer.ok acc ci)))

/-- For a slip that is taken up and names the live session e at entry i. SESS_GENERATE on an ACCESSIONED or WAITING session that is no template, with room in the context, a token count of 1 to 1,048,576 and a ring attached, arms the request and starts it where input is pending. SESS_CANCEL of an armed session in PREFILL, RING_FULL (no final group held) or PREEMPTED clears ARMED and answers STEPS; of one at rest, in no step, it writes or holds the request's last group. SESS_ATTACH_RING at rest attaches a usable ring, and with DETACH, no request armed and no record held, detaches it. SESS_SET_MASK appends the mark, with the mask or with CLEAR, while fewer than 64 marks stand and the quota takes the growth. SESS_PARK of a WAITING session begins the commit and leaves the slip waiting for it. SESS_REVIVE of a PARKED or TRANSCRIPT_ONLY session starts the revive and holds the slip for it. -/
def Obligations.RequestSlipsComplete : Prop :=
  ∀ (x : Slip) (s : State) (i : Nat) (e : Sess),
    (s.sessionUp Op.SESS_GENERATE x [0xFFFFFFFF, 0x1FFFF, 0, 0, 0, 0] i e = true → 0 < x.P0 → x.P0 ≤ 1048576 → e.template = false →
      (e.state = Ss.ACCESSIONED ∨ e.state = Ss.WAITING) → bitOf x.P1 16 = false → e.attached = true →
      e.kvLength + e.pending < (s.profile.map (·.maxContext)).getD 0 →
      exec (.SESS_GENERATE x) s = .next (((s.updSess i (fun e => { e with armed := true, reqRemaining := x.P0, toolWait := false })).startRequest i).finish Op.SESS_GENERATE x (Answer.ok e.kvLength e.pending)))
    ∧ (s.sessionUp Op.SESS_CANCEL x [0, 0, 0, 0, 0, 0] i e = true → e.armed = true → e.inStep = false →
      (e.state = Ss.PREFILL ∨ e.state = Ss.PREEMPTED ∨ (e.state = Ss.RING_FULL ∧ e.heldFinal = false)) →
      exec (.SESS_CANCEL x) s = .next ((s.updSess i (fun e => { e with armed := false })).finish Op.SESS_CANCEL x
        (Answer.ok e.steps)))
    ∧ (s.sessionUp Op.SESS_CANCEL x [0, 0, 0, 0, 0, 0] i e = true → e.armed = true → e.inStep = false → atRest e.state = true →
      exec (.SESS_CANCEL x) s = .next (((s.cancelIdle i).imageChanged i).finish Op.SESS_CANCEL x (Answer.ok e.steps)))
    ∧ (s.sessionUp Op.SESS_ATTACH_RING x [0x1FFFF, 0, 0, 0, 0, 0] i e = true → atRest e.state = true → bitOf x.P0 16 = false →
      s.ringBarred i (bitsOf x.P0 15 0) e.tenant 0 = none →
      exec (.SESS_ATTACH_RING x) s = .next ((s.attachRing i (bitsOf x.P0 15 0)).finish Op.SESS_ATTACH_RING x
        (Answer.ok (bitsOf x.P0 15 0))))
    ∧ (s.sessionUp Op.SESS_ATTACH_RING x [0x1FFFF, 0, 0, 0, 0, 0] i e = true → atRest e.state = true → bitOf x.P0 16 = true →
      e.armed = false → e.heldRecord = false →
      exec (.SESS_ATTACH_RING x) s = .next ((s.detachRing i).finish Op.SESS_ATTACH_RING x (Answer.ok e.ring)))
    ∧ (s.sessionUp Op.SESS_SET_MASK x [1, 0, 0, 0, 0, 0] i e = true → e.state ≠ Ss.PREFILL → e.state ≠ Ss.CLOSED → bitOf x.P0 0 = true →
      x.payload = [] → e.away = false → e.tlen < 2097152 → (maskMarks e.transcript).length < 64 →
      s.quotaFits e.tenant 1 (cdiv (cdiv (e.tlen + 1) 1024 * 4096 + maskBytes e.maskLog) 16384 - e.logQuarters) = true →
      exec (.SESS_SET_MASK x) s = .next ((s.addMark i none).finish Op.SESS_SET_MASK x (Answer.ok 0xFFFFF)))
    ∧ (∀ m : MaskRec, s.sessionUp Op.SESS_SET_MASK x [1, 0, 0, 0, 0, 0] i e = true → e.state ≠ Ss.PREFILL → e.state ≠ Ss.CLOSED →
      bitOf x.P0 0 = false → badStruct 0x0406 16 x.payload = none → m.len = rdLe x.payload 8 4 →
      m.bits = slice x.payload 16 (cdiv m.len 8) → m.len ≠ 0 → m.len ≤ (s.profile.map (·.maxContext)).getD 0 →
      16 + cdiv m.len 8 ≤ rdLe x.payload 4 4 → e.away = false → e.tlen < 2097152 → (maskMarks e.transcript).length < 64 →
      s.quotaFits e.tenant 1
        (cdiv (cdiv (e.tlen + 1) 1024 * 4096 + maskBytes (e.maskLog ++ [m])) 16384 - e.logQuarters) = true →
      exec (.SESS_SET_MASK x) s = .next ((s.addMark i (some m)).finish Op.SESS_SET_MASK x (Answer.ok e.maskLog.length)))
    ∧ (∀ (t : State), s.sessionUp Op.SESS_PARK x [7, 0, 0, 0, 0, 0] i e = true → e.state = Ss.WAITING →
      (e.template = false ∨ s.childCount e = 0) → bitsOf x.P0 2 0 ≠ 0 →
      ((s.profile.map (·.parkPath)).getD []).contains (bitsOf x.P0 2 0) = true → s.textOpen i = false → e.parking = 0 →
      (s.abandonCommit i).tryCommit i 2 (bitsOf x.P0 2 0) true = (t, none) →
      exec (.SESS_PARK x) s = .next (t.updOutst x.src x.tag (fun o => { o with stage := .waiting })))
    ∧ (s.sessionUp Op.SESS_REVIVE x [0, 0, 0, 0, 0, 0] i e = true → (e.state = Ss.PARKED ∨ e.state = Ss.TRANSCRIPT_ONLY) →
      (s.outst x.src x.tag).map (·.note) = some 0 →
      ∃ t, t = s.startRevive i ∧ exec (.SESS_REVIVE x) s = .next { t.updOutst x.src x.tag (fun o => { o with stage := .waiting }) with
        held := t.held ++ [({ op := BitVec.ofNat 16 Op.SESS_REVIVE, slip := x }, Hold.revive x.acc)] })

/-- At the target, a SESS_MOVE_OFFER taken up for a session not held, with a resume state of PARKED or TRANSCRIPT_ONLY, a well-formed entry of that session and tenant, the tenant's key, the same profile, a free entry and quota for its copies, stores the offered entry as MOVING and answers its index; a SESS_MOVE_COMMIT taken up of the reserved session's tenant whose P0 is the offered SHELF_GEN brings the session to its resume state, its objects becoming its own, with the time it had left; a reservation not claimed within 10 s is freed with its charges. At the source, an accepted offer registers the new owner, an accepted commit gives the session up, and a refused one of either returns it to the state it had. -/
def Obligations.MoveCommandsComplete : Prop :=
  ∀ (s : State),
    (∀ (x : Slip) (p : Profile) (i : Nat) (e : Sess) (m : Move), s.takenUp Op.SESS_MOVE_OFFER x = true → x.acc ≠ 0 →
      s.restoreDue = false → s.reloading = false → s.barring = false → s.fenced = false → s.epochAhead x = false →
      badParam x [0xFFFFF, 15, 0, 0, 0, 0] = none → (bitsOf x.P1 3 0 = Ss.PARKED ∨ bitsOf x.P1 3 0 = Ss.TRANSCRIPT_ONLY) →
      badStruct 0x0410 264 x.payload = none → e = Sess.ofEntry (x.payload.drop 8) (bitsOf x.P1 3 0) →
      e.accession = x.acc → e.tenant = x.ten → s.findSess x.acc = none → s.keyMissing x.ten = none → s.profile = some p →
      (∀ d, tGet s.cat.devices (bitsOf x.P0 19 0) = some d → d.profile = p.id) → s.newIndex = some i →
      (∀ t ∈ [2, 3, 4], s.quotaFits e.tenant t ((s.offerCharge p e).getD (t - 2) 0) = true) →
      m = { accession := x.acc, peerDev := bitsOf x.P0 19 0, resume := bitsOf x.P1 3 0, shelfGen := e.shelfGen,
            remain := rdLe x.payload (8 + 0x68) 8, phase := 3 } →
      ∃ t, t = (s.setSess i { e with entered := s.tick }).setImg i (s.offerCharge p e) ∧
      exec (.SESS_MOVE_OFFER x) s = .next (({ t with moves := tPut t.moves i m } : State).finish Op.SESS_MOVE_OFFER x (Answer.ok 0 i)))
    ∧ (∀ (x : Slip) (i : Nat) (m : Move), s.takenUp Op.SESS_MOVE_COMMIT x = true → x.acc ≠ 0 → s.restoreDue = false →
      s.reloading = false → s.barring = false → s.fenced = false → s.epochAhead x = false → s.moveOf x.acc true = some (i, m) →
      x.ten = (s.sess i).tenant → s.partDown i = false → badParam x [0xFFFFFFFF, 0, 0, 0, 0, 0] = none → x.P0 = m.shelfGen →
      ∃ t, t = ({ s with moves := tDel s.moves i, shelf := s.shelf.map (fun (o : ShelfObj) =>
            if o.accession == x.acc && !o.own then { o with own := true } else o) } : State).enter i m.resume ∧
      exec (.SESS_MOVE_COMMIT x) s = .next ((t.updSess i (fun e => { e with
        deadline := t.tick + m.remain })).finish Op.SESS_MOVE_COMMIT x (Answer.ok x.acc)))
    ∧ (∀ (acc i : Nat) (m : Move), s.moveOf acc true = some (i, m) → (s.sess i).entered + 10 ^ 9 ≤ s.tick →
      exec (.MOVE_RESERVATION_LAPSE acc) s =
        .next { (s.setImg i [0, 0, 0]).freeSess i with moves := tDel s.moves i })
    ∧ (∀ (acc status i : Nat) (m : Move), s.moveOf acc false = some (i, m) → m.phase = 0 →
      exec (.MOVE_OFFER_REPLY acc status) s =
        .next (if statusClass status ≤ 1 then s.registerMove i m else s.moveFailed i m))
    ∧ (∀ (acc status i : Nat) (m : Move), s.moveOf acc false = some (i, m) → m.phase = 2 →
      exec (.MOVE_COMMIT_REPLY acc status) s =
        .next (if statusClass status ≤ 1 then s.moveDone i m else s.moveFailed i m))

/-- A SESS_ACCESSION slip that is taken up while DEV_DEVID.VALID is 0, with its parameters in order and no restore or barrier running or owed, is answered BUSY with DETAIL 0 and changes nothing else. And whatever the slip and the state, a SESS_ACCESSION that is taken up while DEV_DEVID.VALID is 0 leaves the session table as it was. -/
def Obligations.AccessionOnlyWithDeviceId : Prop :=
  ∀ (x : Slip) (s : State), s.takenUp Op.SESS_ACCESSION x = true → s.flag F.DEV_DEVID_VALID = false →
    (x.acc = 0 → badParam x [1, 0, 0, 0, 0, 0] = none →
      (bitOf x.P0 0 = false ∨ s.code x.src ≠ 1) → (x.ten ≠ 0xFFFF ∨ bitOf x.P0 0 = true) →
      s.restoreDue = false → s.barring = false →
      exec (.SESS_ACCESSION x) s = .next (s.finish Op.SESS_ACCESSION x (Answer.st St.BUSY)))
    ∧ ∃ t, exec (.SESS_ACCESSION x) s = .next t ∧ t.sessions = s.sessions

/-- When the legal micro-operation at the PC of the program running on an NBU is one of ADD, SUB, AND, OR, XOR, SHL, SHR, SLTU, MINU and MAXU, it writes A op the second operand, modulo 2^64, to selector D and goes on to the next entry; the second operand is B, or IMM sign-extended when MOD[0] is 1; shifts use its bits [5:0]; a comparison gives 1 or 0. LI writes IMM sign-extended, or IMM into the upper half keeping the lower. LDW reads and STW writes 8 bytes of the program's SRAM region at A + IMM[13:0]; the alignment taken down is the model's choice (log entry 46). -/
def Obligations.AluMicroOpsWriteTheirResult : Prop :=
  ∀ (n : Nat) (s : State) (r : Run) (u : Uop) (v : Nbu), v = s.nbu n →
    (s.uopUp 0x11 n r u = true →
      exec (.ADD n) s = .next (s.goto n (r.put u.d ((v.sel r u.a + v.second r u) % 2 ^ 64)) (r.pc + 1)))
    ∧ (s.uopUp 0x12 n r u = true →
      exec (.SUB n) s = .next (s.goto n (r.put u.d ((v.sel r u.a + 2 ^ 64 - v.second r u % 2 ^ 64) % 2 ^ 64)) (r.pc + 1)))
    ∧ (s.uopUp 0x13 n r u = true →
      exec (.AND n) s = .next (s.goto n (r.put u.d ((v.sel r u.a &&& v.second r u) % 2 ^ 64)) (r.pc + 1)))
    ∧ (s.uopUp 0x14 n r u = true →
      exec (.OR n) s = .next (s.goto n (r.put u.d ((v.sel r u.a ||| v.second r u) % 2 ^ 64)) (r.pc + 1)))
    ∧ (s.uopUp 0x15 n r u = true →
      exec (.XOR n) s = .next (s.goto n (r.put u.d ((v.sel r u.a ^^^ v.second r u) % 2 ^ 64)) (r.pc + 1)))
    ∧ (s.uopUp 0x16 n r u = true →
      exec (.SHL n) s = .next (s.goto n (r.put u.d ((v.sel r u.a <<< (v.second r u % 64)) % 2 ^ 64)) (r.pc + 1)))
    ∧ (s.uopUp 0x17 n r u = true →
      exec (.SHR n) s = .next (s.goto n (r.put u.d ((v.sel r u.a >>> (v.second r u % 64)) % 2 ^ 64)) (r.pc + 1)))
    ∧ (s.uopUp 0x18 n r u = true →
      exec (.SLTU n) s = .next (s.goto n (r.put u.d ((if v.sel r u.a < v.second r u then 1 else 0) % 2 ^ 64)) (r.pc + 1)))
    ∧ (s.uopUp 0x19 n r u = true →
      exec (.MINU n) s = .next (s.goto n (r.put u.d ((min (v.sel r u.a) (v.second r u)) % 2 ^ 64)) (r.pc + 1)))
    ∧ (s.uopUp 0x1A n r u = true →
      exec (.MAXU n) s = .next (s.goto n (r.put u.d ((max (v.sel r u.a) (v.second r u)) % 2 ^ 64)) (r.pc + 1)))
    ∧ (s.uopUp 0x10 n r u = true → exec (.LI n) s = .next (s.goto n
        (r.put u.d (if u.mod % 2 = 0 then u.simm else u.imm * 2 ^ 32 + v.sel r u.d % 2 ^ 32)) (r.pc + 1)))
    ∧ (s.uopUp 0x1B n r u = true → inRegion r.launch.bg (alignDown (v.sel r u.a + bitsOf u.imm 13 0) 8) 8 = true →
      exec (.LDW n) s = .next (s.goto n
        (r.put u.d (leNat (v.rd r.launch.bg (alignDown (v.sel r u.a + bitsOf u.imm 13 0) 8) 8))) (r.pc + 1)))
    ∧ (s.uopUp 0x1C n r u = true → inRegion r.launch.bg (alignDown (v.sel r u.a + bitsOf u.imm 13 0) 8) 8 = true →
      exec (.STW n) s = .next ((s.setNbu n (v.wr r.launch.bg (alignDown (v.sel r u.a + bitsOf u.imm 13 0) 8)
        (leBytes 8 (v.sel r u.b)))).goto n r (r.pc + 1)))

/-- When the legal micro-operation at the PC of the program running on an NBU is NOP or FENCE, the program goes on to the next entry; PPB declares ping-pong from MOD; LOOP sets LCx to A + IMM[15:0] and goes on; ENDL lowers LCx by one, modulo 2^32, and branches to IMM[8:0] if it is not zero; BZ, BNZ and JMP branch to IMM[8:0] by their condition; HALT ends the program with code IMM[7:0] and AUX IMM[23:8]; YIELD performs the actions of a yield and, the program still running, goes on. That FENCE has nothing to wait for is the model's choice (log entry 47). -/
def Obligations.ControlMicroOpsComplete : Prop :=
  ∀ (n : Nat) (s : State) (r : Run) (u : Uop) (v : Nbu), v = s.nbu n →
    (s.uopUp 0x00 n r u = true → exec (.NBU_NOP n) s = .next (s.goto n r (r.pc + 1)))
    ∧ (s.uopUp 0x0A n r u = true → exec (.FENCE_UOP n) s = .next (s.goto n r (r.pc + 1)))
    ∧ (s.uopUp 0x09 n r u = true → exec (.PPB n) s =
        .next ((s.setNbu n { v with ppOn := u.mod.testBit 1, ppActive := u.mod % 2 }).goto n r (r.pc + 1)))
    ∧ (s.uopUp 0x03 n r u = true → exec (.LOOP n) s = .next (s.goto n (r.put u.d (v.sel r u.a + bitsOf u.imm 15 0)) (r.pc + 1)))
    ∧ (∀ c, c = (v.sel r u.d + 2 ^ 32 - 1) % 2 ^ 32 → s.uopUp 0x04 n r u = true →
        exec (.ENDL n) s = .next (s.goto n (r.put u.d c) (if c ≠ 0 then bitsOf u.imm 8 0 else r.pc + 1)))
    ∧ (s.uopUp 0x05 n r u = true → exec (.BZ n) s = .next (s.goto n r (if v.sel r u.a = 0 then bitsOf u.imm 8 0 else r.pc + 1)))
    ∧ (s.uopUp 0x06 n r u = true → exec (.BNZ n) s = .next (s.goto n r (if v.sel r u.a ≠ 0 then bitsOf u.imm 8 0 else r.pc + 1)))
    ∧ (s.uopUp 0x07 n r u = true → exec (.JMP n) s = .next (s.goto n r (bitsOf u.imm 8 0)))
    ∧ (s.uopUp 0x02 n r u = true → exec (.HALT n) s = .next (s.endRun n (bitsOf u.imm 7 0) (bitsOf u.imm 23 8)))
    ∧ (∀ r', s.uopUp 0x01 n r u = true → ((s.yieldAt n).1.nbu n).run = some r' →
        exec (.YIELD n) s = .next ((s.yieldAt n).1.goto n r' (r'.pc + 1)))

/-- When the legal micro-operation at the PC of the program running on an NBU is one of these and its SRAM range lies in the program's region: WPOP takes the oldest work descriptor into SRAM and writes 1 to D, or writes 0 when the closed queue is empty; RDC gives N columns of the pair, and LDS N SRAM lines, to the read engine, none of the columns the FIFO takes being damaged; WRC writes N SRAM lines over N columns of the pair, by byte, where the enables D are set; a column written whole is marked damaged no longer; STS stores the next N latch columns; QLD copies N lines of an input-buffer entry into SRAM; EMIT sends N SRAM lines to the base die with A as the routing word. Addresses taken down to their alignment are the model's choice (log entry 46). -/
def Obligations.ColumnMicroOpsComplete : Prop :=
  ∀ (n : Nat) (s : State) (r : Run) (u : Uop) (v : Nbu) (bg : Bool), v = s.nbu n → bg = r.launch.bg →
    (∀ (a : Nat) (d : Bytes) (rest : List Bytes), s.uopUp 0x08 n r u = true → a = alignDown (bitsOf u.imm 13 0) 8 → v.work = d :: rest →
      inRegion bg a 32 = true →
      exec (.WPOP n) s = .next ((s.setNbu n ({ v with work := rest }.wr bg a (slice d 0 32))).goto n (r.put u.d 1) (r.pc + 1)))
    ∧ (s.uopUp 0x08 n r u = true → v.work = [] → v.closed = true → exec (.WPOP n) s = .next (s.goto n (r.put u.d 0) (r.pc + 1)))
    ∧ (∀ (todo : List (Nat × Option Bytes)) (l : List Bytes) (t : List (Nat × Option Bytes)), s.uopUp 0x20 n r u = true →
      todo = (List.range u.n).map (fun i => ((v.sel r u.a + bitsOf u.imm 20 0 + i) % 2 ^ 21, none)) →
      s.bring n (32 - v.latch.length) (v.toRead ++ todo) v.latch = (l, t, none) →
      exec (.RDC n) s = .next ((s.setNbu n { v with latch := l, toRead := t }).goto n r (r.pc + 1)))
    ∧ (∀ (b : Nat), s.uopUp 0x21 n r u = true → b = alignDown (v.sel r u.b) 64 → inRegion bg b (64 * u.n) = true →
      ∃ (cols : List (Nat × Bytes)) (t : State),
        cols = (List.range u.n).map (fun i => (colAddr n (v.sel r u.a + bitsOf u.imm 20 0 + i), v.rd bg (b + 64 * i) 64)) ∧
        t = { s with hbm := writeCols s.hbm (v.sel r u.d) cols } ∧
        exec (.WRC n) s = .next ((if v.sel r u.d % 2 ^ 64 = 2 ^ 64 - 1 then cols.foldl (fun t c => t.clearMarks c.1 64) t else t).goto n r (r.pc + 1)))
    ∧ (∀ (a : Nat) (l : List Bytes) (t : List (Nat × Option Bytes)), s.uopUp 0x22 n r u = true →
      a = alignDown (v.sel r u.a + bitsOf u.imm 13 0) 64 → inRegion bg a (64 * u.n) = true →
      s.bring n (32 - v.latch.length)
        (v.toRead ++ (List.range u.n).map (fun i => (0, some (v.rd bg (a + 64 * i) 64)))) v.latch = (l, t, none) →
      exec (.LDS n) s = .next ((s.setNbu n { v with latch := l, toRead := t }).goto n r (r.pc + 1)))
    ∧ (∀ (a : Nat) (cols : List Bytes) (w : Nbu), s.uopUp 0x23 n r u = true → a = alignDown (v.sel r u.a + bitsOf u.imm 13 0) 64 →
      inRegion bg a (64 * u.n) = true → s.takeCols n u.n = some (.inl (cols, w)) →
      exec (.STS n) s = .next ((s.setNbu n (w.wr bg a cols.flatten)).goto n r (r.pc + 1)))
    ∧ (∀ (a : Nat), s.uopUp 0x24 n r u = true → a = alignDown (bitsOf u.imm 13 0) 64 → inRegion bg a (64 * u.n) = true →
      exec (.QLD n) s = .next ((s.setNbu n (v.wr bg a (slice ((tGet (s.stack (n / 512)).input (v.sel r u.a)).getD [])
        (64 * v.sel r u.b) (64 * u.n)))).goto n r (r.pc + 1)))
    ∧ (∀ (a : Nat), s.uopUp 0x25 n r u = true → a = alignDown (bitsOf u.imm 13 0) 64 → inRegion bg a (64 * u.n) = true →
      exec (.EMIT n) s = .next ((s.updStack (n / 512) (fun k => { k with inbox := k.inbox ++
        [{ kind := if r.launch.slot = 0 then 0 else if r.launch.slot = 4 then 1 else 2, route := v.sel r u.a,
           body := v.rd bg a (64 * u.n) }] })).goto n r (r.pc + 1)))

/-- When the legal micro-operation at the PC of the program running on an NBU is one of these, its SRAM ranges lie in the program's region and, for a column consumer, its columns are there and unpack, it makes its one change to SRAM and goes on: UNP configures the unpacker; DOT and HMV add the products of elements and FP8 vectors to scores or logits; SMX leaves probabilities, m and l; AXV adds probabilities times elements to outputs; DEC stores the elements as FP32; ENC stores the encoded group and leaves scale, error and sums in its registers; CBE adds the error of each codebook; DST accumulates, and writes the distance where it is final; TOPK offers its candidate to the heap and writes to D whether it is full. The places of scores, state, heap and accumulators in SRAM are the model's choice (log entry 46), the order of FP32 accumulation a free value. -/
def Obligations.ComputingMicroOpsComplete : Prop :=
  ∀ (n : Nat) (s : State) (r : Run) (u : Uop) (v w : Nbu) (bg : Bool) (up : Unp) (gs : List (Nat × Nat × Nat × List Nat)) (a b : Nat),
    v = s.nbu n → bg = r.launch.bg → a = v.sel r u.a → b = v.sel r u.b →
    (s.uopUp 0x30 n r u = true → exec (.UNP n) s = .next (s.goto n
        { r with unp := { format := u.mod, base := v.sel r u.d, scale := a, first := b, group := b, book := bitsOf u.imm 3 0,
                            g := bitsOf u.imm 7 4 + 1, p := bitsOf u.imm 13 8, esc := u.imm.testBit 14, rest := [] } } (r.pc + 1)))
    ∧ (s.uopUp 0x31 n r u = true → inRegion bg a ((u.mod % 8 + 1) * (32 * r.unp.g)) = true → inRegion bg b (256 * (u.mod % 8 + 1)) = true →
      s.unpacked n r u w gs up →
      exec (.DOT n) s = .next ((s.setNbu n (w.accum bg (vectorSums w bg a (u.mod % 8 + 1) (32 * r.unp.g)
        (fun k t => b + 256 * k + 4 * t) gs))).goto n { r with unp := up } (r.pc + 1)))
    ∧ (s.uopUp 0x32 n r u = true → inRegion bg a 2112 = true →
      exec (.SMX n) s = .next ((s.setNbu n ((List.range (u.mod % 8 + 1)).foldl (smxOne bg a (min 64 b) (v.sel r u.d) u.imm) v)).goto n
        { r with queries := u.mod % 8 + 1 } (r.pc + 1)))
    ∧ (s.uopUp 0x33 n r u = true → inRegion bg a (2112 + 4 * (32 * r.unp.g) * r.queries) = true → s.unpacked n r u w gs up →
      exec (.AXV n) s = .next ((s.setNbu n (w.accum bg (outputSums w bg a r.queries (32 * r.unp.g) gs))).goto n
        { r with unp := up } (r.pc + 1)))
    ∧ (∀ c : Bytes, s.uopUp 0x34 n r u = true → s.unpacked n r u w gs up → c = gs.flatMap (fun g => g.2.2.2.flatMap (leBytes 4)) →
      inRegion bg a c.length = true →
      exec (.DEC n) s = .next ((s.setNbu n (w.wr bg a c)).goto n { r with unp := up } (r.pc + 1)))
    ∧ (∀ e, s.uopUp 0x35 n r u = true → inRegion bg a 128 = true → inRegion bg b (groupBytes u.mod) = true →
      e = encGroup u.mod (bitsOf u.imm 3 0) (v.words32 bg a) →
      exec (.ENC n) s = .next ((s.setNbu n (v.wr bg b
          (packBits (if u.mod = 0 then 4 else if u.mod = 1 then 8 else 3) e.2))).goto n
        (encRegs v r u.d e.1 ((v.words32 bg a).map wordFx) (decGroup u.mod (bitsOf u.imm 3 0) e)) (r.pc + 1)))
    ∧ (s.uopUp 0x36 n r u = true → inRegion bg a 128 = true → inRegion bg b 64 = true →
      exec (.CBE n) s = .next ((s.setNbu n (v.accum bg (bookSums b ((v.words32 bg a).map wordFx)))).goto n r (r.pc + 1)))
    ∧ (∀ l, s.uopUp 0x37 n r u = true → inRegion bg b 12 = true → s.unpacked n r u w gs up → l = (if r.unp.format = 4 then 64 else 32) →
      (∀ g ∈ gs, inRegion bg (a + l * g.2.2.1) l = true) →
      exec (.DST n) s = .next ((s.setNbu n (dstOne w bg a b (u.mod % 4) (r.unp.format == 4) (u.mod.testBit 2) gs)).goto n
        { r with unp := up } (r.pc + 1)))
    ∧ (∀ h w', s.uopUp 0x38 n r u = true → h = alignDown (bitsOf u.imm 13 0) 8 → inRegion bg h 4104 = true →
      w' = topkOne v bg h a (b % 2 ^ 32) (v.sel r 15 % 2 ^ 32) →
      exec (.TOPK n) s = .next ((s.setNbu n w').goto n (r.put u.d (if w'.rdW bg h ≥ 512 then 1 else 0)) (r.pc + 1)))
    ∧ (s.uopUp 0x39 n r u = true → inRegion bg a ((u.mod % 8 + 1) * (32 * r.unp.g)) = true → s.unpacked n r u w gs up →
      (∀ t ∈ slotsIn gs, inRegion bg (b + 32 * t) 32 = true) →
      exec (.HMV n) s = .next ((s.setNbu n (w.accum bg (vectorSums w bg a (u.mod % 8 + 1) (32 * r.unp.g)
        (fun k t => b + 4 * (8 * t + k)) gs))).goto n { r with unp := up } (r.pc + 1)))

/-- For a program running on an NBU, its page IDs in the NBU's pair and no line it reads damaged: ATTN, its queue closed, sends a partial record for every page and KV head its descriptors name, AUX the pages. APPEND to a tail page whose FILL is t writes the token: in MXFP4 while its escapes still fit, AUX the new ESC_COUNT; in MXFP8 to a wide page; by a promotion to a wide page, GEN raised, where they do not fit; it writes nothing when FILL is t + 1 already, and goes on with a promotion its progress word says was cut short. AGE writes the Y3 page into the staging slot with its GEN raised, AUX the page error, or, the page not admissible, ends with code 1. DIST_SCAN, its queue closed, sends heap records of the vectors found, AUX the tombstones skipped; HEAD sends one logit record per row; COPY writes the page or its first k tokens with the destination's GEN raised. Each but the AGE refused ends with code 0. Running a program as one command and the layouts of its records in the input buffer are the model's choice (log entry 48). -/
def Obligations.StandardProgramsComplete : Prop :=
  ∀ (n : Nat) (s : State) (p : Profile) (r : Run) (v : Nbu) (input : List (Nat × Bytes)), v = s.nbu n → input = (s.stack (n / 512)).input →
    (s.programUp 0 n p r → v.closed = true → 1 ≤ r.param 1 % 16 → r.param 1 % 16 ≤ 8 → (∀ d ∈ v.work, descOk p n d = true) →
      s.anyHurt (v.work.flatMap (s.descReads p)) = false →
      exec (.ATTN n) s = .next (((s.updNbu n (fun v => { v with work := [] })).updStack (n / 512) (fun k => { k with
        inbox := k.inbox ++ v.work.flatMap (s.descRecs p (r.param 1 % 16) (r.param 0 % 2 ^ 32) input) })).endRun n 0 v.work.length))
    ∧ (∀ (page second t e named fill word : Nat) (a : AppendRec) (wide grows cut : Bool) (w b1 b2 img : Bytes), s.programUp 1 n p r →
      page = r.param 0 % 2 ^ 40 → t = r.param 1 % 64 → e = bitsOf (r.param 1) 23 8 → second = r.param 2 % 2 ^ 40 →
      a = appendRec (2 * p.kvHeads * p.G) ((tGet input (r.param 3 % 65536)).getD []) →
      wide = (match s.refOf page with | some q => q.format == 1 | none => false) →
      named = (match s.refOf page with | some q => if q.format == 1 then q.second else second | none => second) →
      grows = (!wide && decide (e + (a.cand.filter id).length > (p.lay 0).escCap)) →
      inPair n page = true → inPair n second = true → t < p.tokensPerPage → (grows = true → s.gen page < 0xFFFFFFFF) →
      s.anyHurt (s.headRead p page (b2n wide)
        ++ s.groupReads p page (b2n wide) (if grows then List.range p.N else p.slotGroups t)) = false →
      b1 = s.hbmRd (slotAddr page) 65536 → b2 = s.hbmRd (slotAddr named) 65536 → w = slice b2 (progressAt p) 16 → word = rdLe w 0 8 →
      cut = (!wide && word % 2 ^ 40 == page && bitsOf word 47 40 == t && bitsOf word 51 48 != 0 && rdLe w 8 4 == s.gen page) →
      img = (if wide then b1 ++ b2 else b1) → fill = hdGet (p.lay (b2n wide)) img Hd.FILL →
      (cut = true → ∃ (u : State) (c : Bytes × Bytes), u = (s.bumpGen page).bump F.TIER_CNT_PROMOTE_COUNT ∧
        c = promoteFrom p page second t (u.gen page) (bitsOf word 51 48) (rdLe w 12 4) a b1 b2 ∧
        exec (.APPEND n) s = .next (((u.hbmWr (slotAddr page) c.1).hbmWr (slotAddr named) c.2).endRun n 0 0))
      ∧ (cut = false → fill = t + 1 → exec (.APPEND n) s = .next (s.endRun n 0 (hdGet (p.lay (b2n wide)) img Hd.ESC_COUNT)))
      ∧ (cut = false → fill = t → wide = true → ∃ c, c = writeWide p img t a ∧
        exec (.APPEND n) s = .next (((s.hbmWr (slotAddr page) (slice c 0 65536)).hbmWr (slotAddr named) (slice c 65536 65536)).endRun n 0 0))
      ∧ (cut = false → fill = t → grows = true → ∃ (u : State) (x : Nat × Nat × Nat) (c : Bytes × Bytes),
        u = (s.bumpGen page).bump F.TIER_CNT_PROMOTE_COUNT ∧ x = saveParts p ∧
        c = promoteFrom p page second t (u.gen page) 1 0 a b1 (patch b2 (saveAt p)
          (slice b1 (16 * p.N) (x.1 + x.2.1 + x.2.2) ++ progressWord page t 1 (s.gen page) 0)) ∧
        exec (.APPEND n) s = .next (((u.hbmWr (slotAddr page) c.1).hbmWr (slotAddr named) c.2).endRun n 0 0))
      ∧ (cut = false → fill = t → wide = false → grows = false → ∃ c, c = writeNarrow p b1 t e a ∧
        exec (.APPEND n) s = .next (((s.hbmWr (slotAddr page) (slice c.1 0 65536)).bumpBy F.TIER_CNT_ESCAPE_COUNT (c.2 - e)).endRun n 0 c.2)))
    ∧ (∀ (src dst : Nat) (z : Aged) (t : State) (f : Bytes → Bytes), s.programUp 2 n p r → src = r.param 0 % 2 ^ 40 → dst = r.param 1 % 2 ^ 40 → inPair n src = true →
      inPair n dst = true → s.anyHurt (s.headRead p src 0 ++ s.groupReads p src 0 (List.range p.N)) = false →
      z = agePage p (s.hbmRd (slotAddr src) 65536) (r.param 2 % 65536) (bitsOf (r.param 2) 31 16) →
      t = s.bumpGen dst → f = (fun b => hdPut (p.lay 2) (hdPut (p.lay 2) b Hd.PAGE_ID dst) Hd.GEN (t.gen dst)) →
      exec (.AGE n) s = .next (match z with
        | .page b err => (((t.hbmWr (slotAddr dst) (colPut (slice (f b) 0 0xBB20 ++ slice (f b) (p.lay 2).header 0x4D0 ++ List.replicate 16 0)
            0 (t.gen dst) (pageCode 2))).bump F.TIER_CNT_AGED_COUNT).bumpBy F.TIER_CNT_ESCAPE_COUNT
            (hdGet (p.lay 2) (f b) Hd.ESC_COUNT)).endRun n 0 err
        | .overflow => (s.bump F.TIER_CNT_AGE_REFUSED_COUNT).endRun n 1 0xFFFF
        | .error err => (s.bump F.TIER_CNT_AGE_REFUSED_COUNT).endRun n 1 err))
    ∧ (∀ fmt dist dim x, s.programUp 3 n p r → v.closed = true → fmt = r.param 0 % 16 → dist = bitsOf (r.param 0) 5 4 →
      dim = 8 * bitsOf (r.param 0) 17 6 → (fmt = 0 ∨ (3 ≤ fmt ∧ fmt ≤ 5)) → dist ≤ 2 →
      (∀ d ∈ v.work, inPair n (rdLe d 0 8 % 2 ^ 40) = true) →
      s.anyHurt (v.work.flatMap (s.blockReads (r.param 1) (r.param 2))) = false →
      x = v.work.map (s.scanBlock fmt dist dim (r.param 1) (r.param 2) (v.cmdReg 15 % 2 ^ 32)
        (queryWords fmt dim ((tGet input (r.param 3 % 65536)).getD []))) →
      exec (.DIST_SCAN n) s = .next (((s.updNbu n (fun v => { v with work := [] })).updStack (n / 512) (fun k => { k with
        inbox := k.inbox ++ heapRecs ((v.work.map (fun d => rdLe d 0x10 4)).zip (x.map (·.1))) })).endRun n 0 (x.map (·.2)).sum))
    ∧ (∀ slot count vectors parts dims recs, s.programUp 4 n p r → slot = r.param 0 % 2 ^ 40 → count = bitsOf (r.param 1) 55 32 →
      inPair n slot = true → 32 ≤ p.hidden → s.hurtAt (slotAddr slot) (17 * count) = false → vectors = r.param 2 % 8 + 1 →
      parts = max 1 (r.param 4 % 256) → dims = p.hidden / parts →
      recs = headRecs p (s.hbmRd (slotAddr slot) (17 * count)) (r.param 1 % 2 ^ 32) count parts vectors
        ((List.range vectors).map fun k => (List.range parts).flatMap fun c =>
          slice ((tGet input (r.param 3 % 65536 + c)).getD []) (k * dims) dims) →
      exec (.HEAD n) s = .next ((s.updStack (n / 512) (fun k => { k with inbox := k.inbox ++ recs })).endRun n 0 recs.length))
    ∧ (∀ (src dst second k z : Nat) (q : PageRef) (img b : Bytes) (c : Bytes × Nat) (t : State), s.programUp 5 n p r →
      src = r.param 0 % 2 ^ 40 → dst = r.param 1 % 2 ^ 40 → second = r.param 2 % 2 ^ 40 → k = bitsOf (r.param 2) 45 40 →
      s.refOf src = some q → q.format ≤ 2 → inPair n src = true → inPair n dst = true → img = s.imageAt src q.format →
      c = copyPage p q.format img k → (c.2 = 1 → inPair n second = true) → s.anyHurt (s.copyReads p src q.format k) = false →
      t = (if c.2 = 1 then (s.bumpGen dst).bumpGen second else s.bumpGen dst) → z = (if c.2 = 1 then second else 0) →
      b = colPut (hdPut (p.lay c.2) (hdPut (p.lay c.2) (hdPut (p.lay c.2) c.1 Hd.PAGE_ID dst) Hd.SECOND z) Hd.GEN (t.gen dst)) 0
        (t.gen dst) (pageCode c.2) →
      exec (.COPY n) s = .next ((t.putImage { layer := 0, index := 0, slot := dst, second := z, format := c.2, fill := 0 } b).endRun n 0
        (if p.tokensPerPage ≤ k then hdGet (p.lay c.2) b Hd.ESC_COUNT else if q.format = 2 then 0 else copyKept p q.format img k)))

/-- For an enabled NBU: a launch completes whatever is written with it, and one with room in its queue, no more written, joins it with a copy of the parameters written before it and with its work descriptors; an idle NBU, its stack not retrained, no reload running and launches not withheld, with no suspended program starts the oldest foreground launch, else, BG_EN set, the oldest background one; the issuer takes the oldest completion, and one of code 0 that is no APPEND changes nothing else; codes 4 and 6 launch the work again; the first or second code 2 within 1 s resets the unit and launches the work again. An ordinary access acts at once while no program runs and its stack is not retrained, and waits otherwise; a refresh due while a program runs adds one to its bank's debt up to 4; a forced yield acts as a yield; a unit reset with its check passed ends what was there with code 4. Carrying what the issuer wrote before CMD0 as operands is the model's choice (log entry 48), and so is where accesses wait. -/
def Obligations.NbuLaunchesRunAndComplete : Prop :=
  ∀ (n : Nat) (s : State), s.nbuOn n = true →
    (∀ (params : List (Nat × Word)) (work : List Bytes) (closed : Bool) (input : List (Nat × Bytes)) (expect : List (Nat × List Nat × Nat))
      (value : Word), ∃ t, exec (.NBU_LAUNCH n params work closed input expect value) s = .next t)
    ∧ (∀ (work : List Bytes) (value : Word) (l : Launch), l.slot = value.toNat % 8 → l.bg = value.toNat.testBit 8 →
      l.tag = bitsOf value.toNat 47 16 →
      l.params = (List.range 13).map (fun i => (s.nbu n).cmdReg ((if l.bg then 16 else 3) + i)) → l.work = work →
      (if l.bg then (s.nbu n).bg else (s.nbu n).fg).length < 4 → s.flag (F.NBU_PROG_VALID.at (8 * l.slot)) = true →
      ∃ t, exec (.NBU_LAUNCH n [] work true [] [] value) s = .next t
        ∧ (if l.bg then (t.nbu n).bg else (t.nbu n).fg) = (if l.bg then (s.nbu n).bg else (s.nbu n).fg) ++ [l])
    ∧ (∀ l rest, s.reloading = false → s.retraining 2 (n / 512) = false → s.launchHeld = false →
      (s.nbu n).run = none → (s.nbu n).susp = none → (s.nbu n).fg = l :: rest →
      exec (.NBU_PROGRAM_START n) s = .next (s.startRun n l { s.nbu n with fg := rest }))
    ∧ (∀ l rest, s.reloading = false → s.retraining 2 (n / 512) = false → s.launchHeld = false →
      (s.nbu n).run = none → (s.nbu n).susp = none → (s.nbu n).fg = [] → (s.nbu n).bg = l :: rest →
      s.flag F.NBU_CTRL_BG_EN = true →
      exec (.NBU_PROGRAM_START n) s = .next (s.startRun n l { s.nbu n with bg := rest }))
    ∧ (∀ l w rest t, (s.nbu n).done = (l, w) :: rest → t = s.updNbu n (fun v => { v with done := rest }) →
      (w / 2 ^ 56 = 0 → l.slot ≠ 1 → exec (.NBU_COMPLETION n) s = .next t)
      ∧ (w / 2 ^ 56 = 0 → l.slot = 1 → exec (.NBU_COMPLETION n) s = .next (t.nameWide n l))
      ∧ (w / 2 ^ 56 = 4 ∨ w / 2 ^ 56 = 6 → t.nbuOn n = true → exec (.NBU_COMPLETION n) s = .next (t.queueLaunch n l))
      ∧ (∀ recent t', w / 2 ^ 56 = 2 → recent = ((t.nbu n).parity.filter (fun k => decide (t.tick < k + 100000000))) ++ [t.tick] →
        recent.length < 3 → t' = t.updNbu n (fun v => { v with parity := recent }) →
        exec (.NBU_COMPLETION n) s = .next ((t'.resetNbu n).queueLaunch n l)))
    ∧ (∀ a data len, a / 2 ^ 27 = n → n < 6144 → s.stackOn (n / 512) = true →
      ((s.nbu n).run = none → s.retraining 2 (n / 512) = false → exec (.ORDINARY_ACCESS a data len) s =
        .next (s.doAccess { addr := a, data := data, len := len, since := s.tick, host := false }))
      ∧ ((s.nbu n).run.isSome = true ∨ s.retraining 2 (n / 512) = true → exec (.ORDINARY_ACCESS a data len) s = .next (s.updNbu n fun v =>
        { v with waiting := v.waiting ++ [{ addr := a, data := data, len := len, since := s.tick, host := false }] })))
    ∧ (∀ r bank d, (s.nbu n).run = some r → bank ≤ 1 → d = min 4 ((s.nbu n).debt.getD bank 0 + 1) →
      exec (.REFRESH_DUE n bank) s =
        .next ((s.setNbu n { s.nbu n with debt := (s.nbu n).debt.set bank d }).maxFld F.NBU_MAX_DEBT_MAX d))
    ∧ ((s.yieldAt n).2 = true → exec (.FORCED_YIELD n) s = .next ((s.yieldAt n).1.bump F.NBU_CNT_FYIELD_COUNT))
    ∧ exec (.NBU_UNIT_RESET n true) s = .next ((s.resetNbu n).bump F.BOOT_CNT_UNIT_COUNT)

/-- While a program runs on an NBU: a word of the operand path whose re-read succeeds is counted and the program goes on, and one whose re-reads fail ends it with code 2; a parity error of the SRAM ends it with code 2 and one of the micro-operation store with code 6; with no program running there is nothing to check. A broadcast from inside the device writes one register of every enabled NBU of the selected stacks and group; from a host it is a register access error. NBU_MAX_CLR makes the maxima 0. The merge unit folds the oldest record into its announced entry, and sends the result on when the last expected one has come; one nobody announced goes on as it is, and with no record there it does nothing. Which check fails, and how often, are operands. -/
def Obligations.NbuFaultsAndBroadcastsComplete : Prop :=
  (∀ (n tries ca : Nat) (s : State) (r : Run) (v : Nbu), (s.nbu n).run = some r → v = s.nbu n →
    (tries ≠ 0 → exec (.NBU_PARITY_ERROR n 0 tries ca) s =
      .next ((s.setNbu n { v with rereads := sat 8 (v.rereads + min tries 2) }).bump F.NBU_CNT_REREAD_COUNT))
    ∧ exec (.NBU_PARITY_ERROR n 0 0 ca) s = .next (((s.setNbu n { v with rereads := sat 8 (v.rereads + 2), cause := 1, ca := ca }).errRecord
        3 Ek.NBU_PARITY (errUnit 1 n) ca 0).endRun n 2 0)
    ∧ exec (.NBU_PARITY_ERROR n 1 tries ca) s =
      .next (((s.setNbu n { v with cause := 2 }).errRecord 3 Ek.NBU_PARITY (errUnit 1 n) ca 0).endRun n 2 0)
    ∧ (∀ place, 2 ≤ place → exec (.NBU_PARITY_ERROR n place tries ca) s =
      .next (((s.setNbu n { v with cause := 3 }).errRecord 1 Ek.NBU_STORE (errUnit 1 n) r.pc 0).endRun n 6 0)))
  ∧ (∀ (n place tries ca : Nat) (s : State), (s.nbu n).run = none → exec (.NBU_PARITY_ERROR n place tries ca) s = .next s)
  ∧ (∀ (value : Word) (s : State), exec (.NBU_BCAST_DATA true value) s = .next s.regAccErr
    ∧ exec (.NBU_BCAST_DATA false value) s = .next (((List.range 6144).filter (fun n =>
        (s.fld F.NBU_BCAST_SEL_STACK_MASK).testBit (n / 512) && s.nbuOn n && s.inGroup n (s.fld F.NBU_BCAST_SEL_GROUP))).foldl
          (fun t n => t.nbuWrite n (s.fld F.NBU_BCAST_SEL_REG) value.toNat) s))
  ∧ (∀ s : State, exec .NBU_MAX_CLR s = .next (s.setReg A.NBU_MAX 0))
  ∧ (∀ (k : Nat) (s : State), (s.stack k).inbox = [] → exec (.MERGE_RECORD k) s = .next s)
  ∧ (∀ (k : Nat) (s : State) (r : Rec) (rest : List Rec) (t : State), (s.stack k).inbox = r :: rest →
      t = s.updStack k (fun k => { k with inbox := rest }) →
      ((s.stack k).merges.find? (fun m => m.kind == r.kind && m.key == r.key) = none →
        exec (.MERGE_RECORD k) s = .next (t.emit (.record k r.kind r.body)))
      ∧ (∀ m body others, (s.stack k).merges.find? (fun m => m.kind == r.kind && m.key == r.key) = some m →
        others = (s.stack k).merges.filter (fun x => !(x.kind == r.kind && x.key == r.key)) →
        body = (if m.got = 0 then r.body else if r.kind = 0 then mergeRecs m.body r.body else addLogits m.body r.body) →
        (m.got + 1 < m.expect → exec (.MERGE_RECORD k) s = .next (t.updStack k (fun q =>
          { q with merges := others ++ [{ m with got := m.got + 1, body := body }] })))
        ∧ (m.expect ≤ m.got + 1 → exec (.MERGE_RECORD k) s = .next ((t.updStack k (fun q => { q with merges := others })).emit (.record k r.kind
            (if r.kind = 0 then patch body 0x0A (leBytes 2 (rdLe body 0x0A 2 ||| 2)) else body))))))

/-- A micro-operation of one NBU with no ordinary access waiting leaves every other NBU, every byte of HBM outside the pair of that NBU (bank-linear address divided by 2^27 is its number), the sessions, the slip table and the cellar as they were. -/
def Obligations.MicroOpsStayOnTheirUnit : Prop :=
  ∀ (n : Nat) (s t : State) (i : Instr), (s.nbu n).waiting = [] → i ∈ microOps n → exec i s = .next t →
    (∀ m, m ≠ n → t.nbu m = s.nbu m) ∧ (∀ a, a / 2 ^ 27 ≠ n → t.hbmRd a 1 = s.hbmRd a 1)
      ∧ t.sessions = s.sessions ∧ t.outst = s.outst ∧ t.slips = s.slips ∧ t.cellar = s.cellar

/-- For an exchange slip taken up while the profile p is loaded: one that fails a check of its header is answered that failure and counted; one whose rows match a message of its step already served has the stored XCHG_LAYER_REPLY sent again and is answered ALREADY_DONE; one that passes every check, no stack being retrained, is served: an XCHG_LAYER of a decode step (each row's K and V stored and attended, the reply sent) is answered OK, and so is one of a prefill chunk whose rows up to its last position have come, while one ahead of them waits; an XCHG_FINAL stores its hidden states, and with the last row's the decode step goes on to the output head, the chunk to its end. An error reply of class 0x2 to a sent message schedules its retry while retries are left, and anything worse abandons the step; a due retry sends the message again; the expiry of XCHG_TIMEOUT abandons the step. -/
def Obligations.ExchangeMessagesServe : Prop :=
  (∀ (x : Slip) (s : State) (p : Profile) (t : XStep) (id layer : Nat) (slots : List Nat) (same : Bool), s.profile = some p → id = rdLe x.payload 8 4 →
    layer = rdLe x.payload 0x0C 2 → slots = (xRows x.payload).map (fun r => rdLe r 0x0C 2) →
    same = ((xRows x.payload).all (fun r => (t.rowOf r).isSome) && x.src == .peer (p.layerStage.getD layer 0)) →
    (s.takenUp Op.XCHG_LAYER x = true → ∀ b, xHeadBad p 1 x = some b →
      exec (.XCHG_LAYER x) s = .next ((s.bump F.ME_CNT_XCHG_BAD_COUNT).finish Op.XCHG_LAYER x (Answer.st b.1 b.2)))
    ∧ (∀ v, s.takenUp Op.XCHG_LAYER x = true → xHeadBad p 1 x = none → tGet s.steps id = some t →
      t.served.find? (fun v => v.op == Op.XCHG_LAYER && v.layer == layer && v.index == rdLe x.payload 0x10 2 && v.slots == slots && same) =
        some v →
      exec (.XCHG_LAYER x) s = .next (((s.sendX id Op.XCHG_LAYER_REPLY (p.layerStage.getD layer 0) v.reply).bump
        F.ME_CNT_XCHG_DUP_COUNT).finish Op.XCHG_LAYER x (Answer.st St.ALREADY_DONE)))
    ∧ (s.takenUp Op.XCHG_LAYER x = true → xHeadBad p 1 x = none → tGet s.steps id = some t →
      t.served.find? (fun v => v.op == Op.XCHG_LAYER && v.layer == layer && v.index == rdLe x.payload 0x10 2 && v.slots == slots && same) =
        none →
      xRowsBad p t 1 layer (p.layerStage.getD layer 0) x = false → s.stackRetrains = false →
      (∀ u, t.prefill = false → s.serveDecode p t layer x = some u →
        exec (.XCHG_LAYER x) s = .next (u.finish Op.XCHG_LAYER x (Answer.ok 0)))
      ∧ (∀ (u : State) (w : XStep) (last : Nat), t.prefill = true →
        u = s.updStep id (fun t => { t with arrived := t.arrived ++ (xRows x.payload).map (fun r => (layer, rdLe r 8 4, r)) }) →
        last = ((xRows x.payload).map (fun r => rdLe r 8 4)).foldl max 0 → tGet u.steps id = some w →
        ((w.failing = true ∨ w.covered layer last = false) → exec (.XCHG_LAYER x) s =
          .next ((SlipRes.wait (u.updStep id (fun t => { t with waiting := t.waiting ++ [x] }))).close Op.XCHG_LAYER x))
        ∧ (∀ z, w.failing = false → w.covered layer last = true → u.servePrefill p id layer x = .yes z →
          exec (.XCHG_LAYER x) s = .next (((z.serveWaiting p id w.waiting.length).closeChunk p id).finish Op.XCHG_LAYER x (Answer.ok 0)))))
    ∧ (∀ u w, s.takenUp Op.XCHG_FINAL x = true → xHeadBad p 3 x = none → tGet s.steps id = some t →
      t.served.find? (fun v => v.op == Op.XCHG_FINAL && v.index == rdLe x.payload 0x10 2 && v.slots == slots
        && ((xRows x.payload).all (fun r => (t.rowOf r).isSome) && x.src == .peer p.finalStage && rdLe x.payload 0x0C 2 == 0xFFFF)) = none →
      xRowsBad p t 3 0 p.finalStage x = false → s.stackRetrains = false →
      u = s.updStep id (fun t => { t with
        served := t.served ++ [{ op := Op.XCHG_FINAL, layer := 0xFFFF, index := rdLe x.payload 0x10 2, slots := slots, reply := [], no := 0 }],
        rows := t.rows.map (fun (q : StepRow) => match (xRows x.payload).find? (fun r => rdLe r 0x0C 2 == q.slot) with
          | some r => { q with hidden := some (r.drop 32) } | none => q) }) →
      tGet u.steps id = some w →
      exec (.XCHG_FINAL x) s = .next ((if w.prefill then u.closeChunk p id else if w.rows.all (fun q => q.hidden.isSome) then
        u.finishDecode p id else u).finish Op.XCHG_FINAL x (Answer.ok 0))))
  ∧ (∀ (s : State) (id no status : Nat) (t : XStep) (m : XMsg), tGet s.steps id = some t → t.sent.find? (fun m => m.no == no) = some m →
    (statusClass status = 2 → m.retries < s.fld F.ME_XCHG_CFG_RETRIES →
      exec (.XCHG_ERROR_REPLY id no status) s = .next (s.updStep id (fun t => { t with sent := t.sent.map (fun (q : XMsg) =>
        if q.no == no then { q with due := some (s.tick + s.fld F.ME_XCHG_CFG_RETRY_US * 100) } else q) })))
    ∧ (2 ≤ statusClass status → (statusClass status = 2 → s.fld F.ME_XCHG_CFG_RETRIES ≤ m.retries) →
      exec (.XCHG_ERROR_REPLY id no status) s = .next (s.abandonStep id))
    ∧ (∀ d, m.due = some d → d ≤ s.tick →
      exec (.XCHG_RETRY id no) s = .next ((s.updStep id (fun t => { t with
        sent := t.sent.map (fun (q : XMsg) => if q.no == no then { q with due := none, retries := q.retries + 1 } else q),
        lastSent := s.tick, timeout := s.fld F.ME_XCHG_CFG_TIMEOUT_MS * 100000 })).postX id t.conf no m.op m.peer m.payload))
    ∧ (t.lastSent + t.timeout ≤ s.tick → exec (.XCHG_TIMEOUT id) s = .next (s.abandonStep id)))

/-- While a profile is loaded and steps may be formed, with fewer than DECODE_OPEN decode steps open, a decode batch opens with the rows the queue gives, room being made first for a session that found no slot, and with none no step opens; with fewer than PREFILL_OPEN open, a prefill chunk opens with the next at most PREFILL_CHUNK positions of the first prefill that may go on, a session's pending input or a revive's recomputation, or room is made for the one that found none; otherwise neither forms anything. An ME's tile ends: what its guards found nothing in passes and is counted; one that trips below BF16 is counted and re-executed at the next format of the ladder; at BF16 a MAGNITUDE or SATURATION passes, and a NONFINITE goes to another ME once and then fails its job. The first parity error of a tile re-executes it, the second unit-resets the ME. A report that is not of the enabled ME's own tile, its job and what its guards found, does nothing. A period of the ratio controller takes the sampled demand into ME_DEMAND_p while RATIO_EN is 1, and leaves ME_DEMAND_p otherwise; MAX_CLR makes ME_XCHG_MAX 0. -/
def Obligations.StepsFormAndEnginesAct : Prop :=
  (∀ (s : State) (p : Profile),
    (s.profile = none ∨ s.mayStep = false ∨ s.fld F.SCHED_BATCH_DECODE_OPEN ≤ (s.steps.filter (fun t => !t.2.prefill)).length →
      exec .BATCH_FORM s = .next s)
    ∧ (s.profile = none ∨ s.mayStep = false ∨ s.fld F.SCHED_BATCH_PREFILL_OPEN ≤ (s.steps.filter (fun t => t.2.prefill)).length →
      exec .PREFILL_CHUNK_FORM s = .next s)
    ∧ (s.profile = some p → s.mayStep = true →
      (∀ z v, (s.steps.filter (fun t => !t.2.prefill)).length < s.fld F.SCHED_BATCH_DECODE_OPEN →
        z = s.takeDecode p (s.fld F.SCHED_BATCH_MAX_BATCH) s.sched.decode [] →
        v = (match z.2.2 with | some (i, n) => z.1.makeRoom i n | none => z.1) →
        exec .BATCH_FORM s = .next (if z.2.1.isEmpty then v else (v.openStep p false z.2.1).bump F.SCHED_CNT_STEPS_COUNT))
      ∧ (∀ z, (s.steps.filter (fun t => t.2.prefill)).length < s.fld F.SCHED_BATCH_PREFILL_OPEN → z = s.pickPrefill p s.sched.prefill →
        (z.2.1 = none → z.2.2 = none → exec .PREFILL_CHUNK_FORM s = .next z.1)
        ∧ (∀ i n, z.2.1 = none → z.2.2 = some (i, n) → exec .PREFILL_CHUNK_FORM s = .next (z.1.makeRoom i n))
        ∧ (∀ (q : Queued) (f : Prefill) (e : Sess) (n left : Nat), z.2.1 = some (q, f) → e = z.1.sess q.idx →
          left = (match tGet z.1.revives q.idx with | some v => v.goal - e.kvLength | none => e.pending) → n = min left f.chunk →
          exec .PREFILL_CHUNK_FORM s = .next (({ z.1.admitStep q 6 with prefills := tPut z.1.prefills q.idx f }.openStep p true
            ((List.range n).map (fun k => z.1.stepRow q.idx (e.kvLength + k) k 0
              ((tGet z.1.revives q.idx).isNone && n == left && k + 1 == n)))).bump F.SCHED_CNT_PREFILL_COUNT)))))
  ∧ (∀ (s : State) (me kind ref cond : Nat), (132 ≤ me ∨ s.meOn me = false ∨
      ∀ tile, (s.me me).tile = some tile → kind ≠ tile.kind ∨ ref ≠ tile.ref ∨ cond ≠ tile.conds.getD (tile.fmt - tile.entry) 0) →
    exec (.ME_TILE_END me kind ref cond) s = .next s)
  ∧ (∀ (s : State) (me kind ref : Nat) (kat : Bool), (132 ≤ me ∨ s.meOn me = false ∨
      ∀ tile, (s.me me).tile = some tile → kind ≠ tile.kind ∨ ref ≠ tile.ref) → exec (.ME_PARITY_ERROR me kind ref kat) s = .next s)
  ∧ (∀ (s s1 s2 : State) (me cond : Nat) (m : Me) (tile : Tile) (f : Fld), me < 132 → s.meOn me = true → m = s.me me → m.tile = some tile →
    s1 = s.traceEv 5 (s.fld (F.ME_UNIT_POOL.at (8 * me))) (errUnit 2 me) 0 0 0 → cond = tile.conds.getD (tile.fmt - tile.entry) 0 →
    f = (if cond == 1 then F.ME_TRIP_NONFINITE else if cond == 2 then F.ME_TRIP_MAGNITUDE else F.ME_TRIP_SATURATION).at (8 * me) →
    s2 = s1.bumpSat f →
    (cond = 0 → exec (.ME_TILE_END me tile.kind tile.ref cond) s =
      .next ((((s1.setMe me { m with tile := none }).bump (F.ME_UNIT_TILES.at (8 * me))).bump F.ME_CNT_TILES_COUNT).issue))
    ∧ (cond ≠ 0 → tile.fmt < 3 → exec (.ME_TILE_END me tile.kind tile.ref cond) s =
      .next ((s2.bump F.ME_CNT_REPLAY_COUNT).setMe me { m with tile := some { tile with fmt := tile.fmt + 1 } }))
    ∧ (2 ≤ cond → 3 ≤ tile.fmt → exec (.ME_TILE_END me tile.kind tile.ref cond) s =
      .next ((((s2.setMe me { m with tile := none }).bump (F.ME_UNIT_TILES.at (8 * me))).bump F.ME_CNT_TILES_COUNT).issue))
    ∧ (cond = 1 → 3 ≤ tile.fmt → tile.second = false → exec (.ME_TILE_END me tile.kind tile.ref cond) s =
      .next (((s2.setMe me { m with tile := none }).bump F.ME_CNT_REPLAY_COUNT).requeue me { tile with second := true }))
    ∧ (∀ (first : Option StepRow) (u : State), cond = 1 → 3 ≤ tile.fmt → tile.second = true →
      first = (if tile.kind = 0 then (tGet s1.steps tile.ref).bind (fun x => x.rows.head?) else none) →
      u = (s2.setMe me { m with tile := none }).errRecord 1 Ek.ME_PARITY (errUnit 2 me) 0 ((first.map (fun r => r.acc)).getD 0) →
      (first = none → exec (.ME_TILE_END me tile.kind tile.ref cond) s = .next (if tile.kind = 2 then u.searchFailed tile.ref else u).issue)
      ∧ (∀ r x, first = some r → tGet u.steps tile.ref = some x →
        exec (.ME_TILE_END me tile.kind tile.ref cond) s = .next (if x.prefill then u.prefillFailed r.idx else u).issue))
    ∧ (∀ kat t, t = (s.bumpSat (F.ME_TRIP_PARITY.at (8 * me))).bump F.ME_CNT_REPLAY_COUNT →
      (tile.parity = 0 → exec (.ME_PARITY_ERROR me tile.kind tile.ref kat) s = .next (t.setMe me { m with tile := some { tile with parity := 1 } }))
      ∧ (tile.parity ≠ 0 → exec (.ME_PARITY_ERROR me tile.kind tile.ref kat) s = .next
        (((t.setMe me { m with tile := some { tile with parity := 0 } }).errRecord 3 Ek.ME_PARITY (errUnit 2 me) 0 0).resetMe me kat))))
  ∧ (∀ (s : State) (demand : List Nat),
    ∃ t, exec (.RATIO_PERIOD demand) s = .next t ∧ ((∀ d ∈ demand, d < 2 ^ 64) → ∀ p, p < 3 → t.fld (F.ME_DEMAND_ME_NS.at (8 * p)) =
      if s.flag F.ME_CTRL_RATIO_EN then demand.getD p 0 else s.fld (F.ME_DEMAND_ME_NS.at (8 * p))))
  ∧ (∀ s : State, exec .ME_MAX_CLR s = .next (s.setFld F.ME_XCHG_MAX_NS 0))

/-- For a slip that is taken up, not of an epoch ahead of the device's. TIER_SET_QUOTA with a tier of 1 to 4 sets the limit of the tenant named (which it provisions) and answers the usage. TIER_QUERY answers capacity and free count of T1 to T4 (T4's are free values: log entry 34) and RESULT2 72. TIER_LEND_HOST of an aligned range that overlaps no lent region, a region being free, lends it and answers its number. TIER_RECLAIM_HOST of a lent region marks it reclaiming, clears it, and answers when it is empty, else waits under its lock. TIER_SHELF_PUT of a new object that the holding reserve has room for keeps it and answers BODY_LEN; of an equal ALIVE it answers ALREADY_DONE. TIER_SHELF_GET answers header and body of the object held. TIER_SHELF_DROP drops what it names and answers how many. Where an object lies in the cellar is the model's choice (log entry 11). -/
def Obligations.TierSlipsComplete : Prop :=
  ∀ (x : Slip) (s : State),
    (s.tierUp Op.TIER_SET_QUOTA x = true → x.acc = 0 → badParam x [7, 0xFFFFFFFF, 0, 0, 0, 0] = none → 1 ≤ x.P0 → x.P0 ≤ 4 →
      exec (.TIER_SET_QUOTA x) s = .next ((s.setLimit x.ten x.P0 x.P1).finish Op.TIER_SET_QUOTA x (Answer.ok (s.quota x.ten x.P0).used)))
    ∧ (∀ p, s.tierUp Op.TIER_QUERY x = true → x.acc = 0 → badParam x [0, 0, 0, 0, 0xFFFFFFFF, 0xFFFFFFFF] = none → s.profile = some p →
      exec (.TIER_QUERY x) s = .next ({ s with freeCtr := s.freeCtr + 1 }.finish Op.TIER_QUERY x (Answer.ok 0 0 (structure0 0x1001
        ([4 * p.slotsOf .kv, 4 * s.freeT1, s.tierUnits 2, s.freeUnits 2, s.tierUnits 3, s.freeUnits 3, Config.poolRoom 0 s.freeCtr,
          Config.poolRoom 1 s.freeCtr].flatMap (leBytes 8))))))
    ∧ (∀ r base, s.tierUp Op.TIER_LEND_HOST x = true → x.acc = 0 → badParam x [0xFFFFFFFF, 0xFFFFFFFF, 0xFFFFFFFF, 0, 0, 0] = none →
      base = x.P0 + x.P1 * 2 ^ 32 → base % 2 ^ 21 = 0 → x.P2 ≠ 0 →
      (∀ q ∈ s.hostRegions, q.2.state ≠ 0 → q.2.base + q.2.units * 2 ^ 21 ≤ base ∨ base + x.P2 * 2 ^ 21 ≤ q.2.base) →
      tFree s.hostRegions 1 16 0 = some r →
      ∃ t, t = s.shiftT3 (s.regionFirst r) (x.P2 * 128) 0 ∧
        exec (.TIER_LEND_HOST x) s = .next (({ t with
          hostRegions := tPut t.hostRegions r { state := 1, base := base, units := x.P2 } } : State).finish Op.TIER_LEND_HOST x (Answer.ok r)))
    ∧ (∀ r t, s.tierUp Op.TIER_RECLAIM_HOST x = true → x.acc = 0 → badParam x [15, 0, 0, 0, 0, 0] = none → tGet s.hostRegions x.P0 = some r →
      s.lockBusy Ac.HOST_RECLAIM 1 3 = none →
      t = ({ s with hostRegions := tPut s.hostRegions x.P0 { r with state := 2 } } : State).clearRegion x.P0 →
      (t.regionUse x.P0 = [] → exec (.TIER_RECLAIM_HOST x) s = .next (t.reclaimCheck.finish Op.TIER_RECLAIM_HOST x Answer.ok))
      ∧ (t.regionUse x.P0 ≠ [] → exec (.TIER_RECLAIM_HOST x) s = .next ((t.takeLock (some x.src) Ac.HOST_RECLAIM 1 3 true true).updOutst
          x.src x.tag (fun o => { o with stage := .waiting }))))
    ∧ (∀ h n same, s.tierUp Op.TIER_SHELF_PUT x = true → badParam x [0xFF, 0xFFFFFFFF, 0xFFFFFFFF, 0, 0, 0] = none →
      badStruct 0x1010 40 x.payload = none → h = x.payload.drop 8 → n = rdLe h 0x14 4 →
      same = s.shelf.filter (fun o => !o.own && o.accession == x.acc && o.kind == x.P0 && o.number == x.P1) →
      x.acc ≠ 0 → 1 ≤ x.P0 → x.P0 ≤ 5 → 40 + n ≤ rdLe x.payload 4 4 → slice h 0 9 = slice (objHeader x.acc x.P0 x.ten x.P1 x.P2 n) 0 9 →
      slice h 10 14 = slice (objHeader x.acc x.P0 x.ten x.P1 x.P2 n) 10 14 →
      (same.any (fun o => o.alive == x.P2) = true →
        exec (.TIER_SHELF_PUT x) s = .next (s.finish Op.TIER_SHELF_PUT x (Answer.mk' St.ALREADY_DONE 0 0 n)))
      ∧ (∀ u, same.any (fun o => o.alive == x.P2) = false → (same.map (fun o => o.alive)).foldl max 0 ≤ x.P2 →
        s.pickUnits 2 (bodyQuarters n) = some u → s.holdUsed + bodyQuarters n ≤ s.fld F.TIER_HOLD_CAP →
        ∃ t, t = s.guardRun 2 u (bodyQuarters n) ∧ exec (.TIER_SHELF_PUT x) s = .next (({ t with shelf := s.shelf ++
          [{ accession := x.acc, kind := x.P0, number := x.P1, alive := x.P2, tenant := x.ten, body := (h.drop 32).take n, tier := 2,
             own := false, second := false, unit := u }] } : State).finish Op.TIER_SHELF_PUT x (Answer.ok 0 n))))
    ∧ (∀ o same, s.tierUp Op.TIER_SHELF_GET x = true → badParam x [0xFF, 0xFFFFFFFF, 0xFFFFFFFF, 0, 0xFFFFFFFF, 0xFFFFFFFF] = none →
      same = s.shelf.filter (fun o => o.accession == x.acc && o.kind == x.P0 && o.number == x.P1) →
      same.find? (fun o => o.alive == (if x.P2 == 0 then (same.map (fun o => o.alive)).foldl max 0 else x.P2)) = some o →
      s.unitsHurt o.tier o.unit o.body.length = false →
      exec (.TIER_SHELF_GET x) s = .next (s.finish Op.TIER_SHELF_GET x (Answer.ok 0 0
        (objHeader o.accession o.kind o.tenant o.number o.alive o.body.length ++ o.body))))
    ∧ (∀ go, s.tierUp Op.TIER_SHELF_DROP x = true → badParam x [0xFF, 0xFFFFFFFF, 0xFFFFFFFF, 0, 0, 0] = none →
      (∀ o : ShelfObj, go o = (!o.own && o.accession == x.acc && (x.P0 == 0 || o.kind == x.P0) &&
        (x.P1 == 0xFFFFFFFF || o.number == x.P1) && (x.P2 == 0xFFFFFFFF || o.alive < x.P2))) → s.shelf.filter go ≠ [] →
      exec (.TIER_SHELF_DROP x) s = .next (({ s with shelf := s.shelf.filter (fun o => !go o) } : State).finish Op.TIER_SHELF_DROP x
        (Answer.ok (s.shelf.filter go).length)))

/-- For a session at entry i whose DEADLINE has come, no barrier being taken: in ACCESSIONED it is closed; WAITING with DOWN_EN set and nothing to bar it, whose park the quota takes, a generation is begun for its park; PARKED, DOWN_EN set, it goes down its path; TRANSCRIPT_ONLY, no holder of it being replaced, it is closed; CLOSED it becomes FREE. Each but the last is counted. A commit period begins a generation of every hot session of the partition that has something uncopied and fits its quota. The copies of a pre-empted session being down, its pages in T1 are dropped. At the high watermark the PREEMPTED session of the earliest ENTERED is revived from its copies, and before it, at any watermark, one whose copies keep a region being reclaimed from being emptied. A reclaim not done within 10 s is answered BUSY. What is done while a restore, fence or revive stands in the way is the model's reading (log entries 22, 24). -/
def Obligations.ExpiriesComplete : Prop :=
  (∀ (acc i : Nat) (e : Sess) (s : State), s.findSess acc = some (i, e) →
    (s.due e = true → s.textOpen i = false → s.barring = false → e.state = Ss.ACCESSIONED →
      exec (.EXPIRY_TTL_WAIT acc) s = .next ((s.closeSess i).bump F.SESS_CNT_EXPIRE_COUNT))
    ∧ (∀ u, s.due e = true → s.textOpen i = false → s.barring = false → e.state = Ss.WAITING → s.flag F.TIER_CTRL_DOWN_EN = true →
      s.parkBarred i = false → s.fenced = false → (s.abandonCommit i).parkFirst i 1 = (u, none) →
      exec (.EXPIRY_TTL_WAIT acc) s = .next (u.bump F.SESS_CNT_EXPIRE_COUNT))
    ∧ (e.state = Ss.PARKED → s.due e = true → s.barring = false → s.flag F.TIER_CTRL_DOWN_EN = true → s.fenced = false →
      tGet s.commits i = none → tGet s.revives i = none →
      exec (.EXPIRY_TIER acc) s = .next ((s.beginDown i).bump F.SESS_CNT_EXPIRE_COUNT))
    ∧ (e.state = Ss.TRANSCRIPT_ONLY → s.due e = true → s.barring = false → tGet s.commits i = none → tGet s.revives i = none →
      exec (.EXPIRY_TRANSCRIPT acc) s = .next (((s.closeSess i).reclaimCheck).bump F.SESS_CNT_EXPIRE_COUNT))
    ∧ (e.state = Ss.CLOSED → s.due e = true → s.barring = false → exec (.CLOSED_HOLD_EXPIRY acc) s = .next (s.freeSess i))
    ∧ (e.state = Ss.PREEMPTED → e.pages ≠ [] → exec (.PREEMPT_COPY_DONE acc) s =
      .next ((s.dropPages i).updSess i (fun e => { e with tier := ((e.down.map (·.tier)).head?).getD e.holderTier1 }))))
  ∧ (∀ (s : State) (p : Profile) (part : Nat) (hot : List (Nat × Sess)), s.profile = some p → s.flag F.TIER_CTRL_RIPEN_EN = true →
    s.fenced = false → hot = s.sessions.filter (fun q => s.home q.1 == part && !q.2.away
        && (q.2.state == Ss.PREFILL || q.2.state == Ss.DECODE || q.2.state == Ss.WAITING || q.2.state == Ss.RING_FULL)
        && (tGet s.commits q.1).isNone && s.uncopied p q.2) →
    exec (.COMMIT_PERIOD part) s = .next (hot.foldl (fun s q => match p.parkPath.head? with
      | none => s
      | some t => if (s.tryCommit q.1 0 t false).2.isSome then s.bump F.TIER_CNT_QUOTA_WAIT_COUNT else (s.tryCommit q.1 0 t false).1) s))
  ∧ (∀ (s u : State) (i n : Nat) (e : Sess) (objs : List (Nat × Nat)) (r : Revive) (all ahead l : List (Nat × Sess)) (a : Nat × Sess),
    s.barring = false → all = s.sessions.filter (fun q => s.readmissible q.2) → ahead = all.filter (fun q => s.stranded q.2) →
    (s.fld F.TIER_WMARK_HIGH ≤ s.freeT1 ∨ ahead ≠ []) → (if ahead.isEmpty then all else ahead) = a :: l →
    (i, e) = l.foldl (fun x y => if y.2.entered < x.2.entered then y else x) a → readmitObjects e = (objs, n) → n ≤ s.freeT1 →
    s.quotaFits e.tenant 1 (4 * n) = true →
    r = { Revive.start 2 e.kvLength s.devId with asked := [], head := e.manifest, stage := 2, readmit := true, lostPos := none } →
    ({ s with revives := tPut s.revives i r } : State).reserveFor i n = some u →
    exec .READMIT s = .next ((objs.foldl (fun s o => s.askAll i s.devId [o]) (u.updSess i (fun e => { e with
      reviveFrom := Ss.PREEMPTED, reviveDeadline := 0, reviveNote := 0, reviveTokens := 0, state := Ss.REVIVING,
      entered := u.tick, deadline := 0 }))).reviveNext i))
  ∧ (∀ (s t : State) (region : Nat) (w : List Outst), t = s.reclaimCheck →
    w = t.slips.filter (fun o => o.op == Op.TIER_RECLAIM_HOST && o.slip.P0 == region && o.stage == .waiting) →
    exec (.HOST_RECLAIM_TIMEOUT region) s = .next (w.foldl (fun s o => s.finish Op.TIER_RECLAIM_HOST o.slip (Answer.st St.BUSY
      (((t.regionUse region).map (fun u => cdiv u.2 4)).foldl (· + ·) 0))) (t.dropLocks (fun l => l.activity == Ac.HOST_RECLAIM && l.auto))))

/-- For a session at entry i with a generation being committed: an OK answer of a holder to PUTs it was asked takes them off the unacknowledged ones, counts them and lets the next step of R190 begin; NO_SLOTS 6 is a refused charge; any other error loses the holder. A holder that has not answered in time is asked no more (what it owed is asked of the secondary) and is lost; ten seconds of NO_SLOTS 6 lose it too. A manifest head or object asked for, that verifies, is taken in; one that does not is counted as refused and asked of the secondary. TIER_QUOTA_WRITE sets the selected tenant's limit; a pool entry that is not valid is added, and a valid one retired, the sessions it holds getting a replacement. -/
def Obligations.HoldersAndPoolEventsComplete : Prop :=
  (∀ (acc i dev status detail : Nat) (objs : List (Nat × Nat)) (e : Sess) (c : Commit) (mine : List (Nat × Nat × Nat)) (s : State),
    s.findSess acc = some (i, e) → tGet s.commits i = some c →
    mine = c.unacked.filter (fun u => u.1 == dev && objs.contains (u.2.1, u.2.2)) → mine ≠ [] →
    (statusClass status ≤ 1 → exec (.HOLDER_ACK acc dev objs status detail) s = .next
      ((({ s with commits := tPut s.commits i { c with unacked := c.unacked.filter (fun u => !mine.contains u) } } : State).bumpBy
        F.TIER_CNT_SHELVED_COUNT mine.length).commitStep i))
    ∧ (status = St.NO_SLOTS → detail = 6 → exec (.HOLDER_ACK acc dev objs status detail) s = .next (s.holderFull i c))
    ∧ (2 ≤ statusClass status → (status = St.NO_SLOTS → detail ≠ 6) →
      exec (.HOLDER_ACK acc dev objs status detail) s = .next (s.holderLost dev)))
  ∧ (∀ (dev : Nat) (s : State), exec (.HOLDER_NO_SLOTS_TIMEOUT dev) s = .next (s.holderLost dev)
    ∧ (s.revives.filter (fun r => r.2.asked.any (fun a => a.2.2 == dev)) = [] →
      exec (.GET_TIMEOUT dev) s = .next ((s.holderLost dev).mirrorLost dev))
    ∧ (∀ i r a, s.revives.filter (fun r => r.2.asked.any (fun a => a.2.2 == dev)) = [(i, r)] →
      r.asked.find? (fun a => a.2.2 == dev) = some a →
      exec (.GET_TIMEOUT dev) s = .next (((s.fetchFailed i dev a.1 a.2.1).holderLost dev).mirrorLost dev)))
  ∧ (∀ (acc i dev : Nat) (obj : Option Bytes) (e : Sess) (r : Revive) (s : State), s.findSess acc = some (i, e) →
    tGet s.revives i = some r →
    (∀ b, r.stage = 0 → r.asked.contains (1, 0, dev) = true → s.reviveFetched i r dev 1 0 obj = .ok b →
      exec (.REVIVE_HEAD_ARRIVAL acc dev obj) s = .next (if r.phase = 8 then s.adoptSettle i true else s.headIn i dev b))
    ∧ (∀ k, r.stage = 0 → r.asked.contains (1, 0, dev) = true → s.reviveFetched i r dev 1 0 obj = .error k →
      exec (.REVIVE_HEAD_ARRIVAL acc dev obj) s = .next ((s.refuseObject acc 1 0 k).fetchFailed i dev 1 0))
    ∧ (∀ kind number b, r.asked.contains (kind, number, dev) = true → r.phase ≠ 6 → s.reviveFetched i r dev kind number obj = .ok b →
      exec (.SHELF_OBJECT_ARRIVAL acc dev kind number obj) s = .next (s.placeObject i dev kind number obj b))
    ∧ (∀ kind number k, r.asked.contains (kind, number, dev) = true →
      (r.phase ≠ 6 ∨ (obj.isSome = true ∧ (tGet s.commits i).isSome = true)) → s.reviveFetched i r dev kind number obj = .error k →
      exec (.SHELF_OBJECT_ARRIVAL acc dev kind number obj) s =
        .next ((s.refuseObject acc kind number k).fetchFailed i dev kind number))
    ∧ (∀ kind number, r.asked.contains (kind, number, dev) = true → r.phase = 6 →
      ((obj = none ∨ tGet s.commits i = none) → exec (.SHELF_OBJECT_ARRIVAL acc dev kind number obj) s = .next (s.fetchFailed i dev kind number))
      ∧ (∀ raw c b q t, obj = some raw → tGet s.commits i = some c → s.reviveFetched i r dev kind number obj = .ok b →
        q = c.placeOf e kind number →
        t = (s.gotObject i kind number).putObject i q.1 q.2.1 q.2.2 kind number (r.alive e kind number) (raw.drop 32) →
        ∃ u : State, u = { t with commits := tPut t.commits i { c with unacked := c.unacked ++ [(q.1, kind, number)] } } ∧
          exec (.SHELF_OBJECT_ARRIVAL acc dev kind number obj) s = .next (u.reviveNext i))))
  ∧ (∀ (tier : Nat) (value : Word) (s : State), 1 ≤ tier → tier ≤ 4 → exec (.TIER_QUOTA_WRITE tier value) s = .next (s.setLimit
      (if s.flag F.TIER_QUOTA_SEL_OPR then 0xFFFF else s.fld F.TIER_QUOTA_SEL_TENANT) tier (bitsOf value.toNat 63 32)))
  ∧ (∀ (value : Word) (s : State) (k : Nat), k = s.fld F.TIER_POOL_SEL_INDEX →
    (bitOf value.toNat 63 = true → tGet s.pool k = none → exec (.POOL_ENTRY_ADD value) s =
      .next { s with pool := tPut s.pool k { device := bitsOf value.toNat 19 0 } })
    ∧ (∀ v, bitOf value.toNat 63 = true → tGet s.pool k = some v → exec (.POOL_ENTRY_ADD value) s = .next s.regAccErr)
    ∧ (∀ v hit, bitOf value.toNat 63 = false → tGet s.pool k = some v →
      hit = s.sessions.filter (fun p => match p.2.manifest with | some m => m.holderSet.contains v.device | none => false) →
      (hit = [] → exec (.POOL_ENTRY_RETIRE value) s = .next { s with pool := tDel s.pool k })
      ∧ (hit ≠ [] → s.fenced = false → ({ s with pool := tDel s.pool k } : State).fenced = false →
        exec (.POOL_ENTRY_RETIRE value) s = .next
        ((hit.foldl (fun s p => if p.2.state == Ss.REVIVING then s.updRevive p.1 (fun r => { r with lost := (r.lost ++ [v.device]).eraseDups })
          else s.replaceHolder p.1 [v.device]) ({ s with pool := tDel s.pool k } : State)).bump F.TIER_CNT_HOLDER_LOST_COUNT))))

/-- For a slip that is taken up while the profile p is loaded and a text unit is in service. TEXT_APPEND on an ACCESSIONED or WAITING session, of a segment list without refusals, whose tokens fit, takes the segments in order, closes the context unless MORE applies, appends the tokens and answers their number and the invalid bytes. TEXT_APPEND_TOKENS appends its list. Either on a PARKED or TRANSCRIPT_ONLY session is held for a revive. TEXT_TOKENISE answers the tokens, TEXT_DETOKENISE the bytes of R212, TEXT_TRANSCRIPT_READ the entries that exist in the range and TRANSCRIPT_LENGTH. A context that has timed out is closed as by an empty final segment. A write of TEXT_SLOT_SEL copies the slot into the data registers. Which text unit counts the job is the device's choice (log entry 40). -/
def Obligations.TextSlipsComplete : Prop :=
  (∀ (x : Slip) (s : State) (i : Nat) (e : Sess) (p : Profile), s.profile = some p →
    (∀ segs firstTok lastText more f, s.sessionUp Op.TEXT_APPEND x [1, 0, 0, 0, 0, 0] i e = true → e.state = Ss.ACCESSIONED ∨ e.state = Ss.WAITING →
      segList p 0x800 x.trusted x.payload = .ok segs →
      firstTok = (match segs.head? with | some (.toks _) => true | _ => false) →
      lastText = (match segs.getLast? with | some (.text _) => true | _ => false) → more = (bitOf x.P0 0 && lastText) →
      (s.textOpen i && firstTok) = false → s.noTextUnit = false → (more = true → s.flag F.TEXT_CTRL_CTX_EN = true) →
      (more = true → s.textOpen i = true ∨ s.text.length < 8192) →
      f = (if more then id else Feed.finish p (s.fld F.TEXT_CTX_CFG_FORCE_WINDOW)) (feedSegs p (s.fld F.TEXT_CTX_CFG_FORCE_WINDOW)
        { ctx := (tGet s.text i).getD TextCtx.fresh, toks := [], invalid := 0, cuts := 0, bytes := 0 } segs) →
      s.tokensFit e f.toks.length = true →
      ∃ c t, c = { f.ctx with due := s.tick + s.fld F.TEXT_CTX_CFG_CTX_TIMEOUT * 100000 } ∧
        t = { s with text := if more then tPut s.text i c else tDel s.text i } ∧
      exec (.TEXT_APPEND x) s = .next (((t.countFeed f).appendInput i f.toks).finish
        Op.TEXT_APPEND x (if f.invalid = 0 then Answer.ok f.toks.length 0 else Answer.mk' St.INVALID_UTF8 f.invalid f.toks.length f.invalid)))
    ∧ (∀ segs, s.sessionUp Op.TEXT_APPEND x [1, 0, 0, 0, 0, 0] i e = true → e.state = Ss.PARKED ∨ e.state = Ss.TRANSCRIPT_ONLY →
      segList p 0x800 x.trusted x.payload = .ok segs → s.textOpen i = false → s.noTextUnit = false →
      (bitOf x.P0 0 = true → s.flag F.TEXT_CTRL_CTX_EN = true ∧ s.text.length < 8192) →
      exec (.TEXT_APPEND x) s = .next ((s.reviveFor i x).close Op.TEXT_APPEND x))
    ∧ (∀ ids, s.sessionUp Op.TEXT_APPEND_TOKENS x [0, 0, 0, 0, 0, 0] i e = true → tokList p 0x801 x.trusted x.payload = .ok ids → s.textOpen i = false →
      (e.state = Ss.ACCESSIONED ∨ e.state = Ss.WAITING → s.tokensFit e ids.length = true → exec (.TEXT_APPEND_TOKENS x) s =
        .next ((s.appendInput i (ids.map (fun t => (t, p.controls.contains t)))).finish Op.TEXT_APPEND_TOKENS x (Answer.ok ids.length)))
      ∧ (e.state = Ss.PARKED ∨ e.state = Ss.TRANSCRIPT_ONLY →
        exec (.TEXT_APPEND_TOKENS x) s = .next ((s.reviveFor i x).close Op.TEXT_APPEND_TOKENS x)))
    ∧ (∀ segs f, s.takenUp Op.TEXT_TOKENISE x = true → x.acc = 0 → badParam x [0, 0, 0, 0, 0xFFFFFFFF, 0xFFFFFFFF] = none →
      segList p 0x802 x.trusted x.payload = .ok segs → s.noTextUnit = false →
      f = (feedSegs p (s.fld F.TEXT_CTX_CFG_FORCE_WINDOW) { ctx := TextCtx.fresh, toks := [], invalid := 0, cuts := 0, bytes := 0 } segs).finish
        p (s.fld F.TEXT_CTX_CFG_FORCE_WINDOW) → f.invalid = 0 →
      exec (.TEXT_TOKENISE x) s = .next ((s.countFeed f).finish Op.TEXT_TOKENISE x (Answer.ok f.toks.length 0
        (structure0 0x802 (leBytes 4 f.toks.length ++ leBytes 4 0 ++ f.toks.flatMap (fun t => leBytes 4 t.1))))))
    ∧ (∀ ids, s.takenUp Op.TEXT_DETOKENISE x = true → x.acc = 0 → badParam x [0, 0, 0, 0, 0xFFFFFFFF, 0xFFFFFFFF] = none →
      tokList p 0x803 true x.payload = .ok ids → s.noTextUnit = false →
      exec (.TEXT_DETOKENISE x) s = .next ((s.jobOn A.TEXT_UNIT 47 0 16).finish Op.TEXT_DETOKENISE x (Answer.ok 0 0 (ids.flatMap p.tokenBytes))))
    ∧ (s.sessionUp Op.TEXT_TRANSCRIPT_READ x [0xFFFFFFFF, 0xFFFFFFFF, 0, 0, 0xFFFFFFFF, 0xFFFFFFFF] i e = true → 1 ≤ x.P1 → x.P1 ≤ 262144 → x.P0 < e.tlen →
      e.away = false → exec (.TEXT_TRANSCRIPT_READ x) s = .next (s.finish Op.TEXT_TRANSCRIPT_READ x
        (Answer.ok e.tlen 0 (((e.transcript.drop x.P0).take x.P1).flatMap (leBytes 4)))))
    ∧ (∀ acc c f, s.findSess acc = some (i, e) → tGet s.text i = some c → c.due ≤ s.tick →
      f = Feed.finish p (s.fld F.TEXT_CTX_CFG_FORCE_WINDOW) { ctx := c, toks := [], invalid := 0, cuts := 0, bytes := 0 } →
      exec (.CTX_TIMEOUT acc) s = .next (((({ s with text := tDel s.text i } : State).bump F.TEXT_CNT_CTX_FLUSH_COUNT).countFeed f).appendInput i
        (if (({ s with text := tDel s.text i } : State).bump F.TEXT_CNT_CTX_FLUSH_COUNT).tokensFit e f.toks.length then f.toks else []))))
  ∧ (∀ (value : Word) (s : State), exec (.TEXT_SLOT_SEL value) s = .next ((List.range 5).foldl (fun t w => t.setReg (A.TEXT_SLOT_DATA + 8 * w)
      (BitVec.ofNat 64 (rdLe (s.slotOf (bitsOf value.toNat 15 4) (bitsOf value.toNat 3 0)).sampling (8 * w) 8)))
        (s.setReg A.TEXT_SLOT_SEL (BitVec.ofNat 64 (2 ^ 63 + value.toNat % 2 ^ 16)))))

/-- For a slip that is taken up. SAMP_SET without a session, of a slot 1 to 15 and a structure whose values keep their ranges, writes the sampling structure of the tenant's slot, keeping its stop strings, and answers the slot; with a session not CLOSED and no payload it sets the session's SAMPLING. SAMP_SET_STOPS writes the stop strings and INCLUDE of the slot, keeping its sampling structure, and answers their number. GRAM_ATTACH of a grammar of the bundle, the session ACCESSIONED, WAITING, PARKED or TRANSCRIPT_ONLY with ARMED clear, attaches it; GRAM_DETACH answers the previous grammar and leaves none. -/
def Obligations.SamplingSlipsComplete : Prop :=
  ∀ (x : Slip) (s : State) (i : Nat) (e : Sess),
    (s.takenUp Op.SAMP_SET x = true → x.acc = 0 → badParam x [15, 0, 0, 0, 0, 0] = none → x.P0 ≠ 0 → badStruct 0xC00 48 x.payload = none →
      samplingOk (slice x.payload 8 40) = true →
      ∃ v, v = { s.slotOf x.ten x.P0 with sampling := slice x.payload 8 40 } ∧
      exec (.SAMP_SET x) s = .next ((s.updTenant x.ten (fun t => { t with slots := tPut t.slots x.P0 v })).finish Op.SAMP_SET x (Answer.ok x.P0)))
    ∧ (s.sessionUp Op.SAMP_SET x [15, 0, 0, 0, 0, 0] i e = true → e.state ≠ Ss.CLOSED → x.payload = [] →
      exec (.SAMP_SET x) s = .next (((s.updSess i (fun e => { e with sampling := x.P0 })).imageChanged i).finish Op.SAMP_SET x (Answer.ok x.P0)))
    ∧ (∀ stops, s.takenUp Op.SAMP_SET_STOPS x = true → x.acc = 0 → badParam x [15, 0, 0, 0, 0, 0] = none → x.P0 ≠ 0 →
      badStruct 0xC01 16 x.payload = none → stopList x.payload = some stops →
      ∃ v, v = { s.slotOf x.ten x.P0 with stops := stops, incl := bitOf (rdLe x.payload 9 1) 0 } ∧
      exec (.SAMP_SET_STOPS x) s = .next ((s.updTenant x.ten (fun t => { t with slots := tPut t.slots x.P0 v })).finish Op.SAMP_SET_STOPS x (Answer.ok stops.length)))
    ∧ (e.state = Ss.ACCESSIONED ∨ e.state = Ss.WAITING ∨ e.state = Ss.PARKED ∨ e.state = Ss.TRANSCRIPT_ONLY → e.armed = false →
      (∀ g, s.sessionUp Op.GRAM_ATTACH x [0xFFFF, 0, 0, 0, 0, 0] i e = true → s.grammarOf x.P0 = some g →
        exec (.GRAM_ATTACH x) s = .next (((s.updSess i (fun e => { e with grammar := x.P0 })).imageChanged i).finish Op.GRAM_ATTACH x (Answer.ok x.P0)))
      ∧ (s.sessionUp Op.GRAM_DETACH x [0, 0, 0, 0, 0, 0] i e = true → e.grammar ≠ 0 → exec (.GRAM_DETACH x) s =
        .next (((s.updSess i (fun e => { e with grammar := 0 })).imageChanged i).finish Op.GRAM_DETACH x (Answer.ok e.grammar))))

/-- When every ordinary piece of the vocabulary is non-empty and its ID detokenises to it, and the 256 byte tokens detokenise to their bytes, the tokens of the best path through the lattice of any normalised input, valid and invalid bytes alike, detokenise to that input byte for byte (R206: a segmentation always exists). -/
def Obligations.TokeniserKeepsEveryByte : Prop :=
  ∀ (p : Profile) (lat : List (Byte × Bool)), (∀ q ∈ p.pieces, q.bytes ≠ [] ∧ p.tokenBytes q.id = q.bytes) →
    (∀ b, b < 256 → p.tokenBytes (p.byteBase + b) = leBytes 1 b) →
    (latticeEnd p lat).flatMap p.tokenBytes = lat.map (·.1)

/-- For a slip that is taken up. SCHED_SET_TENANT with BURST 1 to 2^31, WEIGHT not 0 and a LEVEL_SET of 0 to 2 writes RATE, BURST and WEIGHT, sets LEVEL and answers it. SCHED_QUERY_TENANT answers the 56-byte structure at the LEVEL refilled to now. SCHED_SET_POLICER with a BURST not 0 writes the policer, full or empty by FILL. SCHED_SET_SHAPER of a shaper the variant has, with a BURST of at least 150, writes its configuration and sets LEVEL by FILL. The register writes of SCHED_TEN_BUDGET, SCHED_TEN_CTRL (LEVEL_SET, POL_SET), SCHED_TEN_POLICE and SCHED_SHP_CFG in range do the same for the tenant or shaper selected; out of range each is ignored and counted. -/
def Obligations.SchedulingSlipsComplete : Prop :=
  (∀ (x : Slip) (s : State), x.acc = 0 →
    (s.takenUp Op.SCHED_SET_TENANT x = true → badParam x [0xFFFFFFFF, 0xFFFFFFFF, 0x3FFFF, 0, 0, 0] = none → 1 ≤ x.P1 → x.P1 ≤ 2 ^ 31 →
      bitsOf x.P2 15 0 ≠ 0 → bitsOf x.P2 17 16 ≠ 3 → ∃ t, t = ((s.setBudget x.ten x.P0 x.P1).updTenant x.ten (fun v =>
        { v with weight := bitsOf x.P2 15 0 })).setLevel x.ten (bitsOf x.P2 17 16) ∧
      exec (.SCHED_SET_TENANT x) s = .next (t.finish Op.SCHED_SET_TENANT x (Answer.ok (twos 64 (t.level x.ten)))))
    ∧ (∀ t v, s.takenUp Op.SCHED_QUERY_TENANT x = true → badParam x [0, 0, 0, 0, 0xFFFFFFFF, 0xFFFFFFFF] = none →
      t = s.updTenant x.ten (fun v => v.refillBudget s.tick) → v = t.tenant x.ten →
      exec (.SCHED_QUERY_TENANT x) s = .next (t.finish Op.SCHED_QUERY_TENANT x (Answer.ok 0 0 (structure0 0x2401
        (leBytes 4 v.budget.rate ++ leBytes 4 v.budget.burst ++ leBytes 2 v.weight ++ leBytes 2 v.policer.burst ++ leBytes 4 v.policer.rate
          ++ leBytes 8 (twos 64 v.budget.level) ++ leBytes 8 v.finish ++ leBytes 4 (t.eligible x.ten) ++ leBytes 4 v.drops ++ leBytes 8 0)))))
    ∧ (s.takenUp Op.SCHED_SET_POLICER x = true → badParam x [0xFFFFFFFF, 0xFFFF, 1, 0, 0, 0] = none → x.P1 ≠ 0 →
      exec (.SCHED_SET_POLICER x) s = .next ((s.setPolicer x.ten x.P0 x.P1 (bitOf x.P2 0)).finish Op.SCHED_SET_POLICER x (Answer.ok 0)))
    ∧ (∀ kind index t, s.takenUp Op.SCHED_SET_SHAPER x = true → badParam x [0x0FFF0003, 0xFFFFFF, 0xFFFFFF, 0x3FF, 0, 0] = none → kind = bitsOf x.P0 1 0 →
      index = bitsOf x.P0 27 16 → index < shaperCount kind → 150 ≤ bitsOf x.P2 23 0 → (kind = 0 → index < s.portCount) →
      (kind = 1 → index / 8 < s.portCount) →
      t = s.setShaper kind index (bitsOf x.P1 23 0) (bitsOf x.P2 23 0) (bitsOf x.P3 7 0) (bitOf x.P3 9) (bitOf x.P3 8) →
      exec (.SCHED_SET_SHAPER x) s = .next (t.finish Op.SCHED_SET_SHAPER x (Answer.ok (twos 64 (t.shaperLevel kind index))))))
  ∧ (∀ (value : Word) (s : State) (v b w l p : Nat), v = value.toNat →
    (b = bitsOf v 31 0 → (1 ≤ b → b ≤ 2 ^ 31 → exec (.SCHED_TEN_BUDGET_WRITE value) s = .next (s.setBudget s.selTenant (bitsOf v 63 32) b))
      ∧ (b = 0 ∨ 2 ^ 31 < b → exec (.SCHED_TEN_BUDGET_WRITE value) s = .next s.regAccErr))
    ∧ (w = bitsOf v 31 16 → l = bitsOf v 1 0 → p = bitsOf v 3 2 → w ≠ 0 → l ≠ 3 → p ≠ 3 →
      ∃ t, t = (s.updTenant s.selTenant (fun q => { q with provisioned := true, weight := w })).setLevel s.selTenant l ∧
        ∃ u, u = (if p = 0 then t else t.setPolicer s.selTenant (t.tenant s.selTenant).policer.rate (t.tenant s.selTenant).policer.burst
          (p == 2)) ∧ exec (.LEVEL_SET value) s = .next u ∧ exec (.POL_SET value) s = .next u)
    ∧ (bitsOf v 63 48 ≠ 0 → exec (.SCHED_TEN_POLICE_WRITE value) s =
      .next (s.setPolicer s.selTenant (bitsOf v 31 0) (bitsOf v 63 48) false))
    ∧ (bitsOf v 63 48 = 0 → exec (.SCHED_TEN_POLICE_WRITE value) s = .next s.regAccErr)
    ∧ (∀ kind index, kind = s.fld F.SCHED_SHP_SEL_KIND → index = s.fld F.SCHED_SHP_SEL_INDEX → 150 ≤ bitsOf v 47 24 →
      index < shaperCount kind → (kind = 0 → index < s.portCount) → (kind = 1 → index / 8 < s.portCount) →
      exec (.SCHED_SHP_CFG_WRITE value) s = .next (s.setShaper kind index (bitsOf v 23 0) (bitsOf v 47 24) (bitsOf v 55 48)
        (bitsOf v 63 63 == 1) (bitsOf v 62 62 == 1))))

/-- RING_CONSUMED, taken up, for a ring ENABLED or in ERROR of the slip's tenant, and the SCHED_RING_CI doorbell move CI to a value between CI and PI, counting round the ring, and let a held group go; the slip answers the room. A class 0x2 error reply to a push has it sent again 20 µs later, at most three times; a worse one, or a host write that completes with error, puts the ring in ERROR. RING_ENABLE of a DISABLED ring with a valid configuration enables it with PI = CI = 0; of a ring in ERROR it enables it with CI at PI and a RESYNC record first. RING_DISABLE of a ring with no session attached disables it, and with one is ignored and counted. A vector's message held back by the gap is sent when it ends. -/
def Obligations.RingsComplete : Prop :=
  (∀ (x : Slip) (s : State) (r : Ring), s.takenUp Op.RING_CONSUMED x = true → x.acc = 0 → badParam x [0xFFFF, 0xFFFFFFFF, 0, 0, 0, 0] = none → r = s.ring x.P0 →
    r.state ≠ 0 → r.tenant = x.ten → r.ciOk x.P1 = true →
    exec (.RING_CONSUMED x) s = .next ((s.advanceCi x.P0 x.P1).finish Op.RING_CONSUMED x (Answer.ok ((s.advanceCi x.P0 x.P1).ring x.P0).room)))
  ∧ (∀ (value : Word) (s : State) (n c : Nat), n = bitsOf value.toNat 47 32 → c = bitsOf value.toNat 31 0 →
    ((s.ring n).state ≠ 0 → (s.ring n).ciOk c = true → exec (.SCHED_RING_CI value) s = .next (s.advanceCi n c))
    ∧ ((s.ring n).ciOk c = false → exec (.SCHED_RING_CI value) s = .next s.regAccErr))
  ∧ (∀ (n first : Nat) (s : State) (p : Push), (s.ring n).pushes.find? (fun p => p.first == first) = some p →
    (∀ status, statusClass status = 2 → p.retries < 3 → ∃ q, q = { s.ring n with pushes := (s.ring n).pushes.map (fun (q : Push) =>
        if q.first == first then { q with due := some (s.tick + 2000) } else q) } ∧
      exec (.RING_PUSH_ERROR_REPLY n first status) s = .next (s.setRing n q))
    ∧ (∀ status, 2 ≤ statusClass status → (statusClass status = 2 → 3 ≤ p.retries) →
      exec (.RING_PUSH_ERROR_REPLY n first status) s = .next (s.ringError n))
    ∧ (∀ d, p.due = some d → d ≤ s.tick → (s.ring n).state = 1 → ∃ q, q = { s.ring n with pushes := (s.ring n).pushes.map (fun (q : Push) =>
        if q.first == first then { q with retries := q.retries + 1, due := none } else q) } ∧
      exec (.RING_PUSH_RETRY n first) s = .next ((s.setRing n q).sendPush n first p.recs)))
  ∧ (∀ (n : Nat) (s : State), (s.ring n).network = false → exec (.HOST_RING_WRITE_ERROR n) s = .next (s.ringError n))
  ∧ (∀ (value : Word) (s : State) (n : Nat) (r c : Ring), n = s.fld F.SCHED_RING_SEL_RING → r = s.ring n → c = r.withCfg value →
    (r.state = 0 → s.ringValid c = true → s.hostReady = true → ∃ t, t = { s with sec := { s.sec with hostUsed := true } } ∧
      exec (.RING_ENABLE value) s = .next (t.setRing n { c with
        state := 1, pi := 0, ci := 0, batch := [], pushes := [], made := 0, groups := 0, discarded := 0, written := 0, conf := s.provCtr }))
    ∧ (r.state = 2 → c = r → exec (.RING_ENABLE value) s = .next (s.resync n))
    ∧ (r.state ≠ 0 → r.owner = none → c = r → exec (.RING_DISABLE value) s =
      .next (s.setRing n { r with state := 0, pushes := [], batch := [] }))
    ∧ (r.state ≠ 0 → (∃ i, r.owner = some i) → exec (.RING_DISABLE value) s = .next s.regAccErr))
  ∧ (∀ (vec t : Nat) (s : State), tGet s.ringVec vec = some t → t + s.fld F.SCHED_CTRL_IRQ_GAP_US * 100 ≤ s.tick →
    s.ringOwed.contains vec = true →
    ∃ u, u = { s with ringOwed := s.ringOwed.filter (· != vec), ringVec := tPut s.ringVec vec s.tick } ∧
      exec (.RING_IRQ_GAP_END vec) s = .next (u.sendMsix vec))

/-- HIST_CLR empties every histogram; HIST_QUEUE_CLR selects a queue and empties its bins; HWM_CLR makes SCHED_HWM_0 to 2 zero. HIST_SAMPLE counts one sample and enters the depth of every queue that holds something in its bin; it leaves the histogram of a queue that holds nothing as it was. The depths of queues 3, 4 and 7, which are empty between the model's commands, come with the command: the model's reading (log entry 87). Each does so in every state. -/
def Obligations.QueueObservationComplete : Prop :=
  (∀ s : State, exec .HIST_CLR s = .next s.clearHists ∧ (∀ q b : Nat, s.clearHists.histBin q b = 0)
    ∧ s.clearHists.histSamples = s.histSamples ∧ s.clearHists.regs = s.regs)
  ∧ (∀ s : State, ∃ t, exec .HWM_CLR s = .next t ∧ (∀ q, q < 3 → t.reg (A.SCHED_HWM + 8 * q) = 0) ∧ t.hists = s.hists)
  ∧ (∀ (value : Word) (s : State) (q : Nat), q = F.SCHED_HIST_SEL_QUEUE.get value → ∃ t, exec (.HIST_QUEUE_CLR value) s = .next t ∧
    t.fld F.SCHED_HIST_SEL_QUEUE = q ∧ (∀ b : Nat, t.histBin q b = 0) ∧ ∀ k b : Nat, k ≠ q → t.histBin k b = s.histBin k b)
  ∧ (∀ (s : State) (seen : List Nat), ∃ v t, v = s.busyQueues.foldl (fun s q => s.depthSample q (s.queueDepth q)) s ∧
    t = ([3, 4, 7].zip seen).foldl (fun (s : State) (o : Nat × Nat) => s.depthSample o.1 o.2) v ∧
    exec (.HIST_SAMPLE seen) s = .next { t with histSamples := t.histSamples + 1 } ∧ t.histSamples = s.histSamples ∧
    ∀ q, q ∉ [3, 4, 7] → (q ∉ s.busyQueues ∨ s.queueDepth q = 0) → t.hist q = s.hist q)

/-- For a vector slip taken up. VEC_CREATE of a valid shard whose ID is not held adds a FLAT shard with no record. VEC_DROP with no search waiting frees the shard's blocks and charges; with one waiting it is held and later slips find no collection. VEC_INSERT applies every entry or none and answers the records written and keys updated. VEC_DELETE tombstones the live record of each key. VEC_COMPACT of one list, or of all, rewrites each of those that holds tombstoned records and answers records removed and blocks freed; a list over COMPACT_PCT is compacted in the background. The first VEC_SET_CENTROIDS batch fixes the number of lists and takes their centroids' blocks, a later one goes on where the last ended; each writes its centroids into those blocks, and the last with FINAL makes the shard READY. -/
def Obligations.CollectionSlipsComplete : Prop :=
  (∀ (x : Slip) (s : State) (b : Bytes) (v : Shard), s.takenUp Op.VEC_CREATE x = true → x.acc = 0 → badParam x [0, 0, 0, 0, 0, 0] = none → b = x.payload →
    badStruct 0x1400 0x1C b = none → tGet s.shards (rdLe b 8 4) = none → s.shards.length < 1024 →
    v = { tenant := x.ten, dim := rdLe b 0x0C 2, format := rdLe b 0x0E 1, distance := rdLe b 0x0F 1, shard := rdLe b 0x10 2,
          map := wordsAt b 0x1C (rdLe b 0x12 2) 4, scale := rdLe b 0x14 4, bf16 := rdLe b 0x18 1 % 2 == 1, state := 0, lists := 1,
          loaded := 0, centBlocks := [], chains := [], index := [], err := 0, gone := false } →
    rdLe b 8 4 ≠ 0xFFFFFFFF → 8 ≤ v.dim → v.dim ≤ 4096 → (v.format = 0 ∧ v.dim % 32 = 0 ∨ 3 ≤ v.format ∧ v.format ≤ 5 ∧ v.dim % 8 = 0) →
    v.distance ≤ 2 → v.shard < rdLe b 0x12 2 → rdLe b 0x12 2 ≤ 256 → (v.format ≠ 5 → v.scale = 0) →
    (v.format = 5 → f32Finite v.scale = true ∧ 0 < f32Fx v.scale) →
    0x1C + 4 * rdLe b 0x12 2 ≤ rdLe b 4 4 → v.map.any badDev = false →
    exec (.VEC_CREATE x) s = .next ((s.setShard (rdLe b 8 4) v).finish Op.VEC_CREATE x (Answer.ok (rdLe b 8 4))))
  ∧ (∀ (x : Slip) (s : State) (v : Shard), s.takenUp Op.VEC_DROP x = true → x.acc = 0 → badParam x [0xFFFFFFFF, 0, 0, 0, 0, 0] = none → tGet s.shards x.P0 = some v →
    v.gone = false → v.tenant = x.ten →
    (s.searches.any (fun q => q.2.id == x.P0) = false →
      exec (.VEC_DROP x) s = .next ((s.dropShard x.P0).1.finish Op.VEC_DROP x (Answer.ok (s.dropShard x.P0).2)))
    ∧ (s.searches.any (fun q => q.2.id == x.P0) = true → ∃ g, g = { v with gone := true } ∧
      exec (.VEC_DROP x) s = .next ((SlipRes.hold ((s.setShard x.P0 g).updOutst x.src x.tag (fun o => { o with note := 3 }))
        (.vec x.P0)).close Op.VEC_DROP x)))
  ∧ (∀ (x : Slip) (s t u : State) (v : Shard) (n k : Nat) (es : List Bytes) (stored : List (Option Bytes)), s.vecUp Op.VEC_INSERT x [0xFFFFFFFF, 0, 0, 0, 0, 0] v = true →
    badStruct 0x1402 0x10 x.payload = none → n = rdLe x.payload 8 4 → 1 ≤ n → n ≤ 4096 →
    0x10 + (24 + 4 * v.dim) * n ≤ rdLe x.payload 4 4 → v.state ≠ 1 → v.state ≠ 3 →
    es = (List.range n).map (fun i => slice x.payload (0x10 + (24 + 4 * v.dim) * i) (24 + 4 * v.dim)) →
    es.any (fun e => rdLe e 0x10 4 != 0xFFFFFFFF && decide (rdLe e 0x10 4 ≥ v.lists)) = false →
    stored = es.map (fun e => vecStore v.format v.scale (wordsAt e 0x18 v.dim 4)) → stored.any Option.isNone = false →
    (v.loaded != 0 && s.vecPoolShut && es.any (fun e => rdLe e 0x10 4 == 0xFFFFFFFF)) = false →
    s.insertAll x.P0 ((es.zip stored).map (fun p =>
      (rdLe p.1 0 8, rdLe p.1 8 8, s.listFor v (rdLe p.1 0x10 4) (wordsAt p.1 0x18 v.dim 4), p.2.getD []))) = some (t, k) →
    (∀ w, tGet t.shards x.P0 = some w → w.blocks ≤ 4194304) → t.rechargeShard x.P0 v.quarters = some u →
    exec (.VEC_INSERT x) s = .next (((u.bumpBy F.VEC_CNT_INSERT_COUNT n).bumpBy F.VEC_CNT_DELETE_COUNT k).finish Op.VEC_INSERT x (Answer.ok n k)))
  ∧ (∀ (x : Slip) (s : State) (v : Shard) (n : Nat) (r : State × Nat), s.vecUp Op.VEC_DELETE x [0xFFFFFFFF, 0, 0, 0, 0, 0] v = true → badStruct 0x1403 0x10 x.payload = none →
    n = rdLe x.payload 8 4 → 0x10 + 8 * n ≤ rdLe x.payload 4 4 → v.state ≠ 1 → v.state ≠ 3 →
    r = s.deleteKeys x.P0 (wordsAt x.payload 0x10 n 8) →
    exec (.VEC_DELETE x) s = .next ((((r.1.rechargeShard x.P0 v.quarters).getD r.1).bumpBy F.VEC_CNT_DELETE_COUNT r.2).finish Op.VEC_DELETE x
      (Answer.mk' (if r.2 = 0 then St.ALREADY_DONE else St.OK) 0 r.2 (n - r.2))))
  ∧ (∀ (x : Slip) (s t : State) (v : Shard) (n f : Nat) (ls : List Nat), s.vecUp Op.VEC_COMPACT x [0xFFFFFFFF, 0xFFFFFFFF, 0, 0, 0, 0] v = true →
    (x.P1 < v.lists ∨ x.P1 = 0xFFFFFFFF) →
    ls = (if x.P1 = 0xFFFFFFFF then v.chains.map (·.1) else [x.P1]).filter (fun l => s.tombs v l != 0) → ls.isEmpty = false →
    ls.foldl (fun (a : Option (State × Nat × Nat)) (l : Nat) => match a with
      | some (s, n, f) => (s.compactList x.P0 l).map (fun r => (r.1, n + r.2.1, f + r.2.2))
      | none => none) (some (s, 0, 0)) = some (t, n, f) →
    exec (.VEC_COMPACT x) s = .next (((t.rechargeShard x.P0 v.quarters).getD t).finish Op.VEC_COMPACT x (Answer.ok n f)))
  ∧ (∀ (id list : Nat) (s : State) (v : Shard) (r : State × Nat × Nat), tGet s.shards id = some v → s.flag F.VEC_CTRL_COMPACT_EN = true →
    s.fld F.VEC_CFG_COMPACT_PCT ≠ 0 → s.fld F.VEC_CFG_COMPACT_PCT * (s.listRecords v list).length < s.tombs v list * 100 →
    s.compactList id list = some r →
    exec (.BACKGROUND_COMPACT id list) s = .next ((r.1.rechargeShard id v.quarters).getD r.1))
  ∧ (∀ (x : Slip) (s t u : State) (v w c : Shard) (n : Nat) (words : List (List Nat)),
    s.vecUp Op.VEC_SET_CENTROIDS x [0xFFFFFFFF, 0xFFFFFFFF, 1, 0xFFFFFFFF, 0, 0] v = true → badStruct 0x1406 0x10 x.payload = none →
    n = rdLe x.payload 8 4 → words = (List.range n).map (fun i => wordsAt x.payload (0x10 + 2 * v.dim * i) v.dim 2) →
    0x10 + 2 * v.dim * n ≤ rdLe x.payload 4 4 → words.any (fun w => w.any (fun z => !bf16Finite z)) = false →
    1 ≤ x.P3 → x.P3 ≤ 1048576 → x.P1 + n ≤ x.P3 →
    (v.state = 1 ∧ x.P1 = v.loaded ∧ x.P3 = v.lists ∧ t = s
      ∨ v.state ≠ 1 ∧ x.P1 = 0 ∧ (s.shardRecords v = 0 ∨ v.state = 3 ∧ x.P3 = v.lists) ∧
        ∃ r : State × List Nat, { s with vecBlocks := s.vecBlocks.filter (fun k => !v.centBlocks.contains k.1) }.takeBlocks x.P0
            (centBlocks v.bf16 v.dim x.P3) [] = some r ∧
          t = r.1.setShard x.P0 { v with state := 1, lists := x.P3, loaded := 0, centBlocks := r.2 }) →
    t.rechargeShard x.P0 v.quarters = some u → tGet u.shards x.P0 = some w →
    c = { w with loaded := x.P1 + n, state := if x.P2 == 1 && x.P1 + n == w.lists then 2 else 1 } →
    exec (.VEC_SET_CENTROIDS x) s = .next (((words.zipIdx.foldl (fun u z =>
        u.centWr w ((x.P1 + z.2) * centSize w.bf16 w.dim) (centStore w.bf16 z.1)) u).setShard x.P0 c).finish
      Op.VEC_SET_CENTROIDS x (Answer.ok n)))

/-- VEC_SEARCH, taken up with budget left and valid, on a shard that may be searched: SEARCH_COST is charged, round 1 over ranks 0 to NPROBE - 1 starts on the own shard and is asked of the others, and rounds go on while every shard asked has answered. VEC_SHARD_SEARCH, valid, answers the K nearest of its lists below the threshold sent, or MEDIA where a line of its lists is damaged. A reply of class 0x0 or 0x1 to the present round is merged in the order of R262. A reply of a worse class makes the shard unanswered: with ALLOW_PARTIAL the search goes on without it, else it ends BUSY with the shard's number. A SHARD_TIMEOUT that is due goes on without all the shards silent, with ALLOW_PARTIAL, and else ends the search BUSY with the lowest number of them. A reply nobody waits for and a timeout of no silent shard, or not due, do nothing. VEC_COL_SEL takes the snapshot of a held shard with VALID set, and of none, its registers 0, with VALID clear. -/
def Obligations.SearchesComplete : Prop :=
  (∀ (x : Slip) (s t : State) (v : Shard) (g : SearchArg) (q : Search) (req : Nat), s.takenUp Op.VEC_SEARCH x = true → 0 < s.level x.ten → x.acc = 0 →
    badParam x [0xFFFFFFFF, 0x1FFF, 0x1FFF1FFF, 3, 0xFFFFFFFF, 0xFFFFFFFF] = none →
    t = ((s.charge x.ten 2 (s.fld F.SCHED_PROFILE_SEARCH_COST)).tally x.ten 2 (s.fld F.SCHED_PROFILE_SEARCH_COST)).bump
      F.VEC_CNT_SEARCH_COUNT → t.vecShard x = .inl v →
    1 ≤ x.P1 → x.P1 ≤ 4096 → 1 ≤ bitsOf x.P2 12 0 → bitsOf x.P2 12 0 ≤ 4096 → bitsOf x.P2 28 16 ≤ 4096 →
    searchArg 0x1404 v.dim x.payload = .inl g → g.req = 0 → (convQuery v.format v.distance v.scale g.query).isSome = true →
    t.searchShut v = none → req = t.nextReq →
    q = { slip := x, id := x.P0, query := g.query, mask := g.mask, value := g.value, k := x.P1,
          maxProbe := if bitsOf x.P2 28 16 = 0 then bitsOf x.P2 12 0 else bitsOf x.P2 28 16, widen := bitOf x.P3 0,
          partialOk := bitOf x.P3 1, probed := 0, upTo := bitsOf x.P2 12 0, cands := [], skipped := 0, dropped := [], asked := [], due := 0, failing := false } →
    ∃ u, u = { t with nextReq := (req + 1) % 2 ^ 32 } ∧ exec (.VEC_SEARCH x) s = .next ((SlipRes.wait
      (State.goSearch 14 ((u.updOutst x.src x.tag (fun o => { o with stage := .waiting })).startRound req q).1 req)).close Op.VEC_SEARCH x))
  ∧ (∀ (x : Slip) (s t : State) (v : Shard) (g : SearchArg) (c : Query) (r : Round),
    s.vecUp Op.VEC_SHARD_SEARCH x [0xFFFFFFFF, 0x1FFF, 0xFFFFFFFF, 0xFFFFFFFF, 0xFFFFFFFF, 0xFFFFFFFF] v = true → 1 ≤ x.P1 → x.P1 ≤ 4096 →
    1 ≤ x.P2 / 65536 → x.P2 / 65536 ≤ 4096 → searchArg 0x1407 v.dim x.payload = .inl g → convQuery v.format v.distance v.scale g.query = some c →
    s.searchShut v = none → t = s.bump F.VEC_CNT_SHARD_RX_COUNT →
    r = t.searchShard v c g.mask g.value (x.P2 % 65536) (x.P2 / 65536) x.P1 x.P3 →
    (∀ l, r.hurt = some l → exec (.VEC_SHARD_SEARCH x) s = .next (((t.vecMedia v l).1.bump F.VEC_CNT_MEDIA_COUNT).finish
      Op.VEC_SHARD_SEARCH x (t.vecMedia v l).2))
    ∧ (r.hurt = none → exec (.VEC_SHARD_SEARCH x) s = .next ((t.bumpBy F.VEC_CNT_TOMB_SKIP_COUNT r.skipped).finish Op.VEC_SHARD_SEARCH x
      (Answer.ok (r.cands.length + x.P2 / 65536 * 2 ^ 32) 0 (searchData r.cands (x.P2 / 65536) r.skipped 1 v.map.length)))))
  ∧ (∀ (req shard : Nat) (r : Reply) (s : State), (∀ q, tGet s.searches req = some q → q.asked.contains shard = false) →
    exec (.SHARD_REPLY req shard r) s = .next s)
  ∧ (∀ (req : Nat) (s : State), (∀ q, tGet s.searches req = some q → q.asked = [] ∨ s.tick < q.due) →
    exec (.SHARD_TIMEOUT req) s = .next s)
  ∧ (∀ (req shard : Nat) (r : Reply) (s : State) (q : Search), tGet s.searches req = some q → q.asked.contains shard = true →
    (∀ a, statusClass r.status.toNat ≤ 1 → a = { q with
        cands := nearest q.k (q.cands ++ (List.range (rdLe r.data 8 4)).map (fun i => ({
          dist := rdLe (slice r.data (0x18 + 16 * i) 16) 8 4, shard := shard, order := q.probed * 2 ^ 32 + i, key := rdLe (slice r.data (0x18 + 16 * i) 16) 0 8 } : Cand))),
        skipped := q.skipped + rdLe r.data 0x10 4, asked := q.asked.filter (· != shard) } →
      ∃ t, t = { s with searches := tPut s.searches req a } ∧ exec (.SHARD_REPLY req shard r) s = .next (State.goSearch 14 t req))
    ∧ (2 ≤ statusClass r.status.toNat → q.partialOk = true → ∀ a, a = { q with
        asked := q.asked.filter (· != shard), dropped := q.dropped ++ [shard] } →
      ∃ t, t = { s.bump F.VEC_CNT_SHARD_TIMEOUT_COUNT with searches := tPut s.searches req a } ∧
        exec (.SHARD_REPLY req shard r) s = .next (State.goSearch 14 t req))
    ∧ (2 ≤ statusClass r.status.toNat → q.partialOk = false → exec (.SHARD_REPLY req shard r) s =
      .next ((s.bump F.VEC_CNT_SHARD_TIMEOUT_COUNT).endSearch req q (Answer.st St.BUSY shard))))
  ∧ (∀ (req : Nat) (s : State) (q : Search), tGet s.searches req = some q → q.due ≤ s.tick →
    (q.asked ≠ [] → q.partialOk = true → ∀ a, a = { q with dropped := q.dropped ++ q.asked, asked := [] } →
      ∃ t, t = { s.bumpBy F.VEC_CNT_SHARD_TIMEOUT_COUNT q.asked.length with searches := tPut s.searches req a } ∧
        exec (.SHARD_TIMEOUT req) s = .next (State.goSearch 14 t req))
    ∧ (∀ k, k ∈ q.asked → (∀ j ∈ q.asked, k ≤ j) → q.partialOk = false → exec (.SHARD_TIMEOUT req) s =
      .next ((s.bump F.VEC_CNT_SHARD_TIMEOUT_COUNT).endSearch req q (Answer.st St.BUSY k))))
  ∧ (∀ (value : Word) (s : State) (id : Nat), id = bitsOf value.toNat 31 0 →
    (tGet s.shards id = none → ∃ t, exec (.VEC_COL_SEL value) s = .next t ∧ t.reg A.VEC_COL_SEL = BitVec.ofNat 64 id
      ∧ t.reg A.VEC_COL_INFO = 0 ∧ t.reg (A.VEC_COL_INFO + 8) = 0 ∧ t.reg (A.VEC_COL_INFO + 16) = 0)
    ∧ (∀ v, tGet s.shards id = some v → ∃ t, exec (.VEC_COL_SEL value) s = .next t ∧ t.reg A.VEC_COL_SEL = BitVec.ofNat 64 (2 ^ 63 + id)
      ∧ t.reg A.VEC_COL_INFO = BitVec.ofNat 64 (v.state * 2 ^ 61 + v.format * 2 ^ 58 + v.distance * 2 ^ 56 + v.map.length * 2 ^ 47
        + v.shard * 2 ^ 39 + v.tenant * 2 ^ 24 + v.dim)
      ∧ t.reg (A.VEC_COL_INFO + 8) = BitVec.ofNat 64 (v.lists * 2 ^ 21 + v.loaded)
      ∧ t.reg (A.VEC_COL_INFO + 16) = BitVec.ofNat 64 (v.index.length * 2 ^ 32 + (s.shardRecords v - v.index.length))))

/-- On a context that is OPEN or DRAINING, over a sub-port that is up. A DATA packet within the lengths of R275 and its credit, of a PSN not yet received, is placed, complete messages pass on in MSG_ID order, and it is counted for the ACK; a PSN received before is acknowledged and discarded; one beyond the credit granted is dropped and counted; one that fails authentication is counted and changes nothing else. An ACK moves CUM_PSN and CREDIT_LIMIT, packets REORDER_THRESH behind go again, and what credit allows is sent. A CNP cuts the rate by a quarter once per CC_TIMER and returns the step to STEP_MIN; a quiet period climbs half way to the ceiling, or probes by the step. ACK_DELAY sends the ACK owed. RTO doubles and sends the packet again, or at RETX_MAX the context fails. -/
def Obligations.DataPacketsComplete : Prop :=
  (∀ (sub p : Nat) (ce : Bool) (k : Pkt) (s t : State), s.linkUp sub = true → k.dst = p → (s.peer p).state = 2 ∨ (s.peer p).state = 3 →
    t = (s.hear p sub true).1 →
    exec (.PRAOL_DATA sub ce false k) s = .next ((s.bump F.NET_CNT_RX_COUNT).bump F.NET_CNT_AUTH_FAIL_COUNT)
    ∧ (1 ≤ k.msgLen → k.msgLen ≤ 1048576 → k.offset + k.payload.length ≤ k.msgLen →
      ((psnBefore k.psn (t.peer p).rx.expect || (t.peer p).rx.got.contains k.psn) = true →
        exec (.PRAOL_DATA sub ce true k) s = .next ((if ce then t.noteCe p else t).countData p))
      ∧ ((psnBefore k.psn (t.peer p).rx.expect || (t.peer p).rx.got.contains k.psn) = false →
        ((t.peer p).rx.granted < (t.peer p).rx.seen + creditUnits k.payload.length →
          exec (.PRAOL_DATA sub ce true k) s = .next (t.bump F.NET_CNT_CREDIT_VIOL_COUNT))
        ∧ ((t.peer p).rx.seen + creditUnits k.payload.length ≤ (t.peer p).rx.granted →
          ∃ w u, w = (if ce then t.noteCe p else t) ∧ u = w.updPeer p (fun v => { v with rx := v.rx.place k, idle := w.tick }) ∧
            exec (.PRAOL_DATA sub ce true k) s =
              .next ((State.passMessages p ((u.peer p).rx.complete.length) u).countData p)))))
  ∧ (∀ (sub p : Nat) (s t : State), s.linkUp sub = true → (s.peer p).state = 2 ∨ (s.peer p).state = 3 → t = (s.hear p sub true).1 →
    (∀ cum limit sack, ∃ v, v = { t.peer p with tx := (t.peer p).tx.ack cum limit sack (t.fld F.NET_REL_REORDER_THRESH) (t.fld F.NET_REL_RTO_INIT) } ∧
      exec (.PRAOL_ACK p sub true cum limit sack) s =
        .next ((((t.peer p).tx.late cum sack (t.fld F.NET_REL_REORDER_THRESH)).foldl (fun s f => s.resend p f) (t.setPeer p v)).pump p))
    ∧ (∀ b x, b = t.bump F.NET_CNT_CNP_RX_COUNT → x = (b.peer p).tx →
      ((x.lastCut = none ∨ ∃ c, x.lastCut = some c ∧ b.fld F.NET_CC_CC_TIMER * 100 ≤ b.tick - c) →
        ∃ v, v = { b.peer p with tx := { x with
            ceiling := x.rate, rate := max (b.fld F.NET_CC_RATE_MIN * 256) (x.rate * 3 / 4), lastCut := some b.tick,
            step := b.fld F.NET_CC_STEP_MIN * 256, cnpSeen := true } } ∧ exec (.PRAOL_CNP p sub true) s = .next (b.setPeer p v))
      ∧ (∀ c, x.lastCut = some c → b.tick - c < b.fld F.NET_CC_CC_TIMER * 100 →
        ∃ v, v = { b.peer p with tx := { x with step := b.fld F.NET_CC_STEP_MIN * 256, cnpSeen := true } } ∧
          exec (.PRAOL_CNP p sub true) s = .next (b.setPeer p v))))
  ∧ (∀ (p : Nat) (s : State) (x : PeerTx), (s.peer p).state = 2 ∨ (s.peer p).state = 3 → x = (s.peer p).tx →
    (x.cnpSeen = true → ∃ v, v = { s.peer p with tx := { x with cnpSeen := false } } ∧ exec (.CC_PERIOD p) s = .next (s.setPeer p v))
    ∧ (x.cnpSeen = false → x.rate < x.ceiling → ∃ v, v = { s.peer p with tx := { x with
        rate := min x.ceiling (x.rate + (x.ceiling - x.rate) / 2 + s.fld F.NET_CC_STEP_MIN * 256) } } ∧
        exec (.CC_PERIOD p) s = .next (s.setPeer p v))
    ∧ (x.cnpSeen = false → x.ceiling ≤ x.rate → ∃ v, v = { s.peer p with tx := { x with
        rate := min s.lineRate (x.rate + x.step), ceiling := min s.lineRate (x.rate + x.step),
        step := min (s.fld F.NET_CC_STEP_MAX * 256) (2 * x.step) } } ∧ exec (.CC_PERIOD p) s = .next (s.setPeer p v))
    ∧ ((s.peer p).rx.unacked ≠ 0 → s.fld F.NET_REL_ACK_DELAY * 100 ≤ s.tick - (s.peer p).rx.ackSince →
      exec (.ACK_DELAY_EXPIRY p) s = .next (s.sendAck p))
    ∧ (∀ psn f b, b = s.bump F.NET_CNT_RTO_COUNT → x.flight.find? (fun f => f.pkt.psn == psn) = some f → x.rto * 100 ≤ s.tick - f.sent →
      (b.fld F.NET_REL_RETX_MAX ≤ x.timeouts + 1 → exec (.RTO_EXPIRY p psn) s = .next (b.failPeer p))
      ∧ (x.timeouts + 1 < b.fld F.NET_REL_RETX_MAX → ∃ v, v = { s.peer p with tx := { x with
          rto := min (b.fld F.NET_REL_RTO_MAX) (max (b.fld F.NET_REL_RTO_MIN) (2 * x.rto)), timeouts := x.timeouts + 1,
          flight := x.flight.map (fun (g : Flight) => if g.pkt.psn == psn then { g with sent := s.tick } else g) } } ∧
        exec (.RTO_EXPIRY p psn) s = .next ((b.setPeer p v).resend p f))))

/-- Over a sub-port that is up. An OPEN of a provisioned kind whose chain is anchored is accepted on its CLOSED context; an anchored OPEN of a YD or pool peer that the catalogue has at that address, or of a YD device that is no member yet, is accepted on that peer's CLOSED context or, where it has none, on a new one; with OPEN_EN clear it is refused and counted. An OPEN_ACK that names the context's kind, an agreed device and an anchored chain makes the OPENING context OPEN and its waiting messages go; one that does not is refused and the context closes. 1 s in OPENING closes it. CLOSE makes an OPEN context DRAINING, and DRAINING ends when nothing sent is unacknowledged. KEEPALIVE sends a PROBE, a PROBE is answered with PROBE_ACK, a PROBE_ACK ends the suspicion of its device, and DEAD_TIME fails the context. DISCOVER is answered with the sixteen bytes of R283; a DISCOVER_ACK changes no more than the count of packets received. -/
def Obligations.PeerContextsComplete : Prop :=
  (∀ (sub lo hi port p : Nat) (ipv4 : Bool) (h : Shake) (s t : State) (v : Peer), s.linkUp sub = true → t = s.bump F.NET_CNT_RX_COUNT →
    (t.flag F.NET_CTRL_OPEN_EN = false → exec (.PRAOL_OPEN sub ipv4 lo hi port h) s = .next t.shakeRefused)
    ∧ (t.flag F.NET_CTRL_OPEN_EN = true → h.kind ≠ 2 → h.kind ≠ 3 →
      t.peers.find? (fun q => decide (q.1 < 4096) && q.2.valid && q.2.kind == h.kind && q.2.ipv4 == ipv4 && q.2.addrLo == lo && q.2.addrHi == hi)
        = some (p, v) → t.anchored h h.kind v.tenant = true → v.state = 0 →
      exec (.PRAOL_OPEN sub ipv4 lo hi port h) s = .next (t.acceptOpen p sub h))
    ∧ (t.flag F.NET_CTRL_OPEN_EN = true → h.kind = 2 ∨ h.kind = 3 →
      (h.dev = 0xFFFFF ∧ h.kind = 2 ∨ h.dev ≠ 0xFFFFF ∧ t.devAt lo hi = some h.dev) → t.anchored h h.kind 0xFFFF = true →
      (t.peers.find? (fun q => q.2.valid && q.2.kind == h.kind && q.2.dev == h.dev && q.2.addrLo == lo && q.2.addrHi == hi)
        = some (p, v) → (t.peer p).state = 0 → exec (.PRAOL_OPEN sub ipv4 lo hi port h) s = .next (t.acceptOpen p sub h))
      ∧ (t.peers.find? (fun q => q.2.valid && q.2.kind == h.kind && q.2.dev == h.dev && q.2.addrLo == lo && q.2.addrHi == hi) = none →
        t.newCtx = some p → ∃ u, u = (if (t.peer p).state = 0 then t else t.closePeer p) ∧
          exec (.PRAOL_OPEN sub ipv4 lo hi port h) s = .next ((u.setPeer p { Peer.fresh with
            valid := true, weight := (u.peer p).weight, kind := h.kind, ipv4 := ipv4, port := port, addrLo := lo, addrHi := hi,
            dev := h.dev }).acceptOpen p sub h))))
  ∧ (∀ (p sub : Nat) (h : Shake) (s t : State) (v : Peer), s.linkUp sub = true → t = s.bump F.NET_CNT_RX_COUNT → v = t.peer p → v.state = 1 →
    (h.kind = v.kind → (v.kind ≠ 2 ∧ v.kind ≠ 3 ∨ h.dev = 0xFFFFF ∨ t.devAt v.addrLo v.addrHi = some h.dev ∨ t.flag F.DEV_DEVID_VALID = false) →
      t.anchored h v.kind v.tenant = true →
      ∃ w, w = { v with tx := { v.tx with waiting := [] }, rx := { v.rx with sub := sub } } ∧
        exec (.PRAOL_OPEN_ACK p sub h) s = .next (v.tx.waiting.foldl (fun s m => s.postMsg p m) ((t.setPeer p w).opened p h)))
    ∧ ((h.kind ≠ v.kind ∨ t.anchored h v.kind v.tenant = false ∨ (v.kind = 2 ∨ v.kind = 3) ∧ h.dev ≠ 0xFFFFF ∧
        t.devAt v.addrLo v.addrHi ≠ some h.dev ∧ t.flag F.DEV_DEVID_VALID = true) → exec (.PRAOL_OPEN_ACK p sub h) s = .next (t.shakeRefused.openFailed p)))
  ∧ (∀ (p : Nat) (s : State), (s.peer p).state = 1 → 100000000 ≤ s.tick - (s.peer p).since →
    exec (.OPENING_TIMEOUT p) s = .next (s.openFailed p))
  ∧ (∀ (p : Nat) (s : State), (s.peer p).state = 3 → (s.peer p).tx.msgs = [] ∨ 10000000 ≤ s.tick - (s.peer p).since →
    exec (.DRAINING_END p) s = .next (s.closePeer p))
  ∧ (∀ (p : Nat) (s : State), (s.peer p).state = 2 → s.fld F.NET_CTX_TMR_KEEPALIVE * 100000 ≤ s.tick - (s.peer p).rx.heard →
    exec (.KEEPALIVE_EXPIRY p) s = .next (s.sendControl p 6 []))
  ∧ (∀ (p : Nat) (s : State), (s.peer p).state = 2 → s.fld F.NET_CTX_TMR_DEAD_TIME * 100000 ≤ s.tick - (s.peer p).rx.heard →
    exec (.DEAD_TIME_EXPIRY p) s = .next (s.failPeer p))
  ∧ (∀ (p sub reason : Nat) (s t : State), s.linkUp sub = true → (s.peer p).state = 2 ∨ (s.peer p).state = 3 → t = (s.hear p sub true).1 →
    ((s.peer p).state = 2 → ∃ v, v = { t.peer p with state := 3, since := s.tick } ∧ exec (.PRAOL_CLOSE p sub true reason) s = .next (t.setPeer p v))
    ∧ exec (.PRAOL_PROBE p sub true) s = .next (t.sendControl p 7 [])
    ∧ ((s.peer p).kind ≠ 2 → (s.peer p).kind ≠ 3 → exec (.PRAOL_PROBE_ACK p sub true) s = .next t)
    ∧ ((s.peer p).kind = 2 ∨ (s.peer p).kind = 3 → ∃ u, exec (.PRAOL_PROBE_ACK p sub true) s = .next u ∧
      u.cat.suspects = s.cat.suspects.filter (fun z => z.1 != (s.peer p).dev)))
  ∧ (∀ (sub : Nat) (s : State), s.linkUp sub = true →
    (∃ t body, t = s.bump F.NET_CNT_RX_COUNT ∧ body.length = 16 ∧
      body = leBytes 4 (s.devId + (if s.flag F.DEV_DEVID_VALID then 2 ^ 31 else 0)) ++ leBytes 4 ((s.profile.map (·.id)).getD 0)
        ++ leBytes 4 s.epoch ++ leBytes 1 (b2n (s.registrar) + 2 * b2n s.cat.leaving) ++ [0, 0, 0] ∧
      exec (.PRAOL_DISCOVER sub) s = .next ((t.sendFrame sub (14 + 40 + 8 + 40 + 16 + 4) body).bump F.NET_CNT_TX_COUNT))
    ∧ (∀ body, exec (.PRAOL_DISCOVER_ACK sub body) s = .next (s.bump F.NET_CNT_RX_COUNT)))

/-- Over a sub-port that is up: a PFC frame for priority 5 or 3 on a port with VLAN_EN pauses that class on the sub-port for its quanta, or ends the pause where they are 0; any other PFC frame and every global PAUSE frame is counted only. A class paused for PFC_WD ms stops honouring PFC there for 1 s. An ARP request, a solicitation or an echo for the device's own address is answered; an ARP reply of the gateway and a Router Advertisement are learnt; an ARP request for another address is dropped and counted. A link that goes down lowers every rate above LINE to LINE. At a frame boundary the frame R242 chooses leaves by a sub-port that is up and not paused, and takes its length from its shapers. Answers carry frame lengths of log entry 54. -/
def Obligations.EthernetPortsComplete : Prop :=
  (∀ (sub prio quanta : Nat) (s : State), s.linkUp sub = true →
    ((prio = 5 ∨ prio = 3) → s.flag (F.NET_PORT_VLAN_EN.at (8 * (sub / 4))) = true → quanta ≠ 0 →
      ∃ t, exec (.PFC_FRAME sub prio quanta) s = .next t ∧ t.regs = s.regs ∧
        ∃ z, z ∈ (t.port (sub / 4)).pauses ∧ z.1 = sub % 4 ∧ z.2.1 = prio ∧
          z.2.2.1 = s.tick + quantaTicks quanta (subRate (s.port (sub / 4)).mode))
    ∧ ((prio = 5 ∨ prio = 3) → s.flag (F.NET_PORT_VLAN_EN.at (8 * (sub / 4))) = true → quanta = 0 →
      ∃ v, v = { s.port (sub / 4) with pauses := (s.port (sub / 4)).pauses.filter (fun z => !(z.1 == sub % 4 && z.2.1 == prio)) } ∧
        exec (.PFC_FRAME sub prio quanta) s = .next (s.setPort (sub / 4) v))
    ∧ ((prio ≠ 5 ∧ prio ≠ 3 ∨ s.flag (F.NET_PORT_VLAN_EN.at (8 * (sub / 4))) = false) →
      exec (.PFC_FRAME sub prio quanta) s = .next (s.bump F.NET_CNT_DROPPED_COUNT))
    ∧ exec (.PAUSE_FRAME sub) s = .next (s.bump F.NET_CNT_DROPPED_COUNT))
  ∧ (∀ (sub cls : Nat) (s : State), s.fld F.NET_PFC_PFC_WD ≠ 0 → s.classPaused (sub / 4) (sub % 4) cls = true →
    (s.port (sub / 4)).pauses.any (fun z => z.1 == sub % 4 && z.2.1 == cls && decide (s.tick < z.2.2.1) && decide (s.tick - z.2.2.2 ≥ s.fld F.NET_PFC_PFC_WD * 100000)) = true →
    ∃ v, v = { s.port (sub / 4) with
      pfcOff := (s.port (sub / 4)).pfcOff.filter (fun z => !(z.1 == sub % 4 && z.2.1 == cls)) ++ [(sub % 4, cls, s.tick + 100000000)] } ∧
      exec (.PFC_WATCHDOG sub cls) s = .next ((s.setPort (sub / 4) v).bump F.NET_CNT_PFC_WD_COUNT))
  ∧ (∀ (sub a : Nat) (b : Bytes) (s : State), s.linkUp sub = true →
    (s.flag F.NET_CTRL_IPV4_EN = true → s.fld F.NET_IPV4_ADDR = a →
      exec (.ETH_CONTROL_FRAME sub (.arpRequest a)) s = .next (s.sendFrame sub 64 (leBytes 6 (s.fld F.NET_MAC_BASE + sub)))
      ∧ exec (.ETH_CONTROL_FRAME sub (.echo4 a b)) s = .next (s.sendFrame sub (14 + 20 + 8 + b.length + 4) b))
    ∧ (s.flag F.NET_CTRL_IPV6_EN = true → s.ipv6 = a →
      exec (.ETH_CONTROL_FRAME sub (.solicitation a)) s = .next (s.sendFrame sub (14 + 40 + 32 + 4) (leBytes 6 (s.fld F.NET_MAC_BASE + sub)))
      ∧ exec (.ETH_CONTROL_FRAME sub (.echo6 a b)) s = .next (s.sendFrame sub (14 + 40 + 8 + b.length + 4) b))
    ∧ (s.flag F.NET_CTRL_IPV4_EN = true → s.fld F.NET_IPV4_GW4 = a →
      exec (.ETH_CONTROL_FRAME sub (.arpReply a b)) s = .next (s.learnHop sub 4 b))
    ∧ (s.flag F.NET_CTRL_IPV6_EN = true → exec (.ETH_CONTROL_FRAME sub (.advertisement b)) s = .next (s.learnHop sub 6 b))
    ∧ (s.fld F.NET_IPV4_ADDR ≠ a → exec (.ETH_CONTROL_FRAME sub (.arpRequest a)) s = .next (s.bump F.NET_CNT_DROPPED_COUNT))
    ∧ exec (.ETH_CONTROL_FRAME sub .other) s = .next (s.bump F.NET_CNT_DROPPED_COUNT))
  ∧ (∀ (sub : Nat) (s : State), sub < 32 →
    ∃ t, exec (.ETH_LINK_CHANGE sub false) s = .next t ∧ (t.port (sub / 4)).subUp (sub % 4) = false
      ∧ ∀ q, q ∈ t.peers → q.2.tx.rate ≤ t.lineRate)
  ∧ (∀ (port k : Nat) (s : State) (f : Frame), port < 8 → s.nextFrame port = some f → s.exitSub port f.cls f.sub = some k →
    ∃ t u, t.outbox = s.outbox ++ [.frame port k { f with sub := k }] ∧ (t.port port).queue = (s.port port).queue.erase f
      ∧ u = (if f.peer < 4096 then t.pump f.peer else t) ∧ exec (.EGRESS_FRAME port) s = .next u)

/-- For a catalogue slip taken up at the receiver's own epoch. CAT_LOOKUP of a session of a live entry answers this device as owner. CAT_MAP_FETCH answers a 64 KiB part of the map. A registrar promises a claim not below its promise and votes GRANT with what it had accepted; it accepts a list of a ballot not below its promise. A vote reaches the proposer. CAT_COMMIT of the next epoch with the right digest is applied and relayed; of an applied epoch it is ALREADY_DONE. CAT_JOIN with FOUND makes epoch 1 of a non-member; from a peer at a registrar it waits for the JOIN proposed. CAT_LEAVE, FINAL and SUSPECT at a registrar wait for the change proposed or the probes sent. CAT_LOCATE QUERY, REGISTER, REMOVE and TRANSFER of a bucket that has arrived answer, store, drop and take over records. -/
def Obligations.CatalogueSlipsComplete : Prop :=
  (∀ (x : Slip) (s t : State) (i : Nat) (e : Sess), s.catUp Op.CAT_LOOKUP x [0, 0, 0, 0, 0xFFFFFFFF, 0xFFFFFFFF] = true → t = s.bump F.CAT_CNT_LOOKUP_COUNT →
    x.acc ≠ 0 → t.findSess x.acc = some (i, e) → e.state ≠ Ss.FREE →
    exec (.CAT_LOOKUP x) s = .next (t.finish Op.CAT_LOOKUP x (t.lookupAnswer x t.devId (originOf x.acc != t.devId))))
  ∧ (∀ (x : Slip) (s : State), s.catUp Op.CAT_MAP_FETCH x [0xFFFFFFFF, 15, 0, 0, 0xFFFFFFFF, 0xFFFFFFFF] = true → x.P0 = 0 →
    exec (.CAT_MAP_FETCH x) s = .next (s.finish Op.CAT_MAP_FETCH x (Answer.ok s.epoch 0 (slice s.cat.image (65536 * x.P1) 65536))))
  ∧ (∀ (x : Slip) (s : State), s.catUp Op.CAT_PROPOSE x [0xFFFFFFFF, 1, 0xFFFFFFFF, 0xFFFFFFFF, 0, 0] = true → s.registrar = true → s.cat.abstaining = false →
    x.P0 = s.epoch + 1 → s.cat.promised ≤ ballotOf x →
    exec (.CAT_PROPOSE_CLAIM x) s = .next (((s.updCat (fun c => { c with promised := ballotOf x })).vote (ballotOf x % 2 ^ 20) x.P0 0 (ballotOf x)
      s.cat.acceptedBallot s.cat.acceptedList).finish Op.CAT_PROPOSE x (Answer.ok 0))
    ∧ (badChanges Op.CAT_PROPOSE x.payload = none →
      exec (.CAT_PROPOSE_ACCEPT x) s = .next (((s.updCat (fun c => { c with
        promised := ballotOf x, acceptedBallot := ballotOf x, acceptedList := (readChanges x.payload).2 })).vote (ballotOf x % 2 ^ 20) x.P0 2 (ballotOf x) 0 []).finish Op.CAT_PROPOSE x (Answer.ok 0))))
  ∧ (∀ (x : Slip) (s : State) (p : Nat), s.catUp Op.CAT_VOTE x [0xFFFFFFFF, 3, 0xFFFFFFFF, 0xFFFFFFFF, 0xFFFFFFFF, 0xFFFFFFFF] = true → x.src = .peer p →
    x.P4 = 0 → x.P5 = 0 →
    exec (.CAT_VOTE x) s = .next ((s.receiveVote (s.peer p).dev x.P0 x.P1 (ballotOf x) 0 []).finish Op.CAT_VOTE x (Answer.ok 0)))
  ∧ (∀ (x : Slip) (s t : State) (l : Nat × List Change), s.catUp Op.CAT_COMMIT x [0xFFFFFFFF, 0, 0xFFFFFFFF, 0xFFFFFFFF, 0, 0] = true →
    badChanges Op.CAT_COMMIT x.payload = none → s.member = true →
    (x.P0 = s.epoch + 1 → l = readChanges x.payload → s.applyCommit l.1 l.2 = some t →
      exec (.CAT_COMMIT x) s = .next ((t.relay s.cat.members (ballotOf x) x.P0 l.1 l.2).finish Op.CAT_COMMIT x (Answer.ok t.epoch)))
    ∧ (x.P0 ≤ s.epoch → exec (.CAT_COMMIT x) s = .next (s.finish Op.CAT_COMMIT x (Answer.mk' St.ALREADY_DONE 0 s.epoch))))
  ∧ (∀ (x : Slip) (s : State) (id : Nat), s.catUp Op.CAT_JOIN x [1, 0xFFFFFFFF, 0, 0, 0, 0] = true →
    ((∀ q, x.src ≠ .peer q) → s.member = false → s.cat.joining = 0 → bitOf x.P0 0 = true → x.P1 = 0xFFFFFFFF → Cat.empty.joinId none = some id →
      exec (.CAT_JOIN x) s = .next ((s.found id).finish Op.CAT_JOIN x (Answer.ok id)))
    ∧ (∀ p k, x.src = .peer p → s.registrar = true → 20 ≤ x.payload.length → rdLe x.payload 16 4 = (s.profile.map (·.id)).getD 0 →
      x.P1 = 0xFFFFFFFF → s.cat.joinId none = some id → k = { kind := 1, dev := 0, address := slice x.payload 0 16, op := Op.CAT_JOIN, slip := x : CatClient } →
      exec (.CAT_JOIN x) s = .next ((SlipRes.wait ((s.updCat (fun c => { c with clients := c.clients ++ [k] })).wish
        (.join none (slice x.payload 0 16) (rdLe x.payload 16 4)))).close Op.CAT_JOIN x)))
  ∧ (∀ (x : Slip) (s : State) (d : Nat), s.catUp Op.CAT_LEAVE x [3, 0xFFFFF, 0, 0, 0, 0] = true → s.registrar = true →
    (∀ k, bitsOf x.P0 1 0 ≠ 3 → d = s.leaver x → s.devState d = 1 →
      k = { kind := 2, dev := d, address := [], op := Op.CAT_LEAVE, slip := x : CatClient } →
      exec (.CAT_LEAVE x) s = .next ((SlipRes.wait ((s.updCat (fun c => { c with clients := c.clients ++ [k] })).wish (.leaving d))).close Op.CAT_LEAVE x))
    ∧ (∀ k, d = s.leaver x → d ≠ s.devId → s.devState d = 2 → k = { kind := 3, dev := d, address := [], op := Op.CAT_LEAVE, slip := x : CatClient } →
      exec (.CAT_LEAVE_FINAL x) s = .next ((SlipRes.wait ((s.updCat (fun c => { c with clients := c.clients ++ [k] })).wish (.remove d))).close Op.CAT_LEAVE x))
    ∧ (∀ k t, d = bitsOf x.P1 19 0 → d ≠ s.devId → s.devState d = 1 → k = { kind := 3, dev := d, address := [], op := Op.CAT_LEAVE, slip := x : CatClient } →
      t = s.updCat (fun c => { c with
        clients := c.clients ++ [k], suspects := if c.suspects.any (fun z => z.1 == d) then c.suspects else c.suspects ++ [(d, s.tick)] }) →
      exec (.CAT_LEAVE_SUSPECT x) s = .next ((SlipRes.wait (match t.reach d with | some (p, u) => u.probeAll p | none => t)).close Op.CAT_LEAVE x)))
  ∧ (∀ (x : Slip) (s : State), s.catUp Op.CAT_LOCATE x [3, 0xFFFFF, 0xFFFFFFFF, 0, 0, 0] = true → s.bucketWait x.acc = none →
    exec (.CAT_LOCATE_QUERY x) s = .next ((s.bump F.CAT_CNT_LOCATE_COUNT).finish Op.CAT_LOCATE x
      (Answer.ok (s.locateResult x.acc)))
    ∧ (s.locRoom [x.acc] = true → exec (.CAT_LOCATE_REGISTER x) s = .next ((((s.bump F.CAT_CNT_LOCATE_COUNT).registerAt
        s.devId x.acc (bitsOf x.P1 19 0)).passRecord x.acc).finish Op.CAT_LOCATE x
        (Answer.ok (bitsOf x.P1 19 0 + 2 ^ 20))))
    ∧ exec (.CAT_LOCATE_REMOVE x) s = .next (((s.bump F.CAT_CNT_LOCATE_COUNT).updCat (fun c =>
        { c with loc := c.loc.filter (fun l => l.accession != x.acc) })).finish Op.CAT_LOCATE x (Answer.ok (s.locateResult x.acc)))
    ∧ ((readRecords x.payload).any LocRec.bad = false → s.locRoom ((readRecords x.payload).map (fun r => r.accession)) = true →
      ∃ t : State, exec (.CAT_LOCATE_TRANSFER x) s = .next (t.finish Op.CAT_LOCATE x (Answer.ok 0)) ∧
        ∀ r, r ∈ readRecords x.payload → ∃ q, q ∈ t.cat.loc ∧ q.accession = r.accession ∧ r.epoch ≤ q.epoch))

/-- A vote timeout claims again with a higher attempt. A fetch reply of change lists that apply makes the map current; a part of a whole map is kept and the next asked for, and the sixteenth makes the map current. A slip waiting for a location takes it, an ownership check decides by it, and the primary's answer to a move's registration lets the commit go; a location timeout asks the secondary once. A forwarded slip's reply goes back, OK as FORWARDED with the owner in DETAIL. A forwarding record goes after two further epochs and FWD_HOLD. CAT_JOIN's OK reply makes a joining device a member, a refusal is passed back. A suspect silent for DEAD_CONFIRM is proposed for REMOVE. DRAIN_TIME cancels the requests of a leaving device. A member sends its registrars a NOP per second, takes their replies, fences itself without a majority and unfences with one and a current map, and then replaces the holders lost meanwhile. -/
def Obligations.CatalogueEventsComplete : Prop :=
  (∀ s : State, s.registrar = true → s.cat.proposal.phase ≠ 0 →
    s.fld F.CAT_CFG_VOTE_TIMEOUT * 100000 * (2 + (s.cat.registrars.findIdx? (· == s.devId)).getD 0) ≤ s.tick - s.cat.proposal.since →
    exec .VOTE_TIMEOUT s = .next (s.claim s.cat.proposal.own))
  ∧ (∀ (dev : Nat) (r : Reply) (s t : State) (f : Fetch), s.cat.fetch = some f → f.dev = dev → statusClass r.status.toNat ≤ 1 →
    badFetch f r.data = false →
    (f.from_ ≠ 0 → s.applyLists (splitLists 16 r.data) = some t → exec (.MAP_FETCH_REPLY dev r) s = .next t.mapCurrent)
    ∧ (f.from_ = 0 → f.parts = [] ∨ f.epoch = r.result.toNat % 2 ^ 32 → f.parts.length < 15 → ∃ u, u = s.updCat (fun c => { c with
        fetch := some { f with parts := f.parts ++ [r.data], epoch := r.result.toNat % 2 ^ 32 } }) ∧
      exec (.MAP_FETCH_REPLY dev r) s = .next (u.fetchFrom dev 0 (f.parts.length + 1)))
    ∧ (f.from_ = 0 → f.epoch = r.result.toNat % 2 ^ 32 → f.parts.length = 15 →
      ∃ m u, m = readMap ((f.parts ++ [r.data]).flatMap (fun b => slice b 0 65536)) ∧
        u = s.updCat (fun c => { c with buckets := m.1, devices := m.2, history := [] }) ∧
        exec (.MAP_FETCH_REPLY dev r) s = .next (if s.member then u.epochEntered s.cat f.epoch else u.showEpoch f.epoch).mapCurrent))
  ∧ (∀ s : State, exec .EPOCH_HOLD_RESOLVE s = .next s.resolveEpoch)
  ∧ (∀ (acc : Nat) (s : State) (l : Locate), s.cat.locates.find? (fun l => l.accession == acc && l.why != 1) = some l →
    s.fld F.CAT_CFG_LOCATE_TIMEOUT * 100 ≤ s.tick - l.since → exec (.LOCATE_TIMEOUT acc) s = .next (s.askSecond l))
  ∧ (∀ (acc dev : Nat) (r : Reply) (s : State) (l : Locate),
    s.cat.locates.find? (fun l => l.accession == acc && l.asked == dev && l.why != 1) = some l →
    (2 ≤ statusClass r.status.toNat → exec (.LOCATE_REPLY acc dev 0 r) s = .next (s.askSecond l))
    ∧ (statusClass r.status.toNat ≤ 1 → badDev (bitsOf r.result.toNat 19 0) = false → l.why = 0 → ∃ t, t = s.updCat (fun c => { c with
        locates := c.locates.filter (fun q => !(q.accession == acc && q.why == 0)) }) ∧
      exec (.LOCATE_REPLY acc dev 0 r) s = .next (t.allLocated acc (fun s h => s.located h r.result.toNat)))
    ∧ (statusClass r.status.toNat ≤ 1 → badDev (bitsOf r.result.toNat 19 0) = false → l.why = 2 → ∃ t, t = s.updCat (fun c => { c with
        locates := c.locates.filter (fun q => !(q.accession == acc && q.why == 2)) }) ∧
      exec (.LOCATE_REPLY acc dev 0 r) s = .next (t.decideOwner acc (bitsOf r.result.toNat 19 0))))
  ∧ (∀ (acc dev i : Nat) (m : Move) (r : Reply) (s : State) (l : Locate),
    s.cat.locates.find? (fun l => l.accession == acc && l.why == 1) = some l → s.moveOf acc false = some (i, m) → m.phase = 1 →
    statusClass r.status.toNat ≤ 1 → badDev (bitsOf r.result.toNat 19 0) = false → l.left ≤ 1 → ∃ t, t = s.updCat (fun c => { c with
        locates := c.locates.filter (fun q => !(q.accession == acc && q.why == 1)) }) ∧
      exec (.LOCATE_REPLY acc dev 1 r) s = .next (t.sendCommit i m))
  ∧ (∀ (dev tag : Nat) (r : Reply) (s : State) (f : Fwd), s.cat.forwards.find? (fun f => f.dev == dev && f.tag == tag) = some f →
    ∃ t, t = s.updCat (fun c => { c with forwards := c.forwards.filter (fun g => !(g.dev == dev && g.tag == tag)) }) ∧
      exec (.FORWARDED_REPLY dev tag r) s = .next (t.finish f.op f.slip {
        status := if r.status = 0 then St.FORWARDED else r.status.toNat, detail := if r.status = 0 then dev else r.detail.toNat, result := r.result.toNat, result2 := r.result2.toNat, data := r.data,
        epoch := some r.epoch.toNat }))
  ∧ (∀ (acc : Nat) (s : State), exec (.FORWARD_RECORD_EXPIRY acc) s = .next (s.updCat (fun c => { c with
      fwd := c.fwd.filter (fun r => !(r.accession == acc && decide (s.epoch ≥ r.epoch + 2) && decide (s.tick - r.tick ≥ s.fld F.CAT_CFG_FWD_HOLD * 100000000))) })))
  ∧ (∀ (r : Reply) (s : State), s.cat.joining = 1 →
    (statusClass r.status.toNat ≤ 1 → badDev (bitsOf r.result.toNat 19 0) = false → ∃ t, exec (.CAT_JOIN_REPLY r) s = .next t ∧ t.member = true ∧ t.devId = bitsOf r.result.toNat 19 0
      ∧ t.cat.joining = 2)
    ∧ (2 ≤ statusClass r.status.toNat → exec (.CAT_JOIN_REPLY r) s = .next (((s.updCat (fun c => { c with joining := 0 })).answerClients
      (fun k => k.kind == 1 && k.address == []) (fun _ => Answer.st r.status.toNat r.detail.toNat)).pokeRestore)))
  ∧ (∀ (dev : Nat) (s : State) (z : Nat × Nat), s.cat.suspects.find? (fun z => z.1 == dev) = some z → s.registrar = true →
    s.fld F.CAT_CFG_DEAD_CONFIRM * 100000 ≤ s.tick - z.2 → exec (.REMOVE_CONFIRM dev) s = .next ((s.updCat (fun c => { c with
      suspects := c.suspects.filter (fun y => y.1 != dev) })).wish (.remove dev)))
  ∧ (∀ s : State, s.cat.leaving = true → s.fld F.CAT_CFG_DRAIN_TIME * 100000000 ≤ s.tick - s.cat.leaveTick →
    exec .DRAIN_TIME_EXPIRY s = .next (s.sessions.foldl (fun s p => s.cancelLeaving p.1) s).leaveStep)
  ∧ (∀ s : State, s.member = true → s.cat.nopTick = none → exec .REGISTRAR_KEEPALIVE s =
    .next ((s.cat.registrars.filter (· != s.devId)).foldl (fun s d => s.sendDev d Op.NOP 0 0xFFFF [] [])
      (s.updCat (fun c => { c with nopTick := some s.tick }))))
  ∧ (∀ (dev epoch p : Nat) (s : State), s.ctxOf dev = some p → epoch ≤ s.epoch → exec (.REGISTRAR_NOP_REPLY dev epoch) s =
    .next (s.updPeer p (fun v => { v with rx := { v.rx with heard := s.tick } })))
  ∧ (∀ s : State, s.member = true →
    (s.reachesMajority = false → s.fenced = false → exec .FENCE s = .next s.fence)
    ∧ (s.reachesMajority = true → s.fenced = true → s.cat.fetch = none →
      ∃ t, t = (s.setFld F.RIND_AUDIT_STATUS_FENCED 0).updCat (fun c => { c with lostLate := [] }) ∧
        exec .FENCE_END s = .next (s.cat.lostLate.foldl State.holderLost t)))

/-- For a checkpoint slip taken up with ACCESSION 0. CKPT_TAKE with EN set and none running waits for the checkpoint its trigger starts. CKPT_QUERY answers the 48-byte structure of Table 12.9. CKPT_SET_TRIGGERS without AUTO or FORMAT writes TIMER_S and STEPS_LOG2, which may trigger at once, and answers 0; FORMAT with an SSD present writes the label and waits. CKPT_MIRROR_PUT of data not held, for which there is room, is kept and answered its size. CKPT_MIRROR_GET by a requester R316 allows answers the seal held. CKPT_RESTORE with a bundle loaded, every entry FREE, no membership and nothing running enters RESTORING and waits. -/
def Obligations.CheckpointSlipsComplete : Prop :=
  ∀ (x : Slip) (s : State), x.acc = 0 →
    (s.takenUp Op.CKPT_TAKE x = true → badParam x [1, 0, 0, 0, 0, 0] = none → s.flag F.CKPT_CTRL_EN = true → s.phase = 0 →
      exec (.CKPT_TAKE x) s = .next ((SlipRes.wait (s.trigger 2)).close Op.CKPT_TAKE x))
    ∧ (∀ newest mir, s.takenUp Op.CKPT_QUERY x = true → badParam x [0, 0, 0, 0, 0xFFFFFFFF, 0xFFFFFFFF] = none →
      newest = (if s.flag F.CKPT_LAST_VALID then s.fld F.CKPT_LAST_CKPT_NO else max (s.slotNo 0) (s.slotNo 1)) →
      mir = (if s.flag F.CKPT_LAST_VALID && s.flag F.CKPT_LAST_MIRRORED then s.fld F.CKPT_LAST_CKPT_NO
        else (s.ckpt.mirrored.map (·.no)).foldl max 0) →
      exec (.CKPT_QUERY x) s = .next (s.finish Op.CKPT_QUERY x (Answer.ok newest 0 (structure0 0x1C01 (leBytes 4 (s.slotNo 0)
        ++ leBytes 4 (s.slotNo 1) ++ leBytes 4 newest ++ leBytes 4 mir ++ leBytes 1 s.phase ++ leBytes 1 (s.fld F.CKPT_STATUS_PRESS)
        ++ leBytes 2 0 ++ leBytes 4 (s.fld F.CKPT_LAST_BLOCKS) ++ leBytes 8 s.fuseDigest ++ leBytes 4 ((s.profile.map (·.id)).getD 0)
        ++ leBytes 4 0)))))
    ∧ (s.takenUp Op.CKPT_SET_TRIGGERS x = true → badParam x [0xFFFFFFFF, 0xFFFFFFFF, 7, 0, 0, 0] = none → x.P0 ≤ 0xFFFF → stepsOk x.P1 = true →
      (bitOf x.P2 1 = false → bitOf x.P2 2 = false →
        exec (.CKPT_SET_TRIGGERS x) s = .next ((s.setTriggers (some x.P0) (some x.P1)).finish Op.CKPT_SET_TRIGGERS x (Answer.ok 0)))
      ∧ (∀ t u, bitOf x.P2 1 = true → bitOf x.P2 2 = true → s.code x.src ≠ 2 → s.phase = 0 → t = s.setTriggers (some x.P0) (some x.P1) →
        t.ckpt.press.found = true → u = t.updCkpt (fun c => { c with
          press := { c.press with writes := c.press.writes ++ [((t.fuseDigest, bitOf x.P2 0), x)] } }) →
        exec (.CKPT_SET_TRIGGERS x) s = .next ((SlipRes.wait (u.emit (.nvme .labelWrite 0 0 1))).close Op.CKPT_SET_TRIGGERS x)))
    ∧ (∀ body m t v, s.takenUp Op.CKPT_MIRROR_PUT x = true → badParam x [0xFFFFFFFF, 0xFFFFFFFF, 0xFFFFFFFF, 0, 0, 0] = none → 1 ≤ x.P2 → x.P2 ≤ 15 → 1 ≤ x.P1 →
      x.P1 + x.P2 ≤ 131072 → badStruct 0x1C10 (8 + 65536 * x.P2) x.payload = none → body = (x.payload.drop 8).take (65536 * x.P2) →
      s.ckpt.mirrors.filter (fun m => m.writer == s.writerOf x) = [] →
      m = { writer := s.writerOf x, no := x.P0, leaf := s.leafOf x, blocks := [], sealRec := none } →
      s.holdUsed + (((chunks 65536 16 body).map (fun b => bodyQuarters b.length)).foldl (· + ·) 0) ≤ s.fld F.TIER_HOLD_CAP →
      s.keepMirror m x.P1 (chunks 65536 16 body) = some (t, v) →
      exec (.CKPT_MIRROR_PUT x) s = .next (t.finish Op.CKPT_MIRROR_PUT x (Answer.ok 0 (65536 * x.P2))))
    ∧ (∀ m r, s.takenUp Op.CKPT_MIRROR_GET x = true → badParam x [0xFFFFF, 0xFFFFFFFF, 0xFFFFFFFF, 0xFFFFFFFF, 0xFFFFFFFF, 0xFFFFFFFF] = none → x.P2 = 0 → x.P1 ≠ 0 →
      (s.ckpt.mirrors.filter (fun m => m.writer == bitsOf x.P0 19 0)).find? (fun m => m.no == x.P1) = some m →
      s.mayReadMirror x (bitsOf x.P0 19 0) m = true → m.sealRec = some r →
      exec (.CKPT_MIRROR_GET x) s = .next (s.finish Op.CKPT_MIRROR_GET x (Answer.ok x.P1 0 r.2)))
    ∧ (∀ z t, s.takenUp Op.CKPT_RESTORE x = true → badParam x [3, 0xFFFFFFFF, 0, 0, 0, 0] = none → bitsOf x.P0 1 0 ≠ 3 →
      (x.payload = [] ∨ badStruct 0x1C02 24 x.payload = none) → s.loaded = true → s.sessions = [] → s.member = false → s.phase = 0 →
      z = { slip := x, source := bitsOf x.P0 1 0, want := x.P1, stage := 0, since := s.tick, asked := [], cands := [],
            addrs := if bitsOf x.P0 1 0 = 1 then [] else if x.payload = [] then (s.membership.map (·.2)).getD [] else [slice x.payload 8 16],
            verified := false, fits := false, cur := none, blocks := [], former := (s.membership.map (·.1)).getD s.devId, newest := 0 : Restore } →
      t = s.updCkpt (fun c => { c with restore := some z }) →
      exec (.CKPT_RESTORE x) s = .next ((SlipRes.wait ((t.setPhase 5).wake .restore)).close Op.CKPT_RESTORE x))

/-- A timer or step count that is due triggers, one that is not changes nothing. NEXT within 2^16 of SEQ_LIMIT triggers. Deferred triggers start one checkpoint once none stands against it. An overrun barrier is undone, counted, and retried after 1 ms. A completed press write carries the write sequence of R313 one step on; a failed one abandons the checkpoint and is counted. The acknowledgement of a PUT sends the next, that of both seals ends mirroring. A restore without a map for 1 s goes on with the press. A copy of a device removed 24 hours ago goes. A removed device's buckets are adopted once REHOME_DELAY has passed, holder by holder. A write to CKPT_TRIG sets the triggers or is ignored and counted. -/
def Obligations.CheckpointEventsComplete : Prop :=
  (∀ s : State, (s.timerDue = true → exec .CKPT_TIMER_EXPIRY s = .next (s.trigger 0)) ∧ (s.timerDue = false → exec .CKPT_TIMER_EXPIRY s = .next s)
    ∧ (s.stepsDue = true → exec .CKPT_STEP_COUNT s = .next (s.trigger 1)) ∧ (s.stepsDue = false → exec .CKPT_STEP_COUNT s = .next s)
    ∧ (s.registrar = false → s.fld F.CKPT_SEQ_SEQ_LIMIT ≤ s.fld F.SESS_SEQ_NEXT + 2 ^ 16 → exec .SEQ_LIMIT_NEAR s = .next (s.trigger 3)))
  ∧ (∀ s : State, s.ckpt.deferred ≠ 0 → s.ckptFree = true → s.flag F.CKPT_CTRL_EN = true →
    exec .DEFERRED_CKPT_START s = .next (s.beginCkpt s.ckpt.deferred))
  ∧ (∀ (s t : State), s.phase = 1 → t = ((s.setFld F.CKPT_STATUS_LAST_ABANDON 1).bump F.CKPT_CNT_BARRIER_ABORT_COUNT).endCkpt.updCkpt
      (fun c => { c with retry := some (s.tick + 100000, s.ckpt.cause) }) →
    exec .BARRIER_OVERRUN s = .next (t.release (· == .barrier)))
  ∧ (∀ (s : State) (r : Nat × Nat), s.ckpt.retry = some r → r.1 ≤ s.tick → s.ckptFree = true → exec .BARRIER_RETRY s = .next (s.beginCkpt r.2))
  ∧ (∀ (n : Nat) (s : State), exec (.PRESS_WRITE_DONE n) s = .next (s.pressStep n))
  ∧ (∀ (s : State) (r : CkptRun), s.ckpt.run = some r → r.press = true → r.isSealed = false → exec .PRESS_WRITE_ERROR s =
    .next ((s.pressFault.abandonCkpt 4 (Answer.st St.MEDIA s.lastErr)).bump F.CXL_CNT_NVME_ERR_COUNT))
  ∧ (∀ (dev status : Nat) (s : State) (r : CkptRun) (m : Nat × Nat × Nat), s.ckpt.run = some r → s.phase = 4 →
    r.mirrors.find? (fun m => m.1 == dev) = some m → m.2.2 ≤ 1 →
    (2 ≤ statusClass status → exec (.MIRROR_ACK dev status) s = .next (s.mirrorLost dev))
    ∧ (statusClass status ≤ 1 → m.2.2 = 0 → exec (.MIRROR_ACK dev status) s = .next (s.mirrorSend dev))
    ∧ (statusClass status ≤ 1 → m.2.2 = 1 → ∃ t, t = s.updRun (fun r => { r with
        mirrors := r.mirrors.map (fun (z : Nat × Nat × Nat) => if z.1 == dev then (dev, z.2.1, 2) else z) }) ∧
      exec (.MIRROR_ACK dev status) s = .next t.mirrorEnd))
  ∧ (∀ (s : State) (r : Restore), s.ckpt.restore = some r → r.stage = 0 → s.cat.fetch.isSome = true → 100000000 ≤ s.tick - r.since →
    ∃ t, t = s.updCat (fun c => { c with fetch := none }) ∧ exec .RESTORE_MAP_TIMEOUT s = .next (t.readSeals.wake .restore))
  ∧ (∀ (dev : Nat) (r : Reply) (s : State) (z : Restore), s.ckpt.restore = some z → z.asked.contains (dev + 2) = true → z.stage = 2 →
    statusClass r.status.toNat ≤ 1 → ∃ t, t = s.updRestore (fun z => { z with asked := z.asked.filter (· != dev + 2) }) ∧
      exec (.MIRROR_GET_REPLY dev r) s = .next ((t.sealRead (dev + 2) r.data).wake .restore))
  ∧ (∀ (dev t : Nat) (s : State), tGet s.ckpt.removed dev = some t → 24 * 3600 * 100000000 ≤ s.tick - t →
    exec (.MIRROR_COPY_EXPIRY dev) s = .next (s.updCkpt (fun c => { c with
      mirrors := c.mirrors.filter (fun m => m.writer != dev), removed := tDel c.removed dev })))
  ∧ (∀ (dev : Nat) (s t : State) (a : Adopt) (z : Adoption), s.cat.adopt.find? (fun a => a.dev == dev) = some a → a.begun = false →
    s.fenced = false → s.fld F.CKPT_REHOME_REHOME_DELAY * 100000000 ≤ s.tick - a.since → s.ckpt.adoptions = [] →
    z = { dev := dev, holders := mirrorPairOf s.cat dev, asked := 0, stage := 0, no := 0, first10 := 0, first11 := 0, wanted := [], todo := [],
          blocks := [] } →
    t = (s.updCat (fun c => { c with adopt := c.adopt.map (fun (y : Adopt) => if y.dev == dev then { y with begun := true } else y) })).updCkpt
      (fun c => { c with adoptions := [z] }) →
    exec (.REHOME_DELAY_EXPIRY dev) s = .next t.nextHolder)
  ∧ (∀ (value : Word) (s : State) (n : Nat), n = bitsOf value.toNat 5 0 →
    (stepsOk n = true → exec (.CKPT_TRIG_WRITE value) s = .next (s.setTriggers (some (bitsOf value.toNat 47 32)) (some n)))
    ∧ (stepsOk n = false → exec (.CKPT_TRIG_WRITE value) s = .next s.regAccErr))

/-- For a slip taken up with ACCESSION 0 and no reserved parameter bit set. CHK_CRC with an enabled CRC unit answers RESULT the CRC-32C or CRC-64 of its payload, over the seed when CHAIN is set, and RESULT2 PLEN; it counts the job and the bytes, on the unit that ran it. CHK_SCAN over a well-formed range within its space, visible to its sender, with room in the queue and an enabled scan engine, is queued and waits. SCAN_COMPLETE ends the running scan: it counts it and its bytes, answers the CRC of the range as it then reads, keeps it in SCAN_LAST, and starts the next; with a damaged line it answers MEDIA with that line's record instead. CHK_XTS_ENC and CHK_XTS_DEC of a payload of whole 16-byte blocks that the caller's cap takes, under a tenant whose key is there, answer the payload encrypted or decrypted as one data unit with the slip key and the tweak of P0 to P3. From an M context while debug is unlocked: DIAG_INJECT of a kind of Table 13.11 with a count arms the injection; DIAG_TRACE OP 0 stops the trace and answers how many records are held, OP 1 clears it and starts the groups of P1, OP 2 answers the records from P2 on. -/
def Obligations.ChecksAndDiagnosticsComplete : Prop :=
  (∀ (x : Slip) (s : State), x.acc = 0 →
    (∀ t, s.takenUp Op.CHK_CRC x = true → badParam x [3, 0xFFFFFFFF, 0xFFFFFFFF, 0, 0, 0] = none → (bitOf x.P0 0 = true ∨ x.P2 = 0) →
      s.unitsOn A.CHK_UNIT 0 4 ≠ [] →
      t = ((s.bump F.CHK_CNT_CRC_COUNT).bumpBy F.CHK_CNT_BYTES_COUNT x.payload.length).jobOn A.CHK_UNIT 47 0 4 →
      exec (.CHK_CRC x) s = .next (t.finish Op.CHK_CRC x (Answer.ok
        (crcOf (bitOf x.P0 0) (if bitOf x.P0 1 then some (x.P1 + 2 ^ 32 * x.P2) else none) x.payload) x.payload.length)))
    ∧ (∀ start k, s.takenUp Op.CHK_SCAN x = true → badParam x [7, 0xFFFFFFFF, 0xFFFFFFFF, 0xFFFFFFFF, 0xFFFFFFFF, 0xFFFFFFFF] = none →
      start = x.P1 + 2 ^ 32 * x.P2 → x.P1 % 64 = 0 → x.P3 ≠ 0 → (bitOf x.P0 0 = true → start + 64 * x.P3 ≤ hdm1Bytes) →
      (bitOf x.P0 1 = true ∨ x.P5 = 0) → s.absentRange (bitOf x.P0 0) start (64 * x.P3) = false →
      (x.src ≠ .rind → s.visibleRange (bitOf x.P0 0) start (64 * x.P3) = true) → s.unitsOn A.CHK_UNIT 4 1 ≠ [] →
      s.scanFull = false →
      k = { slip := x, hdm1 := bitOf x.P0 0, crc64 := bitOf x.P0 1, start := start, len := 64 * x.P3, seed := x.P4 + 2 ^ 32 * x.P5 } →
      exec (.CHK_SCAN x) s = .next ((SlipRes.wait (s.queueScan k)).close Op.CHK_SCAN x))
    ∧ (∀ k, badParam x [0xFFFFFFFF, 0xFFFFFFFF, 0xFFFFFFFF, 0xFFFFFFFF, 0xFFFFFFFF, 0xFFFFFFFF] = none → x.payload.length % 16 = 0 → x.payload ≠ [] →
      s.keyMissing x.ten = none → (s.tenant x.ten).key = some k → s.unitsOn A.CHK_UNIT 5 4 ≠ [] → x.payload.length ≤ x.P5 →
      (s.takenUp Op.CHK_XTS_ENC x = true → exec (.CHK_XTS_ENC x) s = .next (((s.bump F.CHK_CNT_XTS_COUNT).jobOn A.CHK_UNIT 47 5 4).finish Op.CHK_XTS_ENC x
        (Answer.ok 0 0 (xtsEnc (tenantXts k "yudar slip") (x.P0 + 2 ^ 32 * x.P1 + 2 ^ 64 * x.P2 + 2 ^ 96 * x.P3) x.payload))))
      ∧ (s.takenUp Op.CHK_XTS_DEC x = true → exec (.CHK_XTS_DEC x) s = .next (((s.bump F.CHK_CNT_XTS_COUNT).jobOn A.CHK_UNIT 47 5 4).finish Op.CHK_XTS_DEC x
        (Answer.ok 0 0 (xtsDec (tenantXts k "yudar slip") (x.P0 + 2 ^ 32 * x.P1 + 2 ^ 64 * x.P2 + 2 ^ 96 * x.P3) x.payload)))))
    ∧ (s.code x.src = 4 → s.flag F.SEC_STATE_DEBUG_UNLOCKED = true →
      (∀ j, s.takenUp Op.DIAG_INJECT x = true → badParam x [0xFFFF00FF, 0xFFFFFFFF, 0xFFFFFFFF, 0xFF, 0, 0] = none →
        bitsOf x.P0 7 0 ∈ [1, 3, 5, 7, 9, 11, 12, 13, 14] → x.P3 ≠ 0 →
        (bitsOf x.P0 31 16 / 8192 = 0 ∨ s.unitState (bitsOf x.P0 31 16) ≠ 0) →
        j = { kind := bitsOf x.P0 7 0, unit := bitsOf x.P0 31 16, address := x.P1 + 2 ^ 32 * x.P2, count := x.P3 } →
        exec (.DIAG_INJECT x) s = .next ((s.updErrs (fun e => { e with inject := e.inject ++ [j] })).finish Op.DIAG_INJECT x (Answer.ok 0)))
      ∧ (s.takenUp Op.DIAG_TRACE x = true → badParam x [3, 0xFF, 0xFFFFFFFF, 0, 0xFFFFFFFF, 0xFFFFFFFF] = none →
        (∀ t, t = { s with trace := { s.trace with on := false } } →
          exec (.DIAG_TRACE_STOP x) s = .next (t.finish Op.DIAG_TRACE x (Answer.ok s.trace.recs.length)))
        ∧ (∀ t, t = { s with trace := { on := true, mask := x.P1, recs := [] } } →
          exec (.DIAG_TRACE_START x) s = .next (t.finish Op.DIAG_TRACE x (Answer.ok 0)))
        ∧ (bitsOf x.P0 1 0 = 2 → exec (.DIAG_TRACE_READ x) s = .next (s.finish Op.DIAG_TRACE x
          (Answer.ok s.trace.recs.length 0 (structure0 0xFC01 ((s.trace.recs.drop x.P2).flatMap TraceRec.bytes))))))))
  ∧ (∀ (s t : State) (k : Scan) (rest : List Scan) (hurt : Option (Nat × Nat)) (crc : Nat), s.scans = k :: rest → s.scanning = true →
    hurt = (List.range (k.len / 64)).findSome? (fun i => if s.lineHurt k.hdm1 (k.start + 64 * i) then s.lineOf k.hdm1 (k.start + 64 * i) else none) →
    crc = crcOf k.crc64 (if bitOf k.slip.P0 2 then some k.seed else none) (s.hdmRead k.hdm1 k.start k.len) →
    t = (((({ s with scans := rest, scanning := false } : State).bump F.CHK_CNT_SCAN_COUNT).bumpBy F.CHK_CNT_BYTES_COUNT k.len).jobOn A.CHK_UNIT 47 4 1) →
    (hurt = none → exec .SCAN_COMPLETE s =
      .next (((t.setFld F.CHK_SCAN_LAST_CRC crc).finish Op.CHK_SCAN k.slip (Answer.ok crc)).startScan))
    ∧ (∀ l u, hurt = some l → u = (t.bump F.CHK_CNT_MEDIA_COUNT).lineRecord l →
      exec .SCAN_COMPLETE s = .next ((u.1.finish Op.CHK_SCAN k.slip (Answer.st St.MEDIA u.2)).startScan)))

/-- LINK_PARITY_ERROR on a link that is UP counts a replay, in ERR_CNT_REPLAY and in REPLAYS of the link. LINK_RETRAIN on a link that is UP writes a LINK_REPLAY_EXHAUSTED record; the first within 1 s sets the link RETRAINING and counts, a second within 1 s fails it. LINK_RETRAIN_DONE ends a retrain: UP when it succeeded, FAILED when not. UNCORRECTABLE_ERROR counts the error, poisons the line, and recovers or loses what it held. CE_THRESHOLD adds the corrections not yet counted to the totals and to the stack's or channel's count, and while CE_THRESH is not 0 writes the record of its memory; for HBM the row joins the row candidates. ERR_IRQ_GAP_END sends the message held back once 10 µs have passed. ERR_LOG_SEL keeps INDEX and STICKY and shows the record they name, VALID telling whether there is one. ERR_STICKY_CLR with CLR empties the sticky area; it also ends a fault hold with the warm restart, after which a restore is owed, which is the model's reading (log entry 64). CONSERVATION_VIOLATION of a quantity of Table 14.1 while slips are taken has the effect of a violation. AUDIT_SWEEP while slips are taken outside a fault hold moves to the next quantity, counts what it left, and reports the violation it finds or counts the sweep when the last quantity is done. -/
def Obligations.ErrorEventsComplete : Prop :=
  (∀ (l w : Nat) (s : State), s.linkState l = 0 →
    exec (.LINK_PARITY_ERROR l) s = .next ((s.bump F.ERR_CNT_REPLAY_COUNT).bumpSat (F.ERR_LINK_REPLAYS.at (8 * l)))
    ∧ (∀ t, t = (s.errRecord 1 Ek.LINK_REPLAY_EXHAUSTED (errUnit 4 l) w 0).updErrs
        (fun e => { e with exhausted := tPut e.exhausted l (s.errRecord 1 Ek.LINK_REPLAY_EXHAUSTED (errUnit 4 l) w 0).tick }) →
      (tGet s.errs.exhausted l = none → exec (.LINK_RETRAIN l w) s = .next (((t.setFld (F.ERR_LINK_STATE.at (8 * l)) 1).bump
        F.ERR_CNT_RETRAIN_COUNT).bumpSat (F.ERR_LINK_RETRAINS.at (8 * l))))
      ∧ (∀ z, tGet s.errs.exhausted l = some z → s.tick < z + 100000000 → exec (.LINK_RETRAIN l w) s = .next (t.linkFailed l))))
  ∧ (∀ (l : Nat) (s : State), s.linkState l = 1 →
    exec (.LINK_RETRAIN_DONE l true) s = .next (s.setFld (F.ERR_LINK_STATE.at (8 * l)) 0)
    ∧ exec (.LINK_RETRAIN_DONE l false) s = .next (s.linkFailed l))
  ∧ (∀ (mem addr : Nat) (d : LostData) (s : State),
    exec (.UNCORRECTABLE_ERROR mem addr d) s = .next (((s.countUe mem addr).poisonLine mem addr).lose mem addr d))
  ∧ (∀ (loc addr n : Nat) (s h d r : State),
    h = (s.bumpBy F.ERR_CNT_HBM_CE_COUNT n).setFld (F.ERR_HBM_CE.at (8 * (loc % 12)))
      (sat 32 ((s.bumpBy F.ERR_CNT_HBM_CE_COUNT n).fld (F.ERR_HBM_CE.at (8 * (loc % 12))) + n)) →
    d = (s.bumpBy F.ERR_CNT_DDR_CE_COUNT n).setFld (F.ERR_DDR_CE.at (8 * (loc % 12)))
      (sat 32 ((s.bumpBy F.ERR_CNT_DDR_CE_COUNT n).fld (F.ERR_DDR_CE.at (8 * (loc % 12))) + n)) →
    r = s.bumpBy F.ERR_CNT_SRAM_CE_COUNT n →
    exec (.CE_THRESHOLD 0 loc addr n) s = .next (if h.fld F.ERR_CE_CFG_CE_THRESH = 0 then h
      else (h.errRecord 0 Ek.HBM_CE_THRESHOLD (errUnit 6 (loc % 12)) addr 0).rowCandidate (addr / 2048 % 2 ^ 29) n)
    ∧ exec (.CE_THRESHOLD 1 loc addr n) s = .next (if d.fld F.ERR_CE_CFG_CE_THRESH = 0 then d
      else d.errRecord 0 Ek.DDR_CE_THRESHOLD (errUnit 5 (loc % 12)) addr 0)
    ∧ exec (.CE_THRESHOLD 2 loc addr n) s = .next (if r.fld F.ERR_CE_CFG_CE_THRESH = 0 then r
      else r.errRecord 0 Ek.SRAM_CE_THRESHOLD 0 addr 0))
  ∧ (∀ (s t : State) (z : Nat), s.errs.irqHeld = true → s.errs.lastIrq = some z → z + 1000 ≤ s.tick →
    t = s.updErrs (fun e => { e with irqHeld := false, lastIrq := some s.tick }) →
    exec .ERR_IRQ_GAP_END s = .next (t.sendMsix (t.fld F.ERR_CTRL_VEC)))
  ∧ (∀ (value : Word) (s t : State) (shown : Option ErrRec),
    t = s.setReg A.ERR_LOG_SEL (BitVec.ofNat 64 (value.toNat % 2 ^ 32 + (if value.toNat.testBit 62 then 2 ^ 62 else 0))) →
    shown = (if value.toNat.testBit 62 then t.errs.sticky[value.toNat % 16]? else t.errs.log.find? (fun r => r.index == value.toNat % 2 ^ 32)) →
    exec (.ERR_LOG_SEL value) s = .next ((t.updErrs (fun e => { e with shown := shown })).setFld F.ERR_LOG_SEL_VALID (b2n shown.isSome)))
  ∧ (∀ (value : Word) (s t : State), value.toNat.testBit 63 = true → t = s.updErrs (fun e => { e with sticky := [] }) →
    (t.flag F.RIND_AUDIT_STATUS_FAULT_HOLD = false → exec (.ERR_STICKY_CLR value) s = .next t)
    ∧ (t.flag F.RIND_AUDIT_STATUS_FAULT_HOLD = true → ∃ u, u = t.beginWarm 3 ∧
      exec (.ERR_STICKY_CLR value) s = .next { u with boot := { u.boot with owed := true } }))
  ∧ (∀ (code check object : Nat) (slip : Option (Ctx × BitVec 32)) (s : State), s.takesSlips = true → 1 ≤ code → code ≤ 7 →
    exec (.CONSERVATION_VIOLATION code check object slip) s = .next (s.violation code check object slip))
  ∧ (∀ (left : Nat) (s : State) (code : Nat) (t : State), s.takesSlips = true → s.fld F.BOOT_STATE_STATE ≠ 8 →
    code = (if s.fld F.RIND_AUDIT_STATUS_SWEEP_CODE ≥ 7 then 1 else s.fld F.RIND_AUDIT_STATUS_SWEEP_CODE + 1) →
    t = ((s.setFld F.RIND_AUDIT_STATUS_SWEEP_CODE code).setFld F.RIND_AUDIT_STATUS_SWEEP_POS
      (s.sweepSize code)).bumpBy F.RIND_AUDIT_CNT_RECHECK_COUNT left →
    (∀ o, t.breach code = some o → exec (.AUDIT_SWEEP left) s = .next (t.violation code 1 o none))
    ∧ (t.breach code = none → exec (.AUDIT_SWEEP left) s = .next (if code = 7 then t.bump F.RIND_AUDIT_CNT_SWEEP_COUNT else t)))

/-- For a slip taken up with ACCESSION 0 and no reserved parameter bit set, and, where R389 asks for it, with presence. SEC_PRINCIPAL_ENROL of a well-formed new principal writes it to the first free index and answers that index. SEC_PRINCIPAL_REVOKE of an enrolled index removes it, closes its connections and answers how many; when it came on one of them it gets no reply. SEC_TENANT_STATUS answers the key's presence, the erasure by seal, TRUST_OPERATOR, the trust list's length and the KCV. SEC_TENANT_ERASE closes the tenant's sessions, drops its shards, disables its rings, forgets its settings and key, and answers the counts. SEC_CONF_HOST records the mode for the next reset. SEC_DEBUG_UNLOCK with no bundle and no tenant key unlocks debug. SEC_FUSE_PROGRAM of defect marks of units of the variant blows the fuses not blown before and answers how many; of row repairs none of which is barred it moves what each row holds, programs its repair, and answers how many. A slip of an M context that needed presence and succeeded closes the window. -/
def Obligations.SecuritySlipsComplete : Prop :=
  ∀ (x : Slip) (s : State), x.acc = 0 →
    (∀ p i role n, s.takenUp Op.SEC_PRINCIPAL_ENROL x = true → s.present x.src = true → badParam x [0, 0, 0, 0, 0, 0] = none →
      badStruct 0x2800 17 x.payload = none → role = rdLe x.payload 8 1 → n = rdLe x.payload 12 2 → 1 ≤ role → role ≤ 7 → (role = 6 → rdLe x.payload 10 2 ≤ 0xFFF ∨ 0xFFFF ≤ rdLe x.payload 10 2) →
      1 ≤ n → n ≤ 256 → 16 + n ≤ rdLe x.payload 4 4 →
      p = { role := role, kinds := if role = 6 then rdLe x.payload 9 1 % 32 else 0, tenant := if role = 6 then rdLe x.payload 10 2 else 0, digest := sha384 (slice x.payload 16 n) } →
      s.principals.find? (fun q => q.2.digest == p.digest && q.2.role == role) = none → tFree s.principals 1 64 0 = some i →
      exec (.SEC_PRINCIPAL_ENROL x) s = .next (((({ s with principals := tPut s.principals i p } : State).principalsChanged).usePresence x St.OK).finish
        Op.SEC_PRINCIPAL_ENROL x (Answer.ok i)))
    ∧ (∀ cs t, s.takenUp Op.SEC_PRINCIPAL_REVOKE x = true → badParam x [0x3F, 0, 0, 0, 0, 0] = none → (tGet s.principals x.P0).isSome = true →
      cs = (s.mgmt.filter (fun c => c.2.principal == x.P0)).map (·.1) → t = ({ s with principals := tDel s.principals x.P0 } : State).principalsChanged →
      (cs.any (fun c => x.src == .mgmt c) = false → exec (.SEC_PRINCIPAL_REVOKE x) s =
        .next ((cs.foldl State.closeMgmt t).finish Op.SEC_PRINCIPAL_REVOKE x (Answer.ok cs.length)))
      ∧ (cs.any (fun c => x.src == .mgmt c) = true → ∃ u : State,
        u = { t with slips := t.slips.filter (fun o => !(o.slip.src == x.src && o.slip.tag == x.tag)) } ∧
        exec (.SEC_PRINCIPAL_REVOKE x) s = .next ((SlipRes.gone (cs.foldl State.closeMgmt u)).close Op.SEC_PRINCIPAL_REVOKE x)))
    ∧ (∀ v, s.takenUp Op.SEC_TENANT_STATUS x = true → badParam x [0, 0, 0, 0, 0, 0] = none → v = s.tenant x.ten →
      exec (.SEC_TENANT_STATUS x) s = .next (s.finish Op.SEC_TENANT_STATUS x (Answer.ok
        (b2n v.key.isSome + 2 * b2n v.sealedErase + 4 * b2n v.trustOperator + 8 * v.trust.length + v.kcv * 2 ^ 32))))
    ∧ (∀ ss a ids b rs c, s.takenUp Op.SEC_TENANT_ERASE x = true → s.present x.src = true → badParam x [0, 0, 0, 0, 0, 0] = none →
      ss = (s.sessions.filter (fun p => p.2.tenant == x.ten && p.2.state != Ss.CLOSED)).map (·.1) → ((s.tenant x.ten).key.isSome = true ∨ ss ≠ []) →
      a = ss.foldl (fun (s : State) i => { (s.stopWork i).closeSess i with moves := tDel s.moves i }) s →
      ids = (a.shards.filter (fun v => v.2.tenant == x.ten)).map (·.1) → b = ids.foldl (fun (s : State) i => (s.dropShard i).1) a →
      rs = (b.rings.filter (fun r => r.2.tenant == x.ten && r.2.state != 0)).map (·.1) →
      c = rs.foldl (fun (s : State) n => s.setRing n { s.ring n with state := 0, owner := none, pushes := [], batch := [] }) b →
      exec (.SEC_TENANT_ERASE x) s = .next ((((c.forgetTenant x.ten).reclaimCheck.bump F.SEC_CNT_ERASE_COUNT).usePresence x St.OK).finish
        Op.SEC_TENANT_ERASE x (Answer.ok ss.length ids.length)))
    ∧ (∀ t, s.takenUp Op.SEC_CONF_HOST x = true → badParam x [1, 0, 0, 0, 0, 0] = none → s.sec.confNext ≠ bitOf x.P0 0 →
      t = { s with sec := { s.sec with confNext := bitOf x.P0 0 } } →
      exec (.SEC_CONF_HOST x) s = .next (((t.setFld F.SEC_STATE_CONF_HOST_NEXT (b2n (bitOf x.P0 0))).emit (.flashWrite 0)).finish
        Op.SEC_CONF_HOST x (Answer.ok (b2n (bitOf x.P0 0)))))
    ∧ (s.takenUp Op.SEC_DEBUG_UNLOCK x = true → s.present x.src = true → badParam x [0, 0, 0, 0, 0, 0] = none → s.flag F.SEC_STATE_DEBUG_UNLOCKED = false →
      s.loaded = false → (∀ t ∈ s.tenants, t.2.key = none) → exec (.SEC_DEBUG_UNLOCK x) s =
      .next (((s.setFld F.SEC_STATE_DEBUG_UNLOCKED 1).measured.usePresence x St.OK).finish Op.SEC_DEBUG_UNLOCK x (Answer.ok)))
    ∧ (∀ field n es fresh, s.takenUp Op.SEC_FUSE_PROGRAM x = true → s.present x.src = true → badParam x [0, 0, 0, 0, 0, 0] = none → badStruct 0x2806 12 x.payload = none →
      field = rdLe x.payload 8 1 → n = rdLe x.payload 10 2 → 1 ≤ field → field ≤ 3 → 1 ≤ n → n ≤ 64 → 12 + 4 * n ≤ rdLe x.payload 4 4 →
      es = (List.range n).map (fun k => rdLe x.payload (12 + 4 * k) 4) → (∀ e ∈ es, (markFuse field e).isSome = true ∧ s.markPresent field e = true) →
      fresh = (es.filterMap (markFuse field)).eraseDups.filter (fun a => !s.fuseBit a) →
      exec (.SEC_FUSE_PROGRAM x) s = .next (((if fresh = [] then s else (s.blow fresh).measured).usePresence x St.OK).finish
        Op.SEC_FUSE_PROGRAM x (Answer.ok fresh.length)))
    ∧ (∀ n es r, s.takenUp Op.SEC_FUSE_PROGRAM x = true → s.present x.src = true → badParam x [0, 0, 0, 0, 0, 0] = none → badStruct 0x2806 12 x.payload = none →
      rdLe x.payload 8 1 = 4 → n = rdLe x.payload 10 2 → 1 ≤ n → n ≤ 64 → 12 + 4 * n ≤ rdLe x.payload 4 4 →
      es = (List.range n).map (fun k => rdLe x.payload (12 + 4 * k) 4) → (∀ e ∈ es, e < 2 ^ 29 ∧ s.markPresent 4 e = true) →
      r = es.foldl (fun (a : State × Option Answer × Nat) row => match a.2.1, a.1.repairBarred row with
        | some _, _ => a
        | none, some no => (a.1, some no, a.2.2)
        | none, none => ((a.1.repairMove row).repairBurn row, none, a.2.2 + 1)) (s, none, 0) → r.2.1 = none →
      exec (.SEC_FUSE_PROGRAM x) s = .next ((r.1.usePresence x St.OK).finish Op.SEC_FUSE_PROGRAM x (Answer.ok r.2.2)))

/-- In an open secure session of the role the message needs, with the responder up and the Rind not being reset, each answered with STATUS on the session's transport. KEY_DELIVER of a well-formed new key, nothing barring keys and the store not full, stores the key, KCV and trust list, provisions the tenant, counts, lets what waited for the key go on, and answers OK; of the key already held it replaces the trust list and answers ALREADY_DONE. KEY_QUERY answers the key's state and KCV. BUNDLE_KEY holds the key for its profile. BOUNCE_KEYS in confidential-host mode over MCTP in CXL.io, before any pair or ring was enabled, answers the two keys and salts, which are free (log entry 67). SPDM_REQUEST: GET_VERSION answers version 1.2; FINISH with a leaf enrolled as KEYSVC or CONF_HOST, genuine and with a session free opens it; END_SESSION of one's own session ends it. The response codes are those of the SPDM standard (log entry 68). -/
def Obligations.KeyMessagesComplete : Prop :=
  (∀ (k tenant flags kcv : Nat) (key : Bytes) (trust : List Bytes) (s t : State) (v : SpdmSess), s.responds = true → s.sec.rindUntil ≤ s.tick →
    tGet s.sec.spdm k = some v → v.role = 4 → s.keysBarred = none →
    ((tenant ≤ 0xFFF ∨ tenant = 0xFFFF) → trust.length ≤ 16 → key.length = 32 → kcvOf key = kcv →
      t = (s.updTenant tenant (fun w => { w with
        provisioned := true, key := some key, kcv := kcv, trustOperator := bitOf flags 0, trust := trust, sealedErase := false })).bump F.SEC_CNT_KEY_DELIVER_COUNT →
      ((s.tenant tenant).key = none → (s.tenants.filter (fun z => z.2.key.isSome)).length < 4097 →
        exec (.KEY_DELIVER k tenant flags key kcv trust) s = .next ((t.keyHere tenant).spdm v.transport 0x7E (leBytes 2 St.OK)))
      ∧ ((s.tenant tenant).key = some key →
        exec (.KEY_DELIVER k tenant flags key kcv trust) s = .next (t.spdm v.transport 0x7E (leBytes 2 St.ALREADY_DONE))))
    ∧ (key.length = 32 → ∀ u : State, u = { s with boot := { s.boot with bundleKey := some (tenant, key) } } →
      exec (.BUNDLE_KEY k tenant key) s = .next (u.spdm v.transport 0x7E (leBytes 2 St.OK))))
  ∧ (∀ (k tenant : Nat) (s : State) (v : SpdmSess), s.responds = true → s.sec.rindUntil ≤ s.tick → tGet s.sec.spdm k = some v → v.role = 4 →
    (tenant ≤ 0xFFF ∨ tenant = 0xFFFF) → exec (.KEY_QUERY k tenant) s = .next (s.spdm v.transport 0x7E (leBytes 2 St.OK
      ++ (leBytes 1 (b2n (s.tenant tenant).key.isSome + 2 * b2n (s.tenant tenant).sealedErase) ++ leBytes 4 (s.tenant tenant).kcv))))
  ∧ (∀ (k : Nat) (s t : State) (v : SpdmSess) (b : Bytes × Bytes), s.responds = true → s.sec.rindUntil ≤ s.tick → tGet s.sec.spdm k = some v → v.role = 5 →
    v.transport = 0 → s.conf = true → s.sec.hostUsed = false → s.flag F.SEC_STATE_DEBUG_UNLOCKED = false → s.flag F.SEC_STATE_SERVICE = false →
    b = (slice (Config.bounceKey s.freeCtr) 0 36, slice (Config.bounceKey (s.freeCtr + 1)) 0 36) →
    t = { s with freeCtr := s.freeCtr + 2, sec := { s.sec with bounce := some b, bounceSeq := 0 } } →
    exec (.BOUNCE_KEYS k) s = .next (t.spdm 0 0x7E (leBytes 2 St.OK ++ (b.1 ++ b.2))))
  ∧ (∀ (transport k : Nat) (s : State), s.responds = true → s.sec.rindUntil ≤ s.tick →
    exec (.SPDM_REQUEST transport .getVersion) s = .next (s.spdm transport 0x04 [0x12])
    ∧ (∀ leaf p, s.principals.find? (fun p => p.2.digest == leaf && (p.2.role == 4 || p.2.role == 5)) = some p → tFree s.sec.spdm 1 8 0 = some k →
      ∃ t : State, t = { s with sec := { s.sec with spdm := tPut s.sec.spdm k { transport := transport, principal := p.1, role := p.2.role } } } ∧
        exec (.SPDM_REQUEST transport (.finish leaf true)) s = .next (t.spdm transport 0x65 (leBytes 1 k)))
    ∧ (∀ v, tGet s.sec.spdm k = some v → v.transport = transport → ∃ t : State, t = s.spdm transport 0x6C [] ∧
      exec (.SPDM_REQUEST transport (.endSession k)) s = .next { t with sec := { t.sec with spdm := tDel t.sec.spdm k } }))

/-- A lockstep mismatch or a Rind watchdog expiry outside a hold counts and resets the Rind's cores; the kind of a lockstep record is free (log entry 33). DESK_WATCHDOG_EXPIRY on an enabled desk core answers TIMEOUT to the slips outstanding on it, which have no effect afterwards, writes a WATCHDOG record, resets the core, and disables it at the third time within 1 s. A press of 100 ms to 3 s, neither stuck nor in chatter, opens the presence window for 30 s and counts; PRESENCE_WINDOW_END at its end closes it; PRESENCE_STUCK notes the button stuck, its levels pressed, and counts, or free again, its levels not pressed (what the levels read is log entry 94). INPUT_CHATTER counts and: ignores presses for 10 s, or takes the jumper as removed, or breaks the seal. JUMPER_REMOVED ends service mode. A tamper mismatch begins an episode and counts, a match ends it; SEAL_BREAK of an episode longer than 500 µs breaks the loop. -/
def Obligations.SecurityEventsComplete : Prop :=
  (∀ s : State, s.boot.hold = 0 →
    exec .RIND_LOCKSTEP_MISMATCH s = .next ((s.bumpSat F.RIND_LOCKSTEP_MISMATCHES).rindReset (Config.errKind 0 % 256))
    ∧ exec .RIND_WATCHDOG_EXPIRY s = .next ((s.bumpSat F.RIND_LOCKSTEP_WDOG_EXPIRIES).rindReset Ek.WATCHDOG))
  ∧ (∀ (core u : Nat) (slips : List (Ctx × BitVec 32)) (s v t : State), core < 8 → u = errUnit 7 (3 * 256 + core) → s.unitState u = 2 →
    v = slips.foldl (fun (s : State) k => match s.outst k.1 k.2 with
      | some o => let s := { s with held := s.held.filter (fun h => !(h.1.slip.src == k.1 && h.1.slip.tag == k.2)) }
        let s := s.finish o.op o.slip (Answer.st St.TIMEOUT)
        if o.op == Op.SESS_PARK then s.giveUpPark o.slip.acc else s.giveUpRevive o.slip.acc
      | none => s) s →
    t = { v with sec := { v.sec with deskResets := (v.sec.deskResets.filter (fun d => v.tick < d.2 + 100000000)) ++ [(core, v.tick)] } } →
    exec (.DESK_WATCHDOG_EXPIRY core slips) s = .next (if (t.sec.deskResets.filter (·.1 == core)).length ≥ 3 then
      ((t.errRecord 3 Ek.WATCHDOG u 0 0).resetUnit u).disableUnit u else (t.errRecord 3 Ek.WATCHDOG u 0 0).resetUnit u))
  ∧ (∀ (low : Nat) (s t : State), s.sec.stuck = false → s.sec.quietUntil ≤ s.tick → 100 ≤ low → low ≤ 3000 → s.boot.hold = 0 →
    t = { s with sec := { s.sec with windowEnd := some (s.tick + 3000000000) } } → exec (.PRESENCE_PRESS low) s = .next (t.bump F.SEC_CNT_PRESS_COUNT))
  ∧ (∀ (s : State) (t : Nat), s.sec.windowEnd = some t → t ≤ s.tick → exec .PRESENCE_WINDOW_END s = .next s.closeWindow)
  ∧ (∀ (s : State) (on : Bool) (t : State), s.sec.stuck ≠ on →
    t = ((({ s with sec := { s.sec with stuck := on } } : State).setInput F.SEC_INPUTS_PRESENCE 0 on).setInput F.SEC_INPUTS_PRESENCE 1 on).setInput
      F.SEC_INPUTS_PRESENCE 2 on →
    exec (.PRESENCE_STUCK on) s = .next (if on then t.bump F.SEC_CNT_STUCK_COUNT else t))
  ∧ (∀ (s t : State), s.boot.hold = 0 → t = s.bump F.SEC_CNT_CHATTER_COUNT →
    exec (.INPUT_CHATTER 0) s = .next { t with sec := { t.sec with quietUntil := t.tick + 1000000000 } }
    ∧ exec (.INPUT_CHATTER 1) s = .next (t.noJumper.setInput F.SEC_INPUTS_JUMPER 3 true)
    ∧ exec (.INPUT_CHATTER 2) s = .next ((t.setInput F.SEC_INPUTS_SEAL 3 true).sealBreak))
  ∧ (∀ s : State, exec .JUMPER_REMOVED s = .next s.noJumper)
  ∧ (∀ (s t : State), t = { s with sec := { s.sec with episode := some s.tick } } →
    (s.sec.episode = none → exec (.SEAL_EPISODE true) s = .next ((t.setInput F.SEC_INPUTS_SEAL 1 false).bump F.SEC_CNT_SEAL_GLITCH_COUNT))
    ∧ ∃ u : State, u = { s with sec := { s.sec with episode := none } } ∧ exec (.SEAL_EPISODE false) s = .next (u.setInput F.SEC_INPUTS_SEAL 1 true))
  ∧ (∀ (s : State) (t : Nat), s.sec.episode = some t → t + 50000 < s.tick → exec .SEAL_BREAK s = .next s.sealBreak)

/-- For a slip taken up with ACCESSION 0 and no reserved parameter bit set. MAINT_LOCK of an activity on a scope it may name, present, with no lock against it and room in the table, takes the lock and answers its ID. MAINT_UNLOCK of one's own lock releases it, or waits for the activity that runs under it. MAINT_PATROL and MAINT_RETRAIN of a present target, their lock granted, start and wait; a port goes down while it retrains. MAINT_ROW_REPAIR with presence, nothing barring the row, moves what the row holds and waits. MAINT_RESET of a unit, not being reset with its cluster or partition, resets it and answers 0, and after the third tidy-core reset within 1 s resets the cluster; of a cluster or an ACTIVE partition it starts the reset and waits; of the device it restarts warm without a reply. MAINT_UNIT_DISABLE of a unit in service disables it and answers the new count, unless that would fall below its floor without FORCE. MAINT_FW_UPDATE within the region starts the write and waits; with ACTIVATE under its lock. MAINT_FW_ROLLBACK with presence to an image that passes R404 starts the boot control write and waits. -/
def Obligations.MaintenanceSlipsComplete : Prop :=
  ∀ (x : Slip) (s : State), x.acc = 0 →
    (s.takenUp Op.MAINT_LOCK x = true → badParam x [15, 7, 0xFFFF, 0, 0, 0] = none → 1 ≤ x.P0 → x.P0 ≤ 8 → x.P1 ∈ (activityScopes x.P0).1 →
      (x.P1 = 1 → x.P2 ∈ (activityScopes x.P0).2) → (x.P1 = 0 → x.P2 = 0) → s.scopeBad x.P1 x.P2 2 = none → s.lockBusy x.P0 x.P1 x.P2 = none →
      (s.locks.filter (fun o => !(o.against x.P0 x.P1 x.P2 && o.yields))).length < 32 →
      exec (.MAINT_LOCK x) s = .next ((s.takeLock (some x.src) x.P0 x.P1 x.P2 false false).finish Op.MAINT_LOCK x (Answer.ok s.lockId)))
    ∧ (∀ l, s.takenUp Op.MAINT_UNLOCK x = true → badParam x [0xFFFF, 0, 0, 0, 0, 0] = none →
      s.locks.find? (fun l => l.id == x.P0 && l.holder == some x.src) = some l →
      (l.active = false → exec (.MAINT_UNLOCK x) s = .next ((s.dropLocks (fun o => o.id == l.id)).finish Op.MAINT_UNLOCK x (Answer.ok)))
      ∧ (l.active = true → ∃ t : State, t = { s with locks := s.locks.map (fun (o : Lock) => if o.id == l.id then { o with ending := true } else o) } ∧
        exec (.MAINT_UNLOCK x) s = .next ((SlipRes.wait t).close Op.MAINT_UNLOCK x)))
    ∧ (∀ t l, s.takenUp Op.MAINT_PATROL x = true → badParam x [7, 0xFFFF, 0xFF, 0xFFFFFFFF, 0, 0] = none → 1 ≤ x.P0 → x.P0 ≤ 3 → (x.P0 = 1 → x.P1 ≤ 2) →
      s.scopeBad x.P0 x.P1 1 = none → 1 ≤ x.P2 → x.P2 ≤ 64 → s.lockFor x Ac.PATROL x.P0 x.P1 x.P3 = .ok (t, l) →
      exec (.MAINT_PATROL x) s = .next ((SlipRes.wait (t.beginAct
        { lock := l, activity := Ac.PATROL, scope := x.P0, index := x.P1, slip := some x, row := 0 })).close Op.MAINT_PATROL x))
    ∧ (∀ t l u, s.takenUp Op.MAINT_RETRAIN x = true → badParam x [7, 0xFFFF, 0, 0xFFFFFFFF, 0, 0] = none → 2 ≤ x.P0 → x.P0 ≤ 4 →
      s.scopeBad x.P0 x.P1 1 = none → s.lockFor x Ac.RETRAIN x.P0 x.P1 x.P3 = .ok (t, l) →
      u = t.beginAct { lock := l, activity := Ac.RETRAIN, scope := x.P0, index := x.P1, slip := some x, row := 0 } →
      exec (.MAINT_RETRAIN x) s = .next ((SlipRes.wait (if x.P0 = 4 then u.portDown x.P1 else u)).close Op.MAINT_RETRAIN x))
    ∧ (∀ t l, s.takenUp Op.MAINT_ROW_REPAIR x = true → s.present x.src = true → badParam x [2 ^ 29 - 1, 0, 0, 0xFFFFFFFF, 0, 0] = none →
      s.stackOn (x.P0 / 2 ^ 25) = true → s.lockFor x Ac.ROW_REPAIR 2 (x.P0 / 2 ^ 25) x.P3 = .ok (t, l) → s.repairBarred x.P0 = none →
      exec (.MAINT_ROW_REPAIR x) s = .next ((SlipRes.wait ((t.repairMove x.P0).beginAct
        { lock := l, activity := Ac.ROW_REPAIR, scope := 2, index := x.P0 / 2 ^ 25, slip := some x, row := x.P0 })).close Op.MAINT_ROW_REPAIR x))
    ∧ (s.takenUp Op.MAINT_RESET x = true → badParam x [3, 0xFFFF, 0, 0, 0, 0] = none →
      (∀ t c, resettable x.P1 = true → unitValid x.P1 = true → s.unitState x.P1 ≠ 0 → s.unitResetting x.P1 = false → t = s.resetUnit x.P1 → c = x.P1 % 8192 / 17 →
        exec (.MAINT_RESET_UNIT x) s = .next ((if x.P1 / 8192 = 3 ∧ 3 ≤ (t.boot.tidyResets.filter (·.1 == c)).length ∧ t.boot.clusters.contains c = false
          then t.beginCluster c 8 else t).finish Op.MAINT_RESET x (Answer.ok)))
      ∧ (∀ c, c < 16 → x.P1 = clusterUnit c → s.clusterOn c = true → s.boot.clusters.contains c = false → s.part (clusterPart c) = 3 →
        exec (.MAINT_RESET_CLUSTER x) s = .next ((SlipRes.wait (s.beginCluster c 1)).close Op.MAINT_RESET x))
      ∧ (x.P1 ≤ 1 → (x.P1 = 1 → s.onePartition = false) → s.part x.P1 = 3 →
        exec (.MAINT_RESET_PARTITION x) s = .next ((SlipRes.wait (s.resetPartition x.P1 1 [])).close Op.MAINT_RESET x)))
    ∧ (s.takenUp Op.MAINT_RESET x = true → badParam x [3, 0, 0, 0, 0, 0] = none →
      exec (.MAINT_RESET_DEVICE x) s = .next ((SlipRes.gone (s.beginWarm 1)).close Op.MAINT_RESET x))
    ∧ (∀ t, s.takenUp Op.MAINT_UNIT_DISABLE x = true → badParam x [0xFFFF, 1, 0, 0, 0, 0] = none → disablable x.P0 = true → unitValid x.P0 = true →
      s.unitState x.P0 = 2 → t = s.disableUnit x.P0 → (x.P1 = 1 ∨ s.unitCount x.P0 ≤ t.unitCount x.P0 ∨ s.unitFloor x.P0 ≤ t.unitCount x.P0) →
      exec (.MAINT_UNIT_DISABLE x) s = .next (t.finish Op.MAINT_UNIT_DISABLE x (Answer.ok (t.unitCount x.P0))))
    ∧ (∀ n j, s.takenUp Op.MAINT_FW_UPDATE x = true → badParam x [0xFFFFFFFF, 3, 0, 0, 0, 0] = none → badStruct 0x2C03 8 x.payload = none →
      n = rdLe x.payload 4 4 - 8 → x.P0 + n ≤ 0x1F00000 → j = FlashJob.image (imageBase s.inactive + x.P0) (slice x.payload 8 n) x →
      exec (.MAINT_FW_UPDATE x) s = .next ((SlipRes.wait (s.flashJob j)).close Op.MAINT_FW_UPDATE x)
      ∧ (∀ t l, s.lockFor x Ac.FW_ACTIVATE 0 0 0 = .ok (t, l) →
        exec (.MAINT_FW_ACTIVATE x) s = .next ((SlipRes.wait (t.flashJob j)).close Op.MAINT_FW_UPDATE x)))
    ∧ (∀ t l, s.takenUp Op.MAINT_FW_ROLLBACK x = true → s.present x.src = true → badParam x [0, 0, 0, 0, 0, 0] = none →
      s.lockFor x Ac.FW_ACTIVATE 0 0 0 = .ok (t, l) → s.imageOk s.inactive = true →
      exec (.MAINT_FW_ROLLBACK x) s = .next ((SlipRes.wait (t.flashJob (.control s.inactive false (some x)))).close Op.MAINT_FW_ROLLBACK x))

/-- PATROL_COMPLETE of a running patrol counts the lines corrected, cleans retired units, and answers both counts. RETRAIN_COMPLETE answers 0, or MEDIA when training failed. ROW_REPAIR_DONE burns the repair and answers its ledger index, or MEDIA. BACKGROUND_PATROL on a present stack or channel with no lock against it takes its lock and runs. CLUSTER_RESET of a cluster under reset ends it, failed units disabled, waiting tiles given out, its waiters answered; without a drain it resets the partition. PARTITION_RESET resets an ACTIVE partition, and of one being reset loses the entries named. PARTITION_ACTIVE ends a reset: ACTIVE with links up, failed units disabled, waiters answered and armed sessions revived, or FAULTED. UNIT_SOFT_DISABLE disables a unit. FLASH_WRITE_DONE raises GEN_FLOOR by 65,536, no further than 0xFFFF_FFFF, or applies an image write or a boot control write, and on failure has the floor written again or answers MEDIA. -/
def Obligations.MaintenanceEventsComplete : Prop :=
  (∀ (lock : Nat) (corrected bad : List (Nat × Nat)) (s t : State) (a : Activity), s.actOf lock Ac.PATROL = some a →
    t = corrected.foldl (fun s c => s.countCe (a.scope == 2 || (a.scope == 1 && a.index == 1)) c.1 c.2) s →
    exec (.PATROL_COMPLETE lock corrected bad) s = .next ((t.patrolClean a bad).1.endAct a
      (Answer.ok ((corrected.map (·.2)).foldl (· + ·) 0) (t.patrolClean a bad).2)))
  ∧ (∀ (lock : Nat) (ok : Bool) (s : State) (a : Activity), s.actOf lock Ac.RETRAIN = some a →
    exec (.RETRAIN_COMPLETE lock ok) s = .next (s.endAct a (if ok then Answer.ok else Answer.st St.MEDIA)))
  ∧ (∀ (lock : Nat) (s : State) (a : Activity) (x : Slip), s.actOf lock Ac.ROW_REPAIR = some a → a.slip = some x →
    exec (.ROW_REPAIR_DONE lock true) s = .next (((s.repairBurn a.row).usePresence x St.OK).endAct a (Answer.ok s.ledger))
    ∧ exec (.ROW_REPAIR_DONE lock false) s = .next ((s.usePresence x St.MEDIA).endAct a (Answer.st St.MEDIA)))
  ∧ (∀ (scope index : Nat) (s : State), s.takesSlips = true → (scope = 2 ∨ scope = 3) → s.scopeBad scope index 0 = none →
    (∀ l ∈ s.locks, l.against Ac.PATROL scope index = false) → s.locks.length < 32 →
    exec (.BACKGROUND_PATROL scope index) s = .next ((s.takeLock none Ac.PATROL scope index true true).beginAct
      { lock := s.lockId, activity := Ac.PATROL, scope := scope, index := index, slip := none, row := 0 }))
  ∧ (∀ (c : Nat) (failed : List Nat) (s t : State), s.boot.clusters.contains c = true →
    t = { s with boot := { s.boot with clusters := s.boot.clusters.filter (· != c) } } →
    exec (.CLUSTER_RESET c true failed) s = .next (((failed.filter (inCluster c)).foldl State.disableUnit t).issue.resetDone 1 (fun p => p == clusterUnit c) (Answer.ok))
    ∧ exec (.CLUSTER_RESET c false failed) s = .next (s.resetPartition (clusterPart c) 7 []))
  ∧ (∀ (p cause : Nat) (lost : List Nat) (s : State), p ≤ 1 → (p = 1 → s.onePartition = false) → cause ≤ 8 → s.part p = 3 →
    exec (.PARTITION_RESET p cause lost) s = .next (s.resetPartition p cause lost))
  ∧ (∀ (p cause : Nat) (lost : List Nat) (s : State), p ≤ 1 → (p = 1 → s.onePartition = false) → cause ≤ 8 → s.part p = 4 →
    exec (.PARTITION_RESET p cause lost) s =
      .next ((lost.filter (fun i => s.home i == p)).foldl (fun s i => s.entryLost i Ek.SRAM_UE 0 0) s))
  ∧ (∀ (p : Nat) (failed : List Nat) (s t : State) (mine : Nat → Bool), p ≤ 1 → s.part p = 4 →
    t = { s with boot := { s.boot with partLink := tDel s.boot.partLink p } } →
    mine = (fun u => u / 256 == clusterUnit 0 / 256 && clusterPart (u % 256) == p) →
    (∀ u, u = ((((failed.filter (inPart p)).foldl State.disableUnit ((t.setPart p 3).partLinksUp p)).issue.resetDone 2 (· == p) (Answer.ok)).resetDone 1 mine (Answer.ok)) →
      exec (.PARTITION_ACTIVE p true failed) s = .next (((u.sessions.filter (fun q => u.home q.1 == p)).map (·.1)).foldl State.reviveArmed u))
    ∧ exec (.PARTITION_ACTIVE p false failed) s = .next (((t.setPart p 5).resetDone 2 (· == p) (Answer.st St.UNIT_FAILED)).resetDone 1 mine
      (Answer.st St.UNIT_FAILED)))
  ∧ (∀ (u : Nat) (s : State), disablable u = true → unitValid u = true → exec (.UNIT_SOFT_DISABLE u) s = .next (s.disableUnit u))
  ∧ (∀ s : State, s.floorBusy = true →
    exec (.FLASH_WRITE_DONE 0 true) s = .next { s with genFloor := min (s.genFloor + 2 ^ 16) (2 ^ 32 - 1), floorBusy := false }
    ∧ exec (.FLASH_WRITE_DONE 0 false) s = .next (s.emit (.flashWrite 0)))
  ∧ (∀ (ok : Bool) (s t : State) (rest : List FlashJob), t = { s with flash := { s.flash with jobs := rest } } →
    (∀ a b x, s.flash.jobs = .image a b x :: rest → exec (.FLASH_WRITE_DONE 1 ok) s = .next (t.imageWritten a b x ok))
    ∧ (∀ p r x, s.flash.jobs = .control p r x :: rest → exec (.FLASH_WRITE_DONE 2 ok) s = .next (t.controlWritten p r x ok)))

/-- For MAINT_BUNDLE_LOAD taken up with ACCESSION 0 in STANDALONE_READY or SERVING. BEGIN with a header steps 1 to 3 of R381 accept, no units held for others on a first load, and an image the cellar has room for, stages the header and answers 0. DATA within the image that agrees with what overlaps it is staged. END of a staged image whose header and chunks verify and whose regions fit: a first load, which no lock on T1 stands against, puts the tables in place, answers PROFILE_ID and issues the restore AUTO asks for; in SERVING it begins the reload. What tables a plaintext gives is free (log entry 61). UNLOAD with every entry FREE and no composition drops the shards, the profile, the slots and the bundle key, clears T1, empties DEV_BUNDLE, the program slots, TEXT_VOCAB, ME_FMT and the pools, ends the secure sessions as measurement 5 changes, and sets STATE to STANDALONE_READY. -/
def Obligations.BundleSlipsComplete : Prop :=
  ∀ (x : Slip) (s : State), x.acc = 0 → s.takenUp Op.MAINT_BUNDLE_LOAD x = true → badParam x [3, 0xFFFFFFFF, 0xFFFFFFFF, 0, 0, 0] = none →
    (s.devState16 = 4 ∨ s.devState16 = 6) →
    (∀ h, badStruct 0x2C02 264 x.payload = none → h = slice x.payload 8 256 → s.holdBars = false → s.headerRefused h = none →
      bundleSize h + 2 ^ 30 ≤ s.cellarBytes →
      exec (.BUNDLE_LOAD_BEGIN x) s = .next ((s.stage { header := h, size := bundleSize h, bytes := [] } 0 h).finish Op.MAINT_BUNDLE_LOAD x (Answer.ok)))
    ∧ (∀ g o b, badStruct 0x2C02 8 x.payload = none → s.boot.staging = some g → o = x.P1 + x.P2 * 2 ^ 32 →
      b = (x.payload.drop 8).take (rdLe x.payload 4 4 - 8) → o + b.length ≤ g.size →
      (∀ c ∈ (List.range b.length).zip b, ∀ v, tGet g.bytes (o + c.1) = some v → v = c.2) →
      exec (.BUNDLE_LOAD_DATA x) s = .next ((s.stage g o b).finish Op.MAINT_BUNDLE_LOAD x (Answer.ok)))
    ∧ (∀ g p q, s.boot.staging = some g → s.holdBars = false → s.headerRefused g.header = none →
      (g.open s.bundleKeyNow).bind Config.bundleProfile = some p → q = { p with id := headerProfile g.header, version := rdLe g.header 8 2 } →
      (q.cellarFirst + q.cellarUnits) * 16384 ≤ s.stagingBase g.size →
      (∀ z, s.devState16 = 4 → s.lockFor x Ac.PROGRAM_RELOAD 1 1 0 = .ok z → exec (.BUNDLE_LOAD_END x) s = .next ((s.firstLoad q g).autoRestore.finish Op.MAINT_BUNDLE_LOAD x (Answer.ok q.id)))
      ∧ (s.devState16 = 6 → exec (.BUNDLE_LOAD_END x) s = .next ((s.beginReload q g x).close Op.MAINT_BUNDLE_LOAD x)))
    ∧ (s.loaded = true → s.sessions = [] → s.member = false → s.reloading = false → s.restoring = false →
      ∀ a b c d e : State, a = (s.shards.map (·.1)).foldl (fun (s : State) id => (s.dropShard id).1) s →
      b = { a.clearT1 with
        profile := none,
        tenants := a.tenants.map (fun (t : Nat × Tenant) => (t.1, { t.2 with slots := [] })),
        boot := { a.boot with header := [], bundleKey := none, staging := none } } →
      c = (List.range 8).foldl (fun s k => s.setReg (A.NBU_PROG + 8 * k) 0) (b.setReg A.DEV_BUNDLE 0) →
      d = (List.range 132).foldl (fun s e => s.setFld (F.ME_UNIT_POOL.at (8 * e)) 3) ((c.setReg A.TEXT_VOCAB 0).setReg A.ME_FMT 0) →
      e = [0, 1, 2].foldl (fun s p => s.setFld (F.ME_POOL_CUR.at (8 * p)) 0) d →
      exec (.BUNDLE_UNLOAD x) s = .next ((e.measured.setFld F.BOOT_STATE_STATE 4).finish Op.MAINT_BUNDLE_LOAD x (Answer.ok)))

/-- POWER_ON and a REFCLK_RETURN that releases a hold start the boot from step 2. POWER_WAVE in POWERING completes the next power wave, then the next stack wave, and after the last STATE is TRAINING. HBM_TRAINING_DONE in TRAINING notes that HBM has trained, and the device goes on to TESTING and to STANDALONE_READY when all is there. The first failed attempt of a stack or channel is remembered and the second marks it absent. POWER_LOSS resets the device cold; WARM_RESTART begins a warm restart for its cause and goes on from step 2. REFCLK_LOST of CORE_REFCLK or RIND_OSC holds the device in reset; of CXL_REFCLK or an ETH_REFCLK sets LOST, counts, and resets the host port or takes its ports down. THERMAL_TRIP holds the device until power is removed. THROTTLE_PERIOD while the device runs keeps the temperatures and the power it measured, and moves LEVEL and HBM_LEVEL by R455. DDR_TRAINING_DONE in TRAINING leaves the device past DDR training, and KAT_DONE past its tests. -/
def Obligations.BringUpComplete : Prop :=
  (∀ (jumper fuseOk : Bool) (s t : State), t = { s with boot := { s.boot with hold := 0 }, sec := { s.sec with jumper := jumper } } →
    (s.boot.hold ≤ 1 → s.fld F.BOOT_STATE_STATE = 0 → exec (.POWER_ON jumper fuseOk) s = .next (t.boot25 fuseOk))
    ∧ (s.boot.hold = 2 → exec (.REFCLK_RETURN 0 jumper fuseOk) s = .next (t.boot25 fuseOk))
    ∧ (s.boot.hold = 3 → exec (.REFCLK_RETURN 4 jumper fuseOk) s = .next (t.boot25 fuseOk))
    ∧ (∀ k, 1 ≤ k → k ≤ 3 → exec (.REFCLK_RETURN k jumper fuseOk) s = .next (s.setFld (clockBit k) 0)))
  ∧ (∀ s t : State, s.fld F.BOOT_STATE_STATE = 1 →
    (s.fld F.BOOT_STATE_WAVES < s.waveCounts.1 → exec .POWER_WAVE s = .next (s.setFld F.BOOT_STATE_WAVES (s.fld F.BOOT_STATE_WAVES + 1)))
    ∧ (s.waveCounts.1 ≤ s.fld F.BOOT_STATE_WAVES → t = s.setFld F.BOOT_STATE_STACK_WAVES (s.fld F.BOOT_STATE_STACK_WAVES + 1) →
      exec .POWER_WAVE s = .next (if s.waveCounts.2 ≤ s.fld F.BOOT_STATE_STACK_WAVES + 1 then t.setFld F.BOOT_STATE_STATE 2 else t)))
  ∧ (∀ s t : State, s.fld F.BOOT_STATE_STATE = 2 → s.boot.hbm = false → t = { s with boot := { s.boot with hbm := true } } →
    exec .HBM_TRAINING_DONE s = .next t.trained.tryReady)
  ∧ (∀ (chans : List (Option Dimm × Option Dimm)) (xts : List Nat) (s : State), s.fld F.BOOT_STATE_STATE = 2 → s.boot.ddr = false →
    ∃ t : State, t.boot.ddr = true ∧ exec (.DDR_TRAINING_DONE chans xts) s = .next t.trained.tryReady)
  ∧ (∀ (failed : List (Nat × Nat)) (gcm : Nat) (s : State), (s.fld F.BOOT_STATE_STATE = 2 ∨ s.fld F.BOOT_STATE_STATE = 3) → s.boot.hbm = true →
    s.boot.kat = false → ∃ t : State, t.boot.kat = true ∧ t.boot.gcm = gcm ∧ exec (.KAT_DONE failed gcm) s = .next t.tryReady)
  ∧ (∀ (scope i : Nat) (s : State), s.fld F.BOOT_STATE_STATE = 2 → ((scope = 2 ∧ s.stackOn i = true ∧ s.boot.hbm = false) ∨
      (scope = 3 ∧ s.channelOn i = true ∧ s.boot.ddr = false)) →
    ((scope, i) ∉ s.boot.retried → ∃ t : State, t = { s with boot := { s.boot with retried := s.boot.retried ++ [(scope, i)] } } ∧
      exec (.TRAINING_FAILED scope i) s = .next t)
    ∧ ((scope, i) ∈ s.boot.retried → exec (.TRAINING_FAILED scope i) s = .next (s.markAbsent scope i)))
  ∧ (∀ s t : State, t = s.coldReset 1 → exec .POWER_LOSS s = .next { t with boot := { t.boot with thermTrip := false } })
  ∧ (∀ (cause : Nat) (fuseOk : Bool) (s : State),
    (s.fld F.BOOT_STATE_STATE = 7 → exec (.WARM_RESTART cause fuseOk) s = .next ((s.setFld F.BOOT_STATE_STATE 0).boot25 fuseOk))
    ∧ (s.takesSlips = true → s.boot.hold = 0 → cause ≤ 8 →
      exec (.WARM_RESTART cause fuseOk) s = .next (((s.beginWarm cause).setFld F.BOOT_STATE_STATE 0).boot25 fuseOk)))
  ∧ (∀ s t : State, s.boot.hold = 0 → exec (.REFCLK_LOST 0) s = .next (s.coldReset 2) ∧ exec (.REFCLK_LOST 4) s = .next (s.coldReset 3)
    ∧ (∀ k, 1 ≤ k → k ≤ 3 → s.flag (clockBit k) = false → t = (s.setFld (clockBit k) 1).bump F.CXL_CNT_REFCLK_LOSS_COUNT →
      exec (.REFCLK_LOST k) s = .next (if k = 1 then t.portReset 3 else t.portsDown (if k = 2 then [0, 1, 2, 3] else [4, 5, 6, 7]))))
  ∧ (∀ s t : State, s.boot.hold ≠ 1 → t = s.coldReset 4 → exec .THERMAL_TRIP s = .next { t with boot := { t.boot with thermTrip := true } })
  ∧ (∀ (west east io hbm hot power top : Nat) (s t : State), s.takesSlips = true → s.boot.hold = 0 → s.onePartition = false →
    top = max west (max east io) →
    t = ((((((((if s.fld F.CXL_THROTTLE_LEVEL > 0 ∨ s.fld F.CXL_THROTTLE_HBM_LEVEL > 0 then s.bump F.CXL_CNT_THROTTLE_MS_COUNT else s).setFld
      F.CXL_THERM_WEST_C west).setFld F.CXL_THERM_EAST_C east).setFld F.CXL_THERM_HBM_C hbm).setFld F.CXL_THERM_IO_C io).setFld
      F.CXL_THERM_HOT_STACKS hot).setFld F.CXL_POWER_PWR_AVG power).maxFld F.CXL_POWER_PWR_MAX power) →
    exec (.THROTTLE_PERIOD west east io hbm hot power) s = .next ((t.setFld F.CXL_THROTTLE_LEVEL (nextLevel (s.fld F.CXL_THROTTLE_LEVEL)
        (decide (top > s.fld F.CXL_THROTTLE_THROTTLE_C) || decide (power > s.fld F.CXL_POWER_PWR_CAP))
        (decide (top + 3 ≤ s.fld F.CXL_THROTTLE_THROTTLE_C) && decide (power < s.fld F.CXL_POWER_PWR_CAP)))).setFld F.CXL_THROTTLE_HBM_LEVEL
      (nextLevel (s.fld F.CXL_THROTTLE_HBM_LEVEL) (decide (hbm > s.fld F.CXL_THROTTLE_HBM_THROTTLE_C))
        (decide (hbm + 3 ≤ s.fld F.CXL_THROTTLE_HBM_THROTTLE_C)))))

/-- HOST_LINK_TRAINING that can train, outside a hold and with CXL_REFCLK there, brings the link up: CXL mode where CXL is offered at 32 GT/s and ×16 or ×8, else PCIe mode. HOST_PORT_RESET resets the port. With CXL.mem in use: HDM_DECODER_COMMIT of values R437 allows commits the decoder, of others leaves Error Not Committed; HDM_ACCESS to a claimed line after Memory_Active reads the line of a visible range, or answers poison for a damaged one, or counts the access hidden and reads zeros; a write of a part or the whole of a visible line changes it; either waits while a program runs on the line's pair or its stack or channel is being retrained; H2D_SNOOP counts and answers RspIHitI. MSIX_UNMASK on a link that is up unmasks the vector and sends what was pending. CONFIG_REQUEST is answered with Retry Status until the desk cores run, and with its data after; register places that no rule gives are PRESUMED or free (log entry 59). -/
def Obligations.HostPortCommandsComplete : Prop :=
  (∀ (offered cxl : Bool) (width rate : Nat) (s : State), trainMode offered width rate = some cxl → s.boot.hold = 0 →
    s.flag F.CXL_REFCLK_CXL_LOST = false → (cxl = (offered && rate == 4 && (width == 16 || width == 8)))
    ∧ exec (.HOST_LINK_TRAINING offered width rate) s =
      .next { s with host := { s.host with up := true, cxl := cxl, width := width, rate := rate } })
  ∧ (∀ (kind : Nat) (s : State), kind ≤ 3 → s.boot.hold = 0 → (1 ≤ kind → s.host.up = true) → exec (.HOST_PORT_RESET kind) s = .next (s.portReset kind))
  ∧ (∀ (dec base size ways gran pos : Nat) (ok : Bool) (s t : State) (d : Decoder), dec ≤ 1 → s.cxlMem = true →
    ok = decoderOk (s.hdmSize (dec == 1)) base size ways gran →
    d = { base := base, size := size, ways := ways, gran := gran, pos := pos, committed := ok, error := !ok } →
    t = { s with host := { s.host with decoders := s.host.decoders.set dec d } } →
    exec (.HDM_DECODER_COMMIT dec base size ways gran pos) s = .next t)
  ∧ (∀ (dec hpa a : Nat) (s : State) (d : Decoder), s.cxlMem = true → s.host.decoders[dec]? = some d → d.offset (hpa / 64 * 64) = some a →
    s.memActive = true →
    (s.visibleAt (dec == 1) a = true →
      (∀ k, s.spot (dec == 1) a = .hbm k → (s.nbu (k / 2 ^ 27)).run = none → s.retraining 2 (k / 2 ^ 27 / 512) = false →
        (s.lineHurt (dec == 1) a = false → exec (.HDM_ACCESS dec hpa .read) s = .next (s.emit (.memData (s.hbmRd k 64) false)))
        ∧ (s.lineHurt (dec == 1) a = true →
          exec (.HDM_ACCESS dec hpa .read) s = .next ((s.bump F.CXL_CNT_POISON_RD_COUNT).emit (.memData [] true))))
      ∧ (∀ k, s.spot (dec == 1) a = .hbm k → ((s.nbu (k / 2 ^ 27)).run.isSome = true ∨ s.retraining 2 (k / 2 ^ 27 / 512) = true) →
        exec (.HDM_ACCESS dec hpa .read) s = .next (s.updNbu (k / 2 ^ 27) (fun v =>
          { v with waiting := v.waiting ++ [{ addr := k, data := none, len := 64, since := s.tick, host := true }] })))
      ∧ ((∀ k, s.spot (dec == 1) a ≠ .hbm k) → s.channelBusy (dec == 1) a = none →
        (s.lineHurt (dec == 1) a = false → exec (.HDM_ACCESS dec hpa .read) s = .next (s.emit (.memData (s.hdmRead (dec == 1) a 64) false)))
        ∧ (s.lineHurt (dec == 1) a = true →
          exec (.HDM_ACCESS dec hpa .read) s = .next ((s.bump F.CXL_CNT_POISON_RD_COUNT).emit (.memData [] true))))
      ∧ (∀ c op, s.channelBusy (dec == 1) a = some c → ∃ t : State, t = { s with boot := { s.boot with
          traffic := s.boot.traffic ++ [{ channel := c, dec := dec, hpa := hpa, op := op }] } } ∧
        exec (.HDM_ACCESS dec hpa op) s = .next t))
    ∧ (s.visibleAt (dec == 1) a = false → exec (.HDM_ACCESS dec hpa .read) s =
      .next ((s.bump F.CXL_CNT_HIDDEN_RD_COUNT).emit (.memData (List.replicate 64 0) false)))
    ∧ (∀ off b, b ≠ [] → off + b.length ≤ 64 →
      (s.visibleAt (dec == 1) a = false → exec (.HDM_ACCESS dec hpa (.write off b)) s = .next (s.bump F.CXL_CNT_HIDDEN_WR_COUNT))
      ∧ (s.visibleAt (dec == 1) a = true → s.channelBusy (dec == 1) a = none →
        (∀ k, s.spot (dec == 1) (a + off) = .hbm k →
          ((s.nbu (k / 2 ^ 27)).run = none → s.retraining 2 (k / 2 ^ 27 / 512) = false →
            exec (.HDM_ACCESS dec hpa (.write off b)) s = .next ((s.hbmWr k b).clearMarks k b.length))
          ∧ (((s.nbu (k / 2 ^ 27)).run.isSome = true ∨ s.retraining 2 (k / 2 ^ 27 / 512) = true) →
            exec (.HDM_ACCESS dec hpa (.write off b)) s = .next (s.updNbu (k / 2 ^ 27) (fun v =>
              { v with waiting := v.waiting ++ [{ addr := k, data := some b, len := b.length, since := s.tick, host := true }] }))))
        ∧ ((∀ k, s.spot (dec == 1) (a + off) ≠ .hbm k) → exec (.HDM_ACCESS dec hpa (.write off b)) s = .next (if b.length = 64 then
          (s.hdmWrite (dec == 1) (a + off) b).unmark (dec == 1) a else s.hdmWrite (dec == 1) (a + off) b)))))
  ∧ (∀ s : State, s.cxlMem = true → exec .H2D_SNOOP s = .next ((s.bump F.CXL_CNT_SNOOP_COUNT).emit (.snoopResp 0)))
  ∧ (∀ (vec addr data : Nat) (s : State), vec < 2048 → s.host.up = true →
    exec (.MSIX_UNMASK vec addr data) s = .next (s.setVec vec { addr := addr, data := data, masked := false }))
  ∧ (∀ (op : CfgOp) (s : State), s.host.up = true →
    (s.takesSlips = false → exec (.CONFIG_REQUEST op) s = .next (s.emit (.hostCompletion 2 0)))
    ∧ (s.takesSlips = true → exec (.CONFIG_REQUEST op) s = .next ((s.cfgWrite op).emit (.hostCompletion 0 (s.cfgData op)))))

/-- Once the desk cores run, PRESS_PERST_RELEASE fails what the port had in flight and: with no SSD shows the press absent; with one that misses a requirement shows it unsuitable with its cause; with a suitable one keeps its rate, width and capacity, keeps or takes its label, shows it suitable and reads the label. A command in flight that completes has its purpose's effect; an error status and Controller Fatal Status first count as a press write error and in CXL_CNT_NVME_ERR. A command of 2 s is aborted, counts likewise, has the effect of an error, and the press shows state 3, cause 6. -/
def Obligations.PressPortComplete : Prop :=
  (∀ (s t : State), s.takesSlips = true → t = ((((s.pressError.dropLabelWrites).setFld F.CXL_PRESS_GEN 0).setFld F.CXL_PRESS_WIDTH 0).setFld
      F.CXL_PRESS_CAP_GB 0).updPress (fun p => { p with found := false }) →
    exec (.PRESS_PERST_RELEASE none) s = .next (t.setPress 0 0 0)
    ∧ (∀ (d : Ssd) (u : State), 1 ≤ d.gen → d.gen ≤ 5 → d.width ∈ [1, 2, 4] →
      u = ((t.setFld F.CXL_PRESS_GEN d.gen).setFld F.CXL_PRESS_WIDTH d.width).setFld F.CXL_PRESS_CAP_GB d.capGb →
      (∀ c, unfit d = some c → exec (.PRESS_PERST_RELEASE (some d)) s = .next (u.setPress 2 c 0))
      ∧ (unfit d = none → d.fatal = true → exec (.PRESS_PERST_RELEASE (some d)) s = .next (u.nvmeError.setPress 3 5 0))
      ∧ (unfit d = none → d.fatal = false → d.other = none → exec (.PRESS_PERST_RELEASE (some d)) s =
        .next (((u.updPress (fun p => { p with found := true, fails := 0 })).setPress 1 0 0).emit (.nvme .labelRead 0 0 1)))
      ∧ (∀ l, unfit d = none → d.fatal = false → d.other = some l → exec (.PRESS_PERST_RELEASE (some d)) s =
        .next (((u.updPress (fun p => { p with found := true, fails := 0, label := l, slots := [] })).setPress 1 0 0).emit (.nvme .labelRead 0 0 1)))))
  ∧ (∀ (op : NvmeOp) (intact : Bool) (s : State), s.nvmeDue op = true →
    (op ≠ .fatal → exec (.NVME_COMPLETION op true intact) s = .next (s.nvmeDone op true intact))
    ∧ exec (.NVME_COMPLETION op false intact) s = .next (s.nvmeError.nvmeDone op false intact)
    ∧ (op = .fatal → exec (.NVME_COMPLETION op true intact) s = .next (s.nvmeError.nvmeDone op true intact))
    ∧ (op ≠ .fatal → exec (.NVME_TIMEOUT op) s =
      .next (((s.nvmeError.nvmeDone op false false).setFld F.CXL_PRESS_STATE 3).setFld F.CXL_PRESS_CAUSE 6)))

/-- SESS_INSPECT_IDX copies the entry of its index into the data registers and sets VALID. REGISTER_WRITE of 8 bytes to a register of BAR0 without a row of its own, outside the NBU areas: with a writable field, the word within its bounds and the register not barred, stores the writable bits with the others as they read, counts once when it would change a protected field, and does what its write-only bits ask; out of bounds or barred it is only counted. Of a register with no writable field it is counted when it would change a protected field, and has no other effect. A misaligned access, or one of neither 4 nor 8 bytes, by the host completes as an Unsupported Request. The host's write of NBU_BCAST_SEL is only counted, a change of KIND that only the Rind may make is counted and KIND stays, and while RATIO_EN is set the pools' TARGET stays. A write of 4 bytes is that of 8 with the other half as it reads. A register with a row of its own does what that row does. An NBU area takes what R36 says. The Rind's writes also store the fields only it may write, and wait while its cores are reset. In BAR4 a write sets words of the MSI-X table. -/
def Obligations.RegisterWritesComplete : Prop :=
  (∀ (value : Word) (s : State) (i : Nat) (e : Sess), i = value.toNat % 2 ^ 20 → tGet s.sessions i = some e →
    exec (.SESS_INSPECT_IDX value) s = .next ((List.range 32).foldl (fun t w =>
      t.setReg (A.SESS_INSPECT_DATA + 8 * w) (BitVec.ofNat 64 (rdLe (s.entryBytes i e false) (8 * w) 8)))
      (s.setReg A.SESS_INSPECT_IDX (BitVec.ofNat 64 (2 ^ 63 + i)))))
  ∧ (∀ (a : Nat) (value w cur m : Word) (s : State) (r : RegRow), a % 8 = 0 → a < 0x1000000 → ownRow a = false → a ≠ A.NBU_BCAST_SEL → findReg a = some r →
    cur = s.readReg a → m = BitVec.ofNat 64 r.rw → w = (cur &&& ~~~m) ||| (value &&& m) →
    (r.rw = 0 → exec (.REGISTER_WRITE 0 0 a 8 value) s =
      .next (if (cur ^^^ value) &&& BitVec.ofNat 64 r.prot = 0 then s else s.regAccErr))
    ∧ (r.rw ≠ 0 → s.kindHeld a w false = false → (A.ME_POOL ≤ a → a < A.ME_POOL + 24 → s.flag F.ME_CTRL_RATIO_EN = false) →
      ((s.writeBarred a = true ∨ s.wordOk a w = false) → exec (.REGISTER_WRITE 0 0 a 8 value) s = .next s.regAccErr)
      ∧ (s.writeBarred a = false → s.wordOk a w = true →
        exec (.REGISTER_WRITE 0 0 a 8 value) s = .next (((if (cur ^^^ value) &&& BitVec.ofNat 64 r.prot = 0 then s else s.regAccErr).storeReg
          a w).writeOnly a value.toNat))))
  ∧ (∀ (value w cur m v : Word) (s : State) (r : RegRow), findReg A.NET_PEER_CFG = some r →
    cur = s.readReg A.NET_PEER_CFG → m = BitVec.ofNat 64 r.rw → w = (cur &&& ~~~m) ||| (value &&& m) →
    v = F.NET_PEER_CFG_KIND.put w (F.NET_PEER_CFG_KIND.get cur) → s.kindHeld A.NET_PEER_CFG w false = true →
    s.writeBarred A.NET_PEER_CFG = false → s.wordOk A.NET_PEER_CFG v = true →
    exec (.REGISTER_WRITE 0 0 A.NET_PEER_CFG 8 value) s = .next ((s.regAccErr.storeReg A.NET_PEER_CFG v).writeOnly A.NET_PEER_CFG value.toNat))
  ∧ (∀ (p : Nat) (value w cur m v : Word) (s : State) (r : RegRow), p < 3 → findReg (A.ME_POOL + 8 * p) = some r → s.flag F.ME_CTRL_RATIO_EN = true →
    cur = s.readReg (A.ME_POOL + 8 * p) → m = BitVec.ofNat 64 r.rw → w = (cur &&& ~~~m) ||| (value &&& m) →
    v = (F.ME_POOL_TARGET.at 0).put w ((F.ME_POOL_TARGET.at 0).get cur) →
    s.writeBarred (A.ME_POOL + 8 * p) = false → s.wordOk (A.ME_POOL + 8 * p) v = true →
    exec (.REGISTER_WRITE 0 0 (A.ME_POOL + 8 * p) 8 value) s =
      .next (((if (cur ^^^ value) &&& BitVec.ofNat 64 r.prot = 0 then s else s.regAccErr).storeReg (A.ME_POOL + 8 * p) v).writeOnly
        (A.ME_POOL + 8 * p) value.toNat))
  ∧ (∀ (addr size : Nat) (value : Word) (s : State), accessOk addr size = false →
    exec (.REGISTER_WRITE 0 0 addr size value) s = .next (s.emit (.hostCompletion 1 0)))
  ∧ (∀ (value : Word) (s : State), exec (.REGISTER_WRITE 0 0 A.NBU_BCAST_SEL 8 value) s = .next s.regAccErr)
  ∧ (∀ (bar addr size : Nat) (value : Word) (s : State), s.tick < s.sec.rindUntil →
    exec (.REGISTER_WRITE 2 bar addr size value) s = .next (s.rindLater (.write bar addr size value)))
  ∧ (∀ (src addr : Nat) (value : Word) (s : State), accessOk addr 4 = true → (src = 2 → s.sec.rindUntil ≤ s.tick) →
    exec (.REGISTER_WRITE src 0 addr 4 value) s = exec (.REGISTER_WRITE src 0 (addr / 8 * 8) 8 (s.mergedWord addr 4 value)) s)
  ∧ (∀ (src a : Nat) (value : Word) (s : State), a % 8 = 0 → a < 0x1000000 → ownRow a = true → (src = 2 → s.sec.rindUntil ≤ s.tick) →
    ∃ t, s.ownWrite a value src = .next t ∧ exec (.REGISTER_WRITE src 0 a 8 value) s = .next t)
  ∧ (∀ (src a : Nat) (value : Word) (s : State), a % 8 = 0 → 0x1000000 ≤ a → a < 0x2800000 → (src = 2 → s.sec.rindUntil ≤ s.tick) →
    exec (.REGISTER_WRITE src 0 a 8 value) s = .next (s.writeNbu a value src))
  ∧ (∀ (a : Nat) (value w m : Word) (s : State) (r : RegRow), a % 8 = 0 → a < 0x1000000 → ownRow a = false → findReg a = some r →
    s.sec.rindUntil ≤ s.tick → (A.ME_POOL ≤ a → a < A.ME_POOL + 24 → s.flag F.ME_CTRL_RATIO_EN = false) → r.rw ||| r.prot ≠ 0 →
    m = BitVec.ofNat 64 (r.rw ||| r.prot) → w = (s.readReg a &&& ~~~m) ||| (value &&& m) → s.writeBarred a = false → s.wordOk a w = true →
    exec (.REGISTER_WRITE 2 0 a 8 value) s = .next ((s.storeReg a w).writeOnly a value.toNat))
  ∧ (∀ (addr size : Nat) (value : Word) (s : State), accessOk addr size = true → addr < 0x8000 →
    exec (.REGISTER_WRITE 0 4 addr size value) s = .next (s.writeBar4 addr size value))

/-- State.reset: DEV_TICK 0; no command waits and none is ready; no slip is outstanding; no session, ring, vector block, lock or checkpoint; no profile, so no bundle loaded; HBM, cellar and flash list no byte, which read 0 (log entry 2); BOOT_STATE.STATE 0, the ROM's; DEV_CAP0's presence and the other register fields named have the reset value of their tables. Registers whose tables give none read 0 (log entry 3, the model's choice). -/
def Obligations.ResetState : Prop :=
  State.reset.tick = 0 ∧ State.reset.pending = [] ∧ State.reset.ready = [] ∧ State.reset.slips = []
  ∧ State.reset.sessions = [] ∧ State.reset.rings = [] ∧ State.reset.vecBlocks = [] ∧ State.reset.locks = []
  ∧ State.reset.profile = none ∧ State.reset.loaded = false ∧ State.reset.hbm = [] ∧ State.reset.cellar = []
  ∧ State.reset.flash.bytes = [] ∧ State.reset.fld F.BOOT_STATE_STATE = 0
  ∧ State.reset.fld F.CXL_CTRL_CACHE_EN = 1 ∧ State.reset.fld F.CHK_CTRL_SCAN_EN = 1 ∧ State.reset.fld F.CHK_CTRL_SCAN_BW = 64
  ∧ State.reset.fld F.DEV_DEVID_VALID = 0 ∧ State.reset.fld F.DEV_BUNDLE_LOADED = 0
  ∧ (∀ a : Nat, a % 8 = 0 → State.reset.reg a = regReset a)

/-- State.reset meets the invariant StepKeepsForm speaks of: the register file, HBM, the cellar and the flash are listed in their one canonical form (log entries 2 and 3: the model's own data form), and GEN_FLOOR fits its 32 bits. -/
def Obligations.ResetMeetsForm : Prop :=
  State.reset.wf = true

/-- For every state in canonical form, whichever command is in front, or with no command waiting, or with a ready command of the device's own: if a step answers a next state, that state is in canonical form. The form (offsets and addresses strictly rising, no entry equal to what an unlisted one reads as) is the model's own (log entries 2 and 3); it makes equal memories equal data. -/
def Obligations.StepKeepsForm : Prop :=
  ∀ s t : State, s.wf = true → step s = .next t → t.wf = true

/-- For every command and every state: if exec of the command answers a next state, the queue of commands that wait is the same in it. The queue is the model's way of taking commands one by one (log entry 1). -/
def Obligations.CommandsLeaveTheQueue : Prop :=
  ∀ (c : Instr) (s t : State), exec c s = .next t → t.pending = s.pending

/-- For every command, every state and every fuse bit address: a fuse bit that is blown before the command is blown after it, when exec answers a next state. No reset, restart, lock, bundle or register write unblows a fuse. -/
def Obligations.FusesNeverRevert : Prop :=
  ∀ (c : Instr) (s t : State) (a : Nat), exec c s = .next t → s.fuseBit a = true → t.fuseBit a = true

/-- For every command and every state in canonical form: if exec answers a next state, GEN_FLOOR in it is not less than before and fits its 32 bits. -/
def Obligations.GenFloorNeverFalls : Prop :=
  ∀ (c : Instr) (s t : State), s.wf = true → exec c s = .next t → s.genFloor ≤ t.genFloor ∧ t.genFloor < 2 ^ 32

/-- With a bundle loaded, CXL.mem enabled, and a committed decoder that claims the line and gives it an offset of its space (HDM0 for decoder 0, HDM1 for decoder 1) outside every host-visible region of the placement plan (its first 16; R439): a read returns 64 zero bytes, unmarked, and changes no byte of HBM or cellar; a write of any bytes within the line is discarded: it leaves HBM, the cellar and everything sent as they were. This holds with Memory_Active set or clear. -/
def Obligations.HostReachesOnlyVisibleRegions : Prop :=
  ∀ (s : State) (p : Profile) (dec hpa off a : Nat) (b : Bytes) (d : Decoder),
    s.profile = some p → s.loaded = true → s.cxlMem = true → s.host.decoders[dec]? = some d →
    d.offset (hpa / 64 * 64) = some a →
    (∀ r ∈ p.visible.take 16, ¬(r.space = (if dec = 1 then 1 else 0) ∧ r.base ≤ a ∧ a < r.base + r.size)) →
    (∃ t, exec (.HDM_ACCESS dec hpa .read) s = .next t ∧ t.outbox = s.outbox ++ [.memData (List.replicate 64 0) false]
      ∧ t.hbm = s.hbm ∧ t.cellar = s.cellar)
    ∧ (∃ t, exec (.HDM_ACCESS dec hpa (.write off b)) s = .next t ∧ t.outbox = s.outbox ∧ t.hbm = s.hbm ∧ t.cellar = s.cellar)

/-- A message that falls due for a vector: with the link down, it is discarded; with the function's MSI-X Enable clear, it is not sent; enabled with the vector masked (itself or by the function mask), it is not sent and the vector's pending bit is set; enabled and unmasked, it is sent and nothing waits for it. When the host unmasks a vector below 2048 (its table entry written unmasked) with the function enabled and not masked, the vector's pending message is sent, and its pending bit clears; no other vector's bit changes where that vector is masked. -/
def Obligations.MsixMessages : Prop :=
  (∀ (v : Nat) (s : State), s.host.up = false → s.sendMsix v = s)
  ∧ (∀ (v : Nat) (s : State), s.host.msixEn = false → s.sendMsix v = s)
  ∧ (∀ (v : Nat) (s : State), s.host.up = true → s.host.msixEn = true → s.vecMasked v = true →
    (s.sendMsix v).outbox = s.outbox ∧ v ∈ (s.sendMsix v).host.pend
      ∧ (∀ w : Nat, w ≠ v → (w ∈ (s.sendMsix v).host.pend ↔ w ∈ s.host.pend)))
  ∧ (∀ (v : Nat) (s : State), s.host.up = true → s.host.msixEn = true → s.vecMasked v = false →
    s.sendMsix v = { s with outbox := s.outbox ++ [.msix v] })
  ∧ (∀ (v addr data : Nat) (s : State), v < 2048 → s.host.up = true → s.host.msixEn = true → s.host.funcMask = false → v ∈ s.host.pend →
    ∃ t, exec (.MSIX_UNMASK v addr data) s = .next t ∧ Out.msix v ∈ t.outbox ∧ v ∉ t.host.pend
      ∧ (∀ w : Nat, w ≠ v → s.vecMasked w = true → (w ∈ t.host.pend ↔ w ∈ s.host.pend)))

/-- CI and PI are 32-bit indices; c lies between CI and PI round the ring when c − CI (modulo 2^32) is not above PI − CI (modulo 2^32). A SCHED_RING_CI write of an index in that range to a ring that is not DISABLED sets its CI to it (what that room lets go on follows); of one outside, or for a ring that is DISABLED, it is ignored and counted. RING_CONSUMED of such a ring, by its tenant: in the range CI becomes the index and the answer gives the room 2^k − (PI − CI) after the update; outside, BAD_PARAM 1. The update itself sets that ring's CI to the index and keeps its PI and size and every other ring. -/
def Obligations.RingIndexAdvance : Prop :=
  (∀ (v : Word) (s : State) (n c : Nat) (r : Ring), n = F.SCHED_RING_CI_RING.get v → c = F.SCHED_RING_CI_CI.get v → r = s.ring n →
    r.state ≠ 0 →
    ((c + 2 ^ 32 - r.ci) % 2 ^ 32 ≤ (r.pi + 2 ^ 32 - r.ci) % 2 ^ 32 → exec (.SCHED_RING_CI v) s = .next (s.advanceCi n c))
    ∧ ((r.pi + 2 ^ 32 - r.ci) % 2 ^ 32 < (c + 2 ^ 32 - r.ci) % 2 ^ 32 → exec (.SCHED_RING_CI v) s = .next s.regAccErr))
  ∧ (∀ (x : Slip) (s : State) (r : Ring), s.takenUp Op.RING_CONSUMED x = true → x.acc = 0 →
    badParam x [0xFFFF, 0xFFFFFFFF, 0, 0, 0, 0] = none → r = s.ring x.P0 → r.state ≠ 0 → r.tenant = x.ten →
    ((x.P1 + 2 ^ 32 - r.ci) % 2 ^ 32 ≤ (r.pi + 2 ^ 32 - r.ci) % 2 ^ 32 →
      exec (.RING_CONSUMED x) s = .next ((s.advanceCi x.P0 x.P1).finish Op.RING_CONSUMED x
        (Answer.ok ((s.advanceCi x.P0 x.P1).ring x.P0).room)))
    ∧ ((r.pi + 2 ^ 32 - r.ci) % 2 ^ 32 < (x.P1 + 2 ^ 32 - r.ci) % 2 ^ 32 →
      exec (.RING_CONSUMED x) s = .next (s.finish Op.RING_CONSUMED x (Answer.st St.BAD_PARAM 1))))
  ∧ (∀ (r : Ring), r.room = 2 ^ r.logSize - (r.pi + 2 ^ 32 - r.ci) % 2 ^ 32)
  ∧ (∀ (s : State) (n c : Nat), ∃ u : State, s.advanceCi n c = u.ringRoom n ∧ (u.ring n).ci = c ∧ (u.ring n).pi = (s.ring n).pi
    ∧ (u.ring n).logSize = (s.ring n).logSize ∧ ∀ m : Nat, m ≠ n → u.ring m = s.ring m)

/-- In a state of canonical form (StepKeepsForm), CXL.mem enabled and active, a committed decoder gives the line the offset a, host-visible and a multiple of 64 as the bases R437 commits make it, and no program runs on the line's pair nor is its stack or channel being retrained, where the access waits: a write of up to 64 bytes at off within the line answers a next state. Every HBM byte whose address is not where HDM0's interleave (R120) or HDM1 (R119) puts one of the offsets a + off + i, and every cellar byte whose place is not where HDM0's upper part (R438) puts one, reads as before. Each stored byte reads back at its offset, where the offset reaches a stack or the cellar; where it reaches none, it reads 0. No register, queue, session or message changes. -/
def Obligations.HostWritesChangeOnlyTheirBytes : Prop :=
  ∀ (s : State) (dec hpa off a : Nat) (b : Bytes) (d : Decoder), s.wf = true → s.cxlMem = true → s.memActive = true →
    s.host.decoders[dec]? = some d → d.offset (hpa / 64 * 64) = some a → s.visibleAt (dec == 1) a = true →
    b ≠ [] → off + b.length ≤ 64 → a % 64 = 0 → s.channelBusy (dec == 1) a = none →
    (∀ k : Nat, s.spot (dec == 1) (a + off) = .hbm k → (s.nbu (k / 2 ^ 27)).run = none ∧ s.retraining 2 (k / 2 ^ 27 / 512) = false) →
    ∃ t, exec (.HDM_ACCESS dec hpa (.write off b)) s = .next t
      ∧ (∀ k : Nat, (∀ i : Nat, i < b.length → s.spot (dec == 1) (a + off + i) ≠ .hbm k) →
        sGet (fun _ => 0) t.hbm k = sGet (fun _ => 0) s.hbm k)
      ∧ (∀ k : Nat, (∀ i : Nat, i < b.length → s.spot (dec == 1) (a + off + i) ≠ .cellar k) →
        sGet (fun _ => 0) t.cellar k = sGet (fun _ => 0) s.cellar k)
      ∧ (∀ i : Nat, i < b.length →
        t.hdmByte (dec == 1) (a + off + i) = if s.spot (dec == 1) (a + off + i) = .nothing then 0 else b.getD i 0)
      ∧ t.regs = s.regs ∧ t.outbox = s.outbox ∧ t.ready = s.ready ∧ t.slips = s.slips ∧ t.qps = s.qps ∧ t.sessions = s.sessions
      ∧ t.rings = s.rings ∧ t.tenants = s.tenants ∧ t.fuses = s.fuses ∧ t.flash = s.flash ∧ t.tick = s.tick

/-- For every state, opcode, slip and answer: when an outstanding slip is answered, it is no longer outstanding, other slips outstanding are as before, and the queue of commands, memory (HBM, cellar, flash, fuses), the tenants, rings, KV slots and their generations, text blocks, vector shards, catalogue, locks, checkpoint, generation floor, NBUs, boot state, profile and DEV_TICK are unchanged. What may change is what the reply goes through (the reply queue, counters, the trace, the ports and peers, a pending MSI-X bit), a session that a class 0x8 status names, and the slips held for order, which may go. -/
def Obligations.AnsweringFrame : Prop :=
  ∀ (op : Nat) (x : Slip) (a : Answer) (s : State), s.outst x.src x.tag ≠ none →
    (s.finish op x a).outst x.src x.tag = none
    ∧ (∀ (c : Ctx) (g : BitVec 32), ¬(c = x.src ∧ g = x.tag) → (s.finish op x a).outst c g = s.outst c g)
    ∧ (s.finish op x a).pending = s.pending ∧ (s.finish op x a).hbm = s.hbm ∧ (s.finish op x a).cellar = s.cellar
    ∧ (s.finish op x a).flash = s.flash ∧ (s.finish op x a).fuses = s.fuses ∧ (s.finish op x a).tenants = s.tenants
    ∧ (s.finish op x a).rings = s.rings ∧ (s.finish op x a).slots = s.slots ∧ (s.finish op x a).gens = s.gens
    ∧ (s.finish op x a).text = s.text ∧ (s.finish op x a).shards = s.shards ∧ (s.finish op x a).cat = s.cat
    ∧ (s.finish op x a).locks = s.locks ∧ (s.finish op x a).ckpt = s.ckpt ∧ (s.finish op x a).genFloor = s.genFloor
    ∧ (s.finish op x a).nbus = s.nbus ∧ (s.finish op x a).boot = s.boot ∧ (s.finish op x a).profile = s.profile
    ∧ (s.finish op x a).tick = s.tick
end

