-- ==== Sys2Proof/Laws/Stores.lean ====
section
/-!
SUPPORT. Laws of the sparse stores (the register file, the byte memories): every operation keeps their canonical form, a
read after a write to the same key gives the value written, and a write leaves every other key alone.
-/

namespace Sys2Proof.Machine

variable {α : Type} [DecidableEq α] {d : Nat → α}

/-- A bound may be forgotten. -/
theorem sWfFrom_none {lo : Nat} {l : List (Nat × α)} (h : sWfFrom d (some lo) l = true) : sWfFrom d none l = true := by
  cases l with
  | nil => rfl
  | cons p l => simp [sWfFrom] at h ⊢; exact ⟨h.1.2, h.2⟩

/-- A bound may be lowered. -/
theorem sWfFrom_lower {lo lo' : Nat} {l : List (Nat × α)} (hl : lo' ≤ lo) (h : sWfFrom d (some lo) l = true) :
    sWfFrom d (some lo') l = true := by
  cases l with
  | nil => rfl
  | cons p l => simp [sWfFrom] at h ⊢; exact ⟨⟨by omega, h.1.2⟩, h.2⟩

/-- The tail of a canonical list is canonical above its first key. -/
theorem sWfFrom_tail {b : Option Nat} {k : Nat} {v : α} {l : List (Nat × α)} (h : sWfFrom d b ((k, v) :: l) = true) :
    sWfFrom d (some k) l = true := by
  cases b <;> simp [sWfFrom] at h <;> exact h.2

/-- A bounded canonical list, opened. -/
theorem sWfFrom_cons {b : Option Nat} {k : Nat} {v : α} {l : List (Nat × α)} :
    sWfFrom d b ((k, v) :: l) = true ↔ (∀ lo, b = some lo → lo < k) ∧ v ≠ d k ∧ sWfFrom d (some k) l = true := by
  cases b <;> simp [sWfFrom, and_assoc]

/-- Removing a key keeps the form. -/
theorem sErase_wf {b : Option Nat} {l : List (Nat × α)} (k : Nat) (h : sWfFrom d b l = true) : sWfFrom d b (sErase l k) = true := by
  induction l generalizing b with
  | nil => exact h
  | cons p l ih =>
    obtain ⟨j, v⟩ := p
    obtain ⟨h1, h2, h3⟩ := sWfFrom_cons.1 h
    unfold sErase
    split
    · exact h
    · split
      · cases b with
        | none => exact sWfFrom_none h3
        | some lo => exact sWfFrom_lower (Nat.le_of_lt (h1 lo rfl)) h3
      · exact sWfFrom_cons.2 ⟨h1, h2, ih h3⟩

/-- Putting a value that is not the default keeps the form. -/
theorem sPut_wf {b : Option Nat} {l : List (Nat × α)} {k : Nat} {v : α} (hb : ∀ lo, b = some lo → lo < k) (hv : v ≠ d k)
    (h : sWfFrom d b l = true) : sWfFrom d b (sPut l k v) = true := by
  induction l generalizing b with
  | nil => exact sWfFrom_cons.2 ⟨hb, hv, rfl⟩
  | cons p l ih =>
    obtain ⟨j, w⟩ := p
    obtain ⟨h1, h2, h3⟩ := sWfFrom_cons.1 h
    unfold sPut
    split
    · rename_i hk
      exact sWfFrom_cons.2 ⟨hb, hv, sWfFrom_cons.2 ⟨fun lo e => by cases e; exact hk, h2, h3⟩⟩
    · split
      · rename_i hk hj
        have e : j = k := by simpa using hj
        subst e
        exact sWfFrom_cons.2 ⟨hb, hv, h3⟩
      · rename_i hk hj
        have e : j ≠ k := by simpa using hj
        exact sWfFrom_cons.2 ⟨h1, h2, ih (fun lo e' => by cases e'; omega) h3⟩

/-- A write keeps the canonical form of a store. -/
theorem sSet_wf {l : List (Nat × α)} (k : Nat) (v : α) (h : sWfFrom d none l = true) : sWfFrom d none (sSet d l k v) = true := by
  unfold sSet
  split
  · exact sErase_wf k h
  · rename_i hv
    exact sPut_wf (fun _ e => nomatch e) hv h

/-- Dropping entries keeps the form. -/
theorem filter_wf {b : Option Nat} {l : List (Nat × α)} (f : Nat × α → Bool) (h : sWfFrom d b l = true) :
    sWfFrom d b (l.filter f) = true := by
  induction l generalizing b with
  | nil => exact h
  | cons p l ih =>
    obtain ⟨j, v⟩ := p
    obtain ⟨h1, h2, h3⟩ := sWfFrom_cons.1 h
    by_cases hf : f (j, v) = true
    · rw [List.filter_cons_of_pos hf]
      exact sWfFrom_cons.2 ⟨h1, h2, ih h3⟩
    · rw [List.filter_cons_of_neg hf]
      apply ih
      cases b with
      | none => exact sWfFrom_none h3
      | some lo => exact sWfFrom_lower (Nat.le_of_lt (h1 lo rfl)) h3

/-- A fold of writes keeps the form. -/
theorem foldl_sSet_wf {β : Type} {l : List (Nat × α)} (xs : List β) (key : β → Nat) (val : β → α) (h : sWfFrom d none l = true) :
    sWfFrom d none (xs.foldl (fun m c => sSet d m (key c) (val c)) l) = true := by
  induction xs generalizing l with
  | nil => exact h
  | cons x xs ih => exact ih (sSet_wf _ _ h)

/-- Writing a byte string keeps the form. -/
theorem memPut_wf {m : List (Nat × Byte)} (a : Nat) (b : Bytes) (h : sWfFrom (fun _ => (0 : Byte)) none m = true) :
    sWfFrom (fun _ => (0 : Byte)) none (memPut m a b) = true := by
  induction b generalizing m a with
  | nil => exact h
  | cons x b ih => exact ih _ (sSet_wf _ _ h)

/-- A key below every listed key reads as the default. -/
theorem sGet_below {lo k : Nat} {l : List (Nat × α)} (h : sWfFrom d (some lo) l = true) (hk : k ≤ lo) : sGet d l k = d k := by
  induction l generalizing lo with
  | nil => rfl
  | cons p l ih =>
    obtain ⟨j, v⟩ := p
    obtain ⟨h1, _, h3⟩ := sWfFrom_cons.1 h
    have := h1 lo rfl
    unfold sGet
    rw [if_neg (by simp; omega)]
    exact ih h3 (by omega)

/-- What a removed key and the others read as. -/
theorem sGet_sErase {b : Option Nat} {l : List (Nat × α)} (k j : Nat) (h : sWfFrom d b l = true) :
    sGet d (sErase l k) j = if j = k then d k else sGet d l j := by
  induction l generalizing b with
  | nil => simp [sErase, sGet]; intro e; rw [e]
  | cons p l ih =>
    obtain ⟨i, v⟩ := p
    obtain ⟨h1, h2, h3⟩ := sWfFrom_cons.1 h
    unfold sErase
    split
    · rename_i hk
      by_cases e : j = k
      · subst e
        rw [if_pos rfl]
        unfold sGet
        rw [if_neg (by simp; omega)]
        exact sGet_below h3 (by omega)
      · rw [if_neg e]
    · split
      · rename_i hk hi
        have e : i = k := by simpa using hi
        subst e
        by_cases e : j = i
        · subst e
          rw [if_pos rfl]
          exact sGet_below h3 (Nat.le_refl _)
        · rw [if_neg e]
          conv => rhs; unfold sGet
          rw [if_neg (by simpa using fun q => e q.symm)]
      · rename_i hk hi
        have e : i ≠ k := by simpa using hi
        by_cases ej : i = j
        · subst ej
          simp [sGet, e]
        · simp [sGet, ej]
          exact ih h3

/-- What a put key and the others read as. -/
theorem sGet_sPut {l : List (Nat × α)} (k j : Nat) (v : α) :
    sGet d (sPut l k v) j = if j = k then v else sGet d l j := by
  induction l with
  | nil =>
    simp only [sPut, sGet]
    by_cases e : k = j
    · subst e; simp
    · have e' : ¬ j = k := fun q => e q.symm
      simp [e, e']
  | cons p l ih =>
    obtain ⟨i, w⟩ := p
    unfold sPut
    by_cases e : k = j
    · subst e
      split
      · simp [sGet]
      · split
        · simp [sGet]
        · rename_i hi
          rw [sGet, if_neg hi, ih, if_pos rfl, if_pos rfl]
    · have e' : ¬ j = k := fun q => e q.symm
      rw [if_neg e']
      split
      · rw [sGet, if_neg (by simpa using e)]
      · split
        · rename_i hi
          have q : i = k := by simpa using hi
          subst q
          rw [sGet, if_neg (by simpa using e), sGet, if_neg (by simpa using e)]
        · rw [sGet, sGet, ih, if_neg e']

/-- A read after a write: the key written reads as the value written, every other key as before. -/
theorem sGet_sSet {l : List (Nat × α)} (k j : Nat) (v : α) (h : sWfFrom d none l = true) :
    sGet d (sSet d l k v) j = if j = k then v else sGet d l j := by
  unfold sSet
  split
  · rename_i hv
    rw [sGet_sErase k j h, hv]
  · exact sGet_sPut k j v

/-- A read of the key just put, in any list. -/
theorem sGet_sPut_self {l : List (Nat × α)} (k : Nat) (v : α) : sGet d (sPut l k v) k = v := by
  rw [sGet_sPut, if_pos rfl]

/-- A slice of bytes read from HBM is the bytes read there. -/
theorem slice_hbmRd (s : State) (a m o n : Nat) (h : o + n ≤ m) : slice (s.hbmRd a m) o n = s.hbmRd (a + o) n := by
  have e : ((s.hbmRd a m).drop o).take n = s.hbmRd (a + o) n := by
    apply List.ext_getElem
    · simp [State.hbmRd]; omega
    · intro i h1 h2
      simp [State.hbmRd, Nat.add_assoc]
  have l : (s.hbmRd (a + o) n).length = n := by simp [State.hbmRd]
  simp [slice, e, l]

/-- A header field of a page read from HBM. -/
theorem hdGet_hbmRd {s : State} {a m : Nat} {l : Layout} {f : HF} (h : l.header + f.off + f.size ≤ m) :
    hdGet l (s.hbmRd a m) f = leNat (s.hbmRd (a + (l.header + f.off)) f.size) := by
  rw [hdGet, rdLe, slice_hbmRd _ _ _ _ _ h]

end Sys2Proof.Machine

namespace Sys2Proof.Machine

variable {β : Type}

/-- A table's entry just put, and the others. -/
theorem tGet_tPut (t : Tbl β) (k j : Nat) (v : β) : tGet (tPut t k v) j = if j = k then some v else tGet t j := by
  induction t with
  | nil =>
    by_cases e : k = j
    · subst e; simp [tPut, sPut, tGet]
    · have e' : ¬ j = k := fun q => e q.symm
      simp [tPut, sPut, tGet, e, e']
  | cons p l ih =>
    obtain ⟨i, w⟩ := p
    unfold tPut at ih ⊢
    unfold sPut
    by_cases e : k = j
    · subst e
      split
      · simp [tGet]
      · split
        · simp [tGet]
        · rename_i hi
          rw [tGet, if_neg hi, ih, if_pos rfl, if_pos rfl]
    · have e' : ¬ j = k := fun q => e q.symm
      rw [if_neg e']
      split
      · rw [tGet, if_neg (by simpa using e)]
      · split
        · rename_i hi
          have q : i = k := by simpa using hi
          subst q
          rw [tGet, if_neg (by simpa using e), tGet, if_neg (by simpa using e)]
        · rw [tGet, tGet, ih, if_neg e']

/-- The entry just put. -/
@[simp] theorem tGet_tPut_self (t : Tbl β) (k : Nat) (v : β) : tGet (tPut t k v) k = some v := by
  rw [tGet_tPut, if_pos rfl]

/-- Another entry than the one put. -/
theorem tGet_tPut_other {t : Tbl β} {k j : Nat} {v : β} (h : j ≠ k) : tGet (tPut t k v) j = tGet t j := by
  rw [tGet_tPut, if_neg h]

end Sys2Proof.Machine
end

