-- ==== Sys2Proof/Laws/Keeps.lean ====
section
/-!
SUPPORT. What every operation of the model keeps: `Keeps r s` says that from `r` to `s` the queue of waiting commands is as it
was, no blown fuse bit is unblown, and, `r` well-formed, `s` is too and GEN_FLOOR has not fallen.  Laws/Keep*.lean say it of
every operation and every meaning, one lemma each: f_keeps takes `Keeps r s` to `Keeps r (f s)`.
-/

namespace Sys2Proof.Machine

/-- The stores' canonical form, and GEN_FLOOR in its 32 bits, as parts of a state. -/
def Canon4 (regs : List (Nat × Word)) (hbm cellar flash : List (Nat × Byte)) (floor : Nat) : Prop :=
  Regs.wf regs = true ∧ Memory.wf hbm = true ∧ Memory.wf cellar = true ∧ Memory.wf flash = true ∧ floor < 2 ^ 32

theorem Canon4.imp_regs {a a' b c e g} (h : Canon4 a b c e g) (f : Regs.wf a = true → Regs.wf a' = true) : Canon4 a' b c e g := ⟨f h.1, h.2⟩

theorem Canon4.imp_hbm {a b b' c e g} (h : Canon4 a b c e g) (f : Memory.wf b = true → Memory.wf b' = true) : Canon4 a b' c e g :=
  ⟨h.1, f h.2.1, h.2.2⟩

theorem Canon4.imp_cellar {a b c c' e g} (h : Canon4 a b c e g) (f : Memory.wf c = true → Memory.wf c' = true) : Canon4 a b c' e g :=
  ⟨h.1, h.2.1, f h.2.2.1, h.2.2.2⟩

theorem Canon4.imp_flash {a b c e e' g} (h : Canon4 a b c e g) (f : Memory.wf e = true → Memory.wf e' = true) : Canon4 a b c e' g :=
  ⟨h.1, h.2.1, h.2.2.1, f h.2.2.2.1, h.2.2.2.2⟩

/-- What every operation and every meaning keeps, said of the parts of the state after it: the queue of waiting commands as it
was, every blown fuse bit blown, and of a well-formed state the form of its stores and GEN_FLOOR not lowered. -/
structure KeptParts (r : State) (p : List Instr) (regs : List (Nat × Word)) (hbm cellar flash : List (Nat × Byte)) (fuses : Tbl Nat)
    (floor : Nat) : Prop where
  pend : p = r.pending
  fuse : ∀ a, r.fuseBit a = true → ((tGet fuses (a / 64)).getD 0).testBit (a % 64) = true
  canon : r.wf = true → Canon4 regs hbm cellar flash floor
  floor : r.wf = true → r.genFloor ≤ floor

/-- `s` is `r` with the queue, the blown fuses and the form kept. -/
structure Keeps (r s : State) : Prop where
  parts : KeptParts r s.pending s.regs s.hbm s.cellar s.flash.bytes s.fuses s.genFloor

/-- A well-formed state's parts. -/
theorem State.wf_iff (s : State) : s.wf = true ↔ Canon4 s.regs s.hbm s.cellar s.flash.bytes s.genFloor := by
  simp [State.wf, Canon4]

theorem KeptParts.fold {r s : State} (h : Keeps r s) : KeptParts r s.pending s.regs s.hbm s.cellar s.flash.bytes s.fuses s.genFloor := h.parts

theorem mk_keeps_iff {z : State}
    {f_pending f_ready f_held f_outbox f_regs f_tick f_freeCtr f_provCtr f_slips f_versions f_qps f_mgmt f_sessions f_tenants
    f_rings f_sched f_fuses f_profile f_text f_entryGens f_preempting f_slots f_gens f_hbm f_cellar f_reserved f_pool
    f_hostRegions f_shelf f_commits f_revives f_moves f_peers f_ports f_spray f_nextTag f_host f_ringVec f_ringOwed f_cat
    f_membership f_principals f_errs f_trace f_scans f_scanning f_shapers f_hists f_histSamples f_histBase f_steps f_nextStep
    f_prefills f_mes f_tiles f_meShort f_targetSet f_nbus f_dieTab f_shards f_vecBlocks f_searches f_nextReq f_locks f_nextLock
    f_ckpt f_genFloor f_genBase f_floorBusy f_sec f_flash f_boot} :
    Keeps z ⟨f_pending, f_ready, f_held, f_outbox, f_regs, f_tick, f_freeCtr, f_provCtr, f_slips, f_versions, f_qps, f_mgmt,
    f_sessions, f_tenants, f_rings, f_sched, f_fuses, f_profile, f_text, f_entryGens, f_preempting, f_slots, f_gens, f_hbm,
    f_cellar, f_reserved, f_pool, f_hostRegions, f_shelf, f_commits, f_revives, f_moves, f_peers, f_ports, f_spray, f_nextTag,
    f_host, f_ringVec, f_ringOwed, f_cat, f_membership, f_principals, f_errs, f_trace, f_scans, f_scanning, f_shapers, f_hists,
    f_histSamples, f_histBase, f_steps, f_nextStep, f_prefills, f_mes, f_tiles, f_meShort, f_targetSet, f_nbus, f_dieTab,
    f_shards, f_vecBlocks, f_searches, f_nextReq, f_locks, f_nextLock, f_ckpt, f_genFloor, f_genBase, f_floorBusy, f_sec,
    f_flash, f_boot⟩ ↔ KeptParts z f_pending f_regs f_hbm f_cellar f_flash.bytes f_fuses f_genFloor :=
  ⟨fun h => h.parts, fun h => ⟨h⟩⟩

/-- The next state of an outcome, if it has one, keeps. -/
def OutKeeps (r : State) : Host.Outcome State Fault Refusal → Prop
  | .next t => Keeps r t
  | _ => True
/-- The state of a slip body's result keeps. -/
def ResKeeps (r : State) : SlipRes → Prop
  | .done t _ => Keeps r t
  | .hold t _ => Keeps r t
  | .wait t => Keeps r t
  | .gone t => Keeps r t
/-- The state of a micro-operation's result keeps. -/
def UopKeeps (r : State) : UopRes → Prop
  | .next t _ => Keeps r t
  | .jump t _ _ => Keeps r t
  | .stall => True
  | .stop t _ _ => Keeps r t
  | .yield t => Keeps r t
/-- The state of a lock taken or refused keeps. -/
def ExcKeeps (r : State) : Except SlipRes (State × Nat) → Prop
  | .error q => ResKeeps r q
  | .ok p => Keeps r p.1
/-- What an option holds, if anything, has a property. -/
def OptAll {α : Type} (P : α → Prop) : Option α → Prop
  | some a => P a
  | none => True

theorem OptAll.some {α : Type} {P : α → Prop} {a : α} (h : P a) : OptAll P (some a) := h

theorem OptAll.none {α : Type} {P : α → Prop} : OptAll P (none : Option α) := trivial

theorem OptAll.get {α : Type} {P : α → Prop} {o : Option α} {a : α} (h : OptAll P o) (e : o = Option.some a) : P a := by subst e; exact h

theorem Keeps.pair {α : Type} {r t : State} {p : State × α} {b : α} (h : Keeps r p.1) (e : p = (t, b)) : Keeps r t := by subst e; exact h

theorem OutKeeps.next {r t : State} (h : Keeps r t) : OutKeeps r (.next t) := h

theorem ResKeeps.done {r t : State} {a : Answer} (h : Keeps r t) : ResKeeps r (.done t a) := h

theorem ResKeeps.no {r t : State} {a b : Nat} (h : Keeps r t) : ResKeeps r (.no t a b) := h

theorem ResKeeps.hold {r t : State} {a : Hold} (h : Keeps r t) : ResKeeps r (.hold t a) := h

theorem ResKeeps.wait {r t : State} (h : Keeps r t) : ResKeeps r (.wait t) := h

theorem ResKeeps.gone {r t : State} (h : Keeps r t) : ResKeeps r (.gone t) := h

theorem Keeps.refl (s : State) : Keeps s s :=
  ⟨⟨rfl, fun _ h => h, fun h => (State.wf_iff s).1 h, fun _ => Nat.le_refl _⟩⟩

theorem Keeps.ite {r a b : State} {c : Prop} [Decidable c] (ha : Keeps r a) (hb : Keeps r b) : Keeps r (if c then a else b) := by
  split <;> assumption

theorem OutKeeps.ite {r : State} {a b} {c : Prop} [Decidable c] (ha : OutKeeps r a) (hb : OutKeeps r b) : OutKeeps r (if c then a else b) := by
  split <;> assumption

theorem ResKeeps.ite {r : State} {a b} {c : Prop} [Decidable c] (ha : ResKeeps r a) (hb : ResKeeps r b) : ResKeeps r (if c then a else b) := by
  split <;> assumption

theorem foldl_keeps {α : Type} {r s : State} {l : List α} {f : State → α → State} (h : Keeps r s) (hf : ∀ x a, Keeps r x → Keeps r (f x a)) : Keeps r (l.foldl f s) := by
  induction l generalizing s with
  | nil => exact h
  | cons a l ih => exact ih (hf _ _ h)

theorem foldl_keeps1 {α β : Type} {r : State} {p : State × β} {l : List α} {f : State × β → α → State × β} (h : Keeps r p.1) (hf : ∀ x a, Keeps r x.1 → Keeps r (f x a).1) : Keeps r (l.foldl f p).1 := by
  induction l generalizing p with
  | nil => exact h
  | cons a l ih => exact ih (hf _ _ h)

theorem foldl_keepsO {α β : Type} {P : β → Prop} {p : Option β} {l : List α} {f : Option β → α → Option β} (h : OptAll P p) (hf : ∀ x a, OptAll P x → OptAll P (f x a)) : OptAll P (l.foldl f p) := by
  induction l generalizing p with
  | nil => exact h
  | cons a l ih => exact ih (hf _ _ h)

theorem OptAll.bind {α β : Type} {Q : α → Prop} {P : β → Prop} {o : Option α} {f : α → Option β} (h : OptAll Q o) (hf : ∀ a, Q a → OptAll P (f a)) : OptAll P (o.bind f) := by
  cases o with
  | none => trivial
  | some a => exact hf a h

theorem OptAll.bindT {α β : Type} {P : β → Prop} {o : Option α} {f : α → Option β} (hf : ∀ a, OptAll P (f a)) : OptAll P (o.bind f) := by
  cases o with
  | none => trivial
  | some a => exact hf a

theorem OptAll.map {α β : Type} {Q : α → Prop} {P : β → Prop} {o : Option α} {f : α → β} (h : OptAll Q o) (hf : ∀ a, Q a → P (f a)) : OptAll P (o.map f) := by
  cases o with
  | none => trivial
  | some a => exact hf a h

theorem OptAll.getD {z d : State} {o : Option State} (h : OptAll (Keeps z) o) (hd : Keeps z d) : Keeps z (o.getD d) := by
  cases o with
  | none => exact hd
  | some a => exact h

theorem OptAll.get0 {z t : State} {o : Option State} (h : OptAll (Keeps z) o) (e : o = Option.some t) : Keeps z t := h.get e

theorem OptAll.get1 {α : Type} {z t : State} {b : α} {o : Option (State × α)} (h : OptAll (fun p => Keeps z p.1) o) (e : o = Option.some (t, b)) : Keeps z t := h.get e

theorem OptAll.get2 {α : Type} {z t : State} {b : α} {o : Option (α × State)} (h : OptAll (fun p => Keeps z p.2) o) (e : o = Option.some (b, t)) : Keeps z t := h.get e

theorem OptAll.get3 {α β : Type} {z t : State} {b : α} {c : β} {o : Option (α × State × β)} (h : OptAll (fun p => Keeps z p.2.1) o) (e : o = Option.some (b, t, c)) : Keeps z t := h.get e

theorem ExcKeeps.err {z : State} {q} {o} (h : ExcKeeps z o) (e : o = Except.error q) : ResKeeps z q := by subst e; exact h

theorem ExcKeeps.get {z t : State} {b : Nat} {o} (h : ExcKeeps z o) (e : o = Except.ok (t, b)) : Keeps z t := by subst e; exact h

theorem ExcKeeps.error {z : State} {q} (h : ResKeeps z q) : ExcKeeps z (Except.error q) := h

theorem ExcKeeps.ok {z t : State} {b : Nat} (h : Keeps z t) : ExcKeeps z (Except.ok (t, b)) := h

theorem OptAll.ite {α : Type} {P : α → Prop} {c : Prop} [Decidable c] {a b : Option α} (ha : OptAll P a) (hb : OptAll P b) : OptAll P (if c then a else b) := by
  split <;> assumption

theorem UopKeeps.ite {r : State} {a b} {c : Prop} [Decidable c] (ha : UopKeeps r a) (hb : UopKeeps r b) : UopKeeps r (if c then a else b) := by
  split <;> assumption

theorem UopKeeps.next {r t : State} {q} (h : Keeps r t) : UopKeeps r (.next t q) := h

theorem UopKeeps.jump {r t : State} {q n} (h : Keeps r t) : UopKeeps r (.jump t q n) := h

theorem UopKeeps.stop {r t : State} {q n} (h : Keeps r t) : UopKeeps r (.stop t q n) := h

theorem UopKeeps.yield {r t : State} (h : Keeps r t) : UopKeeps r (.yield t) := h

theorem UopKeeps.stall {r : State} : UopKeeps r .stall := True.intro

theorem UopKeeps.next_of {r t : State} {q u} (h : UopKeeps r u) (e : u = .next t q) : Keeps r t := by subst e; exact h

theorem UopKeeps.jump_of {r t : State} {q n u} (h : UopKeeps r u) (e : u = .jump t q n) : Keeps r t := by subst e; exact h

theorem UopKeeps.stop_of {r t : State} {q n u} (h : UopKeeps r u) (e : u = .stop t q n) : Keeps r t := by subst e; exact h

theorem UopKeeps.yield_of {r t : State} {u} (h : UopKeeps r u) (e : u = .yield t) : Keeps r t := by subst e; exact h

theorem OutKeeps.fault {r : State} {q} : OutKeeps r (.fault q) := True.intro

theorem OutKeeps.refused {r : State} {q} : OutKeeps r (.refused q) := True.intro

theorem Keeps.ite1 {α : Type} {r : State} {a b : State × α} {c : Prop} [Decidable c] (ha : Keeps r a.1) (hb : Keeps r b.1) : Keeps r (if c then a else b).1 := by
  split <;> assumption

theorem Keeps.fst {α : Type} {r t : State} {b : α} (h : Keeps r t) : Keeps r (t, b).1 := h

theorem ResKeeps.inv {z t : State} {a : Answer} (h : ResKeeps z (.done t a)) : Keeps z t := h

theorem State.setReg_keeps {r s : State} {a : Nat} {w : Word} (h : Keeps r s) : Keeps r (s.setReg a w) :=
  ⟨{ h.parts with canon := fun c => (h.parts.canon c).imp_regs (sSet_wf a w) }⟩

end Sys2Proof.Machine
end

