-- ==== Sys2Proof/Laws/KeepOps.lean ====
section
/-!
SUPPORT. Every operation and meaning of Machine/Ops.lean leaves the queue of waiting commands as it was and keeps the stores
canonical: for each f, `f_keeps` (Laws/Keeps.lean).
-/

namespace Sys2Proof.Machine

theorem State.setFld_keeps {z : State} {s : State} {f} {v} (hz : Keeps z s) :
    Keeps z (State.setFld s f v) := by
  unfold State.setFld
  with_reducible
    apply State.setReg_keeps
    assumption

theorem State.bumpBy_keeps {z : State} {s : State} {f} {n} (hz : Keeps z s) :
    Keeps z (State.bumpBy s f n) := by
  unfold State.bumpBy
  with_reducible
    apply State.setFld_keeps
    assumption

theorem State.bump_keeps {z : State} {s : State} {f} (hz : Keeps z s) :
    Keeps z (State.bump s f) := by
  unfold State.bump
  with_reducible
    apply State.bumpBy_keeps
    assumption

theorem State.bumpSat_keeps {z : State} {s : State} {f} (hz : Keeps z s) :
    Keeps z (State.bumpSat s f) := by
  unfold State.bumpSat
  with_reducible
    apply State.setFld_keeps
    assumption

theorem State.maxFld_keeps {z : State} {s : State} {f} {v} (hz : Keeps z s) :
    Keeps z (State.maxFld s f v) := by
  unfold State.maxFld
  with_reducible
    refine Keeps.ite ?_ ?_
    apply State.setFld_keeps
    assumption
    assumption

theorem State.regAccErr_keeps {z : State} {s : State} (hz : Keeps z s) :
    Keeps z (State.regAccErr s) := by
  unfold State.regAccErr
  with_reducible
    apply State.bump_keeps
    assumption

theorem State.emit_keeps {z : State} {s : State} {o} (hz : Keeps z s) :
    Keeps z (State.emit s o) := by
  unfold State.emit
  with_reducible
    (simp -zeta only [mk_keeps_iff]; apply KeptParts.fold)
    assumption

theorem State.traceEv_keeps {z : State} {s : State} {group} {code} {unit} {arg0} {arg1} {arg2} (hz : Keeps z s) :
    Keeps z (State.traceEv s group code unit arg0 arg1 arg2) := by
  unfold State.traceEv
  with_reducible
    refine Keeps.ite ?_ ?_
    ((try lift_lets -underBinder); intro x; simp -zeta only [x])
    ((try lift_lets -underBinder); intro x; simp -zeta only [x])
    (simp -zeta only [mk_keeps_iff]; apply KeptParts.fold)
    assumption
    assumption

theorem State.updCat_keeps {z : State} {s : State} {f} (hz : Keeps z s) :
    Keeps z (State.updCat s f) := by
  unfold State.updCat
  with_reducible
    (simp -zeta only [mk_keeps_iff]; apply KeptParts.fold)
    assumption

theorem State.wake_keeps {z : State} {s : State} {i} (hz : Keeps z s) :
    Keeps z (State.wake s i) := by
  unfold State.wake
  with_reducible
    (simp -zeta only [mk_keeps_iff]; apply KeptParts.fold)
    assumption

theorem State.dequeued_keeps {z : State} {s : State} {q} {since} (hz : Keeps z s) :
    Keeps z (State.dequeued s q since) := by
  unfold State.dequeued
  with_reducible
    ((try lift_lets -underBinder); intro x; simp -zeta only [x])
    refine Keeps.ite ?_ ?_
    (simp -zeta only [mk_keeps_iff]; apply KeptParts.fold)
    assumption
    assumption

theorem State.depthSample_keeps {z : State} {s : State} {q} {d} (hz : Keeps z s) :
    Keeps z (State.depthSample s q d) := by
  unfold State.depthSample
  with_reducible
    ((try lift_lets -underBinder); intro x; simp -zeta only [x])
    refine Keeps.ite ?_ ?_
    assumption
    (simp -zeta only [mk_keeps_iff]; apply KeptParts.fold)
    assumption

theorem State.queueUp_keeps {z : State} {s : State} {i} (hz : Keeps z s) :
    Keeps z (State.queueUp s i) := by
  unfold State.queueUp
  with_reducible
    ((try lift_lets -underBinder); intro x; simp -zeta only [x])
    split
    apply State.maxFld_keeps
    apply State.wake_keeps
    assumption
    apply State.wake_keeps
    assumption

theorem State.queueLeft_keeps {z : State} {s : State} {i} {since} (hz : Keeps z s) :
    Keeps z (State.queueLeft s i since) := by
  unfold State.queueLeft
  with_reducible
    split
    apply State.maxFld_keeps
    apply State.dequeued_keeps
    assumption
    assumption

theorem State.setTenant_keeps {z : State} {s : State} {t} {v} (hz : Keeps z s) :
    Keeps z (State.setTenant s t v) := by
  unfold State.setTenant
  with_reducible
    (simp -zeta only [mk_keeps_iff]; apply KeptParts.fold)
    assumption

theorem State.updTenant_keeps {z : State} {s : State} {t} {f} (hz : Keeps z s) :
    Keeps z (State.updTenant s t f) := by
  unfold State.updTenant
  with_reducible
    apply State.setTenant_keeps
    assumption

theorem State.setQp_keeps {z : State} {s : State} {q} {v} (hz : Keeps z s) :
    Keeps z (State.setQp s q v) := by
  unfold State.setQp
  with_reducible
    (simp -zeta only [mk_keeps_iff]; apply KeptParts.fold)
    assumption

theorem State.setRing_keeps {z : State} {s : State} {r} {v} (hz : Keeps z s) :
    Keeps z (State.setRing s r v) := by
  unfold State.setRing
  with_reducible
    (simp -zeta only [mk_keeps_iff]; apply KeptParts.fold)
    assumption

theorem State.charge_keeps {z : State} {s : State} {t} {kind} {amount} (hz : Keeps z s) :
    Keeps z (State.charge s t kind amount) := by
  unfold State.charge
  with_reducible
    refine Keeps.ite ?_ ?_
    assumption
    apply State.updTenant_keeps
    assumption

theorem State.tally_keeps {z : State} {s : State} {t} {kind} {n} (hz : Keeps z s) :
    Keeps z (State.tally s t kind n) := by
  unfold State.tally
  with_reducible
    refine Keeps.ite ?_ ?_
    assumption
    apply State.updTenant_keeps
    assumption

end Sys2Proof.Machine
end

