-- ==== Sys2Proof/Laws/KeepNetFrame.lean ====
section
/-!
SUPPORT. Every operation and meaning of Machine/NetFrame.lean leaves the queue of waiting commands as it was and keeps the stores
canonical: for each f, `f_keeps` (Laws/Keeps.lean).
-/

namespace Sys2Proof.Machine

theorem State.setPeer_keeps {z : State} {s : State} {p} {v} (hz : Keeps z s) :
    Keeps z (State.setPeer s p v) := by
  unfold State.setPeer
  with_reducible
    (simp -zeta only [mk_keeps_iff]; apply KeptParts.fold)
    assumption

theorem State.updPeer_keeps {z : State} {s : State} {p} {f} (hz : Keeps z s) :
    Keeps z (State.updPeer s p f) := by
  unfold State.updPeer
  with_reducible
    apply State.setPeer_keeps
    assumption

theorem State.setPort_keeps {z : State} {s : State} {p} {v} (hz : Keeps z s) :
    Keeps z (State.setPort s p v) := by
  unfold State.setPort
  with_reducible
    (simp -zeta only [mk_keeps_iff]; apply KeptParts.fold)
    assumption

theorem State.queueFrame_keeps {z : State} {s : State} {port} {f} (hz : Keeps z s) :
    Keeps z (State.queueFrame s port f) := by
  unfold State.queueFrame
  with_reducible
    apply State.setPort_keeps
    assumption

theorem State.sendPkt_keeps {z : State} {s : State} {port} {sub} {peer} {tenant} {k} (hz : Keeps z s) :
    Keeps z (State.sendPkt s port sub peer tenant k) := by
  unfold State.sendPkt
  with_reducible
    apply State.bump_keeps
    apply State.queueFrame_keeps
    apply State.setPeer_keeps
    assumption

theorem State.sendControl_keeps {z : State} {s : State} {peer} {type} {payload} (hz : Keeps z s) :
    Keeps z (State.sendControl s peer type payload) := by
  unfold State.sendControl
  with_reducible
    apply State.sendPkt_keeps
    assumption

theorem State.pumpOne_keeps {z : State} {s : State} {peer} (hz : Keeps z s) :
    Keeps z (State.pumpOne s peer) := by
  unfold State.pumpOne
  with_reducible
    ((try lift_lets -underBinder); intro x; simp -zeta only [x])
    split
    assumption
    refine Keeps.ite ?_ ?_
    assumption
    split
    assumption
    apply State.sendPkt_keeps
    ((try lift_lets -underBinder); intro x; simp -zeta only [x])
    ((try lift_lets -underBinder); intro x; refine (fun (hx : Keeps z x) => ?_) ?_; clear_value x)
    (simp -zeta only [mk_keeps_iff]; apply KeptParts.fold)
    assumption
    apply State.setPeer_keeps
    assumption

theorem State.pump_keeps {z : State} {s : State} {peer} (hz : Keeps z s) :
    Keeps z (State.pump s peer) := by
  unfold State.pump
  with_reducible
    apply foldl_keeps
    assumption
    intro _
    intro _
    apply State.pumpOne_keeps

theorem State.postMsg_keeps {z : State} {s : State} {peer} {m} (hz : Keeps z s) :
    Keeps z (State.postMsg s peer m) := by
  unfold State.postMsg
  with_reducible
    apply State.pump_keeps
    apply State.setPeer_keeps
    assumption

theorem State.failMsg_keeps {z : State} {s : State} {m} (hz : Keeps z s) :
    Keeps z (State.failMsg s m) := by
  unfold State.failMsg
  with_reducible
    split
    assumption
    apply State.wake_keeps
    assumption
    apply State.wake_keeps
    assumption
    apply State.wake_keeps
    assumption

theorem State.openPeer_keeps {z : State} {s : State} {p} (hz : Keeps z s) :
    Keeps z (State.openPeer s p) := by
  unfold State.openPeer
  with_reducible
    apply State.sendControl_keeps
    apply State.setPeer_keeps
    (simp -zeta only [mk_keeps_iff]; apply KeptParts.fold)
    assumption

theorem State.sendMsg_keeps {z : State} {s : State} {p} {m} (hz : Keeps z s) :
    Keeps z (State.sendMsg s p m) := by
  unfold State.sendMsg
  with_reducible
    refine Keeps.ite ?_ ?_
    apply State.postMsg_keeps
    assumption
    refine Keeps.ite ?_ ?_
    apply State.setPeer_keeps
    assumption
    refine Keeps.ite ?_ ?_
    apply State.openPeer_keeps
    apply State.setPeer_keeps
    assumption
    apply State.failMsg_keeps
    assumption

theorem State.sendPeerReply_keeps {z : State} {s : State} {p} {m} (hz : Keeps z s) :
    Keeps z (State.sendPeerReply s p m) := by
  unfold State.sendPeerReply
  with_reducible
    refine Keeps.ite ?_ ?_
    apply State.postMsg_keeps
    assumption
    apply State.bump_keeps
    assumption

theorem State.sendSlip_keeps {z : State} {s : State} {p} {op} {flags} {tenant} {acc} {ps} {payload} {owner} (hz : Keeps z s) :
    Keeps z (State.sendSlip s p op flags tenant acc ps payload owner) := by
  unfold State.sendSlip
  with_reducible
    apply State.sendMsg_keeps
    (simp -zeta only [mk_keeps_iff]; apply KeptParts.fold)
    apply State.emit_keeps
    assumption

theorem State.orphan_keeps {z : State} {s : State} {c} {d} (hz : Keeps z s) :
    Keeps z (State.orphan s c d) := by
  unfold State.orphan
  with_reducible
    ((try lift_lets -underBinder); intro x; simp -zeta only [x])
    ((try lift_lets -underBinder); intro x; simp -zeta only [x])
    ((try lift_lets -underBinder); intro x; simp -zeta only [x])
    ((try lift_lets -underBinder); intro x; simp -zeta only [x])
    ((try lift_lets -underBinder); intro x; simp -zeta only [x])
    ((try lift_lets -underBinder); intro x; simp -zeta only [x])
    ((try lift_lets -underBinder); intro x; simp -zeta only [x])
    (simp -zeta only [mk_keeps_iff]; apply KeptParts.fold)
    assumption

theorem State.closePeer_keeps {z : State} {s : State} {p} (hz : Keeps z s) :
    Keeps z (State.closePeer s p) := by
  unfold State.closePeer
  with_reducible
    apply foldl_keeps
    apply State.setPeer_keeps
    apply State.setPeer_keeps
    apply State.orphan_keeps
    assumption
    apply State.failMsg_keeps

theorem State.makeCtx_keeps {z s : State} {dev} (hz : Keeps z s) : OptAll (fun p => Keeps z p.2) (State.makeCtx s dev) := by
  unfold State.makeCtx
  split
  · exact OptAll.none
  · refine OptAll.some ?_
    apply State.setPeer_keeps
    apply Keeps.ite hz
    exact State.closePeer_keeps hz

theorem State.reach_keeps {z s : State} {dev : Nat} (hz : Keeps z s) : OptAll (fun p => Keeps z p.2) (State.reach s dev) := by
  unfold State.reach
  split
  · show Keeps z s
    exact hz
  · with_reducible exact State.makeCtx_keeps hz

theorem State.sendForward_keeps {z : State} {s : State} {dev} {op} {x} (hz : Keeps z s) :
    Keeps z (State.sendForward s dev op x) := by
  unfold State.sendForward
  with_reducible
    ((try lift_lets -underBinder); intro x; simp -zeta only [x])
    ((try lift_lets -underBinder); intro x; refine (fun (hx : Keeps z x) => ?_) ?_; clear_value x)
    ((try lift_lets -underBinder); intro x; refine (fun (hx : Keeps z x) => ?_) ?_; clear_value x)
    ((try lift_lets -underBinder); intro x; simp -zeta only [x])
    split
    apply State.sendMsg_keeps
    refine OptAll.get2 (State.reach_keeps ?_) (by assumption)
    assumption
    apply State.bump_keeps
    assumption
    simp -zeta only [x]
    (simp -zeta only [mk_keeps_iff]; apply KeptParts.fold)
    assumption
    apply State.emit_keeps
    assumption

theorem State.sendDev_keeps {z : State} {s : State} {dev} {op} {acc} {tenant} {ps} {payload} {owner} (hz : Keeps z s) :
    Keeps z (State.sendDev s dev op acc tenant ps payload owner) := by
  unfold State.sendDev
  with_reducible
    ((try lift_lets -underBinder); intro x; refine (fun (hx : Keeps z x) => ?_) ?_; clear_value x)
    split
    apply State.sendSlip_keeps
    refine OptAll.get2 (State.reach_keeps ?_) (by assumption)
    assumption
    apply State.failMsg_keeps
    apply State.bump_keeps
    assumption
    apply State.emit_keeps
    assumption

end Sys2Proof.Machine
end

