-- ==== Sys2Proof/Laws/KeepBounceFrame.lean ====
section
/-!
SUPPORT. Every operation and meaning of Machine/BounceFrame.lean leaves the queue of waiting commands as it was and keeps the stores
canonical: for each f, `f_keeps` (Laws/Keeps.lean).
-/

namespace Sys2Proof.Machine

theorem State.writeSealed_keeps {z : State} {s : State} {kind} {ref} {addr} {plain} (hz : Keeps z s) :
    Keeps z (State.writeSealed s kind ref addr plain) := by
  unfold State.writeSealed
  with_reducible
    split
    ((try lift_lets -underBinder); intro x; simp -zeta only [x])
    ((try lift_lets -underBinder); intro x; refine (fun (hx : Keeps z x) => ?_) ?_; clear_value x)
    ((try lift_lets -underBinder); intro x; simp -zeta only [x])
    (simp -zeta only [mk_keeps_iff]; apply KeptParts.fold)
    assumption
    apply State.emit_keeps
    assumption
    assumption

theorem State.writeSpan_keeps {z : State} {s : State} {kind} {owner} {base} {off} {b} (hz : Keeps z s) :
    Keeps z (State.writeSpan s kind owner base off b) := by
  unfold State.writeSpan
  with_reducible
    refine Keeps.ite ?_ ?_
    assumption
    apply foldl_keeps
    assumption
    intro _
    intro _
    apply State.writeSealed_keeps

end Sys2Proof.Machine
end

