-- ==== Sys2Proof/Laws/KeepAccept.lean ====
section
/-!
SUPPORT. Every operation and meaning of Machine/Accept.lean leaves the queue of waiting commands as it was and keeps the stores
canonical: for each f, `f_keeps` (Laws/Keeps.lean).
-/

namespace Sys2Proof.Machine

theorem State.updOutst_keeps {z : State} {s : State} {c} {tag} {f} (hz : Keeps z s) :
    Keeps z (State.updOutst s c tag f) := by
  unfold State.updOutst
  with_reducible
    (simp -zeta only [mk_keeps_iff]; apply KeptParts.fold)
    assumption

theorem State.sendMsix_keeps {z : State} {s : State} {v} (hz : Keeps z s) :
    Keeps z (State.sendMsix s v) := by
  unfold State.sendMsix
  with_reducible
    refine Keeps.ite ?_ ?_
    assumption
    refine Keeps.ite ?_ ?_
    ((try lift_lets -underBinder); intro x; simp -zeta only [x])
    (simp -zeta only [mk_keeps_iff]; apply KeptParts.fold)
    assumption
    apply State.emit_keeps
    assumption

theorem State.pairReply_keeps {z : State} {s : State} {q} {r} (hz : Keeps z s) :
    Keeps z (State.pairReply s q r) := by
  unfold State.pairReply
  with_reducible
    refine Keeps.ite ?_ ?_
    apply State.sendMsix_keeps
    apply State.setQp_keeps
    refine Keeps.ite ?_ ?_
    apply State.writeSealed_keeps
    apply State.writeSealed_keeps
    apply State.emit_keeps
    apply State.emit_keeps
    assumption
    apply State.emit_keeps
    apply State.emit_keeps
    assumption
    apply State.setQp_keeps
    refine Keeps.ite ?_ ?_
    apply State.writeSealed_keeps
    apply State.writeSealed_keeps
    apply State.emit_keeps
    apply State.emit_keeps
    assumption
    apply State.emit_keeps
    apply State.emit_keeps
    assumption

theorem State.countStatus_keeps {z : State} {s : State} {st} (hz : Keeps z s) :
    Keeps z (State.countStatus s st) := by
  unfold State.countStatus
  with_reducible
    refine Keeps.ite ?_ ?_
    apply State.bump_keeps
    assumption
    refine Keeps.ite ?_ ?_
    apply State.bump_keeps
    assumption
    refine Keeps.ite ?_ ?_
    apply State.bump_keeps
    assumption
    assumption

theorem State.writeData_keeps {z : State} {s : State} {q} {x} {data} (hz : Keeps z s) :
    Keeps z (State.writeData s q x data) := by
  unfold State.writeData
  with_reducible
    ((try lift_lets -underBinder); intro x; simp -zeta only [x])
    refine Keeps.ite ?_ ?_
    apply State.writeSpan_keeps
    assumption
    refine Keeps.ite ?_ ?_
    assumption
    apply State.emit_keeps
    assumption

theorem State.sendReply_keeps {z : State} {s : State} {op} {x} {version} {a} (hz : Keeps z s) :
    Keeps z (State.sendReply s op x version a) := by
  unfold State.sendReply
  with_reducible
    ((try lift_lets -underBinder); intro x; simp -zeta only [x])
    ((try lift_lets -underBinder); intro x; simp -zeta only [x])
    refine Keeps.ite ?_ ?_
    split
    apply State.setQp_keeps
    apply State.traceEv_keeps
    assumption
    apply State.traceEv_keeps
    assumption
    split
    ((try lift_lets -underBinder); intro x; simp -zeta only [x])
    refine Keeps.ite ?_ ?_
    apply State.bump_keeps
    apply State.setQp_keeps
    apply State.traceEv_keeps
    assumption
    apply State.pairReply_keeps
    apply State.writeData_keeps
    apply State.traceEv_keeps
    assumption
    apply State.sendPeerReply_keeps
    apply State.emit_keeps
    apply State.traceEv_keeps
    assumption
    refine Keeps.ite ?_ ?_
    apply State.emit_keeps
    apply State.traceEv_keeps
    assumption
    apply State.traceEv_keeps
    assumption
    apply State.emit_keeps
    apply State.traceEv_keeps
    assumption

theorem State.release_keeps {z : State} {s : State} {why} (hz : Keeps z s) :
    Keeps z (State.release s why) := by
  unfold State.release
  with_reducible
    ((try lift_lets -underBinder); intro x; simp -zeta only [x])
    (simp -zeta only [mk_keeps_iff]; apply KeptParts.fold)
    assumption

theorem State.releaseOrder_keeps {z : State} {s : State} (hz : Keeps z s) :
    Keeps z (State.releaseOrder s) := by
  unfold State.releaseOrder
  with_reducible
    apply State.release_keeps
    assumption

theorem State.dropSlip_keeps {z : State} {s : State} {c} {tag} (hz : Keeps z s) :
    Keeps z (State.dropSlip s c tag) := by
  unfold State.dropSlip
  with_reducible
    ((try lift_lets -underBinder); intro x; refine (fun (hx : Keeps z x) => ?_) ?_; clear_value x)
    split
    apply State.releaseOrder_keeps
    apply State.setQp_keeps
    assumption
    apply State.releaseOrder_keeps
    assumption
    simp -zeta only [x]
    (simp -zeta only [mk_keeps_iff]; apply KeptParts.fold)
    assumption

theorem State.noteFault_keeps {z : State} {s : State} {x} {status} (hz : Keeps z s) :
    Keeps z (State.noteFault s x status) := by
  unfold State.noteFault
  with_reducible
    refine Keeps.ite ?_ ?_
    (simp -zeta only [mk_keeps_iff]; apply KeptParts.fold)
    assumption
    assumption

theorem State.fetchMore_keeps {z : State} {s : State} {q} (hz : Keeps z s) :
    Keeps z (State.fetchMore s q) := by
  unfold State.fetchMore
  with_reducible
    refine Keeps.ite ?_ ?_
    apply State.emit_keeps
    apply State.setQp_keeps
    assumption
    assumption

theorem State.refetch_keeps {z : State} {s : State} {c} {full} (hz : Keeps z s) :
    Keeps z (State.refetch s c full) := by
  unfold State.refetch
  with_reducible
    refine Keeps.ite ?_ ?_
    apply foldl_keeps
    assumption
    apply State.fetchMore_keeps
    split
    apply State.fetchMore_keeps
    assumption
    assumption

theorem State.dataError_keeps {z : State} {s : State} {c} (hz : Keeps z s) :
    Keeps z (State.dataError s c) := by
  unfold State.dataError
  with_reducible
    split
    apply State.wake_keeps
    apply State.setQp_keeps
    assumption
    assumption

theorem State.finish_keeps {z : State} {s : State} {op} {x} {a} (hz : Keeps z s) :
    Keeps z (State.finish s op x a) := by
  unfold State.finish
  with_reducible
    refine Keeps.ite ?_ ?_
    assumption
    ((try lift_lets -underBinder); intro x; simp -zeta only [x])
    ((try lift_lets -underBinder); intro x; simp -zeta only [x])
    ((try lift_lets -underBinder); intro x; simp -zeta only [x])
    ((try lift_lets -underBinder); intro x; simp -zeta only [x])
    ((try lift_lets -underBinder); intro x; simp -zeta only [x])
    ((try lift_lets -underBinder); intro x; simp -zeta only [x])
    ((try lift_lets -underBinder); intro x; simp -zeta only [x])
    apply State.refetch_keeps
    apply State.releaseOrder_keeps
    refine Keeps.ite ?_ ?_
    apply State.dataError_keeps
    apply State.noteFault_keeps
    (simp -zeta only [mk_keeps_iff]; apply KeptParts.fold)
    assumption
    apply State.sendReply_keeps
    apply State.countStatus_keeps
    apply State.noteFault_keeps
    (simp -zeta only [mk_keeps_iff]; apply KeptParts.fold)
    assumption

theorem State.reject_keeps {z : State} {s : State} {op} {x} {status} {detail} {early} (hz : Keeps z s) :
    Keeps z (State.reject s op x status detail early) := by
  unfold State.reject
  with_reducible
    apply State.sendReply_keeps
    apply State.countStatus_keeps
    refine Keeps.ite ?_ ?_
    apply State.updTenant_keeps
    refine Keeps.ite ?_ ?_
    apply State.bump_keeps
    assumption
    assumption
    refine Keeps.ite ?_ ?_
    apply State.bump_keeps
    assumption
    assumption

theorem State.takeToken_keeps {z : State} {s : State} {x} (hz : Keeps z s) :
    Keeps z (State.takeToken s x) := by
  unfold State.takeToken
  with_reducible
    refine Keeps.ite ?_ ?_
    apply State.updTenant_keeps
    assumption
    assumption

theorem State.enrol_keeps {z : State} {s : State} {op} {x} {stage} {idx} (hz : Keeps z s) :
    Keeps z (State.enrol s op x stage idx).1 := by
  unfold State.enrol
  with_reducible
    refine Keeps.ite1 ?_ ?_
    assumption
    split
    apply Keeps.fst
    apply State.reject_keeps
    assumption
    apply Keeps.fst
    apply State.updTenant_keeps
    apply State.bump_keeps
    assumption
    ((try lift_lets -underBinder); intro x; simp -zeta only [x])
    ((try lift_lets -underBinder); intro x; simp -zeta only [x])
    (simp -zeta only [mk_keeps_iff]; apply KeptParts.fold)
    refine Keeps.ite ?_ ?_
    apply State.traceEv_keeps
    apply State.traceEv_keeps
    apply State.bump_keeps
    apply State.takeToken_keeps
    assumption
    apply State.traceEv_keeps
    apply State.bump_keeps
    apply State.takeToken_keeps
    assumption

theorem SlipRes.no_keeps {z : State} {s : State} {status} {detail} (hz : Keeps z s) :
    ResKeeps z (SlipRes.no s status detail) := by
  unfold SlipRes.no
  with_reducible
    apply ResKeeps.done
    assumption

theorem SlipRes.close_keeps {z : State} {q : SlipRes} {op x} (hq : ResKeeps z q) : Keeps z (SlipRes.close q op x) := by
  cases q with
  | done t a => exact State.finish_keeps hq
  | hold t why =>
    unfold SlipRes.close
    simp only [mk_keeps_iff]
    exact KeptParts.fold (State.updOutst_keeps hq)
  | wait t => exact State.updOutst_keeps hq
  | gone t => exact ⟨Keeps.parts (s := t) hq⟩

theorem State.execSlip_keeps {z : State} {s : State} {op} {x} {body} (hz : Keeps z s) (hf : ∀ x, Keeps z x → ResKeeps z (body x)) :
    Keeps z (State.execSlip s op x body) := by
  unfold State.execSlip
  with_reducible
    refine Keeps.ite ?_ ?_
    apply SlipRes.close_keeps
    apply ResKeeps.hold
    assumption
    split
    apply SlipRes.close_keeps
    apply SlipRes.no_keeps
    assumption
    apply SlipRes.close_keeps
    apply hf
    assumption

theorem runSlip_keeps {z : State} {op} {x} {s : State} {body} (hz : Keeps z s) (hf : ∀ x1, Keeps z x1 → ResKeeps z (body x1)) :
    OutKeeps z (runSlip op x s body) := by
  unfold runSlip
  with_reducible
    split
    refine OutKeeps.ite ?_ ?_
    apply OutKeeps.next
    apply State.execSlip_keeps
    assumption
    intro _
    intro _
    apply hf
    assumption
    apply OutKeeps.next
    apply State.enrol_keeps
    assumption
    ((try lift_lets -underBinder); intro x; simp -zeta only [x])
    refine OutKeeps.ite ?_ ?_
    apply OutKeeps.next
    apply State.execSlip_keeps
    apply State.enrol_keeps
    assumption
    intro _
    intro _
    apply hf
    assumption
    apply OutKeeps.next
    apply State.enrol_keeps
    assumption

end Sys2Proof.Machine
end

