-- ==== Sys2Proof/Laws/KeepLockFrame.lean ====
section
/-!
SUPPORT. Every operation and meaning of Machine/LockFrame.lean leaves the queue of waiting commands as it was and keeps the stores
canonical: for each f, `f_keeps` (Laws/Keeps.lean).
-/

namespace Sys2Proof.Machine

theorem State.takeLock_keeps {z : State} {s : State} {holder} {activity} {scope} {index} {auto} {active} (hz : Keeps z s) :
    Keeps z (State.takeLock s holder activity scope index auto active) := by
  unfold State.takeLock
  with_reducible
    ((try lift_lets -underBinder); intro x; simp -zeta only [x])
    ((try lift_lets -underBinder); intro x; simp -zeta only [x])
    ((try lift_lets -underBinder); intro x; simp -zeta only [x])
    ((try lift_lets -underBinder); intro x; simp -zeta only [x])
    (simp -zeta only [mk_keeps_iff]; apply KeptParts.fold)
    assumption

theorem State.lockRefused_keeps {z : State} {s : State} {l} (hz : Keeps z s) :
    ResKeeps z (State.lockRefused s l) := by
  unfold State.lockRefused
  with_reducible
    apply SlipRes.no_keeps
    apply State.bump_keeps
    assumption

theorem State.lockFor_keeps {z : State} {s : State} {x} {activity} {scope} {index} {want} (hz : Keeps z s) :
    ExcKeeps z (State.lockFor s x activity scope index want) := by
  unfold State.lockFor
  with_reducible
    split
    split
    apply ExcKeeps.error
    apply State.lockRefused_keeps
    assumption
    split
    apply ExcKeeps.error
    apply SlipRes.no_keeps
    assumption
    apply ExcKeeps.ok
    apply State.takeLock_keeps
    assumption
    split
    split
    apply ExcKeeps.error
    apply SlipRes.no_keeps
    assumption
    split
    apply ExcKeeps.error
    apply State.lockRefused_keeps
    assumption
    apply ExcKeeps.ok
    (simp -zeta only [mk_keeps_iff]; apply KeptParts.fold)
    assumption
    apply ExcKeeps.error
    apply SlipRes.no_keeps
    assumption

theorem State.dropLocks_keeps {z : State} {s : State} {p} (hz : Keeps z s) :
    Keeps z (State.dropLocks s p) := by
  unfold State.dropLocks
  with_reducible
    (simp -zeta only [mk_keeps_iff]; apply KeptParts.fold)
    assumption

theorem State.endActivity_keeps {z : State} {s : State} {id} (hz : Keeps z s) :
    Keeps z (State.endActivity s id) := by
  unfold State.endActivity
  with_reducible
    ((try lift_lets -underBinder); intro x; simp -zeta only [x])
    (simp -zeta only [mk_keeps_iff]; apply KeptParts.fold)
    assumption

theorem State.contextLocks_keeps {z : State} {s : State} {c} (hz : Keeps z s) :
    Keeps z (State.contextLocks s c) := by
  unfold State.contextLocks
  with_reducible
    ((try lift_lets -underBinder); intro x; simp -zeta only [x])
    (simp -zeta only [mk_keeps_iff]; apply KeptParts.fold)
    assumption

end Sys2Proof.Machine
end

