-- ==== Sys2Proof/Laws/KeepHostQueue.lean ====
section
/-!
SUPPORT. Every operation and meaning of Machine/HostQueue.lean leaves the queue of waiting commands as it was and keeps the stores
canonical: for each f, `f_keeps` (Laws/Keeps.lean).
-/

namespace Sys2Proof.Machine

theorem State.wakeSlip_keeps {z : State} {s : State} {op} {x} (hz : Keeps z s) :
    Keeps z (State.wakeSlip s op x) := by
  unfold State.wakeSlip
  with_reducible
    apply State.queueUp_keeps
    assumption

theorem State.arrive_keeps {z : State} {s : State} {o} (hz : Keeps z s) :
    Keeps z (State.arrive s o) := by
  unfold State.arrive
  with_reducible
    ((try lift_lets -underBinder); intro x; simp -zeta only [x])
    refine Keeps.ite ?_ ?_
    apply State.wakeSlip_keeps
    apply State.enrol_keeps
    assumption
    apply State.enrol_keeps
    assumption

theorem State.dropVersion_keeps {z : State} {s : State} {c} (hz : Keeps z s) :
    Keeps z (State.dropVersion s c) := by
  unfold State.dropVersion
  with_reducible
    apply State.contextLocks_keeps
    (simp -zeta only [mk_keeps_iff]; apply KeptParts.fold)
    assumption

theorem State.pairError_keeps {z : State} {s : State} {q} {cause} (hz : Keeps z s) :
    Keeps z (State.pairError s q cause) := by
  unfold State.pairError
  with_reducible
    apply State.sendMsix_keeps
    apply State.dropVersion_keeps
    apply State.setQp_keeps
    assumption

theorem State.hostError_keeps {z : State} {s : State} {q} (hz : Keeps z s) :
    Keeps z (State.hostError s q) := by
  unfold State.hostError
  with_reducible
    refine Keeps.ite ?_ ?_
    refine Keeps.ite ?_ ?_
    apply State.pairError_keeps
    assumption
    assumption
    apply State.setQp_keeps
    refine Keeps.ite ?_ ?_
    apply State.pairError_keeps
    assumption
    assumption

theorem execQP_SQ_TAIL_keeps {z : State} {q} {value} {s : State} (hz : Keeps z s) :
    OutKeeps z (execQP_SQ_TAIL q value s) := by
  unfold execQP_SQ_TAIL
  with_reducible
    refine OutKeeps.ite ?_ ?_
    apply OutKeeps.next
    apply State.regAccErr_keeps
    assumption
    refine OutKeeps.ite ?_ ?_
    apply OutKeeps.next
    apply State.pairError_keeps
    assumption
    apply OutKeeps.next
    apply State.fetchMore_keeps
    apply State.setQp_keeps
    assumption

theorem execQP_RQ_HEAD_keeps {z : State} {q} {value} {s : State} (hz : Keeps z s) :
    OutKeeps z (execQP_RQ_HEAD q value s) := by
  unfold execQP_RQ_HEAD
  with_reducible
    refine OutKeeps.ite ?_ ?_
    apply OutKeeps.next
    apply State.regAccErr_keeps
    assumption
    refine OutKeeps.ite ?_ ?_
    apply OutKeeps.next
    apply State.pairError_keeps
    assumption
    apply OutKeeps.next
    apply State.fetchMore_keeps
    apply State.setQp_keeps
    assumption

theorem State.fetched_keeps {z : State} {s : State} {q} {o} {idx} (hz : Keeps z s) :
    Keeps z (State.fetched s q o idx) := by
  unfold State.fetched
  with_reducible
    ((try lift_lets -underBinder); intro _)
    ((try lift_lets -underBinder); intro _)
    ((try lift_lets -underBinder); intro _)
    ((try lift_lets -underBinder); intro x; refine (fun (hx : Keeps z x) => ?_) ?_; clear_value x)
    ((try lift_lets -underBinder); intro x; simp -zeta only [x])
    refine Keeps.ite ?_ ?_
    refine Keeps.ite ?_ ?_
    apply State.wakeSlip_keeps
    apply State.enrol_keeps
    assumption
    apply State.emit_keeps
    apply State.enrol_keeps
    assumption
    apply State.enrol_keeps
    assumption
    simp -zeta only [x]
    apply State.dequeued_keeps
    assumption

theorem State.headMirror_keeps {z : State} {s : State} {q} {n} (hz : Keeps z s) :
    Keeps z (State.headMirror s q n) := by
  unfold State.headMirror
  with_reducible
    ((try lift_lets -underBinder); intro _)
    ((try lift_lets -underBinder); intro x; refine (fun (hx : Keeps z x) => ?_) ?_; clear_value x)
    ((try lift_lets -underBinder); intro _)
    ((try lift_lets -underBinder); intro x; refine (fun (hx : Keeps z x) => ?_) ?_; clear_value x)
    refine Keeps.ite ?_ ?_
    apply State.writeSealed_keeps
    assumption
    assumption
    simp -zeta only [x]
    apply State.emit_keeps
    assumption
    simp -zeta only [x]
    apply State.setQp_keeps
    assumption

theorem execSQ_FETCH_DONE_keeps {z : State} {q} {entries} {ok} {s : State} (hz : Keeps z s) :
    OutKeeps z (execSQ_FETCH_DONE q entries ok s) := by
  unfold execSQ_FETCH_DONE
  with_reducible
    ((try lift_lets -underBinder); intro _)
    ((try lift_lets -underBinder); intro _)
    ((try lift_lets -underBinder); intro _)
    refine OutKeeps.ite ?_ ?_
    apply OutKeeps.next
    assumption
    refine OutKeeps.ite ?_ ?_
    apply OutKeeps.next
    apply State.hostError_keeps
    apply State.setQp_keeps
    assumption
    apply OutKeeps.next
    apply State.fetchMore_keeps
    apply foldl_keeps
    apply State.headMirror_keeps
    assumption
    intro _
    intro _
    intro _
    apply State.fetched_keeps
    assumption

theorem execPAYLOAD_READ_DONE_keeps {z : State} {q} {tag} {bytes} {ok} {s : State} (hz : Keeps z s) :
    OutKeeps z (execPAYLOAD_READ_DONE q tag bytes ok s) := by
  unfold execPAYLOAD_READ_DONE
  with_reducible
    split
    apply OutKeeps.next
    assumption
    refine OutKeeps.ite ?_ ?_
    apply OutKeeps.next
    assumption
    refine OutKeeps.ite ?_ ?_
    apply OutKeeps.next
    apply State.wakeSlip_keeps
    apply State.updOutst_keeps
    assumption
    apply OutKeeps.next
    apply State.hostError_keeps
    apply State.dropSlip_keeps
    assumption

theorem execHOST_ACCESS_ERROR_keeps {z : State} {q} {tag} {s : State} (hz : Keeps z s) :
    OutKeeps z (execHOST_ACCESS_ERROR q tag s) := by
  unfold execHOST_ACCESS_ERROR
  with_reducible
    split
    refine OutKeeps.ite ?_ ?_
    apply OutKeeps.next
    apply State.updOutst_keeps
    assumption
    apply OutKeeps.next
    apply State.hostError_keeps
    assumption
    apply OutKeeps.next
    apply State.hostError_keeps
    assumption

theorem execQP_ENABLE_keeps {z : State} {q} {value} {s : State} (hz : Keeps z s) :
    OutKeeps z (execQP_ENABLE q value s) := by
  unfold execQP_ENABLE
  with_reducible
    refine OutKeeps.ite ?_ ?_
    apply OutKeeps.next
    apply State.regAccErr_keeps
    assumption
    refine OutKeeps.ite ?_ ?_
    apply OutKeeps.next
    apply State.setQp_keeps
    ((try lift_lets -underBinder); intro x; refine (fun (hx : Keeps z x) => ?_) ?_; clear_value x)
    ((try lift_lets -underBinder); intro x; simp -zeta only [x])
    (simp -zeta only [mk_keeps_iff]; apply KeptParts.fold)
    assumption
    apply State.setReg_keeps
    assumption
    apply OutKeeps.next
    apply State.pairError_keeps
    ((try lift_lets -underBinder); intro x; refine (fun (hx : Keeps z x) => ?_) ?_; clear_value x)
    ((try lift_lets -underBinder); intro x; simp -zeta only [x])
    (simp -zeta only [mk_keeps_iff]; apply KeptParts.fold)
    assumption
    apply State.setReg_keeps
    assumption

theorem execQP_DISABLE_keeps {z : State} {q} {value} {s : State} (hz : Keeps z s) :
    OutKeeps z (execQP_DISABLE q value s) := by
  unfold execQP_DISABLE
  with_reducible
    refine OutKeeps.ite ?_ ?_
    apply OutKeeps.next
    apply State.setReg_keeps
    assumption
    apply OutKeeps.next
    apply State.setQp_keeps
    apply State.dropVersion_keeps
    apply State.setFld_keeps
    refine Keeps.ite ?_ ?_
    assumption
    apply State.regAccErr_keeps
    assumption

theorem execQP_DRAIN_DONE_keeps {z : State} {q} {s : State} (hz : Keeps z s) :
    OutKeeps z (execQP_DRAIN_DONE q s) := by
  unfold execQP_DRAIN_DONE
  with_reducible
    refine OutKeeps.ite ?_ ?_
    apply OutKeeps.next
    apply State.setQp_keeps
    assumption
    apply OutKeeps.next
    assumption

theorem execCOAL_TIMER_keeps {z : State} {q} {s : State} (hz : Keeps z s) :
    OutKeeps z (execCOAL_TIMER q s) := by
  unfold execCOAL_TIMER
  with_reducible
    refine OutKeeps.ite ?_ ?_
    apply OutKeeps.next
    apply State.sendMsix_keeps
    apply State.setQp_keeps
    assumption
    apply OutKeeps.next
    assumption

theorem execMGMT_SLIP_ARRIVAL_keeps {z : State} {o} {s : State} (hz : Keeps z s) :
    OutKeeps z (execMGMT_SLIP_ARRIVAL o s) := by
  unfold execMGMT_SLIP_ARRIVAL
  with_reducible
    split
    refine OutKeeps.ite ?_ ?_
    apply OutKeeps.next
    apply State.arrive_keeps
    assumption
    apply OutKeeps.next
    assumption
    apply OutKeeps.next
    assumption

theorem execMGMT_CONNECT_keeps {z : State} {c} {cert} {s : State} (hz : Keeps z s) :
    OutKeeps z (execMGMT_CONNECT c cert s) := by
  unfold execMGMT_CONNECT
  with_reducible
    refine OutKeeps.ite ?_ ?_
    apply OutKeeps.next
    assumption
    refine OutKeeps.ite ?_ ?_
    apply OutKeeps.next
    apply State.bump_keeps
    assumption
    split
    apply OutKeeps.next
    (simp -zeta only [mk_keeps_iff]; apply KeptParts.fold)
    assumption
    refine OutKeeps.ite ?_ ?_
    apply OutKeeps.next
    (simp -zeta only [mk_keeps_iff]; apply KeptParts.fold)
    assumption
    apply OutKeeps.next
    apply State.bump_keeps
    assumption

theorem State.rindLater_keeps {z : State} {s : State} {i} (hz : Keeps z s) :
    Keeps z (State.rindLater s i) := by
  unfold State.rindLater
  with_reducible
    (simp -zeta only [mk_keeps_iff]; apply KeptParts.fold)
    assumption

theorem execRIND_SLIP_keeps {z : State} {o} {s : State} (hz : Keeps z s) :
    OutKeeps z (execRIND_SLIP o s) := by
  unfold execRIND_SLIP
  with_reducible
    refine OutKeeps.ite ?_ ?_
    apply OutKeeps.next
    apply State.rindLater_keeps
    assumption
    apply OutKeeps.next
    apply State.arrive_keeps
    assumption

end Sys2Proof.Machine
end

