-- ==== Sys2Proof/Laws/KeepPages.lean ====
section
/-!
SUPPORT. Every operation and meaning of Machine/Pages.lean leaves the queue of waiting commands as it was and keeps the stores
canonical: for each f, `f_keeps` (Laws/Keeps.lean).
-/

namespace Sys2Proof.Machine

theorem State.hbmWr_keeps {z s : State} {a b} (hz : Keeps z s) : Keeps z (State.hbmWr s a b) :=
  ⟨{ hz.parts with canon := fun c => (hz.parts.canon c).imp_hbm (memPut_wf a b) }⟩

theorem State.putImage_keeps {z : State} {s : State} {r} {b} (hz : Keeps z s) :
    Keeps z (State.putImage s r b) := by
  unfold State.putImage
  with_reducible
    refine Keeps.ite ?_ ?_
    apply State.hbmWr_keeps
    apply State.hbmWr_keeps
    assumption
    apply State.hbmWr_keeps
    assumption

end Sys2Proof.Machine
end

