-- ==== Sys2Proof/Laws/KeepErrFrame.lean ====
section
/-!
SUPPORT. Every operation and meaning of Machine/ErrFrame.lean leaves the queue of waiting commands as it was and keeps the stores
canonical: for each f, `f_keeps` (Laws/Keeps.lean).
-/

namespace Sys2Proof.Machine

theorem State.updErrs_keeps {z : State} {s : State} {f} (hz : Keeps z s) :
    Keeps z (State.updErrs s f) := by
  unfold State.updErrs
  with_reducible
    (simp -zeta only [mk_keeps_iff]; apply KeptParts.fold)
    assumption

theorem State.errIrq_keeps {z : State} {s : State} {cls} (hz : Keeps z s) :
    Keeps z (State.errIrq s cls) := by
  unfold State.errIrq
  with_reducible
    refine Keeps.ite ?_ ?_
    refine Keeps.ite ?_ ?_
    apply State.updErrs_keeps
    assumption
    apply State.sendMsix_keeps
    apply State.updErrs_keeps
    assumption
    assumption

theorem State.useInject_keeps {z : State} {s : State} {kind} {unit} {address} (hz : Keeps z s) :
    Keeps z (State.useInject s kind unit address).1 := by
  unfold State.useInject
  with_reducible
    split
    apply State.updErrs_keeps
    assumption
    assumption

theorem State.errRecord_keeps {z : State} {s : State} {cls} {kind} {unit} {address} {acc} (hz : Keeps z s) :
    Keeps z (State.errRecord s cls kind unit address acc) := by
  unfold State.errRecord
  with_reducible
    apply State.errIrq_keeps
    apply State.traceEv_keeps
    apply State.bump_keeps
    refine Keeps.ite ?_ ?_
    apply State.bump_keeps
    refine Keeps.ite ?_ ?_
    apply State.bump_keeps
    refine Keeps.ite ?_ ?_
    apply State.bump_keeps
    apply State.updErrs_keeps
    apply State.useInject_keeps
    assumption
    apply State.updErrs_keeps
    apply State.useInject_keeps
    assumption
    refine Keeps.ite ?_ ?_
    apply State.bump_keeps
    apply State.updErrs_keeps
    apply State.useInject_keeps
    assumption
    apply State.updErrs_keeps
    apply State.useInject_keeps
    assumption
    refine Keeps.ite ?_ ?_
    apply State.bump_keeps
    refine Keeps.ite ?_ ?_
    apply State.bump_keeps
    refine Keeps.ite ?_ ?_
    apply State.bump_keeps
    apply State.updErrs_keeps
    apply State.useInject_keeps
    assumption
    apply State.updErrs_keeps
    apply State.useInject_keeps
    assumption
    refine Keeps.ite ?_ ?_
    apply State.bump_keeps
    apply State.updErrs_keeps
    apply State.useInject_keeps
    assumption
    apply State.updErrs_keeps
    apply State.useInject_keeps
    assumption
    refine Keeps.ite ?_ ?_
    apply State.bump_keeps
    refine Keeps.ite ?_ ?_
    apply State.bump_keeps
    apply State.updErrs_keeps
    apply State.useInject_keeps
    assumption
    apply State.updErrs_keeps
    apply State.useInject_keeps
    assumption
    refine Keeps.ite ?_ ?_
    apply State.bump_keeps
    apply State.updErrs_keeps
    apply State.useInject_keeps
    assumption
    apply State.updErrs_keeps
    apply State.useInject_keeps
    assumption

theorem State.colophonErr_keeps {z : State} {s : State} {kind} {address} {acc} (hz : Keeps z s) :
    Keeps z (State.colophonErr s kind address acc) := by
  unfold State.colophonErr
  with_reducible
    apply State.errRecord_keeps
    apply State.bump_keeps
    assumption

theorem State.dropUnit_keeps {z : State} {s : State} {f} (hz : Keeps z s) :
    Keeps z (State.dropUnit s f) := by
  unfold State.dropUnit
  with_reducible
    refine Keeps.ite ?_ ?_
    apply State.errRecord_keeps
    apply State.setFld_keeps
    apply State.setFld_keeps
    assumption
    apply State.setFld_keeps
    assumption

end Sys2Proof.Machine
end

