-- ==== Sys2Proof/Laws/KeepSessFrame.lean ====
section
/-!
SUPPORT. Every operation and meaning of Machine/SessFrame.lean leaves the queue of waiting commands as it was and keeps the stores
canonical: for each f, `f_keeps` (Laws/Keeps.lean).
-/

namespace Sys2Proof.Machine

theorem State.setSess_keeps {z : State} {s : State} {i} {e} (hz : Keeps z s) :
    Keeps z (State.setSess s i e) := by
  unfold State.setSess
  with_reducible
    refine Keeps.ite ?_ ?_
    assumption
    ((try lift_lets -underBinder); intro x; refine (fun (hx : Keeps z x) => ?_) ?_; clear_value x)
    (simp -zeta only [mk_keeps_iff]; apply KeptParts.fold)
    assumption
    refine Keeps.ite ?_ ?_
    assumption
    apply State.traceEv_keeps
    assumption

theorem State.updSess_keeps {z : State} {s : State} {i} {f} (hz : Keeps z s) :
    Keeps z (State.updSess s i f) := by
  unfold State.updSess
  with_reducible
    apply State.setSess_keeps
    assumption

theorem State.freeSess_keeps {z : State} {s : State} {i} (hz : Keeps z s) :
    Keeps z (State.freeSess s i) := by
  unfold State.freeSess
  with_reducible
    (simp -zeta only [mk_keeps_iff]; apply KeptParts.fold)
    assumption

theorem State.enter_keeps {z : State} {s : State} {i} {st} {resume} (hz : Keeps z s) :
    Keeps z (State.enter s i st resume) := by
  unfold State.enter
  with_reducible
    apply State.updSess_keeps
    refine Keeps.ite ?_ ?_
    apply State.wake_keeps
    assumption
    assumption

theorem State.setUsed_keeps {z : State} {s : State} {t} {tier} {n} (hz : Keeps z s) :
    Keeps z (State.setUsed s t tier n) := by
  unfold State.setUsed
  with_reducible
    apply State.updTenant_keeps
    assumption

theorem State.addUsed_keeps {z : State} {s : State} {t} {tier} {n} (hz : Keeps z s) :
    Keeps z (State.addUsed s t tier n) := by
  unfold State.addUsed
  with_reducible
    refine Keeps.ite ?_ ?_
    assumption
    apply State.setUsed_keeps
    assumption

theorem State.subUsed_keeps {z : State} {s : State} {t} {tier} {n} (hz : Keeps z s) :
    Keeps z (State.subUsed s t tier n) := by
  unfold State.subUsed
  with_reducible
    refine Keeps.ite ?_ ?_
    assumption
    apply State.setUsed_keeps
    assumption

theorem State.bumpGen_keeps {z : State} {s : State} {slot} (hz : Keeps z s) :
    Keeps z (State.bumpGen s slot) := by
  unfold State.bumpGen
  with_reducible
    refine Keeps.ite ?_ ?_
    ((try lift_lets -underBinder); intro x; refine (fun (hx : Keeps z x) => ?_) ?_; clear_value x)
    (simp -zeta only [mk_keeps_iff]; apply KeptParts.fold)
    assumption
    apply State.emit_keeps
    (simp -zeta only [mk_keeps_iff]; apply KeptParts.fold)
    assumption
    (simp -zeta only [mk_keeps_iff]; apply KeptParts.fold)
    assumption

theorem State.placeSlot_keeps {z : State} {s : State} {t} {acc} {near} (hz : Keeps z s) :
    OptAll (fun p => Keeps z p.2) (State.placeSlot s t acc near) := by
  unfold State.placeSlot
  with_reducible
    split
    apply OptAll.some
    apply State.bumpGen_keeps
    (simp -zeta only [mk_keeps_iff]; apply KeptParts.fold)
    assumption
    apply OptAll.none

theorem State.takeSlot_keeps {z : State} {s : State} {t} {acc} {near} (hz : Keeps z s) :
    OptAll (fun p => Keeps z p.2) (State.takeSlot s t acc near) := by
  unfold State.takeSlot
  with_reducible
    split
    apply OptAll.some
    apply State.addUsed_keeps
    refine OptAll.get2 (State.placeSlot_keeps ?_) (by assumption)
    assumption
    apply OptAll.none

theorem State.refSlot_keeps {z : State} {s : State} {k} (hz : Keeps z s) :
    Keeps z (State.refSlot s k) := by
  unfold State.refSlot
  with_reducible
    split
    (simp -zeta only [mk_keeps_iff]; apply KeptParts.fold)
    assumption
    assumption

theorem State.dropSlot_keeps {z : State} {s : State} {k} (hz : Keeps z s) :
    Keeps z (State.dropSlot s k) := by
  unfold State.dropSlot
  with_reducible
    split
    refine Keeps.ite ?_ ?_
    apply State.subUsed_keeps
    ((try lift_lets -underBinder); intro x; simp -zeta only [x])
    (simp -zeta only [mk_keeps_iff]; apply KeptParts.fold)
    assumption
    (simp -zeta only [mk_keeps_iff]; apply KeptParts.fold)
    assumption
    assumption

theorem State.dropPages_keeps {z : State} {s : State} {i} (hz : Keeps z s) :
    Keeps z (State.dropPages s i) := by
  unfold State.dropPages
  with_reducible
    apply State.updSess_keeps
    apply foldl_keeps
    assumption
    intro _
    intro _
    intro _
    apply State.dropSlot_keeps
    assumption

theorem State.setLog_keeps {z : State} {s : State} {i} {n} (hz : Keeps z s) :
    Keeps z (State.setLog s i n) := by
  unfold State.setLog
  with_reducible
    apply State.updSess_keeps
    refine Keeps.ite ?_ ?_
    apply State.addUsed_keeps
    assumption
    apply State.subUsed_keeps
    assumption

theorem State.chargeLog_keeps {z : State} {s : State} {i} (hz : Keeps z s) :
    Keeps z (State.chargeLog s i) := by
  unfold State.chargeLog
  with_reducible
    apply State.setLog_keeps
    assumption

theorem State.setImg_keeps {z : State} {s : State} {i} {q} (hz : Keeps z s) :
    Keeps z (State.setImg s i q) := by
  unfold State.setImg
  with_reducible
    apply State.updSess_keeps
    apply foldl_keeps
    assumption
    intro _
    intro _
    intro _
    refine Keeps.ite ?_ ?_
    apply State.addUsed_keeps
    assumption
    apply State.subUsed_keeps
    assumption

theorem State.enqueue_keeps {z : State} {s : State} {i} {prefill} {cost} (hz : Keeps z s) :
    Keeps z (State.enqueue s i prefill cost) := by
  unfold State.enqueue
  with_reducible
    ((try lift_lets -underBinder); intro x; simp -zeta only [x])
    ((try lift_lets -underBinder); intro x; simp -zeta only [x])
    ((try lift_lets -underBinder); intro x; simp -zeta only [x])
    ((try lift_lets -underBinder); intro x; simp -zeta only [x])
    ((try lift_lets -underBinder); intro x; refine (fun (hx : Keeps z x) => ?_) ?_; clear_value x)
    ((try lift_lets -underBinder); intro x; simp -zeta only [x])
    ((try lift_lets -underBinder); intro x; simp -zeta only [x])
    (simp -zeta only [mk_keeps_iff]; apply KeptParts.fold)
    assumption
    apply State.updSess_keeps
    apply State.setTenant_keeps
    assumption

theorem State.dequeue_keeps {z : State} {s : State} {i} (hz : Keeps z s) :
    Keeps z (State.dequeue s i) := by
  unfold State.dequeue
  with_reducible
    ((try lift_lets -underBinder); intro x; simp -zeta only [x])
    (simp -zeta only [mk_keeps_iff]; apply KeptParts.fold)
    assumption

theorem State.enqueuePrefill_keeps {z : State} {s : State} {i} (hz : Keeps z s) :
    Keeps z (State.enqueuePrefill s i) := by
  unfold State.enqueuePrefill
  with_reducible
    apply State.enqueue_keeps
    assumption

theorem State.openRequest_keeps {z : State} {s : State} {i} (hz : Keeps z s) :
    Keeps z (State.openRequest s i) := by
  unfold State.openRequest
  with_reducible
    apply State.updSess_keeps
    assumption

theorem State.foreignTo_keeps {z : State} {s : State} {op} {x} {owner} (hz : Keeps z s) :
    ResKeeps z (State.foreignTo s op x owner) := by
  unfold State.foreignTo
  with_reducible
    refine ResKeeps.ite ?_ ?_
    apply SlipRes.no_keeps
    assumption
    refine ResKeeps.ite ?_ ?_
    apply ResKeeps.done
    apply State.bump_keeps
    assumption
    apply ResKeeps.wait
    ((try lift_lets -underBinder); intro x; simp -zeta only [x])
    (simp -zeta only [mk_keeps_iff]; apply KeptParts.fold)
    apply State.sendForward_keeps
    apply State.bump_keeps
    assumption

theorem State.foreign_keeps {z : State} {s : State} {op} {x} (hz : Keeps z s) :
    ResKeeps z (State.foreign s op x) := by
  unfold State.foreign
  with_reducible
    refine ResKeeps.ite ?_ ?_
    apply SlipRes.no_keeps
    assumption
    split
    apply State.foreignTo_keeps
    assumption
    apply SlipRes.no_keeps
    assumption
    ((try lift_lets -underBinder); intro x; simp -zeta only [x])
    ((try lift_lets -underBinder); intro x; simp -zeta only [x])
    apply ResKeeps.hold
    apply State.bump_keeps
    refine Keeps.ite ?_ ?_
    assumption
    apply State.updCat_keeps
    apply State.sendDev_keeps
    assumption

theorem State.fetchFrom_keeps {z : State} {s : State} {dev} {from_} {part} (hz : Keeps z s) :
    Keeps z (State.fetchFrom s dev from_ part) := by
  unfold State.fetchFrom
  with_reducible
    apply State.updCat_keeps
    apply State.bump_keeps
    apply State.sendDev_keeps
    assumption

theorem State.fetchMap_keeps {z : State} {s : State} (hz : Keeps z s) :
    Keeps z (State.fetchMap s) := by
  unfold State.fetchMap
  with_reducible
    refine Keeps.ite ?_ ?_
    assumption
    apply State.fetchFrom_keeps
    assumption

theorem runTier_keeps {z : State} {op} {x} {s : State} {f} (hz : Keeps z s) (hf : ∀ x1, Keeps z x1 → ResKeeps z (f x1)) :
    OutKeeps z (runTier op x s f) := by
  unfold runTier
  with_reducible
    apply runSlip_keeps
    assumption
    intro _
    intro _
    refine ResKeeps.ite ?_ ?_
    apply ResKeeps.hold
    apply State.fetchMap_keeps
    assumption
    apply hf
    assumption

theorem State.sessGate_keeps {z : State} {s : State} {op} {x} (hz : Keeps z s) :
    OptAll (ResKeeps z) (State.sessGate s op x) := by
  unfold State.sessGate
  with_reducible
    refine OptAll.ite ?_ ?_
    apply OptAll.some
    apply SlipRes.no_keeps
    assumption
    refine OptAll.ite ?_ ?_
    apply OptAll.some
    apply SlipRes.no_keeps
    assumption
    refine OptAll.ite ?_ ?_
    apply OptAll.some
    apply ResKeeps.hold
    assumption
    refine OptAll.ite ?_ ?_
    apply OptAll.some
    apply SlipRes.no_keeps
    assumption
    refine OptAll.ite ?_ ?_
    apply OptAll.some
    apply ResKeeps.hold
    apply State.fetchMap_keeps
    assumption
    apply OptAll.none

theorem runSession_keeps {z : State} {op} {x} {masks} {s : State} {f} (hz : Keeps z s) (hf : ∀ x1 x2 x3, Keeps z x1 → ResKeeps z (f x1 x2 x3)) :
    OutKeeps z (runSession op x masks s f) := by
  unfold runSession
  with_reducible
    apply runSlip_keeps
    assumption
    intro _
    intro _
    refine ResKeeps.ite ?_ ?_
    apply SlipRes.no_keeps
    assumption
    split
    refine OptAll.get (State.sessGate_keeps ?_) (by assumption)
    assumption
    split
    apply State.foreign_keeps
    assumption
    refine ResKeeps.ite ?_ ?_
    apply SlipRes.no_keeps
    assumption
    refine ResKeeps.ite ?_ ?_
    apply SlipRes.no_keeps
    assumption
    refine ResKeeps.ite ?_ ?_
    apply SlipRes.no_keeps
    assumption
    refine ResKeeps.ite ?_ ?_
    apply SlipRes.no_keeps
    assumption
    split
    apply SlipRes.no_keeps
    assumption
    split
    apply SlipRes.no_keeps
    apply State.updSess_keeps
    assumption
    refine ResKeeps.ite ?_ ?_
    apply ResKeeps.hold
    assumption
    apply hf
    assumption

theorem State.registerAt_keeps {z : State} {s : State} {dev} {acc} {owner} (hz : Keeps z s) :
    Keeps z (State.registerAt s dev acc owner) := by
  unfold State.registerAt
  with_reducible
    refine Keeps.ite ?_ ?_
    apply State.updCat_keeps
    assumption
    apply State.sendDev_keeps
    assumption

theorem State.sendDrop_keeps {z : State} {s : State} {dev} {acc} {kind} {number} {alive} (hz : Keeps z s) :
    Keeps z (State.sendDrop s dev acc kind number alive) := by
  unfold State.sendDrop
  with_reducible
    refine Keeps.ite ?_ ?_
    ((try lift_lets -underBinder); intro x; simp -zeta only [x])
    (simp -zeta only [mk_keeps_iff]; apply KeptParts.fold)
    assumption
    apply State.sendDev_keeps
    assumption

theorem State.dropImage_keeps {z : State} {s : State} {i} (hz : Keeps z s) :
    Keeps z (State.dropImage s i) := by
  unfold State.dropImage
  with_reducible
    apply State.updSess_keeps
    (simp -zeta only [mk_keeps_iff]; apply KeptParts.fold)
    apply foldl_keeps
    apply State.setImg_keeps
    assumption
    intro _
    intro _
    apply State.sendDrop_keeps

theorem State.dropDown_keeps {z : State} {s : State} {i} (hz : Keeps z s) :
    Keeps z (State.dropDown s i) := by
  unfold State.dropDown
  with_reducible
    apply State.updSess_keeps
    apply foldl_keeps
    assumption
    intro _
    intro _
    apply State.subUsed_keeps

theorem State.detachRing_keeps {z : State} {s : State} {i} (hz : Keeps z s) :
    Keeps z (State.detachRing s i) := by
  unfold State.detachRing
  with_reducible
    apply State.updSess_keeps
    refine Keeps.ite ?_ ?_
    apply State.setRing_keeps
    assumption
    assumption

theorem State.answerWaiters_keeps {z : State} {s : State} {op} {acc} {a} (hz : Keeps z s) :
    Keeps z (State.answerWaiters s op acc a) := by
  unfold State.answerWaiters
  with_reducible
    apply foldl_keeps
    assumption
    intro _
    intro _
    apply State.finish_keeps

theorem State.removeLocation_keeps {z : State} {s : State} {acc} (hz : Keeps z s) :
    Keeps z (State.removeLocation s acc) := by
  unfold State.removeLocation
  with_reducible
    refine Keeps.ite ?_ ?_
    assumption
    split
    assumption
    apply foldl_keeps
    assumption
    intro _
    intro _
    intro _
    refine Keeps.ite ?_ ?_
    ((try lift_lets -underBinder); intro x; simp -zeta only [x])
    (simp -zeta only [mk_keeps_iff]; apply KeptParts.fold)
    assumption
    apply State.sendDev_keeps
    assumption

theorem State.closeSess_keeps {z : State} {s : State} {i} (hz : Keeps z s) :
    Keeps z (State.closeSess s i) := by
  unfold State.closeSess
  with_reducible
    apply State.release_keeps
    apply State.answerWaiters_keeps
    apply State.enter_keeps
    apply State.updSess_keeps
    (simp -zeta only [mk_keeps_iff]; apply KeptParts.fold)
    apply State.removeLocation_keeps
    apply State.setLog_keeps
    apply State.dequeue_keeps
    apply State.detachRing_keeps
    apply State.dropImage_keeps
    apply State.dropDown_keeps
    apply State.dropPages_keeps
    apply State.subUsed_keeps
    (simp -zeta only [mk_keeps_iff]; apply KeptParts.fold)
    assumption

theorem State.enqueueTail_keeps {z : State} {s : State} {i} {goal} (hz : Keeps z s) :
    Keeps z (State.enqueueTail s i goal) := by
  unfold State.enqueueTail
  with_reducible
    apply State.enqueue_keeps
    assumption

theorem State.rebuild_keeps {z : State} {s : State} {i} (hz : Keeps z s) :
    Keeps z (State.rebuild s i) := by
  unfold State.rebuild
  with_reducible
    ((try lift_lets -underBinder); intro x; simp -zeta only [x])
    ((try lift_lets -underBinder); intro x; simp -zeta only [x])
    ((try lift_lets -underBinder); intro x; simp -zeta only [x])
    ((try lift_lets -underBinder); intro x; simp -zeta only [x])
    refine Keeps.ite ?_ ?_
    apply State.wake_keeps
    apply State.chargeLog_keeps
    (simp -zeta only [mk_keeps_iff]; apply KeptParts.fold)
    apply State.updSess_keeps
    apply State.dropPages_keeps
    assumption
    apply State.enqueueTail_keeps
    apply State.chargeLog_keeps
    (simp -zeta only [mk_keeps_iff]; apply KeptParts.fold)
    apply State.updSess_keeps
    apply State.dropPages_keeps
    assumption

theorem State.askObject_keeps {z : State} {s : State} {i} {dev} {kind} {number} {alive} (hz : Keeps z s) :
    Keeps z (State.askObject s i dev kind number alive) := by
  unfold State.askObject
  with_reducible
    refine Keeps.ite ?_ ?_
    assumption
    refine Keeps.ite ?_ ?_
    apply State.wake_keeps
    assumption
    apply State.sendDev_keeps
    assumption

theorem State.reviveRead_keeps {z : State} {s : State} {i} {x} (hz : Keeps z s) :
    ResKeeps z (State.reviveRead s i x) := by
  unfold State.reviveRead
  with_reducible
    apply ResKeeps.hold
    refine Keeps.ite ?_ ?_
    assumption
    apply State.askObject_keeps
    (simp -zeta only [mk_keeps_iff]; apply KeptParts.fold)
    assumption

end Sys2Proof.Machine
end

