-- ==== Sys2Proof/Laws/KeepRingFrame.lean ====
section
/-!
SUPPORT. Every operation and meaning of Machine/RingFrame.lean leaves the queue of waiting commands as it was and keeps the stores
canonical: for each f, `f_keeps` (Laws/Keeps.lean).
-/

namespace Sys2Proof.Machine

theorem State.ringError_keeps {z : State} {s : State} {n} (hz : Keeps z s) :
    Keeps z (State.ringError s n) := by
  unfold State.ringError
  with_reducible
    refine Keeps.ite ?_ ?_
    apply State.bump_keeps
    apply State.setRing_keeps
    assumption
    assumption

theorem State.sendPush_keeps {z : State} {s : State} {n} {first} {recs} (hz : Keeps z s) :
    Keeps z (State.sendPush s n first recs) := by
  unfold State.sendPush
  with_reducible
    refine Keeps.ite ?_ ?_
    apply State.bump_keeps
    apply State.sendSlip_keeps
    assumption
    apply State.wake_keeps
    assumption

theorem State.flushRing_keeps {z : State} {s : State} {n} (hz : Keeps z s) :
    Keeps z (State.flushRing s n) := by
  unfold State.flushRing
  with_reducible
    refine Keeps.ite ?_ ?_
    assumption
    apply State.sendPush_keeps
    apply State.setRing_keeps
    assumption

theorem State.ringIrq_keeps {z : State} {s : State} {n} (hz : Keeps z s) :
    Keeps z (State.ringIrq s n) := by
  unfold State.ringIrq
  with_reducible
    ((try lift_lets -underBinder); intro x; simp -zeta only [x])
    ((try lift_lets -underBinder); intro x; simp -zeta only [x])
    ((try lift_lets -underBinder); intro x; simp -zeta only [x])
    refine Keeps.ite ?_ ?_
    assumption
    refine Keeps.ite ?_ ?_
    (simp -zeta only [mk_keeps_iff]; apply KeptParts.fold)
    assumption
    apply State.sendMsix_keeps
    (simp -zeta only [mk_keeps_iff]; apply KeptParts.fold)
    assumption

theorem State.writeRecord_keeps {z : State} {s : State} {n} {w} (hz : Keeps z s) :
    Keeps z (State.writeRecord s n w) := by
  unfold State.writeRecord
  with_reducible
    apply State.setRing_keeps
    refine Keeps.ite ?_ ?_
    assumption
    refine Keeps.ite ?_ ?_
    apply State.writeSealed_keeps
    assumption
    apply State.emit_keeps
    assumption

theorem State.writePi_keeps {z : State} {s : State} {n} (hz : Keeps z s) :
    Keeps z (State.writePi s n) := by
  unfold State.writePi
  with_reducible
    refine Keeps.ite ?_ ?_
    apply State.writeSealed_keeps
    assumption
    apply State.emit_keeps
    assumption

theorem State.writeGroup_keeps {z : State} {s : State} {n} {recs} (hz : Keeps z s) :
    Keeps z (State.writeGroup s n recs) := by
  unfold State.writeGroup
  with_reducible
    ((try lift_lets -underBinder); intro x; simp -zeta only [x])
    ((try lift_lets -underBinder); intro x; simp -zeta only [x])
    ((try lift_lets -underBinder); intro x; simp -zeta only [x])
    ((try lift_lets -underBinder); intro x; simp -zeta only [x])
    refine Keeps.ite ?_ ?_
    apply State.setRing_keeps
    apply foldl_keeps
    apply State.dequeued_keeps
    assumption
    intro _
    intro _
    intro _
    apply State.writeRecord_keeps
    assumption
    apply State.ringIrq_keeps
    apply State.writePi_keeps
    apply State.setRing_keeps
    apply foldl_keeps
    apply State.dequeued_keeps
    assumption
    intro _
    intro _
    intro _
    apply State.writeRecord_keeps
    assumption

theorem State.endRequest_keeps {z : State} {s : State} {i} (hz : Keeps z s) :
    Keeps z (State.endRequest s i) := by
  unfold State.endRequest
  with_reducible
    apply State.enter_keeps
    apply State.updSess_keeps
    assumption

theorem State.groupMade_keeps {z : State} {s : State} {i} (hz : Keeps z s) :
    Keeps z (State.groupMade s i) := by
  unfold State.groupMade
  with_reducible
    refine Keeps.ite ?_ ?_
    apply State.setRing_keeps
    assumption
    assumption

theorem State.deliver_keeps {z : State} {s : State} {i} {recs} {final} (hz : Keeps z s) :
    Keeps z (State.deliver s i recs final).1 := by
  unfold State.deliver
  with_reducible
    ((try lift_lets -underBinder); intro x; simp -zeta only [x])
    ((try lift_lets -underBinder); intro x; refine (fun (hx : Keeps z x) => ?_) ?_; clear_value x)
    ((try lift_lets -underBinder); intro x; refine (fun (hx : Keeps z x) => ?_) ?_; clear_value x)
    ((try lift_lets -underBinder); intro x; refine (fun (hx : Keeps z x) => ?_) ?_; clear_value x)
    split
    assumption
    split
    apply State.writeGroup_keeps
    assumption
    assumption
    refine Keeps.ite ?_ ?_
    apply State.updSess_keeps
    assumption
    apply State.bump_keeps
    apply State.enter_keeps
    assumption
    apply State.updSess_keeps
    assumption
    apply State.groupMade_keeps
    assumption

theorem State.endWithout_keeps {z : State} {s : State} {i} {reason} {bytes} (hz : Keeps z s) :
    Keeps z (State.endWithout s i reason bytes) := by
  unfold State.endWithout
  with_reducible
    refine Keeps.ite ?_ ?_
    apply State.endRequest_keeps
    apply State.deliver_keeps
    apply State.updSess_keeps
    assumption
    apply State.deliver_keeps
    apply State.updSess_keeps
    assumption

theorem State.toDecode_keeps {z : State} {s : State} {i} (hz : Keeps z s) :
    Keeps z (State.toDecode s i) := by
  unfold State.toDecode
  with_reducible
    apply State.enqueue_keeps
    apply State.enter_keeps
    assumption

theorem State.startRequest_keeps {z : State} {s : State} {i} (hz : Keeps z s) :
    Keeps z (State.startRequest s i) := by
  unfold State.startRequest
  with_reducible
    ((try lift_lets -underBinder); intro x; simp -zeta only [x])
    ((try lift_lets -underBinder); intro x; simp -zeta only [x])
    ((try lift_lets -underBinder); intro x; simp -zeta only [x])
    refine Keeps.ite ?_ ?_
    refine Keeps.ite ?_ ?_
    apply State.endWithout_keeps
    assumption
    refine Keeps.ite ?_ ?_
    apply State.enqueue_keeps
    apply State.enter_keeps
    apply State.openRequest_keeps
    assumption
    apply State.enqueuePrefill_keeps
    apply State.tally_keeps
    apply State.charge_keeps
    apply State.enter_keeps
    apply State.openRequest_keeps
    assumption
    assumption

theorem State.writeHeld_keeps {z : State} {s : State} {n} {i} {a} (hz : Keeps z s) :
    Keeps z (State.writeHeld s n i a) := by
  induction a generalizing s with
  | zero =>
    unfold State.writeHeld
    with_reducible
      assumption
  | succ k ih =>
    unfold State.writeHeld
    with_reducible
      split
      assumption
      refine Keeps.ite ?_ ?_
      apply ih
      apply State.updSess_keeps
      apply State.flushRing_keeps
      apply State.writeGroup_keeps
      assumption
      assumption

theorem State.ringRoom_keeps {z : State} {s : State} {n} (hz : Keeps z s) :
    Keeps z (State.ringRoom s n) := by
  unfold State.ringRoom
  with_reducible
    split
    assumption
    ((try lift_lets -underBinder); intro x; simp -zeta only [x])
    ((try lift_lets -underBinder); intro x; simp -zeta only [x])
    ((try lift_lets -underBinder); intro x; simp -zeta only [x])
    ((try lift_lets -underBinder); intro x; simp -zeta only [x])
    refine Keeps.ite ?_ ?_
    assumption
    refine Keeps.ite ?_ ?_
    apply State.writeHeld_keeps
    assumption
    refine Keeps.ite ?_ ?_
    apply State.updSess_keeps
    apply State.writeHeld_keeps
    assumption
    apply State.flushRing_keeps
    refine Keeps.ite ?_ ?_
    apply State.endRequest_keeps
    apply State.updSess_keeps
    apply State.writeHeld_keeps
    assumption
    refine Keeps.ite ?_ ?_
    apply State.endWithout_keeps
    apply State.updSess_keeps
    apply State.writeHeld_keeps
    assumption
    refine Keeps.ite ?_ ?_
    apply State.endWithout_keeps
    apply State.updSess_keeps
    apply State.writeHeld_keeps
    assumption
    apply State.toDecode_keeps
    apply State.updSess_keeps
    apply State.writeHeld_keeps
    assumption

end Sys2Proof.Machine
end

