-- ==== Sys2Proof/Laws/KeepTierFrame.lean ====
section
/-!
SUPPORT. Every operation and meaning of Machine/TierFrame.lean leaves the queue of waiting commands as it was and keeps the stores
canonical: for each f, `f_keeps` (Laws/Keeps.lean).
-/

namespace Sys2Proof.Machine

theorem State.copyTail_keeps {z : State} {s : State} {p} {acc} {tenant} {r} {k} (hz : Keeps z s) :
    Keeps z (State.copyTail s p acc tenant r k).1 := by
  unfold State.copyTail
  with_reducible
    split
    split
    assumption
    split
    apply Keeps.fst
    refine OptAll.get2 (State.takeSlot_keeps ?_) (by assumption)
    assumption
    ((try lift_lets -underBinder); intro x; simp -zeta only [x])
    ((try lift_lets -underBinder); intro x; simp -zeta only [x])
    ((try lift_lets -underBinder); intro x; simp -zeta only [x])
    ((try lift_lets -underBinder); intro x; simp -zeta only [x])
    apply State.putImage_keeps
    refine OptAll.get2 ?_ (by assumption)
    refine OptAll.ite ?_ ?_
    apply State.takeSlot_keeps
    refine OptAll.get2 (State.takeSlot_keeps ?_) (by assumption)
    assumption
    apply OptAll.some
    apply Keeps.fst
    assumption
    refine OptAll.get2 (State.takeSlot_keeps ?_) (by assumption)
    assumption

theorem State.moveTo_keeps {z : State} {s : State} {k} {j} (hz : Keeps z s) :
    Keeps z (State.moveTo s k j) := by
  unfold State.moveTo
  with_reducible
    split
    ((try lift_lets -underBinder); intro x; simp -zeta only [x])
    ((try lift_lets -underBinder); intro x; simp -zeta only [x])
    ((try lift_lets -underBinder); intro x; simp -zeta only [x])
    ((try lift_lets -underBinder); intro x; simp -zeta only [x])
    ((try lift_lets -underBinder); intro x; simp -zeta only [x])
    split
    ((try lift_lets -underBinder); intro x; simp -zeta only [x])
    ((try lift_lets -underBinder); intro x; simp -zeta only [x])
    ((try lift_lets -underBinder); intro x; simp -zeta only [x])
    ((try lift_lets -underBinder); intro x; simp -zeta only [x])
    apply State.putImage_keeps
    refine Keeps.ite ?_ ?_
    apply foldl_keeps
    apply State.bumpGen_keeps
    (simp -zeta only [mk_keeps_iff]; apply KeptParts.fold)
    apply State.hbmWr_keeps
    assumption
    intro _
    intro _
    intro _
    apply State.updSess_keeps
    assumption
    apply State.bumpGen_keeps
    apply foldl_keeps
    apply State.bumpGen_keeps
    (simp -zeta only [mk_keeps_iff]; apply KeptParts.fold)
    apply State.hbmWr_keeps
    assumption
    intro _
    intro _
    intro _
    apply State.updSess_keeps
    assumption
    apply foldl_keeps
    apply State.bumpGen_keeps
    (simp -zeta only [mk_keeps_iff]; apply KeptParts.fold)
    apply State.hbmWr_keeps
    assumption
    intro _
    intro _
    intro _
    apply State.updSess_keeps
    assumption
    assumption

theorem State.moveSlot_keeps {z : State} {s : State} {k} (hz : Keeps z s) :
    Keeps z (State.moveSlot s k) := by
  unfold State.moveSlot
  with_reducible
    split
    apply State.moveTo_keeps
    assumption
    assumption

theorem State.guardRun_keeps {z : State} {s : State} {tier} {u} {n} (hz : Keeps z s) :
    Keeps z (State.guardRun s tier u n) := by
  unfold State.guardRun
  with_reducible
    refine Keeps.ite ?_ ?_
    ((try lift_lets -underBinder); intro x; simp -zeta only [x])
    (simp -zeta only [mk_keeps_iff]; apply KeptParts.fold)
    assumption
    assumption

theorem State.writeT3_keeps {z : State} {s : State} {u} {b} (hz : Keeps z s) :
    Keeps z (State.writeT3 s u b) := by
  unfold State.writeT3
  with_reducible
    refine Keeps.ite ?_ ?_
    ((try lift_lets -underBinder); intro x; simp -zeta only [x])
    split
    apply State.writeSpan_keeps
    assumption
    assumption
    apply State.emit_keeps
    assumption

theorem State.shiftT3_keeps {z : State} {s : State} {first} {add} {sub} (hz : Keeps z s) :
    Keeps z (State.shiftT3 s first add sub) := by
  unfold State.shiftT3
  with_reducible
    ((try lift_lets -underBinder); intro x; simp -zeta only [x])
    ((try lift_lets -underBinder); intro x; simp -zeta only [x])
    (simp -zeta only [mk_keeps_iff]; apply KeptParts.fold)
    assumption

theorem State.reclaimCheck_keeps {z : State} {s : State} (hz : Keeps z s) :
    Keeps z (State.reclaimCheck s) := by
  unfold State.reclaimCheck
  with_reducible
    apply foldl_keeps
    assumption
    intro _
    intro _
    intro _
    refine Keeps.ite ?_ ?_
    apply foldl_keeps
    apply State.dropLocks_keeps
    ((try lift_lets -underBinder); intro x; refine (fun (hx : Keeps z x) => ?_) ?_; clear_value x)
    (simp -zeta only [mk_keeps_iff]; apply KeptParts.fold)
    assumption
    apply State.shiftT3_keeps
    assumption
    intro _
    intro _
    apply State.finish_keeps
    assumption

theorem State.keepObject_keeps {z : State} {s : State} {o} (hz : Keeps z s) :
    Keeps z (State.keepObject s o) := by
  unfold State.keepObject
  with_reducible
    split
    assumption
    ((try lift_lets -underBinder); intro x; simp -zeta only [x])
    ((try lift_lets -underBinder); intro x; simp -zeta only [x])
    (simp -zeta only [mk_keeps_iff]; apply KeptParts.fold)
    apply State.guardRun_keeps
    refine Keeps.ite ?_ ?_
    apply State.writeT3_keeps
    assumption
    assumption

theorem State.putObject_keeps {z : State} {s : State} {i} {dev} {tier} {second} {kind} {number} {alive} {body} (hz : Keeps z s) :
    Keeps z (State.putObject s i dev tier second kind number alive body) := by
  unfold State.putObject
  with_reducible
    refine Keeps.ite ?_ ?_
    apply State.keepObject_keeps
    assumption
    apply State.sendDev_keeps
    assumption

theorem State.writeBoth_keeps {z : State} {s : State} {i} {c} {kind} {number} {index} {body} (hz : Keeps z s) :
    Keeps z (State.writeBoth s i c kind number index body) := by
  unfold State.writeBoth
  with_reducible
    ((try lift_lets -underBinder); intro x; simp -zeta only [x])
    ((try lift_lets -underBinder); intro x; simp -zeta only [x])
    ((try lift_lets -underBinder); intro x; simp -zeta only [x])
    ((try lift_lets -underBinder); intro x; refine (fun (hx : Keeps z x) => ?_) ?_; clear_value x)
    ((try lift_lets -underBinder); intro x; refine (fun (hx : Keeps z x) => ?_) ?_; clear_value x)
    split
    (simp -zeta only [mk_keeps_iff]; apply KeptParts.fold)
    assumption
    assumption
    apply State.putObject_keeps
    assumption
    apply State.putObject_keeps
    assumption

theorem State.beginCommit_keeps {z : State} {s : State} {i} {why} {target} {m} {bodies} (hz : Keeps z s) :
    Keeps z (State.beginCommit s i why target m bodies) := by
  unfold State.beginCommit
  with_reducible
    refine Keeps.ite ?_ ?_
    apply State.writeBoth_keeps
    apply foldl_keeps
    apply foldl_keeps
    (simp -zeta only [mk_keeps_iff]; apply KeptParts.fold)
    apply State.setImg_keeps
    apply State.updSess_keeps
    assumption
    intro _
    intro _
    apply State.writeBoth_keeps
    intro _
    intro _
    apply State.writeBoth_keeps
    apply foldl_keeps
    apply foldl_keeps
    (simp -zeta only [mk_keeps_iff]; apply KeptParts.fold)
    apply State.setImg_keeps
    apply State.updSess_keeps
    assumption
    intro _
    intro _
    apply State.writeBoth_keeps
    intro _
    intro _
    apply State.writeBoth_keeps

theorem State.tryCommit_keeps {z : State} {s : State} {i} {why} {target} {all} (hz : Keeps z s) :
    Keeps z (State.tryCommit s i why target all).1 := by
  unfold State.tryCommit
  with_reducible
    split
    assumption
    ((try lift_lets -underBinder); intro x; simp -zeta only [x])
    split
    assumption
    split
    assumption
    apply Keeps.fst
    apply State.beginCommit_keeps
    assumption

theorem State.writeHead_keeps {z : State} {s : State} {i} (hz : Keeps z s) :
    Keeps z (State.writeHead s i) := by
  unfold State.writeHead
  with_reducible
    split
    apply State.writeBoth_keeps
    apply foldl_keeps
    (simp -zeta only [mk_keeps_iff]; apply KeptParts.fold)
    assumption
    intro _
    intro _
    apply State.writeBoth_keeps
    assumption

theorem State.dropOld_keeps {z : State} {s : State} {i} {c} (hz : Keeps z s) :
    Keeps z (State.dropOld s i c) := by
  unfold State.dropOld
  with_reducible
    ((try lift_lets -underBinder); intro x; simp -zeta only [x])
    ((try lift_lets -underBinder); intro x; simp -zeta only [x])
    ((try lift_lets -underBinder); intro x; simp -zeta only [x])
    ((try lift_lets -underBinder); intro x; simp -zeta only [x])
    ((try lift_lets -underBinder); intro x; simp -zeta only [x])
    ((try lift_lets -underBinder); intro x; simp -zeta only [x])
    ((try lift_lets -underBinder); intro x; simp -zeta only [x])
    ((try lift_lets -underBinder); intro x; simp -zeta only [x])
    ((try lift_lets -underBinder); intro x; simp -zeta only [x])
    ((try lift_lets -underBinder); intro x; simp -zeta only [x])
    ((try lift_lets -underBinder); intro x; simp -zeta only [x])
    apply foldl_keeps
    (simp -zeta only [mk_keeps_iff]; apply KeptParts.fold)
    assumption
    intro _
    intro _
    intro _
    apply foldl_keeps
    assumption
    intro _
    intro _
    intro _
    apply State.sendDrop_keeps
    assumption

theorem State.parkDone_keeps {z : State} {s : State} {i} {target} (hz : Keeps z s) :
    Keeps z (State.parkDone s i target) := by
  unfold State.parkDone
  with_reducible
    apply State.release_keeps
    apply State.answerWaiters_keeps
    apply State.enter_keeps
    apply State.updSess_keeps
    apply State.setLog_keeps
    apply State.dropDown_keeps
    apply State.dropPages_keeps
    assumption

theorem State.toTranscriptOnly_keeps {z : State} {s : State} {i} (hz : Keeps z s) :
    Keeps z (State.toTranscriptOnly s i) := by
  unfold State.toTranscriptOnly
  with_reducible
    apply State.release_keeps
    apply State.answerWaiters_keeps
    apply State.enter_keeps
    apply State.updSess_keeps
    apply State.setLog_keeps
    apply State.dropDown_keeps
    apply State.dropPages_keeps
    assumption

theorem State.movedDown_keeps {z : State} {s : State} {i} {target} (hz : Keeps z s) :
    Keeps z (State.movedDown s i target) := by
  unfold State.movedDown
  with_reducible
    apply State.updSess_keeps
    apply State.updSess_keeps
    (simp -zeta only [mk_keeps_iff]; apply KeptParts.fold)
    assumption

theorem State.parkRefused_keeps {z : State} {s : State} {i} {r} (hz : Keeps z s) :
    Keeps z (State.parkRefused s i r) := by
  unfold State.parkRefused
  with_reducible
    ((try lift_lets -underBinder); intro x; simp -zeta only [x])
    ((try lift_lets -underBinder); intro x; simp -zeta only [x])
    ((try lift_lets -underBinder); intro x; simp -zeta only [x])
    apply State.release_keeps
    apply State.answerWaiters_keeps
    apply State.updSess_keeps
    assumption

theorem State.parkAgain_keeps {z : State} {s : State} {i} {why} {target} (hz : Keeps z s) :
    Keeps z (State.parkAgain s i why target) := by
  unfold State.parkAgain
  with_reducible
    split
    refine Keeps.pair (State.tryCommit_keeps ?_) (by assumption)
    assumption
    apply State.parkRefused_keeps
    refine Keeps.pair (State.tryCommit_keeps ?_) (by assumption)
    assumption

theorem State.imageChanged_keeps {z : State} {s : State} {i} (hz : Keeps z s) :
    Keeps z (State.imageChanged s i) := by
  unfold State.imageChanged
  with_reducible
    split
    refine Keeps.ite ?_ ?_
    (simp -zeta only [mk_keeps_iff]; apply KeptParts.fold)
    assumption
    assumption
    assumption

theorem State.commitDone_keeps {z : State} {s : State} {i} (hz : Keeps z s) :
    Keeps z (State.commitDone s i) := by
  unfold State.commitDone
  with_reducible
    split
    assumption
    ((try lift_lets -underBinder); intro x; simp -zeta only [x])
    ((try lift_lets -underBinder); intro x; simp -zeta only [x])
    ((try lift_lets -underBinder); intro x; simp -zeta only [x])
    refine Keeps.ite ?_ ?_
    refine Keeps.ite ?_ ?_
    apply State.parkAgain_keeps
    (simp -zeta only [mk_keeps_iff]; apply KeptParts.fold)
    apply State.updSess_keeps
    apply State.dropOld_keeps
    assumption
    apply State.parkDone_keeps
    (simp -zeta only [mk_keeps_iff]; apply KeptParts.fold)
    apply State.updSess_keeps
    apply State.dropOld_keeps
    assumption
    refine Keeps.ite ?_ ?_
    apply State.movedDown_keeps
    (simp -zeta only [mk_keeps_iff]; apply KeptParts.fold)
    apply State.updSess_keeps
    apply State.dropOld_keeps
    assumption
    refine Keeps.ite ?_ ?_
    apply State.parkAgain_keeps
    (simp -zeta only [mk_keeps_iff]; apply KeptParts.fold)
    apply State.updSess_keeps
    apply State.dropOld_keeps
    assumption
    refine Keeps.ite ?_ ?_
    apply State.toTranscriptOnly_keeps
    (simp -zeta only [mk_keeps_iff]; apply KeptParts.fold)
    apply State.updSess_keeps
    apply State.dropOld_keeps
    assumption
    (simp -zeta only [mk_keeps_iff]; apply KeptParts.fold)
    apply State.updSess_keeps
    apply State.dropOld_keeps
    assumption

theorem State.abandonCommit_keeps {z : State} {s : State} {i} (hz : Keeps z s) :
    Keeps z (State.abandonCommit s i) := by
  unfold State.abandonCommit
  with_reducible
    split
    assumption
    ((try lift_lets -underBinder); intro x; simp -zeta only [x])
    ((try lift_lets -underBinder); intro x; simp -zeta only [x])
    ((try lift_lets -underBinder); intro x; simp -zeta only [x])
    ((try lift_lets -underBinder); intro x; simp -zeta only [x])
    ((try lift_lets -underBinder); intro x; simp -zeta only [x])
    ((try lift_lets -underBinder); intro x; simp -zeta only [x])
    ((try lift_lets -underBinder); intro x; simp -zeta only [x])
    ((try lift_lets -underBinder); intro x; simp -zeta only [x])
    apply State.updSess_keeps
    split
    apply State.setImg_keeps
    apply foldl_keeps
    (simp -zeta only [mk_keeps_iff]; apply KeptParts.fold)
    assumption
    intro _
    intro _
    intro _
    refine Keeps.ite ?_ ?_
    apply State.sendDrop_keeps
    assumption
    apply foldl_keeps
    assumption
    intro _
    intro _
    intro _
    apply State.sendDrop_keeps
    assumption
    apply State.setImg_keeps
    apply foldl_keeps
    (simp -zeta only [mk_keeps_iff]; apply KeptParts.fold)
    assumption
    intro _
    intro _
    intro _
    refine Keeps.ite ?_ ?_
    apply State.sendDrop_keeps
    assumption
    apply foldl_keeps
    assumption
    intro _
    intro _
    intro _
    apply State.sendDrop_keeps
    assumption

theorem State.downImage_keeps {z : State} {s : State} {p} {r} {len} (hz : Keeps z s) :
    Keeps z (State.downImage s p r len).1 := by
  unfold State.downImage
  with_reducible
    split
    split
    apply State.bumpBy_keeps
    apply State.bump_keeps
    assumption
    apply State.bump_keeps
    assumption
    assumption

theorem State.copyDown_keeps {z : State} {s : State} {p} {i} {r} {len} (hz : Keeps z s) :
    OptAll (Keeps z) (State.copyDown s p i r len) := by
  unfold State.copyDown
  with_reducible
    ((try lift_lets -underBinder); intro x; simp -zeta only [x])
    ((try lift_lets -underBinder); intro x; simp -zeta only [x])
    split
    apply OptAll.none
    apply OptAll.some
    apply State.updSess_keeps
    apply State.addUsed_keeps
    apply State.guardRun_keeps
    refine Keeps.ite ?_ ?_
    apply State.writeT3_keeps
    apply State.downImage_keeps
    assumption
    apply State.downImage_keeps
    assumption

theorem State.preempt_keeps {z s : State} {i} (hz : Keeps z s) : OptAll (Keeps z) (State.preempt s i) := by
  unfold State.preempt
  split
  · exact OptAll.none
  · refine OptAll.map (Q := Keeps z) ?_ (fun r hr => ?_)
    · refine foldl_keepsO (OptAll.some hz) (fun o a ho => ?_)
      exact OptAll.bind (Q := Keeps z) ho (fun s' hs' => State.copyDown_keeps hs')
    · apply State.bump_keeps
      apply State.enter_keeps
      apply State.updSess_keeps
      exact State.dequeue_keeps hr

theorem State.parkFirst_keeps {z : State} {s : State} {i} {why} (hz : Keeps z s) :
    Keeps z (State.parkFirst s i why).1 := by
  unfold State.parkFirst
  with_reducible
    split
    apply State.tryCommit_keeps
    assumption
    apply State.tryCommit_keeps
    assumption

theorem State.takeVictim_keeps {z : State} {s : State} {i} {rank} (hz : Keeps z s) :
    OptAll (Keeps z) (State.takeVictim s i rank) := by
  unfold State.takeVictim
  with_reducible
    refine OptAll.ite ?_ ?_
    apply OptAll.none
    refine OptAll.ite ?_ ?_
    ((try lift_lets -underBinder); intro x; simp -zeta only [x])
    refine OptAll.ite ?_ ?_
    apply OptAll.none
    apply OptAll.some
    apply State.parkFirst_keeps
    apply State.abandonCommit_keeps
    assumption
    apply State.preempt_keeps
    assumption

theorem State.victims_keeps {z : State} {s : State} {tenant} {except} {enough} (hz : Keeps z s) :
    Keeps z (State.victims s tenant except enough) := by
  unfold State.victims
  with_reducible
    apply foldl_keeps
    assumption
    intro _
    intro _
    intro _
    refine Keeps.ite ?_ ?_
    assumption
    refine OptAll.getD (State.takeVictim_keeps ?_) ?_
    assumption
    assumption

theorem State.watermark_keeps {z : State} {s : State} (hz : Keeps z s) :
    Keeps z (State.watermark s) := by
  unfold State.watermark
  with_reducible
    ((try lift_lets -underBinder); intro x; simp -zeta only [x])
    ((try lift_lets -underBinder); intro x; simp -zeta only [x])
    ((try lift_lets -underBinder); intro x; simp -zeta only [x])
    refine Keeps.ite ?_ ?_
    (simp -zeta only [mk_keeps_iff]; apply KeptParts.fold)
    apply State.victims_keeps
    assumption
    (simp -zeta only [mk_keeps_iff]; apply KeptParts.fold)
    assumption

theorem State.updRevive_keeps {z : State} {s : State} {i} {f} (hz : Keeps z s) :
    Keeps z (State.updRevive s i f) := by
  unfold State.updRevive
  with_reducible
    split
    (simp -zeta only [mk_keeps_iff]; apply KeptParts.fold)
    assumption
    assumption

end Sys2Proof.Machine
end

