-- ==== Sys2Proof/Laws/KeepSched.lean ====
section
/-!
SUPPORT. Every operation and meaning of Machine/Sched.lean leaves the queue of waiting commands as it was and keeps the stores
canonical: for each f, `f_keeps` (Laws/Keeps.lean).
-/

namespace Sys2Proof.Machine

theorem State.setBudget_keeps {z : State} {s : State} {t} {rate} {burst} (hz : Keeps z s) :
    Keeps z (State.setBudget s t rate burst) := by
  unfold State.setBudget
  with_reducible
    apply State.updTenant_keeps
    assumption

theorem State.setLevel_keeps {z : State} {s : State} {t} {how} (hz : Keeps z s) :
    Keeps z (State.setLevel s t how) := by
  unfold State.setLevel
  with_reducible
    apply State.updTenant_keeps
    assumption

theorem State.setPolicer_keeps {z : State} {s : State} {t} {rate} {burst} {empty} (hz : Keeps z s) :
    Keeps z (State.setPolicer s t rate burst empty) := by
  unfold State.setPolicer
  with_reducible
    apply State.updTenant_keeps
    assumption

theorem execSCHED_SET_TENANT_keeps {z : State} {x} {s : State} (hz : Keeps z s) :
    OutKeeps z (execSCHED_SET_TENANT x s) := by
  unfold execSCHED_SET_TENANT
  with_reducible
    apply runSlip_keeps
    assumption
    intro _
    intro _
    refine ResKeeps.ite ?_ ?_
    apply SlipRes.no_keeps
    assumption
    split
    apply SlipRes.no_keeps
    assumption
    refine ResKeeps.ite ?_ ?_
    apply SlipRes.no_keeps
    assumption
    refine ResKeeps.ite ?_ ?_
    apply SlipRes.no_keeps
    assumption
    apply ResKeeps.done
    apply State.setLevel_keeps
    apply State.updTenant_keeps
    apply State.setBudget_keeps
    assumption

theorem execSCHED_QUERY_TENANT_keeps {z : State} {x} {s : State} (hz : Keeps z s) :
    OutKeeps z (execSCHED_QUERY_TENANT x s) := by
  unfold execSCHED_QUERY_TENANT
  with_reducible
    apply runSlip_keeps
    assumption
    intro _
    intro _
    refine ResKeeps.ite ?_ ?_
    apply SlipRes.no_keeps
    assumption
    split
    apply SlipRes.no_keeps
    assumption
    apply ResKeeps.done
    apply State.updTenant_keeps
    assumption

theorem execSCHED_SET_POLICER_keeps {z : State} {x} {s : State} (hz : Keeps z s) :
    OutKeeps z (execSCHED_SET_POLICER x s) := by
  unfold execSCHED_SET_POLICER
  with_reducible
    apply runSlip_keeps
    assumption
    intro _
    intro _
    refine ResKeeps.ite ?_ ?_
    apply SlipRes.no_keeps
    assumption
    split
    apply SlipRes.no_keeps
    assumption
    refine ResKeeps.ite ?_ ?_
    apply SlipRes.no_keeps
    assumption
    apply ResKeeps.done
    apply State.setPolicer_keeps
    assumption

theorem execSCHED_TEN_BUDGET_WRITE_keeps {z : State} {value} {s : State} (hz : Keeps z s) :
    OutKeeps z (execSCHED_TEN_BUDGET_WRITE value s) := by
  unfold execSCHED_TEN_BUDGET_WRITE
  with_reducible
    refine OutKeeps.ite ?_ ?_
    apply OutKeeps.next
    apply State.regAccErr_keeps
    assumption
    apply OutKeeps.next
    apply State.setBudget_keeps
    assumption

theorem State.writeTenCtrl_keeps {z : State} {s : State} {value} (hz : Keeps z s) :
    Keeps z (State.writeTenCtrl s value) := by
  unfold State.writeTenCtrl
  with_reducible
    refine Keeps.ite ?_ ?_
    apply State.regAccErr_keeps
    assumption
    refine Keeps.ite ?_ ?_
    apply State.setLevel_keeps
    apply State.updTenant_keeps
    assumption
    apply State.setPolicer_keeps
    apply State.setLevel_keeps
    apply State.updTenant_keeps
    assumption

theorem execLEVEL_SET_keeps {z : State} {value} {s : State} (hz : Keeps z s) :
    OutKeeps z (execLEVEL_SET value s) := by
  unfold execLEVEL_SET
  with_reducible
    apply OutKeeps.next
    apply State.writeTenCtrl_keeps
    assumption

theorem execPOL_SET_keeps {z : State} {value} {s : State} (hz : Keeps z s) :
    OutKeeps z (execPOL_SET value s) := by
  unfold execPOL_SET
  with_reducible
    apply OutKeeps.next
    apply State.writeTenCtrl_keeps
    assumption

theorem execSCHED_TEN_POLICE_WRITE_keeps {z : State} {value} {s : State} (hz : Keeps z s) :
    OutKeeps z (execSCHED_TEN_POLICE_WRITE value s) := by
  unfold execSCHED_TEN_POLICE_WRITE
  with_reducible
    refine OutKeeps.ite ?_ ?_
    apply OutKeeps.next
    apply State.regAccErr_keeps
    assumption
    apply OutKeeps.next
    apply State.setPolicer_keeps
    assumption

theorem State.setShaper_keeps {z : State} {s : State} {kind} {index} {rate} {burst} {overhead} {enable} {empty} (hz : Keeps z s) :
    Keeps z (State.setShaper s kind index rate burst overhead enable empty) := by
  unfold State.setShaper
  with_reducible
    ((try lift_lets -underBinder); intro x; simp -zeta only [x])
    ((try lift_lets -underBinder); intro x; simp -zeta only [x])
    ((try lift_lets -underBinder); intro x; simp -zeta only [x])
    (simp -zeta only [mk_keeps_iff]; apply KeptParts.fold)
    assumption

theorem execSCHED_SET_SHAPER_keeps {z : State} {x} {s : State} (hz : Keeps z s) :
    OutKeeps z (execSCHED_SET_SHAPER x s) := by
  unfold execSCHED_SET_SHAPER
  with_reducible
    apply runSlip_keeps
    assumption
    intro _
    intro _
    refine ResKeeps.ite ?_ ?_
    apply SlipRes.no_keeps
    assumption
    split
    apply SlipRes.no_keeps
    assumption
    refine ResKeeps.ite ?_ ?_
    apply SlipRes.no_keeps
    assumption
    refine ResKeeps.ite ?_ ?_
    apply SlipRes.no_keeps
    assumption
    refine ResKeeps.ite ?_ ?_
    apply SlipRes.no_keeps
    assumption
    apply ResKeeps.done
    apply State.setShaper_keeps
    assumption

theorem execSCHED_SHP_CFG_WRITE_keeps {z : State} {value} {s : State} (hz : Keeps z s) :
    OutKeeps z (execSCHED_SHP_CFG_WRITE value s) := by
  unfold execSCHED_SHP_CFG_WRITE
  with_reducible
    refine OutKeeps.ite ?_ ?_
    apply OutKeeps.next
    apply State.regAccErr_keeps
    assumption
    apply OutKeeps.next
    apply State.setShaper_keeps
    assumption

theorem State.advanceCi_keeps {z : State} {s : State} {n} {c} (hz : Keeps z s) :
    Keeps z (State.advanceCi s n c) := by
  unfold State.advanceCi
  with_reducible
    apply State.ringRoom_keeps
    apply State.setRing_keeps
    assumption

theorem execRING_CONSUMED_keeps {z : State} {x} {s : State} (hz : Keeps z s) :
    OutKeeps z (execRING_CONSUMED x s) := by
  unfold execRING_CONSUMED
  with_reducible
    apply runSlip_keeps
    assumption
    intro _
    intro _
    refine ResKeeps.ite ?_ ?_
    apply SlipRes.no_keeps
    assumption
    split
    apply SlipRes.no_keeps
    assumption
    refine ResKeeps.ite ?_ ?_
    apply SlipRes.no_keeps
    assumption
    refine ResKeeps.ite ?_ ?_
    apply SlipRes.no_keeps
    assumption
    refine ResKeeps.ite ?_ ?_
    apply SlipRes.no_keeps
    assumption
    apply ResKeeps.done
    apply State.advanceCi_keeps
    assumption

theorem execSCHED_RING_CI_keeps {z : State} {value} {s : State} (hz : Keeps z s) :
    OutKeeps z (execSCHED_RING_CI value s) := by
  unfold execSCHED_RING_CI
  with_reducible
    refine OutKeeps.ite ?_ ?_
    apply OutKeeps.next
    apply State.regAccErr_keeps
    assumption
    apply OutKeeps.next
    apply State.advanceCi_keeps
    assumption

theorem execRING_PUSH_ERROR_REPLY_keeps {z : State} {ring} {first} {status} {s : State} (hz : Keeps z s) :
    OutKeeps z (execRING_PUSH_ERROR_REPLY ring first status s) := by
  unfold execRING_PUSH_ERROR_REPLY
  with_reducible
    ((try lift_lets -underBinder); intro x; simp -zeta only [x])
    split
    apply OutKeeps.next
    assumption
    refine OutKeeps.ite ?_ ?_
    apply OutKeeps.next
    assumption
    refine OutKeeps.ite ?_ ?_
    apply OutKeeps.next
    apply State.setRing_keeps
    assumption
    apply OutKeeps.next
    apply State.ringError_keeps
    assumption

theorem execRING_PUSH_RETRY_keeps {z : State} {ring} {first} {s : State} (hz : Keeps z s) :
    OutKeeps z (execRING_PUSH_RETRY ring first s) := by
  unfold execRING_PUSH_RETRY
  with_reducible
    ((try lift_lets -underBinder); intro x; simp -zeta only [x])
    split
    apply OutKeeps.next
    assumption
    refine OutKeeps.ite ?_ ?_
    apply OutKeeps.next
    apply State.sendPush_keeps
    apply State.setRing_keeps
    assumption
    apply OutKeeps.next
    assumption

theorem execRING_IRQ_GAP_END_keeps {z : State} {vec} {s : State} (hz : Keeps z s) :
    OutKeeps z (execRING_IRQ_GAP_END vec s) := by
  unfold execRING_IRQ_GAP_END
  with_reducible
    refine OutKeeps.ite ?_ ?_
    apply OutKeeps.next
    apply State.sendMsix_keeps
    (simp -zeta only [mk_keeps_iff]; apply KeptParts.fold)
    assumption
    apply OutKeeps.next
    assumption

theorem execHOST_RING_WRITE_ERROR_keeps {z : State} {ring} {s : State} (hz : Keeps z s) :
    OutKeeps z (execHOST_RING_WRITE_ERROR ring s) := by
  unfold execHOST_RING_WRITE_ERROR
  with_reducible
    refine OutKeeps.ite ?_ ?_
    apply OutKeeps.next
    assumption
    apply OutKeeps.next
    apply State.ringError_keeps
    assumption

theorem State.resync_keeps {z : State} {s : State} {n} (hz : Keeps z s) :
    Keeps z (State.resync s n) := by
  unfold State.resync
  with_reducible
    apply State.ringRoom_keeps
    refine Keeps.ite ?_ ?_
    apply State.flushRing_keeps
    apply State.bump_keeps
    apply State.writeRecord_keeps
    apply State.setRing_keeps
    assumption
    apply State.ringIrq_keeps
    apply State.writePi_keeps
    apply State.bump_keeps
    apply State.writeRecord_keeps
    apply State.setRing_keeps
    assumption

theorem execRING_ENABLE_keeps {z : State} {value} {s : State} (hz : Keeps z s) :
    OutKeeps z (execRING_ENABLE value s) := by
  unfold execRING_ENABLE
  with_reducible
    refine OutKeeps.ite ?_ ?_
    refine OutKeeps.ite ?_ ?_
    apply OutKeeps.next
    apply State.setRing_keeps
    ((try lift_lets -underBinder); intro x; simp -zeta only [x])
    (simp -zeta only [mk_keeps_iff]; apply KeptParts.fold)
    assumption
    apply OutKeeps.next
    apply State.regAccErr_keeps
    assumption
    refine OutKeeps.ite ?_ ?_
    apply OutKeeps.next
    apply State.resync_keeps
    refine Keeps.ite ?_ ?_
    assumption
    apply State.regAccErr_keeps
    assumption
    apply OutKeeps.next
    refine Keeps.ite ?_ ?_
    assumption
    apply State.regAccErr_keeps
    assumption

theorem execRING_DISABLE_keeps {z : State} {value} {s : State} (hz : Keeps z s) :
    OutKeeps z (execRING_DISABLE value s) := by
  unfold execRING_DISABLE
  with_reducible
    refine OutKeeps.ite ?_ ?_
    apply OutKeeps.next
    apply State.setRing_keeps
    assumption
    refine OutKeeps.ite ?_ ?_
    apply OutKeeps.next
    apply State.regAccErr_keeps
    assumption
    apply OutKeeps.next
    apply State.setRing_keeps
    refine Keeps.ite ?_ ?_
    assumption
    apply State.regAccErr_keeps
    assumption

theorem execHIST_SAMPLE_keeps {z : State} {seen} {s : State} (hz : Keeps z s) :
    OutKeeps z (execHIST_SAMPLE seen s) := by
  unfold execHIST_SAMPLE
  with_reducible
    ((try lift_lets -underBinder); intro x; refine (fun (hx : Keeps z x) => ?_) ?_; clear_value x)
    apply OutKeeps.next
    (simp -zeta only [mk_keeps_iff]; apply KeptParts.fold)
    apply foldl_keeps
    assumption
    intro _
    intro _
    intro _
    apply State.depthSample_keeps
    assumption
    simp -zeta only [x]
    apply foldl_keeps
    assumption
    intro _
    intro _
    intro _
    apply State.depthSample_keeps
    assumption

theorem State.clearHists_keeps {z : State} {s : State} (hz : Keeps z s) :
    Keeps z (State.clearHists s) := by
  unfold State.clearHists
  with_reducible
    (simp -zeta only [mk_keeps_iff]; apply KeptParts.fold)
    assumption

theorem execHIST_CLR_keeps {z : State} {s : State} (hz : Keeps z s) :
    OutKeeps z (execHIST_CLR s) := by
  unfold execHIST_CLR
  with_reducible
    apply OutKeeps.next
    apply State.clearHists_keeps
    assumption

theorem State.clearHist_keeps {z : State} {s : State} {q} (hz : Keeps z s) :
    Keeps z (State.clearHist s q) := by
  unfold State.clearHist
  with_reducible
    (simp -zeta only [mk_keeps_iff]; apply KeptParts.fold)
    assumption

theorem execHIST_QUEUE_CLR_keeps {z : State} {value} {s : State} (hz : Keeps z s) :
    OutKeeps z (execHIST_QUEUE_CLR value s) := by
  unfold execHIST_QUEUE_CLR
  with_reducible
    ((try lift_lets -underBinder); intro _)
    apply OutKeeps.next
    apply State.clearHist_keeps
    apply State.setFld_keeps
    assumption

theorem execHWM_CLR_keeps {z : State} {s : State} (hz : Keeps z s) :
    OutKeeps z (execHWM_CLR s) := by
  unfold execHWM_CLR
  with_reducible
    apply OutKeeps.next
    apply foldl_keeps
    assumption
    intro _
    intro _
    apply State.setReg_keeps

end Sys2Proof.Machine
end

