-- ==== Sys2Proof/Laws/KeepNetwork.lean ====
section
/-!
SUPPORT. Every operation and meaning of Machine/Network.lean leaves the queue of waiting commands as it was and keeps the stores
canonical: for each f, `f_keeps` (Laws/Keeps.lean).
-/

namespace Sys2Proof.Machine

theorem State.hear_keeps {z : State} {s : State} {p} {sub} {auth} (hz : Keeps z s) :
    Keeps z (State.hear s p sub auth).1 := by
  unfold State.hear
  with_reducible
    ((try lift_lets -underBinder); intro x; refine (fun (hx : Keeps z x) => ?_) ?_; clear_value x)
    ((try lift_lets -underBinder); intro x; simp -zeta only [x])
    ((try lift_lets -underBinder); intro x; simp -zeta only [x])
    split
    apply State.bump_keeps
    assumption
    split
    apply State.bump_keeps
    assumption
    apply State.setPeer_keeps
    assumption
    apply State.bump_keeps
    assumption

theorem State.sendAck_keeps {z : State} {s : State} {p} (hz : Keeps z s) :
    Keeps z (State.sendAck s p) := by
  unfold State.sendAck
  with_reducible
    apply State.sendControl_keeps
    apply State.setPeer_keeps
    assumption

theorem State.passMessage_keeps {z : State} {s : State} {p} {b} (hz : Keeps z s) :
    Keeps z (State.passMessage s p b) := by
  unfold State.passMessage
  with_reducible
    refine Keeps.ite ?_ ?_
    assumption
    refine Keeps.ite ?_ ?_
    apply State.bump_keeps
    assumption
    apply State.arrive_keeps
    apply State.dequeued_keeps
    assumption

theorem State.passMessages_keeps {z s : State} {p n} (hz : Keeps z s) : Keeps z (State.passMessages p n s) := by
  induction n generalizing s with
  | zero => exact hz
  | succ n ih =>
    unfold State.passMessages
    simp only
    split
    · exact hz
    · exact ih (State.passMessage_keeps (State.setPeer_keeps hz))

theorem State.noteCe_keeps {z : State} {s : State} {p} (hz : Keeps z s) :
    Keeps z (State.noteCe s p) := by
  unfold State.noteCe
  with_reducible
    refine Keeps.ite ?_ ?_
    apply State.bump_keeps
    apply State.sendControl_keeps
    apply State.setPeer_keeps
    apply State.bump_keeps
    assumption
    apply State.bump_keeps
    assumption

theorem State.countData_keeps {z : State} {s : State} {p} (hz : Keeps z s) :
    Keeps z (State.countData s p) := by
  unfold State.countData
  with_reducible
    refine Keeps.ite ?_ ?_
    apply State.sendAck_keeps
    apply State.setPeer_keeps
    assumption
    apply State.setPeer_keeps
    assumption

theorem execPRAOL_DATA_keeps {z : State} {sub} {ce} {auth} {k} {s : State} (hz : Keeps z s) :
    OutKeeps z (execPRAOL_DATA sub ce auth k s) := by
  unfold execPRAOL_DATA
  with_reducible
    refine OutKeeps.ite ?_ ?_
    apply OutKeeps.next
    assumption
    refine OutKeeps.ite ?_ ?_
    apply OutKeeps.next
    apply State.hear_keeps
    assumption
    refine OutKeeps.ite ?_ ?_
    apply OutKeeps.next
    apply State.bump_keeps
    apply State.hear_keeps
    assumption
    refine OutKeeps.ite ?_ ?_
    apply OutKeeps.next
    apply State.countData_keeps
    refine Keeps.ite ?_ ?_
    apply State.noteCe_keeps
    apply State.hear_keeps
    assumption
    apply State.hear_keeps
    assumption
    refine OutKeeps.ite ?_ ?_
    apply OutKeeps.next
    apply State.bump_keeps
    apply State.hear_keeps
    assumption
    apply OutKeeps.next
    apply State.countData_keeps
    apply State.passMessages_keeps
    apply State.updPeer_keeps
    refine Keeps.ite ?_ ?_
    apply State.noteCe_keeps
    apply State.hear_keeps
    assumption
    apply State.hear_keeps
    assumption

theorem execACK_DELAY_EXPIRY_keeps {z : State} {peer} {s : State} (hz : Keeps z s) :
    OutKeeps z (execACK_DELAY_EXPIRY peer s) := by
  unfold execACK_DELAY_EXPIRY
  with_reducible
    refine OutKeeps.ite ?_ ?_
    apply OutKeeps.next
    apply State.sendAck_keeps
    assumption
    apply OutKeeps.next
    assumption

theorem State.resend_keeps {z : State} {s : State} {p} {f} (hz : Keeps z s) :
    Keeps z (State.resend s p f) := by
  unfold State.resend
  with_reducible
    split
    assumption
    ((try lift_lets -underBinder); intro _)
    ((try lift_lets -underBinder); intro x; refine (fun (hx : Keeps z x) => ?_) ?_; clear_value x)
    ((try lift_lets -underBinder); intro _)
    apply State.traceEv_keeps
    apply State.bump_keeps
    apply State.sendPkt_keeps
    (simp -zeta only [mk_keeps_iff]; apply KeptParts.fold)
    assumption
    simp -zeta only [x]
    apply State.updPeer_keeps
    assumption

theorem execPRAOL_ACK_keeps {z : State} {peer} {sub} {auth} {cum} {limit} {sack} {s : State} (hz : Keeps z s) :
    OutKeeps z (execPRAOL_ACK peer sub auth cum limit sack s) := by
  unfold execPRAOL_ACK
  with_reducible
    refine OutKeeps.ite ?_ ?_
    apply OutKeeps.next
    assumption
    refine OutKeeps.ite ?_ ?_
    apply OutKeeps.next
    apply State.hear_keeps
    assumption
    apply OutKeeps.next
    apply State.pump_keeps
    apply foldl_keeps
    apply State.setPeer_keeps
    apply State.hear_keeps
    assumption
    intro _
    apply State.resend_keeps

theorem State.probeAll_keeps {z : State} {s : State} {p} (hz : Keeps z s) :
    Keeps z (State.probeAll s p) := by
  unfold State.probeAll
  with_reducible
    apply foldl_keeps
    assumption
    intro _
    intro _
    apply State.sendPkt_keeps

theorem State.reportLost_keeps {z : State} {s : State} {dev} (hz : Keeps z s) :
    Keeps z (State.reportLost s dev) := by
  unfold State.reportLost
  with_reducible
    refine Keeps.ite ?_ ?_
    assumption
    refine Keeps.ite ?_ ?_
    ((try lift_lets -underBinder); intro x; refine (fun (hx : Keeps z x) => ?_) ?_; clear_value x)
    split
    apply State.probeAll_keeps
    refine OptAll.get2 (State.reach_keeps ?_) (by assumption)
    assumption
    assumption
    apply State.updCat_keeps
    assumption
    split
    apply State.sendDev_keeps
    assumption
    assumption

theorem State.failPeer_keeps {z : State} {s : State} {p} (hz : Keeps z s) :
    Keeps z (State.failPeer s p) := by
  unfold State.failPeer
  with_reducible
    refine Keeps.ite ?_ ?_
    apply State.reportLost_keeps
    apply State.closePeer_keeps
    apply State.bump_keeps
    assumption
    apply State.closePeer_keeps
    apply State.bump_keeps
    assumption

theorem execRTO_EXPIRY_keeps {z : State} {peer} {psn} {s : State} (hz : Keeps z s) :
    OutKeeps z (execRTO_EXPIRY peer psn s) := by
  unfold execRTO_EXPIRY
  with_reducible
    refine OutKeeps.ite ?_ ?_
    apply OutKeeps.next
    assumption
    split
    apply OutKeeps.next
    assumption
    refine OutKeeps.ite ?_ ?_
    apply OutKeeps.next
    assumption
    refine OutKeeps.ite ?_ ?_
    apply OutKeeps.next
    apply State.failPeer_keeps
    apply State.bump_keeps
    assumption
    apply OutKeeps.next
    apply State.resend_keeps
    apply State.setPeer_keeps
    apply State.bump_keeps
    assumption

theorem execPRAOL_CNP_keeps {z : State} {peer} {sub} {auth} {s : State} (hz : Keeps z s) :
    OutKeeps z (execPRAOL_CNP peer sub auth s) := by
  unfold execPRAOL_CNP
  with_reducible
    refine OutKeeps.ite ?_ ?_
    apply OutKeeps.next
    assumption
    refine OutKeeps.ite ?_ ?_
    apply OutKeeps.next
    apply State.hear_keeps
    assumption
    apply OutKeeps.next
    apply State.setPeer_keeps
    apply State.bump_keeps
    apply State.hear_keeps
    assumption

theorem execCC_PERIOD_keeps {z : State} {peer} {s : State} (hz : Keeps z s) :
    OutKeeps z (execCC_PERIOD peer s) := by
  unfold execCC_PERIOD
  with_reducible
    refine OutKeeps.ite ?_ ?_
    apply OutKeeps.next
    assumption
    apply OutKeeps.next
    apply State.setPeer_keeps
    assumption

theorem State.opened_keeps {z : State} {s : State} {p} {h} (hz : Keeps z s) :
    Keeps z (State.opened s p h) := by
  unfold State.opened
  with_reducible
    apply State.updPeer_keeps
    assumption

theorem State.shakeRefused_keeps {z : State} {s : State} (hz : Keeps z s) :
    Keeps z (State.shakeRefused s) := by
  unfold State.shakeRefused
  with_reducible
    apply State.bump_keeps
    assumption

theorem State.acceptOpen_keeps {z : State} {s : State} {p} {sub} {h} (hz : Keeps z s) :
    Keeps z (State.acceptOpen s p sub h) := by
  unfold State.acceptOpen
  with_reducible
    apply State.opened_keeps
    apply State.sendControl_keeps
    apply State.updPeer_keeps
    (simp -zeta only [mk_keeps_iff]; apply KeptParts.fold)
    assumption

theorem execPRAOL_OPEN_keeps {z s : State} {sub ipv4 lo hi port q} (hz : Keeps z s) :
    OutKeeps z (execPRAOL_OPEN sub ipv4 lo hi port q s) := by
  unfold execPRAOL_OPEN
  apply OutKeeps.ite (OutKeeps.next hz)
  lift_lets -underBinder
  intro t
  have ht : Keeps z t := State.bump_keeps hz
  clear_value t
  apply OutKeeps.ite (OutKeeps.next (State.shakeRefused_keeps ht))
  apply OutKeeps.ite
  · dsimp only
    apply OutKeeps.ite (OutKeeps.next (State.shakeRefused_keeps ht))
    split
    · apply OutKeeps.ite
      · exact State.acceptOpen_keeps ht
      · exact State.bump_keeps ht
    · split
      · exact State.bump_keeps ht
      · exact OutKeeps.next (State.acceptOpen_keeps (State.setPeer_keeps (Keeps.ite ht (State.closePeer_keeps ht))))
  · split
    · exact State.shakeRefused_keeps ht
    · apply OutKeeps.ite (OutKeeps.next (State.shakeRefused_keeps ht))
      apply OutKeeps.ite
      · exact State.acceptOpen_keeps ht
      · exact State.bump_keeps ht

theorem State.openFailed_keeps {z : State} {s : State} {p} (hz : Keeps z s) :
    Keeps z (State.openFailed s p) := by
  unfold State.openFailed
  with_reducible
    apply State.closePeer_keeps
    assumption

theorem execPRAOL_OPEN_ACK_keeps {z : State} {peer} {sub} {h} {s : State} (hz : Keeps z s) :
    OutKeeps z (execPRAOL_OPEN_ACK peer sub h s) := by
  unfold execPRAOL_OPEN_ACK
  with_reducible
    refine OutKeeps.ite ?_ ?_
    apply OutKeeps.next
    assumption
    refine OutKeeps.ite ?_ ?_
    apply OutKeeps.next
    apply State.bump_keeps
    apply State.bump_keeps
    assumption
    refine OutKeeps.ite ?_ ?_
    apply OutKeeps.next
    apply State.openFailed_keeps
    apply State.shakeRefused_keeps
    apply State.bump_keeps
    assumption
    apply OutKeeps.next
    apply foldl_keeps
    apply State.opened_keeps
    apply State.setPeer_keeps
    apply State.bump_keeps
    assumption
    intro _
    apply State.postMsg_keeps

theorem execOPENING_TIMEOUT_keeps {z : State} {peer} {s : State} (hz : Keeps z s) :
    OutKeeps z (execOPENING_TIMEOUT peer s) := by
  unfold execOPENING_TIMEOUT
  with_reducible
    refine OutKeeps.ite ?_ ?_
    apply OutKeeps.next
    apply State.openFailed_keeps
    assumption
    apply OutKeeps.next
    assumption

theorem execPRAOL_CLOSE_keeps {z : State} {peer} {sub} {auth} {_reason} {s : State} (hz : Keeps z s) :
    OutKeeps z (execPRAOL_CLOSE peer sub auth _reason s) := by
  unfold execPRAOL_CLOSE
  with_reducible
    refine OutKeeps.ite ?_ ?_
    apply OutKeeps.next
    assumption
    refine OutKeeps.ite ?_ ?_
    apply OutKeeps.next
    apply State.hear_keeps
    assumption
    apply OutKeeps.next
    apply State.updPeer_keeps
    apply State.hear_keeps
    assumption

theorem execDRAINING_END_keeps {z : State} {peer} {s : State} (hz : Keeps z s) :
    OutKeeps z (execDRAINING_END peer s) := by
  unfold execDRAINING_END
  with_reducible
    refine OutKeeps.ite ?_ ?_
    apply OutKeeps.next
    apply State.closePeer_keeps
    assumption
    apply OutKeeps.next
    assumption

theorem execKEEPALIVE_EXPIRY_keeps {z : State} {peer} {s : State} (hz : Keeps z s) :
    OutKeeps z (execKEEPALIVE_EXPIRY peer s) := by
  unfold execKEEPALIVE_EXPIRY
  with_reducible
    refine OutKeeps.ite ?_ ?_
    apply OutKeeps.next
    apply State.sendControl_keeps
    assumption
    apply OutKeeps.next
    assumption

theorem execDEAD_TIME_EXPIRY_keeps {z : State} {peer} {s : State} (hz : Keeps z s) :
    OutKeeps z (execDEAD_TIME_EXPIRY peer s) := by
  unfold execDEAD_TIME_EXPIRY
  with_reducible
    refine OutKeeps.ite ?_ ?_
    apply OutKeeps.next
    apply State.failPeer_keeps
    assumption
    apply OutKeeps.next
    assumption

theorem execPRAOL_PROBE_keeps {z : State} {peer} {sub} {auth} {s : State} (hz : Keeps z s) :
    OutKeeps z (execPRAOL_PROBE peer sub auth s) := by
  unfold execPRAOL_PROBE
  with_reducible
    refine OutKeeps.ite ?_ ?_
    apply OutKeeps.next
    assumption
    refine OutKeeps.ite ?_ ?_
    apply OutKeeps.next
    apply State.sendControl_keeps
    apply State.hear_keeps
    assumption
    apply OutKeeps.next
    apply State.hear_keeps
    assumption

theorem State.answerClients_keeps {z : State} {s : State} {pick} {a} (hz : Keeps z s) :
    Keeps z (State.answerClients s pick a) := by
  unfold State.answerClients
  with_reducible
    apply foldl_keeps
    apply State.updCat_keeps
    assumption
    intro _
    intro _
    apply State.finish_keeps

theorem execPRAOL_PROBE_ACK_keeps {z : State} {peer} {sub} {auth} {s : State} (hz : Keeps z s) :
    OutKeeps z (execPRAOL_PROBE_ACK peer sub auth s) := by
  unfold execPRAOL_PROBE_ACK
  with_reducible
    refine OutKeeps.ite ?_ ?_
    apply OutKeeps.next
    assumption
    refine OutKeeps.ite ?_ ?_
    apply OutKeeps.next
    apply State.hear_keeps
    assumption
    refine OutKeeps.ite ?_ ?_
    apply OutKeeps.next
    apply State.answerClients_keeps
    apply State.updCat_keeps
    apply State.hear_keeps
    assumption
    apply OutKeeps.next
    apply State.hear_keeps
    assumption

theorem State.sendFrame_keeps {z : State} {s : State} {sub} {len} {body} (hz : Keeps z s) :
    Keeps z (State.sendFrame s sub len body) := by
  unfold State.sendFrame
  with_reducible
    apply State.queueFrame_keeps
    assumption

theorem execPRAOL_DISCOVER_keeps {z : State} {sub} {s : State} (hz : Keeps z s) :
    OutKeeps z (execPRAOL_DISCOVER sub s) := by
  unfold execPRAOL_DISCOVER
  with_reducible
    refine OutKeeps.ite ?_ ?_
    apply OutKeeps.next
    assumption
    apply OutKeeps.next
    apply State.bump_keeps
    apply State.sendFrame_keeps
    apply State.bump_keeps
    assumption

theorem execPRAOL_DISCOVER_ACK_keeps {z : State} {sub} {_body} {s : State} (hz : Keeps z s) :
    OutKeeps z (execPRAOL_DISCOVER_ACK sub _body s) := by
  unfold execPRAOL_DISCOVER_ACK
  with_reducible
    refine OutKeeps.ite ?_ ?_
    apply OutKeeps.next
    assumption
    apply OutKeeps.next
    apply State.bump_keeps
    assumption

theorem execPFC_FRAME_keeps {z : State} {sub} {prio} {quanta} {s : State} (hz : Keeps z s) :
    OutKeeps z (execPFC_FRAME sub prio quanta s) := by
  unfold execPFC_FRAME
  with_reducible
    refine OutKeeps.ite ?_ ?_
    apply OutKeeps.next
    assumption
    refine OutKeeps.ite ?_ ?_
    apply OutKeeps.next
    apply State.bump_keeps
    assumption
    apply OutKeeps.next
    apply State.setPort_keeps
    assumption

theorem execPFC_WATCHDOG_keeps {z : State} {sub} {cls} {s : State} (hz : Keeps z s) :
    OutKeeps z (execPFC_WATCHDOG sub cls s) := by
  unfold execPFC_WATCHDOG
  with_reducible
    refine OutKeeps.ite ?_ ?_
    apply OutKeeps.next
    apply State.bump_keeps
    apply State.setPort_keeps
    assumption
    apply OutKeeps.next
    assumption

theorem execPAUSE_FRAME_keeps {z : State} {sub} {s : State} (hz : Keeps z s) :
    OutKeeps z (execPAUSE_FRAME sub s) := by
  unfold execPAUSE_FRAME
  with_reducible
    refine OutKeeps.ite ?_ ?_
    apply OutKeeps.next
    assumption
    apply OutKeeps.next
    apply State.bump_keeps
    assumption

theorem State.learnHop_keeps {z : State} {s : State} {sub} {fam} {a} (hz : Keeps z s) :
    Keeps z (State.learnHop s sub fam a) := by
  unfold State.learnHop
  with_reducible
    apply State.setPort_keeps
    assumption

theorem execETH_CONTROL_FRAME_keeps {z : State} {sub} {k} {s : State} (hz : Keeps z s) :
    OutKeeps z (execETH_CONTROL_FRAME sub k s) := by
  unfold execETH_CONTROL_FRAME
  with_reducible
    refine OutKeeps.ite ?_ ?_
    apply OutKeeps.next
    assumption
    ((try lift_lets -underBinder); intro x; simp -zeta only [x])
    ((try lift_lets -underBinder); intro x; simp -zeta only [x])
    ((try lift_lets -underBinder); intro x; refine (fun (hx : Keeps z x) => ?_) ?_; clear_value x)
    split
    refine OutKeeps.ite ?_ ?_
    apply OutKeeps.next
    apply State.sendFrame_keeps
    assumption
    apply OutKeeps.next
    assumption
    refine OutKeeps.ite ?_ ?_
    apply OutKeeps.next
    apply State.learnHop_keeps
    assumption
    apply OutKeeps.next
    assumption
    refine OutKeeps.ite ?_ ?_
    apply OutKeeps.next
    apply State.sendFrame_keeps
    assumption
    apply OutKeeps.next
    assumption
    refine OutKeeps.ite ?_ ?_
    apply OutKeeps.next
    apply State.learnHop_keeps
    assumption
    apply OutKeeps.next
    assumption
    refine OutKeeps.ite ?_ ?_
    apply OutKeeps.next
    apply State.sendFrame_keeps
    assumption
    apply OutKeeps.next
    assumption
    refine OutKeeps.ite ?_ ?_
    apply OutKeeps.next
    apply State.sendFrame_keeps
    assumption
    apply OutKeeps.next
    assumption
    apply OutKeeps.next
    assumption
    apply State.bump_keeps
    assumption

theorem State.capRates_keeps {z : State} {s : State} (hz : Keeps z s) :
    Keeps z (State.capRates s) := by
  unfold State.capRates
  with_reducible
    ((try lift_lets -underBinder); intro x; simp -zeta only [x])
    (simp -zeta only [mk_keeps_iff]; apply KeptParts.fold)
    assumption

theorem execETH_LINK_CHANGE_keeps {z : State} {sub} {up} {s : State} (hz : Keeps z s) :
    OutKeeps z (execETH_LINK_CHANGE sub up s) := by
  unfold execETH_LINK_CHANGE
  with_reducible
    refine OutKeeps.ite ?_ ?_
    apply OutKeeps.next
    assumption
    refine OutKeeps.ite ?_ ?_
    apply OutKeeps.next
    assumption
    apply OutKeeps.next
    apply foldl_keeps
    apply State.capRates_keeps
    apply State.setPort_keeps
    assumption
    intro _
    intro _
    intro _
    refine Keeps.ite ?_ ?_
    apply State.pump_keeps
    assumption
    assumption

theorem State.shapersTake_keeps {z : State} {s : State} {port} {f} (hz : Keeps z s) :
    Keeps z (State.shapersTake s port f) := by
  unfold State.shapersTake
  with_reducible
    apply foldl_keeps
    assumption
    intro _
    intro _
    intro _
    refine Keeps.ite ?_ ?_
    ((try lift_lets -underBinder); intro x; simp -zeta only [x])
    ((try lift_lets -underBinder); intro x; simp -zeta only [x])
    ((try lift_lets -underBinder); intro x; simp -zeta only [x])
    (simp -zeta only [mk_keeps_iff]; apply KeptParts.fold)
    assumption
    assumption

theorem execEGRESS_FRAME_keeps {z : State} {port} {s : State} (hz : Keeps z s) :
    OutKeeps z (execEGRESS_FRAME port s) := by
  unfold execEGRESS_FRAME
  with_reducible
    refine OutKeeps.ite ?_ ?_
    apply OutKeeps.next
    assumption
    split
    apply OutKeeps.next
    assumption
    split
    apply OutKeeps.next
    assumption
    apply OutKeeps.next
    refine Keeps.ite ?_ ?_
    apply State.pump_keeps
    apply State.emit_keeps
    refine Keeps.ite ?_ ?_
    apply State.dequeued_keeps
    apply State.dequeued_keeps
    apply State.shapersTake_keeps
    apply State.setPort_keeps
    assumption
    apply State.dequeued_keeps
    apply State.shapersTake_keeps
    apply State.setPort_keeps
    assumption
    apply State.emit_keeps
    refine Keeps.ite ?_ ?_
    apply State.dequeued_keeps
    apply State.dequeued_keeps
    apply State.shapersTake_keeps
    apply State.setPort_keeps
    assumption
    apply State.dequeued_keeps
    apply State.shapersTake_keeps
    apply State.setPort_keeps
    assumption

end Sys2Proof.Machine
end

