-- ==== Sys2Proof/Laws/KeepRevive.lean ====
section
/-!
SUPPORT. Every operation and meaning of Machine/Revive.lean leaves the queue of waiting commands as it was and keeps the stores
canonical: for each f, `f_keeps` (Laws/Keeps.lean).
-/

namespace Sys2Proof.Machine

theorem State.refuseObject_keeps {z : State} {s : State} {acc} {kind} {number} {why} (hz : Keeps z s) :
    Keeps z (State.refuseObject s acc kind number why) := by
  unfold State.refuseObject
  with_reducible
    refine Keeps.ite ?_ ?_
    assumption
    refine Keeps.ite ?_ ?_
    apply State.bump_keeps
    assumption
    apply State.colophonErr_keeps
    apply State.bump_keeps
    assumption

theorem State.askMore_keeps {z : State} {s : State} {i} (hz : Keeps z s) :
    Keeps z (State.askMore s i) := by
  unfold State.askMore
  with_reducible
    split
    assumption
    apply foldl_keeps
    (simp -zeta only [mk_keeps_iff]; apply KeptParts.fold)
    assumption
    intro _
    intro _
    intro _
    split
    assumption
    refine Keeps.ite ?_ ?_
    apply State.askObject_keeps
    (simp -zeta only [mk_keeps_iff]; apply KeptParts.fold)
    assumption
    (simp -zeta only [mk_keeps_iff]; apply KeptParts.fold)
    assumption

theorem State.askAll_keeps {z : State} {s : State} {i} {dev} {objs} (hz : Keeps z s) :
    Keeps z (State.askAll s i dev objs) := by
  unfold State.askAll
  with_reducible
    apply State.askMore_keeps
    split
    (simp -zeta only [mk_keeps_iff]; apply KeptParts.fold)
    assumption
    assumption

theorem State.adoptSettle_keeps {z : State} {s : State} {i} {ok} (hz : Keeps z s) :
    Keeps z (State.adoptSettle s i ok) := by
  unfold State.adoptSettle
  with_reducible
    apply State.bump_keeps
    apply foldl_keeps
    apply State.updCat_keeps
    apply State.enter_keeps
    apply State.updSess_keeps
    (simp -zeta only [mk_keeps_iff]; apply KeptParts.fold)
    assumption
    intro _
    intro _
    apply State.registerAt_keeps

theorem State.layPage_keeps {z s : State} {p i layer index format fill b} (hz : Keeps z s) :
    Keeps z (State.layPage s p i layer index format fill b) := by
  unfold State.layPage
  simp only
  split
  · exact hz
  · rename_i k t ht
    have h1 : Keeps z t := OptAll.get2 (State.placeSlot_keeps hz) ht
    split
    · exact hz
    · rename_i k2 t2 ht2
      have h2 : Keeps z t2 := OptAll.get2 (OptAll.ite (P := fun (p : Nat × State) => Keeps z p.2) (State.placeSlot_keeps h1) (OptAll.some h1)) ht2
      apply State.updSess_keeps
      exact ⟨(State.updRevive_keeps (State.putImage_keeps h2)).parts⟩

theorem State.unreserve_keeps {z : State} {s : State} {i} (hz : Keeps z s) :
    Keeps z (State.unreserve s i) := by
  unfold State.unreserve
  with_reducible
    apply State.subUsed_keeps
    ((try lift_lets -underBinder); intro x; refine (fun (hx : Keeps z x) => ?_) ?_; clear_value x)
    (simp -zeta only [mk_keeps_iff]; apply KeptParts.fold)
    assumption
    apply State.updRevive_keeps
    assumption

theorem State.copyHere_keeps {z : State} {s : State} {i} {r} {kind} {number} {alive} {dest} {tier} {second} (hz : Keeps z s) :
    Keeps z (State.copyHere s i r kind number alive dest tier second) := by
  unfold State.copyHere
  with_reducible
    ((try lift_lets -underBinder); intro _)
    split
    ((try lift_lets -underBinder); intro x; refine (fun (hx : Keeps z x) => ?_) ?_; clear_value x)
    split
    (simp -zeta only [mk_keeps_iff]; apply KeptParts.fold)
    assumption
    assumption
    simp -zeta only [x]
    apply State.putObject_keeps
    assumption
    assumption
    apply State.refuseObject_keeps
    assumption

theorem State.replaceHolder_keeps {z : State} {s : State} {i} {devs} (hz : Keeps z s) :
    Keeps z (State.replaceHolder s i devs) := by
  unfold State.replaceHolder
  with_reducible
    ((try lift_lets -underBinder); intro _)
    ((try lift_lets -underBinder); intro _)
    ((try lift_lets -underBinder); intro _)
    ((try lift_lets -underBinder); intro x; refine (fun (hx : Keeps z x) => ?_) ?_; clear_value x)
    split
    refine Keeps.ite ?_ ?_
    ((try lift_lets -underBinder); intro x; refine (fun (hx : Keeps z x) => ?_) ?_; clear_value x)
    ((try lift_lets -underBinder); intro _)
    ((try lift_lets -underBinder); intro _)
    refine Keeps.ite ?_ ?_
    apply State.updRevive_keeps
    assumption
    apply State.askObject_keeps
    (simp -zeta only [mk_keeps_iff]; apply KeptParts.fold)
    assumption
    simp -zeta only [x]
    apply State.updSess_keeps
    assumption
    split
    ((try lift_lets -underBinder); intro x; refine (fun (hx : Keeps z x) => ?_) ?_; clear_value x)
    refine Keeps.ite ?_ ?_
    assumption
    apply State.parkAgain_keeps
    assumption
    simp -zeta only [x]
    apply State.updSess_keeps
    assumption
    ((try lift_lets -underBinder); intro _)
    split
    ((try lift_lets -underBinder); intro _)
    ((try lift_lets -underBinder); intro _)
    ((try lift_lets -underBinder); intro _)
    ((try lift_lets -underBinder); intro _)
    ((try lift_lets -underBinder); intro _)
    ((try lift_lets -underBinder); intro x; refine (fun (hx : Keeps z x) => ?_) ?_; clear_value x)
    ((try lift_lets -underBinder); intro x; refine (fun (hx : Keeps z x) => ?_) ?_; clear_value x)
    ((try lift_lets -underBinder); intro _)
    ((try lift_lets -underBinder); intro _)
    ((try lift_lets -underBinder); intro _)
    ((try lift_lets -underBinder); intro x; refine (fun (hx : Keeps z x) => ?_) ?_; clear_value x)
    ((try lift_lets -underBinder); intro _)
    refine Keeps.ite ?_ ?_
    apply State.writeHead_keeps
    assumption
    refine Keeps.ite ?_ ?_
    assumption
    apply foldl_keeps
    (simp -zeta only [mk_keeps_iff]; apply KeptParts.fold)
    assumption
    intro _
    intro _
    intro _
    apply State.askAll_keeps
    assumption
    simp -zeta only [x]
    apply foldl_keeps
    assumption
    intro _
    intro _
    intro _
    ((try lift_lets -underBinder); intro _)
    apply State.copyHere_keeps
    assumption
    simp -zeta only [x]
    (simp -zeta only [mk_keeps_iff]; apply KeptParts.fold)
    assumption
    simp -zeta only [x]
    apply State.updSess_keeps
    assumption
    simp -zeta only [x]
    apply State.abandonCommit_keeps
    assumption

theorem State.holderLost_keeps {z : State} {s : State} {dev} (hz : Keeps z s) :
    Keeps z (State.holderLost s dev) := by
  unfold State.holderLost
  with_reducible
    refine Keeps.ite ?_ ?_
    assumption
    ((try lift_lets -underBinder); intro _)
    refine Keeps.ite ?_ ?_
    assumption
    refine Keeps.ite ?_ ?_
    apply State.updCat_keeps
    assumption
    apply State.bump_keeps
    apply foldl_keeps
    assumption
    intro _
    intro _
    intro _
    refine Keeps.ite ?_ ?_
    apply State.updRevive_keeps
    assumption
    apply State.replaceHolder_keeps
    assumption

theorem State.replaceAfter_keeps {z : State} {s : State} {i} {lost} (hz : Keeps z s) :
    Keeps z (State.replaceAfter s i lost) := by
  unfold State.replaceAfter
  with_reducible
    apply foldl_keeps
    assumption
    intro _
    intro _
    intro _
    refine Keeps.ite ?_ ?_
    apply State.replaceHolder_keeps
    assumption
    apply State.holderLost_keeps
    assumption

theorem State.reviveRefused_keeps {z : State} {s : State} {i} {a} (hz : Keeps z s) :
    Keeps z (State.reviveRefused s i a) := by
  unfold State.reviveRefused
  with_reducible
    ((try lift_lets -underBinder); intro _)
    ((try lift_lets -underBinder); intro _)
    ((try lift_lets -underBinder); intro x; refine (fun (hx : Keeps z x) => ?_) ?_; clear_value x)
    ((try lift_lets -underBinder); intro x; refine (fun (hx : Keeps z x) => ?_) ?_; clear_value x)
    ((try lift_lets -underBinder); intro x; refine (fun (hx : Keeps z x) => ?_) ?_; clear_value x)
    ((try lift_lets -underBinder); intro _)
    ((try lift_lets -underBinder); intro x; refine (fun (hx : Keeps z x) => ?_) ?_; clear_value x)
    apply State.replaceAfter_keeps
    apply foldl_keeps
    assumption
    intro _
    intro _
    intro _
    apply State.finish_keeps
    assumption
    simp -zeta only [x]
    (simp -zeta only [mk_keeps_iff]; apply KeptParts.fold)
    assumption
    simp -zeta only [x]
    apply State.updSess_keeps
    assumption
    simp -zeta only [x]
    (simp -zeta only [mk_keeps_iff]; apply KeptParts.fold)
    assumption
    simp -zeta only [x]
    apply State.unreserve_keeps
    assumption

theorem State.reviveDone_keeps {z : State} {s : State} {i} (hz : Keeps z s) :
    Keeps z (State.reviveDone s i) := by
  unfold State.reviveDone
  with_reducible
    ((try lift_lets -underBinder); intro _)
    ((try lift_lets -underBinder); intro _)
    ((try lift_lets -underBinder); intro x; refine (fun (hx : Keeps z x) => ?_) ?_; clear_value x)
    ((try lift_lets -underBinder); intro x; refine (fun (hx : Keeps z x) => ?_) ?_; clear_value x)
    ((try lift_lets -underBinder); intro _)
    ((try lift_lets -underBinder); intro x; refine (fun (hx : Keeps z x) => ?_) ?_; clear_value x)
    ((try lift_lets -underBinder); intro x; refine (fun (hx : Keeps z x) => ?_) ?_; clear_value x)
    ((try lift_lets -underBinder); intro x; refine (fun (hx : Keeps z x) => ?_) ?_; clear_value x)
    ((try lift_lets -underBinder); intro _)
    ((try lift_lets -underBinder); intro _)
    ((try lift_lets -underBinder); intro x; refine (fun (hx : Keeps z x) => ?_) ?_; clear_value x)
    ((try lift_lets -underBinder); intro x; refine (fun (hx : Keeps z x) => ?_) ?_; clear_value x)
    ((try lift_lets -underBinder); intro x; refine (fun (hx : Keeps z x) => ?_) ?_; clear_value x)
    apply State.replaceAfter_keeps
    assumption
    simp -zeta only [x]
    apply State.updSess_keeps
    assumption
    simp -zeta only [x]
    apply State.release_keeps
    assumption
    simp -zeta only [x]
    (simp -zeta only [mk_keeps_iff]; apply KeptParts.fold)
    assumption
    simp -zeta only [x]
    refine Keeps.ite ?_ ?_
    apply State.bump_keeps
    assumption
    assumption
    simp -zeta only [x]
    refine Keeps.ite ?_ ?_
    assumption
    apply State.bump_keeps
    assumption
    simp -zeta only [x]
    refine Keeps.ite ?_ ?_
    apply State.endWithout_keeps
    apply State.enter_keeps
    assumption
    refine Keeps.ite ?_ ?_
    apply State.toDecode_keeps
    assumption
    refine Keeps.ite ?_ ?_
    apply State.enqueuePrefill_keeps
    apply State.enter_keeps
    assumption
    refine Keeps.ite ?_ ?_
    apply State.ringRoom_keeps
    apply State.enter_keeps
    assumption
    apply State.startRequest_keeps
    apply State.enter_keeps
    assumption
    simp -zeta only [x]
    apply State.updSess_keeps
    assumption
    simp -zeta only [x]
    (simp -zeta only [mk_keeps_iff]; apply KeptParts.fold)
    assumption

theorem State.reviveTail_keeps {z : State} {s : State} {i} {kv} (hz : Keeps z s) :
    Keeps z (State.reviveTail s i kv) := by
  unfold State.reviveTail
  with_reducible
    refine Keeps.ite ?_ ?_
    apply State.reviveDone_keeps
    apply State.chargeLog_keeps
    apply State.updSess_keeps
    apply State.updRevive_keeps
    assumption
    apply State.enqueueTail_keeps
    apply State.chargeLog_keeps
    apply State.updSess_keeps
    apply State.updRevive_keeps
    assumption

theorem State.reviveRebuild_keeps {z : State} {s : State} {i} (hz : Keeps z s) :
    Keeps z (State.reviveRebuild s i) := by
  unfold State.reviveRebuild
  with_reducible
    ((try lift_lets -underBinder); intro x; refine (fun (hx : Keeps z x) => ?_) ?_; clear_value x)
    ((try lift_lets -underBinder); intro _)
    ((try lift_lets -underBinder); intro _)
    split
    ((try lift_lets -underBinder); intro _)
    ((try lift_lets -underBinder); intro x; refine (fun (hx : Keeps z x) => ?_) ?_; clear_value x)
    ((try lift_lets -underBinder); intro x; refine (fun (hx : Keeps z x) => ?_) ?_; clear_value x)
    refine Keeps.ite ?_ ?_
    apply State.rebuild_keeps
    assumption
    apply State.askAll_keeps
    assumption
    simp -zeta only [x]
    apply State.updRevive_keeps
    assumption
    simp -zeta only [x]
    apply State.updSess_keeps
    apply State.dropPages_keeps
    assumption
    apply State.rebuild_keeps
    assumption
    simp -zeta only [x]
    apply State.unreserve_keeps
    assumption

theorem State.takeLogs_keeps {z : State} {s : State} {i} (hz : Keeps z s) :
    Keeps z (State.takeLogs s i) := by
  unfold State.takeLogs
  with_reducible
    split
    refine Keeps.ite ?_ ?_
    assumption
    apply State.updSess_keeps
    assumption
    assumption

theorem State.logsLost_keeps {z : State} {s : State} {i} (hz : Keeps z s) :
    Keeps z (State.logsLost s i) := by
  unfold State.logsLost
  with_reducible
    ((try lift_lets -underBinder); intro _)
    ((try lift_lets -underBinder); intro _)
    ((try lift_lets -underBinder); intro _)
    ((try lift_lets -underBinder); intro _)
    ((try lift_lets -underBinder); intro _)
    ((try lift_lets -underBinder); intro x; refine (fun (hx : Keeps z x) => ?_) ?_; clear_value x)
    ((try lift_lets -underBinder); intro x; refine (fun (hx : Keeps z x) => ?_) ?_; clear_value x)
    ((try lift_lets -underBinder); intro x; refine (fun (hx : Keeps z x) => ?_) ?_; clear_value x)
    ((try lift_lets -underBinder); intro x; refine (fun (hx : Keeps z x) => ?_) ?_; clear_value x)
    ((try lift_lets -underBinder); intro _)
    ((try lift_lets -underBinder); intro x; refine (fun (hx : Keeps z x) => ?_) ?_; clear_value x)
    ((try lift_lets -underBinder); intro _)
    refine Keeps.ite ?_ ?_
    apply State.reviveRebuild_keeps
    apply State.updSess_keeps
    assumption
    apply foldl_keeps
    assumption
    intro _
    intro _
    intro _
    apply State.finish_keeps
    assumption
    simp -zeta only [x]
    (simp -zeta only [mk_keeps_iff]; apply KeptParts.fold)
    assumption
    simp -zeta only [x]
    apply State.errRecord_keeps
    apply State.enter_keeps
    assumption
    simp -zeta only [x]
    apply State.updSess_keeps
    assumption
    simp -zeta only [x]
    (simp -zeta only [mk_keeps_iff]; apply KeptParts.fold)
    assumption
    simp -zeta only [x]
    apply State.dequeue_keeps
    apply State.dropPages_keeps
    apply State.unreserve_keeps
    assumption

theorem State.readDone_keeps {z : State} {s : State} {i} (hz : Keeps z s) :
    Keeps z (State.readDone s i) := by
  unfold State.readDone
  with_reducible
    apply State.release_keeps
    (simp -zeta only [mk_keeps_iff]; apply KeptParts.fold)
    apply State.takeLogs_keeps
    assumption

theorem State.downObject_keeps {z : State} {s : State} {p} {e} {g} {x} {body} (hz : Keeps z s) :
    Keeps z (State.downObject s p e g x body).1 := by
  unfold State.downObject
  with_reducible
    ((try lift_lets -underBinder); intro x; simp -zeta only [x])
    ((try lift_lets -underBinder); intro x; simp -zeta only [x])
    split
    split
    apply State.bumpBy_keeps
    apply State.bump_keeps
    apply State.bumpGen_keeps
    assumption
    apply State.bump_keeps
    assumption
    assumption

theorem State.dropPageObjects_keeps {z : State} {s : State} {i} (hz : Keeps z s) :
    Keeps z (State.dropPageObjects s i) := by
  unfold State.dropPageObjects
  with_reducible
    split
    ((try lift_lets -underBinder); intro _)
    ((try lift_lets -underBinder); intro _)
    ((try lift_lets -underBinder); intro _)
    ((try lift_lets -underBinder); intro x; refine (fun (hx : Keeps z x) => ?_) ?_; clear_value x)
    ((try lift_lets -underBinder); intro _)
    apply State.writeHead_keeps
    (simp -zeta only [mk_keeps_iff]; apply KeptParts.fold)
    assumption
    simp -zeta only [x]
    apply State.updSess_keeps
    apply State.setImg_keeps
    assumption
    apply State.toTranscriptOnly_keeps
    assumption

theorem State.moveDown_keeps {z : State} {s : State} {i} {objs} {past} (hz : Keeps z s) :
    Keeps z (State.moveDown s i objs past) := by
  unfold State.moveDown
  with_reducible
    split
    ((try lift_lets -underBinder); intro _)
    ((try lift_lets -underBinder); intro _)
    ((try lift_lets -underBinder); intro _)
    ((try lift_lets -underBinder); intro x; simp -zeta only [x])
    ((try lift_lets -underBinder); intro x; refine (fun (hx : Keeps z x) => ?_) ?_; clear_value x)
    ((try lift_lets -underBinder); intro _)
    ((try lift_lets -underBinder); intro _)
    ((try lift_lets -underBinder); intro _)
    ((try lift_lets -underBinder); intro _)
    ((try lift_lets -underBinder); intro x; refine (fun (hx : Keeps z x) => ?_) ?_; clear_value x)
    refine Keeps.ite ?_ ?_
    apply State.dropPageObjects_keeps
    assumption
    split
    apply State.dropPageObjects_keeps
    assumption
    ((try lift_lets -underBinder); intro _)
    ((try lift_lets -underBinder); intro _)
    ((try lift_lets -underBinder); intro x; refine (fun (hx : Keeps z x) => ?_) ?_; clear_value x)
    ((try lift_lets -underBinder); intro x; refine (fun (hx : Keeps z x) => ?_) ?_; clear_value x)
    ((try lift_lets -underBinder); intro _)
    ((try lift_lets -underBinder); intro x; refine (fun (hx : Keeps z x) => ?_) ?_; clear_value x)
    apply foldl_keeps
    assumption
    intro _
    intro _
    intro _
    ((try lift_lets -underBinder); intro _)
    ((try lift_lets -underBinder); intro _)
    ((try lift_lets -underBinder); intro x; refine (fun (hx : Keeps z x) => ?_) ?_; clear_value x)
    refine Keeps.ite ?_ ?_
    apply State.writeBoth_keeps
    assumption
    split
    (simp -zeta only [mk_keeps_iff]; apply KeptParts.fold)
    assumption
    assumption
    simp -zeta only [x]
    apply State.putObject_keeps
    assumption
    simp -zeta only [x]
    (simp -zeta only [mk_keeps_iff]; apply KeptParts.fold)
    assumption
    simp -zeta only [x]
    apply State.setImg_keeps
    assumption
    simp -zeta only [x]
    apply State.updSess_keeps
    assumption
    simp -zeta only [x]
    apply State.bumpBy_keeps
    assumption
    simp -zeta only [x]
    apply foldl_keeps1
    apply Keeps.fst
    assumption
    intro _
    intro _
    intro _
    ((try lift_lets -underBinder); intro _)
    ((try lift_lets -underBinder); intro x; simp -zeta only [x])
    apply State.downObject_keeps
    assumption
    apply State.toTranscriptOnly_keeps
    assumption

theorem State.beginDown_keeps {z : State} {s : State} {i} {past} (hz : Keeps z s) :
    Keeps z (State.beginDown s i past) := by
  unfold State.beginDown
  with_reducible
    ((try lift_lets -underBinder); intro _)
    split
    refine Keeps.ite ?_ ?_
    apply State.moveDown_keeps
    assumption
    ((try lift_lets -underBinder); intro _)
    ((try lift_lets -underBinder); intro _)
    ((try lift_lets -underBinder); intro x; refine (fun (hx : Keeps z x) => ?_) ?_; clear_value x)
    apply foldl_keeps
    assumption
    intro _
    intro _
    intro _
    apply State.askAll_keeps
    assumption
    simp -zeta only [x]
    (simp -zeta only [mk_keeps_iff]; apply KeptParts.fold)
    assumption
    refine Keeps.ite ?_ ?_
    apply State.toTranscriptOnly_keeps
    assumption
    apply State.askObject_keeps
    (simp -zeta only [mk_keeps_iff]; apply KeptParts.fold)
    assumption

theorem State.reserveFor_keeps {z : State} {s : State} {i} {n} (hz : Keeps z s) :
    OptAll (Keeps z) (State.reserveFor s i n) := by
  unfold State.reserveFor
  with_reducible
    refine OptAll.ite ?_ ?_
    apply OptAll.none
    apply OptAll.some
    apply State.addUsed_keeps
    ((try lift_lets -underBinder); intro x; refine (fun (hx : Keeps z x) => ?_) ?_; clear_value x)
    (simp -zeta only [mk_keeps_iff]; apply KeptParts.fold)
    assumption
    apply State.updRevive_keeps
    assumption

theorem State.reviveNext_keeps {z : State} {s : State} {i} (hz : Keeps z s) :
    Keeps z (State.reviveNext s i) := by
  unfold State.reviveNext
  with_reducible
    split
    assumption
    ((try lift_lets -underBinder); intro _)
    ((try lift_lets -underBinder); intro x; refine (fun (hx : Keeps z x) => ?_) ?_; clear_value x)
    ((try lift_lets -underBinder); intro _)
    ((try lift_lets -underBinder); intro x; refine (fun (hx : Keeps z x) => ?_) ?_; clear_value x)
    refine Keeps.ite ?_ ?_
    assumption
    refine Keeps.ite ?_ ?_
    (simp -zeta only [mk_keeps_iff]; apply KeptParts.fold)
    assumption
    refine Keeps.ite ?_ ?_
    refine Keeps.ite ?_ ?_
    apply State.readDone_keeps
    assumption
    refine Keeps.ite ?_ ?_
    refine Keeps.ite ?_ ?_
    apply State.reviveTail_keeps
    apply State.unreserve_keeps
    apply State.takeLogs_keeps
    assumption
    apply State.reviveRebuild_keeps
    apply State.takeLogs_keeps
    assumption
    refine Keeps.ite ?_ ?_
    apply State.replaceHolder_keeps
    (simp -zeta only [mk_keeps_iff]; apply KeptParts.fold)
    assumption
    refine Keeps.ite ?_ ?_
    apply foldl_keeps
    apply State.updRevive_keeps
    assumption
    intro _
    intro _
    intro _
    apply State.askAll_keeps
    assumption
    split
    apply State.reviveRefused_keeps
    assumption
    ((try lift_lets -underBinder); intro x; refine (fun (hx : Keeps z x) => ?_) ?_; clear_value x)
    refine Keeps.ite ?_ ?_
    apply State.reviveTail_keeps
    apply State.unreserve_keeps
    assumption
    apply foldl_keeps
    assumption
    intro _
    intro _
    intro _
    ((try lift_lets -underBinder); intro _)
    apply State.askAll_keeps
    assumption
    simp -zeta only [x]
    apply State.updRevive_keeps
    apply State.takeLogs_keeps
    refine OptAll.get (State.reserveFor_keeps ?_) (by assumption)
    assumption
    refine Keeps.ite ?_ ?_
    apply State.moveDown_keeps
    (simp -zeta only [mk_keeps_iff]; apply KeptParts.fold)
    assumption
    split
    ((try lift_lets -underBinder); intro _)
    ((try lift_lets -underBinder); intro x; refine (fun (hx : Keeps z x) => ?_) ?_; clear_value x)
    apply State.reviveTail_keeps
    apply State.updSess_keeps
    assumption
    simp -zeta only [x]
    apply foldl_keeps
    apply State.unreserve_keeps
    assumption
    intro _
    intro _
    intro _
    apply State.dropSlot_keeps
    assumption
    apply State.reviveTail_keeps
    apply State.unreserve_keeps
    assumption
    simp -zeta only [x]
    refine Keeps.ite ?_ ?_
    apply State.dropDown_keeps
    assumption
    assumption
    simp -zeta only [x]
    split
    refine Keeps.ite ?_ ?_
    assumption
    apply State.updSess_keeps
    assumption
    assumption

theorem State.headIn_keeps {z : State} {s : State} {i} {dev} {b} (hz : Keeps z s) :
    Keeps z (State.headIn s i dev b) := by
  unfold State.headIn
  with_reducible
    ((try lift_lets -underBinder); intro _)
    ((try lift_lets -underBinder); intro x; refine (fun (hx : Keeps z x) => ?_) ?_; clear_value x)
    ((try lift_lets -underBinder); intro _)
    ((try lift_lets -underBinder); intro x; refine (fun (hx : Keeps z x) => ?_) ?_; clear_value x)
    ((try lift_lets -underBinder); intro _)
    ((try lift_lets -underBinder); intro _)
    ((try lift_lets -underBinder); intro _)
    ((try lift_lets -underBinder); intro _)
    split
    apply State.reviveRefused_keeps
    assumption
    apply State.reviveNext_keeps
    apply State.askAll_keeps
    apply State.askAll_keeps
    refine OptAll.get ?_ (by assumption)
    refine OptAll.ite ?_ ?_
    apply State.reserveFor_keeps
    assumption
    apply OptAll.some
    assumption
    simp -zeta only [x]
    apply State.updRevive_keeps
    assumption
    simp -zeta only [x]
    refine Keeps.ite ?_ ?_
    apply State.updRevive_keeps
    apply State.updSess_keeps
    assumption
    assumption

theorem State.fetchFailed_keeps {z : State} {s : State} {i} {dev} {kind} {number} (hz : Keeps z s) :
    Keeps z (State.fetchFailed s i dev kind number) := by
  unfold State.fetchFailed
  with_reducible
    split
    assumption
    ((try lift_lets -underBinder); intro _)
    ((try lift_lets -underBinder); intro _)
    ((try lift_lets -underBinder); intro _)
    ((try lift_lets -underBinder); intro x; refine (fun (hx : Keeps z x) => ?_) ?_; clear_value x)
    ((try lift_lets -underBinder); intro x; refine (fun (hx : Keeps z x) => ?_) ?_; clear_value x)
    ((try lift_lets -underBinder); intro _)
    ((try lift_lets -underBinder); intro x; refine (fun (hx : Keeps z x) => ?_) ?_; clear_value x)
    ((try lift_lets -underBinder); intro _)
    ((try lift_lets -underBinder); intro x; refine (fun (hx : Keeps z x) => ?_) ?_; clear_value x)
    ((try lift_lets -underBinder); intro x; refine (fun (hx : Keeps z x) => ?_) ?_; clear_value x)
    refine Keeps.ite ?_ ?_
    apply State.adoptSettle_keeps
    assumption
    refine Keeps.ite ?_ ?_
    apply State.askAll_keeps
    assumption
    refine Keeps.ite ?_ ?_
    apply State.reviveNext_keeps
    apply State.askMore_keeps
    refine Keeps.ite ?_ ?_
    assumption
    apply State.errRecord_keeps
    assumption
    refine Keeps.ite ?_ ?_
    refine Keeps.ite ?_ ?_
    assumption
    apply State.parkAgain_keeps
    assumption
    refine Keeps.ite ?_ ?_
    (simp -zeta only [mk_keeps_iff]; apply KeptParts.fold)
    assumption
    refine Keeps.ite ?_ ?_
    apply State.reviveRebuild_keeps
    assumption
    refine Keeps.ite ?_ ?_
    apply State.reviveNext_keeps
    apply State.updRevive_keeps
    assumption
    apply State.logsLost_keeps
    assumption
    simp -zeta only [x]
    apply State.dropPages_keeps
    apply State.unreserve_keeps
    assumption
    simp -zeta only [x]
    apply State.abandonCommit_keeps
    (simp -zeta only [mk_keeps_iff]; apply KeptParts.fold)
    assumption
    simp -zeta only [x]
    apply State.updRevive_keeps
    assumption
    simp -zeta only [x]
    apply State.updSess_keeps
    assumption
    simp -zeta only [x]
    apply State.updRevive_keeps
    assumption

theorem State.gotObject_keeps {z : State} {s : State} {i} {kind} {number} (hz : Keeps z s) :
    Keeps z (State.gotObject s i kind number) := by
  unfold State.gotObject
  with_reducible
    apply State.askMore_keeps
    apply State.updRevive_keeps
    assumption

theorem State.placeObject_keeps {z : State} {s : State} {i} {dev} {kind} {number} {raw} {b} (hz : Keeps z s) :
    Keeps z (State.placeObject s i dev kind number raw b) := by
  unfold State.placeObject
  with_reducible
    split
    apply State.reviveNext_keeps
    refine Keeps.ite ?_ ?_
    apply State.updRevive_keeps
    apply State.gotObject_keeps
    refine Keeps.ite ?_ ?_
    apply State.bump_keeps
    assumption
    assumption
    refine Keeps.ite ?_ ?_
    refine Keeps.ite ?_ ?_
    apply State.updRevive_keeps
    apply State.gotObject_keeps
    refine Keeps.ite ?_ ?_
    apply State.bump_keeps
    assumption
    assumption
    split
    apply State.layPage_keeps
    apply State.gotObject_keeps
    refine Keeps.ite ?_ ?_
    apply State.bump_keeps
    assumption
    assumption
    apply State.layPage_keeps
    apply State.gotObject_keeps
    refine Keeps.ite ?_ ?_
    apply State.bump_keeps
    assumption
    assumption
    apply State.gotObject_keeps
    refine Keeps.ite ?_ ?_
    apply State.bump_keeps
    assumption
    assumption
    refine Keeps.ite ?_ ?_
    apply State.updRevive_keeps
    apply State.gotObject_keeps
    refine Keeps.ite ?_ ?_
    apply State.bump_keeps
    assumption
    assumption
    apply State.updRevive_keeps
    apply State.gotObject_keeps
    refine Keeps.ite ?_ ?_
    apply State.bump_keeps
    assumption
    assumption
    assumption

theorem State.passOn_keeps {z : State} {s : State} {i} (hz : Keeps z s) :
    Keeps z (State.passOn s i) := by
  unfold State.passOn
  with_reducible
    ((try lift_lets -underBinder); intro _)
    refine Keeps.ite ?_ ?_
    apply State.beginDown_keeps
    assumption
    assumption

theorem State.reviveOver_keeps {z : State} {s : State} {i} (hz : Keeps z s) :
    Keeps z (State.reviveOver s i) := by
  unfold State.reviveOver
  with_reducible
    split
    refine Keeps.ite ?_ ?_
    apply State.reviveDone_keeps
    assumption
    assumption
    assumption

theorem State.leaveDown_keeps {z : State} {s : State} {i} (hz : Keeps z s) :
    Keeps z (State.leaveDown s i).1 := by
  unfold State.leaveDown
  with_reducible
    ((try lift_lets -underBinder); intro _)
    ((try lift_lets -underBinder); intro x; refine (fun (hx : Keeps z x) => ?_) ?_; clear_value x)
    apply Keeps.fst
    (simp -zeta only [mk_keeps_iff]; apply KeptParts.fold)
    assumption
    simp -zeta only [x]
    apply State.abandonCommit_keeps
    assumption

theorem State.startRevive_keeps {z : State} {s : State} {i} (hz : Keeps z s) :
    Keeps z (State.startRevive s i) := by
  unfold State.startRevive
  with_reducible
    ((try lift_lets -underBinder); intro _)
    split
    ((try lift_lets -underBinder); intro x; refine (fun (hx : Keeps z x) => ?_) ?_; clear_value x)
    ((try lift_lets -underBinder); intro _)
    ((try lift_lets -underBinder); intro _)
    ((try lift_lets -underBinder); intro _)
    ((try lift_lets -underBinder); intro x; refine (fun (hx : Keeps z x) => ?_) ?_; clear_value x)
    refine Keeps.ite ?_ ?_
    apply State.reviveRebuild_keeps
    assumption
    refine Keeps.ite ?_ ?_
    apply State.askObject_keeps
    assumption
    apply State.askObject_keeps
    apply State.updSess_keeps
    assumption
    simp -zeta only [x]
    (simp -zeta only [mk_keeps_iff]; apply KeptParts.fold)
    assumption
    simp -zeta only [x]
    apply State.updSess_keeps
    refine Keeps.pair (State.leaveDown_keeps ?_) (by assumption)
    assumption

theorem State.reviveFor_keeps {z : State} {s : State} {i} {x} (hz : Keeps z s) :
    ResKeeps z (State.reviveFor s i x) := by
  unfold State.reviveFor
  with_reducible
    apply ResKeeps.hold
    apply State.startRevive_keeps
    assumption

end Sys2Proof.Machine
end

