-- ==== Sys2Proof/Laws/KeepSession.lean ====
section
/-!
SUPPORT. Every operation and meaning of Machine/Session.lean leaves the queue of waiting commands as it was and keeps the stores
canonical: for each f, `f_keeps` (Laws/Keeps.lean).
-/

namespace Sys2Proof.Machine

theorem State.placeSess_keeps {z : State} {s : State} {i} {st} {e} (hz : Keeps z s) :
    Keeps z (State.placeSess s i st e) := by
  unfold State.placeSess
  with_reducible
    apply State.setFld_keeps
    apply State.enter_keeps
    apply State.setSess_keeps
    assumption

theorem execSESS_ACCESSION_keeps {z : State} {x} {s : State} (hz : Keeps z s) :
    OutKeeps z (execSESS_ACCESSION x s) := by
  unfold execSESS_ACCESSION
  with_reducible
    apply runSlip_keeps
    assumption
    intro _
    intro _
    refine ResKeeps.ite ?_ ?_
    apply SlipRes.no_keeps
    assumption
    split
    apply SlipRes.no_keeps
    assumption
    refine ResKeeps.ite ?_ ?_
    apply SlipRes.no_keeps
    assumption
    refine ResKeeps.ite ?_ ?_
    apply SlipRes.no_keeps
    assumption
    refine ResKeeps.ite ?_ ?_
    apply ResKeeps.hold
    assumption
    refine ResKeeps.ite ?_ ?_
    apply SlipRes.no_keeps
    assumption
    split
    apply SlipRes.no_keeps
    assumption
    split
    apply SlipRes.no_keeps
    assumption
    apply ResKeeps.done
    apply State.placeSess_keeps
    assumption

theorem execSESS_CLOSE_keeps {z : State} {x} {s : State} (hz : Keeps z s) :
    OutKeeps z (execSESS_CLOSE x s) := by
  unfold execSESS_CLOSE
  with_reducible
    apply runSession_keeps
    assumption
    intro _
    intro _
    intro _
    intro _
    refine ResKeeps.ite ?_ ?_
    apply SlipRes.no_keeps
    assumption
    refine ResKeeps.ite ?_ ?_
    apply ResKeeps.hold
    assumption
    apply ResKeeps.done
    apply State.reclaimCheck_keeps
    apply State.closeSess_keeps
    assumption

theorem execSESS_QUERY_keeps {z : State} {x} {s : State} (hz : Keeps z s) :
    OutKeeps z (execSESS_QUERY x s) := by
  unfold execSESS_QUERY
  with_reducible
    apply runSession_keeps
    assumption
    intro _
    intro _
    intro _
    apply ResKeeps.done

theorem State.makeChild_keeps {z : State} {s : State} {p} {pi} {ci} {acc} {tenant} {f} {template} (hz : Keeps z s) :
    Keeps z (State.makeChild s p pi ci acc tenant f template) := by
  unfold State.makeChild
  with_reducible
    ((try lift_lets -underBinder); intro _)
    split
    ((try lift_lets -underBinder); intro _)
    ((try lift_lets -underBinder); intro _)
    ((try lift_lets -underBinder); intro _)
    ((try lift_lets -underBinder); intro _)
    ((try lift_lets -underBinder); intro _)
    ((try lift_lets -underBinder); intro _)
    ((try lift_lets -underBinder); intro x; refine (fun (hx : Keeps z x) => ?_) ?_; clear_value x)
    ((try lift_lets -underBinder); intro x; refine (fun (hx : Keeps z x) => ?_) ?_; clear_value x)
    ((try lift_lets -underBinder); intro x; simp -zeta only [x])
    ((try lift_lets -underBinder); intro x; refine (fun (hx : Keeps z x) => ?_) ?_; clear_value x)
    apply State.bump_keeps
    apply State.chargeLog_keeps
    assumption
    simp -zeta only [x]
    apply State.updSess_keeps
    apply foldl_keeps1
    apply Keeps.fst
    assumption
    intro _
    intro _
    intro _
    ((try lift_lets -underBinder); intro x; simp -zeta only [x])
    apply State.copyTail_keeps
    assumption
    simp -zeta only [x]
    apply foldl_keeps
    assumption
    intro _
    intro _
    intro _
    apply State.refSlot_keeps
    assumption
    simp -zeta only [x]
    apply State.placeSess_keeps
    assumption

theorem execSESS_FORK_keeps {z : State} {x} {s : State} (hz : Keeps z s) :
    OutKeeps z (execSESS_FORK x s) := by
  unfold execSESS_FORK
  with_reducible
    apply runSession_keeps
    assumption
    intro _
    intro _
    intro _
    ((try lift_lets -underBinder); intro x; simp -zeta only [x])
    refine ResKeeps.ite ?_ ?_
    apply SlipRes.no_keeps
    assumption
    refine ResKeeps.ite ?_ ?_
    apply SlipRes.no_keeps
    assumption
    refine ResKeeps.ite ?_ ?_
    apply SlipRes.no_keeps
    assumption
    refine ResKeeps.ite ?_ ?_
    apply SlipRes.no_keeps
    assumption
    refine ResKeeps.ite ?_ ?_
    apply SlipRes.no_keeps
    assumption
    split
    apply SlipRes.no_keeps
    assumption
    apply SlipRes.no_keeps
    assumption
    refine ResKeeps.ite ?_ ?_
    apply State.reviveFor_keeps
    assumption
    refine ResKeeps.ite ?_ ?_
    apply ResKeeps.hold
    assumption
    split
    apply SlipRes.no_keeps
    assumption
    refine ResKeeps.ite ?_ ?_
    apply SlipRes.no_keeps
    assumption
    refine ResKeeps.ite ?_ ?_
    apply SlipRes.no_keeps
    assumption
    refine ResKeeps.ite ?_ ?_
    apply SlipRes.no_keeps
    assumption
    apply ResKeeps.done
    apply State.makeChild_keeps
    assumption

theorem State.attachRing_keeps {z : State} {s : State} {i} {ring} (hz : Keeps z s) :
    Keeps z (State.attachRing s i ring) := by
  unfold State.attachRing
  with_reducible
    apply State.ringRoom_keeps
    apply State.updSess_keeps
    apply State.setRing_keeps
    refine Keeps.ite ?_ ?_
    apply State.setRing_keeps
    assumption
    assumption

theorem execSESS_GENERATE_keeps {z : State} {x} {s : State} (hz : Keeps z s) :
    OutKeeps z (execSESS_GENERATE x s) := by
  unfold execSESS_GENERATE
  with_reducible
    apply runSession_keeps
    assumption
    intro _
    intro _
    intro _
    intro _
    refine ResKeeps.ite ?_ ?_
    apply SlipRes.no_keeps
    assumption
    refine ResKeeps.ite ?_ ?_
    apply SlipRes.no_keeps
    assumption
    split
    apply SlipRes.no_keeps
    assumption
    refine ResKeeps.ite ?_ ?_
    apply SlipRes.no_keeps
    assumption
    refine ResKeeps.ite ?_ ?_
    apply State.reviveFor_keeps
    assumption
    apply ResKeeps.done
    apply State.startRequest_keeps
    apply State.updSess_keeps
    refine Keeps.ite ?_ ?_
    apply State.attachRing_keeps
    assumption
    assumption

theorem State.cancelIdle_keeps {z : State} {s : State} {i} (hz : Keeps z s) :
    Keeps z (State.cancelIdle s i) := by
  unfold State.cancelIdle
  with_reducible
    refine Keeps.ite ?_ ?_
    apply State.groupMade_keeps
    apply State.updSess_keeps
    assumption
    refine Keeps.ite ?_ ?_
    apply State.flushRing_keeps
    apply State.writeGroup_keeps
    apply State.groupMade_keeps
    apply State.updSess_keeps
    assumption
    apply State.updSess_keeps
    apply State.groupMade_keeps
    apply State.updSess_keeps
    assumption

theorem execSESS_CANCEL_keeps {z : State} {x} {s : State} (hz : Keeps z s) :
    OutKeeps z (execSESS_CANCEL x s) := by
  unfold execSESS_CANCEL
  with_reducible
    apply runSession_keeps
    assumption
    intro _
    intro _
    intro _
    intro _
    ((try lift_lets -underBinder); intro _)
    ((try lift_lets -underBinder); intro x; refine (fun (hx : Keeps z x) => ?_) ?_; clear_value x)
    refine ResKeeps.ite ?_ ?_
    apply SlipRes.no_keeps
    assumption
    refine ResKeeps.ite ?_ ?_
    apply ResKeeps.hold
    assumption
    refine ResKeeps.ite ?_ ?_
    apply ResKeeps.done
    apply State.flushRing_keeps
    assumption
    refine ResKeeps.ite ?_ ?_
    apply ResKeeps.done
    apply State.updSess_keeps
    assumption
    apply ResKeeps.done
    apply State.imageChanged_keeps
    apply State.cancelIdle_keeps
    assumption
    simp -zeta only [x]
    apply State.endWithout_keeps
    apply State.dequeue_keeps
    assumption

theorem execSESS_ATTACH_RING_keeps {z : State} {x} {s : State} (hz : Keeps z s) :
    OutKeeps z (execSESS_ATTACH_RING x s) := by
  unfold execSESS_ATTACH_RING
  with_reducible
    apply runSession_keeps
    assumption
    intro _
    intro _
    intro _
    intro _
    refine ResKeeps.ite ?_ ?_
    apply SlipRes.no_keeps
    assumption
    refine ResKeeps.ite ?_ ?_
    refine ResKeeps.ite ?_ ?_
    apply SlipRes.no_keeps
    assumption
    apply ResKeeps.done
    apply State.detachRing_keeps
    assumption
    split
    apply SlipRes.no_keeps
    assumption
    apply ResKeeps.done
    apply State.attachRing_keeps
    assumption

theorem State.chargeGrowth_keeps {z : State} {s : State} {i} (hz : Keeps z s) :
    Keeps z (State.chargeGrowth s i) := by
  unfold State.chargeGrowth
  with_reducible
    ((try lift_lets -underBinder); intro _)
    refine Keeps.ite ?_ ?_
    apply State.chargeLog_keeps
    assumption
    split
    apply State.setImg_keeps
    assumption
    apply State.setImg_keeps
    assumption

theorem State.addMark_keeps {z : State} {s : State} {i} {m} (hz : Keeps z s) :
    Keeps z (State.addMark s i m) := by
  unfold State.addMark
  with_reducible
    ((try lift_lets -underBinder); intro _)
    ((try lift_lets -underBinder); intro _)
    ((try lift_lets -underBinder); intro _)
    ((try lift_lets -underBinder); intro x; refine (fun (hx : Keeps z x) => ?_) ?_; clear_value x)
    apply State.imageChanged_keeps
    apply State.chargeGrowth_keeps
    assumption
    simp -zeta only [x]
    apply State.updSess_keeps
    assumption

theorem execSESS_SET_MASK_keeps {z : State} {x} {s : State} (hz : Keeps z s) :
    OutKeeps z (execSESS_SET_MASK x s) := by
  unfold execSESS_SET_MASK
  with_reducible
    apply runSession_keeps
    assumption
    intro _
    intro _
    intro _
    intro _
    ((try lift_lets -underBinder); intro _)
    ((try lift_lets -underBinder); intro _)
    ((try lift_lets -underBinder); intro _)
    ((try lift_lets -underBinder); intro _)
    refine ResKeeps.ite ?_ ?_
    apply SlipRes.no_keeps
    assumption
    refine ResKeeps.ite ?_ ?_
    apply SlipRes.no_keeps
    assumption
    split
    apply SlipRes.no_keeps
    assumption
    refine ResKeeps.ite ?_ ?_
    apply State.reviveRead_keeps
    assumption
    refine ResKeeps.ite ?_ ?_
    apply SlipRes.no_keeps
    assumption
    refine ResKeeps.ite ?_ ?_
    apply SlipRes.no_keeps
    assumption
    ((try lift_lets -underBinder); intro _)
    ((try lift_lets -underBinder); intro _)
    refine ResKeeps.ite ?_ ?_
    apply SlipRes.no_keeps
    assumption
    apply ResKeeps.done
    apply State.addMark_keeps
    assumption

theorem execSESS_SET_TTL_keeps {z : State} {x} {s : State} (hz : Keeps z s) :
    OutKeeps z (execSESS_SET_TTL x s) := by
  unfold execSESS_SET_TTL
  with_reducible
    apply runSession_keeps
    assumption
    intro _
    intro _
    intro _
    intro _
    refine ResKeeps.ite ?_ ?_
    apply SlipRes.no_keeps
    assumption
    apply ResKeeps.done
    apply State.imageChanged_keeps
    apply State.updSess_keeps
    apply State.updSess_keeps
    assumption

theorem execSESS_PARK_keeps {z : State} {x} {s : State} (hz : Keeps z s) :
    OutKeeps z (execSESS_PARK x s) := by
  unfold execSESS_PARK
  with_reducible
    apply runSession_keeps
    assumption
    intro _
    intro _
    intro _
    intro _
    ((try lift_lets -underBinder); intro _)
    ((try lift_lets -underBinder); intro x; simp -zeta only [x])
    refine ResKeeps.ite ?_ ?_
    apply SlipRes.no_keeps
    assumption
    refine ResKeeps.ite ?_ ?_
    apply SlipRes.no_keeps
    assumption
    refine ResKeeps.ite ?_ ?_
    apply SlipRes.no_keeps
    assumption
    refine ResKeeps.ite ?_ ?_
    apply SlipRes.no_keeps
    assumption
    refine ResKeeps.ite ?_ ?_
    apply ResKeeps.wait
    assumption
    split
    apply SlipRes.no_keeps
    assumption
    apply SlipRes.no_keeps
    assumption
    apply ResKeeps.wait
    split
    apply State.tryCommit_keeps
    apply State.abandonCommit_keeps
    assumption
    apply State.tryCommit_keeps
    apply State.abandonCommit_keeps
    assumption

theorem execSESS_REVIVE_keeps {z : State} {x} {s : State} (hz : Keeps z s) :
    OutKeeps z (execSESS_REVIVE x s) := by
  unfold execSESS_REVIVE
  with_reducible
    apply runSession_keeps
    assumption
    intro _
    intro _
    intro _
    intro _
    refine ResKeeps.ite ?_ ?_
    apply ResKeeps.done
    assumption
    refine ResKeeps.ite ?_ ?_
    apply State.reviveFor_keeps
    assumption
    refine ResKeeps.ite ?_ ?_
    apply SlipRes.no_keeps
    assumption
    apply SlipRes.no_keeps
    assumption

theorem execSESS_MOVE_OFFER_keeps {z : State} {x} {s : State} (hz : Keeps z s) :
    OutKeeps z (execSESS_MOVE_OFFER x s) := by
  unfold execSESS_MOVE_OFFER
  with_reducible
    apply runSlip_keeps
    assumption
    intro _
    intro _
    ((try lift_lets -underBinder); intro _)
    ((try lift_lets -underBinder); intro _)
    ((try lift_lets -underBinder); intro _)
    refine ResKeeps.ite ?_ ?_
    apply SlipRes.no_keeps
    assumption
    split
    refine OptAll.get (State.sessGate_keeps ?_) (by assumption)
    assumption
    split
    apply SlipRes.no_keeps
    assumption
    refine ResKeeps.ite ?_ ?_
    apply SlipRes.no_keeps
    assumption
    split
    apply SlipRes.no_keeps
    assumption
    refine ResKeeps.ite ?_ ?_
    apply SlipRes.no_keeps
    assumption
    split
    apply SlipRes.no_keeps
    assumption
    split
    apply SlipRes.no_keeps
    assumption
    apply SlipRes.no_keeps
    assumption
    ((try lift_lets -underBinder); intro _)
    refine ResKeeps.ite ?_ ?_
    apply SlipRes.no_keeps
    assumption
    split
    apply SlipRes.no_keeps
    assumption
    ((try lift_lets -underBinder); intro _)
    split
    apply SlipRes.no_keeps
    assumption
    ((try lift_lets -underBinder); intro _)
    ((try lift_lets -underBinder); intro x; refine (fun (hx : Keeps z x) => ?_) ?_; clear_value x)
    apply ResKeeps.done
    (simp -zeta only [mk_keeps_iff]; apply KeptParts.fold)
    assumption
    simp -zeta only [x]
    apply State.setImg_keeps
    apply State.setSess_keeps
    assumption

theorem execSESS_MOVE_COMMIT_keeps {z : State} {x} {s : State} (hz : Keeps z s) :
    OutKeeps z (execSESS_MOVE_COMMIT x s) := by
  unfold execSESS_MOVE_COMMIT
  with_reducible
    apply runSlip_keeps
    assumption
    intro _
    intro _
    ((try lift_lets -underBinder); intro _)
    refine ResKeeps.ite ?_ ?_
    apply SlipRes.no_keeps
    assumption
    split
    apply ResKeeps.done
    ((try lift_lets -underBinder); intro x; refine (fun (hx : Keeps z x) => ?_) ?_; clear_value x)
    (simp -zeta only [mk_keeps_iff]; apply KeptParts.fold)
    assumption
    simp -zeta only [x]
    apply State.freeSess_keeps
    apply State.setImg_keeps
    assumption
    refine OptAll.get (State.sessGate_keeps ?_) (by assumption)
    assumption
    split
    split
    refine ResKeeps.ite ?_ ?_
    apply SlipRes.no_keeps
    assumption
    apply SlipRes.no_keeps
    assumption
    apply SlipRes.no_keeps
    assumption
    refine ResKeeps.ite ?_ ?_
    apply SlipRes.no_keeps
    assumption
    refine ResKeeps.ite ?_ ?_
    apply SlipRes.no_keeps
    assumption
    split
    apply SlipRes.no_keeps
    assumption
    refine ResKeeps.ite ?_ ?_
    apply SlipRes.no_keeps
    assumption
    ((try lift_lets -underBinder); intro x; refine (fun (hx : Keeps z x) => ?_) ?_; clear_value x)
    ((try lift_lets -underBinder); intro x; refine (fun (hx : Keeps z x) => ?_) ?_; clear_value x)
    ((try lift_lets -underBinder); intro x; refine (fun (hx : Keeps z x) => ?_) ?_; clear_value x)
    apply ResKeeps.done
    assumption
    simp -zeta only [x]
    apply State.updSess_keeps
    assumption
    simp -zeta only [x]
    apply State.enter_keeps
    assumption
    simp -zeta only [x]
    (simp -zeta only [mk_keeps_iff]; apply KeptParts.fold)
    assumption

theorem execMOVE_RESERVATION_LAPSE_keeps {z : State} {acc} {s : State} (hz : Keeps z s) :
    OutKeeps z (execMOVE_RESERVATION_LAPSE acc s) := by
  unfold execMOVE_RESERVATION_LAPSE
  with_reducible
    split
    apply OutKeeps.next
    assumption
    refine OutKeeps.ite ?_ ?_
    apply OutKeeps.next
    assumption
    apply OutKeeps.next
    ((try lift_lets -underBinder); intro x; refine (fun (hx : Keeps z x) => ?_) ?_; clear_value x)
    (simp -zeta only [mk_keeps_iff]; apply KeptParts.fold)
    assumption
    simp -zeta only [x]
    apply State.freeSess_keeps
    apply State.setImg_keeps
    assumption

theorem State.beginMove_keeps {z : State} {s : State} {i} {dev} (hz : Keeps z s) :
    Keeps z (State.beginMove s i dev) := by
  unfold State.beginMove
  with_reducible
    apply State.sendDev_keeps
    (simp -zeta only [mk_keeps_iff]; apply KeptParts.fold)
    apply State.updSess_keeps
    assumption

theorem State.moveFailed_keeps {z : State} {s : State} {i} {m} (hz : Keeps z s) :
    Keeps z (State.moveFailed s i m) := by
  unfold State.moveFailed
  with_reducible
    apply State.updSess_keeps
    apply State.updCat_keeps
    (simp -zeta only [mk_keeps_iff]; apply KeptParts.fold)
    assumption

theorem State.sendCommit_keeps {z : State} {s : State} {i} {m} (hz : Keeps z s) :
    Keeps z (State.sendCommit s i m) := by
  unfold State.sendCommit
  with_reducible
    apply State.sendDev_keeps
    (simp -zeta only [mk_keeps_iff]; apply KeptParts.fold)
    assumption

theorem State.registerMove_keeps {z : State} {s : State} {i} {m} (hz : Keeps z s) :
    Keeps z (State.registerMove s i m) := by
  unfold State.registerMove
  with_reducible
    split
    apply State.sendCommit_keeps
    assumption
    refine Keeps.ite ?_ ?_
    apply State.sendCommit_keeps
    (simp -zeta only [mk_keeps_iff]; apply KeptParts.fold)
    apply foldl_keeps
    assumption
    intro _
    intro _
    apply State.registerAt_keeps
    apply State.updCat_keeps
    (simp -zeta only [mk_keeps_iff]; apply KeptParts.fold)
    apply foldl_keeps
    assumption
    intro _
    intro _
    apply State.registerAt_keeps

theorem execMOVE_OFFER_REPLY_keeps {z : State} {acc} {status} {s : State} (hz : Keeps z s) :
    OutKeeps z (execMOVE_OFFER_REPLY acc status s) := by
  unfold execMOVE_OFFER_REPLY
  with_reducible
    split
    apply OutKeeps.next
    assumption
    refine OutKeeps.ite ?_ ?_
    apply OutKeeps.next
    assumption
    refine OutKeeps.ite ?_ ?_
    apply OutKeeps.next
    apply State.registerMove_keeps
    assumption
    apply OutKeeps.next
    apply State.moveFailed_keeps
    assumption

theorem State.moveDone_keeps {z : State} {s : State} {i} {m} (hz : Keeps z s) :
    Keeps z (State.moveDone s i m) := by
  unfold State.moveDone
  with_reducible
    apply State.updCat_keeps
    ((try lift_lets -underBinder); intro x; refine (fun (hx : Keeps z x) => ?_) ?_; clear_value x)
    (simp -zeta only [mk_keeps_iff]; apply KeptParts.fold)
    assumption
    apply State.freeSess_keeps
    apply State.detachRing_keeps
    apply State.setImg_keeps
    apply State.setLog_keeps
    assumption

theorem execMOVE_COMMIT_REPLY_keeps {z : State} {acc} {status} {s : State} (hz : Keeps z s) :
    OutKeeps z (execMOVE_COMMIT_REPLY acc status s) := by
  unfold execMOVE_COMMIT_REPLY
  with_reducible
    split
    apply OutKeeps.next
    assumption
    refine OutKeeps.ite ?_ ?_
    apply OutKeeps.next
    assumption
    refine OutKeeps.ite ?_ ?_
    apply OutKeeps.next
    apply State.moveDone_keeps
    assumption
    apply OutKeeps.next
    apply State.moveFailed_keeps
    assumption

end Sys2Proof.Machine
end

