-- ==== Sys2Proof/Laws/KeepMeFrame.lean ====
section
/-!
SUPPORT. Every operation and meaning of Machine/MeFrame.lean leaves the queue of waiting commands as it was and keeps the stores
canonical: for each f, `f_keeps` (Laws/Keeps.lean).
-/

namespace Sys2Proof.Machine

theorem State.setMe_keeps {z : State} {s : State} {e} {m} (hz : Keeps z s) :
    Keeps z (State.setMe s e m) := by
  unfold State.setMe
  with_reducible
    (simp -zeta only [mk_keeps_iff]; apply KeptParts.fold)
    assumption

theorem State.useSpare_keeps {z : State} {s : State} {e} {k} {pool} (hz : Keeps z s) :
    Keeps z (State.useSpare s e k pool) := by
  unfold State.useSpare
  with_reducible
    ((try lift_lets -underBinder); intro x; simp -zeta only [x])
    ((try lift_lets -underBinder); intro x; simp -zeta only [x])
    (simp -zeta only [mk_keeps_iff]; apply KeptParts.fold)
    apply State.setFld_keeps
    apply State.setFld_keeps
    assumption

theorem State.issueTiles_keeps {z : State} {n} {s : State} (hz : Keeps z s) : Keeps z (State.issueTiles n s) := by
  induction n generalizing s with
  | zero => exact hz
  | succ n ih =>
    unfold State.issueTiles
    split
    · exact ih (State.setMe_keeps ⟨hz.parts⟩)
    · exact hz

theorem State.issue_keeps {z : State} {s : State} (hz : Keeps z s) :
    Keeps z (State.issue s) := by
  unfold State.issue
  with_reducible
    apply State.issueTiles_keeps
    assumption

theorem State.queueTiles_keeps {z : State} {s : State} {l} (hz : Keeps z s) :
    Keeps z (State.queueTiles s l) := by
  unfold State.queueTiles
  with_reducible
    apply State.issue_keeps
    (simp -zeta only [mk_keeps_iff]; apply KeptParts.fold)
    assumption

theorem State.requeue_keeps {z : State} {s : State} {e} {t} (hz : Keeps z s) :
    Keeps z (State.requeue s e t) := by
  unfold State.requeue
  with_reducible
    apply State.issue_keeps
    (simp -zeta only [mk_keeps_iff]; apply KeptParts.fold)
    assumption

theorem State.takeBack_keeps {z : State} {s : State} {p} (hz : Keeps z s) :
    Keeps z (State.takeBack s p) := by
  unfold State.takeBack
  with_reducible
    ((try lift_lets -underBinder); intro x; simp -zeta only [x])
    apply State.issue_keeps
    (simp -zeta only [mk_keeps_iff]; apply KeptParts.fold)
    assumption

theorem State.dropTiles_keeps {z : State} {s : State} {id} (hz : Keeps z s) :
    Keeps z (State.dropTiles s id) := by
  unfold State.dropTiles
  with_reducible
    (simp -zeta only [mk_keeps_iff]; apply KeptParts.fold)
    assumption

end Sys2Proof.Machine
end

