-- ==== Sys2Proof/Laws/KeepVecFrame.lean ====
section
/-!
SUPPORT. Every operation and meaning of Machine/VecFrame.lean leaves the queue of waiting commands as it was and keeps the stores
canonical: for each f, `f_keeps` (Laws/Keeps.lean).
-/

namespace Sys2Proof.Machine

theorem State.setShard_keeps {z : State} {s : State} {id} {v} (hz : Keeps z s) :
    Keeps z (State.setShard s id v) := by
  unfold State.setShard
  with_reducible
    (simp -zeta only [mk_keeps_iff]; apply KeptParts.fold)
    assumption

theorem State.setTomb_keeps {z : State} {s : State} {b} {r} (hz : Keeps z s) :
    Keeps z (State.setTomb s b r) := by
  unfold State.setTomb
  with_reducible
    apply State.hbmWr_keeps
    assumption

theorem State.addBlock_keeps {z : State} {s : State} {id} {list} {gen} (hz : Keeps z s) :
    OptAll (fun p => Keeps z p.2) (State.addBlock s id list gen) := by
  unfold State.addBlock
  with_reducible
    split
    apply OptAll.some
    apply State.setShard_keeps
    split
    apply State.hbmWr_keeps
    apply State.hbmWr_keeps
    (simp -zeta only [mk_keeps_iff]; apply KeptParts.fold)
    assumption
    apply State.hbmWr_keeps
    (simp -zeta only [mk_keeps_iff]; apply KeptParts.fold)
    assumption
    apply OptAll.none

theorem State.putRecord_keeps {z s : State} {id list gen key tag elems} (hz : Keeps z s) :
    OptAll (Keeps z) (State.putRecord s id list gen key tag elems) := by
  unfold State.putRecord
  split
  · exact OptAll.none
  · rename_i v _
    have room : ∀ o : Option Nat, OptAll (fun p => Keeps z p.2) (match o with
        | some b => if s.blkRecords b < blockCap v.format v.dim then some (b, s) else s.addBlock id list gen
        | none => s.addBlock id list gen) := by
      intro o
      split
      · apply OptAll.ite
        · exact OptAll.some hz
        · exact State.addBlock_keeps hz
      · exact State.addBlock_keeps hz
    simp only
    split
    · exact OptAll.none
    · rename_i b t ht
      have h1 : Keeps z t := OptAll.get2 (room _) ht
      split
      · exact OptAll.some (State.setShard_keeps (State.hbmWr_keeps (State.hbmWr_keeps h1)))
      · exact OptAll.some (State.hbmWr_keeps (State.hbmWr_keeps h1))

theorem State.centWr_keeps {z : State} {s : State} {v} {o} {b} (hz : Keeps z s) :
    Keeps z (State.centWr s v o b) := by
  unfold State.centWr
  with_reducible
    ((try lift_lets -underBinder); intro _)
    ((try lift_lets -underBinder); intro _)
    ((try lift_lets -underBinder); intro x; refine (fun (hx : Keeps z x) => ?_) ?_; clear_value x)
    refine Keeps.ite ?_ ?_
    apply State.hbmWr_keeps
    assumption
    assumption
    simp -zeta only [x]
    apply State.hbmWr_keeps
    assumption

theorem State.moveBlock_keeps {z : State} {s : State} {b} (hz : Keeps z s) :
    Keeps z (State.moveBlock s b) := by
  unfold State.moveBlock
  with_reducible
    split
    split
    assumption
    apply State.setShard_keeps
    (simp -zeta only [mk_keeps_iff]; apply KeptParts.fold)
    split
    apply State.hbmWr_keeps
    apply State.hbmWr_keeps
    assumption
    apply State.hbmWr_keeps
    assumption
    assumption

theorem State.damageShard_keeps {z : State} {s : State} {id} (hz : Keeps z s) :
    Keeps z (State.damageShard s id) := by
  unfold State.damageShard
  with_reducible
    split
    apply State.setShard_keeps
    assumption
    assumption

end Sys2Proof.Machine
end

