-- ==== Sys2Proof/Laws/KeepText.lean ====
section
/-!
SUPPORT. Every operation and meaning of Machine/Text.lean leaves the queue of waiting commands as it was and keeps the stores
canonical: for each f, `f_keeps` (Laws/Keeps.lean).
-/

namespace Sys2Proof.Machine

theorem State.jobOn_keeps {z : State} {s : State} {reg} {field_hi} {first} {n} (hz : Keeps z s) :
    Keeps z (State.jobOn s reg field_hi first n) := by
  unfold State.jobOn
  with_reducible
    ((try lift_lets -underBinder); intro x; simp -zeta only [x])
    split
    apply State.bump_keeps
    (simp -zeta only [mk_keeps_iff]; apply KeptParts.fold)
    assumption
    assumption

theorem State.countFeed_keeps {z : State} {s : State} {f} (hz : Keeps z s) :
    Keeps z (State.countFeed s f) := by
  unfold State.countFeed
  with_reducible
    apply State.jobOn_keeps
    apply State.bumpBy_keeps
    apply State.bumpBy_keeps
    apply State.bumpBy_keeps
    assumption

theorem State.appendInput_keeps {z : State} {s : State} {i} {toks} (hz : Keeps z s) :
    Keeps z (State.appendInput s i toks) := by
  unfold State.appendInput
  with_reducible
    apply State.startRequest_keeps
    refine Keeps.ite ?_ ?_
    apply State.enter_keeps
    apply State.bumpBy_keeps
    apply State.chargeLog_keeps
    apply State.updSess_keeps
    assumption
    apply State.bumpBy_keeps
    apply State.chargeLog_keeps
    apply State.updSess_keeps
    assumption

theorem execTEXT_APPEND_keeps {z : State} {x} {s : State} (hz : Keeps z s) :
    OutKeeps z (execTEXT_APPEND x s) := by
  unfold execTEXT_APPEND
  with_reducible
    apply runSession_keeps
    assumption
    intro _
    intro _
    intro _
    intro _
    split
    apply SlipRes.no_keeps
    assumption
    refine ResKeeps.ite ?_ ?_
    apply SlipRes.no_keeps
    assumption
    split
    apply SlipRes.no_keeps
    refine Keeps.ite ?_ ?_
    apply State.bump_keeps
    assumption
    assumption
    refine ResKeeps.ite ?_ ?_
    apply SlipRes.no_keeps
    assumption
    refine ResKeeps.ite ?_ ?_
    apply SlipRes.no_keeps
    assumption
    refine ResKeeps.ite ?_ ?_
    apply SlipRes.no_keeps
    assumption
    refine ResKeeps.ite ?_ ?_
    apply SlipRes.no_keeps
    assumption
    refine ResKeeps.ite ?_ ?_
    apply State.reviveFor_keeps
    assumption
    refine ResKeeps.ite ?_ ?_
    apply SlipRes.no_keeps
    assumption
    refine ResKeeps.ite ?_ ?_
    apply ResKeeps.done
    apply State.appendInput_keeps
    apply State.countFeed_keeps
    ((try lift_lets -underBinder); intro x; simp -zeta only [x])
    (simp -zeta only [mk_keeps_iff]; apply KeptParts.fold)
    assumption
    apply ResKeeps.done
    apply State.appendInput_keeps
    apply State.countFeed_keeps
    ((try lift_lets -underBinder); intro x; simp -zeta only [x])
    (simp -zeta only [mk_keeps_iff]; apply KeptParts.fold)
    assumption

theorem execTEXT_APPEND_TOKENS_keeps {z : State} {x} {s : State} (hz : Keeps z s) :
    OutKeeps z (execTEXT_APPEND_TOKENS x s) := by
  unfold execTEXT_APPEND_TOKENS
  with_reducible
    apply runSession_keeps
    assumption
    intro _
    intro _
    intro _
    intro _
    split
    apply SlipRes.no_keeps
    assumption
    refine ResKeeps.ite ?_ ?_
    apply SlipRes.no_keeps
    assumption
    split
    apply SlipRes.no_keeps
    refine Keeps.ite ?_ ?_
    apply State.bump_keeps
    assumption
    assumption
    refine ResKeeps.ite ?_ ?_
    apply SlipRes.no_keeps
    assumption
    refine ResKeeps.ite ?_ ?_
    apply State.reviveFor_keeps
    assumption
    refine ResKeeps.ite ?_ ?_
    apply SlipRes.no_keeps
    assumption
    apply ResKeeps.done
    apply State.appendInput_keeps
    assumption

theorem noSession_keeps {z : State} {x} {masks} {s : State} {f : SlipRes} (hz : Keeps z s) (hf : ResKeeps z f) :
    ResKeeps z (noSession x masks s f) := by
  unfold noSession
  with_reducible
    refine ResKeeps.ite ?_ ?_
    apply SlipRes.no_keeps
    assumption
    split
    apply SlipRes.no_keeps
    assumption
    assumption

theorem execTEXT_TOKENISE_keeps {z : State} {x} {s : State} (hz : Keeps z s) :
    OutKeeps z (execTEXT_TOKENISE x s) := by
  unfold execTEXT_TOKENISE
  with_reducible
    apply runSlip_keeps
    assumption
    intro _
    intro _
    apply noSession_keeps
    assumption
    split
    apply SlipRes.no_keeps
    assumption
    split
    apply SlipRes.no_keeps
    refine Keeps.ite ?_ ?_
    apply State.bump_keeps
    assumption
    assumption
    refine ResKeeps.ite ?_ ?_
    apply SlipRes.no_keeps
    assumption
    refine ResKeeps.ite ?_ ?_
    apply ResKeeps.done
    apply State.countFeed_keeps
    assumption
    apply ResKeeps.done
    apply State.countFeed_keeps
    assumption

theorem execTEXT_DETOKENISE_keeps {z : State} {x} {s : State} (hz : Keeps z s) :
    OutKeeps z (execTEXT_DETOKENISE x s) := by
  unfold execTEXT_DETOKENISE
  with_reducible
    apply runSlip_keeps
    assumption
    intro _
    intro _
    apply noSession_keeps
    assumption
    split
    apply SlipRes.no_keeps
    assumption
    split
    apply SlipRes.no_keeps
    assumption
    refine ResKeeps.ite ?_ ?_
    apply SlipRes.no_keeps
    assumption
    apply ResKeeps.done
    apply State.jobOn_keeps
    assumption

theorem execTEXT_TRANSCRIPT_READ_keeps {z : State} {x} {s : State} (hz : Keeps z s) :
    OutKeeps z (execTEXT_TRANSCRIPT_READ x s) := by
  unfold execTEXT_TRANSCRIPT_READ
  with_reducible
    apply runSession_keeps
    assumption
    intro _
    intro _
    intro _
    intro _
    refine ResKeeps.ite ?_ ?_
    apply SlipRes.no_keeps
    assumption
    refine ResKeeps.ite ?_ ?_
    apply SlipRes.no_keeps
    assumption
    refine ResKeeps.ite ?_ ?_
    apply State.reviveRead_keeps
    assumption
    apply ResKeeps.done
    assumption

theorem execSAMP_SET_keeps {z : State} {x} {s : State} (hz : Keeps z s) :
    OutKeeps z (execSAMP_SET x s) := by
  unfold execSAMP_SET
  with_reducible
    refine OutKeeps.ite ?_ ?_
    apply runSlip_keeps
    assumption
    intro _
    intro _
    apply noSession_keeps
    assumption
    refine ResKeeps.ite ?_ ?_
    apply SlipRes.no_keeps
    assumption
    split
    apply SlipRes.no_keeps
    assumption
    refine ResKeeps.ite ?_ ?_
    apply SlipRes.no_keeps
    assumption
    apply ResKeeps.done
    apply State.updTenant_keeps
    assumption
    apply runSession_keeps
    assumption
    intro _
    intro _
    intro _
    intro _
    refine ResKeeps.ite ?_ ?_
    apply SlipRes.no_keeps
    assumption
    refine ResKeeps.ite ?_ ?_
    apply SlipRes.no_keeps
    assumption
    apply ResKeeps.done
    apply State.imageChanged_keeps
    apply State.updSess_keeps
    assumption

theorem execSAMP_SET_STOPS_keeps {z : State} {x} {s : State} (hz : Keeps z s) :
    OutKeeps z (execSAMP_SET_STOPS x s) := by
  unfold execSAMP_SET_STOPS
  with_reducible
    apply runSlip_keeps
    assumption
    intro _
    intro _
    apply noSession_keeps
    assumption
    refine ResKeeps.ite ?_ ?_
    apply SlipRes.no_keeps
    assumption
    split
    apply SlipRes.no_keeps
    assumption
    split
    apply SlipRes.no_keeps
    assumption
    apply ResKeeps.done
    apply State.updTenant_keeps
    assumption

theorem execGRAM_ATTACH_keeps {z : State} {x} {s : State} (hz : Keeps z s) :
    OutKeeps z (execGRAM_ATTACH x s) := by
  unfold execGRAM_ATTACH
  with_reducible
    apply runSession_keeps
    assumption
    intro _
    intro _
    intro _
    intro _
    refine ResKeeps.ite ?_ ?_
    apply SlipRes.no_keeps
    assumption
    refine ResKeeps.ite ?_ ?_
    apply SlipRes.no_keeps
    assumption
    apply ResKeeps.done
    apply State.imageChanged_keeps
    apply State.updSess_keeps
    assumption

theorem execGRAM_DETACH_keeps {z : State} {x} {s : State} (hz : Keeps z s) :
    OutKeeps z (execGRAM_DETACH x s) := by
  unfold execGRAM_DETACH
  with_reducible
    apply runSession_keeps
    assumption
    intro _
    intro _
    intro _
    intro _
    refine ResKeeps.ite ?_ ?_
    apply SlipRes.no_keeps
    assumption
    refine ResKeeps.ite ?_ ?_
    apply SlipRes.no_keeps
    assumption
    apply ResKeeps.done
    apply State.imageChanged_keeps
    apply State.updSess_keeps
    assumption

theorem execCTX_TIMEOUT_keeps {z : State} {acc} {s : State} (hz : Keeps z s) :
    OutKeeps z (execCTX_TIMEOUT acc s) := by
  unfold execCTX_TIMEOUT
  with_reducible
    split
    split
    apply OutKeeps.next
    assumption
    refine OutKeeps.ite ?_ ?_
    apply OutKeeps.next
    assumption
    apply OutKeeps.next
    apply State.appendInput_keeps
    apply State.countFeed_keeps
    apply State.bump_keeps
    (simp -zeta only [mk_keeps_iff]; apply KeptParts.fold)
    assumption
    apply OutKeeps.next
    assumption

theorem execTEXT_SLOT_SEL_keeps {z : State} {value} {s : State} (hz : Keeps z s) :
    OutKeeps z (execTEXT_SLOT_SEL value s) := by
  unfold execTEXT_SLOT_SEL
  with_reducible
    apply OutKeeps.next
    apply foldl_keeps
    apply State.setReg_keeps
    assumption
    intro _
    intro _
    apply State.setReg_keeps

end Sys2Proof.Machine
end

