-- ==== Sys2Proof/Laws/KeepXchgFrame.lean ====
section
/-!
SUPPORT. Every operation and meaning of Machine/XchgFrame.lean leaves the queue of waiting commands as it was and keeps the stores
canonical: for each f, `f_keeps` (Laws/Keeps.lean).
-/

namespace Sys2Proof.Machine

theorem State.delStep_keeps {z : State} {s : State} {id} (hz : Keeps z s) :
    Keeps z (State.delStep s id) := by
  unfold State.delStep
  with_reducible
    ((try lift_lets -underBinder); intro x; refine (fun (hx : Keeps z x) => ?_) ?_; clear_value x)
    refine Keeps.ite ?_ ?_
    apply State.wake_keeps
    assumption
    assumption
    simp -zeta only [x]
    apply State.dropTiles_keeps
    (simp -zeta only [mk_keeps_iff]; apply KeptParts.fold)
    assumption

theorem State.updStep_keeps {z : State} {s : State} {id} {f} (hz : Keeps z s) :
    Keeps z (State.updStep s id f) := by
  unfold State.updStep
  with_reducible
    split
    (simp -zeta only [mk_keeps_iff]; apply KeptParts.fold)
    assumption
    assumption

theorem State.postX_keeps {z : State} {s : State} {id} {conf} {no} {op} {peer} {payload} (hz : Keeps z s) :
    Keeps z (State.postX s id conf no op peer payload) := by
  unfold State.postX
  with_reducible
    refine Keeps.ite ?_ ?_
    apply State.wake_keeps
    assumption
    apply State.sendSlip_keeps
    assumption

theorem State.sendX_keeps {z : State} {s : State} {id} {op} {peer} {payload} (hz : Keeps z s) :
    Keeps z (State.sendX s id op peer payload) := by
  unfold State.sendX
  with_reducible
    split
    assumption
    apply State.postX_keeps
    apply State.updStep_keeps
    assumption

theorem State.roomBeside_keeps {z : State} {s : State} {p} {k} (hz : Keeps z s) :
    Keeps z (State.roomBeside s p k) := by
  unfold State.roomBeside
  with_reducible
    ((try lift_lets -underBinder); intro _)
    ((try lift_lets -underBinder); intro _)
    refine Keeps.ite ?_ ?_
    assumption
    split
    apply State.moveTo_keeps
    assumption
    assumption

theorem State.freshSlot_keeps {z : State} {s : State} {tenant} {acc} {own} (hz : Keeps z s) :
    OptAll (fun p => Keeps z p.2.1) (State.freshSlot s tenant acc own) := by
  unfold State.freshSlot
  with_reducible
    refine OptAll.ite ?_ ?_
    refine OptAll.map (Q := fun p => Keeps z p.2) (State.takeSlot_keeps ?_) ?_
    assumption
    intro _
    intro _
    dsimp only
    assumption
    refine OptAll.ite ?_ ?_
    refine OptAll.map (Q := fun p => Keeps z p.2) (State.takeSlot_keeps ?_) ?_
    apply State.subUsed_keeps
    (simp -zeta only [mk_keeps_iff]; apply KeptParts.fold)
    assumption
    intro _
    intro _
    dsimp only
    assumption
    apply OptAll.none

theorem State.appendSlot_keeps {z s : State} {tenant acc own near} (hz : Keeps z s) :
    OptAll (fun p => Keeps z p.2.1) (State.appendSlot s tenant acc own near) := by
  unfold State.appendSlot
  apply OptAll.ite
  · refine OptAll.map (Q := fun p => Keeps z p.2) (State.takeSlot_keeps (State.subUsed_keeps ?_)) (fun _ h => h)
    exact ⟨hz.parts⟩
  · apply OptAll.ite OptAll.none
    exact OptAll.map (Q := fun p => Keeps z p.2) (State.takeSlot_keeps hz) (fun _ h => h)

theorem State.setPage_keeps {z : State} {s : State} {i} {r} (hz : Keeps z s) :
    Keeps z (State.setPage s i r) := by
  unfold State.setPage
  with_reducible
    apply State.updSess_keeps
    assumption

theorem State.tailPage_keeps {z s : State} {p i layer pos own} (hz : Keeps z s) :
    OptAll (fun p => Keeps z p.2.1) (State.tailPage s p i layer pos own) := by
  unfold State.tailPage
  simp only
  split
  · exact OptAll.some hz
  · refine OptAll.bind (Q := fun p => Keeps z p.2.1) (State.freshSlot_keeps hz) (fun a ha => ?_)
    apply OptAll.ite
    · exact OptAll.map (Q := fun p => Keeps z p.2.1) (State.appendSlot_keeps ha) (fun _ h => by dsimp only; exact State.putImage_keeps h)
    · exact OptAll.some (by dsimp only; exact State.putImage_keeps ha)

theorem State.appendAt_keeps {z s : State} {p i layer pos entry own row} (hz : Keeps z s) :
    OptAll (fun p => Keeps z p.1) (State.appendAt s p i layer pos entry own row) := by
  unfold State.appendAt
  simp only
  refine OptAll.bind (Q := fun p => Keeps z p.2.1) (State.tailPage_keeps hz) (fun a ha => ?_)
  apply OptAll.ite
  · refine OptAll.map (Q := fun p => Keeps z p.2.1) (State.appendSlot_keeps (State.roomBeside_keeps ha)) (fun b hb => ?_)
    apply State.bump_keeps
    apply State.setPage_keeps
    apply State.putImage_keeps
    exact Keeps.ite (State.bumpBy_keeps (State.bumpGen_keeps hb)) (State.bumpGen_keeps hb)
  · refine OptAll.some ?_
    apply State.setPage_keeps
    apply State.putImage_keeps
    exact Keeps.ite (State.bumpBy_keeps ha) ha

theorem State.cutInPlace_keeps {z : State} {s : State} {p} {i} {r} {k} (hz : Keeps z s) :
    Keeps z (State.cutInPlace s p i r k) := by
  unfold State.cutInPlace
  with_reducible
    ((try lift_lets -underBinder); intro _)
    ((try lift_lets -underBinder); intro x; refine (fun (hx : Keeps z x) => ?_) ?_; clear_value x)
    ((try lift_lets -underBinder); intro _)
    ((try lift_lets -underBinder); intro _)
    ((try lift_lets -underBinder); intro _)
    ((try lift_lets -underBinder); intro _)
    ((try lift_lets -underBinder); intro _)
    ((try lift_lets -underBinder); intro _)
    apply State.setPage_keeps
    apply State.putImage_keeps
    assumption
    simp -zeta only [x]
    apply State.bumpGen_keeps
    assumption

theorem State.cutPage_keeps {z : State} {s : State} {p} {i} {r} {k} (hz : Keeps z s) :
    Keeps z (State.cutPage s p i r k) := by
  unfold State.cutPage
  with_reducible
    refine Keeps.ite ?_ ?_
    assumption
    ((try lift_lets -underBinder); intro _)
    ((try lift_lets -underBinder); intro _)
    ((try lift_lets -underBinder); intro _)
    refine Keeps.ite ?_ ?_
    split
    apply State.setPage_keeps
    apply foldl_keeps
    refine Keeps.pair (State.copyTail_keeps ?_) (by assumption)
    assumption
    intro _
    intro _
    intro _
    apply State.dropSlot_keeps
    assumption
    apply State.cutInPlace_keeps
    refine Keeps.pair (State.copyTail_keeps ?_) (by assumption)
    assumption
    apply State.cutInPlace_keeps
    assumption

theorem State.cutKv_keeps {z : State} {s : State} {p} {i} {n} (hz : Keeps z s) :
    Keeps z (State.cutKv s p i n) := by
  unfold State.cutKv
  with_reducible
    apply foldl_keeps
    apply State.updSess_keeps
    apply foldl_keeps
    assumption
    apply State.dropSlot_keeps
    intro _
    intro _
    apply State.cutPage_keeps

theorem State.giveBack_keeps {z : State} {s : State} {tenant} {n} (hz : Keeps z s) :
    Keeps z (State.giveBack s tenant n) := by
  unfold State.giveBack
  with_reducible
    apply State.subUsed_keeps
    (simp -zeta only [mk_keeps_iff]; apply KeptParts.fold)
    assumption

theorem State.reserve_keeps {z : State} {s : State} {tenant} {n} {spare} (hz : Keeps z s) :
    OptAll (Keeps z) (State.reserve s tenant n spare) := by
  unfold State.reserve
  with_reducible
    refine OptAll.ite ?_ ?_
    apply OptAll.none
    apply OptAll.some
    apply State.addUsed_keeps
    (simp -zeta only [mk_keeps_iff]; apply KeptParts.fold)
    assumption

theorem State.dropPrefill_keeps {z : State} {s : State} {i} (hz : Keeps z s) :
    Keeps z (State.dropPrefill s i) := by
  unfold State.dropPrefill
  with_reducible
    split
    apply State.giveBack_keeps
    (simp -zeta only [mk_keeps_iff]; apply KeptParts.fold)
    assumption
    assumption

theorem State.abandonStep_keeps {z : State} {s : State} {id} (hz : Keeps z s) :
    Keeps z (State.abandonStep s id) := by
  unfold State.abandonStep
  with_reducible
    split
    refine Keeps.ite ?_ ?_
    split
    apply foldl_keeps
    apply State.bump_keeps
    apply State.delStep_keeps
    assumption
    intro _
    intro _
    apply State.finish_keeps
    apply State.release_keeps
    apply State.enqueuePrefill_keeps
    split
    apply State.giveBack_keeps
    (simp -zeta only [mk_keeps_iff]; apply KeptParts.fold)
    apply State.updSess_keeps
    apply State.cutKv_keeps
    apply foldl_keeps
    apply State.bump_keeps
    apply State.delStep_keeps
    assumption
    intro _
    intro _
    apply State.finish_keeps
    apply State.updSess_keeps
    apply State.cutKv_keeps
    apply foldl_keeps
    apply State.bump_keeps
    apply State.delStep_keeps
    assumption
    intro _
    intro _
    apply State.finish_keeps
    apply foldl_keeps
    apply foldl_keeps
    apply State.bump_keeps
    apply State.delStep_keeps
    assumption
    intro _
    intro _
    apply State.finish_keeps
    intro _
    intro _
    intro _
    apply State.release_keeps
    refine Keeps.ite ?_ ?_
    apply State.enqueue_keeps
    apply State.updSess_keeps
    apply State.giveBack_keeps
    apply State.cutKv_keeps
    assumption
    apply State.updSess_keeps
    apply State.giveBack_keeps
    apply State.cutKv_keeps
    assumption
    assumption

theorem State.abandonSteps_keeps {z : State} {s : State} {part} (hz : Keeps z s) :
    Keeps z (State.abandonSteps s part) := by
  unfold State.abandonSteps
  with_reducible
    apply foldl_keeps
    assumption
    intro _
    intro _
    apply State.abandonStep_keeps

theorem State.openStep_keeps {z : State} {s : State} {p} {prefill} {rows} (hz : Keeps z s) :
    Keeps z (State.openStep s p prefill rows) := by
  unfold State.openStep
  with_reducible
    apply foldl_keeps
    apply foldl_keeps
    (simp -zeta only [mk_keeps_iff]; apply KeptParts.fold)
    assumption
    intro _
    intro _
    apply State.updSess_keeps
    intro _
    intro _
    apply State.sendX_keeps

theorem State.makeRoom_keeps {z : State} {s : State} {i} {n} (hz : Keeps z s) :
    Keeps z (State.makeRoom s i n) := by
  unfold State.makeRoom
  with_reducible
    ((try lift_lets -underBinder); intro _)
    refine Keeps.ite ?_ ?_
    assumption
    refine Keeps.ite ?_ ?_
    apply State.victims_keeps
    assumption
    apply State.watermark_keeps
    assumption

theorem State.takeToken'_keeps {z : State} {s : State} {p} {r} {tok} {config} (hz : Keeps z s) :
    Keeps z (State.takeToken' s p r tok config) := by
  unfold State.takeToken'
  with_reducible
    ((try lift_lets -underBinder); intro _)
    ((try lift_lets -underBinder); intro _)
    ((try lift_lets -underBinder); intro _)
    ((try lift_lets -underBinder); intro _)
    ((try lift_lets -underBinder); intro _)
    ((try lift_lets -underBinder); intro x; simp -zeta only [x])
    ((try lift_lets -underBinder); intro _)
    ((try lift_lets -underBinder); intro _)
    ((try lift_lets -underBinder); intro _)
    ((try lift_lets -underBinder); intro _)
    ((try lift_lets -underBinder); intro _)
    ((try lift_lets -underBinder); intro _)
    ((try lift_lets -underBinder); intro _)
    ((try lift_lets -underBinder); intro x; refine (fun (hx : Keeps z x) => ?_) ?_; clear_value x)
    ((try lift_lets -underBinder); intro x; refine (fun (hx : Keeps z x) => ?_) ?_; clear_value x)
    ((try lift_lets -underBinder); intro x; refine (fun (hx : Keeps z x) => ?_) ?_; clear_value x)
    ((try lift_lets -underBinder); intro x; refine (fun (hx : Keeps z x) => ?_) ?_; clear_value x)
    ((try lift_lets -underBinder); intro x; simp -zeta only [x])
    refine Keeps.ite ?_ ?_
    apply State.deliver_keeps
    assumption
    refine Keeps.ite ?_ ?_
    apply State.endRequest_keeps
    apply State.deliver_keeps
    assumption
    apply State.toDecode_keeps
    apply State.deliver_keeps
    assumption
    simp -zeta only [x]
    refine Keeps.ite ?_ ?_
    apply State.bump_keeps
    assumption
    assumption
    simp -zeta only [x]
    apply State.bump_keeps
    assumption
    simp -zeta only [x]
    apply State.tally_keeps
    apply State.charge_keeps
    apply State.chargeLog_keeps
    assumption
    simp -zeta only [x]
    apply State.updSess_keeps
    assumption

theorem State.finishRow_keeps {z : State} {s : State} {p} {first} {r} (hz : Keeps z s) :
    Keeps z (State.finishRow s p first r) := by
  unfold State.finishRow
  with_reducible
    ((try lift_lets -underBinder); intro _)
    ((try lift_lets -underBinder); intro x; refine (fun (hx : Keeps z x) => ?_) ?_; clear_value x)
    ((try lift_lets -underBinder); intro _)
    ((try lift_lets -underBinder); intro x; refine (fun (hx : Keeps z x) => ?_) ?_; clear_value x)
    apply State.release_keeps
    assumption
    simp -zeta only [x]
    refine Keeps.ite ?_ ?_
    apply State.endWithout_keeps
    assumption
    split
    assumption
    ((try lift_lets -underBinder); intro x; refine (fun (hx : Keeps z x) => ?_) ?_; clear_value x)
    ((try lift_lets -underBinder); intro x; refine (fun (hx : Keeps z x) => ?_) ?_; clear_value x)
    split
    ((try lift_lets -underBinder); intro x; refine (fun (hx : Keeps z x) => ?_) ?_; clear_value x)
    ((try lift_lets -underBinder); intro x; refine (fun (hx : Keeps z x) => ?_) ?_; clear_value x)
    apply State.endWithout_keeps
    assumption
    simp -zeta only [x]
    refine Keeps.ite ?_ ?_
    apply State.bump_keeps
    assumption
    assumption
    simp -zeta only [x]
    refine Keeps.ite ?_ ?_
    apply State.bump_keeps
    assumption
    assumption
    apply State.takeToken'_keeps
    apply State.jobOn_keeps
    assumption
    simp -zeta only [x]
    apply State.updSess_keeps
    assumption
    simp -zeta only [x]
    refine Keeps.ite ?_ ?_
    apply State.jobOn_keeps
    assumption
    assumption
    simp -zeta only [x]
    apply State.updSess_keeps
    assumption

theorem State.finishDecode_keeps {z : State} {s : State} {p} {id} (hz : Keeps z s) :
    Keeps z (State.finishDecode s p id) := by
  unfold State.finishDecode
  with_reducible
    split
    assumption
    ((try lift_lets -underBinder); intro x; refine (fun (hx : Keeps z x) => ?_) ?_; clear_value x)
    ((try lift_lets -underBinder); intro x; refine (fun (hx : Keeps z x) => ?_) ?_; clear_value x)
    ((try lift_lets -underBinder); intro _)
    ((try lift_lets -underBinder); intro x; refine (fun (hx : Keeps z x) => ?_) ?_; clear_value x)
    ((try lift_lets -underBinder); intro x; refine (fun (hx : Keeps z x) => ?_) ?_; clear_value x)
    ((try lift_lets -underBinder); intro _)
    apply State.watermark_keeps
    apply foldl_keeps
    assumption
    intro _
    intro _
    intro _
    apply State.flushRing_keeps
    assumption
    simp -zeta only [x]
    apply foldl_keeps
    assumption
    intro _
    intro _
    intro _
    apply State.finishRow_keeps
    assumption
    simp -zeta only [x]
    apply State.queueTiles_keeps
    assumption
    simp -zeta only [x]
    apply foldl_keeps
    assumption
    intro _
    intro _
    intro _
    apply State.updSess_keeps
    apply State.giveBack_keeps
    assumption
    simp -zeta only [x]
    apply State.delStep_keeps
    assumption

theorem State.finishChunk_keeps {z : State} {s : State} {p} {id} (hz : Keeps z s) :
    Keeps z (State.finishChunk s p id) := by
  unfold State.finishChunk
  with_reducible
    split
    assumption
    split
    apply State.delStep_keeps
    assumption
    ((try lift_lets -underBinder); intro _)
    ((try lift_lets -underBinder); intro x; refine (fun (hx : Keeps z x) => ?_) ?_; clear_value x)
    ((try lift_lets -underBinder); intro x; refine (fun (hx : Keeps z x) => ?_) ?_; clear_value x)
    ((try lift_lets -underBinder); intro _)
    split
    refine Keeps.ite ?_ ?_
    apply State.release_keeps
    apply State.reviveDone_keeps
    apply State.dropPrefill_keeps
    assumption
    apply State.release_keeps
    apply State.enqueueTail_keeps
    assumption
    refine Keeps.ite ?_ ?_
    apply State.release_keeps
    apply State.enqueuePrefill_keeps
    assumption
    ((try lift_lets -underBinder); intro _)
    ((try lift_lets -underBinder); intro x; refine (fun (hx : Keeps z x) => ?_) ?_; clear_value x)
    ((try lift_lets -underBinder); intro x; refine (fun (hx : Keeps z x) => ?_) ?_; clear_value x)
    apply State.watermark_keeps
    refine Keeps.ite ?_ ?_
    apply State.flushRing_keeps
    assumption
    assumption
    simp -zeta only [x]
    apply State.finishRow_keeps
    apply State.dropPrefill_keeps
    assumption
    simp -zeta only [x]
    apply State.queueTiles_keeps
    assumption
    simp -zeta only [x]
    apply State.updSess_keeps
    assumption
    simp -zeta only [x]
    apply State.delStep_keeps
    assumption

end Sys2Proof.Machine
end

