-- ==== Sys2Proof/Laws/KeepCkptFrame.lean ====
section
/-!
SUPPORT. Every operation and meaning of Machine/CkptFrame.lean leaves the queue of waiting commands as it was and keeps the stores
canonical: for each f, `f_keeps` (Laws/Keeps.lean).
-/

namespace Sys2Proof.Machine

theorem State.updCkpt_keeps {z : State} {s : State} {f} (hz : Keeps z s) :
    Keeps z (State.updCkpt s f) := by
  unfold State.updCkpt
  with_reducible
    (simp -zeta only [mk_keeps_iff]; apply KeptParts.fold)
    assumption

theorem State.updRun_keeps {z : State} {s : State} {f} (hz : Keeps z s) :
    Keeps z (State.updRun s f) := by
  unfold State.updRun
  with_reducible
    apply State.updCkpt_keeps
    assumption

theorem State.setPhase_keeps {z : State} {s : State} {p} (hz : Keeps z s) :
    Keeps z (State.setPhase s p) := by
  unfold State.setPhase
  with_reducible
    apply State.setFld_keeps
    assumption

theorem State.beginCkpt_keeps {z : State} {s : State} {cause} (hz : Keeps z s) :
    Keeps z (State.beginCkpt s cause) := by
  unfold State.beginCkpt
  with_reducible
    apply State.wake_keeps
    apply State.setFld_keeps
    apply State.setPhase_keeps
    apply State.bump_keeps
    apply State.takeLock_keeps
    apply State.updCkpt_keeps
    assumption

theorem State.trigger_keeps {z : State} {s : State} {i} (hz : Keeps z s) :
    Keeps z (State.trigger s i) := by
  unfold State.trigger
  with_reducible
    refine Keeps.ite ?_ ?_
    assumption
    refine Keeps.ite ?_ ?_
    apply State.beginCkpt_keeps
    assumption
    apply State.bump_keeps
    apply State.updCkpt_keeps
    assumption

theorem State.mirrorCheck_keeps {z : State} {s : State} (hz : Keeps z s) :
    Keeps z (State.mirrorCheck s) := by
  unfold State.mirrorCheck
  with_reducible
    refine Keeps.ite ?_ ?_
    assumption
    apply State.trigger_keeps
    apply State.setFld_keeps
    apply State.setFld_keeps
    apply State.setFld_keeps
    apply State.setFld_keeps
    assumption

theorem State.answerTakes_keeps {z : State} {s : State} {all} {a} (hz : Keeps z s) :
    Keeps z (State.answerTakes s all a) := by
  unfold State.answerTakes
  with_reducible
    apply foldl_keeps
    assumption
    intro _
    intro _
    apply State.finish_keeps

theorem State.unguard_keeps {z : State} {s : State} (hz : Keeps z s) :
    Keeps z (State.unguard s) := by
  unfold State.unguard
  with_reducible
    apply State.updCkpt_keeps
    assumption

theorem State.endCkpt_keeps {z : State} {s : State} (hz : Keeps z s) :
    Keeps z (State.endCkpt s) := by
  unfold State.endCkpt
  with_reducible
    apply State.setReg_keeps
    apply State.setFld_keeps
    apply State.setPhase_keeps
    apply State.dropLocks_keeps
    apply State.unguard_keeps
    apply State.updCkpt_keeps
    assumption

theorem State.abandonCkpt_keeps {z : State} {s : State} {cause} {a} (hz : Keeps z s) :
    Keeps z (State.abandonCkpt s cause a) := by
  unfold State.abandonCkpt
  with_reducible
    apply State.endCkpt_keeps
    apply State.answerTakes_keeps
    apply State.bump_keeps
    refine Keeps.ite ?_ ?_
    assumption
    apply State.setFld_keeps
    assumption

theorem State.pressFault_keeps {z : State} {s : State} (hz : Keeps z s) :
    Keeps z (State.pressFault s) := by
  unfold State.pressFault
  with_reducible
    refine Keeps.ite ?_ ?_
    apply State.setFld_keeps
    apply State.updCkpt_keeps
    assumption
    apply State.updCkpt_keeps
    assumption

theorem State.auditFailed_keeps {z : State} {s : State} {k} (hz : Keeps z s) :
    Keeps z (State.auditFailed s k) := by
  unfold State.auditFailed
  with_reducible
    split
    apply State.wake_keeps
    assumption
    assumption

theorem State.mirrorSend_keeps {z : State} {s : State} {dev} (hz : Keeps z s) :
    Keeps z (State.mirrorSend s dev) := by
  unfold State.mirrorSend
  with_reducible
    split
    assumption
    split
    assumption
    refine Keeps.ite ?_ ?_
    apply State.sendDev_keeps
    apply State.updRun_keeps
    assumption
    refine Keeps.ite ?_ ?_
    apply State.auditFailed_keeps
    assumption
    apply State.sendDev_keeps
    apply State.updRun_keeps
    assumption

theorem State.beginMirror_keeps {z : State} {s : State} (hz : Keeps z s) :
    Keeps z (State.beginMirror s) := by
  unfold State.beginMirror
  with_reducible
    apply foldl_keeps
    apply State.setPhase_keeps
    apply State.updRun_keeps
    assumption
    apply State.mirrorSend_keeps

theorem State.sealCkpt_keeps {z : State} {s : State} (hz : Keeps z s) :
    Keeps z (State.sealCkpt s) := by
  unfold State.sealCkpt
  with_reducible
    split
    assumption
    apply State.answerTakes_keeps
    apply State.unguard_keeps
    apply State.bump_keeps
    apply State.setFld_keeps
    apply State.setFld_keeps
    apply State.setFld_keeps
    apply State.setFld_keeps
    apply State.setFld_keeps
    refine Keeps.ite ?_ ?_
    apply State.setFld_keeps
    apply State.updCkpt_keeps
    assumption
    apply State.updCkpt_keeps
    assumption

theorem State.mirrorEnd_keeps {z : State} {s : State} (hz : Keeps z s) :
    Keeps z (State.mirrorEnd s) := by
  unfold State.mirrorEnd
  with_reducible
    split
    assumption
    refine Keeps.ite ?_ ?_
    assumption
    refine Keeps.ite ?_ ?_
    apply State.endCkpt_keeps
    refine Keeps.ite ?_ ?_
    apply State.bump_keeps
    apply State.setFld_keeps
    apply State.updCkpt_keeps
    assumption
    refine Keeps.ite ?_ ?_
    assumption
    apply State.bump_keeps
    assumption
    refine Keeps.ite ?_ ?_
    apply State.endCkpt_keeps
    apply State.bump_keeps
    apply State.setFld_keeps
    apply State.sealCkpt_keeps
    apply State.updCkpt_keeps
    assumption
    apply State.abandonCkpt_keeps
    refine Keeps.ite ?_ ?_
    assumption
    apply State.bump_keeps
    assumption

theorem State.mirrorLost_keeps {z : State} {s : State} {dev} (hz : Keeps z s) :
    Keeps z (State.mirrorLost s dev) := by
  unfold State.mirrorLost
  with_reducible
    split
    assumption
    refine Keeps.ite ?_ ?_
    apply State.mirrorEnd_keeps
    apply State.updRun_keeps
    assumption
    assumption

theorem State.tooLarge_keeps {z : State} {s : State} {k} (hz : Keeps z s) :
    Keeps z (State.tooLarge s k) := by
  unfold State.tooLarge
  with_reducible
    apply State.updCkpt_keeps
    apply foldl_keeps
    apply State.abandonCkpt_keeps
    assumption
    intro _
    intro _
    intro _
    split
    refine Keeps.ite ?_ ?_
    apply State.tryCommit_keeps
    assumption
    assumption
    assumption

theorem State.doBarrier_keeps {z : State} {s : State} (hz : Keeps z s) :
    Keeps z (State.doBarrier s) := by
  unfold State.doBarrier
  with_reducible
    refine Keeps.ite ?_ ?_
    assumption
    refine Keeps.ite ?_ ?_
    apply State.tooLarge_keeps
    apply State.setFld_keeps
    apply State.setFld_keeps
    apply State.setPhase_keeps
    apply State.release_keeps
    apply State.answerTakes_keeps
    apply State.updCkpt_keeps
    apply State.setFld_keeps
    apply State.maxFld_keeps
    apply State.setFld_keeps
    assumption
    refine Keeps.ite ?_ ?_
    apply State.emit_keeps
    apply State.setFld_keeps
    apply State.setFld_keeps
    apply State.setPhase_keeps
    apply State.release_keeps
    apply State.answerTakes_keeps
    apply State.updCkpt_keeps
    apply State.setFld_keeps
    apply State.maxFld_keeps
    apply State.setFld_keeps
    assumption
    apply State.mirrorEnd_keeps
    apply State.beginMirror_keeps
    apply State.setFld_keeps
    apply State.setFld_keeps
    apply State.setPhase_keeps
    apply State.release_keeps
    apply State.answerTakes_keeps
    apply State.updCkpt_keeps
    apply State.setFld_keeps
    apply State.maxFld_keeps
    apply State.setFld_keeps
    assumption

theorem State.pressStep_keeps {z : State} {s : State} {n} (hz : Keeps z s) :
    Keeps z (State.pressStep s n) := by
  unfold State.pressStep
  with_reducible
    split
    assumption
    refine Keeps.ite ?_ ?_
    assumption
    refine Keeps.ite ?_ ?_
    apply State.emit_keeps
    apply State.updCkpt_keeps
    assumption
    refine Keeps.ite ?_ ?_
    refine Keeps.ite ?_ ?_
    apply State.emit_keeps
    apply State.setPhase_keeps
    apply State.updRun_keeps
    apply State.setFld_keeps
    apply State.updRun_keeps
    assumption
    apply State.setFld_keeps
    apply State.updRun_keeps
    assumption
    refine Keeps.ite ?_ ?_
    apply State.auditFailed_keeps
    assumption
    refine Keeps.ite ?_ ?_
    apply State.emit_keeps
    apply State.updRun_keeps
    assumption
    apply State.mirrorEnd_keeps
    apply State.beginMirror_keeps
    apply State.sealCkpt_keeps
    assumption

theorem State.pressError_keeps {z : State} {s : State} (hz : Keeps z s) :
    Keeps z (State.pressError s) := by
  unfold State.pressError
  with_reducible
    split
    assumption
    refine Keeps.ite ?_ ?_
    assumption
    apply State.abandonCkpt_keeps
    apply State.pressFault_keeps
    assumption

end Sys2Proof.Machine
end

