-- ==== Sys2Proof/Laws/KeepTier.lean ====
section
/-!
SUPPORT. Every operation and meaning of Machine/Tier.lean leaves the queue of waiting commands as it was and keeps the stores
canonical: for each f, `f_keeps` (Laws/Keeps.lean).
-/

namespace Sys2Proof.Machine

theorem State.setLimit_keeps {z : State} {s : State} {t} {tier} {limit} (hz : Keeps z s) :
    Keeps z (State.setLimit s t tier limit) := by
  unfold State.setLimit
  with_reducible
    apply State.updTenant_keeps
    assumption

theorem execTIER_SET_QUOTA_keeps {z : State} {x} {s : State} (hz : Keeps z s) :
    OutKeeps z (execTIER_SET_QUOTA x s) := by
  unfold execTIER_SET_QUOTA
  with_reducible
    apply runTier_keeps
    assumption
    intro _
    intro _
    refine ResKeeps.ite ?_ ?_
    apply SlipRes.no_keeps
    assumption
    split
    apply SlipRes.no_keeps
    assumption
    refine ResKeeps.ite ?_ ?_
    apply SlipRes.no_keeps
    assumption
    apply ResKeeps.done
    apply State.setLimit_keeps
    assumption

theorem execTIER_QUERY_keeps {z : State} {x} {s : State} (hz : Keeps z s) :
    OutKeeps z (execTIER_QUERY x s) := by
  unfold execTIER_QUERY
  with_reducible
    apply runTier_keeps
    assumption
    intro _
    intro _
    refine ResKeeps.ite ?_ ?_
    apply SlipRes.no_keeps
    assumption
    split
    apply SlipRes.no_keeps
    assumption
    ((try lift_lets -underBinder); intro _)
    ((try lift_lets -underBinder); intro _)
    apply ResKeeps.done
    (simp -zeta only [mk_keeps_iff]; apply KeptParts.fold)
    assumption

theorem execTIER_LEND_HOST_keeps {z : State} {x} {s : State} (hz : Keeps z s) :
    OutKeeps z (execTIER_LEND_HOST x s) := by
  unfold execTIER_LEND_HOST
  with_reducible
    apply runTier_keeps
    assumption
    intro _
    intro _
    ((try lift_lets -underBinder); intro _)
    ((try lift_lets -underBinder); intro _)
    ((try lift_lets -underBinder); intro _)
    refine ResKeeps.ite ?_ ?_
    apply SlipRes.no_keeps
    assumption
    split
    apply SlipRes.no_keeps
    assumption
    refine ResKeeps.ite ?_ ?_
    apply SlipRes.no_keeps
    assumption
    refine ResKeeps.ite ?_ ?_
    apply SlipRes.no_keeps
    assumption
    refine ResKeeps.ite ?_ ?_
    apply SlipRes.no_keeps
    assumption
    split
    apply SlipRes.no_keeps
    assumption
    ((try lift_lets -underBinder); intro x; refine (fun (hx : Keeps z x) => ?_) ?_; clear_value x)
    apply ResKeeps.done
    (simp -zeta only [mk_keeps_iff]; apply KeptParts.fold)
    assumption
    simp -zeta only [x]
    apply State.shiftT3_keeps
    assumption

theorem State.moveDowns_keeps {z : State} {s : State} {i} {inRegion} (hz : Keeps z s) :
    Keeps z (State.moveDowns s i inRegion) := by
  unfold State.moveDowns
  with_reducible
    apply foldl_keeps
    assumption
    intro _
    intro _
    intro _
    ((try lift_lets -underBinder); intro x; simp -zeta only [x])
    ((try lift_lets -underBinder); intro x; simp -zeta only [x])
    split
    assumption
    apply State.updSess_keeps
    apply State.guardRun_keeps
    refine Keeps.ite ?_ ?_
    apply State.writeT3_keeps
    assumption
    apply State.addUsed_keeps
    apply State.subUsed_keeps
    assumption

theorem State.clearRegion_keeps {z : State} {s : State} {n} (hz : Keeps z s) :
    Keeps z (State.clearRegion s n) := by
  unfold State.clearRegion
  with_reducible
    apply foldl_keeps
    apply foldl_keeps
    apply foldl_keeps
    assumption
    intro _
    intro _
    intro _
    split
    apply State.writeT3_keeps
    ((try lift_lets -underBinder); intro x; refine (fun (hx : Keeps z x) => ?_) ?_; clear_value x)
    (simp -zeta only [mk_keeps_iff]; apply KeptParts.fold)
    assumption
    apply State.guardRun_keeps
    assumption
    assumption
    intro _
    intro _
    intro _
    split
    refine Keeps.ite ?_ ?_
    apply State.beginDown_keeps
    assumption
    assumption
    assumption
    intro _
    intro _
    intro _
    refine Keeps.ite ?_ ?_
    assumption
    apply State.moveDowns_keeps
    assumption

theorem State.clearAgain_keeps {z : State} {s : State} (hz : Keeps z s) :
    Keeps z (State.clearAgain s) := by
  unfold State.clearAgain
  with_reducible
    apply foldl_keeps
    assumption
    intro _
    intro _
    intro _
    apply State.clearRegion_keeps
    assumption

theorem execTIER_RECLAIM_HOST_keeps {z : State} {x} {s : State} (hz : Keeps z s) :
    OutKeeps z (execTIER_RECLAIM_HOST x s) := by
  unfold execTIER_RECLAIM_HOST
  with_reducible
    apply runTier_keeps
    assumption
    intro _
    intro _
    refine ResKeeps.ite ?_ ?_
    apply SlipRes.no_keeps
    assumption
    split
    apply SlipRes.no_keeps
    assumption
    split
    apply SlipRes.no_keeps
    assumption
    split
    apply State.lockRefused_keeps
    assumption
    ((try lift_lets -underBinder); intro x; refine (fun (hx : Keeps z x) => ?_) ?_; clear_value x)
    refine ResKeeps.ite ?_ ?_
    apply ResKeeps.done
    apply State.reclaimCheck_keeps
    assumption
    apply ResKeeps.wait
    apply State.takeLock_keeps
    assumption
    simp -zeta only [x]
    apply State.clearRegion_keeps
    (simp -zeta only [mk_keeps_iff]; apply KeptParts.fold)
    assumption

theorem execHOST_RECLAIM_TIMEOUT_keeps {z : State} {region} {s : State} (hz : Keeps z s) :
    OutKeeps z (execHOST_RECLAIM_TIMEOUT region s) := by
  unfold execHOST_RECLAIM_TIMEOUT
  with_reducible
    apply OutKeeps.next
    apply foldl_keeps
    apply State.dropLocks_keeps
    apply State.reclaimCheck_keeps
    assumption
    intro _
    intro _
    apply State.finish_keeps

theorem execTIER_SHELF_PUT_keeps {z : State} {x} {s : State} (hz : Keeps z s) :
    OutKeeps z (execTIER_SHELF_PUT x s) := by
  unfold execTIER_SHELF_PUT
  with_reducible
    apply runTier_keeps
    assumption
    intro _
    intro _
    split
    apply SlipRes.no_keeps
    assumption
    split
    apply SlipRes.no_keeps
    assumption
    ((try lift_lets -underBinder); intro _)
    ((try lift_lets -underBinder); intro _)
    ((try lift_lets -underBinder); intro _)
    ((try lift_lets -underBinder); intro _)
    ((try lift_lets -underBinder); intro _)
    ((try lift_lets -underBinder); intro _)
    ((try lift_lets -underBinder); intro _)
    refine ResKeeps.ite ?_ ?_
    apply SlipRes.no_keeps
    assumption
    refine ResKeeps.ite ?_ ?_
    apply SlipRes.no_keeps
    assumption
    refine ResKeeps.ite ?_ ?_
    apply SlipRes.no_keeps
    assumption
    refine ResKeeps.ite ?_ ?_
    apply SlipRes.no_keeps
    assumption
    refine ResKeeps.ite ?_ ?_
    apply ResKeeps.done
    assumption
    refine ResKeeps.ite ?_ ?_
    apply SlipRes.no_keeps
    assumption
    split
    refine ResKeeps.ite ?_ ?_
    apply SlipRes.no_keeps
    assumption
    ((try lift_lets -underBinder); intro _)
    ((try lift_lets -underBinder); intro x; refine (fun (hx : Keeps z x) => ?_) ?_; clear_value x)
    apply ResKeeps.done
    (simp -zeta only [mk_keeps_iff]; apply KeptParts.fold)
    assumption
    simp -zeta only [x]
    apply State.guardRun_keeps
    assumption
    apply SlipRes.no_keeps
    assumption

theorem execTIER_SHELF_GET_keeps {z : State} {x} {s : State} (hz : Keeps z s) :
    OutKeeps z (execTIER_SHELF_GET x s) := by
  unfold execTIER_SHELF_GET
  with_reducible
    apply runTier_keeps
    assumption
    intro _
    intro _
    split
    apply SlipRes.no_keeps
    assumption
    ((try lift_lets -underBinder); intro _)
    ((try lift_lets -underBinder); intro _)
    split
    apply SlipRes.no_keeps
    assumption
    refine ResKeeps.ite ?_ ?_
    apply SlipRes.no_keeps
    apply State.bump_keeps
    assumption
    apply ResKeeps.done
    assumption

theorem execTIER_SHELF_DROP_keeps {z : State} {x} {s : State} (hz : Keeps z s) :
    OutKeeps z (execTIER_SHELF_DROP x s) := by
  unfold execTIER_SHELF_DROP
  with_reducible
    apply runTier_keeps
    assumption
    intro _
    intro _
    split
    apply SlipRes.no_keeps
    assumption
    ((try lift_lets -underBinder); intro _)
    ((try lift_lets -underBinder); intro _)
    refine ResKeeps.ite ?_ ?_
    apply SlipRes.no_keeps
    assumption
    apply ResKeeps.done
    (simp -zeta only [mk_keeps_iff]; apply KeptParts.fold)
    assumption

theorem execEXPIRY_TTL_WAIT_keeps {z : State} {acc} {s : State} (hz : Keeps z s) :
    OutKeeps z (execEXPIRY_TTL_WAIT acc s) := by
  unfold execEXPIRY_TTL_WAIT
  with_reducible
    split
    apply OutKeeps.next
    assumption
    refine OutKeeps.ite ?_ ?_
    apply OutKeeps.next
    assumption
    refine OutKeeps.ite ?_ ?_
    apply OutKeeps.next
    apply State.bump_keeps
    apply State.closeSess_keeps
    assumption
    refine OutKeeps.ite ?_ ?_
    apply OutKeeps.next
    assumption
    ((try lift_lets -underBinder); intro x; simp -zeta only [x])
    refine OutKeeps.ite ?_ ?_
    apply OutKeeps.next
    assumption
    apply OutKeeps.next
    apply State.bump_keeps
    apply State.parkFirst_keeps
    apply State.abandonCommit_keeps
    assumption

theorem execEXPIRY_TIER_keeps {z : State} {acc} {s : State} (hz : Keeps z s) :
    OutKeeps z (execEXPIRY_TIER acc s) := by
  unfold execEXPIRY_TIER
  with_reducible
    split
    apply OutKeeps.next
    assumption
    refine OutKeeps.ite ?_ ?_
    apply OutKeeps.next
    assumption
    apply OutKeeps.next
    apply State.bump_keeps
    apply State.beginDown_keeps
    assumption

theorem execEXPIRY_TRANSCRIPT_keeps {z : State} {acc} {s : State} (hz : Keeps z s) :
    OutKeeps z (execEXPIRY_TRANSCRIPT acc s) := by
  unfold execEXPIRY_TRANSCRIPT
  with_reducible
    split
    apply OutKeeps.next
    assumption
    refine OutKeeps.ite ?_ ?_
    apply OutKeeps.next
    apply State.bump_keeps
    apply State.reclaimCheck_keeps
    apply State.closeSess_keeps
    assumption
    apply OutKeeps.next
    assumption

theorem execCLOSED_HOLD_EXPIRY_keeps {z : State} {acc} {s : State} (hz : Keeps z s) :
    OutKeeps z (execCLOSED_HOLD_EXPIRY acc s) := by
  unfold execCLOSED_HOLD_EXPIRY
  with_reducible
    split
    apply OutKeeps.next
    assumption
    refine OutKeeps.ite ?_ ?_
    apply OutKeeps.next
    apply State.freeSess_keeps
    assumption
    apply OutKeeps.next
    assumption

theorem execCOMMIT_PERIOD_keeps {z : State} {part} {s : State} (hz : Keeps z s) :
    OutKeeps z (execCOMMIT_PERIOD part s) := by
  unfold execCOMMIT_PERIOD
  with_reducible
    split
    apply OutKeeps.next
    assumption
    refine OutKeeps.ite ?_ ?_
    apply OutKeeps.next
    assumption
    apply OutKeeps.next
    apply foldl_keeps
    assumption
    intro _
    intro _
    intro _
    split
    assumption
    refine Keeps.ite ?_ ?_
    apply State.bump_keeps
    assumption
    apply State.tryCommit_keeps
    assumption

theorem State.recopy_keeps {z : State} {s : State} {i} {p} {c} (hz : Keeps z s) :
    Keeps z (State.recopy s i p c).1 := by
  unfold State.recopy
  with_reducible
    ((try lift_lets -underBinder); intro x; simp -zeta only [x])
    ((try lift_lets -underBinder); intro x; simp -zeta only [x])
    ((try lift_lets -underBinder); intro x; refine (fun (hx : Keeps z x) => ?_) ?_; clear_value x)
    ((try lift_lets -underBinder); intro x; refine (fun (hx : Keeps z x) => ?_) ?_; clear_value x)
    split
    assumption
    assumption
    apply foldl_keeps
    assumption
    intro _
    intro _
    intro _
    split
    assumption
    ((try lift_lets -underBinder); intro x; simp -zeta only [x])
    ((try lift_lets -underBinder); intro x; simp -zeta only [x])
    split
    ((try lift_lets -underBinder); intro x; simp -zeta only [x])
    (simp -zeta only [mk_keeps_iff]; apply KeptParts.fold)
    assumption
    apply State.writeBoth_keeps
    ((try lift_lets -underBinder); intro x; simp -zeta only [x])
    (simp -zeta only [mk_keeps_iff]; apply KeptParts.fold)
    assumption
    apply State.bumpBy_keeps
    assumption

theorem State.commitStep_keeps {z : State} {s : State} {i} (hz : Keeps z s) :
    Keeps z (State.commitStep s i) := by
  unfold State.commitStep
  with_reducible
    split
    refine Keeps.ite ?_ ?_
    assumption
    refine Keeps.ite ?_ ?_
    apply State.reclaimCheck_keeps
    apply State.clearAgain_keeps
    apply State.passOn_keeps
    apply State.commitDone_keeps
    assumption
    ((try lift_lets -underBinder); intro x; simp -zeta only [x])
    refine Keeps.ite ?_ ?_
    apply State.recopy_keeps
    assumption
    apply State.writeHead_keeps
    apply State.recopy_keeps
    assumption
    assumption

theorem State.holderFull_keeps {z : State} {s : State} {i} {c} (hz : Keeps z s) :
    Keeps z (State.holderFull s i c) := by
  unfold State.holderFull
  with_reducible
    ((try lift_lets -underBinder); intro x; refine (fun (hx : Keeps z x) => ?_) ?_; clear_value x)
    ((try lift_lets -underBinder); intro x; refine (fun (hx : Keeps z x) => ?_) ?_; clear_value x)
    refine Keeps.ite ?_ ?_
    apply State.bump_keeps
    assumption
    refine Keeps.ite ?_ ?_
    refine Keeps.ite ?_ ?_
    assumption
    apply State.beginDown_keeps
    assumption
    apply State.parkRefused_keeps
    assumption
    simp -zeta only [x]
    apply State.bump_keeps
    assumption
    simp -zeta only [x]
    apply State.abandonCommit_keeps
    assumption

theorem execHOLDER_ACK_keeps {z : State} {acc} {dev} {objs} {status} {detail} {s : State} (hz : Keeps z s) :
    OutKeeps z (execHOLDER_ACK acc dev objs status detail s) := by
  unfold execHOLDER_ACK
  with_reducible
    split
    apply OutKeeps.next
    assumption
    split
    apply OutKeeps.next
    assumption
    refine OutKeeps.ite ?_ ?_
    apply OutKeeps.next
    assumption
    refine OutKeeps.ite ?_ ?_
    apply OutKeeps.next
    apply State.commitStep_keeps
    apply State.bumpBy_keeps
    (simp -zeta only [mk_keeps_iff]; apply KeptParts.fold)
    assumption
    refine OutKeeps.ite ?_ ?_
    apply OutKeeps.next
    apply State.holderFull_keeps
    assumption
    apply OutKeeps.next
    apply State.holderLost_keeps
    assumption

theorem execGET_TIMEOUT_keeps {z : State} {dev} {s : State} (hz : Keeps z s) :
    OutKeeps z (execGET_TIMEOUT dev s) := by
  unfold execGET_TIMEOUT
  with_reducible
    apply OutKeeps.next
    apply State.mirrorLost_keeps
    apply State.holderLost_keeps
    apply foldl_keeps
    assumption
    intro _
    intro _
    intro _
    split
    apply State.fetchFailed_keeps
    assumption
    assumption

theorem execHOLDER_NO_SLOTS_TIMEOUT_keeps {z : State} {dev} {s : State} (hz : Keeps z s) :
    OutKeeps z (execHOLDER_NO_SLOTS_TIMEOUT dev s) := by
  unfold execHOLDER_NO_SLOTS_TIMEOUT
  with_reducible
    apply OutKeeps.next
    apply State.holderLost_keeps
    assumption

theorem execREVIVE_HEAD_ARRIVAL_keeps {z : State} {acc} {dev} {obj} {s : State} (hz : Keeps z s) :
    OutKeeps z (execREVIVE_HEAD_ARRIVAL acc dev obj s) := by
  unfold execREVIVE_HEAD_ARRIVAL
  with_reducible
    split
    apply OutKeeps.next
    assumption
    split
    apply OutKeeps.next
    assumption
    refine OutKeeps.ite ?_ ?_
    apply OutKeeps.next
    assumption
    split
    apply OutKeeps.next
    refine Keeps.ite ?_ ?_
    apply State.adoptSettle_keeps
    assumption
    apply State.headIn_keeps
    assumption
    apply OutKeeps.next
    apply State.fetchFailed_keeps
    apply State.refuseObject_keeps
    assumption

theorem execSHELF_OBJECT_ARRIVAL_keeps {z : State} {acc} {dev} {kind} {number} {obj} {s : State} (hz : Keeps z s) :
    OutKeeps z (execSHELF_OBJECT_ARRIVAL acc dev kind number obj s) := by
  unfold execSHELF_OBJECT_ARRIVAL
  with_reducible
    split
    apply OutKeeps.next
    assumption
    split
    apply OutKeeps.next
    assumption
    refine OutKeeps.ite ?_ ?_
    apply OutKeeps.next
    assumption
    refine OutKeeps.ite ?_ ?_
    split
    split
    apply OutKeeps.next
    apply State.fetchFailed_keeps
    apply State.refuseObject_keeps
    assumption
    ((try lift_lets -underBinder); intro _)
    ((try lift_lets -underBinder); intro x; refine (fun (hx : Keeps z x) => ?_) ?_; clear_value x)
    ((try lift_lets -underBinder); intro _)
    apply OutKeeps.next
    apply State.reviveNext_keeps
    (simp -zeta only [mk_keeps_iff]; apply KeptParts.fold)
    assumption
    simp -zeta only [x]
    apply State.putObject_keeps
    apply State.gotObject_keeps
    assumption
    apply OutKeeps.next
    apply State.fetchFailed_keeps
    assumption
    split
    apply OutKeeps.next
    apply State.placeObject_keeps
    assumption
    apply OutKeeps.next
    apply State.fetchFailed_keeps
    apply State.refuseObject_keeps
    assumption

theorem execPREEMPT_COPY_DONE_keeps {z : State} {acc} {s : State} (hz : Keeps z s) :
    OutKeeps z (execPREEMPT_COPY_DONE acc s) := by
  unfold execPREEMPT_COPY_DONE
  with_reducible
    split
    apply OutKeeps.next
    assumption
    refine OutKeeps.ite ?_ ?_
    apply OutKeeps.next
    apply State.updSess_keeps
    apply State.dropPages_keeps
    assumption
    apply OutKeeps.next
    assumption

theorem execREADMIT_keeps {z : State} {s : State} (hz : Keeps z s) :
    OutKeeps z (execREADMIT s) := by
  unfold execREADMIT
  with_reducible
    refine OutKeeps.ite ?_ ?_
    apply OutKeeps.next
    assumption
    ((try lift_lets -underBinder); intro x; simp -zeta only [x])
    split
    apply OutKeeps.next
    assumption
    refine OutKeeps.ite ?_ ?_
    apply OutKeeps.next
    assumption
    ((try lift_lets -underBinder); intro x; simp -zeta only [x])
    ((try lift_lets -underBinder); intro x; simp -zeta only [x])
    ((try lift_lets -underBinder); intro x; simp -zeta only [x])
    ((try lift_lets -underBinder); intro x; simp -zeta only [x])
    ((try lift_lets -underBinder); intro x; refine (fun (hx : Keeps z x) => ?_) ?_; clear_value x)
    split
    apply OutKeeps.next
    assumption
    apply OutKeeps.next
    apply State.reviveNext_keeps
    apply foldl_keeps
    apply State.updSess_keeps
    refine OptAll.get0 (State.reserveFor_keeps ?_) (by assumption)
    assumption
    intro _
    intro _
    apply State.askAll_keeps
    simp -zeta only [x]
    (simp -zeta only [mk_keeps_iff]; apply KeptParts.fold)
    assumption

theorem execTIER_QUOTA_WRITE_keeps {z : State} {tier} {value} {s : State} (hz : Keeps z s) :
    OutKeeps z (execTIER_QUOTA_WRITE tier value s) := by
  unfold execTIER_QUOTA_WRITE
  with_reducible
    refine OutKeeps.ite ?_ ?_
    apply OutKeeps.next
    assumption
    apply OutKeeps.next
    apply State.setLimit_keeps
    assumption

theorem execPOOL_ENTRY_ADD_keeps {z : State} {value} {s : State} (hz : Keeps z s) :
    OutKeeps z (execPOOL_ENTRY_ADD value s) := by
  unfold execPOOL_ENTRY_ADD
  with_reducible
    refine OutKeeps.ite ?_ ?_
    apply OutKeeps.next
    assumption
    refine OutKeeps.ite ?_ ?_
    apply OutKeeps.next
    apply State.regAccErr_keeps
    assumption
    apply OutKeeps.next
    (simp -zeta only [mk_keeps_iff]; apply KeptParts.fold)
    assumption

theorem execPOOL_ENTRY_RETIRE_keeps {z : State} {value} {s : State} (hz : Keeps z s) :
    OutKeeps z (execPOOL_ENTRY_RETIRE value s) := by
  unfold execPOOL_ENTRY_RETIRE
  with_reducible
    ((try lift_lets -underBinder); intro _)
    refine OutKeeps.ite ?_ ?_
    apply OutKeeps.next
    assumption
    split
    apply OutKeeps.next
    assumption
    ((try lift_lets -underBinder); intro x; refine (fun (hx : Keeps z x) => ?_) ?_; clear_value x)
    ((try lift_lets -underBinder); intro _)
    refine OutKeeps.ite ?_ ?_
    apply OutKeeps.next
    assumption
    apply OutKeeps.next
    apply State.bump_keeps
    apply foldl_keeps
    assumption
    intro _
    intro _
    intro _
    refine Keeps.ite ?_ ?_
    apply State.updRevive_keeps
    assumption
    apply State.replaceHolder_keeps
    assumption
    simp -zeta only [x]
    (simp -zeta only [mk_keeps_iff]; apply KeptParts.fold)
    assumption

end Sys2Proof.Machine
end

