-- ==== Sys2Proof/Laws/KeepCatFrame.lean ====
section
/-!
SUPPORT. Every operation and meaning of Machine/CatFrame.lean leaves the queue of waiting commands as it was and keeps the stores
canonical: for each f, `f_keeps` (Laws/Keeps.lean).
-/

namespace Sys2Proof.Machine

theorem State.resolveEpoch_keeps {z : State} {s : State} (hz : Keeps z s) :
    Keeps z (State.resolveEpoch s) := by
  unfold State.resolveEpoch
  with_reducible
    refine Keeps.ite ?_ ?_
    assumption
    apply foldl_keeps
    (simp -zeta only [mk_keeps_iff]; apply KeptParts.fold)
    assumption
    intro _
    intro _
    intro _
    refine Keeps.ite ?_ ?_
    apply State.wake_keeps
    assumption
    apply State.finish_keeps
    assumption

theorem State.sendTransfer_keeps {z : State} {s : State} {dev} {l} (hz : Keeps z s) :
    Keeps z (State.sendTransfer s dev l) := by
  unfold State.sendTransfer
  with_reducible
    apply foldl_keeps
    assumption
    intro _
    intro _
    apply State.sendDev_keeps

theorem State.handOver_keeps {z : State} {s : State} {old} (hz : Keeps z s) :
    Keeps z (State.handOver s old) := by
  unfold State.handOver
  with_reducible
    apply foldl_keeps
    apply State.updCat_keeps
    apply foldl_keeps
    assumption
    intro _
    intro _
    apply State.sendTransfer_keeps
    intro _
    intro _
    intro _
    split
    apply foldl_keeps
    assumption
    intro _
    intro _
    apply State.registerAt_keeps
    assumption

theorem State.showEpoch_keeps {z : State} {s : State} {e} (hz : Keeps z s) :
    Keeps z (State.showEpoch s e) := by
  unfold State.showEpoch
  with_reducible
    apply State.setFld_keeps
    apply State.setFld_keeps
    apply State.setFld_keeps
    assumption

theorem State.fence_keeps {z : State} {s : State} (hz : Keeps z s) :
    Keeps z (State.fence s) := by
  unfold State.fence
  with_reducible
    refine Keeps.ite ?_ ?_
    assumption
    apply State.abandonSteps_keeps
    apply State.bump_keeps
    apply State.setFld_keeps
    assumption

theorem State.askJoin_keeps {z : State} {s : State} {dev} {want} (hz : Keeps z s) :
    Keeps z (State.askJoin s dev want) := by
  unfold State.askJoin
  with_reducible
    apply State.updCat_keeps
    apply State.sendDev_keeps
    assumption

theorem State.endMembership_keeps {z : State} {s : State} (hz : Keeps z s) :
    Keeps z (State.endMembership s) := by
  unfold State.endMembership
  with_reducible
    apply State.showEpoch_keeps
    apply State.setFld_keeps
    ((try lift_lets -underBinder); intro x; simp -zeta only [x])
    (simp -zeta only [mk_keeps_iff]; apply KeptParts.fold)
    assumption

theorem State.removed_keeps {z : State} {s : State} (hz : Keeps z s) :
    Keeps z (State.removed s) := by
  unfold State.removed
  with_reducible
    refine Keeps.ite ?_ ?_
    apply State.endMembership_keeps
    assumption
    apply State.askJoin_keeps
    apply State.updCat_keeps
    apply State.setFld_keeps
    apply State.fence_keeps
    assumption

theorem State.epochEntered_keeps {z : State} {s : State} {old} {e} (hz : Keeps z s) :
    Keeps z (State.epochEntered s old e) := by
  unfold State.epochEntered
  with_reducible
    apply State.wake_keeps
    apply State.resolveEpoch_keeps
    apply State.mirrorCheck_keeps
    refine Keeps.ite ?_ ?_
    apply State.removed_keeps
    refine Keeps.ite ?_ ?_
    apply State.updCat_keeps
    refine Keeps.ite ?_ ?_
    (simp -zeta only [mk_keeps_iff]; apply KeptParts.fold)
    apply State.updCat_keeps
    apply State.answerClients_keeps
    apply State.answerClients_keeps
    apply State.answerClients_keeps
    apply State.updCat_keeps
    apply foldl_keeps
    apply foldl_keeps
    apply foldl_keeps
    apply foldl_keeps
    apply State.handOver_keeps
    apply State.updCat_keeps
    apply State.showEpoch_keeps
    assumption
    intro _
    intro _
    intro _
    apply State.holderLost_keeps
    apply State.updCat_keeps
    assumption
    apply State.holderLost_keeps
    intro _
    intro _
    apply State.updCkpt_keeps
    intro _
    intro _
    apply State.updCkpt_keeps
    apply State.updCat_keeps
    apply State.answerClients_keeps
    apply State.answerClients_keeps
    apply State.answerClients_keeps
    apply State.updCat_keeps
    apply foldl_keeps
    apply foldl_keeps
    apply foldl_keeps
    apply foldl_keeps
    apply State.handOver_keeps
    apply State.updCat_keeps
    apply State.showEpoch_keeps
    assumption
    intro _
    intro _
    intro _
    apply State.holderLost_keeps
    apply State.updCat_keeps
    assumption
    apply State.holderLost_keeps
    intro _
    intro _
    apply State.updCkpt_keeps
    intro _
    intro _
    apply State.updCkpt_keeps
    refine Keeps.ite ?_ ?_
    (simp -zeta only [mk_keeps_iff]; apply KeptParts.fold)
    apply State.updCat_keeps
    apply State.answerClients_keeps
    apply State.answerClients_keeps
    apply State.answerClients_keeps
    apply State.updCat_keeps
    apply foldl_keeps
    apply foldl_keeps
    apply foldl_keeps
    apply foldl_keeps
    apply State.handOver_keeps
    apply State.updCat_keeps
    apply State.showEpoch_keeps
    assumption
    intro _
    intro _
    intro _
    apply State.holderLost_keeps
    apply State.updCat_keeps
    assumption
    apply State.holderLost_keeps
    intro _
    intro _
    apply State.updCkpt_keeps
    intro _
    intro _
    apply State.updCkpt_keeps
    apply State.updCat_keeps
    apply State.answerClients_keeps
    apply State.answerClients_keeps
    apply State.answerClients_keeps
    apply State.updCat_keeps
    apply foldl_keeps
    apply foldl_keeps
    apply foldl_keeps
    apply foldl_keeps
    apply State.handOver_keeps
    apply State.updCat_keeps
    apply State.showEpoch_keeps
    assumption
    intro _
    intro _
    intro _
    apply State.holderLost_keeps
    apply State.updCat_keeps
    assumption
    apply State.holderLost_keeps
    intro _
    intro _
    apply State.updCkpt_keeps
    intro _
    intro _
    apply State.updCkpt_keeps
    refine Keeps.ite ?_ ?_
    apply State.updCat_keeps
    refine Keeps.ite ?_ ?_
    (simp -zeta only [mk_keeps_iff]; apply KeptParts.fold)
    apply State.updCat_keeps
    apply State.answerClients_keeps
    apply State.answerClients_keeps
    apply State.answerClients_keeps
    apply State.updCat_keeps
    apply foldl_keeps
    apply foldl_keeps
    apply foldl_keeps
    apply foldl_keeps
    apply State.handOver_keeps
    apply State.updCat_keeps
    apply State.showEpoch_keeps
    assumption
    intro _
    intro _
    intro _
    apply State.holderLost_keeps
    apply State.updCat_keeps
    assumption
    apply State.holderLost_keeps
    intro _
    intro _
    apply State.updCkpt_keeps
    intro _
    intro _
    apply State.updCkpt_keeps
    apply State.updCat_keeps
    apply State.answerClients_keeps
    apply State.answerClients_keeps
    apply State.answerClients_keeps
    apply State.updCat_keeps
    apply foldl_keeps
    apply foldl_keeps
    apply foldl_keeps
    apply foldl_keeps
    apply State.handOver_keeps
    apply State.updCat_keeps
    apply State.showEpoch_keeps
    assumption
    intro _
    intro _
    intro _
    apply State.holderLost_keeps
    apply State.updCat_keeps
    assumption
    apply State.holderLost_keeps
    intro _
    intro _
    apply State.updCkpt_keeps
    intro _
    intro _
    apply State.updCkpt_keeps
    refine Keeps.ite ?_ ?_
    (simp -zeta only [mk_keeps_iff]; apply KeptParts.fold)
    apply State.updCat_keeps
    apply State.answerClients_keeps
    apply State.answerClients_keeps
    apply State.answerClients_keeps
    apply State.updCat_keeps
    apply foldl_keeps
    apply foldl_keeps
    apply foldl_keeps
    apply foldl_keeps
    apply State.handOver_keeps
    apply State.updCat_keeps
    apply State.showEpoch_keeps
    assumption
    intro _
    intro _
    intro _
    apply State.holderLost_keeps
    apply State.updCat_keeps
    assumption
    apply State.holderLost_keeps
    intro _
    intro _
    apply State.updCkpt_keeps
    intro _
    intro _
    apply State.updCkpt_keeps
    apply State.updCat_keeps
    apply State.answerClients_keeps
    apply State.answerClients_keeps
    apply State.answerClients_keeps
    apply State.updCat_keeps
    apply foldl_keeps
    apply foldl_keeps
    apply foldl_keeps
    apply foldl_keeps
    apply State.handOver_keeps
    apply State.updCat_keeps
    apply State.showEpoch_keeps
    assumption
    intro _
    intro _
    intro _
    apply State.holderLost_keeps
    apply State.updCat_keeps
    assumption
    apply State.holderLost_keeps
    intro _
    intro _
    apply State.updCkpt_keeps
    intro _
    intro _
    apply State.updCkpt_keeps

theorem State.applyCommit_keeps {z : State} {s : State} {digest} {l} (hz : Keeps z s) :
    OptAll (Keeps z) (State.applyCommit s digest l) := by
  unfold State.applyCommit
  with_reducible
    refine OptAll.ite ?_ ?_
    apply OptAll.none
    apply OptAll.some
    apply State.epochEntered_keeps
    apply State.bump_keeps
    (simp -zeta only [mk_keeps_iff]; apply KeptParts.fold)
    assumption

theorem State.relay_keeps {z : State} {s : State} {members} {ballot} {e} {digest} {l} (hz : Keeps z s) :
    Keeps z (State.relay s members ballot e digest l) := by
  unfold State.relay
  with_reducible
    ((try lift_lets -underBinder); intro x; simp -zeta only [x])
    ((try lift_lets -underBinder); intro x; simp -zeta only [x])
    ((try lift_lets -underBinder); intro x; simp -zeta only [x])
    split
    assumption
    apply foldl_keeps
    assumption
    intro _
    intro _
    apply State.sendDev_keeps

theorem State.updProposal_keeps {z : State} {s : State} {f} (hz : Keeps z s) :
    Keeps z (State.updProposal s f) := by
  unfold State.updProposal
  with_reducible
    apply State.updCat_keeps
    assumption

theorem State.tallyAccepts_keeps {z : State} {s : State} (hz : Keeps z s) :
    Keeps z (State.tallyAccepts s) := by
  unfold State.tallyAccepts
  with_reducible
    refine Keeps.ite ?_ ?_
    refine OptAll.getD (State.applyCommit_keeps ?_) ?_
    apply State.relay_keeps
    assumption
    apply State.relay_keeps
    assumption
    assumption

theorem State.tallyGrants_keeps {z : State} {s : State} (hz : Keeps z s) :
    Keeps z (State.tallyGrants s) := by
  unfold State.tallyGrants
  with_reducible
    refine Keeps.ite ?_ ?_
    apply State.tallyAccepts_keeps
    refine Keeps.ite ?_ ?_
    apply State.updCat_keeps
    apply foldl_keeps
    apply State.updProposal_keeps
    assumption
    intro _
    intro _
    apply State.sendDev_keeps
    apply foldl_keeps
    apply State.updProposal_keeps
    assumption
    intro _
    intro _
    apply State.sendDev_keeps
    assumption

theorem State.claim_keeps {z : State} {s : State} {own} (hz : Keeps z s) :
    Keeps z (State.claim s own) := by
  unfold State.claim
  with_reducible
    apply State.tallyGrants_keeps
    refine Keeps.ite ?_ ?_
    apply foldl_keeps
    apply State.bump_keeps
    apply State.updProposal_keeps
    assumption
    intro _
    intro _
    apply State.sendDev_keeps
    apply State.updCat_keeps
    apply foldl_keeps
    apply State.bump_keeps
    apply State.updProposal_keeps
    assumption
    intro _
    intro _
    apply State.sendDev_keeps

theorem State.proposeNext_keeps {z : State} {s : State} (hz : Keeps z s) :
    Keeps z (State.proposeNext s) := by
  unfold State.proposeNext
  with_reducible
    refine Keeps.ite ?_ ?_
    assumption
    split
    assumption
    split
    apply State.claim_keeps
    assumption
    ((try lift_lets -underBinder); intro x; refine (fun (hx : Keeps z x) => ?_) ?_; clear_value x)
    split
    apply State.answerClients_keeps
    assumption
    assumption
    apply State.wake_keeps
    apply State.updCat_keeps
    assumption

theorem State.wish_keeps {z : State} {s : State} {w} (hz : Keeps z s) :
    Keeps z (State.wish s w) := by
  unfold State.wish
  with_reducible
    apply State.wake_keeps
    apply State.updCat_keeps
    assumption

theorem State.askLeave_keeps {z : State} {s : State} {phase} {suspect} {w} (hz : Keeps z s) :
    Keeps z (State.askLeave s phase suspect w) := by
  unfold State.askLeave
  with_reducible
    refine Keeps.ite ?_ ?_
    apply State.wish_keeps
    assumption
    apply State.sendDev_keeps
    assumption

theorem State.leaveOne_keeps {z : State} {s : State} {i} (hz : Keeps z s) :
    Keeps z (State.leaveOne s i) := by
  unfold State.leaveOne
  with_reducible
    refine Keeps.ite ?_ ?_
    assumption
    refine Keeps.ite ?_ ?_
    split
    apply State.beginMove_keeps
    assumption
    assumption
    refine Keeps.ite ?_ ?_
    split
    apply State.tryCommit_keeps
    assumption
    apply State.tryCommit_keeps
    assumption
    assumption

theorem State.leaveStep_keeps {z : State} {s : State} (hz : Keeps z s) :
    Keeps z (State.leaveStep s) := by
  unfold State.leaveStep
  with_reducible
    refine Keeps.ite ?_ ?_
    assumption
    refine Keeps.ite ?_ ?_
    apply State.askLeave_keeps
    apply State.updCat_keeps
    apply foldl_keeps
    assumption
    intro _
    intro _
    apply State.leaveOne_keeps
    apply foldl_keeps
    assumption
    intro _
    intro _
    apply State.leaveOne_keeps

theorem State.catWork_keeps {z : State} {s : State} (hz : Keeps z s) :
    Keeps z (State.catWork s) := by
  unfold State.catWork
  with_reducible
    apply State.leaveStep_keeps
    apply State.proposeNext_keeps
    assumption

end Sys2Proof.Machine
end

