-- ==== Sys2Proof/Laws/KeepCatalogue.lean ====
section
/-!
SUPPORT. Every operation and meaning of Machine/Catalogue.lean leaves the queue of waiting commands as it was and keeps the stores
canonical: for each f, `f_keeps` (Laws/Keeps.lean).
-/

namespace Sys2Proof.Machine

theorem runCat_keeps {z : State} {op} {x} {masks} {s : State} {f} (hz : Keeps z s) (hf : ∀ x1, Keeps z x1 → ResKeeps z (f x1)) :
    OutKeeps z (runCat op x masks s f) := by
  unfold runCat
  with_reducible
    apply runSlip_keeps
    assumption
    intro _
    intro _
    refine ResKeeps.ite ?_ ?_
    apply ResKeeps.done
    assumption
    refine ResKeeps.ite ?_ ?_
    apply SlipRes.no_keeps
    assumption
    refine ResKeeps.ite ?_ ?_
    apply ResKeeps.hold
    apply State.fetchMap_keeps
    assumption
    refine ResKeeps.ite ?_ ?_
    apply SlipRes.no_keeps
    assumption
    refine ResKeeps.ite ?_ ?_
    apply SlipRes.no_keeps
    assumption
    refine ResKeeps.ite ?_ ?_
    apply SlipRes.no_keeps
    assumption
    split
    apply SlipRes.no_keeps
    assumption
    apply hf
    assumption

theorem State.askLocation_keeps {z : State} {s : State} {acc} {ten} {dev} (hz : Keeps z s) :
    Keeps z (State.askLocation s acc ten dev) := by
  unfold State.askLocation
  with_reducible
    refine Keeps.ite ?_ ?_
    apply State.bump_keeps
    assumption
    apply State.updCat_keeps
    apply State.sendDev_keeps
    apply State.bump_keeps
    assumption

theorem execCAT_LOOKUP_keeps {z : State} {x} {s : State} (hz : Keeps z s) :
    OutKeeps z (execCAT_LOOKUP x s) := by
  unfold execCAT_LOOKUP
  with_reducible
    apply runCat_keeps
    assumption
    intro _
    intro _
    refine ResKeeps.ite ?_ ?_
    apply SlipRes.no_keeps
    apply State.bump_keeps
    assumption
    split
    apply ResKeeps.done
    apply State.bump_keeps
    assumption
    split
    apply ResKeeps.done
    apply State.bump_keeps
    assumption
    apply SlipRes.no_keeps
    apply State.bump_keeps
    assumption
    apply ResKeeps.hold
    apply State.askLocation_keeps
    apply State.bump_keeps
    assumption

theorem execCAT_MAP_FETCH_keeps {z : State} {x} {s : State} (hz : Keeps z s) :
    OutKeeps z (execCAT_MAP_FETCH x s) := by
  unfold execCAT_MAP_FETCH
  with_reducible
    apply runCat_keeps
    assumption
    intro _
    intro _
    refine ResKeeps.ite ?_ ?_
    apply ResKeeps.done
    assumption
    refine ResKeeps.ite ?_ ?_
    apply SlipRes.no_keeps
    assumption
    apply ResKeeps.done
    assumption

theorem State.receiveVote_keeps {z : State} {s : State} {voter} {epoch} {kind} {ballot} {accepted} {l} (hz : Keeps z s) :
    Keeps z (State.receiveVote s voter epoch kind ballot accepted l) := by
  unfold State.receiveVote
  with_reducible
    refine Keeps.ite ?_ ?_
    refine Keeps.ite ?_ ?_
    apply State.fetchMap_keeps
    apply State.updProposal_keeps
    assumption
    apply State.updProposal_keeps
    assumption
    refine Keeps.ite ?_ ?_
    assumption
    refine Keeps.ite ?_ ?_
    apply State.tallyGrants_keeps
    apply State.updProposal_keeps
    assumption
    refine Keeps.ite ?_ ?_
    apply State.tallyAccepts_keeps
    apply State.updProposal_keeps
    assumption
    assumption

theorem State.vote_keeps {z : State} {s : State} {proposer} {epoch} {kind} {ballot} {accepted} {l} (hz : Keeps z s) :
    Keeps z (State.vote s proposer epoch kind ballot accepted l) := by
  unfold State.vote
  with_reducible
    refine Keeps.ite ?_ ?_
    apply State.receiveVote_keeps
    assumption
    apply State.sendDev_keeps
    assumption

theorem execCAT_PROPOSE_CLAIM_keeps {z : State} {x} {s : State} (hz : Keeps z s) :
    OutKeeps z (execCAT_PROPOSE_CLAIM x s) := by
  unfold execCAT_PROPOSE_CLAIM
  with_reducible
    apply runCat_keeps
    assumption
    intro _
    intro _
    refine ResKeeps.ite ?_ ?_
    apply SlipRes.no_keeps
    assumption
    refine ResKeeps.ite ?_ ?_
    apply ResKeeps.done
    apply State.vote_keeps
    apply State.bump_keeps
    assumption
    refine ResKeeps.ite ?_ ?_
    apply ResKeeps.done
    apply State.vote_keeps
    assumption
    apply ResKeeps.done
    apply State.vote_keeps
    apply State.updCat_keeps
    assumption

theorem execCAT_PROPOSE_ACCEPT_keeps {z : State} {x} {s : State} (hz : Keeps z s) :
    OutKeeps z (execCAT_PROPOSE_ACCEPT x s) := by
  unfold execCAT_PROPOSE_ACCEPT
  with_reducible
    apply runCat_keeps
    assumption
    intro _
    intro _
    refine ResKeeps.ite ?_ ?_
    apply SlipRes.no_keeps
    assumption
    split
    apply SlipRes.no_keeps
    assumption
    refine ResKeeps.ite ?_ ?_
    apply ResKeeps.done
    apply State.vote_keeps
    apply State.bump_keeps
    assumption
    refine ResKeeps.ite ?_ ?_
    apply ResKeeps.done
    apply State.vote_keeps
    assumption
    apply ResKeeps.done
    apply State.vote_keeps
    apply State.updCat_keeps
    assumption

theorem execCAT_VOTE_keeps {z s : State} {x} (hz : Keeps z s) : OutKeeps z (execCAT_VOTE x s) := by
  unfold execCAT_VOTE
  refine runCat_keeps hz (fun t ht => ?_)
  lift_lets -underBinder
  intro accepted voter
  clear_value accepted voter
  split
  · exact ResKeeps.no ht
  · exact ResKeeps.done (State.receiveVote_keeps ht)

theorem execVOTE_TIMEOUT_keeps {z : State} {s : State} (hz : Keeps z s) :
    OutKeeps z (execVOTE_TIMEOUT s) := by
  unfold execVOTE_TIMEOUT
  with_reducible
    refine OutKeeps.ite ?_ ?_
    apply OutKeeps.next
    apply State.claim_keeps
    assumption
    apply OutKeeps.next
    assumption

theorem execCAT_COMMIT_keeps {z : State} {x} {s : State} (hz : Keeps z s) :
    OutKeeps z (execCAT_COMMIT x s) := by
  unfold execCAT_COMMIT
  with_reducible
    apply runCat_keeps
    assumption
    intro _
    intro _
    ((try lift_lets -underBinder); intro x; simp -zeta only [x])
    split
    apply SlipRes.no_keeps
    assumption
    refine ResKeeps.ite ?_ ?_
    apply SlipRes.no_keeps
    assumption
    refine ResKeeps.ite ?_ ?_
    apply ResKeeps.done
    assumption
    refine ResKeeps.ite ?_ ?_
    apply ResKeeps.done
    refine Keeps.ite ?_ ?_
    assumption
    apply State.fetchFrom_keeps
    assumption
    ((try lift_lets -underBinder); intro x; simp -zeta only [x])
    ((try lift_lets -underBinder); intro x; simp -zeta only [x])
    split
    apply ResKeeps.done
    apply State.relay_keeps
    refine OptAll.get0 (State.applyCommit_keeps ?_) (by assumption)
    assumption
    apply ResKeeps.done
    refine Keeps.ite ?_ ?_
    apply State.bump_keeps
    assumption
    apply State.fetchFrom_keeps
    apply State.bump_keeps
    assumption

theorem State.applyLists_keeps {z s : State} {l} (hz : Keeps z s) : OptAll (Keeps z) (State.applyLists s l) := by
  induction l generalizing s with
  | nil => exact OptAll.some hz
  | cons b l ih =>
    unfold State.applyLists
    split
    · rename_i t ht
      exact ih (OptAll.get0 (State.applyCommit_keeps hz) ht)
    · exact OptAll.none

theorem State.pokeRestore_keeps {z : State} {s : State} (hz : Keeps z s) :
    Keeps z (State.pokeRestore s) := by
  unfold State.pokeRestore
  with_reducible
    split
    refine Keeps.ite ?_ ?_
    apply State.wake_keeps
    assumption
    assumption
    assumption

theorem State.decideOwner_keeps {z : State} {s : State} {acc} {owner} (hz : Keeps z s) :
    Keeps z (State.decideOwner s acc owner) := by
  unfold State.decideOwner
  with_reducible
    refine Keeps.ite ?_ ?_
    apply State.pokeRestore_keeps
    apply State.updCat_keeps
    assumption
    split
    apply State.pokeRestore_keeps
    apply State.updCat_keeps
    assumption
    apply State.freeSess_keeps
    (simp -zeta only [mk_keeps_iff]; apply KeptParts.fold)
    apply State.setImg_keeps
    apply State.setLog_keeps
    apply State.dequeue_keeps
    apply State.detachRing_keeps
    apply State.dropPages_keeps
    apply State.pokeRestore_keeps
    apply State.updCat_keeps
    assumption

theorem State.checkOwner_keeps {z : State} {s : State} {acc} (hz : Keeps z s) :
    Keeps z (State.checkOwner s acc) := by
  unfold State.checkOwner
  with_reducible
    split
    apply State.decideOwner_keeps
    assumption
    apply State.decideOwner_keeps
    assumption
    apply State.updCat_keeps
    apply State.sendDev_keeps
    assumption

theorem State.settleJoin_keeps {z : State} {s : State} (hz : Keeps z s) :
    Keeps z (State.settleJoin s) := by
  unfold State.settleJoin
  with_reducible
    refine Keeps.ite ?_ ?_
    apply State.pokeRestore_keeps
    apply foldl_keeps
    (simp -zeta only [mk_keeps_iff]; apply KeptParts.fold)
    apply State.updCat_keeps
    apply State.setFld_keeps
    apply State.setFld_keeps
    assumption
    intro _
    intro _
    apply State.decideOwner_keeps
    apply State.pokeRestore_keeps
    apply State.mirrorCheck_keeps
    apply foldl_keeps
    (simp -zeta only [mk_keeps_iff]; apply KeptParts.fold)
    apply State.updCat_keeps
    apply State.setFld_keeps
    apply State.setFld_keeps
    assumption
    apply State.checkOwner_keeps

theorem State.mapCurrent_keeps {z : State} {s : State} (hz : Keeps z s) :
    Keeps z (State.mapCurrent s) := by
  unfold State.mapCurrent
  with_reducible
    apply State.resolveEpoch_keeps
    refine Keeps.ite ?_ ?_
    apply State.askJoin_keeps
    apply State.updCat_keeps
    assumption
    refine Keeps.ite ?_ ?_
    apply State.settleJoin_keeps
    apply State.updCat_keeps
    assumption
    apply State.pokeRestore_keeps
    apply State.updCat_keeps
    assumption

theorem State.fetchLost_keeps {z : State} {s : State} (hz : Keeps z s) :
    Keeps z (State.fetchLost s) := by
  unfold State.fetchLost
  with_reducible
    apply State.pokeRestore_keeps
    apply State.resolveEpoch_keeps
    refine Keeps.ite ?_ ?_
    apply State.answerClients_keeps
    apply State.updCat_keeps
    assumption
    apply State.updCat_keeps
    assumption

theorem execMAP_FETCH_REPLY_keeps {z : State} {dev} {r} {s : State} (hz : Keeps z s) :
    OutKeeps z (execMAP_FETCH_REPLY dev r s) := by
  unfold execMAP_FETCH_REPLY
  with_reducible
    split
    apply OutKeeps.next
    assumption
    refine OutKeeps.ite ?_ ?_
    apply OutKeeps.next
    assumption
    refine OutKeeps.ite ?_ ?_
    refine OutKeeps.ite ?_ ?_
    split
    apply OutKeeps.next
    apply State.mapCurrent_keeps
    refine OptAll.get0 (State.applyLists_keeps ?_) (by assumption)
    assumption
    apply OutKeeps.next
    apply State.fetchFrom_keeps
    apply State.bump_keeps
    assumption
    refine OutKeeps.ite ?_ ?_
    apply OutKeeps.next
    apply State.fetchFrom_keeps
    assumption
    refine OutKeeps.ite ?_ ?_
    apply OutKeeps.next
    apply State.fetchFrom_keeps
    apply State.updCat_keeps
    assumption
    apply OutKeeps.next
    refine Keeps.ite ?_ ?_
    apply State.mapCurrent_keeps
    apply State.epochEntered_keeps
    apply State.updCat_keeps
    assumption
    apply State.mapCurrent_keeps
    apply State.showEpoch_keeps
    apply State.updCat_keeps
    assumption
    refine OutKeeps.ite ?_ ?_
    apply OutKeeps.next
    apply State.fetchFrom_keeps
    assumption
    apply OutKeeps.next
    apply State.fetchLost_keeps
    assumption

theorem execEPOCH_HOLD_RESOLVE_keeps {z : State} {s : State} (hz : Keeps z s) :
    OutKeeps z (execEPOCH_HOLD_RESOLVE s) := by
  unfold execEPOCH_HOLD_RESOLVE
  with_reducible
    apply OutKeeps.next
    apply State.resolveEpoch_keeps
    assumption

theorem State.found_keeps {z : State} {s : State} {id} (hz : Keeps z s) :
    Keeps z (State.found s id) := by
  unfold State.found
  with_reducible
    apply State.mirrorCheck_keeps
    apply foldl_keeps
    ((try lift_lets -underBinder); intro x; refine (fun (hx : Keeps z x) => ?_) ?_; clear_value x)
    (simp -zeta only [mk_keeps_iff]; apply KeptParts.fold)
    assumption
    apply State.showEpoch_keeps
    apply State.setFld_keeps
    apply State.updCat_keeps
    apply State.setFld_keeps
    apply State.setFld_keeps
    assumption
    intro _
    intro _
    apply State.decideOwner_keeps

theorem State.sponsor_keeps {z : State} {s : State} {addr} (hz : Keeps z s) :
    Keeps z (State.sponsor s addr) := by
  unfold State.sponsor
  with_reducible
    split
    assumption
    split
    apply State.bump_keeps
    assumption
    apply State.setPeer_keeps
    refine Keeps.ite ?_ ?_
    assumption
    apply State.closePeer_keeps
    assumption

theorem execCAT_JOIN_keeps {z : State} {x} {s : State} (hz : Keeps z s) :
    OutKeeps z (execCAT_JOIN x s) := by
  unfold execCAT_JOIN
  with_reducible
    apply runCat_keeps
    assumption
    intro _
    intro _
    refine ResKeeps.ite ?_ ?_
    apply SlipRes.no_keeps
    assumption
    split
    refine ResKeeps.ite ?_ ?_
    apply SlipRes.no_keeps
    assumption
    refine ResKeeps.ite ?_ ?_
    apply SlipRes.no_keeps
    assumption
    refine ResKeeps.ite ?_ ?_
    apply SlipRes.no_keeps
    assumption
    split
    apply SlipRes.no_keeps
    assumption
    apply ResKeeps.wait
    apply State.wish_keeps
    apply State.updCat_keeps
    assumption
    refine ResKeeps.ite ?_ ?_
    apply SlipRes.no_keeps
    assumption
    refine ResKeeps.ite ?_ ?_
    apply ResKeeps.done
    apply State.found_keeps
    assumption
    refine ResKeeps.ite ?_ ?_
    apply SlipRes.no_keeps
    assumption
    apply ResKeeps.wait
    apply State.fetchFrom_keeps
    apply State.updCat_keeps
    apply State.sponsor_keeps
    assumption

theorem execCAT_JOIN_REPLY_keeps {z : State} {r} {s : State} (hz : Keeps z s) :
    OutKeeps z (execCAT_JOIN_REPLY r s) := by
  unfold execCAT_JOIN_REPLY
  with_reducible
    refine OutKeeps.ite ?_ ?_
    apply OutKeeps.next
    assumption
    refine OutKeeps.ite ?_ ?_
    apply OutKeeps.next
    apply State.fetchFrom_keeps
    apply foldl_keeps
    apply State.answerClients_keeps
    apply State.updCat_keeps
    apply State.setFld_keeps
    apply State.setFld_keeps
    assumption
    intro _
    intro _
    intro _
    refine Keeps.ite ?_ ?_
    apply State.setPeer_keeps
    apply State.closePeer_keeps
    assumption
    assumption
    apply OutKeeps.next
    apply State.pokeRestore_keeps
    apply State.answerClients_keeps
    apply State.updCat_keeps
    assumption

theorem State.leaveFor_keeps {z : State} {s : State} {x} {kind} {phase} {suspect} {dev} {w} (hz : Keeps z s) :
    ResKeeps z (State.leaveFor s x kind phase suspect dev w) := by
  unfold State.leaveFor
  with_reducible
    refine ResKeeps.ite ?_ ?_
    apply SlipRes.no_keeps
    assumption
    apply ResKeeps.wait
    apply State.askLeave_keeps
    apply State.updCat_keeps
    assumption

theorem execCAT_LEAVE_keeps {z : State} {x} {s : State} (hz : Keeps z s) :
    OutKeeps z (execCAT_LEAVE x s) := by
  unfold execCAT_LEAVE
  with_reducible
    apply runCat_keeps
    assumption
    intro _
    intro _
    refine ResKeeps.ite ?_ ?_
    apply SlipRes.no_keeps
    assumption
    refine ResKeeps.ite ?_ ?_
    apply SlipRes.no_keeps
    assumption
    refine ResKeeps.ite ?_ ?_
    apply ResKeeps.done
    assumption
    apply State.leaveFor_keeps
    assumption

theorem execCAT_LEAVE_FINAL_keeps {z : State} {x} {s : State} (hz : Keeps z s) :
    OutKeeps z (execCAT_LEAVE_FINAL x s) := by
  unfold execCAT_LEAVE_FINAL
  with_reducible
    apply runCat_keeps
    assumption
    intro _
    intro _
    refine ResKeeps.ite ?_ ?_
    apply SlipRes.no_keeps
    assumption
    refine ResKeeps.ite ?_ ?_
    apply SlipRes.no_keeps
    assumption
    apply State.leaveFor_keeps
    refine Keeps.ite ?_ ?_
    apply State.updCat_keeps
    assumption
    assumption

theorem execCAT_LEAVE_SUSPECT_keeps {z : State} {x} {s : State} (hz : Keeps z s) :
    OutKeeps z (execCAT_LEAVE_SUSPECT x s) := by
  unfold execCAT_LEAVE_SUSPECT
  with_reducible
    apply runCat_keeps
    assumption
    intro _
    intro _
    refine ResKeeps.ite ?_ ?_
    apply SlipRes.no_keeps
    assumption
    refine ResKeeps.ite ?_ ?_
    apply ResKeeps.wait
    split
    apply State.probeAll_keeps
    refine OptAll.get2 (State.reach_keeps ?_) (by assumption)
    apply State.updCat_keeps
    assumption
    apply State.updCat_keeps
    assumption
    apply State.leaveFor_keeps
    assumption

theorem execREMOVE_CONFIRM_keeps {z : State} {dev} {s : State} (hz : Keeps z s) :
    OutKeeps z (execREMOVE_CONFIRM dev s) := by
  unfold execREMOVE_CONFIRM
  with_reducible
    split
    apply OutKeeps.next
    assumption
    refine OutKeeps.ite ?_ ?_
    apply OutKeeps.next
    assumption
    apply OutKeeps.next
    apply State.wish_keeps
    apply State.updCat_keeps
    assumption

theorem State.cancelLeaving_keeps {z : State} {s : State} {i} (hz : Keeps z s) :
    Keeps z (State.cancelLeaving s i) := by
  unfold State.cancelLeaving
  with_reducible
    refine Keeps.ite ?_ ?_
    assumption
    refine Keeps.ite ?_ ?_
    apply State.flushRing_keeps
    apply State.endWithout_keeps
    apply State.dequeue_keeps
    assumption
    refine Keeps.ite ?_ ?_
    apply State.updSess_keeps
    assumption
    apply State.cancelIdle_keeps
    assumption

theorem execDRAIN_TIME_EXPIRY_keeps {z : State} {s : State} (hz : Keeps z s) :
    OutKeeps z (execDRAIN_TIME_EXPIRY s) := by
  unfold execDRAIN_TIME_EXPIRY
  with_reducible
    refine OutKeeps.ite ?_ ?_
    apply OutKeeps.next
    assumption
    apply OutKeeps.next
    apply State.leaveStep_keeps
    apply foldl_keeps
    assumption
    intro _
    intro _
    apply State.cancelLeaving_keeps

theorem execCAT_LOCATE_QUERY_keeps {z : State} {x} {s : State} (hz : Keeps z s) :
    OutKeeps z (execCAT_LOCATE_QUERY x s) := by
  unfold execCAT_LOCATE_QUERY
  with_reducible
    apply runCat_keeps
    assumption
    intro _
    intro _
    split
    apply ResKeeps.hold
    apply State.askLocation_keeps
    assumption
    apply ResKeeps.done
    apply State.bump_keeps
    assumption

theorem State.passRecord_keeps {z : State} {s : State} {acc} (hz : Keeps z s) :
    Keeps z (State.passRecord s acc) := by
  unfold State.passRecord
  with_reducible
    split
    refine Keeps.ite ?_ ?_
    assumption
    apply State.updCat_keeps
    apply foldl_keeps
    assumption
    intro _
    intro _
    apply State.sendTransfer_keeps
    assumption

theorem execCAT_LOCATE_REGISTER_keeps {z : State} {x} {s : State} (hz : Keeps z s) :
    OutKeeps z (execCAT_LOCATE_REGISTER x s) := by
  unfold execCAT_LOCATE_REGISTER
  with_reducible
    apply runCat_keeps
    assumption
    intro _
    intro _
    refine ResKeeps.ite ?_ ?_
    apply ResKeeps.hold
    assumption
    refine ResKeeps.ite ?_ ?_
    apply SlipRes.no_keeps
    assumption
    apply ResKeeps.done
    apply State.passRecord_keeps
    apply State.registerAt_keeps
    apply State.bump_keeps
    assumption

theorem execCAT_LOCATE_REMOVE_keeps {z : State} {x} {s : State} (hz : Keeps z s) :
    OutKeeps z (execCAT_LOCATE_REMOVE x s) := by
  unfold execCAT_LOCATE_REMOVE
  with_reducible
    apply runCat_keeps
    assumption
    intro _
    intro _
    refine ResKeeps.ite ?_ ?_
    apply ResKeeps.hold
    assumption
    apply ResKeeps.done
    apply State.updCat_keeps
    apply State.bump_keeps
    assumption

theorem execCAT_LOCATE_TRANSFER_keeps {z : State} {x} {s : State} (hz : Keeps z s) :
    OutKeeps z (execCAT_LOCATE_TRANSFER x s) := by
  unfold execCAT_LOCATE_TRANSFER
  with_reducible
    apply runCat_keeps
    assumption
    intro _
    intro _
    ((try lift_lets -underBinder); intro _)
    ((try lift_lets -underBinder); intro _)
    ((try lift_lets -underBinder); intro x; refine (fun (hx : Keeps z x) => ?_) ?_; clear_value x)
    ((try lift_lets -underBinder); intro _)
    ((try lift_lets -underBinder); intro x; refine (fun (hx : Keeps z x) => ?_) ?_; clear_value x)
    refine ResKeeps.ite ?_ ?_
    apply SlipRes.no_keeps
    assumption
    refine ResKeeps.ite ?_ ?_
    apply SlipRes.no_keeps
    assumption
    apply ResKeeps.done
    apply State.bump_keeps
    assumption
    simp -zeta only [x]
    apply State.release_keeps
    assumption
    simp -zeta only [x]
    apply State.updCat_keeps
    assumption

theorem State.located_keeps {z : State} {s : State} {h} {result} (hz : Keeps z s) :
    Keeps z (State.located s h result) := by
  unfold State.located
  with_reducible
    refine Keeps.ite ?_ ?_
    apply State.finish_keeps
    assumption
    refine Keeps.ite ?_ ?_
    apply State.finish_keeps
    assumption
    apply SlipRes.close_keeps
    apply State.foreignTo_keeps
    assumption

theorem State.allLocated_keeps {z : State} {s : State} {acc} {f} (hz : Keeps z s) (hf : ∀ x o, Keeps z x → Keeps z (f x o)) :
    Keeps z (State.allLocated s acc f) := by
  unfold State.allLocated
  with_reducible
    apply foldl_keeps
    (simp -zeta only [mk_keeps_iff]; apply KeptParts.fold)
    assumption
    intro _
    intro _
    apply hf

theorem State.unlocated_keeps {z : State} {s : State} {l} (hz : Keeps z s) :
    Keeps z (State.unlocated s l) := by
  unfold State.unlocated
  with_reducible
    refine Keeps.ite ?_ ?_
    apply State.decideOwner_keeps
    apply State.updCat_keeps
    assumption
    apply State.allLocated_keeps
    apply State.updCat_keeps
    assumption
    intro _
    intro _
    apply State.finish_keeps

theorem State.askSecond_keeps {z : State} {s : State} {l} (hz : Keeps z s) :
    Keeps z (State.askSecond s l) := by
  unfold State.askSecond
  with_reducible
    split
    apply State.unlocated_keeps
    assumption
    refine Keeps.ite ?_ ?_
    apply State.unlocated_keeps
    assumption
    apply State.sendDev_keeps
    apply State.updCat_keeps
    assumption

theorem execLOCATE_TIMEOUT_keeps {z : State} {acc} {s : State} (hz : Keeps z s) :
    OutKeeps z (execLOCATE_TIMEOUT acc s) := by
  unfold execLOCATE_TIMEOUT
  with_reducible
    split
    apply OutKeeps.next
    assumption
    refine OutKeeps.ite ?_ ?_
    apply OutKeeps.next
    assumption
    apply OutKeeps.next
    apply State.askSecond_keeps
    assumption

theorem execLOCATE_REPLY_keeps {z : State} {acc} {dev} {op} {r} {s : State} (hz : Keeps z s) :
    OutKeeps z (execLOCATE_REPLY acc dev op r s) := by
  unfold execLOCATE_REPLY
  with_reducible
    ((try lift_lets -underBinder); intro _)
    refine OutKeeps.ite ?_ ?_
    apply OutKeeps.next
    assumption
    refine OutKeeps.ite ?_ ?_
    split
    apply OutKeeps.next
    assumption
    refine OutKeeps.ite ?_ ?_
    apply OutKeeps.next
    apply State.askSecond_keeps
    assumption
    ((try lift_lets -underBinder); intro _)
    ((try lift_lets -underBinder); intro x; refine (fun (hx : Keeps z x) => ?_) ?_; clear_value x)
    apply OutKeeps.next
    refine Keeps.ite ?_ ?_
    apply State.decideOwner_keeps
    assumption
    apply State.allLocated_keeps
    assumption
    intro _
    intro _
    intro _
    apply State.located_keeps
    assumption
    simp -zeta only [x]
    apply State.updCat_keeps
    assumption
    refine OutKeeps.ite ?_ ?_
    split
    refine OutKeeps.ite ?_ ?_
    apply OutKeeps.next
    assumption
    refine OutKeeps.ite ?_ ?_
    apply OutKeeps.next
    apply State.moveFailed_keeps
    assumption
    refine OutKeeps.ite ?_ ?_
    apply OutKeeps.next
    apply State.updCat_keeps
    assumption
    apply OutKeeps.next
    apply State.sendCommit_keeps
    apply State.updCat_keeps
    assumption
    apply OutKeeps.next
    assumption
    apply OutKeeps.next
    assumption

theorem execFORWARDED_REPLY_keeps {z : State} {dev} {tag} {r} {s : State} (hz : Keeps z s) :
    OutKeeps z (execFORWARDED_REPLY dev tag r s) := by
  unfold execFORWARDED_REPLY
  with_reducible
    split
    apply OutKeeps.next
    assumption
    apply OutKeeps.next
    apply State.finish_keeps
    apply State.updCat_keeps
    assumption

theorem execFORWARD_RECORD_EXPIRY_keeps {z : State} {acc} {s : State} (hz : Keeps z s) :
    OutKeeps z (execFORWARD_RECORD_EXPIRY acc s) := by
  unfold execFORWARD_RECORD_EXPIRY
  with_reducible
    apply OutKeeps.next
    apply State.updCat_keeps
    assumption

theorem execREGISTRAR_KEEPALIVE_keeps {z : State} {s : State} (hz : Keeps z s) :
    OutKeeps z (execREGISTRAR_KEEPALIVE s) := by
  unfold execREGISTRAR_KEEPALIVE
  with_reducible
    refine OutKeeps.ite ?_ ?_
    apply OutKeeps.next
    assumption
    apply OutKeeps.next
    apply foldl_keeps
    apply State.updCat_keeps
    assumption
    intro _
    intro _
    apply State.sendDev_keeps

theorem execREGISTRAR_NOP_REPLY_keeps {z : State} {dev} {epoch} {s : State} (hz : Keeps z s) :
    OutKeeps z (execREGISTRAR_NOP_REPLY dev epoch s) := by
  unfold execREGISTRAR_NOP_REPLY
  with_reducible
    split
    apply OutKeeps.next
    assumption
    apply OutKeeps.next
    refine Keeps.ite ?_ ?_
    apply State.fetchFrom_keeps
    apply State.updPeer_keeps
    assumption
    apply State.updPeer_keeps
    assumption

theorem execFENCE_keeps {z : State} {s : State} (hz : Keeps z s) :
    OutKeeps z (execFENCE s) := by
  unfold execFENCE
  with_reducible
    refine OutKeeps.ite ?_ ?_
    apply OutKeeps.next
    apply State.fence_keeps
    assumption
    apply OutKeeps.next
    assumption

theorem execFENCE_END_keeps {z : State} {s : State} (hz : Keeps z s) :
    OutKeeps z (execFENCE_END s) := by
  unfold execFENCE_END
  with_reducible
    refine OutKeeps.ite ?_ ?_
    ((try lift_lets -underBinder); intro _)
    ((try lift_lets -underBinder); intro x; refine (fun (hx : Keeps z x) => ?_) ?_; clear_value x)
    apply OutKeeps.next
    apply foldl_keeps
    assumption
    intro _
    intro _
    intro _
    apply State.holderLost_keeps
    assumption
    simp -zeta only [x]
    apply State.updCat_keeps
    apply State.setFld_keeps
    assumption
    apply OutKeeps.next
    assumption

end Sys2Proof.Machine
end

