-- ==== Sys2Proof/Laws/KeepCheckpoint.lean ====
section
/-!
SUPPORT. Every operation and meaning of Machine/Checkpoint.lean leaves the queue of waiting commands as it was and keeps the stores
canonical: for each f, `f_keeps` (Laws/Keeps.lean).
-/

namespace Sys2Proof.Machine

theorem execCKPT_TAKE_keeps {z : State} {x} {s : State} (hz : Keeps z s) :
    OutKeeps z (execCKPT_TAKE x s) := by
  unfold execCKPT_TAKE
  with_reducible
    apply runSlip_keeps
    assumption
    intro _
    intro _
    refine ResKeeps.ite ?_ ?_
    apply SlipRes.no_keeps
    assumption
    split
    apply SlipRes.no_keeps
    assumption
    refine ResKeeps.ite ?_ ?_
    apply SlipRes.no_keeps
    assumption
    refine ResKeeps.ite ?_ ?_
    apply SlipRes.no_keeps
    assumption
    apply ResKeeps.wait
    apply State.trigger_keeps
    assumption

theorem execCKPT_TIMER_EXPIRY_keeps {z : State} {s : State} (hz : Keeps z s) :
    OutKeeps z (execCKPT_TIMER_EXPIRY s) := by
  unfold execCKPT_TIMER_EXPIRY
  with_reducible
    apply OutKeeps.next
    refine Keeps.ite ?_ ?_
    apply State.trigger_keeps
    assumption
    assumption

theorem execCKPT_STEP_COUNT_keeps {z : State} {s : State} (hz : Keeps z s) :
    OutKeeps z (execCKPT_STEP_COUNT s) := by
  unfold execCKPT_STEP_COUNT
  with_reducible
    apply OutKeeps.next
    refine Keeps.ite ?_ ?_
    apply State.trigger_keeps
    assumption
    assumption

theorem execSEQ_LIMIT_NEAR_keeps {z : State} {s : State} (hz : Keeps z s) :
    OutKeeps z (execSEQ_LIMIT_NEAR s) := by
  unfold execSEQ_LIMIT_NEAR
  with_reducible
    apply OutKeeps.next
    refine Keeps.ite ?_ ?_
    apply State.trigger_keeps
    refine Keeps.ite ?_ ?_
    apply State.wish_keeps
    assumption
    assumption
    refine Keeps.ite ?_ ?_
    apply State.wish_keeps
    assumption
    assumption

theorem execDEFERRED_CKPT_START_keeps {z : State} {s : State} (hz : Keeps z s) :
    OutKeeps z (execDEFERRED_CKPT_START s) := by
  unfold execDEFERRED_CKPT_START
  with_reducible
    apply OutKeeps.next
    refine Keeps.ite ?_ ?_
    apply State.beginCkpt_keeps
    assumption
    assumption

theorem execBARRIER_OVERRUN_keeps {z : State} {s : State} (hz : Keeps z s) :
    OutKeeps z (execBARRIER_OVERRUN s) := by
  unfold execBARRIER_OVERRUN
  with_reducible
    refine OutKeeps.ite ?_ ?_
    apply OutKeeps.next
    assumption
    apply OutKeeps.next
    apply State.release_keeps
    apply State.updCkpt_keeps
    apply State.endCkpt_keeps
    apply State.bump_keeps
    apply State.setFld_keeps
    assumption

theorem execBARRIER_RETRY_keeps {z : State} {s : State} (hz : Keeps z s) :
    OutKeeps z (execBARRIER_RETRY s) := by
  unfold execBARRIER_RETRY
  with_reducible
    split
    refine OutKeeps.ite ?_ ?_
    apply OutKeeps.next
    assumption
    refine OutKeeps.ite ?_ ?_
    apply OutKeeps.next
    apply State.beginCkpt_keeps
    assumption
    apply OutKeeps.next
    apply State.bump_keeps
    apply State.updCkpt_keeps
    assumption
    apply OutKeeps.next
    assumption

theorem State.setTriggers_keeps {z : State} {s : State} {timer} {steps} (hz : Keeps z s) :
    Keeps z (State.setTriggers s timer steps) := by
  unfold State.setTriggers
  with_reducible
    refine Keeps.ite ?_ ?_
    apply State.trigger_keeps
    refine Keeps.ite ?_ ?_
    apply State.trigger_keeps
    split
    apply State.setFld_keeps
    split
    apply State.setFld_keeps
    assumption
    assumption
    split
    apply State.setFld_keeps
    assumption
    assumption
    split
    apply State.setFld_keeps
    split
    apply State.setFld_keeps
    assumption
    assumption
    split
    apply State.setFld_keeps
    assumption
    assumption
    refine Keeps.ite ?_ ?_
    apply State.trigger_keeps
    split
    apply State.setFld_keeps
    split
    apply State.setFld_keeps
    assumption
    assumption
    split
    apply State.setFld_keeps
    assumption
    assumption
    split
    apply State.setFld_keeps
    split
    apply State.setFld_keeps
    assumption
    assumption
    split
    apply State.setFld_keeps
    assumption
    assumption

theorem execCKPT_SET_TRIGGERS_keeps {z : State} {x} {s : State} (hz : Keeps z s) :
    OutKeeps z (execCKPT_SET_TRIGGERS x s) := by
  unfold execCKPT_SET_TRIGGERS
  with_reducible
    apply runSlip_keeps
    assumption
    intro _
    intro _
    refine ResKeeps.ite ?_ ?_
    apply SlipRes.no_keeps
    assumption
    split
    apply SlipRes.no_keeps
    assumption
    refine ResKeeps.ite ?_ ?_
    apply SlipRes.no_keeps
    assumption
    refine ResKeeps.ite ?_ ?_
    apply SlipRes.no_keeps
    assumption
    refine ResKeeps.ite ?_ ?_
    apply SlipRes.no_keeps
    assumption
    refine ResKeeps.ite ?_ ?_
    apply SlipRes.no_keeps
    assumption
    refine ResKeeps.ite ?_ ?_
    apply ResKeeps.done
    apply State.setTriggers_keeps
    assumption
    refine ResKeeps.ite ?_ ?_
    apply SlipRes.no_keeps
    apply State.setTriggers_keeps
    assumption
    apply ResKeeps.wait
    apply State.emit_keeps
    apply State.updCkpt_keeps
    apply State.setTriggers_keeps
    assumption

theorem execCKPT_TRIG_WRITE_keeps {z : State} {value} {s : State} (hz : Keeps z s) :
    OutKeeps z (execCKPT_TRIG_WRITE value s) := by
  unfold execCKPT_TRIG_WRITE
  with_reducible
    refine OutKeeps.ite ?_ ?_
    apply OutKeeps.next
    apply State.regAccErr_keeps
    assumption
    apply OutKeeps.next
    apply State.setTriggers_keeps
    assumption

theorem execCKPT_QUERY_keeps {z : State} {x} {s : State} (hz : Keeps z s) :
    OutKeeps z (execCKPT_QUERY x s) := by
  unfold execCKPT_QUERY
  with_reducible
    apply runSlip_keeps
    assumption
    intro _
    intro _
    refine ResKeeps.ite ?_ ?_
    apply SlipRes.no_keeps
    assumption
    split
    apply SlipRes.no_keeps
    assumption
    apply ResKeeps.done
    assumption

theorem execPRESS_WRITE_DONE_keeps {z : State} {blocks} {s : State} (hz : Keeps z s) :
    OutKeeps z (execPRESS_WRITE_DONE blocks s) := by
  unfold execPRESS_WRITE_DONE
  with_reducible
    apply OutKeeps.next
    apply State.pressStep_keeps
    assumption

theorem execPRESS_WRITE_ERROR_keeps {z : State} {s : State} (hz : Keeps z s) :
    OutKeeps z (execPRESS_WRITE_ERROR s) := by
  unfold execPRESS_WRITE_ERROR
  with_reducible
    split
    refine OutKeeps.ite ?_ ?_
    apply OutKeeps.next
    apply State.bump_keeps
    apply State.pressError_keeps
    assumption
    apply OutKeeps.next
    assumption
    apply OutKeeps.next
    assumption

theorem execMIRROR_ACK_keeps {z : State} {dev} {status} {s : State} (hz : Keeps z s) :
    OutKeeps z (execMIRROR_ACK dev status s) := by
  unfold execMIRROR_ACK
  with_reducible
    split
    apply OutKeeps.next
    assumption
    split
    apply OutKeeps.next
    assumption
    refine OutKeeps.ite ?_ ?_
    apply OutKeeps.next
    assumption
    refine OutKeeps.ite ?_ ?_
    apply OutKeeps.next
    apply State.mirrorLost_keeps
    assumption
    refine OutKeeps.ite ?_ ?_
    apply OutKeeps.next
    apply State.mirrorSend_keeps
    assumption
    apply OutKeeps.next
    apply State.mirrorEnd_keeps
    apply State.updRun_keeps
    assumption

theorem State.keepMirror_keeps {z s : State} {m first l} (hz : Keeps z s) :
    OptAll (fun p => Keeps z p.1) (State.keepMirror s m first l) := by
  induction l generalizing s m first with
  | nil => exact OptAll.some hz
  | cons b l ih =>
    unfold State.keepMirror
    split
    · exact OptAll.none
    · exact ih (State.updCkpt_keeps (State.guardRun_keeps hz))

theorem execCKPT_MIRROR_PUT_keeps {z : State} {x} {s : State} (hz : Keeps z s) :
    OutKeeps z (execCKPT_MIRROR_PUT x s) := by
  unfold execCKPT_MIRROR_PUT
  with_reducible
    apply runSlip_keeps
    assumption
    intro _
    intro _
    refine ResKeeps.ite ?_ ?_
    apply SlipRes.no_keeps
    assumption
    split
    apply SlipRes.no_keeps
    assumption
    refine ResKeeps.ite ?_ ?_
    apply SlipRes.no_keeps
    assumption
    refine ResKeeps.ite ?_ ?_
    apply SlipRes.no_keeps
    assumption
    split
    apply SlipRes.no_keeps
    assumption
    refine ResKeeps.ite ?_ ?_
    apply ResKeeps.done
    assumption
    refine ResKeeps.ite ?_ ?_
    apply SlipRes.no_keeps
    assumption
    refine ResKeeps.ite ?_ ?_
    apply SlipRes.no_keeps
    assumption
    refine ResKeeps.ite ?_ ?_
    apply SlipRes.no_keeps
    assumption
    split
    apply ResKeeps.done
    refine OptAll.get1 (State.keepMirror_keeps ?_) (by assumption)
    refine Keeps.ite ?_ ?_
    apply State.updCkpt_keeps
    assumption
    assumption
    apply SlipRes.no_keeps
    assumption

theorem execCKPT_MIRROR_GET_keeps {z : State} {x} {s : State} (hz : Keeps z s) :
    OutKeeps z (execCKPT_MIRROR_GET x s) := by
  unfold execCKPT_MIRROR_GET
  with_reducible
    apply runSlip_keeps
    assumption
    intro _
    intro _
    refine ResKeeps.ite ?_ ?_
    apply SlipRes.no_keeps
    assumption
    split
    apply SlipRes.no_keeps
    assumption
    refine ResKeeps.ite ?_ ?_
    apply SlipRes.no_keeps
    assumption
    ((try lift_lets -underBinder); intro x; simp -zeta only [x])
    ((try lift_lets -underBinder); intro x; simp -zeta only [x])
    ((try lift_lets -underBinder); intro x; simp -zeta only [x])
    split
    apply SlipRes.no_keeps
    assumption
    refine ResKeeps.ite ?_ ?_
    apply SlipRes.no_keeps
    assumption
    refine ResKeeps.ite ?_ ?_
    split
    apply ResKeeps.done
    assumption
    apply SlipRes.no_keeps
    assumption
    refine ResKeeps.ite ?_ ?_
    apply SlipRes.no_keeps
    assumption
    refine ResKeeps.ite ?_ ?_
    apply SlipRes.no_keeps
    apply State.bump_keeps
    assumption
    apply ResKeeps.done
    assumption

theorem execMIRROR_COPY_EXPIRY_keeps {z : State} {dev} {s : State} (hz : Keeps z s) :
    OutKeeps z (execMIRROR_COPY_EXPIRY dev s) := by
  unfold execMIRROR_COPY_EXPIRY
  with_reducible
    split
    refine OutKeeps.ite ?_ ?_
    apply OutKeeps.next
    assumption
    apply OutKeeps.next
    apply State.updCkpt_keeps
    assumption
    apply OutKeeps.next
    assumption

theorem State.recount_keeps {z : State} {s : State} (hz : Keeps z s) :
    Keeps z (State.recount s) := by
  unfold State.recount
  with_reducible
    (simp -zeta only [mk_keeps_iff]; apply KeptParts.fold)
    assumption

theorem State.applySnapshot_keeps {z : State} {s : State} {k} (hz : Keeps z s) :
    Keeps z (State.applySnapshot s k) := by
  unfold State.applySnapshot
  with_reducible
    apply State.recount_keeps
    ((try lift_lets -underBinder); intro x; simp -zeta only [x])
    (simp -zeta only [mk_keeps_iff]; apply KeptParts.fold)
    apply foldl_keeps
    apply State.setFld_keeps
    apply State.setFld_keeps
    apply State.setFld_keeps
    apply foldl_keeps
    assumption
    intro _
    intro _
    apply State.setReg_keeps
    intro _
    intro _
    intro _
    apply State.setPeer_keeps
    refine Keeps.ite ?_ ?_
    assumption
    apply State.closePeer_keeps
    assumption

theorem State.updRestore_keeps {z : State} {s : State} {f} (hz : Keeps z s) :
    Keeps z (State.updRestore s f) := by
  unfold State.updRestore
  with_reducible
    apply State.updCkpt_keeps
    assumption

theorem State.restoreMade_keeps {z : State} {s : State} (hz : Keeps z s) :
    Keeps z (State.restoreMade s) := by
  unfold State.restoreMade
  with_reducible
    (simp -zeta only [mk_keeps_iff]; apply KeptParts.fold)
    assumption

theorem State.restoreFails_keeps {z : State} {s : State} (hz : Keeps z s) :
    Keeps z (State.restoreFails s) := by
  unfold State.restoreFails
  with_reducible
    split
    assumption
    ((try lift_lets -underBinder); intro x; refine (fun (hx : Keeps z x) => ?_) ?_; clear_value x)
    apply State.finish_keeps
    assumption
    simp -zeta only [x]
    apply State.restoreMade_keeps
    apply State.setPhase_keeps
    apply State.updCkpt_keeps
    assumption

theorem State.sealRead_keeps {z : State} {s : State} {place} {b} (hz : Keeps z s) :
    Keeps z (State.sealRead s place b) := by
  unfold State.sealRead
  with_reducible
    refine Keeps.ite ?_ ?_
    assumption
    apply State.updRestore_keeps
    assumption

theorem State.askMirrors_keeps {z : State} {s : State} {r} (hz : Keeps z s) :
    Keeps z (State.askMirrors s r) := by
  unfold State.askMirrors
  with_reducible
    apply foldl_keeps
    apply State.updRestore_keeps
    assumption
    intro _
    intro _
    apply State.sendDev_keeps

theorem State.askBlocks_keeps {z : State} {s : State} {r} {c} (hz : Keeps z s) :
    Keeps z (State.askBlocks s r c) := by
  unfold State.askBlocks
  with_reducible
    apply State.sendDev_keeps
    assumption

theorem State.nextCandidate_keeps {z : State} {s : State} (hz : Keeps z s) :
    Keeps z (State.nextCandidate s) := by
  unfold State.nextCandidate
  with_reducible
    split
    assumption
    split
    apply State.restoreFails_keeps
    assumption
    refine Keeps.ite ?_ ?_
    apply State.emit_keeps
    apply State.updRestore_keeps
    assumption
    apply State.askBlocks_keeps
    apply State.updRestore_keeps
    assumption

theorem State.candidateFails_keeps {z : State} {s : State} (hz : Keeps z s) :
    Keeps z (State.candidateFails s) := by
  unfold State.candidateFails
  with_reducible
    split
    assumption
    split
    apply State.nextCandidate_keeps
    assumption
    refine Keeps.ite ?_ ?_
    apply State.sendDev_keeps
    apply State.updRestore_keeps
    assumption
    apply State.nextCandidate_keeps
    apply State.updRestore_keeps
    assumption

theorem State.startTimers_keeps {z : State} {s : State} (hz : Keeps z s) :
    Keeps z (State.startTimers s) := by
  unfold State.startTimers
  with_reducible
    (simp -zeta only [mk_keeps_iff]; apply KeptParts.fold)
    assumption

theorem State.reviveArmed_keeps {z : State} {s : State} {i} (hz : Keeps z s) :
    Keeps z (State.reviveArmed s i) := by
  unfold State.reviveArmed
  with_reducible
    refine Keeps.ite ?_ ?_
    apply State.startRevive_keeps
    assumption
    assumption

theorem State.restoreDone_keeps {z : State} {s : State} {r} {no} (hz : Keeps z s) :
    Keeps z (State.restoreDone s r no) := by
  unfold State.restoreDone
  with_reducible
    ((try lift_lets -underBinder); intro x; refine (fun (hx : Keeps z x) => ?_) ?_; clear_value x)
    ((try lift_lets -underBinder); intro x; refine (fun (hx : Keeps z x) => ?_) ?_; clear_value x)
    ((try lift_lets -underBinder); intro x; refine (fun (hx : Keeps z x) => ?_) ?_; clear_value x)
    apply foldl_keeps
    assumption
    intro _
    intro _
    intro _
    apply State.reviveArmed_keeps
    assumption
    simp -zeta only [x]
    apply State.finish_keeps
    assumption
    simp -zeta only [x]
    apply State.bump_keeps
    assumption
    simp -zeta only [x]
    apply State.startTimers_keeps
    apply State.restoreMade_keeps
    apply State.setPhase_keeps
    apply State.updCkpt_keeps
    assumption

theorem State.takeCandidate_keeps {z : State} {s : State} {r} {c} (hz : Keeps z s) :
    Keeps z (State.takeCandidate s r c) := by
  unfold State.takeCandidate
  with_reducible
    split
    apply State.candidateFails_keeps
    assumption
    refine Keeps.ite ?_ ?_
    apply State.candidateFails_keeps
    assumption
    refine Keeps.ite ?_ ?_
    apply State.restoreDone_keeps
    apply State.updRestore_keeps
    apply State.updCkpt_keeps
    apply State.setFld_keeps
    apply State.setFld_keeps
    apply State.setFld_keeps
    apply State.setFld_keeps
    apply State.setFld_keeps
    apply State.applySnapshot_keeps
    assumption
    refine Keeps.ite ?_ ?_
    apply State.askJoin_keeps
    apply State.updCat_keeps
    apply State.updRestore_keeps
    apply State.updCkpt_keeps
    apply State.setFld_keeps
    apply State.setFld_keeps
    apply State.setFld_keeps
    apply State.setFld_keeps
    apply State.setFld_keeps
    apply State.applySnapshot_keeps
    assumption
    split
    apply State.restoreDone_keeps
    apply State.updCat_keeps
    apply State.updRestore_keeps
    apply State.updCkpt_keeps
    apply State.setFld_keeps
    apply State.setFld_keeps
    apply State.setFld_keeps
    apply State.setFld_keeps
    apply State.setFld_keeps
    apply State.applySnapshot_keeps
    assumption
    apply State.fetchFrom_keeps
    apply State.updCat_keeps
    apply State.sponsor_keeps
    apply State.updCat_keeps
    apply State.updRestore_keeps
    apply State.updCkpt_keeps
    apply State.setFld_keeps
    apply State.setFld_keeps
    apply State.setFld_keeps
    apply State.setFld_keeps
    apply State.setFld_keeps
    apply State.applySnapshot_keeps
    assumption

theorem State.readSeals_keeps {z : State} {s : State} (hz : Keeps z s) :
    Keeps z (State.readSeals s) := by
  unfold State.readSeals
  with_reducible
    refine Keeps.ite ?_ ?_
    apply State.emit_keeps
    apply State.emit_keeps
    apply State.updRestore_keeps
    assumption
    apply State.updRestore_keeps
    assumption

theorem State.tryAddress_keeps {z : State} {s : State} {r} (hz : Keeps z s) :
    Keeps z (State.tryAddress s r) := by
  unfold State.tryAddress
  with_reducible
    split
    apply State.readSeals_keeps
    assumption
    apply State.fetchFrom_keeps
    apply State.sponsor_keeps
    apply State.updRestore_keeps
    split
    apply State.setPeer_keeps
    apply State.closePeer_keeps
    assumption
    assumption

theorem State.restoreStep_keeps {z : State} {s : State} (hz : Keeps z s) :
    Keeps z (State.restoreStep s) := by
  unfold State.restoreStep
  with_reducible
    split
    assumption
    refine Keeps.ite ?_ ?_
    refine Keeps.ite ?_ ?_
    assumption
    refine Keeps.ite ?_ ?_
    apply State.wake_keeps
    apply State.readSeals_keeps
    assumption
    ((try lift_lets -underBinder); intro x; refine (fun (hx : Keeps z x) => ?_) ?_; clear_value x)
    refine Keeps.ite ?_ ?_
    assumption
    apply State.wake_keeps
    assumption
    simp -zeta only [x]
    apply State.tryAddress_keeps
    assumption
    refine Keeps.ite ?_ ?_
    refine Keeps.ite ?_ ?_
    apply State.wake_keeps
    apply State.askMirrors_keeps
    assumption
    assumption
    refine Keeps.ite ?_ ?_
    refine Keeps.ite ?_ ?_
    apply State.nextCandidate_keeps
    assumption
    assumption
    refine Keeps.ite ?_ ?_
    refine Keeps.ite ?_ ?_
    apply State.restoreDone_keeps
    assumption
    assumption
    assumption

theorem execCKPT_RESTORE_keeps {z : State} {x} {s : State} (hz : Keeps z s) :
    OutKeeps z (execCKPT_RESTORE x s) := by
  unfold execCKPT_RESTORE
  with_reducible
    apply runSlip_keeps
    assumption
    intro _
    intro _
    refine ResKeeps.ite ?_ ?_
    apply SlipRes.no_keeps
    assumption
    split
    apply SlipRes.no_keeps
    assumption
    refine ResKeeps.ite ?_ ?_
    apply SlipRes.no_keeps
    assumption
    refine ResKeeps.ite ?_ ?_
    apply SlipRes.no_keeps
    assumption
    refine ResKeeps.ite ?_ ?_
    apply SlipRes.no_keeps
    assumption
    refine ResKeeps.ite ?_ ?_
    apply SlipRes.no_keeps
    assumption
    refine ResKeeps.ite ?_ ?_
    apply SlipRes.no_keeps
    assumption
    apply ResKeeps.wait
    apply State.wake_keeps
    apply State.setPhase_keeps
    apply State.updCkpt_keeps
    assumption

theorem execRESTORE_MAP_TIMEOUT_keeps {z : State} {s : State} (hz : Keeps z s) :
    OutKeeps z (execRESTORE_MAP_TIMEOUT s) := by
  unfold execRESTORE_MAP_TIMEOUT
  with_reducible
    split
    refine OutKeeps.ite ?_ ?_
    apply OutKeeps.next
    apply State.wake_keeps
    apply State.readSeals_keeps
    apply State.updCat_keeps
    assumption
    apply OutKeeps.next
    assumption
    apply OutKeeps.next
    assumption

theorem State.restoreRead_keeps {z : State} {s : State} {op} {ok} {intact} (hz : Keeps z s) :
    Keeps z (State.restoreRead s op ok intact) := by
  unfold State.restoreRead
  with_reducible
    split
    assumption
    split
    refine Keeps.ite ?_ ?_
    assumption
    apply State.wake_keeps
    split
    refine Keeps.ite ?_ ?_
    apply State.sealRead_keeps
    apply State.updRestore_keeps
    assumption
    apply State.updRestore_keeps
    assumption
    apply State.updRestore_keeps
    assumption
    split
    refine Keeps.ite ?_ ?_
    assumption
    refine Keeps.ite ?_ ?_
    apply State.takeCandidate_keeps
    assumption
    apply State.candidateFails_keeps
    refine Keeps.ite ?_ ?_
    apply State.colophonErr_keeps
    assumption
    assumption
    assumption
    assumption

theorem State.askAdoption_keeps {z : State} {s : State} (hz : Keeps z s) :
    Keeps z (State.askAdoption s) := by
  unfold State.askAdoption
  with_reducible
    split
    assumption
    refine Keeps.ite ?_ ?_
    apply State.sendDev_keeps
    assumption
    split
    assumption
    apply State.sendDev_keeps
    assumption

theorem State.updAdoption_keeps {z : State} {s : State} {f} (hz : Keeps z s) :
    Keeps z (State.updAdoption s f) := by
  unfold State.updAdoption
  with_reducible
    apply State.updCkpt_keeps
    assumption

theorem State.endAdoption_keeps {z : State} {s : State} (hz : Keeps z s) :
    Keeps z (State.endAdoption s) := by
  unfold State.endAdoption
  with_reducible
    split
    assumption
    apply State.askAdoption_keeps
    apply State.updCat_keeps
    apply State.updCkpt_keeps
    assumption

theorem State.nextHolder_keeps {z : State} {s : State} (hz : Keeps z s) :
    Keeps z (State.nextHolder s) := by
  unfold State.nextHolder
  with_reducible
    split
    assumption
    split
    apply State.endAdoption_keeps
    assumption
    apply State.askAdoption_keeps
    apply State.updAdoption_keeps
    assumption

theorem State.adoptRecord_keeps {z : State} {s : State} {dev} {no} {b} (hz : Keeps z s) :
    Keeps z (State.adoptRecord s dev no b) := by
  unfold State.adoptRecord
  with_reducible
    refine Keeps.ite ?_ ?_
    assumption
    split
    apply State.updCkpt_keeps
    assumption
    assumption
    refine Keeps.ite ?_ ?_
    apply State.adoptSettle_keeps
    apply State.updCat_keeps
    apply State.setSess_keeps
    assumption
    apply State.askObject_keeps
    ((try lift_lets -underBinder); intro x; simp -zeta only [x])
    (simp -zeta only [mk_keeps_iff]; apply KeptParts.fold)
    apply State.updCat_keeps
    apply State.setSess_keeps
    assumption

theorem State.indexRead_keeps {z : State} {s : State} {a} {end_} (hz : Keeps z s) :
    Keeps z (State.indexRead s a end_) := by
  unfold State.indexRead
  with_reducible
    refine Keeps.ite ?_ ?_
    apply State.endAdoption_keeps
    assumption
    apply State.askAdoption_keeps
    apply State.updAdoption_keeps
    assumption

theorem State.adoptBlocks_keeps {z : State} {s : State} {a} {data} (hz : Keeps z s) :
    Keeps z (State.adoptBlocks s a data) := by
  unfold State.adoptBlocks
  with_reducible
    ((try lift_lets -underBinder); intro x; simp -zeta only [x])
    ((try lift_lets -underBinder); intro x; simp -zeta only [x])
    split
    assumption
    refine Keeps.ite ?_ ?_
    apply State.nextHolder_keeps
    assumption
    refine Keeps.ite ?_ ?_
    apply State.askAdoption_keeps
    apply State.updAdoption_keeps
    assumption
    refine Keeps.ite ?_ ?_
    apply State.indexRead_keeps
    apply State.updAdoption_keeps
    assumption
    apply State.endAdoption_keeps
    apply foldl_keeps
    apply State.updAdoption_keeps
    assumption
    intro _
    apply State.adoptRecord_keeps

theorem State.adoptReply_keeps {z : State} {s : State} {a} {r} (hz : Keeps z s) :
    Keeps z (State.adoptReply s a r) := by
  unfold State.adoptReply
  with_reducible
    refine Keeps.ite ?_ ?_
    apply State.nextHolder_keeps
    assumption
    refine Keeps.ite ?_ ?_
    apply State.adoptBlocks_keeps
    assumption
    refine Keeps.ite ?_ ?_
    apply State.nextHolder_keeps
    assumption
    refine Keeps.ite ?_ ?_
    apply State.endAdoption_keeps
    assumption
    apply State.askAdoption_keeps
    apply State.updAdoption_keeps
    assumption

theorem execREHOME_DELAY_EXPIRY_keeps {z : State} {dev} {s : State} (hz : Keeps z s) :
    OutKeeps z (execREHOME_DELAY_EXPIRY dev s) := by
  unfold execREHOME_DELAY_EXPIRY
  with_reducible
    split
    apply OutKeeps.next
    assumption
    refine OutKeeps.ite ?_ ?_
    apply OutKeeps.next
    assumption
    apply OutKeeps.next
    refine Keeps.ite ?_ ?_
    apply State.nextHolder_keeps
    apply State.updCkpt_keeps
    apply State.updCat_keeps
    assumption
    apply State.updCkpt_keeps
    apply State.updCat_keeps
    assumption

theorem execMIRROR_GET_REPLY_keeps {z : State} {dev} {r} {s : State} (hz : Keeps z s) :
    OutKeeps z (execMIRROR_GET_REPLY dev r s) := by
  unfold execMIRROR_GET_REPLY
  with_reducible
    split
    refine OutKeeps.ite ?_ ?_
    apply OutKeeps.next
    assumption
    refine OutKeeps.ite ?_ ?_
    apply OutKeeps.next
    apply State.wake_keeps
    refine Keeps.ite ?_ ?_
    apply State.sealRead_keeps
    apply State.updRestore_keeps
    assumption
    apply State.updRestore_keeps
    assumption
    refine OutKeeps.ite ?_ ?_
    split
    apply OutKeeps.next
    assumption
    refine OutKeeps.ite ?_ ?_
    apply OutKeeps.next
    apply State.candidateFails_keeps
    assumption
    refine OutKeeps.ite ?_ ?_
    apply OutKeeps.next
    apply State.askBlocks_keeps
    apply State.updRestore_keeps
    assumption
    refine OutKeeps.ite ?_ ?_
    apply OutKeeps.next
    apply State.takeCandidate_keeps
    apply State.updRestore_keeps
    assumption
    apply OutKeeps.next
    apply State.candidateFails_keeps
    apply State.colophonErr_keeps
    apply State.updRestore_keeps
    assumption
    apply OutKeeps.next
    assumption
    split
    apply OutKeeps.next
    assumption
    refine OutKeeps.ite ?_ ?_
    apply OutKeeps.next
    apply State.adoptReply_keeps
    assumption
    apply OutKeeps.next
    assumption

end Sys2Proof.Machine
end

