-- ==== Sys2Proof/Laws/KeepVector.lean ====
section
/-!
SUPPORT. Every operation and meaning of Machine/Vector.lean leaves the queue of waiting commands as it was and keeps the stores
canonical: for each f, `f_keeps` (Laws/Keeps.lean).
-/

namespace Sys2Proof.Machine

theorem runVec_keeps {z : State} {op} {x} {masks} {s : State} {f} (hz : Keeps z s) (hf : ∀ x v, Keeps z x → ResKeeps z (f x v)) :
    OutKeeps z (runVec op x masks s f) := by
  unfold runVec
  with_reducible
    apply runSlip_keeps
    assumption
    intro _
    intro _
    refine ResKeeps.ite ?_ ?_
    apply SlipRes.no_keeps
    assumption
    split
    apply SlipRes.no_keeps
    assumption
    split
    apply ResKeeps.done
    assumption
    apply hf
    assumption

theorem State.rechargeShard_keeps {z : State} {s : State} {id} {old} (hz : Keeps z s) :
    OptAll (Keeps z) (State.rechargeShard s id old) := by
  unfold State.rechargeShard
  with_reducible
    split
    apply OptAll.some
    assumption
    refine OptAll.ite ?_ ?_
    apply OptAll.some
    apply State.subUsed_keeps
    assumption
    refine OptAll.ite ?_ ?_
    apply OptAll.some
    apply State.addUsed_keeps
    assumption
    apply OptAll.none

theorem execVEC_CREATE_keeps {z : State} {x} {s : State} (hz : Keeps z s) :
    OutKeeps z (execVEC_CREATE x s) := by
  unfold execVEC_CREATE
  with_reducible
    apply runSlip_keeps
    assumption
    intro _
    intro _
    refine ResKeeps.ite ?_ ?_
    apply SlipRes.no_keeps
    assumption
    split
    apply SlipRes.no_keeps
    assumption
    apply SlipRes.no_keeps
    assumption
    refine ResKeeps.ite ?_ ?_
    apply SlipRes.no_keeps
    assumption
    refine ResKeeps.ite ?_ ?_
    apply SlipRes.no_keeps
    assumption
    refine ResKeeps.ite ?_ ?_
    apply SlipRes.no_keeps
    assumption
    refine ResKeeps.ite ?_ ?_
    apply SlipRes.no_keeps
    assumption
    refine ResKeeps.ite ?_ ?_
    apply SlipRes.no_keeps
    assumption
    apply ResKeeps.done
    apply State.setShard_keeps
    assumption

theorem State.dropShard_keeps {z : State} {s : State} {id} (hz : Keeps z s) :
    Keeps z (State.dropShard s id).1 := by
  unfold State.dropShard
  with_reducible
    split
    assumption
    ((try lift_lets -underBinder); intro x; refine (fun (hx : Keeps z x) => ?_) ?_; clear_value x)
    (simp -zeta only [mk_keeps_iff]; apply KeptParts.fold)
    assumption
    apply State.subUsed_keeps
    assumption

theorem execVEC_DROP_keeps {z : State} {x} {s : State} (hz : Keeps z s) :
    OutKeeps z (execVEC_DROP x s) := by
  unfold execVEC_DROP
  with_reducible
    apply runSlip_keeps
    assumption
    intro _
    intro _
    refine ResKeeps.ite ?_ ?_
    apply SlipRes.no_keeps
    assumption
    split
    apply SlipRes.no_keeps
    assumption
    apply SlipRes.no_keeps
    assumption
    refine ResKeeps.ite ?_ ?_
    apply SlipRes.no_keeps
    assumption
    refine ResKeeps.ite ?_ ?_
    apply SlipRes.no_keeps
    assumption
    refine ResKeeps.ite ?_ ?_
    apply ResKeeps.hold
    apply State.updOutst_keeps
    apply State.setShard_keeps
    assumption
    apply ResKeeps.done
    apply State.dropShard_keeps
    assumption

theorem State.insertAll_keeps {z s : State} {id l} (hz : Keeps z s) : OptAll (fun p => Keeps z p.1) (State.insertAll s id l) := by
  induction l generalizing s with
  | nil => exact OptAll.some hz
  | cons b l ih =>
    obtain ⟨key, tag, list, elems⟩ := b
    unfold State.insertAll
    split
    · exact OptAll.none
    · simp only
      split
      · exact OptAll.none
      · rename_i t ht
        refine OptAll.map (Q := fun p => Keeps z p.1) (ih (OptAll.get0 (State.putRecord_keeps ?_) ht)) (fun _ h => h)
        split
        · exact State.setTomb_keeps hz
        · exact hz

theorem execVEC_INSERT_keeps {z : State} {x} {s : State} (hz : Keeps z s) :
    OutKeeps z (execVEC_INSERT x s) := by
  unfold execVEC_INSERT
  with_reducible
    apply runVec_keeps
    assumption
    intro _
    intro _
    intro _
    ((try lift_lets -underBinder); intro x; simp -zeta only [x])
    ((try lift_lets -underBinder); intro x; simp -zeta only [x])
    split
    apply SlipRes.no_keeps
    assumption
    refine ResKeeps.ite ?_ ?_
    apply SlipRes.no_keeps
    assumption
    refine ResKeeps.ite ?_ ?_
    apply SlipRes.no_keeps
    assumption
    refine ResKeeps.ite ?_ ?_
    apply SlipRes.no_keeps
    assumption
    refine ResKeeps.ite ?_ ?_
    apply SlipRes.no_keeps
    assumption
    refine ResKeeps.ite ?_ ?_
    apply SlipRes.no_keeps
    assumption
    refine ResKeeps.ite ?_ ?_
    apply SlipRes.no_keeps
    assumption
    refine ResKeeps.ite ?_ ?_
    apply SlipRes.no_keeps
    assumption
    ((try lift_lets -underBinder); intro x; simp -zeta only [x])
    split
    apply SlipRes.no_keeps
    assumption
    refine ResKeeps.ite ?_ ?_
    apply SlipRes.no_keeps
    assumption
    split
    apply SlipRes.no_keeps
    assumption
    apply ResKeeps.done
    apply State.bumpBy_keeps
    apply State.bumpBy_keeps
    refine OptAll.get0 (State.rechargeShard_keeps ?_) (by assumption)
    refine OptAll.get1 (State.insertAll_keeps ?_) (by assumption)
    assumption

theorem State.deleteKeys_keeps {z s : State} {id l} (hz : Keeps z s) : Keeps z (State.deleteKeys s id l).1 := by
  induction l generalizing s with
  | nil => exact hz
  | cons b l ih =>
    unfold State.deleteKeys
    split
    · exact hz
    · split
      · exact ih hz
      · exact ih (State.setShard_keeps (State.setTomb_keeps hz))

theorem execVEC_DELETE_keeps {z : State} {x} {s : State} (hz : Keeps z s) :
    OutKeeps z (execVEC_DELETE x s) := by
  unfold execVEC_DELETE
  with_reducible
    apply runVec_keeps
    assumption
    intro _
    intro _
    intro _
    ((try lift_lets -underBinder); intro x; simp -zeta only [x])
    split
    apply SlipRes.no_keeps
    assumption
    refine ResKeeps.ite ?_ ?_
    apply SlipRes.no_keeps
    assumption
    refine ResKeeps.ite ?_ ?_
    apply SlipRes.no_keeps
    assumption
    refine ResKeeps.ite ?_ ?_
    apply SlipRes.no_keeps
    assumption
    apply ResKeeps.done
    apply State.bumpBy_keeps
    refine OptAll.getD (State.rechargeShard_keeps ?_) ?_
    apply State.deleteKeys_keeps
    assumption
    apply State.deleteKeys_keeps
    assumption

theorem State.endSearch_keeps {z : State} {s : State} {req} {q} {a} (hz : Keeps z s) :
    Keeps z (State.endSearch s req q a) := by
  unfold State.endSearch
  with_reducible
    refine Keeps.ite ?_ ?_
    refine Keeps.ite ?_ ?_
    apply State.bump_keeps
    apply State.finish_keeps
    (simp -zeta only [mk_keeps_iff]; apply KeptParts.fold)
    assumption
    refine Keeps.ite ?_ ?_
    apply State.bump_keeps
    apply State.finish_keeps
    (simp -zeta only [mk_keeps_iff]; apply KeptParts.fold)
    assumption
    apply State.finish_keeps
    (simp -zeta only [mk_keeps_iff]; apply KeptParts.fold)
    assumption
    apply State.release_keeps
    refine Keeps.ite ?_ ?_
    apply State.bump_keeps
    apply State.finish_keeps
    (simp -zeta only [mk_keeps_iff]; apply KeptParts.fold)
    assumption
    refine Keeps.ite ?_ ?_
    apply State.bump_keeps
    apply State.finish_keeps
    (simp -zeta only [mk_keeps_iff]; apply KeptParts.fold)
    assumption
    apply State.finish_keeps
    (simp -zeta only [mk_keeps_iff]; apply KeptParts.fold)
    assumption

theorem State.vecMedia_keeps {z : State} {s : State} {v} {list} (hz : Keeps z s) :
    Keeps z (State.vecMedia s v list).1 := by
  unfold State.vecMedia
  with_reducible
    apply State.errRecord_keeps
    assumption

theorem State.startRound_keeps {z : State} {s : State} {req} {q} (hz : Keeps z s) :
    Keeps z (State.startRound s req q).1 := by
  unfold State.startRound
  with_reducible
    split
    apply Keeps.fst
    apply State.endSearch_keeps
    assumption
    split
    apply Keeps.fst
    apply State.endSearch_keeps
    assumption
    ((try lift_lets -underBinder); intro _)
    ((try lift_lets -underBinder); intro _)
    ((try lift_lets -underBinder); intro x; refine (fun (hx : Keeps z x) => ?_) ?_; clear_value x)
    ((try lift_lets -underBinder); intro _)
    refine Keeps.ite1 ?_ ?_
    apply Keeps.fst
    (simp -zeta only [mk_keeps_iff]; apply KeptParts.fold)
    assumption
    split
    ((try lift_lets -underBinder); intro x; simp -zeta only [x])
    apply State.endSearch_keeps
    apply State.vecMedia_keeps
    assumption
    ((try lift_lets -underBinder); intro x; refine (fun (hx : Keeps z x) => ?_) ?_; clear_value x)
    ((try lift_lets -underBinder); intro _)
    ((try lift_lets -underBinder); intro _)
    ((try lift_lets -underBinder); intro x; simp -zeta only [x])
    ((try lift_lets -underBinder); intro x; refine (fun (hx : Keeps z x) => ?_) ?_; clear_value x)
    ((try lift_lets -underBinder); intro _)
    (simp -zeta only [mk_keeps_iff]; apply KeptParts.fold)
    assumption
    simp -zeta only [x]
    apply foldl_keeps
    assumption
    intro _
    intro _
    intro _
    apply State.sendDev_keeps
    assumption
    simp -zeta only [x]
    apply State.bumpBy_keeps
    assumption
    simp -zeta only [x]
    apply State.queueTiles_keeps
    assumption

theorem State.goSearch_keeps {z s : State} {n req} (hz : Keeps z s) : Keeps z (State.goSearch n s req) := by
  induction n generalizing s with
  | zero => exact hz
  | succ n ih =>
    unfold State.goSearch
    split
    · exact hz
    · simp only
      split
      · exact hz
      · split
        · exact ih (State.startRound_keeps (State.bump_keeps hz))
        · exact State.endSearch_keeps hz

theorem execVEC_SEARCH_keeps {z : State} {x} {s : State} (hz : Keeps z s) :
    OutKeeps z (execVEC_SEARCH x s) := by
  unfold execVEC_SEARCH
  with_reducible
    apply runSlip_keeps
    assumption
    intro _
    intro _
    refine ResKeeps.ite ?_ ?_
    apply SlipRes.no_keeps
    assumption
    ((try lift_lets -underBinder); intro _)
    ((try lift_lets -underBinder); intro x; refine (fun (hx : Keeps z x) => ?_) ?_; clear_value x)
    refine ResKeeps.ite ?_ ?_
    apply SlipRes.no_keeps
    assumption
    split
    apply SlipRes.no_keeps
    assumption
    split
    apply ResKeeps.done
    assumption
    ((try lift_lets -underBinder); intro _)
    ((try lift_lets -underBinder); intro _)
    refine ResKeeps.ite ?_ ?_
    apply SlipRes.no_keeps
    assumption
    refine ResKeeps.ite ?_ ?_
    apply SlipRes.no_keeps
    assumption
    split
    apply SlipRes.no_keeps
    assumption
    refine ResKeeps.ite ?_ ?_
    apply SlipRes.no_keeps
    assumption
    split
    apply SlipRes.no_keeps
    assumption
    ((try lift_lets -underBinder); intro _)
    ((try lift_lets -underBinder); intro _)
    ((try lift_lets -underBinder); intro x; refine (fun (hx : Keeps z x) => ?_) ?_; clear_value x)
    ((try lift_lets -underBinder); intro x; refine (fun (hx : Keeps z x) => ?_) ?_; clear_value x)
    ((try lift_lets -underBinder); intro x; simp -zeta only [x])
    apply ResKeeps.wait
    apply State.goSearch_keeps
    apply State.startRound_keeps
    assumption
    simp -zeta only [x]
    apply State.updOutst_keeps
    assumption
    simp -zeta only [x]
    (simp -zeta only [mk_keeps_iff]; apply KeptParts.fold)
    assumption
    simp -zeta only [x]
    apply State.bump_keeps
    apply State.tally_keeps
    apply State.charge_keeps
    assumption

theorem execVEC_SHARD_SEARCH_keeps {z : State} {x} {s : State} (hz : Keeps z s) :
    OutKeeps z (execVEC_SHARD_SEARCH x s) := by
  unfold execVEC_SHARD_SEARCH
  with_reducible
    apply runVec_keeps
    assumption
    intro _
    intro _
    intro _
    refine ResKeeps.ite ?_ ?_
    apply SlipRes.no_keeps
    assumption
    refine ResKeeps.ite ?_ ?_
    apply SlipRes.no_keeps
    assumption
    split
    apply SlipRes.no_keeps
    assumption
    split
    apply SlipRes.no_keeps
    assumption
    apply SlipRes.no_keeps
    assumption
    ((try lift_lets -underBinder); intro x; refine (fun (hx : Keeps z x) => ?_) ?_; clear_value x)
    ((try lift_lets -underBinder); intro x; simp -zeta only [x])
    split
    apply ResKeeps.done
    apply State.bump_keeps
    apply State.vecMedia_keeps
    assumption
    apply ResKeeps.done
    apply State.bumpBy_keeps
    assumption
    apply State.bump_keeps
    assumption

theorem State.unanswered_keeps {z : State} {s : State} {req} {q} {shard} (hz : Keeps z s) :
    Keeps z (State.unanswered s req q shard) := by
  unfold State.unanswered
  with_reducible
    refine Keeps.ite ?_ ?_
    apply State.goSearch_keeps
    (simp -zeta only [mk_keeps_iff]; apply KeptParts.fold)
    apply State.bump_keeps
    assumption
    apply State.endSearch_keeps
    apply State.bump_keeps
    assumption

theorem execSHARD_REPLY_keeps {z : State} {req} {shard} {r} {s : State} (hz : Keeps z s) :
    OutKeeps z (execSHARD_REPLY req shard r s) := by
  unfold execSHARD_REPLY
  with_reducible
    split
    apply OutKeeps.next
    assumption
    refine OutKeeps.ite ?_ ?_
    apply OutKeeps.next
    assumption
    refine OutKeeps.ite ?_ ?_
    apply OutKeeps.next
    apply State.unanswered_keeps
    assumption
    apply OutKeeps.next
    apply State.goSearch_keeps
    (simp -zeta only [mk_keeps_iff]; apply KeptParts.fold)
    assumption

theorem execSHARD_TIMEOUT_keeps {z : State} {req} {s : State} (hz : Keeps z s) :
    OutKeeps z (execSHARD_TIMEOUT req s) := by
  unfold execSHARD_TIMEOUT
  with_reducible
    split
    apply OutKeeps.next
    assumption
    split
    apply OutKeeps.next
    assumption
    refine OutKeeps.ite ?_ ?_
    apply OutKeeps.next
    assumption
    refine OutKeeps.ite ?_ ?_
    apply OutKeeps.next
    apply State.goSearch_keeps
    (simp -zeta only [mk_keeps_iff]; apply KeptParts.fold)
    apply State.bumpBy_keeps
    assumption
    apply OutKeeps.next
    apply State.unanswered_keeps
    assumption

theorem State.searchFailed_keeps {z : State} {s : State} {req} (hz : Keeps z s) :
    Keeps z (State.searchFailed s req) := by
  unfold State.searchFailed
  with_reducible
    split
    assumption
    apply State.endSearch_keeps
    apply State.damageShard_keeps
    assumption

theorem State.compactList_keeps {z s : State} {id list} (hz : Keeps z s) :
    OptAll (fun p => Keeps z p.1) (State.compactList s id list) := by
  unfold State.compactList
  split
  · exact OptAll.none
  · lift_lets
    intro recs live old gen s0 put
    have h : OptAll (Keeps z) (live.foldl put (some s0)) := by
      refine foldl_keepsO (OptAll.some (State.setShard_keeps hz)) (fun o a ho => ?_)
      cases o with
      | none => exact OptAll.none
      | some t => exact State.putRecord_keeps ho
    split
    · exact OptAll.none
    · rename_i t ht
      exact OptAll.some (State.bump_keeps ⟨(OptAll.get0 h ht).parts⟩)

theorem execVEC_COMPACT_keeps {z s : State} {x} (hz : Keeps z s) : OutKeeps z (execVEC_COMPACT x s) := by
  unfold execVEC_COMPACT
  refine runVec_keeps hz (fun t v ht => ?_)
  apply ResKeeps.ite (ResKeeps.no ht)
  lift_lets -underBinder
  intro named todo
  apply ResKeeps.ite (ResKeeps.no ht)
  have h : OptAll (fun p => Keeps z p.1) (todo.foldl (fun a l => match a with
          | some (s, n, f) => (s.compactList x.P0 l).map (fun r => (r.1, n + r.2.1, f + r.2.2))
          | none => none) (some (t, 0, 0))) := by
    refine foldl_keepsO (OptAll.some ht) (fun o a ho => ?_)
    cases o with
    | none => exact OptAll.none
    | some u => exact OptAll.map (Q := fun p => Keeps z p.1) (State.compactList_keeps ho) (fun _ h => h)
  split
  · exact ResKeeps.no ht
  · rename_i u n f hu
    have hu : Keeps z u := h.get hu
    exact ResKeeps.done (OptAll.getD (State.rechargeShard_keeps hu) hu)

theorem execBACKGROUND_COMPACT_keeps {z : State} {id} {list} {s : State} (hz : Keeps z s) :
    OutKeeps z (execBACKGROUND_COMPACT id list s) := by
  unfold execBACKGROUND_COMPACT
  with_reducible
    split
    apply OutKeeps.next
    assumption
    refine OutKeeps.ite ?_ ?_
    split
    apply OutKeeps.next
    refine OptAll.getD (State.rechargeShard_keeps ?_) ?_
    refine OptAll.get1 (State.compactList_keeps ?_) (by assumption)
    assumption
    refine OptAll.get1 (State.compactList_keeps ?_) (by assumption)
    assumption
    apply OutKeeps.next
    assumption
    apply OutKeeps.next
    assumption

theorem State.takeBlocks_keeps {z s : State} {id n l} (hz : Keeps z s) : OptAll (fun p => Keeps z p.1) (State.takeBlocks s id n l) := by
  induction n generalizing s l with
  | zero => exact OptAll.some hz
  | succ n ih =>
    unfold State.takeBlocks
    split
    · exact ih ⟨hz.parts⟩
    · exact OptAll.none

theorem execVEC_SET_CENTROIDS_keeps {z s : State} {x} (hz : Keeps z s) : OutKeeps z (execVEC_SET_CENTROIDS x s) := by
  have prep : ∀ (t : State) (v : Shard) (c : Bool) (k l : Nat) (g : List Nat → Shard), Keeps z t → OptAll (Keeps z) (if c = true then some t else
      match ({ t with vecBlocks := t.vecBlocks.filter (fun b => !v.centBlocks.contains b.1) } : State).takeBlocks k l [] with
      | none => none
      | some (s, l) => some (s.setShard k (g l))) := by
    intro t v c k l g ht
    apply OptAll.ite (OptAll.some ht)
    split
    · exact OptAll.none
    · rename_i t3 l h3
      exact OptAll.some (State.setShard_keeps (OptAll.get1 (State.takeBlocks_keeps (Keeps.mk (by exact ht.parts))) h3))
  unfold execVEC_SET_CENTROIDS
  refine runVec_keeps hz (fun t v ht => ?_)
  dsimp only
  split
  · exact ResKeeps.no ht
  · apply ResKeeps.ite (ResKeeps.no ht)
    apply ResKeeps.ite (ResKeeps.no ht)
    apply ResKeeps.ite (ResKeeps.no ht)
    apply ResKeeps.ite (ResKeeps.no ht)
    apply ResKeeps.ite (ResKeeps.no ht)
    split
    · exact ResKeeps.no ht
    · rename_i t4 h4
      have h4 : Keeps z t4 := OptAll.get0 (prep _ _ _ _ _ _ ht) h4
      split
      · exact ResKeeps.no ht
      · rename_i t5 h5
        have h5 : Keeps z t5 := OptAll.get0 (State.rechargeShard_keeps h4) h5
        split
        · exact ResKeeps.no ht
        · exact ResKeeps.done (State.setShard_keeps (foldl_keeps h5 (fun _ _ h => State.centWr_keeps h)))

theorem execVEC_COL_SEL_keeps {z : State} {value} {s : State} (hz : Keeps z s) :
    OutKeeps z (execVEC_COL_SEL value s) := by
  unfold execVEC_COL_SEL
  with_reducible
    ((try lift_lets -underBinder); intro x; simp -zeta only [x])
    split
    apply OutKeeps.next
    apply State.setReg_keeps
    apply State.setReg_keeps
    apply State.setReg_keeps
    apply State.setReg_keeps
    assumption
    apply OutKeeps.next
    apply State.setReg_keeps
    apply State.setReg_keeps
    apply State.setReg_keeps
    apply State.setReg_keeps
    assumption

end Sys2Proof.Machine
end

