-- ==== Sys2Proof/Laws/KeepExchange.lean ====
section
/-!
SUPPORT. Every operation and meaning of Machine/Exchange.lean leaves the queue of waiting commands as it was and keeps the stores
canonical: for each f, `f_keeps` (Laws/Keeps.lean).
-/

namespace Sys2Proof.Machine

/-- The state of a served message keeps. -/
def ServedKeeps (r : State) : Served? → Prop
  | .yes t => Keeps r t
  | .fails t => Keeps r t
  | .none_ => True

theorem ServedKeeps.yes {r t : State} (h : Keeps r t) : ServedKeeps r (.yes t) := h

theorem ServedKeeps.fails {r t : State} (h : Keeps r t) : ServedKeeps r (.fails t) := h

theorem ServedKeeps.none {r : State} : ServedKeeps r .none_ := True.intro

theorem ServedKeeps.ite {r : State} {a b} {c : Prop} [Decidable c] (ha : ServedKeeps r a) (hb : ServedKeeps r b) : ServedKeeps r (if c then a else b) := by
  split <;> assumption

theorem ServedKeeps.yes_of {r t : State} {u} (h : ServedKeeps r u) (e : u = .yes t) : Keeps r t := by subst e; exact h

theorem ServedKeeps.fails_of {r t : State} {u} (h : ServedKeeps r u) (e : u = .fails t) : Keeps r t := by subst e; exact h

theorem State.admitStep_keeps {z : State} {s : State} {q} {queue} (hz : Keeps z s) :
    Keeps z (State.admitStep s q queue) := by
  unfold State.admitStep
  with_reducible
    ((try lift_lets -underBinder); intro x; refine (fun (hx : Keeps z x) => ?_) ?_; clear_value x)
    ((try lift_lets -underBinder); intro x; simp -zeta only [x])
    (simp -zeta only [mk_keeps_iff]; apply KeptParts.fold)
    assumption
    apply State.dequeue_keeps
    apply State.dequeued_keeps
    assumption

theorem State.takeDecode_keeps {z s : State} {p n l rows} (hz : Keeps z s) : Keeps z (State.takeDecode s p n l rows).1 := by
  induction l generalizing s n rows with
  | nil => unfold State.takeDecode; exact hz
  | cons q l ih =>
    cases n with
    | zero => exact hz
    | succ n =>
      unfold State.takeDecode
      simp only
      split
      · exact ih hz
      · split
        · exact ih (State.bump_keeps hz)
        · split
          · exact hz
          · rename_i t ht
            exact ih (State.admitStep_keeps (OptAll.get0 (State.reserve_keeps hz) ht))

theorem execBATCH_FORM_keeps {z : State} {s : State} (hz : Keeps z s) :
    OutKeeps z (execBATCH_FORM s) := by
  unfold execBATCH_FORM
  with_reducible
    split
    apply OutKeeps.next
    assumption
    refine OutKeeps.ite ?_ ?_
    apply OutKeeps.next
    assumption
    refine OutKeeps.ite ?_ ?_
    apply OutKeeps.next
    split
    apply State.makeRoom_keeps
    apply State.takeDecode_keeps
    assumption
    apply State.takeDecode_keeps
    assumption
    apply OutKeeps.next
    apply State.bump_keeps
    apply State.openStep_keeps
    split
    apply State.makeRoom_keeps
    apply State.takeDecode_keeps
    assumption
    apply State.takeDecode_keeps
    assumption

theorem State.pickPrefill_keeps {z s : State} {p l} (hz : Keeps z s) : Keeps z (State.pickPrefill s p l).1 := by
  induction l generalizing s with
  | nil => exact hz
  | cons q l ih =>
    unfold State.pickPrefill
    lift_lets
    intro e goal f left first
    clear_value left
    apply Keeps.ite1 (ih hz)
    apply Keeps.ite1 (ih (State.bump_keeps hz))
    apply Keeps.ite1
    · split
      · exact hz
      · rename_i t ht
        exact OptAll.get0 (State.reserve_keeps hz) ht
    · exact hz

theorem execPREFILL_CHUNK_FORM_keeps {z : State} {s : State} (hz : Keeps z s) :
    OutKeeps z (execPREFILL_CHUNK_FORM s) := by
  unfold execPREFILL_CHUNK_FORM
  with_reducible
    split
    apply OutKeeps.next
    assumption
    refine OutKeeps.ite ?_ ?_
    apply OutKeeps.next
    assumption
    split
    apply OutKeeps.next
    apply State.bump_keeps
    apply State.openStep_keeps
    ((try lift_lets -underBinder); intro x; refine (fun (hx : Keeps z x) => ?_) ?_; clear_value x)
    (simp -zeta only [mk_keeps_iff]; apply KeptParts.fold)
    assumption
    apply State.admitStep_keeps
    refine Keeps.pair (State.pickPrefill_keeps ?_) (by assumption)
    assumption
    apply OutKeeps.next
    apply State.makeRoom_keeps
    refine Keeps.pair (State.pickPrefill_keeps ?_) (by assumption)
    assumption
    apply OutKeeps.next
    refine Keeps.pair (State.pickPrefill_keeps ?_) (by assumption)
    assumption

theorem State.layerReply_keeps {z : State} {s : State} {p} {t} {layer} {x} {outs} (hz : Keeps z s) :
    Keeps z (State.layerReply s p t layer x outs) := by
  unfold State.layerReply
  with_reducible
    ((try lift_lets -underBinder); intro _)
    ((try lift_lets -underBinder); intro _)
    ((try lift_lets -underBinder); intro _)
    ((try lift_lets -underBinder); intro _)
    ((try lift_lets -underBinder); intro _)
    ((try lift_lets -underBinder); intro x; refine (fun (hx : Keeps z x) => ?_) ?_; clear_value x)
    ((try lift_lets -underBinder); intro _)
    apply State.maxFld_keeps
    apply State.bump_keeps
    apply State.sendX_keeps
    assumption
    simp -zeta only [x]
    apply State.updStep_keeps
    assumption

theorem State.serveDecode_keeps {z s : State} {p t layer x} (hz : Keeps z s) : OptAll (Keeps z) (State.serveDecode s p t layer x) := by
  unfold State.serveDecode
  simp only
  refine OptAll.map (Q := fun p => Keeps z p.1) ?_ (fun a ha => State.layerReply_keeps ha)
  refine foldl_keepsO (OptAll.some hz) (fun o a ho => ?_)
  refine OptAll.bind (Q := fun p => Keeps z p.1) ho (fun u hu => ?_)
  refine OptAll.bindT (fun q => ?_)
  refine OptAll.map (Q := fun p => Keeps z p.1) (State.appendAt_keeps hu) (fun r hr => ?_)
  exact State.updStep_keeps (State.queueTiles_keeps ⟨hr.parts⟩)

theorem State.appendChunk_keeps {z s : State} {p t layer last} (hz : Keeps z s) : OptAll (Keeps z) (State.appendChunk s p t layer last) := by
  unfold State.appendChunk
  refine foldl_keepsO (OptAll.some hz) (fun o a ho => ?_)
  refine OptAll.bind (Q := Keeps z) ho (fun s' hs' => ?_)
  refine OptAll.bindT (fun q => ?_)
  refine OptAll.map (Q := fun p => Keeps z p.1) (State.appendAt_keeps hs') (fun r hr => ?_)
  simp only
  split
  · exact ⟨hr.parts⟩
  · exact hr

theorem State.servePrefill_keeps {z : State} {s : State} {p} {id} {layer} {x} (hz : Keeps z s) :
    ServedKeeps z (State.servePrefill s p id layer x) := by
  unfold State.servePrefill
  with_reducible
    split
    apply ServedKeeps.none
    ((try lift_lets -underBinder); intro _)
    split
    apply ServedKeeps.none
    ((try lift_lets -underBinder); intro _)
    ((try lift_lets -underBinder); intro _)
    ((try lift_lets -underBinder); intro x; refine (fun (hx : Keeps z x) => ?_) ?_; clear_value x)
    ((try lift_lets -underBinder); intro x; refine (fun (hx : Keeps z x) => ?_) ?_; clear_value x)
    refine ServedKeeps.ite ?_ ?_
    apply ServedKeeps.fails
    apply State.updStep_keeps
    assumption
    split
    refine ServedKeeps.ite ?_ ?_
    split
    apply ServedKeeps.yes
    apply State.updStep_keeps
    refine OptAll.get (State.appendChunk_keeps ?_) (by assumption)
    assumption
    apply ServedKeeps.none
    apply ServedKeeps.yes
    assumption
    apply ServedKeeps.yes
    assumption
    simp -zeta only [x]
    apply State.layerReply_keeps
    assumption
    simp -zeta only [x]
    apply State.queueTiles_keeps
    assumption

theorem State.closeChunk_keeps {z : State} {s : State} {p} {id} (hz : Keeps z s) :
    Keeps z (State.closeChunk s p id) := by
  unfold State.closeChunk
  with_reducible
    split
    refine Keeps.ite ?_ ?_
    apply State.finishChunk_keeps
    assumption
    assumption
    assumption

theorem State.serveWaiting_keeps {z : State} {s : State} {p} {id} {a3} (hz : Keeps z s) :
    Keeps z (State.serveWaiting s p id a3) := by
  induction a3 generalizing s with
  | zero =>
    unfold State.serveWaiting
    with_reducible
      assumption
  | succ k ih =>
    unfold State.serveWaiting
    with_reducible
      split
      assumption
      ((try lift_lets -underBinder); intro _)
      split
      assumption
      ((try lift_lets -underBinder); intro x; refine (fun (hx : Keeps z x) => ?_) ?_; clear_value x)
      split
      apply ih
      apply State.finish_keeps
      refine ServedKeeps.yes_of (State.servePrefill_keeps ?_) (by assumption)
      assumption
      apply State.updStep_keeps
      refine ServedKeeps.fails_of (State.servePrefill_keeps ?_) (by assumption)
      assumption
      apply State.abandonStep_keeps
      apply State.finish_keeps
      assumption
      simp -zeta only [x]
      apply State.updStep_keeps
      assumption

theorem execXCHG_LAYER_keeps {z : State} {x} {s : State} (hz : Keeps z s) :
    OutKeeps z (execXCHG_LAYER x s) := by
  unfold execXCHG_LAYER
  with_reducible
    apply runSlip_keeps
    assumption
    intro _
    intro _
    ((try lift_lets -underBinder); intro x; simp -zeta only [x])
    split
    apply SlipRes.no_keeps
    assumption
    split
    apply SlipRes.no_keeps
    apply State.bump_keeps
    assumption
    ((try lift_lets -underBinder); intro _)
    ((try lift_lets -underBinder); intro _)
    split
    apply SlipRes.no_keeps
    apply State.bump_keeps
    assumption
    ((try lift_lets -underBinder); intro _)
    ((try lift_lets -underBinder); intro _)
    split
    apply ResKeeps.done
    apply State.bump_keeps
    apply State.sendX_keeps
    assumption
    refine ResKeeps.ite ?_ ?_
    apply SlipRes.no_keeps
    apply State.bump_keeps
    assumption
    refine ResKeeps.ite ?_ ?_
    apply ResKeeps.hold
    assumption
    refine ResKeeps.ite ?_ ?_
    split
    apply ResKeeps.done
    refine OptAll.get (State.serveDecode_keeps ?_) (by assumption)
    assumption
    apply SlipRes.no_keeps
    apply State.bump_keeps
    apply State.abandonStep_keeps
    assumption
    ((try lift_lets -underBinder); intro x; refine (fun (hx : Keeps z x) => ?_) ?_; clear_value x)
    ((try lift_lets -underBinder); intro _)
    ((try lift_lets -underBinder); intro _)
    ((try lift_lets -underBinder); intro x; simp -zeta only [x])
    refine ResKeeps.ite ?_ ?_
    apply ResKeeps.wait
    apply State.updStep_keeps
    assumption
    split
    apply ResKeeps.done
    apply State.closeChunk_keeps
    apply State.serveWaiting_keeps
    refine ServedKeeps.yes_of (State.servePrefill_keeps ?_) (by assumption)
    assumption
    apply ResKeeps.wait
    apply State.updStep_keeps
    refine ServedKeeps.fails_of (State.servePrefill_keeps ?_) (by assumption)
    assumption
    apply SlipRes.no_keeps
    apply State.bump_keeps
    apply State.abandonStep_keeps
    assumption
    simp -zeta only [x]
    apply State.updStep_keeps
    assumption

theorem execXCHG_FINAL_keeps {z : State} {x} {s : State} (hz : Keeps z s) :
    OutKeeps z (execXCHG_FINAL x s) := by
  unfold execXCHG_FINAL
  with_reducible
    apply runSlip_keeps
    assumption
    intro _
    intro _
    ((try lift_lets -underBinder); intro x; simp -zeta only [x])
    split
    apply SlipRes.no_keeps
    assumption
    split
    apply SlipRes.no_keeps
    apply State.bump_keeps
    assumption
    ((try lift_lets -underBinder); intro _)
    ((try lift_lets -underBinder); intro _)
    ((try lift_lets -underBinder); intro _)
    split
    apply SlipRes.no_keeps
    apply State.bump_keeps
    assumption
    ((try lift_lets -underBinder); intro _)
    split
    apply ResKeeps.done
    apply State.bump_keeps
    assumption
    refine ResKeeps.ite ?_ ?_
    apply SlipRes.no_keeps
    apply State.bump_keeps
    assumption
    refine ResKeeps.ite ?_ ?_
    apply ResKeeps.hold
    assumption
    ((try lift_lets -underBinder); intro _)
    ((try lift_lets -underBinder); intro x; refine (fun (hx : Keeps z x) => ?_) ?_; clear_value x)
    ((try lift_lets -underBinder); intro _)
    refine ResKeeps.ite ?_ ?_
    apply ResKeeps.done
    apply State.closeChunk_keeps
    assumption
    refine ResKeeps.ite ?_ ?_
    apply ResKeeps.done
    apply State.finishDecode_keeps
    assumption
    apply ResKeeps.done
    assumption
    simp -zeta only [x]
    apply State.updStep_keeps
    assumption

theorem execXCHG_ERROR_REPLY_keeps {z : State} {step} {msg} {status} {s : State} (hz : Keeps z s) :
    OutKeeps z (execXCHG_ERROR_REPLY step msg status s) := by
  unfold execXCHG_ERROR_REPLY
  with_reducible
    split
    apply OutKeeps.next
    assumption
    split
    apply OutKeeps.next
    assumption
    refine OutKeeps.ite ?_ ?_
    apply OutKeeps.next
    assumption
    refine OutKeeps.ite ?_ ?_
    apply OutKeeps.next
    apply State.updStep_keeps
    assumption
    apply OutKeeps.next
    apply State.abandonStep_keeps
    assumption

theorem execXCHG_RETRY_keeps {z : State} {step} {msg} {s : State} (hz : Keeps z s) :
    OutKeeps z (execXCHG_RETRY step msg s) := by
  unfold execXCHG_RETRY
  with_reducible
    split
    apply OutKeeps.next
    assumption
    refine OutKeeps.ite ?_ ?_
    apply OutKeeps.next
    assumption
    apply OutKeeps.next
    apply State.postX_keeps
    apply State.updStep_keeps
    assumption

theorem execXCHG_TIMEOUT_keeps {z : State} {step} {s : State} (hz : Keeps z s) :
    OutKeeps z (execXCHG_TIMEOUT step s) := by
  unfold execXCHG_TIMEOUT
  with_reducible
    split
    apply OutKeeps.next
    assumption
    refine OutKeeps.ite ?_ ?_
    apply OutKeeps.next
    apply State.abandonStep_keeps
    assumption
    apply OutKeeps.next
    assumption

theorem State.prefillFailed_keeps {z : State} {s : State} {i} (hz : Keeps z s) :
    Keeps z (State.prefillFailed s i) := by
  unfold State.prefillFailed
  with_reducible
    refine Keeps.ite ?_ ?_
    apply State.flushRing_keeps
    apply State.endWithout_keeps
    apply State.dropPrefill_keeps
    apply State.dequeue_keeps
    apply foldl_keeps
    assumption
    intro _
    intro _
    apply State.abandonStep_keeps
    apply State.endWithout_keeps
    apply State.dropPrefill_keeps
    apply State.dequeue_keeps
    apply foldl_keeps
    assumption
    intro _
    intro _
    apply State.abandonStep_keeps

theorem execME_TILE_END_keeps {z : State} {me} {kind} {ref} {cond} {s : State} (hz : Keeps z s) :
    OutKeeps z (execME_TILE_END me kind ref cond s) := by
  unfold execME_TILE_END
  with_reducible
    ((try lift_lets -underBinder); intro _)
    split
    apply OutKeeps.next
    assumption
    ((try lift_lets -underBinder); intro x; refine (fun (hx : Keeps z x) => ?_) ?_; clear_value x)
    ((try lift_lets -underBinder); intro x; simp -zeta only [x])
    ((try lift_lets -underBinder); intro x; simp -zeta only [x])
    ((try lift_lets -underBinder); intro x; simp -zeta only [x])
    ((try lift_lets -underBinder); intro x; simp -zeta only [x])
    ((try lift_lets -underBinder); intro x; refine (fun (hx : Keeps z x) => ?_) ?_; clear_value x)
    ((try lift_lets -underBinder); intro x; refine (fun (hx : Keeps z x) => ?_) ?_; clear_value x)
    refine OutKeeps.ite ?_ ?_
    apply OutKeeps.next
    apply State.issue_keeps
    apply State.bump_keeps
    apply State.bump_keeps
    apply State.setMe_keeps
    assumption
    refine OutKeeps.ite ?_ ?_
    apply OutKeeps.next
    apply State.setMe_keeps
    apply State.bump_keeps
    apply State.bumpSat_keeps
    assumption
    refine OutKeeps.ite ?_ ?_
    apply OutKeeps.next
    apply State.issue_keeps
    apply State.bump_keeps
    apply State.bump_keeps
    apply State.setMe_keeps
    apply State.bumpSat_keeps
    assumption
    refine OutKeeps.ite ?_ ?_
    apply OutKeeps.next
    apply State.requeue_keeps
    apply State.bump_keeps
    apply State.setMe_keeps
    apply State.bumpSat_keeps
    assumption
    apply OutKeeps.next
    apply State.issue_keeps
    assumption
    simp -zeta only [x]
    split
    refine Keeps.ite ?_ ?_
    apply State.prefillFailed_keeps
    assumption
    assumption
    refine Keeps.ite ?_ ?_
    apply State.searchFailed_keeps
    assumption
    assumption
    simp -zeta only [x]
    apply State.errRecord_keeps
    apply State.setMe_keeps
    apply State.bumpSat_keeps
    assumption
    simp -zeta only [x]
    apply State.traceEv_keeps
    assumption

theorem State.disableMe_keeps {z : State} {s : State} {e} (hz : Keeps z s) :
    Keeps z (State.disableMe s e) := by
  unfold State.disableMe
  with_reducible
    ((try lift_lets -underBinder); intro _)
    ((try lift_lets -underBinder); intro x; refine (fun (hx : Keeps z x) => ?_) ?_; clear_value x)
    ((try lift_lets -underBinder); intro x; refine (fun (hx : Keeps z x) => ?_) ?_; clear_value x)
    ((try lift_lets -underBinder); intro x; refine (fun (hx : Keeps z x) => ?_) ?_; clear_value x)
    apply State.takeBack_keeps
    assumption
    simp -zeta only [x]
    split
    apply State.useSpare_keeps
    assumption
    ((try lift_lets -underBinder); intro x; refine (fun (hx : Keeps z x) => ?_) ?_; clear_value x)
    ((try lift_lets -underBinder); intro _)
    ((try lift_lets -underBinder); intro x; refine (fun (hx : Keeps z x) => ?_) ?_; clear_value x)
    ((try lift_lets -underBinder); intro _)
    (simp -zeta only [mk_keeps_iff]; apply KeptParts.fold)
    assumption
    simp -zeta only [x]
    apply State.dropUnit_keeps
    assumption
    simp -zeta only [x]
    refine Keeps.ite ?_ ?_
    apply State.setFld_keeps
    assumption
    assumption
    simp -zeta only [x]
    apply State.setFld_keeps
    apply State.setFld_keeps
    assumption
    simp -zeta only [x]
    apply State.errRecord_keeps
    assumption

theorem State.resetMe_keeps {z : State} {s : State} {e} {kat} (hz : Keeps z s) :
    Keeps z (State.resetMe s e kat) := by
  unfold State.resetMe
  with_reducible
    ((try lift_lets -underBinder); intro _)
    ((try lift_lets -underBinder); intro x; refine (fun (hx : Keeps z x) => ?_) ?_; clear_value x)
    ((try lift_lets -underBinder); intro _)
    ((try lift_lets -underBinder); intro x; refine (fun (hx : Keeps z x) => ?_) ?_; clear_value x)
    refine Keeps.ite ?_ ?_
    apply State.disableMe_keeps
    assumption
    assumption
    simp -zeta only [x]
    apply State.setMe_keeps
    assumption
    simp -zeta only [x]
    apply State.bump_keeps
    apply State.takeBack_keeps
    assumption

theorem execME_PARITY_ERROR_keeps {z : State} {me} {kind} {ref} {kat} {s : State} (hz : Keeps z s) :
    OutKeeps z (execME_PARITY_ERROR me kind ref kat s) := by
  unfold execME_PARITY_ERROR
  with_reducible
    ((try lift_lets -underBinder); intro _)
    split
    apply OutKeeps.next
    assumption
    ((try lift_lets -underBinder); intro x; refine (fun (hx : Keeps z x) => ?_) ?_; clear_value x)
    ((try lift_lets -underBinder); intro x; refine (fun (hx : Keeps z x) => ?_) ?_; clear_value x)
    refine OutKeeps.ite ?_ ?_
    apply OutKeeps.next
    apply State.setMe_keeps
    assumption
    apply OutKeeps.next
    apply State.resetMe_keeps
    apply State.errRecord_keeps
    assumption
    simp -zeta only [x]
    apply State.setMe_keeps
    assumption
    simp -zeta only [x]
    apply State.bump_keeps
    apply State.bumpSat_keeps
    assumption

theorem State.assignMes_keeps {z : State} {s : State} {perPart} {part} (hz : Keeps z s) :
    Keeps z (State.assignMes s perPart part) := by
  unfold State.assignMes
  with_reducible
    apply foldl_keeps1
    assumption
    intro _
    intro _
    apply State.setFld_keeps

theorem execRATIO_PERIOD_keeps {z : State} {demand} {s : State} (hz : Keeps z s) :
    OutKeeps z (execRATIO_PERIOD demand s) := by
  unfold execRATIO_PERIOD
  with_reducible
    ((try lift_lets -underBinder); intro _)
    ((try lift_lets -underBinder); intro _)
    ((try lift_lets -underBinder); intro _)
    ((try lift_lets -underBinder); intro _)
    ((try lift_lets -underBinder); intro _)
    ((try lift_lets -underBinder); intro _)
    ((try lift_lets -underBinder); intro _)
    ((try lift_lets -underBinder); intro _)
    ((try lift_lets -underBinder); intro _)
    ((try lift_lets -underBinder); intro _)
    ((try lift_lets -underBinder); intro _)
    ((try lift_lets -underBinder); intro _)
    ((try lift_lets -underBinder); intro _)
    ((try lift_lets -underBinder); intro _)
    ((try lift_lets -underBinder); intro _)
    ((try lift_lets -underBinder); intro _)
    ((try lift_lets -underBinder); intro _)
    ((try lift_lets -underBinder); intro x; refine (fun (hx : Keeps z x) => ?_) ?_; clear_value x)
    ((try lift_lets -underBinder); intro x; refine (fun (hx : Keeps z x) => ?_) ?_; clear_value x)
    ((try lift_lets -underBinder); intro x; refine (fun (hx : Keeps z x) => ?_) ?_; clear_value x)
    apply OutKeeps.next
    apply State.issue_keeps
    (simp -zeta only [mk_keeps_iff]; apply KeptParts.fold)
    assumption
    simp -zeta only [x]
    apply State.bumpBy_keeps
    assumption
    simp -zeta only [x]
    apply foldl_keeps
    assumption
    intro _
    intro _
    intro _
    apply State.assignMes_keeps
    assumption
    simp -zeta only [x]
    apply foldl_keeps
    assumption
    intro _
    intro _
    intro _
    ((try lift_lets -underBinder); intro x; refine (fun (hx : Keeps z x) => ?_) ?_; clear_value x)
    ((try lift_lets -underBinder); intro x; refine (fun (hx : Keeps z x) => ?_) ?_; clear_value x)
    apply State.setFld_keeps
    assumption
    simp -zeta only [x]
    apply State.setFld_keeps
    assumption
    simp -zeta only [x]
    refine Keeps.ite ?_ ?_
    apply State.setFld_keeps
    assumption
    assumption

theorem execME_MAX_CLR_keeps {z : State} {s : State} (hz : Keeps z s) :
    OutKeeps z (execME_MAX_CLR s) := by
  unfold execME_MAX_CLR
  with_reducible
    apply OutKeeps.next
    apply State.setFld_keeps
    assumption

end Sys2Proof.Machine
end

