-- ==== Sys2Proof/Laws/KeepNbuFrame.lean ====
section
/-!
SUPPORT. Every operation and meaning of Machine/NbuFrame.lean leaves the queue of waiting commands as it was and keeps the stores
canonical: for each f, `f_keeps` (Laws/Keeps.lean).
-/

namespace Sys2Proof.Machine

theorem State.setNbu_keeps {z : State} {s : State} {n} {v} (hz : Keeps z s) :
    Keeps z (State.setNbu s n v) := by
  unfold State.setNbu
  with_reducible
    (simp -zeta only [mk_keeps_iff]; apply KeptParts.fold)
    assumption

theorem State.updNbu_keeps {z : State} {s : State} {n} {f} (hz : Keeps z s) :
    Keeps z (State.updNbu s n f) := by
  unfold State.updNbu
  with_reducible
    apply State.setNbu_keeps
    assumption

theorem State.updStack_keeps {z : State} {s : State} {k} {f} (hz : Keeps z s) :
    Keeps z (State.updStack s k f) := by
  unfold State.updStack
  with_reducible
    (simp -zeta only [mk_keeps_iff]; apply KeptParts.fold)
    assumption

theorem State.clearMarks_keeps {z : State} {s : State} {a1} {n} (hz : Keeps z s) :
    Keeps z (State.clearMarks s a1 n) := by
  unfold State.clearMarks
  with_reducible
    apply State.updErrs_keeps
    assumption

theorem State.doAccess_keeps {z : State} {s : State} {a1} (hz : Keeps z s) :
    Keeps z (State.doAccess s a1) := by
  unfold State.doAccess
  with_reducible
    split
    apply State.clearMarks_keeps
    apply State.hbmWr_keeps
    assumption
    refine Keeps.ite ?_ ?_
    refine Keeps.ite ?_ ?_
    apply State.emit_keeps
    apply State.bump_keeps
    assumption
    apply State.emit_keeps
    assumption
    apply State.emit_keeps
    assumption

theorem State.access_keeps {z : State} {s : State} {a1} (hz : Keeps z s) :
    Keeps z (State.access s a1) := by
  unfold State.access
  with_reducible
    ((try lift_lets -underBinder); intro _)
    refine Keeps.ite ?_ ?_
    apply State.updNbu_keeps
    assumption
    apply State.doAccess_keeps
    assumption

theorem State.serve_keeps {z : State} {s : State} {n} {k} (hz : Keeps z s) :
    Keeps z (State.serve s n k) := by
  unfold State.serve
  with_reducible
    apply foldl_keeps
    apply State.setNbu_keeps
    assumption
    intro _
    intro _
    intro _
    apply State.maxFld_keeps
    apply State.doAccess_keeps
    assumption

theorem State.complete_keeps {z : State} {s : State} {n} {l} {code} {aux} (hz : Keeps z s) :
    Keeps z (State.complete s n l code aux) := by
  unfold State.complete
  with_reducible
    apply State.emit_keeps
    refine Keeps.ite ?_ ?_
    apply State.bump_keeps
    apply State.updNbu_keeps
    assumption
    refine Keeps.ite ?_ ?_
    apply State.bump_keeps
    apply State.updNbu_keeps
    assumption
    apply State.updNbu_keeps
    assumption

theorem State.queueLaunch_keeps {z : State} {s : State} {n} {l} (hz : Keeps z s) :
    Keeps z (State.queueLaunch s n l) := by
  unfold State.queueLaunch
  with_reducible
    refine Keeps.ite ?_ ?_
    apply State.regAccErr_keeps
    assumption
    refine Keeps.ite ?_ ?_
    apply State.complete_keeps
    assumption
    apply State.setNbu_keeps
    assumption

theorem State.nbuWrite_keeps {z : State} {s : State} {n} {r} {w} {work} (hz : Keeps z s) :
    Keeps z (State.nbuWrite s n r w work) := by
  unfold State.nbuWrite
  with_reducible
    refine Keeps.ite ?_ ?_
    assumption
    refine Keeps.ite ?_ ?_
    apply State.queueLaunch_keeps
    apply State.setNbu_keeps
    assumption
    refine Keeps.ite ?_ ?_
    apply State.updNbu_keeps
    assumption
    assumption

theorem State.endRun_keeps {z : State} {s : State} {n} {code} {aux} (hz : Keeps z s) :
    Keeps z (State.endRun s n code aux) := by
  unfold State.endRun
  with_reducible
    split
    assumption
    apply State.serve_keeps
    apply State.updNbu_keeps
    apply State.complete_keeps
    assumption

theorem State.startRun_keeps {z : State} {s : State} {n} {l} {v} (hz : Keeps z s) :
    Keeps z (State.startRun s n l v) := by
  unfold State.startRun
  with_reducible
    ((try lift_lets -underBinder); intro x; refine (fun (hx : Keeps z x) => ?_) ?_; clear_value x)
    ((try lift_lets -underBinder); intro x; simp -zeta only [x])
    ((try lift_lets -underBinder); intro x; refine (fun (hx : Keeps z x) => ?_) ?_; clear_value x)
    (simp -zeta only [mk_keeps_iff]; apply KeptParts.fold)
    assumption
    apply State.setNbu_keeps
    assumption
    apply State.traceEv_keeps
    assumption

theorem State.nextRun_keeps {z : State} {s : State} {n} (hz : Keeps z s) :
    Keeps z (State.nextRun s n) := by
  unfold State.nextRun
  with_reducible
    ((try lift_lets -underBinder); intro _)
    ((try lift_lets -underBinder); intro x; simp -zeta only [x])
    ((try lift_lets -underBinder); intro x; simp -zeta only [x])
    refine Keeps.ite ?_ ?_
    assumption
    split
    split
    refine Keeps.ite ?_ ?_
    apply State.setNbu_keeps
    assumption
    apply State.startRun_keeps
    assumption
    apply State.setNbu_keeps
    assumption
    split
    apply State.startRun_keeps
    assumption
    refine Keeps.ite ?_ ?_
    apply State.startRun_keeps
    assumption
    assumption
    assumption

theorem State.yieldAt_keeps {z : State} {s : State} {n} (hz : Keeps z s) :
    Keeps z (State.yieldAt s n).1 := by
  unfold State.yieldAt
  with_reducible
    ((try lift_lets -underBinder); intro x; simp -zeta only [x])
    split
    assumption
    refine Keeps.ite ?_ ?_
    apply State.updNbu_keeps
    apply State.updNbu_keeps
    refine Keeps.ite ?_ ?_
    apply State.bump_keeps
    apply State.bumpBy_keeps
    apply State.serve_keeps
    assumption
    apply State.bumpBy_keeps
    apply State.serve_keeps
    assumption
    apply State.updNbu_keeps
    refine Keeps.ite ?_ ?_
    apply State.bump_keeps
    apply State.bumpBy_keeps
    apply State.serve_keeps
    assumption
    apply State.bumpBy_keeps
    apply State.serve_keeps
    assumption

theorem State.resetNbu_keeps {z : State} {s : State} {n} (hz : Keeps z s) :
    Keeps z (State.resetNbu s n) := by
  unfold State.resetNbu
  with_reducible
    apply State.serve_keeps
    apply State.updNbu_keeps
    apply foldl_keeps
    assumption
    intro _
    intro _
    apply State.complete_keeps

theorem State.mediaStop_keeps {z : State} {s : State} {n} {ca} (hz : Keeps z s) :
    UopKeeps z (State.mediaStop s n ca) := by
  unfold State.mediaStop
  with_reducible
    apply UopKeeps.stop
    apply State.updNbu_keeps
    assumption

theorem State.goto_keeps {z : State} {s : State} {n} {r} {pc} (hz : Keeps z s) :
    Keeps z (State.goto s n r pc) := by
  unfold State.goto
  with_reducible
    refine Keeps.ite ?_ ?_
    apply State.updNbu_keeps
    assumption
    apply State.endRun_keeps
    apply State.updNbu_keeps
    assumption

theorem runUop_keeps {z : State} {op} {n} {s : State} {body} (hz : Keeps z s) (hf : ∀ x v q u, Keeps z x → UopKeeps z (body x v q u)) :
    OutKeeps z (runUop op n s body) := by
  unfold runUop
  with_reducible
    ((try lift_lets -underBinder); intro x; simp -zeta only [x])
    split
    split
    apply OutKeeps.next
    apply State.endRun_keeps
    assumption
    refine OutKeeps.ite ?_ ?_
    apply OutKeeps.next
    apply State.endRun_keeps
    assumption
    refine OutKeeps.ite ?_ ?_
    apply OutKeeps.next
    assumption
    apply OutKeeps.next
    split
    apply State.goto_keeps
    refine UopKeeps.next_of (hf _ _ _ _ ?_) (by assumption)
    assumption
    apply State.goto_keeps
    refine UopKeeps.jump_of (hf _ _ _ _ ?_) (by assumption)
    assumption
    assumption
    apply State.endRun_keeps
    refine UopKeeps.stop_of (hf _ _ _ _ ?_) (by assumption)
    assumption
    split
    apply State.goto_keeps
    refine UopKeeps.yield_of (hf _ _ _ _ ?_) (by assumption)
    assumption
    apply State.updNbu_keeps
    refine UopKeeps.yield_of (hf _ _ _ _ ?_) (by assumption)
    assumption
    refine UopKeeps.yield_of (hf _ _ _ _ ?_) (by assumption)
    assumption
    apply OutKeeps.next
    assumption

theorem State.consume_keeps {z : State} {s : State} {n} {r} {k} {f} (hz : Keeps z s) :
    UopKeeps z (State.consume s n r k f) := by
  unfold State.consume
  with_reducible
    split
    apply UopKeeps.stall
    apply State.mediaStop_keeps
    assumption
    refine UopKeeps.ite ?_ ?_
    apply UopKeeps.stop
    assumption
    ((try lift_lets -underBinder); intro x; simp -zeta only [x])
    split
    apply State.mediaStop_keeps
    assumption
    split
    apply UopKeeps.next
    apply State.setNbu_keeps
    assumption
    apply UopKeeps.stop
    assumption
    apply UopKeeps.stall

end Sys2Proof.Machine
end

