-- ==== Sys2Proof/Laws/KeepNbu.lean ====
section
/-!
SUPPORT. Every operation and meaning of Machine/Nbu.lean leaves the queue of waiting commands as it was and keeps the stores
canonical: for each f, `f_keeps` (Laws/Keeps.lean).
-/

namespace Sys2Proof.Machine

theorem State.disableNbu_keeps {z : State} {s : State} {n} (hz : Keeps z s) :
    Keeps z (State.disableNbu s n) := by
  unfold State.disableNbu
  with_reducible
    refine Keeps.ite ?_ ?_
    assumption
    apply foldl_keeps
    apply foldl_keeps
    apply State.dropUnit_keeps
    apply State.errRecord_keeps
    (simp -zeta only [mk_keeps_iff]; apply KeptParts.fold)
    apply State.setReg_keeps
    apply State.resetNbu_keeps
    assumption
    apply State.moveSlot_keeps
    apply State.moveBlock_keeps

theorem execNBU_LAUNCH_keeps {z : State} {n} {params} {work} {closed} {input} {expect} {value} {s : State} (hz : Keeps z s) :
    OutKeeps z (execNBU_LAUNCH n params work closed input expect value s) := by
  unfold execNBU_LAUNCH
  with_reducible
    refine OutKeeps.ite ?_ ?_
    apply OutKeeps.next
    assumption
    apply OutKeeps.next
    apply State.nbuWrite_keeps
    apply State.updNbu_keeps
    apply State.updStack_keeps
    apply foldl_keeps
    assumption
    intro _
    intro _
    intro _
    refine Keeps.ite ?_ ?_
    assumption
    apply State.nbuWrite_keeps
    assumption

theorem execNBU_PROGRAM_START_keeps {z : State} {n} {s : State} (hz : Keeps z s) :
    OutKeeps z (execNBU_PROGRAM_START n s) := by
  unfold execNBU_PROGRAM_START
  with_reducible
    apply OutKeeps.next
    apply State.nextRun_keeps
    assumption

theorem State.nameWide_keeps {z : State} {s : State} {n} {l} (hz : Keeps z s) :
    Keeps z (State.nameWide s n l) := by
  unfold State.nameWide
  with_reducible
    ((try lift_lets -underBinder); intro _)
    ((try lift_lets -underBinder); intro _)
    ((try lift_lets -underBinder); intro _)
    split
    assumption
    refine Keeps.ite ?_ ?_
    ((try lift_lets -underBinder); intro _)
    ((try lift_lets -underBinder); intro _)
    ((try lift_lets -underBinder); intro x; refine (fun (hx : Keeps z x) => ?_) ?_; clear_value x)
    ((try lift_lets -underBinder); intro x; simp -zeta only [x])
    apply foldl_keeps
    assumption
    intro _
    intro _
    intro _
    apply State.updSess_keeps
    assumption
    simp -zeta only [x]
    split
    apply State.addUsed_keeps
    (simp -zeta only [mk_keeps_iff]; apply KeptParts.fold)
    assumption
    assumption
    assumption

theorem execNBU_COMPLETION_keeps {z : State} {n} {s : State} (hz : Keeps z s) :
    OutKeeps z (execNBU_COMPLETION n s) := by
  unfold execNBU_COMPLETION
  with_reducible
    split
    apply OutKeeps.next
    assumption
    refine OutKeeps.ite ?_ ?_
    refine OutKeeps.ite ?_ ?_
    apply OutKeeps.next
    apply State.disableNbu_keeps
    apply State.updNbu_keeps
    apply State.updNbu_keeps
    assumption
    apply OutKeeps.next
    apply State.queueLaunch_keeps
    apply State.resetNbu_keeps
    apply State.updNbu_keeps
    apply State.updNbu_keeps
    assumption
    refine OutKeeps.ite ?_ ?_
    apply OutKeeps.next
    refine Keeps.ite ?_ ?_
    apply State.queueLaunch_keeps
    apply State.updNbu_keeps
    assumption
    apply State.updNbu_keeps
    assumption
    refine OutKeeps.ite ?_ ?_
    apply OutKeeps.next
    apply State.nameWide_keeps
    apply State.updNbu_keeps
    assumption
    apply OutKeeps.next
    apply State.updNbu_keeps
    assumption

theorem execMERGE_RECORD_keeps {z : State} {stack} {s : State} (hz : Keeps z s) :
    OutKeeps z (execMERGE_RECORD stack s) := by
  unfold execMERGE_RECORD
  with_reducible
    ((try lift_lets -underBinder); intro x; simp -zeta only [x])
    split
    apply OutKeeps.next
    assumption
    ((try lift_lets -underBinder); intro x; refine (fun (hx : Keeps z x) => ?_) ?_; clear_value x)
    split
    apply OutKeeps.next
    apply State.emit_keeps
    assumption
    refine OutKeeps.ite ?_ ?_
    apply OutKeeps.next
    apply State.emit_keeps
    apply State.updStack_keeps
    assumption
    apply OutKeeps.next
    apply State.updStack_keeps
    assumption
    apply State.updStack_keeps
    assumption

theorem runProgram_keeps {z : State} {slot} {n} {s : State} {body} (hz : Keeps z s) (hf : ∀ x p v q, Keeps z x → Keeps z (body x p v q).1) :
    OutKeeps z (runProgram slot n s body) := by
  unfold runProgram
  with_reducible
    ((try lift_lets -underBinder); intro x; simp -zeta only [x])
    split
    refine OutKeeps.ite ?_ ?_
    apply OutKeeps.next
    assumption
    apply OutKeeps.next
    apply State.endRun_keeps
    apply hf
    assumption
    apply OutKeeps.next
    assumption

theorem State.noteMedia_keeps {z : State} {s : State} {n} {l} (hz : Keeps z s) :
    Keeps z (State.noteMedia s n l) := by
  unfold State.noteMedia
  exact State.updNbu_keeps hz

theorem execATTN_keeps {z : State} {n} {s : State} (hz : Keeps z s) :
    OutKeeps z (execATTN n s) := by
  unfold execATTN
  with_reducible
    refine OutKeeps.ite ?_ ?_
    apply OutKeeps.next
    assumption
    apply runProgram_keeps
    assumption
    intro _
    intro _
    intro _
    intro _
    intro _
    ((try lift_lets -underBinder); intro x; simp -zeta only [x])
    ((try lift_lets -underBinder); intro x; simp -zeta only [x])
    ((try lift_lets -underBinder); intro x; refine (fun (hx : Keeps z x) => ?_) ?_; clear_value x)
    ((try lift_lets -underBinder); intro x; simp -zeta only [x])
    ((try lift_lets -underBinder); intro x; simp -zeta only [x])
    split
    assumption
    split
    apply State.noteMedia_keeps
    assumption
    apply State.updStack_keeps
    assumption
    apply State.updNbu_keeps
    assumption

theorem execAPPEND_keeps {z : State} {n} {s : State} (hz : Keeps z s) :
    OutKeeps z (execAPPEND n s) := by
  unfold execAPPEND
  with_reducible
    apply runProgram_keeps
    assumption
    intro _
    intro _
    intro _
    intro _
    intro _
    ((try lift_lets -underBinder); intro _)
    ((try lift_lets -underBinder); intro _)
    ((try lift_lets -underBinder); intro _)
    ((try lift_lets -underBinder); intro _)
    ((try lift_lets -underBinder); intro _)
    ((try lift_lets -underBinder); intro _)
    ((try lift_lets -underBinder); intro _)
    ((try lift_lets -underBinder); intro _)
    ((try lift_lets -underBinder); intro _)
    ((try lift_lets -underBinder); intro x; simp -zeta only [x])
    ((try lift_lets -underBinder); intro _)
    ((try lift_lets -underBinder); intro _)
    ((try lift_lets -underBinder); intro x; simp -zeta only [x])
    ((try lift_lets -underBinder); intro _)
    ((try lift_lets -underBinder); intro _)
    ((try lift_lets -underBinder); intro x; refine (fun (hx : Keeps z x) => ?_) ?_; clear_value x)
    ((try lift_lets -underBinder); intro _)
    ((try lift_lets -underBinder); intro _)
    ((try lift_lets -underBinder); intro _)
    ((try lift_lets -underBinder); intro _)
    ((try lift_lets -underBinder); intro _)
    ((try lift_lets -underBinder); intro _)
    ((try lift_lets -underBinder); intro _)
    ((try lift_lets -underBinder); intro _)
    refine Keeps.ite1 ?_ ?_
    apply Keeps.fst
    assumption
    refine Keeps.ite1 ?_ ?_
    apply Keeps.fst
    apply State.noteMedia_keeps
    assumption
    refine Keeps.ite1 ?_ ?_
    apply Keeps.fst
    apply State.hbmWr_keeps
    apply State.hbmWr_keeps
    assumption
    refine Keeps.ite1 ?_ ?_
    apply Keeps.fst
    assumption
    refine Keeps.ite1 ?_ ?_
    apply Keeps.fst
    assumption
    refine Keeps.ite1 ?_ ?_
    apply Keeps.fst
    apply State.hbmWr_keeps
    apply State.hbmWr_keeps
    assumption
    refine Keeps.ite1 ?_ ?_
    apply Keeps.fst
    apply State.hbmWr_keeps
    apply State.hbmWr_keeps
    assumption
    apply Keeps.fst
    apply State.bumpBy_keeps
    apply State.hbmWr_keeps
    assumption
    simp -zeta only [x]
    apply State.bump_keeps
    apply State.bumpGen_keeps
    assumption

theorem execAGE_keeps {z : State} {n} {s : State} (hz : Keeps z s) :
    OutKeeps z (execAGE n s) := by
  unfold execAGE
  with_reducible
    apply runProgram_keeps
    assumption
    intro _
    intro _
    intro _
    intro _
    intro _
    ((try lift_lets -underBinder); intro _)
    ((try lift_lets -underBinder); intro _)
    ((try lift_lets -underBinder); intro _)
    refine Keeps.ite1 ?_ ?_
    apply Keeps.fst
    assumption
    refine Keeps.ite1 ?_ ?_
    apply Keeps.fst
    apply State.noteMedia_keeps
    assumption
    split
    ((try lift_lets -underBinder); intro x; refine (fun (hx : Keeps z x) => ?_) ?_; clear_value x)
    ((try lift_lets -underBinder); intro _)
    ((try lift_lets -underBinder); intro _)
    ((try lift_lets -underBinder); intro _)
    apply Keeps.fst
    apply State.bumpBy_keeps
    apply State.bump_keeps
    apply State.hbmWr_keeps
    assumption
    simp -zeta only [x]
    apply State.bumpGen_keeps
    assumption
    apply Keeps.fst
    apply State.bump_keeps
    assumption
    apply Keeps.fst
    apply State.bump_keeps
    assumption

theorem execDIST_SCAN_keeps {z : State} {n} {s : State} (hz : Keeps z s) :
    OutKeeps z (execDIST_SCAN n s) := by
  unfold execDIST_SCAN
  with_reducible
    refine OutKeeps.ite ?_ ?_
    apply OutKeeps.next
    assumption
    apply runProgram_keeps
    assumption
    intro _
    intro _
    intro _
    intro _
    intro _
    ((try lift_lets -underBinder); intro x; simp -zeta only [x])
    ((try lift_lets -underBinder); intro x; simp -zeta only [x])
    ((try lift_lets -underBinder); intro x; simp -zeta only [x])
    ((try lift_lets -underBinder); intro x; simp -zeta only [x])
    ((try lift_lets -underBinder); intro x; simp -zeta only [x])
    ((try lift_lets -underBinder); intro x; refine (fun (hx : Keeps z x) => ?_) ?_; clear_value x)
    ((try lift_lets -underBinder); intro x; simp -zeta only [x])
    ((try lift_lets -underBinder); intro x; simp -zeta only [x])
    ((try lift_lets -underBinder); intro x; simp -zeta only [x])
    split
    assumption
    split
    apply State.noteMedia_keeps
    assumption
    apply State.updStack_keeps
    assumption
    apply State.updNbu_keeps
    assumption

theorem execHEAD_keeps {z : State} {n} {s : State} (hz : Keeps z s) :
    OutKeeps z (execHEAD n s) := by
  unfold execHEAD
  with_reducible
    apply runProgram_keeps
    assumption
    intro _
    intro _
    intro _
    intro _
    intro _
    ((try lift_lets -underBinder); intro x; simp -zeta only [x])
    ((try lift_lets -underBinder); intro x; simp -zeta only [x])
    ((try lift_lets -underBinder); intro x; simp -zeta only [x])
    ((try lift_lets -underBinder); intro x; simp -zeta only [x])
    ((try lift_lets -underBinder); intro x; simp -zeta only [x])
    ((try lift_lets -underBinder); intro x; simp -zeta only [x])
    ((try lift_lets -underBinder); intro x; simp -zeta only [x])
    split
    assumption
    split
    apply State.noteMedia_keeps
    assumption
    apply State.updStack_keeps
    assumption

theorem execCOPY_keeps {z : State} {n} {s : State} (hz : Keeps z s) :
    OutKeeps z (execCOPY n s) := by
  unfold execCOPY
  with_reducible
    apply runProgram_keeps
    assumption
    intro _
    intro _
    intro _
    intro _
    intro _
    ((try lift_lets -underBinder); intro _)
    ((try lift_lets -underBinder); intro _)
    ((try lift_lets -underBinder); intro _)
    ((try lift_lets -underBinder); intro _)
    ((try lift_lets -underBinder); intro _)
    ((try lift_lets -underBinder); intro _)
    ((try lift_lets -underBinder); intro _)
    ((try lift_lets -underBinder); intro _)
    ((try lift_lets -underBinder); intro x; refine (fun (hx : Keeps z x) => ?_) ?_; clear_value x)
    ((try lift_lets -underBinder); intro _)
    ((try lift_lets -underBinder); intro _)
    ((try lift_lets -underBinder); intro _)
    ((try lift_lets -underBinder); intro _)
    ((try lift_lets -underBinder); intro _)
    refine Keeps.ite1 ?_ ?_
    apply Keeps.fst
    assumption
    refine Keeps.ite1 ?_ ?_
    apply Keeps.fst
    assumption
    refine Keeps.ite1 ?_ ?_
    apply Keeps.fst
    apply State.noteMedia_keeps
    assumption
    apply Keeps.fst
    apply State.putImage_keeps
    assumption
    simp -zeta only [x]
    refine Keeps.ite ?_ ?_
    apply State.bumpGen_keeps
    apply State.bumpGen_keeps
    assumption
    apply State.bumpGen_keeps
    assumption

theorem execFORCED_YIELD_keeps {z : State} {n} {s : State} (hz : Keeps z s) :
    OutKeeps z (execFORCED_YIELD n s) := by
  unfold execFORCED_YIELD
  with_reducible
    apply OutKeeps.next
    refine Keeps.ite ?_ ?_
    apply State.bump_keeps
    apply State.yieldAt_keeps
    assumption
    apply State.yieldAt_keeps
    assumption

theorem execORDINARY_ACCESS_keeps {z : State} {addr} {data} {len} {s : State} (hz : Keeps z s) :
    OutKeeps z (execORDINARY_ACCESS addr data len s) := by
  unfold execORDINARY_ACCESS
  with_reducible
    ((try lift_lets -underBinder); intro _)
    ((try lift_lets -underBinder); intro _)
    refine OutKeeps.ite ?_ ?_
    apply OutKeeps.next
    split
    assumption
    apply State.emit_keeps
    assumption
    apply OutKeeps.next
    apply State.access_keeps
    assumption

theorem execREFRESH_DUE_keeps {z : State} {n} {bank} {s : State} (hz : Keeps z s) :
    OutKeeps z (execREFRESH_DUE n bank s) := by
  unfold execREFRESH_DUE
  with_reducible
    refine OutKeeps.ite ?_ ?_
    apply OutKeeps.next
    assumption
    apply OutKeeps.next
    apply State.maxFld_keeps
    apply State.setNbu_keeps
    assumption

theorem execNBU_PARITY_ERROR_keeps {z : State} {n} {place} {tries} {ca} {s : State} (hz : Keeps z s) :
    OutKeeps z (execNBU_PARITY_ERROR n place tries ca s) := by
  unfold execNBU_PARITY_ERROR
  with_reducible
    ((try lift_lets -underBinder); intro x; simp -zeta only [x])
    split
    apply OutKeeps.next
    assumption
    refine OutKeeps.ite ?_ ?_
    apply OutKeeps.next
    apply State.bump_keeps
    apply State.setNbu_keeps
    assumption
    refine OutKeeps.ite ?_ ?_
    apply OutKeeps.next
    apply State.endRun_keeps
    apply State.errRecord_keeps
    apply State.setNbu_keeps
    assumption
    refine OutKeeps.ite ?_ ?_
    apply OutKeeps.next
    apply State.endRun_keeps
    apply State.errRecord_keeps
    apply State.setNbu_keeps
    assumption
    apply OutKeeps.next
    apply State.endRun_keeps
    apply State.errRecord_keeps
    apply State.setNbu_keeps
    assumption

theorem execNBU_UNIT_RESET_keeps {z : State} {n} {kat} {s : State} (hz : Keeps z s) :
    OutKeeps z (execNBU_UNIT_RESET n kat s) := by
  unfold execNBU_UNIT_RESET
  with_reducible
    refine OutKeeps.ite ?_ ?_
    apply OutKeeps.next
    assumption
    apply OutKeeps.next
    refine Keeps.ite ?_ ?_
    apply State.bump_keeps
    apply State.resetNbu_keeps
    assumption
    apply State.disableNbu_keeps
    apply State.errRecord_keeps
    apply State.bump_keeps
    apply State.resetNbu_keeps
    assumption

theorem execNBU_BCAST_DATA_keeps {z : State} {host} {value} {s : State} (hz : Keeps z s) :
    OutKeeps z (execNBU_BCAST_DATA host value s) := by
  unfold execNBU_BCAST_DATA
  with_reducible
    refine OutKeeps.ite ?_ ?_
    apply OutKeeps.next
    apply State.regAccErr_keeps
    assumption
    apply OutKeeps.next
    apply foldl_keeps
    assumption
    intro _
    intro _
    apply State.nbuWrite_keeps

theorem execNBU_MAX_CLR_keeps {z : State} {s : State} (hz : Keeps z s) :
    OutKeeps z (execNBU_MAX_CLR s) := by
  unfold execNBU_MAX_CLR
  with_reducible
    apply OutKeeps.next
    apply State.setReg_keeps
    assumption

end Sys2Proof.Machine
end

