-- ==== Sys2Proof/Laws/KeepUnitFrame.lean ====
section
/-!
SUPPORT. Every operation and meaning of Machine/UnitFrame.lean leaves the queue of waiting commands as it was and keeps the stores
canonical: for each f, `f_keeps` (Laws/Keeps.lean).
-/

namespace Sys2Proof.Machine

theorem State.blow_keeps {z s : State} {l} (hz : Keeps z s) : Keeps z (State.blow s l) := by
  unfold State.blow
  refine foldl_keeps hz (fun x a hx => ⟨{ hx.parts with fuse := fun b hb => ?_ }⟩)
  have h := hx.parts.fuse b hb
  simp only [tGet_tPut]
  split
  · rename_i e
    simp only [Option.getD_some, Nat.testBit_or, Bool.or_eq_true]
    left
    unfold State.fuse
    rw [← e]
    exact h
  · exact h

theorem State.noteBelow_keeps {z : State} {s : State} {u} (hz : Keeps z s) :
    Keeps z (State.noteBelow s u) := by
  unfold State.noteBelow
  with_reducible
    refine Keeps.ite ?_ ?_
    apply State.errRecord_keeps
    apply State.setFld_keeps
    assumption
    assumption

theorem State.disableTidy_keeps {z : State} {s : State} {n} (hz : Keeps z s) :
    Keeps z (State.disableTidy s n) := by
  unfold State.disableTidy
  with_reducible
    refine Keeps.ite ?_ ?_
    apply State.dropUnit_keeps
    apply State.errRecord_keeps
    ((try lift_lets -underBinder); intro x; simp -zeta only [x])
    (simp -zeta only [mk_keeps_iff]; apply KeptParts.fold)
    assumption
    apply State.errRecord_keeps
    ((try lift_lets -underBinder); intro x; simp -zeta only [x])
    (simp -zeta only [mk_keeps_iff]; apply KeptParts.fold)
    assumption

theorem State.failScans_keeps {z : State} {s : State} (hz : Keeps z s) :
    Keeps z (State.failScans s) := by
  unfold State.failScans
  with_reducible
    apply foldl_keeps
    (simp -zeta only [mk_keeps_iff]; apply KeptParts.fold)
    assumption
    intro _
    intro _
    apply State.finish_keeps

theorem State.disableUnit_keeps {z : State} {s : State} {u} (hz : Keeps z s) :
    Keeps z (State.disableUnit s u) := by
  unfold State.disableUnit
  with_reducible
    refine Keeps.ite ?_ ?_
    assumption
    split
    apply State.disableNbu_keeps
    assumption
    apply State.disableMe_keeps
    assumption
    apply State.disableTidy_keeps
    assumption
    ((try lift_lets -underBinder); intro x; refine (fun (hx : Keeps z x) => ?_) ?_; clear_value x)
    split
    apply State.noteBelow_keeps
    apply State.setFld_keeps
    assumption
    assumption
    refine Keeps.ite ?_ ?_
    split
    apply State.dropUnit_keeps
    apply State.setFld_keeps
    assumption
    assumption
    split
    refine Keeps.ite ?_ ?_
    apply State.failScans_keeps
    apply State.noteBelow_keeps
    apply State.setFld_keeps
    assumption
    apply State.noteBelow_keeps
    apply State.setFld_keeps
    assumption
    assumption
    apply State.errRecord_keeps
    assumption
    assumption

theorem State.resetUnit_keeps {z : State} {s : State} {u} (hz : Keeps z s) :
    Keeps z (State.resetUnit s u) := by
  unfold State.resetUnit
  with_reducible
    ((try lift_lets -underBinder); intro x; simp -zeta only [x])
    split
    apply State.bump_keeps
    apply State.resetNbu_keeps
    assumption
    apply State.resetMe_keeps
    assumption
    ((try lift_lets -underBinder); intro x; refine (fun (hx : Keeps z x) => ?_) ?_; clear_value x)
    ((try lift_lets -underBinder); intro x; simp -zeta only [x])
    (simp -zeta only [mk_keeps_iff]; apply KeptParts.fold)
    assumption
    apply State.bump_keeps
    assumption
    apply State.bump_keeps
    refine Keeps.ite ?_ ?_
    apply State.bumpSat_keeps
    assumption
    assumption

end Sys2Proof.Machine
end

