-- ==== Sys2Proof/Laws/KeepHdmFrame.lean ====
section
/-!
SUPPORT. Every operation and meaning of Machine/HdmFrame.lean leaves the queue of waiting commands as it was and keeps the stores
canonical: for each f, `f_keeps` (Laws/Keeps.lean).
-/

namespace Sys2Proof.Machine

theorem State.hdmPut_keeps {z s : State} {hdm1 a v} (hz : Keeps z s) : Keeps z (State.hdmPut s hdm1 a v) := by
  unfold State.hdmPut
  split
  · exact ⟨{ hz.parts with canon := fun c => (hz.parts.canon c).imp_hbm (sSet_wf _ _) }⟩
  · exact ⟨{ hz.parts with canon := fun c => (hz.parts.canon c).imp_cellar (sSet_wf _ _) }⟩
  · exact hz

end Sys2Proof.Machine
end

