-- ==== Sys2Proof/Laws/KeepResetFrame.lean ====
section
/-!
SUPPORT. Every operation and meaning of Machine/ResetFrame.lean leaves the queue of waiting commands as it was and keeps the stores
canonical: for each f, `f_keeps` (Laws/Keeps.lean).
-/

namespace Sys2Proof.Machine

theorem State.answerHeld_keeps {z : State} {s : State} {acc} {a} (hz : Keeps z s) :
    Keeps z (State.answerHeld s acc a) := by
  unfold State.answerHeld
  with_reducible
    apply foldl_keeps
    (simp -zeta only [mk_keeps_iff]; apply KeptParts.fold)
    assumption
    intro _
    intro _
    apply State.finish_keeps

theorem State.leaveT1_keeps {z : State} {s : State} {i} (hz : Keeps z s) :
    Keeps z (State.leaveT1 s i) := by
  unfold State.leaveT1
  with_reducible
    apply State.answerWaiters_keeps
    apply State.answerHeld_keeps
    apply State.updSess_keeps
    refine Keeps.ite ?_ ?_
    apply State.dropPages_keeps
    (simp -zeta only [mk_keeps_iff]; apply KeptParts.fold)
    apply State.updSess_keeps
    apply State.dequeue_keeps
    apply State.unreserve_keeps
    apply State.dropPrefill_keeps
    apply foldl_keeps
    assumption
    intro _
    intro _
    apply State.abandonStep_keeps
    refine Keeps.ite ?_ ?_
    apply State.setRing_keeps
    apply State.dropPages_keeps
    (simp -zeta only [mk_keeps_iff]; apply KeptParts.fold)
    apply State.updSess_keeps
    apply State.dequeue_keeps
    apply State.unreserve_keeps
    apply State.dropPrefill_keeps
    apply foldl_keeps
    assumption
    intro _
    intro _
    apply State.abandonStep_keeps
    apply State.dropPages_keeps
    (simp -zeta only [mk_keeps_iff]; apply KeptParts.fold)
    apply State.updSess_keeps
    apply State.dequeue_keeps
    apply State.unreserve_keeps
    apply State.dropPrefill_keeps
    apply foldl_keeps
    assumption
    intro _
    intro _
    apply State.abandonStep_keeps

theorem State.placeCold_keeps {z : State} {s : State} {i} (hz : Keeps z s) :
    Keeps z (State.placeCold s i) := by
  unfold State.placeCold
  with_reducible
    ((try lift_lets -underBinder); intro _)
    ((try lift_lets -underBinder); intro x; refine (fun (hx : Keeps z x) => ?_) ?_; clear_value x)
    ((try lift_lets -underBinder); intro _)
    ((try lift_lets -underBinder); intro _)
    ((try lift_lets -underBinder); intro x; refine (fun (hx : Keeps z x) => ?_) ?_; clear_value x)
    refine Keeps.ite ?_ ?_
    apply State.updSess_keeps
    apply State.dropPages_keeps
    assumption
    refine Keeps.ite ?_ ?_
    refine Keeps.ite ?_ ?_
    apply State.passOn_keeps
    apply State.enter_keeps
    assumption
    apply State.enter_keeps
    apply State.updSess_keeps
    assumption
    assumption
    simp -zeta only [x]
    apply State.updSess_keeps
    assumption
    simp -zeta only [x]
    apply State.updSess_keeps
    apply State.leaveT1_keeps
    assumption

theorem State.entryLost_keeps {z : State} {s : State} {i} {kind} {unit} {address} (hz : Keeps z s) :
    Keeps z (State.entryLost s i kind unit address) := by
  unfold State.entryLost
  with_reducible
    split
    assumption
    ((try lift_lets -underBinder); intro x; refine (fun (hx : Keeps z x) => ?_) ?_; clear_value x)
    ((try lift_lets -underBinder); intro x; simp -zeta only [x])
    ((try lift_lets -underBinder); intro x; simp -zeta only [x])
    split
    apply State.errRecord_keeps
    apply State.updSess_keeps
    (simp -zeta only [mk_keeps_iff]; apply KeptParts.fold)
    assumption
    split
    apply State.errRecord_keeps
    apply State.updSess_keeps
    (simp -zeta only [mk_keeps_iff]; apply KeptParts.fold)
    assumption
    apply State.release_keeps
    apply State.freeSess_keeps
    (simp -zeta only [mk_keeps_iff]; apply KeptParts.fold)
    apply State.errRecord_keeps
    apply State.detachRing_keeps
    apply State.dropDown_keeps
    assumption
    apply State.setLog_keeps
    apply State.leaveT1_keeps
    assumption

theorem State.truncateKv_keeps {z : State} {s : State} {i} {f} (hz : Keeps z s) :
    Keeps z (State.truncateKv s i f) := by
  unfold State.truncateKv
  with_reducible
    split
    assumption
    refine Keeps.ite ?_ ?_
    apply foldl_keeps
    assumption
    intro _
    intro _
    apply State.abandonStep_keeps
    apply State.enqueueTail_keeps
    ((try lift_lets -underBinder); intro x; simp -zeta only [x])
    (simp -zeta only [mk_keeps_iff]; apply KeptParts.fold)
    apply State.updSess_keeps
    apply State.cutKv_keeps
    apply State.dequeue_keeps
    apply State.dropPrefill_keeps
    apply foldl_keeps
    assumption
    intro _
    intro _
    apply State.abandonStep_keeps

theorem State.retrained_keeps {z : State} {s : State} {a1} (hz : Keeps z s) :
    Keeps z (State.retrained s a1) := by
  unfold State.retrained
  with_reducible
    refine Keeps.ite ?_ ?_
    assumption
    ((try lift_lets -underBinder); intro x; refine (fun (hx : Keeps z x) => ?_) ?_; clear_value x)
    refine Keeps.ite ?_ ?_
    assumption
    apply State.release_keeps
    assumption
    simp -zeta only [x]
    apply foldl_keeps
    assumption
    intro _
    intro _
    intro _
    apply State.serve_keeps
    assumption

theorem State.endAct_keeps {z : State} {s : State} {a1} {ans} (hz : Keeps z s) :
    Keeps z (State.endAct s a1 ans) := by
  unfold State.endAct
  with_reducible
    ((try lift_lets -underBinder); intro x; simp -zeta only [x])
    ((try lift_lets -underBinder); intro x; refine (fun (hx : Keeps z x) => ?_) ?_; clear_value x)
    ((try lift_lets -underBinder); intro x; refine (fun (hx : Keeps z x) => ?_) ?_; clear_value x)
    ((try lift_lets -underBinder); intro x; refine (fun (hx : Keeps z x) => ?_) ?_; clear_value x)
    split
    apply State.finish_keeps
    assumption
    assumption
    simp -zeta only [x]
    apply foldl_keeps
    assumption
    intro _
    intro _
    intro _
    apply State.finish_keeps
    assumption
    simp -zeta only [x]
    apply State.endActivity_keeps
    apply State.retrained_keeps
    assumption
    simp -zeta only [x]
    (simp -zeta only [mk_keeps_iff]; apply KeptParts.fold)
    assumption

theorem State.setPart_keeps {z : State} {s : State} {p} {v} (hz : Keeps z s) :
    Keeps z (State.setPart s p v) := by
  unfold State.setPart
  with_reducible
    apply State.setFld_keeps
    assumption

theorem State.noteReset_keeps {z : State} {s : State} {scope} {cause} {tick} (hz : Keeps z s) :
    Keeps z (State.noteReset s scope cause tick) := by
  unfold State.noteReset
  with_reducible
    apply State.setFld_keeps
    apply State.setFld_keeps
    apply State.setFld_keeps
    assumption

theorem State.resetPartition_keeps {z : State} {s : State} {p} {cause} {lost} (hz : Keeps z s) :
    Keeps z (State.resetPartition s p cause lost) := by
  unfold State.resetPartition
  with_reducible
    ((try lift_lets -underBinder); intro x; refine (fun (hx : Keeps z x) => ?_) ?_; clear_value x)
    ((try lift_lets -underBinder); intro x; refine (fun (hx : Keeps z x) => ?_) ?_; clear_value x)
    ((try lift_lets -underBinder); intro x; refine (fun (hx : Keeps z x) => ?_) ?_; clear_value x)
    ((try lift_lets -underBinder); intro _)
    ((try lift_lets -underBinder); intro x; refine (fun (hx : Keeps z x) => ?_) ?_; clear_value x)
    ((try lift_lets -underBinder); intro x; refine (fun (hx : Keeps z x) => ?_) ?_; clear_value x)
    ((try lift_lets -underBinder); intro x; refine (fun (hx : Keeps z x) => ?_) ?_; clear_value x)
    apply foldl_keeps
    assumption
    intro _
    intro _
    intro _
    apply State.placeCold_keeps
    assumption
    simp -zeta only [x]
    apply foldl_keeps
    assumption
    intro _
    intro _
    intro _
    apply State.entryLost_keeps
    assumption
    simp -zeta only [x]
    apply State.takeBack_keeps
    assumption
    simp -zeta only [x]
    (simp -zeta only [mk_keeps_iff]; apply KeptParts.fold)
    assumption
    simp -zeta only [x]
    apply foldl_keeps
    assumption
    intro _
    intro _
    intro _
    apply State.dropLocks_keeps
    apply State.endAct_keeps
    assumption
    simp -zeta only [x]
    apply State.bump_keeps
    assumption
    simp -zeta only [x]
    apply State.noteReset_keeps
    apply State.setPart_keeps
    apply State.abandonSteps_keeps
    assumption

theorem State.keepWarm_keeps {z : State} {s : State} {r : State} (hz2 : Keeps z r) (hz : Keeps z s) :
    Keeps z (State.keepWarm s r) := by
  unfold State.keepWarm
  with_reducible
    ((try lift_lets -underBinder); intro x; refine (fun (hx : Keeps z x) => ?_) ?_; clear_value x)
    ((try lift_lets -underBinder); intro x; refine (fun (hx : Keeps z x) => ?_) ?_; clear_value x)
    ((try lift_lets -underBinder); intro x; refine (fun (hx : Keeps z x) => ?_) ?_; clear_value x)
    apply State.setFld_keeps
    assumption
    simp -zeta only [x]
    apply State.setReg_keeps
    assumption
    simp -zeta only [x]
    apply State.setReg_keeps
    apply State.setReg_keeps
    assumption
    simp -zeta only [x]
    apply State.setReg_keeps
    apply State.setReg_keeps
    assumption

theorem State.afterReset_keeps {z s : State} {cold} (hz : Keeps z s) : Keeps z (State.afterReset s cold) := by
  have base : ∀ (r : State), r.pending = s.pending → r.regs = [] → r.hbm = [] → (r.cellar = [] ∨ r.cellar = s.cellar) →
      r.flash.bytes = s.flash.bytes → r.fuses = s.fuses → r.genFloor = s.genFloor → Keeps z r := by
    intro r h1 h2 h3 h4 h5 h6 h7
    refine ⟨⟨by rw [h1]; exact hz.parts.pend, by rw [h6]; exact hz.parts.fuse, fun c => ?_, by rw [h7]; exact hz.parts.floor⟩⟩
    obtain ⟨_, _, c3, c4, c5⟩ := hz.parts.canon c
    rw [h2, h3, h5, h7]
    refine ⟨rfl, rfl, ?_, c4, c5⟩
    rcases h4 with h4 | h4 <;> rw [h4]
    · rfl
    · exact c3
  have cel : (if cold = true then [] else s.cellar) = [] ∨ (if cold = true then [] else s.cellar) = s.cellar := by
    split
    · exact Or.inl rfl
    · exact Or.inr rfl
  have warm : ∀ r : State, Keeps z r → Keeps z (if cold = true then r else s.keepWarm r) := fun r hr =>
    Keeps.ite hr (State.keepWarm_keeps hr hz)
  unfold State.afterReset
  dsimp only
  refine Keeps.ite (State.setFld_keeps (warm _ ?_)) (warm _ ?_) <;> exact base _ rfl rfl rfl cel rfl rfl rfl

theorem State.beginWarm_keeps {z : State} {s : State} {cause} (hz : Keeps z s) :
    Keeps z (State.beginWarm s cause) := by
  unfold State.beginWarm
  with_reducible
    apply State.setFld_keeps
    apply State.noteReset_keeps
    apply State.bump_keeps
    apply State.afterReset_keeps
    assumption

theorem State.coldReset_keeps {z : State} {s : State} {hold} (hz : Keeps z s) :
    Keeps z (State.coldReset s hold) := by
  unfold State.coldReset
  with_reducible
    ((try lift_lets -underBinder); intro x; refine (fun (hx : Keeps z x) => ?_) ?_; clear_value x)
    ((try lift_lets -underBinder); intro x; refine (fun (hx : Keeps z x) => ?_) ?_; clear_value x)
    ((try lift_lets -underBinder); intro _)
    (simp -zeta only [mk_keeps_iff]; apply KeptParts.fold)
    assumption
    simp -zeta only [x]
    refine Keeps.ite ?_ ?_
    assumption
    apply State.setReg_keeps
    assumption
    simp -zeta only [x]
    apply State.afterReset_keeps
    assumption

theorem State.deviceError_keeps {z : State} {s : State} {kind} {unit} {address} {acc} (hz : Keeps z s) :
    Keeps z (State.deviceError s kind unit address acc) := by
  unfold State.deviceError
  with_reducible
    apply State.beginWarm_keeps
    apply State.errRecord_keeps
    assumption

theorem State.measured_keeps {z : State} {s : State} (hz : Keeps z s) :
    Keeps z (State.measured s) := by
  unfold State.measured
  with_reducible
    ((try lift_lets -underBinder); intro x; refine (fun (hx : Keeps z x) => ?_) ?_; clear_value x)
    ((try lift_lets -underBinder); intro x; simp -zeta only [x])
    (simp -zeta only [mk_keeps_iff]; apply KeptParts.fold)
    assumption
    apply State.bump_keeps
    assumption

end Sys2Proof.Machine
end

