-- ==== Sys2Proof/Laws/KeepErrors.lean ====
section
/-!
SUPPORT. Every operation and meaning of Machine/Errors.lean leaves the queue of waiting commands as it was and keeps the stores
canonical: for each f, `f_keeps` (Laws/Keeps.lean).
-/

namespace Sys2Proof.Machine

theorem execLINK_PARITY_ERROR_keeps {z : State} {link} {s : State} (hz : Keeps z s) :
    OutKeeps z (execLINK_PARITY_ERROR link s) := by
  unfold execLINK_PARITY_ERROR
  with_reducible
    refine OutKeeps.ite ?_ ?_
    apply OutKeeps.next
    apply State.bumpSat_keeps
    apply State.bump_keeps
    assumption
    apply OutKeeps.next
    assumption

theorem State.linkFailed_keeps {z : State} {s : State} {l} (hz : Keeps z s) :
    Keeps z (State.linkFailed s l) := by
  unfold State.linkFailed
  with_reducible
    ((try lift_lets -underBinder); intro x; simp -zeta only [x])
    ((try lift_lets -underBinder); intro x; refine (fun (hx : Keeps z x) => ?_) ?_; clear_value x)
    split
    assumption
    refine Keeps.ite ?_ ?_
    refine Keeps.ite ?_ ?_
    apply State.setPart_keeps
    assumption
    assumption
    refine Keeps.ite ?_ ?_
    ((try lift_lets -underBinder); intro x; refine (fun (hx : Keeps z x) => ?_) ?_; clear_value x)
    ((try lift_lets -underBinder); intro x; simp -zeta only [x])
    (simp -zeta only [mk_keeps_iff]; apply KeptParts.fold)
    assumption
    apply State.resetPartition_keeps
    assumption
    assumption
    apply State.errRecord_keeps
    apply State.bump_keeps
    apply State.setFld_keeps
    assumption

theorem execLINK_RETRAIN_keeps {z : State} {link} {word} {s : State} (hz : Keeps z s) :
    OutKeeps z (execLINK_RETRAIN link word s) := by
  unfold execLINK_RETRAIN
  with_reducible
    refine OutKeeps.ite ?_ ?_
    apply OutKeeps.next
    assumption
    refine OutKeeps.ite ?_ ?_
    apply OutKeeps.next
    apply State.linkFailed_keeps
    apply State.updErrs_keeps
    apply State.errRecord_keeps
    assumption
    apply OutKeeps.next
    apply State.bumpSat_keeps
    apply State.bump_keeps
    apply State.setFld_keeps
    apply State.updErrs_keeps
    apply State.errRecord_keeps
    assumption

theorem execLINK_RETRAIN_DONE_keeps {z : State} {link} {ok} {s : State} (hz : Keeps z s) :
    OutKeeps z (execLINK_RETRAIN_DONE link ok s) := by
  unfold execLINK_RETRAIN_DONE
  with_reducible
    refine OutKeeps.ite ?_ ?_
    apply OutKeeps.next
    assumption
    refine OutKeeps.ite ?_ ?_
    apply OutKeeps.next
    apply State.setFld_keeps
    assumption
    apply OutKeeps.next
    apply State.linkFailed_keeps
    assumption

theorem State.poisonLine_keeps {z : State} {s : State} {mem} {addr} (hz : Keeps z s) :
    Keeps z (State.poisonLine s mem addr) := by
  unfold State.poisonLine
  with_reducible
    refine Keeps.ite ?_ ?_
    assumption
    apply State.updErrs_keeps
    assumption

theorem State.countUe_keeps {z : State} {s : State} {mem} {addr} (hz : Keeps z s) :
    Keeps z (State.countUe s mem addr) := by
  unfold State.countUe
  with_reducible
    refine Keeps.ite ?_ ?_
    apply State.bumpSat_keeps
    apply State.bump_keeps
    assumption
    refine Keeps.ite ?_ ?_
    apply State.bumpSat_keeps
    apply State.bump_keeps
    assumption
    apply State.bump_keeps
    assumption

theorem State.stopWork_keeps {z : State} {s : State} {i} (hz : Keeps z s) :
    Keeps z (State.stopWork s i) := by
  unfold State.stopWork
  with_reducible
    apply State.dequeue_keeps
    apply State.dropPrefill_keeps
    apply foldl_keeps
    assumption
    intro _
    intro _
    apply State.abandonStep_keeps

theorem State.failRequest_keeps {z : State} {s : State} {i} (hz : Keeps z s) :
    Keeps z (State.failRequest s i) := by
  unfold State.failRequest
  with_reducible
    apply State.endWithout_keeps
    apply State.enter_keeps
    apply State.stopWork_keeps
    assumption

theorem State.requestLost_keeps {z : State} {s : State} {i} (hz : Keeps z s) :
    Keeps z (State.requestLost s i) := by
  unfold State.requestLost
  with_reducible
    refine Keeps.ite ?_ ?_
    assumption
    refine Keeps.ite ?_ ?_
    apply State.failRequest_keeps
    assumption
    apply State.updSess_keeps
    assumption

theorem State.transcriptCut_keeps {z : State} {s : State} {i} {k} (hz : Keeps z s) :
    Keeps z (State.transcriptCut s i k) := by
  unfold State.transcriptCut
  with_reducible
    refine Keeps.ite ?_ ?_
    apply State.enter_keeps
    apply State.updSess_keeps
    apply State.updSess_keeps
    split
    refine Keeps.ite ?_ ?_
    apply State.cutKv_keeps
    refine Keeps.ite ?_ ?_
    apply State.leaveT1_keeps
    apply State.answerHeld_keeps
    assumption
    apply State.stopWork_keeps
    assumption
    refine Keeps.ite ?_ ?_
    apply State.leaveT1_keeps
    apply State.answerHeld_keeps
    assumption
    apply State.stopWork_keeps
    assumption
    refine Keeps.ite ?_ ?_
    apply State.leaveT1_keeps
    apply State.answerHeld_keeps
    assumption
    apply State.stopWork_keeps
    assumption
    refine Keeps.ite ?_ ?_
    apply State.endWithout_keeps
    apply State.enter_keeps
    apply State.updSess_keeps
    split
    refine Keeps.ite ?_ ?_
    apply State.cutKv_keeps
    refine Keeps.ite ?_ ?_
    apply State.leaveT1_keeps
    apply State.answerHeld_keeps
    assumption
    apply State.stopWork_keeps
    assumption
    refine Keeps.ite ?_ ?_
    apply State.leaveT1_keeps
    apply State.answerHeld_keeps
    assumption
    apply State.stopWork_keeps
    assumption
    refine Keeps.ite ?_ ?_
    apply State.leaveT1_keeps
    apply State.answerHeld_keeps
    assumption
    apply State.stopWork_keeps
    assumption
    refine Keeps.ite ?_ ?_
    apply State.updSess_keeps
    apply State.updSess_keeps
    split
    refine Keeps.ite ?_ ?_
    apply State.cutKv_keeps
    refine Keeps.ite ?_ ?_
    apply State.leaveT1_keeps
    apply State.answerHeld_keeps
    assumption
    apply State.stopWork_keeps
    assumption
    refine Keeps.ite ?_ ?_
    apply State.leaveT1_keeps
    apply State.answerHeld_keeps
    assumption
    apply State.stopWork_keeps
    assumption
    refine Keeps.ite ?_ ?_
    apply State.leaveT1_keeps
    apply State.answerHeld_keeps
    assumption
    apply State.stopWork_keeps
    assumption
    refine Keeps.ite ?_ ?_
    apply State.enqueuePrefill_keeps
    apply State.enter_keeps
    apply State.updSess_keeps
    split
    refine Keeps.ite ?_ ?_
    apply State.cutKv_keeps
    refine Keeps.ite ?_ ?_
    apply State.leaveT1_keeps
    apply State.answerHeld_keeps
    assumption
    apply State.stopWork_keeps
    assumption
    refine Keeps.ite ?_ ?_
    apply State.leaveT1_keeps
    apply State.answerHeld_keeps
    assumption
    apply State.stopWork_keeps
    assumption
    refine Keeps.ite ?_ ?_
    apply State.leaveT1_keeps
    apply State.answerHeld_keeps
    assumption
    apply State.stopWork_keeps
    assumption
    apply State.updSess_keeps
    split
    refine Keeps.ite ?_ ?_
    apply State.cutKv_keeps
    refine Keeps.ite ?_ ?_
    apply State.leaveT1_keeps
    apply State.answerHeld_keeps
    assumption
    apply State.stopWork_keeps
    assumption
    refine Keeps.ite ?_ ?_
    apply State.leaveT1_keeps
    apply State.answerHeld_keeps
    assumption
    apply State.stopWork_keeps
    assumption
    refine Keeps.ite ?_ ?_
    apply State.leaveT1_keeps
    apply State.answerHeld_keeps
    assumption
    apply State.stopWork_keeps
    assumption

theorem State.pagesLost_keeps {z : State} {s : State} {i} {f} (hz : Keeps z s) :
    Keeps z (State.pagesLost s i f) := by
  unfold State.pagesLost
  with_reducible
    split
    refine Keeps.ite ?_ ?_
    apply State.updRevive_keeps
    assumption
    apply State.truncateKv_keeps
    assumption
    refine Keeps.ite ?_ ?_
    assumption
    apply State.truncateKv_keeps
    assumption

theorem State.lose_keeps {z : State} {s : State} {mem} {addr} {data} (hz : Keeps z s) :
    Keeps z (State.lose s mem addr data) := by
  unfold State.lose
  with_reducible
    ((try lift_lets -underBinder); intro x; simp -zeta only [x])
    ((try lift_lets -underBinder); intro x; simp -zeta only [x])
    split
    apply State.errRecord_keeps
    assumption
    apply foldl_keeps
    apply State.errRecord_keeps
    assumption
    intro _
    intro _
    apply State.pagesLost_keeps
    apply State.errRecord_keeps
    assumption
    apply State.errRecord_keeps
    assumption
    split
    apply State.transcriptCut_keeps
    apply State.errRecord_keeps
    assumption
    apply State.errRecord_keeps
    assumption
    apply State.entryLost_keeps
    assumption
    refine Keeps.ite ?_ ?_
    apply State.errRecord_keeps
    assumption
    apply State.deviceError_keeps
    assumption
    apply State.fetchFrom_keeps
    apply State.errRecord_keeps
    assumption
    apply State.updCat_keeps
    apply State.errRecord_keeps
    assumption
    apply State.damageShard_keeps
    apply State.errRecord_keeps
    assumption
    split
    apply State.requestLost_keeps
    apply State.errRecord_keeps
    assumption
    apply State.errRecord_keeps
    assumption
    apply State.deviceError_keeps
    assumption

theorem execUNCORRECTABLE_ERROR_keeps {z : State} {mem} {addr} {data} {s : State} (hz : Keeps z s) :
    OutKeeps z (execUNCORRECTABLE_ERROR mem addr data s) := by
  unfold execUNCORRECTABLE_ERROR
  with_reducible
    apply OutKeeps.next
    apply State.lose_keeps
    apply State.poisonLine_keeps
    apply State.countUe_keeps
    assumption

theorem State.rowCandidate_keeps {z : State} {s : State} {row} {n} (hz : Keeps z s) :
    Keeps z (State.rowCandidate s row n) := by
  unfold State.rowCandidate
  with_reducible
    apply State.updErrs_keeps
    assumption

theorem execCE_THRESHOLD_keeps {z : State} {mem} {loc} {addr} {n} {s : State} (hz : Keeps z s) :
    OutKeeps z (execCE_THRESHOLD mem loc addr n s) := by
  unfold execCE_THRESHOLD
  with_reducible
    refine OutKeeps.ite ?_ ?_
    apply OutKeeps.next
    refine Keeps.ite ?_ ?_
    apply State.setFld_keeps
    apply State.bumpBy_keeps
    assumption
    refine Keeps.ite ?_ ?_
    apply State.setFld_keeps
    apply State.bumpBy_keeps
    assumption
    apply State.bumpBy_keeps
    assumption
    refine OutKeeps.ite ?_ ?_
    apply OutKeeps.next
    apply State.rowCandidate_keeps
    apply State.errRecord_keeps
    refine Keeps.ite ?_ ?_
    apply State.setFld_keeps
    apply State.bumpBy_keeps
    assumption
    refine Keeps.ite ?_ ?_
    apply State.setFld_keeps
    apply State.bumpBy_keeps
    assumption
    apply State.bumpBy_keeps
    assumption
    refine OutKeeps.ite ?_ ?_
    apply OutKeeps.next
    apply State.errRecord_keeps
    refine Keeps.ite ?_ ?_
    apply State.setFld_keeps
    apply State.bumpBy_keeps
    assumption
    refine Keeps.ite ?_ ?_
    apply State.setFld_keeps
    apply State.bumpBy_keeps
    assumption
    apply State.bumpBy_keeps
    assumption
    apply OutKeeps.next
    apply State.errRecord_keeps
    refine Keeps.ite ?_ ?_
    apply State.setFld_keeps
    apply State.bumpBy_keeps
    assumption
    refine Keeps.ite ?_ ?_
    apply State.setFld_keeps
    apply State.bumpBy_keeps
    assumption
    apply State.bumpBy_keeps
    assumption

theorem execERR_IRQ_GAP_END_keeps {z : State} {s : State} (hz : Keeps z s) :
    OutKeeps z (execERR_IRQ_GAP_END s) := by
  unfold execERR_IRQ_GAP_END
  with_reducible
    refine OutKeeps.ite ?_ ?_
    apply OutKeeps.next
    apply State.sendMsix_keeps
    apply State.updErrs_keeps
    assumption
    apply OutKeeps.next
    assumption

theorem execERR_LOG_SEL_keeps {z : State} {value} {s : State} (hz : Keeps z s) :
    OutKeeps z (execERR_LOG_SEL value s) := by
  unfold execERR_LOG_SEL
  with_reducible
    apply OutKeeps.next
    apply State.setFld_keeps
    apply State.updErrs_keeps
    apply State.setReg_keeps
    assumption

theorem execERR_STICKY_CLR_keeps {z : State} {value} {s : State} (hz : Keeps z s) :
    OutKeeps z (execERR_STICKY_CLR value s) := by
  unfold execERR_STICKY_CLR
  with_reducible
    refine OutKeeps.ite ?_ ?_
    apply OutKeeps.next
    assumption
    ((try lift_lets -underBinder); intro x; refine (fun (hx : Keeps z x) => ?_) ?_; clear_value x)
    ((try lift_lets -underBinder); intro x; refine (fun (hx : Keeps z x) => ?_) ?_; clear_value x)
    ((try lift_lets -underBinder); intro _)
    refine OutKeeps.ite ?_ ?_
    apply OutKeeps.next
    (simp -zeta only [mk_keeps_iff]; apply KeptParts.fold)
    assumption
    apply OutKeeps.next
    assumption
    simp -zeta only [x]
    apply State.beginWarm_keeps
    assumption
    simp -zeta only [x]
    apply State.updErrs_keeps
    assumption

theorem State.dropFlight_keeps {z : State} {s : State} (hz : Keeps z s) :
    Keeps z (State.dropFlight s) := by
  unfold State.dropFlight
  with_reducible
    ((try lift_lets -underBinder); intro x; refine (fun (hx : Keeps z x) => ?_) ?_; clear_value x)
    (simp -zeta only [mk_keeps_iff]; apply KeptParts.fold)
    assumption
    apply foldl_keeps
    assumption
    intro _
    intro _
    apply State.dropSlip_keeps

theorem State.violation_keeps {z : State} {s : State} {code} {check} {object} {slip} (hz : Keeps z s) :
    Keeps z (State.violation s code check object slip) := by
  unfold State.violation
  with_reducible
    ((try lift_lets -underBinder); intro _)
    ((try lift_lets -underBinder); intro x; refine (fun (hx : Keeps z x) => ?_) ?_; clear_value x)
    ((try lift_lets -underBinder); intro x; refine (fun (hx : Keeps z x) => ?_) ?_; clear_value x)
    ((try lift_lets -underBinder); intro x; refine (fun (hx : Keeps z x) => ?_) ?_; clear_value x)
    ((try lift_lets -underBinder); intro x; refine (fun (hx : Keeps z x) => ?_) ?_; clear_value x)
    ((try lift_lets -underBinder); intro x; refine (fun (hx : Keeps z x) => ?_) ?_; clear_value x)
    ((try lift_lets -underBinder); intro _)
    refine Keeps.ite ?_ ?_
    apply State.setFld_keeps
    apply State.setFld_keeps
    apply State.setFld_keeps
    apply State.dropFlight_keeps
    apply State.abandonSteps_keeps
    assumption
    (simp -zeta only [mk_keeps_iff]; apply KeptParts.fold)
    assumption
    simp -zeta only [x]
    apply State.beginWarm_keeps
    assumption
    simp -zeta only [x]
    split
    apply State.finish_keeps
    assumption
    assumption
    simp -zeta only [x]
    apply State.bump_keeps
    assumption
    simp -zeta only [x]
    apply State.setFld_keeps
    apply State.setFld_keeps
    apply State.setFld_keeps
    assumption
    simp -zeta only [x]
    apply State.errRecord_keeps
    assumption

theorem execCONSERVATION_VIOLATION_keeps {z : State} {code} {check} {object} {slip} {s : State} (hz : Keeps z s) :
    OutKeeps z (execCONSERVATION_VIOLATION code check object slip s) := by
  unfold execCONSERVATION_VIOLATION
  with_reducible
    refine OutKeeps.ite ?_ ?_
    apply OutKeeps.next
    apply State.violation_keeps
    assumption
    apply OutKeeps.next
    assumption

theorem execAUDIT_SWEEP_keeps {z : State} {left} {s : State} (hz : Keeps z s) :
    OutKeeps z (execAUDIT_SWEEP left s) := by
  unfold execAUDIT_SWEEP
  with_reducible
    refine OutKeeps.ite ?_ ?_
    apply OutKeeps.next
    assumption
    ((try lift_lets -underBinder); intro x; simp -zeta only [x])
    ((try lift_lets -underBinder); intro x; simp -zeta only [x])
    ((try lift_lets -underBinder); intro x; refine (fun (hx : Keeps z x) => ?_) ?_; clear_value x)
    ((try lift_lets -underBinder); intro x; refine (fun (hx : Keeps z x) => ?_) ?_; clear_value x)
    split
    apply OutKeeps.next
    apply State.violation_keeps
    assumption
    apply OutKeeps.next
    refine Keeps.ite ?_ ?_
    apply State.bump_keeps
    assumption
    assumption
    apply State.bumpBy_keeps
    assumption
    apply State.setFld_keeps
    apply State.setFld_keeps
    assumption

end Sys2Proof.Machine
end

