-- ==== Sys2Proof/Laws/KeepMaintFrame.lean ====
section
/-!
SUPPORT. Every operation and meaning of Machine/MaintFrame.lean leaves the queue of waiting commands as it was and keeps the stores
canonical: for each f, `f_keeps` (Laws/Keeps.lean).
-/

namespace Sys2Proof.Machine

theorem State.closeWindow_keeps {z : State} {s : State} (hz : Keeps z s) :
    Keeps z (State.closeWindow s) := by
  unfold State.closeWindow
  with_reducible
    ((try lift_lets -underBinder); intro x; simp -zeta only [x])
    (simp -zeta only [mk_keeps_iff]; apply KeptParts.fold)
    assumption

theorem State.usePresence_keeps {z : State} {s : State} {x} {status} (hz : Keeps z s) :
    Keeps z (State.usePresence s x status) := by
  unfold State.usePresence
  with_reducible
    split
    refine Keeps.ite ?_ ?_
    apply State.closeWindow_keeps
    assumption
    assumption
    assumption

theorem State.withPresence_keeps {z : State} {s : State} {x} {r : SlipRes} (hz : Keeps z s) (hr : ResKeeps z r) :
    ResKeeps z (State.withPresence s x r) := by
  unfold State.withPresence
  with_reducible
    refine ResKeeps.ite ?_ ?_
    apply SlipRes.no_keeps
    assumption
    split
    apply ResKeeps.done
    apply State.usePresence_keeps
    exact ResKeeps.inv (by assumption)
    assumption

theorem State.closeMgmt_keeps {z : State} {s : State} {c} (hz : Keeps z s) :
    Keeps z (State.closeMgmt s c) := by
  unfold State.closeMgmt
  with_reducible
    apply State.orphan_keeps
    apply State.contextLocks_keeps
    (simp -zeta only [mk_keeps_iff]; apply KeptParts.fold)
    assumption

theorem State.repairMove_keeps {z : State} {s : State} {row} (hz : Keeps z s) :
    Keeps z (State.repairMove s row) := by
  unfold State.repairMove
  with_reducible
    apply foldl_keeps
    refine Keeps.ite ?_ ?_
    apply State.moveSlot_keeps
    assumption
    assumption
    apply State.moveBlock_keeps

theorem State.repairBurn_keeps {z : State} {s : State} {row} (hz : Keeps z s) :
    Keeps z (State.repairBurn s row) := by
  unfold State.repairBurn
  with_reducible
    ((try lift_lets -underBinder); intro x; refine (fun (hx : Keeps z x) => ?_) ?_; clear_value x)
    ((try lift_lets -underBinder); intro x; refine (fun (hx : Keeps z x) => ?_) ?_; clear_value x)
    ((try lift_lets -underBinder); intro x; simp -zeta only [x])
    (simp -zeta only [mk_keeps_iff]; apply KeptParts.fold)
    assumption
    apply State.updErrs_keeps
    assumption
    apply State.blow_keeps
    assumption

end Sys2Proof.Machine
end

