-- ==== Sys2Proof/Laws/KeepMaint.lean ====
section
/-!
SUPPORT. Every operation and meaning of Machine/Maint.lean leaves the queue of waiting commands as it was and keeps the stores
canonical: for each f, `f_keeps` (Laws/Keeps.lean).
-/

namespace Sys2Proof.Machine

theorem execMAINT_LOCK_keeps {z : State} {x} {s : State} (hz : Keeps z s) :
    OutKeeps z (execMAINT_LOCK x s) := by
  unfold execMAINT_LOCK
  with_reducible
    apply runSlip_keeps
    assumption
    intro _
    intro _
    apply noSession_keeps
    assumption
    refine ResKeeps.ite ?_ ?_
    apply SlipRes.no_keeps
    assumption
    refine ResKeeps.ite ?_ ?_
    apply SlipRes.no_keeps
    assumption
    refine ResKeeps.ite ?_ ?_
    apply SlipRes.no_keeps
    assumption
    split
    apply ResKeeps.done
    assumption
    split
    apply State.lockRefused_keeps
    assumption
    refine ResKeeps.ite ?_ ?_
    apply SlipRes.no_keeps
    assumption
    apply ResKeeps.done
    apply State.takeLock_keeps
    assumption

theorem execMAINT_UNLOCK_keeps {z : State} {x} {s : State} (hz : Keeps z s) :
    OutKeeps z (execMAINT_UNLOCK x s) := by
  unfold execMAINT_UNLOCK
  with_reducible
    apply runSlip_keeps
    assumption
    intro _
    intro _
    apply noSession_keeps
    assumption
    split
    apply SlipRes.no_keeps
    assumption
    refine ResKeeps.ite ?_ ?_
    apply ResKeeps.wait
    (simp -zeta only [mk_keeps_iff]; apply KeptParts.fold)
    assumption
    apply ResKeeps.done
    apply State.dropLocks_keeps
    assumption

theorem State.beginAct_keeps {z : State} {s : State} {a} (hz : Keeps z s) :
    Keeps z (State.beginAct s a) := by
  unfold State.beginAct
  with_reducible
    ((try lift_lets -underBinder); intro x; simp -zeta only [x])
    (simp -zeta only [mk_keeps_iff]; apply KeptParts.fold)
    assumption

theorem execMAINT_PATROL_keeps {z : State} {x} {s : State} (hz : Keeps z s) :
    OutKeeps z (execMAINT_PATROL x s) := by
  unfold execMAINT_PATROL
  with_reducible
    apply runSlip_keeps
    assumption
    intro _
    intro _
    apply noSession_keeps
    assumption
    refine ResKeeps.ite ?_ ?_
    apply SlipRes.no_keeps
    assumption
    refine ResKeeps.ite ?_ ?_
    apply SlipRes.no_keeps
    assumption
    split
    apply ResKeeps.done
    assumption
    refine ResKeeps.ite ?_ ?_
    apply SlipRes.no_keeps
    assumption
    split
    refine ExcKeeps.err (State.lockFor_keeps ?_) (by assumption)
    assumption
    apply ResKeeps.wait
    apply State.beginAct_keeps
    refine ExcKeeps.get (State.lockFor_keeps ?_) (by assumption)
    assumption

theorem execBACKGROUND_PATROL_keeps {z : State} {scope} {index} {s : State} (hz : Keeps z s) :
    OutKeeps z (execBACKGROUND_PATROL scope index s) := by
  unfold execBACKGROUND_PATROL
  with_reducible
    refine OutKeeps.ite ?_ ?_
    apply OutKeeps.next
    assumption
    apply OutKeeps.next
    apply State.beginAct_keeps
    apply State.takeLock_keeps
    assumption

theorem State.patrolClean_keeps {z s : State} {a bad} (hz : Keeps z s) : Keeps z (State.patrolClean s a bad).1 := by
  have h : ∀ f g, Keeps z { s with hbm := s.hbm.filter f, cellar := s.cellar.filter g } := fun f g =>
    ⟨{ hz.parts with canon := fun c => ((hz.parts.canon c).imp_hbm (filter_wf _)).imp_cellar (filter_wf _) }⟩
  unfold State.patrolClean
  dsimp only
  exact State.updErrs_keeps (h _ _)

theorem State.countCe_keeps {z : State} {s : State} {hbm} {index} {n} (hz : Keeps z s) :
    Keeps z (State.countCe s hbm index n) := by
  unfold State.countCe
  with_reducible
    refine Keeps.ite ?_ ?_
    apply State.setFld_keeps
    apply State.bumpBy_keeps
    assumption
    apply State.setFld_keeps
    apply State.bumpBy_keeps
    assumption

theorem execPATROL_COMPLETE_keeps {z : State} {lock} {corrected} {bad} {s : State} (hz : Keeps z s) :
    OutKeeps z (execPATROL_COMPLETE lock corrected bad s) := by
  unfold execPATROL_COMPLETE
  with_reducible
    split
    apply OutKeeps.next
    assumption
    apply OutKeeps.next
    apply State.endAct_keeps
    apply State.patrolClean_keeps
    apply foldl_keeps
    assumption
    intro _
    intro _
    apply State.countCe_keeps

theorem State.portDown_keeps {z : State} {s : State} {p} (hz : Keeps z s) :
    Keeps z (State.portDown s p) := by
  unfold State.portDown
  with_reducible
    apply State.capRates_keeps
    apply State.setPort_keeps
    assumption

theorem execMAINT_RETRAIN_keeps {z : State} {x} {s : State} (hz : Keeps z s) :
    OutKeeps z (execMAINT_RETRAIN x s) := by
  unfold execMAINT_RETRAIN
  with_reducible
    apply runSlip_keeps
    assumption
    intro _
    intro _
    apply noSession_keeps
    assumption
    refine ResKeeps.ite ?_ ?_
    apply SlipRes.no_keeps
    assumption
    split
    apply ResKeeps.done
    assumption
    split
    refine ExcKeeps.err (State.lockFor_keeps ?_) (by assumption)
    assumption
    apply ResKeeps.wait
    refine Keeps.ite ?_ ?_
    apply State.portDown_keeps
    apply State.beginAct_keeps
    refine ExcKeeps.get (State.lockFor_keeps ?_) (by assumption)
    assumption
    apply State.beginAct_keeps
    refine ExcKeeps.get (State.lockFor_keeps ?_) (by assumption)
    assumption

theorem execRETRAIN_COMPLETE_keeps {z : State} {lock} {ok} {s : State} (hz : Keeps z s) :
    OutKeeps z (execRETRAIN_COMPLETE lock ok s) := by
  unfold execRETRAIN_COMPLETE
  with_reducible
    split
    apply OutKeeps.next
    assumption
    apply OutKeeps.next
    apply State.endAct_keeps
    assumption

theorem execMAINT_ROW_REPAIR_keeps {z : State} {x} {s : State} (hz : Keeps z s) :
    OutKeeps z (execMAINT_ROW_REPAIR x s) := by
  unfold execMAINT_ROW_REPAIR
  with_reducible
    apply runSlip_keeps
    assumption
    intro _
    intro _
    apply State.withPresence_keeps
    assumption
    apply noSession_keeps
    assumption
    refine ResKeeps.ite ?_ ?_
    apply SlipRes.no_keeps
    assumption
    split
    refine ExcKeeps.err (State.lockFor_keeps ?_) (by assumption)
    assumption
    split
    apply ResKeeps.done
    assumption
    apply ResKeeps.wait
    apply State.beginAct_keeps
    apply State.repairMove_keeps
    refine ExcKeeps.get (State.lockFor_keeps ?_) (by assumption)
    assumption

theorem execROW_REPAIR_DONE_keeps {z : State} {lock} {ok} {s : State} (hz : Keeps z s) :
    OutKeeps z (execROW_REPAIR_DONE lock ok s) := by
  unfold execROW_REPAIR_DONE
  with_reducible
    split
    apply OutKeeps.next
    assumption
    apply OutKeeps.next
    apply State.endAct_keeps
    split
    apply State.usePresence_keeps
    refine Keeps.ite ?_ ?_
    apply State.repairBurn_keeps
    assumption
    assumption
    refine Keeps.ite ?_ ?_
    apply State.repairBurn_keeps
    assumption
    assumption

theorem State.resetDone_keeps {z : State} {s : State} {op} {p} {a} (hz : Keeps z s) :
    Keeps z (State.resetDone s op p a) := by
  unfold State.resetDone
  with_reducible
    apply foldl_keeps
    assumption
    intro _
    intro _
    apply State.finish_keeps

theorem State.beginCluster_keeps {z : State} {s : State} {c} {cause} (hz : Keeps z s) :
    Keeps z (State.beginCluster s c cause) := by
  unfold State.beginCluster
  with_reducible
    ((try lift_lets -underBinder); intro x; refine (fun (hx : Keeps z x) => ?_) ?_; clear_value x)
    ((try lift_lets -underBinder); intro x; refine (fun (hx : Keeps z x) => ?_) ?_; clear_value x)
    ((try lift_lets -underBinder); intro _)
    (simp -zeta only [mk_keeps_iff]; apply KeptParts.fold)
    assumption
    simp -zeta only [x]
    apply State.takeBack_keeps
    assumption
    simp -zeta only [x]
    apply State.bump_keeps
    apply State.noteReset_keeps
    assumption

theorem execMAINT_RESET_UNIT_keeps {z : State} {x} {s : State} (hz : Keeps z s) :
    OutKeeps z (execMAINT_RESET_UNIT x s) := by
  unfold execMAINT_RESET_UNIT
  with_reducible
    apply runSlip_keeps
    assumption
    intro _
    intro _
    apply noSession_keeps
    assumption
    refine ResKeeps.ite ?_ ?_
    apply SlipRes.no_keeps
    assumption
    refine ResKeeps.ite ?_ ?_
    apply SlipRes.no_keeps
    assumption
    refine ResKeeps.ite ?_ ?_
    apply SlipRes.no_keeps
    assumption
    ((try lift_lets -underBinder); intro x; refine (fun (hx : Keeps z x) => ?_) ?_; clear_value x)
    ((try lift_lets -underBinder); intro _)
    ((try lift_lets -underBinder); intro _)
    apply ResKeeps.done
    refine Keeps.ite ?_ ?_
    apply State.beginCluster_keeps
    assumption
    assumption
    simp -zeta only [x]
    apply State.resetUnit_keeps
    assumption

theorem execMAINT_RESET_CLUSTER_keeps {z : State} {x} {s : State} (hz : Keeps z s) :
    OutKeeps z (execMAINT_RESET_CLUSTER x s) := by
  unfold execMAINT_RESET_CLUSTER
  with_reducible
    apply runSlip_keeps
    assumption
    intro _
    intro _
    apply noSession_keeps
    assumption
    refine ResKeeps.ite ?_ ?_
    apply SlipRes.no_keeps
    assumption
    refine ResKeeps.ite ?_ ?_
    apply SlipRes.no_keeps
    assumption
    refine ResKeeps.ite ?_ ?_
    apply SlipRes.no_keeps
    assumption
    apply ResKeeps.wait
    apply State.beginCluster_keeps
    assumption

theorem execCLUSTER_RESET_keeps {z : State} {c} {drained} {failed} {s : State} (hz : Keeps z s) :
    OutKeeps z (execCLUSTER_RESET c drained failed s) := by
  unfold execCLUSTER_RESET
  with_reducible
    refine OutKeeps.ite ?_ ?_
    apply OutKeeps.next
    assumption
    refine OutKeeps.ite ?_ ?_
    apply OutKeeps.next
    apply State.resetPartition_keeps
    assumption
    ((try lift_lets -underBinder); intro x; simp -zeta only [x])
    ((try lift_lets -underBinder); intro x; refine (fun (hx : Keeps z x) => ?_) ?_; clear_value x)
    ((try lift_lets -underBinder); intro x; refine (fun (hx : Keeps z x) => ?_) ?_; clear_value x)
    apply OutKeeps.next
    apply State.resetDone_keeps
    assumption
    simp -zeta only [x]
    apply State.issue_keeps
    apply foldl_keeps
    assumption
    intro _
    intro _
    intro _
    apply State.disableUnit_keeps
    assumption
    simp -zeta only [x]
    (simp -zeta only [mk_keeps_iff]; apply KeptParts.fold)
    assumption

theorem execMAINT_RESET_PARTITION_keeps {z : State} {x} {s : State} (hz : Keeps z s) :
    OutKeeps z (execMAINT_RESET_PARTITION x s) := by
  unfold execMAINT_RESET_PARTITION
  with_reducible
    apply runSlip_keeps
    assumption
    intro _
    intro _
    apply noSession_keeps
    assumption
    refine ResKeeps.ite ?_ ?_
    apply SlipRes.no_keeps
    assumption
    refine ResKeeps.ite ?_ ?_
    apply SlipRes.no_keeps
    assumption
    refine ResKeeps.ite ?_ ?_
    apply SlipRes.no_keeps
    assumption
    refine ResKeeps.ite ?_ ?_
    apply SlipRes.no_keeps
    assumption
    apply ResKeeps.wait
    apply State.resetPartition_keeps
    assumption

theorem execMAINT_RESET_DEVICE_keeps {z : State} {x} {s : State} (hz : Keeps z s) :
    OutKeeps z (execMAINT_RESET_DEVICE x s) := by
  unfold execMAINT_RESET_DEVICE
  with_reducible
    apply runSlip_keeps
    assumption
    intro _
    intro _
    apply noSession_keeps
    assumption
    apply ResKeeps.gone
    apply State.beginWarm_keeps
    assumption

theorem execPARTITION_RESET_keeps {z : State} {p} {cause} {lost} {s : State} (hz : Keeps z s) :
    OutKeeps z (execPARTITION_RESET p cause lost s) := by
  unfold execPARTITION_RESET
  with_reducible
    refine OutKeeps.ite ?_ ?_
    apply OutKeeps.next
    assumption
    refine OutKeeps.ite ?_ ?_
    apply OutKeeps.next
    apply State.resetPartition_keeps
    assumption
    refine OutKeeps.ite ?_ ?_
    apply OutKeeps.next
    apply foldl_keeps
    assumption
    intro _
    intro _
    apply State.entryLost_keeps
    apply OutKeeps.next
    assumption

theorem State.partLinksUp_keeps {z : State} {s : State} {p} (hz : Keeps z s) :
    Keeps z (State.partLinksUp s p) := by
  unfold State.partLinksUp
  with_reducible
    apply foldl_keeps
    assumption
    intro _
    intro _
    intro _
    refine Keeps.ite ?_ ?_
    apply State.setFld_keeps
    assumption
    assumption

theorem execPARTITION_ACTIVE_keeps {z : State} {p} {ok} {failed} {s : State} (hz : Keeps z s) :
    OutKeeps z (execPARTITION_ACTIVE p ok failed s) := by
  unfold execPARTITION_ACTIVE
  with_reducible
    refine OutKeeps.ite ?_ ?_
    apply OutKeeps.next
    assumption
    ((try lift_lets -underBinder); intro x; simp -zeta only [x])
    ((try lift_lets -underBinder); intro x; refine (fun (hx : Keeps z x) => ?_) ?_; clear_value x)
    ((try lift_lets -underBinder); intro _)
    ((try lift_lets -underBinder); intro x; refine (fun (hx : Keeps z x) => ?_) ?_; clear_value x)
    ((try lift_lets -underBinder); intro x; refine (fun (hx : Keeps z x) => ?_) ?_; clear_value x)
    ((try lift_lets -underBinder); intro x; refine (fun (hx : Keeps z x) => ?_) ?_; clear_value x)
    refine OutKeeps.ite ?_ ?_
    apply OutKeeps.next
    apply State.resetDone_keeps
    apply State.resetDone_keeps
    apply State.setPart_keeps
    assumption
    apply OutKeeps.next
    apply foldl_keeps
    assumption
    intro _
    intro _
    intro _
    apply State.reviveArmed_keeps
    assumption
    simp -zeta only [x]
    apply State.resetDone_keeps
    apply State.resetDone_keeps
    assumption
    simp -zeta only [x]
    apply State.issue_keeps
    apply foldl_keeps
    assumption
    intro _
    intro _
    intro _
    apply State.disableUnit_keeps
    assumption
    simp -zeta only [x]
    apply State.partLinksUp_keeps
    apply State.setPart_keeps
    assumption
    simp -zeta only [x]
    (simp -zeta only [mk_keeps_iff]; apply KeptParts.fold)
    assumption

theorem execUNIT_SOFT_DISABLE_keeps {z : State} {unit} {s : State} (hz : Keeps z s) :
    OutKeeps z (execUNIT_SOFT_DISABLE unit s) := by
  unfold execUNIT_SOFT_DISABLE
  with_reducible
    refine OutKeeps.ite ?_ ?_
    apply OutKeeps.next
    apply State.disableUnit_keeps
    assumption
    apply OutKeeps.next
    assumption

theorem execMAINT_UNIT_DISABLE_keeps {z : State} {x} {s : State} (hz : Keeps z s) :
    OutKeeps z (execMAINT_UNIT_DISABLE x s) := by
  unfold execMAINT_UNIT_DISABLE
  with_reducible
    apply runSlip_keeps
    assumption
    intro _
    intro _
    apply noSession_keeps
    assumption
    refine ResKeeps.ite ?_ ?_
    apply SlipRes.no_keeps
    assumption
    refine ResKeeps.ite ?_ ?_
    apply SlipRes.no_keeps
    assumption
    refine ResKeeps.ite ?_ ?_
    apply SlipRes.no_keeps
    assumption
    refine ResKeeps.ite ?_ ?_
    apply SlipRes.no_keeps
    assumption
    apply ResKeeps.done
    apply State.disableUnit_keeps
    assumption

theorem State.flashJob_keeps {z : State} {s : State} {j} (hz : Keeps z s) :
    Keeps z (State.flashJob s j) := by
  unfold State.flashJob
  with_reducible
    ((try lift_lets -underBinder); intro x; refine (fun (hx : Keeps z x) => ?_) ?_; clear_value x)
    ((try lift_lets -underBinder); intro x; simp -zeta only [x])
    (simp -zeta only [mk_keeps_iff]; apply KeptParts.fold)
    assumption
    apply State.emit_keeps
    assumption

theorem State.dropActivate_keeps {z : State} {s : State} (hz : Keeps z s) :
    Keeps z (State.dropActivate s) := by
  unfold State.dropActivate
  with_reducible
    apply State.dropLocks_keeps
    assumption

theorem State.fwWrite_keeps {z : State} {s : State} {x} {activate} (hz : Keeps z s) :
    ResKeeps z (State.fwWrite s x activate) := by
  unfold State.fwWrite
  with_reducible
    split
    apply SlipRes.no_keeps
    assumption
    refine ResKeeps.ite ?_ ?_
    apply SlipRes.no_keeps
    assumption
    refine ResKeeps.ite ?_ ?_
    split
    refine ExcKeeps.err (State.lockFor_keeps ?_) (by assumption)
    assumption
    apply ResKeeps.wait
    apply State.flashJob_keeps
    refine ExcKeeps.get (State.lockFor_keeps ?_) (by assumption)
    assumption
    apply ResKeeps.wait
    apply State.flashJob_keeps
    assumption

theorem execMAINT_FW_UPDATE_keeps {z : State} {x} {s : State} (hz : Keeps z s) :
    OutKeeps z (execMAINT_FW_UPDATE x s) := by
  unfold execMAINT_FW_UPDATE
  with_reducible
    apply runSlip_keeps
    assumption
    intro _
    intro _
    apply noSession_keeps
    assumption
    apply State.fwWrite_keeps
    assumption

theorem execMAINT_FW_ACTIVATE_keeps {z : State} {x} {s : State} (hz : Keeps z s) :
    OutKeeps z (execMAINT_FW_ACTIVATE x s) := by
  unfold execMAINT_FW_ACTIVATE
  with_reducible
    apply runSlip_keeps
    assumption
    intro _
    intro _
    apply noSession_keeps
    assumption
    apply State.fwWrite_keeps
    assumption

theorem execMAINT_FW_ROLLBACK_keeps {z : State} {x} {s : State} (hz : Keeps z s) :
    OutKeeps z (execMAINT_FW_ROLLBACK x s) := by
  unfold execMAINT_FW_ROLLBACK
  with_reducible
    apply runSlip_keeps
    assumption
    intro _
    intro _
    apply State.withPresence_keeps
    assumption
    apply noSession_keeps
    assumption
    split
    refine ExcKeeps.err (State.lockFor_keeps ?_) (by assumption)
    assumption
    refine ResKeeps.ite ?_ ?_
    apply SlipRes.no_keeps
    assumption
    apply ResKeeps.wait
    apply State.flashJob_keeps
    refine ExcKeeps.get (State.lockFor_keeps ?_) (by assumption)
    assumption

theorem State.imageWritten_keeps {z s : State} {addr bytes x ok} (hz : Keeps z s) : Keeps z (State.imageWritten s addr bytes x ok) := by
  have stop : ∀ (t : State) (a : Answer), Keeps z t →
      Keeps z ((if (x.P1.testBit 1) = true then t.dropActivate else t).finish Op.MAINT_FW_UPDATE x a) := fun t a ht =>
    State.finish_keeps (Keeps.ite (State.dropActivate_keeps ht) ht)
  have put : Keeps z { s with
      flash := { s.flash with bytes := (bytes.zip (List.range bytes.length)).foldl (fun m c => sSet (fun _ => 0) m (addr + c.2) c.1) s.flash.bytes } } :=
    ⟨{ hz.parts with canon := fun c => (hz.parts.canon c).imp_flash (foldl_sSet_wf _ _ _) }⟩
  unfold State.imageWritten
  simp only
  refine Keeps.ite (stop _ _ hz) (Keeps.ite (stop _ _ put) (Keeps.ite (State.flashJob_keeps put) (stop _ _ put)))

theorem State.controlWritten_keeps {z : State} {s : State} {preferred} {trial} {slip} {ok} (hz : Keeps z s) :
    Keeps z (State.controlWritten s preferred trial slip ok) := by
  unfold State.controlWritten
  with_reducible
    refine Keeps.ite ?_ ?_
    ((try lift_lets -underBinder); intro x; simp -zeta only [x])
    ((try lift_lets -underBinder); intro x; refine (fun (hx : Keeps z x) => ?_) ?_; clear_value x)
    split
    apply State.beginWarm_keeps
    apply State.usePresence_keeps
    assumption
    apply State.setFld_keeps
    apply State.setFld_keeps
    assumption
    simp -zeta only [x]
    (simp -zeta only [mk_keeps_iff]; apply KeptParts.fold)
    assumption
    split
    apply State.finish_keeps
    apply State.dropActivate_keeps
    assumption
    apply State.flashJob_keeps
    assumption

theorem execFLASH_WRITE_DONE_keeps {z s : State} {area ok} (hz : Keeps z s) : OutKeeps z (execFLASH_WRITE_DONE area ok s) := by
  have raise : Keeps z { s with genFloor := min (s.genFloor + 2 ^ 16) (2 ^ 32 - 1), floorBusy := false } := by
    refine ⟨⟨hz.parts.pend, hz.parts.fuse, fun c => ?_, fun c => ?_⟩⟩
    · obtain ⟨c1, c2, c3, c4, c5⟩ := hz.parts.canon c
      exact ⟨c1, c2, c3, c4, by dsimp only; omega⟩
    · have h1 := hz.parts.floor c
      have h2 := (hz.parts.canon c).2.2.2.2
      dsimp only
      omega
  unfold execFLASH_WRITE_DONE
  with_reducible
    refine OutKeeps.ite ?_ ?_
    · refine OutKeeps.ite ?_ (OutKeeps.ite ?_ ?_)
      · exact OutKeeps.next hz
      · exact OutKeeps.next raise
      · exact OutKeeps.next (State.emit_keeps hz)
    · dsimp only
      split
      · exact OutKeeps.next hz
      · split
        · exact OutKeeps.next (State.imageWritten_keeps ⟨hz.parts⟩)
        · exact OutKeeps.next (State.controlWritten_keeps ⟨hz.parts⟩)
        · exact OutKeeps.next hz

end Sys2Proof.Machine
end

