-- ==== Sys2Proof/Laws/KeepPortFrame.lean ====
section
/-!
SUPPORT. Every operation and meaning of Machine/PortFrame.lean leaves the queue of waiting commands as it was and keeps the stores
canonical: for each f, `f_keeps` (Laws/Keeps.lean).
-/

namespace Sys2Proof.Machine

theorem State.portPair_keeps {z : State} {s : State} {q} (hz : Keeps z s) :
    Keeps z (State.portPair s q) := by
  unfold State.portPair
  with_reducible
    refine Keeps.ite ?_ ?_
    assumption
    apply State.setQp_keeps
    apply State.setFld_keeps
    apply State.orphan_keeps
    apply State.dropVersion_keeps
    apply foldl_keeps
    assumption
    intro _
    intro _
    apply State.dropSlip_keeps

theorem State.dropHostAccesses_keeps {z : State} {s : State} (hz : Keeps z s) :
    Keeps z (State.dropHostAccesses s) := by
  unfold State.dropHostAccesses
  with_reducible
    (simp -zeta only [mk_keeps_iff]; apply KeptParts.fold)
    assumption

theorem State.portReset_keeps {z : State} {s : State} {kind} (hz : Keeps z s) :
    Keeps z (State.portReset s kind) := by
  unfold State.portReset
  with_reducible
    ((try lift_lets -underBinder); intro x; refine (fun (hx : Keeps z x) => ?_) ?_; clear_value x)
    ((try lift_lets -underBinder); intro x; refine (fun (hx : Keeps z x) => ?_) ?_; clear_value x)
    ((try lift_lets -underBinder); intro x; refine (fun (hx : Keeps z x) => ?_) ?_; clear_value x)
    ((try lift_lets -underBinder); intro _)
    ((try lift_lets -underBinder); intro x; refine (fun (hx : Keeps z x) => ?_) ?_; clear_value x)
    (simp -zeta only [mk_keeps_iff]; apply KeptParts.fold)
    assumption
    simp -zeta only [x]
    apply State.bump_keeps
    assumption
    simp -zeta only [x]
    apply State.dropHostAccesses_keeps
    assumption
    simp -zeta only [x]
    apply foldl_keeps
    assumption
    intro _
    intro _
    intro _
    apply State.ringError_keeps
    assumption
    simp -zeta only [x]
    apply foldl_keeps
    assumption
    intro _
    intro _
    intro _
    apply State.portPair_keeps
    assumption

theorem State.portsDown_keeps {z : State} {s : State} {ps} (hz : Keeps z s) :
    Keeps z (State.portsDown s ps) := by
  unfold State.portsDown
  with_reducible
    apply foldl_keeps
    assumption
    apply State.portDown_keeps

end Sys2Proof.Machine
end

