-- ==== Sys2Proof/Laws/KeepSecurity.lean ====
section
/-!
SUPPORT. Every operation and meaning of Machine/Security.lean leaves the queue of waiting commands as it was and keeps the stores
canonical: for each f, `f_keeps` (Laws/Keeps.lean).
-/

namespace Sys2Proof.Machine

theorem State.principalsChanged_keeps {z : State} {s : State} (hz : Keeps z s) :
    Keeps z (State.principalsChanged s) := by
  unfold State.principalsChanged
  with_reducible
    apply State.measured_keeps
    apply State.emit_keeps
    apply State.setFld_keeps
    assumption

theorem execSEC_PRINCIPAL_ENROL_keeps {z : State} {x} {s : State} (hz : Keeps z s) :
    OutKeeps z (execSEC_PRINCIPAL_ENROL x s) := by
  unfold execSEC_PRINCIPAL_ENROL
  with_reducible
    apply runSlip_keeps
    assumption
    intro _
    intro _
    apply State.withPresence_keeps
    assumption
    apply noSession_keeps
    assumption
    split
    apply SlipRes.no_keeps
    assumption
    refine ResKeeps.ite ?_ ?_
    apply SlipRes.no_keeps
    assumption
    refine ResKeeps.ite ?_ ?_
    apply SlipRes.no_keeps
    assumption
    ((try lift_lets -underBinder); intro x; simp -zeta only [x])
    split
    apply SlipRes.no_keeps
    assumption
    apply SlipRes.no_keeps
    assumption
    apply ResKeeps.done
    apply State.principalsChanged_keeps
    (simp -zeta only [mk_keeps_iff]; apply KeptParts.fold)
    assumption

theorem execSEC_PRINCIPAL_REVOKE_keeps {z : State} {x} {s : State} (hz : Keeps z s) :
    OutKeeps z (execSEC_PRINCIPAL_REVOKE x s) := by
  unfold execSEC_PRINCIPAL_REVOKE
  with_reducible
    apply runSlip_keeps
    assumption
    intro _
    intro _
    apply noSession_keeps
    assumption
    refine ResKeeps.ite ?_ ?_
    apply SlipRes.no_keeps
    assumption
    refine ResKeeps.ite ?_ ?_
    apply ResKeeps.gone
    apply foldl_keeps
    (simp -zeta only [mk_keeps_iff]; apply KeptParts.fold)
    apply State.principalsChanged_keeps
    (simp -zeta only [mk_keeps_iff]; apply KeptParts.fold)
    assumption
    apply State.closeMgmt_keeps
    apply ResKeeps.done
    apply foldl_keeps
    apply State.principalsChanged_keeps
    (simp -zeta only [mk_keeps_iff]; apply KeptParts.fold)
    assumption
    apply State.closeMgmt_keeps

theorem execMGMT_DISCONNECT_keeps {z : State} {c} {s : State} (hz : Keeps z s) :
    OutKeeps z (execMGMT_DISCONNECT c s) := by
  unfold execMGMT_DISCONNECT
  with_reducible
    refine OutKeeps.ite ?_ ?_
    apply OutKeeps.next
    apply State.closeMgmt_keeps
    assumption
    apply OutKeeps.next
    assumption

theorem execSEC_TENANT_STATUS_keeps {z : State} {x} {s : State} (hz : Keeps z s) :
    OutKeeps z (execSEC_TENANT_STATUS x s) := by
  unfold execSEC_TENANT_STATUS
  with_reducible
    apply runSlip_keeps
    assumption
    intro _
    intro _
    apply noSession_keeps
    assumption
    apply ResKeeps.done
    assumption

theorem State.forgetTenant_keeps {z : State} {s : State} {t} (hz : Keeps z s) :
    Keeps z (State.forgetTenant s t) := by
  unfold State.forgetTenant
  with_reducible
    ((try lift_lets -underBinder); intro x; refine (fun (hx : Keeps z x) => ?_) ?_; clear_value x)
    (simp -zeta only [mk_keeps_iff]; apply KeptParts.fold)
    assumption
    apply State.updTenant_keeps
    assumption

theorem execSEC_TENANT_ERASE_keeps {z : State} {x} {s : State} (hz : Keeps z s) :
    OutKeeps z (execSEC_TENANT_ERASE x s) := by
  unfold execSEC_TENANT_ERASE
  with_reducible
    apply runSlip_keeps
    assumption
    intro _
    intro _
    apply State.withPresence_keeps
    assumption
    apply noSession_keeps
    assumption
    refine ResKeeps.ite ?_ ?_
    apply SlipRes.no_keeps
    assumption
    apply ResKeeps.done
    apply State.bump_keeps
    apply State.reclaimCheck_keeps
    apply State.forgetTenant_keeps
    apply foldl_keeps
    apply foldl_keeps
    apply foldl_keeps
    assumption
    intro _
    intro _
    intro _
    ((try lift_lets -underBinder); intro x; refine (fun (hx : Keeps z x) => ?_) ?_; clear_value x)
    (simp -zeta only [mk_keeps_iff]; apply KeptParts.fold)
    assumption
    apply State.closeSess_keeps
    apply State.stopWork_keeps
    assumption
    apply State.dropShard_keeps
    intro _
    intro _
    apply State.setRing_keeps

theorem execSEC_CONF_HOST_keeps {z : State} {x} {s : State} (hz : Keeps z s) :
    OutKeeps z (execSEC_CONF_HOST x s) := by
  unfold execSEC_CONF_HOST
  with_reducible
    apply runSlip_keeps
    assumption
    intro _
    intro _
    apply noSession_keeps
    assumption
    refine ResKeeps.ite ?_ ?_
    apply ResKeeps.done
    assumption
    apply ResKeeps.done
    apply State.emit_keeps
    apply State.setFld_keeps
    ((try lift_lets -underBinder); intro x; simp -zeta only [x])
    (simp -zeta only [mk_keeps_iff]; apply KeptParts.fold)
    assumption

theorem execSEC_DEBUG_UNLOCK_keeps {z : State} {x} {s : State} (hz : Keeps z s) :
    OutKeeps z (execSEC_DEBUG_UNLOCK x s) := by
  unfold execSEC_DEBUG_UNLOCK
  with_reducible
    apply runSlip_keeps
    assumption
    intro _
    intro _
    apply State.withPresence_keeps
    assumption
    apply noSession_keeps
    assumption
    refine ResKeeps.ite ?_ ?_
    apply SlipRes.no_keeps
    assumption
    refine ResKeeps.ite ?_ ?_
    apply SlipRes.no_keeps
    assumption
    refine ResKeeps.ite ?_ ?_
    apply SlipRes.no_keeps
    assumption
    apply ResKeeps.done
    apply State.measured_keeps
    apply State.setFld_keeps
    assumption

theorem execSEC_FUSE_PROGRAM_keeps {z : State} {x} {s : State} (hz : Keeps z s) :
    OutKeeps z (execSEC_FUSE_PROGRAM x s) := by
  unfold execSEC_FUSE_PROGRAM
  with_reducible
    apply runSlip_keeps
    assumption
    intro _
    intro _
    apply State.withPresence_keeps
    assumption
    apply noSession_keeps
    assumption
    split
    apply SlipRes.no_keeps
    assumption
    ((try lift_lets -underBinder); intro _)
    ((try lift_lets -underBinder); intro _)
    ((try lift_lets -underBinder); intro x; simp -zeta only [x])
    ((try lift_lets -underBinder); intro x; simp -zeta only [x])
    ((try lift_lets -underBinder); intro x; simp -zeta only [x])
    refine ResKeeps.ite ?_ ?_
    apply SlipRes.no_keeps
    assumption
    refine ResKeeps.ite ?_ ?_
    apply SlipRes.no_keeps
    assumption
    refine ResKeeps.ite ?_ ?_
    apply SlipRes.no_keeps
    assumption
    refine ResKeeps.ite ?_ ?_
    apply SlipRes.no_keeps
    assumption
    refine ResKeeps.ite ?_ ?_
    split
    apply ResKeeps.done
    assumption
    apply ResKeeps.done
    apply foldl_keeps1
    apply Keeps.fst
    assumption
    intro _
    intro _
    intro _
    split
    assumption
    apply Keeps.fst
    assumption
    apply Keeps.fst
    apply State.repairBurn_keeps
    apply State.repairMove_keeps
    assumption
    apply ResKeeps.done
    refine Keeps.ite ?_ ?_
    assumption
    apply State.measured_keeps
    apply State.blow_keeps
    assumption

theorem State.spdm_keeps {z : State} {s : State} {transport} {code} {body} (hz : Keeps z s) :
    Keeps z (State.spdm s transport code body) := by
  unfold State.spdm
  with_reducible
    apply State.emit_keeps
    assumption

theorem State.spdmError_keeps {z : State} {s : State} {transport} {err} (hz : Keeps z s) :
    Keeps z (State.spdmError s transport err) := by
  unfold State.spdmError
  with_reducible
    apply State.spdm_keeps
    apply State.bump_keeps
    assumption

theorem execSPDM_REQUEST_keeps {z : State} {transport} {req} {s : State} (hz : Keeps z s) :
    OutKeeps z (execSPDM_REQUEST transport req s) := by
  unfold execSPDM_REQUEST
  with_reducible
    refine OutKeeps.ite ?_ ?_
    apply OutKeeps.next
    assumption
    refine OutKeeps.ite ?_ ?_
    apply OutKeeps.next
    apply State.spdmError_keeps
    assumption
    ((try lift_lets -underBinder); intro x; simp -zeta only [x])
    split
    apply OutKeeps.next
    apply State.spdm_keeps
    assumption
    apply OutKeeps.next
    apply State.spdm_keeps
    assumption
    apply OutKeeps.next
    refine Keeps.ite ?_ ?_
    apply State.spdm_keeps
    assumption
    apply State.spdmError_keeps
    assumption
    apply OutKeeps.next
    apply State.spdm_keeps
    assumption
    apply OutKeeps.next
    refine Keeps.ite ?_ ?_
    apply State.spdm_keeps
    assumption
    refine Keeps.ite ?_ ?_
    apply State.spdm_keeps
    assumption
    apply State.spdmError_keeps
    assumption
    apply OutKeeps.next
    refine Keeps.ite ?_ ?_
    apply State.spdm_keeps
    assumption
    apply State.spdmError_keeps
    assumption
    apply OutKeeps.next
    refine Keeps.ite ?_ ?_
    apply State.spdm_keeps
    assumption
    refine Keeps.ite ?_ ?_
    apply State.spdm_keeps
    assumption
    refine Keeps.ite ?_ ?_
    apply State.spdm_keeps
    assumption
    apply State.spdmError_keeps
    assumption
    apply OutKeeps.next
    refine Keeps.ite ?_ ?_
    apply State.spdmError_keeps
    assumption
    apply State.spdm_keeps
    assumption
    split
    refine OutKeeps.ite ?_ ?_
    apply OutKeeps.next
    apply State.spdmError_keeps
    assumption
    apply OutKeeps.next
    apply State.spdm_keeps
    ((try lift_lets -underBinder); intro x; simp -zeta only [x])
    (simp -zeta only [mk_keeps_iff]; apply KeptParts.fold)
    assumption
    apply OutKeeps.next
    apply State.spdmError_keeps
    assumption
    apply OutKeeps.next
    apply State.spdmError_keeps
    assumption
    apply OutKeeps.next
    split
    refine Keeps.ite ?_ ?_
    apply State.spdm_keeps
    assumption
    apply State.spdmError_keeps
    assumption
    apply State.spdmError_keeps
    assumption
    apply OutKeeps.next
    split
    refine Keeps.ite ?_ ?_
    apply State.spdm_keeps
    assumption
    apply State.spdmError_keeps
    assumption
    apply State.spdmError_keeps
    assumption
    apply OutKeeps.next
    refine Keeps.ite ?_ ?_
    ((try lift_lets -underBinder); intro x; simp -zeta only [x])
    (simp -zeta only [mk_keeps_iff]; apply KeptParts.fold)
    split
    refine Keeps.ite ?_ ?_
    apply State.spdm_keeps
    assumption
    apply State.spdmError_keeps
    assumption
    apply State.spdmError_keeps
    assumption
    split
    refine Keeps.ite ?_ ?_
    apply State.spdm_keeps
    assumption
    apply State.spdmError_keeps
    assumption
    apply State.spdmError_keeps
    assumption
    apply OutKeeps.next
    apply State.spdm_keeps
    assumption
    refine OutKeeps.ite ?_ ?_
    apply OutKeeps.next
    apply State.spdm_keeps
    ((try lift_lets -underBinder); intro x; simp -zeta only [x])
    (simp -zeta only [mk_keeps_iff]; apply KeptParts.fold)
    assumption
    apply OutKeeps.next
    apply State.spdmError_keeps
    assumption
    apply OutKeeps.next
    apply State.spdmError_keeps
    assumption

theorem State.vendor_keeps {z : State} {s : State} {session} {role} {f} (hz : Keeps z s) (hf : ∀ v, Keeps z (f v).1) :
    Keeps z (State.vendor s session role f) := by
  unfold State.vendor
  with_reducible
    refine Keeps.ite ?_ ?_
    assumption
    split
    assumption
    refine Keeps.ite ?_ ?_
    apply State.spdmError_keeps
    assumption
    refine Keeps.ite ?_ ?_
    apply State.spdm_keeps
    assumption
    apply State.spdm_keeps
    apply hf

theorem State.keyHere_keeps {z : State} {s : State} {t} (hz : Keeps z s) :
    Keeps z (State.keyHere s t) := by
  unfold State.keyHere
  with_reducible
    apply foldl_keeps
    apply State.updCat_keeps
    apply foldl_keeps
    apply State.updCkpt_keeps
    assumption
    intro _
    intro _
    apply State.adoptRecord_keeps
    apply State.reviveArmed_keeps

theorem execKEY_DELIVER_keeps {z : State} {session} {tenant} {flags} {key} {kcv} {trust} {s : State} (hz : Keeps z s) :
    OutKeeps z (execKEY_DELIVER session tenant flags key kcv trust s) := by
  unfold execKEY_DELIVER
  with_reducible
    apply OutKeeps.next
    apply State.vendor_keeps
    assumption
    intro _
    ((try lift_lets -underBinder); intro x; simp -zeta only [x])
    ((try lift_lets -underBinder); intro x; simp -zeta only [x])
    ((try lift_lets -underBinder); intro x; simp -zeta only [x])
    split
    assumption
    split
    assumption
    split
    split
    apply State.bump_keeps
    apply State.updTenant_keeps
    assumption
    assumption
    split
    assumption
    apply State.keyHere_keeps
    apply State.bump_keeps
    apply State.updTenant_keeps
    assumption

theorem execKEY_QUERY_keeps {z : State} {session} {tenant} {s : State} (hz : Keeps z s) :
    OutKeeps z (execKEY_QUERY session tenant s) := by
  unfold execKEY_QUERY
  with_reducible
    apply OutKeeps.next
    apply State.vendor_keeps
    assumption
    intro _
    ((try lift_lets -underBinder); intro x; simp -zeta only [x])
    split
    assumption
    assumption

theorem execBUNDLE_KEY_keeps {z : State} {session} {profile} {key} {s : State} (hz : Keeps z s) :
    OutKeeps z (execBUNDLE_KEY session profile key s) := by
  unfold execBUNDLE_KEY
  with_reducible
    apply OutKeeps.next
    apply State.vendor_keeps
    assumption
    intro _
    split
    assumption
    ((try lift_lets -underBinder); intro x; simp -zeta only [x])
    split
    assumption
    (simp -zeta only [mk_keeps_iff]; apply KeptParts.fold)
    assumption

theorem execBOUNCE_KEYS_keeps {z : State} {session} {s : State} (hz : Keeps z s) :
    OutKeeps z (execBOUNCE_KEYS session s) := by
  unfold execBOUNCE_KEYS
  with_reducible
    apply OutKeeps.next
    apply State.vendor_keeps
    assumption
    intro _
    ((try lift_lets -underBinder); intro x; simp -zeta only [x])
    ((try lift_lets -underBinder); intro x; simp -zeta only [x])
    split
    assumption
    (simp -zeta only [mk_keeps_iff]; apply KeptParts.fold)
    assumption

theorem State.rindReset_keeps {z : State} {s : State} {kind} (hz : Keeps z s) :
    Keeps z (State.rindReset s kind) := by
  unfold State.rindReset
  with_reducible
    refine Keeps.ite ?_ ?_
    apply State.coldReset_keeps
    apply State.errRecord_keeps
    apply State.errRecord_keeps
    ((try lift_lets -underBinder); intro x; simp -zeta only [x])
    (simp -zeta only [mk_keeps_iff]; apply KeptParts.fold)
    assumption
    apply State.errRecord_keeps
    ((try lift_lets -underBinder); intro x; simp -zeta only [x])
    (simp -zeta only [mk_keeps_iff]; apply KeptParts.fold)
    assumption

theorem execRIND_LOCKSTEP_MISMATCH_keeps {z : State} {s : State} (hz : Keeps z s) :
    OutKeeps z (execRIND_LOCKSTEP_MISMATCH s) := by
  unfold execRIND_LOCKSTEP_MISMATCH
  with_reducible
    refine OutKeeps.ite ?_ ?_
    apply OutKeeps.next
    assumption
    apply OutKeeps.next
    apply State.rindReset_keeps
    apply State.bumpSat_keeps
    assumption

theorem execRIND_WATCHDOG_EXPIRY_keeps {z : State} {s : State} (hz : Keeps z s) :
    OutKeeps z (execRIND_WATCHDOG_EXPIRY s) := by
  unfold execRIND_WATCHDOG_EXPIRY
  with_reducible
    refine OutKeeps.ite ?_ ?_
    apply OutKeeps.next
    assumption
    apply OutKeeps.next
    apply State.rindReset_keeps
    apply State.bumpSat_keeps
    assumption

theorem State.giveUpRevive_keeps {z : State} {s : State} {acc} (hz : Keeps z s) :
    Keeps z (State.giveUpRevive s acc) := by
  unfold State.giveUpRevive
  with_reducible
    split
    assumption
    split
    assumption
    refine Keeps.ite ?_ ?_
    assumption
    ((try lift_lets -underBinder); intro x; refine (fun (hx : Keeps z x) => ?_) ?_; clear_value x)
    ((try lift_lets -underBinder); intro x; refine (fun (hx : Keeps z x) => ?_) ?_; clear_value x)
    apply State.reviveRefused_keeps
    apply State.setLog_keeps
    assumption
    simp -zeta only [x]
    apply State.updSess_keeps
    assumption
    simp -zeta only [x]
    apply State.dropPages_keeps
    apply State.dequeue_keeps
    apply State.dropPrefill_keeps
    assumption

theorem State.giveUpPark_keeps {z : State} {s : State} {acc} (hz : Keeps z s) :
    Keeps z (State.giveUpPark s acc) := by
  unfold State.giveUpPark
  with_reducible
    split
    assumption
    refine Keeps.ite ?_ ?_
    assumption
    apply State.release_keeps
    apply State.abandonCommit_keeps
    assumption

theorem execDESK_WATCHDOG_EXPIRY_keeps {z : State} {core} {slips} {s : State} (hz : Keeps z s) :
    OutKeeps z (execDESK_WATCHDOG_EXPIRY core slips s) := by
  unfold execDESK_WATCHDOG_EXPIRY
  with_reducible
    ((try lift_lets -underBinder); intro _)
    ((try lift_lets -underBinder); intro x; refine (fun (hx : Keeps z x) => ?_) ?_; clear_value x)
    ((try lift_lets -underBinder); intro x; simp -zeta only [x])
    ((try lift_lets -underBinder); intro _)
    ((try lift_lets -underBinder); intro x; refine (fun (hx : Keeps z x) => ?_) ?_; clear_value x)
    refine OutKeeps.ite ?_ ?_
    apply OutKeeps.next
    assumption
    apply OutKeeps.next
    refine Keeps.ite ?_ ?_
    apply State.disableUnit_keeps
    assumption
    assumption
    simp -zeta only [x]
    apply State.resetUnit_keeps
    apply State.errRecord_keeps
    (simp -zeta only [mk_keeps_iff]; apply KeptParts.fold)
    assumption
    simp -zeta only [x]
    apply foldl_keeps
    assumption
    intro _
    intro _
    intro _
    split
    ((try lift_lets -underBinder); intro x; refine (fun (hx : Keeps z x) => ?_) ?_; clear_value x)
    ((try lift_lets -underBinder); intro x; refine (fun (hx : Keeps z x) => ?_) ?_; clear_value x)
    refine Keeps.ite ?_ ?_
    apply State.giveUpPark_keeps
    assumption
    apply State.giveUpRevive_keeps
    assumption
    simp -zeta only [x]
    apply State.finish_keeps
    assumption
    simp -zeta only [x]
    (simp -zeta only [mk_keeps_iff]; apply KeptParts.fold)
    assumption
    assumption

theorem State.setInput_keeps {z : State} {s : State} {f} {bit} {on} (hz : Keeps z s) :
    Keeps z (State.setInput s f bit on) := by
  unfold State.setInput
  with_reducible
    apply State.setFld_keeps
    assumption

theorem execPRESENCE_PRESS_keeps {z : State} {low} {s : State} (hz : Keeps z s) :
    OutKeeps z (execPRESENCE_PRESS low s) := by
  unfold execPRESENCE_PRESS
  with_reducible
    refine OutKeeps.ite ?_ ?_
    apply OutKeeps.next
    assumption
    apply OutKeeps.next
    apply State.bump_keeps
    ((try lift_lets -underBinder); intro x; simp -zeta only [x])
    (simp -zeta only [mk_keeps_iff]; apply KeptParts.fold)
    assumption

theorem execPRESENCE_WINDOW_END_keeps {z : State} {s : State} (hz : Keeps z s) :
    OutKeeps z (execPRESENCE_WINDOW_END s) := by
  unfold execPRESENCE_WINDOW_END
  with_reducible
    split
    apply OutKeeps.next
    refine Keeps.ite ?_ ?_
    apply State.closeWindow_keeps
    assumption
    assumption
    apply OutKeeps.next
    assumption

theorem execPRESENCE_STUCK_keeps {z : State} {on} {s : State} (hz : Keeps z s) :
    OutKeeps z (execPRESENCE_STUCK on s) := by
  unfold execPRESENCE_STUCK
  with_reducible
    refine OutKeeps.ite ?_ ?_
    apply OutKeeps.next
    assumption
    ((try lift_lets -underBinder); intro x; simp -zeta only [x])
    ((try lift_lets -underBinder); intro x; refine (fun (hx : Keeps z x) => ?_) ?_; clear_value x)
    apply OutKeeps.next
    refine Keeps.ite ?_ ?_
    apply State.bump_keeps
    assumption
    assumption
    simp -zeta only [x]
    apply State.setInput_keeps
    apply State.setInput_keeps
    apply State.setInput_keeps
    (simp -zeta only [mk_keeps_iff]; apply KeptParts.fold)
    assumption

theorem State.noJumper_keeps {z : State} {s : State} (hz : Keeps z s) :
    Keeps z (State.noJumper s) := by
  unfold State.noJumper
  with_reducible
    ((try lift_lets -underBinder); intro x; simp -zeta only [x])
    ((try lift_lets -underBinder); intro x; refine (fun (hx : Keeps z x) => ?_) ?_; clear_value x)
    refine Keeps.ite ?_ ?_
    apply State.measured_keeps
    apply State.setFld_keeps
    assumption
    assumption
    simp -zeta only [x]
    apply State.setInput_keeps
    apply State.setInput_keeps
    (simp -zeta only [mk_keeps_iff]; apply KeptParts.fold)
    assumption

theorem execJUMPER_REMOVED_keeps {z : State} {s : State} (hz : Keeps z s) :
    OutKeeps z (execJUMPER_REMOVED s) := by
  unfold execJUMPER_REMOVED
  with_reducible
    apply OutKeeps.next
    apply State.noJumper_keeps
    assumption

theorem State.sealBreak_keeps {z : State} {s : State} (hz : Keeps z s) :
    Keeps z (State.sealBreak s) := by
  unfold State.sealBreak
  with_reducible
    refine Keeps.ite ?_ ?_
    assumption
    apply State.setInput_keeps
    apply State.setFld_keeps
    apply State.beginWarm_keeps
    apply State.errRecord_keeps
    refine Keeps.ite ?_ ?_
    apply State.blow_keeps
    ((try lift_lets -underBinder); intro x; simp -zeta only [x])
    ((try lift_lets -underBinder); intro x; simp -zeta only [x])
    (simp -zeta only [mk_keeps_iff]; apply KeptParts.fold)
    assumption
    ((try lift_lets -underBinder); intro x; simp -zeta only [x])
    ((try lift_lets -underBinder); intro x; simp -zeta only [x])
    (simp -zeta only [mk_keeps_iff]; apply KeptParts.fold)
    assumption

theorem execSEAL_EPISODE_keeps {z : State} {begins} {s : State} (hz : Keeps z s) :
    OutKeeps z (execSEAL_EPISODE begins s) := by
  unfold execSEAL_EPISODE
  with_reducible
    refine OutKeeps.ite ?_ ?_
    split
    apply OutKeeps.next
    assumption
    apply OutKeeps.next
    apply State.bump_keeps
    apply State.setInput_keeps
    (simp -zeta only [mk_keeps_iff]; apply KeptParts.fold)
    assumption
    apply OutKeeps.next
    apply State.setInput_keeps
    (simp -zeta only [mk_keeps_iff]; apply KeptParts.fold)
    assumption

theorem execSEAL_BREAK_keeps {z : State} {s : State} (hz : Keeps z s) :
    OutKeeps z (execSEAL_BREAK s) := by
  unfold execSEAL_BREAK
  with_reducible
    split
    apply OutKeeps.next
    refine Keeps.ite ?_ ?_
    apply State.sealBreak_keeps
    assumption
    assumption
    apply OutKeeps.next
    assumption

theorem execINPUT_CHATTER_keeps {z : State} {input} {s : State} (hz : Keeps z s) :
    OutKeeps z (execINPUT_CHATTER input s) := by
  unfold execINPUT_CHATTER
  with_reducible
    refine OutKeeps.ite ?_ ?_
    apply OutKeeps.next
    assumption
    refine OutKeeps.ite ?_ ?_
    apply OutKeeps.next
    ((try lift_lets -underBinder); intro x; simp -zeta only [x])
    (simp -zeta only [mk_keeps_iff]; apply KeptParts.fold)
    apply State.bump_keeps
    assumption
    refine OutKeeps.ite ?_ ?_
    apply OutKeeps.next
    apply State.setInput_keeps
    apply State.noJumper_keeps
    apply State.bump_keeps
    assumption
    apply OutKeeps.next
    apply State.sealBreak_keeps
    apply State.setInput_keeps
    apply State.bump_keeps
    assumption

end Sys2Proof.Machine
end

