-- ==== Sys2Proof/Laws/KeepBring.lean ====
section
/-!
SUPPORT. Every operation and meaning of Machine/Bring.lean leaves the queue of waiting commands as it was and keeps the stores
canonical: for each f, `f_keeps` (Laws/Keeps.lean).
-/

namespace Sys2Proof.Machine

theorem State.bootUnits_keeps {z : State} {s : State} (hz : Keeps z s) :
    Keeps z (State.bootUnits s) := by
  unfold State.bootUnits
  with_reducible
    apply foldl_keeps
    apply foldl_keeps
    apply foldl_keeps
    apply foldl_keeps
    apply foldl_keeps
    apply foldl_keeps
    ((try lift_lets -underBinder); intro x; simp -zeta only [x])
    (simp -zeta only [mk_keeps_iff]; apply KeptParts.fold)
    apply State.setFld_keeps
    apply State.setFld_keeps
    apply State.setFld_keeps
    apply State.setFld_keeps
    assumption
    intro _
    intro _
    apply State.setReg_keeps
    intro _
    intro _
    intro _
    split
    apply State.useSpare_keeps
    assumption
    assumption
    intro _
    intro _
    apply State.setReg_keeps
    intro _
    intro _
    apply State.setReg_keeps
    intro _
    intro _
    apply State.setReg_keeps
    intro _
    intro _
    intro _
    refine Keeps.ite ?_ ?_
    apply State.setFld_keeps
    assumption
    assumption

theorem State.bootMap_keeps {z : State} {s : State} (hz : Keeps z s) :
    Keeps z (State.bootMap s) := by
  unfold State.bootMap
  with_reducible
    apply State.setFld_keeps
    apply State.setFld_keeps
    apply State.setFld_keeps
    assumption

theorem State.bootRegs_keeps {z : State} {s : State} (hz : Keeps z s) :
    Keeps z (State.bootRegs s) := by
  unfold State.bootRegs
  with_reducible
    ((try lift_lets -underBinder); intro _)
    ((try lift_lets -underBinder); intro x; refine (fun (hx : Keeps z x) => ?_) ?_; clear_value x)
    ((try lift_lets -underBinder); intro x; refine (fun (hx : Keeps z x) => ?_) ?_; clear_value x)
    ((try lift_lets -underBinder); intro x; refine (fun (hx : Keeps z x) => ?_) ?_; clear_value x)
    ((try lift_lets -underBinder); intro x; refine (fun (hx : Keeps z x) => ?_) ?_; clear_value x)
    ((try lift_lets -underBinder); intro x; refine (fun (hx : Keeps z x) => ?_) ?_; clear_value x)
    ((try lift_lets -underBinder); intro x; refine (fun (hx : Keeps z x) => ?_) ?_; clear_value x)
    ((try lift_lets -underBinder); intro x; refine (fun (hx : Keeps z x) => ?_) ?_; clear_value x)
    ((try lift_lets -underBinder); intro x; refine (fun (hx : Keeps z x) => ?_) ?_; clear_value x)
    apply State.setPart_keeps
    apply State.setPart_keeps
    assumption
    simp -zeta only [x]
    apply State.setInput_keeps
    assumption
    simp -zeta only [x]
    apply State.setInput_keeps
    apply State.setInput_keeps
    apply State.setInput_keeps
    assumption
    simp -zeta only [x]
    apply State.setFld_keeps
    apply State.setFld_keeps
    assumption
    simp -zeta only [x]
    apply State.setFld_keeps
    apply State.setFld_keeps
    apply State.setFld_keeps
    apply State.setFld_keeps
    assumption
    simp -zeta only [x]
    apply State.setFld_keeps
    assumption
    simp -zeta only [x]
    apply State.setFld_keeps
    assumption
    simp -zeta only [x]
    apply State.setReg_keeps
    assumption
    simp -zeta only [x]
    apply State.setFld_keeps
    assumption

theorem State.romFault_keeps {z : State} {s : State} {cause} (hz : Keeps z s) :
    Keeps z (State.romFault s cause) := by
  unfold State.romFault
  with_reducible
    apply State.setFld_keeps
    apply State.setFld_keeps
    assumption

theorem State.boot25_keeps {z : State} {s : State} {fuseOk} (hz : Keeps z s) :
    Keeps z (State.boot25 s fuseOk) := by
  unfold State.boot25
  with_reducible
    ((try lift_lets -underBinder); intro x; refine (fun (hx : Keeps z x) => ?_) ?_; clear_value x)
    ((try lift_lets -underBinder); intro x; refine (fun (hx : Keeps z x) => ?_) ?_; clear_value x)
    ((try lift_lets -underBinder); intro x; refine (fun (hx : Keeps z x) => ?_) ?_; clear_value x)
    refine Keeps.ite ?_ ?_
    apply State.romFault_keeps
    assumption
    split
    apply State.romFault_keeps
    assumption
    ((try lift_lets -underBinder); intro x; refine (fun (hx : Keeps z x) => ?_) ?_; clear_value x)
    ((try lift_lets -underBinder); intro _)
    ((try lift_lets -underBinder); intro x; refine (fun (hx : Keeps z x) => ?_) ?_; clear_value x)
    ((try lift_lets -underBinder); intro x; refine (fun (hx : Keeps z x) => ?_) ?_; clear_value x)
    ((try lift_lets -underBinder); intro x; refine (fun (hx : Keeps z x) => ?_) ?_; clear_value x)
    ((try lift_lets -underBinder); intro x; refine (fun (hx : Keeps z x) => ?_) ?_; clear_value x)
    ((try lift_lets -underBinder); intro x; refine (fun (hx : Keeps z x) => ?_) ?_; clear_value x)
    apply State.setFld_keeps
    assumption
    simp -zeta only [x]
    (simp -zeta only [mk_keeps_iff]; apply KeptParts.fold)
    assumption
    simp -zeta only [x]
    apply State.emit_keeps
    assumption
    simp -zeta only [x]
    apply State.setFld_keeps
    apply State.bootRegs_keeps
    apply State.bootMap_keeps
    apply State.bootUnits_keeps
    assumption
    simp -zeta only [x]
    apply State.setReg_keeps
    assumption
    simp -zeta only [x]
    (simp -zeta only [mk_keeps_iff]; apply KeptParts.fold)
    assumption
    simp -zeta only [x]
    apply State.setFld_keeps
    apply State.setFld_keeps
    assumption
    simp -zeta only [x]
    apply State.setFld_keeps
    apply State.setFld_keeps
    apply State.setFld_keeps
    assumption
    simp -zeta only [x]
    apply State.setFld_keeps
    apply State.setFld_keeps
    apply State.setFld_keeps
    assumption
    simp -zeta only [x]
    (simp -zeta only [mk_keeps_iff]; apply KeptParts.fold)
    assumption

theorem execPOWER_ON_keeps {z : State} {jumper} {fuseOk} {s : State} (hz : Keeps z s) :
    OutKeeps z (execPOWER_ON jumper fuseOk s) := by
  unfold execPOWER_ON
  with_reducible
    refine OutKeeps.ite ?_ ?_
    apply OutKeeps.next
    assumption
    apply OutKeeps.next
    apply State.boot25_keeps
    ((try lift_lets -underBinder); intro x; simp -zeta only [x])
    ((try lift_lets -underBinder); intro x; simp -zeta only [x])
    (simp -zeta only [mk_keeps_iff]; apply KeptParts.fold)
    assumption

theorem execPOWER_WAVE_keeps {z : State} {s : State} (hz : Keeps z s) :
    OutKeeps z (execPOWER_WAVE s) := by
  unfold execPOWER_WAVE
  with_reducible
    refine OutKeeps.ite ?_ ?_
    apply OutKeeps.next
    assumption
    refine OutKeeps.ite ?_ ?_
    apply OutKeeps.next
    apply State.setFld_keeps
    assumption
    apply OutKeeps.next
    refine Keeps.ite ?_ ?_
    apply State.setFld_keeps
    apply State.setFld_keeps
    assumption
    apply State.setFld_keeps
    assumption

theorem State.trialReady_keeps {z : State} {s : State} (hz : Keeps z s) :
    Keeps z (State.trialReady s) := by
  unfold State.trialReady
  with_reducible
    refine Keeps.ite ?_ ?_
    apply State.flashJob_keeps
    apply State.setFld_keeps
    refine Keeps.ite ?_ ?_
    apply State.measured_keeps
    apply State.blow_keeps
    assumption
    assumption
    assumption

theorem State.tryReady_keeps {z : State} {s : State} (hz : Keeps z s) :
    Keeps z (State.tryReady s) := by
  unfold State.tryReady
  with_reducible
    refine Keeps.ite ?_ ?_
    assumption
    refine Keeps.ite ?_ ?_
    apply State.romFault_keeps
    apply State.setReg_keeps
    assumption
    apply State.trialReady_keeps
    apply State.setFld_keeps
    apply State.setFld_keeps
    apply State.setPart_keeps
    apply State.setPart_keeps
    apply State.setReg_keeps
    assumption

theorem State.trained_keeps {z : State} {s : State} (hz : Keeps z s) :
    Keeps z (State.trained s) := by
  unfold State.trained
  with_reducible
    refine Keeps.ite ?_ ?_
    apply State.setFld_keeps
    assumption
    assumption

theorem execHBM_TRAINING_DONE_keeps {z : State} {s : State} (hz : Keeps z s) :
    OutKeeps z (execHBM_TRAINING_DONE s) := by
  unfold execHBM_TRAINING_DONE
  with_reducible
    refine OutKeeps.ite ?_ ?_
    apply OutKeeps.next
    assumption
    apply OutKeeps.next
    apply State.tryReady_keeps
    apply State.trained_keeps
    ((try lift_lets -underBinder); intro x; simp -zeta only [x])
    (simp -zeta only [mk_keeps_iff]; apply KeptParts.fold)
    assumption

theorem execDDR_TRAINING_DONE_keeps {z : State} {chans} {xts} {s : State} (hz : Keeps z s) :
    OutKeeps z (execDDR_TRAINING_DONE chans xts s) := by
  unfold execDDR_TRAINING_DONE
  with_reducible
    refine OutKeeps.ite ?_ ?_
    apply OutKeeps.next
    assumption
    apply OutKeeps.next
    apply State.tryReady_keeps
    apply State.trained_keeps
    ((try lift_lets -underBinder); intro x; simp -zeta only [x])
    (simp -zeta only [mk_keeps_iff]; apply KeptParts.fold)
    apply State.setFld_keeps
    apply foldl_keeps
    apply State.setFld_keeps
    apply State.setFld_keeps
    apply State.setFld_keeps
    apply State.setFld_keeps
    apply State.setFld_keeps
    apply State.setFld_keeps
    assumption
    intro _
    intro _
    intro _
    apply State.disableUnit_keeps
    apply State.errRecord_keeps
    assumption

theorem State.markAbsent_keeps {z : State} {s : State} {scope} {index} (hz : Keeps z s) :
    Keeps z (State.markAbsent s scope index) := by
  unfold State.markAbsent
  with_reducible
    refine Keeps.ite ?_ ?_
    apply State.bootMap_keeps
    apply State.setFld_keeps
    apply foldl_keeps
    apply State.setFld_keeps
    assumption
    intro _
    intro _
    apply State.setReg_keeps
    apply State.setFld_keeps
    assumption

theorem execTRAINING_FAILED_keeps {z : State} {scope} {index} {s : State} (hz : Keeps z s) :
    OutKeeps z (execTRAINING_FAILED scope index s) := by
  unfold execTRAINING_FAILED
  with_reducible
    refine OutKeeps.ite ?_ ?_
    apply OutKeeps.next
    assumption
    refine OutKeeps.ite ?_ ?_
    apply OutKeeps.next
    apply State.markAbsent_keeps
    assumption
    apply OutKeeps.next
    ((try lift_lets -underBinder); intro x; simp -zeta only [x])
    (simp -zeta only [mk_keeps_iff]; apply KeptParts.fold)
    assumption

theorem execKAT_DONE_keeps {z : State} {failed} {gcm} {s : State} (hz : Keeps z s) :
    OutKeeps z (execKAT_DONE failed gcm s) := by
  unfold execKAT_DONE
  with_reducible
    refine OutKeeps.ite ?_ ?_
    apply OutKeeps.next
    assumption
    apply OutKeeps.next
    apply State.tryReady_keeps
    ((try lift_lets -underBinder); intro x; simp -zeta only [x])
    (simp -zeta only [mk_keeps_iff]; apply KeptParts.fold)
    apply State.setFld_keeps
    apply State.setFld_keeps
    refine Keeps.ite ?_ ?_
    apply foldl_keeps
    assumption
    intro _
    intro _
    intro _
    apply State.disableUnit_keeps
    apply State.errRecord_keeps
    assumption
    apply State.measured_keeps
    apply State.blow_keeps
    apply foldl_keeps
    assumption
    intro _
    intro _
    intro _
    apply State.disableUnit_keeps
    apply State.errRecord_keeps
    assumption

theorem execPOWER_LOSS_keeps {z : State} {s : State} (hz : Keeps z s) :
    OutKeeps z (execPOWER_LOSS s) := by
  unfold execPOWER_LOSS
  with_reducible
    apply OutKeeps.next
    ((try lift_lets -underBinder); intro x; simp -zeta only [x])
    (simp -zeta only [mk_keeps_iff]; apply KeptParts.fold)
    apply State.coldReset_keeps
    assumption

theorem execWARM_RESTART_keeps {z : State} {cause} {fuseOk} {s : State} (hz : Keeps z s) :
    OutKeeps z (execWARM_RESTART cause fuseOk s) := by
  unfold execWARM_RESTART
  with_reducible
    refine OutKeeps.ite ?_ ?_
    apply OutKeeps.next
    apply State.boot25_keeps
    apply State.setFld_keeps
    assumption
    refine OutKeeps.ite ?_ ?_
    apply OutKeeps.next
    assumption
    apply OutKeeps.next
    apply State.boot25_keeps
    apply State.setFld_keeps
    apply State.beginWarm_keeps
    assumption

theorem execREFCLK_LOST_keeps {z : State} {clock} {s : State} (hz : Keeps z s) :
    OutKeeps z (execREFCLK_LOST clock s) := by
  unfold execREFCLK_LOST
  with_reducible
    refine OutKeeps.ite ?_ ?_
    apply OutKeeps.next
    assumption
    refine OutKeeps.ite ?_ ?_
    apply OutKeeps.next
    apply State.coldReset_keeps
    assumption
    refine OutKeeps.ite ?_ ?_
    apply OutKeeps.next
    apply State.coldReset_keeps
    assumption
    refine OutKeeps.ite ?_ ?_
    apply OutKeeps.next
    assumption
    apply OutKeeps.next
    refine Keeps.ite ?_ ?_
    apply State.portReset_keeps
    apply State.bump_keeps
    apply State.setFld_keeps
    assumption
    apply State.portsDown_keeps
    apply State.bump_keeps
    apply State.setFld_keeps
    assumption

theorem execREFCLK_RETURN_keeps {z : State} {clock} {jumper} {fuseOk} {s : State} (hz : Keeps z s) :
    OutKeeps z (execREFCLK_RETURN clock jumper fuseOk s) := by
  unfold execREFCLK_RETURN
  with_reducible
    refine OutKeeps.ite ?_ ?_
    apply OutKeeps.next
    apply State.boot25_keeps
    ((try lift_lets -underBinder); intro x; simp -zeta only [x])
    ((try lift_lets -underBinder); intro x; simp -zeta only [x])
    (simp -zeta only [mk_keeps_iff]; apply KeptParts.fold)
    assumption
    refine OutKeeps.ite ?_ ?_
    apply OutKeeps.next
    apply State.setFld_keeps
    assumption
    apply OutKeeps.next
    assumption

theorem execTHERMAL_TRIP_keeps {z : State} {s : State} (hz : Keeps z s) :
    OutKeeps z (execTHERMAL_TRIP s) := by
  unfold execTHERMAL_TRIP
  with_reducible
    refine OutKeeps.ite ?_ ?_
    apply OutKeeps.next
    assumption
    apply OutKeeps.next
    ((try lift_lets -underBinder); intro x; simp -zeta only [x])
    (simp -zeta only [mk_keeps_iff]; apply KeptParts.fold)
    apply State.coldReset_keeps
    assumption

theorem execTHROTTLE_PERIOD_keeps {z : State} {west} {east} {io} {hbm} {hot} {power} {s : State} (hz : Keeps z s) :
    OutKeeps z (execTHROTTLE_PERIOD west east io hbm hot power s) := by
  unfold execTHROTTLE_PERIOD
  with_reducible
    refine OutKeeps.ite ?_ ?_
    apply OutKeeps.next
    assumption
    apply OutKeeps.next
    apply State.setFld_keeps
    apply State.setFld_keeps
    apply State.maxFld_keeps
    apply State.setFld_keeps
    apply State.setFld_keeps
    apply State.setFld_keeps
    apply State.setFld_keeps
    apply State.setFld_keeps
    apply State.setFld_keeps
    refine Keeps.ite ?_ ?_
    apply State.bump_keeps
    assumption
    assumption

end Sys2Proof.Machine
end

