-- ==== Sys2Proof/Laws/KeepBundle.lean ====
section
/-!
SUPPORT. Every operation and meaning of Machine/Bundle.lean leaves the queue of waiting commands as it was and keeps the stores
canonical: for each f, `f_keeps` (Laws/Keeps.lean).
-/

namespace Sys2Proof.Machine

theorem State.stage_keeps {z s : State} {g o b} (hz : Keeps z s) : Keeps z (State.stage s g o b) :=
  ⟨{ hz.parts with canon := fun c => (hz.parts.canon c).imp_cellar (foldl_sSet_wf _ _ _) }⟩

theorem execBUNDLE_LOAD_BEGIN_keeps {z : State} {x} {s : State} (hz : Keeps z s) :
    OutKeeps z (execBUNDLE_LOAD_BEGIN x s) := by
  unfold execBUNDLE_LOAD_BEGIN
  with_reducible
    apply runSlip_keeps
    assumption
    intro _
    intro _
    apply noSession_keeps
    assumption
    refine ResKeeps.ite ?_ ?_
    apply SlipRes.no_keeps
    assumption
    split
    apply SlipRes.no_keeps
    assumption
    refine ResKeeps.ite ?_ ?_
    apply SlipRes.no_keeps
    assumption
    split
    apply SlipRes.no_keeps
    assumption
    refine ResKeeps.ite ?_ ?_
    apply SlipRes.no_keeps
    assumption
    apply ResKeeps.done
    apply State.stage_keeps
    assumption

theorem execBUNDLE_LOAD_DATA_keeps {z : State} {x} {s : State} (hz : Keeps z s) :
    OutKeeps z (execBUNDLE_LOAD_DATA x s) := by
  unfold execBUNDLE_LOAD_DATA
  with_reducible
    apply runSlip_keeps
    assumption
    intro _
    intro _
    apply noSession_keeps
    assumption
    refine ResKeeps.ite ?_ ?_
    apply SlipRes.no_keeps
    assumption
    split
    apply SlipRes.no_keeps
    assumption
    apply SlipRes.no_keeps
    assumption
    refine ResKeeps.ite ?_ ?_
    apply SlipRes.no_keeps
    assumption
    apply ResKeeps.done
    apply State.stage_keeps
    assumption

theorem State.loadTables_keeps {z : State} {s : State} {p} {h} (hz : Keeps z s) :
    Keeps z (State.loadTables s p h) := by
  unfold State.loadTables
  with_reducible
    apply foldl_keeps
    apply State.setFld_keeps
    apply State.setFld_keeps
    apply State.setFld_keeps
    apply State.setFld_keeps
    apply State.setFld_keeps
    apply State.setFld_keeps
    apply State.setFld_keeps
    apply State.setFld_keeps
    apply State.setFld_keeps
    apply State.setFld_keeps
    apply State.setFld_keeps
    apply foldl_keeps
    apply foldl_keeps
    apply State.setFld_keeps
    apply State.setFld_keeps
    apply State.setFld_keeps
    ((try lift_lets -underBinder); intro x; simp -zeta only [x])
    (simp -zeta only [mk_keeps_iff]; apply KeptParts.fold)
    assumption
    intro _
    intro _
    apply State.setReg_keeps
    intro _
    intro _
    intro _
    apply State.setFld_keeps
    apply State.setFld_keeps
    apply State.setFld_keeps
    apply State.setFld_keeps
    assumption
    intro _
    intro _
    apply State.setFld_keeps

theorem State.assignPools_keeps {z : State} {s : State} {plan} (hz : Keeps z s) :
    Keeps z (State.assignPools s plan) := by
  unfold State.assignPools
  with_reducible
    apply foldl_keeps
    apply foldl_keeps
    apply foldl_keeps
    assumption
    intro _
    intro _
    intro _
    apply foldl_keeps
    assumption
    intro _
    intro _
    apply State.setFld_keeps
    intro _
    intro _
    apply State.assignMes_keeps
    intro _
    intro _
    apply State.setFld_keeps

theorem State.clearT1_keeps {z s : State} (hz : Keeps z s) : Keeps z (State.clearT1 s) :=
  ⟨{ hz.parts with canon := fun c => (hz.parts.canon c).imp_hbm (fun _ => rfl) }⟩

theorem State.autoRestore_keeps {z : State} {s : State} (hz : Keeps z s) :
    Keeps z (State.autoRestore s) := by
  unfold State.autoRestore
  with_reducible
    ((try lift_lets -underBinder); intro _)
    ((try lift_lets -underBinder); intro _)
    ((try lift_lets -underBinder); intro _)
    refine Keeps.ite ?_ ?_
    assumption
    refine Keeps.ite ?_ ?_
    apply State.rindLater_keeps
    assumption
    apply State.arrive_keeps
    assumption

theorem State.firstLoad_keeps {z : State} {s : State} {p} {g} (hz : Keeps z s) :
    Keeps z (State.firstLoad s p g) := by
  unfold State.firstLoad
  with_reducible
    apply State.setFld_keeps
    apply State.measured_keeps
    (simp -zeta only [mk_keeps_iff]; apply KeptParts.fold)
    apply State.setFld_keeps
    apply State.assignPools_keeps
    apply State.loadTables_keeps
    apply State.clearT1_keeps
    apply State.setFld_keeps
    assumption

theorem State.reloadStep_keeps {z : State} {s : State} (hz : Keeps z s) :
    Keeps z (State.reloadStep s) := by
  unfold State.reloadStep
  with_reducible
    split
    refine Keeps.ite ?_ ?_
    assumption
    apply State.finish_keeps
    apply State.dropLocks_keeps
    refine Keeps.ite ?_ ?_
    apply State.measured_keeps
    apply State.setFld_keeps
    apply State.loadTables_keeps
    ((try lift_lets -underBinder); intro x; simp -zeta only [x])
    (simp -zeta only [mk_keeps_iff]; apply KeptParts.fold)
    assumption
    apply State.setFld_keeps
    apply State.loadTables_keeps
    ((try lift_lets -underBinder); intro x; simp -zeta only [x])
    (simp -zeta only [mk_keeps_iff]; apply KeptParts.fold)
    assumption
    assumption

theorem State.beginReload_keeps {z : State} {s : State} {p} {g} {x} (hz : Keeps z s) :
    ResKeeps z (State.beginReload s p g x) := by
  unfold State.beginReload
  with_reducible
    refine ResKeeps.ite ?_ ?_
    apply SlipRes.no_keeps
    assumption
    refine ResKeeps.ite ?_ ?_
    apply SlipRes.no_keeps
    assumption
    split
    refine ExcKeeps.err (State.lockFor_keeps ?_) (by assumption)
    assumption
    apply ResKeeps.wait
    refine Keeps.ite ?_ ?_
    apply State.wake_keeps
    apply State.setFld_keeps
    ((try lift_lets -underBinder); intro x; simp -zeta only [x])
    (simp -zeta only [mk_keeps_iff]; apply KeptParts.fold)
    refine ExcKeeps.get (State.lockFor_keeps ?_) (by assumption)
    assumption
    apply State.setFld_keeps
    ((try lift_lets -underBinder); intro x; simp -zeta only [x])
    (simp -zeta only [mk_keeps_iff]; apply KeptParts.fold)
    refine ExcKeeps.get (State.lockFor_keeps ?_) (by assumption)
    assumption

theorem execBUNDLE_LOAD_END_keeps {z : State} {x} {s : State} (hz : Keeps z s) :
    OutKeeps z (execBUNDLE_LOAD_END x s) := by
  unfold execBUNDLE_LOAD_END
  with_reducible
    apply runSlip_keeps
    assumption
    intro _
    intro _
    apply noSession_keeps
    assumption
    refine ResKeeps.ite ?_ ?_
    apply SlipRes.no_keeps
    assumption
    split
    apply SlipRes.no_keeps
    assumption
    refine ResKeeps.ite ?_ ?_
    apply SlipRes.no_keeps
    assumption
    split
    apply SlipRes.no_keeps
    assumption
    split
    apply SlipRes.no_keeps
    assumption
    ((try lift_lets -underBinder); intro _)
    refine ResKeeps.ite ?_ ?_
    apply SlipRes.no_keeps
    assumption
    refine ResKeeps.ite ?_ ?_
    apply State.beginReload_keeps
    assumption
    split
    refine ExcKeeps.err (State.lockFor_keeps ?_) (by assumption)
    assumption
    apply ResKeeps.done
    apply State.autoRestore_keeps
    apply State.firstLoad_keeps
    assumption

theorem execBUNDLE_UNLOAD_keeps {z : State} {x} {s : State} (hz : Keeps z s) :
    OutKeeps z (execBUNDLE_UNLOAD x s) := by
  unfold execBUNDLE_UNLOAD
  with_reducible
    apply runSlip_keeps
    assumption
    intro _
    intro _
    apply noSession_keeps
    assumption
    refine ResKeeps.ite ?_ ?_
    apply SlipRes.no_keeps
    assumption
    refine ResKeeps.ite ?_ ?_
    apply SlipRes.no_keeps
    assumption
    refine ResKeeps.ite ?_ ?_
    apply SlipRes.no_keeps
    assumption
    refine ResKeeps.ite ?_ ?_
    apply SlipRes.no_keeps
    assumption
    refine ResKeeps.ite ?_ ?_
    apply SlipRes.no_keeps
    assumption
    apply ResKeeps.done
    apply State.setFld_keeps
    apply State.measured_keeps
    apply foldl_keeps
    apply foldl_keeps
    apply State.setReg_keeps
    apply State.setReg_keeps
    apply foldl_keeps
    apply State.setReg_keeps
    ((try lift_lets -underBinder); intro x; refine (fun (hx : Keeps z x) => ?_) ?_; clear_value x)
    ((try lift_lets -underBinder); intro x; simp -zeta only [x])
    (simp -zeta only [mk_keeps_iff]; apply KeptParts.fold)
    assumption
    apply State.clearT1_keeps
    apply foldl_keeps
    assumption
    apply State.dropShard_keeps
    intro _
    intro _
    apply State.setReg_keeps
    intro _
    intro _
    apply State.setFld_keeps
    intro _
    intro _
    apply State.setFld_keeps

end Sys2Proof.Machine
end

