-- ==== Sys2Proof/Laws/KeepChecks.lean ====
section
/-!
SUPPORT. Every operation and meaning of Machine/Checks.lean leaves the queue of waiting commands as it was and keeps the stores
canonical: for each f, `f_keeps` (Laws/Keeps.lean).
-/

namespace Sys2Proof.Machine

theorem execCHK_CRC_keeps {z : State} {x} {s : State} (hz : Keeps z s) :
    OutKeeps z (execCHK_CRC x s) := by
  unfold execCHK_CRC
  with_reducible
    apply runSlip_keeps
    assumption
    intro _
    intro _
    apply noSession_keeps
    assumption
    refine ResKeeps.ite ?_ ?_
    apply SlipRes.no_keeps
    assumption
    refine ResKeeps.ite ?_ ?_
    apply SlipRes.no_keeps
    assumption
    apply ResKeeps.done
    apply State.jobOn_keeps
    apply State.bumpBy_keeps
    apply State.bump_keeps
    assumption

theorem State.startScan_keeps {z : State} {s : State} (hz : Keeps z s) :
    Keeps z (State.startScan s) := by
  unfold State.startScan
  with_reducible
    refine Keeps.ite ?_ ?_
    (simp -zeta only [mk_keeps_iff]; apply KeptParts.fold)
    assumption
    assumption

theorem State.queueScan_keeps {z : State} {s : State} {k} (hz : Keeps z s) :
    Keeps z (State.queueScan s k) := by
  unfold State.queueScan
  with_reducible
    apply State.startScan_keeps
    (simp -zeta only [mk_keeps_iff]; apply KeptParts.fold)
    assumption

theorem execCHK_SCAN_keeps {z : State} {x} {s : State} (hz : Keeps z s) :
    OutKeeps z (execCHK_SCAN x s) := by
  unfold execCHK_SCAN
  with_reducible
    apply runSlip_keeps
    assumption
    intro _
    intro _
    apply noSession_keeps
    assumption
    refine ResKeeps.ite ?_ ?_
    apply SlipRes.no_keeps
    assumption
    refine ResKeeps.ite ?_ ?_
    apply SlipRes.no_keeps
    assumption
    refine ResKeeps.ite ?_ ?_
    apply SlipRes.no_keeps
    assumption
    refine ResKeeps.ite ?_ ?_
    apply SlipRes.no_keeps
    assumption
    refine ResKeeps.ite ?_ ?_
    apply SlipRes.no_keeps
    assumption
    refine ResKeeps.ite ?_ ?_
    apply SlipRes.no_keeps
    assumption
    refine ResKeeps.ite ?_ ?_
    apply SlipRes.no_keeps
    assumption
    refine ResKeeps.ite ?_ ?_
    apply SlipRes.no_keeps
    assumption
    apply ResKeeps.wait
    apply State.queueScan_keeps
    assumption

theorem State.lineRecord_keeps {z : State} {s : State} {l} (hz : Keeps z s) :
    Keeps z (State.lineRecord s l).1 := by
  unfold State.lineRecord
  with_reducible
    ((try lift_lets -underBinder); intro x; simp -zeta only [x])
    split
    assumption
    apply State.errRecord_keeps
    assumption

theorem execSCAN_COMPLETE_keeps {z : State} {s : State} (hz : Keeps z s) :
    OutKeeps z (execSCAN_COMPLETE s) := by
  unfold execSCAN_COMPLETE
  with_reducible
    split
    refine OutKeeps.ite ?_ ?_
    apply OutKeeps.next
    assumption
    apply OutKeeps.next
    apply State.startScan_keeps
    split
    apply State.finish_keeps
    apply State.lineRecord_keeps
    apply State.bump_keeps
    apply State.jobOn_keeps
    apply State.bumpBy_keeps
    apply State.bump_keeps
    (simp -zeta only [mk_keeps_iff]; apply KeptParts.fold)
    assumption
    apply State.finish_keeps
    apply State.setFld_keeps
    apply State.jobOn_keeps
    apply State.bumpBy_keeps
    apply State.bump_keeps
    (simp -zeta only [mk_keeps_iff]; apply KeptParts.fold)
    assumption
    apply OutKeeps.next
    assumption

theorem State.xtsSlip_keeps {z : State} {s : State} {dec} {x} (hz : Keeps z s) :
    ResKeeps z (State.xtsSlip s dec x) := by
  unfold State.xtsSlip
  with_reducible
    apply noSession_keeps
    assumption
    refine ResKeeps.ite ?_ ?_
    apply SlipRes.no_keeps
    assumption
    split
    refine ResKeeps.ite ?_ ?_
    apply SlipRes.no_keeps
    assumption
    refine ResKeeps.ite ?_ ?_
    apply ResKeeps.done
    assumption
    apply ResKeeps.done
    apply State.jobOn_keeps
    apply State.bump_keeps
    assumption
    apply SlipRes.no_keeps
    assumption
    apply SlipRes.no_keeps
    assumption

theorem execCHK_XTS_ENC_keeps {z : State} {x} {s : State} (hz : Keeps z s) :
    OutKeeps z (execCHK_XTS_ENC x s) := by
  unfold execCHK_XTS_ENC
  with_reducible
    apply runSlip_keeps
    assumption
    intro _
    apply State.xtsSlip_keeps

theorem execCHK_XTS_DEC_keeps {z : State} {x} {s : State} (hz : Keeps z s) :
    OutKeeps z (execCHK_XTS_DEC x s) := by
  unfold execCHK_XTS_DEC
  with_reducible
    apply runSlip_keeps
    assumption
    intro _
    apply State.xtsSlip_keeps

theorem State.diag_keeps {z : State} {s : State} {x} {masks} {f : SlipRes} (hz : Keeps z s) (hf : ResKeeps z f) :
    ResKeeps z (State.diag s x masks f) := by
  unfold State.diag
  with_reducible
    refine ResKeeps.ite ?_ ?_
    apply SlipRes.no_keeps
    assumption
    apply noSession_keeps
    assumption
    assumption

theorem execDIAG_INJECT_keeps {z : State} {x} {s : State} (hz : Keeps z s) :
    OutKeeps z (execDIAG_INJECT x s) := by
  unfold execDIAG_INJECT
  with_reducible
    apply runSlip_keeps
    assumption
    intro _
    intro _
    apply State.diag_keeps
    assumption
    refine ResKeeps.ite ?_ ?_
    apply SlipRes.no_keeps
    assumption
    refine ResKeeps.ite ?_ ?_
    apply SlipRes.no_keeps
    assumption
    refine ResKeeps.ite ?_ ?_
    apply SlipRes.no_keeps
    assumption
    apply ResKeeps.done
    apply State.updErrs_keeps
    assumption

theorem execDIAG_TRACE_STOP_keeps {z : State} {x} {s : State} (hz : Keeps z s) :
    OutKeeps z (execDIAG_TRACE_STOP x s) := by
  unfold execDIAG_TRACE_STOP
  with_reducible
    apply runSlip_keeps
    assumption
    intro _
    intro _
    apply State.diag_keeps
    assumption
    apply ResKeeps.done
    ((try lift_lets -underBinder); intro x; simp -zeta only [x])
    (simp -zeta only [mk_keeps_iff]; apply KeptParts.fold)
    assumption

theorem execDIAG_TRACE_START_keeps {z : State} {x} {s : State} (hz : Keeps z s) :
    OutKeeps z (execDIAG_TRACE_START x s) := by
  unfold execDIAG_TRACE_START
  with_reducible
    apply runSlip_keeps
    assumption
    intro _
    intro _
    apply State.diag_keeps
    assumption
    apply ResKeeps.done
    (simp -zeta only [mk_keeps_iff]; apply KeptParts.fold)
    assumption

theorem execDIAG_TRACE_READ_keeps {z : State} {x} {s : State} (hz : Keeps z s) :
    OutKeeps z (execDIAG_TRACE_READ x s) := by
  unfold execDIAG_TRACE_READ
  with_reducible
    apply runSlip_keeps
    assumption
    intro _
    intro _
    apply State.diag_keeps
    assumption
    refine ResKeeps.ite ?_ ?_
    apply SlipRes.no_keeps
    assumption
    apply ResKeeps.done
    assumption

end Sys2Proof.Machine
end

