-- ==== Sys2Proof/Laws/KeepDevice.lean ====
section
/-!
SUPPORT. Every operation and meaning of Machine/Device.lean leaves the queue of waiting commands as it was and keeps the stores
canonical: for each f, `f_keeps` (Laws/Keeps.lean).
-/

namespace Sys2Proof.Machine

theorem execNOP_keeps {z : State} {x} {s : State} (hz : Keeps z s) :
    OutKeeps z (execNOP x s) := by
  unfold execNOP
  with_reducible
    apply runSlip_keeps
    assumption
    intro _
    intro _
    split
    apply SlipRes.no_keeps
    assumption
    apply ResKeeps.done
    assumption

theorem execHELLO_keeps {z : State} {x} {s : State} (hz : Keeps z s) :
    OutKeeps z (execHELLO x s) := by
  unfold execHELLO
  with_reducible
    apply runSlip_keeps
    assumption
    intro _
    intro _
    split
    apply SlipRes.no_keeps
    assumption
    refine ResKeeps.ite ?_ ?_
    apply SlipRes.no_keeps
    assumption
    refine ResKeeps.ite ?_ ?_
    apply SlipRes.no_keeps
    assumption
    apply ResKeeps.done
    (simp -zeta only [mk_keeps_iff]; apply KeptParts.fold)
    assumption

theorem execIDENTIFY_keeps {z : State} {x} {s : State} (hz : Keeps z s) :
    OutKeeps z (execIDENTIFY x s) := by
  unfold execIDENTIFY
  with_reducible
    apply runSlip_keeps
    assumption
    intro _
    intro _
    split
    apply SlipRes.no_keeps
    assumption
    apply ResKeeps.done
    assumption

theorem execECHO_keeps {z : State} {x} {s : State} (hz : Keeps z s) :
    OutKeeps z (execECHO x s) := by
  unfold execECHO
  with_reducible
    apply runSlip_keeps
    assumption
    intro _
    intro _
    split
    apply SlipRes.no_keeps
    assumption
    apply ResKeeps.done
    assumption

end Sys2Proof.Machine
end

