-- ==== Sys2Proof/Laws/KeepHost.lean ====
section
/-!
SUPPORT. Every operation and meaning of Machine/Host.lean leaves the queue of waiting commands as it was and keeps the stores
canonical: for each f, `f_keeps` (Laws/Keeps.lean).
-/

namespace Sys2Proof.Machine

theorem execHOST_LINK_TRAINING_keeps {z : State} {offered} {width} {rate} {s : State} (hz : Keeps z s) :
    OutKeeps z (execHOST_LINK_TRAINING offered width rate s) := by
  unfold execHOST_LINK_TRAINING
  with_reducible
    split
    refine OutKeeps.ite ?_ ?_
    apply OutKeeps.next
    assumption
    apply OutKeeps.next
    ((try lift_lets -underBinder); intro x; simp -zeta only [x])
    (simp -zeta only [mk_keeps_iff]; apply KeptParts.fold)
    assumption
    apply OutKeeps.next
    assumption

theorem execHOST_PORT_RESET_keeps {z : State} {kind} {s : State} (hz : Keeps z s) :
    OutKeeps z (execHOST_PORT_RESET kind s) := by
  unfold execHOST_PORT_RESET
  with_reducible
    refine OutKeeps.ite ?_ ?_
    apply OutKeeps.next
    assumption
    apply OutKeeps.next
    apply State.portReset_keeps
    assumption

theorem execHDM_DECODER_COMMIT_keeps {z : State} {dec} {base} {size} {ways} {gran} {pos} {s : State} (hz : Keeps z s) :
    OutKeeps z (execHDM_DECODER_COMMIT dec base size ways gran pos s) := by
  unfold execHDM_DECODER_COMMIT
  with_reducible
    refine OutKeeps.ite ?_ ?_
    apply OutKeeps.next
    assumption
    apply OutKeeps.next
    ((try lift_lets -underBinder); intro x; simp -zeta only [x])
    (simp -zeta only [mk_keeps_iff]; apply KeptParts.fold)
    assumption

theorem State.unmark_keeps {z : State} {s : State} {hdm1} {a} (hz : Keeps z s) :
    Keeps z (State.unmark s hdm1 a) := by
  unfold State.unmark
  with_reducible
    split
    apply State.updErrs_keeps
    assumption
    assumption

theorem State.hostRead_keeps {z : State} {s : State} {hdm1} {line} (hz : Keeps z s) :
    Keeps z (State.hostRead s hdm1 line) := by
  unfold State.hostRead
  with_reducible
    refine Keeps.ite ?_ ?_
    apply State.emit_keeps
    assumption
    refine Keeps.ite ?_ ?_
    apply State.emit_keeps
    apply State.bump_keeps
    assumption
    split
    apply State.access_keeps
    assumption
    refine Keeps.ite ?_ ?_
    apply State.emit_keeps
    apply State.bump_keeps
    assumption
    apply State.emit_keeps
    assumption

theorem State.hdmWrite_keeps {z s : State} {hdm1 a l} (hz : Keeps z s) : Keeps z (State.hdmWrite s hdm1 a l) := by
  induction l generalizing s a with
  | nil => exact hz
  | cons b l ih => exact ih (State.hdmPut_keeps hz)

theorem State.hostWriteLine_keeps {z : State} {s : State} {hdm1} {line} {off} {b} (hz : Keeps z s) :
    Keeps z (State.hostWriteLine s hdm1 line off b) := by
  unfold State.hostWriteLine
  with_reducible
    refine Keeps.ite ?_ ?_
    assumption
    refine Keeps.ite ?_ ?_
    apply State.bump_keeps
    assumption
    split
    apply State.access_keeps
    assumption
    ((try lift_lets -underBinder); intro x; refine (fun (hx : Keeps z x) => ?_) ?_; clear_value x)
    refine Keeps.ite ?_ ?_
    apply State.unmark_keeps
    assumption
    assumption
    simp -zeta only [x]
    apply State.hdmWrite_keeps
    assumption

theorem State.hostAccess_keeps {z : State} {s : State} {dec} {hpa} {op} (hz : Keeps z s) :
    Keeps z (State.hostAccess s dec hpa op) := by
  unfold State.hostAccess
  with_reducible
    refine Keeps.ite ?_ ?_
    assumption
    split
    assumption
    split
    assumption
    split
    (simp -zeta only [mk_keeps_iff]; apply KeptParts.fold)
    assumption
    apply State.hostRead_keeps
    assumption
    refine Keeps.ite ?_ ?_
    assumption
    apply State.hostWriteLine_keeps
    assumption

theorem execHDM_ACCESS_keeps {z : State} {dec} {hpa} {op} {s : State} (hz : Keeps z s) :
    OutKeeps z (execHDM_ACCESS dec hpa op s) := by
  unfold execHDM_ACCESS
  with_reducible
    apply OutKeeps.next
    apply State.hostAccess_keeps
    assumption

theorem State.sendPending_keeps {z : State} {s : State} (hz : Keeps z s) :
    Keeps z (State.sendPending s) := by
  unfold State.sendPending
  with_reducible
    refine Keeps.ite ?_ ?_
    assumption
    apply foldl_keeps
    ((try lift_lets -underBinder); intro x; simp -zeta only [x])
    (simp -zeta only [mk_keeps_iff]; apply KeptParts.fold)
    assumption
    intro _
    intro _
    apply State.emit_keeps

theorem State.setVec_keeps {z : State} {s : State} {v} {e} (hz : Keeps z s) :
    Keeps z (State.setVec s v e) := by
  unfold State.setVec
  with_reducible
    apply State.sendPending_keeps
    ((try lift_lets -underBinder); intro x; simp -zeta only [x])
    (simp -zeta only [mk_keeps_iff]; apply KeptParts.fold)
    assumption

theorem execMSIX_UNMASK_keeps {z : State} {vec} {addr} {data} {s : State} (hz : Keeps z s) :
    OutKeeps z (execMSIX_UNMASK vec addr data s) := by
  unfold execMSIX_UNMASK
  with_reducible
    refine OutKeeps.ite ?_ ?_
    apply OutKeeps.next
    assumption
    apply OutKeeps.next
    apply State.setVec_keeps
    assumption

theorem State.cfgWrite_keeps {z : State} {s : State} {op} (hz : Keeps z s) :
    Keeps z (State.cfgWrite s op) := by
  unfold State.cfgWrite
  with_reducible
    split
    refine Keeps.ite ?_ ?_
    assumption
    ((try lift_lets -underBinder); intro x; simp -zeta only [x])
    (simp -zeta only [mk_keeps_iff]; apply KeptParts.fold)
    assumption
    apply State.sendPending_keeps
    ((try lift_lets -underBinder); intro x; simp -zeta only [x])
    (simp -zeta only [mk_keeps_iff]; apply KeptParts.fold)
    assumption
    assumption

theorem execCONFIG_REQUEST_keeps {z : State} {op} {s : State} (hz : Keeps z s) :
    OutKeeps z (execCONFIG_REQUEST op s) := by
  unfold execCONFIG_REQUEST
  with_reducible
    refine OutKeeps.ite ?_ ?_
    apply OutKeeps.next
    assumption
    refine OutKeeps.ite ?_ ?_
    apply OutKeeps.next
    apply State.emit_keeps
    assumption
    apply OutKeeps.next
    apply State.emit_keeps
    apply State.cfgWrite_keeps
    assumption

theorem execH2D_SNOOP_keeps {z : State} {s : State} (hz : Keeps z s) :
    OutKeeps z (execH2D_SNOOP s) := by
  unfold execH2D_SNOOP
  with_reducible
    refine OutKeeps.ite ?_ ?_
    apply OutKeeps.next
    assumption
    apply OutKeeps.next
    apply State.emit_keeps
    apply State.bump_keeps
    assumption

theorem State.updPress_keeps {z : State} {s : State} {f} (hz : Keeps z s) :
    Keeps z (State.updPress s f) := by
  unfold State.updPress
  with_reducible
    apply State.updCkpt_keeps
    assumption

theorem State.setPress_keeps {z : State} {s : State} {state} {cause} {press} (hz : Keeps z s) :
    Keeps z (State.setPress s state cause press) := by
  unfold State.setPress
  with_reducible
    apply State.setFld_keeps
    apply State.setFld_keeps
    apply State.setFld_keeps
    assumption

theorem State.dropLabelWrites_keeps {z : State} {s : State} (hz : Keeps z s) :
    Keeps z (State.dropLabelWrites s) := by
  unfold State.dropLabelWrites
  with_reducible
    apply foldl_keeps
    apply State.updPress_keeps
    assumption
    intro _
    intro _
    apply State.finish_keeps

theorem State.nvmeError_keeps {z : State} {s : State} (hz : Keeps z s) :
    Keeps z (State.nvmeError s) := by
  unfold State.nvmeError
  with_reducible
    apply State.bump_keeps
    apply State.pressError_keeps
    assumption

theorem execPRESS_PERST_RELEASE_keeps {z : State} {ssd} {s : State} (hz : Keeps z s) :
    OutKeeps z (execPRESS_PERST_RELEASE ssd s) := by
  unfold execPRESS_PERST_RELEASE
  with_reducible
    refine OutKeeps.ite ?_ ?_
    apply OutKeeps.next
    assumption
    ((try lift_lets -underBinder); intro x; refine (fun (hx : Keeps z x) => ?_) ?_; clear_value x)
    ((try lift_lets -underBinder); intro x; refine (fun (hx : Keeps z x) => ?_) ?_; clear_value x)
    split
    apply OutKeeps.next
    apply State.setPress_keeps
    assumption
    refine OutKeeps.ite ?_ ?_
    apply OutKeeps.next
    apply State.setPress_keeps
    assumption
    ((try lift_lets -underBinder); intro x; refine (fun (hx : Keeps z x) => ?_) ?_; clear_value x)
    split
    apply OutKeeps.next
    apply State.setPress_keeps
    assumption
    refine OutKeeps.ite ?_ ?_
    apply OutKeeps.next
    apply State.setPress_keeps
    apply State.nvmeError_keeps
    assumption
    apply OutKeeps.next
    apply State.emit_keeps
    apply State.setPress_keeps
    apply State.updPress_keeps
    assumption
    apply State.setFld_keeps
    apply State.setFld_keeps
    apply State.setFld_keeps
    assumption
    apply State.updPress_keeps
    apply State.setFld_keeps
    apply State.setFld_keeps
    apply State.setFld_keeps
    assumption
    apply State.dropLabelWrites_keeps
    apply State.pressError_keeps
    assumption

theorem State.labelSeen_keeps {z : State} {s : State} {good} (hz : Keeps z s) :
    Keeps z (State.labelSeen s good) := by
  unfold State.labelSeen
  with_reducible
    refine Keeps.ite ?_ ?_
    assumption
    ((try lift_lets -underBinder); intro x; simp -zeta only [x])
    split
    apply State.setFld_keeps
    apply State.setFld_keeps
    apply State.setFld_keeps
    assumption
    apply State.setFld_keeps
    apply State.setFld_keeps
    assumption

theorem State.labelWritten_keeps {z : State} {s : State} {ok} (hz : Keeps z s) :
    Keeps z (State.labelWritten s ok) := by
  unfold State.labelWritten
  with_reducible
    split
    assumption
    refine Keeps.ite ?_ ?_
    apply State.finish_keeps
    apply State.updPress_keeps
    assumption
    apply State.finish_keeps
    refine Keeps.ite ?_ ?_
    apply State.setFld_keeps
    apply State.setFld_keeps
    apply State.updPress_keeps
    apply State.setFld_keeps
    apply State.updPress_keeps
    apply State.updPress_keeps
    assumption
    apply State.setFld_keeps
    apply State.updPress_keeps
    apply State.updPress_keeps
    assumption

theorem State.nvmeDone_keeps {z : State} {s : State} {op} {ok} {intact} (hz : Keeps z s) :
    Keeps z (State.nvmeDone s op ok intact) := by
  unfold State.nvmeDone
  with_reducible
    split
    apply State.labelSeen_keeps
    assumption
    apply State.labelWritten_keeps
    assumption
    refine Keeps.ite ?_ ?_
    apply State.pressStep_keeps
    assumption
    assumption
    apply State.restoreRead_keeps
    assumption
    apply State.restoreRead_keeps
    assumption
    apply State.setFld_keeps
    apply State.setFld_keeps
    assumption

theorem execNVME_COMPLETION_keeps {z : State} {op} {ok} {intact} {s : State} (hz : Keeps z s) :
    OutKeeps z (execNVME_COMPLETION op ok intact s) := by
  unfold execNVME_COMPLETION
  with_reducible
    refine OutKeeps.ite ?_ ?_
    apply OutKeeps.next
    assumption
    apply OutKeeps.next
    apply State.nvmeDone_keeps
    refine Keeps.ite ?_ ?_
    apply State.nvmeError_keeps
    assumption
    assumption

theorem execNVME_TIMEOUT_keeps {z : State} {op} {s : State} (hz : Keeps z s) :
    OutKeeps z (execNVME_TIMEOUT op s) := by
  unfold execNVME_TIMEOUT
  with_reducible
    refine OutKeeps.ite ?_ ?_
    apply OutKeeps.next
    assumption
    apply OutKeeps.next
    apply State.setFld_keeps
    apply State.setFld_keeps
    apply State.nvmeDone_keeps
    apply State.nvmeError_keeps
    assumption

theorem State.trafficBack_keeps {z : State} {s : State} (hz : Keeps z s) :
    Keeps z (State.trafficBack s) := by
  unfold State.trafficBack
  with_reducible
    ((try lift_lets -underBinder); intro x; simp -zeta only [x])
    ((try lift_lets -underBinder); intro _)
    ((try lift_lets -underBinder); intro x; refine (fun (hx : Keeps z x) => ?_) ?_; clear_value x)
    apply foldl_keeps
    assumption
    intro _
    intro _
    intro _
    apply State.hostAccess_keeps
    assumption
    simp -zeta only [x]
    (simp -zeta only [mk_keeps_iff]; apply KeptParts.fold)
    assumption

theorem State.tickOver_keeps {z : State} {s : State} (hz : Keeps z s) :
    Keeps z (State.tickOver s) := by
  unfold State.tickOver
  with_reducible
    refine Keeps.ite ?_ ?_
    assumption
    apply State.trafficBack_keeps
    (simp -zeta only [mk_keeps_iff]; apply KeptParts.fold)
    assumption

end Sys2Proof.Machine
end

