-- ==== Sys2Proof/Laws/KeepMicroOps.lean ====
section
/-!
SUPPORT. Every operation and meaning of Machine/MicroOps.lean leaves the queue of waiting commands as it was and keeps the stores
canonical: for each f, `f_keeps` (Laws/Keeps.lean).
-/

namespace Sys2Proof.Machine

theorem execNBU_NOP_keeps {z : State} {n} {s : State} (hz : Keeps z s) :
    OutKeeps z (execNBU_NOP n s) := by
  unfold execNBU_NOP
  with_reducible
    apply runUop_keeps
    assumption
    intro _
    intro _
    intro _
    intro _
    apply UopKeeps.next

theorem execYIELD_keeps {z : State} {n} {s : State} (hz : Keeps z s) :
    OutKeeps z (execYIELD n s) := by
  unfold execYIELD
  with_reducible
    apply runUop_keeps
    assumption
    intro _
    intro _
    intro _
    intro _
    intro _
    apply UopKeeps.yield
    apply State.yieldAt_keeps
    assumption

theorem execHALT_keeps {z : State} {n} {s : State} (hz : Keeps z s) :
    OutKeeps z (execHALT n s) := by
  unfold execHALT
  with_reducible
    apply runUop_keeps
    assumption
    intro _
    intro _
    intro _
    intro _
    apply UopKeeps.stop

theorem execLOOP_keeps {z : State} {n} {s : State} (hz : Keeps z s) :
    OutKeeps z (execLOOP n s) := by
  unfold execLOOP
  with_reducible
    apply runUop_keeps
    assumption
    intro _
    intro _
    intro _
    intro _
    apply UopKeeps.next

theorem execENDL_keeps {z s : State} {n} (hz : Keeps z s) : OutKeeps z (execENDL n s) := by
  unfold execENDL
  refine runUop_keeps hz (fun t v r u ht => ?_)
  lift_lets -underBinder
  intro c
  clear_value c
  exact UopKeeps.ite (UopKeeps.jump ht) (UopKeeps.next ht)

theorem execBZ_keeps {z : State} {n} {s : State} (hz : Keeps z s) :
    OutKeeps z (execBZ n s) := by
  unfold execBZ
  with_reducible
    apply runUop_keeps
    assumption
    intro _
    intro _
    intro _
    intro _
    intro _
    refine UopKeeps.ite ?_ ?_
    apply UopKeeps.jump
    assumption
    apply UopKeeps.next
    assumption

theorem execBNZ_keeps {z : State} {n} {s : State} (hz : Keeps z s) :
    OutKeeps z (execBNZ n s) := by
  unfold execBNZ
  with_reducible
    apply runUop_keeps
    assumption
    intro _
    intro _
    intro _
    intro _
    intro _
    refine UopKeeps.ite ?_ ?_
    apply UopKeeps.jump
    assumption
    apply UopKeeps.next
    assumption

theorem execJMP_keeps {z : State} {n} {s : State} (hz : Keeps z s) :
    OutKeeps z (execJMP n s) := by
  unfold execJMP
  with_reducible
    apply runUop_keeps
    assumption
    intro _
    intro _
    intro _
    intro _
    apply UopKeeps.jump

theorem execWPOP_keeps {z : State} {n} {s : State} (hz : Keeps z s) :
    OutKeeps z (execWPOP n s) := by
  unfold execWPOP
  with_reducible
    apply runUop_keeps
    assumption
    intro _
    intro _
    intro _
    intro _
    intro _
    ((try lift_lets -underBinder); intro x; simp -zeta only [x])
    split
    refine UopKeeps.ite ?_ ?_
    apply UopKeeps.stop
    assumption
    apply UopKeeps.next
    apply State.setNbu_keeps
    assumption
    refine UopKeeps.ite ?_ ?_
    apply UopKeeps.next
    assumption
    apply UopKeeps.stall

theorem execPPB_keeps {z : State} {n} {s : State} (hz : Keeps z s) :
    OutKeeps z (execPPB n s) := by
  unfold execPPB
  with_reducible
    apply runUop_keeps
    assumption
    intro _
    intro _
    intro _
    intro _
    intro _
    apply UopKeeps.next
    apply State.setNbu_keeps
    assumption

theorem execFENCE_UOP_keeps {z : State} {n} {s : State} (hz : Keeps z s) :
    OutKeeps z (execFENCE_UOP n s) := by
  unfold execFENCE_UOP
  with_reducible
    apply runUop_keeps
    assumption
    intro _
    intro _
    intro _
    intro _
    apply UopKeeps.next

theorem execLI_keeps {z : State} {n} {s : State} (hz : Keeps z s) :
    OutKeeps z (execLI n s) := by
  unfold execLI
  with_reducible
    apply runUop_keeps
    assumption
    intro _
    intro _
    intro _
    intro _
    apply UopKeeps.next

theorem alu_keeps {z : State} {op} {n} {s : State} {f} (hz : Keeps z s) :
    OutKeeps z (alu op n s f) := by
  unfold alu
  with_reducible
    apply runUop_keeps
    assumption
    intro _
    intro _
    intro _
    intro _
    apply UopKeeps.next

theorem execADD_keeps {z : State} {n} {s : State} (hz : Keeps z s) :
    OutKeeps z (execADD n s) := by
  unfold execADD
  with_reducible
    apply alu_keeps
    assumption

theorem execSUB_keeps {z : State} {n} {s : State} (hz : Keeps z s) :
    OutKeeps z (execSUB n s) := by
  unfold execSUB
  with_reducible
    apply alu_keeps
    assumption

theorem execAND_keeps {z : State} {n} {s : State} (hz : Keeps z s) :
    OutKeeps z (execAND n s) := by
  unfold execAND
  with_reducible
    apply alu_keeps
    assumption

theorem execOR_keeps {z : State} {n} {s : State} (hz : Keeps z s) :
    OutKeeps z (execOR n s) := by
  unfold execOR
  with_reducible
    apply alu_keeps
    assumption

theorem execXOR_keeps {z : State} {n} {s : State} (hz : Keeps z s) :
    OutKeeps z (execXOR n s) := by
  unfold execXOR
  with_reducible
    apply alu_keeps
    assumption

theorem execSHL_keeps {z : State} {n} {s : State} (hz : Keeps z s) :
    OutKeeps z (execSHL n s) := by
  unfold execSHL
  with_reducible
    apply alu_keeps
    assumption

theorem execSHR_keeps {z : State} {n} {s : State} (hz : Keeps z s) :
    OutKeeps z (execSHR n s) := by
  unfold execSHR
  with_reducible
    apply alu_keeps
    assumption

theorem execSLTU_keeps {z : State} {n} {s : State} (hz : Keeps z s) :
    OutKeeps z (execSLTU n s) := by
  unfold execSLTU
  with_reducible
    apply alu_keeps
    assumption

theorem execMINU_keeps {z : State} {n} {s : State} (hz : Keeps z s) :
    OutKeeps z (execMINU n s) := by
  unfold execMINU
  with_reducible
    apply alu_keeps
    assumption

theorem execMAXU_keeps {z : State} {n} {s : State} (hz : Keeps z s) :
    OutKeeps z (execMAXU n s) := by
  unfold execMAXU
  with_reducible
    apply alu_keeps
    assumption

theorem execLDW_keeps {z : State} {n} {s : State} (hz : Keeps z s) :
    OutKeeps z (execLDW n s) := by
  unfold execLDW
  with_reducible
    apply runUop_keeps
    assumption
    intro _
    intro _
    intro _
    intro _
    intro _
    refine UopKeeps.ite ?_ ?_
    apply UopKeeps.stop
    assumption
    apply UopKeeps.next
    assumption

theorem execSTW_keeps {z : State} {n} {s : State} (hz : Keeps z s) :
    OutKeeps z (execSTW n s) := by
  unfold execSTW
  with_reducible
    apply runUop_keeps
    assumption
    intro _
    intro _
    intro _
    intro _
    intro _
    refine UopKeeps.ite ?_ ?_
    apply UopKeeps.stop
    assumption
    apply UopKeeps.next
    apply State.setNbu_keeps
    assumption

theorem State.feed_keeps {z : State} {s : State} {n} {v} {todo} {r} (hz : Keeps z s) :
    UopKeeps z (State.feed s n v todo r) := by
  unfold State.feed
  with_reducible
    ((try lift_lets -underBinder); intro x; simp -zeta only [x])
    ((try lift_lets -underBinder); intro x; refine (fun (hx : Keeps z x) => ?_) ?_; clear_value x)
    split
    apply State.mediaStop_keeps
    assumption
    apply UopKeeps.next
    assumption
    apply State.setNbu_keeps
    assumption

theorem execRDC_keeps {z : State} {n} {s : State} (hz : Keeps z s) :
    OutKeeps z (execRDC n s) := by
  unfold execRDC
  with_reducible
    apply runUop_keeps
    assumption
    intro _
    intro _
    intro _
    intro _
    apply State.feed_keeps

/-- Writing columns under byte enables keeps the form. -/
theorem writeCols_wf {m : List (Nat × Byte)} {en : Nat} (l : List (Nat × Bytes)) (h : Memory.wf m = true) :
    Memory.wf (writeCols m en l) = true := by
  induction l generalizing m with
  | nil => exact h
  | cons p l ih =>
    obtain ⟨a, b⟩ := p
    unfold writeCols
    apply ih
    generalize b.zipIdx = xs
    induction xs generalizing m with
    | nil => exact h
    | cons y ys ih2 =>
      rw [List.foldl_cons]
      apply ih2
      split
      · exact memPut_wf _ _ h
      · exact h

theorem execWRC_keeps {z s : State} {n} (hz : Keeps z s) : OutKeeps z (execWRC n s) := by
  unfold execWRC
  refine runUop_keeps hz (fun t v r u ht => ?_)
  lift_lets -underBinder
  intro b
  apply UopKeeps.ite (UopKeeps.stop ht)
  have h1 : ∀ cols, Keeps z { t with hbm := writeCols t.hbm (v.sel r u.d) cols } := fun cols =>
    ⟨{ ht.parts with canon := fun c => (ht.parts.canon c).imp_hbm (writeCols_wf _) }⟩
  exact UopKeeps.next (Keeps.ite (foldl_keeps (h1 _) (fun _ _ h => State.clearMarks_keeps h)) (h1 _))

theorem execLDS_keeps {z : State} {n} {s : State} (hz : Keeps z s) :
    OutKeeps z (execLDS n s) := by
  unfold execLDS
  with_reducible
    apply runUop_keeps
    assumption
    intro _
    intro _
    intro _
    intro _
    intro _
    refine UopKeeps.ite ?_ ?_
    apply UopKeeps.stop
    assumption
    apply State.feed_keeps
    assumption

theorem execSTS_keeps {z : State} {n} {s : State} (hz : Keeps z s) :
    OutKeeps z (execSTS n s) := by
  unfold execSTS
  with_reducible
    apply runUop_keeps
    assumption
    intro _
    intro _
    intro _
    intro _
    intro _
    refine UopKeeps.ite ?_ ?_
    apply UopKeeps.stop
    assumption
    split
    apply UopKeeps.stall
    apply State.mediaStop_keeps
    assumption
    apply UopKeeps.next
    apply State.setNbu_keeps
    assumption

theorem execQLD_keeps {z : State} {n} {s : State} (hz : Keeps z s) :
    OutKeeps z (execQLD n s) := by
  unfold execQLD
  with_reducible
    apply runUop_keeps
    assumption
    intro _
    intro _
    intro _
    intro _
    intro _
    refine UopKeeps.ite ?_ ?_
    apply UopKeeps.stop
    assumption
    apply UopKeeps.next
    apply State.setNbu_keeps
    assumption

theorem execEMIT_keeps {z : State} {n} {s : State} (hz : Keeps z s) :
    OutKeeps z (execEMIT n s) := by
  unfold execEMIT
  with_reducible
    apply runUop_keeps
    assumption
    intro _
    intro _
    intro _
    intro _
    intro _
    refine UopKeeps.ite ?_ ?_
    apply UopKeeps.stop
    assumption
    apply UopKeeps.next
    apply State.updStack_keeps
    assumption

theorem execUNP_keeps {z : State} {n} {s : State} (hz : Keeps z s) :
    OutKeeps z (execUNP n s) := by
  unfold execUNP
  with_reducible
    apply runUop_keeps
    assumption
    intro _
    intro _
    intro _
    intro _
    apply UopKeeps.next

theorem execDOT_keeps {z : State} {n} {s : State} (hz : Keeps z s) :
    OutKeeps z (execDOT n s) := by
  unfold execDOT
  with_reducible
    apply runUop_keeps
    assumption
    intro _
    intro _
    intro _
    intro _
    intro _
    refine UopKeeps.ite ?_ ?_
    apply UopKeeps.stop
    assumption
    apply State.consume_keeps
    assumption

theorem execSMX_keeps {z : State} {n} {s : State} (hz : Keeps z s) :
    OutKeeps z (execSMX n s) := by
  unfold execSMX
  with_reducible
    apply runUop_keeps
    assumption
    intro _
    intro _
    intro _
    intro _
    intro _
    refine UopKeeps.ite ?_ ?_
    apply UopKeeps.stop
    assumption
    apply UopKeeps.next
    apply State.setNbu_keeps
    assumption

theorem execAXV_keeps {z : State} {n} {s : State} (hz : Keeps z s) :
    OutKeeps z (execAXV n s) := by
  unfold execAXV
  with_reducible
    apply runUop_keeps
    assumption
    intro _
    intro _
    intro _
    intro _
    intro _
    refine UopKeeps.ite ?_ ?_
    apply UopKeeps.stop
    assumption
    apply State.consume_keeps
    assumption

theorem execDEC_keeps {z : State} {n} {s : State} (hz : Keeps z s) :
    OutKeeps z (execDEC n s) := by
  unfold execDEC
  with_reducible
    apply runUop_keeps
    assumption
    intro _
    intro _
    intro _
    intro _
    apply State.consume_keeps

theorem execENC_keeps {z : State} {n} {s : State} (hz : Keeps z s) :
    OutKeeps z (execENC n s) := by
  unfold execENC
  with_reducible
    apply runUop_keeps
    assumption
    intro _
    intro _
    intro _
    intro _
    intro _
    refine UopKeeps.ite ?_ ?_
    apply UopKeeps.stop
    assumption
    apply UopKeeps.next
    apply State.setNbu_keeps
    assumption

theorem execCBE_keeps {z : State} {n} {s : State} (hz : Keeps z s) :
    OutKeeps z (execCBE n s) := by
  unfold execCBE
  with_reducible
    apply runUop_keeps
    assumption
    intro _
    intro _
    intro _
    intro _
    intro _
    refine UopKeeps.ite ?_ ?_
    apply UopKeeps.stop
    assumption
    apply UopKeeps.next
    apply State.setNbu_keeps
    assumption

theorem execDST_keeps {z : State} {n} {s : State} (hz : Keeps z s) :
    OutKeeps z (execDST n s) := by
  unfold execDST
  with_reducible
    apply runUop_keeps
    assumption
    intro _
    intro _
    intro _
    intro _
    intro _
    refine UopKeeps.ite ?_ ?_
    apply UopKeeps.stop
    assumption
    apply State.consume_keeps
    assumption

theorem execTOPK_keeps {z : State} {n} {s : State} (hz : Keeps z s) :
    OutKeeps z (execTOPK n s) := by
  unfold execTOPK
  with_reducible
    apply runUop_keeps
    assumption
    intro _
    intro _
    intro _
    intro _
    intro _
    refine UopKeeps.ite ?_ ?_
    apply UopKeeps.stop
    assumption
    apply UopKeeps.next
    apply State.setNbu_keeps
    assumption

theorem execHMV_keeps {z : State} {n} {s : State} (hz : Keeps z s) :
    OutKeeps z (execHMV n s) := by
  unfold execHMV
  with_reducible
    apply runUop_keeps
    assumption
    intro _
    intro _
    intro _
    intro _
    intro _
    refine UopKeeps.ite ?_ ?_
    apply UopKeeps.stop
    assumption
    apply State.consume_keeps
    assumption

end Sys2Proof.Machine
end

