-- ==== Sys2Proof/Laws/KeepRegisters.lean ====
section
/-!
SUPPORT. Every operation and meaning of Machine/Registers.lean leaves the queue of waiting commands as it was and keeps the stores
canonical: for each f, `f_keeps` (Laws/Keeps.lean).
-/

namespace Sys2Proof.Machine

theorem execSESS_INSPECT_IDX_keeps {z : State} {value} {s : State} (hz : Keeps z s) :
    OutKeeps z (execSESS_INSPECT_IDX value s) := by
  unfold execSESS_INSPECT_IDX
  with_reducible
    apply OutKeeps.next
    apply foldl_keeps
    apply State.setReg_keeps
    assumption
    intro _
    intro _
    apply State.setReg_keeps

theorem State.provision_keeps {z : State} {s : State} {f} (hz : Keeps z s) :
    Keeps z (State.provision s f) := by
  unfold State.provision
  with_reducible
    ((try lift_lets -underBinder); intro x; refine (fun (hx : Keeps z x) => ?_) ?_; clear_value x)
    (simp -zeta only [mk_keeps_iff]; apply KeptParts.fold)
    assumption
    apply State.updPeer_keeps
    assumption

theorem State.writePeerCfg_keeps {z : State} {s : State} {w} (hz : Keeps z s) :
    Keeps z (State.writePeerCfg s w) := by
  unfold State.writePeerCfg
  with_reducible
    apply State.provision_keeps
    assumption

theorem State.storeReg_keeps {z : State} {s : State} {a1} {w} (hz : Keeps z s) :
    Keeps z (State.storeReg s a1 w) := by
  unfold State.storeReg
  with_reducible
    ((try lift_lets -underBinder); intro _)
    ((try lift_lets -underBinder); intro _)
    ((try lift_lets -underBinder); intro x; refine (fun (hx : Keeps z x) => ?_) ?_; clear_value x)
    refine Keeps.ite ?_ ?_
    apply State.updPeer_keeps
    assumption
    refine Keeps.ite ?_ ?_
    apply State.setRing_keeps
    assumption
    refine Keeps.ite ?_ ?_
    apply State.setRing_keeps
    assumption
    refine Keeps.ite ?_ ?_
    apply State.writePeerCfg_keeps
    assumption
    refine Keeps.ite ?_ ?_
    apply State.provision_keeps
    assumption
    refine Keeps.ite ?_ ?_
    apply State.provision_keeps
    assumption
    refine Keeps.ite ?_ ?_
    apply State.startScan_keeps
    apply State.setReg_keeps
    assumption
    refine Keeps.ite ?_ ?_
    (simp -zeta only [mk_keeps_iff]; apply KeptParts.fold)
    assumption
    apply State.setReg_keeps
    assumption
    simp -zeta only [x]
    apply State.setReg_keeps
    assumption

theorem State.writeOnly_keeps {z : State} {s : State} {a1} {v} (hz : Keeps z s) :
    Keeps z (State.writeOnly s a1 v) := by
  unfold State.writeOnly
  with_reducible
    refine Keeps.ite ?_ ?_
    refine Keeps.ite ?_ ?_
    apply State.setReg_keeps
    assumption
    assumption
    refine Keeps.ite ?_ ?_
    refine Keeps.ite ?_ ?_
    apply State.setFld_keeps
    assumption
    assumption
    refine Keeps.ite ?_ ?_
    ((try lift_lets -underBinder); intro x; refine (fun (hx : Keeps z x) => ?_) ?_; clear_value x)
    refine Keeps.ite ?_ ?_
    apply foldl_keeps
    assumption
    intro _
    intro _
    intro _
    apply State.setReg_keeps
    assumption
    assumption
    simp -zeta only [x]
    refine Keeps.ite ?_ ?_
    apply State.clearHists_keeps
    assumption
    assumption
    refine Keeps.ite ?_ ?_
    apply State.clearHist_keeps
    assumption
    assumption

theorem State.writeReg_keeps {z : State} {s : State} {a} {value} {rind} (hz : Keeps z s) :
    Keeps z (State.writeReg s a value rind) := by
  unfold State.writeReg
  with_reducible
    split
    assumption
    refine Keeps.ite ?_ ?_
    refine Keeps.ite ?_ ?_
    assumption
    apply State.regAccErr_keeps
    assumption
    refine Keeps.ite ?_ ?_
    apply State.regAccErr_keeps
    assumption
    apply State.writeOnly_keeps
    apply State.storeReg_keeps
    refine Keeps.ite ?_ ?_
    apply State.regAccErr_keeps
    assumption
    assumption

theorem State.writeNbu_keeps {z : State} {s : State} {a1} {value} {src} (hz : Keeps z s) :
    Keeps z (State.writeNbu s a1 value src) := by
  unfold State.writeNbu
  with_reducible
    ((try lift_lets -underBinder); intro _)
    ((try lift_lets -underBinder); intro _)
    refine Keeps.ite ?_ ?_
    assumption
    refine Keeps.ite ?_ ?_
    apply State.regAccErr_keeps
    assumption
    refine Keeps.ite ?_ ?_
    assumption
    refine Keeps.ite ?_ ?_
    apply State.nbuWrite_keeps
    assumption
    refine Keeps.ite ?_ ?_
    apply State.updNbu_keeps
    assumption
    assumption

theorem State.writeBar4_keeps {z : State} {s : State} {a} {size} {value} (hz : Keeps z s) :
    Keeps z (State.writeBar4 s a size value) := by
  unfold State.writeBar4
  with_reducible
    refine Keeps.ite ?_ ?_
    assumption
    apply State.setVec_keeps
    assumption

theorem State.ownWrite_keeps {z : State} {s : State} {a1} {w} {src} (hz : Keeps z s) :
    OutKeeps z (State.ownWrite s a1 w src) := by
  unfold State.ownWrite
  with_reducible
    refine OutKeeps.ite ?_ ?_
    ((try lift_lets -underBinder); intro _)
    refine OutKeeps.ite ?_ ?_
    apply execQP_SQ_TAIL_keeps
    assumption
    apply execQP_RQ_HEAD_keeps
    assumption
    refine OutKeeps.ite ?_ ?_
    ((try lift_lets -underBinder); intro _)
    refine OutKeeps.ite ?_ ?_
    apply execQP_ENABLE_keeps
    assumption
    apply execQP_DISABLE_keeps
    assumption
    refine OutKeeps.ite ?_ ?_
    apply execSESS_INSPECT_IDX_keeps
    assumption
    refine OutKeeps.ite ?_ ?_
    apply execTIER_QUOTA_WRITE_keeps
    assumption
    refine OutKeeps.ite ?_ ?_
    refine OutKeeps.ite ?_ ?_
    apply execPOOL_ENTRY_ADD_keeps
    assumption
    apply execPOOL_ENTRY_RETIRE_keeps
    assumption
    refine OutKeeps.ite ?_ ?_
    apply execTEXT_SLOT_SEL_keeps
    assumption
    refine OutKeeps.ite ?_ ?_
    apply execSCHED_TEN_BUDGET_WRITE_keeps
    assumption
    refine OutKeeps.ite ?_ ?_
    apply execLEVEL_SET_keeps
    assumption
    refine OutKeeps.ite ?_ ?_
    apply execSCHED_TEN_POLICE_WRITE_keeps
    assumption
    refine OutKeeps.ite ?_ ?_
    apply execSCHED_SHP_CFG_WRITE_keeps
    assumption
    refine OutKeeps.ite ?_ ?_
    refine OutKeeps.ite ?_ ?_
    apply execRING_ENABLE_keeps
    assumption
    apply execRING_DISABLE_keeps
    assumption
    refine OutKeeps.ite ?_ ?_
    apply execSCHED_RING_CI_keeps
    assumption
    refine OutKeeps.ite ?_ ?_
    apply execVEC_COL_SEL_keeps
    assumption
    refine OutKeeps.ite ?_ ?_
    apply execERR_LOG_SEL_keeps
    assumption
    refine OutKeeps.ite ?_ ?_
    apply execERR_STICKY_CLR_keeps
    assumption
    refine OutKeeps.ite ?_ ?_
    apply execCKPT_TRIG_WRITE_keeps
    assumption
    apply execNBU_BCAST_DATA_keeps
    assumption

theorem execREGISTER_WRITE_keeps {z : State} {src} {bar} {addr} {size} {value} {s : State} (hz : Keeps z s) :
    OutKeeps z (execREGISTER_WRITE src bar addr size value s) := by
  unfold execREGISTER_WRITE
  with_reducible
    refine OutKeeps.ite ?_ ?_
    apply OutKeeps.next
    apply State.rindLater_keeps
    assumption
    refine OutKeeps.ite ?_ ?_
    apply OutKeeps.next
    refine Keeps.ite ?_ ?_
    apply State.writeBar4_keeps
    assumption
    assumption
    refine OutKeeps.ite ?_ ?_
    apply OutKeeps.next
    assumption
    refine OutKeeps.ite ?_ ?_
    apply OutKeeps.next
    refine Keeps.ite ?_ ?_
    apply State.emit_keeps
    assumption
    assumption
    ((try lift_lets -underBinder); intro _)
    ((try lift_lets -underBinder); intro _)
    refine OutKeeps.ite ?_ ?_
    apply State.ownWrite_keeps
    assumption
    refine OutKeeps.ite ?_ ?_
    apply OutKeeps.next
    apply State.writeNbu_keeps
    assumption
    refine OutKeeps.ite ?_ ?_
    apply OutKeeps.next
    apply State.regAccErr_keeps
    assumption
    apply OutKeeps.next
    apply State.writeReg_keeps
    assumption

theorem State.passTime_keeps {z : State} {s : State} (hz : Keeps z s) :
    OutKeeps z (State.passTime s) := by
  unfold State.passTime
  with_reducible
    refine OutKeeps.ite ?_ ?_
    apply OutKeeps.next
    apply State.tickOver_keeps
    assumption
    split
    apply OutKeeps.next
    apply State.tickOver_keeps
    assumption
    apply execRIND_SLIP_keeps
    (simp -zeta only [mk_keeps_iff]; apply KeptParts.fold)
    assumption
    apply execREGISTER_WRITE_keeps
    (simp -zeta only [mk_keeps_iff]; apply KeptParts.fold)
    assumption

end Sys2Proof.Machine
end

