-- ==== Sys2Proof/Laws/State.lean ====
section
/-!
SUPPORT. What each plain update of State leaves alone: one lemma per update and field, and the reads after each write.
-/

namespace Sys2Proof.Machine


/-! ## setReg -/

@[simp] theorem State.setReg_pending (s : State) (a : Nat) (w : Word) : (s.setReg a w).pending = s.pending := rfl
@[simp] theorem State.setReg_ready (s : State) (a : Nat) (w : Word) : (s.setReg a w).ready = s.ready := rfl
@[simp] theorem State.setReg_held (s : State) (a : Nat) (w : Word) : (s.setReg a w).held = s.held := rfl
@[simp] theorem State.setReg_outbox (s : State) (a : Nat) (w : Word) : (s.setReg a w).outbox = s.outbox := rfl
@[simp] theorem State.setReg_tick (s : State) (a : Nat) (w : Word) : (s.setReg a w).tick = s.tick := rfl
@[simp] theorem State.setReg_freeCtr (s : State) (a : Nat) (w : Word) : (s.setReg a w).freeCtr = s.freeCtr := rfl
@[simp] theorem State.setReg_provCtr (s : State) (a : Nat) (w : Word) : (s.setReg a w).provCtr = s.provCtr := rfl
@[simp] theorem State.setReg_slips (s : State) (a : Nat) (w : Word) : (s.setReg a w).slips = s.slips := rfl
@[simp] theorem State.setReg_versions (s : State) (a : Nat) (w : Word) : (s.setReg a w).versions = s.versions := rfl
@[simp] theorem State.setReg_qps (s : State) (a : Nat) (w : Word) : (s.setReg a w).qps = s.qps := rfl
@[simp] theorem State.setReg_mgmt (s : State) (a : Nat) (w : Word) : (s.setReg a w).mgmt = s.mgmt := rfl
@[simp] theorem State.setReg_sessions (s : State) (a : Nat) (w : Word) : (s.setReg a w).sessions = s.sessions := rfl
@[simp] theorem State.setReg_tenants (s : State) (a : Nat) (w : Word) : (s.setReg a w).tenants = s.tenants := rfl
@[simp] theorem State.setReg_rings (s : State) (a : Nat) (w : Word) : (s.setReg a w).rings = s.rings := rfl
@[simp] theorem State.setReg_sched (s : State) (a : Nat) (w : Word) : (s.setReg a w).sched = s.sched := rfl
@[simp] theorem State.setReg_fuses (s : State) (a : Nat) (w : Word) : (s.setReg a w).fuses = s.fuses := rfl
@[simp] theorem State.setReg_profile (s : State) (a : Nat) (w : Word) : (s.setReg a w).profile = s.profile := rfl
@[simp] theorem State.setReg_text (s : State) (a : Nat) (w : Word) : (s.setReg a w).text = s.text := rfl
@[simp] theorem State.setReg_entryGens (s : State) (a : Nat) (w : Word) : (s.setReg a w).entryGens = s.entryGens := rfl
@[simp] theorem State.setReg_preempting (s : State) (a : Nat) (w : Word) : (s.setReg a w).preempting = s.preempting := rfl
@[simp] theorem State.setReg_slots (s : State) (a : Nat) (w : Word) : (s.setReg a w).slots = s.slots := rfl
@[simp] theorem State.setReg_gens (s : State) (a : Nat) (w : Word) : (s.setReg a w).gens = s.gens := rfl
@[simp] theorem State.setReg_hbm (s : State) (a : Nat) (w : Word) : (s.setReg a w).hbm = s.hbm := rfl
@[simp] theorem State.setReg_cellar (s : State) (a : Nat) (w : Word) : (s.setReg a w).cellar = s.cellar := rfl
@[simp] theorem State.setReg_reserved (s : State) (a : Nat) (w : Word) : (s.setReg a w).reserved = s.reserved := rfl
@[simp] theorem State.setReg_pool (s : State) (a : Nat) (w : Word) : (s.setReg a w).pool = s.pool := rfl
@[simp] theorem State.setReg_hostRegions (s : State) (a : Nat) (w : Word) : (s.setReg a w).hostRegions = s.hostRegions := rfl
@[simp] theorem State.setReg_shelf (s : State) (a : Nat) (w : Word) : (s.setReg a w).shelf = s.shelf := rfl
@[simp] theorem State.setReg_commits (s : State) (a : Nat) (w : Word) : (s.setReg a w).commits = s.commits := rfl
@[simp] theorem State.setReg_revives (s : State) (a : Nat) (w : Word) : (s.setReg a w).revives = s.revives := rfl
@[simp] theorem State.setReg_moves (s : State) (a : Nat) (w : Word) : (s.setReg a w).moves = s.moves := rfl
@[simp] theorem State.setReg_peers (s : State) (a : Nat) (w : Word) : (s.setReg a w).peers = s.peers := rfl
@[simp] theorem State.setReg_ports (s : State) (a : Nat) (w : Word) : (s.setReg a w).ports = s.ports := rfl
@[simp] theorem State.setReg_spray (s : State) (a : Nat) (w : Word) : (s.setReg a w).spray = s.spray := rfl
@[simp] theorem State.setReg_nextTag (s : State) (a : Nat) (w : Word) : (s.setReg a w).nextTag = s.nextTag := rfl
@[simp] theorem State.setReg_host (s : State) (a : Nat) (w : Word) : (s.setReg a w).host = s.host := rfl
@[simp] theorem State.setReg_ringVec (s : State) (a : Nat) (w : Word) : (s.setReg a w).ringVec = s.ringVec := rfl
@[simp] theorem State.setReg_ringOwed (s : State) (a : Nat) (w : Word) : (s.setReg a w).ringOwed = s.ringOwed := rfl
@[simp] theorem State.setReg_cat (s : State) (a : Nat) (w : Word) : (s.setReg a w).cat = s.cat := rfl
@[simp] theorem State.setReg_membership (s : State) (a : Nat) (w : Word) : (s.setReg a w).membership = s.membership := rfl
@[simp] theorem State.setReg_principals (s : State) (a : Nat) (w : Word) : (s.setReg a w).principals = s.principals := rfl
@[simp] theorem State.setReg_errs (s : State) (a : Nat) (w : Word) : (s.setReg a w).errs = s.errs := rfl
@[simp] theorem State.setReg_trace (s : State) (a : Nat) (w : Word) : (s.setReg a w).trace = s.trace := rfl
@[simp] theorem State.setReg_scans (s : State) (a : Nat) (w : Word) : (s.setReg a w).scans = s.scans := rfl
@[simp] theorem State.setReg_scanning (s : State) (a : Nat) (w : Word) : (s.setReg a w).scanning = s.scanning := rfl
@[simp] theorem State.setReg_shapers (s : State) (a : Nat) (w : Word) : (s.setReg a w).shapers = s.shapers := rfl
@[simp] theorem State.setReg_hists (s : State) (a : Nat) (w : Word) : (s.setReg a w).hists = s.hists := rfl
@[simp] theorem State.setReg_histSamples (s : State) (a : Nat) (w : Word) : (s.setReg a w).histSamples = s.histSamples := rfl
@[simp] theorem State.setReg_histBase (s : State) (a : Nat) (w : Word) : (s.setReg a w).histBase = s.histBase := rfl
@[simp] theorem State.setReg_steps (s : State) (a : Nat) (w : Word) : (s.setReg a w).steps = s.steps := rfl
@[simp] theorem State.setReg_nextStep (s : State) (a : Nat) (w : Word) : (s.setReg a w).nextStep = s.nextStep := rfl
@[simp] theorem State.setReg_prefills (s : State) (a : Nat) (w : Word) : (s.setReg a w).prefills = s.prefills := rfl
@[simp] theorem State.setReg_mes (s : State) (a : Nat) (w : Word) : (s.setReg a w).mes = s.mes := rfl
@[simp] theorem State.setReg_tiles (s : State) (a : Nat) (w : Word) : (s.setReg a w).tiles = s.tiles := rfl
@[simp] theorem State.setReg_meShort (s : State) (a : Nat) (w : Word) : (s.setReg a w).meShort = s.meShort := rfl
@[simp] theorem State.setReg_targetSet (s : State) (a : Nat) (w : Word) : (s.setReg a w).targetSet = s.targetSet := rfl
@[simp] theorem State.setReg_nbus (s : State) (a : Nat) (w : Word) : (s.setReg a w).nbus = s.nbus := rfl
@[simp] theorem State.setReg_dieTab (s : State) (a : Nat) (w : Word) : (s.setReg a w).dieTab = s.dieTab := rfl
@[simp] theorem State.setReg_shards (s : State) (a : Nat) (w : Word) : (s.setReg a w).shards = s.shards := rfl
@[simp] theorem State.setReg_vecBlocks (s : State) (a : Nat) (w : Word) : (s.setReg a w).vecBlocks = s.vecBlocks := rfl
@[simp] theorem State.setReg_searches (s : State) (a : Nat) (w : Word) : (s.setReg a w).searches = s.searches := rfl
@[simp] theorem State.setReg_nextReq (s : State) (a : Nat) (w : Word) : (s.setReg a w).nextReq = s.nextReq := rfl
@[simp] theorem State.setReg_locks (s : State) (a : Nat) (w : Word) : (s.setReg a w).locks = s.locks := rfl
@[simp] theorem State.setReg_nextLock (s : State) (a : Nat) (w : Word) : (s.setReg a w).nextLock = s.nextLock := rfl
@[simp] theorem State.setReg_ckpt (s : State) (a : Nat) (w : Word) : (s.setReg a w).ckpt = s.ckpt := rfl
@[simp] theorem State.setReg_genFloor (s : State) (a : Nat) (w : Word) : (s.setReg a w).genFloor = s.genFloor := rfl
@[simp] theorem State.setReg_genBase (s : State) (a : Nat) (w : Word) : (s.setReg a w).genBase = s.genBase := rfl
@[simp] theorem State.setReg_floorBusy (s : State) (a : Nat) (w : Word) : (s.setReg a w).floorBusy = s.floorBusy := rfl
@[simp] theorem State.setReg_sec (s : State) (a : Nat) (w : Word) : (s.setReg a w).sec = s.sec := rfl
@[simp] theorem State.setReg_flash (s : State) (a : Nat) (w : Word) : (s.setReg a w).flash = s.flash := rfl
@[simp] theorem State.setReg_boot (s : State) (a : Nat) (w : Word) : (s.setReg a w).boot = s.boot := rfl

/-! ## setFld -/

@[simp] theorem State.setFld_pending (s : State) (f : Fld) (v : Nat) : (s.setFld f v).pending = s.pending := rfl
@[simp] theorem State.setFld_ready (s : State) (f : Fld) (v : Nat) : (s.setFld f v).ready = s.ready := rfl
@[simp] theorem State.setFld_held (s : State) (f : Fld) (v : Nat) : (s.setFld f v).held = s.held := rfl
@[simp] theorem State.setFld_outbox (s : State) (f : Fld) (v : Nat) : (s.setFld f v).outbox = s.outbox := rfl
@[simp] theorem State.setFld_tick (s : State) (f : Fld) (v : Nat) : (s.setFld f v).tick = s.tick := rfl
@[simp] theorem State.setFld_freeCtr (s : State) (f : Fld) (v : Nat) : (s.setFld f v).freeCtr = s.freeCtr := rfl
@[simp] theorem State.setFld_provCtr (s : State) (f : Fld) (v : Nat) : (s.setFld f v).provCtr = s.provCtr := rfl
@[simp] theorem State.setFld_slips (s : State) (f : Fld) (v : Nat) : (s.setFld f v).slips = s.slips := rfl
@[simp] theorem State.setFld_versions (s : State) (f : Fld) (v : Nat) : (s.setFld f v).versions = s.versions := rfl
@[simp] theorem State.setFld_qps (s : State) (f : Fld) (v : Nat) : (s.setFld f v).qps = s.qps := rfl
@[simp] theorem State.setFld_mgmt (s : State) (f : Fld) (v : Nat) : (s.setFld f v).mgmt = s.mgmt := rfl
@[simp] theorem State.setFld_sessions (s : State) (f : Fld) (v : Nat) : (s.setFld f v).sessions = s.sessions := rfl
@[simp] theorem State.setFld_tenants (s : State) (f : Fld) (v : Nat) : (s.setFld f v).tenants = s.tenants := rfl
@[simp] theorem State.setFld_rings (s : State) (f : Fld) (v : Nat) : (s.setFld f v).rings = s.rings := rfl
@[simp] theorem State.setFld_sched (s : State) (f : Fld) (v : Nat) : (s.setFld f v).sched = s.sched := rfl
@[simp] theorem State.setFld_fuses (s : State) (f : Fld) (v : Nat) : (s.setFld f v).fuses = s.fuses := rfl
@[simp] theorem State.setFld_profile (s : State) (f : Fld) (v : Nat) : (s.setFld f v).profile = s.profile := rfl
@[simp] theorem State.setFld_text (s : State) (f : Fld) (v : Nat) : (s.setFld f v).text = s.text := rfl
@[simp] theorem State.setFld_entryGens (s : State) (f : Fld) (v : Nat) : (s.setFld f v).entryGens = s.entryGens := rfl
@[simp] theorem State.setFld_preempting (s : State) (f : Fld) (v : Nat) : (s.setFld f v).preempting = s.preempting := rfl
@[simp] theorem State.setFld_slots (s : State) (f : Fld) (v : Nat) : (s.setFld f v).slots = s.slots := rfl
@[simp] theorem State.setFld_gens (s : State) (f : Fld) (v : Nat) : (s.setFld f v).gens = s.gens := rfl
@[simp] theorem State.setFld_hbm (s : State) (f : Fld) (v : Nat) : (s.setFld f v).hbm = s.hbm := rfl
@[simp] theorem State.setFld_cellar (s : State) (f : Fld) (v : Nat) : (s.setFld f v).cellar = s.cellar := rfl
@[simp] theorem State.setFld_reserved (s : State) (f : Fld) (v : Nat) : (s.setFld f v).reserved = s.reserved := rfl
@[simp] theorem State.setFld_pool (s : State) (f : Fld) (v : Nat) : (s.setFld f v).pool = s.pool := rfl
@[simp] theorem State.setFld_hostRegions (s : State) (f : Fld) (v : Nat) : (s.setFld f v).hostRegions = s.hostRegions := rfl
@[simp] theorem State.setFld_shelf (s : State) (f : Fld) (v : Nat) : (s.setFld f v).shelf = s.shelf := rfl
@[simp] theorem State.setFld_commits (s : State) (f : Fld) (v : Nat) : (s.setFld f v).commits = s.commits := rfl
@[simp] theorem State.setFld_revives (s : State) (f : Fld) (v : Nat) : (s.setFld f v).revives = s.revives := rfl
@[simp] theorem State.setFld_moves (s : State) (f : Fld) (v : Nat) : (s.setFld f v).moves = s.moves := rfl
@[simp] theorem State.setFld_peers (s : State) (f : Fld) (v : Nat) : (s.setFld f v).peers = s.peers := rfl
@[simp] theorem State.setFld_ports (s : State) (f : Fld) (v : Nat) : (s.setFld f v).ports = s.ports := rfl
@[simp] theorem State.setFld_spray (s : State) (f : Fld) (v : Nat) : (s.setFld f v).spray = s.spray := rfl
@[simp] theorem State.setFld_nextTag (s : State) (f : Fld) (v : Nat) : (s.setFld f v).nextTag = s.nextTag := rfl
@[simp] theorem State.setFld_host (s : State) (f : Fld) (v : Nat) : (s.setFld f v).host = s.host := rfl
@[simp] theorem State.setFld_ringVec (s : State) (f : Fld) (v : Nat) : (s.setFld f v).ringVec = s.ringVec := rfl
@[simp] theorem State.setFld_ringOwed (s : State) (f : Fld) (v : Nat) : (s.setFld f v).ringOwed = s.ringOwed := rfl
@[simp] theorem State.setFld_cat (s : State) (f : Fld) (v : Nat) : (s.setFld f v).cat = s.cat := rfl
@[simp] theorem State.setFld_membership (s : State) (f : Fld) (v : Nat) : (s.setFld f v).membership = s.membership := rfl
@[simp] theorem State.setFld_principals (s : State) (f : Fld) (v : Nat) : (s.setFld f v).principals = s.principals := rfl
@[simp] theorem State.setFld_errs (s : State) (f : Fld) (v : Nat) : (s.setFld f v).errs = s.errs := rfl
@[simp] theorem State.setFld_trace (s : State) (f : Fld) (v : Nat) : (s.setFld f v).trace = s.trace := rfl
@[simp] theorem State.setFld_scans (s : State) (f : Fld) (v : Nat) : (s.setFld f v).scans = s.scans := rfl
@[simp] theorem State.setFld_scanning (s : State) (f : Fld) (v : Nat) : (s.setFld f v).scanning = s.scanning := rfl
@[simp] theorem State.setFld_shapers (s : State) (f : Fld) (v : Nat) : (s.setFld f v).shapers = s.shapers := rfl
@[simp] theorem State.setFld_hists (s : State) (f : Fld) (v : Nat) : (s.setFld f v).hists = s.hists := rfl
@[simp] theorem State.setFld_histSamples (s : State) (f : Fld) (v : Nat) : (s.setFld f v).histSamples = s.histSamples := rfl
@[simp] theorem State.setFld_histBase (s : State) (f : Fld) (v : Nat) : (s.setFld f v).histBase = s.histBase := rfl
@[simp] theorem State.setFld_steps (s : State) (f : Fld) (v : Nat) : (s.setFld f v).steps = s.steps := rfl
@[simp] theorem State.setFld_nextStep (s : State) (f : Fld) (v : Nat) : (s.setFld f v).nextStep = s.nextStep := rfl
@[simp] theorem State.setFld_prefills (s : State) (f : Fld) (v : Nat) : (s.setFld f v).prefills = s.prefills := rfl
@[simp] theorem State.setFld_mes (s : State) (f : Fld) (v : Nat) : (s.setFld f v).mes = s.mes := rfl
@[simp] theorem State.setFld_tiles (s : State) (f : Fld) (v : Nat) : (s.setFld f v).tiles = s.tiles := rfl
@[simp] theorem State.setFld_meShort (s : State) (f : Fld) (v : Nat) : (s.setFld f v).meShort = s.meShort := rfl
@[simp] theorem State.setFld_targetSet (s : State) (f : Fld) (v : Nat) : (s.setFld f v).targetSet = s.targetSet := rfl
@[simp] theorem State.setFld_nbus (s : State) (f : Fld) (v : Nat) : (s.setFld f v).nbus = s.nbus := rfl
@[simp] theorem State.setFld_dieTab (s : State) (f : Fld) (v : Nat) : (s.setFld f v).dieTab = s.dieTab := rfl
@[simp] theorem State.setFld_shards (s : State) (f : Fld) (v : Nat) : (s.setFld f v).shards = s.shards := rfl
@[simp] theorem State.setFld_vecBlocks (s : State) (f : Fld) (v : Nat) : (s.setFld f v).vecBlocks = s.vecBlocks := rfl
@[simp] theorem State.setFld_searches (s : State) (f : Fld) (v : Nat) : (s.setFld f v).searches = s.searches := rfl
@[simp] theorem State.setFld_nextReq (s : State) (f : Fld) (v : Nat) : (s.setFld f v).nextReq = s.nextReq := rfl
@[simp] theorem State.setFld_locks (s : State) (f : Fld) (v : Nat) : (s.setFld f v).locks = s.locks := rfl
@[simp] theorem State.setFld_nextLock (s : State) (f : Fld) (v : Nat) : (s.setFld f v).nextLock = s.nextLock := rfl
@[simp] theorem State.setFld_ckpt (s : State) (f : Fld) (v : Nat) : (s.setFld f v).ckpt = s.ckpt := rfl
@[simp] theorem State.setFld_genFloor (s : State) (f : Fld) (v : Nat) : (s.setFld f v).genFloor = s.genFloor := rfl
@[simp] theorem State.setFld_genBase (s : State) (f : Fld) (v : Nat) : (s.setFld f v).genBase = s.genBase := rfl
@[simp] theorem State.setFld_floorBusy (s : State) (f : Fld) (v : Nat) : (s.setFld f v).floorBusy = s.floorBusy := rfl
@[simp] theorem State.setFld_sec (s : State) (f : Fld) (v : Nat) : (s.setFld f v).sec = s.sec := rfl
@[simp] theorem State.setFld_flash (s : State) (f : Fld) (v : Nat) : (s.setFld f v).flash = s.flash := rfl
@[simp] theorem State.setFld_boot (s : State) (f : Fld) (v : Nat) : (s.setFld f v).boot = s.boot := rfl

/-! ## bumpBy -/

@[simp] theorem State.bumpBy_pending (s : State) (f : Fld) (n : Nat) : (s.bumpBy f n).pending = s.pending := rfl
@[simp] theorem State.bumpBy_ready (s : State) (f : Fld) (n : Nat) : (s.bumpBy f n).ready = s.ready := rfl
@[simp] theorem State.bumpBy_held (s : State) (f : Fld) (n : Nat) : (s.bumpBy f n).held = s.held := rfl
@[simp] theorem State.bumpBy_outbox (s : State) (f : Fld) (n : Nat) : (s.bumpBy f n).outbox = s.outbox := rfl
@[simp] theorem State.bumpBy_tick (s : State) (f : Fld) (n : Nat) : (s.bumpBy f n).tick = s.tick := rfl
@[simp] theorem State.bumpBy_freeCtr (s : State) (f : Fld) (n : Nat) : (s.bumpBy f n).freeCtr = s.freeCtr := rfl
@[simp] theorem State.bumpBy_provCtr (s : State) (f : Fld) (n : Nat) : (s.bumpBy f n).provCtr = s.provCtr := rfl
@[simp] theorem State.bumpBy_slips (s : State) (f : Fld) (n : Nat) : (s.bumpBy f n).slips = s.slips := rfl
@[simp] theorem State.bumpBy_versions (s : State) (f : Fld) (n : Nat) : (s.bumpBy f n).versions = s.versions := rfl
@[simp] theorem State.bumpBy_qps (s : State) (f : Fld) (n : Nat) : (s.bumpBy f n).qps = s.qps := rfl
@[simp] theorem State.bumpBy_mgmt (s : State) (f : Fld) (n : Nat) : (s.bumpBy f n).mgmt = s.mgmt := rfl
@[simp] theorem State.bumpBy_sessions (s : State) (f : Fld) (n : Nat) : (s.bumpBy f n).sessions = s.sessions := rfl
@[simp] theorem State.bumpBy_tenants (s : State) (f : Fld) (n : Nat) : (s.bumpBy f n).tenants = s.tenants := rfl
@[simp] theorem State.bumpBy_rings (s : State) (f : Fld) (n : Nat) : (s.bumpBy f n).rings = s.rings := rfl
@[simp] theorem State.bumpBy_sched (s : State) (f : Fld) (n : Nat) : (s.bumpBy f n).sched = s.sched := rfl
@[simp] theorem State.bumpBy_fuses (s : State) (f : Fld) (n : Nat) : (s.bumpBy f n).fuses = s.fuses := rfl
@[simp] theorem State.bumpBy_profile (s : State) (f : Fld) (n : Nat) : (s.bumpBy f n).profile = s.profile := rfl
@[simp] theorem State.bumpBy_text (s : State) (f : Fld) (n : Nat) : (s.bumpBy f n).text = s.text := rfl
@[simp] theorem State.bumpBy_entryGens (s : State) (f : Fld) (n : Nat) : (s.bumpBy f n).entryGens = s.entryGens := rfl
@[simp] theorem State.bumpBy_preempting (s : State) (f : Fld) (n : Nat) : (s.bumpBy f n).preempting = s.preempting := rfl
@[simp] theorem State.bumpBy_slots (s : State) (f : Fld) (n : Nat) : (s.bumpBy f n).slots = s.slots := rfl
@[simp] theorem State.bumpBy_gens (s : State) (f : Fld) (n : Nat) : (s.bumpBy f n).gens = s.gens := rfl
@[simp] theorem State.bumpBy_hbm (s : State) (f : Fld) (n : Nat) : (s.bumpBy f n).hbm = s.hbm := rfl
@[simp] theorem State.bumpBy_cellar (s : State) (f : Fld) (n : Nat) : (s.bumpBy f n).cellar = s.cellar := rfl
@[simp] theorem State.bumpBy_reserved (s : State) (f : Fld) (n : Nat) : (s.bumpBy f n).reserved = s.reserved := rfl
@[simp] theorem State.bumpBy_pool (s : State) (f : Fld) (n : Nat) : (s.bumpBy f n).pool = s.pool := rfl
@[simp] theorem State.bumpBy_hostRegions (s : State) (f : Fld) (n : Nat) : (s.bumpBy f n).hostRegions = s.hostRegions := rfl
@[simp] theorem State.bumpBy_shelf (s : State) (f : Fld) (n : Nat) : (s.bumpBy f n).shelf = s.shelf := rfl
@[simp] theorem State.bumpBy_commits (s : State) (f : Fld) (n : Nat) : (s.bumpBy f n).commits = s.commits := rfl
@[simp] theorem State.bumpBy_revives (s : State) (f : Fld) (n : Nat) : (s.bumpBy f n).revives = s.revives := rfl
@[simp] theorem State.bumpBy_moves (s : State) (f : Fld) (n : Nat) : (s.bumpBy f n).moves = s.moves := rfl
@[simp] theorem State.bumpBy_peers (s : State) (f : Fld) (n : Nat) : (s.bumpBy f n).peers = s.peers := rfl
@[simp] theorem State.bumpBy_ports (s : State) (f : Fld) (n : Nat) : (s.bumpBy f n).ports = s.ports := rfl
@[simp] theorem State.bumpBy_spray (s : State) (f : Fld) (n : Nat) : (s.bumpBy f n).spray = s.spray := rfl
@[simp] theorem State.bumpBy_nextTag (s : State) (f : Fld) (n : Nat) : (s.bumpBy f n).nextTag = s.nextTag := rfl
@[simp] theorem State.bumpBy_host (s : State) (f : Fld) (n : Nat) : (s.bumpBy f n).host = s.host := rfl
@[simp] theorem State.bumpBy_ringVec (s : State) (f : Fld) (n : Nat) : (s.bumpBy f n).ringVec = s.ringVec := rfl
@[simp] theorem State.bumpBy_ringOwed (s : State) (f : Fld) (n : Nat) : (s.bumpBy f n).ringOwed = s.ringOwed := rfl
@[simp] theorem State.bumpBy_cat (s : State) (f : Fld) (n : Nat) : (s.bumpBy f n).cat = s.cat := rfl
@[simp] theorem State.bumpBy_membership (s : State) (f : Fld) (n : Nat) : (s.bumpBy f n).membership = s.membership := rfl
@[simp] theorem State.bumpBy_principals (s : State) (f : Fld) (n : Nat) : (s.bumpBy f n).principals = s.principals := rfl
@[simp] theorem State.bumpBy_errs (s : State) (f : Fld) (n : Nat) : (s.bumpBy f n).errs = s.errs := rfl
@[simp] theorem State.bumpBy_trace (s : State) (f : Fld) (n : Nat) : (s.bumpBy f n).trace = s.trace := rfl
@[simp] theorem State.bumpBy_scans (s : State) (f : Fld) (n : Nat) : (s.bumpBy f n).scans = s.scans := rfl
@[simp] theorem State.bumpBy_scanning (s : State) (f : Fld) (n : Nat) : (s.bumpBy f n).scanning = s.scanning := rfl
@[simp] theorem State.bumpBy_shapers (s : State) (f : Fld) (n : Nat) : (s.bumpBy f n).shapers = s.shapers := rfl
@[simp] theorem State.bumpBy_hists (s : State) (f : Fld) (n : Nat) : (s.bumpBy f n).hists = s.hists := rfl
@[simp] theorem State.bumpBy_histSamples (s : State) (f : Fld) (n : Nat) : (s.bumpBy f n).histSamples = s.histSamples := rfl
@[simp] theorem State.bumpBy_histBase (s : State) (f : Fld) (n : Nat) : (s.bumpBy f n).histBase = s.histBase := rfl
@[simp] theorem State.bumpBy_steps (s : State) (f : Fld) (n : Nat) : (s.bumpBy f n).steps = s.steps := rfl
@[simp] theorem State.bumpBy_nextStep (s : State) (f : Fld) (n : Nat) : (s.bumpBy f n).nextStep = s.nextStep := rfl
@[simp] theorem State.bumpBy_prefills (s : State) (f : Fld) (n : Nat) : (s.bumpBy f n).prefills = s.prefills := rfl
@[simp] theorem State.bumpBy_mes (s : State) (f : Fld) (n : Nat) : (s.bumpBy f n).mes = s.mes := rfl
@[simp] theorem State.bumpBy_tiles (s : State) (f : Fld) (n : Nat) : (s.bumpBy f n).tiles = s.tiles := rfl
@[simp] theorem State.bumpBy_meShort (s : State) (f : Fld) (n : Nat) : (s.bumpBy f n).meShort = s.meShort := rfl
@[simp] theorem State.bumpBy_targetSet (s : State) (f : Fld) (n : Nat) : (s.bumpBy f n).targetSet = s.targetSet := rfl
@[simp] theorem State.bumpBy_nbus (s : State) (f : Fld) (n : Nat) : (s.bumpBy f n).nbus = s.nbus := rfl
@[simp] theorem State.bumpBy_dieTab (s : State) (f : Fld) (n : Nat) : (s.bumpBy f n).dieTab = s.dieTab := rfl
@[simp] theorem State.bumpBy_shards (s : State) (f : Fld) (n : Nat) : (s.bumpBy f n).shards = s.shards := rfl
@[simp] theorem State.bumpBy_vecBlocks (s : State) (f : Fld) (n : Nat) : (s.bumpBy f n).vecBlocks = s.vecBlocks := rfl
@[simp] theorem State.bumpBy_searches (s : State) (f : Fld) (n : Nat) : (s.bumpBy f n).searches = s.searches := rfl
@[simp] theorem State.bumpBy_nextReq (s : State) (f : Fld) (n : Nat) : (s.bumpBy f n).nextReq = s.nextReq := rfl
@[simp] theorem State.bumpBy_locks (s : State) (f : Fld) (n : Nat) : (s.bumpBy f n).locks = s.locks := rfl
@[simp] theorem State.bumpBy_nextLock (s : State) (f : Fld) (n : Nat) : (s.bumpBy f n).nextLock = s.nextLock := rfl
@[simp] theorem State.bumpBy_ckpt (s : State) (f : Fld) (n : Nat) : (s.bumpBy f n).ckpt = s.ckpt := rfl
@[simp] theorem State.bumpBy_genFloor (s : State) (f : Fld) (n : Nat) : (s.bumpBy f n).genFloor = s.genFloor := rfl
@[simp] theorem State.bumpBy_genBase (s : State) (f : Fld) (n : Nat) : (s.bumpBy f n).genBase = s.genBase := rfl
@[simp] theorem State.bumpBy_floorBusy (s : State) (f : Fld) (n : Nat) : (s.bumpBy f n).floorBusy = s.floorBusy := rfl
@[simp] theorem State.bumpBy_sec (s : State) (f : Fld) (n : Nat) : (s.bumpBy f n).sec = s.sec := rfl
@[simp] theorem State.bumpBy_flash (s : State) (f : Fld) (n : Nat) : (s.bumpBy f n).flash = s.flash := rfl
@[simp] theorem State.bumpBy_boot (s : State) (f : Fld) (n : Nat) : (s.bumpBy f n).boot = s.boot := rfl

/-! ## bump -/

@[simp] theorem State.bump_pending (s : State) (f : Fld) : (s.bump f).pending = s.pending := rfl
@[simp] theorem State.bump_ready (s : State) (f : Fld) : (s.bump f).ready = s.ready := rfl
@[simp] theorem State.bump_held (s : State) (f : Fld) : (s.bump f).held = s.held := rfl
@[simp] theorem State.bump_outbox (s : State) (f : Fld) : (s.bump f).outbox = s.outbox := rfl
@[simp] theorem State.bump_tick (s : State) (f : Fld) : (s.bump f).tick = s.tick := rfl
@[simp] theorem State.bump_freeCtr (s : State) (f : Fld) : (s.bump f).freeCtr = s.freeCtr := rfl
@[simp] theorem State.bump_provCtr (s : State) (f : Fld) : (s.bump f).provCtr = s.provCtr := rfl
@[simp] theorem State.bump_slips (s : State) (f : Fld) : (s.bump f).slips = s.slips := rfl
@[simp] theorem State.bump_versions (s : State) (f : Fld) : (s.bump f).versions = s.versions := rfl
@[simp] theorem State.bump_qps (s : State) (f : Fld) : (s.bump f).qps = s.qps := rfl
@[simp] theorem State.bump_mgmt (s : State) (f : Fld) : (s.bump f).mgmt = s.mgmt := rfl
@[simp] theorem State.bump_sessions (s : State) (f : Fld) : (s.bump f).sessions = s.sessions := rfl
@[simp] theorem State.bump_tenants (s : State) (f : Fld) : (s.bump f).tenants = s.tenants := rfl
@[simp] theorem State.bump_rings (s : State) (f : Fld) : (s.bump f).rings = s.rings := rfl
@[simp] theorem State.bump_sched (s : State) (f : Fld) : (s.bump f).sched = s.sched := rfl
@[simp] theorem State.bump_fuses (s : State) (f : Fld) : (s.bump f).fuses = s.fuses := rfl
@[simp] theorem State.bump_profile (s : State) (f : Fld) : (s.bump f).profile = s.profile := rfl
@[simp] theorem State.bump_text (s : State) (f : Fld) : (s.bump f).text = s.text := rfl
@[simp] theorem State.bump_entryGens (s : State) (f : Fld) : (s.bump f).entryGens = s.entryGens := rfl
@[simp] theorem State.bump_preempting (s : State) (f : Fld) : (s.bump f).preempting = s.preempting := rfl
@[simp] theorem State.bump_slots (s : State) (f : Fld) : (s.bump f).slots = s.slots := rfl
@[simp] theorem State.bump_gens (s : State) (f : Fld) : (s.bump f).gens = s.gens := rfl
@[simp] theorem State.bump_hbm (s : State) (f : Fld) : (s.bump f).hbm = s.hbm := rfl
@[simp] theorem State.bump_cellar (s : State) (f : Fld) : (s.bump f).cellar = s.cellar := rfl
@[simp] theorem State.bump_reserved (s : State) (f : Fld) : (s.bump f).reserved = s.reserved := rfl
@[simp] theorem State.bump_pool (s : State) (f : Fld) : (s.bump f).pool = s.pool := rfl
@[simp] theorem State.bump_hostRegions (s : State) (f : Fld) : (s.bump f).hostRegions = s.hostRegions := rfl
@[simp] theorem State.bump_shelf (s : State) (f : Fld) : (s.bump f).shelf = s.shelf := rfl
@[simp] theorem State.bump_commits (s : State) (f : Fld) : (s.bump f).commits = s.commits := rfl
@[simp] theorem State.bump_revives (s : State) (f : Fld) : (s.bump f).revives = s.revives := rfl
@[simp] theorem State.bump_moves (s : State) (f : Fld) : (s.bump f).moves = s.moves := rfl
@[simp] theorem State.bump_peers (s : State) (f : Fld) : (s.bump f).peers = s.peers := rfl
@[simp] theorem State.bump_ports (s : State) (f : Fld) : (s.bump f).ports = s.ports := rfl
@[simp] theorem State.bump_spray (s : State) (f : Fld) : (s.bump f).spray = s.spray := rfl
@[simp] theorem State.bump_nextTag (s : State) (f : Fld) : (s.bump f).nextTag = s.nextTag := rfl
@[simp] theorem State.bump_host (s : State) (f : Fld) : (s.bump f).host = s.host := rfl
@[simp] theorem State.bump_ringVec (s : State) (f : Fld) : (s.bump f).ringVec = s.ringVec := rfl
@[simp] theorem State.bump_ringOwed (s : State) (f : Fld) : (s.bump f).ringOwed = s.ringOwed := rfl
@[simp] theorem State.bump_cat (s : State) (f : Fld) : (s.bump f).cat = s.cat := rfl
@[simp] theorem State.bump_membership (s : State) (f : Fld) : (s.bump f).membership = s.membership := rfl
@[simp] theorem State.bump_principals (s : State) (f : Fld) : (s.bump f).principals = s.principals := rfl
@[simp] theorem State.bump_errs (s : State) (f : Fld) : (s.bump f).errs = s.errs := rfl
@[simp] theorem State.bump_trace (s : State) (f : Fld) : (s.bump f).trace = s.trace := rfl
@[simp] theorem State.bump_scans (s : State) (f : Fld) : (s.bump f).scans = s.scans := rfl
@[simp] theorem State.bump_scanning (s : State) (f : Fld) : (s.bump f).scanning = s.scanning := rfl
@[simp] theorem State.bump_shapers (s : State) (f : Fld) : (s.bump f).shapers = s.shapers := rfl
@[simp] theorem State.bump_hists (s : State) (f : Fld) : (s.bump f).hists = s.hists := rfl
@[simp] theorem State.bump_histSamples (s : State) (f : Fld) : (s.bump f).histSamples = s.histSamples := rfl
@[simp] theorem State.bump_histBase (s : State) (f : Fld) : (s.bump f).histBase = s.histBase := rfl
@[simp] theorem State.bump_steps (s : State) (f : Fld) : (s.bump f).steps = s.steps := rfl
@[simp] theorem State.bump_nextStep (s : State) (f : Fld) : (s.bump f).nextStep = s.nextStep := rfl
@[simp] theorem State.bump_prefills (s : State) (f : Fld) : (s.bump f).prefills = s.prefills := rfl
@[simp] theorem State.bump_mes (s : State) (f : Fld) : (s.bump f).mes = s.mes := rfl
@[simp] theorem State.bump_tiles (s : State) (f : Fld) : (s.bump f).tiles = s.tiles := rfl
@[simp] theorem State.bump_meShort (s : State) (f : Fld) : (s.bump f).meShort = s.meShort := rfl
@[simp] theorem State.bump_targetSet (s : State) (f : Fld) : (s.bump f).targetSet = s.targetSet := rfl
@[simp] theorem State.bump_nbus (s : State) (f : Fld) : (s.bump f).nbus = s.nbus := rfl
@[simp] theorem State.bump_dieTab (s : State) (f : Fld) : (s.bump f).dieTab = s.dieTab := rfl
@[simp] theorem State.bump_shards (s : State) (f : Fld) : (s.bump f).shards = s.shards := rfl
@[simp] theorem State.bump_vecBlocks (s : State) (f : Fld) : (s.bump f).vecBlocks = s.vecBlocks := rfl
@[simp] theorem State.bump_searches (s : State) (f : Fld) : (s.bump f).searches = s.searches := rfl
@[simp] theorem State.bump_nextReq (s : State) (f : Fld) : (s.bump f).nextReq = s.nextReq := rfl
@[simp] theorem State.bump_locks (s : State) (f : Fld) : (s.bump f).locks = s.locks := rfl
@[simp] theorem State.bump_nextLock (s : State) (f : Fld) : (s.bump f).nextLock = s.nextLock := rfl
@[simp] theorem State.bump_ckpt (s : State) (f : Fld) : (s.bump f).ckpt = s.ckpt := rfl
@[simp] theorem State.bump_genFloor (s : State) (f : Fld) : (s.bump f).genFloor = s.genFloor := rfl
@[simp] theorem State.bump_genBase (s : State) (f : Fld) : (s.bump f).genBase = s.genBase := rfl
@[simp] theorem State.bump_floorBusy (s : State) (f : Fld) : (s.bump f).floorBusy = s.floorBusy := rfl
@[simp] theorem State.bump_sec (s : State) (f : Fld) : (s.bump f).sec = s.sec := rfl
@[simp] theorem State.bump_flash (s : State) (f : Fld) : (s.bump f).flash = s.flash := rfl
@[simp] theorem State.bump_boot (s : State) (f : Fld) : (s.bump f).boot = s.boot := rfl

/-! ## emit -/

@[simp] theorem State.emit_pending (s : State) (o : Out) : (s.emit o).pending = s.pending := rfl
@[simp] theorem State.emit_ready (s : State) (o : Out) : (s.emit o).ready = s.ready := rfl
@[simp] theorem State.emit_held (s : State) (o : Out) : (s.emit o).held = s.held := rfl
@[simp] theorem State.emit_regs (s : State) (o : Out) : (s.emit o).regs = s.regs := rfl
@[simp] theorem State.emit_tick (s : State) (o : Out) : (s.emit o).tick = s.tick := rfl
@[simp] theorem State.emit_freeCtr (s : State) (o : Out) : (s.emit o).freeCtr = s.freeCtr := rfl
@[simp] theorem State.emit_provCtr (s : State) (o : Out) : (s.emit o).provCtr = s.provCtr := rfl
@[simp] theorem State.emit_slips (s : State) (o : Out) : (s.emit o).slips = s.slips := rfl
@[simp] theorem State.emit_versions (s : State) (o : Out) : (s.emit o).versions = s.versions := rfl
@[simp] theorem State.emit_qps (s : State) (o : Out) : (s.emit o).qps = s.qps := rfl
@[simp] theorem State.emit_mgmt (s : State) (o : Out) : (s.emit o).mgmt = s.mgmt := rfl
@[simp] theorem State.emit_sessions (s : State) (o : Out) : (s.emit o).sessions = s.sessions := rfl
@[simp] theorem State.emit_tenants (s : State) (o : Out) : (s.emit o).tenants = s.tenants := rfl
@[simp] theorem State.emit_rings (s : State) (o : Out) : (s.emit o).rings = s.rings := rfl
@[simp] theorem State.emit_sched (s : State) (o : Out) : (s.emit o).sched = s.sched := rfl
@[simp] theorem State.emit_fuses (s : State) (o : Out) : (s.emit o).fuses = s.fuses := rfl
@[simp] theorem State.emit_profile (s : State) (o : Out) : (s.emit o).profile = s.profile := rfl
@[simp] theorem State.emit_text (s : State) (o : Out) : (s.emit o).text = s.text := rfl
@[simp] theorem State.emit_entryGens (s : State) (o : Out) : (s.emit o).entryGens = s.entryGens := rfl
@[simp] theorem State.emit_preempting (s : State) (o : Out) : (s.emit o).preempting = s.preempting := rfl
@[simp] theorem State.emit_slots (s : State) (o : Out) : (s.emit o).slots = s.slots := rfl
@[simp] theorem State.emit_gens (s : State) (o : Out) : (s.emit o).gens = s.gens := rfl
@[simp] theorem State.emit_hbm (s : State) (o : Out) : (s.emit o).hbm = s.hbm := rfl
@[simp] theorem State.emit_cellar (s : State) (o : Out) : (s.emit o).cellar = s.cellar := rfl
@[simp] theorem State.emit_reserved (s : State) (o : Out) : (s.emit o).reserved = s.reserved := rfl
@[simp] theorem State.emit_pool (s : State) (o : Out) : (s.emit o).pool = s.pool := rfl
@[simp] theorem State.emit_hostRegions (s : State) (o : Out) : (s.emit o).hostRegions = s.hostRegions := rfl
@[simp] theorem State.emit_shelf (s : State) (o : Out) : (s.emit o).shelf = s.shelf := rfl
@[simp] theorem State.emit_commits (s : State) (o : Out) : (s.emit o).commits = s.commits := rfl
@[simp] theorem State.emit_revives (s : State) (o : Out) : (s.emit o).revives = s.revives := rfl
@[simp] theorem State.emit_moves (s : State) (o : Out) : (s.emit o).moves = s.moves := rfl
@[simp] theorem State.emit_peers (s : State) (o : Out) : (s.emit o).peers = s.peers := rfl
@[simp] theorem State.emit_ports (s : State) (o : Out) : (s.emit o).ports = s.ports := rfl
@[simp] theorem State.emit_spray (s : State) (o : Out) : (s.emit o).spray = s.spray := rfl
@[simp] theorem State.emit_nextTag (s : State) (o : Out) : (s.emit o).nextTag = s.nextTag := rfl
@[simp] theorem State.emit_host (s : State) (o : Out) : (s.emit o).host = s.host := rfl
@[simp] theorem State.emit_ringVec (s : State) (o : Out) : (s.emit o).ringVec = s.ringVec := rfl
@[simp] theorem State.emit_ringOwed (s : State) (o : Out) : (s.emit o).ringOwed = s.ringOwed := rfl
@[simp] theorem State.emit_cat (s : State) (o : Out) : (s.emit o).cat = s.cat := rfl
@[simp] theorem State.emit_membership (s : State) (o : Out) : (s.emit o).membership = s.membership := rfl
@[simp] theorem State.emit_principals (s : State) (o : Out) : (s.emit o).principals = s.principals := rfl
@[simp] theorem State.emit_errs (s : State) (o : Out) : (s.emit o).errs = s.errs := rfl
@[simp] theorem State.emit_trace (s : State) (o : Out) : (s.emit o).trace = s.trace := rfl
@[simp] theorem State.emit_scans (s : State) (o : Out) : (s.emit o).scans = s.scans := rfl
@[simp] theorem State.emit_scanning (s : State) (o : Out) : (s.emit o).scanning = s.scanning := rfl
@[simp] theorem State.emit_shapers (s : State) (o : Out) : (s.emit o).shapers = s.shapers := rfl
@[simp] theorem State.emit_hists (s : State) (o : Out) : (s.emit o).hists = s.hists := rfl
@[simp] theorem State.emit_histSamples (s : State) (o : Out) : (s.emit o).histSamples = s.histSamples := rfl
@[simp] theorem State.emit_histBase (s : State) (o : Out) : (s.emit o).histBase = s.histBase := rfl
@[simp] theorem State.emit_steps (s : State) (o : Out) : (s.emit o).steps = s.steps := rfl
@[simp] theorem State.emit_nextStep (s : State) (o : Out) : (s.emit o).nextStep = s.nextStep := rfl
@[simp] theorem State.emit_prefills (s : State) (o : Out) : (s.emit o).prefills = s.prefills := rfl
@[simp] theorem State.emit_mes (s : State) (o : Out) : (s.emit o).mes = s.mes := rfl
@[simp] theorem State.emit_tiles (s : State) (o : Out) : (s.emit o).tiles = s.tiles := rfl
@[simp] theorem State.emit_meShort (s : State) (o : Out) : (s.emit o).meShort = s.meShort := rfl
@[simp] theorem State.emit_targetSet (s : State) (o : Out) : (s.emit o).targetSet = s.targetSet := rfl
@[simp] theorem State.emit_nbus (s : State) (o : Out) : (s.emit o).nbus = s.nbus := rfl
@[simp] theorem State.emit_dieTab (s : State) (o : Out) : (s.emit o).dieTab = s.dieTab := rfl
@[simp] theorem State.emit_shards (s : State) (o : Out) : (s.emit o).shards = s.shards := rfl
@[simp] theorem State.emit_vecBlocks (s : State) (o : Out) : (s.emit o).vecBlocks = s.vecBlocks := rfl
@[simp] theorem State.emit_searches (s : State) (o : Out) : (s.emit o).searches = s.searches := rfl
@[simp] theorem State.emit_nextReq (s : State) (o : Out) : (s.emit o).nextReq = s.nextReq := rfl
@[simp] theorem State.emit_locks (s : State) (o : Out) : (s.emit o).locks = s.locks := rfl
@[simp] theorem State.emit_nextLock (s : State) (o : Out) : (s.emit o).nextLock = s.nextLock := rfl
@[simp] theorem State.emit_ckpt (s : State) (o : Out) : (s.emit o).ckpt = s.ckpt := rfl
@[simp] theorem State.emit_genFloor (s : State) (o : Out) : (s.emit o).genFloor = s.genFloor := rfl
@[simp] theorem State.emit_genBase (s : State) (o : Out) : (s.emit o).genBase = s.genBase := rfl
@[simp] theorem State.emit_floorBusy (s : State) (o : Out) : (s.emit o).floorBusy = s.floorBusy := rfl
@[simp] theorem State.emit_sec (s : State) (o : Out) : (s.emit o).sec = s.sec := rfl
@[simp] theorem State.emit_flash (s : State) (o : Out) : (s.emit o).flash = s.flash := rfl
@[simp] theorem State.emit_boot (s : State) (o : Out) : (s.emit o).boot = s.boot := rfl
@[simp] theorem State.emit_fld (s : State) (o : Out) (g : Fld) : (s.emit o).fld g = s.fld g := rfl

/-! ## wake -/

@[simp] theorem State.wake_pending (s : State) (i : Todo) : (s.wake i).pending = s.pending := rfl
@[simp] theorem State.wake_held (s : State) (i : Todo) : (s.wake i).held = s.held := rfl
@[simp] theorem State.wake_outbox (s : State) (i : Todo) : (s.wake i).outbox = s.outbox := rfl
@[simp] theorem State.wake_regs (s : State) (i : Todo) : (s.wake i).regs = s.regs := rfl
@[simp] theorem State.wake_tick (s : State) (i : Todo) : (s.wake i).tick = s.tick := rfl
@[simp] theorem State.wake_freeCtr (s : State) (i : Todo) : (s.wake i).freeCtr = s.freeCtr := rfl
@[simp] theorem State.wake_provCtr (s : State) (i : Todo) : (s.wake i).provCtr = s.provCtr := rfl
@[simp] theorem State.wake_slips (s : State) (i : Todo) : (s.wake i).slips = s.slips := rfl
@[simp] theorem State.wake_versions (s : State) (i : Todo) : (s.wake i).versions = s.versions := rfl
@[simp] theorem State.wake_qps (s : State) (i : Todo) : (s.wake i).qps = s.qps := rfl
@[simp] theorem State.wake_mgmt (s : State) (i : Todo) : (s.wake i).mgmt = s.mgmt := rfl
@[simp] theorem State.wake_sessions (s : State) (i : Todo) : (s.wake i).sessions = s.sessions := rfl
@[simp] theorem State.wake_tenants (s : State) (i : Todo) : (s.wake i).tenants = s.tenants := rfl
@[simp] theorem State.wake_rings (s : State) (i : Todo) : (s.wake i).rings = s.rings := rfl
@[simp] theorem State.wake_sched (s : State) (i : Todo) : (s.wake i).sched = s.sched := rfl
@[simp] theorem State.wake_fuses (s : State) (i : Todo) : (s.wake i).fuses = s.fuses := rfl
@[simp] theorem State.wake_profile (s : State) (i : Todo) : (s.wake i).profile = s.profile := rfl
@[simp] theorem State.wake_text (s : State) (i : Todo) : (s.wake i).text = s.text := rfl
@[simp] theorem State.wake_entryGens (s : State) (i : Todo) : (s.wake i).entryGens = s.entryGens := rfl
@[simp] theorem State.wake_preempting (s : State) (i : Todo) : (s.wake i).preempting = s.preempting := rfl
@[simp] theorem State.wake_slots (s : State) (i : Todo) : (s.wake i).slots = s.slots := rfl
@[simp] theorem State.wake_gens (s : State) (i : Todo) : (s.wake i).gens = s.gens := rfl
@[simp] theorem State.wake_hbm (s : State) (i : Todo) : (s.wake i).hbm = s.hbm := rfl
@[simp] theorem State.wake_cellar (s : State) (i : Todo) : (s.wake i).cellar = s.cellar := rfl
@[simp] theorem State.wake_reserved (s : State) (i : Todo) : (s.wake i).reserved = s.reserved := rfl
@[simp] theorem State.wake_pool (s : State) (i : Todo) : (s.wake i).pool = s.pool := rfl
@[simp] theorem State.wake_hostRegions (s : State) (i : Todo) : (s.wake i).hostRegions = s.hostRegions := rfl
@[simp] theorem State.wake_shelf (s : State) (i : Todo) : (s.wake i).shelf = s.shelf := rfl
@[simp] theorem State.wake_commits (s : State) (i : Todo) : (s.wake i).commits = s.commits := rfl
@[simp] theorem State.wake_revives (s : State) (i : Todo) : (s.wake i).revives = s.revives := rfl
@[simp] theorem State.wake_moves (s : State) (i : Todo) : (s.wake i).moves = s.moves := rfl
@[simp] theorem State.wake_peers (s : State) (i : Todo) : (s.wake i).peers = s.peers := rfl
@[simp] theorem State.wake_ports (s : State) (i : Todo) : (s.wake i).ports = s.ports := rfl
@[simp] theorem State.wake_spray (s : State) (i : Todo) : (s.wake i).spray = s.spray := rfl
@[simp] theorem State.wake_nextTag (s : State) (i : Todo) : (s.wake i).nextTag = s.nextTag := rfl
@[simp] theorem State.wake_host (s : State) (i : Todo) : (s.wake i).host = s.host := rfl
@[simp] theorem State.wake_ringVec (s : State) (i : Todo) : (s.wake i).ringVec = s.ringVec := rfl
@[simp] theorem State.wake_ringOwed (s : State) (i : Todo) : (s.wake i).ringOwed = s.ringOwed := rfl
@[simp] theorem State.wake_cat (s : State) (i : Todo) : (s.wake i).cat = s.cat := rfl
@[simp] theorem State.wake_membership (s : State) (i : Todo) : (s.wake i).membership = s.membership := rfl
@[simp] theorem State.wake_principals (s : State) (i : Todo) : (s.wake i).principals = s.principals := rfl
@[simp] theorem State.wake_errs (s : State) (i : Todo) : (s.wake i).errs = s.errs := rfl
@[simp] theorem State.wake_trace (s : State) (i : Todo) : (s.wake i).trace = s.trace := rfl
@[simp] theorem State.wake_scans (s : State) (i : Todo) : (s.wake i).scans = s.scans := rfl
@[simp] theorem State.wake_scanning (s : State) (i : Todo) : (s.wake i).scanning = s.scanning := rfl
@[simp] theorem State.wake_shapers (s : State) (i : Todo) : (s.wake i).shapers = s.shapers := rfl
@[simp] theorem State.wake_hists (s : State) (i : Todo) : (s.wake i).hists = s.hists := rfl
@[simp] theorem State.wake_histSamples (s : State) (i : Todo) : (s.wake i).histSamples = s.histSamples := rfl
@[simp] theorem State.wake_histBase (s : State) (i : Todo) : (s.wake i).histBase = s.histBase := rfl
@[simp] theorem State.wake_steps (s : State) (i : Todo) : (s.wake i).steps = s.steps := rfl
@[simp] theorem State.wake_nextStep (s : State) (i : Todo) : (s.wake i).nextStep = s.nextStep := rfl
@[simp] theorem State.wake_prefills (s : State) (i : Todo) : (s.wake i).prefills = s.prefills := rfl
@[simp] theorem State.wake_mes (s : State) (i : Todo) : (s.wake i).mes = s.mes := rfl
@[simp] theorem State.wake_tiles (s : State) (i : Todo) : (s.wake i).tiles = s.tiles := rfl
@[simp] theorem State.wake_meShort (s : State) (i : Todo) : (s.wake i).meShort = s.meShort := rfl
@[simp] theorem State.wake_targetSet (s : State) (i : Todo) : (s.wake i).targetSet = s.targetSet := rfl
@[simp] theorem State.wake_nbus (s : State) (i : Todo) : (s.wake i).nbus = s.nbus := rfl
@[simp] theorem State.wake_dieTab (s : State) (i : Todo) : (s.wake i).dieTab = s.dieTab := rfl
@[simp] theorem State.wake_shards (s : State) (i : Todo) : (s.wake i).shards = s.shards := rfl
@[simp] theorem State.wake_vecBlocks (s : State) (i : Todo) : (s.wake i).vecBlocks = s.vecBlocks := rfl
@[simp] theorem State.wake_searches (s : State) (i : Todo) : (s.wake i).searches = s.searches := rfl
@[simp] theorem State.wake_nextReq (s : State) (i : Todo) : (s.wake i).nextReq = s.nextReq := rfl
@[simp] theorem State.wake_locks (s : State) (i : Todo) : (s.wake i).locks = s.locks := rfl
@[simp] theorem State.wake_nextLock (s : State) (i : Todo) : (s.wake i).nextLock = s.nextLock := rfl
@[simp] theorem State.wake_ckpt (s : State) (i : Todo) : (s.wake i).ckpt = s.ckpt := rfl
@[simp] theorem State.wake_genFloor (s : State) (i : Todo) : (s.wake i).genFloor = s.genFloor := rfl
@[simp] theorem State.wake_genBase (s : State) (i : Todo) : (s.wake i).genBase = s.genBase := rfl
@[simp] theorem State.wake_floorBusy (s : State) (i : Todo) : (s.wake i).floorBusy = s.floorBusy := rfl
@[simp] theorem State.wake_sec (s : State) (i : Todo) : (s.wake i).sec = s.sec := rfl
@[simp] theorem State.wake_flash (s : State) (i : Todo) : (s.wake i).flash = s.flash := rfl
@[simp] theorem State.wake_boot (s : State) (i : Todo) : (s.wake i).boot = s.boot := rfl
@[simp] theorem State.wake_fld (s : State) (i : Todo) (g : Fld) : (s.wake i).fld g = s.fld g := rfl

/-! ## updCat -/

@[simp] theorem State.updCat_pending (s : State) (f : Cat → Cat) : (s.updCat f).pending = s.pending := rfl
@[simp] theorem State.updCat_ready (s : State) (f : Cat → Cat) : (s.updCat f).ready = s.ready := rfl
@[simp] theorem State.updCat_held (s : State) (f : Cat → Cat) : (s.updCat f).held = s.held := rfl
@[simp] theorem State.updCat_outbox (s : State) (f : Cat → Cat) : (s.updCat f).outbox = s.outbox := rfl
@[simp] theorem State.updCat_regs (s : State) (f : Cat → Cat) : (s.updCat f).regs = s.regs := rfl
@[simp] theorem State.updCat_tick (s : State) (f : Cat → Cat) : (s.updCat f).tick = s.tick := rfl
@[simp] theorem State.updCat_freeCtr (s : State) (f : Cat → Cat) : (s.updCat f).freeCtr = s.freeCtr := rfl
@[simp] theorem State.updCat_provCtr (s : State) (f : Cat → Cat) : (s.updCat f).provCtr = s.provCtr := rfl
@[simp] theorem State.updCat_slips (s : State) (f : Cat → Cat) : (s.updCat f).slips = s.slips := rfl
@[simp] theorem State.updCat_versions (s : State) (f : Cat → Cat) : (s.updCat f).versions = s.versions := rfl
@[simp] theorem State.updCat_qps (s : State) (f : Cat → Cat) : (s.updCat f).qps = s.qps := rfl
@[simp] theorem State.updCat_mgmt (s : State) (f : Cat → Cat) : (s.updCat f).mgmt = s.mgmt := rfl
@[simp] theorem State.updCat_sessions (s : State) (f : Cat → Cat) : (s.updCat f).sessions = s.sessions := rfl
@[simp] theorem State.updCat_tenants (s : State) (f : Cat → Cat) : (s.updCat f).tenants = s.tenants := rfl
@[simp] theorem State.updCat_rings (s : State) (f : Cat → Cat) : (s.updCat f).rings = s.rings := rfl
@[simp] theorem State.updCat_sched (s : State) (f : Cat → Cat) : (s.updCat f).sched = s.sched := rfl
@[simp] theorem State.updCat_fuses (s : State) (f : Cat → Cat) : (s.updCat f).fuses = s.fuses := rfl
@[simp] theorem State.updCat_profile (s : State) (f : Cat → Cat) : (s.updCat f).profile = s.profile := rfl
@[simp] theorem State.updCat_text (s : State) (f : Cat → Cat) : (s.updCat f).text = s.text := rfl
@[simp] theorem State.updCat_entryGens (s : State) (f : Cat → Cat) : (s.updCat f).entryGens = s.entryGens := rfl
@[simp] theorem State.updCat_preempting (s : State) (f : Cat → Cat) : (s.updCat f).preempting = s.preempting := rfl
@[simp] theorem State.updCat_slots (s : State) (f : Cat → Cat) : (s.updCat f).slots = s.slots := rfl
@[simp] theorem State.updCat_gens (s : State) (f : Cat → Cat) : (s.updCat f).gens = s.gens := rfl
@[simp] theorem State.updCat_hbm (s : State) (f : Cat → Cat) : (s.updCat f).hbm = s.hbm := rfl
@[simp] theorem State.updCat_cellar (s : State) (f : Cat → Cat) : (s.updCat f).cellar = s.cellar := rfl
@[simp] theorem State.updCat_reserved (s : State) (f : Cat → Cat) : (s.updCat f).reserved = s.reserved := rfl
@[simp] theorem State.updCat_pool (s : State) (f : Cat → Cat) : (s.updCat f).pool = s.pool := rfl
@[simp] theorem State.updCat_hostRegions (s : State) (f : Cat → Cat) : (s.updCat f).hostRegions = s.hostRegions := rfl
@[simp] theorem State.updCat_shelf (s : State) (f : Cat → Cat) : (s.updCat f).shelf = s.shelf := rfl
@[simp] theorem State.updCat_commits (s : State) (f : Cat → Cat) : (s.updCat f).commits = s.commits := rfl
@[simp] theorem State.updCat_revives (s : State) (f : Cat → Cat) : (s.updCat f).revives = s.revives := rfl
@[simp] theorem State.updCat_moves (s : State) (f : Cat → Cat) : (s.updCat f).moves = s.moves := rfl
@[simp] theorem State.updCat_peers (s : State) (f : Cat → Cat) : (s.updCat f).peers = s.peers := rfl
@[simp] theorem State.updCat_ports (s : State) (f : Cat → Cat) : (s.updCat f).ports = s.ports := rfl
@[simp] theorem State.updCat_spray (s : State) (f : Cat → Cat) : (s.updCat f).spray = s.spray := rfl
@[simp] theorem State.updCat_nextTag (s : State) (f : Cat → Cat) : (s.updCat f).nextTag = s.nextTag := rfl
@[simp] theorem State.updCat_host (s : State) (f : Cat → Cat) : (s.updCat f).host = s.host := rfl
@[simp] theorem State.updCat_ringVec (s : State) (f : Cat → Cat) : (s.updCat f).ringVec = s.ringVec := rfl
@[simp] theorem State.updCat_ringOwed (s : State) (f : Cat → Cat) : (s.updCat f).ringOwed = s.ringOwed := rfl
@[simp] theorem State.updCat_membership (s : State) (f : Cat → Cat) : (s.updCat f).membership = s.membership := rfl
@[simp] theorem State.updCat_principals (s : State) (f : Cat → Cat) : (s.updCat f).principals = s.principals := rfl
@[simp] theorem State.updCat_errs (s : State) (f : Cat → Cat) : (s.updCat f).errs = s.errs := rfl
@[simp] theorem State.updCat_trace (s : State) (f : Cat → Cat) : (s.updCat f).trace = s.trace := rfl
@[simp] theorem State.updCat_scans (s : State) (f : Cat → Cat) : (s.updCat f).scans = s.scans := rfl
@[simp] theorem State.updCat_scanning (s : State) (f : Cat → Cat) : (s.updCat f).scanning = s.scanning := rfl
@[simp] theorem State.updCat_shapers (s : State) (f : Cat → Cat) : (s.updCat f).shapers = s.shapers := rfl
@[simp] theorem State.updCat_hists (s : State) (f : Cat → Cat) : (s.updCat f).hists = s.hists := rfl
@[simp] theorem State.updCat_histSamples (s : State) (f : Cat → Cat) : (s.updCat f).histSamples = s.histSamples := rfl
@[simp] theorem State.updCat_histBase (s : State) (f : Cat → Cat) : (s.updCat f).histBase = s.histBase := rfl
@[simp] theorem State.updCat_steps (s : State) (f : Cat → Cat) : (s.updCat f).steps = s.steps := rfl
@[simp] theorem State.updCat_nextStep (s : State) (f : Cat → Cat) : (s.updCat f).nextStep = s.nextStep := rfl
@[simp] theorem State.updCat_prefills (s : State) (f : Cat → Cat) : (s.updCat f).prefills = s.prefills := rfl
@[simp] theorem State.updCat_mes (s : State) (f : Cat → Cat) : (s.updCat f).mes = s.mes := rfl
@[simp] theorem State.updCat_tiles (s : State) (f : Cat → Cat) : (s.updCat f).tiles = s.tiles := rfl
@[simp] theorem State.updCat_meShort (s : State) (f : Cat → Cat) : (s.updCat f).meShort = s.meShort := rfl
@[simp] theorem State.updCat_targetSet (s : State) (f : Cat → Cat) : (s.updCat f).targetSet = s.targetSet := rfl
@[simp] theorem State.updCat_nbus (s : State) (f : Cat → Cat) : (s.updCat f).nbus = s.nbus := rfl
@[simp] theorem State.updCat_dieTab (s : State) (f : Cat → Cat) : (s.updCat f).dieTab = s.dieTab := rfl
@[simp] theorem State.updCat_shards (s : State) (f : Cat → Cat) : (s.updCat f).shards = s.shards := rfl
@[simp] theorem State.updCat_vecBlocks (s : State) (f : Cat → Cat) : (s.updCat f).vecBlocks = s.vecBlocks := rfl
@[simp] theorem State.updCat_searches (s : State) (f : Cat → Cat) : (s.updCat f).searches = s.searches := rfl
@[simp] theorem State.updCat_nextReq (s : State) (f : Cat → Cat) : (s.updCat f).nextReq = s.nextReq := rfl
@[simp] theorem State.updCat_locks (s : State) (f : Cat → Cat) : (s.updCat f).locks = s.locks := rfl
@[simp] theorem State.updCat_nextLock (s : State) (f : Cat → Cat) : (s.updCat f).nextLock = s.nextLock := rfl
@[simp] theorem State.updCat_ckpt (s : State) (f : Cat → Cat) : (s.updCat f).ckpt = s.ckpt := rfl
@[simp] theorem State.updCat_genFloor (s : State) (f : Cat → Cat) : (s.updCat f).genFloor = s.genFloor := rfl
@[simp] theorem State.updCat_genBase (s : State) (f : Cat → Cat) : (s.updCat f).genBase = s.genBase := rfl
@[simp] theorem State.updCat_floorBusy (s : State) (f : Cat → Cat) : (s.updCat f).floorBusy = s.floorBusy := rfl
@[simp] theorem State.updCat_sec (s : State) (f : Cat → Cat) : (s.updCat f).sec = s.sec := rfl
@[simp] theorem State.updCat_flash (s : State) (f : Cat → Cat) : (s.updCat f).flash = s.flash := rfl
@[simp] theorem State.updCat_boot (s : State) (f : Cat → Cat) : (s.updCat f).boot = s.boot := rfl
@[simp] theorem State.updCat_fld (s : State) (f : Cat → Cat) (g : Fld) : (s.updCat f).fld g = s.fld g := rfl

/-! ## setTenant -/

@[simp] theorem State.setTenant_pending (s : State) (t : Nat) (v : Tenant) : (s.setTenant t v).pending = s.pending := rfl
@[simp] theorem State.setTenant_ready (s : State) (t : Nat) (v : Tenant) : (s.setTenant t v).ready = s.ready := rfl
@[simp] theorem State.setTenant_held (s : State) (t : Nat) (v : Tenant) : (s.setTenant t v).held = s.held := rfl
@[simp] theorem State.setTenant_outbox (s : State) (t : Nat) (v : Tenant) : (s.setTenant t v).outbox = s.outbox := rfl
@[simp] theorem State.setTenant_regs (s : State) (t : Nat) (v : Tenant) : (s.setTenant t v).regs = s.regs := rfl
@[simp] theorem State.setTenant_tick (s : State) (t : Nat) (v : Tenant) : (s.setTenant t v).tick = s.tick := rfl
@[simp] theorem State.setTenant_freeCtr (s : State) (t : Nat) (v : Tenant) : (s.setTenant t v).freeCtr = s.freeCtr := rfl
@[simp] theorem State.setTenant_provCtr (s : State) (t : Nat) (v : Tenant) : (s.setTenant t v).provCtr = s.provCtr := rfl
@[simp] theorem State.setTenant_slips (s : State) (t : Nat) (v : Tenant) : (s.setTenant t v).slips = s.slips := rfl
@[simp] theorem State.setTenant_versions (s : State) (t : Nat) (v : Tenant) : (s.setTenant t v).versions = s.versions := rfl
@[simp] theorem State.setTenant_qps (s : State) (t : Nat) (v : Tenant) : (s.setTenant t v).qps = s.qps := rfl
@[simp] theorem State.setTenant_mgmt (s : State) (t : Nat) (v : Tenant) : (s.setTenant t v).mgmt = s.mgmt := rfl
@[simp] theorem State.setTenant_sessions (s : State) (t : Nat) (v : Tenant) : (s.setTenant t v).sessions = s.sessions := rfl
@[simp] theorem State.setTenant_rings (s : State) (t : Nat) (v : Tenant) : (s.setTenant t v).rings = s.rings := rfl
@[simp] theorem State.setTenant_sched (s : State) (t : Nat) (v : Tenant) : (s.setTenant t v).sched = s.sched := rfl
@[simp] theorem State.setTenant_fuses (s : State) (t : Nat) (v : Tenant) : (s.setTenant t v).fuses = s.fuses := rfl
@[simp] theorem State.setTenant_profile (s : State) (t : Nat) (v : Tenant) : (s.setTenant t v).profile = s.profile := rfl
@[simp] theorem State.setTenant_text (s : State) (t : Nat) (v : Tenant) : (s.setTenant t v).text = s.text := rfl
@[simp] theorem State.setTenant_entryGens (s : State) (t : Nat) (v : Tenant) : (s.setTenant t v).entryGens = s.entryGens := rfl
@[simp] theorem State.setTenant_preempting (s : State) (t : Nat) (v : Tenant) : (s.setTenant t v).preempting = s.preempting := rfl
@[simp] theorem State.setTenant_slots (s : State) (t : Nat) (v : Tenant) : (s.setTenant t v).slots = s.slots := rfl
@[simp] theorem State.setTenant_gens (s : State) (t : Nat) (v : Tenant) : (s.setTenant t v).gens = s.gens := rfl
@[simp] theorem State.setTenant_hbm (s : State) (t : Nat) (v : Tenant) : (s.setTenant t v).hbm = s.hbm := rfl
@[simp] theorem State.setTenant_cellar (s : State) (t : Nat) (v : Tenant) : (s.setTenant t v).cellar = s.cellar := rfl
@[simp] theorem State.setTenant_reserved (s : State) (t : Nat) (v : Tenant) : (s.setTenant t v).reserved = s.reserved := rfl
@[simp] theorem State.setTenant_pool (s : State) (t : Nat) (v : Tenant) : (s.setTenant t v).pool = s.pool := rfl
@[simp] theorem State.setTenant_hostRegions (s : State) (t : Nat) (v : Tenant) : (s.setTenant t v).hostRegions = s.hostRegions := rfl
@[simp] theorem State.setTenant_shelf (s : State) (t : Nat) (v : Tenant) : (s.setTenant t v).shelf = s.shelf := rfl
@[simp] theorem State.setTenant_commits (s : State) (t : Nat) (v : Tenant) : (s.setTenant t v).commits = s.commits := rfl
@[simp] theorem State.setTenant_revives (s : State) (t : Nat) (v : Tenant) : (s.setTenant t v).revives = s.revives := rfl
@[simp] theorem State.setTenant_moves (s : State) (t : Nat) (v : Tenant) : (s.setTenant t v).moves = s.moves := rfl
@[simp] theorem State.setTenant_peers (s : State) (t : Nat) (v : Tenant) : (s.setTenant t v).peers = s.peers := rfl
@[simp] theorem State.setTenant_ports (s : State) (t : Nat) (v : Tenant) : (s.setTenant t v).ports = s.ports := rfl
@[simp] theorem State.setTenant_spray (s : State) (t : Nat) (v : Tenant) : (s.setTenant t v).spray = s.spray := rfl
@[simp] theorem State.setTenant_nextTag (s : State) (t : Nat) (v : Tenant) : (s.setTenant t v).nextTag = s.nextTag := rfl
@[simp] theorem State.setTenant_host (s : State) (t : Nat) (v : Tenant) : (s.setTenant t v).host = s.host := rfl
@[simp] theorem State.setTenant_ringVec (s : State) (t : Nat) (v : Tenant) : (s.setTenant t v).ringVec = s.ringVec := rfl
@[simp] theorem State.setTenant_ringOwed (s : State) (t : Nat) (v : Tenant) : (s.setTenant t v).ringOwed = s.ringOwed := rfl
@[simp] theorem State.setTenant_cat (s : State) (t : Nat) (v : Tenant) : (s.setTenant t v).cat = s.cat := rfl
@[simp] theorem State.setTenant_membership (s : State) (t : Nat) (v : Tenant) : (s.setTenant t v).membership = s.membership := rfl
@[simp] theorem State.setTenant_principals (s : State) (t : Nat) (v : Tenant) : (s.setTenant t v).principals = s.principals := rfl
@[simp] theorem State.setTenant_errs (s : State) (t : Nat) (v : Tenant) : (s.setTenant t v).errs = s.errs := rfl
@[simp] theorem State.setTenant_trace (s : State) (t : Nat) (v : Tenant) : (s.setTenant t v).trace = s.trace := rfl
@[simp] theorem State.setTenant_scans (s : State) (t : Nat) (v : Tenant) : (s.setTenant t v).scans = s.scans := rfl
@[simp] theorem State.setTenant_scanning (s : State) (t : Nat) (v : Tenant) : (s.setTenant t v).scanning = s.scanning := rfl
@[simp] theorem State.setTenant_shapers (s : State) (t : Nat) (v : Tenant) : (s.setTenant t v).shapers = s.shapers := rfl
@[simp] theorem State.setTenant_hists (s : State) (t : Nat) (v : Tenant) : (s.setTenant t v).hists = s.hists := rfl
@[simp] theorem State.setTenant_histSamples (s : State) (t : Nat) (v : Tenant) : (s.setTenant t v).histSamples = s.histSamples := rfl
@[simp] theorem State.setTenant_histBase (s : State) (t : Nat) (v : Tenant) : (s.setTenant t v).histBase = s.histBase := rfl
@[simp] theorem State.setTenant_steps (s : State) (t : Nat) (v : Tenant) : (s.setTenant t v).steps = s.steps := rfl
@[simp] theorem State.setTenant_nextStep (s : State) (t : Nat) (v : Tenant) : (s.setTenant t v).nextStep = s.nextStep := rfl
@[simp] theorem State.setTenant_prefills (s : State) (t : Nat) (v : Tenant) : (s.setTenant t v).prefills = s.prefills := rfl
@[simp] theorem State.setTenant_mes (s : State) (t : Nat) (v : Tenant) : (s.setTenant t v).mes = s.mes := rfl
@[simp] theorem State.setTenant_tiles (s : State) (t : Nat) (v : Tenant) : (s.setTenant t v).tiles = s.tiles := rfl
@[simp] theorem State.setTenant_meShort (s : State) (t : Nat) (v : Tenant) : (s.setTenant t v).meShort = s.meShort := rfl
@[simp] theorem State.setTenant_targetSet (s : State) (t : Nat) (v : Tenant) : (s.setTenant t v).targetSet = s.targetSet := rfl
@[simp] theorem State.setTenant_nbus (s : State) (t : Nat) (v : Tenant) : (s.setTenant t v).nbus = s.nbus := rfl
@[simp] theorem State.setTenant_dieTab (s : State) (t : Nat) (v : Tenant) : (s.setTenant t v).dieTab = s.dieTab := rfl
@[simp] theorem State.setTenant_shards (s : State) (t : Nat) (v : Tenant) : (s.setTenant t v).shards = s.shards := rfl
@[simp] theorem State.setTenant_vecBlocks (s : State) (t : Nat) (v : Tenant) : (s.setTenant t v).vecBlocks = s.vecBlocks := rfl
@[simp] theorem State.setTenant_searches (s : State) (t : Nat) (v : Tenant) : (s.setTenant t v).searches = s.searches := rfl
@[simp] theorem State.setTenant_nextReq (s : State) (t : Nat) (v : Tenant) : (s.setTenant t v).nextReq = s.nextReq := rfl
@[simp] theorem State.setTenant_locks (s : State) (t : Nat) (v : Tenant) : (s.setTenant t v).locks = s.locks := rfl
@[simp] theorem State.setTenant_nextLock (s : State) (t : Nat) (v : Tenant) : (s.setTenant t v).nextLock = s.nextLock := rfl
@[simp] theorem State.setTenant_ckpt (s : State) (t : Nat) (v : Tenant) : (s.setTenant t v).ckpt = s.ckpt := rfl
@[simp] theorem State.setTenant_genFloor (s : State) (t : Nat) (v : Tenant) : (s.setTenant t v).genFloor = s.genFloor := rfl
@[simp] theorem State.setTenant_genBase (s : State) (t : Nat) (v : Tenant) : (s.setTenant t v).genBase = s.genBase := rfl
@[simp] theorem State.setTenant_floorBusy (s : State) (t : Nat) (v : Tenant) : (s.setTenant t v).floorBusy = s.floorBusy := rfl
@[simp] theorem State.setTenant_sec (s : State) (t : Nat) (v : Tenant) : (s.setTenant t v).sec = s.sec := rfl
@[simp] theorem State.setTenant_flash (s : State) (t : Nat) (v : Tenant) : (s.setTenant t v).flash = s.flash := rfl
@[simp] theorem State.setTenant_boot (s : State) (t : Nat) (v : Tenant) : (s.setTenant t v).boot = s.boot := rfl
@[simp] theorem State.setTenant_fld (s : State) (t : Nat) (v : Tenant) (g : Fld) : (s.setTenant t v).fld g = s.fld g := rfl

/-! ## updTenant -/

@[simp] theorem State.updTenant_pending (s : State) (t : Nat) (f : Tenant → Tenant) : (s.updTenant t f).pending = s.pending := rfl
@[simp] theorem State.updTenant_ready (s : State) (t : Nat) (f : Tenant → Tenant) : (s.updTenant t f).ready = s.ready := rfl
@[simp] theorem State.updTenant_held (s : State) (t : Nat) (f : Tenant → Tenant) : (s.updTenant t f).held = s.held := rfl
@[simp] theorem State.updTenant_outbox (s : State) (t : Nat) (f : Tenant → Tenant) : (s.updTenant t f).outbox = s.outbox := rfl
@[simp] theorem State.updTenant_regs (s : State) (t : Nat) (f : Tenant → Tenant) : (s.updTenant t f).regs = s.regs := rfl
@[simp] theorem State.updTenant_tick (s : State) (t : Nat) (f : Tenant → Tenant) : (s.updTenant t f).tick = s.tick := rfl
@[simp] theorem State.updTenant_freeCtr (s : State) (t : Nat) (f : Tenant → Tenant) : (s.updTenant t f).freeCtr = s.freeCtr := rfl
@[simp] theorem State.updTenant_provCtr (s : State) (t : Nat) (f : Tenant → Tenant) : (s.updTenant t f).provCtr = s.provCtr := rfl
@[simp] theorem State.updTenant_slips (s : State) (t : Nat) (f : Tenant → Tenant) : (s.updTenant t f).slips = s.slips := rfl
@[simp] theorem State.updTenant_versions (s : State) (t : Nat) (f : Tenant → Tenant) : (s.updTenant t f).versions = s.versions := rfl
@[simp] theorem State.updTenant_qps (s : State) (t : Nat) (f : Tenant → Tenant) : (s.updTenant t f).qps = s.qps := rfl
@[simp] theorem State.updTenant_mgmt (s : State) (t : Nat) (f : Tenant → Tenant) : (s.updTenant t f).mgmt = s.mgmt := rfl
@[simp] theorem State.updTenant_sessions (s : State) (t : Nat) (f : Tenant → Tenant) : (s.updTenant t f).sessions = s.sessions := rfl
@[simp] theorem State.updTenant_rings (s : State) (t : Nat) (f : Tenant → Tenant) : (s.updTenant t f).rings = s.rings := rfl
@[simp] theorem State.updTenant_sched (s : State) (t : Nat) (f : Tenant → Tenant) : (s.updTenant t f).sched = s.sched := rfl
@[simp] theorem State.updTenant_fuses (s : State) (t : Nat) (f : Tenant → Tenant) : (s.updTenant t f).fuses = s.fuses := rfl
@[simp] theorem State.updTenant_profile (s : State) (t : Nat) (f : Tenant → Tenant) : (s.updTenant t f).profile = s.profile := rfl
@[simp] theorem State.updTenant_text (s : State) (t : Nat) (f : Tenant → Tenant) : (s.updTenant t f).text = s.text := rfl
@[simp] theorem State.updTenant_entryGens (s : State) (t : Nat) (f : Tenant → Tenant) : (s.updTenant t f).entryGens = s.entryGens := rfl
@[simp] theorem State.updTenant_preempting (s : State) (t : Nat) (f : Tenant → Tenant) : (s.updTenant t f).preempting = s.preempting := rfl
@[simp] theorem State.updTenant_slots (s : State) (t : Nat) (f : Tenant → Tenant) : (s.updTenant t f).slots = s.slots := rfl
@[simp] theorem State.updTenant_gens (s : State) (t : Nat) (f : Tenant → Tenant) : (s.updTenant t f).gens = s.gens := rfl
@[simp] theorem State.updTenant_hbm (s : State) (t : Nat) (f : Tenant → Tenant) : (s.updTenant t f).hbm = s.hbm := rfl
@[simp] theorem State.updTenant_cellar (s : State) (t : Nat) (f : Tenant → Tenant) : (s.updTenant t f).cellar = s.cellar := rfl
@[simp] theorem State.updTenant_reserved (s : State) (t : Nat) (f : Tenant → Tenant) : (s.updTenant t f).reserved = s.reserved := rfl
@[simp] theorem State.updTenant_pool (s : State) (t : Nat) (f : Tenant → Tenant) : (s.updTenant t f).pool = s.pool := rfl
@[simp] theorem State.updTenant_hostRegions (s : State) (t : Nat) (f : Tenant → Tenant) : (s.updTenant t f).hostRegions = s.hostRegions := rfl
@[simp] theorem State.updTenant_shelf (s : State) (t : Nat) (f : Tenant → Tenant) : (s.updTenant t f).shelf = s.shelf := rfl
@[simp] theorem State.updTenant_commits (s : State) (t : Nat) (f : Tenant → Tenant) : (s.updTenant t f).commits = s.commits := rfl
@[simp] theorem State.updTenant_revives (s : State) (t : Nat) (f : Tenant → Tenant) : (s.updTenant t f).revives = s.revives := rfl
@[simp] theorem State.updTenant_moves (s : State) (t : Nat) (f : Tenant → Tenant) : (s.updTenant t f).moves = s.moves := rfl
@[simp] theorem State.updTenant_peers (s : State) (t : Nat) (f : Tenant → Tenant) : (s.updTenant t f).peers = s.peers := rfl
@[simp] theorem State.updTenant_ports (s : State) (t : Nat) (f : Tenant → Tenant) : (s.updTenant t f).ports = s.ports := rfl
@[simp] theorem State.updTenant_spray (s : State) (t : Nat) (f : Tenant → Tenant) : (s.updTenant t f).spray = s.spray := rfl
@[simp] theorem State.updTenant_nextTag (s : State) (t : Nat) (f : Tenant → Tenant) : (s.updTenant t f).nextTag = s.nextTag := rfl
@[simp] theorem State.updTenant_host (s : State) (t : Nat) (f : Tenant → Tenant) : (s.updTenant t f).host = s.host := rfl
@[simp] theorem State.updTenant_ringVec (s : State) (t : Nat) (f : Tenant → Tenant) : (s.updTenant t f).ringVec = s.ringVec := rfl
@[simp] theorem State.updTenant_ringOwed (s : State) (t : Nat) (f : Tenant → Tenant) : (s.updTenant t f).ringOwed = s.ringOwed := rfl
@[simp] theorem State.updTenant_cat (s : State) (t : Nat) (f : Tenant → Tenant) : (s.updTenant t f).cat = s.cat := rfl
@[simp] theorem State.updTenant_membership (s : State) (t : Nat) (f : Tenant → Tenant) : (s.updTenant t f).membership = s.membership := rfl
@[simp] theorem State.updTenant_principals (s : State) (t : Nat) (f : Tenant → Tenant) : (s.updTenant t f).principals = s.principals := rfl
@[simp] theorem State.updTenant_errs (s : State) (t : Nat) (f : Tenant → Tenant) : (s.updTenant t f).errs = s.errs := rfl
@[simp] theorem State.updTenant_trace (s : State) (t : Nat) (f : Tenant → Tenant) : (s.updTenant t f).trace = s.trace := rfl
@[simp] theorem State.updTenant_scans (s : State) (t : Nat) (f : Tenant → Tenant) : (s.updTenant t f).scans = s.scans := rfl
@[simp] theorem State.updTenant_scanning (s : State) (t : Nat) (f : Tenant → Tenant) : (s.updTenant t f).scanning = s.scanning := rfl
@[simp] theorem State.updTenant_shapers (s : State) (t : Nat) (f : Tenant → Tenant) : (s.updTenant t f).shapers = s.shapers := rfl
@[simp] theorem State.updTenant_hists (s : State) (t : Nat) (f : Tenant → Tenant) : (s.updTenant t f).hists = s.hists := rfl
@[simp] theorem State.updTenant_histSamples (s : State) (t : Nat) (f : Tenant → Tenant) : (s.updTenant t f).histSamples = s.histSamples := rfl
@[simp] theorem State.updTenant_histBase (s : State) (t : Nat) (f : Tenant → Tenant) : (s.updTenant t f).histBase = s.histBase := rfl
@[simp] theorem State.updTenant_steps (s : State) (t : Nat) (f : Tenant → Tenant) : (s.updTenant t f).steps = s.steps := rfl
@[simp] theorem State.updTenant_nextStep (s : State) (t : Nat) (f : Tenant → Tenant) : (s.updTenant t f).nextStep = s.nextStep := rfl
@[simp] theorem State.updTenant_prefills (s : State) (t : Nat) (f : Tenant → Tenant) : (s.updTenant t f).prefills = s.prefills := rfl
@[simp] theorem State.updTenant_mes (s : State) (t : Nat) (f : Tenant → Tenant) : (s.updTenant t f).mes = s.mes := rfl
@[simp] theorem State.updTenant_tiles (s : State) (t : Nat) (f : Tenant → Tenant) : (s.updTenant t f).tiles = s.tiles := rfl
@[simp] theorem State.updTenant_meShort (s : State) (t : Nat) (f : Tenant → Tenant) : (s.updTenant t f).meShort = s.meShort := rfl
@[simp] theorem State.updTenant_targetSet (s : State) (t : Nat) (f : Tenant → Tenant) : (s.updTenant t f).targetSet = s.targetSet := rfl
@[simp] theorem State.updTenant_nbus (s : State) (t : Nat) (f : Tenant → Tenant) : (s.updTenant t f).nbus = s.nbus := rfl
@[simp] theorem State.updTenant_dieTab (s : State) (t : Nat) (f : Tenant → Tenant) : (s.updTenant t f).dieTab = s.dieTab := rfl
@[simp] theorem State.updTenant_shards (s : State) (t : Nat) (f : Tenant → Tenant) : (s.updTenant t f).shards = s.shards := rfl
@[simp] theorem State.updTenant_vecBlocks (s : State) (t : Nat) (f : Tenant → Tenant) : (s.updTenant t f).vecBlocks = s.vecBlocks := rfl
@[simp] theorem State.updTenant_searches (s : State) (t : Nat) (f : Tenant → Tenant) : (s.updTenant t f).searches = s.searches := rfl
@[simp] theorem State.updTenant_nextReq (s : State) (t : Nat) (f : Tenant → Tenant) : (s.updTenant t f).nextReq = s.nextReq := rfl
@[simp] theorem State.updTenant_locks (s : State) (t : Nat) (f : Tenant → Tenant) : (s.updTenant t f).locks = s.locks := rfl
@[simp] theorem State.updTenant_nextLock (s : State) (t : Nat) (f : Tenant → Tenant) : (s.updTenant t f).nextLock = s.nextLock := rfl
@[simp] theorem State.updTenant_ckpt (s : State) (t : Nat) (f : Tenant → Tenant) : (s.updTenant t f).ckpt = s.ckpt := rfl
@[simp] theorem State.updTenant_genFloor (s : State) (t : Nat) (f : Tenant → Tenant) : (s.updTenant t f).genFloor = s.genFloor := rfl
@[simp] theorem State.updTenant_genBase (s : State) (t : Nat) (f : Tenant → Tenant) : (s.updTenant t f).genBase = s.genBase := rfl
@[simp] theorem State.updTenant_floorBusy (s : State) (t : Nat) (f : Tenant → Tenant) : (s.updTenant t f).floorBusy = s.floorBusy := rfl
@[simp] theorem State.updTenant_sec (s : State) (t : Nat) (f : Tenant → Tenant) : (s.updTenant t f).sec = s.sec := rfl
@[simp] theorem State.updTenant_flash (s : State) (t : Nat) (f : Tenant → Tenant) : (s.updTenant t f).flash = s.flash := rfl
@[simp] theorem State.updTenant_boot (s : State) (t : Nat) (f : Tenant → Tenant) : (s.updTenant t f).boot = s.boot := rfl
@[simp] theorem State.updTenant_fld (s : State) (t : Nat) (f : Tenant → Tenant) (g : Fld) : (s.updTenant t f).fld g = s.fld g := rfl

/-! ## setQp -/

@[simp] theorem State.setQp_pending (s : State) (q : Nat) (v : Qp) : (s.setQp q v).pending = s.pending := rfl
@[simp] theorem State.setQp_ready (s : State) (q : Nat) (v : Qp) : (s.setQp q v).ready = s.ready := rfl
@[simp] theorem State.setQp_held (s : State) (q : Nat) (v : Qp) : (s.setQp q v).held = s.held := rfl
@[simp] theorem State.setQp_outbox (s : State) (q : Nat) (v : Qp) : (s.setQp q v).outbox = s.outbox := rfl
@[simp] theorem State.setQp_regs (s : State) (q : Nat) (v : Qp) : (s.setQp q v).regs = s.regs := rfl
@[simp] theorem State.setQp_tick (s : State) (q : Nat) (v : Qp) : (s.setQp q v).tick = s.tick := rfl
@[simp] theorem State.setQp_freeCtr (s : State) (q : Nat) (v : Qp) : (s.setQp q v).freeCtr = s.freeCtr := rfl
@[simp] theorem State.setQp_provCtr (s : State) (q : Nat) (v : Qp) : (s.setQp q v).provCtr = s.provCtr := rfl
@[simp] theorem State.setQp_slips (s : State) (q : Nat) (v : Qp) : (s.setQp q v).slips = s.slips := rfl
@[simp] theorem State.setQp_versions (s : State) (q : Nat) (v : Qp) : (s.setQp q v).versions = s.versions := rfl
@[simp] theorem State.setQp_mgmt (s : State) (q : Nat) (v : Qp) : (s.setQp q v).mgmt = s.mgmt := rfl
@[simp] theorem State.setQp_sessions (s : State) (q : Nat) (v : Qp) : (s.setQp q v).sessions = s.sessions := rfl
@[simp] theorem State.setQp_tenants (s : State) (q : Nat) (v : Qp) : (s.setQp q v).tenants = s.tenants := rfl
@[simp] theorem State.setQp_rings (s : State) (q : Nat) (v : Qp) : (s.setQp q v).rings = s.rings := rfl
@[simp] theorem State.setQp_sched (s : State) (q : Nat) (v : Qp) : (s.setQp q v).sched = s.sched := rfl
@[simp] theorem State.setQp_fuses (s : State) (q : Nat) (v : Qp) : (s.setQp q v).fuses = s.fuses := rfl
@[simp] theorem State.setQp_profile (s : State) (q : Nat) (v : Qp) : (s.setQp q v).profile = s.profile := rfl
@[simp] theorem State.setQp_text (s : State) (q : Nat) (v : Qp) : (s.setQp q v).text = s.text := rfl
@[simp] theorem State.setQp_entryGens (s : State) (q : Nat) (v : Qp) : (s.setQp q v).entryGens = s.entryGens := rfl
@[simp] theorem State.setQp_preempting (s : State) (q : Nat) (v : Qp) : (s.setQp q v).preempting = s.preempting := rfl
@[simp] theorem State.setQp_slots (s : State) (q : Nat) (v : Qp) : (s.setQp q v).slots = s.slots := rfl
@[simp] theorem State.setQp_gens (s : State) (q : Nat) (v : Qp) : (s.setQp q v).gens = s.gens := rfl
@[simp] theorem State.setQp_hbm (s : State) (q : Nat) (v : Qp) : (s.setQp q v).hbm = s.hbm := rfl
@[simp] theorem State.setQp_cellar (s : State) (q : Nat) (v : Qp) : (s.setQp q v).cellar = s.cellar := rfl
@[simp] theorem State.setQp_reserved (s : State) (q : Nat) (v : Qp) : (s.setQp q v).reserved = s.reserved := rfl
@[simp] theorem State.setQp_pool (s : State) (q : Nat) (v : Qp) : (s.setQp q v).pool = s.pool := rfl
@[simp] theorem State.setQp_hostRegions (s : State) (q : Nat) (v : Qp) : (s.setQp q v).hostRegions = s.hostRegions := rfl
@[simp] theorem State.setQp_shelf (s : State) (q : Nat) (v : Qp) : (s.setQp q v).shelf = s.shelf := rfl
@[simp] theorem State.setQp_commits (s : State) (q : Nat) (v : Qp) : (s.setQp q v).commits = s.commits := rfl
@[simp] theorem State.setQp_revives (s : State) (q : Nat) (v : Qp) : (s.setQp q v).revives = s.revives := rfl
@[simp] theorem State.setQp_moves (s : State) (q : Nat) (v : Qp) : (s.setQp q v).moves = s.moves := rfl
@[simp] theorem State.setQp_peers (s : State) (q : Nat) (v : Qp) : (s.setQp q v).peers = s.peers := rfl
@[simp] theorem State.setQp_ports (s : State) (q : Nat) (v : Qp) : (s.setQp q v).ports = s.ports := rfl
@[simp] theorem State.setQp_spray (s : State) (q : Nat) (v : Qp) : (s.setQp q v).spray = s.spray := rfl
@[simp] theorem State.setQp_nextTag (s : State) (q : Nat) (v : Qp) : (s.setQp q v).nextTag = s.nextTag := rfl
@[simp] theorem State.setQp_host (s : State) (q : Nat) (v : Qp) : (s.setQp q v).host = s.host := rfl
@[simp] theorem State.setQp_ringVec (s : State) (q : Nat) (v : Qp) : (s.setQp q v).ringVec = s.ringVec := rfl
@[simp] theorem State.setQp_ringOwed (s : State) (q : Nat) (v : Qp) : (s.setQp q v).ringOwed = s.ringOwed := rfl
@[simp] theorem State.setQp_cat (s : State) (q : Nat) (v : Qp) : (s.setQp q v).cat = s.cat := rfl
@[simp] theorem State.setQp_membership (s : State) (q : Nat) (v : Qp) : (s.setQp q v).membership = s.membership := rfl
@[simp] theorem State.setQp_principals (s : State) (q : Nat) (v : Qp) : (s.setQp q v).principals = s.principals := rfl
@[simp] theorem State.setQp_errs (s : State) (q : Nat) (v : Qp) : (s.setQp q v).errs = s.errs := rfl
@[simp] theorem State.setQp_trace (s : State) (q : Nat) (v : Qp) : (s.setQp q v).trace = s.trace := rfl
@[simp] theorem State.setQp_scans (s : State) (q : Nat) (v : Qp) : (s.setQp q v).scans = s.scans := rfl
@[simp] theorem State.setQp_scanning (s : State) (q : Nat) (v : Qp) : (s.setQp q v).scanning = s.scanning := rfl
@[simp] theorem State.setQp_shapers (s : State) (q : Nat) (v : Qp) : (s.setQp q v).shapers = s.shapers := rfl
@[simp] theorem State.setQp_hists (s : State) (q : Nat) (v : Qp) : (s.setQp q v).hists = s.hists := rfl
@[simp] theorem State.setQp_histSamples (s : State) (q : Nat) (v : Qp) : (s.setQp q v).histSamples = s.histSamples := rfl
@[simp] theorem State.setQp_histBase (s : State) (q : Nat) (v : Qp) : (s.setQp q v).histBase = s.histBase := rfl
@[simp] theorem State.setQp_steps (s : State) (q : Nat) (v : Qp) : (s.setQp q v).steps = s.steps := rfl
@[simp] theorem State.setQp_nextStep (s : State) (q : Nat) (v : Qp) : (s.setQp q v).nextStep = s.nextStep := rfl
@[simp] theorem State.setQp_prefills (s : State) (q : Nat) (v : Qp) : (s.setQp q v).prefills = s.prefills := rfl
@[simp] theorem State.setQp_mes (s : State) (q : Nat) (v : Qp) : (s.setQp q v).mes = s.mes := rfl
@[simp] theorem State.setQp_tiles (s : State) (q : Nat) (v : Qp) : (s.setQp q v).tiles = s.tiles := rfl
@[simp] theorem State.setQp_meShort (s : State) (q : Nat) (v : Qp) : (s.setQp q v).meShort = s.meShort := rfl
@[simp] theorem State.setQp_targetSet (s : State) (q : Nat) (v : Qp) : (s.setQp q v).targetSet = s.targetSet := rfl
@[simp] theorem State.setQp_nbus (s : State) (q : Nat) (v : Qp) : (s.setQp q v).nbus = s.nbus := rfl
@[simp] theorem State.setQp_dieTab (s : State) (q : Nat) (v : Qp) : (s.setQp q v).dieTab = s.dieTab := rfl
@[simp] theorem State.setQp_shards (s : State) (q : Nat) (v : Qp) : (s.setQp q v).shards = s.shards := rfl
@[simp] theorem State.setQp_vecBlocks (s : State) (q : Nat) (v : Qp) : (s.setQp q v).vecBlocks = s.vecBlocks := rfl
@[simp] theorem State.setQp_searches (s : State) (q : Nat) (v : Qp) : (s.setQp q v).searches = s.searches := rfl
@[simp] theorem State.setQp_nextReq (s : State) (q : Nat) (v : Qp) : (s.setQp q v).nextReq = s.nextReq := rfl
@[simp] theorem State.setQp_locks (s : State) (q : Nat) (v : Qp) : (s.setQp q v).locks = s.locks := rfl
@[simp] theorem State.setQp_nextLock (s : State) (q : Nat) (v : Qp) : (s.setQp q v).nextLock = s.nextLock := rfl
@[simp] theorem State.setQp_ckpt (s : State) (q : Nat) (v : Qp) : (s.setQp q v).ckpt = s.ckpt := rfl
@[simp] theorem State.setQp_genFloor (s : State) (q : Nat) (v : Qp) : (s.setQp q v).genFloor = s.genFloor := rfl
@[simp] theorem State.setQp_genBase (s : State) (q : Nat) (v : Qp) : (s.setQp q v).genBase = s.genBase := rfl
@[simp] theorem State.setQp_floorBusy (s : State) (q : Nat) (v : Qp) : (s.setQp q v).floorBusy = s.floorBusy := rfl
@[simp] theorem State.setQp_sec (s : State) (q : Nat) (v : Qp) : (s.setQp q v).sec = s.sec := rfl
@[simp] theorem State.setQp_flash (s : State) (q : Nat) (v : Qp) : (s.setQp q v).flash = s.flash := rfl
@[simp] theorem State.setQp_boot (s : State) (q : Nat) (v : Qp) : (s.setQp q v).boot = s.boot := rfl
@[simp] theorem State.setQp_fld (s : State) (q : Nat) (v : Qp) (g : Fld) : (s.setQp q v).fld g = s.fld g := rfl

/-! ## setRing -/

@[simp] theorem State.setRing_pending (s : State) (r : Nat) (v : Ring) : (s.setRing r v).pending = s.pending := rfl
@[simp] theorem State.setRing_ready (s : State) (r : Nat) (v : Ring) : (s.setRing r v).ready = s.ready := rfl
@[simp] theorem State.setRing_held (s : State) (r : Nat) (v : Ring) : (s.setRing r v).held = s.held := rfl
@[simp] theorem State.setRing_outbox (s : State) (r : Nat) (v : Ring) : (s.setRing r v).outbox = s.outbox := rfl
@[simp] theorem State.setRing_regs (s : State) (r : Nat) (v : Ring) : (s.setRing r v).regs = s.regs := rfl
@[simp] theorem State.setRing_tick (s : State) (r : Nat) (v : Ring) : (s.setRing r v).tick = s.tick := rfl
@[simp] theorem State.setRing_freeCtr (s : State) (r : Nat) (v : Ring) : (s.setRing r v).freeCtr = s.freeCtr := rfl
@[simp] theorem State.setRing_provCtr (s : State) (r : Nat) (v : Ring) : (s.setRing r v).provCtr = s.provCtr := rfl
@[simp] theorem State.setRing_slips (s : State) (r : Nat) (v : Ring) : (s.setRing r v).slips = s.slips := rfl
@[simp] theorem State.setRing_versions (s : State) (r : Nat) (v : Ring) : (s.setRing r v).versions = s.versions := rfl
@[simp] theorem State.setRing_qps (s : State) (r : Nat) (v : Ring) : (s.setRing r v).qps = s.qps := rfl
@[simp] theorem State.setRing_mgmt (s : State) (r : Nat) (v : Ring) : (s.setRing r v).mgmt = s.mgmt := rfl
@[simp] theorem State.setRing_sessions (s : State) (r : Nat) (v : Ring) : (s.setRing r v).sessions = s.sessions := rfl
@[simp] theorem State.setRing_tenants (s : State) (r : Nat) (v : Ring) : (s.setRing r v).tenants = s.tenants := rfl
@[simp] theorem State.setRing_sched (s : State) (r : Nat) (v : Ring) : (s.setRing r v).sched = s.sched := rfl
@[simp] theorem State.setRing_fuses (s : State) (r : Nat) (v : Ring) : (s.setRing r v).fuses = s.fuses := rfl
@[simp] theorem State.setRing_profile (s : State) (r : Nat) (v : Ring) : (s.setRing r v).profile = s.profile := rfl
@[simp] theorem State.setRing_text (s : State) (r : Nat) (v : Ring) : (s.setRing r v).text = s.text := rfl
@[simp] theorem State.setRing_entryGens (s : State) (r : Nat) (v : Ring) : (s.setRing r v).entryGens = s.entryGens := rfl
@[simp] theorem State.setRing_preempting (s : State) (r : Nat) (v : Ring) : (s.setRing r v).preempting = s.preempting := rfl
@[simp] theorem State.setRing_slots (s : State) (r : Nat) (v : Ring) : (s.setRing r v).slots = s.slots := rfl
@[simp] theorem State.setRing_gens (s : State) (r : Nat) (v : Ring) : (s.setRing r v).gens = s.gens := rfl
@[simp] theorem State.setRing_hbm (s : State) (r : Nat) (v : Ring) : (s.setRing r v).hbm = s.hbm := rfl
@[simp] theorem State.setRing_cellar (s : State) (r : Nat) (v : Ring) : (s.setRing r v).cellar = s.cellar := rfl
@[simp] theorem State.setRing_reserved (s : State) (r : Nat) (v : Ring) : (s.setRing r v).reserved = s.reserved := rfl
@[simp] theorem State.setRing_pool (s : State) (r : Nat) (v : Ring) : (s.setRing r v).pool = s.pool := rfl
@[simp] theorem State.setRing_hostRegions (s : State) (r : Nat) (v : Ring) : (s.setRing r v).hostRegions = s.hostRegions := rfl
@[simp] theorem State.setRing_shelf (s : State) (r : Nat) (v : Ring) : (s.setRing r v).shelf = s.shelf := rfl
@[simp] theorem State.setRing_commits (s : State) (r : Nat) (v : Ring) : (s.setRing r v).commits = s.commits := rfl
@[simp] theorem State.setRing_revives (s : State) (r : Nat) (v : Ring) : (s.setRing r v).revives = s.revives := rfl
@[simp] theorem State.setRing_moves (s : State) (r : Nat) (v : Ring) : (s.setRing r v).moves = s.moves := rfl
@[simp] theorem State.setRing_peers (s : State) (r : Nat) (v : Ring) : (s.setRing r v).peers = s.peers := rfl
@[simp] theorem State.setRing_ports (s : State) (r : Nat) (v : Ring) : (s.setRing r v).ports = s.ports := rfl
@[simp] theorem State.setRing_spray (s : State) (r : Nat) (v : Ring) : (s.setRing r v).spray = s.spray := rfl
@[simp] theorem State.setRing_nextTag (s : State) (r : Nat) (v : Ring) : (s.setRing r v).nextTag = s.nextTag := rfl
@[simp] theorem State.setRing_host (s : State) (r : Nat) (v : Ring) : (s.setRing r v).host = s.host := rfl
@[simp] theorem State.setRing_ringVec (s : State) (r : Nat) (v : Ring) : (s.setRing r v).ringVec = s.ringVec := rfl
@[simp] theorem State.setRing_ringOwed (s : State) (r : Nat) (v : Ring) : (s.setRing r v).ringOwed = s.ringOwed := rfl
@[simp] theorem State.setRing_cat (s : State) (r : Nat) (v : Ring) : (s.setRing r v).cat = s.cat := rfl
@[simp] theorem State.setRing_membership (s : State) (r : Nat) (v : Ring) : (s.setRing r v).membership = s.membership := rfl
@[simp] theorem State.setRing_principals (s : State) (r : Nat) (v : Ring) : (s.setRing r v).principals = s.principals := rfl
@[simp] theorem State.setRing_errs (s : State) (r : Nat) (v : Ring) : (s.setRing r v).errs = s.errs := rfl
@[simp] theorem State.setRing_trace (s : State) (r : Nat) (v : Ring) : (s.setRing r v).trace = s.trace := rfl
@[simp] theorem State.setRing_scans (s : State) (r : Nat) (v : Ring) : (s.setRing r v).scans = s.scans := rfl
@[simp] theorem State.setRing_scanning (s : State) (r : Nat) (v : Ring) : (s.setRing r v).scanning = s.scanning := rfl
@[simp] theorem State.setRing_shapers (s : State) (r : Nat) (v : Ring) : (s.setRing r v).shapers = s.shapers := rfl
@[simp] theorem State.setRing_hists (s : State) (r : Nat) (v : Ring) : (s.setRing r v).hists = s.hists := rfl
@[simp] theorem State.setRing_histSamples (s : State) (r : Nat) (v : Ring) : (s.setRing r v).histSamples = s.histSamples := rfl
@[simp] theorem State.setRing_histBase (s : State) (r : Nat) (v : Ring) : (s.setRing r v).histBase = s.histBase := rfl
@[simp] theorem State.setRing_steps (s : State) (r : Nat) (v : Ring) : (s.setRing r v).steps = s.steps := rfl
@[simp] theorem State.setRing_nextStep (s : State) (r : Nat) (v : Ring) : (s.setRing r v).nextStep = s.nextStep := rfl
@[simp] theorem State.setRing_prefills (s : State) (r : Nat) (v : Ring) : (s.setRing r v).prefills = s.prefills := rfl
@[simp] theorem State.setRing_mes (s : State) (r : Nat) (v : Ring) : (s.setRing r v).mes = s.mes := rfl
@[simp] theorem State.setRing_tiles (s : State) (r : Nat) (v : Ring) : (s.setRing r v).tiles = s.tiles := rfl
@[simp] theorem State.setRing_meShort (s : State) (r : Nat) (v : Ring) : (s.setRing r v).meShort = s.meShort := rfl
@[simp] theorem State.setRing_targetSet (s : State) (r : Nat) (v : Ring) : (s.setRing r v).targetSet = s.targetSet := rfl
@[simp] theorem State.setRing_nbus (s : State) (r : Nat) (v : Ring) : (s.setRing r v).nbus = s.nbus := rfl
@[simp] theorem State.setRing_dieTab (s : State) (r : Nat) (v : Ring) : (s.setRing r v).dieTab = s.dieTab := rfl
@[simp] theorem State.setRing_shards (s : State) (r : Nat) (v : Ring) : (s.setRing r v).shards = s.shards := rfl
@[simp] theorem State.setRing_vecBlocks (s : State) (r : Nat) (v : Ring) : (s.setRing r v).vecBlocks = s.vecBlocks := rfl
@[simp] theorem State.setRing_searches (s : State) (r : Nat) (v : Ring) : (s.setRing r v).searches = s.searches := rfl
@[simp] theorem State.setRing_nextReq (s : State) (r : Nat) (v : Ring) : (s.setRing r v).nextReq = s.nextReq := rfl
@[simp] theorem State.setRing_locks (s : State) (r : Nat) (v : Ring) : (s.setRing r v).locks = s.locks := rfl
@[simp] theorem State.setRing_nextLock (s : State) (r : Nat) (v : Ring) : (s.setRing r v).nextLock = s.nextLock := rfl
@[simp] theorem State.setRing_ckpt (s : State) (r : Nat) (v : Ring) : (s.setRing r v).ckpt = s.ckpt := rfl
@[simp] theorem State.setRing_genFloor (s : State) (r : Nat) (v : Ring) : (s.setRing r v).genFloor = s.genFloor := rfl
@[simp] theorem State.setRing_genBase (s : State) (r : Nat) (v : Ring) : (s.setRing r v).genBase = s.genBase := rfl
@[simp] theorem State.setRing_floorBusy (s : State) (r : Nat) (v : Ring) : (s.setRing r v).floorBusy = s.floorBusy := rfl
@[simp] theorem State.setRing_sec (s : State) (r : Nat) (v : Ring) : (s.setRing r v).sec = s.sec := rfl
@[simp] theorem State.setRing_flash (s : State) (r : Nat) (v : Ring) : (s.setRing r v).flash = s.flash := rfl
@[simp] theorem State.setRing_boot (s : State) (r : Nat) (v : Ring) : (s.setRing r v).boot = s.boot := rfl
@[simp] theorem State.setRing_fld (s : State) (r : Nat) (v : Ring) (g : Fld) : (s.setRing r v).fld g = s.fld g := rfl

/-! ## setNbu -/

@[simp] theorem State.setNbu_pending (s : State) (n : Nat) (v : Nbu) : (s.setNbu n v).pending = s.pending := rfl
@[simp] theorem State.setNbu_ready (s : State) (n : Nat) (v : Nbu) : (s.setNbu n v).ready = s.ready := rfl
@[simp] theorem State.setNbu_held (s : State) (n : Nat) (v : Nbu) : (s.setNbu n v).held = s.held := rfl
@[simp] theorem State.setNbu_outbox (s : State) (n : Nat) (v : Nbu) : (s.setNbu n v).outbox = s.outbox := rfl
@[simp] theorem State.setNbu_regs (s : State) (n : Nat) (v : Nbu) : (s.setNbu n v).regs = s.regs := rfl
@[simp] theorem State.setNbu_tick (s : State) (n : Nat) (v : Nbu) : (s.setNbu n v).tick = s.tick := rfl
@[simp] theorem State.setNbu_freeCtr (s : State) (n : Nat) (v : Nbu) : (s.setNbu n v).freeCtr = s.freeCtr := rfl
@[simp] theorem State.setNbu_provCtr (s : State) (n : Nat) (v : Nbu) : (s.setNbu n v).provCtr = s.provCtr := rfl
@[simp] theorem State.setNbu_slips (s : State) (n : Nat) (v : Nbu) : (s.setNbu n v).slips = s.slips := rfl
@[simp] theorem State.setNbu_versions (s : State) (n : Nat) (v : Nbu) : (s.setNbu n v).versions = s.versions := rfl
@[simp] theorem State.setNbu_qps (s : State) (n : Nat) (v : Nbu) : (s.setNbu n v).qps = s.qps := rfl
@[simp] theorem State.setNbu_mgmt (s : State) (n : Nat) (v : Nbu) : (s.setNbu n v).mgmt = s.mgmt := rfl
@[simp] theorem State.setNbu_sessions (s : State) (n : Nat) (v : Nbu) : (s.setNbu n v).sessions = s.sessions := rfl
@[simp] theorem State.setNbu_tenants (s : State) (n : Nat) (v : Nbu) : (s.setNbu n v).tenants = s.tenants := rfl
@[simp] theorem State.setNbu_rings (s : State) (n : Nat) (v : Nbu) : (s.setNbu n v).rings = s.rings := rfl
@[simp] theorem State.setNbu_sched (s : State) (n : Nat) (v : Nbu) : (s.setNbu n v).sched = s.sched := rfl
@[simp] theorem State.setNbu_fuses (s : State) (n : Nat) (v : Nbu) : (s.setNbu n v).fuses = s.fuses := rfl
@[simp] theorem State.setNbu_profile (s : State) (n : Nat) (v : Nbu) : (s.setNbu n v).profile = s.profile := rfl
@[simp] theorem State.setNbu_text (s : State) (n : Nat) (v : Nbu) : (s.setNbu n v).text = s.text := rfl
@[simp] theorem State.setNbu_entryGens (s : State) (n : Nat) (v : Nbu) : (s.setNbu n v).entryGens = s.entryGens := rfl
@[simp] theorem State.setNbu_preempting (s : State) (n : Nat) (v : Nbu) : (s.setNbu n v).preempting = s.preempting := rfl
@[simp] theorem State.setNbu_slots (s : State) (n : Nat) (v : Nbu) : (s.setNbu n v).slots = s.slots := rfl
@[simp] theorem State.setNbu_gens (s : State) (n : Nat) (v : Nbu) : (s.setNbu n v).gens = s.gens := rfl
@[simp] theorem State.setNbu_hbm (s : State) (n : Nat) (v : Nbu) : (s.setNbu n v).hbm = s.hbm := rfl
@[simp] theorem State.setNbu_cellar (s : State) (n : Nat) (v : Nbu) : (s.setNbu n v).cellar = s.cellar := rfl
@[simp] theorem State.setNbu_reserved (s : State) (n : Nat) (v : Nbu) : (s.setNbu n v).reserved = s.reserved := rfl
@[simp] theorem State.setNbu_pool (s : State) (n : Nat) (v : Nbu) : (s.setNbu n v).pool = s.pool := rfl
@[simp] theorem State.setNbu_hostRegions (s : State) (n : Nat) (v : Nbu) : (s.setNbu n v).hostRegions = s.hostRegions := rfl
@[simp] theorem State.setNbu_shelf (s : State) (n : Nat) (v : Nbu) : (s.setNbu n v).shelf = s.shelf := rfl
@[simp] theorem State.setNbu_commits (s : State) (n : Nat) (v : Nbu) : (s.setNbu n v).commits = s.commits := rfl
@[simp] theorem State.setNbu_revives (s : State) (n : Nat) (v : Nbu) : (s.setNbu n v).revives = s.revives := rfl
@[simp] theorem State.setNbu_moves (s : State) (n : Nat) (v : Nbu) : (s.setNbu n v).moves = s.moves := rfl
@[simp] theorem State.setNbu_peers (s : State) (n : Nat) (v : Nbu) : (s.setNbu n v).peers = s.peers := rfl
@[simp] theorem State.setNbu_ports (s : State) (n : Nat) (v : Nbu) : (s.setNbu n v).ports = s.ports := rfl
@[simp] theorem State.setNbu_spray (s : State) (n : Nat) (v : Nbu) : (s.setNbu n v).spray = s.spray := rfl
@[simp] theorem State.setNbu_nextTag (s : State) (n : Nat) (v : Nbu) : (s.setNbu n v).nextTag = s.nextTag := rfl
@[simp] theorem State.setNbu_host (s : State) (n : Nat) (v : Nbu) : (s.setNbu n v).host = s.host := rfl
@[simp] theorem State.setNbu_ringVec (s : State) (n : Nat) (v : Nbu) : (s.setNbu n v).ringVec = s.ringVec := rfl
@[simp] theorem State.setNbu_ringOwed (s : State) (n : Nat) (v : Nbu) : (s.setNbu n v).ringOwed = s.ringOwed := rfl
@[simp] theorem State.setNbu_cat (s : State) (n : Nat) (v : Nbu) : (s.setNbu n v).cat = s.cat := rfl
@[simp] theorem State.setNbu_membership (s : State) (n : Nat) (v : Nbu) : (s.setNbu n v).membership = s.membership := rfl
@[simp] theorem State.setNbu_principals (s : State) (n : Nat) (v : Nbu) : (s.setNbu n v).principals = s.principals := rfl
@[simp] theorem State.setNbu_errs (s : State) (n : Nat) (v : Nbu) : (s.setNbu n v).errs = s.errs := rfl
@[simp] theorem State.setNbu_trace (s : State) (n : Nat) (v : Nbu) : (s.setNbu n v).trace = s.trace := rfl
@[simp] theorem State.setNbu_scans (s : State) (n : Nat) (v : Nbu) : (s.setNbu n v).scans = s.scans := rfl
@[simp] theorem State.setNbu_scanning (s : State) (n : Nat) (v : Nbu) : (s.setNbu n v).scanning = s.scanning := rfl
@[simp] theorem State.setNbu_shapers (s : State) (n : Nat) (v : Nbu) : (s.setNbu n v).shapers = s.shapers := rfl
@[simp] theorem State.setNbu_hists (s : State) (n : Nat) (v : Nbu) : (s.setNbu n v).hists = s.hists := rfl
@[simp] theorem State.setNbu_histSamples (s : State) (n : Nat) (v : Nbu) : (s.setNbu n v).histSamples = s.histSamples := rfl
@[simp] theorem State.setNbu_histBase (s : State) (n : Nat) (v : Nbu) : (s.setNbu n v).histBase = s.histBase := rfl
@[simp] theorem State.setNbu_steps (s : State) (n : Nat) (v : Nbu) : (s.setNbu n v).steps = s.steps := rfl
@[simp] theorem State.setNbu_nextStep (s : State) (n : Nat) (v : Nbu) : (s.setNbu n v).nextStep = s.nextStep := rfl
@[simp] theorem State.setNbu_prefills (s : State) (n : Nat) (v : Nbu) : (s.setNbu n v).prefills = s.prefills := rfl
@[simp] theorem State.setNbu_mes (s : State) (n : Nat) (v : Nbu) : (s.setNbu n v).mes = s.mes := rfl
@[simp] theorem State.setNbu_tiles (s : State) (n : Nat) (v : Nbu) : (s.setNbu n v).tiles = s.tiles := rfl
@[simp] theorem State.setNbu_meShort (s : State) (n : Nat) (v : Nbu) : (s.setNbu n v).meShort = s.meShort := rfl
@[simp] theorem State.setNbu_targetSet (s : State) (n : Nat) (v : Nbu) : (s.setNbu n v).targetSet = s.targetSet := rfl
@[simp] theorem State.setNbu_dieTab (s : State) (n : Nat) (v : Nbu) : (s.setNbu n v).dieTab = s.dieTab := rfl
@[simp] theorem State.setNbu_shards (s : State) (n : Nat) (v : Nbu) : (s.setNbu n v).shards = s.shards := rfl
@[simp] theorem State.setNbu_vecBlocks (s : State) (n : Nat) (v : Nbu) : (s.setNbu n v).vecBlocks = s.vecBlocks := rfl
@[simp] theorem State.setNbu_searches (s : State) (n : Nat) (v : Nbu) : (s.setNbu n v).searches = s.searches := rfl
@[simp] theorem State.setNbu_nextReq (s : State) (n : Nat) (v : Nbu) : (s.setNbu n v).nextReq = s.nextReq := rfl
@[simp] theorem State.setNbu_locks (s : State) (n : Nat) (v : Nbu) : (s.setNbu n v).locks = s.locks := rfl
@[simp] theorem State.setNbu_nextLock (s : State) (n : Nat) (v : Nbu) : (s.setNbu n v).nextLock = s.nextLock := rfl
@[simp] theorem State.setNbu_ckpt (s : State) (n : Nat) (v : Nbu) : (s.setNbu n v).ckpt = s.ckpt := rfl
@[simp] theorem State.setNbu_genFloor (s : State) (n : Nat) (v : Nbu) : (s.setNbu n v).genFloor = s.genFloor := rfl
@[simp] theorem State.setNbu_genBase (s : State) (n : Nat) (v : Nbu) : (s.setNbu n v).genBase = s.genBase := rfl
@[simp] theorem State.setNbu_floorBusy (s : State) (n : Nat) (v : Nbu) : (s.setNbu n v).floorBusy = s.floorBusy := rfl
@[simp] theorem State.setNbu_sec (s : State) (n : Nat) (v : Nbu) : (s.setNbu n v).sec = s.sec := rfl
@[simp] theorem State.setNbu_flash (s : State) (n : Nat) (v : Nbu) : (s.setNbu n v).flash = s.flash := rfl
@[simp] theorem State.setNbu_boot (s : State) (n : Nat) (v : Nbu) : (s.setNbu n v).boot = s.boot := rfl
@[simp] theorem State.setNbu_fld (s : State) (n : Nat) (v : Nbu) (g : Fld) : (s.setNbu n v).fld g = s.fld g := rfl

/-! ## setPeer -/

@[simp] theorem State.setPeer_pending (s : State) (p : Nat) (v : Peer) : (s.setPeer p v).pending = s.pending := rfl
@[simp] theorem State.setPeer_ready (s : State) (p : Nat) (v : Peer) : (s.setPeer p v).ready = s.ready := rfl
@[simp] theorem State.setPeer_held (s : State) (p : Nat) (v : Peer) : (s.setPeer p v).held = s.held := rfl
@[simp] theorem State.setPeer_outbox (s : State) (p : Nat) (v : Peer) : (s.setPeer p v).outbox = s.outbox := rfl
@[simp] theorem State.setPeer_regs (s : State) (p : Nat) (v : Peer) : (s.setPeer p v).regs = s.regs := rfl
@[simp] theorem State.setPeer_tick (s : State) (p : Nat) (v : Peer) : (s.setPeer p v).tick = s.tick := rfl
@[simp] theorem State.setPeer_freeCtr (s : State) (p : Nat) (v : Peer) : (s.setPeer p v).freeCtr = s.freeCtr := rfl
@[simp] theorem State.setPeer_provCtr (s : State) (p : Nat) (v : Peer) : (s.setPeer p v).provCtr = s.provCtr := rfl
@[simp] theorem State.setPeer_slips (s : State) (p : Nat) (v : Peer) : (s.setPeer p v).slips = s.slips := rfl
@[simp] theorem State.setPeer_versions (s : State) (p : Nat) (v : Peer) : (s.setPeer p v).versions = s.versions := rfl
@[simp] theorem State.setPeer_qps (s : State) (p : Nat) (v : Peer) : (s.setPeer p v).qps = s.qps := rfl
@[simp] theorem State.setPeer_mgmt (s : State) (p : Nat) (v : Peer) : (s.setPeer p v).mgmt = s.mgmt := rfl
@[simp] theorem State.setPeer_sessions (s : State) (p : Nat) (v : Peer) : (s.setPeer p v).sessions = s.sessions := rfl
@[simp] theorem State.setPeer_tenants (s : State) (p : Nat) (v : Peer) : (s.setPeer p v).tenants = s.tenants := rfl
@[simp] theorem State.setPeer_rings (s : State) (p : Nat) (v : Peer) : (s.setPeer p v).rings = s.rings := rfl
@[simp] theorem State.setPeer_sched (s : State) (p : Nat) (v : Peer) : (s.setPeer p v).sched = s.sched := rfl
@[simp] theorem State.setPeer_fuses (s : State) (p : Nat) (v : Peer) : (s.setPeer p v).fuses = s.fuses := rfl
@[simp] theorem State.setPeer_profile (s : State) (p : Nat) (v : Peer) : (s.setPeer p v).profile = s.profile := rfl
@[simp] theorem State.setPeer_text (s : State) (p : Nat) (v : Peer) : (s.setPeer p v).text = s.text := rfl
@[simp] theorem State.setPeer_entryGens (s : State) (p : Nat) (v : Peer) : (s.setPeer p v).entryGens = s.entryGens := rfl
@[simp] theorem State.setPeer_preempting (s : State) (p : Nat) (v : Peer) : (s.setPeer p v).preempting = s.preempting := rfl
@[simp] theorem State.setPeer_slots (s : State) (p : Nat) (v : Peer) : (s.setPeer p v).slots = s.slots := rfl
@[simp] theorem State.setPeer_gens (s : State) (p : Nat) (v : Peer) : (s.setPeer p v).gens = s.gens := rfl
@[simp] theorem State.setPeer_hbm (s : State) (p : Nat) (v : Peer) : (s.setPeer p v).hbm = s.hbm := rfl
@[simp] theorem State.setPeer_cellar (s : State) (p : Nat) (v : Peer) : (s.setPeer p v).cellar = s.cellar := rfl
@[simp] theorem State.setPeer_reserved (s : State) (p : Nat) (v : Peer) : (s.setPeer p v).reserved = s.reserved := rfl
@[simp] theorem State.setPeer_pool (s : State) (p : Nat) (v : Peer) : (s.setPeer p v).pool = s.pool := rfl
@[simp] theorem State.setPeer_hostRegions (s : State) (p : Nat) (v : Peer) : (s.setPeer p v).hostRegions = s.hostRegions := rfl
@[simp] theorem State.setPeer_shelf (s : State) (p : Nat) (v : Peer) : (s.setPeer p v).shelf = s.shelf := rfl
@[simp] theorem State.setPeer_commits (s : State) (p : Nat) (v : Peer) : (s.setPeer p v).commits = s.commits := rfl
@[simp] theorem State.setPeer_revives (s : State) (p : Nat) (v : Peer) : (s.setPeer p v).revives = s.revives := rfl
@[simp] theorem State.setPeer_moves (s : State) (p : Nat) (v : Peer) : (s.setPeer p v).moves = s.moves := rfl
@[simp] theorem State.setPeer_ports (s : State) (p : Nat) (v : Peer) : (s.setPeer p v).ports = s.ports := rfl
@[simp] theorem State.setPeer_spray (s : State) (p : Nat) (v : Peer) : (s.setPeer p v).spray = s.spray := rfl
@[simp] theorem State.setPeer_nextTag (s : State) (p : Nat) (v : Peer) : (s.setPeer p v).nextTag = s.nextTag := rfl
@[simp] theorem State.setPeer_host (s : State) (p : Nat) (v : Peer) : (s.setPeer p v).host = s.host := rfl
@[simp] theorem State.setPeer_ringVec (s : State) (p : Nat) (v : Peer) : (s.setPeer p v).ringVec = s.ringVec := rfl
@[simp] theorem State.setPeer_ringOwed (s : State) (p : Nat) (v : Peer) : (s.setPeer p v).ringOwed = s.ringOwed := rfl
@[simp] theorem State.setPeer_cat (s : State) (p : Nat) (v : Peer) : (s.setPeer p v).cat = s.cat := rfl
@[simp] theorem State.setPeer_membership (s : State) (p : Nat) (v : Peer) : (s.setPeer p v).membership = s.membership := rfl
@[simp] theorem State.setPeer_principals (s : State) (p : Nat) (v : Peer) : (s.setPeer p v).principals = s.principals := rfl
@[simp] theorem State.setPeer_errs (s : State) (p : Nat) (v : Peer) : (s.setPeer p v).errs = s.errs := rfl
@[simp] theorem State.setPeer_trace (s : State) (p : Nat) (v : Peer) : (s.setPeer p v).trace = s.trace := rfl
@[simp] theorem State.setPeer_scans (s : State) (p : Nat) (v : Peer) : (s.setPeer p v).scans = s.scans := rfl
@[simp] theorem State.setPeer_scanning (s : State) (p : Nat) (v : Peer) : (s.setPeer p v).scanning = s.scanning := rfl
@[simp] theorem State.setPeer_shapers (s : State) (p : Nat) (v : Peer) : (s.setPeer p v).shapers = s.shapers := rfl
@[simp] theorem State.setPeer_hists (s : State) (p : Nat) (v : Peer) : (s.setPeer p v).hists = s.hists := rfl
@[simp] theorem State.setPeer_histSamples (s : State) (p : Nat) (v : Peer) : (s.setPeer p v).histSamples = s.histSamples := rfl
@[simp] theorem State.setPeer_histBase (s : State) (p : Nat) (v : Peer) : (s.setPeer p v).histBase = s.histBase := rfl
@[simp] theorem State.setPeer_steps (s : State) (p : Nat) (v : Peer) : (s.setPeer p v).steps = s.steps := rfl
@[simp] theorem State.setPeer_nextStep (s : State) (p : Nat) (v : Peer) : (s.setPeer p v).nextStep = s.nextStep := rfl
@[simp] theorem State.setPeer_prefills (s : State) (p : Nat) (v : Peer) : (s.setPeer p v).prefills = s.prefills := rfl
@[simp] theorem State.setPeer_mes (s : State) (p : Nat) (v : Peer) : (s.setPeer p v).mes = s.mes := rfl
@[simp] theorem State.setPeer_tiles (s : State) (p : Nat) (v : Peer) : (s.setPeer p v).tiles = s.tiles := rfl
@[simp] theorem State.setPeer_meShort (s : State) (p : Nat) (v : Peer) : (s.setPeer p v).meShort = s.meShort := rfl
@[simp] theorem State.setPeer_targetSet (s : State) (p : Nat) (v : Peer) : (s.setPeer p v).targetSet = s.targetSet := rfl
@[simp] theorem State.setPeer_nbus (s : State) (p : Nat) (v : Peer) : (s.setPeer p v).nbus = s.nbus := rfl
@[simp] theorem State.setPeer_dieTab (s : State) (p : Nat) (v : Peer) : (s.setPeer p v).dieTab = s.dieTab := rfl
@[simp] theorem State.setPeer_shards (s : State) (p : Nat) (v : Peer) : (s.setPeer p v).shards = s.shards := rfl
@[simp] theorem State.setPeer_vecBlocks (s : State) (p : Nat) (v : Peer) : (s.setPeer p v).vecBlocks = s.vecBlocks := rfl
@[simp] theorem State.setPeer_searches (s : State) (p : Nat) (v : Peer) : (s.setPeer p v).searches = s.searches := rfl
@[simp] theorem State.setPeer_nextReq (s : State) (p : Nat) (v : Peer) : (s.setPeer p v).nextReq = s.nextReq := rfl
@[simp] theorem State.setPeer_locks (s : State) (p : Nat) (v : Peer) : (s.setPeer p v).locks = s.locks := rfl
@[simp] theorem State.setPeer_nextLock (s : State) (p : Nat) (v : Peer) : (s.setPeer p v).nextLock = s.nextLock := rfl
@[simp] theorem State.setPeer_ckpt (s : State) (p : Nat) (v : Peer) : (s.setPeer p v).ckpt = s.ckpt := rfl
@[simp] theorem State.setPeer_genFloor (s : State) (p : Nat) (v : Peer) : (s.setPeer p v).genFloor = s.genFloor := rfl
@[simp] theorem State.setPeer_genBase (s : State) (p : Nat) (v : Peer) : (s.setPeer p v).genBase = s.genBase := rfl
@[simp] theorem State.setPeer_floorBusy (s : State) (p : Nat) (v : Peer) : (s.setPeer p v).floorBusy = s.floorBusy := rfl
@[simp] theorem State.setPeer_sec (s : State) (p : Nat) (v : Peer) : (s.setPeer p v).sec = s.sec := rfl
@[simp] theorem State.setPeer_flash (s : State) (p : Nat) (v : Peer) : (s.setPeer p v).flash = s.flash := rfl
@[simp] theorem State.setPeer_boot (s : State) (p : Nat) (v : Peer) : (s.setPeer p v).boot = s.boot := rfl
@[simp] theorem State.setPeer_fld (s : State) (p : Nat) (v : Peer) (g : Fld) : (s.setPeer p v).fld g = s.fld g := rfl

/-! ## setPort -/

@[simp] theorem State.setPort_pending (s : State) (p : Nat) (v : Port) : (s.setPort p v).pending = s.pending := rfl
@[simp] theorem State.setPort_ready (s : State) (p : Nat) (v : Port) : (s.setPort p v).ready = s.ready := rfl
@[simp] theorem State.setPort_held (s : State) (p : Nat) (v : Port) : (s.setPort p v).held = s.held := rfl
@[simp] theorem State.setPort_outbox (s : State) (p : Nat) (v : Port) : (s.setPort p v).outbox = s.outbox := rfl
@[simp] theorem State.setPort_regs (s : State) (p : Nat) (v : Port) : (s.setPort p v).regs = s.regs := rfl
@[simp] theorem State.setPort_tick (s : State) (p : Nat) (v : Port) : (s.setPort p v).tick = s.tick := rfl
@[simp] theorem State.setPort_freeCtr (s : State) (p : Nat) (v : Port) : (s.setPort p v).freeCtr = s.freeCtr := rfl
@[simp] theorem State.setPort_provCtr (s : State) (p : Nat) (v : Port) : (s.setPort p v).provCtr = s.provCtr := rfl
@[simp] theorem State.setPort_slips (s : State) (p : Nat) (v : Port) : (s.setPort p v).slips = s.slips := rfl
@[simp] theorem State.setPort_versions (s : State) (p : Nat) (v : Port) : (s.setPort p v).versions = s.versions := rfl
@[simp] theorem State.setPort_qps (s : State) (p : Nat) (v : Port) : (s.setPort p v).qps = s.qps := rfl
@[simp] theorem State.setPort_mgmt (s : State) (p : Nat) (v : Port) : (s.setPort p v).mgmt = s.mgmt := rfl
@[simp] theorem State.setPort_sessions (s : State) (p : Nat) (v : Port) : (s.setPort p v).sessions = s.sessions := rfl
@[simp] theorem State.setPort_tenants (s : State) (p : Nat) (v : Port) : (s.setPort p v).tenants = s.tenants := rfl
@[simp] theorem State.setPort_rings (s : State) (p : Nat) (v : Port) : (s.setPort p v).rings = s.rings := rfl
@[simp] theorem State.setPort_sched (s : State) (p : Nat) (v : Port) : (s.setPort p v).sched = s.sched := rfl
@[simp] theorem State.setPort_fuses (s : State) (p : Nat) (v : Port) : (s.setPort p v).fuses = s.fuses := rfl
@[simp] theorem State.setPort_profile (s : State) (p : Nat) (v : Port) : (s.setPort p v).profile = s.profile := rfl
@[simp] theorem State.setPort_text (s : State) (p : Nat) (v : Port) : (s.setPort p v).text = s.text := rfl
@[simp] theorem State.setPort_entryGens (s : State) (p : Nat) (v : Port) : (s.setPort p v).entryGens = s.entryGens := rfl
@[simp] theorem State.setPort_preempting (s : State) (p : Nat) (v : Port) : (s.setPort p v).preempting = s.preempting := rfl
@[simp] theorem State.setPort_slots (s : State) (p : Nat) (v : Port) : (s.setPort p v).slots = s.slots := rfl
@[simp] theorem State.setPort_gens (s : State) (p : Nat) (v : Port) : (s.setPort p v).gens = s.gens := rfl
@[simp] theorem State.setPort_hbm (s : State) (p : Nat) (v : Port) : (s.setPort p v).hbm = s.hbm := rfl
@[simp] theorem State.setPort_cellar (s : State) (p : Nat) (v : Port) : (s.setPort p v).cellar = s.cellar := rfl
@[simp] theorem State.setPort_reserved (s : State) (p : Nat) (v : Port) : (s.setPort p v).reserved = s.reserved := rfl
@[simp] theorem State.setPort_pool (s : State) (p : Nat) (v : Port) : (s.setPort p v).pool = s.pool := rfl
@[simp] theorem State.setPort_hostRegions (s : State) (p : Nat) (v : Port) : (s.setPort p v).hostRegions = s.hostRegions := rfl
@[simp] theorem State.setPort_shelf (s : State) (p : Nat) (v : Port) : (s.setPort p v).shelf = s.shelf := rfl
@[simp] theorem State.setPort_commits (s : State) (p : Nat) (v : Port) : (s.setPort p v).commits = s.commits := rfl
@[simp] theorem State.setPort_revives (s : State) (p : Nat) (v : Port) : (s.setPort p v).revives = s.revives := rfl
@[simp] theorem State.setPort_moves (s : State) (p : Nat) (v : Port) : (s.setPort p v).moves = s.moves := rfl
@[simp] theorem State.setPort_peers (s : State) (p : Nat) (v : Port) : (s.setPort p v).peers = s.peers := rfl
@[simp] theorem State.setPort_spray (s : State) (p : Nat) (v : Port) : (s.setPort p v).spray = s.spray := rfl
@[simp] theorem State.setPort_nextTag (s : State) (p : Nat) (v : Port) : (s.setPort p v).nextTag = s.nextTag := rfl
@[simp] theorem State.setPort_host (s : State) (p : Nat) (v : Port) : (s.setPort p v).host = s.host := rfl
@[simp] theorem State.setPort_ringVec (s : State) (p : Nat) (v : Port) : (s.setPort p v).ringVec = s.ringVec := rfl
@[simp] theorem State.setPort_ringOwed (s : State) (p : Nat) (v : Port) : (s.setPort p v).ringOwed = s.ringOwed := rfl
@[simp] theorem State.setPort_cat (s : State) (p : Nat) (v : Port) : (s.setPort p v).cat = s.cat := rfl
@[simp] theorem State.setPort_membership (s : State) (p : Nat) (v : Port) : (s.setPort p v).membership = s.membership := rfl
@[simp] theorem State.setPort_principals (s : State) (p : Nat) (v : Port) : (s.setPort p v).principals = s.principals := rfl
@[simp] theorem State.setPort_errs (s : State) (p : Nat) (v : Port) : (s.setPort p v).errs = s.errs := rfl
@[simp] theorem State.setPort_trace (s : State) (p : Nat) (v : Port) : (s.setPort p v).trace = s.trace := rfl
@[simp] theorem State.setPort_scans (s : State) (p : Nat) (v : Port) : (s.setPort p v).scans = s.scans := rfl
@[simp] theorem State.setPort_scanning (s : State) (p : Nat) (v : Port) : (s.setPort p v).scanning = s.scanning := rfl
@[simp] theorem State.setPort_shapers (s : State) (p : Nat) (v : Port) : (s.setPort p v).shapers = s.shapers := rfl
@[simp] theorem State.setPort_hists (s : State) (p : Nat) (v : Port) : (s.setPort p v).hists = s.hists := rfl
@[simp] theorem State.setPort_histSamples (s : State) (p : Nat) (v : Port) : (s.setPort p v).histSamples = s.histSamples := rfl
@[simp] theorem State.setPort_histBase (s : State) (p : Nat) (v : Port) : (s.setPort p v).histBase = s.histBase := rfl
@[simp] theorem State.setPort_steps (s : State) (p : Nat) (v : Port) : (s.setPort p v).steps = s.steps := rfl
@[simp] theorem State.setPort_nextStep (s : State) (p : Nat) (v : Port) : (s.setPort p v).nextStep = s.nextStep := rfl
@[simp] theorem State.setPort_prefills (s : State) (p : Nat) (v : Port) : (s.setPort p v).prefills = s.prefills := rfl
@[simp] theorem State.setPort_mes (s : State) (p : Nat) (v : Port) : (s.setPort p v).mes = s.mes := rfl
@[simp] theorem State.setPort_tiles (s : State) (p : Nat) (v : Port) : (s.setPort p v).tiles = s.tiles := rfl
@[simp] theorem State.setPort_meShort (s : State) (p : Nat) (v : Port) : (s.setPort p v).meShort = s.meShort := rfl
@[simp] theorem State.setPort_targetSet (s : State) (p : Nat) (v : Port) : (s.setPort p v).targetSet = s.targetSet := rfl
@[simp] theorem State.setPort_nbus (s : State) (p : Nat) (v : Port) : (s.setPort p v).nbus = s.nbus := rfl
@[simp] theorem State.setPort_dieTab (s : State) (p : Nat) (v : Port) : (s.setPort p v).dieTab = s.dieTab := rfl
@[simp] theorem State.setPort_shards (s : State) (p : Nat) (v : Port) : (s.setPort p v).shards = s.shards := rfl
@[simp] theorem State.setPort_vecBlocks (s : State) (p : Nat) (v : Port) : (s.setPort p v).vecBlocks = s.vecBlocks := rfl
@[simp] theorem State.setPort_searches (s : State) (p : Nat) (v : Port) : (s.setPort p v).searches = s.searches := rfl
@[simp] theorem State.setPort_nextReq (s : State) (p : Nat) (v : Port) : (s.setPort p v).nextReq = s.nextReq := rfl
@[simp] theorem State.setPort_locks (s : State) (p : Nat) (v : Port) : (s.setPort p v).locks = s.locks := rfl
@[simp] theorem State.setPort_nextLock (s : State) (p : Nat) (v : Port) : (s.setPort p v).nextLock = s.nextLock := rfl
@[simp] theorem State.setPort_ckpt (s : State) (p : Nat) (v : Port) : (s.setPort p v).ckpt = s.ckpt := rfl
@[simp] theorem State.setPort_genFloor (s : State) (p : Nat) (v : Port) : (s.setPort p v).genFloor = s.genFloor := rfl
@[simp] theorem State.setPort_genBase (s : State) (p : Nat) (v : Port) : (s.setPort p v).genBase = s.genBase := rfl
@[simp] theorem State.setPort_floorBusy (s : State) (p : Nat) (v : Port) : (s.setPort p v).floorBusy = s.floorBusy := rfl
@[simp] theorem State.setPort_sec (s : State) (p : Nat) (v : Port) : (s.setPort p v).sec = s.sec := rfl
@[simp] theorem State.setPort_flash (s : State) (p : Nat) (v : Port) : (s.setPort p v).flash = s.flash := rfl
@[simp] theorem State.setPort_boot (s : State) (p : Nat) (v : Port) : (s.setPort p v).boot = s.boot := rfl
@[simp] theorem State.setPort_fld (s : State) (p : Nat) (v : Port) (g : Fld) : (s.setPort p v).fld g = s.fld g := rfl

/-! ## updErrs -/

@[simp] theorem State.updErrs_pending (s : State) (f : Errs → Errs) : (s.updErrs f).pending = s.pending := rfl
@[simp] theorem State.updErrs_ready (s : State) (f : Errs → Errs) : (s.updErrs f).ready = s.ready := rfl
@[simp] theorem State.updErrs_held (s : State) (f : Errs → Errs) : (s.updErrs f).held = s.held := rfl
@[simp] theorem State.updErrs_outbox (s : State) (f : Errs → Errs) : (s.updErrs f).outbox = s.outbox := rfl
@[simp] theorem State.updErrs_regs (s : State) (f : Errs → Errs) : (s.updErrs f).regs = s.regs := rfl
@[simp] theorem State.updErrs_tick (s : State) (f : Errs → Errs) : (s.updErrs f).tick = s.tick := rfl
@[simp] theorem State.updErrs_freeCtr (s : State) (f : Errs → Errs) : (s.updErrs f).freeCtr = s.freeCtr := rfl
@[simp] theorem State.updErrs_provCtr (s : State) (f : Errs → Errs) : (s.updErrs f).provCtr = s.provCtr := rfl
@[simp] theorem State.updErrs_slips (s : State) (f : Errs → Errs) : (s.updErrs f).slips = s.slips := rfl
@[simp] theorem State.updErrs_versions (s : State) (f : Errs → Errs) : (s.updErrs f).versions = s.versions := rfl
@[simp] theorem State.updErrs_qps (s : State) (f : Errs → Errs) : (s.updErrs f).qps = s.qps := rfl
@[simp] theorem State.updErrs_mgmt (s : State) (f : Errs → Errs) : (s.updErrs f).mgmt = s.mgmt := rfl
@[simp] theorem State.updErrs_sessions (s : State) (f : Errs → Errs) : (s.updErrs f).sessions = s.sessions := rfl
@[simp] theorem State.updErrs_tenants (s : State) (f : Errs → Errs) : (s.updErrs f).tenants = s.tenants := rfl
@[simp] theorem State.updErrs_rings (s : State) (f : Errs → Errs) : (s.updErrs f).rings = s.rings := rfl
@[simp] theorem State.updErrs_sched (s : State) (f : Errs → Errs) : (s.updErrs f).sched = s.sched := rfl
@[simp] theorem State.updErrs_fuses (s : State) (f : Errs → Errs) : (s.updErrs f).fuses = s.fuses := rfl
@[simp] theorem State.updErrs_profile (s : State) (f : Errs → Errs) : (s.updErrs f).profile = s.profile := rfl
@[simp] theorem State.updErrs_text (s : State) (f : Errs → Errs) : (s.updErrs f).text = s.text := rfl
@[simp] theorem State.updErrs_entryGens (s : State) (f : Errs → Errs) : (s.updErrs f).entryGens = s.entryGens := rfl
@[simp] theorem State.updErrs_preempting (s : State) (f : Errs → Errs) : (s.updErrs f).preempting = s.preempting := rfl
@[simp] theorem State.updErrs_slots (s : State) (f : Errs → Errs) : (s.updErrs f).slots = s.slots := rfl
@[simp] theorem State.updErrs_gens (s : State) (f : Errs → Errs) : (s.updErrs f).gens = s.gens := rfl
@[simp] theorem State.updErrs_hbm (s : State) (f : Errs → Errs) : (s.updErrs f).hbm = s.hbm := rfl
@[simp] theorem State.updErrs_cellar (s : State) (f : Errs → Errs) : (s.updErrs f).cellar = s.cellar := rfl
@[simp] theorem State.updErrs_reserved (s : State) (f : Errs → Errs) : (s.updErrs f).reserved = s.reserved := rfl
@[simp] theorem State.updErrs_pool (s : State) (f : Errs → Errs) : (s.updErrs f).pool = s.pool := rfl
@[simp] theorem State.updErrs_hostRegions (s : State) (f : Errs → Errs) : (s.updErrs f).hostRegions = s.hostRegions := rfl
@[simp] theorem State.updErrs_shelf (s : State) (f : Errs → Errs) : (s.updErrs f).shelf = s.shelf := rfl
@[simp] theorem State.updErrs_commits (s : State) (f : Errs → Errs) : (s.updErrs f).commits = s.commits := rfl
@[simp] theorem State.updErrs_revives (s : State) (f : Errs → Errs) : (s.updErrs f).revives = s.revives := rfl
@[simp] theorem State.updErrs_moves (s : State) (f : Errs → Errs) : (s.updErrs f).moves = s.moves := rfl
@[simp] theorem State.updErrs_peers (s : State) (f : Errs → Errs) : (s.updErrs f).peers = s.peers := rfl
@[simp] theorem State.updErrs_ports (s : State) (f : Errs → Errs) : (s.updErrs f).ports = s.ports := rfl
@[simp] theorem State.updErrs_spray (s : State) (f : Errs → Errs) : (s.updErrs f).spray = s.spray := rfl
@[simp] theorem State.updErrs_nextTag (s : State) (f : Errs → Errs) : (s.updErrs f).nextTag = s.nextTag := rfl
@[simp] theorem State.updErrs_host (s : State) (f : Errs → Errs) : (s.updErrs f).host = s.host := rfl
@[simp] theorem State.updErrs_ringVec (s : State) (f : Errs → Errs) : (s.updErrs f).ringVec = s.ringVec := rfl
@[simp] theorem State.updErrs_ringOwed (s : State) (f : Errs → Errs) : (s.updErrs f).ringOwed = s.ringOwed := rfl
@[simp] theorem State.updErrs_cat (s : State) (f : Errs → Errs) : (s.updErrs f).cat = s.cat := rfl
@[simp] theorem State.updErrs_membership (s : State) (f : Errs → Errs) : (s.updErrs f).membership = s.membership := rfl
@[simp] theorem State.updErrs_principals (s : State) (f : Errs → Errs) : (s.updErrs f).principals = s.principals := rfl
@[simp] theorem State.updErrs_trace (s : State) (f : Errs → Errs) : (s.updErrs f).trace = s.trace := rfl
@[simp] theorem State.updErrs_scans (s : State) (f : Errs → Errs) : (s.updErrs f).scans = s.scans := rfl
@[simp] theorem State.updErrs_scanning (s : State) (f : Errs → Errs) : (s.updErrs f).scanning = s.scanning := rfl
@[simp] theorem State.updErrs_shapers (s : State) (f : Errs → Errs) : (s.updErrs f).shapers = s.shapers := rfl
@[simp] theorem State.updErrs_hists (s : State) (f : Errs → Errs) : (s.updErrs f).hists = s.hists := rfl
@[simp] theorem State.updErrs_histSamples (s : State) (f : Errs → Errs) : (s.updErrs f).histSamples = s.histSamples := rfl
@[simp] theorem State.updErrs_histBase (s : State) (f : Errs → Errs) : (s.updErrs f).histBase = s.histBase := rfl
@[simp] theorem State.updErrs_steps (s : State) (f : Errs → Errs) : (s.updErrs f).steps = s.steps := rfl
@[simp] theorem State.updErrs_nextStep (s : State) (f : Errs → Errs) : (s.updErrs f).nextStep = s.nextStep := rfl
@[simp] theorem State.updErrs_prefills (s : State) (f : Errs → Errs) : (s.updErrs f).prefills = s.prefills := rfl
@[simp] theorem State.updErrs_mes (s : State) (f : Errs → Errs) : (s.updErrs f).mes = s.mes := rfl
@[simp] theorem State.updErrs_tiles (s : State) (f : Errs → Errs) : (s.updErrs f).tiles = s.tiles := rfl
@[simp] theorem State.updErrs_meShort (s : State) (f : Errs → Errs) : (s.updErrs f).meShort = s.meShort := rfl
@[simp] theorem State.updErrs_targetSet (s : State) (f : Errs → Errs) : (s.updErrs f).targetSet = s.targetSet := rfl
@[simp] theorem State.updErrs_nbus (s : State) (f : Errs → Errs) : (s.updErrs f).nbus = s.nbus := rfl
@[simp] theorem State.updErrs_dieTab (s : State) (f : Errs → Errs) : (s.updErrs f).dieTab = s.dieTab := rfl
@[simp] theorem State.updErrs_shards (s : State) (f : Errs → Errs) : (s.updErrs f).shards = s.shards := rfl
@[simp] theorem State.updErrs_vecBlocks (s : State) (f : Errs → Errs) : (s.updErrs f).vecBlocks = s.vecBlocks := rfl
@[simp] theorem State.updErrs_searches (s : State) (f : Errs → Errs) : (s.updErrs f).searches = s.searches := rfl
@[simp] theorem State.updErrs_nextReq (s : State) (f : Errs → Errs) : (s.updErrs f).nextReq = s.nextReq := rfl
@[simp] theorem State.updErrs_locks (s : State) (f : Errs → Errs) : (s.updErrs f).locks = s.locks := rfl
@[simp] theorem State.updErrs_nextLock (s : State) (f : Errs → Errs) : (s.updErrs f).nextLock = s.nextLock := rfl
@[simp] theorem State.updErrs_ckpt (s : State) (f : Errs → Errs) : (s.updErrs f).ckpt = s.ckpt := rfl
@[simp] theorem State.updErrs_genFloor (s : State) (f : Errs → Errs) : (s.updErrs f).genFloor = s.genFloor := rfl
@[simp] theorem State.updErrs_genBase (s : State) (f : Errs → Errs) : (s.updErrs f).genBase = s.genBase := rfl
@[simp] theorem State.updErrs_floorBusy (s : State) (f : Errs → Errs) : (s.updErrs f).floorBusy = s.floorBusy := rfl
@[simp] theorem State.updErrs_sec (s : State) (f : Errs → Errs) : (s.updErrs f).sec = s.sec := rfl
@[simp] theorem State.updErrs_flash (s : State) (f : Errs → Errs) : (s.updErrs f).flash = s.flash := rfl
@[simp] theorem State.updErrs_boot (s : State) (f : Errs → Errs) : (s.updErrs f).boot = s.boot := rfl
@[simp] theorem State.updErrs_fld (s : State) (f : Errs → Errs) (g : Fld) : (s.updErrs f).fld g = s.fld g := rfl

/-! ## updCkpt -/

@[simp] theorem State.updCkpt_pending (s : State) (f : Ckpt → Ckpt) : (s.updCkpt f).pending = s.pending := rfl
@[simp] theorem State.updCkpt_ready (s : State) (f : Ckpt → Ckpt) : (s.updCkpt f).ready = s.ready := rfl
@[simp] theorem State.updCkpt_held (s : State) (f : Ckpt → Ckpt) : (s.updCkpt f).held = s.held := rfl
@[simp] theorem State.updCkpt_outbox (s : State) (f : Ckpt → Ckpt) : (s.updCkpt f).outbox = s.outbox := rfl
@[simp] theorem State.updCkpt_regs (s : State) (f : Ckpt → Ckpt) : (s.updCkpt f).regs = s.regs := rfl
@[simp] theorem State.updCkpt_tick (s : State) (f : Ckpt → Ckpt) : (s.updCkpt f).tick = s.tick := rfl
@[simp] theorem State.updCkpt_freeCtr (s : State) (f : Ckpt → Ckpt) : (s.updCkpt f).freeCtr = s.freeCtr := rfl
@[simp] theorem State.updCkpt_provCtr (s : State) (f : Ckpt → Ckpt) : (s.updCkpt f).provCtr = s.provCtr := rfl
@[simp] theorem State.updCkpt_slips (s : State) (f : Ckpt → Ckpt) : (s.updCkpt f).slips = s.slips := rfl
@[simp] theorem State.updCkpt_versions (s : State) (f : Ckpt → Ckpt) : (s.updCkpt f).versions = s.versions := rfl
@[simp] theorem State.updCkpt_qps (s : State) (f : Ckpt → Ckpt) : (s.updCkpt f).qps = s.qps := rfl
@[simp] theorem State.updCkpt_mgmt (s : State) (f : Ckpt → Ckpt) : (s.updCkpt f).mgmt = s.mgmt := rfl
@[simp] theorem State.updCkpt_sessions (s : State) (f : Ckpt → Ckpt) : (s.updCkpt f).sessions = s.sessions := rfl
@[simp] theorem State.updCkpt_tenants (s : State) (f : Ckpt → Ckpt) : (s.updCkpt f).tenants = s.tenants := rfl
@[simp] theorem State.updCkpt_rings (s : State) (f : Ckpt → Ckpt) : (s.updCkpt f).rings = s.rings := rfl
@[simp] theorem State.updCkpt_sched (s : State) (f : Ckpt → Ckpt) : (s.updCkpt f).sched = s.sched := rfl
@[simp] theorem State.updCkpt_fuses (s : State) (f : Ckpt → Ckpt) : (s.updCkpt f).fuses = s.fuses := rfl
@[simp] theorem State.updCkpt_profile (s : State) (f : Ckpt → Ckpt) : (s.updCkpt f).profile = s.profile := rfl
@[simp] theorem State.updCkpt_text (s : State) (f : Ckpt → Ckpt) : (s.updCkpt f).text = s.text := rfl
@[simp] theorem State.updCkpt_entryGens (s : State) (f : Ckpt → Ckpt) : (s.updCkpt f).entryGens = s.entryGens := rfl
@[simp] theorem State.updCkpt_preempting (s : State) (f : Ckpt → Ckpt) : (s.updCkpt f).preempting = s.preempting := rfl
@[simp] theorem State.updCkpt_slots (s : State) (f : Ckpt → Ckpt) : (s.updCkpt f).slots = s.slots := rfl
@[simp] theorem State.updCkpt_gens (s : State) (f : Ckpt → Ckpt) : (s.updCkpt f).gens = s.gens := rfl
@[simp] theorem State.updCkpt_hbm (s : State) (f : Ckpt → Ckpt) : (s.updCkpt f).hbm = s.hbm := rfl
@[simp] theorem State.updCkpt_cellar (s : State) (f : Ckpt → Ckpt) : (s.updCkpt f).cellar = s.cellar := rfl
@[simp] theorem State.updCkpt_reserved (s : State) (f : Ckpt → Ckpt) : (s.updCkpt f).reserved = s.reserved := rfl
@[simp] theorem State.updCkpt_pool (s : State) (f : Ckpt → Ckpt) : (s.updCkpt f).pool = s.pool := rfl
@[simp] theorem State.updCkpt_hostRegions (s : State) (f : Ckpt → Ckpt) : (s.updCkpt f).hostRegions = s.hostRegions := rfl
@[simp] theorem State.updCkpt_shelf (s : State) (f : Ckpt → Ckpt) : (s.updCkpt f).shelf = s.shelf := rfl
@[simp] theorem State.updCkpt_commits (s : State) (f : Ckpt → Ckpt) : (s.updCkpt f).commits = s.commits := rfl
@[simp] theorem State.updCkpt_revives (s : State) (f : Ckpt → Ckpt) : (s.updCkpt f).revives = s.revives := rfl
@[simp] theorem State.updCkpt_moves (s : State) (f : Ckpt → Ckpt) : (s.updCkpt f).moves = s.moves := rfl
@[simp] theorem State.updCkpt_peers (s : State) (f : Ckpt → Ckpt) : (s.updCkpt f).peers = s.peers := rfl
@[simp] theorem State.updCkpt_ports (s : State) (f : Ckpt → Ckpt) : (s.updCkpt f).ports = s.ports := rfl
@[simp] theorem State.updCkpt_spray (s : State) (f : Ckpt → Ckpt) : (s.updCkpt f).spray = s.spray := rfl
@[simp] theorem State.updCkpt_nextTag (s : State) (f : Ckpt → Ckpt) : (s.updCkpt f).nextTag = s.nextTag := rfl
@[simp] theorem State.updCkpt_host (s : State) (f : Ckpt → Ckpt) : (s.updCkpt f).host = s.host := rfl
@[simp] theorem State.updCkpt_ringVec (s : State) (f : Ckpt → Ckpt) : (s.updCkpt f).ringVec = s.ringVec := rfl
@[simp] theorem State.updCkpt_ringOwed (s : State) (f : Ckpt → Ckpt) : (s.updCkpt f).ringOwed = s.ringOwed := rfl
@[simp] theorem State.updCkpt_cat (s : State) (f : Ckpt → Ckpt) : (s.updCkpt f).cat = s.cat := rfl
@[simp] theorem State.updCkpt_membership (s : State) (f : Ckpt → Ckpt) : (s.updCkpt f).membership = s.membership := rfl
@[simp] theorem State.updCkpt_principals (s : State) (f : Ckpt → Ckpt) : (s.updCkpt f).principals = s.principals := rfl
@[simp] theorem State.updCkpt_errs (s : State) (f : Ckpt → Ckpt) : (s.updCkpt f).errs = s.errs := rfl
@[simp] theorem State.updCkpt_trace (s : State) (f : Ckpt → Ckpt) : (s.updCkpt f).trace = s.trace := rfl
@[simp] theorem State.updCkpt_scans (s : State) (f : Ckpt → Ckpt) : (s.updCkpt f).scans = s.scans := rfl
@[simp] theorem State.updCkpt_scanning (s : State) (f : Ckpt → Ckpt) : (s.updCkpt f).scanning = s.scanning := rfl
@[simp] theorem State.updCkpt_shapers (s : State) (f : Ckpt → Ckpt) : (s.updCkpt f).shapers = s.shapers := rfl
@[simp] theorem State.updCkpt_hists (s : State) (f : Ckpt → Ckpt) : (s.updCkpt f).hists = s.hists := rfl
@[simp] theorem State.updCkpt_histSamples (s : State) (f : Ckpt → Ckpt) : (s.updCkpt f).histSamples = s.histSamples := rfl
@[simp] theorem State.updCkpt_histBase (s : State) (f : Ckpt → Ckpt) : (s.updCkpt f).histBase = s.histBase := rfl
@[simp] theorem State.updCkpt_steps (s : State) (f : Ckpt → Ckpt) : (s.updCkpt f).steps = s.steps := rfl
@[simp] theorem State.updCkpt_nextStep (s : State) (f : Ckpt → Ckpt) : (s.updCkpt f).nextStep = s.nextStep := rfl
@[simp] theorem State.updCkpt_prefills (s : State) (f : Ckpt → Ckpt) : (s.updCkpt f).prefills = s.prefills := rfl
@[simp] theorem State.updCkpt_mes (s : State) (f : Ckpt → Ckpt) : (s.updCkpt f).mes = s.mes := rfl
@[simp] theorem State.updCkpt_tiles (s : State) (f : Ckpt → Ckpt) : (s.updCkpt f).tiles = s.tiles := rfl
@[simp] theorem State.updCkpt_meShort (s : State) (f : Ckpt → Ckpt) : (s.updCkpt f).meShort = s.meShort := rfl
@[simp] theorem State.updCkpt_targetSet (s : State) (f : Ckpt → Ckpt) : (s.updCkpt f).targetSet = s.targetSet := rfl
@[simp] theorem State.updCkpt_nbus (s : State) (f : Ckpt → Ckpt) : (s.updCkpt f).nbus = s.nbus := rfl
@[simp] theorem State.updCkpt_dieTab (s : State) (f : Ckpt → Ckpt) : (s.updCkpt f).dieTab = s.dieTab := rfl
@[simp] theorem State.updCkpt_shards (s : State) (f : Ckpt → Ckpt) : (s.updCkpt f).shards = s.shards := rfl
@[simp] theorem State.updCkpt_vecBlocks (s : State) (f : Ckpt → Ckpt) : (s.updCkpt f).vecBlocks = s.vecBlocks := rfl
@[simp] theorem State.updCkpt_searches (s : State) (f : Ckpt → Ckpt) : (s.updCkpt f).searches = s.searches := rfl
@[simp] theorem State.updCkpt_nextReq (s : State) (f : Ckpt → Ckpt) : (s.updCkpt f).nextReq = s.nextReq := rfl
@[simp] theorem State.updCkpt_locks (s : State) (f : Ckpt → Ckpt) : (s.updCkpt f).locks = s.locks := rfl
@[simp] theorem State.updCkpt_nextLock (s : State) (f : Ckpt → Ckpt) : (s.updCkpt f).nextLock = s.nextLock := rfl
@[simp] theorem State.updCkpt_genFloor (s : State) (f : Ckpt → Ckpt) : (s.updCkpt f).genFloor = s.genFloor := rfl
@[simp] theorem State.updCkpt_genBase (s : State) (f : Ckpt → Ckpt) : (s.updCkpt f).genBase = s.genBase := rfl
@[simp] theorem State.updCkpt_floorBusy (s : State) (f : Ckpt → Ckpt) : (s.updCkpt f).floorBusy = s.floorBusy := rfl
@[simp] theorem State.updCkpt_sec (s : State) (f : Ckpt → Ckpt) : (s.updCkpt f).sec = s.sec := rfl
@[simp] theorem State.updCkpt_flash (s : State) (f : Ckpt → Ckpt) : (s.updCkpt f).flash = s.flash := rfl
@[simp] theorem State.updCkpt_boot (s : State) (f : Ckpt → Ckpt) : (s.updCkpt f).boot = s.boot := rfl
@[simp] theorem State.updCkpt_fld (s : State) (f : Ckpt → Ckpt) (g : Fld) : (s.updCkpt f).fld g = s.fld g := rfl

/-! ## updOutst -/

@[simp] theorem State.updOutst_pending (s : State) (c : Ctx) (tag : BitVec 32) (f : Outst → Outst) : (s.updOutst c tag f).pending = s.pending := rfl
@[simp] theorem State.updOutst_ready (s : State) (c : Ctx) (tag : BitVec 32) (f : Outst → Outst) : (s.updOutst c tag f).ready = s.ready := rfl
@[simp] theorem State.updOutst_held (s : State) (c : Ctx) (tag : BitVec 32) (f : Outst → Outst) : (s.updOutst c tag f).held = s.held := rfl
@[simp] theorem State.updOutst_outbox (s : State) (c : Ctx) (tag : BitVec 32) (f : Outst → Outst) : (s.updOutst c tag f).outbox = s.outbox := rfl
@[simp] theorem State.updOutst_regs (s : State) (c : Ctx) (tag : BitVec 32) (f : Outst → Outst) : (s.updOutst c tag f).regs = s.regs := rfl
@[simp] theorem State.updOutst_tick (s : State) (c : Ctx) (tag : BitVec 32) (f : Outst → Outst) : (s.updOutst c tag f).tick = s.tick := rfl
@[simp] theorem State.updOutst_freeCtr (s : State) (c : Ctx) (tag : BitVec 32) (f : Outst → Outst) : (s.updOutst c tag f).freeCtr = s.freeCtr := rfl
@[simp] theorem State.updOutst_provCtr (s : State) (c : Ctx) (tag : BitVec 32) (f : Outst → Outst) : (s.updOutst c tag f).provCtr = s.provCtr := rfl
@[simp] theorem State.updOutst_versions (s : State) (c : Ctx) (tag : BitVec 32) (f : Outst → Outst) : (s.updOutst c tag f).versions = s.versions := rfl
@[simp] theorem State.updOutst_qps (s : State) (c : Ctx) (tag : BitVec 32) (f : Outst → Outst) : (s.updOutst c tag f).qps = s.qps := rfl
@[simp] theorem State.updOutst_mgmt (s : State) (c : Ctx) (tag : BitVec 32) (f : Outst → Outst) : (s.updOutst c tag f).mgmt = s.mgmt := rfl
@[simp] theorem State.updOutst_sessions (s : State) (c : Ctx) (tag : BitVec 32) (f : Outst → Outst) : (s.updOutst c tag f).sessions = s.sessions := rfl
@[simp] theorem State.updOutst_tenants (s : State) (c : Ctx) (tag : BitVec 32) (f : Outst → Outst) : (s.updOutst c tag f).tenants = s.tenants := rfl
@[simp] theorem State.updOutst_rings (s : State) (c : Ctx) (tag : BitVec 32) (f : Outst → Outst) : (s.updOutst c tag f).rings = s.rings := rfl
@[simp] theorem State.updOutst_sched (s : State) (c : Ctx) (tag : BitVec 32) (f : Outst → Outst) : (s.updOutst c tag f).sched = s.sched := rfl
@[simp] theorem State.updOutst_fuses (s : State) (c : Ctx) (tag : BitVec 32) (f : Outst → Outst) : (s.updOutst c tag f).fuses = s.fuses := rfl
@[simp] theorem State.updOutst_profile (s : State) (c : Ctx) (tag : BitVec 32) (f : Outst → Outst) : (s.updOutst c tag f).profile = s.profile := rfl
@[simp] theorem State.updOutst_text (s : State) (c : Ctx) (tag : BitVec 32) (f : Outst → Outst) : (s.updOutst c tag f).text = s.text := rfl
@[simp] theorem State.updOutst_entryGens (s : State) (c : Ctx) (tag : BitVec 32) (f : Outst → Outst) : (s.updOutst c tag f).entryGens = s.entryGens := rfl
@[simp] theorem State.updOutst_preempting (s : State) (c : Ctx) (tag : BitVec 32) (f : Outst → Outst) : (s.updOutst c tag f).preempting = s.preempting := rfl
@[simp] theorem State.updOutst_slots (s : State) (c : Ctx) (tag : BitVec 32) (f : Outst → Outst) : (s.updOutst c tag f).slots = s.slots := rfl
@[simp] theorem State.updOutst_gens (s : State) (c : Ctx) (tag : BitVec 32) (f : Outst → Outst) : (s.updOutst c tag f).gens = s.gens := rfl
@[simp] theorem State.updOutst_hbm (s : State) (c : Ctx) (tag : BitVec 32) (f : Outst → Outst) : (s.updOutst c tag f).hbm = s.hbm := rfl
@[simp] theorem State.updOutst_cellar (s : State) (c : Ctx) (tag : BitVec 32) (f : Outst → Outst) : (s.updOutst c tag f).cellar = s.cellar := rfl
@[simp] theorem State.updOutst_reserved (s : State) (c : Ctx) (tag : BitVec 32) (f : Outst → Outst) : (s.updOutst c tag f).reserved = s.reserved := rfl
@[simp] theorem State.updOutst_pool (s : State) (c : Ctx) (tag : BitVec 32) (f : Outst → Outst) : (s.updOutst c tag f).pool = s.pool := rfl
@[simp] theorem State.updOutst_hostRegions (s : State) (c : Ctx) (tag : BitVec 32) (f : Outst → Outst) : (s.updOutst c tag f).hostRegions = s.hostRegions := rfl
@[simp] theorem State.updOutst_shelf (s : State) (c : Ctx) (tag : BitVec 32) (f : Outst → Outst) : (s.updOutst c tag f).shelf = s.shelf := rfl
@[simp] theorem State.updOutst_commits (s : State) (c : Ctx) (tag : BitVec 32) (f : Outst → Outst) : (s.updOutst c tag f).commits = s.commits := rfl
@[simp] theorem State.updOutst_revives (s : State) (c : Ctx) (tag : BitVec 32) (f : Outst → Outst) : (s.updOutst c tag f).revives = s.revives := rfl
@[simp] theorem State.updOutst_moves (s : State) (c : Ctx) (tag : BitVec 32) (f : Outst → Outst) : (s.updOutst c tag f).moves = s.moves := rfl
@[simp] theorem State.updOutst_peers (s : State) (c : Ctx) (tag : BitVec 32) (f : Outst → Outst) : (s.updOutst c tag f).peers = s.peers := rfl
@[simp] theorem State.updOutst_ports (s : State) (c : Ctx) (tag : BitVec 32) (f : Outst → Outst) : (s.updOutst c tag f).ports = s.ports := rfl
@[simp] theorem State.updOutst_spray (s : State) (c : Ctx) (tag : BitVec 32) (f : Outst → Outst) : (s.updOutst c tag f).spray = s.spray := rfl
@[simp] theorem State.updOutst_nextTag (s : State) (c : Ctx) (tag : BitVec 32) (f : Outst → Outst) : (s.updOutst c tag f).nextTag = s.nextTag := rfl
@[simp] theorem State.updOutst_host (s : State) (c : Ctx) (tag : BitVec 32) (f : Outst → Outst) : (s.updOutst c tag f).host = s.host := rfl
@[simp] theorem State.updOutst_ringVec (s : State) (c : Ctx) (tag : BitVec 32) (f : Outst → Outst) : (s.updOutst c tag f).ringVec = s.ringVec := rfl
@[simp] theorem State.updOutst_ringOwed (s : State) (c : Ctx) (tag : BitVec 32) (f : Outst → Outst) : (s.updOutst c tag f).ringOwed = s.ringOwed := rfl
@[simp] theorem State.updOutst_cat (s : State) (c : Ctx) (tag : BitVec 32) (f : Outst → Outst) : (s.updOutst c tag f).cat = s.cat := rfl
@[simp] theorem State.updOutst_membership (s : State) (c : Ctx) (tag : BitVec 32) (f : Outst → Outst) : (s.updOutst c tag f).membership = s.membership := rfl
@[simp] theorem State.updOutst_principals (s : State) (c : Ctx) (tag : BitVec 32) (f : Outst → Outst) : (s.updOutst c tag f).principals = s.principals := rfl
@[simp] theorem State.updOutst_errs (s : State) (c : Ctx) (tag : BitVec 32) (f : Outst → Outst) : (s.updOutst c tag f).errs = s.errs := rfl
@[simp] theorem State.updOutst_trace (s : State) (c : Ctx) (tag : BitVec 32) (f : Outst → Outst) : (s.updOutst c tag f).trace = s.trace := rfl
@[simp] theorem State.updOutst_scans (s : State) (c : Ctx) (tag : BitVec 32) (f : Outst → Outst) : (s.updOutst c tag f).scans = s.scans := rfl
@[simp] theorem State.updOutst_scanning (s : State) (c : Ctx) (tag : BitVec 32) (f : Outst → Outst) : (s.updOutst c tag f).scanning = s.scanning := rfl
@[simp] theorem State.updOutst_shapers (s : State) (c : Ctx) (tag : BitVec 32) (f : Outst → Outst) : (s.updOutst c tag f).shapers = s.shapers := rfl
@[simp] theorem State.updOutst_hists (s : State) (c : Ctx) (tag : BitVec 32) (f : Outst → Outst) : (s.updOutst c tag f).hists = s.hists := rfl
@[simp] theorem State.updOutst_histSamples (s : State) (c : Ctx) (tag : BitVec 32) (f : Outst → Outst) : (s.updOutst c tag f).histSamples = s.histSamples := rfl
@[simp] theorem State.updOutst_histBase (s : State) (c : Ctx) (tag : BitVec 32) (f : Outst → Outst) : (s.updOutst c tag f).histBase = s.histBase := rfl
@[simp] theorem State.updOutst_steps (s : State) (c : Ctx) (tag : BitVec 32) (f : Outst → Outst) : (s.updOutst c tag f).steps = s.steps := rfl
@[simp] theorem State.updOutst_nextStep (s : State) (c : Ctx) (tag : BitVec 32) (f : Outst → Outst) : (s.updOutst c tag f).nextStep = s.nextStep := rfl
@[simp] theorem State.updOutst_prefills (s : State) (c : Ctx) (tag : BitVec 32) (f : Outst → Outst) : (s.updOutst c tag f).prefills = s.prefills := rfl
@[simp] theorem State.updOutst_mes (s : State) (c : Ctx) (tag : BitVec 32) (f : Outst → Outst) : (s.updOutst c tag f).mes = s.mes := rfl
@[simp] theorem State.updOutst_tiles (s : State) (c : Ctx) (tag : BitVec 32) (f : Outst → Outst) : (s.updOutst c tag f).tiles = s.tiles := rfl
@[simp] theorem State.updOutst_meShort (s : State) (c : Ctx) (tag : BitVec 32) (f : Outst → Outst) : (s.updOutst c tag f).meShort = s.meShort := rfl
@[simp] theorem State.updOutst_targetSet (s : State) (c : Ctx) (tag : BitVec 32) (f : Outst → Outst) : (s.updOutst c tag f).targetSet = s.targetSet := rfl
@[simp] theorem State.updOutst_nbus (s : State) (c : Ctx) (tag : BitVec 32) (f : Outst → Outst) : (s.updOutst c tag f).nbus = s.nbus := rfl
@[simp] theorem State.updOutst_dieTab (s : State) (c : Ctx) (tag : BitVec 32) (f : Outst → Outst) : (s.updOutst c tag f).dieTab = s.dieTab := rfl
@[simp] theorem State.updOutst_shards (s : State) (c : Ctx) (tag : BitVec 32) (f : Outst → Outst) : (s.updOutst c tag f).shards = s.shards := rfl
@[simp] theorem State.updOutst_vecBlocks (s : State) (c : Ctx) (tag : BitVec 32) (f : Outst → Outst) : (s.updOutst c tag f).vecBlocks = s.vecBlocks := rfl
@[simp] theorem State.updOutst_searches (s : State) (c : Ctx) (tag : BitVec 32) (f : Outst → Outst) : (s.updOutst c tag f).searches = s.searches := rfl
@[simp] theorem State.updOutst_nextReq (s : State) (c : Ctx) (tag : BitVec 32) (f : Outst → Outst) : (s.updOutst c tag f).nextReq = s.nextReq := rfl
@[simp] theorem State.updOutst_locks (s : State) (c : Ctx) (tag : BitVec 32) (f : Outst → Outst) : (s.updOutst c tag f).locks = s.locks := rfl
@[simp] theorem State.updOutst_nextLock (s : State) (c : Ctx) (tag : BitVec 32) (f : Outst → Outst) : (s.updOutst c tag f).nextLock = s.nextLock := rfl
@[simp] theorem State.updOutst_ckpt (s : State) (c : Ctx) (tag : BitVec 32) (f : Outst → Outst) : (s.updOutst c tag f).ckpt = s.ckpt := rfl
@[simp] theorem State.updOutst_genFloor (s : State) (c : Ctx) (tag : BitVec 32) (f : Outst → Outst) : (s.updOutst c tag f).genFloor = s.genFloor := rfl
@[simp] theorem State.updOutst_genBase (s : State) (c : Ctx) (tag : BitVec 32) (f : Outst → Outst) : (s.updOutst c tag f).genBase = s.genBase := rfl
@[simp] theorem State.updOutst_floorBusy (s : State) (c : Ctx) (tag : BitVec 32) (f : Outst → Outst) : (s.updOutst c tag f).floorBusy = s.floorBusy := rfl
@[simp] theorem State.updOutst_sec (s : State) (c : Ctx) (tag : BitVec 32) (f : Outst → Outst) : (s.updOutst c tag f).sec = s.sec := rfl
@[simp] theorem State.updOutst_flash (s : State) (c : Ctx) (tag : BitVec 32) (f : Outst → Outst) : (s.updOutst c tag f).flash = s.flash := rfl
@[simp] theorem State.updOutst_boot (s : State) (c : Ctx) (tag : BitVec 32) (f : Outst → Outst) : (s.updOutst c tag f).boot = s.boot := rfl
@[simp] theorem State.updOutst_fld (s : State) (c : Ctx) (tag : BitVec 32) (f : Outst → Outst) (g : Fld) : (s.updOutst c tag f).fld g = s.fld g := rfl

/-! ## setShard -/

@[simp] theorem State.setShard_pending (s : State) (i : Nat) (v : Shard) : (s.setShard i v).pending = s.pending := rfl
@[simp] theorem State.setShard_ready (s : State) (i : Nat) (v : Shard) : (s.setShard i v).ready = s.ready := rfl
@[simp] theorem State.setShard_held (s : State) (i : Nat) (v : Shard) : (s.setShard i v).held = s.held := rfl
@[simp] theorem State.setShard_outbox (s : State) (i : Nat) (v : Shard) : (s.setShard i v).outbox = s.outbox := rfl
@[simp] theorem State.setShard_regs (s : State) (i : Nat) (v : Shard) : (s.setShard i v).regs = s.regs := rfl
@[simp] theorem State.setShard_tick (s : State) (i : Nat) (v : Shard) : (s.setShard i v).tick = s.tick := rfl
@[simp] theorem State.setShard_freeCtr (s : State) (i : Nat) (v : Shard) : (s.setShard i v).freeCtr = s.freeCtr := rfl
@[simp] theorem State.setShard_provCtr (s : State) (i : Nat) (v : Shard) : (s.setShard i v).provCtr = s.provCtr := rfl
@[simp] theorem State.setShard_slips (s : State) (i : Nat) (v : Shard) : (s.setShard i v).slips = s.slips := rfl
@[simp] theorem State.setShard_versions (s : State) (i : Nat) (v : Shard) : (s.setShard i v).versions = s.versions := rfl
@[simp] theorem State.setShard_qps (s : State) (i : Nat) (v : Shard) : (s.setShard i v).qps = s.qps := rfl
@[simp] theorem State.setShard_mgmt (s : State) (i : Nat) (v : Shard) : (s.setShard i v).mgmt = s.mgmt := rfl
@[simp] theorem State.setShard_sessions (s : State) (i : Nat) (v : Shard) : (s.setShard i v).sessions = s.sessions := rfl
@[simp] theorem State.setShard_tenants (s : State) (i : Nat) (v : Shard) : (s.setShard i v).tenants = s.tenants := rfl
@[simp] theorem State.setShard_rings (s : State) (i : Nat) (v : Shard) : (s.setShard i v).rings = s.rings := rfl
@[simp] theorem State.setShard_sched (s : State) (i : Nat) (v : Shard) : (s.setShard i v).sched = s.sched := rfl
@[simp] theorem State.setShard_fuses (s : State) (i : Nat) (v : Shard) : (s.setShard i v).fuses = s.fuses := rfl
@[simp] theorem State.setShard_profile (s : State) (i : Nat) (v : Shard) : (s.setShard i v).profile = s.profile := rfl
@[simp] theorem State.setShard_text (s : State) (i : Nat) (v : Shard) : (s.setShard i v).text = s.text := rfl
@[simp] theorem State.setShard_entryGens (s : State) (i : Nat) (v : Shard) : (s.setShard i v).entryGens = s.entryGens := rfl
@[simp] theorem State.setShard_preempting (s : State) (i : Nat) (v : Shard) : (s.setShard i v).preempting = s.preempting := rfl
@[simp] theorem State.setShard_slots (s : State) (i : Nat) (v : Shard) : (s.setShard i v).slots = s.slots := rfl
@[simp] theorem State.setShard_gens (s : State) (i : Nat) (v : Shard) : (s.setShard i v).gens = s.gens := rfl
@[simp] theorem State.setShard_hbm (s : State) (i : Nat) (v : Shard) : (s.setShard i v).hbm = s.hbm := rfl
@[simp] theorem State.setShard_cellar (s : State) (i : Nat) (v : Shard) : (s.setShard i v).cellar = s.cellar := rfl
@[simp] theorem State.setShard_reserved (s : State) (i : Nat) (v : Shard) : (s.setShard i v).reserved = s.reserved := rfl
@[simp] theorem State.setShard_pool (s : State) (i : Nat) (v : Shard) : (s.setShard i v).pool = s.pool := rfl
@[simp] theorem State.setShard_hostRegions (s : State) (i : Nat) (v : Shard) : (s.setShard i v).hostRegions = s.hostRegions := rfl
@[simp] theorem State.setShard_shelf (s : State) (i : Nat) (v : Shard) : (s.setShard i v).shelf = s.shelf := rfl
@[simp] theorem State.setShard_commits (s : State) (i : Nat) (v : Shard) : (s.setShard i v).commits = s.commits := rfl
@[simp] theorem State.setShard_revives (s : State) (i : Nat) (v : Shard) : (s.setShard i v).revives = s.revives := rfl
@[simp] theorem State.setShard_moves (s : State) (i : Nat) (v : Shard) : (s.setShard i v).moves = s.moves := rfl
@[simp] theorem State.setShard_peers (s : State) (i : Nat) (v : Shard) : (s.setShard i v).peers = s.peers := rfl
@[simp] theorem State.setShard_ports (s : State) (i : Nat) (v : Shard) : (s.setShard i v).ports = s.ports := rfl
@[simp] theorem State.setShard_spray (s : State) (i : Nat) (v : Shard) : (s.setShard i v).spray = s.spray := rfl
@[simp] theorem State.setShard_nextTag (s : State) (i : Nat) (v : Shard) : (s.setShard i v).nextTag = s.nextTag := rfl
@[simp] theorem State.setShard_host (s : State) (i : Nat) (v : Shard) : (s.setShard i v).host = s.host := rfl
@[simp] theorem State.setShard_ringVec (s : State) (i : Nat) (v : Shard) : (s.setShard i v).ringVec = s.ringVec := rfl
@[simp] theorem State.setShard_ringOwed (s : State) (i : Nat) (v : Shard) : (s.setShard i v).ringOwed = s.ringOwed := rfl
@[simp] theorem State.setShard_cat (s : State) (i : Nat) (v : Shard) : (s.setShard i v).cat = s.cat := rfl
@[simp] theorem State.setShard_membership (s : State) (i : Nat) (v : Shard) : (s.setShard i v).membership = s.membership := rfl
@[simp] theorem State.setShard_principals (s : State) (i : Nat) (v : Shard) : (s.setShard i v).principals = s.principals := rfl
@[simp] theorem State.setShard_errs (s : State) (i : Nat) (v : Shard) : (s.setShard i v).errs = s.errs := rfl
@[simp] theorem State.setShard_trace (s : State) (i : Nat) (v : Shard) : (s.setShard i v).trace = s.trace := rfl
@[simp] theorem State.setShard_scans (s : State) (i : Nat) (v : Shard) : (s.setShard i v).scans = s.scans := rfl
@[simp] theorem State.setShard_scanning (s : State) (i : Nat) (v : Shard) : (s.setShard i v).scanning = s.scanning := rfl
@[simp] theorem State.setShard_shapers (s : State) (i : Nat) (v : Shard) : (s.setShard i v).shapers = s.shapers := rfl
@[simp] theorem State.setShard_hists (s : State) (i : Nat) (v : Shard) : (s.setShard i v).hists = s.hists := rfl
@[simp] theorem State.setShard_histSamples (s : State) (i : Nat) (v : Shard) : (s.setShard i v).histSamples = s.histSamples := rfl
@[simp] theorem State.setShard_histBase (s : State) (i : Nat) (v : Shard) : (s.setShard i v).histBase = s.histBase := rfl
@[simp] theorem State.setShard_steps (s : State) (i : Nat) (v : Shard) : (s.setShard i v).steps = s.steps := rfl
@[simp] theorem State.setShard_nextStep (s : State) (i : Nat) (v : Shard) : (s.setShard i v).nextStep = s.nextStep := rfl
@[simp] theorem State.setShard_prefills (s : State) (i : Nat) (v : Shard) : (s.setShard i v).prefills = s.prefills := rfl
@[simp] theorem State.setShard_mes (s : State) (i : Nat) (v : Shard) : (s.setShard i v).mes = s.mes := rfl
@[simp] theorem State.setShard_tiles (s : State) (i : Nat) (v : Shard) : (s.setShard i v).tiles = s.tiles := rfl
@[simp] theorem State.setShard_meShort (s : State) (i : Nat) (v : Shard) : (s.setShard i v).meShort = s.meShort := rfl
@[simp] theorem State.setShard_targetSet (s : State) (i : Nat) (v : Shard) : (s.setShard i v).targetSet = s.targetSet := rfl
@[simp] theorem State.setShard_nbus (s : State) (i : Nat) (v : Shard) : (s.setShard i v).nbus = s.nbus := rfl
@[simp] theorem State.setShard_dieTab (s : State) (i : Nat) (v : Shard) : (s.setShard i v).dieTab = s.dieTab := rfl
@[simp] theorem State.setShard_vecBlocks (s : State) (i : Nat) (v : Shard) : (s.setShard i v).vecBlocks = s.vecBlocks := rfl
@[simp] theorem State.setShard_searches (s : State) (i : Nat) (v : Shard) : (s.setShard i v).searches = s.searches := rfl
@[simp] theorem State.setShard_nextReq (s : State) (i : Nat) (v : Shard) : (s.setShard i v).nextReq = s.nextReq := rfl
@[simp] theorem State.setShard_locks (s : State) (i : Nat) (v : Shard) : (s.setShard i v).locks = s.locks := rfl
@[simp] theorem State.setShard_nextLock (s : State) (i : Nat) (v : Shard) : (s.setShard i v).nextLock = s.nextLock := rfl
@[simp] theorem State.setShard_ckpt (s : State) (i : Nat) (v : Shard) : (s.setShard i v).ckpt = s.ckpt := rfl
@[simp] theorem State.setShard_genFloor (s : State) (i : Nat) (v : Shard) : (s.setShard i v).genFloor = s.genFloor := rfl
@[simp] theorem State.setShard_genBase (s : State) (i : Nat) (v : Shard) : (s.setShard i v).genBase = s.genBase := rfl
@[simp] theorem State.setShard_floorBusy (s : State) (i : Nat) (v : Shard) : (s.setShard i v).floorBusy = s.floorBusy := rfl
@[simp] theorem State.setShard_sec (s : State) (i : Nat) (v : Shard) : (s.setShard i v).sec = s.sec := rfl
@[simp] theorem State.setShard_flash (s : State) (i : Nat) (v : Shard) : (s.setShard i v).flash = s.flash := rfl
@[simp] theorem State.setShard_boot (s : State) (i : Nat) (v : Shard) : (s.setShard i v).boot = s.boot := rfl
@[simp] theorem State.setShard_fld (s : State) (i : Nat) (v : Shard) (g : Fld) : (s.setShard i v).fld g = s.fld g := rfl

/-! ## setMe -/

@[simp] theorem State.setMe_pending (s : State) (e : Nat) (m : Me) : (s.setMe e m).pending = s.pending := rfl
@[simp] theorem State.setMe_ready (s : State) (e : Nat) (m : Me) : (s.setMe e m).ready = s.ready := rfl
@[simp] theorem State.setMe_held (s : State) (e : Nat) (m : Me) : (s.setMe e m).held = s.held := rfl
@[simp] theorem State.setMe_outbox (s : State) (e : Nat) (m : Me) : (s.setMe e m).outbox = s.outbox := rfl
@[simp] theorem State.setMe_regs (s : State) (e : Nat) (m : Me) : (s.setMe e m).regs = s.regs := rfl
@[simp] theorem State.setMe_tick (s : State) (e : Nat) (m : Me) : (s.setMe e m).tick = s.tick := rfl
@[simp] theorem State.setMe_freeCtr (s : State) (e : Nat) (m : Me) : (s.setMe e m).freeCtr = s.freeCtr := rfl
@[simp] theorem State.setMe_provCtr (s : State) (e : Nat) (m : Me) : (s.setMe e m).provCtr = s.provCtr := rfl
@[simp] theorem State.setMe_slips (s : State) (e : Nat) (m : Me) : (s.setMe e m).slips = s.slips := rfl
@[simp] theorem State.setMe_versions (s : State) (e : Nat) (m : Me) : (s.setMe e m).versions = s.versions := rfl
@[simp] theorem State.setMe_qps (s : State) (e : Nat) (m : Me) : (s.setMe e m).qps = s.qps := rfl
@[simp] theorem State.setMe_mgmt (s : State) (e : Nat) (m : Me) : (s.setMe e m).mgmt = s.mgmt := rfl
@[simp] theorem State.setMe_sessions (s : State) (e : Nat) (m : Me) : (s.setMe e m).sessions = s.sessions := rfl
@[simp] theorem State.setMe_tenants (s : State) (e : Nat) (m : Me) : (s.setMe e m).tenants = s.tenants := rfl
@[simp] theorem State.setMe_rings (s : State) (e : Nat) (m : Me) : (s.setMe e m).rings = s.rings := rfl
@[simp] theorem State.setMe_sched (s : State) (e : Nat) (m : Me) : (s.setMe e m).sched = s.sched := rfl
@[simp] theorem State.setMe_fuses (s : State) (e : Nat) (m : Me) : (s.setMe e m).fuses = s.fuses := rfl
@[simp] theorem State.setMe_profile (s : State) (e : Nat) (m : Me) : (s.setMe e m).profile = s.profile := rfl
@[simp] theorem State.setMe_text (s : State) (e : Nat) (m : Me) : (s.setMe e m).text = s.text := rfl
@[simp] theorem State.setMe_entryGens (s : State) (e : Nat) (m : Me) : (s.setMe e m).entryGens = s.entryGens := rfl
@[simp] theorem State.setMe_preempting (s : State) (e : Nat) (m : Me) : (s.setMe e m).preempting = s.preempting := rfl
@[simp] theorem State.setMe_slots (s : State) (e : Nat) (m : Me) : (s.setMe e m).slots = s.slots := rfl
@[simp] theorem State.setMe_gens (s : State) (e : Nat) (m : Me) : (s.setMe e m).gens = s.gens := rfl
@[simp] theorem State.setMe_hbm (s : State) (e : Nat) (m : Me) : (s.setMe e m).hbm = s.hbm := rfl
@[simp] theorem State.setMe_cellar (s : State) (e : Nat) (m : Me) : (s.setMe e m).cellar = s.cellar := rfl
@[simp] theorem State.setMe_reserved (s : State) (e : Nat) (m : Me) : (s.setMe e m).reserved = s.reserved := rfl
@[simp] theorem State.setMe_pool (s : State) (e : Nat) (m : Me) : (s.setMe e m).pool = s.pool := rfl
@[simp] theorem State.setMe_hostRegions (s : State) (e : Nat) (m : Me) : (s.setMe e m).hostRegions = s.hostRegions := rfl
@[simp] theorem State.setMe_shelf (s : State) (e : Nat) (m : Me) : (s.setMe e m).shelf = s.shelf := rfl
@[simp] theorem State.setMe_commits (s : State) (e : Nat) (m : Me) : (s.setMe e m).commits = s.commits := rfl
@[simp] theorem State.setMe_revives (s : State) (e : Nat) (m : Me) : (s.setMe e m).revives = s.revives := rfl
@[simp] theorem State.setMe_moves (s : State) (e : Nat) (m : Me) : (s.setMe e m).moves = s.moves := rfl
@[simp] theorem State.setMe_peers (s : State) (e : Nat) (m : Me) : (s.setMe e m).peers = s.peers := rfl
@[simp] theorem State.setMe_ports (s : State) (e : Nat) (m : Me) : (s.setMe e m).ports = s.ports := rfl
@[simp] theorem State.setMe_spray (s : State) (e : Nat) (m : Me) : (s.setMe e m).spray = s.spray := rfl
@[simp] theorem State.setMe_nextTag (s : State) (e : Nat) (m : Me) : (s.setMe e m).nextTag = s.nextTag := rfl
@[simp] theorem State.setMe_host (s : State) (e : Nat) (m : Me) : (s.setMe e m).host = s.host := rfl
@[simp] theorem State.setMe_ringVec (s : State) (e : Nat) (m : Me) : (s.setMe e m).ringVec = s.ringVec := rfl
@[simp] theorem State.setMe_ringOwed (s : State) (e : Nat) (m : Me) : (s.setMe e m).ringOwed = s.ringOwed := rfl
@[simp] theorem State.setMe_cat (s : State) (e : Nat) (m : Me) : (s.setMe e m).cat = s.cat := rfl
@[simp] theorem State.setMe_membership (s : State) (e : Nat) (m : Me) : (s.setMe e m).membership = s.membership := rfl
@[simp] theorem State.setMe_principals (s : State) (e : Nat) (m : Me) : (s.setMe e m).principals = s.principals := rfl
@[simp] theorem State.setMe_errs (s : State) (e : Nat) (m : Me) : (s.setMe e m).errs = s.errs := rfl
@[simp] theorem State.setMe_trace (s : State) (e : Nat) (m : Me) : (s.setMe e m).trace = s.trace := rfl
@[simp] theorem State.setMe_scans (s : State) (e : Nat) (m : Me) : (s.setMe e m).scans = s.scans := rfl
@[simp] theorem State.setMe_scanning (s : State) (e : Nat) (m : Me) : (s.setMe e m).scanning = s.scanning := rfl
@[simp] theorem State.setMe_shapers (s : State) (e : Nat) (m : Me) : (s.setMe e m).shapers = s.shapers := rfl
@[simp] theorem State.setMe_hists (s : State) (e : Nat) (m : Me) : (s.setMe e m).hists = s.hists := rfl
@[simp] theorem State.setMe_histSamples (s : State) (e : Nat) (m : Me) : (s.setMe e m).histSamples = s.histSamples := rfl
@[simp] theorem State.setMe_histBase (s : State) (e : Nat) (m : Me) : (s.setMe e m).histBase = s.histBase := rfl
@[simp] theorem State.setMe_steps (s : State) (e : Nat) (m : Me) : (s.setMe e m).steps = s.steps := rfl
@[simp] theorem State.setMe_nextStep (s : State) (e : Nat) (m : Me) : (s.setMe e m).nextStep = s.nextStep := rfl
@[simp] theorem State.setMe_prefills (s : State) (e : Nat) (m : Me) : (s.setMe e m).prefills = s.prefills := rfl
@[simp] theorem State.setMe_nbus (s : State) (e : Nat) (m : Me) : (s.setMe e m).nbus = s.nbus := rfl
@[simp] theorem State.setMe_dieTab (s : State) (e : Nat) (m : Me) : (s.setMe e m).dieTab = s.dieTab := rfl
@[simp] theorem State.setMe_shards (s : State) (e : Nat) (m : Me) : (s.setMe e m).shards = s.shards := rfl
@[simp] theorem State.setMe_vecBlocks (s : State) (e : Nat) (m : Me) : (s.setMe e m).vecBlocks = s.vecBlocks := rfl
@[simp] theorem State.setMe_searches (s : State) (e : Nat) (m : Me) : (s.setMe e m).searches = s.searches := rfl
@[simp] theorem State.setMe_nextReq (s : State) (e : Nat) (m : Me) : (s.setMe e m).nextReq = s.nextReq := rfl
@[simp] theorem State.setMe_locks (s : State) (e : Nat) (m : Me) : (s.setMe e m).locks = s.locks := rfl
@[simp] theorem State.setMe_nextLock (s : State) (e : Nat) (m : Me) : (s.setMe e m).nextLock = s.nextLock := rfl
@[simp] theorem State.setMe_ckpt (s : State) (e : Nat) (m : Me) : (s.setMe e m).ckpt = s.ckpt := rfl
@[simp] theorem State.setMe_genFloor (s : State) (e : Nat) (m : Me) : (s.setMe e m).genFloor = s.genFloor := rfl
@[simp] theorem State.setMe_genBase (s : State) (e : Nat) (m : Me) : (s.setMe e m).genBase = s.genBase := rfl
@[simp] theorem State.setMe_floorBusy (s : State) (e : Nat) (m : Me) : (s.setMe e m).floorBusy = s.floorBusy := rfl
@[simp] theorem State.setMe_sec (s : State) (e : Nat) (m : Me) : (s.setMe e m).sec = s.sec := rfl
@[simp] theorem State.setMe_flash (s : State) (e : Nat) (m : Me) : (s.setMe e m).flash = s.flash := rfl
@[simp] theorem State.setMe_boot (s : State) (e : Nat) (m : Me) : (s.setMe e m).boot = s.boot := rfl
@[simp] theorem State.setMe_fld (s : State) (e : Nat) (m : Me) (g : Fld) : (s.setMe e m).fld g = s.fld g := rfl

/-! ## Reads after writes -/

/-- The record stored is the record read. -/
@[simp] theorem State.setTenant_tenant_self (s : State) (k : Nat) (v : Tenant) : (s.setTenant k v).tenant k = v := by
  simp [State.setTenant, State.tenant]

/-- Every other record is as before. -/
theorem State.setTenant_tenant_other (s : State) {k m : Nat} (v : Tenant) (hm : m ≠ k) : (s.setTenant k v).tenant m = s.tenant m := by
  simp only [State.setTenant, State.tenant]
  rw [tGet_tPut_other hm]

/-- The record stored is the record read. -/
@[simp] theorem State.setQp_qp_self (s : State) (k : Nat) (v : Qp) : (s.setQp k v).qp k = v := by
  simp [State.setQp, State.qp]

/-- Every other record is as before. -/
theorem State.setQp_qp_other (s : State) {k m : Nat} (v : Qp) (hm : m ≠ k) : (s.setQp k v).qp m = s.qp m := by
  simp only [State.setQp, State.qp]
  rw [tGet_tPut_other hm]

/-- The record stored is the record read. -/
@[simp] theorem State.setRing_ring_self (s : State) (k : Nat) (v : Ring) : (s.setRing k v).ring k = v := by
  simp [State.setRing, State.ring]

/-- Every other record is as before. -/
theorem State.setRing_ring_other (s : State) {k m : Nat} (v : Ring) (hm : m ≠ k) : (s.setRing k v).ring m = s.ring m := by
  simp only [State.setRing, State.ring]
  rw [tGet_tPut_other hm]

/-- The record stored is the record read. -/
@[simp] theorem State.setNbu_nbu_self (s : State) (k : Nat) (v : Nbu) : (s.setNbu k v).nbu k = v := by
  simp [State.setNbu, State.nbu]

/-- Every other record is as before. -/
theorem State.setNbu_nbu_other (s : State) {k m : Nat} (v : Nbu) (hm : m ≠ k) : (s.setNbu k v).nbu m = s.nbu m := by
  simp only [State.setNbu, State.nbu]
  rw [tGet_tPut_other hm]

/-- The record stored is the record read. -/
@[simp] theorem State.setPeer_peer_self (s : State) (k : Nat) (v : Peer) : (s.setPeer k v).peer k = v := by
  simp [State.setPeer, State.peer]

/-- Every other record is as before. -/
theorem State.setPeer_peer_other (s : State) {k m : Nat} (v : Peer) (hm : m ≠ k) : (s.setPeer k v).peer m = s.peer m := by
  simp only [State.setPeer, State.peer]
  rw [tGet_tPut_other hm]

/-- The record stored is the record read. -/
@[simp] theorem State.setPort_port_self (s : State) (k : Nat) (v : Port) : (s.setPort k v).port k = v := by
  simp [State.setPort, State.port]

/-- Every other record is as before. -/
theorem State.setPort_port_other (s : State) {k m : Nat} (v : Port) (hm : m ≠ k) : (s.setPort k v).port m = s.port m := by
  simp only [State.setPort, State.port]
  rw [tGet_tPut_other hm]

end Sys2Proof.Machine
end

