-- ==== Sys2Proof/Laws/Taken.lean ====
section
/-!
SUPPORT. What the frames of the slip commands do with a slip that is taken up: they run its effect and close it.
-/

namespace Sys2Proof.Machine

/-- An effect done is answered at once. -/
@[simp] theorem SlipRes.close_done (s : State) (a : Answer) (op : Nat) (x : Slip) : (SlipRes.done s a).close op x = s.finish op x a := rfl

/-- A status without effect is answered at once. -/
@[simp] theorem SlipRes.close_no (s : State) (a b : Nat) (op : Nat) (x : Slip) :
    (SlipRes.no s a b).close op x = s.finish op x (Answer.st a b) := rfl

/-- A slip taken up waits for the event that answers it. -/
@[simp] theorem SlipRes.close_wait (s : State) (op : Nat) (x : Slip) :
    (SlipRes.wait s).close op x = s.updOutst x.src x.tag (fun o => { o with stage := .waiting }) := rfl

/-- A slip that waits for another to go is held, accepted still. -/
@[simp] theorem SlipRes.close_hold_order (s : State) (op : Nat) (x : Slip) : (SlipRes.hold s .order).close op x =
    { s.updOutst x.src x.tag (fun o => { o with stage := .accepted }) with
      held := s.held ++ [({ op := BitVec.ofNat 16 op, slip := x }, .order)] } := rfl

/-- A slip never answered is forgotten. -/
@[simp] theorem SlipRes.close_gone (s : State) (op : Nat) (x : Slip) : (SlipRes.gone s).close op x =
    { s with slips := s.slips.filter (fun o => !(o.slip.src == x.src && o.slip.tag == x.tag)) } := rfl

/-- A slip that is taken up runs its body. -/
theorem runSlip_takenUp {op : Nat} {x : Slip} {s : State} (h : s.takenUp op x = true) (body : State → SlipRes) :
    runSlip op x s body = .next ((body s).close op x) := by
  unfold State.takenUp at h
  cases ho : s.outst x.src x.tag with
  | none => simp [ho] at h
  | some o =>
    simp only [ho, Bool.and_eq_true] at h
    obtain ⟨⟨h1, h2⟩, h3⟩ := h
    have h4 : s.notReady op = none := by simpa using h3
    have h5 : (o.op == op && o.slip == x && o.stage == .running) = true := by simp [h1]
    simp only [runSlip, ho, h5, if_true, State.execSlip, h4]
    simp at h2
    simp [h2]

/-- A session slip that is taken up runs its opcode's effect on the session it names. -/
theorem runSession_up {op : Nat} {x : Slip} {masks : List Nat} {s : State} {i : Nat} {e : Sess}
    (h : s.sessionUp op x masks i e = true) (f : State → Nat → Sess → SlipRes) :
    runSession op x masks s f = .next ((f s i e).close op x) := by
  simp only [State.sessionUp, Bool.and_eq_true] at h
  obtain ⟨h0, h1, h2, h3, h4, h5, h6, h7, h8, h9, h10, h11, h12, h13, h14⟩ := h
  unfold runSession
  rw [runSlip_takenUp h0]
  have k7 : s.findSess x.acc = some (i, e) := by simpa using h7
  have k12 : badParam x masks = none := by simpa using h12
  have k13 : e.mediaDue = none := by simpa using h13
  have k1 : (x.acc == 0) = false := by simpa using h1
  have k2 : s.restoreDue = false := by simpa using h2
  have k3 : s.reloading = false := by simpa using h3
  have k4 : (s.barring && op != Op.SESS_QUERY) = false := by
    rcases hb : s.barring with _ | _ <;> simp_all
  have k5 : s.fenced = false := by simpa using h5
  have k6 : s.epochAhead x = false := by
    unfold State.epochAhead
    simp only [Bool.or_eq_true, beq_iff_eq, decide_eq_true_eq] at h6
    rcases h6 with h | h
    · simp [h]
    · simp; omega
  have k8 : s.cat.undecided.contains x.acc = false := by simpa using h8
  have k9 : (op != Op.SESS_FORK && x.ten != e.tenant) = false := by
    simp only [Bool.or_eq_true, beq_iff_eq] at h9
    rcases h9 with h | h <;> simp [h]
  have k10 : s.partDown i = false := by simpa using h10
  have g : s.sessGate op x = none := by unfold State.sessGate; simp [k2, k3, k4, k5, k6]
  have k11 := Bool.not_eq_true' _ ▸ h11
  have k14 : (e.parking != 0 && revivingOp op) = false := by
    simp only [Bool.or_eq_true, beq_iff_eq] at h14
    rcases h14 with h | h
    · simp [h]
    · simp at h; simp [h]
  simp only [k1, g, k7, k8, k9, k10, k11, k12, k13, k14, if_false, Bool.false_eq_true]

/-- A tier slip that is taken up runs its opcode's effect. -/
theorem runTier_up {op : Nat} {x : Slip} {s : State} (h : s.tierUp op x = true) (f : State → SlipRes) :
    runTier op x s f = .next ((f s).close op x) := by
  simp only [State.tierUp, Bool.and_eq_true, Bool.not_eq_true'] at h
  unfold runTier
  rw [runSlip_takenUp h.1]
  simp [h.2]

/-- A vector slip that is taken up runs its opcode's effect on the shard it names. -/
theorem runVec_up {op : Nat} {x : Slip} {masks : List Nat} {s : State} {v : Shard} (h : s.vecUp op x masks v = true)
    (f : State → Shard → SlipRes) : runVec op x masks s f = .next ((f s v).close op x) := by
  simp only [State.vecUp, Bool.and_eq_true, beq_iff_eq, decide_eq_true_eq] at h
  obtain ⟨h0, h1, h2, h3⟩ := h
  unfold runVec
  rw [runSlip_takenUp h0]
  simp [h1, h2, h3]

/-- A catalogue slip that is taken up runs its opcode's effect. -/
theorem runCat_up {op : Nat} {x : Slip} {masks : List Nat} {s : State} (h : s.catUp op x masks = true) (f : State → SlipRes) :
    runCat op x masks s f = .next ((f s).close op x) := by
  simp only [State.catUp, Bool.and_eq_true, Bool.or_eq_true, beq_iff_eq, decide_eq_true_eq, Bool.not_eq_true'] at h
  obtain ⟨h0, h1, h2, h5, h3⟩ := h
  unfold runCat
  rw [runSlip_takenUp h0]
  have a1 : (x.epoch.toNat != 0 && decide (x.epoch.toNat < s.epoch)) = false := by
    rcases h1 with h | h <;> simp [h]
  have a2 : (x.acc != 0 && s.fenced) = false := by rcases h2 with h | h <;> simp [h]
  have a3 : (x.acc != 0 && decide (x.epoch.toNat > s.epoch)) = false := by rcases h2 with h | h <;> simp [h]
  have a4 : (x.acc != 0 && s.restoreDue) = false := by rcases h2 with h | h <;> simp [h]
  have a5 : (x.acc != 0 && s.reloading) = false := by rcases h2 with h | h <;> simp [h]
  simp only [a1, a2, a3, a4, a5, h5, h3]
  simp

/-- What the frame of a micro-operation makes of its body's answer. -/
def UopRes.close (x : UopRes) (s : State) (n : Nat) : State :=
  match x with
  | .next s r => s.goto n r (r.pc + 1)
  | .jump s r pc => s.goto n r pc
  | .stall => s
  | .stop s code aux => s.endRun n code aux
  | .yield s =>
    match (s.nbu n).run, (s.nbu n).susp with
    | some r, _ => s.goto n r (r.pc + 1)
    | none, some r => s.updNbu n (fun v => { v with susp := some { r with pc := r.pc + 1 } })
    | none, none => s

/-- A micro-operation at the PC of the running program runs its body. -/
theorem runUop_up {op n : Nat} {s : State} {r : Run} {u : Uop} (h : s.uopUp op n r u = true)
    (body : State → Nbu → Run → Uop → UopRes) : runUop op n s body = .next ((body s (s.nbu n) r u).close s n) := by
  simp only [State.uopUp, Bool.and_eq_true] at h
  obtain ⟨h1, h2⟩ := h
  have h1 : (s.nbu n).run = some r := by simpa using h1
  cases hp : s.profile with
  | none => simp [hp] at h2
  | some p =>
    cases hw : p.storeWord r.pc with
    | none => simp [hp, hw] at h2
    | some w =>
      simp only [hp, hw, Option.bind_some, Bool.and_eq_true, beq_iff_eq] at h2
      obtain ⟨⟨h3, h4⟩, h5⟩ := h2
      subst h3
      simp [runUop, h1, hp, hw, h4, h5, UopRes.close]
      all_goals rfl

/-- Writing a selector leaves the PC alone. -/
@[simp] theorem Run.put_pc (r : Run) (x w : Nat) : (r.put x w).pc = r.pc := by
  unfold Run.put; repeat' split
  all_goals rfl

/-- A column consumer hands the groups it unpacks to its operation. -/
theorem consume_unpacked {s : State} {n : Nat} {r : Run} {u : Uop} {w : Nbu} {gs : List (Nat × Nat × Nat × List Nat)} {up : Unp}
    (h : s.unpacked n r u w gs up) (f : Nbu → Run → List (Nat × Nat × Nat × List Nat) → Option (Nbu × Run)) :
    s.consume n r u.n f = match f w { r with unp := up } gs with
      | some (v, r) => .next (s.setNbu n v) r
      | none => .stop s 7 0 := by
  obtain ⟨p, cols, b, hp, ht, rfl, hr, hg⟩ := h
  unfold State.consume
  simp only [ht, hp]
  split
  · rename_i hh
    simp only [Bool.and_eq_true, decide_eq_true_eq] at hh
    have := hr hh.1
    simp_all
  · simp only [hg]
    all_goals rfl

/-- A standard program that is running runs to its end. -/
theorem runProgram_up {slot n : Nat} {s : State} {p : Profile} {r : Run} (h : s.programUp slot n p r)
    (body : State → Profile → Nbu → Run → State × Nat × Nat) :
    runProgram slot n s body = .next ((body s p (s.nbu n) r).1.endRun n (body s p (s.nbu n) r).2.1 (body s p (s.nbu n) r).2.2) := by
  obtain ⟨h1, h2, h3⟩ := h
  simp [runProgram, h1, h2, h3]

end Sys2Proof.Machine
end

