-- ==== Sys2Proof/WellFormed.lean ====
section
/-!
DEFINITION. Well-formed commands: operands within the ranges the spec gives the things they name.
-/

namespace Sys2Proof

/-- A source context exists (R46, R48, R53, R281). -/
def Ctx.wf : Ctx → Bool
  | .pair q => q < 256
  | .peer p => p < 4096
  | .mgmt c => c < 16
  | .rind => true

/-- A slip comes from a context that exists, and what of its payload is there is no longer than PLEN (R40, R53). -/
def Slip.wf (x : Slip) : Bool := x.src.wf && x.payload.length ≤ x.plen.toNat

/-- A Praol packet's fields have the widths and ranges of Table 11.2. -/
def Pkt.wf (k : Pkt) : Bool :=
  k.type < 256 && k.cls < 8 && k.dst < 4096 && k.src < 4096 && k.psn < 2 ^ 32 && k.msgId < 2 ^ 32 && k.offset < 2 ^ 32 && 1 ≤ k.msgLen
    && k.msgLen ≤ 1048576 && k.keygen < 65536 && k.txc < 2 ^ 64 && k.payload.length < 65536

/-- Is a command well-formed? -/
def Instr.wf : Instr → Bool
  | .NOP x => x.wf
  | .HELLO x => x.wf
  | .IDENTIFY x => x.wf
  | .ECHO x => x.wf
  | .SESS_ACCESSION x => x.wf
  | .SESS_CLOSE x => x.wf
  | .SESS_QUERY x => x.wf
  | .SESS_FORK x => x.wf
  | .SESS_GENERATE x => x.wf
  | .SESS_CANCEL x => x.wf
  | .SESS_SET_MASK x => x.wf
  | .SESS_SET_TTL x => x.wf
  | .SESS_PARK x => x.wf
  | .SESS_REVIVE x => x.wf
  | .SESS_ATTACH_RING x => x.wf
  | .SESS_MOVE_OFFER x => x.wf
  | .SESS_MOVE_COMMIT x => x.wf
  | .MOVE_OFFER_REPLY acc status => acc < 2 ^ 64 && status < 65536
  | .MOVE_COMMIT_REPLY acc status => acc < 2 ^ 64 && status < 65536
  | .MOVE_RESERVATION_LAPSE acc => acc < 2 ^ 64
  | .TEXT_APPEND x => x.wf
  | .TEXT_APPEND_TOKENS x => x.wf
  | .TEXT_TOKENISE x => x.wf
  | .TEXT_DETOKENISE x => x.wf
  | .TEXT_TRANSCRIPT_READ x => x.wf
  | .SAMP_SET x => x.wf
  | .SAMP_SET_STOPS x => x.wf
  | .GRAM_ATTACH x => x.wf
  | .GRAM_DETACH x => x.wf
  | .TIER_SET_QUOTA x => x.wf
  | .TIER_QUERY x => x.wf
  | .TIER_LEND_HOST x => x.wf
  | .TIER_RECLAIM_HOST x => x.wf
  | .HOST_RECLAIM_TIMEOUT region => region < 16
  | .TIER_SHELF_PUT x => x.wf
  | .TIER_SHELF_GET x => x.wf
  | .TIER_SHELF_DROP x => x.wf
  | .VEC_CREATE x => x.wf
  | .VEC_DROP x => x.wf
  | .VEC_INSERT x => x.wf
  | .VEC_DELETE x => x.wf
  | .VEC_SEARCH x => x.wf
  | .VEC_COMPACT x => x.wf
  | .VEC_SET_CENTROIDS x => x.wf
  | .VEC_SHARD_SEARCH x => x.wf
  | .SHARD_REPLY _ _ _ => true
  | .SHARD_TIMEOUT _ => true
  | .BACKGROUND_COMPACT _ _ => true
  | .CAT_LOOKUP x => x.wf
  | .CAT_MAP_FETCH x => x.wf
  | .CAT_PROPOSE_CLAIM x => x.wf
  | .CAT_PROPOSE_ACCEPT x => x.wf
  | .CAT_VOTE x => x.wf
  | .CAT_COMMIT x => x.wf
  | .CAT_JOIN x => x.wf
  | .CAT_LEAVE x => x.wf
  | .CAT_LEAVE_FINAL x => x.wf
  | .CAT_LEAVE_SUSPECT x => x.wf
  | .CAT_LOCATE_QUERY x => x.wf
  | .CAT_LOCATE_REGISTER x => x.wf
  | .CAT_LOCATE_REMOVE x => x.wf
  | .CAT_LOCATE_TRANSFER x => x.wf
  | .VOTE_TIMEOUT => true
  | .LOCATE_TIMEOUT acc => acc < 2 ^ 64
  | .FORWARDED_REPLY dev _ _ => dev < 2 ^ 20
  | .FORWARD_RECORD_EXPIRY acc => acc < 2 ^ 64
  | .REGISTRAR_KEEPALIVE => true
  | .FENCE => true
  | .FENCE_END => true
  | .REMOVE_CONFIRM dev => dev < 2 ^ 20
  | .DRAIN_TIME_EXPIRY => true
  | .REHOME_DELAY_EXPIRY dev => dev < 2 ^ 20
  | .CKPT_TAKE x => x.wf
  | .CKPT_QUERY x => x.wf
  | .CKPT_RESTORE x => x.wf
  | .CKPT_SET_TRIGGERS x => x.wf
  | .CKPT_MIRROR_PUT x => x.wf
  | .CKPT_MIRROR_GET x => x.wf
  | .CKPT_TIMER_EXPIRY => true
  | .CKPT_STEP_COUNT => true
  | .SEQ_LIMIT_NEAR => true
  | .DEFERRED_CKPT_START => true
  | .BARRIER_OVERRUN => true
  | .BARRIER_RETRY => true
  | .PRESS_WRITE_DONE _ => true
  | .PRESS_WRITE_ERROR => true
  | .MIRROR_ACK dev status => dev < 2 ^ 20 && status < 65536
  | .RESTORE_MAP_TIMEOUT => true
  | .CHK_CRC x => x.wf
  | .CHK_SCAN x => x.wf
  | .SCAN_COMPLETE => true
  | .CHK_XTS_ENC x => x.wf
  | .CHK_XTS_DEC x => x.wf
  | .SCHED_SET_TENANT x => x.wf
  | .SCHED_QUERY_TENANT x => x.wf
  | .SCHED_SET_SHAPER x => x.wf
  | .SCHED_SET_POLICER x => x.wf
  | .RING_CONSUMED x => x.wf
  | .RING_PUSH_ERROR_REPLY ring _ status => ring < 65536 && status < 65536
  | .RING_PUSH_RETRY ring _ => ring < 65536
  | .RING_IRQ_GAP_END vec => vec < 2048
  | .HOST_RING_WRITE_ERROR ring => ring < 65536
  | .XCHG_LAYER x => x.wf
  | .XCHG_FINAL x => x.wf
  | .XCHG_ERROR_REPLY _ _ status => status < 65536
  | .XCHG_RETRY _ _ => true
  | .XCHG_TIMEOUT _ => true
  | .BATCH_FORM => true
  | .PREFILL_CHUNK_FORM => true
  | .PREEMPT_COPY_DONE acc => acc < 2 ^ 64
  | .READMIT => true
  | .SEC_PRINCIPAL_ENROL x => x.wf
  | .SEC_PRINCIPAL_REVOKE x => x.wf
  | .SEC_TENANT_STATUS x => x.wf
  | .SEC_TENANT_ERASE x => x.wf
  | .SEC_CONF_HOST x => x.wf
  | .SEC_DEBUG_UNLOCK x => x.wf
  | .SEC_FUSE_PROGRAM x => x.wf
  | .MAINT_LOCK x => x.wf
  | .MAINT_UNLOCK x => x.wf
  | .BUNDLE_LOAD_BEGIN x => x.wf
  | .BUNDLE_LOAD_DATA x => x.wf
  | .BUNDLE_LOAD_END x => x.wf
  | .BUNDLE_UNLOAD x => x.wf
  | .MAINT_FW_UPDATE x => x.wf
  | .MAINT_FW_ACTIVATE x => x.wf
  | .MAINT_FW_ROLLBACK x => x.wf
  | .MAINT_PATROL x => x.wf
  | .PATROL_COMPLETE _ _ _ => true
  | .BACKGROUND_PATROL scope index => (scope == 2 || scope == 3) && index < 12
  | .MAINT_RETRAIN x => x.wf
  | .RETRAIN_COMPLETE _ _ => true
  | .MAINT_ROW_REPAIR x => x.wf
  | .MAINT_RESET_UNIT x => x.wf
  | .MAINT_RESET_CLUSTER x => x.wf
  | .MAINT_RESET_PARTITION x => x.wf
  | .MAINT_RESET_DEVICE x => x.wf
  | .MAINT_UNIT_DISABLE x => x.wf
  | .DIAG_INJECT x => x.wf
  | .DIAG_TRACE_STOP x => x.wf
  | .DIAG_TRACE_START x => x.wf
  | .DIAG_TRACE_READ x => x.wf
  | .KEY_DELIVER session tenant _ _ _ _ => session < 8 && tenant < 65536
  | .KEY_QUERY session tenant => session < 8 && tenant < 65536
  | .BUNDLE_KEY session profile _ => session < 8 && profile < 2 ^ 32
  | .BOUNCE_KEYS session => session < 8
  | .SPDM_REQUEST transport _ => transport < 3
  | .QP_SQ_TAIL q _ => q < 256
  | .SQ_FETCH_DONE q entries _ => q < 256 && entries.all (fun o => o.slip.wf)
  | .QP_RQ_HEAD q _ => q < 256
  | .QP_ENABLE q _ => q < 256
  | .QP_DISABLE q _ => q < 256
  | .QP_DRAIN_DONE q => q < 256
  | .HOST_ACCESS_ERROR q _ => q < 256
  | .COAL_TIMER q => q < 256
  | .MGMT_SLIP_ARRIVAL o => o.slip.wf
  | .MGMT_CONNECT c _ => c < 16
  | .MGMT_DISCONNECT c => c < 16
  | .RIND_SLIP o => o.slip.wf
  | .EPOCH_HOLD_RESOLVE => true
  | .PRAOL_DATA sub _ _ k => sub < 32 && k.wf
  | .PRAOL_ACK peer sub _ _ _ _ => peer < 4096 && sub < 32
  | .PRAOL_CNP peer sub _ => peer < 4096 && sub < 32
  | .PRAOL_OPEN sub _ _ _ port _ => sub < 32 && port < 65536
  | .PRAOL_OPEN_ACK peer sub _ => peer < 4096 && sub < 32
  | .PRAOL_CLOSE peer sub _ _ => peer < 4096 && sub < 32
  | .PRAOL_PROBE peer sub _ => peer < 4096 && sub < 32
  | .PRAOL_PROBE_ACK peer sub _ => peer < 4096 && sub < 32
  | .PRAOL_DISCOVER sub => sub < 32
  | .PRAOL_DISCOVER_ACK sub _ => sub < 32
  | .RTO_EXPIRY peer psn => peer < 4096 && psn < 2 ^ 32
  | .ACK_DELAY_EXPIRY peer => peer < 4096
  | .CC_PERIOD peer => peer < 4096
  | .KEEPALIVE_EXPIRY peer => peer < 4096
  | .DEAD_TIME_EXPIRY peer => peer < 4096
  | .OPENING_TIMEOUT peer => peer < 4096
  | .DRAINING_END peer => peer < 4096
  | .PFC_FRAME sub prio _ => sub < 32 && prio < 8
  | .PFC_WATCHDOG sub cls => sub < 32 && cls < 8
  | .PAUSE_FRAME sub => sub < 32
  | .ETH_CONTROL_FRAME sub _ => sub < 32
  | .EGRESS_FRAME port => port < 8
  | .ETH_LINK_CHANGE sub _ => sub < 32
  | .NBU_LAUNCH n _ _ _ _ _ _ => n < 6144
  | .NBU_PROGRAM_START n => n < 6144
  | .ATTN n => n < 6144
  | .APPEND n => n < 6144
  | .AGE n => n < 6144
  | .DIST_SCAN n => n < 6144
  | .HEAD n => n < 6144
  | .COPY n => n < 6144
  | .NBU_COMPLETION n => n < 6144
  | .MERGE_RECORD stack => stack < 12
  | .FORCED_YIELD n => n < 6144
  | .ORDINARY_ACCESS _ _ _ => true
  | .REFRESH_DUE n bank => n < 6144 && bank < 2
  | .NBU_PARITY_ERROR n place _ _ => n < 6144 && place < 3
  | .NBU_UNIT_RESET n _ => n < 6144
  | .NBU_NOP n => n < 6144
  | .YIELD n => n < 6144
  | .HALT n => n < 6144
  | .LOOP n => n < 6144
  | .ENDL n => n < 6144
  | .BZ n => n < 6144
  | .BNZ n => n < 6144
  | .JMP n => n < 6144
  | .WPOP n => n < 6144
  | .PPB n => n < 6144
  | .FENCE_UOP n => n < 6144
  | .LI n => n < 6144
  | .ADD n => n < 6144
  | .SUB n => n < 6144
  | .AND n => n < 6144
  | .OR n => n < 6144
  | .XOR n => n < 6144
  | .SHL n => n < 6144
  | .SHR n => n < 6144
  | .SLTU n => n < 6144
  | .MINU n => n < 6144
  | .MAXU n => n < 6144
  | .LDW n => n < 6144
  | .STW n => n < 6144
  | .RDC n => n < 6144
  | .WRC n => n < 6144
  | .LDS n => n < 6144
  | .STS n => n < 6144
  | .QLD n => n < 6144
  | .EMIT n => n < 6144
  | .UNP n => n < 6144
  | .DOT n => n < 6144
  | .SMX n => n < 6144
  | .AXV n => n < 6144
  | .DEC n => n < 6144
  | .ENC n => n < 6144
  | .CBE n => n < 6144
  | .DST n => n < 6144
  | .TOPK n => n < 6144
  | .HMV n => n < 6144
  | .ME_TILE_END me kind _ cond => me < 132 && kind < 3 && cond < 4
  | .ME_PARITY_ERROR me kind _ _ => me < 132 && kind < 3
  | .RATIO_PERIOD _ => true
  | .EXPIRY_TTL_WAIT acc => acc < 2 ^ 64
  | .EXPIRY_TIER acc => acc < 2 ^ 64
  | .EXPIRY_TRANSCRIPT acc => acc < 2 ^ 64
  | .CLOSED_HOLD_EXPIRY acc => acc < 2 ^ 64
  | .CTX_TIMEOUT acc => acc < 2 ^ 64
  | .COMMIT_PERIOD part => part < 2
  | .HOLDER_ACK acc dev _ status _ => acc < 2 ^ 64 && dev < 2 ^ 20 && status < 65536
  | .GET_TIMEOUT dev => dev < 2 ^ 20
  | .HOLDER_NO_SLOTS_TIMEOUT dev => dev < 2 ^ 20
  | .REVIVE_HEAD_ARRIVAL acc dev _ => acc < 2 ^ 64 && dev < 2 ^ 20
  | .SHELF_OBJECT_ARRIVAL acc dev kind _ _ => acc < 2 ^ 64 && dev < 2 ^ 20 && kind < 16
  | .LINK_PARITY_ERROR link => link < 80
  | .LINK_RETRAIN link _ => link < 80
  | .LINK_RETRAIN_DONE link _ => link < 80
  | .UNCORRECTABLE_ERROR mem _ _ => mem < 3
  | .CE_THRESHOLD mem loc _ n => mem < 3 && loc < 12 && n < 65536
  | .ERR_IRQ_GAP_END => true
  | .AUDIT_SWEEP _ => true
  | .CONSERVATION_VIOLATION _ _ _ _ => true
  | .RIND_LOCKSTEP_MISMATCH => true
  | .RIND_WATCHDOG_EXPIRY => true
  | .DESK_WATCHDOG_EXPIRY core _ => core < 8
  | .PRESENCE_PRESS _ => true
  | .PRESENCE_WINDOW_END => true
  | .PRESENCE_STUCK _ => true
  | .INPUT_CHATTER input => input < 3
  | .JUMPER_REMOVED => true
  | .SEAL_EPISODE _ => true
  | .SEAL_BREAK => true
  | .POWER_ON _ _ => true
  | .POWER_WAVE => true
  | .HBM_TRAINING_DONE => true
  | .DDR_TRAINING_DONE _ _ => true
  | .TRAINING_FAILED scope index => (scope == 2 || scope == 3) && index < 12
  | .KAT_DONE _ _ => true
  | .POWER_LOSS => true
  | .WARM_RESTART _ _ => true
  | .PARTITION_RESET p _ _ => p < 2
  | .PARTITION_ACTIVE p _ _ => p < 2
  | .CLUSTER_RESET cluster _ _ => cluster < 16
  | .UNIT_SOFT_DISABLE unit => unit < 65536
  | .THROTTLE_PERIOD _ _ _ _ _ _ => true
  | .THERMAL_TRIP => true
  | .REFCLK_LOST clock => clock < 5
  | .HOST_LINK_TRAINING _ _ _ => true
  | .HOST_PORT_RESET kind => kind < 4
  | .HDM_DECODER_COMMIT dec _ _ _ _ _ => dec < 2
  | .HDM_ACCESS dec _ _ => dec < 2
  | .CONFIG_REQUEST _ => true
  | .MSIX_UNMASK vec _ _ => vec < 2048
  | .H2D_SNOOP => true
  | .PRESS_PERST_RELEASE ssd => ssd.all (fun d => d.gen ≤ 5 && d.width ≤ 4)
  | .NVME_COMPLETION _ _ _ => true
  | .NVME_TIMEOUT _ => true
  | .SESS_INSPECT_IDX _ => true
  | .NBU_BCAST_DATA _ _ => true
  | .NBU_MAX_CLR => true
  | .ME_MAX_CLR => true
  | .POOL_ENTRY_ADD _ => true
  | .POOL_ENTRY_RETIRE _ => true
  | .TIER_QUOTA_WRITE tier _ => (1 ≤ tier && tier ≤ 4)
  | .TEXT_SLOT_SEL _ => true
  | .HWM_CLR => true
  | .HIST_CLR => true
  | .HIST_QUEUE_CLR _ => true
  | .HIST_SAMPLE seen => seen.length ≤ 3
  | .SCHED_TEN_BUDGET_WRITE _ => true
  | .LEVEL_SET _ => true
  | .POL_SET _ => true
  | .SCHED_TEN_POLICE_WRITE _ => true
  | .SCHED_SHP_CFG_WRITE _ => true
  | .RING_ENABLE _ => true
  | .RING_DISABLE _ => true
  | .SCHED_RING_CI _ => true
  | .VEC_COL_SEL _ => true
  | .ERR_LOG_SEL _ => true
  | .ERR_STICKY_CLR _ => true
  | .CKPT_TRIG_WRITE _ => true
  | .REGISTER_WRITE src bar _ _ _ => src < 3 && (bar == 0 || bar == 2 || bar == 4)
  | .PAYLOAD_READ_DONE q _ _ _ => q < 256
  | .LOCATE_REPLY acc dev _ _ => acc < 2 ^ 64 && dev < 2 ^ 20
  | .MAP_FETCH_REPLY dev _ => dev < 2 ^ 20
  | .CAT_JOIN_REPLY _ => true
  | .MIRROR_GET_REPLY dev _ => dev < 2 ^ 20
  | .REGISTRAR_NOP_REPLY dev _ => dev < 2 ^ 20
  | .MIRROR_COPY_EXPIRY dev => dev < 2 ^ 20
  | .REFCLK_RETURN clock _ _ => clock < 5
  | .ROW_REPAIR_DONE _ _ => true
  | .FLASH_WRITE_DONE area _ => area < 3

end Sys2Proof
end

