-- ==== Sys2Proof/Tests/Slice0.lean ====
section
/-!
SUPPORT. Our own tests: ill-formed commands that the well-formedness check refuses, small tests of single steps, and, for every
statement with hypotheses, states and operands that meet them (what a hypothesis only names, such as `t = …`, is met by its own
right side).
-/

namespace Sys2Proof.Tests

open Sys2Proof Sys2Proof.Machine

set_option Elab.async false

/-! ## Helpers -/

/-- A slip with tag 1. -/
def wSlip (src : Ctx) (tenant acc : Nat) (p : List Nat) (payload : Bytes) : Slip :=
  { src := src, version := 0x10, hlen := 64, flags := 0, tenant := BitVec.ofNat 16 tenant, tag := 1, epoch := 0,
    accession := BitVec.ofNat 64 acc, plen := BitVec.ofNat 32 payload.length, ploc := 0,
    p0 := BitVec.ofNat 32 (p.getD 0 0), p1 := BitVec.ofNat 32 (p.getD 1 0), p2 := BitVec.ofNat 32 (p.getD 2 0),
    p3 := BitVec.ofNat 32 (p.getD 3 0), p4 := BitVec.ofNat 32 (p.getD 4 0), p5 := BitVec.ofNat 32 (p.getD 5 0),
    rsvd := 0, hcrc := 0, payload := payload }

/-- A slip from host queue pair 0. -/
def hostSlip (tenant acc : Nat) (p : List Nat := []) (payload : Bytes := []) : Slip := wSlip (.pair 0) tenant acc p payload

/-- A slip from management connection 0. -/
def mgmtSlip (p : List Nat := []) (payload : Bytes := []) : Slip := wSlip (.mgmt 0) 0 0 p payload

/-- The state with that slip accepted as an opcode. -/
def took (s : State) (op : Nat) (x : Slip) : State :=
  { s with slips := s.slips ++ [{ op := op, slip := x, stage := .running, note := 0, tokens := 0, dataFails := false, since := 0 }] }

/-- A payload: structure ID, version 1, length field, then the bytes (R38). -/
def wStruct (sid : Nat) (body : Bytes) : Bytes := leBytes 2 sid ++ [0x10, 0] ++ leBytes 4 (8 + body.length) ++ body

/-- A profile of one layer, one KV head of dimension 64, pages of 32 tokens, 64 KV slots and 4,096 cellar units. -/
def wProfile : Profile :=
  { id := 7, version := 1, layers := 1, hidden := 64, qHeads := 1, maxContext := 4096, tokensPerPage := 32, kvHeads := 1, headDim := 64,
    escThresh := 0, ageThresh := 0, pinLayers := [], pinHeads := [], exactHead := false, ropePair := 0, ropeDims := 0, ropeFreq := [],
    plan := [⟨.kv, 0, 64, 0, 1⟩, ⟨.vecList, 0x10000, 16, 0, 1⟩, ⟨.staging, 0x20000, 2, 0, 1⟩], parkPath := [2], preemptPath := [2], wmarkLow := 4, wmarkHigh := 8, holdCap := 1024, cellarFirst := 0,
    cellarUnits := 4096, visible := [{ space := 0, base := 0, size := 0x10000 }, { space := 1, base := 0, size := 0x10000 }],
    vocabSize := 512, byteBase := 0, eosId := 300, norm := 0, unicode := 16, controls := [300, 301, 302], toolOpen := 301,
    toolClose := 302, byteCost := 100, pieces := [{ id := 256, bytes := [0x61, 0x62], cost := 10 }],
    grammars := [{ id := 1, start := 0, rows := [] }], prefillWt := 0, prefillFmt := 0, headFmt := 0, guardExp := 0, mePools := [],
    softmaxScale := 0, programs := [], embedStage := 0, layerStage := [1], finalStage := 2, rowLimits := [64, 64, 64, 64] }

/-- A device in service (SERVING, both partitions ACTIVE, a bundle loaded, an ID assigned). -/
def wDev : State :=
  { ((((((((((State.reset.setFld F.BOOT_STATE_STATE 6).setFld F.DEV_BUNDLE_LOADED 1).setFld F.DEV_DEVID_VALID 1).setFld F.DEV_DEVID_DEVICE_ID 1).setFld
      F.DEV_PART_WEST 3).setFld F.DEV_PART_EAST 3).setFld F.TIER_HOLD_CAP 1024).setFld
      F.SESS_CTRL_ADMIT_EN 1).setFld F.CKPT_SEQ_SEQ_LIMIT 0x100000).setFld F.TIER_CAP_CELLAR_GIB 1) with
    profile := some wProfile, tick := 1000000000000, genFloor := 0x100000
    cat := { Cat.empty with devices := [(1, { state := 1, registrar := true, lease := 1, address := [], profile := 7, joinEpoch := 1 })] }
    tenants := [(5, { Tenant.fresh with provisioned := true, key := some (List.replicate 32 3) })] }

/-- A session of tenant 5, accession 9, in a state. -/
def wSess (st : Nat) : Sess :=
  { Sess.blank with accession := 9, tenant := 5, state := st, tier := 1, ttlWait := 600, ttlT2 := 600, ttlT3 := 600, ttlT4 := 600, ttlTranscript := 600 }

/-- The device with a session at entry 0. -/
def withSess (e : Sess) (s : State := wDev) : State := { s with sessions := [(0, e)] }

/-- A reply of a status. -/
def wReply (status : Nat) (result : Nat := 0) (data : Bytes := []) : Reply :=
  { status := BitVec.ofNat 16 status, detail := 0, epoch := 0, result := BitVec.ofNat 64 result, result2 := 0, data := data }

/-- A slip from the peer at context 3. -/
def peerSlip (acc : Nat) (p : List Nat := []) (payload : Bytes := []) : Slip := wSlip (.peer 3) 5 acc p payload
theorem meets_DeviceSlipsComplete :
    let x := hostSlip 5 0 []
    ((took wDev Op.NOP x).takenUp Op.NOP x = true ∧ badParam x [0, 0, 0, 0, 0, 0] = none)
    ∧ ((took wDev Op.IDENTIFY x).takenUp Op.IDENTIFY x = true ∧ badParam x [0, 0, 0, 0, 0xFFFFFFFF, 0xFFFFFFFF] = none)
    ∧ ((took wDev Op.ECHO x).takenUp Op.ECHO x = true ∧ badParam x [0, 0, 0, 0, 0xFFFFFFFF, 0xFFFFFFFF] = none)
    ∧ (let y := hostSlip 5 0 [0x1F];
       (took wDev Op.HELLO y).takenUp Op.HELLO y = true ∧ badParam y [0xFF, 0, 0, 0, 0, 0] = none ∧ (took wDev Op.HELLO y).outstOf y.src ≤ 1
        ∧ min y.P0 (wDev.fld F.DEV_CAP2_SLIP_VERSION) / 16 = 1) := by decide

/-- Queue pair 0, ACTIVE, 16 entries each way. -/
def wPair : State := (wDev.setFld F.QP_CFG_LOG2_SQ 4).setFld F.QP_CFG_LOG2_RQ 4

theorem meets_HostQueueCommandsComplete :
    let q := { Qp.fresh with state := 1 }
    let s := wPair.setQp 0 q
    (let v : Word := BitVec.ofNat 64 15;
      (s.qp 0).state = 1 ∧ F.QP_SQ_TAIL_TAIL.get v = 15 ∧ F.QP_SQ_TAIL_TAIL.get v < s.sqSize 0)
    ∧ (let s := wPair.setQp 0 { q with rqHead := 3, rqTail := 5 }
      let v : Word := BitVec.ofNat 64 5;
      (s.qp 0).state = 1 ∧ F.QP_RQ_HEAD_HEAD.get v < s.rqSize 0
        ∧ (F.QP_RQ_HEAD_HEAD.get v + s.rqSize 0 - (s.qp 0).rqHead) % s.rqSize 0 ≤ s.unconsumed 0)
    ∧ (let s := wPair.setQp 0 { q with fetching := 1 }
      let o : OpSlip := { op := 0, slip := hostSlip 0 0 };
      (s.qp 0).fetching ≠ 0 ∧ s.conf = false ∧ [o].take (s.qp 0).fetching = [o])
    ∧ (let x := hostSlip 5 0 [] [1]
      let o : Outst := { op := Op.ECHO, slip := x, stage := .payload, note := 0, tokens := 0, dataFails := false, since := 0 };
      ({ s with slips := [o] } : State).outst (.pair 0) 1 = some o ∧ o.stage = .payload)
    ∧ (let s := wPair.setQp 0 Qp.fresh
      let v : Word := s.reg A.QP_CFG ||| BitVec.ofNat 64 F.QP_CFG_ENABLE.mask;
      (s.qp 0).state = 0 ∧ s.hostReady = true ∧ s.pairValid 0 (v &&& BitVec.ofNat 64 (qpCfgMask + F.QP_CFG_ENABLE.mask)) = true)
    ∧ (let v : Word := s.reg A.QP_CFG;
      (s.qp 0).state ≠ 0 ∧ s.reg (A.QP_CFG + 0x40 * 0) &&& BitVec.ofNat 64 qpCfgMask = v &&& BitVec.ofNat 64 qpCfgMask)
    ∧ (let s := wPair.setQp 0 { q with state := 2 };
      (s.qp 0).state = 2 ∧ (s.qp 0).fetched = 0 ∧ (s.qp 0).fetching = 0)
    ∧ (let s := (wPair.setFld F.QP_COAL_COAL_TIME 10).setQp 0 { q with coalCount := 1, coalSince := wPair.tick - 100 };
      (s.qp 0).coalCount ≠ 0 ∧ s.fld (F.QP_COAL_COAL_TIME.at (0x40 * 0)) ≠ 0
        ∧ (s.qp 0).coalSince + 10 * s.fld (F.QP_COAL_COAL_TIME.at (0x40 * 0)) ≤ s.tick)
    ∧ (let x := hostSlip 5 9; let s := took wPair Op.ECHO x; (s.outst (.pair 0) 1).isSome = true) := by decide +kernel

theorem meets_SlipArrivalPathsComplete :
    (let o : OpSlip := { op := 0, slip := mgmtSlip };
      let s : State := { wDev with mgmt := [(0, { principal := 0, role := 1 })] };
      o.slip.src = .mgmt 0 ∧ (tGet s.mgmt 0).isSome = true ∧ s.flag F.CXL_REFCLK_ETH0_LOST = false)
    ∧ wDev.sec.rindUntil ≤ wDev.tick
    ∧ (let s : State := { wDev with sec := { wDev.sec with rindUntil := wDev.tick + 1 } }; s.tick < s.sec.rindUntil)
    ∧ (let p : Nat × Principal := (4, { role := 3, kinds := 0, tenant := 0, digest := [1, 2] });
      let s : State := { wDev with principals := [p], mgmt := (List.range 15).map (fun i => (i, { principal := 0, role := 1 })) };
      s.takesSlips = true ∧ s.flag F.CXL_REFCLK_ETH0_LOST = false ∧ s.mgmt.length < 16 ∧ tGet s.mgmt 15 = none
        ∧ s.principals.find? (fun p => p.2.digest == ([1, 2] : Bytes) && 1 ≤ p.2.role && p.2.role ≤ 3) = some p) := by decide

theorem meets_SessionSlipsComplete :
    (let x := hostSlip 5 9; let e := wSess Ss.WAITING; let s := took (withSess e) Op.SESS_CLOSE x
      s.sessionUp Op.SESS_CLOSE x [0, 0, 0, 0, 0, 0] 0 e = true ∧ e.state ≠ Ss.CLOSED ∧ e.inStep = false)
    ∧ (let x := hostSlip 5 9; let e := wSess Ss.CLOSED; let s := took (withSess e) Op.SESS_QUERY x
      s.sessionUp Op.SESS_QUERY x [0, 0, 0, 0, 0xFFFFFFFF, 0xFFFFFFFF] 0 e = true)
    ∧ (let x := hostSlip 5 9 [0xFFFFFFFF, 0, 600]; let e := wSess Ss.PARKED; let s := took (withSess e) Op.SESS_SET_TTL x
      s.sessionUp Op.SESS_SET_TTL x [0xFFFFFFFF, 0xFFFFFFFF, 0xFFFFFFFF, 0xFFFFFFFF, 0xFFFFFFFF, 0] 0 e = true ∧ e.state ≠ Ss.CLOSED)
    ∧ (let x := hostSlip 5 9 [40, 0]
      let e := { wSess Ss.WAITING with kvLength := 40, transcript := List.replicate 40 7, pages :=
        [{ layer := 0, index := 0, slot := 0, second := 0, format := 0, fill := 32 }, { layer := 0, index := 1, slot := 1, second := 0, format := 0, fill := 8 }] }
      let s := took (withSess e) Op.SESS_FORK x
      let f := 40
      s.sessionUp Op.SESS_FORK x [0xFFFFFFFF, 1, 0, 0, 0, 0] 0 e = true ∧ f = (if x.P0 = 0xFFFFFFFF then e.kvLength else x.P0) ∧ 0 < f ∧ f ≤ e.kvLength
        ∧ (x.ten = e.tenant ∨ (e.template = true ∧ e.tenant = 0xFFFF)) ∧ (x.ten ≠ 0xFFFF ∨ bitOf x.P1 0 = true)
        ∧ (e.state = Ss.WAITING ∨ e.state = Ss.DECODE ∨ e.state = Ss.RING_FULL) ∧ e.inStep = false
        ∧ s.admitBarred = false ∧ s.keyMissing x.ten = none ∧ s.profile = some wProfile ∧ s.nextSession.toOption = some (s.devId * 2 ^ 44 + s.fld F.SESS_SEQ_NEXT, 1)
        ∧ ((e.forkPages wProfile f).1.flatMap PageRef.slots).any s.refFull = false
        ∧ (((e.forkPages wProfile f).2.map copySlots).foldl (· + ·) 0) ≤ s.freeT1
        ∧ s.quotaFits x.ten 1 (4 * (((e.forkPages wProfile f).2.map copySlots).foldl (· + ·) 0)
          + cdiv (cdiv (forkTranscript f e.transcript).length 1024 * 4096 + maskBytes (e.maskLog.take
            (((maskMarks (forkTranscript f e.transcript)).filter (· != 0xFFFFF)).foldl (fun m v => max m (v + 1)) 0))) 16384) = true)
    ∧ (let x := hostSlip 5 0 [0]; let s := took wDev Op.SESS_ACCESSION x
      s.takenUp Op.SESS_ACCESSION x = true ∧ x.acc = 0 ∧ badParam x [1, 0, 0, 0, 0, 0] = none
        ∧ (bitOf x.P0 0 = false ∨ s.code x.src ≠ 1) ∧ (x.ten ≠ 0xFFFF ∨ bitOf x.P0 0 = true)
        ∧ s.restoreDue = false ∧ s.barring = false ∧ s.admitBarred = false ∧ s.keyMissing x.ten = none
        ∧ s.nextSession.toOption = some (s.devId * 2 ^ 44 + s.fld F.SESS_SEQ_NEXT, 0)) := by decide +kernel

theorem meets_RequestSlipsComplete :
    (let x := hostSlip 5 9 [1048576, 0]; let e := { wSess Ss.ACCESSIONED with attached := true }; let s := took (withSess e) Op.SESS_GENERATE x;
      s.sessionUp Op.SESS_GENERATE x [0xFFFFFFFF, 0x1FFFF, 0, 0, 0, 0] 0 e = true ∧ 0 < x.P0 ∧ x.P0 ≤ 1048576 ∧ e.template = false
        ∧ (e.state = Ss.ACCESSIONED ∨ e.state = Ss.WAITING) ∧ bitOf x.P1 16 = false ∧ e.attached = true
        ∧ e.kvLength + e.pending < (s.profile.map (·.maxContext)).getD 0)
    ∧ (let x := hostSlip 5 9; let e := { wSess Ss.PREFILL with armed := true }; let s := took (withSess e) Op.SESS_CANCEL x;
      s.sessionUp Op.SESS_CANCEL x [0, 0, 0, 0, 0, 0] 0 e = true ∧ e.armed = true ∧ e.inStep = false
        ∧ (e.state = Ss.PREFILL ∨ e.state = Ss.PREEMPTED ∨ (e.state = Ss.RING_FULL ∧ e.heldFinal = false)))
    ∧ (let x := hostSlip 5 9; let e := { wSess Ss.WAITING with armed := true }; let s := took (withSess e) Op.SESS_CANCEL x;
      s.sessionUp Op.SESS_CANCEL x [0, 0, 0, 0, 0, 0] 0 e = true ∧ e.armed = true ∧ e.inStep = false ∧ atRest e.state = true)
    ∧ (let x := hostSlip 5 9 [3]; let e := wSess Ss.WAITING;
      let s := took ((withSess e).setRing 3 { Ring.fresh with state := 1, tenant := 5, logSize := 8 }) Op.SESS_ATTACH_RING x;
      s.sessionUp Op.SESS_ATTACH_RING x [0x1FFFF, 0, 0, 0, 0, 0] 0 e = true ∧ atRest e.state = true ∧ bitOf x.P0 16 = false
        ∧ s.ringBarred 0 (bitsOf x.P0 15 0) e.tenant 0 = none)
    ∧ (let x := hostSlip 5 9 [0x10000]; let e := { wSess Ss.PARKED with attached := true, ring := 3 }; let s := took (withSess e) Op.SESS_ATTACH_RING x;
      s.sessionUp Op.SESS_ATTACH_RING x [0x1FFFF, 0, 0, 0, 0, 0] 0 e = true ∧ atRest e.state = true ∧ bitOf x.P0 16 = true
        ∧ e.armed = false ∧ e.heldRecord = false)
    ∧ (let x := hostSlip 5 9 [1]; let e := wSess Ss.WAITING; let s := took (withSess e) Op.SESS_SET_MASK x;
      s.sessionUp Op.SESS_SET_MASK x [1, 0, 0, 0, 0, 0] 0 e = true ∧ e.state ≠ Ss.PREFILL ∧ e.state ≠ Ss.CLOSED ∧ bitOf x.P0 0 = true
        ∧ x.payload = [] ∧ e.away = false ∧ e.tlen < 2097152 ∧ (maskMarks e.transcript).length < 64
        ∧ s.quotaFits e.tenant 1 (cdiv (cdiv (e.tlen + 1) 1024 * 4096 + maskBytes e.maskLog) 16384 - e.logQuarters) = true)
    ∧ (let x := hostSlip 5 9 [0] (wStruct 0x0406 (leBytes 4 3 ++ leBytes 4 0 ++ [5])); let e := wSess Ss.WAITING; let s := took (withSess e) Op.SESS_SET_MASK x;
      let m : MaskRec := { len := 3, bits := [5] };
      s.sessionUp Op.SESS_SET_MASK x [1, 0, 0, 0, 0, 0] 0 e = true ∧ e.state ≠ Ss.PREFILL ∧ e.state ≠ Ss.CLOSED
        ∧ bitOf x.P0 0 = false ∧ badStruct 0x0406 16 x.payload = none ∧ m.len = rdLe x.payload 8 4
        ∧ m.bits = slice x.payload 16 (cdiv m.len 8) ∧ m.len ≠ 0 ∧ m.len ≤ (s.profile.map (·.maxContext)).getD 0
        ∧ 16 + cdiv m.len 8 ≤ rdLe x.payload 4 4 ∧ e.away = false ∧ e.tlen < 2097152 ∧ (maskMarks e.transcript).length < 64
        ∧ s.quotaFits e.tenant 1
          (cdiv (cdiv (e.tlen + 1) 1024 * 4096 + maskBytes (e.maskLog ++ [m])) 16384 - e.logQuarters) = true)
    ∧ (let x := hostSlip 5 9 [2]; let e := wSess Ss.WAITING; let s := took (withSess e) Op.SESS_PARK x;
      s.sessionUp Op.SESS_PARK x [7, 0, 0, 0, 0, 0] 0 e = true ∧ e.state = Ss.WAITING
        ∧ (e.template = false ∨ s.childCount e = 0) ∧ bitsOf x.P0 2 0 ≠ 0
        ∧ ((s.profile.map (·.parkPath)).getD []).contains (bitsOf x.P0 2 0) = true ∧ s.textOpen 0 = false ∧ e.parking = 0
        ∧ ((s.abandonCommit 0).tryCommit 0 2 (bitsOf x.P0 2 0) true).2 = none)
    ∧ (let x := hostSlip 5 9; let e := { wSess Ss.PARKED with shelfGen := 1 }; let s := took (withSess e) Op.SESS_REVIVE x;
      s.sessionUp Op.SESS_REVIVE x [0, 0, 0, 0, 0, 0] 0 e = true ∧ (e.state = Ss.PARKED ∨ e.state = Ss.TRANSCRIPT_ONLY)
        ∧ (s.outst x.src x.tag).map (·.note) = some 0) := by
  and_intros <;> decide +kernel

/-- An offered entry: accession 9, tenant 5, as Table 3.1 lays it out. -/
def wEntry : Bytes := leBytes 8 9 ++ leBytes 2 0 ++ leBytes 2 5 ++ List.replicate 244 0

theorem meets_MoveCommandsComplete :
    (let x := hostSlip 5 9 [2, Ss.PARKED] (wStruct 0x0410 wEntry); let s := took wDev Op.SESS_MOVE_OFFER x;
      let e := Sess.ofEntry (x.payload.drop 8) (bitsOf x.P1 3 0);
      s.takenUp Op.SESS_MOVE_OFFER x = true ∧ x.acc ≠ 0 ∧ s.restoreDue = false ∧ s.reloading = false ∧ s.barring = false ∧ s.fenced = false
        ∧ s.epochAhead x = false
        ∧ badParam x [0xFFFFF, 15, 0, 0, 0, 0] = none ∧ (bitsOf x.P1 3 0 = Ss.PARKED ∨ bitsOf x.P1 3 0 = Ss.TRANSCRIPT_ONLY)
        ∧ badStruct 0x0410 264 x.payload = none ∧ e.accession = x.acc ∧ e.tenant = x.ten ∧ s.findSess x.acc = none ∧ s.keyMissing x.ten = none
        ∧ s.profile = some wProfile ∧ tGet s.cat.devices (bitsOf x.P0 19 0) = none ∧ s.newIndex = some 0
        ∧ (∀ t ∈ [2, 3, 4], s.quotaFits e.tenant t ((s.offerCharge wProfile e).getD (t - 2) 0) = true))
    ∧ (let m : Move := { accession := 9, peerDev := 2, resume := Ss.PARKED, shelfGen := 4, remain := 0, phase := 3 };
      let x := hostSlip 5 9 [4]; let s := took { withSess (wSess Ss.MOVING) with moves := [(0, m)] } Op.SESS_MOVE_COMMIT x;
      s.takenUp Op.SESS_MOVE_COMMIT x = true ∧ x.acc ≠ 0 ∧ s.restoreDue = false ∧ s.reloading = false ∧ s.barring = false ∧ s.fenced = false
        ∧ s.epochAhead x = false ∧ x.ten = (s.sess 0).tenant ∧ s.partDown 0 = false
        ∧ s.moveOf x.acc true = some (0, m) ∧ badParam x [0xFFFFFFFF, 0, 0, 0, 0, 0] = none ∧ x.P0 = m.shelfGen)
    ∧ (let m : Move := { accession := 9, peerDev := 2, resume := Ss.PARKED, shelfGen := 4, remain := 0, phase := 3 };
      let s : State := { withSess (wSess Ss.MOVING) with moves := [(0, m)] };
      s.moveOf 9 true = some (0, m) ∧ (s.sess 0).entered + 10 ^ 9 ≤ s.tick)
    ∧ (let m : Move := { accession := 9, peerDev := 2, resume := Ss.PARKED, shelfGen := 4, remain := 0, phase := 0 };
      ({ withSess (wSess Ss.MOVING) with moves := [(0, m)] } : State).moveOf 9 false = some (0, m) ∧ m.phase = 0)
    ∧ (let m : Move := { accession := 9, peerDev := 2, resume := Ss.PARKED, shelfGen := 4, remain := 0, phase := 2 };
      ({ withSess (wSess Ss.MOVING) with moves := [(0, m)] } : State).moveOf 9 false = some (0, m) ∧ m.phase = 2) := by decide +kernel

theorem meets_AccessionOnlyWithDeviceId :
    let x := hostSlip 5 0
    let s := took (wDev.setFld F.DEV_DEVID_VALID 0) Op.SESS_ACCESSION x
    s.takenUp Op.SESS_ACCESSION x = true ∧ s.flag F.DEV_DEVID_VALID = false ∧ x.acc = 0 ∧ badParam x [1, 0, 0, 0, 0, 0] = none
      ∧ (bitOf x.P0 0 = false ∨ s.code x.src ≠ 1) ∧ (x.ten ≠ 0xFFFF ∨ bitOf x.P0 0 = true)
      ∧ s.restoreDue = false ∧ s.barring = false := by decide +kernel

/-! ## Micro-operations -/

/-- A micro-operation word from its fields (Table 5.5). -/
def wWord (op mod d a b imm : Nat) : Nat := op * 2 ^ 58 + mod * 2 ^ 54 + d * 2 ^ 48 + a * 2 ^ 42 + b * 2 ^ 36 + imm

/-- A foreground launch of a slot with the first four parameters given. -/
def wLaunch (slot : Nat) (p : List Nat) (work : List Bytes := []) : Launch :=
  { slot := slot, bg := false, tag := 1, params := p ++ List.replicate (13 - p.length) 0, work := work }

/-- A program in progress at entry 0: scalar registers 0, loop counters 0. -/
def wRun (slot : Nat := 0) (p : List Nat := []) (work : List Bytes := []) : Run :=
  { launch := wLaunch slot p work, params := p ++ List.replicate (13 - p.length) 0, pc := 0, scal := List.replicate 16 0, lc := List.replicate 4 0, unp := Unp.fresh, queries := 1 }

/-- The device with NBU 0 running it, the store's entry 0 being the word. -/
def onNbu (w : Nat) (r : Run := wRun) (v : Nbu := Nbu.fresh) : State :=
  { wDev with profile := some { wProfile with programs := [(0, 1, 0, [w])] }, nbus := [(0, { v with run := some r })] }

/-- The words of the ALU operations and LI, D and A in S0, B in S1. -/
theorem meets_AluMicroOpsWriteTheirResult :
    (∀ op ∈ [0x11, 0x12, 0x13, 0x14, 0x15, 0x16, 0x17, 0x18, 0x19, 0x1A],
      (onNbu (wWord op 0 32 32 33 0)).uopUp op 0 wRun { op := op, mod := 0, d := 32, a := 32, b := 33, imm := 0 } = true
      ∧ (onNbu (wWord op 1 32 32 0 0xFFFFFFFF)).uopUp op 0 wRun { op := op, mod := 1, d := 32, a := 32, b := 0, imm := 0xFFFFFFFF } = true)
    ∧ (onNbu (wWord 0x10 1 32 0 0 5)).uopUp 0x10 0 wRun { op := 0x10, mod := 1, d := 32, a := 0, b := 0, imm := 5 } = true
    ∧ ((onNbu (wWord 0x1B 0 32 32 0 0x3FF)).uopUp 0x1B 0 wRun { op := 0x1B, mod := 0, d := 32, a := 32, b := 0, imm := 0x3FF } = true
      ∧ inRegion false (alignDown (Nbu.fresh.sel wRun 32 + bitsOf 0x3FF 13 0) 8) 8 = true)
    ∧ ((onNbu (wWord 0x1C 0 0 32 33 8)).uopUp 0x1C 0 wRun { op := 0x1C, mod := 0, d := 0, a := 32, b := 33, imm := 8 } = true
      ∧ inRegion false (alignDown (Nbu.fresh.sel wRun 32 + bitsOf 8 13 0) 8) 8 = true) := by decide +kernel

theorem meets_ControlMicroOpsComplete :
    (onNbu (wWord 0 0 0 0 0 0)).uopUp 0x00 0 wRun (Uop.of (wWord 0 0 0 0 0 0)) = true
    ∧ (onNbu (wWord 0x0A 0 0 0 0 0)).uopUp 0x0A 0 wRun (Uop.of (wWord 0x0A 0 0 0 0 0)) = true
    ∧ (onNbu (wWord 0x09 3 0 0 0 0)).uopUp 0x09 0 wRun (Uop.of (wWord 0x09 3 0 0 0 0)) = true
    ∧ (onNbu (wWord 0x03 0 51 32 0 0xFFFF)).uopUp 0x03 0 wRun (Uop.of (wWord 0x03 0 51 32 0 0xFFFF)) = true
    ∧ (onNbu (wWord 0x04 0 48 0 0 0x1FF)).uopUp 0x04 0 wRun (Uop.of (wWord 0x04 0 48 0 0 0x1FF)) = true
    ∧ (onNbu (wWord 0x05 0 0 32 0 7)).uopUp 0x05 0 wRun (Uop.of (wWord 0x05 0 0 32 0 7)) = true
    ∧ (onNbu (wWord 0x06 0 0 32 0 7)).uopUp 0x06 0 wRun (Uop.of (wWord 0x06 0 0 32 0 7)) = true
    ∧ (onNbu (wWord 0x07 0 0 0 0 7)).uopUp 0x07 0 wRun (Uop.of (wWord 0x07 0 0 0 0 7)) = true
    ∧ (onNbu (wWord 0x02 0 0 0 0 0xFFFFFF)).uopUp 0x02 0 wRun (Uop.of (wWord 0x02 0 0 0 0 0xFFFFFF)) = true
    ∧ (onNbu (wWord 0x01 0 0 0 0 0)).uopUp 0x01 0 wRun (Uop.of (wWord 0x01 0 0 0 0 0)) = true
    ∧ (((onNbu (wWord 0x01 0 0 0 0 0)).yieldAt 0).1.nbu 0).run = some wRun := by decide +kernel

theorem meets_ColumnMicroOpsComplete :
    ((onNbu (wWord 0x08 0 32 0 0 0x40) wRun { Nbu.fresh with work := [[1]] }).uopUp 0x08 0 wRun (Uop.of (wWord 0x08 0 32 0 0 0x40)) = true
      ∧ inRegion false (alignDown 0x40 8) 32 = true)
    ∧ ((onNbu (wWord 0x08 0 32 0 0 0)).uopUp 0x08 0 wRun (Uop.of (wWord 0x08 0 32 0 0 0)) = true ∧ Nbu.fresh.work = [] ∧ Nbu.fresh.closed = true)
    ∧ (let w := wWord 0x20 0 0 32 0 0x01000003; let s := onNbu w; let u := Uop.of w;
      s.uopUp 0x20 0 wRun u = true
        ∧ (s.bring 0 (32 - (s.nbu 0).latch.length) ((s.nbu 0).toRead
          ++ (List.range u.n).map (fun i => (((s.nbu 0).sel wRun u.a + bitsOf u.imm 20 0 + i) % 2 ^ 21, none))) (s.nbu 0).latch).2.2 = none)
    ∧ (let w := wWord 0x21 0 32 33 34 0; (onNbu w).uopUp 0x21 0 wRun (Uop.of w) = true
      ∧ inRegion false (alignDown (Nbu.fresh.sel wRun 34) 64) (64 * (Uop.of w).n) = true)
    ∧ (let w := wWord 0x22 0 0 32 0 0x01000040; let s := onNbu w; let u := Uop.of w;
      s.uopUp 0x22 0 wRun u = true ∧ inRegion false (alignDown ((s.nbu 0).sel wRun u.a + bitsOf u.imm 13 0) 64) (64 * u.n) = true
        ∧ (s.bring 0 (32 - (s.nbu 0).latch.length) ((s.nbu 0).toRead
          ++ (List.range u.n).map (fun i => (0, some ((s.nbu 0).rd false (0x40 + 64 * i) 64)))) (s.nbu 0).latch).2.2 = none)
    ∧ (let w := wWord 0x23 0 0 32 0 0; let s := onNbu w wRun { Nbu.fresh with latch := [List.replicate 64 1] };
      s.uopUp 0x23 0 wRun (Uop.of w) = true ∧ inRegion false (alignDown ((s.nbu 0).sel wRun 32 + 0) 64) 64 = true
        ∧ (s.takeCols 0 (Uop.of w).n).bind (fun c => c.getLeft?) = some ([List.replicate 64 1], { s.nbu 0 with latch := [], toRead := [] }))
    ∧ (let w := wWord 0x24 0 0 32 33 0; (onNbu w).uopUp 0x24 0 wRun (Uop.of w) = true ∧ inRegion false (alignDown 0 64) (64 * (Uop.of w).n) = true)
    ∧ (let w := wWord 0x25 0 0 32 0 0; (onNbu w).uopUp 0x25 0 wRun (Uop.of w) = true ∧ inRegion false (alignDown 0 64) (64 * (Uop.of w).n) = true) := by
  decide +kernel

/-- What a consumer unpacks, computed: the NBU with its columns taken, the groups, the unpacker after them. -/
def unpack (s : State) (n : Nat) (r : Run) (u : Uop) : Option (Nbu × List (Nat × Nat × Nat × List Nat) × Unp) :=
  match s.profile, s.takeCols n u.n with
  | some p, some (.inl (cols, w)) =>
    if r.unp.format ≤ 2 ∧ inRegion r.launch.bg (r.unp.scale + (r.unp.group - r.unp.first)) ((r.unp.rest ++ cols.flatten).length / groupBytes r.unp.format) = false
    then none
    else match s.unpackGo n w r.launch.bg p ((r.unp.rest ++ cols.flatten).length + 1) r.unp (r.unp.rest ++ cols.flatten) [] with
      | (gs, up, none) => some (w, gs, up)
      | _ => none
  | _, _ => none

/-- It is what the statements call unpacked. -/
theorem unpack_unpacked {s : State} {n : Nat} {r : Run} {u : Uop} {w : Nbu} {gs : List (Nat × Nat × Nat × List Nat)} {up : Unp}
    (h : unpack s n r u = some (w, gs, up)) : s.unpacked n r u w gs up := by
  unfold unpack at h
  split at h
  · rename_i p cols v hp hc
    split at h
    · cases h
    · rename_i hr
      split at h
      · rename_i g q hg
        cases h
        exact ⟨p, cols, _, hp, hc, rfl, fun hf => by simpa [hf] using hr, hg⟩
      · cases h
  · cases h

/-- A program whose unpacker reads FP8 vectors, one group per vector. -/
def wRunV (fmt : Nat) : Run := { wRun with unp := { Unp.fresh with format := fmt } }

/-- NBU 0 with one column of ones in its latch FIFO. -/
def wLatch : Nbu := { Nbu.fresh with latch := [List.replicate 64 1] }

theorem meets_ComputingMicroOpsComplete :
    (onNbu (wWord 0x30 5 32 33 34 0x7FFF)).uopUp 0x30 0 wRun (Uop.of (wWord 0x30 5 32 33 34 0x7FFF)) = true
    ∧ (let w := wWord 0x31 7 0 32 33 0; let s := onNbu w (wRunV 3) wLatch;
      s.uopUp 0x31 0 (wRunV 3) (Uop.of w) = true ∧ inRegion false 0 (8 * (32 * (wRunV 3).unp.g)) = true ∧ inRegion false 0 (256 * 8) = true
        ∧ (unpack s 0 (wRunV 3) (Uop.of w)).isSome = true)
    ∧ (let w := wWord 0x32 7 32 33 34 0; (onNbu w).uopUp 0x32 0 wRun (Uop.of w) = true ∧ inRegion false 0 2112 = true)
    ∧ (let w := wWord 0x33 0 0 32 0 0; let s := onNbu w (wRunV 0) wLatch;
      s.uopUp 0x33 0 (wRunV 0) (Uop.of w) = true ∧ inRegion false 0 (2112 + 4 * (32 * (wRunV 0).unp.g) * (wRunV 0).queries) = true
        ∧ (unpack s 0 (wRunV 0) (Uop.of w)).isSome = true)
    ∧ (let w := wWord 0x34 0 0 32 0 0; let s := onNbu w (wRunV 3) wLatch;
      s.uopUp 0x34 0 (wRunV 3) (Uop.of w) = true
        ∧ (unpack s 0 (wRunV 3) (Uop.of w)).map (fun t => inRegion false 0 (t.2.1.flatMap (fun g => g.2.2.2.flatMap (leBytes 4))).length) = some true)
    ∧ (let w := wWord 0x35 2 32 33 34 0; (onNbu w).uopUp 0x35 0 wRun (Uop.of w) = true ∧ inRegion false 0 128 = true ∧ inRegion false 0 (groupBytes 2) = true)
    ∧ (let w := wWord 0x36 0 0 32 33 0; (onNbu w).uopUp 0x36 0 wRun (Uop.of w) = true ∧ inRegion false 0 128 = true ∧ inRegion false 0 64 = true)
    ∧ (let w := wWord 0x37 6 0 32 33 0; let s := onNbu w (wRunV 4) wLatch;
      s.uopUp 0x37 0 (wRunV 4) (Uop.of w) = true ∧ inRegion false 0 12 = true
        ∧ (unpack s 0 (wRunV 4) (Uop.of w)).map (fun t => t.2.1.all (fun g => inRegion false (0 + 64 * g.2.2.1) 64)) = some true)
    ∧ (let w := wWord 0x38 0 32 33 34 0; (onNbu w).uopUp 0x38 0 wRun (Uop.of w) = true ∧ inRegion false (alignDown (bitsOf 0 13 0) 8) 4104 = true)
    ∧ (let w := wWord 0x39 0 0 32 33 0; let s := onNbu w (wRunV 3) wLatch;
      s.uopUp 0x39 0 (wRunV 3) (Uop.of w) = true ∧ inRegion false 0 ((0 % 8 + 1) * (32 * (wRunV 3).unp.g)) = true
        ∧ (unpack s 0 (wRunV 3) (Uop.of w)).map (fun t => (slotsIn t.2.1).all (fun k => inRegion false (0 + 32 * k) 32)) = some true) := by decide +kernel

/-- The device with NBU 0 running a standard program: slot, parameters, work. -/
def onProg (slot : Nat) (p : List Nat) (work : List Bytes := []) : State :=
  { wDev with nbus := [(0, { Nbu.fresh with work := work, run := some (wRun slot p work) })] }

/-- A work descriptor: page 0, narrow, one token, KV head 0. -/
def wDesc : Bytes := leBytes 8 (2 ^ 48) ++ List.replicate 14 0 ++ [0, 1] ++ List.replicate 8 0

/-- Where nothing is marked, no range a program reads is damaged. -/
theorem anyHurt_unmarked {s : State} (h : s.errs.poison = []) (l : List (Nat × Nat)) : s.anyHurt l = false := by
  simp [State.anyHurt, State.hurtAt, h]

/-- A program of a standard slot is up. -/
theorem up_onProg (slot : Nat) (p : List Nat) (work : List Bytes) :
    (onProg slot p work).programUp slot 0 wProfile (wRun slot p work) := ⟨rfl, rfl, rfl⟩

/-- Pages without a KV head, so that the kernel can work the page through. -/
def wSmall : Profile := { wProfile with kvHeads := 0 }

/-- Pages of two groups, a token and one KV head of dimension 32. -/
def wTiny : Profile := { wProfile with headDim := 32, tokensPerPage := 1 }

/-- The device, its profile replaced, with a session whose directory names page 3 in a format, running a standard program. -/
def onPage (f : Nat) (q : Profile) (slot : Nat) (p : List Nat) (hbm : List (Nat × Byte) := []) : State :=
  let e := { wSess Ss.WAITING with pages := [{ layer := 0, index := 0, slot := 3, second := 4, format := f, fill := 0 }] }
  { withSess e (onProg slot p) with profile := some q, hbm := hbm }

theorem up_onPage (f : Nat) (q : Profile) (slot : Nat) (p : List Nat) (hbm : List (Nat × Byte)) :
    (onPage f q slot p hbm).programUp slot 0 q (wRun slot p) := ⟨rfl, rfl, rfl⟩

theorem meets_StandardProgramsComplete_attn :
    let s := onProg 0 [0, 8] [wDesc]; let r := wRun 0 [0, 8] [wDesc]
    s.programUp 0 0 wProfile r ∧ ((s.nbu 0).closed = true ∧ 1 ≤ r.param 1 % 16 ∧ r.param 1 % 16 ≤ 8
      ∧ ∀ d ∈ (s.nbu 0).work, descOk wProfile 0 d = true)
    ∧ s.anyHurt ((s.nbu 0).work.flatMap (s.descReads wProfile)) = false :=
  ⟨up_onProg _ _ _, by decide +kernel, anyHurt_unmarked rfl _⟩

/-- A field of a wide page that lies in its second slot is read there. -/
theorem slice_second {s : State} {a b o n : Nat} (h : 65536 ≤ o) :
    slice (s.hbmRd a 65536 ++ s.hbmRd b 65536) o n = slice (s.hbmRd b 65536) (o - 65536) n := by
  have l : (s.hbmRd a 65536).length = 65536 := by simp [State.hbmRd]
  unfold slice
  rw [List.drop_append, l, List.drop_eq_nil_of_le (by omega), List.nil_append]

/-- What APPEND asks of its parameters, for page 3, its second slot 0 or the one the directory names, token `t`, ESC_COUNT `e`. -/
def appendUp (s : State) (q : Profile) (t e fill : Nat) (wide grows cut : Bool) : Prop :=
  let named := if wide then 4 else 0
  let b1 := s.hbmRd (slotAddr 3) 65536
  let b2 := s.hbmRd (slotAddr named) 65536
  let w := slice b2 (progressAt q) 16
  (match s.refOf 3 with | some q => q.format == 1 | none => false) = wide
    ∧ (match s.refOf 3 with | some q => if q.format == 1 then q.second else 0 | none => 0) = named
    ∧ (!wide && decide (e + ((appendRec (2 * q.kvHeads * q.G) []).cand.filter id).length > (q.lay 0).escCap)) = grows
    ∧ inPair 0 3 = true ∧ inPair 0 0 = true ∧ t < q.tokensPerPage ∧ s.gen 3 < 0xFFFFFFFF
    ∧ (!wide && rdLe w 0 8 % 2 ^ 40 == 3 && bitsOf (rdLe w 0 8) 47 40 == t && bitsOf (rdLe w 0 8) 51 48 != 0 && rdLe w 8 4 == s.gen 3) = cut
    ∧ hdGet (q.lay (b2n wide)) (if wide then b1 ++ b2 else b1) Hd.FILL = fill

/-- Bytes of HBM that hold FILL 1 in the header of page 3, and those of a progress word in slot 0 that names page 3, token 0, phase 1. -/
def wFill1 : List (Nat × Byte) := [(slotAddr 3 + (wSmall.lay 0).header + Hd.FILL.off, 1)]
def wCut : List (Nat × Byte) := [(progressAt wTiny, 3), (progressAt wTiny + 6, 1)]

theorem meets_StandardProgramsComplete_append :
    ((onPage 0 wSmall 1 [3, 0]).programUp 1 0 wSmall (wRun 1 [3, 0]) ∧ appendUp (onPage 0 wSmall 1 [3, 0]) wSmall 0 0 0 false false false)
    ∧ appendUp (onPage 0 wSmall 1 [3, 0] wFill1) wSmall 0 0 1 false false false
    ∧ appendUp (onPage 1 wSmall 1 [3, 0]) wSmall 0 0 0 true false false
    ∧ appendUp (onPage 0 wSmall 1 [3, 0xFFFF00]) wSmall 0 0xFFFF 0 false true false
    ∧ appendUp (onPage 0 wTiny 1 [3, 0] wCut) wTiny 0 0 0 false false true := by
  refine ⟨⟨up_onPage .., ?_⟩, ?_, ?_, ?_, ?_⟩ <;> unfold appendUp <;> simp (config := { zeta := true }) only [Bool.false_eq_true, if_false, if_true] <;>
    and_intros <;>
    first
    | (rw [slice_hbmRd _ _ _ _ _ (by decide +kernel)]; decide +kernel)
    | (rw [hdGet_hbmRd (by decide +kernel)]; decide +kernel)
    | (rw [hdGet, rdLe, slice_second (by decide +kernel), slice_hbmRd _ _ _ _ _ (by decide +kernel)]; decide +kernel)
    | decide +kernel

theorem meets_StandardProgramsComplete_append_sound (f : Nat) (q : Profile) (a : List Nat) (hbm : List (Nat × Byte)) (l : List (Nat × Nat)) :
    (onPage f q 1 a hbm).anyHurt l = false := anyHurt_unmarked rfl l

theorem meets_StandardProgramsComplete_age :
    let s := onPage 0 wSmall 2 [3, 4, 0]
    s.programUp 2 0 wSmall (wRun 2 [3, 4, 0]) ∧ (inPair 0 3 = true ∧ inPair 0 4 = true)
      ∧ s.anyHurt (s.headRead wSmall 3 0 ++ s.groupReads wSmall 3 0 (List.range wSmall.N)) = false :=
  ⟨up_onPage .., by decide +kernel, anyHurt_unmarked rfl _⟩

theorem meets_StandardProgramsComplete_others :
    (let s := onProg 3 [64 * 1, 0, 0, 0] [wDesc];
      s.programUp 3 0 wProfile (wRun 3 [64 * 1, 0, 0, 0] [wDesc])
        ∧ ((s.nbu 0).closed = true ∧ (64 % 16 = 0 ∨ (3 ≤ 64 % 16 ∧ 64 % 16 ≤ 5)) ∧ bitsOf 64 5 4 ≤ 2
          ∧ ∀ d ∈ (s.nbu 0).work, inPair 0 (rdLe d 0 8 % 2 ^ 40) = true)
        ∧ s.anyHurt ((s.nbu 0).work.flatMap (s.blockReads 0 0)) = false)
    ∧ (let s := onProg 4 [5, 0];
      s.programUp 4 0 wProfile (wRun 4 [5, 0]) ∧ (inPair 0 5 = true ∧ 32 ≤ wProfile.hidden ∧ s.hurtAt (slotAddr 5) (17 * 0) = false))
    ∧ ∀ k, let s := onPage 0 wProfile 5 [3, 4, k * 2 ^ 40];
      s.programUp 5 0 wProfile (wRun 5 [3, 4, k * 2 ^ 40])
        ∧ (s.refOf 3 = some { layer := 0, index := 0, slot := 3, second := 4, format := 0, fill := 0 } ∧ inPair 0 3 = true ∧ inPair 0 4 = true
          ∧ inPair 0 0 = true)
        ∧ s.anyHurt (s.copyReads wProfile 3 0 (bitsOf (k * 2 ^ 40) 45 40)) = false := by
  refine ⟨⟨up_onProg _ _ _, by decide +kernel, anyHurt_unmarked rfl _⟩, ⟨up_onProg _ _ _, by decide +kernel⟩, fun k => ⟨up_onPage .., ?_, anyHurt_unmarked rfl _⟩⟩
  exact ⟨rfl, by decide, by decide, by decide⟩

theorem meets_NbuLaunchesRunAndComplete :
    (let s := ({ wDev with nbus := [(0, { Nbu.fresh with fg := List.replicate 3 (wLaunch 0 []) })] } : State).setFld F.NBU_PROG_VALID 1;
      s.nbuOn 0 = true ∧ (s.nbu 0).fg.length < 4 ∧ s.flag (F.NBU_PROG_VALID.at (8 * 0)) = true)
    ∧ (let s : State := { wDev with nbus := [(6143, { Nbu.fresh with fg := [wLaunch 0 []] })] };
      s.nbuOn 6143 = true ∧ s.reloading = false ∧ s.retraining 2 (6143 / 512) = false ∧ s.launchHeld = false ∧ (s.nbu 6143).run = none ∧ (s.nbu 6143).susp = none ∧ (s.nbu 6143).fg = [wLaunch 0 []])
    ∧ (let s := ({ wDev with nbus := [(0, { Nbu.fresh with bg := [wLaunch 2 []] })] } : State).setFld F.NBU_CTRL_BG_EN 1;
      s.nbuOn 0 = true ∧ s.reloading = false ∧ s.retraining 2 (0 / 512) = false ∧ s.launchHeld = false
        ∧ (s.nbu 0).run = none ∧ (s.nbu 0).susp = none ∧ (s.nbu 0).fg = [] ∧ (s.nbu 0).bg = [wLaunch 2 []] ∧ s.flag F.NBU_CTRL_BG_EN = true)
    ∧ (∀ c ∈ [0, 2, 4, 6], ∀ slot ∈ [0, 1], let s : State := { wDev with nbus := [(0, { Nbu.fresh with done := [(wLaunch slot [], c * 2 ^ 56 + 5)] })] };
      (s.nbu 0).done = [(wLaunch slot [], c * 2 ^ 56 + 5)] ∧ (c * 2 ^ 56 + 5) / 2 ^ 56 = c ∧ (s.updNbu 0 (fun v => { v with done := [] })).nbuOn 0 = true
        ∧ ((((s.updNbu 0 (fun v => { v with done := [] })).nbu 0).parity.filter (fun k => decide (s.tick < k + 100000000))) ++ [s.tick]).length < 3)
    ∧ ((2 ^ 27 - 1) / 2 ^ 27 = 0 ∧ wDev.stackOn (0 / 512) = true ∧ (wDev.nbu 0).run = none ∧ wDev.retraining 2 (0 / 512) = false)
    ∧ (((onNbu 0).nbu 0).run = some wRun ∧ (onNbu 0).stackOn (0 / 512) = true)
    ∧ ((onNbu 0 wRun { Nbu.fresh with debt := [4, 0] }).yieldAt 0).2 = true := by decide +kernel

theorem meets_NbuFaultsAndBroadcastsComplete :
    ((onNbu 0).nbu 0).run = some wRun ∧ (wDev.nbu 0).run = none ∧ (wDev.stack 0).inbox = []
    ∧ (let r : Rec := { kind := 0, route := 3, body := List.replicate 64 0 };
      let m : Merge := { kind := 0, key := r.key, expect := 2, got := 0, body := [] };
      let s : State := { wDev with dieTab := [(0, { input := [], inbox := [r], merges := [] })] };
      (s.stack 0).inbox = [r] ∧ (s.stack 0).merges.find? (fun m => m.kind == r.kind && m.key == r.key) = none
      ∧ (let s : State := { wDev with dieTab := [(0, { input := [], inbox := [r], merges := [m] })] };
        (s.stack 0).merges.find? (fun m => m.kind == r.kind && m.key == r.key) = some m ∧ m.got + 1 < m.expect)
      ∧ (let m := { m with got := 1 }; let s : State := { wDev with dieTab := [(0, { input := [], inbox := [r], merges := [m] })] };
        (s.stack 0).merges.find? (fun m => m.kind == r.kind && m.key == r.key) = some m ∧ m.expect ≤ m.got + 1)) := by decide +kernel

theorem meets_MicroOpsStayOnTheirUnit :
    ((onNbu (wWord 0 0 0 0 0 0)).nbu 0).waiting = [] ∧ Instr.NBU_NOP 0 ∈ microOps 0
      ∧ (match exec (.NBU_NOP 0) (onNbu (wWord 0 0 0 0 0 0)) with | .next _ => true | _ => false) = true := by decide +kernel

/-! ## Steps -/

/-- A row of the open step: session 9 at entry 0, position 1, batch slot 0. -/
def wRow : StepRow :=
  { idx := 0, acc := 9, pos := 1, slot := 0, want := true, entry := 7, layer := 0, reserved := 1, hidden := none, sampling := List.replicate 40 0 }

/-- An open step with that row. -/
def wStep : XStep :=
  { id := 4, prefill := false, rows := [wRow], sent := [], nextNo := 0, served := [], waiting := [], arrived := [], lastSent := 0, timeout := 100,
    conf := 0, failing := false }

/-- The device with that step open. -/
def onStep (t : XStep := wStep) : State := { withSess { wSess Ss.DECODE with
    kvLength := 1, pending := 1, transcript := [7, 8], inStep := true, pages := [{ layer := 0, index := 0, slot := 0, second := 1, format := 1, fill := 1 }] } with
    steps := [(4, t)] }

/-- An exchange message of one row: kind, the peer it comes from, its layer. -/
def wX (kind peer layer : Nat) (q : Profile := wProfile) : Slip :=
  wSlip (.peer peer) 0xFFFF 0 [] (xPayload q kind 4 layer 0 1 [rowHead 9 1 0 0 ++ List.replicate (q.rowBytes kind - 32) 0])

/-- The rows of a message all name a row of the step. -/
def wSame (x : Slip) (t : XStep) : Bool := (xRows x.payload).all (fun r => (t.rowOf r).isSome)

/-- A message of a step taken up, its header and rows sound, and not served before. -/
def freshX (s : State) (op kind layer from_ : Nat) (t : XStep) (x : Slip) (q : Profile := wProfile) : Bool :=
  s.takenUp op x && xHeadBad q kind x == none && tGet s.steps 4 == some t && rdLe x.payload 8 4 == 4
    && rdLe x.payload 0x0C 2 == (if kind == 3 then 0xFFFF else layer) && t.served == [] && !xRowsBad q t kind layer from_ x
    && !s.stackRetrains

theorem meets_ExchangeMessagesServe_decode :
    let x := wX 1 1 0; let s := took onStep Op.XCHG_LAYER x
    s.profile = some wProfile ∧ (xRows x.payload).map (fun r => rdLe r 0x0C 2) = [0] ∧ wSame x wStep = true
      ∧ freshX s Op.XCHG_LAYER 1 0 (wProfile.layerStage.getD 0 0) wStep x = true ∧ wStep.prefill = false
      ∧ (s.serveDecode wProfile wStep 0 x).isSome = true := by decide +kernel

/-- A prefill chunk of that row, with what has arrived of it, failing or not. -/
def wChunk (failing : Bool) : XStep := { wStep with prefill := true, failing := failing }

theorem meets_ExchangeMessagesServe_prefill :
    let x := wX 1 1 0
    (let s := took (onStep (wChunk true)) Op.XCHG_LAYER x;
      freshX s Op.XCHG_LAYER 1 0 (wProfile.layerStage.getD 0 0) (wChunk true) x = true)
    ∧ (let y := wX 1 1 0 wSmall; let s := took { onStep (wChunk false) with profile := some wSmall } Op.XCHG_LAYER y;
      let u := s.updStep 4 (fun t => { t with arrived := t.arrived ++ (xRows y.payload).map (fun r => (0, rdLe r 8 4, r)) });
      freshX s Op.XCHG_LAYER 1 0 (wSmall.layerStage.getD 0 0) (wChunk false) y wSmall = true
        ∧ ((tGet u.steps 4).map fun w => (w.failing, w.covered 0 (((xRows y.payload).map (fun r => rdLe r 8 4)).foldl max 0))) = some (false, true)
        ∧ (match u.servePrefill wSmall 4 0 y with | .yes _ => true | _ => false) = true) := by decide +kernel

theorem meets_ExchangeMessagesServe :
    (let x := { wX 1 1 0 with epoch := 1 }; let s := took (onStep) Op.XCHG_LAYER x;
      s.takenUp Op.XCHG_LAYER x = true ∧ (xHeadBad wProfile 1 x).isSome = true)
    ∧ (let v : Served := { op := Op.XCHG_LAYER, layer := 0, index := 0, slots := [0], reply := [], no := 0 }; let t := { wStep with served := [v] };
      let x := wX 1 1 0; let s := took (onStep t) Op.XCHG_LAYER x;
      s.takenUp Op.XCHG_LAYER x = true ∧ xHeadBad wProfile 1 x = none ∧ tGet s.steps 4 = some t
        ∧ t.served.find? (fun v => v.op == Op.XCHG_LAYER && v.layer == 0 && v.index == rdLe x.payload 0x10 2
          && v.slots == (xRows x.payload).map (fun r => rdLe r 0x0C 2) && (wSame x t && x.src == .peer (wProfile.layerStage.getD 0 0))) = some v)
    ∧ (let t := { wStep with rows := [{ wRow with layer := 1 }] }; let x := wX 3 2 0xFFFF; let s := took (onStep t) Op.XCHG_FINAL x;
      freshX s Op.XCHG_FINAL 3 0 wProfile.finalStage t x = true)
    ∧ (let m : XMsg := { no := 2, op := Op.XCHG_EMBED, peer := 1, payload := [], retries := 0, due := some 0 }; let t := { wStep with sent := [m] };
      let s := (onStep t).setFld F.ME_XCHG_CFG_RETRIES 1;
      tGet s.steps 4 = some t ∧ t.sent.find? (fun m => m.no == 2) = some m ∧ statusClass 0x2000 = 2 ∧ m.retries < s.fld F.ME_XCHG_CFG_RETRIES
        ∧ 2 ≤ statusClass 0x3000 ∧ (statusClass 0x3000 = 2 → s.fld F.ME_XCHG_CFG_RETRIES ≤ m.retries) ∧ m.due = some 0 ∧ 0 ≤ s.tick
        ∧ t.lastSent + t.timeout ≤ s.tick) := by decide +kernel

/-- Entry 0 queued for a step. -/
def wQueued : Queued := { since := 0, vft := 0, tenant := 5, order := 0, idx := 0 }

/-- The device, steps enabled, with entry 0 queued for decode or for prefill. -/
def onQueue (e : Sess) (q : Sched) : State := { (withSess e).setFld F.SCHED_CTRL_SCHED_EN 1 with sched := q }

/-- An ME with a tile of a prefill job of step 4, whose guards find `cond` at every format. -/
def onMe (cond fmt parity : Nat) (second : Bool) (kind : Nat := 0) : State :=
  ({ onStep (wChunk false) with
    mes := [(131, { tile := some { kind := kind, ref := 4, part := 0, conds := List.replicate 4 cond, entry := 0, fmt := fmt, second := second, parity := parity, avoid := none }, resets := [] })] }).setFld
    (F.ME_UNIT_STATE.at (8 * 131)) 2

theorem meets_StepsFormAndEnginesAct :
    (State.reset.profile = none ∧ (wDev.setFld F.SCHED_CTRL_SCHED_EN 0).mayStep = false)
    ∧ (let s := onQueue { wSess Ss.DECODE with pending := 1, transcript := [7], armed := true } { v := 0, decode := [wQueued], prefill := [], next := 1 };
      s.profile = some wProfile ∧ s.mayStep = true ∧ (s.steps.filter (fun t => !t.2.prefill)).length < s.fld F.SCHED_BATCH_DECODE_OPEN
        ∧ (s.takeDecode wProfile (s.fld F.SCHED_BATCH_MAX_BATCH) s.sched.decode []).2.1 ≠ [])
    ∧ (let e := { wSess Ss.PREFILL with pending := 3, transcript := [7, 8, 9], armed := true };
      let s := onQueue e { v := 0, decode := [], prefill := [wQueued], next := 1 };
      s.profile = some wProfile ∧ s.mayStep = true ∧ (s.steps.filter (fun t => t.2.prefill)).length < s.fld F.SCHED_BATCH_PREFILL_OPEN
        ∧ ((s.pickPrefill wProfile s.sched.prefill).2.1.map (fun q => q.1)) = some wQueued
        ∧ (let f := { s with tenants := [(5, { Tenant.fresh with provisioned := true, quotas := List.replicate 4 { limit := 0, used := 0 } })] };
          (f.pickPrefill wProfile f.sched.prefill).2.1 = none ∧ ((f.pickPrefill wProfile f.sched.prefill).2.2.map (·.1)) = some 0)
        ∧ (s.pickPrefill wProfile []).2 = (none, none))
    ∧ (wDev.meOn 131 = false ∧ (wDev.me 0).tile = none)
    ∧ (let s := onMe 0 0 0 false; s.meOn 131 = true ∧ (s.me 131).tile.map (fun t => (t.kind != 1, t.ref != 5, t.conds.getD (t.fmt - t.entry) 0 != 1)) = some (true, true, true))
    ∧ (∀ cond ∈ [0, 1, 2, 3], ∀ fmt ∈ [0, 3], ∀ second ∈ [false, true], let s := onMe cond fmt 0 second;
      s.meOn 131 = true ∧ ((s.me 131).tile.map (fun t => (t.fmt, t.second, t.conds.getD (t.fmt - t.entry) 0))) = some (fmt, second, cond)
        ∧ ((tGet s.steps 4).map (fun x => (x.rows.head?.isSome, x.prefill))) = some (true, true))
    ∧ ((onMe 1 3 0 true 1).meOn 131 = true ∧ (((onMe 1 3 0 true 1).me 131).tile.map (·.kind)) = some 1)
    ∧ (∀ parity ∈ [0, 1], ((onMe 0 0 parity false).me 131).tile.map (·.parity) = some parity)
    ∧ (∀ d ∈ [2 ^ 64 - 1, 0, 0], d < 2 ^ 64) := by
  and_intros <;> decide +kernel

/-! ## Tiers -/

theorem meets_TierSlipsComplete :
    (let x := hostSlip 5 0 [4, 0xFFFFFFFF]; let s := took wDev Op.TIER_SET_QUOTA x;
      s.tierUp Op.TIER_SET_QUOTA x = true ∧ x.acc = 0 ∧ badParam x [7, 0xFFFFFFFF, 0, 0, 0, 0] = none ∧ 1 ≤ x.P0 ∧ x.P0 ≤ 4)
    ∧ (let x := hostSlip 5 0; let s := took wDev Op.TIER_QUERY x;
      s.tierUp Op.TIER_QUERY x = true ∧ x.acc = 0 ∧ badParam x [0, 0, 0, 0, 0xFFFFFFFF, 0xFFFFFFFF] = none ∧ s.profile = some wProfile)
    ∧ (let x := hostSlip 5 0 [0x200000, 0, 1];
      let s := took { wDev with hostRegions := [(0, { state := 1, base := 0, units := 1 })] } Op.TIER_LEND_HOST x; let base := 0x200000;
      s.tierUp Op.TIER_LEND_HOST x = true ∧ x.acc = 0 ∧ badParam x [0xFFFFFFFF, 0xFFFFFFFF, 0xFFFFFFFF, 0, 0, 0] = none
        ∧ base = x.P0 + x.P1 * 2 ^ 32 ∧ base % 2 ^ 21 = 0 ∧ x.P2 ≠ 0
        ∧ (∀ q ∈ s.hostRegions, q.2.state ≠ 0 → q.2.base + q.2.units * 2 ^ 21 ≤ base ∨ base + x.P2 * 2 ^ 21 ≤ q.2.base)
        ∧ tFree s.hostRegions 1 16 0 = some 1)
    ∧ (let x := hostSlip 5 0 [15]; let r : HostRegion := { state := 1, base := 0, units := 1 };
      let s := took { wDev with hostRegions := [(15, r)] } Op.TIER_RECLAIM_HOST x;
      s.tierUp Op.TIER_RECLAIM_HOST x = true ∧ x.acc = 0 ∧ badParam x [15, 0, 0, 0, 0, 0] = none ∧ tGet s.hostRegions x.P0 = some r
        ∧ s.lockBusy Ac.HOST_RECLAIM 1 3 = none
        ∧ (({ s with hostRegions := tPut s.hostRegions x.P0 { r with state := 2 } } : State).clearRegion x.P0).regionUse x.P0 = [])
    ∧ (let x := hostSlip 5 0 [0]; let r : HostRegion := { state := 1, base := 0, units := 1 };
      let d : DownPage := { page := { layer := 0, index := 0, slot := 0, second := 0, format := 0, fill := 32 }, tier := 3, unit := 0, body := [1], gen := 0 };
      let s := took { withSess { wSess Ss.PREEMPTED with down := [d] } (wDev.setFld F.TIER_CAP_CELLAR_GIB 0) with hostRegions := [(0, r)] } Op.TIER_RECLAIM_HOST x;
      s.tierUp Op.TIER_RECLAIM_HOST x = true ∧ tGet s.hostRegions x.P0 = some r ∧ s.lockBusy Ac.HOST_RECLAIM 1 3 = none
        ∧ (({ s with hostRegions := tPut s.hostRegions x.P0 { r with state := 2 } } : State).clearRegion x.P0).regionUse x.P0 ≠ [])
    ∧ (let x := hostSlip 5 9 [1, 0, 7] (wStruct 0x1010 (objHeader 9 1 5 0 7 4 ++ [1, 2, 3, 4])); let s := took wDev Op.TIER_SHELF_PUT x;
      let h := x.payload.drop 8; let n := rdLe h 0x14 4;
      s.tierUp Op.TIER_SHELF_PUT x = true ∧ badParam x [0xFF, 0xFFFFFFFF, 0xFFFFFFFF, 0, 0, 0] = none
        ∧ badStruct 0x1010 40 x.payload = none ∧ x.acc ≠ 0 ∧ 1 ≤ x.P0 ∧ x.P0 ≤ 5 ∧ 40 + n ≤ rdLe x.payload 4 4
        ∧ slice h 0 9 = slice (objHeader x.acc x.P0 x.ten x.P1 x.P2 n) 0 9 ∧ slice h 10 14 = slice (objHeader x.acc x.P0 x.ten x.P1 x.P2 n) 10 14
        ∧ s.shelf.filter (fun o => !o.own && o.accession == x.acc && o.kind == x.P0 && o.number == x.P1) = []
        ∧ s.pickUnits 2 (bodyQuarters n) = some 1 ∧ s.holdUsed + bodyQuarters n ≤ s.fld F.TIER_HOLD_CAP)
    ∧ (let o : ShelfObj := { accession := 9, kind := 1, number := 0, alive := 7, tenant := 5, body := [1, 2, 3, 4], tier := 2, own := false, second := false, unit := 0 };
      let d := { wDev with shelf := [o] };
      let x := hostSlip 5 9 [1, 0, 7] (wStruct 0x1010 (objHeader 9 1 5 0 7 4 ++ [1, 2, 3, 4]));
      ((took d Op.TIER_SHELF_PUT x).tierUp Op.TIER_SHELF_PUT x = true
        ∧ (d.shelf.filter (fun o => !o.own && o.accession == x.acc && o.kind == x.P0 && o.number == x.P1)).any (fun o => o.alive == x.P2) = true)
      ∧ (let x := hostSlip 5 9 [1, 0, 0]; let s := took d Op.TIER_SHELF_GET x;
        s.tierUp Op.TIER_SHELF_GET x = true ∧ badParam x [0xFF, 0xFFFFFFFF, 0xFFFFFFFF, 0, 0xFFFFFFFF, 0xFFFFFFFF] = none
          ∧ (s.shelf.filter (fun o => o.accession == x.acc && o.kind == x.P0 && o.number == x.P1)).find? (fun o => o.alive == 7) = some o
          ∧ s.unitsHurt o.tier o.unit o.body.length = false)
      ∧ (let x := hostSlip 5 9 [0, 0xFFFFFFFF, 8]; let s := took d Op.TIER_SHELF_DROP x;
        s.tierUp Op.TIER_SHELF_DROP x = true ∧ badParam x [0xFF, 0xFFFFFFFF, 0xFFFFFFFF, 0, 0, 0] = none
          ∧ s.shelf.filter (fun o => !o.own && o.accession == x.acc && (x.P0 == 0 || o.kind == x.P0) && (x.P1 == 0xFFFFFFFF || o.number == x.P1)
            && (x.P2 == 0xFFFFFFFF || o.alive < x.P2)) ≠ [])) := by decide +kernel

theorem meets_ExpiriesComplete :
    (let e := wSess Ss.ACCESSIONED; let s := withSess e;
      s.findSess 9 = some (0, e) ∧ s.due e = true ∧ s.textOpen 0 = false ∧ s.barring = false ∧ e.state = Ss.ACCESSIONED)
    ∧ (let e := wSess Ss.WAITING; let s := withSess e (wDev.setFld F.TIER_CTRL_DOWN_EN 1);
      s.findSess 9 = some (0, e) ∧ s.due e = true ∧ s.textOpen 0 = false ∧ s.barring = false ∧ e.state = Ss.WAITING ∧ s.flag F.TIER_CTRL_DOWN_EN = true
        ∧ s.parkBarred 0 = false ∧ s.fenced = false ∧ s.profile = some wProfile ∧ wProfile.parkPath = [2]
        ∧ ((s.abandonCommit 0).parkFirst 0 1).2 = none)
    ∧ (let e := wSess Ss.PARKED; let s := withSess e (wDev.setFld F.TIER_CTRL_DOWN_EN 1);
      e.state = Ss.PARKED ∧ s.due e = true ∧ s.barring = false ∧ s.flag F.TIER_CTRL_DOWN_EN = true ∧ s.fenced = false ∧ tGet s.commits 0 = none
        ∧ tGet s.revives 0 = none)
    ∧ (let e := wSess Ss.TRANSCRIPT_ONLY; let s := withSess e;
      e.state = Ss.TRANSCRIPT_ONLY ∧ s.due e = true ∧ s.barring = false ∧ tGet s.commits 0 = none ∧ tGet s.revives 0 = none)
    ∧ (let e := wSess Ss.CLOSED; (withSess e).due e = true ∧ (withSess e).barring = false ∧ e.state = Ss.CLOSED)
    ∧ (let e := { wSess Ss.PREEMPTED with pages := [{ layer := 0, index := 0, slot := 0, second := 0, format := 0, fill := 32 }] };
      (withSess e).findSess 9 = some (0, e) ∧ e.pages ≠ [])
    ∧ (let s := wDev.setFld F.TIER_CTRL_RIPEN_EN 1; s.profile = some wProfile ∧ s.flag F.TIER_CTRL_RIPEN_EN = true ∧ s.fenced = false)
    ∧ (let d : DownPage := { page := { layer := 0, index := 0, slot := 0, second := 0, format := 0, fill := 32 }, tier := 2, unit := 0, body := [1], gen := 0 };
      let e := { wSess Ss.PREEMPTED with down := [d] }; let s := withSess e;
      let r := { Revive.start 2 e.kvLength s.devId with asked := [], head := e.manifest, stage := 2, readmit := true, lostPos := none };
      s.fld F.TIER_WMARK_HIGH ≤ s.freeT1 ∧ s.barring = false ∧ s.sessions.filter (fun q => s.readmissible q.2) = [(0, e)]
        ∧ (s.sessions.filter (fun q => s.readmissible q.2)).filter (fun q => s.stranded q.2) = []
        ∧ (let z := (s.setFld F.TIER_WMARK_HIGH 0xFFFFF); let f := { e with down := [{ d with tier := 3 }] };
          let w : State := { withSess f z with hostRegions := [(0, { state := 2, base := 0, units := 1 })] };
          w.barring = false ∧ (w.sessions.filter (fun q => w.readmissible q.2)).filter (fun q => w.stranded q.2) = [(0, f)])
        ∧ (readmitObjects e).2 = 1 ∧ 1 ≤ s.freeT1 ∧ s.quotaFits e.tenant 1 (4 * 1) = true
        ∧ (({ s with revives := tPut s.revives 0 r } : State).reserveFor 0 1).isSome = true) := by decide +kernel

/-- A manifest of generation 1 with a holder. -/
def wManifest : Manifest :=
  { gen := 1, profile := 7, length := 0, transcriptLen := 0, layers := 1, primaryTier := 2, maskAlive := 0, entries := [], partAlive := [], runAlive := [],
    holderSet := [2], maskCount := 0 }

/-- A session whose generation 1 is being committed, object (3, 0) unacknowledged by device 2. -/
def wCommitting : State :=
  { withSess { wSess Ss.WAITING with manifest := some wManifest } with
    commits := [(0, {
      gen := 1, why := 0, target := 2, manifest := wManifest, unacked := [(2, 3, 0)], copied := [], head := false, redo := false,
      h1 := 1, h2 := 2, t2 := 2, lost := [] })] }

/-- The head of that session's image asked of this device (1), its transcript's first run of device 2. -/
def wReviving (stage : Nat) (asked : List (Nat × Nat × Nat)) : Revive := { Revive.start 1 0 1 with stage := stage, asked := asked }

theorem meets_HoldersAndPoolEventsComplete :
    (wCommitting.findSess 9 = some (0, { wSess Ss.WAITING with manifest := some wManifest })
      ∧ ([(2, 3, 0)] : List (Nat × Nat × Nat)).filter (fun u => u.1 == 2 && ([(3, 0)] : List (Nat × Nat)).contains (u.2.1, u.2.2)) ≠ []
      ∧ (tGet wCommitting.commits 0).map (·.unacked) = some [(2, 3, 0)]
      ∧ statusClass St.OK ≤ 1 ∧ 2 ≤ statusClass St.NO_SLOTS ∧ (St.NO_SLOTS = St.NO_SLOTS → 5 ≠ 6))
    ∧ (let s := { withSess (wSess Ss.REVIVING) with revives := [(0, wReviving 0 [(1, 0, 2)])] };
      s.revives.filter (fun r => r.2.asked.any (fun a => a.2.2 == 2)) = [(0, wReviving 0 [(1, 0, 2)])]
        ∧ (wReviving 0 [(1, 0, 2)]).asked.find? (fun a => a.2.2 == 2) = some (1, 0, 2)
        ∧ s.revives.filter (fun r => r.2.asked.any (fun a => a.2.2 == 3)) = []
        ∧ s.findSess 9 = some (0, wSess Ss.REVIVING) ∧ tGet s.revives 0 = some (wReviving 0 [(1, 0, 2)])
        ∧ (wReviving 0 [(1, 0, 2)]).stage = 0 ∧ (wReviving 0 [(1, 0, 2)]).asked.contains (1, 0, 2) = true
        ∧ (match s.reviveFetched 0 (wReviving 0 [(1, 0, 2)]) 2 1 0 none with | .error k => k == 100 | .ok _ => false) = true)
    ∧ (let s := wDev; bitOf (2 ^ 63 + 2) 63 = true ∧ tGet s.pool (s.fld F.TIER_POOL_SEL_INDEX) = none)
    ∧ (let s := { wDev with pool := [(0, { device := 3 })] };
      bitOf 0 63 = false ∧ bitOf (2 ^ 63 + 2) 63 = true ∧ tGet s.pool (s.fld F.TIER_POOL_SEL_INDEX) = some { device := 3 }
        ∧ s.sessions.filter (fun p => match p.2.manifest with | some m => m.holderSet.contains 3 | none => false) = [])
    ∧ (let s := { wCommitting with pool := [(0, { device := 2 })] };
      bitOf 0 63 = false ∧ tGet s.pool (s.fld F.TIER_POOL_SEL_INDEX) = some { device := 2 }
        ∧ s.sessions.filter (fun p => match p.2.manifest with | some m => m.holderSet.contains 2 | none => false) ≠ [] ∧ s.fenced = false
        ∧ ({ s with pool := tDel s.pool 0 } : State).fenced = false) := by decide +kernel

/-- The head (object 1, 0) of generation 0 of session 9's image as a holder sends it: header, and a colophon alone encrypted under tenant
5's key. -/
def wHead : Bytes := objHeader 9 1 5 0 0 16 ++ [126, 18, 15, 195, 164, 209, 242, 245, 252, 70, 16, 68, 235, 124, 66, 198]

/-- That read of an image, in a phase. -/
def wPhase (phase : Nat) : Revive := { wReviving 0 [(1, 0, 2)] with phase := phase }

/-- The device with it open, and the session's generation being committed. -/
def onRead (phase : Nat) : State :=
  { withSess (wSess Ss.REVIVING) with revives := [(0, wPhase phase)], commits := wCommitting.commits }

/-- The outcome on the head as sent and on the head cut short, one evaluation a theorem. -/
theorem wHead_taken_1 : ((onRead 1).reviveFetched 0 (wPhase 1) 2 1 0 (some wHead)).toOption.isSome = true := by decide +kernel
theorem wHead_taken_6 : ((onRead 6).reviveFetched 0 (wPhase 6) 2 1 0 (some wHead)).toOption.isSome = true := by decide +kernel
theorem wHead_taken_8 : ((onRead 8).reviveFetched 0 (wPhase 8) 2 1 0 (some wHead)).toOption.isSome = true := by decide +kernel
theorem wHead_short_1 : ((onRead 1).reviveFetched 0 (wPhase 1) 2 1 0 (some (wHead.drop 1))).toOption = none := by decide +kernel
theorem wHead_short_6 : ((onRead 6).reviveFetched 0 (wPhase 6) 2 1 0 (some (wHead.drop 1))).toOption = none := by decide +kernel
theorem wHead_short_8 : ((onRead 8).reviveFetched 0 (wPhase 8) 2 1 0 (some (wHead.drop 1))).toOption = none := by decide +kernel

theorem onRead_reads (phase : Nat) (h : phase ∈ [1, 6, 8]) :
    (onRead phase).findSess 9 = some (0, wSess Ss.REVIVING) ∧ tGet (onRead phase).revives 0 = some (wPhase phase)
      ∧ (wPhase phase).stage = 0 ∧ (wPhase phase).asked.contains (1, 0, 2) = true ∧ (tGet (onRead phase).commits 0).isSome = true := by
  revert phase; decide +kernel

theorem meets_HoldersAndPoolEventsComplete_verified (phase : Nat) (h : phase ∈ [1, 6, 8]) :
    (onRead phase).findSess 9 = some (0, wSess Ss.REVIVING) ∧ tGet (onRead phase).revives 0 = some (wPhase phase)
      ∧ (wPhase phase).stage = 0 ∧ (wPhase phase).asked.contains (1, 0, 2) = true ∧ (tGet (onRead phase).commits 0).isSome = true
      ∧ ((onRead phase).reviveFetched 0 (wPhase phase) 2 1 0 (some wHead)).toOption.isSome = true
      ∧ ((onRead phase).reviveFetched 0 (wPhase phase) 2 1 0 (some (wHead.drop 1))).toOption = none := by
  obtain ⟨h1, h2, h3, h4, h5⟩ := onRead_reads phase h
  have : phase = 1 ∨ phase = 6 ∨ phase = 8 := by simpa using h
  refine ⟨h1, h2, h3, h4, h5, ?_⟩
  rcases this with rfl | rfl | rfl
  exacts [⟨wHead_taken_1, wHead_short_1⟩, ⟨wHead_taken_6, wHead_short_6⟩, ⟨wHead_taken_8, wHead_short_8⟩]

/-! ## Text and sampling -/

/-- A segment list with one text segment "ab" (Table 8.2), and a token list of token 5. -/
def wSegs (sid : Nat) : Bytes := wStruct sid (leBytes 4 1 ++ leBytes 4 0 ++ leBytes 4 0 ++ leBytes 4 2 ++ [0x61, 0x62, 0, 0, 0, 0, 0, 0])
def wToks (sid : Nat) : Bytes := wStruct sid (leBytes 4 1 ++ leBytes 4 0 ++ leBytes 4 5)

/-- A segment list with one token segment, token 5. -/
def wTokSegs (sid : Nat) : Bytes := wStruct sid (leBytes 4 1 ++ leBytes 4 0 ++ leBytes 4 1 ++ leBytes 4 1 ++ leBytes 4 5 ++ [0, 0, 0, 0])

/-- What that segment feeds. -/
def wFeed (s : State) (segs : List Seg) : Feed :=
  feedSegs wProfile (s.fld F.TEXT_CTX_CFG_FORCE_WINDOW) { ctx := TextCtx.fresh, toks := [], invalid := 0, cuts := 0, bytes := 0 } segs

/-- The device with a text unit in service. -/
def wText : State := wDev.setFld ⟨A.TEXT_UNIT, 63, 61⟩ 2

theorem meets_TextSlipsComplete :
    (let x := hostSlip 5 9 [0] (wTokSegs 0x800); let e := wSess Ss.ACCESSIONED; let s := took (withSess e wText) Op.TEXT_APPEND x;
      s.profile = some wProfile ∧ s.sessionUp Op.TEXT_APPEND x [1, 0, 0, 0, 0, 0] 0 e = true
        ∧ (segList wProfile 0x800 x.trusted x.payload).toOption.isSome = true ∧ s.textOpen 0 = false ∧ s.noTextUnit = false
        ∧ ((segList wProfile 0x800 x.trusted x.payload).toOption.map fun l =>
          s.tokensFit e ((wFeed s l).finish wProfile (s.fld F.TEXT_CTX_CFG_FORCE_WINDOW)).toks.length) = some true)
    ∧ (let x := hostSlip 5 9 [1] (wSegs 0x800); let e := wSess Ss.WAITING; let s := took (withSess e (wText.setFld F.TEXT_CTRL_CTX_EN 1)) Op.TEXT_APPEND x;
      s.sessionUp Op.TEXT_APPEND x [1, 0, 0, 0, 0, 0] 0 e = true ∧ s.noTextUnit = false ∧ bitOf x.P0 0 = true ∧ s.flag F.TEXT_CTRL_CTX_EN = true
        ∧ s.text.length < 8192 ∧ ((segList wProfile 0x800 x.trusted x.payload).toOption.map fun l =>
          (match l.getLast? with | some (.text _) => true | _ => false) && s.tokensFit e (wFeed s l).toks.length) = some true)
    ∧ (let x := hostSlip 5 9 [1] (wSegs 0x800); let e := wSess Ss.PARKED; let s := took (withSess e (wText.setFld F.TEXT_CTRL_CTX_EN 1)) Op.TEXT_APPEND x;
      s.sessionUp Op.TEXT_APPEND x [1, 0, 0, 0, 0, 0] 0 e = true ∧ (e.state = Ss.PARKED ∨ e.state = Ss.TRANSCRIPT_ONLY)
        ∧ (segList wProfile 0x800 x.trusted x.payload).toOption.isSome = true ∧ s.textOpen 0 = false ∧ s.noTextUnit = false
        ∧ (bitOf x.P0 0 = true → s.flag F.TEXT_CTRL_CTX_EN = true ∧ s.text.length < 8192))
    ∧ (∀ st ∈ [Ss.WAITING, Ss.TRANSCRIPT_ONLY], let x := hostSlip 5 9 [] (wToks 0x801); let e := wSess st; let s := took (withSess e) Op.TEXT_APPEND_TOKENS x;
      s.sessionUp Op.TEXT_APPEND_TOKENS x [0, 0, 0, 0, 0, 0] 0 e = true ∧ (tokList wProfile 0x801 x.trusted x.payload).toOption = some [5]
        ∧ s.textOpen 0 = false ∧ s.tokensFit e 1 = true)
    ∧ (let x := hostSlip 5 0 [] (wTokSegs 0x802); let s := took wText Op.TEXT_TOKENISE x;
      s.takenUp Op.TEXT_TOKENISE x = true ∧ x.acc = 0 ∧ badParam x [0, 0, 0, 0, 0xFFFFFFFF, 0xFFFFFFFF] = none ∧ s.noTextUnit = false
        ∧ ((segList wProfile 0x802 x.trusted x.payload).toOption.map fun l => ((wFeed s l).finish wProfile (s.fld F.TEXT_CTX_CFG_FORCE_WINDOW)).invalid) = some 0)
    ∧ (let x := hostSlip 5 0 [] (wToks 0x803); let s := took wText Op.TEXT_DETOKENISE x;
      s.takenUp Op.TEXT_DETOKENISE x = true ∧ x.acc = 0 ∧ badParam x [0, 0, 0, 0, 0xFFFFFFFF, 0xFFFFFFFF] = none
        ∧ (tokList wProfile 0x803 true x.payload).toOption = some [5] ∧ s.noTextUnit = false)
    ∧ (let x := hostSlip 5 9 [1, 262144]; let e := { wSess Ss.WAITING with transcript := [7, 8] }; let s := took (withSess e) Op.TEXT_TRANSCRIPT_READ x;
      s.sessionUp Op.TEXT_TRANSCRIPT_READ x [0xFFFFFFFF, 0xFFFFFFFF, 0, 0, 0xFFFFFFFF, 0xFFFFFFFF] 0 e = true ∧ 1 ≤ x.P1 ∧ x.P1 ≤ 262144 ∧ x.P0 < e.tlen
        ∧ e.away = false)
    ∧ (let e := wSess Ss.WAITING; let s := { withSess e with text := [(0, TextCtx.fresh)] };
      s.findSess 9 = some (0, e) ∧ tGet s.text 0 = some TextCtx.fresh ∧ TextCtx.fresh.due ≤ s.tick) := by decide +kernel

theorem meets_SamplingSlipsComplete :
    (let x := hostSlip 5 0 [15] (wStruct 0xC00 slot0); let s := took wDev Op.SAMP_SET x;
      s.takenUp Op.SAMP_SET x = true ∧ x.acc = 0 ∧ badParam x [15, 0, 0, 0, 0, 0] = none ∧ x.P0 ≠ 0 ∧ badStruct 0xC00 48 x.payload = none
        ∧ samplingOk (slice x.payload 8 40) = true)
    ∧ (let x := hostSlip 5 9 [3]; let e := wSess Ss.PARKED; let s := took (withSess e) Op.SAMP_SET x;
      s.sessionUp Op.SAMP_SET x [15, 0, 0, 0, 0, 0] 0 e = true ∧ e.state ≠ Ss.CLOSED ∧ x.payload = [])
    ∧ (let x := hostSlip 5 0 [1] (wStruct 0xC01 ([1, 1] ++ List.replicate 6 0 ++ [2] ++ List.replicate 7 0 ++ [0x61, 0x62] ++ List.replicate 62 0));
      let s := took wDev Op.SAMP_SET_STOPS x;
      s.takenUp Op.SAMP_SET_STOPS x = true ∧ x.acc = 0 ∧ badParam x [15, 0, 0, 0, 0, 0] = none ∧ x.P0 ≠ 0 ∧ badStruct 0xC01 16 x.payload = none
        ∧ stopList x.payload = some [[0x61, 0x62]])
    ∧ (let x := hostSlip 5 9 [1]; let e := wSess Ss.WAITING; let s := took (withSess e) Op.GRAM_ATTACH x;
      e.state = Ss.WAITING ∧ e.armed = false ∧ s.sessionUp Op.GRAM_ATTACH x [0xFFFF, 0, 0, 0, 0, 0] 0 e = true ∧ (s.grammarOf x.P0).isSome = true)
    ∧ (let x := hostSlip 5 9; let e := { wSess Ss.PARKED with grammar := 1 }; let s := took (withSess e) Op.GRAM_DETACH x;
      e.state = Ss.PARKED ∧ e.armed = false ∧ s.sessionUp Op.GRAM_DETACH x [0, 0, 0, 0, 0, 0] 0 e = true ∧ e.grammar ≠ 0) := by decide +kernel

theorem meets_TokeniserKeepsEveryByte :
    (∀ q ∈ wProfile.pieces, q.bytes ≠ [] ∧ wProfile.tokenBytes q.id = q.bytes)
      ∧ (∀ b, b < 256 → wProfile.tokenBytes (wProfile.byteBase + b) = leBytes 1 b) := by decide +kernel

/-! ## Scheduling and rings -/

theorem meets_SchedulingSlipsComplete :
    (∀ b ∈ [1, 2 ^ 31], let x := hostSlip 5 0 [100, b, 0x10001]; let s := took wDev Op.SCHED_SET_TENANT x;
      x.acc = 0 ∧ s.takenUp Op.SCHED_SET_TENANT x = true ∧ badParam x [0xFFFFFFFF, 0xFFFFFFFF, 0x3FFFF, 0, 0, 0] = none ∧ 1 ≤ x.P1 ∧ x.P1 ≤ 2 ^ 31
        ∧ bitsOf x.P2 15 0 ≠ 0 ∧ bitsOf x.P2 17 16 ≠ 3)
    ∧ (let x := hostSlip 5 0; let s := took wDev Op.SCHED_QUERY_TENANT x;
      s.takenUp Op.SCHED_QUERY_TENANT x = true ∧ badParam x [0, 0, 0, 0, 0xFFFFFFFF, 0xFFFFFFFF] = none)
    ∧ (let x := hostSlip 5 0 [0, 1, 1]; let s := took wDev Op.SCHED_SET_POLICER x;
      s.takenUp Op.SCHED_SET_POLICER x = true ∧ badParam x [0xFFFFFFFF, 0xFFFF, 1, 0, 0, 0] = none ∧ x.P1 ≠ 0)
    ∧ (∀ k ∈ [(0, 7), (1, 63), (2, 4095), (3, 255)], let x := hostSlip 5 0 [k.1 + k.2 * 2 ^ 16, 9, 150, 0x300]; let s := took wDev Op.SCHED_SET_SHAPER x;
      s.takenUp Op.SCHED_SET_SHAPER x = true ∧ badParam x [0x0FFF0003, 0xFFFFFF, 0xFFFFFF, 0x3FF, 0, 0] = none ∧ k.1 = bitsOf x.P0 1 0
        ∧ k.2 = bitsOf x.P0 27 16 ∧ k.2 < shaperCount k.1 ∧ 150 ≤ bitsOf x.P2 23 0 ∧ (k.1 = 0 → k.2 < s.portCount) ∧ (k.1 = 1 → k.2 / 8 < s.portCount))
    ∧ (1 ≤ bitsOf (2 ^ 31) 31 0 ∧ bitsOf (2 ^ 31) 31 0 ≤ 2 ^ 31) ∧ bitsOf (2 ^ 32) 31 0 = 0 ∧ 2 ^ 31 < bitsOf (2 ^ 31 + 1) 31 0
    ∧ (bitsOf 0x1000A 31 16 ≠ 0 ∧ bitsOf 0x1000A 1 0 ≠ 3 ∧ bitsOf 0x1000A 3 2 ≠ 3 ∧ bitsOf 0x1000A 3 2 ≠ 0)
    ∧ (bitsOf 0x10002 31 16 ≠ 0 ∧ bitsOf 0x10002 1 0 ≠ 3 ∧ bitsOf 0x10002 3 2 = 0)
    ∧ bitsOf (2 ^ 48) 63 48 ≠ 0 ∧ bitsOf (2 ^ 48 - 1) 63 48 = 0
    ∧ (let s := (wDev.setFld F.SCHED_SHP_SEL_KIND 1).setFld F.SCHED_SHP_SEL_INDEX 63;
      s.fld F.SCHED_SHP_SEL_KIND = 1 ∧ s.fld F.SCHED_SHP_SEL_INDEX = 63 ∧ 150 ≤ bitsOf (150 * 2 ^ 24) 47 24 ∧ 63 < shaperCount 1 ∧ 63 / 8 < s.portCount) := by
  decide +kernel

/-- An enabled host ring of tenant 5, CI just below the wrap, with a push outstanding. -/
def wRing : Ring :=
  { Ring.fresh with state := 1, logSize := 3, tenant := 5, mirror := 64, base := 4096, pi := 2, ci := 2 ^ 32 - 1,
                    pushes := [{ first := 1, recs := [[1]], retries := 2, due := none }] }

theorem meets_RingsComplete :
    (∀ st ∈ [1, 2], ∀ c ∈ [2 ^ 32 - 1, 0, 2], let r := { wRing with state := st }; let x := hostSlip 5 0 [0xFFFF, c];
      let s := took { wDev with rings := [(0xFFFF, r)] } Op.RING_CONSUMED x;
      s.takenUp Op.RING_CONSUMED x = true ∧ x.acc = 0 ∧ badParam x [0xFFFF, 0xFFFFFFFF, 0, 0, 0, 0] = none ∧ r = s.ring x.P0
        ∧ r.state ≠ 0 ∧ r.tenant = x.ten ∧ r.ciOk x.P1 = true)
    ∧ (let s := { wDev with rings := [(3, wRing)] }; (s.ring 3).state ≠ 0 ∧ (s.ring 3).ciOk 2 = true ∧ (s.ring 3).ciOk 3 = false)
    ∧ (∀ p ∈ [({ first := 1, recs := [[1]], retries := 2, due := none } : Push), { first := 1, recs := [[1]], retries := 3, due := none },
        { first := 1, recs := [[1]], retries := 3, due := some 1000000000000 }],
      let s := { wDev with rings := [(3, { wRing with pushes := [p] })] };
      (s.ring 3).pushes.find? (fun p => p.first == 1) = some p ∧ (p.retries = 2 → statusClass 0x2001 = 2 ∧ p.retries < 3)
        ∧ (p.retries = 3 → 2 ≤ statusClass 0x2001 ∧ 3 ≤ p.retries) ∧ 2 ≤ statusClass 0x4001 ∧ statusClass 0x4001 ≠ 2
        ∧ (∀ d, p.due = some d → d ≤ s.tick) ∧ (s.ring 3).state = 1)
    ∧ ({ wDev with rings := [(3, wRing)] }.ring 3).network = false
    ∧ (let c : Ring := { Ring.fresh with base := 4096, mirror := 64 }; let w : Word := F.SCHED_RING_CFG_TENANT.put (F.SCHED_RING_CFG_LOG2_SIZE.put 0 20) 5;
      let s := { wDev with rings := [(0, c)] };
      0 = s.fld F.SCHED_RING_SEL_RING ∧ c.state = 0 ∧ s.ringValid (c.withCfg w) = true ∧ s.hostReady = true)
    ∧ (let w : Word := F.SCHED_RING_CFG_TENANT.put (F.SCHED_RING_CFG_LOG2_SIZE.put 0 3) 5; let r := { wRing with state := 2 };
      let s := { wDev with rings := [(0, r)] }; r = s.ring (s.fld F.SCHED_RING_SEL_RING) ∧ r.state = 2 ∧ r.withCfg w = r)
    ∧ (let w : Word := F.SCHED_RING_CFG_TENANT.put (F.SCHED_RING_CFG_LOG2_SIZE.put 0 3) 5;
      wRing.state ≠ 0 ∧ wRing.owner = none ∧ wRing.withCfg w = wRing)
    ∧ (let r := { wRing with owner := some 0 }; r.state ≠ 0 ∧ r.owner = some 0)
    ∧ (let s := { wDev with rings := [(3, { wRing with vec := 9 })], ringOwed := [9], ringVec := [(9, 1000000000000 - wDev.fld F.SCHED_CTRL_IRQ_GAP_US * 100)] };
      tGet s.ringVec 9 = some (1000000000000 - wDev.fld F.SCHED_CTRL_IRQ_GAP_US * 100)
        ∧ 1000000000000 - wDev.fld F.SCHED_CTRL_IRQ_GAP_US * 100 + s.fld F.SCHED_CTRL_IRQ_GAP_US * 100 ≤ s.tick
        ∧ s.ringOwed.contains 9 = true) := by
  and_intros <;> decide +kernel

/-! ## Collections -/

/-- A READY shard of tenant 5: one list, dimension 8, FP16, no record. -/
def wShard : Shard :=
  { tenant := 5, dim := 8, format := 4, distance := 0, shard := 0, map := [], scale := 0, bf16 := true, state := 0, lists := 1, loaded := 0,
    centBlocks := [], chains := [], index := [], err := 0, gone := false }

/-- One entry of VEC_INSERT: key, tags, list, no flags, then FP32 ones. -/
def wVecEntry (key : Nat) : Bytes := leBytes 8 key ++ leBytes 8 0 ++ leBytes 4 0xFFFFFFFF ++ leBytes 4 0 ++ (List.replicate 8 (leBytes 4 0x3F800000)).flatten

/-- The device with the shard 3, room in the pools and search and compaction on. -/
def wVec (v : Shard := wShard) : State :=
  { ((((wDev.setFld (F.ME_POOL_MAX.at 16) 1).setFld F.VEC_CTRL_SEARCH_EN 1).setFld F.VEC_CTRL_COMPACT_EN 1).setFld F.VEC_CFG_COMPACT_PCT 1) with
    shards := [(3, v)] }

/-- The device after records of keys 7 and 8 were inserted and 7 deleted. -/
def wTomb : State := ((((wVec.insertAll 3 [(7, 0, 0, leBytes 16 1), (8, 0, 0, leBytes 16 1)]).map (·.1)).getD wVec).deleteKeys 3 [7]).1

/-- A search of shard 3 with the own shard and shard 4 asked. -/
def wSearch (asked : List Nat) (part : Bool) : Search :=
  { slip := hostSlip 5 0 [3], id := 3, query := [], mask := 0, value := 0, k := 1, maxProbe := 1, widen := false, partialOk := part, probed := 0, upTo := 1,
    cands := [], skipped := 0, dropped := [], asked := asked, due := 1000000000000,
    failing := false }

theorem meets_CollectionSlipsComplete :
    (let x := hostSlip 5 0 [] (wStruct 0x1400 (leBytes 4 3 ++ leBytes 2 8 ++ [5, 2] ++ leBytes 2 0 ++ leBytes 2 1 ++ leBytes 4 0x3F800000 ++ leBytes 4 1
        ++ leBytes 4 1)); let b := x.payload; let s := took wDev Op.VEC_CREATE x;
      s.takenUp Op.VEC_CREATE x = true ∧ x.acc = 0 ∧ badParam x [0, 0, 0, 0, 0, 0] = none ∧ badStruct 0x1400 0x1C b = none
        ∧ tGet s.shards (rdLe b 8 4) = none ∧ s.shards.length < 1024 ∧ rdLe b 8 4 ≠ 0xFFFFFFFF ∧ 8 ≤ rdLe b 0x0C 2 ∧ rdLe b 0x0C 2 ≤ 4096
        ∧ (3 ≤ rdLe b 0x0E 1 ∧ rdLe b 0x0E 1 ≤ 5 ∧ rdLe b 0x0C 2 % 8 = 0) ∧ rdLe b 0x0F 1 ≤ 2 ∧ rdLe b 0x10 2 < rdLe b 0x12 2 ∧ rdLe b 0x12 2 ≤ 256
        ∧ f32Finite (rdLe b 0x14 4) = true ∧ 0 < f32Fx (rdLe b 0x14 4) ∧ 0x1C + 4 * rdLe b 0x12 2 ≤ rdLe b 4 4
        ∧ (wordsAt b 0x1C (rdLe b 0x12 2) 4).any badDev = false)
    ∧ (let x := hostSlip 5 0 [3]; let s := took wVec Op.VEC_DROP x;
      s.takenUp Op.VEC_DROP x = true ∧ x.acc = 0 ∧ badParam x [0xFFFFFFFF, 0, 0, 0, 0, 0] = none ∧ tGet s.shards x.P0 = some wShard
        ∧ wShard.gone = false ∧ wShard.tenant = x.ten ∧ s.searches.any (fun q => q.2.id == x.P0) = false)
    ∧ (let x := hostSlip 5 0 [3];
      let s := took { wVec with searches := [(0, wSearch [4] false)] } Op.VEC_DROP x;
      s.takenUp Op.VEC_DROP x = true ∧ s.searches.any (fun q => q.2.id == x.P0) = true)
    ∧ (let x := hostSlip 5 0 [3] (wStruct 0x1402 (leBytes 4 1 ++ leBytes 4 0 ++ wVecEntry 7)); let s := took wVec Op.VEC_INSERT x;
      let es := [slice x.payload 0x10 56]; let ins := [(7, 0, 0, (vecStore 4 0 (List.replicate 8 0x3F800000)).getD [])];
      s.vecUp Op.VEC_INSERT x [0xFFFFFFFF, 0, 0, 0, 0, 0] wShard = true ∧ badStruct 0x1402 0x10 x.payload = none ∧ rdLe x.payload 8 4 = 1 ∧ (1 ≤ rdLe x.payload 8 4 ∧ rdLe x.payload 8 4 ≤ 4096)
        ∧ 0x10 + (24 + 4 * wShard.dim) * 1 ≤ rdLe x.payload 4 4 ∧ wShard.state ≠ 1 ∧ wShard.state ≠ 3
        ∧ es.any (fun e => rdLe e 0x10 4 != 0xFFFFFFFF && decide (rdLe e 0x10 4 ≥ wShard.lists)) = false
        ∧ (es.map (fun e => vecStore wShard.format wShard.scale (wordsAt e 0x18 wShard.dim 4))).any Option.isNone = false ∧ wShard.loaded = 0
        ∧ ((es.zip (es.map (fun e => vecStore wShard.format wShard.scale (wordsAt e 0x18 wShard.dim 4)))).map (fun p =>
          (rdLe p.1 0 8, rdLe p.1 8 8, s.listFor wShard (rdLe p.1 0x10 4) (wordsAt p.1 0x18 wShard.dim 4), p.2.getD []))) = ins
        ∧ ((s.insertAll 3 ins).bind (fun r => r.1.rechargeShard 3 wShard.quarters)).isSome = true
        ∧ ((s.insertAll 3 ins).bind (fun r => (tGet r.1.shards 3).map (fun w => decide (w.blocks ≤ 4194304)))) = some true)
    ∧ (let x := hostSlip 5 0 [3] (wStruct 0x1403 (leBytes 4 1 ++ leBytes 4 0 ++ leBytes 8 7)); let s := took wVec Op.VEC_DELETE x;
      s.vecUp Op.VEC_DELETE x [0xFFFFFFFF, 0, 0, 0, 0, 0] wShard = true ∧ badStruct 0x1403 0x10 x.payload = none
        ∧ 0x10 + 8 * rdLe x.payload 8 4 ≤ rdLe x.payload 4 4 ∧ wShard.state ≠ 1 ∧ wShard.state ≠ 3)
    ∧ (∀ list ∈ [0, 0xFFFFFFFF], let x := hostSlip 5 0 [3, list]; let s := took wTomb Op.VEC_COMPACT x; let v := (tGet s.shards 3).getD wShard;
      let ls := (if x.P1 = 0xFFFFFFFF then v.chains.map (·.1) else [x.P1]).filter (fun l => s.tombs v l != 0);
      s.vecUp Op.VEC_COMPACT x [0xFFFFFFFF, 0xFFFFFFFF, 0, 0, 0, 0] v = true ∧ (x.P1 < v.lists ∨ x.P1 = 0xFFFFFFFF) ∧ ls = [0]
        ∧ (s.compactList x.P0 0).isSome = true)
    ∧ (let s := wTomb; let v := (tGet s.shards 3).getD wShard;
      tGet s.shards 3 = some v ∧ s.flag F.VEC_CTRL_COMPACT_EN = true ∧ s.fld F.VEC_CFG_COMPACT_PCT ≠ 0
        ∧ s.fld F.VEC_CFG_COMPACT_PCT * (s.listRecords v 0).length < s.tombs v 0 * 100 ∧ (s.compactList 3 0).isSome = true)
    ∧ (∀ v ∈ [{ wShard with state := 1, centBlocks := [0] }, { wShard with loaded := 1 }, { wShard with state := 3 }],
      let x := hostSlip 5 0 [3, 0, 1, 1] (wStruct 0x1406 (leBytes 4 1 ++ leBytes 4 0 ++ (List.replicate 8 (leBytes 2 0x3F80)).flatten));
      let s := took (wVec v) Op.VEC_SET_CENTROIDS x;
      let r := { s with vecBlocks := s.vecBlocks.filter (fun k => !v.centBlocks.contains k.1) }.takeBlocks x.P0 (centBlocks v.bf16 v.dim x.P3) [];
      let t := if v.state = 1 then some s else r.map fun r => r.1.setShard x.P0 { v with state := 1, lists := x.P3, loaded := 0, centBlocks := r.2 };
      s.vecUp Op.VEC_SET_CENTROIDS x [0xFFFFFFFF, 0xFFFFFFFF, 1, 0xFFFFFFFF, 0, 0] v = true ∧ badStruct 0x1406 0x10 x.payload = none
        ∧ rdLe x.payload 8 4 = 1 ∧ 0x10 + 2 * v.dim * 1 ≤ rdLe x.payload 4 4 ∧ (wordsAt x.payload 0x10 8 2).any (fun z => !bf16Finite z) = false
        ∧ 1 ≤ x.P3 ∧ x.P3 ≤ 1048576 ∧ x.P1 + 1 ≤ x.P3
        ∧ (v.state = 1 ∧ x.P1 = v.loaded ∧ x.P3 = v.lists ∨ v.state ≠ 1 ∧ x.P1 = 0 ∧ (s.shardRecords v = 0 ∨ v.state = 3 ∧ x.P3 = v.lists))
        ∧ ((t.bind fun t => t.rechargeShard x.P0 v.quarters).bind (fun u => tGet u.shards x.P0)).isSome = true) := by
  and_intros <;> decide +kernel

/-- A body of a search: mask, value, request number, threshold word, and a query of ones. -/
def wQuery (sid req : Nat) : Bytes :=
  wStruct sid (leBytes 8 0 ++ leBytes 8 0 ++ leBytes 4 req ++ leBytes 4 0 ++ (List.replicate 8 (leBytes 4 0x3F800000)).flatten)

/-- That query converted for the shard. -/
def wConv : Query := (convQuery 4 0 0 (List.replicate 8 0x3F800000)).getD { words := [], x := 0 }

/-- The device holding a shard of one record, its block damaged or not. -/
def wHurt (hurt : Bool) : State :=
  { (((wVec.insertAll 3 [(7, 0, 0, leBytes 16 1)]).map (·.1)).getD wVec) with
    errs := { wDev.errs with poison := if hurt then [(0, slotAddr (wVec.blockSlot 0) / 64)] else [] } }

/-- The shard there. -/
def wHeld : Shard := { wShard with chains := [(0, [0])], index := [(7, 0)] }

theorem meets_SearchesComplete :
    (let x := hostSlip 5 0 [3, 1, 0x10000001] (wQuery 0x1404 0); let s := took wVec Op.VEC_SEARCH x;
      let t := ((s.charge x.ten 2 (s.fld F.SCHED_PROFILE_SEARCH_COST)).tally x.ten 2 (s.fld F.SCHED_PROFILE_SEARCH_COST)).bump F.VEC_CNT_SEARCH_COUNT;
      s.takenUp Op.VEC_SEARCH x = true ∧ 0 < s.level x.ten ∧ x.acc = 0 ∧ badParam x [0xFFFFFFFF, 0x1FFF, 0x1FFF1FFF, 3, 0xFFFFFFFF, 0xFFFFFFFF] = none
        ∧ t.vecShard x = .inl wShard ∧ 1 ≤ x.P1 ∧ x.P1 ≤ 4096 ∧ 1 ≤ bitsOf x.P2 12 0 ∧ bitsOf x.P2 12 0 ≤ 4096 ∧ bitsOf x.P2 28 16 ≤ 4096
        ∧ searchArg 0x1404 wShard.dim x.payload = .inl { mask := 0, value := 0, req := 0, query := List.replicate 8 0x3F800000 }
        ∧ (convQuery wShard.format wShard.distance wShard.scale (List.replicate 8 0x3F800000)).isSome = true ∧ t.searchShut wShard = none)
    ∧ (∀ hurt ∈ [true, false], ∀ n ∈ [1, 4096], let x := hostSlip 5 0 [3, 1, 65536 * n, 0x7F800000] (wQuery 0x1407 1); let s := took (wHurt hurt) Op.VEC_SHARD_SEARCH x;
      s.vecUp Op.VEC_SHARD_SEARCH x [0xFFFFFFFF, 0x1FFF, 0xFFFFFFFF, 0xFFFFFFFF, 0xFFFFFFFF, 0xFFFFFFFF] wHeld = true ∧ 1 ≤ x.P1 ∧ x.P1 ≤ 4096
        ∧ 1 ≤ x.P2 / 65536 ∧ x.P2 / 65536 ≤ 4096
        ∧ searchArg 0x1407 wHeld.dim x.payload = .inl { mask := 0, value := 0, req := 1, query := List.replicate 8 0x3F800000 }
        ∧ convQuery wHeld.format wHeld.distance wHeld.scale (List.replicate 8 0x3F800000) = some wConv ∧ s.searchShut wHeld = none
        ∧ ((s.bump F.VEC_CNT_SHARD_RX_COUNT).searchShard wHeld wConv 0 0 (x.P2 % 65536) (x.P2 / 65536) x.P1 x.P3).hurt = if hurt then some 0 else none)
    ∧ ((∀ q, tGet wVec.searches 0 = some q → q.asked.contains 4 = false) ∧ (∀ q, tGet wVec.searches 0 = some q → q.asked = [] ∨ wVec.tick < q.due))
    ∧ (∀ part ∈ [true, false], let q := wSearch [4] part; let s := { wVec with searches := [(0, q)] };
      tGet s.searches 0 = some q ∧ q.asked.contains 4 = true ∧ statusClass (wReply St.OK).status.toNat ≤ 1 ∧ 2 ≤ statusClass (wReply St.BUSY).status.toNat
        ∧ q.partialOk = part ∧ q.due ≤ s.tick ∧ q.asked ≠ [] ∧ q.asked = [4])
    ∧ (tGet wVec.shards 9 = none ∧ tGet wVec.shards 3 = some wShard) := by
  and_intros <;> decide +kernel

theorem meets_QueueObservationComplete : 0 ∉ [3, 4, 7] ∧ (0 ∉ State.reset.busyQueues ∨ State.reset.queueDepth 0 = 0) := by decide +kernel

/-! ## Network -/

/-- Every sub-port of port 0 up (mode 0: one sub-port), a peer at context 3. -/
def wNet (v : Peer) (s : State := wDev) : State :=
  { s with peers := [(3, v)], ports := [(0, { Port.fresh with up := [true, false, false, false] }), (1, { Port.fresh with up := [true, false, false, false] })] }

/-- A peer context in a state. -/
def wPeer (st : Nat) : Peer := { Peer.fresh with valid := true, state := st, addrLo := 1 }

/-- A DATA packet of one message of ten bytes. -/
def wPkt (psn len : Nat) : Pkt :=
  { type := 0, first := true, last := true, retx := false, cls := 2, dst := 3, src := 0, psn := psn, msgId := 0, offset := len - 10, msgLen := len, keygen := 0,
    txc := 0, payload := List.replicate 10 1 }

/-- A sending side with one packet in flight, sent a retransmission timeout ago. -/
def wTx (timeouts : Nat) (seen : Bool) (rate ceiling : Nat) : PeerTx :=
  { PeerTx.fresh with flight := [{ pkt := wPkt 7 10, sent := 1000000000000 - 10000, sub := 0, fast := false }], timeouts := timeouts, cnpSeen := seen, rate := rate,
                      ceiling := ceiling }

theorem meets_DataPacketsComplete :
    (∀ st ∈ [2, 3], ∀ len ∈ [10, 1048576], let k := wPkt 0 len; let s := wNet (wPeer st); let t := (s.hear 3 0 true).1;
      s.linkUp 0 = true ∧ k.dst = 3 ∧ ((s.peer 3).state = 2 ∨ (s.peer 3).state = 3) ∧ 1 ≤ k.msgLen ∧ k.msgLen ≤ 1048576
        ∧ k.offset + k.payload.length ≤ k.msgLen ∧ (psnBefore k.psn (t.peer 3).rx.expect || (t.peer 3).rx.got.contains k.psn) = false
        ∧ (t.peer 3).rx.seen + creditUnits k.payload.length ≤ (t.peer 3).rx.granted)
    ∧ (let k := wPkt 0 10; let v := wPeer 2; let s := wNet { v with rx := { v.rx with expect := 1 } }; let t := (s.hear 3 0 true).1;
      psnBefore k.psn (t.peer 3).rx.expect = true)
    ∧ (let k := wPkt 0 10; let v := wPeer 2; let s := wNet { v with rx := { v.rx with seen := 4 } }; let t := (s.hear 3 0 true).1;
      (t.peer 3).rx.granted < (t.peer 3).rx.seen + creditUnits k.payload.length)
    ∧ (∀ c ∈ [none, some (1000000000000 - wDev.fld F.NET_CC_CC_TIMER * 100)], let v := wPeer 2; let s := wNet { v with tx := { v.tx with lastCut := c } };
      let t := (s.hear 3 0 true).1; let b := t.bump F.NET_CNT_CNP_RX_COUNT;
      (b.peer 3).tx.lastCut = c ∧ ((c = none) ∨ (c = some (1000000000000 - wDev.fld F.NET_CC_CC_TIMER * 100)
        ∧ b.fld F.NET_CC_CC_TIMER * 100 ≤ b.tick - (1000000000000 - wDev.fld F.NET_CC_CC_TIMER * 100))))
    ∧ (let v := wPeer 2; let c := 1000000000000 - wDev.fld F.NET_CC_CC_TIMER * 100 + 1; let s := wNet { v with tx := { v.tx with lastCut := some c } };
      let b := (s.hear 3 0 true).1.bump F.NET_CNT_CNP_RX_COUNT; (b.peer 3).tx.lastCut = some c ∧ b.tick - c < b.fld F.NET_CC_CC_TIMER * 100)
    ∧ (∀ z ∈ [(wTx 0 true 5 5), (wTx 0 false 4 5), (wTx 0 false 5 5)],
      let s := wNet { wPeer 2 with tx := z }; ((s.peer 3).state = 2 ∨ (s.peer 3).state = 3) ∧ z = (s.peer 3).tx
        ∧ (z.cnpSeen = true ∨ (z.cnpSeen = false ∧ (z.rate < z.ceiling ∨ z.ceiling ≤ z.rate))))
    ∧ (let v := wPeer 3; let s := wNet { v with rx := { v.rx with unacked := 1, ackSince := 1000000000000 - wDev.fld F.NET_REL_ACK_DELAY * 100 } };
      (s.peer 3).rx.unacked ≠ 0 ∧ s.fld F.NET_REL_ACK_DELAY * 100 ≤ s.tick - (s.peer 3).rx.ackSince)
    ∧ (let z := wTx (wDev.fld F.NET_REL_RETX_MAX - 1) false 5 5; let s := wNet { wPeer 2 with tx := z }; let b := s.bump F.NET_CNT_RTO_COUNT;
      (z.flight.find? (fun f => f.pkt.psn == 7)).isSome = true ∧ z.rto * 100 ≤ s.tick - (1000000000000 - 10000)
        ∧ b.fld F.NET_REL_RETX_MAX ≤ z.timeouts + 1)
    ∧ (let z := wTx 0 false 5 5; let s := wNet { wPeer 2 with tx := z }; let b := s.bump F.NET_CNT_RTO_COUNT; z.timeouts + 1 < b.fld F.NET_REL_RETX_MAX) := by
  and_intros <;> decide +kernel

/-- The handshake of a genuine peer whose chain ends at principal 2. -/
def wShake (kind : Nat) : Shake := { src := 0, kind := kind, dev := 0, psn := 0, leaf := [], anchor := some 2, genuine := true }

/-- The device with OPEN_EN as given and a principal that vouches for every kind. -/
def wOpen (en : Nat) : State := { wDev.setFld F.NET_CTRL_OPEN_EN en with principals := [(2, { role := 6, kinds := 31, tenant := 0xFFFF, digest := [] })] }

theorem meets_PeerContextsComplete :
    (let s := wNet (wPeer 0) (wOpen 0); let t := s.bump F.NET_CNT_RX_COUNT; s.linkUp 0 = true ∧ t.flag F.NET_CTRL_OPEN_EN = false)
    ∧ (let s := wNet (wPeer 0) (wOpen 1); let t := s.bump F.NET_CNT_RX_COUNT; let h := wShake 0;
      s.linkUp 0 = true ∧ t.flag F.NET_CTRL_OPEN_EN = true ∧ h.kind ≠ 2 ∧ h.kind ≠ 3
        ∧ t.peers.find? (fun q => decide (q.1 < 4096) && q.2.valid && q.2.kind == h.kind && q.2.ipv4 == false && q.2.addrLo == 1 && q.2.addrHi == 0)
          = some (3, wPeer 0)
        ∧ t.anchored h h.kind (wPeer 0).tenant = true ∧ (wPeer 0).state = 0)
    ∧ (∀ h ∈ [{ wShake 2 with dev := 0xFFFFF }, { wShake 3 with dev := 4 }],
      let v := { wPeer 0 with kind := h.kind, dev := h.dev };
      let d : CatDev := { state := 1, registrar := false, lease := 1, address := leBytes 8 1 ++ leBytes 8 0, profile := 7, joinEpoch := 1 };
      let t := (wNet v ((wOpen 1).updCat (fun c => { c with devices := [(4, d)] }))).bump F.NET_CNT_RX_COUNT;
      t.flag F.NET_CTRL_OPEN_EN = true ∧ (h.kind = 2 ∨ h.kind = 3)
        ∧ (h.dev = 0xFFFFF ∧ h.kind = 2 ∨ h.dev ≠ 0xFFFFF ∧ t.devAt 1 0 = some h.dev) ∧ t.anchored h h.kind 0xFFFF = true
        ∧ t.peers.find? (fun q => q.2.valid && q.2.kind == h.kind && q.2.dev == h.dev && q.2.addrLo == 1 && q.2.addrHi == 0) = some (3, v)
        ∧ (t.peer 3).state = 0
        ∧ (h.dev = 0xFFFFF → t.peers.find? (fun q => q.2.valid && q.2.kind == h.kind && q.2.dev == h.dev && q.2.addrLo == 2 && q.2.addrHi == 0) = none)
        ∧ t.newCtx = some 0)
    ∧ (let v := { wPeer 1 with kind := 2 }; let t := (wNet v ((wOpen 1).setFld F.DEV_DEVID_VALID 1)).bump F.NET_CNT_RX_COUNT; let h := { wShake 2 with dev := 4 };
      (t.peer 3).state = 1 ∧ ((t.peer 3).kind = 2 ∨ (t.peer 3).kind = 3) ∧ h.dev ≠ 0xFFFFF ∧ t.devAt 1 0 ≠ some h.dev ∧ t.flag F.DEV_DEVID_VALID = true
        ∧ (t.anchored { h with anchor := none } 2 0xFFFF = false ∧ t.anchored h 2 v.tenant = true ∧ ({ h with dev := 0xFFFFF } : Shake).dev = 0xFFFFF))
    ∧ (let s := wNet (wPeer 1) (wOpen 1); let t := s.bump F.NET_CNT_RX_COUNT; let h := wShake 0; let v := t.peer 3;
      s.linkUp 0 = true ∧ v.state = 1 ∧ h.kind = v.kind ∧ v.kind ≠ 2 ∧ v.kind ≠ 3 ∧ t.anchored h v.kind v.tenant = true ∧ (wShake 1).kind ≠ v.kind)
    ∧ (let s := wNet { wPeer 1 with since := 1000000000000 - 100000000 }; (s.peer 3).state = 1 ∧ 100000000 ≤ s.tick - (s.peer 3).since)
    ∧ (let s := wNet { wPeer 3 with since := 1000000000000 }; (s.peer 3).state = 3 ∧ (s.peer 3).tx.msgs = [])
    ∧ (let v := wPeer 3; let s := wNet { v with since := 1000000000000 - 10000000, tx := { v.tx with msgs := [(1, { cls := 2, tenant := 5, bytes := [], owner := .free })] } };
      (s.peer 3).state = 3 ∧ (s.peer 3).tx.msgs ≠ [] ∧ 10000000 ≤ s.tick - (s.peer 3).since)
    ∧ (∀ f ∈ [F.NET_CTX_TMR_KEEPALIVE, F.NET_CTX_TMR_DEAD_TIME], let v := wPeer 2; let s := wNet { v with rx := { v.rx with heard := 1000000000000 - wDev.fld f * 100000 } };
      (s.peer 3).state = 2 ∧ s.fld f * 100000 ≤ s.tick - (s.peer 3).rx.heard)
    ∧ (∀ kind ∈ [0, 2], let s := wNet { wPeer 2 with kind := kind };
      s.linkUp 0 = true ∧ (s.peer 3).state = 2 ∧ ((s.peer 3).kind = 2 ∨ ((s.peer 3).kind ≠ 2 ∧ (s.peer 3).kind ≠ 3))) := by
  and_intros <;> decide +kernel

/-- A frame of class 2 at port 0. -/
def wFrame : Frame := { sub := 0, since := 0, cls := 2, peer := 4096, tenant := 5, len := 64, udp := (0, 0), pkt := none, body := [1] }

/-- Class 5 paused at sub-port 0 since PFC_WD ms, with VLAN_EN and PFC_WD 1. -/
def wPaused : State :=
  let s := ((wNet (wPeer 2)).setFld F.NET_PFC_PFC_WD 1).setFld (F.NET_PORT_VLAN_EN.at 0) 1
  s.setPort 0 { s.port 0 with pauses := [(0, 5, 1000000000001, 1000000000000 - 100000)], queue := [wFrame] }

theorem meets_EthernetPortsComplete :
    (wPaused.linkUp 0 = true ∧ wPaused.flag (F.NET_PORT_VLAN_EN.at (8 * (0 / 4))) = true)
    ∧ (wNet (wPeer 2)).flag (F.NET_PORT_VLAN_EN.at (8 * (0 / 4))) = false
    ∧ (let s := wPaused; s.fld F.NET_PFC_PFC_WD ≠ 0 ∧ s.classPaused (0 / 4) (0 % 4) 5 = true
      ∧ (s.port (0 / 4)).pauses.any (fun z => z.1 == 0 % 4 && z.2.1 == 5 && decide (s.tick < z.2.2.1) && decide (s.tick - z.2.2.2 ≥ s.fld F.NET_PFC_PFC_WD * 100000)) = true)
    ∧ (let s := (((wNet (wPeer 2)).setFld F.NET_CTRL_IPV4_EN 1).setFld F.NET_IPV4_ADDR 9).setFld F.NET_CTRL_IPV6_EN 1;
      s.linkUp 0 = true ∧ s.flag F.NET_CTRL_IPV4_EN = true ∧ s.fld F.NET_IPV4_ADDR = 9 ∧ s.fld F.NET_IPV4_ADDR ≠ 8 ∧ s.flag F.NET_CTRL_IPV6_EN = true ∧ s.ipv6 = 0 ∧ s.fld F.NET_IPV4_GW4 = 0)
    ∧ (let s := wPaused; s.nextFrame 0 = some wFrame ∧ s.exitSub 0 wFrame.cls wFrame.sub = some 0) := by decide +kernel

/-! ## Catalogue -/

/-- The device with a peer device 4 at context 3, ACTIVE in the map unless given another state, one bucket entry. -/
def wCat (st : Nat := 1) : State :=
  { wNet { wPeer 2 with kind := 2, dev := 4 } with
    cat := { Cat.empty with
      devices := [(1, { state := 1, registrar := true, lease := 1, address := [], profile := 7, joinEpoch := 1 }),
        (4, { state := st, registrar := false, lease := 1, address := [1], profile := 7, joinEpoch := 1 })]
      buckets := [(bucketOf 9, { primary := 1, secondary := 4, changed := false })]
      loc := [{ accession := 9, owner := 1, epoch := 0 }] } }

theorem meets_CatalogueSlipsComplete :
    (let x := hostSlip 5 9; let e := wSess Ss.WAITING; let s := took (withSess e wCat) Op.CAT_LOOKUP x;
      s.catUp Op.CAT_LOOKUP x [0, 0, 0, 0, 0xFFFFFFFF, 0xFFFFFFFF] = true ∧ x.acc ≠ 0 ∧ (s.bump F.CAT_CNT_LOOKUP_COUNT).findSess x.acc = some (0, e) ∧ e.state ≠ Ss.FREE)
    ∧ (let x := peerSlip 0 [0, 15]; (took wCat Op.CAT_MAP_FETCH x).catUp Op.CAT_MAP_FETCH x [0xFFFFFFFF, 15, 0, 0, 0xFFFFFFFF, 0xFFFFFFFF] = true ∧ x.P0 = 0)
    ∧ (let x := peerSlip 0 [1, 0, 0x100004] (wStruct Op.CAT_PROPOSE (leBytes 4 1 ++ leBytes 4 0 ++ leBytes 8 0 ++ (Change.of 5 4 1).bytes)); let s := took wCat Op.CAT_PROPOSE x;
      s.catUp Op.CAT_PROPOSE x [0xFFFFFFFF, 1, 0xFFFFFFFF, 0xFFFFFFFF, 0, 0] = true ∧ s.registrar = true ∧ s.cat.abstaining = false ∧ x.P0 = s.epoch + 1
        ∧ s.cat.promised ≤ ballotOf x ∧ badChanges Op.CAT_PROPOSE x.payload = none)
    ∧ (let x := peerSlip 0 [1, 0, 0x100001]; let s := took wCat Op.CAT_VOTE x;
      s.catUp Op.CAT_VOTE x [0xFFFFFFFF, 3, 0xFFFFFFFF, 0xFFFFFFFF, 0xFFFFFFFF, 0xFFFFFFFF] = true ∧ x.src = .peer 3 ∧ x.P4 = 0 ∧ x.P5 = 0)
    ∧ (∀ e ∈ [1, 0], let x := peerSlip 0 [e, 0, 0x100004] (wStruct Op.CAT_COMMIT (leBytes 4 1 ++ leBytes 4 0 ++ leBytes 8 0 ++ (Change.of 5 4 1).bytes));
      let s := took wCat Op.CAT_COMMIT x;
      s.catUp Op.CAT_COMMIT x [0xFFFFFFFF, 0, 0xFFFFFFFF, 0xFFFFFFFF, 0, 0] = true ∧ badChanges Op.CAT_COMMIT x.payload = none ∧ s.member = true
        ∧ (x.P0 = s.epoch + 1 ∨ x.P0 ≤ s.epoch))
    ∧ (let x := mgmtSlip [1, 0xFFFFFFFF]; let s := took ({ wDev with cat := Cat.empty }.setFld F.DEV_DEVID_VALID 0) Op.CAT_JOIN x;
      s.catUp Op.CAT_JOIN x [1, 0xFFFFFFFF, 0, 0, 0, 0] = true ∧ x.src = .mgmt 0 ∧ s.member = false ∧ s.cat.joining = 0 ∧ bitOf x.P0 0 = true ∧ x.P1 = 0xFFFFFFFF
        ∧ Cat.empty.joinId none = some 0)
    ∧ (let x := peerSlip 0 [0, 0xFFFFFFFF] (List.replicate 16 1 ++ leBytes 4 7); let s := took wCat Op.CAT_JOIN x;
      s.catUp Op.CAT_JOIN x [1, 0xFFFFFFFF, 0, 0, 0, 0] = true ∧ x.src = .peer 3 ∧ s.registrar = true ∧ 20 ≤ x.payload.length
        ∧ rdLe x.payload 16 4 = (s.profile.map (·.id)).getD 0 ∧ x.P1 = 0xFFFFFFFF ∧ s.cat.joinId none = some 0)
    ∧ (let x := peerSlip 0 [0]; let s := took wCat Op.CAT_LEAVE x;
      s.catUp Op.CAT_LEAVE x [3, 0xFFFFF, 0, 0, 0, 0] = true ∧ s.registrar = true ∧ bitsOf x.P0 1 0 ≠ 3 ∧ s.devState (s.leaver x) = 1)
    ∧ (let x := peerSlip 0 [1]; let s := took (wCat 2) Op.CAT_LEAVE x;
      s.catUp Op.CAT_LEAVE x [3, 0xFFFFF, 0, 0, 0, 0] = true ∧ s.registrar = true ∧ s.leaver x ≠ s.devId ∧ s.devState (s.leaver x) = 2)
    ∧ (let x := hostSlip 5 0 [2, 4]; let s := took wCat Op.CAT_LEAVE x;
      s.catUp Op.CAT_LEAVE x [3, 0xFFFFF, 0, 0, 0, 0] = true ∧ s.registrar = true ∧ bitsOf x.P1 19 0 ≠ s.devId ∧ s.devState (bitsOf x.P1 19 0) = 1)
    ∧ (let x := peerSlip 9 [0, 4]; let s := took wCat Op.CAT_LOCATE x;
      s.catUp Op.CAT_LOCATE x [3, 0xFFFFF, 0xFFFFFFFF, 0, 0, 0] = true ∧ s.bucketWait x.acc = none ∧ s.locRoom [x.acc] = true)
    ∧ (let x := peerSlip 0 [3, 4] (LocRec.mk 9 4 1).bytes; let s := took wCat Op.CAT_LOCATE x;
      s.catUp Op.CAT_LOCATE x [3, 0xFFFFF, 0xFFFFFFFF, 0, 0, 0] = true ∧ s.bucketWait x.acc = none ∧ readRecords x.payload = [LocRec.mk 9 4 1]
        ∧ s.locRoom ((readRecords x.payload).map (fun r => r.accession)) = true) := by
  and_intros <;> decide +kernel

/-- Whatever a change list is, it applies with one digest, that of the map it makes (the digest of 1 MiB is not worked out here). -/
theorem meets_CatalogueSlipsComplete_digest (s : State) (l : List Change) : ∃ digest t, s.applyCommit digest l = some t :=
  ⟨(s.cat.applyList (s.epoch + 1) l).digest, by simp [State.applyCommit]⟩

/-- A state of the catalogue put into the device. -/
def wCatWith (f : Cat → Cat) : State := wCat.updCat f

theorem meets_CatalogueEventsComplete :
    (let s := wCatWith fun c => { c with proposal := { c.proposal with phase := 1, since := 1000000000000 - wDev.fld F.CAT_CFG_VOTE_TIMEOUT * 200000 } };
      s.registrar = true ∧ s.cat.proposal.phase ≠ 0
        ∧ s.fld F.CAT_CFG_VOTE_TIMEOUT * 100000 * (2 + (s.cat.registrars.findIdx? (· == s.devId)).getD 0) ≤ s.tick - s.cat.proposal.since)
    ∧ (let s := wCatWith fun c => { c with fetch := some { dev := 4, from_ := 1, epoch := 0, parts := [] } };
      s.cat.fetch = some { dev := 4, from_ := 1, epoch := 0, parts := [] } ∧ statusClass (wReply St.OK).status.toNat ≤ 1
        ∧ badFetch { dev := 4, from_ := 1, epoch := 0, parts := [] } (wReply St.OK).data = false
        ∧ s.applyLists (splitLists 16 (wReply St.OK).data) = some s)
    ∧ (∀ n ∈ [0, 14, 15], let f : Fetch := { dev := 4, from_ := 0, epoch := 0, parts := List.replicate n [] }; let s := wCatWith fun c => { c with fetch := some f };
      s.cat.fetch = some f ∧ f.dev = 4 ∧ badFetch f (wReply St.OK).data = false ∧ f.from_ = 0 ∧ f.epoch = (wReply St.OK).result.toNat % 2 ^ 32
        ∧ (f.parts.length < 15 ∨ f.parts.length = 15))
    ∧ (let l : Locate := { accession := 9, asked := 4, second := false, why := 0, left := 1, since := 1000000000000 - wDev.fld F.CAT_CFG_LOCATE_TIMEOUT * 100 };
      let s := wCatWith fun c => { c with locates := [l] };
      s.cat.locates.find? (fun l => l.accession == 9 && l.why != 1) = some l ∧ s.fld F.CAT_CFG_LOCATE_TIMEOUT * 100 ≤ s.tick - l.since
        ∧ s.cat.locates.find? (fun l => l.accession == 9 && l.asked == 4 && l.why != 1) = some l ∧ 2 ≤ statusClass (wReply St.BUSY).status.toNat
        ∧ statusClass (wReply St.OK).status.toNat ≤ 1 ∧ badDev (bitsOf (wReply St.OK).result.toNat 19 0) = false ∧ l.why = 0)
    ∧ (let l : Locate := { accession := 9, asked := 4, second := false, why := 2, left := 1, since := 0 }; let s := wCatWith fun c => { c with locates := [l] };
      s.cat.locates.find? (fun l => l.accession == 9 && l.asked == 4 && l.why != 1) = some l ∧ l.why = 2)
    ∧ (let l : Locate := { accession := 9, asked := 4, second := false, why := 1, left := 1, since := 0 };
      let m : Move := { accession := 9, peerDev := 4, resume := 0, shelfGen := 1, remain := 0, phase := 1 };
      let s := { wCatWith (fun c => { c with locates := [l] }) with moves := [(0, m)] };
      s.cat.locates.find? (fun l => l.accession == 9 && l.why == 1) = some l ∧ s.moveOf 9 false = some (0, m) ∧ m.phase = 1 ∧ l.left ≤ 1)
    ∧ (let f : Fwd := { dev := 4, tag := 6, op := Op.SESS_QUERY, slip := hostSlip 5 9 }; let s := wCatWith fun c => { c with forwards := [f] };
      s.cat.forwards.find? (fun f => f.dev == 4 && f.tag == 6) = some f)
    ∧ (wCatWith fun c => { c with joining := 1 }).cat.joining = 1
    ∧ (let z := (4, 1000000000000 - wDev.fld F.CAT_CFG_DEAD_CONFIRM * 100000); let s := wCatWith fun c => { c with suspects := [z] };
      s.cat.suspects.find? (fun z => z.1 == 4) = some z ∧ s.registrar = true ∧ s.fld F.CAT_CFG_DEAD_CONFIRM * 100000 ≤ s.tick - z.2)
    ∧ (let s := wCatWith fun c => { c with leaving := true, leaveTick := 1000000000000 - wDev.fld F.CAT_CFG_DRAIN_TIME * 100000000 };
      s.cat.leaving = true ∧ s.fld F.CAT_CFG_DRAIN_TIME * 100000000 ≤ s.tick - s.cat.leaveTick)
    ∧ (wCat.member = true ∧ wCat.cat.nopTick = none)
    ∧ (wCat.ctxOf 4 = some 3 ∧ 0 ≤ wCat.epoch)
    ∧ (let s := wCatWith fun c => { c with devices := [(1, { state := 1, registrar := false, lease := 1, address := [], profile := 7, joinEpoch := 1 }),
        (5, { state := 1, registrar := true, lease := 1, address := [1], profile := 7, joinEpoch := 1 })] };
      s.member = true ∧ s.reachesMajority = false ∧ s.fenced = false)
    ∧ (let s := wCat.setFld F.RIND_AUDIT_STATUS_FENCED 1; s.member = true ∧ s.reachesMajority = true ∧ s.fenced = true ∧ s.cat.fetch = none) := by
  and_intros <;> decide +kernel

/-! ## Checkpoints -/

/-- The device with a change of the checkpoint side. -/
def wCkpt (f : Ckpt → Ckpt) (s : State := wDev) : State := (s.setFld F.CKPT_CTRL_EN 1).updCkpt f

theorem meets_CheckpointSlipsComplete :
    (let x := hostSlip 5 0 [1]; let s := took (wCkpt id) Op.CKPT_TAKE x;
      x.acc = 0 ∧ s.takenUp Op.CKPT_TAKE x = true ∧ badParam x [1, 0, 0, 0, 0, 0] = none ∧ s.flag F.CKPT_CTRL_EN = true ∧ s.phase = 0)
    ∧ (let x := hostSlip 5 0; let s := took wDev Op.CKPT_QUERY x;
      s.takenUp Op.CKPT_QUERY x = true ∧ badParam x [0, 0, 0, 0, 0xFFFFFFFF, 0xFFFFFFFF] = none)
    ∧ (∀ n ∈ [0, 10, 40], let x := hostSlip 5 0 [0xFFFF, n]; let s := took wDev Op.CKPT_SET_TRIGGERS x;
      s.takenUp Op.CKPT_SET_TRIGGERS x = true ∧ badParam x [0xFFFFFFFF, 0xFFFFFFFF, 7, 0, 0, 0] = none ∧ x.P0 ≤ 0xFFFF ∧ stepsOk x.P1 = true
        ∧ bitOf x.P2 1 = false ∧ bitOf x.P2 2 = false)
    ∧ (let x := mgmtSlip [0, 0, 7]; let s := took (wCkpt fun c => { c with press := { c.press with found := true } }) Op.CKPT_SET_TRIGGERS x;
      s.takenUp Op.CKPT_SET_TRIGGERS x = true ∧ bitOf x.P2 1 = true ∧ bitOf x.P2 2 = true ∧ s.code x.src ≠ 2 ∧ s.phase = 0
        ∧ (s.setTriggers (some x.P0) (some x.P1)).ckpt.press.found = true)
    ∧ (let m : MirrorCopy := { writer := 4, no := 3, leaf := [1], blocks := [], sealRec := some (0, [9]) }; let x := peerSlip 0 [4, 3];
      let d := wNet { wPeer 2 with kind := 2, dev := 4, leaf := [1] }; let s := took (wCkpt (fun c => { c with mirrors := [m] }) d) Op.CKPT_MIRROR_GET x;
      s.takenUp Op.CKPT_MIRROR_GET x = true ∧ badParam x [0xFFFFF, 0xFFFFFFFF, 0xFFFFFFFF, 0xFFFFFFFF, 0xFFFFFFFF, 0xFFFFFFFF] = none ∧ x.P2 = 0 ∧ x.P1 ≠ 0
        ∧ (s.ckpt.mirrors.filter (fun m => m.writer == bitsOf x.P0 19 0)).find? (fun m => m.no == x.P1) = some m
        ∧ s.mayReadMirror x (bitsOf x.P0 19 0) m = true ∧ m.sealRec = some (0, [9]))
    ∧ (∀ source ∈ [0, 1, 2], ∀ b ∈ [[], wStruct 0x1C02 (List.replicate 16 1)],
      let x := mgmtSlip [source, 0] b; let s := took ({ wDev with cat := Cat.empty }.setFld F.DEV_DEVID_VALID 0) Op.CKPT_RESTORE x;
      s.takenUp Op.CKPT_RESTORE x = true ∧ badParam x [3, 0xFFFFFFFF, 0, 0, 0, 0] = none ∧ bitsOf x.P0 1 0 = source ∧ bitsOf x.P0 1 0 ≠ 3
        ∧ (x.payload = [] ∨ badStruct 0x1C02 24 x.payload = none) ∧ s.loaded = true
        ∧ s.sessions = [] ∧ s.member = false ∧ s.phase = 0) := by
  and_intros <;> decide +kernel

/-- The slip that puts the block `b` at block 1 of checkpoint 3. -/
def wPut (b : Bytes) : Slip := { peerSlip 0 [3, 1, 1] with plen := 65544, payload := leBytes 2 0x1C10 ++ [0x10, 0] ++ leBytes 4 65544 ++ b }

theorem took_notReady (s : State) (op o : Nat) (x : Slip) : (took s op x).notReady o = s.notReady o := rfl
theorem took_fld (s : State) (op : Nat) (x : Slip) (f : Fld) : (took s op x).fld f = s.fld f := rfl
theorem took_holdUsed (s : State) (op : Nat) (x : Slip) : (took s op x).holdUsed = s.holdUsed := rfl
theorem took_pickUnits (s : State) (op tier n : Nat) (x : Slip) : (took s op x).pickUnits tier n = s.pickUnits tier n := rfl

/-- The device that is sent it. -/
def wHolder : State := wNet { wPeer 2 with kind := 2, dev := 4 }

/-- For every block of 64 KiB. -/
theorem meets_CheckpointSlipsComplete_put (b : Bytes) (hb : b.length = 65536) :
    let x := wPut b; let s := took wHolder Op.CKPT_MIRROR_PUT x;
    s.takenUp Op.CKPT_MIRROR_PUT x = true ∧ badParam x [0xFFFFFFFF, 0xFFFFFFFF, 0xFFFFFFFF, 0, 0, 0] = none ∧ 1 ≤ x.P2 ∧ x.P2 ≤ 15 ∧ 1 ≤ x.P1
      ∧ x.P1 + x.P2 ≤ 131072 ∧ badStruct 0x1C10 (8 + 65536 * x.P2) x.payload = none ∧ (x.payload.drop 8).take (65536 * x.P2) = b
      ∧ s.ckpt.mirrors.filter (fun m => m.writer == s.writerOf x) = []
      ∧ s.holdUsed + (([b].map (fun b => bodyQuarters b.length)).foldl (· + ·) 0) ≤ s.fld F.TIER_HOLD_CAP
      ∧ (s.keepMirror { writer := s.writerOf x, no := x.P0, leaf := s.leafOf x, blocks := [], sealRec := none } x.P1 [b]).isSome = true := by
  have p2 : (wPut b).P2 = 1 := (by decide +kernel : (wPut []).P2 = 1)
  refine ⟨?_, (by decide +kernel : badParam (wPut []) [0xFFFFFFFF, 0xFFFFFFFF, 0xFFFFFFFF, 0, 0, 0] = none), (by decide +kernel : 1 ≤ (wPut []).P2),
    (by decide +kernel : (wPut []).P2 ≤ 15), (by decide +kernel : 1 ≤ (wPut []).P1), (by decide +kernel : (wPut []).P1 + (wPut []).P2 ≤ 131072),
    ?_, ?_, ?_, ?_, ?_⟩
  · have e : wHolder.slips = [] := by decide +kernel
    have n : wHolder.notReady Op.CKPT_MIRROR_PUT = none := by decide +kernel
    have r : (took wHolder Op.CKPT_MIRROR_PUT (wPut b)).notReady Op.CKPT_MIRROR_PUT = none := by rw [took_notReady]; exact n
    have o : (took wHolder Op.CKPT_MIRROR_PUT (wPut b)).outst (wPut b).src (wPut b).tag
        = some { op := Op.CKPT_MIRROR_PUT, slip := wPut b, stage := .running, note := 0, tokens := 0, dataFails := false, since := 0 } := by simp [State.outst, took, e]
    have k : blockedBy Op.CKPT_MIRROR_PUT (wPut b) (took wHolder Op.CKPT_MIRROR_PUT (wPut b)).slips = false := by simp [took, e, blockedBy]
    simp [State.takenUp, r, o, k]
  · rw [p2]
    show badStruct 0x1C10 (8 + 65536 * 1) (leBytes 2 0x1C10 ++ [0x10, 0] ++ leBytes 4 65544 ++ b) = none
    simp [badStruct, leBytes, rdLe, slice, leNat, hb]
  · rw [p2]
    show ((leBytes 2 0x1C10 ++ [0x10, 0] ++ leBytes 4 65544 ++ b).drop 8).take (65536 * 1) = b
    rw [List.drop_left' (by decide +kernel)]; exact List.take_of_length_le (by omega)
  · have e : wHolder.ckpt.mirrors = [] := by decide +kernel
    show wHolder.ckpt.mirrors.filter _ = []
    rw [e]; rfl
  · have h : wHolder.holdUsed + bodyQuarters 65536 ≤ wHolder.fld F.TIER_HOLD_CAP := by decide +kernel
    simpa [took_holdUsed, took_fld, hb] using h
  · have h : (wHolder.pickUnits 2 (bodyQuarters 65536)).isSome = true := by decide +kernel
    obtain ⟨u, hu⟩ := Option.isSome_iff_exists.mp h
    simp [State.keepMirror, took_pickUnits, hb, hu]

/-- Such a block is one chunk of its slip. -/
theorem meets_CheckpointSlipsComplete_chunk (b : Bytes) (hb : b.length = 65536) : chunks 65536 16 b = [b] := by
  cases b with
  | nil => simp at hb
  | cons a l =>
    show List.take 65536 (a :: l) :: chunks 65536 15 (List.drop 65536 (a :: l)) = _
    rw [List.take_of_length_le (by omega), List.drop_of_length_le (by omega)]; rfl

/-- A restore at a stage, with reads outstanding. -/
def wRestore (stage : Nat) (asked : List Nat) : Restore :=
  { slip := mgmtSlip, source := 1, want := 0, stage := stage, since := 1000000000000 - 100000000, addrs := [], asked := asked, cands := [], verified := false,
    fits := false, cur := none, blocks := [], former := 1, newest := 0 }

/-- A checkpoint being written to the press and mirrored. -/
def wCkptRun (mirror : Nat) : CkptRun :=
  { snap := wDev.capture 3 1 0, press := true, slot := 0, stage := 1, left := 1, isSealed := false, mirrors := [(4, 1, mirror)] }

theorem meets_CheckpointEventsComplete :
    (let s := (wDev.setFld F.CKPT_TRIG_TIMER_S 1).updCkpt fun c => { c with prevTick := 1000000000000 - 100000000 }; s.timerDue = true)
    ∧ (wDev.setFld F.CKPT_TRIG_TIMER_S 0).timerDue = false
    ∧ ((wDev.setFld F.CKPT_TRIG_STEPS_LOG2 10).setFld F.SCHED_CNT_STEPS_COUNT 1024).stepsDue = true ∧ wDev.stepsDue = false
    ∧ (let s := { wDev with cat := Cat.empty }.setFld F.CKPT_SEQ_SEQ_LIMIT 0x10000; s.registrar = false ∧ s.fld F.CKPT_SEQ_SEQ_LIMIT ≤ s.fld F.SESS_SEQ_NEXT + 2 ^ 16)
    ∧ (let s := wCkpt fun c => { c with deferred := 4 }; s.ckpt.deferred ≠ 0 ∧ s.ckptFree = true ∧ s.flag F.CKPT_CTRL_EN = true)
    ∧ (wDev.setPhase 1).phase = 1
    ∧ (let s := wCkpt fun c => { c with retry := some (1000000000000, 1) }; s.ckpt.retry = some (1000000000000, 1) ∧ 1000000000000 ≤ s.tick ∧ s.ckptFree = true)
    ∧ ((wCkptRun 0).press = true ∧ (wCkptRun 0).isSealed = false)
    ∧ (∀ z ∈ [0, 1], let s := wCkpt (fun c => { c with run := some (wCkptRun z) }) (wDev.setPhase 4);
      s.phase = 4 ∧ (wCkptRun z).mirrors.find? (fun m => m.1 == 4) = some (4, 1, z) ∧ z ≤ 1 ∧ 2 ≤ statusClass St.BUSY ∧ statusClass St.OK ≤ 1)
    ∧ (let s := (wCkpt fun c => { c with restore := some (wRestore 0 []) }).updCat fun c => { c with fetch := some { dev := 4, from_ := 0, epoch := 0, parts := [] } };
      s.ckpt.restore = some (wRestore 0 []) ∧ (wRestore 0 []).stage = 0 ∧ s.cat.fetch.isSome = true ∧ 100000000 ≤ s.tick - (wRestore 0 []).since)
    ∧ ((wRestore 2 [6]).asked.contains (4 + 2) = true ∧ (wRestore 2 [6]).stage = 2 ∧ statusClass (wReply St.OK).status.toNat ≤ 1)
    ∧ (let s := { (wCkpt fun c => { c with removed := [(4, 7)] }) with tick := 24 * 3600 * 100000000 + 7 };
      tGet s.ckpt.removed 4 = some 7 ∧ 24 * 3600 * 100000000 ≤ s.tick - 7)
    ∧ (let a : Adopt := { dev := 4, buckets := [], since := 1000000000000 - wDev.fld F.CKPT_REHOME_REHOME_DELAY * 100000000, begun := false };
      let s := wCkpt id (wCatWith fun c => { c with adopt := [a] });
      s.cat.adopt.find? (fun a => a.dev == 4) = some a ∧ a.begun = false ∧ s.fenced = false
        ∧ s.fld F.CKPT_REHOME_REHOME_DELAY * 100000000 ≤ s.tick - a.since ∧ s.ckpt.adoptions = [])
    ∧ stepsOk (bitsOf 10 5 0) = true ∧ stepsOk (bitsOf 9 5 0) = false := by
  and_intros <;> decide +kernel

/-- The run in those states is the one meant. -/
theorem meets_CheckpointEventsComplete_run (z : Nat) : (wCkpt (fun c => { c with run := some (wCkptRun z) })).ckpt.run = some (wCkptRun z) := rfl

/-! ## Checks, errors -/

/-- The device with every check unit in service and its region of HDM1 visible. -/
def wChk : State := ((wDev.setFld (Fld.mk A.CHK_UNIT 63 61) 2).setFld (Fld.mk (A.CHK_UNIT + 32) 63 61) 2).setFld (Fld.mk (A.CHK_UNIT + 40) 63 61) 2

/-- A scan of two lines of HDM1. -/
def wScan : Scan := { slip := hostSlip 5 0 [3, 0, 0, 2], hdm1 := true, crc64 := true, start := 0, len := 128, seed := 0 }

theorem meets_ChecksAndDiagnosticsComplete :
    (let x := hostSlip 5 0 [3, 7, 9] [1, 2]; let s := took wChk Op.CHK_CRC x;
      x.acc = 0 ∧ s.takenUp Op.CHK_CRC x = true ∧ badParam x [3, 0xFFFFFFFF, 0xFFFFFFFF, 0, 0, 0] = none ∧ bitOf x.P0 0 = true ∧ s.unitsOn A.CHK_UNIT 0 4 ≠ [])
    ∧ (∀ z ∈ [[1, 0, 0, 1024], [3, 0, 0, 1]], let x := hostSlip 5 0 z; let s := took wChk Op.CHK_SCAN x; let start := x.P1 + 2 ^ 32 * x.P2;
      s.takenUp Op.CHK_SCAN x = true ∧ badParam x [7, 0xFFFFFFFF, 0xFFFFFFFF, 0xFFFFFFFF, 0xFFFFFFFF, 0xFFFFFFFF] = none ∧ x.P1 % 64 = 0 ∧ x.P3 ≠ 0
        ∧ start + 64 * x.P3 ≤ hdm1Bytes ∧ (bitOf x.P0 1 = true ∨ x.P5 = 0) ∧ s.absentRange (bitOf x.P0 0) start (64 * x.P3) = false
        ∧ s.visibleRange (bitOf x.P0 0) start (64 * x.P3) = true ∧ s.unitsOn A.CHK_UNIT 4 1 ≠ [] ∧ s.scanFull = false)
    ∧ (∀ op ∈ [Op.CHK_XTS_ENC, Op.CHK_XTS_DEC], let x := hostSlip 5 0 [1, 2, 3, 4, 0, 16] (List.replicate 16 7); let s := took wChk op x;
      badParam x [0xFFFFFFFF, 0xFFFFFFFF, 0xFFFFFFFF, 0xFFFFFFFF, 0xFFFFFFFF, 0xFFFFFFFF] = none ∧ x.payload.length % 16 = 0 ∧ x.payload ≠ []
        ∧ s.keyMissing x.ten = none ∧ (s.tenant x.ten).key = some (List.replicate 32 3) ∧ s.unitsOn A.CHK_UNIT 5 4 ≠ [] ∧ x.payload.length ≤ x.P5
        ∧ s.takenUp op x = true)
    ∧ (∀ k ∈ [1, 14], let x := mgmtSlip [k, 0, 0, 1]; let s := took (wDev.setFld F.SEC_STATE_DEBUG_UNLOCKED 1) Op.DIAG_INJECT x;
      s.code x.src = 4 ∧ s.flag F.SEC_STATE_DEBUG_UNLOCKED = true ∧ s.takenUp Op.DIAG_INJECT x = true
        ∧ badParam x [0xFFFF00FF, 0xFFFFFFFF, 0xFFFFFFFF, 0xFF, 0, 0] = none ∧ bitsOf x.P0 7 0 ∈ [1, 3, 5, 7, 9, 11, 12, 13, 14] ∧ x.P3 ≠ 0
        ∧ bitsOf x.P0 31 16 / 8192 = 0)
    ∧ (∀ k ∈ [0, 1, 2], let x := mgmtSlip [k, 0xFF, 0]; let s := took (wDev.setFld F.SEC_STATE_DEBUG_UNLOCKED 1) Op.DIAG_TRACE x;
      s.takenUp Op.DIAG_TRACE x = true ∧ badParam x [3, 0xFF, 0xFFFFFFFF, 0, 0xFFFFFFFF, 0xFFFFFFFF] = none ∧ (k = 2 → bitsOf x.P0 1 0 = 2))
    ∧ (∀ s ∈ [{ wChk with scans := [wScan], scanning := true }, ({ wChk with scans := [wScan], scanning := true } : State).updErrs (fun e => { e with poison := [(0, 1)] })],
      let hurt := (List.range (wScan.len / 64)).findSome? (fun i => if s.lineHurt wScan.hdm1 (wScan.start + 64 * i) then s.lineOf wScan.hdm1 (wScan.start + 64 * i) else none);
      s.scans = [wScan] ∧ s.scanning = true ∧ (hurt = none ∨ hurt = some (0, 1)))
    ∧ (let s := ({ wChk with scans := [wScan], scanning := true } : State).updErrs (fun e => { e with poison := [(0, 1)] });
      (List.range (wScan.len / 64)).findSome? (fun i => if s.lineHurt wScan.hdm1 (wScan.start + 64 * i) then s.lineOf wScan.hdm1 (wScan.start + 64 * i) else none) = some (0, 1)) := by
  and_intros <;> decide +kernel

theorem meets_ErrorEventsComplete :
    (let s := wDev.setFld (F.ERR_LINK_STATE.at (8 * 79)) 0; s.linkState 79 = 0 ∧ tGet s.errs.exhausted 79 = none)
    ∧ (let s := (wDev.setFld (F.ERR_LINK_STATE.at 0) 0).updErrs fun e => { e with exhausted := [(0, 1000000000000 - 99999999)] };
      s.linkState 0 = 0 ∧ tGet s.errs.exhausted 0 = some (1000000000000 - 99999999) ∧ s.tick < 1000000000000 - 99999999 + 100000000)
    ∧ (wDev.setFld (F.ERR_LINK_STATE.at 0) 1).linkState 0 = 1
    ∧ (let s := wDev.updErrs fun e => { e with irqHeld := true, lastIrq := some (1000000000000 - 1000) };
      s.errs.irqHeld = true ∧ s.errs.lastIrq = some (1000000000000 - 1000) ∧ 1000000000000 - 1000 + 1000 ≤ s.tick)
    ∧ (2 ^ 63 : Nat).testBit 63 = true ∧ wDev.takesSlips = true
    ∧ (∀ z ∈ [0, 1], ((wDev.setFld F.RIND_AUDIT_STATUS_FAULT_HOLD z).updErrs (fun e => { e with sticky := [] })).flag F.RIND_AUDIT_STATUS_FAULT_HOLD = (z == 1))
    ∧ (∀ z ∈ [0, 6, 7], let s := wDev.setFld F.RIND_AUDIT_STATUS_SWEEP_CODE z;
      let code := if s.fld F.RIND_AUDIT_STATUS_SWEEP_CODE ≥ 7 then 1 else s.fld F.RIND_AUDIT_STATUS_SWEEP_CODE + 1;
      let t := ((s.setFld F.RIND_AUDIT_STATUS_SWEEP_CODE code).setFld F.RIND_AUDIT_STATUS_SWEEP_POS (s.sweepSize code)).bumpBy F.RIND_AUDIT_CNT_RECHECK_COUNT 0;
      s.takesSlips = true ∧ s.fld F.BOOT_STATE_STATE ≠ 8 ∧ t.breach code = none)
    ∧ (let s := { (wDev.setFld F.RIND_AUDIT_STATUS_SWEEP_CODE 1) with reserved := 1 };
      ((((s.setFld F.RIND_AUDIT_STATUS_SWEEP_CODE 2).setFld F.RIND_AUDIT_STATUS_SWEEP_POS (s.sweepSize 2)).bumpBy F.RIND_AUDIT_CNT_RECHECK_COUNT 0).breach 2).isSome = true) := by
  and_intros <;> decide +kernel

/-! ## Security -/

/-- A management slip sent during the presence window. -/
def wPresent (s : State := wDev) : State := { s with sec := { s.sec with windowEnd := some 1000000000001 } }

/-- Principal 3, and management connection 0 of it. -/
def wPrin (n : Nat) : State := { wDev with principals := [(3, { role := 1, kinds := 0, tenant := 0, digest := [] })], mgmt := [(0, { principal := n, role := 1 })] }

theorem meets_SecuritySlipsComplete :
    (let x := mgmtSlip [] (wStruct 0x2800 ([7, 0, 0, 0] ++ leBytes 2 1 ++ [0, 0, 9])); let s := took (wPresent) Op.SEC_PRINCIPAL_ENROL x;
      x.acc = 0 ∧ s.takenUp Op.SEC_PRINCIPAL_ENROL x = true ∧ s.present x.src = true ∧ badParam x [0, 0, 0, 0, 0, 0] = none ∧ badStruct 0x2800 17 x.payload = none
        ∧ rdLe x.payload 8 1 = 7 ∧ rdLe x.payload 12 2 = 1 ∧ 16 + 1 ≤ rdLe x.payload 4 4
        ∧ s.principals.find? (fun q => q.2.digest == sha384 (slice x.payload 16 1) && q.2.role == 7) = none ∧ tFree s.principals 1 64 0 = some 0)
    ∧ (∀ tenant ∈ [0xFFF, 0xFFFF], let x := mgmtSlip [] (wStruct 0x2800 ([6, 0xFF] ++ leBytes 2 tenant ++ leBytes 2 1 ++ [0, 0, 9]));
      let s := took (wPresent) Op.SEC_PRINCIPAL_ENROL x;
      s.takenUp Op.SEC_PRINCIPAL_ENROL x = true ∧ rdLe x.payload 8 1 = 6 ∧ (rdLe x.payload 10 2 ≤ 0xFFF ∨ 0xFFFF ≤ rdLe x.payload 10 2)
        ∧ rdLe x.payload 12 2 = 1 ∧ s.principals.find? (fun q => q.2.digest == sha384 (slice x.payload 16 1) && q.2.role == 6) = none)
    ∧ (∀ n ∈ [3, 2], let x := mgmtSlip [3]; let s := took (wPrin n) Op.SEC_PRINCIPAL_REVOKE x; let cs := (s.mgmt.filter (fun c => c.2.principal == x.P0)).map (·.1);
      s.takenUp Op.SEC_PRINCIPAL_REVOKE x = true ∧ badParam x [0x3F, 0, 0, 0, 0, 0] = none ∧ (tGet s.principals x.P0).isSome = true
        ∧ cs.any (fun c => x.src == .mgmt c) = (n == 3))
    ∧ (let x := mgmtSlip; let s := took wDev Op.SEC_TENANT_STATUS x; s.takenUp Op.SEC_TENANT_STATUS x = true ∧ badParam x [0, 0, 0, 0, 0, 0] = none)
    ∧ (let x := { mgmtSlip with tenant := 5 }; let s := took (withSess (wSess Ss.WAITING) wPresent) Op.SEC_TENANT_ERASE x;
      s.takenUp Op.SEC_TENANT_ERASE x = true ∧ s.present x.src = true ∧ badParam x [0, 0, 0, 0, 0, 0] = none ∧ (s.tenant x.ten).key.isSome = true)
    ∧ (let x := mgmtSlip [1]; let s := took wDev Op.SEC_CONF_HOST x;
      s.takenUp Op.SEC_CONF_HOST x = true ∧ badParam x [1, 0, 0, 0, 0, 0] = none ∧ s.sec.confNext ≠ bitOf x.P0 0)
    ∧ (let x := mgmtSlip; let s := took (wPresent { (wDev.setFld F.DEV_BUNDLE_LOADED 0) with tenants := [] }) Op.SEC_DEBUG_UNLOCK x;
      s.takenUp Op.SEC_DEBUG_UNLOCK x = true ∧ badParam x [0, 0, 0, 0, 0, 0] = none ∧ s.present x.src = true ∧ s.flag F.SEC_STATE_DEBUG_UNLOCKED = false ∧ s.loaded = false
        ∧ (∀ t ∈ s.tenants, t.2.key = none))
    ∧ (∀ z ∈ [(1, 127), (2, 271), (3, 6143)], let x := mgmtSlip [] (wStruct 0x2806 ([BitVec.ofNat 8 z.1, 0] ++ leBytes 2 1 ++ leBytes 4 z.2));
      let s := took (wPresent) Op.SEC_FUSE_PROGRAM x;
      s.takenUp Op.SEC_FUSE_PROGRAM x = true ∧ s.present x.src = true ∧ badParam x [0, 0, 0, 0, 0, 0] = none ∧ badStruct 0x2806 12 x.payload = none ∧ rdLe x.payload 8 1 = z.1
        ∧ rdLe x.payload 10 2 = 1 ∧ 12 + 4 * 1 ≤ rdLe x.payload 4 4 ∧ (markFuse z.1 (rdLe x.payload 12 4)).isSome = true
        ∧ s.markPresent z.1 (rdLe x.payload 12 4) = true)
    ∧ (let x := mgmtSlip [] (wStruct 0x2806 ([4, 0] ++ leBytes 2 1 ++ leBytes 4 0)); let s := took (wPresent) Op.SEC_FUSE_PROGRAM x;
      s.takenUp Op.SEC_FUSE_PROGRAM x = true ∧ s.present x.src = true ∧ badParam x [0, 0, 0, 0, 0, 0] = none ∧ badStruct 0x2806 12 x.payload = none
        ∧ rdLe x.payload 8 1 = 4 ∧ rdLe x.payload 10 2 = 1 ∧ 12 + 4 * 1 ≤ rdLe x.payload 4 4 ∧ rdLe x.payload 12 4 < 2 ^ 29
        ∧ s.markPresent 4 (rdLe x.payload 12 4) = true ∧ s.repairBarred (rdLe x.payload 12 4) = none) := by
  and_intros <;> decide +kernel

/-- A secure session of a role, over CXL.io. -/
def wSpdm (role : Nat) : State := { wDev with sec := { wDev.sec with spdm := [(7, { transport := 0, principal := 3, role := role })] } }

theorem meets_KeyMessagesComplete :
    ((wSpdm 4).responds = true ∧ (wSpdm 4).sec.rindUntil ≤ (wSpdm 4).tick ∧ tGet (wSpdm 4).sec.spdm 7 = some { transport := 0, principal := 3, role := 4 }
      ∧ (wSpdm 4).keysBarred = none)
    ∧ ((wSpdm 4).tenant 6).key = none ∧ ((wSpdm 4).tenants.filter (fun z => z.2.key.isSome)).length < 4097
    ∧ ((wSpdm 4).tenant 5).key = some (List.replicate 32 3) ∧ (List.replicate 32 (3 : Byte)).length = 32
    ∧ (let s := (wSpdm 5).setFld F.SEC_STATE_CONF_HOST 1;
      s.responds = true ∧ tGet s.sec.spdm 7 = some { transport := 0, principal := 3, role := 5 } ∧ s.conf = true ∧ s.sec.hostUsed = false
        ∧ s.flag F.SEC_STATE_DEBUG_UNLOCKED = false ∧ s.flag F.SEC_STATE_SERVICE = false)
    ∧ (let p := (3, ({ role := 5, kinds := 0, tenant := 0, digest := [1] } : Principal)); let s := { wSpdm 5 with principals := [p] };
      s.principals.find? (fun p => p.2.digest == [1] && (p.2.role == 4 || p.2.role == 5)) = some p ∧ tFree s.sec.spdm 1 8 0 = some 0) := by decide +kernel

theorem meets_SecurityEventsComplete :
    wDev.boot.hold = 0
    ∧ (∀ core ∈ [0, 7], wDev.unitState (errUnit 7 (3 * 256 + core)) = 2)
    ∧ (wDev.sec.stuck = false ∧ wDev.sec.quietUntil ≤ wDev.tick)
    ∧ (let s := { wDev with sec := { wDev.sec with windowEnd := some 1000000000000 } }; s.sec.windowEnd = some 1000000000000 ∧ 1000000000000 ≤ s.tick)
    ∧ wDev.sec.stuck ≠ true
    ∧ wDev.sec.episode = none
    ∧ (let s := { wDev with sec := { wDev.sec with episode := some (1000000000000 - 50001) } };
      s.sec.episode = some (1000000000000 - 50001) ∧ 1000000000000 - 50001 + 50000 < s.tick) := by decide +kernel

/-! ## Maintenance -/

theorem meets_MaintenanceSlipsComplete :
    (∀ z ∈ [[1, 0, 0], [4, 1, 2], [8, 1, 3], [5, 4, 7]], let x := mgmtSlip z; let s := took wDev Op.MAINT_LOCK x;
      s.takenUp Op.MAINT_LOCK x = true ∧ x.acc = 0 ∧ badParam x [15, 7, 0xFFFF, 0, 0, 0] = none ∧ 1 ≤ x.P0 ∧ x.P0 ≤ 8 ∧ x.P1 ∈ (activityScopes x.P0).1
        ∧ (x.P1 = 1 → x.P2 ∈ (activityScopes x.P0).2) ∧ (x.P1 = 0 → x.P2 = 0) ∧ s.scopeBad x.P1 x.P2 2 = none ∧ s.lockBusy x.P0 x.P1 x.P2 = none
        ∧ (s.locks.filter (fun o => !(o.against x.P0 x.P1 x.P2 && o.yields))).length < 32)
    ∧ (∀ a ∈ [true, false], let l : Lock := { id := 3, activity := 4, scope := 2, index := 0, holder := some (.mgmt 0), auto := false, active := a, ending := false };
      let x := mgmtSlip [3]; let s := took { wDev with locks := [l] } Op.MAINT_UNLOCK x;
      s.takenUp Op.MAINT_UNLOCK x = true ∧ badParam x [0xFFFF, 0, 0, 0, 0, 0] = none
        ∧ s.locks.find? (fun l => l.id == x.P0 && l.holder == some x.src) = some l ∧ l.active = a)
    ∧ (∀ z ∈ [[1, 2, 64], [2, 11, 1]], let x := mgmtSlip z; let s := took wDev Op.MAINT_PATROL x;
      s.takenUp Op.MAINT_PATROL x = true ∧ badParam x [7, 0xFFFF, 0xFF, 0xFFFFFFFF, 0, 0] = none ∧ 1 ≤ x.P0 ∧ x.P0 ≤ 3 ∧ (x.P0 = 1 → x.P1 ≤ 2)
        ∧ s.scopeBad x.P0 x.P1 1 = none ∧ 1 ≤ x.P2 ∧ x.P2 ≤ 64 ∧ (s.lockFor x Ac.PATROL x.P0 x.P1 x.P3).toOption.isSome = true)
    ∧ (∀ z ∈ [[2, 0], [4, 7]], let x := mgmtSlip z; let s := took wDev Op.MAINT_RETRAIN x;
      s.takenUp Op.MAINT_RETRAIN x = true ∧ badParam x [7, 0xFFFF, 0, 0xFFFFFFFF, 0, 0] = none ∧ 2 ≤ x.P0 ∧ x.P0 ≤ 4
        ∧ s.scopeBad x.P0 x.P1 1 = none ∧ (s.lockFor x Ac.RETRAIN x.P0 x.P1 x.P3).toOption.isSome = true)
    ∧ (let x := mgmtSlip [2 ^ 28]; let s := took (wPresent) Op.MAINT_ROW_REPAIR x;
      s.takenUp Op.MAINT_ROW_REPAIR x = true ∧ s.present x.src = true ∧ badParam x [2 ^ 29 - 1, 0, 0, 0xFFFFFFFF, 0, 0] = none
        ∧ s.stackOn (x.P0 / 2 ^ 25) = true ∧ (s.lockFor x Ac.ROW_REPAIR 2 (x.P0 / 2 ^ 25) x.P3).toOption.isSome = true ∧ s.repairBarred x.P0 = none)
    ∧ (let x := mgmtSlip [0, errUnit 3 271]; let s := took wDev Op.MAINT_RESET x;
      s.takenUp Op.MAINT_RESET x = true ∧ badParam x [3, 0xFFFF, 0, 0, 0, 0] = none ∧ resettable x.P1 = true ∧ unitValid x.P1 = true ∧ s.unitState x.P1 ≠ 0
        ∧ s.unitResetting x.P1 = false)
    ∧ (let x := mgmtSlip [1, clusterUnit 15]; let s := took wDev Op.MAINT_RESET x;
      s.takenUp Op.MAINT_RESET x = true ∧ badParam x [3, 0xFFFF, 0, 0, 0, 0] = none ∧ s.clusterOn 15 = true ∧ s.boot.clusters.contains 15 = false
        ∧ s.part (clusterPart 15) = 3)
    ∧ (let x := mgmtSlip [2, 1]; let s := took wDev Op.MAINT_RESET x;
      s.takenUp Op.MAINT_RESET x = true ∧ badParam x [3, 0xFFFF, 0, 0, 0, 0] = none ∧ x.P1 ≤ 1 ∧ s.onePartition = false ∧ s.part x.P1 = 3)
    ∧ (let x := mgmtSlip [3]; let s := took wDev Op.MAINT_RESET x; s.takenUp Op.MAINT_RESET x = true ∧ badParam x [3, 0, 0, 0, 0, 0] = none)
    ∧ (∀ z ∈ [0, 1], let x := mgmtSlip [errUnit 3 271, z]; let s := took wDev Op.MAINT_UNIT_DISABLE x; let t := s.disableUnit x.P0;
      s.takenUp Op.MAINT_UNIT_DISABLE x = true ∧ badParam x [0xFFFF, 1, 0, 0, 0, 0] = none ∧ disablable x.P0 = true ∧ unitValid x.P0 = true ∧ s.unitState x.P0 = 2
        ∧ (x.P1 = 1 ∨ s.unitCount x.P0 ≤ t.unitCount x.P0 ∨ s.unitFloor x.P0 ≤ t.unitCount x.P0))
    ∧ (let x := mgmtSlip [0x1F00000 - 1] (wStruct 0x2C03 [7]); let s := took wDev Op.MAINT_FW_UPDATE x;
      s.takenUp Op.MAINT_FW_UPDATE x = true ∧ badParam x [0xFFFFFFFF, 3, 0, 0, 0, 0] = none ∧ badStruct 0x2C03 8 x.payload = none
        ∧ x.P0 + (rdLe x.payload 4 4 - 8) ≤ 0x1F00000 ∧ (s.lockFor x Ac.FW_ACTIVATE 0 0 0).toOption.isSome = true)
    ∧ (let x := mgmtSlip; let s := took (wPresent) Op.MAINT_FW_ROLLBACK x;
      s.takenUp Op.MAINT_FW_ROLLBACK x = true ∧ s.present x.src = true ∧ badParam x [0, 0, 0, 0, 0, 0] = none ∧ (s.lockFor x Ac.FW_ACTIVATE 0 0 0).toOption.isSome = true) := by
  and_intros <;> decide +kernel

/-- An activity under lock 3. -/
def wAct (a : Nat) : Activity := { lock := 3, activity := a, scope := 2, index := 0, slip := some mgmtSlip, row := 0 }

/-- The device with a change of its bring-up side. -/
def wBoot (f : Boot → Boot) (s : State := wDev) : State := { s with boot := f s.boot }

theorem meets_MaintenanceEventsComplete :
    (∀ a ∈ [Ac.PATROL, Ac.RETRAIN, Ac.ROW_REPAIR], (wBoot fun b => { b with acts := [wAct a] }).actOf 3 a = some (wAct a) ∧ (wAct a).slip = some mgmtSlip)
    ∧ (∀ z ∈ [(2, 11), (3, 0)], wDev.takesSlips = true ∧ wDev.scopeBad z.1 z.2 0 = none ∧ (∀ l ∈ wDev.locks, l.against Ac.PATROL z.1 z.2 = false) ∧ wDev.locks.length < 32)
    ∧ (wBoot fun b => { b with clusters := [15] }).boot.clusters.contains 15 = true
    ∧ (wDev.onePartition = false ∧ wDev.part 0 = 3 ∧ wDev.part 1 = 3)
    ∧ (wDev.setPart 1 4).part 1 = 4
    ∧ (disablable (errUnit 3 271) = true ∧ unitValid (errUnit 3 271) = true)
    ∧ { wDev with floorBusy := true }.floorBusy = true
    ∧ (let j := FlashJob.control 1 true none; { wDev.flash with jobs := [j, j] }.jobs = j :: [j])
    ∧ (let j := FlashJob.image 0 [1] mgmtSlip; { wDev.flash with jobs := [j] }.jobs = j :: []) := by
  and_intros <;> decide +kernel

/-! ## Bundles, bring-up, ports, registers -/

/-- A bundle header for profile 7 of one byte of plaintext, signed by the principal whose digest is all zero. -/
def wHeader : Bytes :=
  [0x10, 0, 0, 0] ++ leBytes 4 7 ++ leBytes 2 1 ++ leBytes 2 0 ++ leBytes 4 1 ++ leBytes 8 1 ++ List.replicate 232 0

/-- The device in a state of bring-up, with that principal, the bundle's key and a trained cellar of 16 GiB, with nothing loaded in STANDALONE_READY. -/
def wLoad (st : Nat) : State :=
  { (((wDev.setFld F.BOOT_STATE_STATE st).setFld F.DEV_BUNDLE_PROFILE_ID 7).setFld F.TIER_CAP_CELLAR_GIB 16) with
    principals := [(0, { role := 7, kinds := 0, tenant := 0, digest := List.replicate 48 0 })]
    boot := { wDev.boot with bundleKey := some (7, List.replicate 32 1), staging := some { header := wHeader, size := bundleSize wHeader, bytes := [(0, 0x10)] } } }

theorem meets_BundleSlipsComplete :
    (∀ st ∈ [4, 6], let x := mgmtSlip [0] (wStruct 0x2C02 wHeader); let s := took (wLoad st) Op.MAINT_BUNDLE_LOAD x;
      x.acc = 0 ∧ s.takenUp Op.MAINT_BUNDLE_LOAD x = true ∧ badParam x [3, 0xFFFFFFFF, 0xFFFFFFFF, 0, 0, 0] = none ∧ (s.devState16 = 4 ∨ s.devState16 = 6)
        ∧ badStruct 0x2C02 264 x.payload = none ∧ slice x.payload 8 256 = wHeader ∧ s.holdBars = false ∧ bundleSize wHeader + 2 ^ 30 ≤ s.cellarBytes)
    ∧ (let x := mgmtSlip [1, bundleSize wHeader - 1] (wStruct 0x2C02 [9]); let s := took (wLoad 4) Op.MAINT_BUNDLE_LOAD x; let b := (x.payload.drop 8).take (rdLe x.payload 4 4 - 8);
      s.takenUp Op.MAINT_BUNDLE_LOAD x = true ∧ badStruct 0x2C02 8 x.payload = none ∧ s.boot.staging.isSome = true
        ∧ x.P1 + x.P2 * 2 ^ 32 + b.length ≤ bundleSize wHeader ∧ tGet [((0 : Nat), (0x10 : Byte))] (x.P1 + x.P2 * 2 ^ 32) = none)
    ∧ (∀ st ∈ [4, 6], let x := mgmtSlip [2]; let s := took (wLoad st) Op.MAINT_BUNDLE_LOAD x;
      s.takenUp Op.MAINT_BUNDLE_LOAD x = true ∧ badParam x [3, 0xFFFFFFFF, 0xFFFFFFFF, 0, 0, 0] = none ∧ s.devState16 = st ∧ s.boot.staging.isSome = true
        ∧ s.holdBars = false ∧ (wProfile.cellarFirst + wProfile.cellarUnits) * 16384 ≤ s.stagingBase (bundleSize wHeader)
        ∧ (s.lockFor x Ac.PROGRAM_RELOAD 1 1 0).toOption.isSome = true)
    ∧ (let x := mgmtSlip [3]; let s := took ((wLoad 6).setFld F.DEV_DEVID_VALID 0) Op.MAINT_BUNDLE_LOAD x;
      s.takenUp Op.MAINT_BUNDLE_LOAD x = true ∧ s.loaded = true ∧ s.sessions = [] ∧ s.member = false ∧ s.reloading = false ∧ s.restoring = false) := by
  and_intros <;> decide +kernel

/-- With a signature that verifies (whether one does is free, log entry 25), the header is accepted.  What an image opens to is free too
(log entries 61 and 97): the clauses above are the rest of what END asks. -/
theorem meets_BundleSlipsComplete_header (ok : Config.signatureOk (slice wHeader 0x18 48) (slice wHeader 0 128) (slice wHeader 0x80 96) = true) :
    (wLoad 6).headerRefused wHeader = none := by
  have a : headerValid wHeader = true := by decide +kernel
  have b : (wLoad 6).principals.any (fun p => p.2.role == 7 && p.2.digest == slice wHeader 0x18 48) = true := by decide +kernel
  have c : (wLoad 6).boot.bundleKey = some (7, List.replicate 32 1) := by decide +kernel
  have d : headerProfile wHeader = 7 := by decide +kernel
  have e : (wLoad 6).fld F.DEV_BUNDLE_PROFILE_ID = 7 := by decide +kernel
  simp [State.headerRefused, a, b, c, d, e, ok]

theorem meets_BringUpComplete :
    (∀ hold ∈ [0, 1], let s := wBoot (fun b => { b with hold := hold }) State.reset; s.boot.hold ≤ 1 ∧ s.fld F.BOOT_STATE_STATE = 0)
    ∧ (∀ hold ∈ [2, 3], (wBoot (fun b => { b with hold := hold })).boot.hold = hold)
    ∧ (let s := wDev.setFld F.BOOT_STATE_STATE 1; s.fld F.BOOT_STATE_STATE = 1 ∧ s.fld F.BOOT_STATE_WAVES < s.waveCounts.1)
    ∧ (let s := (wDev.setFld F.BOOT_STATE_STATE 1).setFld F.BOOT_STATE_WAVES 8; s.fld F.BOOT_STATE_STATE = 1 ∧ s.waveCounts.1 ≤ s.fld F.BOOT_STATE_WAVES)
    ∧ (let s := wDev.setFld F.BOOT_STATE_STATE 2; s.fld F.BOOT_STATE_STATE = 2 ∧ s.boot.hbm = false ∧ s.boot.ddr = false ∧ s.stackOn 11 = true ∧ s.channelOn 11 = true
        ∧ (2, 11) ∉ s.boot.retried)
    ∧ (let s := wBoot (fun b => { b with retried := [(2, 11)], hbm := false }) (wDev.setFld F.BOOT_STATE_STATE 2); (2, 11) ∈ s.boot.retried)
    ∧ (∀ st ∈ [2, 3], let s := wBoot (fun b => { b with hbm := true, kat := false }) (wDev.setFld F.BOOT_STATE_STATE st);
      (s.fld F.BOOT_STATE_STATE = 2 ∨ s.fld F.BOOT_STATE_STATE = 3) ∧ s.boot.hbm = true ∧ s.boot.kat = false)
    ∧ (wDev.setFld F.BOOT_STATE_STATE 7).fld F.BOOT_STATE_STATE = 7
    ∧ (wDev.takesSlips = true ∧ wDev.boot.hold = 0 ∧ wDev.onePartition = false)
    ∧ (∀ k ∈ [1, 2, 3], wDev.flag (clockBit k) = false)
    ∧ wDev.boot.hold ≠ 1 := by
  and_intros <;> decide +kernel

/-- A committed decoder over 64 GiB. -/
def wDec : Decoder := { base := 0, size := 2 ^ 36, ways := 1, gran := 256, pos := 0, committed := true, error := false }

/-- The device on a CXL link that is up, both decoders committed. -/
def wHost : State := { wDev with host := { wDev.host with up := true, cxl := true, decoders := [wDec, wDec], msixEn := true, vecs := [(3, { addr := 1, data := 2, masked := false })] } }

/-- A decoder that reaches past HBM, and the device whose one visible region is the first page of the cellar. -/
def wFarDec : Decoder := { wDec with size := 2 ^ 41 }
def wFar : State :=
  { wHost with
    profile := some { wProfile with visible := [{ space := 0, base := wHost.hbmBytes, size := 0x1000 }] }, host := { wHost.host with decoders := [wFarDec, wDec] } }

/-- A stack or channel being retrained. -/
def wTrains (scope index : Nat) (s : State) : State :=
  wBoot (fun b => { b with acts := [{ lock := 3, activity := 5, scope := scope, index := index, slip := none, row := 0 }] }) s

theorem meets_HostPortCommandsComplete :
    (trainMode true 16 4 = some true ∧ trainMode true 8 4 = some true ∧ trainMode true 4 4 = some false ∧ trainMode false 16 4 = some false
      ∧ wDev.boot.hold = 0 ∧ wDev.flag F.CXL_REFCLK_CXL_LOST = false)
    ∧ (wHost.boot.hold = 0 ∧ wHost.host.up = true ∧ wHost.cxlMem = true ∧ wHost.memActive = true)
    ∧ (∀ z ∈ [(0, 0), (0, 0xFFC0), (1, 0x10000)], wHost.host.decoders[z.1]? = some wDec ∧ wDec.offset (z.2 / 64 * 64) = some z.2
      ∧ wHost.visibleAt (z.1 == 1) z.2 = decide (z.2 < 0x10000) ∧ wHost.lineHurt (z.1 == 1) z.2 = false)
    ∧ (∀ s ∈ [wHost, wHost.updNbu 0 (fun v => { v with run := some wRun }), wTrains 2 0 wHost], s.cxlMem = true ∧ s.memActive = true ∧ s.visibleAt false 0 = true
      ∧ s.spot false 63 = .hbm (s.hdm0Hbm 63) ∧ s.hdm0Hbm 0 / 2 ^ 27 = 0 ∧ s.channelBusy false 0 = none
      ∧ (((s.nbu 0).run = none ∧ s.retraining 2 (0 / 512) = false) ∨ (s.nbu 0).run.isSome = true ∨ s.retraining 2 (0 / 512) = true))
    ∧ (∀ s ∈ [wFar, wTrains 3 (wFar.channelAt 0) wFar], s.cxlMem = true ∧ s.memActive = true ∧ wFarDec.offset (s.hbmBytes / 64 * 64) = some s.hbmBytes
      ∧ s.host.decoders[0]? = some wFarDec ∧ s.visibleAt false s.hbmBytes = true ∧ s.spot false s.hbmBytes = .cellar 0 ∧ s.lineHurt false s.hbmBytes = false
      ∧ (s.channelBusy false s.hbmBytes = none ∨ s.channelBusy false s.hbmBytes = some (s.channelAt 0)))
    ∧ (wFar.channelBusy false wFar.hbmBytes = none ∧ (wTrains 3 (wFar.channelAt 0) wFar).channelBusy false wFar.hbmBytes = some (wFar.channelAt 0))
    ∧ ((wHost.updErrs fun e => { e with poison := [(0, 0)] }).lineHurt false 0 = true ∧ (wFar.updErrs fun e => { e with poison := [(1, 0)] }).lineHurt false wFar.hbmBytes = true)
    ∧ (wHost.takesSlips = true ∧ (wHost.setFld F.BOOT_STATE_STATE 7).takesSlips = false) := by
  and_intros <;> decide +kernel

/-- An SSD that suits the press. -/
def wSsd (lba fatal : Bool) (other : Option (Option (Nat × Bool))) : Ssd :=
  { gen := 5, width := 4, capGb := 256, lba4k := lba, queues := 4, mdtsKib := 64, plp := true, fatal := fatal, other := other }

theorem meets_PressPortComplete :
    wDev.takesSlips = true ∧ (1 ≤ (wSsd true true none).gen ∧ (wSsd true true none).gen ≤ 5 ∧ (wSsd true true none).width ∈ [1, 2, 4])
      ∧ unfit (wSsd false false none) = some 1 ∧ unfit (wSsd true true none) = none ∧ (wSsd true true none).fatal = true
      ∧ (wSsd true false none).fatal = false ∧ (wSsd true false none).other = none ∧ (wSsd true false (some none)).other = some none
      ∧ (∀ op ∈ [NvmeOp.labelRead, .fatal], (wCkpt fun c => { c with press := { c.press with found := true } }).nvmeDue op = true) := by decide +kernel

theorem meets_RegisterWritesComplete :
    (tGet (withSess (wSess Ss.WAITING)).sessions ((0 : Word).toNat % 2 ^ 20) = some (wSess Ss.WAITING))
    ∧ (A.SCHED_CTRL % 8 = 0 ∧ A.SCHED_CTRL < 0x1000000 ∧ ownRow A.SCHED_CTRL = false ∧ (findReg A.SCHED_CTRL).isSome = true
      ∧ ((findReg A.SCHED_CTRL).map (fun r => r.rw != 0)) = some true ∧ A.SCHED_CTRL ≠ A.NET_PEER_CFG
      ∧ (A.SCHED_CTRL < A.ME_POOL ∨ A.ME_POOL + 24 ≤ A.SCHED_CTRL) ∧ wDev.writeBarred A.SCHED_CTRL = false
      ∧ wDev.wordOk A.SCHED_CTRL (wDev.readReg A.SCHED_CTRL) = true ∧ wDev.wordOk A.SCHED_CTRL 0 = false)
    ∧ (ownRow A.DEV_CAP0 = false ∧ ((findReg A.DEV_CAP0).map (fun r => r.rw)) = some 0)
    ∧ (wDev.kindHeld A.SCHED_CTRL 0 false = false ∧ A.SCHED_CTRL ≠ A.NBU_BCAST_SEL ∧ (wDev.setFld F.ME_CTRL_RATIO_EN 0).flag F.ME_CTRL_RATIO_EN = false)
    ∧ (let w := F.NET_PEER_CFG_KIND.put (wDev.readReg A.NET_PEER_CFG) 2; let v := F.NET_PEER_CFG_KIND.put w (F.NET_PEER_CFG_KIND.get (wDev.readReg A.NET_PEER_CFG));
      (findReg A.NET_PEER_CFG).isSome = true ∧ wDev.kindHeld A.NET_PEER_CFG w false = true ∧ wDev.writeBarred A.NET_PEER_CFG = false ∧ wDev.wordOk A.NET_PEER_CFG v = true)
    ∧ (∀ p ∈ [0, 2], let s := (wDev.setFld F.ME_CTRL_RATIO_EN 1).setFld F.DEV_CAP1_ME_COUNT 128;
      (findReg (A.ME_POOL + 8 * p)).isSome = true ∧ s.flag F.ME_CTRL_RATIO_EN = true ∧ s.writeBarred (A.ME_POOL + 8 * p) = false
        ∧ s.wordOk (A.ME_POOL + 8 * p) (s.readReg (A.ME_POOL + 8 * p)) = true)
    ∧ (({ wDev with sec := { wDev.sec with rindUntil := wDev.tick + 1 } } : State).tick < wDev.tick + 1 ∧ wDev.sec.rindUntil ≤ wDev.tick)
    ∧ (accessOk 12 4 = true ∧ ownRow A.QP_CFG = true ∧ A.QP_CFG % 8 = 0 ∧ A.QP_CFG < 0x1000000)
    ∧ (0x1000000 % 8 = 0 ∧ 0x2800000 - 8 < 0x2800000)
    ∧ ((findReg A.SCHED_CTRL).map (fun r => r.rw ||| r.prot != 0)) = some true
    ∧ accessOk 4 8 = false ∧ accessOk 0 2 = false ∧ accessOk 0 8 = true := by
  and_intros <;> decide +kernel

/-! ## The machine as a whole -/

theorem meets_StepKeepsForm : State.reset.wf = true ∧ (∃ t, step State.reset = .next t) := ⟨by decide +kernel, ⟨_, rfl⟩⟩

theorem meets_CommandsLeaveTheQueue : ∃ t, exec .HIST_CLR State.reset = .next t := ⟨_, rfl⟩

theorem meets_FusesNeverRevert : ({ State.reset with fuses := [(255, 2 ^ 63)] } : State).fuseBit 16383 = true
    ∧ ∃ t, exec .HIST_CLR { State.reset with fuses := [(255, 2 ^ 63)] } = .next t :=
  ⟨by decide +kernel, ⟨_, rfl⟩⟩

theorem meets_GenFloorNeverFalls : State.reset.wf = true ∧ ∃ t, exec .HIST_CLR State.reset = .next t := ⟨by decide +kernel, ⟨_, rfl⟩⟩

theorem meets_HostReachesOnlyVisibleRegions :
    wHost.profile = some wProfile ∧ wHost.loaded = true ∧ wHost.cxlMem = true
      ∧ (∀ dec ∈ [0, 1], wHost.host.decoders[dec]? = some wDec ∧ wDec.offset (0x10000 / 64 * 64) = some 0x10000
        ∧ (∀ r ∈ wProfile.visible.take 16, ¬(r.space = (if dec = 1 then 1 else 0) ∧ r.base ≤ 0x10000 ∧ 0x10000 < r.base + r.size))) := by decide +kernel

theorem meets_MsixMessages :
    wDev.host.up = false ∧ State.reset.host.msixEn = false
      ∧ (wHost.host.up = true ∧ wHost.host.msixEn = true ∧ wHost.vecMasked 4 = true ∧ wHost.vecMasked 3 = false ∧ wHost.host.funcMask = false)
      ∧ (2047 < 2048 ∧ 2047 ∈ (wHost.sendMsix 2047).host.pend ∧ (wHost.sendMsix 2047).host.up = true) := by decide +kernel

theorem meets_RingIndexAdvance :
    (∀ c ∈ [2 ^ 32 - 1, 0, 2], (c + 2 ^ 32 - wRing.ci) % 2 ^ 32 ≤ (wRing.pi + 2 ^ 32 - wRing.ci) % 2 ^ 32)
      ∧ (∀ c ∈ [2 ^ 32 - 2, 3], (wRing.pi + 2 ^ 32 - wRing.ci) % 2 ^ 32 < (c + 2 ^ 32 - wRing.ci) % 2 ^ 32) ∧ wRing.state ≠ 0
      ∧ (let x := hostSlip 5 0 [3, 3]; let s := took { wDev with rings := [(3, wRing)] } Op.RING_CONSUMED x;
        s.takenUp Op.RING_CONSUMED x = true ∧ x.acc = 0 ∧ badParam x [0xFFFF, 0xFFFFFFFF, 0, 0, 0, 0] = none ∧ wRing = s.ring x.P0 ∧ wRing.tenant = x.ten) := by
  decide +kernel

theorem meets_HostWritesChangeOnlyTheirBytes :
    wHost.wf = true ∧ wHost.cxlMem = true ∧ wHost.memActive = true
      ∧ (∀ dec ∈ [0, 1], wHost.host.decoders[dec]? = some wDec ∧ wDec.offset (0xFFC0 / 64 * 64) = some 0xFFC0 ∧ wHost.visibleAt (dec == 1) 0xFFC0 = true
        ∧ wHost.channelBusy (dec == 1) 0xFFC0 = none) ∧ 0xFFC0 % 64 = 0 ∧ wHost.nbus = [] ∧ wHost.boot.acts = []
      ∧ (63 + ([7] : Bytes).length ≤ 64 ∧ 0 + (List.replicate 64 (7 : Byte)).length ≤ 64) := by decide +kernel

theorem meets_AnsweringFrame :
    let x := hostSlip 5 0; (took wDev Op.NOP x).outst x.src x.tag ≠ none := by decide +kernel

theorem meets_IdleStepLetsOneTickPass : State.reset.pending = [] ∧ State.reset.ready = [] := ⟨rfl, rfl⟩

/-! ## Ill-formed commands, one for each kind of check -/

/-- Sources that do not exist, and a payload longer than PLEN. -/
theorem test_slip_refused :
    (Instr.NOP (wSlip (.pair 256) 5 0 [] [])).wf = false ∧ (Instr.CAT_VOTE (wSlip (.peer 4096) 5 0 [] [])).wf = false
      ∧ (Instr.MAINT_LOCK (wSlip (.mgmt 16) 0 0 [] [])).wf = false ∧ (Instr.ECHO { hostSlip 5 0 [] [1, 2] with plen := 1 }).wf = false
      ∧ (Instr.MGMT_SLIP_ARRIVAL { op := 0, slip := wSlip (.mgmt 16) 0 0 [] [] }).wf = false
      ∧ (Instr.SQ_FETCH_DONE 0 [{ op := 0, slip := wSlip (.pair 256) 0 0 [] [] }] true).wf = false
      ∧ (Instr.NOP (wSlip (.pair 255) 5 0 [] [])).wf = true := by decide +kernel

/-- Host queues, connections, rings and vectors out of range. -/
theorem test_host_operand_refused :
    ∀ i ∈ [Instr.QP_SQ_TAIL 256 0, .PAYLOAD_READ_DONE 256 0 [] true, .MGMT_CONNECT 16 [], .RING_PUSH_RETRY 65536 0, .RING_PUSH_ERROR_REPLY 0 0 65536,
      .RING_IRQ_GAP_END 2048, .MSIX_UNMASK 2048 0 0, .HOST_PORT_RESET 4, .HDM_ACCESS 2 0 .read, .REGISTER_WRITE 3 0 0 8 0, .REGISTER_WRITE 0 1 0 8 0,
      .PRESS_PERST_RELEASE (some { gen := 6, width := 4, capGb := 256, lba4k := true, queues := 4, mdtsKib := 64, plp := true, fatal := false, other := none }),
      .FLASH_WRITE_DONE 3 true, .HOST_RECLAIM_TIMEOUT 16], i.wf = false := by decide +kernel

/-- Sessions, devices, statuses, peers and sub-ports out of range. -/
theorem test_network_operand_refused :
    ∀ i ∈ [Instr.CTX_TIMEOUT (2 ^ 64), .MOVE_OFFER_REPLY 0 65536, .REMOVE_CONFIRM (2 ^ 20), .MIRROR_ACK 0 65536, .XCHG_ERROR_REPLY 0 0 65536, .ACK_DELAY_EXPIRY 4096,
      .PRAOL_PROBE 0 32 true, .PRAOL_OPEN 0 false 0 0 65536 { src := 0, kind := 0, dev := 0, psn := 0, leaf := [], anchor := none, genuine := true }, .RTO_EXPIRY 0 (2 ^ 32),
      .PFC_FRAME 0 8 0, .EGRESS_FRAME 8, .COMMIT_PERIOD 2, .SHELF_OBJECT_ARRIVAL 0 0 16 0 none, .KEY_QUERY 8 0, .KEY_QUERY 0 65536, .BUNDLE_KEY 0 (2 ^ 32) [],
      .SPDM_REQUEST 3 .getVersion], i.wf = false := by decide +kernel

/-- Packet fields wider than Table 11.2 gives them, and messages of no or too great a length. -/
theorem test_packet_refused :
    ∀ k ∈ [({ (⟨0, true, true, false, 2, 3, 0, 0, 0, 0, 10, 0, 0, []⟩ : Pkt) with cls := 8 }), { (⟨0, true, true, false, 2, 3, 0, 0, 0, 0, 10, 0, 0, []⟩ : Pkt) with dst := 4096 },
      { (⟨0, true, true, false, 2, 3, 0, 0, 0, 0, 10, 0, 0, []⟩ : Pkt) with psn := 2 ^ 32 }, { (⟨0, true, true, false, 2, 3, 0, 0, 0, 0, 10, 0, 0, []⟩ : Pkt) with msgLen := 0 },
      { (⟨0, true, true, false, 2, 3, 0, 0, 0, 0, 10, 0, 0, []⟩ : Pkt) with msgLen := 1048577 },
      { (⟨0, true, true, false, 2, 3, 0, 0, 0, 0, 10, 0, 0, []⟩ : Pkt) with keygen := 65536 },
      { (⟨0, true, true, false, 2, 3, 0, 0, 0, 0, 10, 0, 0, []⟩ : Pkt) with txc := 2 ^ 64 }], (Instr.PRAOL_DATA 0 false true k).wf = false := by decide +kernel

/-- Units, scopes and tiers out of range. -/
theorem test_unit_operand_refused :
    ∀ i ∈ [Instr.NBU_NOP 6144, .MERGE_RECORD 12, .REFRESH_DUE 0 2, .NBU_PARITY_ERROR 0 3 0 0, .ME_TILE_END 132 0 0 0, .ME_TILE_END 0 3 0 0, .ME_TILE_END 0 0 0 4, .ME_PARITY_ERROR 132 0 0 true, .ME_PARITY_ERROR 0 3 0 true, .HIST_SAMPLE [0, 0, 0, 0], .LINK_PARITY_ERROR 80,
      .UNCORRECTABLE_ERROR 3 0 .nothing, .CE_THRESHOLD 0 12 0 1, .CE_THRESHOLD 0 0 0 65536, .DESK_WATCHDOG_EXPIRY 8 [], .INPUT_CHATTER 3, .TRAINING_FAILED 1 0,
      .TRAINING_FAILED 2 12, .BACKGROUND_PATROL 4 0, .PARTITION_RESET 2 0 [], .CLUSTER_RESET 16 true [], .UNIT_SOFT_DISABLE 65536, .REFCLK_LOST 5,
      .TIER_QUOTA_WRITE 0 0, .TIER_QUOTA_WRITE 5 0], i.wf = false := by decide +kernel

/-! ## Single steps -/

/-- What a step answers, read in one place. -/
def after {α : Type} (f : State → α) : Host.Outcome State Fault Refusal → Option α
  | .next s => some (f s)
  | _ => none

/-- An idle step lets one tick pass (R39), and the counter wraps. -/
theorem test_idle_step : after (·.tick) (step State.reset) = some 1 ∧ after (·.tick) (step { State.reset with tick := 2 ^ 64 - 1 }) = some 0 := by decide +kernel

/-- The command in front runs, and leaves the queue. -/
theorem test_front_command :
    after (·.pending) (step { wDev with pending := [.HIST_CLR, .HWM_CLR] }) = some [.HWM_CLR] := by decide +kernel

/-- A NOP slip from pair 0 is answered OK with its TAG, RESULT 0 (R64). -/
theorem test_nop_answered :
    after (fun s => (s.slips.length, s.slips.any (fun o => o.slip.tag == 1))) (exec (.NOP (hostSlip 5 0)) (took wDev Op.NOP (hostSlip 5 0))) = some (0, false) := by
  decide +kernel

/-- In POWERING the next power wave is counted. -/
theorem test_power_wave :
    after (fun s => s.fld F.BOOT_STATE_WAVES) (exec .POWER_WAVE (wDev.setFld F.BOOT_STATE_STATE 1)) = some 1 := by decide +kernel

/-- A read of a visible line gives the bytes written to it (R119, R122). -/
theorem test_host_write_then_read :
    (after (fun s => s) (exec (.HDM_ACCESS 1 0x40 (.write 8 [7, 9])) wHost)).bind (fun s => after (fun t => t.outbox) (exec (.HDM_ACCESS 1 0x40 .read) s))
      = some [.memData ([0, 0, 0, 0, 0, 0, 0, 0, 7, 9] ++ List.replicate 54 0) false] := by decide +kernel

/-- A closed session stays in its entry, CLOSED (Table 3.4). -/
theorem test_close :
    after (fun s => (s.sess 0).state) (exec (.SESS_CLOSE (hostSlip 5 9)) (took (withSess (wSess Ss.WAITING)) Op.SESS_CLOSE (hostSlip 5 9))) = some Ss.CLOSED := by
  decide +kernel

/-- The table gives no row any bits, so no word spells a command. -/
theorem test_no_word : decodeTableWord 64 0 = none ∧ (State.reset.withFetchWord 64 0) = State.reset := by
  exact ⟨rfl, rfl⟩

end Sys2Proof.Tests
end

namespace Sys2Proof.Machine

/-! ## An access of BAR0 becomes a write of one whole register (R15) -/

/-- What a source's write of a whole word to BAR0 does, once the access is aligned and nothing waits (R15-R17, R36). -/
def State.writeWord (s : State) (a : Nat) (w : Word) (src : Nat) : Host.Outcome State Fault Refusal :=
  if ownRow a then s.ownWrite a w src
  else if 0x1000000 ≤ a ∧ a < 0x2800000 then .next (s.writeNbu a w src)
  else if a = A.NBU_BCAST_SEL ∧ src = 0 then .next s.regAccErr
  else .next (s.writeReg a w (src == 2))

theorem exec_write_of_rind_waits {s : State} (h : s.tick < s.sec.rindUntil) (bar addr size : Nat) (value : Word) :
    exec (.REGISTER_WRITE 2 bar addr size value) s = .next (s.rindLater (.write bar addr size value)) := by
  simp [exec, execREGISTER_WRITE, h]

theorem exec_write_of_bad_access {addr size : Nat} (h : accessOk addr size = false) (value : Word) (s : State) :
    exec (.REGISTER_WRITE 0 0 addr size value) s = .next (s.emit (.hostCompletion 1 0)) := by
  simp [exec, execREGISTER_WRITE, h]

theorem exec_write_bar4 {addr size : Nat} (hok : accessOk addr size = true) (hlt : addr < 0x8000) (value : Word) (s : State) :
    exec (.REGISTER_WRITE 0 4 addr size value) s = .next (s.writeBar4 addr size value) := by
  simp [exec, execREGISTER_WRITE, hok, hlt]

/-- The one law of BAR0: a good access that does not wait writes the register it falls into with the merged word. -/
theorem exec_write_bar0 {src addr size : Nat} {s : State} (hok : accessOk addr size = true)
    (hwait : src = 2 → s.sec.rindUntil ≤ s.tick) (value : Word) :
    exec (.REGISTER_WRITE src 0 addr size value) s = s.writeWord (addr / 8 * 8) (s.mergedWord addr size value) src := by
  have hnow : ¬(src = 2 ∧ s.tick < s.sec.rindUntil) := fun ⟨hsrc, hlt⟩ => absurd (hwait hsrc) (by omega)
  simp [exec, execREGISTER_WRITE, State.writeWord, hok, hnow]

theorem accessOk_eight {a : Nat} (hal : a % 8 = 0) (hlt : a < 0x2800000) : accessOk a 8 = true := by
  have hend : a + 8 ≤ 0x4000000 := by omega
  simp [accessOk, hal, hend]

theorem accessOk_four_iff {addr : Nat} : accessOk addr 4 = true ↔ addr % 4 = 0 ∧ addr + 4 ≤ 0x4000000 := by
  simp [accessOk]

/-- The register a good half access falls into may be accessed whole. -/
theorem accessOk_whole_of_half {addr : Nat} (h : accessOk addr 4 = true) : accessOk (addr / 8 * 8) 8 = true := by
  obtain ⟨_, hend⟩ := accessOk_four_iff.mp h
  simp [accessOk]
  omega

@[simp] theorem State.mergedWord_eight (s : State) (addr : Nat) (value : Word) : s.mergedWord addr 8 value = value := by
  simp [State.mergedWord]

/-- An access of all 8 bytes leaves the word written. -/
theorem exec_write_eight {src a : Nat} {s : State} (hal : a % 8 = 0) (hlt : a < 0x2800000)
    (hwait : src = 2 → s.sec.rindUntil ≤ s.tick) (value : Word) :
    exec (.REGISTER_WRITE src 0 a 8 value) s = s.writeWord a value src := by
  have hreg : a / 8 * 8 = a := by omega
  rw [exec_write_bar0 (accessOk_eight hal hlt) hwait, State.mergedWord_eight, hreg]

theorem exec_write_four {src addr : Nat} {s : State} (hok : accessOk addr 4 = true)
    (hwait : src = 2 → s.sec.rindUntil ≤ s.tick) (value : Word) :
    exec (.REGISTER_WRITE src 0 addr 4 value) s =
      exec (.REGISTER_WRITE src 0 (addr / 8 * 8) 8 (s.mergedWord addr 4 value)) s := by
  have hreg : addr / 8 * 8 / 8 * 8 = addr / 8 * 8 := by omega
  rw [exec_write_bar0 hok hwait, exec_write_bar0 (accessOk_whole_of_half hok) hwait, State.mergedWord_eight, hreg]

/-! ## Which way a whole word goes -/

/-- Every register with a row of its own lies below the NBU areas (Table 1.11). -/
theorem lt_nbu_area_of_ownRow {a : Nat} (h : ownRow a = true) : a < 0x1000000 := by
  simp only [ownRow, Bool.or_eq_true, Bool.and_eq_true, beq_iff_eq, decide_eq_true_eq] at h
  simp only [A.SESS_INSPECT_IDX, A.TIER_QUOTA, A.TIER_POOL_DATA, A.TEXT_SLOT_SEL, A.SCHED_TEN_BUDGET, A.SCHED_TEN_CTRL, A.SCHED_TEN_POLICE,
    A.SCHED_SHP_CFG, A.SCHED_RING_CFG, A.SCHED_RING_CI, A.VEC_COL_SEL, A.ERR_LOG_SEL, A.ERR_STICKY, A.CKPT_TRIG, A.NBU_BCAST_DATA,
    A.QP_SQ_BASE, A.QP_SQ_TAIL] at h
  omega

theorem ownRow_of_nbu_area {a : Nat} (h : 0x1000000 ≤ a) : ownRow a = false :=
  Bool.eq_false_iff.mpr fun hown => absurd (lt_nbu_area_of_ownRow hown) (by omega)

theorem State.writeWord_ownRow {a : Nat} (h : ownRow a = true) (s : State) (w : Word) (src : Nat) :
    s.writeWord a w src = s.ownWrite a w src := by
  simp [State.writeWord, h]

theorem State.writeWord_nbu_area {a : Nat} (hlo : 0x1000000 ≤ a) (hhi : a < 0x2800000) (s : State) (w : Word) (src : Nat) :
    s.writeWord a w src = .next (s.writeNbu a w src) := by
  simp [State.writeWord, ownRow_of_nbu_area hlo, hlo, hhi]

theorem State.writeWord_bcastSel_host (s : State) (w : Word) : s.writeWord A.NBU_BCAST_SEL w 0 = .next s.regAccErr := by
  have hown : ownRow A.NBU_BCAST_SEL = false := by decide
  have hlt : A.NBU_BCAST_SEL < 0x1000000 := by decide
  simp [State.writeWord, hown, hlt]

theorem State.writeWord_plain {a src : Nat} (hlt : a < 0x1000000) (hown : ownRow a = false)
    (hsel : ¬(a = A.NBU_BCAST_SEL ∧ src = 0)) (s : State) (w : Word) :
    s.writeWord a w src = .next (s.writeReg a w (src == 2)) := by
  have hout : ¬(0x1000000 ≤ a ∧ a < 0x2800000) := by omega
  simp only [State.writeWord, hown, hout, hsel, if_false, Bool.false_eq_true]

/-- The host's write of a whole plain register. -/
theorem exec_host_write_plain {a : Nat} (hal : a % 8 = 0) (hlt : a < 0x1000000) (hown : ownRow a = false)
    (hsel : a ≠ A.NBU_BCAST_SEL) (value : Word) (s : State) :
    exec (.REGISTER_WRITE 0 0 a 8 value) s = .next (s.writeReg a value false) := by
  rw [exec_write_eight hal (by omega) (by simp), State.writeWord_plain hlt hown (by simp [hsel])]
  rfl

/-- The Rind's write of a whole plain register. -/
theorem exec_rind_write_plain {a : Nat} {s : State} (hal : a % 8 = 0) (hlt : a < 0x1000000) (hown : ownRow a = false)
    (hnow : s.sec.rindUntil ≤ s.tick) (value : Word) :
    exec (.REGISTER_WRITE 2 0 a 8 value) s = .next (s.writeReg a value true) := by
  rw [exec_write_eight hal (by omega) (fun _ => hnow), State.writeWord_plain hlt hown (by simp)]
  rfl

/-! ## Every row of its own answers a next state -/

/-- The outcome is a next state. -/
def Answers (o : Host.Outcome State Fault Refusal) : Prop := ∃ t, o = .next t

theorem Answers.next (t : State) : Answers (.next t) := ⟨t, rfl⟩

theorem Answers.ite {c : Prop} [Decidable c] {o p : Host.Outcome State Fault Refusal} (ho : Answers o) (hp : Answers p) :
    Answers (if c then o else p) := by
  split
  · exact ho
  · exact hp

theorem execQP_SQ_TAIL_answers (q : Nat) (w : Word) (s : State) : Answers (execQP_SQ_TAIL q w s) :=
  .ite (.next _) (.ite (.next _) (.next _))

theorem execQP_RQ_HEAD_answers (q : Nat) (w : Word) (s : State) : Answers (execQP_RQ_HEAD q w s) :=
  .ite (.next _) (.ite (.next _) (.next _))

theorem execQP_ENABLE_answers (q : Nat) (w : Word) (s : State) : Answers (execQP_ENABLE q w s) :=
  .ite (.next _) (.ite (.next _) (.next _))

theorem execQP_DISABLE_answers (q : Nat) (w : Word) (s : State) : Answers (execQP_DISABLE q w s) :=
  .ite (.next _) (.next _)

theorem execSESS_INSPECT_IDX_answers (w : Word) (s : State) : Answers (execSESS_INSPECT_IDX w s) := .next _

theorem execTIER_QUOTA_WRITE_answers (tier : Nat) (w : Word) (s : State) : Answers (execTIER_QUOTA_WRITE tier w s) :=
  .ite (.next _) (.next _)

theorem execPOOL_ENTRY_ADD_answers (w : Word) (s : State) : Answers (execPOOL_ENTRY_ADD w s) :=
  .ite (.next _) (.ite (.next _) (.next _))

theorem execPOOL_ENTRY_RETIRE_answers (w : Word) (s : State) : Answers (execPOOL_ENTRY_RETIRE w s) := by
  refine .ite (.next _) ?_
  cases tGet s.pool (s.fld F.TIER_POOL_SEL_INDEX) with
  | none => exact .next _
  | some v => exact .ite (.next _) (.next _)

theorem execTEXT_SLOT_SEL_answers (w : Word) (s : State) : Answers (execTEXT_SLOT_SEL w s) := .next _

theorem execSCHED_TEN_BUDGET_WRITE_answers (w : Word) (s : State) : Answers (execSCHED_TEN_BUDGET_WRITE w s) :=
  .ite (.next _) (.next _)

theorem execLEVEL_SET_answers (w : Word) (s : State) : Answers (execLEVEL_SET w s) := .next _

theorem execSCHED_TEN_POLICE_WRITE_answers (w : Word) (s : State) : Answers (execSCHED_TEN_POLICE_WRITE w s) :=
  .ite (.next _) (.next _)

theorem execSCHED_SHP_CFG_WRITE_answers (w : Word) (s : State) : Answers (execSCHED_SHP_CFG_WRITE w s) :=
  .ite (.next _) (.next _)

theorem execRING_ENABLE_answers (w : Word) (s : State) : Answers (execRING_ENABLE w s) :=
  .ite (.ite (.next _) (.next _)) (.ite (.next _) (.next _))

theorem execRING_DISABLE_answers (w : Word) (s : State) : Answers (execRING_DISABLE w s) :=
  .ite (.next _) (.ite (.next _) (.next _))

theorem execSCHED_RING_CI_answers (w : Word) (s : State) : Answers (execSCHED_RING_CI w s) := .ite (.next _) (.next _)

theorem execVEC_COL_SEL_answers (w : Word) (s : State) : Answers (execVEC_COL_SEL w s) := by
  dsimp only [execVEC_COL_SEL]
  split
  · exact .next _
  · exact .next _

theorem execERR_LOG_SEL_answers (w : Word) (s : State) : Answers (execERR_LOG_SEL w s) := .next _

theorem execERR_STICKY_CLR_answers (w : Word) (s : State) : Answers (execERR_STICKY_CLR w s) :=
  .ite (.next _) (.ite (.next _) (.next _))

theorem execCKPT_TRIG_WRITE_answers (w : Word) (s : State) : Answers (execCKPT_TRIG_WRITE w s) := .ite (.next _) (.next _)

theorem execNBU_BCAST_DATA_answers (host : Bool) (w : Word) (s : State) : Answers (execNBU_BCAST_DATA host w s) :=
  .ite (.next _) (.next _)

/-- One term per row, in the order of the rows of `ownWrite`. -/
theorem State.ownWrite_answers (s : State) (a : Nat) (w : Word) (src : Nat) : Answers (s.ownWrite a w src) :=
  .ite (.ite (execQP_SQ_TAIL_answers _ w s) (execQP_RQ_HEAD_answers _ w s)) <|
  .ite (.ite (execQP_ENABLE_answers _ w s) (execQP_DISABLE_answers _ w s)) <|
  .ite (execSESS_INSPECT_IDX_answers w s) <|
  .ite (execTIER_QUOTA_WRITE_answers _ w s) <|
  .ite (.ite (execPOOL_ENTRY_ADD_answers w s) (execPOOL_ENTRY_RETIRE_answers w s)) <|
  .ite (execTEXT_SLOT_SEL_answers w s) <|
  .ite (execSCHED_TEN_BUDGET_WRITE_answers w s) <|
  .ite (execLEVEL_SET_answers w s) <|
  .ite (execSCHED_TEN_POLICE_WRITE_answers w s) <|
  .ite (execSCHED_SHP_CFG_WRITE_answers w s) <|
  .ite (.ite (execRING_ENABLE_answers w s) (execRING_DISABLE_answers w s)) <|
  .ite (execSCHED_RING_CI_answers w s) <|
  .ite (execVEC_COL_SEL_answers w s) <|
  .ite (execERR_LOG_SEL_answers w s) <|
  .ite (execERR_STICKY_CLR_answers w s) <|
  .ite (execCKPT_TRIG_WRITE_answers w s) (execNBU_BCAST_DATA_answers _ w s)

/-! ## A full write of a plain register (R16, R17) -/

/-- Would the word change a field of the register that only the Rind may write? -/
def State.hitsProtected (s : State) (a : Nat) (value : Word) (r : RegRow) : Bool :=
  (s.readReg a ^^^ value) &&& BitVec.ofNat 64 r.prot != 0

/-- The written bits the source may write, the others as they read. -/
def State.askedWord (s : State) (a : Nat) (value : Word) (bits : Nat) : Word :=
  (s.readReg a &&& ~~~(BitVec.ofNat 64 bits)) ||| (value &&& BitVec.ofNat 64 bits)

/-- Does the ratio controller hold the TARGET of the register's pool (R177)? -/
def State.targetHeld (s : State) (a : Nat) : Bool :=
  A.ME_POOL ≤ a && a < A.ME_POOL + 24 && s.flag F.ME_CTRL_RATIO_EN

/-- A word with TARGET as it reads, while the ratio controller holds it. -/
def State.withTarget (s : State) (a : Nat) (w : Word) : Word :=
  if s.targetHeld a then (F.ME_POOL_TARGET.at 0).put w ((F.ME_POOL_TARGET.at 0).get (s.readReg a)) else w

/-- A word with KIND as it reads, where its change falls under RO/RIND. -/
def State.withKind (s : State) (a : Nat) (w : Word) (rind : Bool) : Word :=
  if s.kindHeld a w rind then F.NET_PEER_CFG_KIND.put w (F.NET_PEER_CFG_KIND.get (s.readReg a)) else w

/-- The word an accepted write leaves. -/
def State.leftWord (s : State) (a : Nat) (value : Word) (r : RegRow) (rind : Bool) : Word :=
  s.withKind a (s.withTarget a (s.askedWord a value (rowBits r rind))) rind

/-- The test by which `writeReg` leaves a register the source may write no bit of. -/
theorem rowBits_ne_zero_iff {r : RegRow} {rind : Bool} :
    rowBits r rind ≠ 0 ↔ (r.rw == 0 && !(rind && r.prot != 0)) = false := by
  cases rind with
  | false => simp [rowBits]
  | true => simp [rowBits, Nat.or_eq_zero_iff]

section
variable {s : State} {a : Nat} {r : RegRow} {rind : Bool} (hr : findReg a = some r)
include hr

/-- A register with no field the host may write takes nothing. -/
theorem State.writeReg_of_no_writable_bit (hrw : r.rw = 0) (value : Word) :
    s.writeReg a value false = if s.hitsProtected a value r then s.regAccErr else s := by
  simp [State.writeReg, hr, hrw, State.hitsProtected]

/-- What a write does to a register with a bit the source may write (R16, R17). -/
theorem State.writeReg_of_writable_bit (hbits : rowBits r rind ≠ 0) (value : Word) :
    s.writeReg a value rind =
      if s.writeBarred a || !s.wordOk a (s.leftWord a value r rind) then s.regAccErr
      else ((if s.kindHeld a (s.withTarget a (s.askedWord a value (rowBits r rind))) rind || (!rind && s.hitsProtected a value r)
        then s.regAccErr else s).storeReg a (s.leftWord a value r rind)).writeOnly a value.toNat := by
  unfold State.writeReg
  simp only [hr, rowBits_ne_zero_iff.mp hbits]
  rfl

theorem State.writeReg_of_refused (hbits : rowBits r rind ≠ 0) {value : Word}
    (hbad : s.writeBarred a = true ∨ s.wordOk a (s.leftWord a value r rind) = false) :
    s.writeReg a value rind = s.regAccErr := by
  have hcond : (s.writeBarred a || !s.wordOk a (s.leftWord a value r rind)) = true := by simpa using hbad
  rw [State.writeReg_of_writable_bit hr hbits, if_pos hcond]

theorem State.writeReg_of_accepted (hbits : rowBits r rind ≠ 0) {value : Word} (hbar : s.writeBarred a = false)
    (hok : s.wordOk a (s.leftWord a value r rind) = true) :
    s.writeReg a value rind =
      ((if s.kindHeld a (s.withTarget a (s.askedWord a value (rowBits r rind))) rind || (!rind && s.hitsProtected a value r)
        then s.regAccErr else s).storeReg a (s.leftWord a value r rind)).writeOnly a value.toNat := by
  rw [State.writeReg_of_writable_bit hr hbits, hbar, hok]
  rfl
end

/-! ## What an accepted write leaves, case by case -/

theorem State.kindHeld_of_ne {a : Nat} (h : a ≠ A.NET_PEER_CFG) (s : State) (w : Word) (rind : Bool) :
    s.kindHeld a w rind = false := by
  simp [State.kindHeld, h]

theorem State.kindHeld_rind (s : State) (a : Nat) (w : Word) : s.kindHeld a w true = false := by
  simp [State.kindHeld]

theorem State.targetHeld_eq_false {s : State} {a : Nat}
    (h : A.ME_POOL ≤ a → a < A.ME_POOL + 24 → s.flag F.ME_CTRL_RATIO_EN = false) : s.targetHeld a = false := by
  simpa [State.targetHeld] using h

theorem State.withTarget_of_free {s : State} {a : Nat} (h : s.targetHeld a = false) (w : Word) : s.withTarget a w = w := by
  simp [State.withTarget, h]

theorem State.withTarget_of_held {s : State} {a : Nat} (h : s.targetHeld a = true) (w : Word) :
    s.withTarget a w = (F.ME_POOL_TARGET.at 0).put w ((F.ME_POOL_TARGET.at 0).get (s.readReg a)) := by
  simp [State.withTarget, h]

theorem State.withKind_of_free {s : State} {a : Nat} {w : Word} {rind : Bool} (h : s.kindHeld a w rind = false) :
    s.withKind a w rind = w := by
  simp [State.withKind, h]

theorem State.withKind_of_held {s : State} {a : Nat} {w : Word} {rind : Bool} (h : s.kindHeld a w rind = true) :
    s.withKind a w rind = F.NET_PEER_CFG_KIND.put w (F.NET_PEER_CFG_KIND.get (s.readReg a)) := by
  simp [State.withKind, h]

section
variable {s : State} {a : Nat} {value v : Word} {r : RegRow} (hr : findReg a = some r) (hbar : s.writeBarred a = false)
  (hok : s.wordOk a v = true)
include hr hbar hok

/-- The host's accepted write, KIND not held: the word is stored, and the write counted once when it would change a protected field. -/
theorem State.writeReg_host_stores (hrw : r.rw ≠ 0) (hkind : s.kindHeld a v false = false)
    (hv : s.withTarget a (s.askedWord a value r.rw) = v) :
    s.writeReg a value false =
      ((if s.hitsProtected a value r then s.regAccErr else s).storeReg a v).writeOnly a value.toNat := by
  have hbits : rowBits r false = r.rw := rfl
  have hleft : s.leftWord a value r false = v := by rw [State.leftWord, hbits, hv, State.withKind_of_free hkind]
  rw [State.writeReg_of_accepted hr (by rwa [hbits]) hbar (by rwa [hleft]), hleft, hbits, hv, hkind]
  rfl

/-- The host's write that would change a KIND it may not: counted, and the rest of the word stored. -/
theorem State.writeReg_host_keeps_kind (hrw : r.rw ≠ 0) (htarget : s.targetHeld a = false)
    (hkind : s.kindHeld a (s.askedWord a value r.rw) false = true)
    (hv : F.NET_PEER_CFG_KIND.put (s.askedWord a value r.rw) (F.NET_PEER_CFG_KIND.get (s.readReg a)) = v) :
    s.writeReg a value false = (s.regAccErr.storeReg a v).writeOnly a value.toNat := by
  have hbits : rowBits r false = r.rw := rfl
  have hleft : s.leftWord a value r false = v := by
    rw [State.leftWord, hbits, State.withTarget_of_free htarget, State.withKind_of_held hkind, hv]
  rw [State.writeReg_of_accepted hr (by rwa [hbits]) hbar (by rwa [hleft]), hleft, hbits, State.withTarget_of_free htarget, hkind]
  rfl

/-- The Rind's accepted write is never counted. -/
theorem State.writeReg_rind_stores (hbits : r.rw ||| r.prot ≠ 0) (htarget : s.targetHeld a = false)
    (hv : s.askedWord a value (r.rw ||| r.prot) = v) :
    s.writeReg a value true = (s.storeReg a v).writeOnly a value.toNat := by
  have hrow : rowBits r true = r.rw ||| r.prot := rfl
  have hleft : s.leftWord a value r true = v := by
    rw [State.leftWord, hrow, State.withTarget_of_free htarget, hv, State.withKind_of_free (State.kindHeld_rind ..)]
  rw [State.writeReg_of_accepted hr (by rwa [hrow]) hbar (by rwa [hleft]), hleft, State.kindHeld_rind]
  rfl
end

/-- `hitsProtected` in the words of the obligation: the changed bits and the protected ones have none in common, or the write is counted. -/
theorem State.ite_hitsProtected (s : State) (a : Nat) (value : Word) (r : RegRow) :
    (if s.hitsProtected a value r then s.regAccErr else s) =
      if (s.readReg a ^^^ value) &&& BitVec.ofNat 64 r.prot = 0 then s else s.regAccErr := by
  by_cases h : (s.readReg a ^^^ value) &&& BitVec.ofNat 64 r.prot = 0 <;> simp [State.hitsProtected, h]

/-! ## The registers the statement names -/

theorem exec_inspect_of_entry {value : Word} {s : State} {e : Sess} (he : tGet s.sessions (value.toNat % 2 ^ 20) = some e) :
    exec (.SESS_INSPECT_IDX value) s = .next ((List.range 32).foldl (fun t w =>
      t.setReg (A.SESS_INSPECT_DATA + 8 * w) (BitVec.ofNat 64 (rdLe (s.entryBytes (value.toNat % 2 ^ 20) e false) (8 * w) 8)))
      (s.setReg A.SESS_INSPECT_IDX (BitVec.ofNat 64 (2 ^ 63 + value.toNat % 2 ^ 20)))) := by
  change execSESS_INSPECT_IDX value s = _
  simp only [execSESS_INSPECT_IDX, he]

theorem findReg_peerCfg_rw {r : RegRow} (hr : findReg A.NET_PEER_CFG = some r) : r.rw ≠ 0 := by
  have hrow : (findReg A.NET_PEER_CFG).map (·.rw) = some 0xFC0000000FFFFFFF := by decide
  rw [hr] at hrow
  simp_all

theorem findReg_mePool_rw {p : Nat} (hp : p < 3) {r : RegRow} (hr : findReg (A.ME_POOL + 8 * p) = some r) : r.rw ≠ 0 := by
  have hrow : ∀ q < 3, (findReg (A.ME_POOL + 8 * q)).map (·.rw) = some 0xFF00000000FFFF := by decide
  have hrw := hrow p hp
  rw [hr] at hrw
  simp_all

theorem State.targetHeld_mePool {s : State} {p : Nat} (hp : p < 3) (hen : s.flag F.ME_CTRL_RATIO_EN = true) :
    s.targetHeld (A.ME_POOL + 8 * p) = true := by
  have hend : 8 * p < 24 := by omega
  simp [State.targetHeld, hen, hend]

theorem exec_host_write_peerCfg (value : Word) (s : State) :
    exec (.REGISTER_WRITE 0 0 A.NET_PEER_CFG 8 value) s = .next (s.writeReg A.NET_PEER_CFG value false) :=
  exec_host_write_plain (by decide) (by decide) (by decide) (by decide) value s

theorem exec_host_write_mePool {p : Nat} (hp : p < 3) (value : Word) (s : State) :
    exec (.REGISTER_WRITE 0 0 (A.ME_POOL + 8 * p) 8 value) s = .next (s.writeReg (A.ME_POOL + 8 * p) value false) := by
  have hplain : ∀ q < 3, (A.ME_POOL + 8 * q) % 8 = 0 ∧ A.ME_POOL + 8 * q < 0x1000000 ∧ ownRow (A.ME_POOL + 8 * q) = false
      ∧ A.ME_POOL + 8 * q ≠ A.NBU_BCAST_SEL := by decide
  obtain ⟨hal, hlt, hown, hsel⟩ := hplain p hp
  exact exec_host_write_plain hal hlt hown hsel value s

theorem mePool_ne_peerCfg {p : Nat} (hp : p < 3) : A.ME_POOL + 8 * p ≠ A.NET_PEER_CFG := by
  simp only [A.ME_POOL, A.NET_PEER_CFG]
  omega

end Sys2Proof.Machine

section
open Sys2Proof Sys2Proof.Machine

/-- Settles O49: an access of BAR0 becomes a write of one whole register (`exec_write_bar0`), which goes to the row, the NBU area or the
plain register; a plain register's write is read off `writeReg_of_writable_bit`. -/
theorem registerWritesComplete : Obligations.RegisterWritesComplete := by
  unfold Obligations.RegisterWritesComplete
  refine ⟨?inspect, ?plain, ?kind, ?target, fun _ _ value s h => exec_write_of_bad_access h value s, ?bcastSel,
    fun bar addr size value s h => exec_write_of_rind_waits h bar addr size value,
    fun _ _ value _ hok hwait => exec_write_four hok hwait value, ?ownRow, ?nbuArea, ?rind,
    fun _ _ value s hok hlt => exec_write_bar4 hok hlt value s⟩
  case inspect =>
    rintro value s i e rfl he
    exact exec_inspect_of_entry he
  case plain =>
    rintro a value w cur m s r hal hlt hown hsel hr rfl rfl rfl
    rw [exec_host_write_plain hal hlt hown hsel]
    refine ⟨fun hrw => ?_, fun hrw hkind hpool => ?_⟩
    · rw [State.writeReg_of_no_writable_bit hr hrw, State.ite_hitsProtected]
    · have hfree := State.withTarget_of_free (State.targetHeld_eq_false hpool)
      have hleft : s.leftWord a value r false = s.askedWord a value r.rw := by
        rw [State.leftWord, hfree]
        exact State.withKind_of_free hkind
      refine ⟨fun hbad => ?_, fun hbar hok => ?_⟩
      · rw [State.writeReg_of_refused (rind := false) hr hrw (by rwa [hleft])]
      · rw [State.writeReg_host_stores hr hbar hok hrw hkind (hfree _), State.ite_hitsProtected]
  case kind =>
    rintro value w cur m v s r hr rfl rfl rfl rfl hkind hbar hok
    have hfree : s.targetHeld A.NET_PEER_CFG = false := by simp [State.targetHeld, A.ME_POOL, A.NET_PEER_CFG]
    rw [exec_host_write_peerCfg,
      State.writeReg_host_keeps_kind hr hbar hok (findReg_peerCfg_rw hr) hfree hkind rfl]
  case target =>
    rintro p value w cur m v s r hp hr hen rfl rfl rfl rfl hbar hok
    rw [exec_host_write_mePool hp, State.writeReg_host_stores hr hbar hok (findReg_mePool_rw hp hr)
      (State.kindHeld_of_ne (mePool_ne_peerCfg hp) ..) (State.withTarget_of_held (State.targetHeld_mePool hp hen) _),
      State.ite_hitsProtected]
  case bcastSel =>
    intro value s
    rw [exec_write_eight (by decide) (by decide) (by simp), State.writeWord_bcastSel_host]
  case ownRow =>
    intro src a value s hal hlt hown hwait
    obtain ⟨t, ht⟩ := s.ownWrite_answers a value src
    refine ⟨t, ht, ?_⟩
    rw [exec_write_eight hal (by omega) hwait, State.writeWord_ownRow hown, ht]
  case nbuArea =>
    intro src a value s hal hlo hhi hwait
    rw [exec_write_eight hal hhi hwait, State.writeWord_nbu_area hlo hhi]
  case rind =>
    rintro a value w m s r hal hlt hown hr hnow hpool hbits rfl rfl hbar hok
    rw [exec_rind_write_plain hal hlt hown hnow,
      State.writeReg_rind_stores hr hbar hok hbits (State.targetHeld_eq_false hpool) rfl]

end

namespace Sys2Proof.Machine

/-! ## With nothing left to do, time passes (R39; log entry 1) -/

theorem step_of_idle {s : State} (hpending : s.pending = []) (hready : s.ready = []) : step s = s.passTime := by
  simp only [step, idle, hpending, hready]

/-- Whether or not the Rind's cores are being reset (R368), all that is left to do is to let a tick pass. -/
theorem State.passTime_of_none_waits {s : State} (hwaiting : s.sec.rindWaiting = []) : s.passTime = .next s.tickOver := by
  simp only [State.passTime, hwaiting, ite_self]

theorem State.trafficBack_of_none_waits {s : State} (htraffic : s.boot.traffic = []) : s.trafficBack = s := by
  have hsame : { s with boot := { s.boot with traffic := [] } } = s := by rw [← htraffic]
  simp only [State.trafficBack, htraffic, List.filter_nil, List.foldl_nil, hsame]

theorem State.tickOver_of_held {s : State} (hhold : s.boot.hold ≠ 0) : s.tickOver = s := by
  simp [State.tickOver, hhold]

theorem State.tickOver_of_released {s : State} (hhold : s.boot.hold = 0) :
    s.tickOver = ({ s with tick := (s.tick + 1) % 2 ^ 64 } : State).trafficBack := by
  simp [State.tickOver, hhold]

end Sys2Proof.Machine

section
open Sys2Proof Sys2Proof.Machine

/-- Settles O2: an idle step is `State.tickOver`, which device reset stops, and which with no host access waiting only counts. -/
theorem idleStepLetsOneTickPass : Obligations.IdleStepLetsOneTickPass := by
  unfold Obligations.IdleStepLetsOneTickPass
  intro s hpending hready hwaiting
  have hstep : step s = .next s.tickOver :=
    (step_of_idle hpending hready).trans (State.passTime_of_none_waits hwaiting)
  refine ⟨fun hreleased htraffic => ?released, fun hheld => ?held⟩
  case released =>
    have hcounts : ({ s with tick := (s.tick + 1) % 2 ^ 64 } : State).trafficBack = { s with tick := (s.tick + 1) % 2 ^ 64 } :=
      State.trafficBack_of_none_waits htraffic
    rw [hstep, State.tickOver_of_released hreleased, hcounts]
  case held => rw [hstep, State.tickOver_of_held hheld]

end

namespace Sys2Proof.Machine

/-! ## What a reply on its way leaves alone (R43, R50) -/

/-- The parts of a state that no reply on its way touches, with the register that shows the device's ID (R67). -/
structure ReplyFrame where
  slips : List Outst
  pending : List Instr
  hbm : List (Nat × Byte)
  cellar : List (Nat × Byte)
  flash : Flash
  fuses : Tbl Nat
  tenants : Tbl Tenant
  rings : Tbl Ring
  slots : Tbl SlotUse
  gens : Tbl Nat
  text : Tbl TextCtx
  shards : Tbl Shard
  cat : Cat
  locks : List Lock
  ckpt : Ckpt
  genFloor : Nat
  nbus : Tbl Nbu
  boot : Boot
  profile : Option Profile
  tick : Nat
  devIdReg : Word

/-- The parts of this state. -/
def State.replyFrame (s : State) : ReplyFrame :=
  { slips := s.slips, pending := s.pending, hbm := s.hbm, cellar := s.cellar, flash := s.flash, fuses := s.fuses,
    tenants := s.tenants, rings := s.rings, slots := s.slots, gens := s.gens, text := s.text, shards := s.shards, cat := s.cat,
    locks := s.locks, ckpt := s.ckpt, genFloor := s.genFloor, nbus := s.nbus, boot := s.boot, profile := s.profile,
    tick := s.tick, devIdReg := s.reg A.DEV_DEVID }

/-- A fold whose steps leave something of the state alone leaves it alone. -/
theorem foldl_leaves {α β : Type} {view : State → β} {f : State → α → State} (hf : ∀ s a, view (f s a) = view s) (l : List α)
    (s : State) : view (l.foldl f s) = view s := by
  induction l generalizing s with
  | nil => rfl
  | cons a l ih => rw [List.foldl_cons, ih, hf]

/-- A read of another register than the one written, whatever the form of the store. -/
theorem sGet_sErase_of_ne {α : Type} {d : Nat → α} {k j : Nat} (h : j ≠ k) (l : List (Nat × α)) : sGet d (sErase l k) j = sGet d l j := by
  induction l with
  | nil => rfl
  | cons p l ih =>
    obtain ⟨i, v⟩ := p
    unfold sErase
    split
    · rfl
    · split
      next _ hi =>
        have hik : i = k := by simpa using hi
        simp [sGet, hik, h.symm]
      next => simp only [sGet, ih]

theorem State.setReg_reg_of_ne {a b : Nat} (h : b ≠ a) (s : State) (w : Word) : (s.setReg a w).reg b = s.reg b := by
  simp only [State.reg, State.setReg, sSet]
  split
  · exact sGet_sErase_of_ne h s.regs
  · rw [sGet_sPut, if_neg h]

theorem State.setFld_replyFrame {f : Fld} (h : A.DEV_DEVID ≠ f.addr) (s : State) (v : Nat) : (s.setFld f v).replyFrame = s.replyFrame := by
  simp only [State.replyFrame, State.setFld, State.setReg_reg_of_ne h]
  rfl

theorem State.bump_replyFrame {f : Fld} (h : A.DEV_DEVID ≠ f.addr) (s : State) : (s.bump f).replyFrame = s.replyFrame :=
  State.setFld_replyFrame h s _

@[simp] theorem State.emit_replyFrame (s : State) (o : Out) : (s.emit o).replyFrame = s.replyFrame := rfl
@[simp] theorem State.wake_replyFrame (s : State) (t : Todo) : (s.wake t).replyFrame = s.replyFrame := rfl
@[simp] theorem State.setQp_replyFrame (s : State) (q : Nat) (v : Qp) : (s.setQp q v).replyFrame = s.replyFrame := rfl
@[simp] theorem State.setPeer_replyFrame (s : State) (p : Nat) (v : Peer) : (s.setPeer p v).replyFrame = s.replyFrame := rfl
@[simp] theorem State.setPort_replyFrame (s : State) (p : Nat) (v : Port) : (s.setPort p v).replyFrame = s.replyFrame := rfl
@[simp] theorem State.release_replyFrame (s : State) (why : Hold → Bool) : (s.release why).replyFrame = s.replyFrame := rfl

@[simp] theorem State.traceEv_replyFrame (s : State) (group code unit arg0 arg1 arg2 : Nat) :
    (s.traceEv group code unit arg0 arg1 arg2).replyFrame = s.replyFrame := by
  unfold State.traceEv
  split <;> rfl

/-! ### Through a peer context -/

@[simp] theorem State.sendPkt_replyFrame (s : State) (port sub peer tenant : Nat) (k : Pkt) :
    (s.sendPkt port sub peer tenant k).replyFrame = s.replyFrame :=
  (State.bump_replyFrame (by decide) _).trans rfl

@[simp] theorem State.pumpOne_replyFrame (s : State) (peer : Nat) : (s.pumpOne peer).replyFrame = s.replyFrame := by
  unfold State.pumpOne
  dsimp only
  split
  · rfl
  · split
    · rfl
    · split
      · rfl
      · rw [State.sendPkt_replyFrame]
        rfl

@[simp] theorem State.postMsg_replyFrame (s : State) (peer : Nat) (m : Msg) : (s.postMsg peer m).replyFrame = s.replyFrame :=
  (foldl_leaves (view := State.replyFrame) (fun t _ => t.pumpOne_replyFrame peer) _ _).trans rfl

@[simp] theorem State.sendPeerReply_replyFrame (s : State) (p : Nat) (m : Msg) : (s.sendPeerReply p m).replyFrame = s.replyFrame := by
  unfold State.sendPeerReply
  dsimp only
  split
  · exact s.postMsg_replyFrame p m
  · exact State.bump_replyFrame (by decide) s

/-! ### To a host pair -/

@[simp] theorem State.writeSealed_replyFrame (s : State) (kind ref addr : Nat) (b : Bytes) :
    (s.writeSealed kind ref addr b).replyFrame = s.replyFrame := by
  unfold State.writeSealed
  split <;> rfl

@[simp] theorem State.writeSpan_replyFrame (s : State) (kind owner base off : Nat) (b : Bytes) :
    (s.writeSpan kind owner base off b).replyFrame = s.replyFrame := by
  unfold State.writeSpan
  split
  · rfl
  · exact foldl_leaves (view := State.replyFrame) (fun t _ => t.writeSealed_replyFrame ..) _ _

@[simp] theorem State.writeData_replyFrame (s : State) (q : Nat) (x : Slip) (b : Bytes) :
    (s.writeData q x b).replyFrame = s.replyFrame := by
  unfold State.writeData
  dsimp only
  split
  · exact s.writeSpan_replyFrame ..
  · split <;> rfl

@[simp] theorem State.sendMsix_replyFrame (s : State) (v : Nat) : (s.sendMsix v).replyFrame = s.replyFrame := by
  unfold State.sendMsix
  repeat' split
  all_goals rfl

@[simp] theorem State.pairReply_replyFrame (s : State) (q : Nat) (r : ReplyOut) : (s.pairReply q r).replyFrame = s.replyFrame := by
  unfold State.pairReply
  dsimp only
  repeat' split
  all_goals simp

@[simp] theorem State.fetchMore_replyFrame (s : State) (q : Nat) : (s.fetchMore q).replyFrame = s.replyFrame := by
  unfold State.fetchMore
  dsimp only
  split <;> rfl

@[simp] theorem State.refetch_replyFrame (s : State) (c : Ctx) (full : Bool) : (s.refetch c full).replyFrame = s.replyFrame := by
  unfold State.refetch
  split
  · exact foldl_leaves (view := State.replyFrame) State.fetchMore_replyFrame _ _
  · split
    · exact s.fetchMore_replyFrame _
    · rfl

/-! ### Either way -/

@[simp] theorem State.countStatus_replyFrame (s : State) (st : Nat) : (s.countStatus st).replyFrame = s.replyFrame := by
  unfold State.countStatus
  split
  · exact State.bump_replyFrame (by decide) s
  · split
    · exact State.bump_replyFrame (by decide) s
    · split
      · exact State.bump_replyFrame (by decide) s
      · rfl

@[simp] theorem State.sendReply_replyFrame (s : State) (op : Nat) (x : Slip) (version : Nat) (a : Answer) :
    (s.sendReply op x version a).replyFrame = s.replyFrame := by
  unfold State.sendReply
  dsimp only
  repeat' split
  all_goals simp [State.bump_replyFrame (f := F.SLIPQ_CNT_DISCARD_COUNT) (by decide)]

@[simp] theorem State.dataError_replyFrame (s : State) (c : Ctx) : (s.dataError c).replyFrame = s.replyFrame := by
  unfold State.dataError
  split <;> rfl

@[simp] theorem State.noteFault_replyFrame (s : State) (x : Slip) (st : Nat) : (s.noteFault x st).replyFrame = s.replyFrame := by
  unfold State.noteFault
  split <;> rfl

/-! ## A slip answered -/

/-- The state with a slip no longer outstanding. -/
def State.forget (s : State) (x : Slip) : State :=
  { s with slips := s.slips.filter (fun o => !(o.slip.src == x.src && o.slip.tag == x.tag)) }

/-- An outstanding slip is answered with some status: noted, counted and sent, or its data write fails. -/
theorem State.finish_of_outst {s : State} {x : Slip} (h : s.outst x.src x.tag ≠ none) (op : Nat) (a : Answer) :
    ∃ (fails : Bool) (version : Nat) (b : Answer), s.finish op x a =
      (if fails then ((s.forget x).noteFault x b.status).dataError x.src
        else (((s.forget x).noteFault x b.status).countStatus b.status).sendReply op x version b).releaseOrder.refetch
          x.src (s.slipLoad ≥ 65536) := by
  have hout : ¬ (s.outst x.src x.tag).isNone = true := by rwa [Option.isNone_iff_eq_none]
  unfold State.finish
  rw [if_neg hout]
  exact ⟨_, _, _, rfl⟩

/-- Answering an outstanding slip forgets it; the rest is its reply's. -/
theorem State.finish_replyFrame {s : State} {x : Slip} (h : s.outst x.src x.tag ≠ none) (op : Nat) (a : Answer) :
    (s.finish op x a).replyFrame = (s.forget x).replyFrame := by
  obtain ⟨fails, version, b, hfinish⟩ := State.finish_of_outst h op a
  rw [hfinish, State.refetch_replyFrame, State.releaseOrder, State.release_replyFrame]
  cases fails with
  | true => simp
  | false => simp

theorem State.forget_outst_self (s : State) (x : Slip) : (s.forget x).outst x.src x.tag = none := by
  simp only [State.forget, State.outst, List.find?_filter, List.find?_eq_none]
  intro o _
  cases o.slip.src == x.src && o.slip.tag == x.tag <;> simp

theorem State.forget_outst_other (s : State) {x : Slip} {c : Ctx} {g : BitVec 32} (h : ¬(c = x.src ∧ g = x.tag)) :
    (s.forget x).outst c g = s.outst c g := by
  simp only [State.forget, State.outst, List.find?_filter]
  congr 1
  funext o
  cases ho : o.slip.src == c && o.slip.tag == g with
  | false => simp
  | true =>
    obtain ⟨rfl, rfl⟩ : o.slip.src = c ∧ o.slip.tag = g := by simpa using ho
    have hx : (o.slip.src == x.src && o.slip.tag == x.tag) = false := by simpa [← Bool.not_eq_true] using h
    simp [hx]

end Sys2Proof.Machine

section
open Sys2Proof Sys2Proof.Machine

/-- Settles O60: the answered slip leaves the list, and the reply touches no part of the frame. -/
theorem answeringFrame : Obligations.AnsweringFrame := by
  unfold Obligations.AnsweringFrame
  intro op x a s hout
  have hframe := State.finish_replyFrame hout op a
  have hslips : (s.finish op x a).slips = (s.forget x).slips := congrArg ReplyFrame.slips hframe
  have houtst (c : Ctx) (g : BitVec 32) : (s.finish op x a).outst c g = (s.forget x).outst c g := by
    rw [State.outst, hslips]
    rfl
  refine ⟨?_, ?_, congrArg ReplyFrame.pending hframe, congrArg ReplyFrame.hbm hframe, congrArg ReplyFrame.cellar hframe,
    congrArg ReplyFrame.flash hframe, congrArg ReplyFrame.fuses hframe, congrArg ReplyFrame.tenants hframe,
    congrArg ReplyFrame.rings hframe, congrArg ReplyFrame.slots hframe, congrArg ReplyFrame.gens hframe,
    congrArg ReplyFrame.text hframe, congrArg ReplyFrame.shards hframe, congrArg ReplyFrame.cat hframe,
    congrArg ReplyFrame.locks hframe, congrArg ReplyFrame.ckpt hframe, congrArg ReplyFrame.genFloor hframe,
    congrArg ReplyFrame.nbus hframe, congrArg ReplyFrame.boot hframe, congrArg ReplyFrame.profile hframe,
    congrArg ReplyFrame.tick hframe⟩
  · rw [houtst, State.forget_outst_self]
  · intro c g hne
    rw [houtst, State.forget_outst_other s hne]

end

namespace Sys2Proof.Machine

/-! ## Device slips that are taken up (R59, R64) -/

theorem exec_nop {x : Slip} {s : State} (hup : s.takenUp Op.NOP x = true) (hparam : badParam x [0, 0, 0, 0, 0, 0] = none) :
    exec (.NOP x) s = .next (s.finish Op.NOP x Answer.ok) := by
  change execNOP x s = _
  rw [execNOP, runSlip_takenUp hup, hparam, SlipRes.close_done]

theorem exec_identify {x : Slip} {s : State} (hup : s.takenUp Op.IDENTIFY x = true)
    (hparam : badParam x [0, 0, 0, 0, 0xFFFFFFFF, 0xFFFFFFFF] = none) :
    exec (.IDENTIFY x) s = .next (s.finish Op.IDENTIFY x
      (Answer.ok (s.reg A.DEV_ID).toNat 0 (if x.P5 = 0 then [] else s.devBytes))) := by
  have hdev : s.devReg A.DEV_ID = s.reg A.DEV_ID := rfl
  change execIDENTIFY x s = _
  rw [execIDENTIFY, runSlip_takenUp hup, hparam, SlipRes.close_done, hdev]
  simp only [beq_iff_eq]

theorem exec_echo {x : Slip} {s : State} (hup : s.takenUp Op.ECHO x = true)
    (hparam : badParam x [0, 0, 0, 0, 0xFFFFFFFF, 0xFFFFFFFF] = none) :
    exec (.ECHO x) s = .next (s.finish Op.ECHO x (Answer.ok 0 0 x.payload)) := by
  change execECHO x s = _
  rw [execECHO, runSlip_takenUp hup, hparam, SlipRes.close_done]

/-- HELLO alone on its context, of a version that meets the device's in major number 1, agrees it. -/
theorem exec_hello {x : Slip} {s : State} (hup : s.takenUp Op.HELLO x = true) (hparam : badParam x [0xFF, 0, 0, 0, 0, 0] = none)
    (halone : s.outstOf x.src ≤ 1) {agreed : Nat} (hagreed : min x.P0 (s.fld F.DEV_CAP2_SLIP_VERSION) = agreed)
    (hmajor : agreed / 16 = 1) :
    exec (.HELLO x) s = .next (({ s with versions := (x.src, agreed) :: s.versions.filter (fun v => v.1 != x.src) } : State).finish
      Op.HELLO x (Answer.mk' (if agreed < x.P0 then St.VERSION_LOWERED else St.OK) 0 agreed (s.fld F.DEV_CAP2_SLIP_VERSION))) := by
  subst hagreed
  have hone : ¬ s.outstOf x.src > 1 := by omega
  have hserved : ¬ (min x.P0 (s.fld F.DEV_CAP2_SLIP_VERSION) / 16 != 1) = true := by simp [hmajor]
  change execHELLO x s = _
  rw [execHELLO, runSlip_takenUp hup, hparam]
  dsimp only
  rw [if_neg hone, if_neg hserved, SlipRes.close_done]

end Sys2Proof.Machine

section
open Sys2Proof Sys2Proof.Machine

/-- Settles O3: each of the four is run by `runSlip_takenUp` and answered at once. -/
theorem deviceSlipsComplete : Obligations.DeviceSlipsComplete := by
  unfold Obligations.DeviceSlipsComplete
  exact fun x s => ⟨exec_nop, exec_identify, exec_echo,
    fun hup hparam halone hmajor => exec_hello hup hparam halone rfl hmajor⟩

end

namespace Sys2Proof.Machine

/-! ## Host queue pairs (R49-R52) -/

section
variable {q : Nat} {s : State}

theorem exec_sqTail_of_active {v : Word} (hactive : (s.qp q).state = 1) (hlt : F.QP_SQ_TAIL_TAIL.get v < s.sqSize q) :
    exec (.QP_SQ_TAIL q v) s = .next ((s.setQp q { s.qp q with sqTail := F.QP_SQ_TAIL_TAIL.get v }).fetchMore q) := by
  have hin : ¬ F.QP_SQ_TAIL_TAIL.get v ≥ s.sqSize q := by omega
  change execQP_SQ_TAIL q v s = _
  simp only [execQP_SQ_TAIL, hactive, hin, bne_self_eq_false, if_false, Bool.false_eq_true]

theorem exec_rqHead_of_active {v : Word} (hactive : (s.qp q).state = 1) (hlt : F.QP_RQ_HEAD_HEAD.get v < s.rqSize q)
    (hbetween : (F.QP_RQ_HEAD_HEAD.get v + s.rqSize q - (s.qp q).rqHead) % s.rqSize q ≤ s.unconsumed q) :
    exec (.QP_RQ_HEAD q v) s = .next ((s.setQp q { s.qp q with rqHead := F.QP_RQ_HEAD_HEAD.get v }).fetchMore q) := by
  change execQP_RQ_HEAD q v s = _
  simp [execQP_RQ_HEAD, hactive, hlt, hbetween]

theorem exec_fetchDone_ok (hfetching : (s.qp q).fetching ≠ 0) (entries : List OpSlip) :
    exec (.SQ_FETCH_DONE q entries true) s =
      .next (((entries.take (s.qp q).fetching).zipIdx.foldl (fun z o => z.fetched q o.1 (((s.qp q).sqHead + o.2) % s.sqSize q))
        (s.headMirror q (entries.take (s.qp q).fetching).length)).fetchMore q) := by
  change execSQ_FETCH_DONE q entries true s = _
  simp [execSQ_FETCH_DONE, hfetching]

theorem exec_fetchDone_failed (hfetching : (s.qp q).fetching ≠ 0) (entries : List OpSlip) :
    exec (.SQ_FETCH_DONE q entries false) s = .next ((s.setQp q { s.qp q with fetching := 0 }).hostError q) := by
  change execSQ_FETCH_DONE q entries false s = _
  simp [execSQ_FETCH_DONE, hfetching]

/-- Outside confidential-host mode the mirror block is written in the clear. -/
theorem State.headMirror_of_clear (hclear : s.conf = false) (n : Nat) {t : State}
    (ht : t = s.setQp q { s.qp q with
      fetching := 0, fetched := (s.qp q).fetched + n, sqHead := ((s.qp q).sqHead + n) % s.sqSize q }) :
    s.headMirror q n = t.emit (.mirror q (t.qp q).sqHead (t.qp q).rqTail) := by
  subst ht
  exact if_neg (Bool.eq_false_iff.mp hclear)

section
variable {tag : BitVec 32} {o : Outst} (hout : s.outst (.pair q) tag = some o) (hstage : o.stage = .payload) (bytes : Bytes)
include hout hstage

theorem exec_payloadRead_ok : exec (.PAYLOAD_READ_DONE q tag bytes true) s =
    .next ((s.updOutst (.pair q) tag (fun o' => { o' with
      slip := { o.slip with payload := slice bytes 0 o.slip.plen.toNat }, stage := .accepted })).wakeSlip o.op
        { o.slip with payload := slice bytes 0 o.slip.plen.toNat }) := by
  change execPAYLOAD_READ_DONE q tag bytes true s = _
  simp [execPAYLOAD_READ_DONE, hout, hstage]

theorem exec_payloadRead_failed :
    exec (.PAYLOAD_READ_DONE q tag bytes false) s = .next ((s.dropSlip (.pair q) tag).hostError q) := by
  change execPAYLOAD_READ_DONE q tag bytes false s = _
  simp [execPAYLOAD_READ_DONE, hout, hstage]
end

theorem exec_accessError_of_no_slip : exec (.HOST_ACCESS_ERROR q none) s = .next (s.hostError q) := rfl

theorem exec_accessError_of_slip {tag : BitVec 32} (hout : (s.outst (.pair q) tag).isSome = true) :
    exec (.HOST_ACCESS_ERROR q (some tag)) s = .next (s.updOutst (.pair q) tag (fun o => { o with dataFails := true })) := by
  change execHOST_ACCESS_ERROR q (some tag) s = _
  simp only [execHOST_ACCESS_ERROR, hout, if_true]

theorem exec_enable_of_valid {v : Word} (hdisabled : (s.qp q).state = 0) (hready : s.hostReady = true)
    (hvalid : s.pairValid q (v &&& BitVec.ofNat 64 (qpCfgMask + F.QP_CFG_ENABLE.mask)) = true) :
    exec (.QP_ENABLE q v) s = .next
      (({ s.setReg (A.QP_CFG + 0x40 * q) (v &&& BitVec.ofNat 64 (qpCfgMask + F.QP_CFG_ENABLE.mask)) with
          sec := { s.sec with hostUsed := true } } : State).setQp q { Qp.fresh with state := 1 }) := by
  change execQP_ENABLE q v s = _
  simp only [execQP_ENABLE, hdisabled, hready, hvalid, qpOff]
  rfl

/-- QP_DISABLE that changes no other field of QP_CFG is not counted (R17). -/
theorem exec_disable_of_same_cfg {v : Word} (hstate : (s.qp q).state ≠ 0)
    (hsame : s.reg (A.QP_CFG + 0x40 * q) &&& BitVec.ofNat 64 qpCfgMask = v &&& BitVec.ofNat 64 qpCfgMask) {t : State}
    (ht : t = (s.setFld (F.QP_CFG_ENABLE.at (0x40 * q)) 0).dropVersion (.pair q)) :
    exec (.QP_DISABLE q v) s = .next (t.setQp q { t.qp q with state := 2 }) := by
  subst ht
  change execQP_DISABLE q v s = _
  simp only [execQP_DISABLE, qpOff, hsame, beq_self_eq_true, if_true, beq_iff_eq, hstate, if_false]

theorem exec_drainDone (hdraining : (s.qp q).state = 2) (hfetched : (s.qp q).fetched = 0) (hfetching : (s.qp q).fetching = 0) :
    exec (.QP_DRAIN_DONE q) s = .next (s.setQp q { s.qp q with state := 0 }) := by
  change execQP_DRAIN_DONE q s = _
  simp [execQP_DRAIN_DONE, hdraining, hfetched, hfetching]

theorem exec_coalTimer (hcount : (s.qp q).coalCount ≠ 0) (htime : s.fld (F.QP_COAL_COAL_TIME.at (0x40 * q)) ≠ 0)
    (hpast : (s.qp q).coalSince + 10 * s.fld (F.QP_COAL_COAL_TIME.at (0x40 * q)) ≤ s.tick) :
    exec (.COAL_TIMER q) s = .next ((s.setQp q { s.qp q with coalCount := 0 }).sendMsix
      (s.fld (F.QP_CFG_MSIX_VEC.at (0x40 * q)))) := by
  change execCOAL_TIMER q s = _
  simp [execCOAL_TIMER, qpOff, hcount, htime, hpast]
end

end Sys2Proof.Machine

section
open Sys2Proof Sys2Proof.Machine

/-- Settles O4: each command of a pair takes the branch its premises open, one lemma per branch. -/
theorem hostQueueCommandsComplete : Obligations.HostQueueCommandsComplete := by
  unfold Obligations.HostQueueCommandsComplete
  exact fun q s => ⟨
    fun _ => exec_sqTail_of_active,
    fun _ => exec_rqHead_of_active,
    fun entries hfetching => ⟨⟨_, rfl, exec_fetchDone_ok hfetching entries⟩, exec_fetchDone_failed hfetching entries⟩,
    fun n hclear => ⟨_, rfl, State.headMirror_of_clear hclear n rfl⟩,
    fun _ bytes _ hout hstage => ⟨exec_payloadRead_ok hout hstage bytes, exec_payloadRead_failed hout hstage bytes⟩,
    exec_accessError_of_no_slip,
    fun _ => exec_accessError_of_slip,
    fun _ => exec_enable_of_valid,
    fun _ hstate hsame => ⟨_, rfl, exec_disable_of_same_cfg hstate hsame rfl⟩,
    exec_drainDone,
    exec_coalTimer⟩

end

namespace Sys2Proof.Machine

/-! ## Management connections, the Rind's queue and the epoch hold (R53, R58, R388) -/

section
variable {s : State}

theorem exec_mgmtArrival {o : OpSlip} {c : Nat} (hsrc : o.slip.src = .mgmt c) (hopen : (tGet s.mgmt c).isSome = true)
    (hclock : s.flag F.CXL_REFCLK_ETH0_LOST = false) : exec (.MGMT_SLIP_ARRIVAL o) s = .next (s.arrive o) := by
  change execMGMT_SLIP_ARRIVAL o s = _
  simp [execMGMT_SLIP_ARRIVAL, hsrc, hopen, hclock]

theorem exec_rindSlip_now (o : OpSlip) (hnow : s.sec.rindUntil ≤ s.tick) :
    exec (.RIND_SLIP o) s = .next (s.arrive { o with slip := { o.slip with src := .rind } }) :=
  if_neg (Nat.not_lt.mpr hnow)

theorem exec_rindSlip_later (o : OpSlip) (hreset : s.tick < s.sec.rindUntil) :
    exec (.RIND_SLIP o) s = .next (s.rindLater (.slip o)) :=
  if_pos hreset

theorem exec_mgmtConnect_of_principal {c : Nat} {cert : Bytes} {p : Nat × Principal} (htakes : s.takesSlips = true)
    (hclock : s.flag F.CXL_REFCLK_ETH0_LOST = false) (hroom : s.mgmt.length < 16) (hfree : tGet s.mgmt c = none)
    (hfind : s.principals.find? (fun p => p.2.digest == cert && 1 ≤ p.2.role && p.2.role ≤ 3) = some p) :
    exec (.MGMT_CONNECT c cert) s = .next { s with mgmt := tPut s.mgmt c { principal := p.1, role := p.2.role } } := by
  change execMGMT_CONNECT c cert s = _
  simp [execMGMT_CONNECT, htakes, hclock, hroom, hfree, hfind]

theorem exec_mgmtDisconnect {c : Nat} (hopen : (tGet s.mgmt c).isSome = true) :
    exec (.MGMT_DISCONNECT c) s = .next (s.closeMgmt c) :=
  if_pos hopen

theorem exec_epochHoldResolve : exec .EPOCH_HOLD_RESOLVE s = .next s.resolveEpoch := rfl
end

end Sys2Proof.Machine

section
open Sys2Proof Sys2Proof.Machine

/-- Settles O5: each way in takes the branch its premises open. -/
theorem slipArrivalPathsComplete : Obligations.SlipArrivalPathsComplete := by
  unfold Obligations.SlipArrivalPathsComplete
  exact fun o c cert p s => ⟨exec_mgmtArrival, exec_rindSlip_now o, exec_rindSlip_later o, exec_mgmtConnect_of_principal,
    exec_mgmtDisconnect, exec_epochHoldResolve⟩

end

namespace Sys2Proof.Machine

/-! ## Fields of a word -/

/-- A bit of a word into which a field has been put. -/
theorem Fld.put_testBit {f : Fld} {i : Nat} (hi : i < 64) (w : Word) (v : Nat) :
    (f.put w v).toNat.testBit i = if f.lo ≤ i ∧ i < f.hi + 1 then v.testBit (i - f.lo) else w.toNat.testBit i := by
  simp only [Fld.put, Fld.mask, BitVec.testBit_toNat, BitVec.getLsbD_or, BitVec.getLsbD_and, BitVec.getLsbD_not, BitVec.getLsbD_ofNat,
    Nat.testBit_mul_two_pow, Nat.testBit_two_pow_sub_one, Nat.testBit_mod_two_pow, hi, decide_true, Bool.true_and]
  by_cases hlo : f.lo ≤ i
  · by_cases hhi : i < f.hi + 1
    · have hin : i - f.lo < f.hi + 1 - f.lo := by omega
      simp [hlo, hhi, hin]
    · have hin : ¬ i - f.lo < f.hi + 1 - f.lo := by omega
      simp [hlo, hhi, hin]
  · simp [hlo]

theorem Fld.get_testBit (f : Fld) (w : Word) (i : Nat) :
    (f.get w).testBit i = (decide (i < f.hi + 1 - f.lo) && w.toNat.testBit (f.lo + i)) := by
  simp only [Fld.get, bitsOf, Nat.testBit_mod_two_pow, Nat.testBit_shiftRight]

theorem Fld.get_put_self {f : Fld} (hf : f.hi < 64) (w : Word) (v : Nat) : f.get (f.put w v) = v % 2 ^ (f.hi + 1 - f.lo) := by
  refine Nat.eq_of_testBit_eq fun i => ?_
  rw [Fld.get_testBit, Nat.testBit_mod_two_pow]
  by_cases hi : i < f.hi + 1 - f.lo
  · have hin : f.lo ≤ f.lo + i ∧ f.lo + i < f.hi + 1 := by omega
    rw [Fld.put_testBit (by omega), if_pos hin, Nat.add_sub_cancel_left]
  · simp [hi]

/-- A field above or below the one put reads as before. -/
theorem Fld.get_put_of_apart {f g : Fld} (hg : g.hi < 64) (hapart : f.hi < g.lo ∨ g.hi < f.lo) (w : Word) (v : Nat) :
    g.get (f.put w v) = g.get w := by
  refine Nat.eq_of_testBit_eq fun i => ?_
  rw [Fld.get_testBit, Fld.get_testBit]
  by_cases hi : i < g.hi + 1 - g.lo
  · have hout : ¬(f.lo ≤ g.lo + i ∧ g.lo + i < f.hi + 1) := by omega
    rw [Fld.put_testBit (by omega), if_neg hout]
  · simp [hi]

theorem State.setFld_regs_wf {s : State} (hs : Regs.wf s.regs = true) (f : Fld) (v : Nat) : Regs.wf (s.setFld f v).regs = true :=
  sSet_wf _ _ hs

theorem State.setFld_fld_self {s : State} (hs : Regs.wf s.regs = true) {f : Fld} (hf : f.hi < 64) (v : Nat) :
    (s.setFld f v).fld f = v % 2 ^ (f.hi + 1 - f.lo) := by
  have hreg : (s.setFld f v).reg f.addr = f.put (s.reg f.addr) v := (sGet_sSet _ _ _ hs).trans (if_pos rfl)
  rw [State.fld, hreg, Fld.get_put_self hf]

/-- Another field of the same register. -/
theorem State.setFld_fld_of_apart {s : State} (hs : Regs.wf s.regs = true) {f g : Fld} (haddr : g.addr = f.addr) (hg : g.hi < 64)
    (hapart : f.hi < g.lo ∨ g.hi < f.lo) (v : Nat) : (s.setFld f v).fld g = s.fld g := by
  have hreg : (s.setFld f v).reg g.addr = f.put (s.reg g.addr) v := by
    rw [haddr]
    exact (sGet_sSet _ _ _ hs).trans (if_pos rfl)
  rw [State.fld, hreg, Fld.get_put_of_apart hg hapart]
  rfl

/-! ## What messages to other devices leave of this device's place in the composition (R67, R290) -/

/-- The register that shows this device's ID, and how far it has come in joining. -/
def State.place (s : State) : Word × Nat := (s.reg A.DEV_DEVID, s.cat.joining)

theorem State.place_of_replyFrame {s t : State} (h : t.replyFrame = s.replyFrame) : t.place = s.place :=
  congrArg (fun v : ReplyFrame => (v.devIdReg, v.cat.joining)) h

theorem State.bump_place {f : Fld} (h : A.DEV_DEVID ≠ f.addr) (s : State) : (s.bump f).place = s.place :=
  State.place_of_replyFrame (State.bump_replyFrame h s)

theorem State.finish_place (s : State) (op : Nat) (x : Slip) (a : Answer) : (s.finish op x a).place = s.place := by
  by_cases hout : s.outst x.src x.tag = none
  · rw [State.finish, if_pos (by rw [hout]; rfl)]
  · have hforget : (s.forget x).place = s.place := rfl
    rw [State.place_of_replyFrame (t := s.finish op x a) (s := s.forget x) (State.finish_replyFrame hout op a), hforget]

theorem State.answerClients_place (s : State) (pick : CatClient → Bool) (a : CatClient → Answer) :
    (s.answerClients pick a).place = s.place :=
  (foldl_leaves (view := State.place) (fun t _ => t.finish_place ..) _ _).trans rfl

theorem State.failMsg_place (s : State) (m : Msg) : (s.failMsg m).place = s.place := by
  unfold State.failMsg
  split <;> rfl

theorem State.closePeer_place (s : State) (p : Nat) : (s.closePeer p).place = s.place :=
  (foldl_leaves (view := State.place) State.failMsg_place _ _).trans rfl

theorem State.openPeer_place (s : State) (p : Nat) : (s.openPeer p).place = s.place :=
  (State.place_of_replyFrame (State.sendPkt_replyFrame ..)).trans rfl

theorem State.sendMsg_place (s : State) (p : Nat) (m : Msg) : (s.sendMsg p m).place = s.place := by
  unfold State.sendMsg
  dsimp only
  split
  · exact State.place_of_replyFrame (s.postMsg_replyFrame p m)
  · split
    · rfl
    · split
      · rw [State.openPeer_place]
        rfl
      · exact s.failMsg_place m

theorem State.makeCtx_place {s t : State} {dev p : Nat} (h : s.makeCtx dev = some (p, t)) : t.place = s.place := by
  unfold State.makeCtx at h
  split at h
  · exact absurd h (by simp)
  · simp only [Option.some.injEq, Prod.mk.injEq] at h
    obtain ⟨-, rfl⟩ := h
    split
    · rfl
    · exact s.closePeer_place _

theorem State.reach_place {s t : State} {dev p : Nat} (h : s.reach dev = some (p, t)) : t.place = s.place := by
  unfold State.reach at h
  split at h
  · simp only [Option.some.injEq, Prod.mk.injEq] at h
    rw [h.2]
  · exact State.makeCtx_place h

theorem State.sendDev_place (s : State) (dev op acc tenant : Nat) (ps : List Nat) (payload : Bytes) (owner : Owner) :
    (s.sendDev dev op acc tenant ps payload owner).place = s.place := by
  unfold State.sendDev
  dsimp only
  split
  next p t hreach =>
    have hsent : (t.sendSlip p op 0 tenant acc ps payload owner).place = t.place := (State.sendMsg_place ..).trans rfl
    rw [hsent, State.reach_place hreach]
    rfl
  next =>
    rw [State.failMsg_place, State.bump_place (by decide)]
    rfl

theorem State.updCat_place {s : State} {f : Cat → Cat} (h : (f s.cat).joining = s.cat.joining) : (s.updCat f).place = s.place :=
  congrArg (Prod.mk _) h

theorem State.fetchFrom_place (s : State) (dev from_ part : Nat) : (s.fetchFrom dev from_ part).place = s.place := by
  unfold State.fetchFrom
  rw [State.updCat_place, State.bump_place (by decide), State.sendDev_place]
  split <;> rfl

/-! ## CAT_JOIN answered OK (R290) -/

/-- The state with DEV_DEVID written as an OK reply to CAT_JOIN has it. -/
def State.withId (s : State) (id : Nat) : State := (s.setFld F.DEV_DEVID_DEVICE_ID id).setFld F.DEV_DEVID_VALID 1

/-- A joining device takes the ID; what it sends and closes then leaves that as it is. -/
theorem exec_joinReply_ok {r : Reply} {s : State} (hjoining : s.cat.joining = 1) (hok : statusClass r.status.toNat ≤ 1)
    (hdev : badDev (bitsOf r.result.toNat 19 0) = false) :
    ∃ t, exec (.CAT_JOIN_REPLY r) s = .next t ∧ t.place = ((s.withId (bitsOf r.result.toNat 19 0)).reg A.DEV_DEVID, 2) := by
  change ∃ t, execCAT_JOIN_REPLY r s = .next t ∧ _
  simp only [execCAT_JOIN_REPLY, hjoining, hok, hdev]
  refine ⟨_, rfl, ?_⟩
  rw [State.fetchFrom_place, foldl_leaves (view := State.place), State.answerClients_place]
  · rfl
  · intro t q
    split
    · exact t.closePeer_place q.1
    · rfl

theorem State.withId_deviceId {s : State} (hs : Regs.wf s.regs = true) {id : Nat} (hid : id < 2 ^ 20) :
    (s.withId id).fld F.DEV_DEVID_DEVICE_ID = id := by
  have hkept : (s.withId id).fld F.DEV_DEVID_DEVICE_ID = (s.setFld F.DEV_DEVID_DEVICE_ID id).fld F.DEV_DEVID_DEVICE_ID :=
    State.setFld_fld_of_apart (f := F.DEV_DEVID_VALID) (g := F.DEV_DEVID_DEVICE_ID)
      (State.setFld_regs_wf hs ..) rfl (by decide) (by decide) 1
  rw [hkept, State.setFld_fld_self hs (by decide)]
  exact Nat.mod_eq_of_lt hid

theorem State.withId_valid {s : State} (hs : Regs.wf s.regs = true) (id : Nat) : (s.withId id).fld F.DEV_DEVID_VALID = 1 :=
  State.setFld_fld_self (f := F.DEV_DEVID_VALID) (State.setFld_regs_wf hs ..) (by decide) 1

/-- With the register file in canonical form the device is a member under its ID. -/
theorem exec_joinReply_of_canonical {r : Reply} {s : State} (hs : Regs.wf s.regs = true) (hjoining : s.cat.joining = 1)
    (hok : statusClass r.status.toNat ≤ 1) (hdev : badDev (bitsOf r.result.toNat 19 0) = false) :
    ∃ t, exec (.CAT_JOIN_REPLY r) s = .next t ∧ t.member = true ∧ t.devId = bitsOf r.result.toNat 19 0 ∧ t.cat.joining = 2 := by
  obtain ⟨t, hexec, hplace⟩ := exec_joinReply_ok hjoining hok hdev
  obtain ⟨hreg, hstage⟩ := Prod.ext_iff.mp hplace
  have hvalid : t.fld F.DEV_DEVID_VALID = 1 := (congrArg F.DEV_DEVID_VALID.get hreg).trans (State.withId_valid hs _)
  have hid : t.fld F.DEV_DEVID_DEVICE_ID = bitsOf r.result.toNat 19 0 :=
    (congrArg F.DEV_DEVID_DEVICE_ID.get hreg).trans (State.withId_deviceId hs (Nat.mod_lt _ (by decide)))
  exact ⟨t, hexec, beq_iff_eq.mpr hvalid, hid, hstage⟩

/-- A joining device whose register file lists DEV_DEVID twice, which canonical form excludes: storing the reset value, 0, removes the
first entry and uncovers the second. -/
def twiceListedJoiner : State :=
  { State.reset with regs := [(A.DEV_DEVID, 5), (A.DEV_DEVID, 5)], cat := { Cat.empty with joining := 1 } }

/-- An OK reply that gives the ID 0. -/
def joinedAsZero : Reply := { status := 0, detail := 0, epoch := 0, result := 0, result2 := 0, data := [] }

theorem twiceListedJoiner_keeps_five : (twiceListedJoiner.withId 0).fld F.DEV_DEVID_DEVICE_ID = 5 := by decide

end Sys2Proof.Machine

section
open Sys2Proof Sys2Proof.Machine

/-- Refutes O35: the clause on CAT_JOIN's OK reply has no premise that the register file is in canonical form, and without one a device
may keep an ID that is not the one it was given; with that premise the clause holds (`exec_joinReply_of_canonical`). -/
theorem not_catalogueEventsComplete : ¬ Obligations.CatalogueEventsComplete := by
  unfold Obligations.CatalogueEventsComplete
  rintro ⟨-, -, -, -, -, -, -, -, hjoin, -⟩
  obtain ⟨t, hexec, -, hdevId, -⟩ := (hjoin joinedAsZero twiceListedJoiner rfl).1 (by decide) (by decide)
  obtain ⟨u, hexec', hplace⟩ := exec_joinReply_ok (r := joinedAsZero) (s := twiceListedJoiner) rfl (by decide) (by decide)
  obtain rfl : u = t := by simpa [hexec'] using hexec
  have hfive : u.devId = 5 :=
    (congrArg (fun p : Word × Nat => F.DEV_DEVID_DEVICE_ID.get p.1) hplace).trans twiceListedJoiner_keeps_five
  exact absurd (hfive.symm.trans hdevId) (by decide)

end

namespace Sys2Proof.Machine

/-! ## What answering a slip does to the session table (R45) -/

@[simp] theorem State.traceEv_sessions (s : State) (group code unit arg0 arg1 arg2 : Nat) :
    (s.traceEv group code unit arg0 arg1 arg2).sessions = s.sessions := by
  unfold State.traceEv
  split <;> rfl

@[simp] theorem State.sendPkt_sessions (s : State) (port sub peer tenant : Nat) (k : Pkt) :
    (s.sendPkt port sub peer tenant k).sessions = s.sessions := rfl

@[simp] theorem State.pumpOne_sessions (s : State) (peer : Nat) : (s.pumpOne peer).sessions = s.sessions := by
  unfold State.pumpOne
  dsimp only
  repeat' split
  all_goals rfl

@[simp] theorem State.postMsg_sessions (s : State) (peer : Nat) (m : Msg) : (s.postMsg peer m).sessions = s.sessions :=
  (foldl_leaves (view := State.sessions) (fun t _ => t.pumpOne_sessions peer) _ _).trans rfl

@[simp] theorem State.sendPeerReply_sessions (s : State) (p : Nat) (m : Msg) : (s.sendPeerReply p m).sessions = s.sessions := by
  unfold State.sendPeerReply
  dsimp only
  split
  · exact s.postMsg_sessions p m
  · rfl

@[simp] theorem State.writeSealed_sessions (s : State) (kind ref addr : Nat) (b : Bytes) :
    (s.writeSealed kind ref addr b).sessions = s.sessions := by
  unfold State.writeSealed
  split <;> rfl

@[simp] theorem State.writeSpan_sessions (s : State) (kind owner base off : Nat) (b : Bytes) :
    (s.writeSpan kind owner base off b).sessions = s.sessions := by
  unfold State.writeSpan
  split
  · rfl
  · exact foldl_leaves (view := State.sessions) (fun t _ => t.writeSealed_sessions ..) _ _

@[simp] theorem State.writeData_sessions (s : State) (q : Nat) (x : Slip) (b : Bytes) : (s.writeData q x b).sessions = s.sessions := by
  unfold State.writeData
  dsimp only
  split
  · exact s.writeSpan_sessions ..
  · split <;> rfl

@[simp] theorem State.sendMsix_sessions (s : State) (v : Nat) : (s.sendMsix v).sessions = s.sessions := by
  unfold State.sendMsix
  repeat' split
  all_goals rfl

@[simp] theorem State.pairReply_sessions (s : State) (q : Nat) (r : ReplyOut) : (s.pairReply q r).sessions = s.sessions := by
  unfold State.pairReply
  dsimp only
  repeat' split
  all_goals simp

@[simp] theorem State.fetchMore_sessions (s : State) (q : Nat) : (s.fetchMore q).sessions = s.sessions := by
  unfold State.fetchMore
  dsimp only
  split <;> rfl

@[simp] theorem State.refetch_sessions (s : State) (c : Ctx) (full : Bool) : (s.refetch c full).sessions = s.sessions := by
  unfold State.refetch
  split
  · exact foldl_leaves (view := State.sessions) State.fetchMore_sessions _ _
  · split
    · exact s.fetchMore_sessions _
    · rfl

@[simp] theorem State.countStatus_sessions (s : State) (st : Nat) : (s.countStatus st).sessions = s.sessions := by
  unfold State.countStatus
  repeat' split
  all_goals rfl

@[simp] theorem State.sendReply_sessions (s : State) (op : Nat) (x : Slip) (version : Nat) (a : Answer) :
    (s.sendReply op x version a).sessions = s.sessions := by
  unfold State.sendReply
  dsimp only
  repeat' split
  all_goals simp

@[simp] theorem State.dataError_sessions (s : State) (c : Ctx) : (s.dataError c).sessions = s.sessions := by
  unfold State.dataError
  split <;> rfl

theorem State.noteFault_of_no_fault {status : Nat} (h : statusClass status ≠ 8) (s : State) (x : Slip) :
    s.noteFault x status = s := by
  simp [State.noteFault, h]

/-- With no data to return, what is settled of an answer is its RESULT. -/
theorem Answer.settle_status {a : Answer} (hdata : a.data = []) (op : Nat) (x : Slip) : (a.settle op x).status = a.status := by
  unfold Answer.settle
  split
  · rfl
  · simp only [hdata, List.isEmpty_nil, Bool.not_true, Bool.false_and, Bool.false_eq_true, if_false, if_true]
    split <;> rfl

/-- The status an outstanding slip is answered with: the settled one, or in its place what a revive adds (R92). -/
theorem State.finish_status_of_outst {s : State} {x : Slip} (h : s.outst x.src x.tag ≠ none) (op : Nat) (a : Answer) :
    ∃ (fails : Bool) (version : Nat) (b : Answer),
      (b.status = (a.settle op x).status ∨ b.status = St.REBUILT ∨ b.status = St.SECONDARY_USED) ∧ s.finish op x a =
      (if fails then ((s.forget x).noteFault x b.status).dataError x.src
        else (((s.forget x).noteFault x b.status).countStatus b.status).sendReply op x version b).releaseOrder.refetch
          x.src (s.slipLoad ≥ 65536) := by
  obtain ⟨o, ho⟩ := Option.ne_none_iff_exists'.mp h
  unfold State.finish
  simp only [ho, Option.isNone_some, Bool.false_eq_true, if_false]
  refine ⟨_, _, _, ?_, rfl⟩
  split
  · split
    · exact .inr (.inl rfl)
    · exact .inr (.inr rfl)
  · exact .inl rfl

/-- An answer without data whose status is no device fault leaves the session table alone. -/
theorem State.finish_sessions {a : Answer} (hdata : a.data = []) (hclass : statusClass a.status ≠ 8) (s : State) (op : Nat) (x : Slip) :
    (s.finish op x a).sessions = s.sessions := by
  by_cases hout : s.outst x.src x.tag = none
  · rw [State.finish, if_pos (by rw [hout]; rfl)]
  · obtain ⟨fails, version, b, hstatus, hfinish⟩ := State.finish_status_of_outst hout op a
    have hquiet : statusClass b.status ≠ 8 := by
      rcases hstatus with h | h | h
      · rwa [h, Answer.settle_status hdata]
      · rw [h]; decide
      · rw [h]; decide
    rw [hfinish, State.noteFault_of_no_fault hquiet, State.refetch_sessions]
    cases fails with
    | true => exact State.dataError_sessions _ _
    | false => exact (State.sendReply_sessions ..).trans (State.countStatus_sessions _ _)

/-! ## SESS_ACCESSION before the device has an ID (R69) -/

theorem State.admitBarred_of_no_devid {s : State} (hid : s.flag F.DEV_DEVID_VALID = false) : s.admitBarred = true := by
  simp [State.admitBarred, hid]

/-- What SESS_ACCESSION comes to while admission is barred: a refusal without effect, or a wait for the barrier to end. -/
def AccessionRefused (s : State) (r : SlipRes) : Prop :=
  (∃ st d, statusClass st ≠ 8 ∧ r = .no s st d) ∨ r = .hold s .barrier

theorem AccessionRefused.no {s : State} {st : Nat} (hclass : statusClass st ≠ 8) (d : Nat) : AccessionRefused s (.no s st d) :=
  .inl ⟨st, d, hclass, rfl⟩

theorem AccessionRefused.ite {s : State} {c : Prop} [Decidable c] {r q : SlipRes} (hr : AccessionRefused s r) (hq : AccessionRefused s q) :
    AccessionRefused s (if c then r else q) := by
  split
  · exact hr
  · exact hq

theorem SlipRes.close_sessions_of_refused {s : State} {r : SlipRes} (h : AccessionRefused s r) (op : Nat) (x : Slip) :
    (r.close op x).sessions = s.sessions := by
  rcases h with ⟨st, d, hclass, rfl⟩ | rfl
  · rw [SlipRes.close_no]
    exact State.finish_sessions rfl hclass s op x
  · rfl

/-- The two guards of SESS_ACCESSION on templates, as one: none from a T context, and nothing else for tenant 0xFFFF (Table 3.9, R84). -/
theorem accession_shape_ok {template : Bool} {code ten : Nat} (hcode : template = false ∨ code ≠ 1) (hten : ten ≠ 0xFFFF ∨ template = true) :
    ¬(template = true ∧ code = 1 ∨ ten = 0xFFFF ∧ template = false) := by
  cases template with
  | true => simpa using hcode
  | false => simpa using hten

theorem exec_sessAccession_busy {x : Slip} {s : State} (hup : s.takenUp Op.SESS_ACCESSION x = true)
    (hid : s.flag F.DEV_DEVID_VALID = false) (hacc : x.acc = 0) (hparam : badParam x [1, 0, 0, 0, 0, 0] = none)
    (htemplate : bitOf x.P0 0 = false ∨ s.code x.src ≠ 1) (hten : x.ten ≠ 0xFFFF ∨ bitOf x.P0 0 = true)
    (hrestore : s.restoreDue = false) (hbarring : s.barring = false) :
    exec (.SESS_ACCESSION x) s = .next (s.finish Op.SESS_ACCESSION x (Answer.st St.BUSY)) := by
  change execSESS_ACCESSION x s = _
  simp [execSESS_ACCESSION, runSlip_takenUp hup, hacc, hparam, accession_shape_ok htemplate hten, hrestore, hbarring, State.admitBarred_of_no_devid hid]

/-- One refusal per condition, in the order in which they are looked at; the last, that admission is barred, always applies. -/
theorem exec_sessAccession_refused {x : Slip} {s : State} (hup : s.takenUp Op.SESS_ACCESSION x = true)
    (hid : s.flag F.DEV_DEVID_VALID = false) :
    ∃ r, AccessionRefused s r ∧ exec (.SESS_ACCESSION x) s = .next (r.close Op.SESS_ACCESSION x) := by
  refine ⟨_, ?_, runSlip_takenUp hup _⟩
  simp only [State.admitBarred_of_no_devid hid, if_true]
  refine .ite (.no (by decide) _) ?_
  cases badParam x [1, 0, 0, 0, 0, 0] with
  | some k => exact .no (by decide) _
  | none => exact .ite (.no (by decide) _) (.ite (.no (by decide) _) (.ite (.inr rfl) (.no (by decide) _)))

end Sys2Proof.Machine

section
open Sys2Proof Sys2Proof.Machine

/-- Settles O9: without an ID admission is barred, so that every way SESS_ACCESSION goes is a refusal or a wait. -/
theorem accessionOnlyWithDeviceId : Obligations.AccessionOnlyWithDeviceId := by
  unfold Obligations.AccessionOnlyWithDeviceId
  intro x s hup hid
  refine ⟨exec_sessAccession_busy hup hid, ?_⟩
  obtain ⟨r, hrefused, hexec⟩ := exec_sessAccession_refused hup hid
  exact ⟨_, hexec, SlipRes.close_sessions_of_refused hrefused _ x⟩

end

namespace Sys2Proof.Machine

/-! ## Session slips that are taken up (Table 3.9) -/

section
variable {x : Slip} {s : State} {i : Nat} {e : Sess}

theorem exec_sessClose (hup : s.sessionUp Op.SESS_CLOSE x [0, 0, 0, 0, 0, 0] i e = true) (hopen : e.state ≠ Ss.CLOSED)
    (hstep : e.inStep = false) :
    exec (.SESS_CLOSE x) s = .next (((s.closeSess i).reclaimCheck).finish Op.SESS_CLOSE x (Answer.ok e.tlen)) := by
  change execSESS_CLOSE x s = _
  simp [execSESS_CLOSE, runSession_up hup, hopen, hstep]

theorem exec_sessQuery (hup : s.sessionUp Op.SESS_QUERY x [0, 0, 0, 0, 0xFFFFFFFF, 0xFFFFFFFF] i e = true) :
    exec (.SESS_QUERY x) s = .next (s.finish Op.SESS_QUERY x (Answer.mk' St.OK e.faultTag
      (e.state + e.resume * 2 ^ 8 + e.fault * 2 ^ 16 + e.kvLength * 2 ^ 32) 0
      (if x.P4 = 0 ∧ x.P5 = 0 then [] else s.entryBytes i e (s.code x.src == 1)))) := by
  change execSESS_QUERY x s = _
  simp [execSESS_QUERY, w32, runSession_up hup]

/-- An entry with the times a slip gives it, all ones meaning the one it has (R90). -/
def Sess.withTimes (x : Slip) (e : Sess) : Sess :=
  { e with
    ttlWait := if x.P0 = 0xFFFFFFFF then e.ttlWait else x.P0, ttlT2 := if x.P1 = 0xFFFFFFFF then e.ttlT2 else x.P1,
    ttlT3 := if x.P2 = 0xFFFFFFFF then e.ttlT3 else x.P2, ttlT4 := if x.P3 = 0xFFFFFFFF then e.ttlT4 else x.P3,
    ttlTranscript := if x.P4 = 0xFFFFFFFF then e.ttlTranscript else x.P4 }

theorem exec_sessSetTtl (hup : s.sessionUp Op.SESS_SET_TTL x [0xFFFFFFFF, 0xFFFFFFFF, 0xFFFFFFFF, 0xFFFFFFFF, 0xFFFFFFFF, 0] i e = true)
    (hopen : e.state ≠ Ss.CLOSED) {t u : State} (ht : t = s.updSess i (Sess.withTimes x))
    (hu : u = (t.updSess i (fun e => { e with deadline := t.deadlineOf e })).imageChanged i) :
    exec (.SESS_SET_TTL x) s = .next (u.finish Op.SESS_SET_TTL x (Answer.ok ((u.sess i).deadline - u.tick))) := by
  subst hu ht
  change execSESS_SET_TTL x s = _
  simp only [execSESS_SET_TTL, w32, runSession_up hup, beq_iff_eq, hopen, if_false, SlipRes.close_done]
  rfl

/-- The mask log a child at position `f` inherits, and the transcript with it, in quarter pages (R84, R185). -/
def Sess.forkLogQuarters (e : Sess) (f : Nat) : Nat :=
  cdiv (cdiv (forkTranscript f e.transcript).length 1024 * 4096 + maskBytes (e.maskLog.take
    (((maskMarks (forkTranscript f e.transcript)).filter (· != 0xFFFFF)).foldl (fun m v => max m (v + 1)) 0))) 16384

/-- Slots the partly shared pages of a fork are copied into (R83). -/
def Sess.forkSlots (e : Sess) (p : Profile) (f : Nat) : Nat := ((e.forkPages p f).2.map copySlots).foldl (· + ·) 0

theorem exec_sessFork {p : Profile} {acc ci f : Nat} (hup : s.sessionUp Op.SESS_FORK x [0xFFFFFFFF, 1, 0, 0, 0, 0] i e = true)
    (hf : f = (if x.P0 = 0xFFFFFFFF then e.kvLength else x.P0)) (hpos : 0 < f) (hle : f ≤ e.kvLength)
    (hten : x.ten = e.tenant ∨ (e.template = true ∧ e.tenant = 0xFFFF)) (htemplate : x.ten ≠ 0xFFFF ∨ bitOf x.P1 0 = true)
    (hstate : e.state = Ss.WAITING ∨ e.state = Ss.DECODE ∨ e.state = Ss.RING_FULL) (hstep : e.inStep = false)
    (hadmit : s.admitBarred = false) (hkey : s.keyMissing x.ten = none) (hp : s.profile = some p) (hnext : s.nextSession = .ok (acc, ci))
    (hrefs : ((e.forkPages p f).1.flatMap PageRef.slots).any s.refFull = false) (hslots : e.forkSlots p f ≤ s.freeT1)
    (hquota : s.quotaFits x.ten 1 (4 * e.forkSlots p f + e.forkLogQuarters f) = true) :
    exec (.SESS_FORK x) s = .next ((s.makeChild p i ci acc x.ten f (bitOf x.P1 0)).finish Op.SESS_FORK x (Answer.ok acc ci)) := by
  have htenant : (!(e.template && e.tenant == 0xFFFF) && x.ten != e.tenant) = false := by
    rcases hten with h | ⟨ht, h⟩
    · simp [h]
    · simp [ht, h]
  have hforks : (e.state == Ss.WAITING || e.state == Ss.DECODE || e.state == Ss.RING_FULL || e.state == Ss.PARKED) = true := by
    rcases hstate with h | h | h <;> simp [h]
  have hhot : e.state ≠ Ss.PARKED := by
    rcases hstate with h | h | h <;> rw [h] <;> decide
  have hin : (f == 0 || decide (f > e.kvLength)) = false := by simp; omega
  have hshape : (x.ten == 0xFFFF && !bitOf x.P1 0) = false := by
    rcases htemplate with h | h <;> simp [h]
  have hroom : ¬ s.freeT1 < e.forkSlots p f := Nat.not_lt.mpr hslots
  simp only [Sess.forkSlots, Sess.forkLogQuarters] at hroom hquota
  change execSESS_FORK x s = _
  simp only [execSESS_FORK, w32, runSession_up hup, beq_iff_eq, ← hf, htenant, hforks, hin, hshape, hadmit, hkey, hp, hhot, hstep, hnext,
    hrefs, hroom, hquota, Bool.not_true, Bool.false_eq_true, if_false, SlipRes.close_done]

theorem exec_sessAccession {acc ci : Nat} (hup : s.takenUp Op.SESS_ACCESSION x = true) (hacc : x.acc = 0)
    (hparam : badParam x [1, 0, 0, 0, 0, 0] = none)
    (htemplate : bitOf x.P0 0 = false ∨ s.code x.src ≠ 1) (hten : x.ten ≠ 0xFFFF ∨ bitOf x.P0 0 = true)
    (hrestore : s.restoreDue = false) (hbarring : s.barring = false) (hadmit : s.admitBarred = false)
    (hkey : s.keyMissing x.ten = none) (hnext : s.nextSession = .ok (acc, ci)) :
    exec (.SESS_ACCESSION x) s = .next ((s.placeSess ci Ss.ACCESSIONED (s.newSess acc x.ten (bitOf x.P0 0))).finish
      Op.SESS_ACCESSION x (Answer.ok acc ci)) := by
  change execSESS_ACCESSION x s = _
  simp [execSESS_ACCESSION, runSlip_takenUp hup, hacc, hparam, accession_shape_ok htemplate hten, hrestore, hbarring, hadmit, hkey, hnext]
end

end Sys2Proof.Machine

section
open Sys2Proof Sys2Proof.Machine

/-- Settles O6: each slip is run on its session by `runSession_up` and takes the branch its premises open. -/
theorem sessionSlipsComplete : Obligations.SessionSlipsComplete := by
  unfold Obligations.SessionSlipsComplete
  exact fun x s i e => ⟨exec_sessClose, exec_sessQuery, fun hup hopen => ⟨_, rfl, _, rfl, exec_sessSetTtl hup hopen rfl rfl⟩,
    fun _ _ _ _ => exec_sessFork, fun _ _ => exec_sessAccession⟩

end

namespace Sys2Proof.Machine

/-! ## Moves at the target and at the source (R94) -/

theorem State.sessGate_open {s : State} {x : Slip} (hrestore : s.restoreDue = false) (hreload : s.reloading = false)
    (hbarring : s.barring = false) (hfenced : s.fenced = false) (hepoch : s.epochAhead x = false) (op : Nat) :
    s.sessGate op x = none := by
  simp [State.sessGate, hrestore, hreload, hbarring, hfenced, hepoch]

section
variable {x : Slip} {s : State} {i : Nat} {e : Sess} {m : Move}

theorem exec_moveOffer {p : Profile} (hup : s.takenUp Op.SESS_MOVE_OFFER x = true) (hacc : x.acc ≠ 0)
    (hgate : s.sessGate Op.SESS_MOVE_OFFER x = none) (hparam : badParam x [0xFFFFF, 15, 0, 0, 0, 0] = none)
    (hresume : bitsOf x.P1 3 0 = Ss.PARKED ∨ bitsOf x.P1 3 0 = Ss.TRANSCRIPT_ONLY) (hstruct : badStruct 0x0410 264 x.payload = none)
    (he : e = Sess.ofEntry (x.payload.drop 8) (bitsOf x.P1 3 0)) (hsame : e.accession = x.acc) (hten : e.tenant = x.ten)
    (hnew : s.findSess x.acc = none) (hkey : s.keyMissing x.ten = none) (hp : s.profile = some p)
    (halike : ∀ d, tGet s.cat.devices (bitsOf x.P0 19 0) = some d → d.profile = p.id) (hi : s.newIndex = some i)
    (hquota : ∀ t ∈ [2, 3, 4], s.quotaFits e.tenant t ((s.offerCharge p e).getD (t - 2) 0) = true)
    (hm : m = { accession := x.acc, peerDev := bitsOf x.P0 19 0, resume := bitsOf x.P1 3 0, shelfGen := e.shelfGen,
                remain := rdLe x.payload (8 + 0x68) 8, phase := 3 })
    {t : State} (ht : t = (s.setSess i { e with entered := s.tick }).setImg i (s.offerCharge p e)) :
    exec (.SESS_MOVE_OFFER x) s =
      .next (({ t with moves := tPut t.moves i m } : State).finish Op.SESS_MOVE_OFFER x (Answer.ok 0 i)) := by
  subst ht hm
  have hkept : (bitsOf x.P1 3 0 != Ss.PARKED && bitsOf x.P1 3 0 != Ss.TRANSCRIPT_ONLY) = false := by
    rcases hresume with h | h <;> simp [h]
  have hnamed : (e.accession != x.acc || e.tenant != x.ten) = false := by simp [hsame, hten]
  have hcharges : [2, 3, 4].find? (fun t => !s.quotaFits e.tenant t ((s.offerCharge p e).getD (t - 2) 0)) = none := by
    simpa [List.find?_eq_none] using hquota
  change execSESS_MOVE_OFFER x s = _
  simp only [execSESS_MOVE_OFFER, runSlip_takenUp hup, beq_iff_eq, hacc, hgate, hparam, hkept, hstruct, ← he, hnamed, hnew, hkey, hp, hi,
    hcharges, Bool.false_eq_true, if_false]
  cases hd : tGet s.cat.devices (bitsOf x.P0 19 0) with
  | none => rfl
  | some d =>
    simp only [halike d hd, bne_self_eq_false, Bool.false_eq_true, decide_false, if_false]
    rfl

theorem exec_moveCommit (hup : s.takenUp Op.SESS_MOVE_COMMIT x = true) (hacc : x.acc ≠ 0) (hfenced : s.fenced = false)
    (hgate : s.sessGate Op.SESS_MOVE_COMMIT x = none) (hmove : s.moveOf x.acc true = some (i, m)) (hten : x.ten = (s.sess i).tenant)
    (hpart : s.partDown i = false) (hparam : badParam x [0xFFFFFFFF, 0, 0, 0, 0, 0] = none) (hgen : x.P0 = m.shelfGen) {t : State}
    (ht : t = ({ s with moves := tDel s.moves i, shelf := s.shelf.map (fun (o : ShelfObj) =>
      if o.accession == x.acc && !o.own then { o with own := true } else o) } : State).enter i m.resume) :
    exec (.SESS_MOVE_COMMIT x) s =
      .next ((t.updSess i (fun e => { e with deadline := t.tick + m.remain })).finish Op.SESS_MOVE_COMMIT x (Answer.ok x.acc)) := by
  subst ht
  change execSESS_MOVE_COMMIT x s = _
  simp only [execSESS_MOVE_COMMIT, w32, runSlip_takenUp hup, beq_iff_eq, bne_iff_ne, ne_eq, hacc, hfenced, hgate, hmove, hten, hpart, hparam, hgen,
    not_true_eq_false, Bool.false_eq_true, if_false, SlipRes.close_done]

theorem exec_moveLapse {acc : Nat} (hmove : s.moveOf acc true = some (i, m)) (hpast : (s.sess i).entered + 10 ^ 9 ≤ s.tick) :
    exec (.MOVE_RESERVATION_LAPSE acc) s = .next { (s.setImg i [0, 0, 0]).freeSess i with moves := tDel s.moves i } := by
  have hnow : ¬ s.tick < (s.sess i).entered + 10 ^ 9 := Nat.not_lt.mpr hpast
  change execMOVE_RESERVATION_LAPSE acc s = _
  simp only [execMOVE_RESERVATION_LAPSE, hmove, hnow, if_false]

section
variable {acc : Nat} (hmove : s.moveOf acc false = some (i, m)) (status : Nat)
include hmove

theorem exec_moveOfferReply (hphase : m.phase = 0) :
    exec (.MOVE_OFFER_REPLY acc status) s = .next (if statusClass status ≤ 1 then s.registerMove i m else s.moveFailed i m) := by
  change execMOVE_OFFER_REPLY acc status s = _
  simp only [execMOVE_OFFER_REPLY, hmove, hphase, bne_self_eq_false, Bool.false_eq_true, if_false, apply_ite Host.Outcome.next]

theorem exec_moveCommitReply (hphase : m.phase = 2) :
    exec (.MOVE_COMMIT_REPLY acc status) s = .next (if statusClass status ≤ 1 then s.moveDone i m else s.moveFailed i m) := by
  change execMOVE_COMMIT_REPLY acc status s = _
  simp only [execMOVE_COMMIT_REPLY, hmove, hphase, bne_self_eq_false, Bool.false_eq_true, if_false, apply_ite Host.Outcome.next]
end
end

end Sys2Proof.Machine

section
open Sys2Proof Sys2Proof.Machine

/-- Settles O8: at the target nothing bars the slip (`State.sessGate_open`) and each takes the branch its premises open; at the source
a reply goes by its class. -/
theorem moveCommandsComplete : Obligations.MoveCommandsComplete := by
  unfold Obligations.MoveCommandsComplete
  intro s
  refine ⟨?offer, ?commit, fun _ _ _ => exec_moveLapse, fun _ status _ _ hmove => exec_moveOfferReply hmove status,
    fun _ status _ _ hmove => exec_moveCommitReply hmove status⟩
  case offer =>
    intro x p i e m hup hacc hrestore hreload hbarring hfenced hepoch hparam hresume hstruct he hsame hten hnew hkey hp halike hi hquota hm
    exact ⟨_, rfl, exec_moveOffer hup hacc (State.sessGate_open hrestore hreload hbarring hfenced hepoch _) hparam hresume hstruct he hsame
      hten hnew hkey hp halike hi hquota hm rfl⟩
  case commit =>
    intro x i m hup hacc hrestore hreload hbarring hfenced hepoch hmove hten hpart hparam hgen
    exact ⟨_, rfl, exec_moveCommit hup hacc hfenced (State.sessGate_open hrestore hreload hbarring hfenced hepoch _) hmove hten hpart
      hparam hgen rfl⟩

end

namespace Sys2Proof.Machine

/-! ## Expiries (R79, R90, R91) -/

section
variable {acc i : Nat} {e : Sess} {s : State} (hfind : s.findSess acc = some (i, e))
include hfind

theorem exec_expiryWait_closes (hdue : s.due e = true) (htext : s.textOpen i = false) (hbarring : s.barring = false)
    (hstate : e.state = Ss.ACCESSIONED) :
    exec (.EXPIRY_TTL_WAIT acc) s = .next ((s.closeSess i).bump F.SESS_CNT_EXPIRE_COUNT) := by
  change execEXPIRY_TTL_WAIT acc s = _
  simp [execEXPIRY_TTL_WAIT, hfind, hdue, htext, hbarring, hstate]

theorem exec_expiryWait_parks {u : State} (hdue : s.due e = true) (htext : s.textOpen i = false) (hbarring : s.barring = false)
    (hstate : e.state = Ss.WAITING) (hdown : s.flag F.TIER_CTRL_DOWN_EN = true) (hfree : s.parkBarred i = false) (hfenced : s.fenced = false)
    (hpark : (s.abandonCommit i).parkFirst i 1 = (u, none)) :
    exec (.EXPIRY_TTL_WAIT acc) s = .next (u.bump F.SESS_CNT_EXPIRE_COUNT) := by
  have hother : (Ss.WAITING == Ss.ACCESSIONED) = false := rfl
  change execEXPIRY_TTL_WAIT acc s = _
  simp [execEXPIRY_TTL_WAIT, hfind, hdue, htext, hbarring, hstate, hother, hdown, hfree, hfenced, hpark]

theorem exec_expiryTier (hstate : e.state = Ss.PARKED) (hdue : s.due e = true) (hbarring : s.barring = false)
    (hdown : s.flag F.TIER_CTRL_DOWN_EN = true) (hfenced : s.fenced = false) (hcommit : tGet s.commits i = none)
    (hrevive : tGet s.revives i = none) : exec (.EXPIRY_TIER acc) s = .next ((s.beginDown i).bump F.SESS_CNT_EXPIRE_COUNT) := by
  change execEXPIRY_TIER acc s = _
  simp [execEXPIRY_TIER, hfind, hstate, hdue, hbarring, hdown, hfenced, hcommit, hrevive]

theorem exec_expiryTranscript (hstate : e.state = Ss.TRANSCRIPT_ONLY) (hdue : s.due e = true) (hbarring : s.barring = false)
    (hcommit : tGet s.commits i = none) (hrevive : tGet s.revives i = none) :
    exec (.EXPIRY_TRANSCRIPT acc) s = .next (((s.closeSess i).reclaimCheck).bump F.SESS_CNT_EXPIRE_COUNT) := by
  change execEXPIRY_TRANSCRIPT acc s = _
  simp [execEXPIRY_TRANSCRIPT, hfind, hstate, hdue, hbarring, hcommit, hrevive]

theorem exec_closedHoldExpiry (hstate : e.state = Ss.CLOSED) (hdue : s.due e = true) (hbarring : s.barring = false) :
    exec (.CLOSED_HOLD_EXPIRY acc) s = .next (s.freeSess i) := by
  change execCLOSED_HOLD_EXPIRY acc s = _
  simp [execCLOSED_HOLD_EXPIRY, hfind, hstate, hdue, hbarring]

theorem exec_preemptCopyDone (hstate : e.state = Ss.PREEMPTED) (hpages : e.pages ≠ []) :
    exec (.PREEMPT_COPY_DONE acc) s =
      .next ((s.dropPages i).updSess i (fun e => { e with tier := ((e.down.map (·.tier)).head?).getD e.holderTier1 })) := by
  change execPREEMPT_COPY_DONE acc s = _
  simp [execPREEMPT_COPY_DONE, hfind, hstate, hpages]
end

/-! ## The commit period (R189) and the reclaim of a lent region (R200) -/

theorem exec_commitPeriod {s : State} {p : Profile} {part : Nat} {hot : List (Nat × Sess)} (hp : s.profile = some p)
    (hripen : s.flag F.TIER_CTRL_RIPEN_EN = true) (hfenced : s.fenced = false)
    (hhot : hot = s.sessions.filter (fun q => s.home q.1 == part && !q.2.away
      && (q.2.state == Ss.PREFILL || q.2.state == Ss.DECODE || q.2.state == Ss.WAITING || q.2.state == Ss.RING_FULL)
      && (tGet s.commits q.1).isNone && s.uncopied p q.2)) :
    exec (.COMMIT_PERIOD part) s = .next (hot.foldl (fun s q => match p.parkPath.head? with
      | none => s
      | some t => if (s.tryCommit q.1 0 t false).2.isSome then s.bump F.TIER_CNT_QUOTA_WAIT_COUNT else (s.tryCommit q.1 0 t false).1) s) := by
  subst hhot
  change execCOMMIT_PERIOD part s = _
  simp only [execCOMMIT_PERIOD, hp, hripen, hfenced]
  rfl

theorem exec_hostReclaimTimeout {s t : State} {region : Nat} {w : List Outst} (ht : t = s.reclaimCheck)
    (hw : w = t.slips.filter (fun o => o.op == Op.TIER_RECLAIM_HOST && o.slip.P0 == region && o.stage == .waiting)) :
    exec (.HOST_RECLAIM_TIMEOUT region) s = .next (w.foldl (fun s o => s.finish Op.TIER_RECLAIM_HOST o.slip (Answer.st St.BUSY
      (((t.regionUse region).map (fun u => cdiv u.2 4)).foldl (· + ·) 0))) (t.dropLocks (fun l => l.activity == Ac.HOST_RECLAIM && l.auto))) := by
  subst hw ht
  rfl

/-! ## Readmission (R89) -/

/-- The session a readmission takes of two: the one that entered PREEMPTED first. -/
def earlierEntered (x y : Nat × Sess) : Nat × Sess := if y.2.entered < x.2.entered then y else x

/-- A choice between two, made along a list, is of the list. -/
theorem foldl_choice_mem {α : Type} {f : α → α → α} (hf : ∀ x y, f x y = x ∨ f x y = y) (l : List α) (a : α) :
    l.foldl f a ∈ a :: l := by
  induction l generalizing a with
  | nil => exact List.mem_cons_self
  | cons b l ih =>
    have hmem : (b :: l).foldl f a ∈ f a b :: l := ih (f a b)
    rcases hf a b with h | h
    · rw [h] at hmem
      exact List.cons_subset_cons a (List.subset_cons_self b l) hmem
    · rw [h] at hmem
      exact List.mem_cons_of_mem a hmem

theorem earlierEntered_eq (x y : Nat × Sess) : earlierEntered x y = x ∨ earlierEntered x y = y := by
  unfold earlierEntered
  split
  · exact .inr rfl
  · exact .inl rfl

/-- The copies of a session that may be readmitted are down: none of its pages is in T1. -/
theorem State.pages_of_readmissible {s : State} {e : Sess} (h : s.readmissible e = true) : e.pages = [] := by
  simp only [State.readmissible, Bool.and_eq_true, List.isEmpty_iff] at h
  obtain ⟨⟨_, hpages⟩, _⟩ := h
  exact hpages

/-- Whichever list a readmission chooses from, its choice is readmissible. -/
theorem State.readmissible_of_first {s : State} {i : Nat} {e : Sess} {all ahead l : List (Nat × Sess)} {a : Nat × Sess}
    (hall : all = s.sessions.filter (fun q => s.readmissible q.2)) (hahead : ahead = all.filter (fun q => s.stranded q.2))
    (hlist : (if ahead.isEmpty then all else ahead) = a :: l) (hfirst : (i, e) = l.foldl earlierEntered a) : s.readmissible e = true := by
  have hmem : (i, e) ∈ (if ahead.isEmpty then all else ahead) := by
    rw [hlist, hfirst]
    exact foldl_choice_mem earlierEntered_eq l a
  have hin : (i, e) ∈ all := by
    split at hmem
    · exact hmem
    · rw [hahead] at hmem
      exact List.mem_of_mem_filter hmem
  rw [hall] at hin
  exact (List.mem_filter.mp hin).2

theorem exec_readmit {s u : State} {i n : Nat} {e : Sess} {objs : List (Nat × Nat)} {r : Revive} {all ahead l : List (Nat × Sess)} {a : Nat × Sess}
    (hbarring : s.barring = false) (hall : all = s.sessions.filter (fun q => s.readmissible q.2))
    (hahead : ahead = all.filter (fun q => s.stranded q.2)) (hroom : s.fld F.TIER_WMARK_HIGH ≤ s.freeT1 ∨ ahead ≠ [])
    (hlist : (if ahead.isEmpty then all else ahead) = a :: l) (hfirst : (i, e) = l.foldl earlierEntered a)
    (hobjs : readmitObjects e = (objs, n)) (hslots : n ≤ s.freeT1) (hquota : s.quotaFits e.tenant 1 (4 * n) = true)
    (hr : r = { Revive.start 2 e.kvLength s.devId with asked := [], head := e.manifest, stage := 2, readmit := true, lostPos := none })
    (hreserve : ({ s with revives := tPut s.revives i r } : State).reserveFor i n = some u) :
    exec .READMIT s = .next ((objs.foldl (fun s o => s.askAll i s.devId [o]) (u.updSess i (fun e => { e with
      reviveFrom := Ss.PREEMPTED, reviveDeadline := 0, reviveNote := 0, reviveTokens := 0, state := Ss.REVIVING,
      entered := u.tick, deadline := 0 }))).reviveNext i) := by
  have hpages : e.pages = [] := State.pages_of_readmissible (State.readmissible_of_first hall hahead hlist hfirst)
  have hnow : (decide (s.freeT1 < s.fld F.TIER_WMARK_HIGH) && ahead.isEmpty || s.barring) = false := by
    rcases hroom with h | h <;> simp [hbarring, h]
  have hfits : (decide (s.freeT1 < n) || !s.quotaFits e.tenant 1 (4 * n)) = false := by
    simp [hquota, hslots]
  have hchoice : l.foldl (fun x y => if y.2.entered < x.2.entered then y else x) a = (i, e) := hfirst.symm
  subst hr
  dsimp only at hreserve
  change execREADMIT s = _
  simp only [execREADMIT, ← hall, ← hahead, hnow, hlist, hchoice, hobjs, hfits, hpages, hreserve, List.filter_nil, List.map_nil, List.min?_nil,
    Bool.false_eq_true, if_false]

end Sys2Proof.Machine

section
open Sys2Proof Sys2Proof.Machine

/-- Settles O21: each event takes the branch its premises open; READMIT asks for no page again, since a readmissible session has none. -/
theorem expiriesComplete : Obligations.ExpiriesComplete := by
  unfold Obligations.ExpiriesComplete
  exact ⟨fun _ _ _ _ hfind => ⟨exec_expiryWait_closes hfind, fun _ => exec_expiryWait_parks hfind, exec_expiryTier hfind,
      exec_expiryTranscript hfind, exec_closedHoldExpiry hfind, exec_preemptCopyDone hfind⟩,
    fun _ _ _ _ => exec_commitPeriod,
    fun _ _ _ _ _ _ _ _ _ _ _ => exec_readmit,
    fun _ _ _ _ => exec_hostReclaimTimeout⟩

end

namespace Sys2Proof.Machine

/-! ## What a revive's reads and charges leave of its session's number and state (R80, R193) -/

/-- The accession number and the state of the session at an entry. -/
def State.seat (s : State) (i : Nat) : Nat × Nat := ((s.sess i).accession, (s.sess i).state)

theorem State.seat_of_sessions {s t : State} (h : t.sessions = s.sessions) (i : Nat) : t.seat i = s.seat i := by
  unfold State.seat State.sess
  rw [h]
  cases tGet s.sessions i with
  | none => rfl
  | some e => rfl

theorem mem_of_tGet {α : Type} {l : Tbl α} {k : Nat} {v : α} (h : tGet l k = some v) : (k, v) ∈ l := by
  induction l with
  | nil => simp [tGet] at h
  | cons p l ih =>
    obtain ⟨j, w⟩ := p
    unfold tGet at h
    split at h
    next hj =>
      obtain rfl : j = k := by simpa using hj
      obtain rfl : w = v := by simpa using h
      exact List.mem_cons_self
    next => exact List.mem_cons_of_mem _ (ih h)

/-- A session that has an accession number is in the table. -/
theorem State.sessions_any_of_seat {s : State} {i acc st : Nat} (hacc : acc ≠ 0) (hseat : s.seat i = (acc, st)) :
    s.sessions.any (fun q => q.2.accession == acc && q.2.state == st) = true := by
  obtain ⟨haccession, hstate⟩ := Prod.mk.inj hseat
  cases hget : tGet s.sessions i with
  | none =>
    have hfree : (s.sess i).accession = 0 := by rw [State.sess, hget]; rfl
    exact absurd (haccession.symm.trans hfree) hacc
  | some e =>
    have hentry : s.sess i = e := by rw [State.sess, hget]; rfl
    exact List.any_eq_true.mpr ⟨(i, e), mem_of_tGet hget, by simp [← hentry, haccession, hstate]⟩

theorem State.updSess_seat_self (s : State) (i : Nat) (f : Sess → Sess) :
    (s.updSess i f).seat i = ((f (s.sess i)).accession, (f (s.sess i)).state) := by
  unfold State.updSess State.setSess
  extract_lets
  split
  next hsame => rw [hsame]; rfl
  next => simp only [State.seat, State.sess, tGet_tPut_self, Option.getD_some]

/-! ### Messages to other devices -/

@[simp] theorem State.failMsg_sessions (s : State) (m : Msg) : (s.failMsg m).sessions = s.sessions := by
  unfold State.failMsg
  split <;> rfl

@[simp] theorem State.closePeer_sessions (s : State) (p : Nat) : (s.closePeer p).sessions = s.sessions :=
  (foldl_leaves (view := State.sessions) State.failMsg_sessions _ _).trans rfl

@[simp] theorem State.openPeer_sessions (s : State) (p : Nat) : (s.openPeer p).sessions = s.sessions := rfl

@[simp] theorem State.sendMsg_sessions (s : State) (p : Nat) (m : Msg) : (s.sendMsg p m).sessions = s.sessions := by
  unfold State.sendMsg
  dsimp only
  repeat' split
  all_goals simp

theorem State.makeCtx_sessions {s t : State} {dev p : Nat} (h : s.makeCtx dev = some (p, t)) : t.sessions = s.sessions := by
  unfold State.makeCtx at h
  split at h
  · exact absurd h (by simp)
  · simp only [Option.some.injEq, Prod.mk.injEq] at h
    obtain ⟨-, rfl⟩ := h
    split
    · rfl
    · exact s.closePeer_sessions _

theorem State.reach_sessions {s t : State} {dev p : Nat} (h : s.reach dev = some (p, t)) : t.sessions = s.sessions := by
  unfold State.reach at h
  split at h
  · simp only [Option.some.injEq, Prod.mk.injEq] at h
    rw [h.2]
  · exact State.makeCtx_sessions h

@[simp] theorem State.sendDev_sessions (s : State) (dev op acc tenant : Nat) (ps : List Nat) (payload : Bytes) (owner : Owner) :
    (s.sendDev dev op acc tenant ps payload owner).sessions = s.sessions := by
  unfold State.sendDev
  dsimp only
  split
  next p t hreach =>
    have hsent : (t.sendSlip p op 0 tenant acc ps payload owner).sessions = t.sessions := (State.sendMsg_sessions ..).trans rfl
    rw [hsent, State.reach_sessions hreach]
    rfl
  next => exact State.failMsg_sessions _ _

@[simp] theorem State.sendDrop_sessions (s : State) (dev acc kind number alive : Nat) :
    (s.sendDrop dev acc kind number alive).sessions = s.sessions := by
  unfold State.sendDrop
  split
  · rfl
  · exact s.sendDev_sessions ..

@[simp] theorem State.askObject_sessions (s : State) (i dev kind number alive : Nat) :
    (s.askObject i dev kind number alive).sessions = s.sessions := by
  unfold State.askObject
  dsimp only
  repeat' split
  all_goals simp

@[simp] theorem State.updRevive_sessions (s : State) (i : Nat) (f : Revive → Revive) : (s.updRevive i f).sessions = s.sessions := by
  unfold State.updRevive
  split <;> rfl

@[simp] theorem State.askMore_sessions (s : State) (i : Nat) : (s.askMore i).sessions = s.sessions := by
  unfold State.askMore
  split
  · rfl
  · refine (foldl_leaves (view := State.sessions) (fun t o => ?_) _ _).trans rfl
    split
    · rfl
    · split
      · exact State.askObject_sessions ..
      · rfl

@[simp] theorem State.askAll_sessions (s : State) (i dev : Nat) (objs : List (Nat × Nat)) : (s.askAll i dev objs).sessions = s.sessions := by
  unfold State.askAll
  rw [State.askMore_sessions]
  split <;> rfl

/-! ### Charges -/

@[simp] theorem State.addUsed_sessions (s : State) (t tier n : Nat) : (s.addUsed t tier n).sessions = s.sessions := by
  unfold State.addUsed
  split <;> rfl

@[simp] theorem State.subUsed_sessions (s : State) (t tier n : Nat) : (s.subUsed t tier n).sessions = s.sessions := by
  unfold State.subUsed
  split <;> rfl

@[simp] theorem State.dropSlot_sessions (s : State) (k : Nat) : (s.dropSlot k).sessions = s.sessions := by
  unfold State.dropSlot
  repeat' split
  all_goals simp

@[simp] theorem State.unreserve_sessions (s : State) (i : Nat) : (s.unreserve i).sessions = s.sessions := by
  unfold State.unreserve
  dsimp only
  rw [State.subUsed_sessions]
  exact State.updRevive_sessions ..

section
variable {s t : State} {i : Nat}

/-- A change of an entry that leaves number and state, of a state that has left them. -/
theorem State.updSess_seat {f : Sess → Sess} (ht : t.seat i = s.seat i) (hacc : ∀ e, (f e).accession = e.accession)
    (hstate : ∀ e, (f e).state = e.state) : (t.updSess i f).seat i = s.seat i := by
  rw [State.updSess_seat_self, hacc, hstate]
  exact ht

theorem State.dropPages_seat (ht : t.seat i = s.seat i) : (t.dropPages i).seat i = s.seat i := by
  have hslots : (((t.sess i).pages.flatMap PageRef.slots).foldl State.dropSlot t).sessions = t.sessions :=
    foldl_leaves State.dropSlot_sessions _ _
  exact State.updSess_seat ((State.seat_of_sessions hslots i).trans ht) (fun _ => rfl) (fun _ => rfl)

theorem State.chargeLog_seat (ht : t.seat i = s.seat i) : (t.chargeLog i).seat i = s.seat i := by
  refine State.updSess_seat ((State.seat_of_sessions ?_ i).trans ht) (fun _ => rfl) (fun _ => rfl)
  split
  · exact State.addUsed_sessions ..
  · exact State.subUsed_sessions ..

theorem State.setImg_seat (ht : t.seat i = s.seat i) (q : List Nat) : (t.setImg i q).seat i = s.seat i := by
  refine State.updSess_seat ((State.seat_of_sessions (foldl_leaves (fun u k => ?_) _ _) i).trans ht) (fun _ => rfl) (fun _ => rfl)
  dsimp only
  split
  · exact State.addUsed_sessions ..
  · exact State.subUsed_sessions ..

theorem State.enqueueTail_seat (ht : t.seat i = s.seat i) (goal : Nat) : (t.enqueueTail i goal).seat i = s.seat i :=
  State.updSess_seat ht (fun _ => rfl) (fun _ => rfl)

theorem State.rebuild_seat (ht : t.seat i = s.seat i) : (t.rebuild i).seat i = s.seat i := by
  unfold State.rebuild
  extract_lets dropped r entered restarted
  have hentered : entered.seat i = s.seat i := State.updSess_seat (State.dropPages_seat ht) (fun _ => rfl) (fun _ => rfl)
  have hsame : restarted.sessions = entered.sessions := rfl
  have hrestarted : restarted.seat i = s.seat i := (State.seat_of_sessions hsame i).trans hentered
  have hcharged : (restarted.chargeLog i).seat i = s.seat i := State.chargeLog_seat hrestarted
  split
  · exact (State.seat_of_sessions (State.wake_sessions _ _) i).trans hcharged
  · exact State.enqueueTail_seat hcharged _

theorem State.reviveRebuild_seat (ht : t.seat i = s.seat i) : (t.reviveRebuild i).seat i = s.seat i := by
  unfold State.reviveRebuild
  extract_lets freed e hurt tried
  have hfreed : freed.seat i = s.seat i := (State.seat_of_sessions (State.unreserve_sessions ..) i).trans ht
  split
  · split
    · exact State.rebuild_seat hfreed
    · extract_lets dropped asking
      have hdropped : dropped.seat i = s.seat i := State.updSess_seat (State.dropPages_seat hfreed) (fun _ => rfl) (fun _ => rfl)
      rw [State.seat_of_sessions (State.askAll_sessions ..), State.seat_of_sessions (State.updRevive_sessions ..)]
      exact hdropped
  · exact State.rebuild_seat hfreed

theorem State.abandonCommit_seat (s : State) (i : Nat) : (s.abandonCommit i).seat i = s.seat i := by
  unfold State.abandonCommit
  split
  · rfl
  · extract_lets e below cut far old fresh told freed
    have htold : told.seat i = s.seat i := by
      refine State.seat_of_sessions ((foldl_leaves (view := State.sessions) (fun t d => ?_) far cut).trans rfl) i
      split
      · exact State.sendDrop_sessions ..
      · exact foldl_leaves (fun u x => State.sendDrop_sessions ..) _ _
    refine State.updSess_seat ?_ (fun _ => rfl) (fun _ => rfl)
    dsimp only [freed]
    split
    · exact State.setImg_seat htold _
    · exact State.setImg_seat htold _

theorem State.leaveDown_seat (s : State) (i : Nat) : (s.leaveDown i).1.seat i = s.seat i := s.abandonCommit_seat i

/-- A revive that has started has its session REVIVING under its own accession number. -/
theorem State.startRevive_seat (s : State) (i : Nat) : (s.startRevive i).seat i = ((s.sess i).accession, Ss.REVIVING) := by
  have hleft := s.leaveDown_seat i
  unfold State.startRevive
  extract_lets e
  split
  next left lost hdown =>
    rw [hdown] at hleft
    extract_lets reviving src start r started
    have hkept : (left.sess i).accession = (s.sess i).accession := congrArg Prod.fst hleft
    have hreviving : reviving.seat i = ((s.sess i).accession, Ss.REVIVING) := by
      rw [State.updSess_seat_self]
      exact congrArg (·, Ss.REVIVING) hkept
    have hsame : started.sessions = reviving.sessions := rfl
    have hstarted : started.seat i = reviving.seat i := State.seat_of_sessions hsame i
    rw [← hreviving]
    split
    · exact State.reviveRebuild_seat hstarted
    · split
      · exact (State.seat_of_sessions (State.askObject_sessions ..) i).trans hstarted
      · rw [State.seat_of_sessions (State.askObject_sessions ..)]
        exact State.updSess_seat hstarted (fun _ => rfl) (fun _ => rfl)
end

end Sys2Proof.Machine

namespace Sys2Proof.Machine

/-! ## SESS_REVIVE (R92) -/

/-- A parked session's slip that no revive has come back to starts one and is held for it. -/
theorem exec_revive_starts {x : Slip} {s : State} {i : Nat} {e : Sess} (hup : s.sessionUp Op.SESS_REVIVE x [0, 0, 0, 0, 0, 0] i e = true)
    (hstate : e.state = Ss.PARKED ∨ e.state = Ss.TRANSCRIPT_ONLY) (hnote : (s.outst x.src x.tag).map (·.note) = some 0) :
    exec (.SESS_REVIVE x) s = .next ((s.reviveFor i x).close Op.SESS_REVIVE x) := by
  obtain ⟨o, ho, hnote⟩ := Option.map_eq_some_iff.mp hnote
  have hparked : (e.state == Ss.PARKED || e.state == Ss.TRANSCRIPT_ONLY) = true := by
    rcases hstate with h | h <;> simp [h]
  change execSESS_REVIVE x s = _
  simp only [execSESS_REVIVE, runSession_up hup, ho, hnote, hparked, bne_self_eq_false, Bool.false_eq_true, decide_false, if_false, if_true]

theorem State.findSess_of_sessionUp {op : Nat} {x : Slip} {masks : List Nat} {s : State} {i : Nat} {e : Sess}
    (hup : s.sessionUp op x masks i e = true) : s.findSess x.acc = some (i, e) := by
  simp only [State.sessionUp, Bool.and_eq_true, beq_iff_eq] at hup
  obtain ⟨-, -, -, -, -, -, -, hfind, -⟩ := hup
  exact hfind

/-- A session found by its accession number has it, and it is not 0. -/
theorem State.accession_of_findSess {s : State} {acc i : Nat} {e : Sess} (h : s.findSess acc = some (i, e)) :
    acc ≠ 0 ∧ e.accession = acc := by
  unfold State.findSess at h
  split at h
  next => exact absurd h (by simp)
  next hne => exact ⟨by simpa using hne, by simpa using List.find?_some h⟩

/-- Where the entry is read as the session found, which a table with one entry per index gives, the session is REVIVING under the number
the slip names, and so the slip waits. -/
theorem exec_revive_of_entry {x : Slip} {s : State} {i : Nat} {e : Sess} (hup : s.sessionUp Op.SESS_REVIVE x [0, 0, 0, 0, 0, 0] i e = true)
    (hentry : s.sess i = e) (hstate : e.state = Ss.PARKED ∨ e.state = Ss.TRANSCRIPT_ONLY)
    (hnote : (s.outst x.src x.tag).map (·.note) = some 0) {t : State} (ht : t = s.startRevive i) :
    exec (.SESS_REVIVE x) s = .next { t.updOutst x.src x.tag (fun o => { o with stage := .waiting }) with
      held := t.held ++ [({ op := BitVec.ofNat 16 Op.SESS_REVIVE, slip := x }, Hold.revive x.acc)] } := by
  obtain ⟨hacc, haccession⟩ := State.accession_of_findSess (State.findSess_of_sessionUp hup)
  have hseat : t.seat i = (x.acc, Ss.REVIVING) := by rw [ht, State.startRevive_seat, hentry, haccession]
  have hreviving : t.sessions.any (fun q => q.2.accession == x.acc && q.2.state == 8) = true := State.sessions_any_of_seat hacc hseat
  rw [exec_revive_starts hup hstate hnote, State.reviveFor, ← ht]
  simp only [SlipRes.close, hreviving, if_true]

/-! ### A session table that lists an index twice -/

/-- A PARKED session of accession 9. -/
def parkedNine : Sess := { Sess.blank with accession := 9, state := Ss.PARKED }

/-- A SESS_REVIVE slip of the Rind for it. -/
def reviveNine : Slip :=
  { src := .rind, version := 0x10, hlen := 64, flags := 0, tenant := 0, tag := 1, epoch := 0, accession := 9, plen := 0, ploc := 0,
    p0 := 0, p1 := 0, p2 := 0, p3 := 0, p4 := 0, p5 := 0, rsvd := 0, hcrc := 0, payload := [] }

/-- A device in service whose session table lists entry 0 twice, which no store of the model makes: an entry is read as the first of
its index, a session is found by its accession number. -/
def twiceListedSession : State :=
  { ((State.reset.setFld F.BOOT_STATE_STATE 6).setFld F.DEV_BUNDLE_LOADED 1) with
    sessions := [(0, { Sess.blank with accession := 7 }), (0, parkedNine)]
    slips := [{ op := Op.SESS_REVIVE, slip := reviveNine, stage := .running, note := 0, tokens := 0, dataFails := false, since := 0 }] }

theorem twiceListedSession_up :
    twiceListedSession.sessionUp Op.SESS_REVIVE reviveNine [0, 0, 0, 0, 0, 0] 0 parkedNine = true := by decide

theorem twiceListedSession_held :
    ((twiceListedSession.reviveFor 0 reviveNine).close Op.SESS_REVIVE reviveNine).slips.map (·.stage) = [.accepted] := by decide

theorem twiceListedSession_waiting :
    ((twiceListedSession.startRevive 0).updOutst .rind 1 (fun o => { o with stage := .waiting })).slips.map (·.stage) = [.waiting] := by decide

end Sys2Proof.Machine

section
open Sys2Proof Sys2Proof.Machine

/-- Refutes O7: the clause on SESS_REVIVE has no premise that the session found is the one read at its index, which every store of the
model gives and a table that lists an index twice does not: there the revive is started on the entry read, and the slip, whose own
session is not REVIVING, stays accepted. With that premise the clause holds (`exec_revive_of_entry`). -/
theorem not_requestSlipsComplete : ¬ Obligations.RequestSlipsComplete := by
  unfold Obligations.RequestSlipsComplete
  intro h
  obtain ⟨-, -, -, -, -, -, -, -, hrevive⟩ := h reviveNine twiceListedSession 0 parkedNine
  obtain ⟨t, rfl, hexec⟩ := hrevive twiceListedSession_up (.inl rfl) rfl
  have hsame := Host.Outcome.next.inj ((exec_revive_starts twiceListedSession_up (.inl rfl) rfl).symm.trans hexec)
  have hstages := congrArg (fun z : State => z.slips.map (·.stage)) hsame
  exact absurd (twiceListedSession_held.symm.trans (hstages.trans twiceListedSession_waiting)) (by decide)

end

namespace Sys2Proof.Machine

/-! ## Every step keeps the canonical form (R119, R120, R309; log entries 2 and 3) -/

/-- Every command keeps, one law per meaning (Laws/Keep*.lean). -/
theorem exec_keeps {z s : State} (i : Instr) (hz : Keeps z s) : OutKeeps z (exec i s) := by
  unfold exec
  cases i with
  | NOP _ => exact execNOP_keeps hz
  | HELLO _ => exact execHELLO_keeps hz
  | IDENTIFY _ => exact execIDENTIFY_keeps hz
  | ECHO _ => exact execECHO_keeps hz
  | SESS_ACCESSION _ => exact execSESS_ACCESSION_keeps hz
  | SESS_CLOSE _ => exact execSESS_CLOSE_keeps hz
  | SESS_QUERY _ => exact execSESS_QUERY_keeps hz
  | SESS_FORK _ => exact execSESS_FORK_keeps hz
  | SESS_GENERATE _ => exact execSESS_GENERATE_keeps hz
  | SESS_CANCEL _ => exact execSESS_CANCEL_keeps hz
  | SESS_SET_MASK _ => exact execSESS_SET_MASK_keeps hz
  | SESS_SET_TTL _ => exact execSESS_SET_TTL_keeps hz
  | SESS_PARK _ => exact execSESS_PARK_keeps hz
  | SESS_REVIVE _ => exact execSESS_REVIVE_keeps hz
  | SESS_ATTACH_RING _ => exact execSESS_ATTACH_RING_keeps hz
  | SESS_MOVE_OFFER _ => exact execSESS_MOVE_OFFER_keeps hz
  | SESS_MOVE_COMMIT _ => exact execSESS_MOVE_COMMIT_keeps hz
  | MOVE_OFFER_REPLY _ _ => exact execMOVE_OFFER_REPLY_keeps hz
  | MOVE_COMMIT_REPLY _ _ => exact execMOVE_COMMIT_REPLY_keeps hz
  | MOVE_RESERVATION_LAPSE _ => exact execMOVE_RESERVATION_LAPSE_keeps hz
  | TEXT_APPEND _ => exact execTEXT_APPEND_keeps hz
  | TEXT_APPEND_TOKENS _ => exact execTEXT_APPEND_TOKENS_keeps hz
  | TEXT_TOKENISE _ => exact execTEXT_TOKENISE_keeps hz
  | TEXT_DETOKENISE _ => exact execTEXT_DETOKENISE_keeps hz
  | TEXT_TRANSCRIPT_READ _ => exact execTEXT_TRANSCRIPT_READ_keeps hz
  | SAMP_SET _ => exact execSAMP_SET_keeps hz
  | SAMP_SET_STOPS _ => exact execSAMP_SET_STOPS_keeps hz
  | GRAM_ATTACH _ => exact execGRAM_ATTACH_keeps hz
  | GRAM_DETACH _ => exact execGRAM_DETACH_keeps hz
  | TIER_SET_QUOTA _ => exact execTIER_SET_QUOTA_keeps hz
  | TIER_QUERY _ => exact execTIER_QUERY_keeps hz
  | TIER_LEND_HOST _ => exact execTIER_LEND_HOST_keeps hz
  | TIER_RECLAIM_HOST _ => exact execTIER_RECLAIM_HOST_keeps hz
  | HOST_RECLAIM_TIMEOUT _ => exact execHOST_RECLAIM_TIMEOUT_keeps hz
  | TIER_SHELF_PUT _ => exact execTIER_SHELF_PUT_keeps hz
  | TIER_SHELF_GET _ => exact execTIER_SHELF_GET_keeps hz
  | TIER_SHELF_DROP _ => exact execTIER_SHELF_DROP_keeps hz
  | VEC_CREATE _ => exact execVEC_CREATE_keeps hz
  | VEC_DROP _ => exact execVEC_DROP_keeps hz
  | VEC_INSERT _ => exact execVEC_INSERT_keeps hz
  | VEC_DELETE _ => exact execVEC_DELETE_keeps hz
  | VEC_SEARCH _ => exact execVEC_SEARCH_keeps hz
  | VEC_COMPACT _ => exact execVEC_COMPACT_keeps hz
  | VEC_SET_CENTROIDS _ => exact execVEC_SET_CENTROIDS_keeps hz
  | VEC_SHARD_SEARCH _ => exact execVEC_SHARD_SEARCH_keeps hz
  | SHARD_REPLY _ _ _ => exact execSHARD_REPLY_keeps hz
  | SHARD_TIMEOUT _ => exact execSHARD_TIMEOUT_keeps hz
  | BACKGROUND_COMPACT _ _ => exact execBACKGROUND_COMPACT_keeps hz
  | CAT_LOOKUP _ => exact execCAT_LOOKUP_keeps hz
  | CAT_MAP_FETCH _ => exact execCAT_MAP_FETCH_keeps hz
  | CAT_PROPOSE_CLAIM _ => exact execCAT_PROPOSE_CLAIM_keeps hz
  | CAT_PROPOSE_ACCEPT _ => exact execCAT_PROPOSE_ACCEPT_keeps hz
  | CAT_VOTE _ => exact execCAT_VOTE_keeps hz
  | CAT_COMMIT _ => exact execCAT_COMMIT_keeps hz
  | CAT_JOIN _ => exact execCAT_JOIN_keeps hz
  | CAT_LEAVE _ => exact execCAT_LEAVE_keeps hz
  | CAT_LEAVE_FINAL _ => exact execCAT_LEAVE_FINAL_keeps hz
  | CAT_LEAVE_SUSPECT _ => exact execCAT_LEAVE_SUSPECT_keeps hz
  | CAT_LOCATE_QUERY _ => exact execCAT_LOCATE_QUERY_keeps hz
  | CAT_LOCATE_REGISTER _ => exact execCAT_LOCATE_REGISTER_keeps hz
  | CAT_LOCATE_REMOVE _ => exact execCAT_LOCATE_REMOVE_keeps hz
  | CAT_LOCATE_TRANSFER _ => exact execCAT_LOCATE_TRANSFER_keeps hz
  | VOTE_TIMEOUT => exact execVOTE_TIMEOUT_keeps hz
  | LOCATE_TIMEOUT _ => exact execLOCATE_TIMEOUT_keeps hz
  | FORWARDED_REPLY _ _ _ => exact execFORWARDED_REPLY_keeps hz
  | FORWARD_RECORD_EXPIRY _ => exact execFORWARD_RECORD_EXPIRY_keeps hz
  | REGISTRAR_KEEPALIVE => exact execREGISTRAR_KEEPALIVE_keeps hz
  | FENCE => exact execFENCE_keeps hz
  | FENCE_END => exact execFENCE_END_keeps hz
  | REMOVE_CONFIRM _ => exact execREMOVE_CONFIRM_keeps hz
  | DRAIN_TIME_EXPIRY => exact execDRAIN_TIME_EXPIRY_keeps hz
  | REHOME_DELAY_EXPIRY _ => exact execREHOME_DELAY_EXPIRY_keeps hz
  | CKPT_TAKE _ => exact execCKPT_TAKE_keeps hz
  | CKPT_QUERY _ => exact execCKPT_QUERY_keeps hz
  | CKPT_RESTORE _ => exact execCKPT_RESTORE_keeps hz
  | CKPT_SET_TRIGGERS _ => exact execCKPT_SET_TRIGGERS_keeps hz
  | CKPT_MIRROR_PUT _ => exact execCKPT_MIRROR_PUT_keeps hz
  | CKPT_MIRROR_GET _ => exact execCKPT_MIRROR_GET_keeps hz
  | CKPT_TIMER_EXPIRY => exact execCKPT_TIMER_EXPIRY_keeps hz
  | CKPT_STEP_COUNT => exact execCKPT_STEP_COUNT_keeps hz
  | SEQ_LIMIT_NEAR => exact execSEQ_LIMIT_NEAR_keeps hz
  | DEFERRED_CKPT_START => exact execDEFERRED_CKPT_START_keeps hz
  | BARRIER_OVERRUN => exact execBARRIER_OVERRUN_keeps hz
  | BARRIER_RETRY => exact execBARRIER_RETRY_keeps hz
  | PRESS_WRITE_DONE _ => exact execPRESS_WRITE_DONE_keeps hz
  | PRESS_WRITE_ERROR => exact execPRESS_WRITE_ERROR_keeps hz
  | MIRROR_ACK _ _ => exact execMIRROR_ACK_keeps hz
  | RESTORE_MAP_TIMEOUT => exact execRESTORE_MAP_TIMEOUT_keeps hz
  | CHK_CRC _ => exact execCHK_CRC_keeps hz
  | CHK_SCAN _ => exact execCHK_SCAN_keeps hz
  | SCAN_COMPLETE => exact execSCAN_COMPLETE_keeps hz
  | CHK_XTS_ENC _ => exact execCHK_XTS_ENC_keeps hz
  | CHK_XTS_DEC _ => exact execCHK_XTS_DEC_keeps hz
  | SCHED_SET_TENANT _ => exact execSCHED_SET_TENANT_keeps hz
  | SCHED_QUERY_TENANT _ => exact execSCHED_QUERY_TENANT_keeps hz
  | SCHED_SET_SHAPER _ => exact execSCHED_SET_SHAPER_keeps hz
  | SCHED_SET_POLICER _ => exact execSCHED_SET_POLICER_keeps hz
  | RING_CONSUMED _ => exact execRING_CONSUMED_keeps hz
  | RING_PUSH_ERROR_REPLY _ _ _ => exact execRING_PUSH_ERROR_REPLY_keeps hz
  | RING_PUSH_RETRY _ _ => exact execRING_PUSH_RETRY_keeps hz
  | RING_IRQ_GAP_END _ => exact execRING_IRQ_GAP_END_keeps hz
  | HOST_RING_WRITE_ERROR _ => exact execHOST_RING_WRITE_ERROR_keeps hz
  | XCHG_LAYER _ => exact execXCHG_LAYER_keeps hz
  | XCHG_FINAL _ => exact execXCHG_FINAL_keeps hz
  | XCHG_ERROR_REPLY _ _ _ => exact execXCHG_ERROR_REPLY_keeps hz
  | XCHG_RETRY _ _ => exact execXCHG_RETRY_keeps hz
  | XCHG_TIMEOUT _ => exact execXCHG_TIMEOUT_keeps hz
  | BATCH_FORM => exact execBATCH_FORM_keeps hz
  | PREFILL_CHUNK_FORM => exact execPREFILL_CHUNK_FORM_keeps hz
  | PREEMPT_COPY_DONE _ => exact execPREEMPT_COPY_DONE_keeps hz
  | READMIT => exact execREADMIT_keeps hz
  | SEC_PRINCIPAL_ENROL _ => exact execSEC_PRINCIPAL_ENROL_keeps hz
  | SEC_PRINCIPAL_REVOKE _ => exact execSEC_PRINCIPAL_REVOKE_keeps hz
  | SEC_TENANT_STATUS _ => exact execSEC_TENANT_STATUS_keeps hz
  | SEC_TENANT_ERASE _ => exact execSEC_TENANT_ERASE_keeps hz
  | SEC_CONF_HOST _ => exact execSEC_CONF_HOST_keeps hz
  | SEC_DEBUG_UNLOCK _ => exact execSEC_DEBUG_UNLOCK_keeps hz
  | SEC_FUSE_PROGRAM _ => exact execSEC_FUSE_PROGRAM_keeps hz
  | MAINT_LOCK _ => exact execMAINT_LOCK_keeps hz
  | MAINT_UNLOCK _ => exact execMAINT_UNLOCK_keeps hz
  | BUNDLE_LOAD_BEGIN _ => exact execBUNDLE_LOAD_BEGIN_keeps hz
  | BUNDLE_LOAD_DATA _ => exact execBUNDLE_LOAD_DATA_keeps hz
  | BUNDLE_LOAD_END _ => exact execBUNDLE_LOAD_END_keeps hz
  | BUNDLE_UNLOAD _ => exact execBUNDLE_UNLOAD_keeps hz
  | MAINT_FW_UPDATE _ => exact execMAINT_FW_UPDATE_keeps hz
  | MAINT_FW_ACTIVATE _ => exact execMAINT_FW_ACTIVATE_keeps hz
  | MAINT_FW_ROLLBACK _ => exact execMAINT_FW_ROLLBACK_keeps hz
  | MAINT_PATROL _ => exact execMAINT_PATROL_keeps hz
  | PATROL_COMPLETE _ _ _ => exact execPATROL_COMPLETE_keeps hz
  | BACKGROUND_PATROL _ _ => exact execBACKGROUND_PATROL_keeps hz
  | MAINT_RETRAIN _ => exact execMAINT_RETRAIN_keeps hz
  | RETRAIN_COMPLETE _ _ => exact execRETRAIN_COMPLETE_keeps hz
  | MAINT_ROW_REPAIR _ => exact execMAINT_ROW_REPAIR_keeps hz
  | MAINT_RESET_UNIT _ => exact execMAINT_RESET_UNIT_keeps hz
  | MAINT_RESET_CLUSTER _ => exact execMAINT_RESET_CLUSTER_keeps hz
  | MAINT_RESET_PARTITION _ => exact execMAINT_RESET_PARTITION_keeps hz
  | MAINT_RESET_DEVICE _ => exact execMAINT_RESET_DEVICE_keeps hz
  | MAINT_UNIT_DISABLE _ => exact execMAINT_UNIT_DISABLE_keeps hz
  | DIAG_INJECT _ => exact execDIAG_INJECT_keeps hz
  | DIAG_TRACE_STOP _ => exact execDIAG_TRACE_STOP_keeps hz
  | DIAG_TRACE_START _ => exact execDIAG_TRACE_START_keeps hz
  | DIAG_TRACE_READ _ => exact execDIAG_TRACE_READ_keeps hz
  | KEY_DELIVER _ _ _ _ _ _ => exact execKEY_DELIVER_keeps hz
  | KEY_QUERY _ _ => exact execKEY_QUERY_keeps hz
  | BUNDLE_KEY _ _ _ => exact execBUNDLE_KEY_keeps hz
  | BOUNCE_KEYS _ => exact execBOUNCE_KEYS_keeps hz
  | SPDM_REQUEST _ _ => exact execSPDM_REQUEST_keeps hz
  | QP_SQ_TAIL _ _ => exact execQP_SQ_TAIL_keeps hz
  | SQ_FETCH_DONE _ _ _ => exact execSQ_FETCH_DONE_keeps hz
  | QP_RQ_HEAD _ _ => exact execQP_RQ_HEAD_keeps hz
  | QP_ENABLE _ _ => exact execQP_ENABLE_keeps hz
  | QP_DISABLE _ _ => exact execQP_DISABLE_keeps hz
  | QP_DRAIN_DONE _ => exact execQP_DRAIN_DONE_keeps hz
  | HOST_ACCESS_ERROR _ _ => exact execHOST_ACCESS_ERROR_keeps hz
  | COAL_TIMER _ => exact execCOAL_TIMER_keeps hz
  | MGMT_SLIP_ARRIVAL _ => exact execMGMT_SLIP_ARRIVAL_keeps hz
  | MGMT_CONNECT _ _ => exact execMGMT_CONNECT_keeps hz
  | MGMT_DISCONNECT _ => exact execMGMT_DISCONNECT_keeps hz
  | RIND_SLIP _ => exact execRIND_SLIP_keeps hz
  | EPOCH_HOLD_RESOLVE => exact execEPOCH_HOLD_RESOLVE_keeps hz
  | PRAOL_DATA _ _ _ _ => exact execPRAOL_DATA_keeps hz
  | PRAOL_ACK _ _ _ _ _ _ => exact execPRAOL_ACK_keeps hz
  | PRAOL_CNP _ _ _ => exact execPRAOL_CNP_keeps hz
  | PRAOL_OPEN _ _ _ _ _ _ => exact execPRAOL_OPEN_keeps hz
  | PRAOL_OPEN_ACK _ _ _ => exact execPRAOL_OPEN_ACK_keeps hz
  | PRAOL_CLOSE _ _ _ _ => exact execPRAOL_CLOSE_keeps hz
  | PRAOL_PROBE _ _ _ => exact execPRAOL_PROBE_keeps hz
  | PRAOL_PROBE_ACK _ _ _ => exact execPRAOL_PROBE_ACK_keeps hz
  | PRAOL_DISCOVER _ => exact execPRAOL_DISCOVER_keeps hz
  | PRAOL_DISCOVER_ACK _ _ => exact execPRAOL_DISCOVER_ACK_keeps hz
  | RTO_EXPIRY _ _ => exact execRTO_EXPIRY_keeps hz
  | ACK_DELAY_EXPIRY _ => exact execACK_DELAY_EXPIRY_keeps hz
  | CC_PERIOD _ => exact execCC_PERIOD_keeps hz
  | KEEPALIVE_EXPIRY _ => exact execKEEPALIVE_EXPIRY_keeps hz
  | DEAD_TIME_EXPIRY _ => exact execDEAD_TIME_EXPIRY_keeps hz
  | OPENING_TIMEOUT _ => exact execOPENING_TIMEOUT_keeps hz
  | DRAINING_END _ => exact execDRAINING_END_keeps hz
  | PFC_FRAME _ _ _ => exact execPFC_FRAME_keeps hz
  | PFC_WATCHDOG _ _ => exact execPFC_WATCHDOG_keeps hz
  | PAUSE_FRAME _ => exact execPAUSE_FRAME_keeps hz
  | ETH_CONTROL_FRAME _ _ => exact execETH_CONTROL_FRAME_keeps hz
  | EGRESS_FRAME _ => exact execEGRESS_FRAME_keeps hz
  | ETH_LINK_CHANGE _ _ => exact execETH_LINK_CHANGE_keeps hz
  | NBU_LAUNCH _ _ _ _ _ _ _ => exact execNBU_LAUNCH_keeps hz
  | NBU_PROGRAM_START _ => exact execNBU_PROGRAM_START_keeps hz
  | ATTN _ => exact execATTN_keeps hz
  | APPEND _ => exact execAPPEND_keeps hz
  | AGE _ => exact execAGE_keeps hz
  | DIST_SCAN _ => exact execDIST_SCAN_keeps hz
  | HEAD _ => exact execHEAD_keeps hz
  | COPY _ => exact execCOPY_keeps hz
  | NBU_COMPLETION _ => exact execNBU_COMPLETION_keeps hz
  | MERGE_RECORD _ => exact execMERGE_RECORD_keeps hz
  | FORCED_YIELD _ => exact execFORCED_YIELD_keeps hz
  | ORDINARY_ACCESS _ _ _ => exact execORDINARY_ACCESS_keeps hz
  | REFRESH_DUE _ _ => exact execREFRESH_DUE_keeps hz
  | NBU_PARITY_ERROR _ _ _ _ => exact execNBU_PARITY_ERROR_keeps hz
  | NBU_UNIT_RESET _ _ => exact execNBU_UNIT_RESET_keeps hz
  | NBU_NOP _ => exact execNBU_NOP_keeps hz
  | YIELD _ => exact execYIELD_keeps hz
  | HALT _ => exact execHALT_keeps hz
  | LOOP _ => exact execLOOP_keeps hz
  | ENDL _ => exact execENDL_keeps hz
  | BZ _ => exact execBZ_keeps hz
  | BNZ _ => exact execBNZ_keeps hz
  | JMP _ => exact execJMP_keeps hz
  | WPOP _ => exact execWPOP_keeps hz
  | PPB _ => exact execPPB_keeps hz
  | FENCE_UOP _ => exact execFENCE_UOP_keeps hz
  | LI _ => exact execLI_keeps hz
  | ADD _ => exact execADD_keeps hz
  | SUB _ => exact execSUB_keeps hz
  | AND _ => exact execAND_keeps hz
  | OR _ => exact execOR_keeps hz
  | XOR _ => exact execXOR_keeps hz
  | SHL _ => exact execSHL_keeps hz
  | SHR _ => exact execSHR_keeps hz
  | SLTU _ => exact execSLTU_keeps hz
  | MINU _ => exact execMINU_keeps hz
  | MAXU _ => exact execMAXU_keeps hz
  | LDW _ => exact execLDW_keeps hz
  | STW _ => exact execSTW_keeps hz
  | RDC _ => exact execRDC_keeps hz
  | WRC _ => exact execWRC_keeps hz
  | LDS _ => exact execLDS_keeps hz
  | STS _ => exact execSTS_keeps hz
  | QLD _ => exact execQLD_keeps hz
  | EMIT _ => exact execEMIT_keeps hz
  | UNP _ => exact execUNP_keeps hz
  | DOT _ => exact execDOT_keeps hz
  | SMX _ => exact execSMX_keeps hz
  | AXV _ => exact execAXV_keeps hz
  | DEC _ => exact execDEC_keeps hz
  | ENC _ => exact execENC_keeps hz
  | CBE _ => exact execCBE_keeps hz
  | DST _ => exact execDST_keeps hz
  | TOPK _ => exact execTOPK_keeps hz
  | HMV _ => exact execHMV_keeps hz
  | ME_TILE_END _ _ _ _ => exact execME_TILE_END_keeps hz
  | ME_PARITY_ERROR _ _ _ _ => exact execME_PARITY_ERROR_keeps hz
  | RATIO_PERIOD _ => exact execRATIO_PERIOD_keeps hz
  | EXPIRY_TTL_WAIT _ => exact execEXPIRY_TTL_WAIT_keeps hz
  | EXPIRY_TIER _ => exact execEXPIRY_TIER_keeps hz
  | EXPIRY_TRANSCRIPT _ => exact execEXPIRY_TRANSCRIPT_keeps hz
  | CLOSED_HOLD_EXPIRY _ => exact execCLOSED_HOLD_EXPIRY_keeps hz
  | CTX_TIMEOUT _ => exact execCTX_TIMEOUT_keeps hz
  | COMMIT_PERIOD _ => exact execCOMMIT_PERIOD_keeps hz
  | HOLDER_ACK _ _ _ _ _ => exact execHOLDER_ACK_keeps hz
  | GET_TIMEOUT _ => exact execGET_TIMEOUT_keeps hz
  | HOLDER_NO_SLOTS_TIMEOUT _ => exact execHOLDER_NO_SLOTS_TIMEOUT_keeps hz
  | REVIVE_HEAD_ARRIVAL _ _ _ => exact execREVIVE_HEAD_ARRIVAL_keeps hz
  | SHELF_OBJECT_ARRIVAL _ _ _ _ _ => exact execSHELF_OBJECT_ARRIVAL_keeps hz
  | LINK_PARITY_ERROR _ => exact execLINK_PARITY_ERROR_keeps hz
  | LINK_RETRAIN _ _ => exact execLINK_RETRAIN_keeps hz
  | LINK_RETRAIN_DONE _ _ => exact execLINK_RETRAIN_DONE_keeps hz
  | UNCORRECTABLE_ERROR _ _ _ => exact execUNCORRECTABLE_ERROR_keeps hz
  | CE_THRESHOLD _ _ _ _ => exact execCE_THRESHOLD_keeps hz
  | ERR_IRQ_GAP_END => exact execERR_IRQ_GAP_END_keeps hz
  | AUDIT_SWEEP _ => exact execAUDIT_SWEEP_keeps hz
  | CONSERVATION_VIOLATION _ _ _ _ => exact execCONSERVATION_VIOLATION_keeps hz
  | RIND_LOCKSTEP_MISMATCH => exact execRIND_LOCKSTEP_MISMATCH_keeps hz
  | RIND_WATCHDOG_EXPIRY => exact execRIND_WATCHDOG_EXPIRY_keeps hz
  | DESK_WATCHDOG_EXPIRY _ _ => exact execDESK_WATCHDOG_EXPIRY_keeps hz
  | PRESENCE_PRESS _ => exact execPRESENCE_PRESS_keeps hz
  | PRESENCE_WINDOW_END => exact execPRESENCE_WINDOW_END_keeps hz
  | PRESENCE_STUCK _ => exact execPRESENCE_STUCK_keeps hz
  | INPUT_CHATTER _ => exact execINPUT_CHATTER_keeps hz
  | JUMPER_REMOVED => exact execJUMPER_REMOVED_keeps hz
  | SEAL_EPISODE _ => exact execSEAL_EPISODE_keeps hz
  | SEAL_BREAK => exact execSEAL_BREAK_keeps hz
  | POWER_ON _ _ => exact execPOWER_ON_keeps hz
  | POWER_WAVE => exact execPOWER_WAVE_keeps hz
  | HBM_TRAINING_DONE => exact execHBM_TRAINING_DONE_keeps hz
  | DDR_TRAINING_DONE _ _ => exact execDDR_TRAINING_DONE_keeps hz
  | TRAINING_FAILED _ _ => exact execTRAINING_FAILED_keeps hz
  | KAT_DONE _ _ => exact execKAT_DONE_keeps hz
  | POWER_LOSS => exact execPOWER_LOSS_keeps hz
  | WARM_RESTART _ _ => exact execWARM_RESTART_keeps hz
  | PARTITION_RESET _ _ _ => exact execPARTITION_RESET_keeps hz
  | PARTITION_ACTIVE _ _ _ => exact execPARTITION_ACTIVE_keeps hz
  | CLUSTER_RESET _ _ _ => exact execCLUSTER_RESET_keeps hz
  | UNIT_SOFT_DISABLE _ => exact execUNIT_SOFT_DISABLE_keeps hz
  | THROTTLE_PERIOD _ _ _ _ _ _ => exact execTHROTTLE_PERIOD_keeps hz
  | THERMAL_TRIP => exact execTHERMAL_TRIP_keeps hz
  | REFCLK_LOST _ => exact execREFCLK_LOST_keeps hz
  | HOST_LINK_TRAINING _ _ _ => exact execHOST_LINK_TRAINING_keeps hz
  | HOST_PORT_RESET _ => exact execHOST_PORT_RESET_keeps hz
  | HDM_DECODER_COMMIT _ _ _ _ _ _ => exact execHDM_DECODER_COMMIT_keeps hz
  | HDM_ACCESS _ _ _ => exact execHDM_ACCESS_keeps hz
  | CONFIG_REQUEST _ => exact execCONFIG_REQUEST_keeps hz
  | MSIX_UNMASK _ _ _ => exact execMSIX_UNMASK_keeps hz
  | H2D_SNOOP => exact execH2D_SNOOP_keeps hz
  | PRESS_PERST_RELEASE _ => exact execPRESS_PERST_RELEASE_keeps hz
  | NVME_COMPLETION _ _ _ => exact execNVME_COMPLETION_keeps hz
  | NVME_TIMEOUT _ => exact execNVME_TIMEOUT_keeps hz
  | SESS_INSPECT_IDX _ => exact execSESS_INSPECT_IDX_keeps hz
  | NBU_BCAST_DATA _ _ => exact execNBU_BCAST_DATA_keeps hz
  | NBU_MAX_CLR => exact execNBU_MAX_CLR_keeps hz
  | ME_MAX_CLR => exact execME_MAX_CLR_keeps hz
  | POOL_ENTRY_ADD _ => exact execPOOL_ENTRY_ADD_keeps hz
  | POOL_ENTRY_RETIRE _ => exact execPOOL_ENTRY_RETIRE_keeps hz
  | TIER_QUOTA_WRITE _ _ => exact execTIER_QUOTA_WRITE_keeps hz
  | TEXT_SLOT_SEL _ => exact execTEXT_SLOT_SEL_keeps hz
  | HWM_CLR => exact execHWM_CLR_keeps hz
  | HIST_CLR => exact execHIST_CLR_keeps hz
  | HIST_QUEUE_CLR _ => exact execHIST_QUEUE_CLR_keeps hz
  | HIST_SAMPLE _ => exact execHIST_SAMPLE_keeps hz
  | SCHED_TEN_BUDGET_WRITE _ => exact execSCHED_TEN_BUDGET_WRITE_keeps hz
  | LEVEL_SET _ => exact execLEVEL_SET_keeps hz
  | POL_SET _ => exact execPOL_SET_keeps hz
  | SCHED_TEN_POLICE_WRITE _ => exact execSCHED_TEN_POLICE_WRITE_keeps hz
  | SCHED_SHP_CFG_WRITE _ => exact execSCHED_SHP_CFG_WRITE_keeps hz
  | RING_ENABLE _ => exact execRING_ENABLE_keeps hz
  | RING_DISABLE _ => exact execRING_DISABLE_keeps hz
  | SCHED_RING_CI _ => exact execSCHED_RING_CI_keeps hz
  | VEC_COL_SEL _ => exact execVEC_COL_SEL_keeps hz
  | ERR_LOG_SEL _ => exact execERR_LOG_SEL_keeps hz
  | ERR_STICKY_CLR _ => exact execERR_STICKY_CLR_keeps hz
  | CKPT_TRIG_WRITE _ => exact execCKPT_TRIG_WRITE_keeps hz
  | REGISTER_WRITE _ _ _ _ _ => exact execREGISTER_WRITE_keeps hz
  | PAYLOAD_READ_DONE _ _ _ _ => exact execPAYLOAD_READ_DONE_keeps hz
  | LOCATE_REPLY _ _ _ _ => exact execLOCATE_REPLY_keeps hz
  | MAP_FETCH_REPLY _ _ => exact execMAP_FETCH_REPLY_keeps hz
  | CAT_JOIN_REPLY _ => exact execCAT_JOIN_REPLY_keeps hz
  | MIRROR_GET_REPLY _ _ => exact execMIRROR_GET_REPLY_keeps hz
  | REGISTRAR_NOP_REPLY _ _ => exact execREGISTRAR_NOP_REPLY_keeps hz
  | MIRROR_COPY_EXPIRY _ => exact execMIRROR_COPY_EXPIRY_keeps hz
  | REFCLK_RETURN _ _ _ => exact execREFCLK_RETURN_keeps hz
  | ROW_REPAIR_DONE _ _ => exact execROW_REPAIR_DONE_keeps hz
  | FLASH_WRITE_DONE _ _ => exact execFLASH_WRITE_DONE_keeps hz

/-- From a well-formed state, what is kept includes the form. -/
theorem Keeps.wf {z t : State} (hz : z.wf = true) (h : Keeps z t) : t.wf = true :=
  (State.wf_iff t).2 (h.parts.canon hz)

theorem OutKeeps.wf {z t : State} {o : Host.Outcome State Fault Refusal} (hz : z.wf = true) (ho : OutKeeps z o) (h : o = .next t) :
    t.wf = true := by
  subst h
  exact Keeps.wf hz ho

theorem idle_keeps_of_none_ready {s : State} (h : s.ready = []) : OutKeeps s (idle s) := by
  simp only [idle, h]
  exact State.passTime_keeps (Keeps.refl s)

/-- What the ready command in front does keeps all that the state has once the command has left the list. -/
theorem idle_keeps_of_ready {s : State} {work : Todo} {rest : List Todo} (h : s.ready = work :: rest) :
    OutKeeps { s with ready := rest } (idle s) := by
  have hz := Keeps.refl { s with ready := rest }
  unfold idle
  rw [h]
  cases work with
  | slip op x =>
    dsimp only
    split
    · split
      · exact exec_keeps _ (State.updOutst_keeps (State.queueLeft_keeps hz))
      · exact hz
    · exact hz
  | push r f => exact execRING_PUSH_ERROR_REPLY_keeps hz
  | xchg st i => exact execXCHG_ERROR_REPLY_keeps hz
  | holder d => exact execGET_TIMEOUT_keeps hz
  | cat => exact State.catWork_keeps hz
  | barrier => exact State.doBarrier_keeps hz
  | restore => exact State.restoreStep_keeps hz
  | violation c k o => exact execCONSERVATION_VIOLATION_keeps hz
  | hostError q => exact State.hostError_keeps hz
  | revived i => exact State.reviveOver_keeps hz
  | reload => exact State.reloadStep_keeps hz

end Sys2Proof.Machine

section
open Sys2Proof Sys2Proof.Machine

/-- Settles O51: nothing is listed after reset, and GEN_FLOOR is 0. -/
theorem resetMeetsForm : Obligations.ResetMeetsForm := by
  unfold Obligations.ResetMeetsForm
  decide

/-- Settles O52: taking a command off a list changes no store, and what runs then keeps the form (`exec_keeps`, `idle_keeps_of_ready`). -/
theorem stepKeepsForm : Obligations.StepKeepsForm := by
  unfold Obligations.StepKeepsForm
  intro s t hs hstep
  unfold step at hstep
  cases hpending : s.pending with
  | nil =>
    rw [hpending] at hstep
    cases hready : s.ready with
    | nil => exact OutKeeps.wf hs (idle_keeps_of_none_ready hready) hstep
    | cons work rest => exact OutKeeps.wf (z := { s with ready := rest }) hs (idle_keeps_of_ready hready) hstep
  | cons i rest =>
    rw [hpending] at hstep
    exact OutKeeps.wf (z := { s with pending := rest }) hs (exec_keeps i (Keeps.refl _)) hstep

end

namespace Sys2Proof.Machine

/-! ## A micro-operation at the PC goes on, branches or ends the program as its body answers (R128, R130) -/

section
variable {op n : Nat} {s t : State} {r q : Run} {u : Uop} {body : State → Nbu → Run → Uop → UopRes}

/-- It goes on to the next entry. -/
theorem runUop_goes_on (h : s.uopUp op n r u = true) (hbody : body s (s.nbu n) r u = .next t q) (hpc : q.pc = r.pc) :
    runUop op n s body = .next (t.goto n q (r.pc + 1)) := by
  rw [runUop_up h, hbody, UopRes.close, hpc]

/-- It branches. -/
theorem runUop_branches {pc : Nat} (h : s.uopUp op n r u = true) (hbody : body s (s.nbu n) r u = .jump t q pc) :
    runUop op n s body = .next (t.goto n q pc) := by
  rw [runUop_up h, hbody, UopRes.close]

/-- It ends the program. -/
theorem runUop_ends {code aux : Nat} (h : s.uopUp op n r u = true) (hbody : body s (s.nbu n) r u = .stop t code aux) :
    runUop op n s body = .next (t.endRun n code aux) := by
  rw [runUop_up h, hbody, UopRes.close]

/-- An ALU operation writes its result modulo 2^64. -/
theorem alu_writes {f : Nat → Nat → Nat} (h : s.uopUp op n r u = true) :
    alu op n s f = .next (s.goto n (r.put u.d (f ((s.nbu n).sel r u.a) ((s.nbu n).second r u) % 2 ^ 64)) (r.pc + 1)) := by
  have hsecond : (s.nbu n).second r u = if u.mod % 2 == 0 then (s.nbu n).sel r u.b else u.simm := by simp [Nbu.second]
  rw [hsecond]
  exact runUop_goes_on h rfl (Run.put_pc ..)

/-- A loop's end writes its count and branches while it is not zero. -/
theorem runUop_counts {count : Nbu → Run → Uop → Nat} {c : Nat} (h : s.uopUp op n r u = true) (hc : c = count (s.nbu n) r u) :
    runUop op n s (fun s v r u => if count v r u != 0 then .jump s (r.put u.d (count v r u)) (bitsOf u.imm 8 0)
      else .next s (r.put u.d (count v r u))) =
      .next (s.goto n (r.put u.d c) (if c ≠ 0 then bitsOf u.imm 8 0 else r.pc + 1)) := by
  subst hc
  by_cases hzero : count (s.nbu n) r u = 0
  · rw [if_neg (not_not_intro hzero)]
    exact runUop_goes_on h (if_neg (by simpa using hzero)) (Run.put_pc ..)
  · rw [if_pos hzero]
    exact runUop_branches h (if_pos (bne_iff_ne.mpr hzero))

end

/-- An access whose range lies in the program's region passes the check. -/
theorem ite_inRegion {α : Type} {bg : Bool} {a len : Nat} (h : inRegion bg a len = true) (x y : α) :
    (if !inRegion bg a len then x else y) = y := by
  simp [h]

end Sys2Proof.Machine

section
open Sys2Proof Sys2Proof.Machine

/-- Settles O10: the ten ALU operations are one frame over their function (`alu_writes`); the other three pass their region check. -/
theorem aluMicroOpsWriteTheirResult : Obligations.AluMicroOpsWriteTheirResult := by
  unfold Obligations.AluMicroOpsWriteTheirResult
  rintro n s r u v rfl
  refine ⟨fun h => show execADD n s = _ from alu_writes h,
    fun h => show execSUB n s = _ from alu_writes h,
    fun h => show execAND n s = _ from alu_writes h,
    fun h => show execOR n s = _ from alu_writes h,
    fun h => show execXOR n s = _ from alu_writes h,
    fun h => show execSHL n s = _ from alu_writes h,
    fun h => show execSHR n s = _ from alu_writes h,
    fun h => show execSLTU n s = _ from alu_writes h,
    fun h => show execMINU n s = _ from alu_writes h,
    fun h => show execMAXU n s = _ from alu_writes h,
    ?li, ?ldw, ?stw⟩
  case li =>
    intro h
    change execLI n s = _
    exact runUop_goes_on h (by simp only [beq_iff_eq]) (Run.put_pc ..)
  case ldw =>
    intro h hin
    change execLDW n s = _
    exact runUop_goes_on h (ite_inRegion hin ..) (Run.put_pc ..)
  case stw =>
    intro h hin
    change execSTW n s = _
    exact runUop_goes_on h (ite_inRegion hin ..) rfl

/-- Settles O11: the body of each is read off its definition, by its condition where it has one. -/
theorem controlMicroOpsComplete : Obligations.ControlMicroOpsComplete := by
  unfold Obligations.ControlMicroOpsComplete
  rintro n s r u v rfl
  refine ⟨fun h => show execNBU_NOP n s = _ from runUop_goes_on h rfl rfl,
    fun h => show execFENCE_UOP n s = _ from runUop_goes_on h rfl rfl,
    fun h => show execPPB n s = _ from runUop_goes_on h rfl rfl,
    fun h => show execLOOP n s = _ from runUop_goes_on h rfl (Run.put_pc ..), ?endl, ?bz, ?bnz,
    fun h => show execJMP n s = _ from runUop_branches h rfl,
    fun h => show execHALT n s = _ from runUop_ends h rfl, ?yield⟩
  case endl =>
    intro c hc h
    exact show execENDL n s = _ from runUop_counts (count := fun v r u => (v.sel r u.d + 2 ^ 32 - 1) % 2 ^ 32) h hc
  case bz =>
    intro h
    change execBZ n s = _
    split
    case isTrue hzero => exact runUop_branches h (if_pos (beq_iff_eq.mpr hzero))
    case isFalse hne => exact runUop_goes_on h (if_neg (by simpa using hne)) rfl
  case bnz =>
    intro h
    change execBNZ n s = _
    split
    case isTrue hne => exact runUop_branches h (if_pos (bne_iff_ne.mpr hne))
    case isFalse hzero => exact runUop_goes_on h (if_neg (by simpa using hzero)) rfl
  case yield =>
    intro r' h hrun
    change execYIELD n s = _
    refine (runUop_up h _).trans ?_
    simp only [UopRes.close, hrun]

/-- Settles O12: each passes its region check, and what its columns or its queue hold decides the rest of its body. -/
theorem columnMicroOpsComplete : Obligations.ColumnMicroOpsComplete := by
  unfold Obligations.ColumnMicroOpsComplete
  rintro n s r u v bg rfl rfl
  refine ⟨?wpop, ?wpopEmpty, ?rdc, ?wrc, ?lds, ?sts, ?qld, ?emit⟩
  case wpop =>
    rintro a d rest h rfl hwork hin
    change execWPOP n s = _
    refine runUop_goes_on h ?_ (Run.put_pc ..)
    simp only [hwork, ite_inRegion hin]
  case wpopEmpty =>
    intro h hwork hclosed
    change execWPOP n s = _
    refine runUop_goes_on h ?_ (Run.put_pc ..)
    simp only [hwork, hclosed, if_true]
  case rdc =>
    rintro todo l t h rfl hbring
    change execRDC n s = _
    refine runUop_goes_on h ?_ rfl
    simp only [State.feed, hbring]
  case wrc =>
    rintro b h rfl hin
    refine ⟨_, _, rfl, rfl, show execWRC n s = _ from runUop_goes_on h ?_ rfl⟩
    simp only [ite_inRegion hin, beq_iff_eq]
  case lds =>
    rintro a l t h rfl hin hbring
    change execLDS n s = _
    refine runUop_goes_on h ?_ rfl
    simp only [State.feed, ite_inRegion hin, hbring]
  case sts =>
    rintro a cols w h rfl hin htake
    change execSTS n s = _
    refine runUop_goes_on h ?_ rfl
    simp only [ite_inRegion hin, htake]
  case qld =>
    rintro a h rfl hin
    change execQLD n s = _
    exact runUop_goes_on h (ite_inRegion hin ..) rfl
  case emit =>
    rintro a h rfl hin
    change execEMIT n s = _
    refine runUop_goes_on h ?_ rfl
    simp only [ite_inRegion hin, beq_iff_eq]

/-- Settles O13: each passes its region checks; a column consumer hands its unpacked groups to its operation (`consume_unpacked`). -/
theorem computingMicroOpsComplete : Obligations.ComputingMicroOpsComplete := by
  unfold Obligations.ComputingMicroOpsComplete
  rintro n s r u v w bg up gs a b rfl rfl rfl rfl
  refine ⟨fun h => show execUNP n s = _ from runUop_goes_on h rfl rfl, ?dot, ?smx, ?axv, ?dec, ?enc, ?cbe, ?dst, ?topk, ?hmv⟩
  case dot =>
    intro h hvec hscore hgs
    change execDOT n s = _
    refine runUop_goes_on h ?_ rfl
    simp only [hvec, hscore, consume_unpacked hgs, Bool.not_true, Bool.or_self, Bool.false_eq_true, if_false]
  case smx =>
    intro h hin
    change execSMX n s = _
    exact runUop_goes_on h (ite_inRegion hin ..) rfl
  case axv =>
    intro h hin hgs
    change execAXV n s = _
    refine runUop_goes_on h ?_ rfl
    simp only [ite_inRegion hin, consume_unpacked hgs]
  case dec =>
    rintro c h hgs rfl hin
    change execDEC n s = _
    refine runUop_goes_on h ?_ rfl
    simp only [consume_unpacked hgs, hin, if_true]
  case enc =>
    rintro e h hsrc hdst rfl
    change execENC n s = _
    refine runUop_goes_on h ?_ ?_
    · simp only [hsrc, hdst, Bool.not_true, Bool.or_self, Bool.false_eq_true, if_false, beq_iff_eq]
    · simp [encRegs]
  case cbe =>
    intro h hsrc hdst
    change execCBE n s = _
    refine runUop_goes_on h ?_ rfl
    simp only [hsrc, hdst, Bool.not_true, Bool.or_self, Bool.false_eq_true, if_false]
  case dst =>
    rintro l h hacc hgs rfl hquery
    change execDST n s = _
    have hall : gs.any (fun g => !inRegion r.launch.bg ((s.nbu n).sel r u.a + (if r.unp.format = 4 then 64 else 32) * g.2.2.1)
        (if r.unp.format = 4 then 64 else 32)) = false := by
      simpa using hquery
    refine runUop_goes_on h ?_ rfl
    simp only [ite_inRegion hacc, consume_unpacked hgs, beq_iff_eq, hall, Bool.false_eq_true, if_false]
  case topk =>
    rintro h' w' h rfl hin rfl
    change execTOPK n s = _
    exact runUop_goes_on h (ite_inRegion hin ..) (Run.put_pc ..)
  case hmv =>
    intro h hvec hgs hslots
    change execHMV n s = _
    have hall : (slotsIn gs).any (fun t => !inRegion r.launch.bg ((s.nbu n).sel r u.b + 32 * t) 32) = false := by
      simpa using hslots
    refine runUop_goes_on h ?_ rfl
    simp only [ite_inRegion hvec, consume_unpacked hgs, hall, Bool.false_eq_true, if_false]

end

namespace Sys2Proof.Machine

/-! ## A standard program runs to its end as its body answers (R133) -/

theorem runProgram_ends {slot n code aux : Nat} {s t : State} {p : Profile} {r : Run}
    {body : State → Profile → Nbu → Run → State × Nat × Nat} (h : s.programUp slot n p r)
    (hbody : body s p (s.nbu n) r = (t, code, aux)) : runProgram slot n s body = .next (t.endRun n code aux) := by
  rw [runProgram_up h, hbody]

/-- A list all of whose members pass a check has none that fails it. -/
theorem any_not_eq_false {α : Type} {l : List α} {f : α → Bool} (h : ∀ a ∈ l, f a = true) : (l.any fun a => !f a) = false := by
  simpa using h

theorem beq_succ_ne_true {a b : Nat} (h : a = b) : ¬(a == b + 1) = true := by simp [h]

theorem bne_ne_true {a b : Nat} (h : a = b) : ¬(a != b) = true := by simp [h]

end Sys2Proof.Machine

section
open Sys2Proof Sys2Proof.Machine

/-- Settles O14: each program's checks pass by its premises, and its answer is then its own. -/
theorem standardProgramsComplete : Obligations.StandardProgramsComplete := by
  unfold Obligations.StandardProgramsComplete
  intro n s p r v input hv hinput
  -- A named value is put in by its equation turned round: the other way its arithmetic would be evaluated first.
  obtain rfl := hv.symm
  obtain rfl := hinput.symm
  refine ⟨?attn, ?append, ?age, ?scan, ?head, ?copy⟩
  case attn =>
    intro h hclosed hlo hhi hdesc hhurt
    change execATTN n s = _
    have hrange : ¬(!((1 ≤ r.param 1 % 16 : Bool) && (r.param 1 % 16 ≤ 8 : Bool)) || (s.nbu n).work.any fun d => !descOk p n d) = true := by
      simp [hlo, hhi, any_not_eq_false hdesc]
    refine (if_neg (by simp [hclosed])).trans (runProgram_ends h ?_)
    exact (if_neg hrange).trans (if_neg (by simp [hhurt]))
  case append =>
    intro page second t e named fill word a wide grows cut w b1 b2 img h hpage ht he hsecond ha hwide hnamed hgrows hpair hpair2 htok hgen hhurt
      hb1 hb2 hw hword hcut himg hfill
    have hrange : ¬(!inPair n page || !inPair n second || (t ≥ p.tokensPerPage : Bool) || (grows && (s.gen page ≥ 0xFFFFFFFF : Bool))) = true := by
      cases hg : grows with
      | false => simp [hpair, hpair2, htok]
      | true => simp [hpair, hpair2, htok, hgen hg]
    have hsound := ne_true_of_eq_false hhurt
    obtain rfl := hfill.symm
    obtain rfl := himg.symm
    obtain rfl := hcut.symm
    obtain rfl := hword.symm
    obtain rfl := hw.symm
    obtain rfl := hb2.symm
    obtain rfl := hb1.symm
    obtain rfl := hgrows.symm
    obtain rfl := hnamed.symm
    obtain rfl := hwide.symm
    obtain rfl := ha.symm
    obtain rfl := hsecond.symm
    obtain rfl := he.symm
    obtain rfl := ht.symm
    obtain rfl := hpage.symm
    refine ⟨?resumed, ?written, ?ofWide, ?promoted, ?ofNarrow⟩
    case resumed =>
      intro hcut
      refine ⟨_, _, rfl, rfl, ?_⟩
      change execAPPEND n s = _
      exact runProgram_ends h ((if_neg hrange).trans ((if_neg hsound).trans (if_pos hcut)))
    case written =>
      intro hcut hfill
      have hwhole := ne_true_of_eq_false hcut
      change execAPPEND n s = _
      exact runProgram_ends h ((if_neg hrange).trans ((if_neg hsound).trans ((if_neg hwhole).trans (if_pos (beq_iff_eq.mpr hfill)))))
    case ofWide =>
      intro hcut hfill hwide
      have hwhole := ne_true_of_eq_false hcut
      refine ⟨_, rfl, ?_⟩
      change execAPPEND n s = _
      exact runProgram_ends h ((if_neg hrange).trans ((if_neg hsound).trans ((if_neg hwhole).trans
        ((if_neg (beq_succ_ne_true hfill)).trans ((if_neg (bne_ne_true hfill)).trans (if_pos hwide))))))
    case promoted =>
      intro hcut hfill hgrows
      have hwhole := ne_true_of_eq_false hcut
      have hnarrow := ne_true_of_eq_false ((Bool.not_eq_true' _).mp (Bool.and_eq_true_iff.mp hgrows).1)
      refine ⟨_, _, _, rfl, rfl, rfl, ?_⟩
      change execAPPEND n s = _
      exact runProgram_ends h ((if_neg hrange).trans ((if_neg hsound).trans ((if_neg hwhole).trans
        ((if_neg (beq_succ_ne_true hfill)).trans ((if_neg (bne_ne_true hfill)).trans ((if_neg hnarrow).trans (if_pos hgrows)))))))
    case ofNarrow =>
      intro hcut hfill hwide hgrows
      have hwhole := ne_true_of_eq_false hcut
      have hnarrow := ne_true_of_eq_false hwide
      have hfits := ne_true_of_eq_false hgrows
      refine ⟨_, rfl, ?_⟩
      change execAPPEND n s = _
      exact runProgram_ends h ((if_neg hrange).trans ((if_neg hsound).trans ((if_neg hwhole).trans
        ((if_neg (beq_succ_ne_true hfill)).trans ((if_neg (bne_ne_true hfill)).trans ((if_neg hnarrow).trans (if_neg hfits)))))))
  case age =>
    intro src dst z t f h hsrc hdst hpair hpair2 hhurt hz ht hf
    subst hf
    obtain rfl := ht.symm
    obtain rfl := hsrc.symm
    obtain rfl := hdst.symm
    change execAGE n s = _
    have hrange : ¬(!inPair n (r.param 0 % 2 ^ 40) || !inPair n (r.param 1 % 2 ^ 40)) = true := by simp only [hpair, hpair2]; decide
    have hsound := ne_true_of_eq_false hhurt
    simp only [Run.param] at hz
    cases z with
    | page b err =>
      refine runProgram_ends h ((if_neg hrange).trans ((if_neg hsound).trans ?_))
      simp only [← hz, Run.param]
    | overflow =>
      refine runProgram_ends h ((if_neg hrange).trans ((if_neg hsound).trans ?_))
      simp only [← hz]
    | error err =>
      refine runProgram_ends h ((if_neg hrange).trans ((if_neg hsound).trans ?_))
      simp only [← hz]
  case scan =>
    intro fmt dist dim x h hclosed hfmt hdist hdim hfmtOk hdistOk hwork hhurt hx
    obtain rfl := hx.symm
    obtain rfl := hfmt.symm
    obtain rfl := hdist.symm
    obtain rfl := hdim.symm
    change execDIST_SCAN n s = _
    have hrange : ¬(!(r.param 0 % 16 == 0 || ((3 ≤ r.param 0 % 16 : Bool) && (r.param 0 % 16 ≤ 5 : Bool)))
        || (bitsOf (r.param 0) 5 4 > 2 : Bool) || (s.nbu n).work.any fun d => !inPair n (rdLe d 0 8 % 2 ^ 40)) = true := by
      rw [any_not_eq_false hwork]
      simp [hdistOk]
      exact hfmtOk.resolve_left
    refine (if_neg (by simp [hclosed])).trans (runProgram_ends h ?_)
    exact (if_neg hrange).trans (if_neg (ne_true_of_eq_false hhurt))
  case head =>
    intro slot count vectors parts dims recs h hslot hcount hpair hhidden hhurt hvectors hparts hdims hrecs
    obtain rfl := hrecs.symm
    obtain rfl := hdims.symm
    obtain rfl := hparts.symm
    obtain rfl := hvectors.symm
    obtain rfl := hcount.symm
    obtain rfl := hslot.symm
    change execHEAD n s = _
    have hrange : ¬(!inPair n (r.param 0 % 2 ^ 40) || (p.hidden < 32 : Bool)) = true := by
      simp only [hpair]
      simpa using hhidden
    exact runProgram_ends h ((if_neg hrange).trans (if_neg (ne_true_of_eq_false hhurt)))
  case copy =>
    intro src dst second k z q img b c t h hsrc hdst hsecond hk hq hfmt hpair hpair2 himg hc hsec hhurt ht hz hb
    simp only [Run.param] at hsrc hdst hsecond hk
    have hrange : (!inPair n src || !inPair n dst || (q.format > 2 : Bool)) = false := by simp [hpair, hpair2, hfmt]
    have hsecondOk : (c.2 == 1 && !inPair n second) = false := by
      by_cases hwide : c.2 = 1
      · simp [hsec hwide]
      · simp [hwide]
    change execCOPY n s = _
    refine runProgram_ends h ?_
    simp only [← hsrc, ← hdst, ← hsecond, ← hk, hq, ← himg, ← hc, hrange, hsecondOk, hhurt, Bool.false_eq_true, if_false]
    simp only [beq_iff_eq, ge_iff_le, ← ht, ← hz, ← hb]
end

namespace Sys2Proof.Machine

/-! ## Launches, starts and completions (R124-R128, R141, R147) -/

@[simp] theorem State.updNbu_nbu_self (s : State) (n : Nat) (f : Nbu → Nbu) : (s.updNbu n f).nbu n = f (s.nbu n) := by
  simp [State.updNbu]

/-- The launch that a write of CMD0 asks for, with a copy of the parameters as they stand (R126). -/
def State.launchFor (s : State) (n w : Nat) (work : List Bytes) : Launch where
  slot := w % 8
  bg := w.testBit 8
  tag := bitsOf w 47 16
  params := (List.range 13).map (fun i => (s.nbu n).cmdReg ((if w.testBit 8 then 16 else 3) + i))
  work := work

/-- CMD0 after it is written. -/
def Nbu.withCmd0 (v : Nbu) (w : Nat) : Nbu := v.setCmd 0 (bitsOf w 47 16 * 2 ^ 16 + b2n (w.testBit 8) * 256 + w % 8)

theorem State.nbuWrite_cmd0 {s : State} {n w : Nat} (hon : s.nbuOn n = true) (work : List Bytes) :
    s.nbuWrite n 0 w work = (s.setNbu n ((s.nbu n).withCmd0 w)).queueLaunch n (s.launchFor n w work) := by
  simp only [State.nbuWrite, hon, Bool.not_true, Bool.false_eq_true, if_false, beq_self_eq_true, if_true]
  rfl

/-- A launch of a loaded program joins its queue while that has room (R126). -/
theorem State.queueLaunch_of_room {s : State} {n : Nat} {l : Launch} (hroom : (if l.bg then (s.nbu n).bg else (s.nbu n).fg).length < 4)
    (hvalid : s.flag (F.NBU_PROG_VALID.at (8 * l.slot)) = true) :
    s.queueLaunch n l = s.setNbu n { s.nbu n with fg := if l.bg then (s.nbu n).fg else (s.nbu n).fg ++ [l],
                                                  bg := if l.bg then (s.nbu n).bg ++ [l] else (s.nbu n).bg } := by
  have hnotfull : ¬4 ≤ (if l.bg then (s.nbu n).bg else (s.nbu n).fg).length := by omega
  simp only [State.queueLaunch, ge_iff_le, hnotfull, hvalid, Bool.not_true, Bool.false_eq_true, if_false]

theorem State.queueLaunch_joins {s : State} {n : Nat} {l : Launch} (hroom : (if l.bg then (s.nbu n).bg else (s.nbu n).fg).length < 4)
    (hvalid : s.flag (F.NBU_PROG_VALID.at (8 * l.slot)) = true) :
    (if l.bg then ((s.queueLaunch n l).nbu n).bg else ((s.queueLaunch n l).nbu n).fg) =
      (if l.bg then (s.nbu n).bg else (s.nbu n).fg) ++ [l] := by
  rw [State.queueLaunch_of_room hroom hvalid, State.setNbu_nbu_self]
  cases l.bg <;> rfl

/-- The NBU as a closed launch finds it, its base die given nothing. -/
def State.closedQueue (s : State) (n : Nat) : State :=
  (s.updStack (n / 512) (fun k => { k with merges := k.merges ++ [] })).updNbu n (fun v => { v with closed := true })

theorem State.closedQueue_launchFor (s : State) (n w : Nat) (work : List Bytes) :
    (s.closedQueue n).launchFor n w work = s.launchFor n w work := by
  simp only [State.launchFor, State.closedQueue, State.updNbu_nbu_self]
  rfl

/-- With CMD0 written too. -/
def State.launching (s : State) (n w : Nat) : State := (s.closedQueue n).setNbu n (((s.closedQueue n).nbu n).withCmd0 w)

theorem State.launching_nbu (s : State) (n w : Nat) : (s.launching n w).nbu n = { s.nbu n with closed := true }.withCmd0 w := by
  rw [State.launching, State.setNbu_nbu_self, State.closedQueue, State.updNbu_nbu_self]
  rfl

@[simp] theorem State.launching_fg (s : State) (n w : Nat) : ((s.launching n w).nbu n).fg = (s.nbu n).fg := by
  rw [State.launching_nbu]
  rfl

@[simp] theorem State.launching_bg (s : State) (n w : Nat) : ((s.launching n w).nbu n).bg = (s.nbu n).bg := by
  rw [State.launching_nbu]
  rfl

theorem exec_launch_alone {s : State} {n : Nat} (hon : s.nbuOn n = true) (work : List Bytes) (value : Word) :
    exec (.NBU_LAUNCH n [] work true [] [] value) s = .next
      ((s.launching n value.toNat).queueLaunch n (s.launchFor n value.toNat work)) := by
  have hstill : (s.closedQueue n).nbuOn n = true := hon
  rw [State.launching, ← State.closedQueue_launchFor, ← State.nbuWrite_cmd0 hstill]
  exact if_neg (by simp [hon])

/-- Nothing keeps an idle, enabled NBU from taking its next work. -/
theorem nextRun_free {s : State} {n : Nat} (hon : s.nbuOn n = true) (hreload : s.reloading = false)
    (hretrain : s.retraining 2 (n / 512) = false) (hrun : (s.nbu n).run = none) :
    ((s.nbu n).run.isSome || !s.nbuOn n || s.reloading || s.retraining 2 (n / 512)) = false := by
  simp [hon, hreload, hretrain, hrun]

/-! ## Ordinary accesses (R142, R425) -/

theorem State.access_at_once {s : State} {a : Access} (hrun : (s.nbu (a.addr / 2 ^ 27)).run = none)
    (hretrain : s.retraining 2 (a.addr / 2 ^ 27 / 512) = false) : s.access a = s.doAccess a := by
  simp only [State.access, hrun, hretrain, Option.isSome_none, Bool.or_self, Bool.false_eq_true, if_false]

theorem State.access_waits {s : State} {a : Access}
    (hbusy : (s.nbu (a.addr / 2 ^ 27)).run.isSome = true ∨ s.retraining 2 (a.addr / 2 ^ 27 / 512) = true) :
    s.access a = s.updNbu (a.addr / 2 ^ 27) (fun v => { v with waiting := v.waiting ++ [a] }) :=
  if_pos (by simpa using hbusy)

/-- What the issuer does with a completion, by its code (R136, R141, R147). -/
def State.completed (s : State) (n : Nat) (l : Launch) (code : Nat) : State :=
  let recent := ((s.nbu n).parity.filter (fun t => s.tick < t + 100000000)) ++ [s.tick]
  let t := s.updNbu n (fun v => { v with parity := recent })
  if code = 2 then (if 3 ≤ recent.length then t.disableNbu n else (t.resetNbu n).queueLaunch n l)
  else if code = 4 ∨ code = 6 then (if s.nbuOn n then s.queueLaunch n l else s)
  else if code = 0 ∧ l.slot = 1 then s.nameWide n l
  else s

theorem exec_completion {s : State} {n w : Nat} {l : Launch} {rest : List (Launch × Nat)} (hdone : (s.nbu n).done = (l, w) :: rest) :
    exec (.NBU_COMPLETION n) s = .next ((s.updNbu n (fun v => { v with done := rest })).completed n l (w / 2 ^ 56)) := by
  change execNBU_COMPLETION n s = _
  simp only [execNBU_COMPLETION, hdone, State.completed, beq_iff_eq, Bool.or_eq_true, Bool.and_eq_true, ge_iff_le]
  split
  · split <;> rfl
  · split
    · rfl
    · split <;> rfl

section
variable {s : State} {n code : Nat} {l : Launch}

theorem State.completed_ok (hcode : code = 0) (hslot : l.slot ≠ 1) : s.completed n l code = s := by
  simp [State.completed, hcode, hslot]

theorem State.completed_append (hcode : code = 0) (hslot : l.slot = 1) : s.completed n l code = s.nameWide n l := by
  simp [State.completed, hcode, hslot]

theorem State.completed_again (hcode : code = 4 ∨ code = 6) (hon : s.nbuOn n = true) : s.completed n l code = s.queueLaunch n l := by
  have hparity : code ≠ 2 := by omega
  simp only [State.completed, if_neg hparity, if_pos hcode, if_pos hon]

theorem State.completed_parity {recent : List Nat} (hcode : code = 2)
    (hrecent : recent = ((s.nbu n).parity.filter (fun k => decide (s.tick < k + 100000000))) ++ [s.tick]) (hfew : recent.length < 3) :
    s.completed n l code = ((s.updNbu n (fun v => { v with parity := recent })).resetNbu n).queueLaunch n l := by
  have hsecond : ¬3 ≤ recent.length := by omega
  simp only [State.completed, if_pos hcode, ← hrecent, if_neg hsecond]

end

end Sys2Proof.Machine

section
open Sys2Proof Sys2Proof.Machine

/-- Settles O15: each command takes the branch its premises open. -/
theorem nbuLaunchesRunAndComplete : Obligations.NbuLaunchesRunAndComplete := by
  unfold Obligations.NbuLaunchesRunAndComplete
  intro n s hon
  refine ⟨?completes, ?joins, ?startFg, ?startBg, ?completion, ?access, ?refresh, ?forced, ?reset⟩
  case completes =>
    intro params work closed input expect value
    exact (Answers.ite (Answers.next _) (Answers.next _) : Answers (execNBU_LAUNCH n params work closed input expect value s))
  case joins =>
    intro work value l hslot hbg htag hparams hwork hroom hvalid
    have hl : l = s.launchFor n value.toNat work := by
      cases l
      simp_all [State.launchFor]
    refine ⟨_, exec_launch_alone hon work value, ?_⟩
    have hjoins := State.queueLaunch_joins (s := s.launching n value.toNat) (n := n) (l := l) (by simpa using hroom) hvalid
    rw [← hl, hjoins, State.launching_fg, State.launching_bg]
  case startFg =>
    intro l rest hreload hretrain hheld hrun hsusp hfg
    change Host.Outcome.next (s.nextRun n) = _
    simp only [State.nextRun, nextRun_free hon hreload hretrain hrun, hheld, hsusp, hfg, Bool.false_eq_true, if_false]
  case startBg =>
    intro l rest hreload hretrain hheld hrun hsusp hfg hbg hen
    change Host.Outcome.next (s.nextRun n) = _
    simp only [State.nextRun, nextRun_free hon hreload hretrain hrun, hheld, hsusp, hfg, hbg, hen, Bool.false_eq_true, if_false, if_true]
  case completion =>
    intro l w rest t hdone ht
    rw [exec_completion hdone, ← ht]
    refine ⟨fun hcode hslot => ?_, fun hcode hslot => ?_, fun hcode hont => ?_, fun recent t' hcode hrecent hfew ht' => ?_⟩
    · rw [State.completed_ok hcode hslot]
    · rw [State.completed_append hcode hslot]
    · rw [State.completed_again hcode hont]
    · rw [State.completed_parity hcode hrecent hfew, ht']
  case access =>
    intro a data len hpair hlt hstack
    have hpresent : (decide (a / 2 ^ 27 ≥ 6144) || !s.stackOn (a / 2 ^ 27 / 512)) = false := by
      rw [hpair, hstack]
      simpa using hlt
    have haccess : exec (.ORDINARY_ACCESS a data len) s =
        .next (s.access { addr := a, data := data, len := len, since := s.tick, host := false }) := by
      change execORDINARY_ACCESS a data len s = _
      exact if_neg (ne_true_of_eq_false hpresent)
    rw [haccess]
    subst hpair
    refine ⟨fun hrun hretrain => ?_, fun hbusy => ?_⟩
    · rw [State.access_at_once hrun hretrain]
    · rw [State.access_waits hbusy]
  case refresh =>
    intro r bank d hrun hbank hd
    have howed : ¬((s.nbu n).run.isNone || bank > 1 : Bool) = true := by simp [hrun, hbank]
    subst hd
    exact (if_neg howed : execREFRESH_DUE n bank s = _)
  case forced =>
    intro hserved
    change execFORCED_YIELD n s = _
    simp only [execFORCED_YIELD, hserved, if_true]
  case reset =>
    change execNBU_UNIT_RESET n true s = _
    simp [execNBU_UNIT_RESET, hon]
end

namespace Sys2Proof.Machine

/-! ## Parity faults (R146) -/

section
variable {s : State} {n : Nat} {r : Run} (hrun : (s.nbu n).run = some r)
include hrun

theorem exec_parity_reread {tries : Nat} (htries : tries ≠ 0) (ca : Nat) : exec (.NBU_PARITY_ERROR n 0 tries ca) s =
    .next ((s.setNbu n { s.nbu n with rereads := sat 8 ((s.nbu n).rereads + min tries 2) }).bump F.NBU_CNT_REREAD_COUNT) := by
  change execNBU_PARITY_ERROR n 0 tries ca s = _
  simp [execNBU_PARITY_ERROR, hrun, htries]

theorem exec_parity_operand (ca : Nat) : exec (.NBU_PARITY_ERROR n 0 0 ca) s =
    .next (((s.setNbu n { s.nbu n with rereads := sat 8 ((s.nbu n).rereads + 2), cause := 1, ca := ca }).errRecord
      3 Ek.NBU_PARITY (errUnit 1 n) ca 0).endRun n 2 0) := by
  change execNBU_PARITY_ERROR n 0 0 ca s = _
  simp [execNBU_PARITY_ERROR, hrun]

theorem exec_parity_sram (tries ca : Nat) : exec (.NBU_PARITY_ERROR n 1 tries ca) s =
    .next (((s.setNbu n { s.nbu n with cause := 2 }).errRecord 3 Ek.NBU_PARITY (errUnit 1 n) ca 0).endRun n 2 0) := by
  change execNBU_PARITY_ERROR n 1 tries ca s = _
  simp [execNBU_PARITY_ERROR, hrun]

theorem exec_parity_store {place : Nat} (hplace : 2 ≤ place) (tries ca : Nat) : exec (.NBU_PARITY_ERROR n place tries ca) s =
    .next (((s.setNbu n { s.nbu n with cause := 3 }).errRecord 1 Ek.NBU_STORE (errUnit 1 n) r.pc 0).endRun n 6 0) := by
  have hoperand : place ≠ 0 := by omega
  have hsram : place ≠ 1 := by omega
  change execNBU_PARITY_ERROR n place tries ca s = _
  simp [execNBU_PARITY_ERROR, hrun, hoperand, hsram]

end

theorem exec_parity_idle {s : State} {n : Nat} (hrun : (s.nbu n).run = none) (place tries ca : Nat) :
    exec (.NBU_PARITY_ERROR n place tries ca) s = .next s := by
  change execNBU_PARITY_ERROR n place tries ca s = _
  simp only [execNBU_PARITY_ERROR, hrun]

/-! ## The merge unit (R135) -/

theorem exec_merge_empty {s : State} {k : Nat} (hinbox : (s.stack k).inbox = []) : exec (.MERGE_RECORD k) s = .next s := by
  change execMERGE_RECORD k s = _
  simp only [execMERGE_RECORD, hinbox]

section
variable {s : State} {k : Nat} {r : Rec} {rest : List Rec} (hinbox : (s.stack k).inbox = r :: rest)
include hinbox

theorem exec_merge_unannounced (hfind : (s.stack k).merges.find? (fun m => m.kind == r.kind && m.key == r.key) = none) :
    exec (.MERGE_RECORD k) s = .next ((s.updStack k (fun k => { k with inbox := rest })).emit (.record k r.kind r.body)) := by
  change execMERGE_RECORD k s = _
  simp only [execMERGE_RECORD, hinbox, hfind]

variable {m : Merge} {body : Bytes} (hfind : (s.stack k).merges.find? (fun m => m.kind == r.kind && m.key == r.key) = some m)
  (hbody : body = (if m.got = 0 then r.body else if r.kind = 0 then mergeRecs m.body r.body else addLogits m.body r.body))
include hfind hbody

theorem exec_merge_folds (hmore : m.got + 1 < m.expect) :
    exec (.MERGE_RECORD k) s = .next ((s.updStack k (fun k => { k with inbox := rest })).updStack k (fun q => { q with
      merges := (s.stack k).merges.filter (fun x => !(x.kind == r.kind && x.key == r.key)) ++ [{ m with got := m.got + 1, body := body }] })) := by
  have hnotlast : ¬m.expect ≤ m.got + 1 := by omega
  change execMERGE_RECORD k s = _
  simp only [execMERGE_RECORD, hinbox, hfind, beq_iff_eq, ← hbody, ge_iff_le, hnotlast, if_false]

theorem exec_merge_last (hlast : m.expect ≤ m.got + 1) :
    exec (.MERGE_RECORD k) s = .next (((s.updStack k (fun k => { k with inbox := rest })).updStack k (fun q => { q with
      merges := (s.stack k).merges.filter (fun x => !(x.kind == r.kind && x.key == r.key)) })).emit (.record k r.kind
        (if r.kind = 0 then patch body 0x0A (leBytes 2 (rdLe body 0x0A 2 ||| 2)) else body))) := by
  change execMERGE_RECORD k s = _
  simp only [execMERGE_RECORD, hinbox, hfind, beq_iff_eq, ← hbody, ge_iff_le, hlast, if_true]

end

end Sys2Proof.Machine

section
open Sys2Proof Sys2Proof.Machine

/-- Settles O16: each fault, broadcast and record takes the branch its premises open. -/
theorem nbuFaultsAndBroadcastsComplete : Obligations.NbuFaultsAndBroadcastsComplete := by
  unfold Obligations.NbuFaultsAndBroadcastsComplete
  refine ⟨?fault, fun n place tries ca s hrun => exec_parity_idle hrun place tries ca, ?broadcast, fun s => rfl,
    fun k s hinbox => exec_merge_empty hinbox, ?merge⟩
  case fault =>
    rintro n tries ca s r v hrun rfl
    exact ⟨fun htries => exec_parity_reread hrun htries ca, exec_parity_operand hrun ca, exec_parity_sram hrun tries ca,
      fun place hplace => exec_parity_store hrun hplace tries ca⟩
  case broadcast => exact fun value s => ⟨rfl, rfl⟩
  case merge =>
    rintro k s r rest t hinbox rfl
    refine ⟨exec_merge_unannounced hinbox, ?_⟩
    rintro m body others hfind rfl hbody
    exact ⟨exec_merge_folds hinbox hfind hbody, exec_merge_last hinbox hfind hbody⟩

end

namespace Sys2Proof.Machine

/-! ## Reads beside a write, in any list -/

section
variable {α : Type} {d : Nat → α}

theorem sGet_sErase_other {k j : Nat} (hkey : j ≠ k) (l : List (Nat × α)) : sGet d (sErase l k) j = sGet d l j := by
  induction l with
  | nil => rfl
  | cons p l ih =>
    obtain ⟨i, v⟩ := p
    by_cases hbelow : k < i
    · simp only [sErase, if_pos hbelow]
    · by_cases hhere : i = k
      · have hnot : k ≠ j := Ne.symm hkey
        simp [sErase, sGet, hhere, hnot]
      · simp only [sErase, if_neg hbelow, beq_iff_eq, if_neg hhere, sGet, ih]

theorem sGet_sSet_other [DecidableEq α] {k j : Nat} (hkey : j ≠ k) (l : List (Nat × α)) (v : α) : sGet d (sSet d l k v) j = sGet d l j := by
  unfold sSet
  split
  · exact sGet_sErase_other hkey l
  · rw [sGet_sPut, if_neg hkey]

end

/-- One column of a WRC changes only bytes of the column. -/
theorem sGet_writeBytes_other {en a j : Nat} (l : List (Byte × Nat)) (hl : ∀ x ∈ l, j ≠ a + x.2) (m : List (Nat × Byte)) :
    sGet (fun _ => 0) (l.foldl (fun m x => if en.testBit x.2 then memPut m (a + x.2) [x.1] else m) m) j = sGet (fun _ => 0) m j := by
  induction l generalizing m with
  | nil => rfl
  | cons x l ih =>
    rw [List.foldl_cons, ih (fun y hy => hl y (List.mem_cons_of_mem _ hy))]
    split
    · exact sGet_sSet_other (hl x List.mem_cons_self) m x.1
    · rfl

theorem sGet_writeCols_other {en j : Nat} (cols : List (Nat × Bytes)) (hcols : ∀ c ∈ cols, ∀ i < c.2.length, j ≠ c.1 + i)
    (m : List (Nat × Byte)) : sGet (fun _ => 0) (writeCols m en cols) j = sGet (fun _ => 0) m j := by
  induction cols generalizing m with
  | nil => rfl
  | cons c cols ih =>
    rw [writeCols, ih (fun c hc => hcols c (List.mem_cons_of_mem _ hc)), sGet_writeBytes_other]
    exact fun x hx => hcols c List.mem_cons_self x.2 (by simpa using List.snd_lt_of_mem_zipIdx hx)

/-- A byte of a column of NBU n's pair lies in that pair (R116, R119). -/
theorem colAddr_pair (n ca : Nat) {i : Nat} (hi : i < 64) : (colAddr n ca + i) / 2 ^ 27 = n := by
  have hcol : ca % 2 ^ 21 < 2 ^ 21 := Nat.mod_lt _ (by decide)
  unfold colAddr
  omega

/-! ## What stays as it was while NBU n works -/

/-- From `s` to `t`, no other NBU, no byte of HBM outside the pair of NBU n, no session, slip or byte of the cellar has changed, and no
ordinary access waits at NBU n. -/
structure StaysOn (n : Nat) (s t : State) : Prop where
  nbus : ∀ m, m ≠ n → t.nbu m = s.nbu m
  hbm : ∀ a, a / 2 ^ 27 ≠ n → sGet (fun _ => 0) t.hbm a = sGet (fun _ => 0) s.hbm a
  sessions : t.sessions = s.sessions
  slips : t.slips = s.slips
  cellar : t.cellar = s.cellar
  waiting : (t.nbu n).waiting = []

theorem StaysOn.refl {n : Nat} {s : State} (hw : (s.nbu n).waiting = []) : StaysOn n s s :=
  ⟨fun _ _ => rfl, fun _ _ => rfl, rfl, rfl, rfl, hw⟩

section
variable {n : Nat} {s t u : State}

/-- What touches none of these. -/
theorem StaysOn.of_same (h : StaysOn n s t) (hnbus : u.nbus = t.nbus := by rfl) (hhbm : u.hbm = t.hbm := by rfl)
    (hsessions : u.sessions = t.sessions := by rfl) (hslips : u.slips = t.slips := by rfl) (hcellar : u.cellar = t.cellar := by rfl) :
    StaysOn n s u := by
  have hnbu : ∀ m, u.nbu m = t.nbu m := fun m => by rw [State.nbu, hnbus, State.nbu]
  exact ⟨fun m hm => (hnbu m).trans (h.nbus m hm), fun a ha => hhbm ▸ h.hbm a ha, hsessions.trans h.sessions, hslips.trans h.slips,
    hcellar.trans h.cellar, hnbu n ▸ h.waiting⟩

theorem StaysOn.ite {c : Prop} [Decidable c] (ht : StaysOn n s t) (hu : StaysOn n s u) : StaysOn n s (if c then t else u) := by
  split <;> assumption

theorem State.setNbu_staysOn {v : Nbu} (h : StaysOn n s t) (hv : v.waiting = []) : StaysOn n s (t.setNbu n v) where
  nbus m hm := by
    rw [State.nbu, State.setNbu, tGet_tPut_other hm]
    exact h.nbus m hm
  hbm := h.hbm
  sessions := h.sessions
  slips := h.slips
  cellar := h.cellar
  waiting := by rw [State.setNbu_nbu_self, hv]

theorem State.updNbu_staysOn {f : Nbu → Nbu} (h : StaysOn n s t) (hf : ∀ v, (f v).waiting = v.waiting) : StaysOn n s (t.updNbu n f) :=
  State.setNbu_staysOn h ((hf _).trans h.waiting)

theorem State.bump_staysOn (h : StaysOn n s t) (f : Fld) : StaysOn n s (t.bump f) := h.of_same

theorem State.clearMarks_staysOn (h : StaysOn n s t) (a k : Nat) : StaysOn n s (t.clearMarks a k) := h.of_same

/-- A fold of steps that each stay. -/
theorem foldl_staysOn {α : Type} {f : State → α → State} (l : List α) (h : StaysOn n s t) (hf : ∀ t x, StaysOn n s t → StaysOn n s (f t x)) :
    StaysOn n s (l.foldl f t) := by
  induction l generalizing t with
  | nil => exact h
  | cons x l ih => exact ih (hf _ _ h)

theorem State.serve_staysOn (h : StaysOn n s t) (k : Nat) : StaysOn n s (t.serve n k) := by
  simp only [State.serve, h.waiting, List.take_nil, List.foldl_nil, List.drop_nil]
  exact State.setNbu_staysOn h rfl

theorem State.complete_staysOn (h : StaysOn n s t) (l : Launch) (code aux : Nat) : StaysOn n s (t.complete n l code aux) := by
  have hresult := State.updNbu_staysOn h (f := fun v => { v.setCmd (if l.bg then 2 else 1) (resultWord code l.tag aux) with
    done := v.done ++ [(l, resultWord code l.tag aux)], fails := if code == 2 || code == 5 || code == 6 then sat 8 (v.fails + 1) else v.fails })
    (fun _ => rfl)
  have hcounted := StaysOn.ite (c := (code == 0) = true) (State.bump_staysOn hresult F.NBU_CNT_PROG_COUNT)
    (StaysOn.ite (c := (code == 2 || code == 5 || code == 6 || code == 7) = true) (State.bump_staysOn hresult F.NBU_CNT_FAIL_COUNT) hresult)
  exact hcounted.of_same

theorem State.endRun_staysOn (h : StaysOn n s t) (code aux : Nat) : StaysOn n s (t.endRun n code aux) := by
  cases hrun : (t.nbu n).run with
  | none => simpa only [State.endRun, hrun] using h
  | some r =>
    simp only [State.endRun, hrun]
    refine State.serve_staysOn (State.updNbu_staysOn (State.complete_staysOn h r.launch code aux) ?_) _
    exact fun _ => rfl

theorem State.goto_staysOn (h : StaysOn n s t) (r : Run) (pc : Nat) : StaysOn n s (t.goto n r pc) := by
  have hgone := State.updNbu_staysOn h (f := fun v => { v with run := some { r with pc := pc } }) (fun _ => rfl)
  exact StaysOn.ite hgone (State.endRun_staysOn hgone 7 0)

theorem State.yieldAt_staysOn (h : StaysOn n s t) : StaysOn n s (t.yieldAt n).1 := by
  cases hrun : (t.nbu n).run with
  | none => simpa only [State.yieldAt, hrun] using h
  | some r =>
    have hserved : StaysOn n s ((t.serve n 4).bumpBy F.NBU_CNT_YACC_COUNT (min 4 (t.nbu n).waiting.length)) := (State.serve_staysOn h 4).of_same
    simp only [State.yieldAt, hrun]
    generalize (t.serve n 4).bumpBy F.NBU_CNT_YACC_COUNT (min 4 (t.nbu n).waiting.length) = served at hserved ⊢
    have hpaid : ∀ debt, StaysOn n s ((if (payDebt (t.nbu n).debt (t.nbu n).ppOn (t.nbu n).ppActive).2 = true then
        served.bump F.NBU_CNT_RSUSP_COUNT else served).updNbu n (fun v => { v with debt := debt })) := fun _ =>
      State.updNbu_staysOn (StaysOn.ite (State.bump_staysOn hserved _) hserved) (fun _ => rfl)
    refine StaysOn.ite (State.updNbu_staysOn (hpaid _) ?_) (hpaid _)
    exact fun _ => rfl

end

/-! ## What a micro-operation's body answers stays on its NBU -/

/-- The state of a body's answer, if it has one. -/
def UopStays (n : Nat) (s : State) : UopRes → Prop
  | .next t _ => StaysOn n s t
  | .jump t _ _ => StaysOn n s t
  | .stall => True
  | .stop t _ _ => StaysOn n s t
  | .yield t => StaysOn n s t

/-- The next state of an outcome, if it has one. -/
def OutStays (n : Nat) (s : State) (o : Host.Outcome State Fault Refusal) : Prop := ∀ t, o = .next t → StaysOn n s t

section
variable {n : Nat} {s t : State}

theorem OutStays.next (h : StaysOn n s t) : OutStays n s (.next t) := by
  rintro _ ⟨⟩
  exact h

theorem UopStays.ite {c : Prop} [Decidable c] {x y : UopRes} (hx : UopStays n s x) (hy : UopStays n s y) :
    UopStays n s (if c then x else y) := by
  split <;> assumption

theorem UopRes.close_staysOn {x : UopRes} (hs : StaysOn n s s) (hx : UopStays n s x) : StaysOn n s (x.close s n) := by
  cases x with
  | next t r => exact State.goto_staysOn hx ..
  | jump t r pc => exact State.goto_staysOn hx ..
  | stall => exact hs
  | stop t code aux => exact State.endRun_staysOn hx ..
  | yield t =>
    simp only [UopRes.close]
    split
    · exact State.goto_staysOn hx ..
    · exact State.updNbu_staysOn hx (fun _ => rfl)
    · exact hx

/-- What a micro-operation does: nothing, where it is not the one at the PC; end the program, where none may execute there; or what its
body answers. -/
theorem runUop_cases (op n : Nat) (s : State) (body : State → Nbu → Run → Uop → UopRes) :
    runUop op n s body = .next s ∨ runUop op n s body = .next (s.endRun n 7 0)
      ∨ ∃ r u, runUop op n s body = .next ((body s (s.nbu n) r u).close s n) := by
  cases hrun : (s.nbu n).run with
  | none => exact .inl (by simp only [runUop, hrun])
  | some r =>
    cases hprofile : s.profile with
    | none => exact .inl (by simp only [runUop, hrun, hprofile])
    | some p =>
      simp only [runUop, hrun, hprofile]
      cases hword : p.storeWord r.pc with
      | none => exact .inr (.inl rfl)
      | some w =>
        dsimp only
        split
        · exact .inr (.inl rfl)
        · split
          · exact .inl rfl
          · exact .inr (.inr ⟨r, Uop.of w, rfl⟩)

theorem runUop_stays {op : Nat} {body : State → Nbu → Run → Uop → UopRes} (hs : StaysOn n s s)
    (hbody : ∀ r u, UopStays n s (body s (s.nbu n) r u)) : OutStays n s (runUop op n s body) := by
  rcases runUop_cases op n s body with h | h | ⟨r, u, h⟩
  · exact h ▸ .next hs
  · exact h ▸ .next (State.endRun_staysOn hs 7 0)
  · exact h ▸ .next (UopRes.close_staysOn hs (hbody r u))

theorem State.mediaStop_stays (h : StaysOn n s t) (ca : Nat) : UopStays n s (t.mediaStop n ca) :=
  State.updNbu_staysOn h (fun _ => rfl)

theorem State.feed_stays {v : Nbu} (h : StaysOn n s t) (hv : v.waiting = []) (todo : List (Nat × Option Bytes)) (r : Run) :
    UopStays n s (t.feed n v todo r) := by
  have hfed : ∀ latch toRead, StaysOn n s (t.setNbu n { v with latch := latch, toRead := toRead }) := fun _ _ => State.setNbu_staysOn h hv
  simp only [State.feed]
  split
  · exact State.mediaStop_stays (hfed _ _) _
  · exact hfed _ _

end

/-! ## Work in SRAM and the latch FIFO leaves the accesses that wait -/

section
variable (v : Nbu) (bg : Bool)

@[simp] theorem Nbu.wr_waiting (a : Nat) (b : Bytes) : (v.wr bg a b).waiting = v.waiting := rfl

@[simp] theorem Nbu.wrW_waiting (a w : Nat) : (v.wrW bg a w).waiting = v.waiting := rfl

@[simp] theorem Nbu.accum_waiting (l : List (Nat × List (Nat × Nat))) : (v.accum bg l).waiting = v.waiting := by
  induction l generalizing v with
  | nil => rfl
  | cons x l ih => rw [Nbu.accum, ih, Nbu.wrW_waiting]

/-- A fold of steps that each leave them. -/
theorem foldl_waiting {α : Type} {f : Nbu → α → Nbu} (hf : ∀ v x, (f v x).waiting = v.waiting) (l : List α) :
    (l.foldl f v).waiting = v.waiting := by
  induction l generalizing v with
  | nil => rfl
  | cons x l ih => rw [List.foldl_cons, ih, hf]

@[simp] theorem smxOne_waiting (a t mask scale k : Nat) : (smxOne bg a t mask scale v k).waiting = v.waiting := by
  simp only [smxOne, Nbu.wrW_waiting]
  refine foldl_waiting v ?_ _
  exact fun _ _ => rfl

@[simp] theorem topkOne_waiting (h id dist thr : Nat) : (topkOne v bg h id dist thr).waiting = v.waiting := by
  simp only [topkOne]
  split <;> rfl

@[simp] theorem dstOne_waiting (a b dist : Nat) (fp16 last : Bool) (gs : List (Nat × Nat × Nat × List Nat)) :
    (dstOne v bg a b dist fp16 last gs).waiting = v.waiting := by
  simp only [dstOne]
  split <;> simp

end

theorem State.takeCols_waiting {s : State} {n k : Nat} {cols : List Bytes} {w : Nbu} (h : s.takeCols n k = some (.inl (cols, w))) :
    w.waiting = (s.nbu n).waiting := by
  simp only [State.takeCols] at h
  split at h
  · cases h
  · split at h
    · cases h
    · cases h
      rfl

theorem State.consume_stays {n k : Nat} {s : State} {r : Run}
    {f : Nbu → Run → List (Nat × Nat × Nat × List Nat) → Option (Nbu × Run)} (hs : StaysOn n s s)
    (hf : ∀ v r gs w q, f v r gs = some (w, q) → w.waiting = v.waiting) : UopStays n s (s.consume n r k f) := by
  unfold State.consume
  split
  · trivial
  · exact State.mediaStop_stays hs _
  · next hcols _ =>
    dsimp only
    split
    · exact hs
    · split
      · exact State.mediaStop_stays hs _
      · split
        · next hres => exact State.setNbu_staysOn hs ((hf _ _ _ _ _ hres).trans ((State.takeCols_waiting hcols).trans hs.waiting))
        · exact hs
  · trivial

/-! ## Every micro-operation stays on its NBU -/

section
variable {n : Nat} {s : State} (hs : StaysOn n s s)
include hs

theorem alu_stays (op : Nat) (f : Nat → Nat → Nat) : OutStays n s (alu op n s f) := runUop_stays hs fun _ _ => hs

theorem runUop_count_stays (op : Nat) (count : Nbu → Run → Uop → Nat) : OutStays n s (runUop op n s fun s v r u =>
    if count v r u != 0 then .jump s (r.put u.d (count v r u)) (bitsOf u.imm 8 0) else .next s (r.put u.d (count v r u))) :=
  runUop_stays hs fun _ _ => .ite hs hs

theorem execWPOP_stays : OutStays n s (execWPOP n s) := by
  refine runUop_stays hs fun r u => ?_
  cases hwork : (s.nbu n).work with
  | nil =>
    exact .ite hs trivial
  | cons d rest =>
    exact .ite hs (State.setNbu_staysOn hs hs.waiting)

theorem execSTW_stays : OutStays n s (execSTW n s) :=
  runUop_stays hs fun _ _ => .ite hs (State.setNbu_staysOn hs hs.waiting)

theorem execWRC_stays : OutStays n s (execWRC n s) := by
  refine runUop_stays hs fun r u => .ite hs ?_
  have hbase : ∀ en cols, (∀ c ∈ cols, ∃ ca, c.1 = colAddr n ca ∧ c.2.length = 64) →
      StaysOn n s { s with hbm := writeCols s.hbm en cols } := fun en cols hcols =>
    { hs with hbm := fun a ha => sGet_writeCols_other cols (fun c hc i hi heq => by
        obtain ⟨ca, hca, hlen⟩ := hcols c hc
        exact ha (by rw [heq, hca]; exact colAddr_pair n ca (by omega))) s.hbm }
  have hcols := hbase ((s.nbu n).sel r u.d) ((List.range u.n).map fun i => (colAddr n ((s.nbu n).sel r u.a + bitsOf u.imm 20 0 + i),
    (s.nbu n).rd r.launch.bg (alignDown ((s.nbu n).sel r u.b) 64 + 64 * i) 64)) (by
      simp only [List.mem_map]
      rintro _ ⟨i, -, rfl⟩
      exact ⟨_, rfl, by simp [Nbu.rd]⟩)
  exact StaysOn.ite (foldl_staysOn _ hcols fun t c ht => State.clearMarks_staysOn ht ..) hcols

theorem execLDS_stays : OutStays n s (execLDS n s) :=
  runUop_stays hs fun _ _ => .ite hs (State.feed_stays hs hs.waiting _ _)

theorem execSTS_stays : OutStays n s (execSTS n s) := by
  refine runUop_stays hs fun r u => .ite hs ?_
  split
  · trivial
  · exact State.mediaStop_stays hs _
  · next hcols => exact State.setNbu_staysOn hs ((State.takeCols_waiting hcols).trans hs.waiting)

theorem execDOT_stays : OutStays n s (execDOT n s) := by
  refine runUop_stays hs fun r u => .ite hs (State.consume_stays hs ?_)
  rintro v r gs w q ⟨⟩
  exact Nbu.accum_waiting ..

theorem execSMX_stays : OutStays n s (execSMX n s) := by
  refine runUop_stays hs fun r u => .ite hs (State.setNbu_staysOn hs ?_)
  exact (foldl_waiting _ (fun v k => smxOne_waiting v ..) _).trans hs.waiting

theorem execAXV_stays : OutStays n s (execAXV n s) := by
  refine runUop_stays hs fun r u => .ite hs (State.consume_stays hs ?_)
  rintro v r gs w q ⟨⟩
  exact Nbu.accum_waiting ..

theorem execDEC_stays : OutStays n s (execDEC n s) := by
  refine runUop_stays hs fun r u => State.consume_stays hs ?_
  intro v r gs w q h
  obtain ⟨-, h⟩ := Option.ite_none_right_eq_some.mp h
  cases h
  rfl

theorem execENC_stays : OutStays n s (execENC n s) :=
  runUop_stays hs fun _ _ => .ite hs (State.setNbu_staysOn hs hs.waiting)

theorem execCBE_stays : OutStays n s (execCBE n s) :=
  runUop_stays hs fun _ _ => .ite hs (State.setNbu_staysOn hs ((Nbu.accum_waiting ..).trans hs.waiting))

theorem execDST_stays : OutStays n s (execDST n s) := by
  refine runUop_stays hs fun r u => .ite hs (State.consume_stays hs ?_)
  intro v r gs w q h
  obtain ⟨-, h⟩ := Option.ite_none_left_eq_some.mp h
  cases h
  exact dstOne_waiting ..

theorem execTOPK_stays : OutStays n s (execTOPK n s) :=
  runUop_stays hs fun _ _ => .ite hs (State.setNbu_staysOn hs ((topkOne_waiting ..).trans hs.waiting))

theorem execHMV_stays : OutStays n s (execHMV n s) := by
  refine runUop_stays hs fun r u => .ite hs (State.consume_stays hs ?_)
  intro v r gs w q h
  obtain ⟨-, h⟩ := Option.ite_none_left_eq_some.mp h
  cases h
  exact Nbu.accum_waiting ..

theorem microOps_stay : ∀ i ∈ microOps n, OutStays n s (exec i s) := by
  simp only [microOps, List.forall_mem_cons]
  refine ⟨show OutStays n s (execNBU_NOP n s) from runUop_stays hs fun _ _ => hs,
    show OutStays n s (execYIELD n s) from runUop_stays hs fun _ _ => State.yieldAt_staysOn hs,
    show OutStays n s (execHALT n s) from runUop_stays hs fun _ _ => hs,
    show OutStays n s (execLOOP n s) from runUop_stays hs fun _ _ => hs,
    show OutStays n s (execENDL n s) from runUop_count_stays hs 0x04 fun v r u => (v.sel r u.d + 2 ^ 32 - 1) % 2 ^ 32,
    show OutStays n s (execBZ n s) from runUop_stays hs fun _ _ => .ite hs hs,
    show OutStays n s (execBNZ n s) from runUop_stays hs fun _ _ => .ite hs hs,
    show OutStays n s (execJMP n s) from runUop_stays hs fun _ _ => hs,
    execWPOP_stays hs,
    show OutStays n s (execPPB n s) from runUop_stays hs fun _ _ => State.setNbu_staysOn hs hs.waiting,
    show OutStays n s (execFENCE_UOP n s) from runUop_stays hs fun _ _ => hs,
    show OutStays n s (execLI n s) from runUop_stays hs fun _ _ => hs,
    show OutStays n s (execADD n s) from alu_stays hs _ _,
    show OutStays n s (execSUB n s) from alu_stays hs _ _,
    show OutStays n s (execAND n s) from alu_stays hs _ _,
    show OutStays n s (execOR n s) from alu_stays hs _ _,
    show OutStays n s (execXOR n s) from alu_stays hs _ _,
    show OutStays n s (execSHL n s) from alu_stays hs _ _,
    show OutStays n s (execSHR n s) from alu_stays hs _ _,
    show OutStays n s (execSLTU n s) from alu_stays hs _ _,
    show OutStays n s (execMINU n s) from alu_stays hs _ _,
    show OutStays n s (execMAXU n s) from alu_stays hs _ _,
    show OutStays n s (execLDW n s) from runUop_stays hs fun _ _ => .ite hs hs,
    execSTW_stays hs,
    show OutStays n s (execRDC n s) from runUop_stays hs fun _ _ => State.feed_stays hs hs.waiting _ _,
    execWRC_stays hs,
    execLDS_stays hs,
    execSTS_stays hs,
    show OutStays n s (execQLD n s) from runUop_stays hs fun _ _ => .ite hs (State.setNbu_staysOn hs hs.waiting),
    show OutStays n s (execEMIT n s) from runUop_stays hs fun _ _ => .ite hs hs.of_same,
    show OutStays n s (execUNP n s) from runUop_stays hs fun _ _ => hs,
    execDOT_stays hs, execSMX_stays hs, execAXV_stays hs, execDEC_stays hs, execENC_stays hs, execCBE_stays hs,
    execDST_stays hs, execTOPK_stays hs, execHMV_stays hs, by simp⟩

end

end Sys2Proof.Machine

section
open Sys2Proof Sys2Proof.Machine

/-- Settles O17: every micro-operation's body stays on its NBU (`microOps_stay`), and so does what the frame makes of its answer. -/
theorem microOpsStayOnTheirUnit : Obligations.MicroOpsStayOnTheirUnit := by
  unfold Obligations.MicroOpsStayOnTheirUnit
  intro n s t i hwaiting hi hexec
  obtain ⟨hnbus, hhbm, hsessions, hslips, hcellar, -⟩ := microOps_stay (StaysOn.refl hwaiting) i hi t hexec
  refine ⟨hnbus, fun a ha => ?_, hsessions, ?_, hslips, hcellar⟩
  · simp only [State.hbmRd, List.range_one, List.map_cons, List.map_nil, Nat.add_zero, hhbm a ha]
  · funext c tag
    simp only [State.outst, hslips]

end

namespace Sys2Proof.Machine

/-! ## Host accesses of device memory (R119-R122, R437, R439) -/

/-- A host access through a decoder that claims the line, no cellar channel holding it. -/
theorem State.hostAccess_claimed {s : State} {dec hpa a : Nat} {d : Decoder} (hcxl : s.cxlMem = true)
    (hdec : s.host.decoders[dec]? = some d) (ha : d.offset (hpa / 64 * 64) = some a)
    (hfree : s.visibleAt (dec == 1) a = true → s.channelBusy (dec == 1) a = none) :
    s.hostAccess dec hpa .read = s.hostRead (dec == 1) a
      ∧ ∀ off b, s.hostAccess dec hpa (.write off b) =
        if off + b.length > 64 || b.isEmpty then s else s.hostWriteLine (dec == 1) a off b := by
  have hbusy : (if s.memActive && s.visibleAt (dec == 1) a then s.channelBusy (dec == 1) a else none) = none := by
    cases hv : s.visibleAt (dec == 1) a with
    | false => simp
    | true => simp [hfree hv]
  exact ⟨by simp only [State.hostAccess, hcxl, hdec, ha, hbusy, Bool.not_true, Bool.false_eq_true, if_false],
    fun off b => by simp only [State.hostAccess, hcxl, hdec, ha, hbusy, Bool.not_true, Bool.false_eq_true, if_false]⟩

/-- While a bundle is loaded, an offset in none of the plan's regions is hidden. -/
theorem State.visibleAt_eq_false {s : State} {p : Profile} {dec a : Nat} (hp : s.profile = some p) (hloaded : s.loaded = true)
    (hout : ∀ r ∈ p.visible.take 16, ¬(r.space = (if dec = 1 then 1 else 0) ∧ r.base ≤ a ∧ a < r.base + r.size)) :
    s.visibleAt (dec == 1) a = false := by
  have hspace : b2n (dec == 1) = if dec = 1 then 1 else 0 := by
    by_cases hdec : dec = 1 <;> simp [b2n, hdec]
  simp only [State.visibleAt, State.visible, hp, hloaded, if_true, hspace]
  refine List.any_eq_false.mpr fun r hr hin => hout r hr ?_
  simpa [and_assoc] using hin

/-- A hidden line reads as 64 zero bytes, Memory_Active set or clear. -/
theorem State.hostRead_hidden {s : State} {hdm1 : Bool} {a : Nat} (hhidden : s.visibleAt hdm1 a = false) :
    ∃ t : State, s.hostRead hdm1 a = t.emit (.memData (List.replicate 64 0) false) ∧ t.outbox = s.outbox ∧ t.hbm = s.hbm ∧ t.cellar = s.cellar := by
  cases hactive : s.memActive with
  | false => exact ⟨s, by simp [State.hostRead, hactive], rfl, rfl, rfl⟩
  | true => exact ⟨s.bump F.CXL_CNT_HIDDEN_RD_COUNT, by simp [State.hostRead, hactive, hhidden], rfl, rfl, rfl⟩

/-- A write to a hidden line at most counts. -/
theorem State.hostWriteLine_hidden {s : State} {hdm1 : Bool} {a : Nat} (hhidden : s.visibleAt hdm1 a = false) (off : Nat) (b : Bytes) :
    s.hostWriteLine hdm1 a off b = s ∨ s.hostWriteLine hdm1 a off b = s.bump F.CXL_CNT_HIDDEN_WR_COUNT := by
  cases hactive : s.memActive with
  | false => exact .inl (by simp [State.hostWriteLine, hactive])
  | true => exact .inr (by simp [State.hostWriteLine, hactive, hhidden])

/-! ## The bytes of a line lie together (R119, R120, R438) -/

/-- The place `j` bytes on. -/
def Spot.plus : Spot → Nat → Spot
  | .hbm k, j => .hbm (k + j)
  | .cellar c, j => .cellar (c + j)
  | .nothing, _ => .nothing

theorem Spot.plus_plus (x : Spot) (i j : Nat) : (x.plus i).plus j = x.plus (i + j) := by
  cases x <;> simp [Spot.plus, Nat.add_assoc]

section
variable {s : State} {a j : Nat} (ha : a % 64 = 0) (hj : j < 64)
include ha hj

/-- The interleave of HDM0 goes by pieces of 256 bytes, whose lines it leaves whole. -/
theorem State.hdm0Hbm_line : s.hdm0Hbm (a + j) = s.hdm0Hbm a + j := by
  have hpiece : (a + j) / 256 = a / 256 := by omega
  have hcolumn : (a + j) % 256 / 64 = a % 256 / 64 := by omega
  have hbyte : (a + j) % 256 % 64 = a % 256 % 64 + j := by omega
  simp only [State.hdm0Hbm, hpiece, hcolumn, hbyte, Nat.add_assoc]

theorem State.spot_line (hdm1 : Bool) : s.spot hdm1 (a + j) = (s.spot hdm1 a).plus j := by
  cases hdm1 with
  | true =>
    have hrange : (a + j < hdm1Bytes) = (a < hdm1Bytes) := by
      unfold hdm1Bytes
      exact propext ⟨fun _ => by omega, fun _ => by omega⟩
    have hstack : (a + j) / 2 ^ 36 = a / 2 ^ 36 := by omega
    simp only [State.spot, if_true, hrange, hstack]
    split <;> rfl
  | false =>
    have hhbm : (a + j < s.hbmBytes) = (a < s.hbmBytes) := by
      unfold State.hbmBytes
      exact propext ⟨fun _ => by omega, fun _ => by omega⟩
    simp only [State.spot, Bool.false_eq_true, if_false, hhbm]
    split
    · rw [State.hdm0Hbm_line ha hj]
      rfl
    · next hup =>
      have hplace : a + j - s.hbmBytes = a - s.hbmBytes + j := by omega
      have hcellar : (a + j - s.hbmBytes < s.cellarBytes) = (a - s.hbmBytes < s.cellarBytes) := by
        unfold State.hbmBytes State.cellarBytes at *
        exact propext ⟨fun _ => by omega, fun _ => by omega⟩
      rw [hplace] at hcellar ⊢
      simp only [hcellar]
      split <;> rfl

end

theorem State.spot_within {s : State} {a off i : Nat} (ha : a % 64 = 0) (hin : off + i < 64) (hdm1 : Bool) :
    s.spot hdm1 (a + off + i) = (s.spot hdm1 (a + off)).plus i := by
  have hoff : off < 64 := by omega
  rw [Nat.add_assoc, State.spot_line ha hin, State.spot_line ha hoff, Spot.plus_plus]

section
variable {s : State} {hdm1 : Bool} {a : Nat}

theorem State.hdmByte_of_hbm {k : Nat} (h : s.spot hdm1 a = .hbm k) : s.hdmByte hdm1 a = sGet (fun _ => 0) s.hbm k := by
  simp only [State.hdmByte, h]

theorem State.hdmByte_of_cellar {c : Nat} (h : s.spot hdm1 a = .cellar c) : s.hdmByte hdm1 a = sGet (fun _ => 0) s.cellar c := by
  simp only [State.hdmByte, h]

theorem State.hdmByte_of_nothing (h : s.spot hdm1 a = .nothing) : s.hdmByte hdm1 a = 0 := by
  simp only [State.hdmByte, h]

end

/-! ## Reads of a byte memory after a string of bytes is written -/

theorem sGet_memPut {m : List (Nat × Byte)} (hm : Memory.wf m = true) (a : Nat) (b : Bytes) (j : Nat) :
    sGet (fun _ => 0) (memPut m a b) j = if a ≤ j ∧ j < a + b.length then b.getD (j - a) 0 else sGet (fun _ => 0) m j := by
  induction b generalizing m a with
  | nil =>
    have hnone : ¬(a ≤ j ∧ j < a + ([] : Bytes).length) := by simp
    rw [if_neg hnone, memPut]
  | cons x b ih =>
    rw [memPut, ih (sSet_wf a x hm), sGet_sSet a j x hm, List.length_cons]
    by_cases hhere : j = a
    · subst hhere
      simp
    · by_cases hin : a + 1 ≤ j ∧ j < a + 1 + b.length
      · obtain ⟨i, rfl⟩ := Nat.exists_eq_add_of_le hin.1
        have hcons : a ≤ a + 1 + i ∧ a + 1 + i < a + (b.length + 1) := by omega
        have hat : a + 1 + i - a = i + 1 := by omega
        rw [if_pos hin, if_pos hcons, hat, Nat.add_sub_cancel_left, List.getD_cons_succ]
      · have hcons : ¬(a ≤ j ∧ j < a + (b.length + 1)) := by omega
        rw [if_neg hin, if_neg hcons, if_neg hhere]

section
variable {m : List (Nat × Byte)} (hm : Memory.wf m = true) {a : Nat} {b : Bytes}
include hm

theorem sGet_memPut_of_stored {i : Nat} (hi : i < b.length) : sGet (fun _ => 0) (memPut m a b) (a + i) = b.getD i 0 := by
  have hin : a ≤ a + i ∧ a + i < a + b.length := by omega
  rw [sGet_memPut hm, if_pos hin, Nat.add_sub_cancel_left]

theorem sGet_memPut_of_other {j : Nat} (hj : ∀ i < b.length, a + i ≠ j) : sGet (fun _ => 0) (memPut m a b) j = sGet (fun _ => 0) m j := by
  have hout : ¬(a ≤ j ∧ j < a + b.length) := fun ⟨hle, hlt⟩ => hj (j - a) (by omega) (by omega)
  rw [sGet_memPut hm, if_neg hout]

end

/-! ## A host write within a line (R122, R330) -/

/-- The bytes stored from a place on. -/
def State.storeAt (s : State) (x : Spot) (b : Bytes) : State :=
  match x with
  | .hbm k => s.hbmWr k b
  | .cellar c => { s with cellar := memPut s.cellar c b }
  | .nothing => s

/-- Byte after byte along one place is one string of bytes. -/
theorem State.hdmWrite_line {hdm1 : Bool} {b : Bytes} {s : State} {x : Spot} {a : Nat}
    (hline : ∀ i < b.length, s.spot hdm1 (a + i) = x.plus i) : s.hdmWrite hdm1 a b = s.storeAt x b := by
  induction b generalizing s x a with
  | nil => cases x <;> rfl
  | cons v b ih =>
    have hfirst : s.spot hdm1 a = x.plus 0 := hline 0 (by simp)
    have hrest : ∀ i < b.length, s.spot hdm1 (a + 1 + i) = (x.plus 1).plus i := fun i hi => by
      rw [Spot.plus_plus, Nat.add_assoc]
      exact hline (1 + i) (by simp only [List.length_cons]; omega)
    cases x with
    | hbm k =>
      have hput : s.hdmPut hdm1 a v = { s with hbm := sSet (fun _ => 0) s.hbm k v } := by simp only [State.hdmPut, hfirst, Spot.plus, Nat.add_zero]
      rw [State.hdmWrite, hput]
      exact ih (s := { s with hbm := sSet (fun _ => 0) s.hbm k v }) hrest
    | cellar c =>
      have hput : s.hdmPut hdm1 a v = { s with cellar := sSet (fun _ => 0) s.cellar c v } := by simp only [State.hdmPut, hfirst, Spot.plus, Nat.add_zero]
      rw [State.hdmWrite, hput]
      exact ih (s := { s with cellar := sSet (fun _ => 0) s.cellar c v }) hrest
    | nothing =>
      have hput : s.hdmPut hdm1 a v = s := by simp only [State.hdmPut, hfirst, Spot.plus]
      rw [State.hdmWrite, hput]
      exact ih hrest

theorem State.unmark_eq (s : State) (hdm1 : Bool) (a : Nat) : ∃ e, s.unmark hdm1 a = { s with errs := e } := by
  unfold State.unmark
  split
  · exact ⟨_, rfl⟩
  · exact ⟨s.errs, rfl⟩

/-- A write to a visible line that need not wait stores its bytes; beside that only marks of damage go. -/
theorem State.hostWriteLine_stores {s : State} {hdm1 : Bool} {a off : Nat} {b : Bytes} (hactive : s.memActive = true)
    (hvisible : s.visibleAt hdm1 a = true) (hfits : off + b.length ≤ 64) (ha : a % 64 = 0)
    (hidle : ∀ k, s.spot hdm1 (a + off) = .hbm k → (s.nbu (k / 2 ^ 27)).run = none ∧ s.retraining 2 (k / 2 ^ 27 / 512) = false) :
    ∃ e, s.hostWriteLine hdm1 a off b = { s.storeAt (s.spot hdm1 (a + off)) b with errs := e } := by
  have hline := fun i (hi : i < b.length) => State.spot_within (s := s) ha (show off + i < 64 by omega) hdm1
  simp only [State.hostWriteLine, hactive, hvisible, Bool.not_true, Bool.false_eq_true, if_false]
  split
  · next k hk =>
    obtain ⟨hrun, hretrain⟩ := hidle k hk
    rw [State.access_at_once hrun hretrain, hk]
    exact ⟨_, rfl⟩
  · rw [State.hdmWrite_line hline]
    split
    · exact State.unmark_eq ..
    · exact ⟨_, rfl⟩

end Sys2Proof.Machine

section
open Sys2Proof Sys2Proof.Machine

/-- Settles O56: no region shows the offset (`State.visibleAt_eq_false`), and a hidden line is neither read nor written. -/
theorem hostReachesOnlyVisibleRegions : Obligations.HostReachesOnlyVisibleRegions := by
  unfold Obligations.HostReachesOnlyVisibleRegions
  intro s p dec hpa off a b d hp hloaded hcxl hdec ha hout
  have hhidden := State.visibleAt_eq_false hp hloaded hout
  obtain ⟨hread, hwrite⟩ := State.hostAccess_claimed hcxl hdec ha (fun hv => absurd (hhidden.symm.trans hv) (by decide))
  constructor
  · obtain ⟨t, ht, hout, hhbm, hcellar⟩ := State.hostRead_hidden hhidden
    refine ⟨_, congrArg Host.Outcome.next (hread.trans ht), ?_, hhbm, hcellar⟩
    rw [← hout]
    rfl
  · refine ⟨_, congrArg Host.Outcome.next (hwrite off b), ?_⟩
    split
    · exact ⟨rfl, rfl, rfl⟩
    · rcases State.hostWriteLine_hidden hhidden off b with h | h <;> rw [h] <;> exact ⟨rfl, rfl, rfl⟩

/-- Settles O59: the write stores its bytes from one place on (`State.hostWriteLine_stores`), and a line's bytes lie together. -/
theorem hostWritesChangeOnlyTheirBytes : Obligations.HostWritesChangeOnlyTheirBytes := by
  unfold Obligations.HostWritesChangeOnlyTheirBytes
  intro s dec hpa off a b d hs hcxl hactive hdec ha hvisible hb hfits haligned hfree hidle
  obtain ⟨-, hhbm, hcellar, -, -⟩ := (State.wf_iff s).mp hs
  have hfits' : ¬(off + b.length > 64 || b.isEmpty : Bool) = true := by simp [hfits, hb]
  have hwrite := (State.hostAccess_claimed hcxl hdec ha fun _ => hfree).2 off b
  rw [if_neg hfits'] at hwrite
  obtain ⟨e, hstores⟩ := State.hostWriteLine_stores hactive hvisible hfits haligned hidle
  refine ⟨_, congrArg Host.Outcome.next (hwrite.trans hstores), ?_⟩
  have hplaces := fun i (hi : i < b.length) => State.spot_within (s := s) haligned (show off + i < 64 by omega) (dec == 1)
  cases hplace : s.spot (dec == 1) (a + off) with
  | hbm k =>
    rw [hplace] at hplaces
    refine ⟨fun j hj => ?_, fun _ _ => rfl, fun i hi => ?_, rfl, rfl, rfl, rfl, rfl, rfl, rfl, rfl, rfl, rfl, rfl⟩
    · exact sGet_memPut_of_other hhbm fun i hi heq => hj i hi (heq ▸ hplaces i hi)
    · rw [hplaces i hi, if_neg (by simp [Spot.plus])]
      exact (State.hdmByte_of_hbm (s := { s.hbmWr k b with errs := e }) (hplaces i hi)).trans (sGet_memPut_of_stored hhbm hi)
  | cellar c =>
    rw [hplace] at hplaces
    refine ⟨fun _ _ => rfl, fun j hj => ?_, fun i hi => ?_, rfl, rfl, rfl, rfl, rfl, rfl, rfl, rfl, rfl, rfl, rfl⟩
    · exact sGet_memPut_of_other hcellar fun i hi heq => hj i hi (heq ▸ hplaces i hi)
    · rw [hplaces i hi, if_neg (by simp [Spot.plus])]
      exact (State.hdmByte_of_cellar (s := { s with cellar := memPut s.cellar c b, errs := e }) (hplaces i hi)).trans (sGet_memPut_of_stored hcellar hi)
  | nothing =>
    rw [hplace] at hplaces
    refine ⟨fun _ _ => rfl, fun _ _ => rfl, fun i hi => ?_, rfl, rfl, rfl, rfl, rfl, rfl, rfl, rfl, rfl, rfl, rfl⟩
    rw [hplaces i hi]
    exact State.hdmByte_of_nothing (hplaces i hi)

end

namespace Sys2Proof.Machine

/-! ## Exchange messages taken up (R163-R169, R172) -/

theorem xop_layer : xop 1 = Op.XCHG_LAYER := rfl
theorem xop_layerReply : xop 2 = Op.XCHG_LAYER_REPLY := rfl
theorem xop_final : xop 3 = Op.XCHG_FINAL := rfl

/-- What a step has served of the message an XCHG_LAYER repeats (R164). -/
def XStep.layerServed (t : XStep) (p : Profile) (x : Slip) : Option Served :=
  t.served.find? fun v => v.op == Op.XCHG_LAYER && v.layer == rdLe x.payload 0x0C 2 && v.index == rdLe x.payload 0x10 2
    && v.slots == (xRows x.payload).map (fun r => rdLe r 0x0C 2)
    && ((xRows x.payload).all (fun r => (t.rowOf r).isSome) && x.src == .peer (p.layerStage.getD (rdLe x.payload 0x0C 2) 0))

/-- What a step has served of the message an XCHG_FINAL repeats (R164). -/
def XStep.finalServed (t : XStep) (p : Profile) (x : Slip) : Option Served :=
  t.served.find? fun v => v.op == Op.XCHG_FINAL && v.index == rdLe x.payload 0x10 2
    && v.slots == (xRows x.payload).map (fun r => rdLe r 0x0C 2)
    && ((xRows x.payload).all (fun r => (t.rowOf r).isSome) && x.src == .peer p.finalStage && rdLe x.payload 0x0C 2 == 0xFFFF)

/-- A prefill's step with the rows of an XCHG_LAYER arrived (R162). -/
def XStep.arrive (x : Slip) (t : XStep) : XStep :=
  { t with arrived := t.arrived ++ (xRows x.payload).map (fun r => (rdLe x.payload 0x0C 2, rdLe r 8 4, r)) }

/-- A step with the hidden states of an XCHG_FINAL, and the message among those served. -/
def XStep.takeFinal (x : Slip) (t : XStep) : XStep :=
  { t with
    served := t.served ++ [{ op := Op.XCHG_FINAL, layer := 0xFFFF, index := rdLe x.payload 0x10 2,
                             slots := (xRows x.payload).map (fun r => rdLe r 0x0C 2), reply := [], no := 0 }]
    rows := t.rows.map fun (q : StepRow) => match (xRows x.payload).find? (fun r => rdLe r 0x0C 2 == q.slot) with
      | some r => { q with hidden := some (r.drop 32) }
      | none => q }

section
variable {x : Slip} {s : State} {p : Profile} (hp : s.profile = some p)
include hp

section
variable (hup : s.takenUp Op.XCHG_LAYER x = true)
include hup

theorem exec_xchgLayer_badHeader {b : Nat × Nat} (hhead : xHeadBad p 1 x = some b) :
    exec (.XCHG_LAYER x) s = .next ((s.bump F.ME_CNT_XCHG_BAD_COUNT).finish Op.XCHG_LAYER x (Answer.st b.1 b.2)) := by
  change execXCHG_LAYER x s = _
  simp only [execXCHG_LAYER, runSlip_takenUp hup, hp, hhead, SlipRes.close_no]

variable {t : XStep} (hhead : xHeadBad p 1 x = none) (hstep : tGet s.steps (rdLe x.payload 8 4) = some t)
include hhead hstep

theorem exec_xchgLayer_again {v : Served} (hserved : t.layerServed p x = some v) :
    exec (.XCHG_LAYER x) s = .next (((s.sendX (rdLe x.payload 8 4) Op.XCHG_LAYER_REPLY (p.layerStage.getD (rdLe x.payload 0x0C 2) 0)
      v.reply).bump F.ME_CNT_XCHG_DUP_COUNT).finish Op.XCHG_LAYER x (Answer.st St.ALREADY_DONE)) := by
  rw [XStep.layerServed] at hserved
  change execXCHG_LAYER x s = _
  simp only [execXCHG_LAYER, runSlip_takenUp hup, hp, hhead, hstep, xop_layer, hserved, xop_layerReply, SlipRes.close_done]

variable (hnew : t.layerServed p x = none)
  (hrows : xRowsBad p t 1 (rdLe x.payload 0x0C 2) (p.layerStage.getD (rdLe x.payload 0x0C 2) 0) x = false)
  (hretrain : s.stackRetrains = false)
include hnew hrows hretrain

theorem exec_xchgLayer_decode {u : State} (hdecode : t.prefill = false) (hserve : s.serveDecode p t (rdLe x.payload 0x0C 2) x = some u) :
    exec (.XCHG_LAYER x) s = .next (u.finish Op.XCHG_LAYER x (Answer.ok 0)) := by
  rw [XStep.layerServed] at hnew
  change execXCHG_LAYER x s = _
  simp only [execXCHG_LAYER, runSlip_takenUp hup, hp, hhead, hstep, xop_layer, hnew, hrows, hretrain, hdecode, hserve,
    Bool.not_false, Bool.false_eq_true, if_true, if_false, SlipRes.close_done]

section
variable (hprefill : t.prefill = true) {u : State} (hu : u = s.updStep (rdLe x.payload 8 4) (XStep.arrive x)) {w : XStep}
  (hw : tGet u.steps (rdLe x.payload 8 4) = some w) {last : Nat}
  (hlast : last = ((xRows x.payload).map (fun r => rdLe r 8 4)).foldl max 0)
include hprefill hu hw hlast

theorem exec_xchgLayer_waits (hwaits : w.failing = true ∨ w.covered (rdLe x.payload 0x0C 2) last = false) :
    exec (.XCHG_LAYER x) s = .next ((SlipRes.wait (u.updStep (rdLe x.payload 8 4) (fun t => { t with waiting := t.waiting ++ [x] }))).close
      Op.XCHG_LAYER x) := by
  have hahead : (w.failing || !w.covered (rdLe x.payload 0x0C 2) last) = true := by simpa using hwaits
  rw [XStep.layerServed] at hnew
  subst hlast
  unfold XStep.arrive at hu
  change execXCHG_LAYER x s = _
  simp only [execXCHG_LAYER, runSlip_takenUp hup, hp, hhead, hstep, xop_layer, hnew, hrows, hretrain, hprefill, ← hu, hw, Option.getD_some,
    hahead, Bool.not_true, Bool.false_eq_true, if_true, if_false]

theorem exec_xchgLayer_prefill {z : State} (hsound : w.failing = false) (hcovered : w.covered (rdLe x.payload 0x0C 2) last = true)
    (hserve : u.servePrefill p (rdLe x.payload 8 4) (rdLe x.payload 0x0C 2) x = .yes z) :
    exec (.XCHG_LAYER x) s = .next (((z.serveWaiting p (rdLe x.payload 8 4) w.waiting.length).closeChunk p (rdLe x.payload 8 4)).finish
      Op.XCHG_LAYER x (Answer.ok 0)) := by
  rw [XStep.layerServed] at hnew
  subst hlast
  unfold XStep.arrive at hu
  change execXCHG_LAYER x s = _
  simp only [execXCHG_LAYER, runSlip_takenUp hup, hp, hhead, hstep, xop_layer, hnew, hrows, hretrain, hprefill, ← hu, hw, Option.getD_some,
    hsound, hcovered, hserve, Bool.not_true, Bool.or_self, Bool.false_eq_true, if_false, SlipRes.close_done]

end
end

/-- How a step goes on when an XCHG_FINAL has been stored: a chunk to its end, a decode step with its last row to the output head. -/
def State.afterFinal (s : State) (p : Profile) (id : Nat) (t : XStep) : State :=
  if t.prefill then s.closeChunk p id else if t.rows.all (fun q => q.hidden.isSome) then s.finishDecode p id else s

theorem exec_xchgFinal {t w : XStep} {u : State} (hup : s.takenUp Op.XCHG_FINAL x = true) (hhead : xHeadBad p 3 x = none)
    (hstep : tGet s.steps (rdLe x.payload 8 4) = some t) (hnew : t.finalServed p x = none)
    (hrows : xRowsBad p t 3 0 p.finalStage x = false) (hretrain : s.stackRetrains = false)
    (hu : u = s.updStep (rdLe x.payload 8 4) (XStep.takeFinal x)) (hw : tGet u.steps (rdLe x.payload 8 4) = some w) :
    exec (.XCHG_FINAL x) s = .next ((u.afterFinal p (rdLe x.payload 8 4) w).finish Op.XCHG_FINAL x (Answer.ok 0)) := by
  rw [XStep.finalServed] at hnew
  obtain rfl : (tGet u.steps (rdLe x.payload 8 4)).getD t = w := by rw [hw, Option.getD_some]
  subst hu
  have hstored : execXCHG_FINAL x s = .next (SlipRes.close (
      let u := s.updStep (rdLe x.payload 8 4) (XStep.takeFinal x)
      let w := (tGet u.steps (rdLe x.payload 8 4)).getD t
      if w.prefill then .done (u.closeChunk p (rdLe x.payload 8 4)) (Answer.ok 0)
      else if w.rows.all (fun q => q.hidden.isSome) then .done (u.finishDecode p (rdLe x.payload 8 4)) (Answer.ok 0)
      else .done u (Answer.ok 0)) Op.XCHG_FINAL x) := by
    simp only [execXCHG_FINAL, runSlip_takenUp hup, hp, hhead, hstep, xop_final, hnew, hrows, hretrain, Bool.false_eq_true, if_false]
    rfl
  refine hstored.trans ?_
  unfold State.afterFinal
  dsimp only
  split
  · rfl
  · split <;> rfl

end

/-! ## Sent messages: error replies, retries, timeouts (R165, R166) -/

section
variable {s : State} {id no : Nat} {t : XStep} (hstep : tGet s.steps id = some t)
include hstep

theorem exec_xchgTimeout (hdue : t.lastSent + t.timeout ≤ s.tick) : exec (.XCHG_TIMEOUT id) s = .next (s.abandonStep id) := by
  change execXCHG_TIMEOUT id s = _
  simp only [execXCHG_TIMEOUT, hstep, if_pos hdue]

variable {m : XMsg} (hsent : t.sent.find? (fun m => m.no == no) = some m)
include hsent

theorem exec_xchgError_retries {status : Nat} (hclass : statusClass status = 2) (hleft : m.retries < s.fld F.ME_XCHG_CFG_RETRIES) :
    exec (.XCHG_ERROR_REPLY id no status) s = .next (s.updStep id (fun t => { t with sent := t.sent.map (fun (q : XMsg) =>
      if q.no == no then { q with due := some (s.tick + s.fld F.ME_XCHG_CFG_RETRY_US * 100) } else q) })) := by
  change execXCHG_ERROR_REPLY id no status s = _
  simp [execXCHG_ERROR_REPLY, hstep, hsent, hclass, hleft]

theorem exec_xchgError_abandons {status : Nat} (hclass : 2 ≤ statusClass status)
    (hlast : statusClass status = 2 → s.fld F.ME_XCHG_CFG_RETRIES ≤ m.retries) :
    exec (.XCHG_ERROR_REPLY id no status) s = .next (s.abandonStep id) := by
  have herror : ¬statusClass status ≤ 1 := by omega
  have hfinal : ¬(statusClass status == 2 && decide (m.retries < s.fld F.ME_XCHG_CFG_RETRIES)) = true := by simpa using hlast
  change execXCHG_ERROR_REPLY id no status s = _
  simp only [execXCHG_ERROR_REPLY, hstep, hsent, if_neg herror, if_neg hfinal]

theorem exec_xchgRetry {d : Nat} (hdue : m.due = some d) (hcome : d ≤ s.tick) :
    exec (.XCHG_RETRY id no) s = .next ((s.updStep id (fun t => { t with
      sent := t.sent.map (fun (q : XMsg) => if q.no == no then { q with due := none, retries := q.retries + 1 } else q),
      lastSent := s.tick, timeout := s.fld F.ME_XCHG_CFG_TIMEOUT_MS * 100000 })).postX id t.conf no m.op m.peer m.payload) := by
  change execXCHG_RETRY id no s = _
  simp [execXCHG_RETRY, hstep, hsent, hdue, hcome]

end

end Sys2Proof.Machine

section
open Sys2Proof Sys2Proof.Machine

/-- Settles O18: each message, reply and expiry takes the branch its premises open. -/
theorem exchangeMessagesServe : Obligations.ExchangeMessagesServe := by
  unfold Obligations.ExchangeMessagesServe
  refine ⟨?slips, fun s id no status t m hstep hsent => ⟨exec_xchgError_retries hstep hsent, exec_xchgError_abandons hstep hsent,
    fun d => exec_xchgRetry hstep hsent, exec_xchgTimeout hstep⟩⟩
  case slips =>
    rintro x s p t id layer slots same hp rfl rfl rfl rfl
    refine ⟨fun hup b => exec_xchgLayer_badHeader hp hup, fun v hup hhead hstep => exec_xchgLayer_again hp hup hhead hstep, ?new, ?final⟩
    case new =>
      intro hup hhead hstep hnew hrows hretrain
      refine ⟨fun u => exec_xchgLayer_decode hp hup hhead hstep hnew hrows hretrain, fun u w last hprefill hu hlast hw => ⟨?_, fun z => ?_⟩⟩
      · exact exec_xchgLayer_waits hp hup hhead hstep hnew hrows hretrain hprefill hu hw hlast
      · exact exec_xchgLayer_prefill hp hup hhead hstep hnew hrows hretrain hprefill hu hw hlast
    case final =>
      intro u w hup hhead hstep hnew hrows hretrain hu hw
      exact exec_xchgFinal hp hup hhead hstep hnew hrows hretrain hu hw

end

namespace Sys2Proof.Machine

/-! ## A period of the ratio controller (R178, R179) -/

/-- What a period stores of pool `q`: the sampled demand while RATIO_EN is 1, the wanted and the current count. -/
def State.storePool (on : Bool) (demand : List Nat) (wanted current : Nat → Nat) (s : State) (q : Nat) : State :=
  let s := if on then s.setFld (F.ME_DEMAND_ME_NS.at (8 * q)) (([0, 1, 2].map (fun p => demand.getD p 0)).getD q 0) else s
  let s := s.setFld (F.ME_POOL_WANTED.at (8 * q)) (wanted q)
  s.setFld (F.ME_POOL_CUR.at (8 * q)) (current q)

/-- A period stores the three pools, moves MEs between them, counts the moves and issues what waits. -/
theorem exec_ratioPeriod_eq (demand : List Nat) (s : State) : ∃ (wanted current : Nat → Nat) (parts : List Nat) (assigned : Nat → List Nat)
    (moves : Nat), exec (.RATIO_PERIOD demand) s =
      .next ({ (parts.foldl (fun s q => s.assignMes (assigned q) q) ([0, 1, 2].foldl (State.storePool (s.flag F.ME_CTRL_RATIO_EN) demand
        wanted current) s)).bumpBy F.ME_CNT_MOVES_COUNT moves with meShort := [], targetSet := false } : State).issue :=
  ⟨_, _, _, _, _, rfl⟩

theorem State.issueTiles_regs (n : Nat) (s : State) : (State.issueTiles n s).regs = s.regs := by
  induction n generalizing s with
  | zero => rfl
  | succ n ih =>
    unfold State.issueTiles
    split
    · rw [ih, State.setMe_regs]
    · rfl

theorem State.issue_fld (s : State) (g : Fld) : s.issue.fld g = s.fld g :=
  congrArg (fun r => g.get (sGet regReset r g.addr)) (State.issueTiles_regs s.tiles.length s)

theorem State.setFld_fld_of_ne {f g : Fld} (h : g.addr ≠ f.addr) (s : State) (v : Nat) : (s.setFld f v).fld g = s.fld g :=
  congrArg g.get (State.setReg_reg_of_ne h s _)

/-- Assigning MEs to pools writes ME_UNIT alone. -/
theorem State.assignMes_fld {g : Fld} (hg : g.addr < A.ME_UNIT) (s : State) (counts : List Nat) (part : Nat) :
    (s.assignMes counts part).fld g = s.fld g := by
  unfold State.assignMes
  refine List.foldlRecOn (motive := fun a : State × List Nat => a.1.fld g = s.fld g) _ _ rfl fun a ha e _ => ?_
  have hother : g.addr ≠ (F.ME_UNIT_POOL.at (8 * e)).addr := by
    simp only [Fld.at, F.ME_UNIT_POOL, A.ME_UNIT] at hg ⊢
    omega
  exact (State.setFld_fld_of_ne hother ..).trans ha

/-- What a period leaves in a register below ME_CNT_MOVES is what it stored of the three pools. -/
theorem exec_ratioPeriod_fld (demand : List Nat) (s : State) : ∃ (wanted current : Nat → Nat) (t : State),
    exec (.RATIO_PERIOD demand) s = .next t ∧ ∀ g : Fld, g.addr < A.ME_CNT_MOVES →
      t.fld g = ([0, 1, 2].foldl (State.storePool (s.flag F.ME_CTRL_RATIO_EN) demand wanted current) s).fld g := by
  obtain ⟨wanted, current, parts, assigned, moves, hexec⟩ := exec_ratioPeriod_eq demand s
  refine ⟨wanted, current, _, hexec, fun g hg => ?_⟩
  have hunit : g.addr < A.ME_UNIT := Nat.lt_trans hg (by decide)
  generalize [0, 1, 2].foldl (State.storePool (s.flag F.ME_CTRL_RATIO_EN) demand wanted current) s = u
  rw [State.issue_fld]
  calc _ = (parts.foldl (fun s q => s.assignMes (assigned q) q) u).fld g := State.setFld_fld_of_ne (Nat.ne_of_lt hg) ..
    _ = u.fld g := foldl_leaves (view := fun s => s.fld g) (fun s q => s.assignMes_fld hunit (assigned q) q) parts u

section
variable (on : Bool) (demand : List Nat) (wanted current : Nat → Nat) (s : State)

/-- Of the fields of ME_DEMAND, the pool's own is the one stored, and it is stored first. -/
theorem State.storePool_demand {q p : Nat} (hq : q < 3) : (s.storePool on demand wanted current q).fld (F.ME_DEMAND_ME_NS.at (8 * p)) =
    (if on then s.setFld (F.ME_DEMAND_ME_NS.at (8 * q)) (([0, 1, 2].map (fun p => demand.getD p 0)).getD q 0) else s).fld
      (F.ME_DEMAND_ME_NS.at (8 * p)) := by
  have hpool : (F.ME_DEMAND_ME_NS.at (8 * p)).addr ≠ 0xA0028 + 8 * q := by
    simp only [Fld.at, F.ME_DEMAND_ME_NS]
    omega
  exact (State.setFld_fld_of_ne hpool ..).trans (State.setFld_fld_of_ne hpool ..)

theorem State.storePool_demand_of_ne {q p : Nat} (hq : q < 3) (hne : p ≠ q) :
    (s.storePool on demand wanted current q).fld (F.ME_DEMAND_ME_NS.at (8 * p)) = s.fld (F.ME_DEMAND_ME_NS.at (8 * p)) := by
  have hother : (F.ME_DEMAND_ME_NS.at (8 * p)).addr ≠ (F.ME_DEMAND_ME_NS.at (8 * q)).addr := by
    simp only [Fld.at, F.ME_DEMAND_ME_NS]
    omega
  rw [State.storePool_demand on demand wanted current s hq]
  split
  · exact State.setFld_fld_of_ne hother ..
  · rfl

theorem State.storePool_regs_wf {s : State} (hs : Regs.wf s.regs = true) (q : Nat) :
    Regs.wf (s.storePool on demand wanted current q).regs = true := by
  unfold State.storePool
  refine State.setFld_regs_wf (State.setFld_regs_wf ?_ ..) ..
  split
  · exact State.setFld_regs_wf hs ..
  · exact hs

/-- With the register file in canonical form the demand stored is the demand read. -/
theorem State.storePool_demand_self {s : State} (hs : Regs.wf s.regs = true) (hdemand : ∀ d ∈ demand, d < 2 ^ 64) {q : Nat} (hq : q < 3) :
    (s.storePool on demand wanted current q).fld (F.ME_DEMAND_ME_NS.at (8 * q)) =
      if on then demand.getD q 0 else s.fld (F.ME_DEMAND_ME_NS.at (8 * q)) := by
  have hsample : ([0, 1, 2].map (fun p => demand.getD p 0)).getD q 0 = demand.getD q 0 := by
    interval_cases q <;> rfl
  have hfits : demand.getD q 0 < 2 ^ 64 := by
    rw [List.getD_eq_getElem?_getD]
    cases hat : demand[q]? with
    | none => simp
    | some d => exact hdemand d (List.mem_of_getElem? hat)
  rw [State.storePool_demand on demand wanted current s hq, hsample]
  split
  · rw [State.setFld_fld_self hs (show 63 < 64 by decide)]
    exact Nat.mod_eq_of_lt hfits
  · rfl

end

/-- With the register file in canonical form ME_DEMAND takes the sampled demand while RATIO_EN is 1 and holds otherwise. -/
theorem exec_ratioPeriod_of_canonical {s : State} (hs : Regs.wf s.regs = true) {demand : List Nat} (hdemand : ∀ d ∈ demand, d < 2 ^ 64) :
    ∃ t, exec (.RATIO_PERIOD demand) s = .next t ∧ ∀ p, p < 3 → t.fld (F.ME_DEMAND_ME_NS.at (8 * p)) =
      if s.flag F.ME_CTRL_RATIO_EN then demand.getD p 0 else s.fld (F.ME_DEMAND_ME_NS.at (8 * p)) := by
  obtain ⟨wanted, current, t, hexec, hfld⟩ := exec_ratioPeriod_fld demand s
  refine ⟨t, hexec, fun p hp => ?_⟩
  have hbelow : (F.ME_DEMAND_ME_NS.at (8 * p)).addr < A.ME_CNT_MOVES := by
    simp only [Fld.at, F.ME_DEMAND_ME_NS, A.ME_CNT_MOVES]
    omega
  rw [hfld _ hbelow]
  generalize s.flag F.ME_CTRL_RATIO_EN = on
  have hwf := fun q {u : State} (hu : Regs.wf u.regs = true) => State.storePool_regs_wf on demand wanted current hu q
  have hother := fun u {q : Nat} (hq : q < 3) (hne : p ≠ q) => State.storePool_demand_of_ne on demand wanted current u hq hne
  have hself := fun {u : State} (hu : Regs.wf u.regs = true) => State.storePool_demand_self on demand wanted current hu hdemand hp
  simp only [List.foldl_cons, List.foldl_nil]
  obtain rfl | rfl | rfl : p = 0 ∨ p = 1 ∨ p = 2 := by omega
  · rw [hother _ (by decide) (by decide), hother _ (by decide) (by decide), hself hs]
  · rw [hother _ (by decide) (by decide), hself (hwf 0 hs), hother _ (by decide) (by decide)]
  · rw [hself (hwf 1 (hwf 0 hs)), hother _ (by decide) (by decide), hother _ (by decide) (by decide)]

/-- A device whose register file lists ME_DEMAND of pool 0 twice, which canonical form excludes: storing the reset value, 0, removes the
first entry and uncovers the second. -/
def twiceListedDemand : State := { State.reset with regs := [(A.ME_DEMAND, 5), (A.ME_DEMAND, 5)] }

theorem twiceListedDemand_ratioEn : twiceListedDemand.flag F.ME_CTRL_RATIO_EN = true := by decide

theorem twiceListedDemand_keeps_five : (twiceListedDemand.setFld F.ME_DEMAND_ME_NS 0).fld F.ME_DEMAND_ME_NS = 5 := by decide

/-- It samples no demand and still shows 5. -/
theorem exec_ratioPeriod_twiceListed :
    ∃ t, exec (.RATIO_PERIOD [0, 0, 0]) twiceListedDemand = .next t ∧ t.fld F.ME_DEMAND_ME_NS = 5 := by
  obtain ⟨wanted, current, t, hexec, hfld⟩ := exec_ratioPeriod_fld [0, 0, 0] twiceListedDemand
  refine ⟨t, hexec, ?_⟩
  have hother := fun u {q : Nat} (hq : q < 3) (hne : 0 ≠ q) => State.storePool_demand_of_ne true [0, 0, 0] wanted current u hq hne
  rw [hfld _ (by decide), twiceListedDemand_ratioEn]
  simp only [List.foldl_cons, List.foldl_nil]
  refine ((hother _ (by decide) (by decide)).trans (hother _ (by decide) (by decide))).trans ?_
  exact (State.storePool_demand (q := 0) (p := 0) _ _ _ _ _ (by decide)).trans twiceListedDemand_keeps_five

end Sys2Proof.Machine

section
open Sys2Proof Sys2Proof.Machine

/-- Refutes O19: the clause on the ratio controller's period has no premise that the register file is in canonical form, and without one
ME_DEMAND may show another demand than the one sampled; with that premise the clause holds (`exec_ratioPeriod_of_canonical`). -/
theorem not_stepsFormAndEnginesAct : ¬ Obligations.StepsFormAndEnginesAct := by
  unfold Obligations.StepsFormAndEnginesAct
  rintro ⟨-, -, -, -, hperiod, -⟩
  obtain ⟨t, hexec, hdemand⟩ := hperiod twiceListedDemand [0, 0, 0]
  obtain ⟨u, hexec', hfive⟩ := exec_ratioPeriod_twiceListed
  obtain rfl : u = t := by simpa [hexec'] using hexec
  have hzero : u.fld F.ME_DEMAND_ME_NS = 0 := hdemand (by decide) 0 (by decide)
  exact absurd (hfive.symm.trans hzero) (by decide)

end

namespace Sys2Proof.Machine

/-! ## Tier slips that are taken up (R186, R194, R199, R200) -/

/-- A tier slip whose effect is done is answered at once. -/
theorem runTier_done {op : Nat} {x : Slip} {s t : State} {f : State → SlipRes} {a : Answer} (hup : s.tierUp op x = true)
    (hdone : f s = .done t a) : runTier op x s f = .next (t.finish op x a) := by
  rw [runTier_up hup, hdone, SlipRes.close_done]

/-- A tier slip whose effect goes on waits for what ends it. -/
theorem runTier_wait {op : Nat} {x : Slip} {s t : State} {f : State → SlipRes} (hup : s.tierUp op x = true)
    (hwait : f s = .wait t) : runTier op x s f = .next (t.updOutst x.src x.tag (fun o => { o with stage := .waiting })) := by
  rw [runTier_up hup, hwait, SlipRes.close_wait]

section
variable {x : Slip} {s : State}

theorem exec_setQuota (hup : s.tierUp Op.TIER_SET_QUOTA x = true) (hacc : x.acc = 0)
    (hparam : badParam x [7, w32, 0, 0, 0, 0] = none) (hlo : 1 ≤ x.P0) (hhi : x.P0 ≤ 4) :
    exec (.TIER_SET_QUOTA x) s =
      .next ((s.setLimit x.ten x.P0 x.P1).finish Op.TIER_SET_QUOTA x (Answer.ok (s.quota x.ten x.P0).used)) := by
  have htier : (x.P0 == 0 || decide (x.P0 > 4)) = false := by simp; omega
  change execTIER_SET_QUOTA x s = _
  apply runTier_done hup
  simp only [hacc, bne_self_eq_false, hparam, htier, Bool.false_eq_true, if_false]

/-- What TIER_QUERY returns of T1 to T4 (Table 7.9), T4's numbers being the free values the device's counter has come to (log entry 34). -/
def State.tierCounts (s : State) (p : Profile) : List Nat :=
  [4 * p.slotsOf .kv, 4 * s.freeT1, s.tierUnits 2, s.freeUnits 2, s.tierUnits 3, s.freeUnits 3, Config.poolRoom 0 s.freeCtr,
    Config.poolRoom 1 s.freeCtr]

theorem exec_tierQuery {p : Profile} (hup : s.tierUp Op.TIER_QUERY x = true) (hacc : x.acc = 0)
    (hparam : badParam x [0, 0, 0, 0, w32, w32] = none) (hp : s.profile = some p) :
    exec (.TIER_QUERY x) s = .next ({ s with freeCtr := s.freeCtr + 1 }.finish Op.TIER_QUERY x
      (Answer.ok 0 0 (structure0 0x1001 ((s.tierCounts p).flatMap (leBytes 8))))) := by
  change execTIER_QUERY x s = _
  apply runTier_done hup
  simp only [hacc, bne_self_eq_false, hparam, hp, State.tierCounts, Bool.false_eq_true, if_false]

/-! ### Host memory lent and reclaimed -/

/-- A range apart from every lent region overlaps none of them (R199). -/
theorem regions_apart {regions : List (Nat × HostRegion)} {base size : Nat}
    (hapart : ∀ q ∈ regions, q.2.state ≠ 0 → q.2.base + q.2.units * 2 ^ 21 ≤ base ∨ base + size ≤ q.2.base) :
    regions.any (fun r => r.2.state != 0 && base < r.2.base + r.2.units * 2 ^ 21 && r.2.base < base + size) = false := by
  rw [List.any_eq_false]
  intro q hq
  simp only [Bool.and_eq_true, bne_iff_ne, decide_eq_true_eq, not_and, not_lt]
  rintro ⟨hlent, hbelow⟩
  have := hapart q hq hlent
  omega

theorem exec_lendHost {r base : Nat} (hup : s.tierUp Op.TIER_LEND_HOST x = true) (hacc : x.acc = 0)
    (hparam : badParam x [w32, w32, w32, 0, 0, 0] = none) (hbase : base = x.P0 + x.P1 * 2 ^ 32) (haligned : base % 2 ^ 21 = 0)
    (hunits : x.P2 ≠ 0)
    (hapart : ∀ q ∈ s.hostRegions, q.2.state ≠ 0 → q.2.base + q.2.units * 2 ^ 21 ≤ base ∨ base + x.P2 * 2 ^ 21 ≤ q.2.base)
    (hfree : tFree s.hostRegions 1 16 0 = some r) :
    ∃ t, t = s.shiftT3 (s.regionFirst r) (x.P2 * 128) 0 ∧
      exec (.TIER_LEND_HOST x) s = .next (({ t with
        hostRegions := tPut t.hostRegions r { state := 1, base := base, units := x.P2 } } : State).finish Op.TIER_LEND_HOST x
          (Answer.ok r)) := by
  subst hbase
  refine ⟨_, rfl, ?_⟩
  change execTIER_LEND_HOST x s = _
  apply runTier_done hup
  have hwhole : ((x.P0 + x.P1 * 2 ^ 32) % 2 ^ 21 != 0) = false := by rw [haligned]; rfl
  have hsome : (x.P2 == 0) = false := beq_eq_false_iff_ne.mpr hunits
  simp only [hacc, bne_self_eq_false, hparam, hwhole, hsome, regions_apart hapart, hfree, Bool.false_eq_true, if_false]

section
variable {r : HostRegion} {t : State} (hup : s.tierUp Op.TIER_RECLAIM_HOST x = true) (hacc : x.acc = 0)
  (hparam : badParam x [15, 0, 0, 0, 0, 0] = none) (hlent : tGet s.hostRegions x.P0 = some r)
  (hlock : s.lockBusy Ac.HOST_RECLAIM 1 3 = none)
  (hcleared : t = ({ s with hostRegions := tPut s.hostRegions x.P0 { r with state := 2 } } : State).clearRegion x.P0)
include hup hacc hparam hlent hlock hcleared

theorem exec_reclaimHost_empty (hempty : t.regionUse x.P0 = []) :
    exec (.TIER_RECLAIM_HOST x) s = .next (t.reclaimCheck.finish Op.TIER_RECLAIM_HOST x Answer.ok) := by
  change execTIER_RECLAIM_HOST x s = _
  apply runTier_done hup
  simp only [hacc, bne_self_eq_false, hparam, hlent, hlock, ← hcleared, hempty, List.isEmpty_nil, Bool.false_eq_true, if_true, if_false]

theorem exec_reclaimHost_waits (hused : t.regionUse x.P0 ≠ []) :
    exec (.TIER_RECLAIM_HOST x) s = .next ((t.takeLock (some x.src) Ac.HOST_RECLAIM 1 3 true true).updOutst
      x.src x.tag (fun o => { o with stage := .waiting })) := by
  change execTIER_RECLAIM_HOST x s = _
  apply runTier_wait hup
  have hleft : (t.regionUse x.P0).isEmpty = false := List.isEmpty_eq_false_iff.mpr hused
  simp only [hacc, bne_self_eq_false, hparam, hlent, hlock, ← hcleared, hleft, Bool.false_eq_true, if_false]
end

/-! ### Shelf objects held for other devices -/

/-- The object a TIER_SHELF_PUT brings, as the holding reserve keeps it at unit `u` (R194). -/
def shelfObjectOf (x : Slip) (u : Nat) : ShelfObj :=
  { accession := x.acc, kind := x.P0, number := x.P1, alive := x.P2, tenant := x.ten,
    body := ((x.payload.drop 8).drop 32).take (rdLe (x.payload.drop 8) 0x14 4), tier := 2, own := false, second := false, unit := u }

/-- How a sound TIER_SHELF_PUT of a body of `n` bytes ends, `same` being what is held of the object (R194): an equal ALIVE is done
already, a lesser one refused, and a new one kept where the holding reserve has room. -/
def State.judgePut (s : State) (x : Slip) (n : Nat) (same : List ShelfObj) : SlipRes :=
  if same.any (·.alive == x.P2) then .done s (Answer.mk' St.ALREADY_DONE 0 0 n)
  else if x.P2 < (same.map (·.alive)).foldl max 0 then .no s St.BAD_PARAM 2
  else match s.pickUnits 2 (bodyQuarters n) with
    | some u =>
      if s.holdUsed + bodyQuarters n > s.fld F.TIER_HOLD_CAP then .no s St.NO_SLOTS 6
      else .done { s.guardRun 2 u (bodyQuarters n) with shelf := s.shelf ++ [shelfObjectOf x u] } (Answer.ok 0 n)
    | none => .no s St.NO_SLOTS 6

section
variable {n : Nat} {h : Bytes} {same : List ShelfObj} (hup : s.tierUp Op.TIER_SHELF_PUT x = true)
  (hparam : badParam x [0xFF, w32, w32, 0, 0, 0] = none) (hstruct : badStruct 0x1010 40 x.payload = none)
  (hh : h = x.payload.drop 8) (hn : n = rdLe h 0x14 4)
  (hsame : same = s.shelf.filter (fun o => !o.own && o.accession == x.acc && o.kind == x.P0 && o.number == x.P1))
  (hacc : x.acc ≠ 0) (hkind : 1 ≤ x.P0) (hkind' : x.P0 ≤ 5) (hwhole : 40 + n ≤ rdLe x.payload 4 4)
  (hhead : slice h 0 9 = slice (objHeader x.acc x.P0 x.ten x.P1 x.P2 n) 0 9)
  (hhead' : slice h 10 14 = slice (objHeader x.acc x.P0 x.ten x.P1 x.P2 n) 10 14)
include hup hparam hstruct hh hn hsame hacc hkind hkind' hwhole hhead hhead'

/-- A sound TIER_SHELF_PUT comes to the comparison of ALIVE with what is held. -/
theorem exec_shelfPut : exec (.TIER_SHELF_PUT x) s = .next ((s.judgePut x n same).close Op.TIER_SHELF_PUT x) := by
  subst hh hn hsame
  have hnamed : (x.acc == 0) = false := beq_eq_false_iff_ne.mpr hacc
  have hkinds : (x.P0 == 0 || decide (x.P0 > 5)) = false := by simp; omega
  have hlong : ¬ rdLe x.payload 4 4 < 40 + rdLe (x.payload.drop 8) 0x14 4 := by omega
  change execTIER_SHELF_PUT x s = _
  rw [execTIER_SHELF_PUT, runTier_up hup]
  simp only [hparam, hstruct, hnamed, hkinds, hlong, hhead, hhead', bne_self_eq_false, Bool.or_self, Bool.false_eq_true, if_false]
  rfl

theorem exec_shelfPut_again (hheld : same.any (fun o => o.alive == x.P2) = true) :
    exec (.TIER_SHELF_PUT x) s = .next (s.finish Op.TIER_SHELF_PUT x (Answer.mk' St.ALREADY_DONE 0 0 n)) := by
  rw [exec_shelfPut hup hparam hstruct hh hn hsame hacc hkind hkind' hwhole hhead hhead', State.judgePut, if_pos hheld, SlipRes.close_done]

theorem exec_shelfPut_new {u : Nat} (hnew : same.any (fun o => o.alive == x.P2) = false)
    (hlatest : (same.map (fun o => o.alive)).foldl max 0 ≤ x.P2) (hunit : s.pickUnits 2 (bodyQuarters n) = some u)
    (hroom : s.holdUsed + bodyQuarters n ≤ s.fld F.TIER_HOLD_CAP) :
    exec (.TIER_SHELF_PUT x) s = .next (({ s.guardRun 2 u (bodyQuarters n) with shelf := s.shelf ++ [shelfObjectOf x u] } : State).finish
      Op.TIER_SHELF_PUT x (Answer.ok 0 n)) := by
  rw [exec_shelfPut hup hparam hstruct hh hn hsame hacc hkind hkind' hwhole hhead hhead']
  simp only [State.judgePut, hnew, if_neg (Nat.not_lt.mpr hlatest), hunit, if_neg (Nat.not_lt.mpr hroom), Bool.false_eq_true, if_false,
    SlipRes.close_done]
end

theorem exec_shelfGet {o : ShelfObj} {same : List ShelfObj} (hup : s.tierUp Op.TIER_SHELF_GET x = true)
    (hparam : badParam x [0xFF, w32, w32, 0, w32, w32] = none)
    (hsame : same = s.shelf.filter (fun o => o.accession == x.acc && o.kind == x.P0 && o.number == x.P1))
    (hfind : same.find? (fun o => o.alive == (if x.P2 == 0 then (same.map (fun o => o.alive)).foldl max 0 else x.P2)) = some o)
    (hsound : s.unitsHurt o.tier o.unit o.body.length = false) :
    exec (.TIER_SHELF_GET x) s = .next (s.finish Op.TIER_SHELF_GET x (Answer.ok 0 0
      (objHeader o.accession o.kind o.tenant o.number o.alive o.body.length ++ o.body))) := by
  subst hsame
  change execTIER_SHELF_GET x s = _
  apply runTier_done hup
  simp only [hparam, hfind, hsound, Bool.false_eq_true, if_false]

/-- Does a TIER_SHELF_DROP name the object (Table 7.9)? -/
def namedByDrop (x : Slip) (o : ShelfObj) : Bool :=
  !o.own && o.accession == x.acc && (x.P0 == 0 || o.kind == x.P0) && (x.P1 == w32 || o.number == x.P1) && (x.P2 == w32 || o.alive < x.P2)

theorem exec_shelfDrop (hup : s.tierUp Op.TIER_SHELF_DROP x = true) (hparam : badParam x [0xFF, w32, w32, 0, 0, 0] = none)
    (hsome : s.shelf.filter (namedByDrop x) ≠ []) :
    exec (.TIER_SHELF_DROP x) s = .next (({ s with shelf := s.shelf.filter (fun o => !namedByDrop x o) } : State).finish Op.TIER_SHELF_DROP x
      (Answer.ok (s.shelf.filter (namedByDrop x)).length)) := by
  have hcount : ((s.shelf.filter (namedByDrop x)).length == 0) = false := by simpa using hsome
  change execTIER_SHELF_DROP x s = _
  apply runTier_done hup
  unfold namedByDrop at hcount
  simp only [hparam, hcount, Bool.false_eq_true, if_false]
  rfl
end

end Sys2Proof.Machine

section
open Sys2Proof Sys2Proof.Machine

/-- Settles O20: each tier slip, run by `runTier_up`, takes the branch its premises open. -/
theorem tierSlipsComplete : Obligations.TierSlipsComplete := by
  unfold Obligations.TierSlipsComplete
  intro x s
  refine ⟨exec_setQuota, fun p => exec_tierQuery, fun r base => exec_lendHost, ?reclaim, ?put, fun o same => exec_shelfGet, ?drop⟩
  case reclaim =>
    intro r t hup hacc hparam hlent hlock hcleared
    exact ⟨exec_reclaimHost_empty hup hacc hparam hlent hlock hcleared, exec_reclaimHost_waits hup hacc hparam hlent hlock hcleared⟩
  case put =>
    intro h n same hup hparam hstruct hh hn hsame hacc hkind hkind' hwhole hhead hhead'
    refine ⟨exec_shelfPut_again hup hparam hstruct hh hn hsame hacc hkind hkind' hwhole hhead hhead',
      fun u hnew hlatest hunit hroom => ⟨_, rfl, ?_⟩⟩
    rw [exec_shelfPut_new hup hparam hstruct hh hn hsame hacc hkind hkind' hwhole hhead hhead' hnew hlatest hunit hroom]
    subst hh hn
    rfl
  case drop =>
    intro go hup hparam hgo
    obtain rfl : go = namedByDrop x := funext hgo
    exact exec_shelfDrop hup hparam

end

namespace Sys2Proof.Machine

/-! ## Holders' answers and silences (R190, R192) -/

section
variable {acc i dev status detail : Nat} {objs : List (Nat × Nat)} {e : Sess} {c : Commit} {mine : List (Nat × Nat × Nat)} {s : State}
  (hfind : s.findSess acc = some (i, e)) (hcommit : tGet s.commits i = some c)
  (hmine : mine = c.unacked.filter (fun u => u.1 == dev && objs.contains (u.2.1, u.2.2))) (hasked : mine ≠ [])
include hfind hcommit hmine hasked

theorem exec_holderAck_ok (hok : statusClass status ≤ 1) : exec (.HOLDER_ACK acc dev objs status detail) s = .next
    ((({ s with commits := tPut s.commits i { c with unacked := c.unacked.filter (fun u => !mine.contains u) } } : State).bumpBy
      F.TIER_CNT_SHELVED_COUNT mine.length).commitStep i) := by
  have howed : mine.isEmpty = false := List.isEmpty_eq_false_iff.mpr hasked
  change execHOLDER_ACK acc dev objs status detail s = _
  simp only [execHOLDER_ACK, hfind, hcommit, ← hmine, howed, if_pos hok, Bool.false_eq_true, if_false]

/-- An error is a refused charge, or else loses the holder. -/
theorem exec_holderAck_error (herror : ¬statusClass status ≤ 1) : exec (.HOLDER_ACK acc dev objs status detail) s =
    .next (if status == St.NO_SLOTS && detail == 6 then s.holderFull i c else s.holderLost dev) := by
  have howed : mine.isEmpty = false := List.isEmpty_eq_false_iff.mpr hasked
  change execHOLDER_ACK acc dev objs status detail s = _
  simp only [execHOLDER_ACK, hfind, hcommit, ← hmine, howed, if_neg herror, Bool.false_eq_true, if_false]
  split <;> rfl

theorem exec_holderAck_full (hstatus : status = St.NO_SLOTS) (hdetail : detail = 6) :
    exec (.HOLDER_ACK acc dev objs status detail) s = .next (s.holderFull i c) := by
  subst hstatus hdetail
  rw [exec_holderAck_error hfind hcommit hmine hasked (by decide)]
  rfl

theorem exec_holderAck_lost (herror : 2 ≤ statusClass status) (hother : status = St.NO_SLOTS → detail ≠ 6) :
    exec (.HOLDER_ACK acc dev objs status detail) s = .next (s.holderLost dev) := by
  have hnotFull : ¬(status == St.NO_SLOTS && detail == 6) = true := by simpa using hother
  rw [exec_holderAck_error hfind hcommit hmine hasked (by omega), if_neg hnotFull]
end

theorem exec_noSlotsTimeout (dev : Nat) (s : State) : exec (.HOLDER_NO_SLOTS_TIMEOUT dev) s = .next (s.holderLost dev) := rfl

section
variable {dev : Nat} {s : State}

theorem exec_getTimeout_of_none_asked (hnone : s.revives.filter (fun r => r.2.asked.any (fun a => a.2.2 == dev)) = []) :
    exec (.GET_TIMEOUT dev) s = .next ((s.holderLost dev).mirrorLost dev) := by
  change execGET_TIMEOUT dev s = _
  simp only [execGET_TIMEOUT, hnone, List.foldl_nil]

theorem exec_getTimeout_of_one_asked {i : Nat} {r : Revive} {a : Nat × Nat × Nat}
    (hone : s.revives.filter (fun r => r.2.asked.any (fun a => a.2.2 == dev)) = [(i, r)])
    (hasked : r.asked.find? (fun a => a.2.2 == dev) = some a) :
    exec (.GET_TIMEOUT dev) s = .next (((s.fetchFailed i dev a.1 a.2.1).holderLost dev).mirrorLost dev) := by
  change execGET_TIMEOUT dev s = _
  simp only [execGET_TIMEOUT, hone, List.foldl_cons, List.foldl_nil, hasked]
end

/-! ## Heads and objects that arrive (R193, R197, R321) -/

section
variable {acc i dev : Nat} {obj : Option Bytes} {e : Sess} {r : Revive} {s : State} (hfind : s.findSess acc = some (i, e))
  (hrevive : tGet s.revives i = some r)
include hfind hrevive

section
variable (hstage : r.stage = 0) (hasked : r.asked.contains (1, 0, dev) = true)
include hstage hasked

theorem exec_headArrival_ok {b : Bytes} (hsound : s.reviveFetched i r dev 1 0 obj = .ok b) :
    exec (.REVIVE_HEAD_ARRIVAL acc dev obj) s = .next (if r.phase = 8 then s.adoptSettle i true else s.headIn i dev b) := by
  change execREVIVE_HEAD_ARRIVAL acc dev obj s = _
  simp only [execREVIVE_HEAD_ARRIVAL, hfind, hrevive, hstage, hasked, hsound, bne_self_eq_false, Bool.not_true, Bool.or_self, beq_iff_eq,
    Bool.false_eq_true, if_false]

theorem exec_headArrival_refused {k : Nat} (hbad : s.reviveFetched i r dev 1 0 obj = .error k) :
    exec (.REVIVE_HEAD_ARRIVAL acc dev obj) s = .next ((s.refuseObject acc 1 0 k).fetchFailed i dev 1 0) := by
  change execREVIVE_HEAD_ARRIVAL acc dev obj s = _
  simp only [execREVIVE_HEAD_ARRIVAL, hfind, hrevive, hstage, hasked, hbad, bne_self_eq_false, Bool.not_true, Bool.or_self,
    Bool.false_eq_true, if_false]
end

section
variable {kind number : Nat} (hasked : r.asked.contains (kind, number, dev) = true)
include hasked

section
variable (hphase : r.phase ≠ 6)
include hphase

theorem exec_objectArrival_ok {b : Bytes} (hsound : s.reviveFetched i r dev kind number obj = .ok b) :
    exec (.SHELF_OBJECT_ARRIVAL acc dev kind number obj) s = .next (s.placeObject i dev kind number obj b) := by
  change execSHELF_OBJECT_ARRIVAL acc dev kind number obj s = _
  simp only [execSHELF_OBJECT_ARRIVAL, hfind, hrevive, hasked, beq_eq_false_iff_ne.mpr hphase, hsound, Bool.not_true, Bool.false_eq_true,
    if_false]

theorem exec_objectArrival_bad {k : Nat} (hbad : s.reviveFetched i r dev kind number obj = .error k) :
    exec (.SHELF_OBJECT_ARRIVAL acc dev kind number obj) s =
      .next ((s.refuseObject acc kind number k).fetchFailed i dev kind number) := by
  change execSHELF_OBJECT_ARRIVAL acc dev kind number obj s = _
  simp only [execSHELF_OBJECT_ARRIVAL, hfind, hrevive, hasked, beq_eq_false_iff_ne.mpr hphase, hbad, Bool.not_true, Bool.false_eq_true,
    if_false]
end

section
variable (hphase : r.phase = 6)
include hphase

theorem exec_replica_of_absent (habsent : obj = none ∨ tGet s.commits i = none) :
    exec (.SHELF_OBJECT_ARRIVAL acc dev kind number obj) s = .next (s.fetchFailed i dev kind number) := by
  change execSHELF_OBJECT_ARRIVAL acc dev kind number obj s = _
  simp only [execSHELF_OBJECT_ARRIVAL, hfind, hrevive, hasked, hphase, BEq.rfl, Bool.not_true, Bool.false_eq_true, if_true, if_false]
  rcases habsent with rfl | hcommit
  · rfl
  · rw [hcommit]
    cases obj <;> rfl

section
variable {raw : Bytes} {c : Commit} (hobj : obj = some raw) (hcommit : tGet s.commits i = some c)
include hobj hcommit

theorem exec_replica_bad {k : Nat} (hbad : s.reviveFetched i r dev kind number obj = .error k) :
    exec (.SHELF_OBJECT_ARRIVAL acc dev kind number obj) s =
      .next ((s.refuseObject acc kind number k).fetchFailed i dev kind number) := by
  subst hobj
  change execSHELF_OBJECT_ARRIVAL acc dev kind number (some raw) s = _
  simp only [execSHELF_OBJECT_ARRIVAL, hfind, hrevive, hasked, hphase, hcommit, hbad, BEq.rfl, Bool.not_true, Bool.false_eq_true,
    if_true, if_false]

theorem exec_replica_ok {b : Bytes} {q : Nat × Nat × Bool} {t : State} (hsound : s.reviveFetched i r dev kind number obj = .ok b)
    (hplace : q = c.placeOf e kind number)
    (hput : t = (s.gotObject i kind number).putObject i q.1 q.2.1 q.2.2 kind number (r.alive e kind number) (raw.drop 32)) :
    exec (.SHELF_OBJECT_ARRIVAL acc dev kind number obj) s = .next (({ t with
      commits := tPut t.commits i { c with unacked := c.unacked ++ [(q.1, kind, number)] } } : State).reviveNext i) := by
  subst hobj hplace hput
  change execSHELF_OBJECT_ARRIVAL acc dev kind number (some raw) s = _
  simp only [execSHELF_OBJECT_ARRIVAL, hfind, hrevive, hasked, hphase, hcommit, hsound, BEq.rfl, Bool.not_true, Bool.false_eq_true,
    if_true, if_false]
end
end

/-- In either phase an object that does not verify is refused; in re-replication, while the generation that takes it is being committed. -/
theorem exec_objectArrival_refused {k : Nat} (hjudged : r.phase ≠ 6 ∨ (obj.isSome = true ∧ (tGet s.commits i).isSome = true))
    (hbad : s.reviveFetched i r dev kind number obj = .error k) :
    exec (.SHELF_OBJECT_ARRIVAL acc dev kind number obj) s =
      .next ((s.refuseObject acc kind number k).fetchFailed i dev kind number) := by
  by_cases hphase : r.phase = 6
  · obtain ⟨hobj, hcommit⟩ := hjudged.resolve_left (not_not_intro hphase)
    obtain ⟨raw, hraw⟩ := Option.isSome_iff_exists.mp hobj
    obtain ⟨c, hc⟩ := Option.isSome_iff_exists.mp hcommit
    exact exec_replica_bad hfind hrevive hasked hphase hraw hc hbad
  · exact exec_objectArrival_bad hfind hrevive hasked hphase hbad
end
end

/-! ## Writes of the quota and pool registers (R201) -/

theorem exec_quotaWrite {tier : Nat} (value : Word) (s : State) (hlo : 1 ≤ tier) (hhi : tier ≤ 4) :
    exec (.TIER_QUOTA_WRITE tier value) s = .next (s.setLimit
      (if s.flag F.TIER_QUOTA_SEL_OPR then 0xFFFF else s.fld F.TIER_QUOTA_SEL_TENANT) tier (bitsOf value.toNat 63 32)) :=
  if_neg (by simp; omega)

/-- The state without pool entry `k`. -/
def State.withoutPool (s : State) (k : Nat) : State := { s with pool := tDel s.pool k }

/-- The sessions whose image a device holds part of. -/
def State.heldOn (s : State) (dev : Nat) : List (Nat × Sess) :=
  s.sessions.filter fun p => match p.2.manifest with | some m => m.holderSet.contains dev | none => false

/-- A session gets another holder in a device's place, one being revived when it comes to it (R192). -/
def replaceOn (dev : Nat) (s : State) (p : Nat × Sess) : State :=
  if p.2.state == Ss.REVIVING then s.updRevive p.1 (fun r => { r with lost := (r.lost ++ [dev]).eraseDups }) else s.replaceHolder p.1 [dev]

section
variable {value : Word} {s : State} {k : Nat} (hsel : k = s.fld F.TIER_POOL_SEL_INDEX)
include hsel

theorem exec_poolAdd_new (hvalid : bitOf value.toNat 63 = true) (hnew : tGet s.pool k = none) :
    exec (.POOL_ENTRY_ADD value) s = .next { s with pool := tPut s.pool k { device := bitsOf value.toNat 19 0 } } := by
  change execPOOL_ENTRY_ADD value s = _
  simp only [execPOOL_ENTRY_ADD, ← hsel, hvalid, hnew, Option.isSome_none, Bool.not_true, Bool.false_eq_true, if_false]

theorem exec_poolAdd_again {v : PoolEnt} (hvalid : bitOf value.toNat 63 = true) (hheld : tGet s.pool k = some v) :
    exec (.POOL_ENTRY_ADD value) s = .next s.regAccErr := by
  change execPOOL_ENTRY_ADD value s = _
  simp only [execPOOL_ENTRY_ADD, ← hsel, hvalid, hheld, Option.isSome_some, Bool.not_true, Bool.false_eq_true, if_true, if_false]

theorem exec_poolRetire {v : PoolEnt} (hinvalid : bitOf value.toNat 63 = false) (hheld : tGet s.pool k = some v) :
    exec (.POOL_ENTRY_RETIRE value) s =
      if (s.heldOn v.device).isEmpty || (s.withoutPool k).fenced then .next (s.withoutPool k)
      else .next (((s.heldOn v.device).foldl (replaceOn v.device) (s.withoutPool k)).bump F.TIER_CNT_HOLDER_LOST_COUNT) := by
  change execPOOL_ENTRY_RETIRE value s = _
  simp only [execPOOL_ENTRY_RETIRE, ← hsel, hinvalid, hheld, Bool.false_eq_true, if_false]
  rfl

theorem exec_poolRetire_of_none_held {v : PoolEnt} (hinvalid : bitOf value.toNat 63 = false) (hheld : tGet s.pool k = some v)
    (hnone : s.heldOn v.device = []) : exec (.POOL_ENTRY_RETIRE value) s = .next (s.withoutPool k) := by
  rw [exec_poolRetire hsel hinvalid hheld, hnone]
  rfl

theorem exec_poolRetire_of_held {v : PoolEnt} (hinvalid : bitOf value.toNat 63 = false) (hheld : tGet s.pool k = some v)
    (hsome : s.heldOn v.device ≠ []) (hfence : (s.withoutPool k).fenced = false) :
    exec (.POOL_ENTRY_RETIRE value) s =
      .next (((s.heldOn v.device).foldl (replaceOn v.device) (s.withoutPool k)).bump F.TIER_CNT_HOLDER_LOST_COUNT) := by
  have hgoes : ¬((s.heldOn v.device).isEmpty || (s.withoutPool k).fenced) = true := by simp [hsome, hfence]
  rw [exec_poolRetire hsel hinvalid hheld, if_neg hgoes]
end

end Sys2Proof.Machine

section
open Sys2Proof Sys2Proof.Machine

/-- Settles O22: each acknowledgement, timeout, arrival and register write takes the branch its premises open. -/
theorem holdersAndPoolEventsComplete : Obligations.HoldersAndPoolEventsComplete := by
  unfold Obligations.HoldersAndPoolEventsComplete
  refine ⟨?ack, fun dev s => ⟨exec_noSlotsTimeout dev s, exec_getTimeout_of_none_asked, fun i r a => exec_getTimeout_of_one_asked⟩,
    ?arrival, fun tier value s => exec_quotaWrite value s, ?pool⟩
  case ack =>
    intro acc i dev status detail objs e c mine s hfind hcommit hmine hasked
    exact ⟨exec_holderAck_ok hfind hcommit hmine hasked, exec_holderAck_full hfind hcommit hmine hasked,
      exec_holderAck_lost hfind hcommit hmine hasked⟩
  case arrival =>
    intro acc i dev obj e r s hfind hrevive
    refine ⟨fun b hstage hasked => exec_headArrival_ok hfind hrevive hstage hasked,
      fun k hstage hasked => exec_headArrival_refused hfind hrevive hstage hasked,
      fun kind number b hasked hphase => exec_objectArrival_ok hfind hrevive hasked hphase,
      fun kind number k hasked => exec_objectArrival_refused hfind hrevive hasked,
      fun kind number hasked hphase => ⟨exec_replica_of_absent hfind hrevive hasked hphase, ?replica⟩⟩
    case replica =>
      intro raw c b q t hobj hcommit hsound hplace hput
      exact ⟨_, rfl, exec_replica_ok hfind hrevive hasked hphase hobj hcommit hsound hplace hput⟩
  case pool =>
    intro value s k hsel
    refine ⟨exec_poolAdd_new hsel, fun v => exec_poolAdd_again hsel, ?retire⟩
    case retire =>
      rintro v hit hinvalid hheld rfl
      exact ⟨exec_poolRetire_of_none_held hsel hinvalid hheld, fun hsome _ => exec_poolRetire_of_held hsel hinvalid hheld hsome⟩

end

namespace Sys2Proof.Machine

/-! ## The tokeniser's lattice (R206) -/

@[simp] theorem leBytes_one_toNat (b : Byte) : leBytes 1 b.toNat = [b] := by
  simp [leBytes]

/-- The token of the edge that ends at the last byte spells the bytes the edge spans. -/
def Node.Spells (p : Profile) (lat : List (Byte × Bool)) (n : Node) : Prop :=
  n.from_ < lat.length ∧ p.tokenBytes n.tok = (lat.drop n.from_).map (·.1)

/-- Cost of the best path to a node. -/
def nodeCost (nodes : List Node) (i : Nat) : Nat := if i == 0 then 0 else ((nodes[i - 1]?).map (·.cost)).getD 0

/-- The edge of an ordinary piece that spells the last `n` bytes, all of them valid. -/
def pieceNode (p : Profile) (lat : List (Byte × Bool)) (nodes : List Node) (n : Nat) : Option Node :=
  if (lat.drop (lat.length - n)).any (fun b => !b.2) then none
  else (p.pieces.find? (fun q => q.bytes == (lat.drop (lat.length - n)).map (·.1))).map
    (fun q => { cost := nodeCost nodes (lat.length - n) + q.cost, from_ := lat.length - n, tok := q.id })

/-- The edge of the byte token of the last byte. -/
def byteNode (p : Profile) (lat : List (Byte × Bool)) (nodes : List Node) : Node :=
  { cost := nodeCost nodes (lat.length - 1) + p.byteCost, from_ := lat.length - 1,
    tok := p.byteBase + (lat.getLast?.map (·.1.toNat)).getD 0 }

/-- The edges `nextNode` chooses between, in its order. -/
def lastEdges (p : Profile) (lat : List (Byte × Bool)) (nodes : List Node) : List Node :=
  ((List.range (min lat.length p.maxPiece)).map (· + 1)).reverse.filterMap (pieceNode p lat nodes) ++ [byteNode p lat nodes]

theorem nextNode_eq (p : Profile) (lat : List (Byte × Bool)) (nodes : List Node) :
    nextNode p lat nodes = (lastEdges p lat nodes).foldl (fun a b => if b.cost < a.cost then b else a)
      ((lastEdges p lat nodes).headD (byteNode p lat nodes)) := rfl

/-- What holds of every edge holds of the one chosen. -/
theorem nextNode_of_lastEdges {p : Profile} {lat : List (Byte × Bool)} {nodes : List Node} {P : Node → Prop}
    (h : ∀ e ∈ lastEdges p lat nodes, P e) : P (nextNode p lat nodes) := by
  rw [nextNode_eq]
  refine List.foldlRecOn (motive := P) _ _ ?first fun best hbest e he => ?next
  case first =>
    cases hedges : lastEdges p lat nodes with
    | nil => simp [lastEdges] at hedges
    | cons e es => exact h e (by simp [hedges])
  case next =>
    split
    · exact h e he
    · exact hbest

/-- The nodes of the first `n` bytes. -/
def latticeTo (p : Profile) (bytes : List (Byte × Bool)) (n : Nat) : List Node :=
  (List.range n).foldl (fun ns k => ns ++ [nextNode p (bytes.take (k + 1)) ns]) []

theorem lattice_eq_latticeTo (p : Profile) (bytes : List (Byte × Bool)) : lattice p bytes = latticeTo p bytes bytes.length := rfl

theorem latticeTo_succ (p : Profile) (bytes : List (Byte × Bool)) (n : Nat) :
    latticeTo p bytes (n + 1) = latticeTo p bytes n ++ [nextNode p (bytes.take (n + 1)) (latticeTo p bytes n)] := by
  simp [latticeTo, List.range_succ]

@[simp] theorem latticeTo_length (p : Profile) (bytes : List (Byte × Bool)) (n : Nat) : (latticeTo p bytes n).length = n := by
  induction n with
  | zero => rfl
  | succ n ih => simp [latticeTo_succ, ih]

/-- Node `k + 1` is chosen among the edges that end at byte `k + 1`, from the nodes before it; later bytes leave it as it is. -/
theorem latticeTo_getElem? (p : Profile) (bytes : List (Byte × Bool)) {k n : Nat} (hk : k < n) :
    (latticeTo p bytes n)[k]? = some (nextNode p (bytes.take (k + 1)) (latticeTo p bytes k)) := by
  induction n with
  | zero => omega
  | succ n ih =>
    rw [latticeTo_succ]
    rcases Nat.lt_succ_iff_lt_or_eq.mp hk with hlt | rfl
    · rw [List.getElem?_append_left (by simpa using hlt), ih hlt]
    · simp

section
variable {p : Profile} (hpieces : ∀ q ∈ p.pieces, q.bytes ≠ [] ∧ p.tokenBytes q.id = q.bytes)
  (hbytes : ∀ b, b < 256 → p.tokenBytes (p.byteBase + b) = leBytes 1 b)

include hpieces in
theorem pieceNode_spells {lat : List (Byte × Bool)} {nodes : List Node} {n : Nat} {e : Node}
    (he : pieceNode p lat nodes n = some e) : e.Spells p lat := by
  unfold pieceNode at he
  split at he
  · cases he
  · obtain ⟨q, hfind, rfl⟩ := Option.map_eq_some_iff.mp he
    obtain ⟨hne, hspells⟩ := hpieces q (List.mem_of_find?_eq_some hfind)
    have hsame : q.bytes = (lat.drop (lat.length - n)).map (·.1) := by simpa using List.find?_some hfind
    have hsome : lat.drop (lat.length - n) ≠ [] := fun hnil => hne (by rw [hsame, hnil]; rfl)
    exact ⟨by simpa using hsome, hspells.trans hsame⟩

include hbytes in
theorem byteNode_spells {lat : List (Byte × Bool)} (hlat : lat ≠ []) (nodes : List Node) : (byteNode p lat nodes).Spells p lat := by
  have hlast := List.getLast?_eq_some_getLast hlat
  have htok := hbytes _ (lat.getLast hlat).1.isLt
  refine ⟨Nat.sub_one_lt (List.length_eq_zero_iff.not.mpr hlat), ?_⟩
  simp [byteNode, hlast, List.drop_length_sub_one hlat, htok]

include hpieces hbytes

theorem nextNode_spells {lat : List (Byte × Bool)} (hlat : lat ≠ []) (nodes : List Node) : (nextNode p lat nodes).Spells p lat := by
  refine nextNode_of_lastEdges fun e he => ?_
  rcases List.mem_append.mp he with hpiece | hbyte
  · obtain ⟨n, -, hn⟩ := List.mem_filterMap.mp hpiece
    exact pieceNode_spells hpieces hn
  · rw [List.mem_singleton.mp hbyte]
    exact byteNode_spells hbytes hlat _

/-- The best path to node `j` spells the first `j` bytes: its last edge spells those from its start on, the path to its start those before. -/
theorem bestPath_spells (lat : List (Byte × Bool)) {fuel j : Nat} (hfuel : j ≤ fuel) (hj : j ≤ lat.length) :
    ((bestPath (lattice p lat) fuel j).map (·.2)).flatMap p.tokenBytes = (lat.take j).map (·.1) := by
  induction fuel generalizing j with
  | zero => simp [bestPath, Nat.le_zero.mp hfuel]
  | succ fuel ih =>
    cases j with
    | zero => simp [bestPath]
    | succ k =>
      have hnode : (lattice p lat)[k]? = some (nextNode p (lat.take (k + 1)) (latticeTo p lat k)) := by
        rw [lattice_eq_latticeTo, latticeTo_getElem? p lat hj]
      have htaken : lat.take (k + 1) ≠ [] := List.ne_nil_of_length_pos (by simp; omega)
      obtain ⟨hfrom, htok⟩ := nextNode_spells hpieces hbytes htaken (latticeTo p lat k)
      generalize nextNode p (lat.take (k + 1)) (latticeTo p lat k) = n at hnode hfrom htok
      have hlt : n.from_ < k + 1 := by simpa [hj] using hfrom
      have hpath : bestPath (lattice p lat) (fuel + 1) (k + 1) = bestPath (lattice p lat) fuel n.from_ ++ [(k + 1, n.tok)] := by
        simp [bestPath, hnode]
      have hfront : (lat.take (k + 1)).take n.from_ = lat.take n.from_ := by rw [List.take_take, min_eq_left hlt.le]
      calc ((bestPath (lattice p lat) (fuel + 1) (k + 1)).map (·.2)).flatMap p.tokenBytes
          = (lat.take n.from_).map (·.1) ++ ((lat.take (k + 1)).drop n.from_).map (·.1) := by
            simp [hpath, ih (j := n.from_) (by omega) (by omega), htok]
        _ = (lat.take (k + 1)).map (·.1) := by rw [← hfront, ← List.map_append, List.take_append_drop]
end

end Sys2Proof.Machine

section
open Sys2Proof Sys2Proof.Machine

/-- Settles O25: the best path to the last node spells every byte (`bestPath_spells`). -/
theorem tokeniserKeepsEveryByte : Obligations.TokeniserKeepsEveryByte := by
  unfold Obligations.TokeniserKeepsEveryByte
  intro p lat hpieces hbytes
  calc (latticeEnd p lat).flatMap p.tokenBytes
      = (lat.take lat.length).map (·.1) := bestPath_spells hpieces hbytes lat (Nat.le_succ _) le_rfl
    _ = lat.map (·.1) := by rw [List.take_length]

end

namespace Sys2Proof.Machine

/-! ## Slips of no session and of one (R41) -/

theorem noSession_ok {x : Slip} {masks : List Nat} (hacc : x.acc = 0) (hparam : badParam x masks = none) (s : State) (f : SlipRes) :
    noSession x masks s f = f := by
  simp [noSession, hacc, hparam]

theorem acc_ne_zero_of_sessionUp {op : Nat} {x : Slip} {masks : List Nat} {s : State} {i : Nat} {e : Sess}
    (h : s.sessionUp op x masks i e = true) : x.acc ≠ 0 := by
  simp only [State.sessionUp, Bool.and_eq_true] at h
  obtain ⟨-, hacc, -⟩ := h
  simpa using hacc

/-! ## States that take input (Table 8.6) -/

theorem takesInput_iff {st : Nat} :
    takesInput st = true ↔ st = Ss.ACCESSIONED ∨ st = Ss.WAITING ∨ st = Ss.PARKED ∨ st = Ss.TRANSCRIPT_ONLY := by
  simp [takesInput, takesInput.atRestState, or_assoc]

theorem takesInput_of_hot {st : Nat} (h : st = Ss.ACCESSIONED ∨ st = Ss.WAITING) :
    takesInput st = true ∧ (st == Ss.PARKED || st == Ss.TRANSCRIPT_ONLY) = false := by
  rcases h with rfl | rfl <;> decide

theorem takesInput_of_cold {st : Nat} (h : st = Ss.PARKED ∨ st = Ss.TRANSCRIPT_ONLY) :
    takesInput st = true ∧ (st == Ss.PARKED || st == Ss.TRANSCRIPT_ONLY) = true := by
  rcases h with rfl | rfl <;> decide

/-! ## TEXT_APPEND (R209, R210) -/

/-- Nothing taken in yet, on a context. -/
def Feed.onCtx (c : TextCtx) : Feed := { ctx := c, toks := [], invalid := 0, cuts := 0, bytes := 0 }

def startsWithToks (segs : List Seg) : Bool := match segs.head? with | some (.toks _) => true | _ => false

def endsWithText (segs : List Seg) : Bool := match segs.getLast? with | some (.text _) => true | _ => false

/-- The slip leaves its context open: MORE applies. -/
def moreApplies (x : Slip) (segs : List Seg) : Bool := bitOf x.P0 0 && endsWithText segs

/-- Nothing stands against a segment list: its order, the text units, the contexts. -/
structure State.TakesSegs (s : State) (x : Slip) (i : Nat) (segs : List Seg) : Prop where
  order : (s.textOpen i && startsWithToks segs) = false
  unit : s.noTextUnit = false
  enabled : moreApplies x segs = true → s.flag F.TEXT_CTRL_CTX_EN = true
  room : moreApplies x segs = true → s.textOpen i = true ∨ s.text.length < 8192

/-- What a segment list feeds on a context. -/
def State.feedOn (s : State) (p : Profile) (c : TextCtx) (segs : List Seg) : Feed :=
  feedSegs p (s.fld F.TEXT_CTX_CFG_FORCE_WINDOW) (Feed.onCtx c) segs

/-- What TEXT_APPEND feeds, the input ended unless MORE applies. -/
def State.appendFeed (s : State) (p : Profile) (x : Slip) (i : Nat) (segs : List Seg) : Feed :=
  if moreApplies x segs then s.feedOn p ((tGet s.text i).getD TextCtx.fresh) segs
  else (s.feedOn p ((tGet s.text i).getD TextCtx.fresh) segs).finish p (s.fld F.TEXT_CTX_CFG_FORCE_WINDOW)

/-- The state with a feed's context kept, its timeout started anew, or closed. -/
def State.withCtx (s : State) (i : Nat) (more : Bool) (f : Feed) : State :=
  { s with text := if more then tPut s.text i { f.ctx with due := s.tick + s.fld F.TEXT_CTX_CFG_CTX_TIMEOUT * 100000 } else tDel s.text i }

/-- TEXT_APPEND's answer to a feed taken in, with its invalid bytes (R204). -/
def Feed.appendAnswer (f : Feed) (s : State) : SlipRes :=
  if f.invalid == 0 then .done s (Answer.ok f.toks.length 0)
  else .done s (Answer.mk' St.INVALID_UTF8 f.invalid f.toks.length f.invalid)

theorem Feed.appendAnswer_close (f : Feed) (s : State) (op : Nat) (x : Slip) : (f.appendAnswer s).close op x =
    s.finish op x (if f.invalid = 0 then Answer.ok f.toks.length 0 else Answer.mk' St.INVALID_UTF8 f.invalid f.toks.length f.invalid) := by
  by_cases hvalid : f.invalid = 0 <;> simp [Feed.appendAnswer, hvalid]

/-- A list nothing stands against is held for a revive, or fed if its tokens fit. -/
def State.appendTaken (s : State) (p : Profile) (x : Slip) (i : Nat) (e : Sess) (segs : List Seg) : SlipRes :=
  if e.state == Ss.PARKED || e.state == Ss.TRANSCRIPT_ONLY then s.reviveFor i x
  else
    let f := s.appendFeed p x i segs
    if !s.tokensFit e f.toks.length then .no s St.CONTEXT_FULL
    else f.appendAnswer (((s.withCtx i (moreApplies x segs) f).countFeed f).appendInput i f.toks)

/-- What TEXT_APPEND does with a segment list without refusals. -/
def State.appendRes (s : State) (p : Profile) (x : Slip) (i : Nat) (e : Sess) (segs : List Seg) : SlipRes :=
  if s.textOpen i && startsWithToks segs then .no s St.BUSY
  else if s.noTextUnit then .no s St.UNIT_FAILED
  else if moreApplies x segs && !s.flag F.TEXT_CTRL_CTX_EN then .no s St.BUSY
  else if moreApplies x segs && !s.textOpen i && s.text.length ≥ 8192 then .no s St.NO_SLOTS 8
  else s.appendTaken p x i e segs

theorem State.appendRes_of_takes {s : State} {x : Slip} {i : Nat} {segs : List Seg} (h : s.TakesSegs x i segs) (p : Profile) (e : Sess) :
    s.appendRes p x i e segs = s.appendTaken p x i e segs := by
  obtain ⟨horder, hunit, henabled, hroom⟩ := h
  have hctx : (moreApplies x segs && !s.flag F.TEXT_CTRL_CTX_EN) = false := by
    cases hmore : moreApplies x segs with
    | false => rfl
    | true => simp [henabled hmore]
  have hslot : (moreApplies x segs && !s.textOpen i && s.text.length ≥ 8192) = false := by
    cases hmore : moreApplies x segs with
    | false => rfl
    | true =>
      rcases hroom hmore with hopen | hlt
      · simp [hopen]
      · simp [hlt]
  simp only [State.appendRes, horder, hunit, hctx, hslot, Bool.false_eq_true, if_false]

theorem State.appendTaken_hot {s : State} {p : Profile} {x : Slip} {i : Nat} {e : Sess} {segs : List Seg} {f : Feed}
    (hf : f = s.appendFeed p x i segs) (hstate : e.state = Ss.ACCESSIONED ∨ e.state = Ss.WAITING)
    (hfit : s.tokensFit e f.toks.length = true) :
    s.appendTaken p x i e segs = f.appendAnswer (((s.withCtx i (moreApplies x segs) f).countFeed f).appendInput i f.toks) := by
  obtain ⟨-, hhot⟩ := takesInput_of_hot hstate
  simp only [State.appendTaken, ← hf, hhot, hfit, Bool.not_true, Bool.false_eq_true, if_false]

theorem State.appendTaken_cold {e : Sess} (hstate : e.state = Ss.PARKED ∨ e.state = Ss.TRANSCRIPT_ONLY) (s : State) (p : Profile) (x : Slip)
    (i : Nat) (segs : List Seg) : s.appendTaken p x i e segs = s.reviveFor i x := by
  obtain ⟨-, hcold⟩ := takesInput_of_cold hstate
  exact if_pos hcold

section
variable {x : Slip} {s : State} {i : Nat} {e : Sess} {p : Profile} (hp : s.profile = some p)
include hp

section
variable (hup : s.sessionUp Op.TEXT_APPEND x [1, 0, 0, 0, 0, 0] i e = true) {segs : List Seg}
  (hsegs : segList p 0x800 x.trusted x.payload = .ok segs)
include hup hsegs

/-- `hp` rewrites the profile of the record that keeps the context as well, so `State.withCtx` is unfolded with it. -/
theorem exec_textAppend (hstate : takesInput e.state = true) :
    exec (.TEXT_APPEND x) s = .next ((s.appendRes p x i e segs).close Op.TEXT_APPEND x) := by
  change execTEXT_APPEND x s = _
  rw [execTEXT_APPEND, runSession_up hup]
  simp only [hp, hstate, hsegs, Bool.not_true, Bool.false_eq_true, if_false, State.appendRes, State.appendTaken, State.withCtx]
  rfl

variable (htakes : s.TakesSegs x i segs)
include htakes

theorem exec_textAppend_hot (hstate : e.state = Ss.ACCESSIONED ∨ e.state = Ss.WAITING) {f : Feed}
    (hf : f = s.appendFeed p x i segs) (hfit : s.tokensFit e f.toks.length = true) :
    exec (.TEXT_APPEND x) s = .next ((((s.withCtx i (moreApplies x segs) f).countFeed f).appendInput i f.toks).finish Op.TEXT_APPEND x
      (if f.invalid = 0 then Answer.ok f.toks.length 0 else Answer.mk' St.INVALID_UTF8 f.invalid f.toks.length f.invalid)) := by
  rw [exec_textAppend hp hup hsegs (takesInput_of_hot hstate).1, State.appendRes_of_takes htakes, State.appendTaken_hot hf hstate hfit,
    Feed.appendAnswer_close]

theorem exec_textAppend_cold (hstate : e.state = Ss.PARKED ∨ e.state = Ss.TRANSCRIPT_ONLY) :
    exec (.TEXT_APPEND x) s = .next ((s.reviveFor i x).close Op.TEXT_APPEND x) := by
  rw [exec_textAppend hp hup hsegs (takesInput_of_cold hstate).1, State.appendRes_of_takes htakes, State.appendTaken_cold hstate]
end

/-! ## TEXT_APPEND_TOKENS -/

section
variable (hup : s.sessionUp Op.TEXT_APPEND_TOKENS x [0, 0, 0, 0, 0, 0] i e = true) {ids : List Nat}
  (hids : tokList p 0x801 x.trusted x.payload = .ok ids) (hclosed : s.textOpen i = false)
include hup hids hclosed

theorem exec_textAppendTokens (hstate : takesInput e.state = true) : exec (.TEXT_APPEND_TOKENS x) s = .next
    ((if e.state == Ss.PARKED || e.state == Ss.TRANSCRIPT_ONLY then s.reviveFor i x
      else if !s.tokensFit e ids.length then .no s St.CONTEXT_FULL
      else .done (s.appendInput i (ids.map (fun t => (t, p.controls.contains t)))) (Answer.ok ids.length)).close
        Op.TEXT_APPEND_TOKENS x) := by
  change execTEXT_APPEND_TOKENS x s = _
  rw [execTEXT_APPEND_TOKENS, runSession_up hup]
  simp only [hp, hstate, hids, hclosed, Bool.not_true, Bool.false_eq_true, if_false]

theorem exec_textAppendTokens_hot (hstate : e.state = Ss.ACCESSIONED ∨ e.state = Ss.WAITING) (hfit : s.tokensFit e ids.length = true) :
    exec (.TEXT_APPEND_TOKENS x) s = .next ((s.appendInput i (ids.map (fun t => (t, p.controls.contains t)))).finish
      Op.TEXT_APPEND_TOKENS x (Answer.ok ids.length)) := by
  obtain ⟨htakesInput, hhot⟩ := takesInput_of_hot hstate
  rw [exec_textAppendTokens hp hup hids hclosed htakesInput, hhot, hfit]
  rfl

theorem exec_textAppendTokens_cold (hstate : e.state = Ss.PARKED ∨ e.state = Ss.TRANSCRIPT_ONLY) :
    exec (.TEXT_APPEND_TOKENS x) s = .next ((s.reviveFor i x).close Op.TEXT_APPEND_TOKENS x) := by
  obtain ⟨htakesInput, hcold⟩ := takesInput_of_cold hstate
  rw [exec_textAppendTokens hp hup hids hclosed htakesInput, hcold]
  rfl
end

/-! ## TEXT_TOKENISE, TEXT_DETOKENISE, TEXT_TRANSCRIPT_READ and a context's timeout (R209, R212) -/

theorem exec_textTokenise {segs : List Seg} {f : Feed} (hup : s.takenUp Op.TEXT_TOKENISE x = true) (hacc : x.acc = 0)
    (hparam : badParam x [0, 0, 0, 0, 0xFFFFFFFF, 0xFFFFFFFF] = none)
    (hsegs : segList p 0x802 x.trusted x.payload = .ok segs) (hunit : s.noTextUnit = false)
    (hf : f = (s.feedOn p TextCtx.fresh segs).finish p (s.fld F.TEXT_CTX_CFG_FORCE_WINDOW)) (hvalid : f.invalid = 0) :
    exec (.TEXT_TOKENISE x) s = .next ((s.countFeed f).finish Op.TEXT_TOKENISE x (Answer.ok f.toks.length 0
      (structure0 0x802 (leBytes 4 f.toks.length ++ leBytes 4 0 ++ f.toks.flatMap (fun t => leBytes 4 t.1))))) := by
  simp only [State.feedOn, Feed.onCtx] at hf
  change execTEXT_TOKENISE x s = _
  rw [execTEXT_TOKENISE, runSlip_takenUp hup, noSession_ok hacc (masks := [0, 0, 0, 0, w32, w32]) hparam]
  simp only [hp, hsegs, hunit, ← hf, hvalid, beq_self_eq_true, Bool.false_eq_true, if_true, if_false, SlipRes.close_done]

theorem exec_textDetokenise {ids : List Nat} (hup : s.takenUp Op.TEXT_DETOKENISE x = true) (hacc : x.acc = 0)
    (hparam : badParam x [0, 0, 0, 0, 0xFFFFFFFF, 0xFFFFFFFF] = none)
    (hids : tokList p 0x803 true x.payload = .ok ids) (hunit : s.noTextUnit = false) : exec (.TEXT_DETOKENISE x) s =
      .next ((s.jobOn A.TEXT_UNIT 47 0 16).finish Op.TEXT_DETOKENISE x (Answer.ok 0 0 (ids.flatMap p.tokenBytes))) := by
  change execTEXT_DETOKENISE x s = _
  rw [execTEXT_DETOKENISE, runSlip_takenUp hup, noSession_ok hacc (masks := [0, 0, 0, 0, w32, w32]) hparam]
  simp only [hp, hids, hunit, Bool.false_eq_true, if_false, SlipRes.close_done]

/-- The state as a context has timed out: the context gone, its flush counted. -/
def State.flushed (s : State) (i : Nat) : State := ({ s with text := tDel s.text i } : State).bump F.TEXT_CNT_CTX_FLUSH_COUNT

theorem exec_ctxTimeout {acc : Nat} {c : TextCtx} {f : Feed} (hfind : s.findSess acc = some (i, e)) (hctx : tGet s.text i = some c)
    (hpast : c.due ≤ s.tick) (hf : f = Feed.finish p (s.fld F.TEXT_CTX_CFG_FORCE_WINDOW) (Feed.onCtx c)) :
    exec (.CTX_TIMEOUT acc) s = .next (((s.flushed i).countFeed f).appendInput i
      (if (s.flushed i).tokensFit e f.toks.length then f.toks else [])) := by
  subst hf
  change execCTX_TIMEOUT acc s = _
  simp only [execCTX_TIMEOUT, hfind, hp, hctx, if_neg (Nat.not_lt.mpr hpast), State.flushed, Feed.onCtx]
end

theorem exec_transcriptRead {x : Slip} {s : State} {i : Nat} {e : Sess}
    (hup : s.sessionUp Op.TEXT_TRANSCRIPT_READ x [0xFFFFFFFF, 0xFFFFFFFF, 0, 0, 0xFFFFFFFF, 0xFFFFFFFF] i e = true)
    (hlo : 1 ≤ x.P1) (hhi : x.P1 ≤ 262144) (hin : x.P0 < e.tlen) (hhere : e.away = false) :
    exec (.TEXT_TRANSCRIPT_READ x) s = .next (s.finish Op.TEXT_TRANSCRIPT_READ x
      (Answer.ok e.tlen 0 (((e.transcript.drop x.P0).take x.P1).flatMap (leBytes 4)))) := by
  have hcount : (x.P1 == 0 || decide (x.P1 > 262144)) = false := by simp; omega
  change execTEXT_TRANSCRIPT_READ x s = _
  rw [execTEXT_TRANSCRIPT_READ]
  simp only [w32, runSession_up hup, hcount, if_neg (Nat.not_le.mpr hin), hhere, Bool.false_eq_true, if_false, SlipRes.close_done]

/-- A selector write copies the slot's sampling structure into the data registers, the selector first (R226). -/
theorem exec_textSlotSel (value : Word) (s : State) : exec (.TEXT_SLOT_SEL value) s =
    .next ((List.range 5).foldl (fun t w => t.setReg (A.TEXT_SLOT_DATA + 8 * w)
      (BitVec.ofNat 64 (rdLe (s.slotOf (bitsOf value.toNat 15 4) (bitsOf value.toNat 3 0)).sampling (8 * w) 8)))
        (s.setReg A.TEXT_SLOT_SEL (BitVec.ofNat 64 (2 ^ 63 + value.toNat % 2 ^ 16)))) := rfl

end Sys2Proof.Machine

section
open Sys2Proof Sys2Proof.Machine

/-- Settles O23: a segment or token list nothing stands against is fed or held for a revive by the session's state, and each other
command takes the branch its premises open. -/
theorem textSlipsComplete : Obligations.TextSlipsComplete := by
  unfold Obligations.TextSlipsComplete
  refine ⟨fun x s i e p hp => ⟨?hot, ?cold, ?tokens, fun _ _ => exec_textTokenise hp, fun _ => exec_textDetokenise hp,
    exec_transcriptRead, fun _ _ _ => exec_ctxTimeout hp⟩, exec_textSlotSel⟩
  case hot =>
    intro segs firstTok lastText more f hup hstate hsegs hfirst hlast hmore horder hunit henabled hroom hf hfit
    obtain rfl : firstTok = startsWithToks segs := hfirst
    obtain rfl : lastText = endsWithText segs := hlast
    obtain rfl : more = moreApplies x segs := hmore
    have hfed : f = s.appendFeed p x i segs := hf.trans (ite_apply ..)
    exact ⟨_, _, rfl, rfl, exec_textAppend_hot hp hup hsegs ⟨horder, hunit, henabled, hroom⟩ hstate hfed hfit⟩
  case cold =>
    intro segs hup hstate hsegs hclosed hunit hmore
    have hgiven : moreApplies x segs = true → bitOf x.P0 0 = true := fun h => (Bool.and_eq_true_iff.mp h).1
    have htakes : s.TakesSegs x i segs := ⟨by rw [hclosed]; rfl, hunit, fun h => (hmore (hgiven h)).1, fun h => .inr (hmore (hgiven h)).2⟩
    exact exec_textAppend_cold hp hup hsegs htakes hstate
  case tokens =>
    intro ids hup hids hclosed
    exact ⟨exec_textAppendTokens_hot hp hup hids hclosed, exec_textAppendTokens_cold hp hup hids hclosed⟩

end

namespace Sys2Proof.Machine

/-! ## Sampling settings and grammars (R215 to R217, R222) -/

/-- The state with slot `x.P0` of the slip's tenant written. -/
def State.withSlot (s : State) (x : Slip) (v : SampSlot) : State :=
  s.updTenant x.ten (fun t => { t with slots := tPut t.slots x.P0 v })

section
variable {x : Slip} {s : State} {i : Nat} {e : Sess}

theorem exec_sampSet_slot (hup : s.takenUp Op.SAMP_SET x = true) (hacc : x.acc = 0) (hparam : badParam x [15, 0, 0, 0, 0, 0] = none)
    (hslot : x.P0 ≠ 0) (hstruct : badStruct 0xC00 48 x.payload = none) (hok : samplingOk (slice x.payload 8 40) = true) :
    exec (.SAMP_SET x) s = .next ((s.withSlot x { s.slotOf x.ten x.P0 with sampling := slice x.payload 8 40 }).finish
      Op.SAMP_SET x (Answer.ok x.P0)) := by
  change execSAMP_SET x s = _
  rw [execSAMP_SET, if_pos (beq_iff_eq.mpr hacc), runSlip_takenUp hup, noSession_ok hacc hparam]
  simp only [beq_iff_eq, hslot, hstruct, hok, Bool.not_true, Bool.false_eq_true, if_false, SlipRes.close_done]
  rfl

theorem exec_sampSet_session (hup : s.sessionUp Op.SAMP_SET x [15, 0, 0, 0, 0, 0] i e = true) (hopen : e.state ≠ Ss.CLOSED)
    (hbare : x.payload = []) : exec (.SAMP_SET x) s =
      .next (((s.updSess i (fun e => { e with sampling := x.P0 })).imageChanged i).finish Op.SAMP_SET x (Answer.ok x.P0)) := by
  change execSAMP_SET x s = _
  rw [execSAMP_SET, if_neg (by simpa using acc_ne_zero_of_sessionUp hup), runSession_up hup]
  simp only [beq_iff_eq, hopen, hbare, List.isEmpty_nil, Bool.not_true, Bool.false_eq_true, if_false, SlipRes.close_done]

theorem exec_sampSetStops {stops : List Bytes} (hup : s.takenUp Op.SAMP_SET_STOPS x = true) (hacc : x.acc = 0)
    (hparam : badParam x [15, 0, 0, 0, 0, 0] = none) (hslot : x.P0 ≠ 0) (hstruct : badStruct 0xC01 16 x.payload = none)
    (hstops : stopList x.payload = some stops) : exec (.SAMP_SET_STOPS x) s =
      .next ((s.withSlot x { s.slotOf x.ten x.P0 with stops := stops, incl := bitOf (rdLe x.payload 9 1) 0 }).finish
        Op.SAMP_SET_STOPS x (Answer.ok stops.length)) := by
  change execSAMP_SET_STOPS x s = _
  rw [execSAMP_SET_STOPS, runSlip_takenUp hup, noSession_ok hacc hparam]
  simp only [beq_iff_eq, hslot, hstruct, hstops, if_false, SlipRes.close_done]
  rfl

section
variable (hstate : takesInput e.state = true) (hidle : e.armed = false)
include hstate hidle

theorem exec_gramAttach {g : Grammar} (hup : s.sessionUp Op.GRAM_ATTACH x [0xFFFF, 0, 0, 0, 0, 0] i e = true)
    (hgrammar : s.grammarOf x.P0 = some g) : exec (.GRAM_ATTACH x) s =
      .next (((s.updSess i (fun e => { e with grammar := x.P0 })).imageChanged i).finish Op.GRAM_ATTACH x (Answer.ok x.P0)) := by
  change execGRAM_ATTACH x s = _
  rw [execGRAM_ATTACH, runSession_up hup]
  simp only [hstate, hidle, hgrammar, Option.isNone_some, Bool.not_true, Bool.or_self, Bool.false_eq_true, if_false, SlipRes.close_done]

theorem exec_gramDetach (hup : s.sessionUp Op.GRAM_DETACH x [0, 0, 0, 0, 0, 0] i e = true) (hattached : e.grammar ≠ 0) :
    exec (.GRAM_DETACH x) s =
      .next (((s.updSess i (fun e => { e with grammar := 0 })).imageChanged i).finish Op.GRAM_DETACH x (Answer.ok e.grammar)) := by
  change execGRAM_DETACH x s = _
  rw [execGRAM_DETACH, runSession_up hup]
  simp only [hstate, hidle, beq_iff_eq, hattached, Bool.not_true, Bool.or_self, Bool.false_eq_true, if_false, SlipRes.close_done]
end
end

end Sys2Proof.Machine

section
open Sys2Proof Sys2Proof.Machine

/-- Settles O24: each slip, run on its slot or its session, takes the branch its premises open. -/
theorem samplingSlipsComplete : Obligations.SamplingSlipsComplete := by
  unfold Obligations.SamplingSlipsComplete
  intro x s i e
  refine ⟨fun hup hacc hparam hslot hstruct hok => ⟨_, rfl, exec_sampSet_slot hup hacc hparam hslot hstruct hok⟩, exec_sampSet_session,
    fun stops hup hacc hparam hslot hstruct hstops => ⟨_, rfl, exec_sampSetStops hup hacc hparam hslot hstruct hstops⟩, ?grammars⟩
  case grammars =>
    intro hstate hidle
    have htakes := takesInput_iff.mpr hstate
    exact ⟨fun _ => exec_gramAttach htakes hidle, exec_gramDetach htakes hidle⟩

end

namespace Sys2Proof.Machine

/-! ## Output rings (R228, R231 to R233) -/

section
variable {x : Slip} {s : State} {n first status : Nat} {p : Push} {r c : Ring} {value : Word}

theorem exec_ringConsumed (hup : s.takenUp Op.RING_CONSUMED x = true) (hacc : x.acc = 0)
    (hparam : badParam x [0xFFFF, 0xFFFFFFFF, 0, 0, 0, 0] = none) (hr : r = s.ring x.P0) (hstate : r.state ≠ 0) (hten : r.tenant = x.ten)
    (hci : r.ciOk x.P1 = true) : exec (.RING_CONSUMED x) s = .next ((s.advanceCi x.P0 x.P1).finish Op.RING_CONSUMED x
      (Answer.ok ((s.advanceCi x.P0 x.P1).ring x.P0).room)) := by
  subst hr
  change execRING_CONSUMED x s = _
  rw [execRING_CONSUMED, runSlip_takenUp hup]
  simp only [w32, hacc, hparam, hten, hci, bne_self_eq_false, beq_eq_false_iff_ne.mpr hstate, Bool.not_true, Bool.false_eq_true, if_false,
    SlipRes.close_done]

/-! ### The consumer's doorbell -/

theorem exec_ringCi_inRange {k : Nat} (hn : n = bitsOf value.toNat 47 32) (hk : k = bitsOf value.toNat 31 0)
    (hstate : (s.ring n).state ≠ 0) (hci : (s.ring n).ciOk k = true) : exec (.SCHED_RING_CI value) s = .next (s.advanceCi n k) := by
  subst hn hk
  exact if_neg (Bool.eq_false_iff.mp (Bool.or_eq_false_iff.mpr ⟨beq_eq_false_iff_ne.mpr hstate, congrArg Bool.not hci⟩))

theorem exec_ringCi_outside {k : Nat} (hn : n = bitsOf value.toNat 47 32) (hk : k = bitsOf value.toNat 31 0)
    (hci : (s.ring n).ciOk k = false) : exec (.SCHED_RING_CI value) s = .next s.regAccErr := by
  subst hn hk
  exact if_pos (Bool.or_eq_true_iff.mpr (.inr (congrArg Bool.not hci)))

/-! ### Pushes that fail, and host writes -/

section
variable (hfind : (s.ring n).pushes.find? (fun p => p.first == first) = some p)
include hfind

theorem exec_pushError_retried (hclass : statusClass status = 2) (hretries : p.retries < 3) :
    exec (.RING_PUSH_ERROR_REPLY n first status) s = .next (s.setRing n { s.ring n with pushes := (s.ring n).pushes.map (fun (q : Push) =>
      if q.first == first then { q with due := some (s.tick + 2000) } else q) }) := by
  change execRING_PUSH_ERROR_REPLY n first status s = _
  simp [execRING_PUSH_ERROR_REPLY, hfind, hclass, hretries]

theorem exec_pushError_final (hclass : 2 ≤ statusClass status) (hretries : statusClass status = 2 → 3 ≤ p.retries) :
    exec (.RING_PUSH_ERROR_REPLY n first status) s = .next (s.ringError n) := by
  have hworse : ¬ statusClass status ≤ 1 := by omega
  have hspent : ¬ (statusClass status == 2 && decide (p.retries < 3)) = true := by
    simpa using hretries
  change execRING_PUSH_ERROR_REPLY n first status s = _
  simp only [execRING_PUSH_ERROR_REPLY, hfind, if_neg hworse, if_neg hspent]

theorem exec_pushRetry {d : Nat} (hdue : p.due = some d) (hpast : d ≤ s.tick) (hstate : (s.ring n).state = 1) :
    exec (.RING_PUSH_RETRY n first) s = .next ((s.setRing n { s.ring n with pushes := (s.ring n).pushes.map (fun (q : Push) =>
      if q.first == first then { q with retries := q.retries + 1, due := none } else q) }).sendPush n first p.recs) := by
  change execRING_PUSH_RETRY n first s = _
  simp only [execRING_PUSH_RETRY, hfind, hdue, hstate, hpast, beq_self_eq_true, decide_true, Bool.and_self, if_true]
end

theorem exec_hostRingWriteError (hhost : (s.ring n).network = false) : exec (.HOST_RING_WRITE_ERROR n) s = .next (s.ringError n) :=
  if_neg (by simp [hhost])

/-! ### Enabling and disabling -/

section
variable (hn : n = s.fld F.SCHED_RING_SEL_RING) (hr : r = s.ring n) (hc : c = r.withCfg value)
include hn hr hc

theorem exec_ringEnable_disabled (hstate : r.state = 0) (hvalid : s.ringValid c = true) (hready : s.hostReady = true) :
    exec (.RING_ENABLE value) s = .next (({ s with sec := { s.sec with hostUsed := true } } : State).setRing n { c with
      state := 1, pi := 0, ci := 0, batch := [], pushes := [], made := 0, groups := 0, discarded := 0, written := 0,
      conf := s.provCtr }) := by
  subst hn hr hc
  exact (if_pos (beq_iff_eq.mpr hstate)).trans (if_pos (Bool.and_eq_true_iff.mpr ⟨hvalid, hready⟩))

theorem exec_ringEnable_error (hstate : r.state = 2) (hsame : c = r) : exec (.RING_ENABLE value) s = .next (s.resync n) := by
  subst hn hr hc
  change execRING_ENABLE value s = _
  simp [execRING_ENABLE, State.selRing, hstate, hsame]

theorem exec_ringDisable_free (hstate : r.state ≠ 0) (hfree : r.owner = none) (hsame : c = r) :
    exec (.RING_DISABLE value) s = .next (s.setRing n { r with state := 0, pushes := [], batch := [] }) := by
  subst hn hr hc
  change execRING_DISABLE value s = _
  simp [execRING_DISABLE, State.selRing, hstate, hfree, hsame]

theorem exec_ringDisable_attached (hstate : r.state ≠ 0) (howned : ∃ i, r.owner = some i) :
    exec (.RING_DISABLE value) s = .next s.regAccErr := by
  subst hn hr
  exact (if_neg fun h => hstate (beq_iff_eq.mp h)).trans (if_pos (Option.isSome_iff_exists.mpr howned))
end

theorem exec_ringIrqGapEnd {vec t : Nat} (hlast : tGet s.ringVec vec = some t) (hpast : t + s.fld F.SCHED_CTRL_IRQ_GAP_US * 100 ≤ s.tick)
    (howed : s.ringOwed.contains vec = true) : exec (.RING_IRQ_GAP_END vec) s =
      .next (({ s with ringOwed := s.ringOwed.filter (· != vec), ringVec := tPut s.ringVec vec s.tick } : State).sendMsix vec) := by
  change execRING_IRQ_GAP_END vec s = _
  simp only [execRING_IRQ_GAP_END, hlast, hpast, howed, decide_true, Bool.and_self, if_true]
end

end Sys2Proof.Machine

section
open Sys2Proof Sys2Proof.Machine

/-- Settles O27: each ring command takes the branch its premises on the ring, its push or its vector open. -/
theorem ringsComplete : Obligations.RingsComplete := by
  unfold Obligations.RingsComplete
  refine ⟨fun _ _ _ => exec_ringConsumed,
    fun _ _ _ _ hn hk => ⟨exec_ringCi_inRange hn hk, exec_ringCi_outside hn hk⟩,
    fun _ _ _ _ hfind => ⟨?retried, fun _ => exec_pushError_final hfind, ?again⟩,
    fun _ _ => exec_hostRingWriteError,
    fun _ _ _ _ _ hn hr hc => ⟨?enabled, exec_ringEnable_error hn hr hc, exec_ringDisable_free hn hr hc, exec_ringDisable_attached hn hr hc⟩,
    ?gap⟩
  case retried => exact fun _ hclass hretries => ⟨_, rfl, exec_pushError_retried hfind hclass hretries⟩
  case again => exact fun _ hdue hpast hstate => ⟨_, rfl, exec_pushRetry hfind hdue hpast hstate⟩
  case enabled => exact fun hstate hvalid hready => ⟨_, rfl, exec_ringEnable_disabled hn hr hc hstate hvalid hready⟩
  case gap => exact fun _ _ _ hlast hpast howed => ⟨_, rfl, exec_ringIrqGapEnd hlast hpast howed⟩

end

namespace Sys2Proof.Machine

/-! ## Clearing what the SCHED registers show of the queues (R247, R251) -/

/-- HWM_CLR stores 0 in the three high-water marks, one after another. -/
theorem exec_hwmClr (s : State) : exec .HWM_CLR s = .next
    (((s.setReg A.SCHED_HWM 0).setReg (A.SCHED_HWM + 8) 0).setReg (A.SCHED_HWM + 16) 0) := rfl

theorem State.setReg_regs_wf {s : State} (hs : Regs.wf s.regs = true) (a : Nat) (w : Word) : Regs.wf (s.setReg a w).regs = true :=
  sSet_wf _ _ hs

/-- With the register file in canonical form the word stored is the word read. -/
theorem State.setReg_reg_self {s : State} (hs : Regs.wf s.regs = true) (a : Nat) (w : Word) : (s.setReg a w).reg a = w :=
  (sGet_sSet _ _ _ hs).trans (if_pos rfl)

/-- With the register file in canonical form HWM_CLR leaves every high-water mark 0. -/
theorem exec_hwmClr_of_canonical {s : State} (hs : Regs.wf s.regs = true) :
    ∃ t, exec .HWM_CLR s = .next t ∧ (∀ q, q < 3 → t.reg (A.SCHED_HWM + 8 * q) = 0) ∧ t.hists = s.hists := by
  refine ⟨_, exec_hwmClr s, fun q hq => ?_, rfl⟩
  have hs₁ := State.setReg_regs_wf hs A.SCHED_HWM 0
  have hs₂ := State.setReg_regs_wf hs₁ (A.SCHED_HWM + 8) 0
  obtain rfl | rfl | rfl : q = 0 ∨ q = 1 ∨ q = 2 := by omega
  · exact (State.setReg_reg_of_ne (by decide) ..).trans ((State.setReg_reg_of_ne (by decide) ..).trans (State.setReg_reg_self hs ..))
  · exact (State.setReg_reg_of_ne (by decide) ..).trans (State.setReg_reg_self hs₁ ..)
  · exact State.setReg_reg_self hs₂ ..

/-! ### One queue's histograms -/

theorem State.clearHist_hist_self (s : State) (q : Nat) : (s.clearHist q).hist q = s.cleared q := by
  simp [State.clearHist, State.hist]

theorem State.clearHist_hist_other (s : State) {q k : Nat} (h : k ≠ q) : (s.clearHist q).hist k = s.hist k := by
  simp only [State.clearHist, State.hist, tGet_tPut_other h]

/-- A bin of a queue is read of that queue's histograms and the number of samples. -/
theorem State.histBin_congr {s t : State} {q : Nat} (hhist : t.hist q = s.hist q) (hsamples : t.histSamples = s.histSamples) (b : Nat) :
    t.histBin q b = s.histBin q b := by
  simp only [State.histBin, hhist, hsamples]

theorem State.clearHist_histBin_self (s : State) (q b : Nat) : (s.clearHist q).histBin q b = 0 := by
  have hsamples : (s.clearHist q).histSamples = s.histSamples := rfl
  simp [State.histBin, State.clearHist_hist_self, State.cleared, hsamples, tGet]

/-- With the register file in canonical form HIST_QUEUE_CLR selects its queue and empties that queue's bins alone. -/
theorem exec_histQueueClr_of_canonical {value : Word} {s : State} {q : Nat} (hs : Regs.wf s.regs = true)
    (hq : q = F.SCHED_HIST_SEL_QUEUE.get value) : ∃ t, exec (.HIST_QUEUE_CLR value) s = .next t ∧ t.fld F.SCHED_HIST_SEL_QUEUE = q
      ∧ (∀ b : Nat, t.histBin q b = 0) ∧ ∀ k b : Nat, k ≠ q → t.histBin k b = s.histBin k b := by
  subst hq
  refine ⟨_, rfl, ?_, State.clearHist_histBin_self _ _, fun k b hk => State.histBin_congr (State.clearHist_hist_other _ hk) rfl b⟩
  exact (State.setFld_fld_self hs (show 15 < 64 by decide) _).trans (Nat.mod_mod ..)

/-! ### A register file that lists a high-water mark twice -/

/-- A device whose register file lists SCHED_HWM_0 twice, which canonical form excludes: storing the reset value, 0, removes the first
entry and uncovers the second. -/
def twiceListedMark : State := { State.reset with regs := [(A.SCHED_HWM, 5), (A.SCHED_HWM, 5)] }

theorem twiceListedMark_keeps_five :
    (((twiceListedMark.setReg A.SCHED_HWM 0).setReg (A.SCHED_HWM + 8) 0).setReg (A.SCHED_HWM + 16) 0).reg A.SCHED_HWM = 5 := by decide

end Sys2Proof.Machine

section
open Sys2Proof Sys2Proof.Machine

/-- Refutes O28: the clauses on HWM_CLR and HIST_QUEUE_CLR have no premise that the register file is in canonical form, and without one a
high-water mark may still read 5 after HWM_CLR; with that premise both hold (`exec_hwmClr_of_canonical`,
`exec_histQueueClr_of_canonical`). -/
theorem not_queueObservationComplete : ¬ Obligations.QueueObservationComplete := by
  unfold Obligations.QueueObservationComplete
  rintro ⟨-, hclear, -⟩
  obtain ⟨t, hexec, hmarks, -⟩ := hclear twiceListedMark
  obtain rfl := Host.Outcome.next.inj ((exec_hwmClr twiceListedMark).symm.trans hexec)
  exact absurd (twiceListedMark_keeps_five.symm.trans (hmarks 0 (by decide))) (by decide)

end

namespace Sys2Proof.Machine

/-! ## The snapshot of a shard (R267) -/

/-- VEC_COL_SEL and its three data registers written. -/
def State.storeSnapshot (s : State) (sel w₀ w₁ w₂ : Word) : State :=
  (((s.setReg A.VEC_COL_SEL sel).setReg A.VEC_COL_INFO w₀).setReg (A.VEC_COL_INFO + 8) w₁).setReg (A.VEC_COL_INFO + 16) w₂

/-- With the register file in canonical form the snapshot stored is the one read. -/
theorem State.storeSnapshot_reads {s : State} (hs : Regs.wf s.regs = true) (sel w₀ w₁ w₂ : Word) :
    (s.storeSnapshot sel w₀ w₁ w₂).reg A.VEC_COL_SEL = sel ∧ (s.storeSnapshot sel w₀ w₁ w₂).reg A.VEC_COL_INFO = w₀
      ∧ (s.storeSnapshot sel w₀ w₁ w₂).reg (A.VEC_COL_INFO + 8) = w₁ ∧ (s.storeSnapshot sel w₀ w₁ w₂).reg (A.VEC_COL_INFO + 16) = w₂ := by
  have hs₁ := State.setReg_regs_wf hs A.VEC_COL_SEL sel
  have hs₂ := State.setReg_regs_wf hs₁ A.VEC_COL_INFO w₀
  have hs₃ := State.setReg_regs_wf hs₂ (A.VEC_COL_INFO + 8) w₁
  unfold State.storeSnapshot
  refine ⟨?_, ?_, ?_, State.setReg_reg_self hs₃ _ _⟩
  · rw [State.setReg_reg_of_ne (by decide), State.setReg_reg_of_ne (by decide), State.setReg_reg_of_ne (by decide),
      State.setReg_reg_self hs]
  · rw [State.setReg_reg_of_ne (by decide), State.setReg_reg_of_ne (by decide), State.setReg_reg_self hs₁]
  · rw [State.setReg_reg_of_ne (by decide), State.setReg_reg_self hs₂]

section
variable {value : Word} {s : State} {id : Nat} (hid : id = bitsOf value.toNat 31 0)
include hid

theorem exec_vecColSel_none (hnone : tGet s.shards id = none) :
    exec (.VEC_COL_SEL value) s = .next (s.storeSnapshot (BitVec.ofNat 64 id) 0 0 0) := by
  subst hid
  change execVEC_COL_SEL value s = _
  have hnone : tGet s.shards (value.toNat % 2 ^ 32) = none := hnone
  simp only [execVEC_COL_SEL, hnone]
  rfl

theorem exec_vecColSel_held {v : Shard} (hheld : tGet s.shards id = some v) :
    exec (.VEC_COL_SEL value) s = .next (s.storeSnapshot (BitVec.ofNat 64 (2 ^ 63 + id))
      (BitVec.ofNat 64 (v.state * 2 ^ 61 + v.format * 2 ^ 58 + v.distance * 2 ^ 56 + v.map.length * 2 ^ 47 + v.shard * 2 ^ 39
        + v.tenant * 2 ^ 24 + v.dim))
      (BitVec.ofNat 64 (v.lists * 2 ^ 21 + v.loaded))
      (BitVec.ofNat 64 (v.index.length * 2 ^ 32 + (s.shardRecords v - v.index.length)))) := by
  subst hid
  change execVEC_COL_SEL value s = _
  have hheld : tGet s.shards (value.toNat % 2 ^ 32) = some v := hheld
  simp only [execVEC_COL_SEL, hheld]
  rfl

/-- With the register file in canonical form VEC_COL_SEL shows a held shard with VALID set, and zeros of none. -/
theorem exec_vecColSel_of_canonical (hs : Regs.wf s.regs = true) :
    (tGet s.shards id = none → ∃ t, exec (.VEC_COL_SEL value) s = .next t ∧ t.reg A.VEC_COL_SEL = BitVec.ofNat 64 id
      ∧ t.reg A.VEC_COL_INFO = 0 ∧ t.reg (A.VEC_COL_INFO + 8) = 0 ∧ t.reg (A.VEC_COL_INFO + 16) = 0)
    ∧ (∀ v, tGet s.shards id = some v → ∃ t, exec (.VEC_COL_SEL value) s = .next t
      ∧ t.reg A.VEC_COL_SEL = BitVec.ofNat 64 (2 ^ 63 + id)
      ∧ t.reg A.VEC_COL_INFO = BitVec.ofNat 64 (v.state * 2 ^ 61 + v.format * 2 ^ 58 + v.distance * 2 ^ 56 + v.map.length * 2 ^ 47
        + v.shard * 2 ^ 39 + v.tenant * 2 ^ 24 + v.dim)
      ∧ t.reg (A.VEC_COL_INFO + 8) = BitVec.ofNat 64 (v.lists * 2 ^ 21 + v.loaded)
      ∧ t.reg (A.VEC_COL_INFO + 16) = BitVec.ofNat 64 (v.index.length * 2 ^ 32 + (s.shardRecords v - v.index.length))) :=
  ⟨fun hnone => ⟨_, exec_vecColSel_none hid hnone, State.storeSnapshot_reads hs ..⟩,
    fun _ hheld => ⟨_, exec_vecColSel_held hid hheld, State.storeSnapshot_reads hs ..⟩⟩
end

/-- A device that holds no shard and whose register file lists the first word of VEC_COL_INFO twice, which canonical form excludes. -/
def twiceListedSnapshot : State := { State.reset with regs := [(A.VEC_COL_INFO, 5), (A.VEC_COL_INFO, 5)] }

theorem twiceListedSnapshot_keeps_five : (twiceListedSnapshot.storeSnapshot 0 0 0 0).reg A.VEC_COL_INFO = 5 := by decide

end Sys2Proof.Machine

section
open Sys2Proof Sys2Proof.Machine

/-- Refutes O30: the clause on VEC_COL_SEL has no premise that the register file is in canonical form, and without one the selection of a
collection that is not held may still show a word of 5; with that premise the clause holds (`exec_vecColSel_of_canonical`). -/
theorem not_searchesComplete : ¬ Obligations.SearchesComplete := by
  unfold Obligations.SearchesComplete
  rintro ⟨-, -, -, -, -, -, hselect⟩
  obtain ⟨t, hexec, -, hzero, -⟩ := (hselect 0 twiceListedSnapshot 0 rfl).1 rfl
  obtain rfl := Host.Outcome.next.inj ((exec_vecColSel_none (value := 0) rfl rfl).symm.trans hexec)
  exact absurd (twiceListedSnapshot_keeps_five.symm.trans hzero) (by decide)

end

namespace Sys2Proof.Machine

/-! ## PFC frames and pauses (R271) -/

theorem State.not_linkDown {s : State} {sub : Nat} (hup : s.linkUp sub = true) : ¬ (!s.linkUp sub) = true := by
  rw [hup]
  decide

section
variable {sub prio cls : Nat} {s : State} (hup : s.linkUp sub = true)
include hup

theorem exec_pauseFrame : exec (.PAUSE_FRAME sub) s = .next (s.bump F.NET_CNT_DROPPED_COUNT) :=
  if_neg (State.not_linkDown hup)

theorem exec_pfcFrame_counted {quanta : Nat}
    (hother : prio ≠ 5 ∧ prio ≠ 3 ∨ s.flag (F.NET_PORT_VLAN_EN.at (8 * (sub / 4))) = false) :
    exec (.PFC_FRAME sub prio quanta) s = .next (s.bump F.NET_CNT_DROPPED_COUNT) := by
  refine (if_neg (State.not_linkDown hup)).trans (if_pos ?_)
  rcases hother with ⟨hfive, hthree⟩ | hvlan
  · simp [hfive, hthree]
  · simp [hvlan]

section
variable {quanta : Nat} (hprio : prio = 5 ∨ prio = 3) (hvlan : s.flag (F.NET_PORT_VLAN_EN.at (8 * (sub / 4))) = true)
include hprio hvlan

/-- A frame that is honoured ends the pause of its class on the sub-port; unless its quanta are 0 it starts one to their end, whose start
`since` may be that of the one ended. -/
theorem exec_pfcFrame_honoured : ∃ since, exec (.PFC_FRAME sub prio quanta) s = .next (s.setPort (sub / 4) { s.port (sub / 4) with
    pauses := if quanta = 0 then (s.port (sub / 4)).pauses.filter (fun z => !(z.1 == sub % 4 && z.2.1 == prio))
      else (s.port (sub / 4)).pauses.filter (fun z => !(z.1 == sub % 4 && z.2.1 == prio))
        ++ [(sub % 4, prio, s.tick + quantaTicks quanta (subRate (s.port (sub / 4)).mode), since)] }) := by
  have hhonoured : ((prio == 5 || prio == 3) && s.flag (F.NET_PORT_VLAN_EN.at (8 * (sub / 4)))) = true := by simpa [hvlan] using hprio
  change ∃ since, execPFC_FRAME sub prio quanta s = _
  simp only [execPFC_FRAME, hup, hhonoured, Bool.not_true, Bool.false_eq_true, if_false, beq_iff_eq]
  exact ⟨_, rfl⟩

theorem exec_pfcFrame_ends (hquanta : quanta = 0) : exec (.PFC_FRAME sub prio quanta) s = .next (s.setPort (sub / 4) { s.port (sub / 4) with
    pauses := (s.port (sub / 4)).pauses.filter (fun z => !(z.1 == sub % 4 && z.2.1 == prio)) }) := by
  obtain ⟨since, hexec⟩ := exec_pfcFrame_honoured hup hprio hvlan (quanta := quanta)
  rw [hexec, if_pos hquanta]

theorem exec_pfcFrame_paused (hquanta : quanta ≠ 0) :
    ∃ t, exec (.PFC_FRAME sub prio quanta) s = .next t ∧ t.regs = s.regs ∧
      ∃ z, z ∈ (t.port (sub / 4)).pauses ∧ z.1 = sub % 4 ∧ z.2.1 = prio ∧
        z.2.2.1 = s.tick + quantaTicks quanta (subRate (s.port (sub / 4)).mode) := by
  obtain ⟨since, hexec⟩ := exec_pfcFrame_honoured hup hprio hvlan (quanta := quanta)
  refine ⟨_, hexec, rfl, (sub % 4, prio, _, since), ?_, rfl, rfl, rfl⟩
  rw [State.setPort_port_self, if_neg hquanta]
  exact List.mem_append_right _ (List.mem_singleton_self _)
end
end

theorem exec_pfcWatchdog {sub cls : Nat} {s : State} (hwd : s.fld F.NET_PFC_PFC_WD ≠ 0) (hpaused : s.classPaused (sub / 4) (sub % 4) cls = true)
    (hlong : (s.port (sub / 4)).pauses.any (fun z => z.1 == sub % 4 && z.2.1 == cls && decide (s.tick < z.2.2.1)
      && decide (s.tick - z.2.2.2 ≥ s.fld F.NET_PFC_PFC_WD * 100000)) = true) :
    exec (.PFC_WATCHDOG sub cls) s = .next ((s.setPort (sub / 4) { s.port (sub / 4) with
      pfcOff := (s.port (sub / 4)).pfcOff.filter (fun z => !(z.1 == sub % 4 && z.2.1 == cls))
        ++ [(sub % 4, cls, s.tick + 100000000)] }).bump F.NET_CNT_PFC_WD_COUNT) :=
  if_pos (by simp only [bne_iff_ne.mpr hwd, hpaused, hlong, Bool.and_self])

/-! ## Control frames (R270) -/

/-- An address family that is on, and its address, answer. -/
theorem answers_own {on : Bool} {own a : Nat} (hon : on = true) (haddr : own = a) : (on && own == a) = true :=
  Bool.and_eq_true_iff.mpr ⟨hon, beq_iff_eq.mpr haddr⟩

section
variable {sub a : Nat} {b : Bytes} {s : State} (hup : s.linkUp sub = true)
include hup

section
variable (hen : s.flag F.NET_CTRL_IPV4_EN = true)
include hen

theorem exec_arpRequest_own (haddr : s.fld F.NET_IPV4_ADDR = a) :
    exec (.ETH_CONTROL_FRAME sub (.arpRequest a)) s = .next (s.sendFrame sub 64 (leBytes 6 (s.fld F.NET_MAC_BASE + sub))) :=
  (if_neg (State.not_linkDown hup)).trans (if_pos (answers_own hen haddr))

theorem exec_echo4_own (haddr : s.fld F.NET_IPV4_ADDR = a) :
    exec (.ETH_CONTROL_FRAME sub (.echo4 a b)) s = .next (s.sendFrame sub (14 + 20 + 8 + b.length + 4) b) :=
  (if_neg (State.not_linkDown hup)).trans (if_pos (answers_own hen haddr))

theorem exec_arpReply_gateway (haddr : s.fld F.NET_IPV4_GW4 = a) :
    exec (.ETH_CONTROL_FRAME sub (.arpReply a b)) s = .next (s.learnHop sub 4 b) :=
  (if_neg (State.not_linkDown hup)).trans (if_pos (answers_own hen haddr))
end

section
variable (hen : s.flag F.NET_CTRL_IPV6_EN = true)
include hen

theorem exec_solicitation_own (haddr : s.ipv6 = a) : exec (.ETH_CONTROL_FRAME sub (.solicitation a)) s =
    .next (s.sendFrame sub (14 + 40 + 32 + 4) (leBytes 6 (s.fld F.NET_MAC_BASE + sub))) :=
  (if_neg (State.not_linkDown hup)).trans (if_pos (answers_own hen haddr))

theorem exec_echo6_own (haddr : s.ipv6 = a) :
    exec (.ETH_CONTROL_FRAME sub (.echo6 a b)) s = .next (s.sendFrame sub (14 + 40 + 8 + b.length + 4) b) :=
  (if_neg (State.not_linkDown hup)).trans (if_pos (answers_own hen haddr))

theorem exec_advertisement : exec (.ETH_CONTROL_FRAME sub (.advertisement b)) s = .next (s.learnHop sub 6 b) :=
  (if_neg (State.not_linkDown hup)).trans (if_pos hen)
end

theorem exec_arpRequest_foreign (haddr : s.fld F.NET_IPV4_ADDR ≠ a) :
    exec (.ETH_CONTROL_FRAME sub (.arpRequest a)) s = .next (s.bump F.NET_CNT_DROPPED_COUNT) :=
  (if_neg (State.not_linkDown hup)).trans (if_neg (by simp [haddr]))

theorem exec_otherControlFrame : exec (.ETH_CONTROL_FRAME sub .other) s = .next (s.bump F.NET_CNT_DROPPED_COUNT) :=
  if_neg (State.not_linkDown hup)
end

/-! ## A link that goes down (R269, R280) -/

/-- A port of which sub-port `k` has gone down, its pauses with it. -/
def Port.withDown (v : Port) (k : Nat) : Port := { v with up := v.up.set k false, pauses := v.pauses.filter (fun z => z.1 != k) }

theorem Port.withDown_subUp (v : Port) (k : Nat) : (v.withDown k).subUp k = false := by
  have hdown : (v.up.set k false).getD k false = false := by
    rw [List.getD_eq_getElem?_getD, List.getElem?_set_self']
    cases v.up[k]? <;> rfl
  exact (congrArg (_ && ·) hdown).trans (Bool.and_false _)

theorem State.capRates_le {s : State} {q : Nat × Peer} (hq : q ∈ s.capRates.peers) : q.2.tx.rate ≤ s.capRates.lineRate := by
  obtain ⟨p, -, rfl⟩ := List.mem_map.mp hq
  change _ ≤ s.lineRate
  dsimp only
  split
  next => exact Nat.le_refl _
  next hle => exact Nat.not_lt.mp hle

theorem exec_linkDown {sub : Nat} {s : State} (hsub : sub < 32) : exec (.ETH_LINK_CHANGE sub false) s =
    .next (s.setPort (sub / 4) ((s.port (sub / 4)).withDown (sub % 4))).capRates := by
  refine (if_neg (Nat.not_le.mpr hsub)).trans ((if_neg (by simp)).trans (congrArg Host.Outcome.next ?_))
  exact foldl_leaves (view := id) (fun _ _ => rfl) _ _

/-! ## Frame boundaries (R242 to R244, R272) -/

/-- What the shapers and the queue observation leave alone of a boundary: the ports and what has been sent. -/
def State.wire (s : State) : Tbl Port × List Out := (s.ports, s.outbox)

theorem State.shapersTake_wire (s : State) (port : Nat) (f : Frame) : (s.shapersTake port f).wire = s.wire := by
  refine foldl_leaves (view := State.wire) (fun t h => ?_) _ s
  dsimp only
  split <;> rfl

theorem State.dequeued_wire (s : State) (q since : Nat) : (s.dequeued q since).wire = s.wire := by
  unfold State.dequeued
  dsimp only
  split <;> rfl

/-- What a frame's leaving enters: its length in its shapers, its delay in the queues of its class and its peer (R243, R246). -/
def State.enterLeaving (s : State) (port : Nat) (f : Frame) : State :=
  let s := (s.shapersTake port f).dequeued (16 + 8 * port + f.cls) f.since
  if f.peer < 4096 then s.dequeued (4096 + f.peer) f.since else s

theorem State.enterLeaving_wire (s : State) (port : Nat) (f : Frame) : (s.enterLeaving port f).wire = s.wire := by
  unfold State.enterLeaving
  dsimp only
  split
  · rw [State.dequeued_wire, State.dequeued_wire, State.shapersTake_wire]
  · rw [State.dequeued_wire, State.shapersTake_wire]

section
variable {port k : Nat} {s : State} {f : Frame} (hport : port < 8) (hnext : s.nextFrame port = some f)
  (hexit : s.exitSub port f.cls f.sub = some k)
include hport hnext hexit

/-- The frame chosen is taken from its queue, entered and sent; then the peer it was for sends on. -/
theorem exec_egressFrame : ∃ v t, v.queue = (s.port port).queue.erase f ∧
    t = ((s.setPort port v).enterLeaving port f).emit (.frame port k { f with sub := k }) ∧
    exec (.EGRESS_FRAME port) s = .next (if f.peer < 4096 then t.pump f.peer else t) := by
  change ∃ v t, _ ∧ _ ∧ execEGRESS_FRAME port s = _
  simp only [execEGRESS_FRAME, if_neg (Nat.not_le.mpr hport), hnext, hexit]
  refine ⟨_, _, ?queue, rfl, rfl⟩
  case queue => rfl

theorem exec_egressFrame_sends : ∃ t u, t.outbox = s.outbox ++ [.frame port k { f with sub := k }]
    ∧ (t.port port).queue = (s.port port).queue.erase f
    ∧ u = (if f.peer < 4096 then t.pump f.peer else t) ∧ exec (.EGRESS_FRAME port) s = .next u := by
  obtain ⟨v, t, hqueue, ht, hexec⟩ := exec_egressFrame hport hnext hexit
  obtain ⟨hports, hout⟩ := Prod.ext_iff.mp ((s.setPort port v).enterLeaving_wire port f)
  have hsame : t.port port = v := by
    rw [ht]
    exact (congrArg (fun p => (tGet p port).getD Port.fresh) hports).trans (State.setPort_port_self ..)
  refine ⟨t, _, ?sent, (congrArg Port.queue hsame).trans hqueue, rfl, hexec⟩
  case sent =>
    rw [ht]
    exact congrArg (· ++ [Out.frame port k { f with sub := k }]) hout
end

end Sys2Proof.Machine

section
open Sys2Proof Sys2Proof.Machine

/-- Settles O33: each frame, and each change of a port, takes the branch its premises open. -/
theorem ethernetPortsComplete : Obligations.EthernetPortsComplete := by
  unfold Obligations.EthernetPortsComplete
  refine ⟨fun _ _ _ _ hup => ⟨exec_pfcFrame_paused hup, ?ended, exec_pfcFrame_counted hup, exec_pauseFrame hup⟩,
    fun _ _ _ hwd hpaused hlong => ⟨_, rfl, exec_pfcWatchdog hwd hpaused hlong⟩,
    fun _ _ _ _ hup => ⟨?own4, ?own6, exec_arpReply_gateway hup, exec_advertisement hup, exec_arpRequest_foreign hup,
      exec_otherControlFrame hup⟩,
    fun _ _ hsub => ⟨_, exec_linkDown hsub, ?down, fun _ => State.capRates_le⟩,
    fun _ _ _ _ => exec_egressFrame_sends⟩
  case ended => exact fun hprio hvlan hquanta => ⟨_, rfl, exec_pfcFrame_ends hup hprio hvlan hquanta⟩
  case own4 => exact fun hen haddr => ⟨exec_arpRequest_own hup hen haddr, exec_echo4_own hup hen haddr⟩
  case own6 => exact fun hen haddr => ⟨exec_solicitation_own hup hen haddr, exec_echo6_own hup hen haddr⟩
  case down =>
    exact (congrArg (Port.subUp · _) (State.setPort_port_self ..)).trans (Port.withDown_subUp ..)

end

namespace Sys2Proof.Machine

/-! ## Collection slips that are taken up (R252, R255, R256, R263, R265) -/

/-- A vector slip whose effect on its shard is done is answered at once. -/
theorem runVec_done {op : Nat} {x : Slip} {masks : List Nat} {s t : State} {v : Shard} {f : State → Shard → SlipRes} {a : Answer}
    (hup : s.vecUp op x masks v = true) (hdone : f s v = .done t a) : runVec op x masks s f = .next (t.finish op x a) := by
  rw [runVec_up hup, hdone, SlipRes.close_done]

/-! ### VEC_CREATE (R252) -/

/-- The empty FLAT shard that the structure of a VEC_CREATE describes (R252). -/
def createdShard (x : Slip) : Shard :=
  { tenant := x.ten, dim := rdLe x.payload 0x0C 2, format := rdLe x.payload 0x0E 1, distance := rdLe x.payload 0x0F 1,
    shard := rdLe x.payload 0x10 2, map := wordsAt x.payload 0x1C (rdLe x.payload 0x12 2) 4, scale := rdLe x.payload 0x14 4,
    bf16 := rdLe x.payload 0x18 1 % 2 == 1, state := 0, lists := 1, loaded := 0, centBlocks := [], chains := [], index := [],
    err := 0, gone := false }

section
variable {format dim scale : Nat}

/-- A dimension that the element format can store (R252). -/
def formatFits (format dim : Nat) : Prop := format = 0 ∧ dim % 32 = 0 ∨ 3 ≤ format ∧ format ≤ 5 ∧ dim % 8 = 0

theorem formatFits.known (h : formatFits format dim) : (format == 0 || (decide (3 ≤ format) && decide (format ≤ 5))) = true := by
  obtain ⟨hf, -⟩ | ⟨hlo, hhi, -⟩ := h
  · simp [hf]
  · simp [hlo, hhi]

theorem formatFits.divides (h : formatFits format dim) : (if format == 0 then dim % 32 != 0 else dim % 8 != 0) = false := by
  obtain ⟨hf, hd⟩ | ⟨hlo, -, hd⟩ := h
  · simp [hf, hd]
  · have hf : format ≠ 0 := by omega
    simp [hf, hd]

/-- Format 5 has a positive finite scale, and no other format has one (R252). -/
theorem scale_ok (hplain : format ≠ 5 → scale = 0) (hscaled : format = 5 → f32Finite scale = true ∧ 0 < f32Fx scale) :
    (if format == 5 then f32Finite scale && decide (0 < f32Fx scale) else scale == 0) = true := by
  by_cases hf : format = 5
  · simp [hf, hscaled hf]
  · simp [hf, hplain hf]
end

section
variable {x : Slip} {s : State}

theorem exec_vecCreate (hup : s.takenUp Op.VEC_CREATE x = true) (hacc : x.acc = 0) (hparam : badParam x [0, 0, 0, 0, 0, 0] = none)
    (hstruct : badStruct 0x1400 0x1C x.payload = none) (hnew : tGet s.shards (rdLe x.payload 8 4) = none) (hroom : s.shards.length < 1024)
    (hid : rdLe x.payload 8 4 ≠ 0xFFFFFFFF) (hlo : 8 ≤ (createdShard x).dim) (hhi : (createdShard x).dim ≤ 4096)
    (hfits : formatFits (createdShard x).format (createdShard x).dim) (hdist : (createdShard x).distance ≤ 2)
    (hshard : (createdShard x).shard < rdLe x.payload 0x12 2) (hshards : rdLe x.payload 0x12 2 ≤ 256)
    (hplain : (createdShard x).format ≠ 5 → (createdShard x).scale = 0)
    (hscaled : (createdShard x).format = 5 → f32Finite (createdShard x).scale = true ∧ 0 < f32Fx (createdShard x).scale)
    (hwhole : 0x1C + 4 * rdLe x.payload 0x12 2 ≤ rdLe x.payload 4 4) (hmap : (createdShard x).map.any badDev = false) :
    exec (.VEC_CREATE x) s = .next ((s.setShard (rdLe x.payload 8 4) (createdShard x)).finish Op.VEC_CREATE x
      (Answer.ok (rdLe x.payload 8 4))) := by
  dsimp only [createdShard] at hlo hhi hfits hdist hshard hplain hscaled hmap
  have hsome : ¬ rdLe x.payload 0x12 2 < 1 := by omega
  change execVEC_CREATE x s = _
  rw [execVEC_CREATE, runSlip_takenUp hup]
  simp only [hacc, hparam, hstruct, hnew, hfits.known, hfits.divides, scale_ok hplain hscaled, hmap, hsome,
    beq_eq_false_iff_ne.mpr hid, bne_self_eq_false, Nat.not_lt.mpr hlo, Nat.not_lt.mpr hhi, Nat.not_lt.mpr hdist,
    Nat.not_le.mpr hshard, Nat.not_lt.mpr hshards, Nat.not_lt.mpr hwhole, Nat.not_le.mpr hroom, gt_iff_lt, Option.isSome_none,
    decide_false, Bool.not_true, Bool.or_self, Bool.false_eq_true, if_false, SlipRes.close_done]
  rfl

/-! ### VEC_DROP (R265) -/

section
variable {v : Shard} (hup : s.takenUp Op.VEC_DROP x = true) (hacc : x.acc = 0) (hparam : badParam x [0xFFFFFFFF, 0, 0, 0, 0, 0] = none)
  (hheld : tGet s.shards x.P0 = some v) (hhere : v.gone = false) (hten : v.tenant = x.ten)
include hup hacc hparam hheld hhere hten

theorem exec_vecDrop (hidle : s.searches.any (fun q => q.2.id == x.P0) = false) :
    exec (.VEC_DROP x) s = .next ((s.dropShard x.P0).1.finish Op.VEC_DROP x (Answer.ok (s.dropShard x.P0).2)) := by
  change execVEC_DROP x s = _
  rw [execVEC_DROP, runSlip_takenUp hup]
  simp only [w32, hacc, hparam, hheld, hhere, hten, hidle, bne_self_eq_false, Bool.false_and, Bool.false_eq_true, if_false,
    SlipRes.close_done]

theorem exec_vecDrop_searched (hsearched : s.searches.any (fun q => q.2.id == x.P0) = true) :
    exec (.VEC_DROP x) s = .next ((SlipRes.hold ((s.setShard x.P0 { v with gone := true }).updOutst x.src x.tag
      (fun o => { o with note := 3 })) (.vec x.P0)).close Op.VEC_DROP x) := by
  change execVEC_DROP x s = _
  rw [execVEC_DROP, runSlip_takenUp hup]
  simp only [w32, hacc, hparam, hheld, hhere, hten, hsearched, bne_self_eq_false, Bool.false_and, Bool.false_eq_true, if_false, if_true]
end

/-! ### VEC_INSERT (R255) and VEC_DELETE (R263) -/

section
variable {v : Shard} {n : Nat}

theorem exec_vecInsert {t u : State} {k : Nat} {es : List Bytes} {stored : List (Option Bytes)}
    (hup : s.vecUp Op.VEC_INSERT x [0xFFFFFFFF, 0, 0, 0, 0, 0] v = true) (hstruct : badStruct 0x1402 0x10 x.payload = none)
    (hn : n = rdLe x.payload 8 4) (hlo : 1 ≤ n) (hhi : n ≤ 4096) (hwhole : 0x10 + (24 + 4 * v.dim) * n ≤ rdLe x.payload 4 4)
    (hload : v.state ≠ 1) (hhurt : v.state ≠ 3)
    (hes : es = (List.range n).map (fun i => slice x.payload (0x10 + (24 + 4 * v.dim) * i) (24 + 4 * v.dim)))
    (hlists : es.any (fun e => rdLe e 0x10 4 != 0xFFFFFFFF && decide (rdLe e 0x10 4 ≥ v.lists)) = false)
    (hstored : stored = es.map (fun e => vecStore v.format v.scale (wordsAt e 0x18 v.dim 4))) (hsound : stored.any Option.isNone = false)
    (hpool : (v.loaded != 0 && s.vecPoolShut && es.any (fun e => rdLe e 0x10 4 == 0xFFFFFFFF)) = false)
    (hinsert : s.insertAll x.P0 ((es.zip stored).map (fun p =>
      (rdLe p.1 0 8, rdLe p.1 8 8, s.listFor v (rdLe p.1 0x10 4) (wordsAt p.1 0x18 v.dim 4), p.2.getD []))) = some (t, k))
    (hblocks : ∀ w, tGet t.shards x.P0 = some w → w.blocks ≤ 4194304) (hquota : t.rechargeShard x.P0 v.quarters = some u) :
    exec (.VEC_INSERT x) s = .next (((u.bumpBy F.VEC_CNT_INSERT_COUNT n).bumpBy F.VEC_CNT_DELETE_COUNT k).finish Op.VEC_INSERT x
      (Answer.ok n k)) := by
  subst hn hstored hes
  have hfull : (match tGet t.shards x.P0 with | some w => decide (w.blocks > 4194304) | none => false) = false := by
    cases hw : tGet t.shards x.P0 with
    | none => rfl
    | some w => simpa using hblocks w hw
  have hcount : (decide (rdLe x.payload 8 4 < 1) || decide (rdLe x.payload 8 4 > 4096)) = false := by simp; omega
  change execVEC_INSERT x s = _
  apply runVec_done hup
  simp only [hstruct, hcount, Nat.not_lt.mpr hwhole, beq_eq_false_iff_ne.mpr hload, beq_eq_false_iff_ne.mpr hhurt, hlists, hsound, hpool,
    hinsert, hquota, Bool.false_eq_true, if_false]
  exact if_neg (Bool.eq_false_iff.mp hfull)

theorem exec_vecDelete {r : State × Nat} (hup : s.vecUp Op.VEC_DELETE x [0xFFFFFFFF, 0, 0, 0, 0, 0] v = true)
    (hstruct : badStruct 0x1403 0x10 x.payload = none) (hn : n = rdLe x.payload 8 4) (hwhole : 0x10 + 8 * n ≤ rdLe x.payload 4 4)
    (hload : v.state ≠ 1) (hhurt : v.state ≠ 3) (hr : r = s.deleteKeys x.P0 (wordsAt x.payload 0x10 n 8)) :
    exec (.VEC_DELETE x) s = .next ((((r.1.rechargeShard x.P0 v.quarters).getD r.1).bumpBy F.VEC_CNT_DELETE_COUNT r.2).finish
      Op.VEC_DELETE x (Answer.mk' (if r.2 = 0 then St.ALREADY_DONE else St.OK) 0 r.2 (n - r.2))) := by
  subst hn hr
  change execVEC_DELETE x s = _
  apply runVec_done hup
  simp only [hstruct, Nat.not_lt.mpr hwhole, beq_eq_false_iff_ne.mpr hload, beq_eq_false_iff_ne.mpr hhurt, beq_iff_eq,
    Bool.false_eq_true, if_false]
end

/-! ### Compaction (R263) -/

/-- One list more is compacted: the state so far, the records removed and the blocks freed. -/
def compactNext (id : Nat) (a : Option (State × Nat × Nat)) (l : Nat) : Option (State × Nat × Nat) :=
  match a with
  | some (s, n, f) => (s.compactList id l).map (fun r => (r.1, n + r.2.1, f + r.2.2))
  | none => none

theorem exec_vecCompact {t : State} {v : Shard} {n f : Nat} {ls : List Nat}
    (hup : s.vecUp Op.VEC_COMPACT x [0xFFFFFFFF, 0xFFFFFFFF, 0, 0, 0, 0] v = true) (hnamed : x.P1 < v.lists ∨ x.P1 = 0xFFFFFFFF)
    (hls : ls = (if x.P1 = 0xFFFFFFFF then v.chains.map (·.1) else [x.P1]).filter (fun l => s.tombs v l != 0))
    (hsome : ls.isEmpty = false) (hfold : ls.foldl (compactNext x.P0) (some (s, 0, 0)) = some (t, n, f)) :
    exec (.VEC_COMPACT x) s = .next (((t.rechargeShard x.P0 v.quarters).getD t).finish Op.VEC_COMPACT x (Answer.ok n f)) := by
  have hlist : (x.P1 != 0xFFFFFFFF && decide (x.P1 ≥ v.lists)) = false := by
    simp only [Bool.and_eq_false_iff, bne_eq_false_iff_eq, decide_eq_false_iff_not]
    omega
  subst hls
  change execVEC_COMPACT x s = _
  apply runVec_done hup
  simp only [hlist, beq_iff_eq, hsome, Bool.false_eq_true, if_false]
  split
  next hnone => cases hnone.symm.trans hfold
  next hdone =>
    cases hdone.symm.trans hfold
    rfl

theorem exec_backgroundCompact {id list : Nat} {v : Shard} {r : State × Nat × Nat} (hheld : tGet s.shards id = some v)
    (hon : s.flag F.VEC_CTRL_COMPACT_EN = true) (hpct : s.fld F.VEC_CFG_COMPACT_PCT ≠ 0)
    (hover : s.fld F.VEC_CFG_COMPACT_PCT * (s.listRecords v list).length < s.tombs v list * 100) (hr : s.compactList id list = some r) :
    exec (.BACKGROUND_COMPACT id list) s = .next ((r.1.rechargeShard id v.quarters).getD r.1) := by
  change execBACKGROUND_COMPACT id list s = _
  simp only [execBACKGROUND_COMPACT, hheld, hon, bne_iff_ne.mpr hpct, gt_iff_lt, hover, hr, decide_true, Bool.and_self, if_true]

/-! ### VEC_SET_CENTROIDS (R256) -/

section
variable {v : Shard} {n : Nat}

/-- The batch goes on where the last ended, or is a first one, of a shard that holds no record or is loaded again after damage (R256). -/
def State.batchDue (s : State) (x : Slip) (v : Shard) : Prop :=
  v.state = 1 ∧ x.P1 = v.loaded ∧ x.P3 = v.lists ∨ v.state ≠ 1 ∧ x.P1 = 0 ∧ (s.shardRecords v = 0 ∨ v.state = 3 ∧ x.P3 = v.lists)

theorem State.batchDue_start (h : s.batchDue x v) : (x.P1 != if v.state != 1 then 0 else v.loaded) = false := by
  obtain ⟨hstate, hat, -⟩ | ⟨hstate, hat, -⟩ := h <;> simp [hstate, hat]

theorem State.batchDue_lists (h : s.batchDue x v) :
    (!(v.state != 1) && x.P3 != v.lists) = false ∧ (v.state == 3 && s.shardRecords v != 0 && x.P3 != v.lists) = false := by
  obtain ⟨hstate, -, hc⟩ | ⟨hstate, -, hempty | ⟨-, hc⟩⟩ := h
  · simp [hc]
  · simp [hstate, hempty]
  · simp [hc]

theorem State.batchDue_unfilled (h : s.batchDue x v) : (v.state != 1 && s.shardRecords v != 0 && v.state != 3) = false := by
  obtain ⟨hstate, -⟩ | ⟨-, -, hempty | ⟨hstate, -⟩⟩ := h
  · simp [hstate]
  · simp [hempty]
  · simp [hstate]

/-- The state a batch writes into: a first one takes its centroids' blocks, giving back those the shard had (R256). -/
def State.centroidRoom (s : State) (x : Slip) (v : Shard) : Option State :=
  if !(v.state != 1) then some s
  else
    match { s with vecBlocks := s.vecBlocks.filter (fun k => !v.centBlocks.contains k.1) }.takeBlocks x.P0
        (centBlocks v.bf16 v.dim x.P3) [] with
    | none => none
    | some (t, l) => some (t.setShard x.P0 { v with state := 1, lists := x.P3, loaded := 0, centBlocks := l })

theorem State.centroidRoom_later (h : v.state = 1) : s.centroidRoom x v = some s := by
  simp [State.centroidRoom, h]

theorem State.centroidRoom_first (h : v.state ≠ 1) {r : State × List Nat}
    (hr : { s with vecBlocks := s.vecBlocks.filter (fun k => !v.centBlocks.contains k.1) }.takeBlocks x.P0
      (centBlocks v.bf16 v.dim x.P3) [] = some r) :
    s.centroidRoom x v = some (r.1.setShard x.P0 { v with state := 1, lists := x.P3, loaded := 0, centBlocks := r.2 }) := by
  simp only [State.centroidRoom, bne_iff_ne.mpr h, hr, Bool.not_true, Bool.false_eq_true, if_false]

/-- A batch of centroids written into their blocks from index `first` on. -/
def State.writeCentroids (s : State) (w : Shard) (first : Nat) (words : List (List Nat)) : State :=
  words.zipIdx.foldl (fun u z => u.centWr w ((first + z.2) * centSize w.bf16 w.dim) (centStore w.bf16 z.1)) s

theorem exec_vecSetCentroids {t u : State} {w : Shard} {words : List (List Nat)}
    (hup : s.vecUp Op.VEC_SET_CENTROIDS x [0xFFFFFFFF, 0xFFFFFFFF, 1, 0xFFFFFFFF, 0, 0] v = true)
    (hstruct : badStruct 0x1406 0x10 x.payload = none) (hn : n = rdLe x.payload 8 4)
    (hwords : words = (List.range n).map (fun i => wordsAt x.payload (0x10 + 2 * v.dim * i) v.dim 2))
    (hwhole : 0x10 + 2 * v.dim * n ≤ rdLe x.payload 4 4) (hfinite : words.any (fun w => w.any (fun z => !bf16Finite z)) = false)
    (hlo : 1 ≤ x.P3) (hhi : x.P3 ≤ 1048576) (hend : x.P1 + n ≤ x.P3) (hdue : s.batchDue x v) (hroom : s.centroidRoom x v = some t)
    (hquota : t.rechargeShard x.P0 v.quarters = some u) (hheld : tGet u.shards x.P0 = some w) :
    exec (.VEC_SET_CENTROIDS x) s = .next (((u.writeCentroids w x.P1 words).setShard x.P0
      { w with loaded := x.P1 + n, state := if x.P2 == 1 && x.P1 + n == w.lists then 2 else 1 }).finish
      Op.VEC_SET_CENTROIDS x (Answer.ok n)) := by
  subst hn hwords
  obtain ⟨hkept, hreloaded⟩ := State.batchDue_lists hdue
  change execVEC_SET_CENTROIDS x s = _
  apply runVec_done hup
  simp only [hstruct, Nat.not_lt.mpr hwhole, hfinite, State.batchDue_start hdue, State.batchDue_unfilled hdue, hkept, hreloaded,
    Nat.not_lt.mpr hlo, Nat.not_lt.mpr hhi, Nat.not_lt.mpr hend, decide_false, Bool.or_self, Bool.false_eq_true, if_false]
  split
  next hnone => cases hnone.symm.trans hroom
  next hsome =>
    obtain rfl := Option.some.inj (hsome.symm.trans hroom)
    simp only [hquota, hheld]
    rfl
end
end

end Sys2Proof.Machine

section
open Sys2Proof Sys2Proof.Machine

/-- Settles O29: each slip, taken up on a shard that can take it, takes the branch its premises open. -/
theorem collectionSlipsComplete : Obligations.CollectionSlipsComplete := by
  unfold Obligations.CollectionSlipsComplete
  refine ⟨?create, ?drop, fun _ _ _ _ _ _ _ _ _ => exec_vecInsert, fun _ _ _ _ _ => exec_vecDelete,
    fun _ _ _ _ _ _ _ => exec_vecCompact, fun _ _ _ _ _ => exec_backgroundCompact, ?centroids⟩
  case create =>
    rintro x s _ _ hup hacc hparam rfl hstruct hnew hroom rfl
    exact exec_vecCreate hup hacc hparam hstruct hnew hroom
  case drop =>
    intro x s v hup hacc hparam hheld hhere hten
    exact ⟨exec_vecDrop hup hacc hparam hheld hhere hten,
      fun hsearched => ⟨_, rfl, exec_vecDrop_searched hup hacc hparam hheld hhere hten hsearched⟩⟩
  case centroids =>
    rintro x s t u v w _ n words hup hstruct hn hwords hwhole hfinite hlo hhi hend hbatch hquota hheld rfl
    have hdue : s.batchDue x v :=
      hbatch.imp (fun ⟨hstate, hat, hc, _⟩ => ⟨hstate, hat, hc⟩) (fun ⟨hstate, hat, hfree, _⟩ => ⟨hstate, hat, hfree⟩)
    have hroom : s.centroidRoom x v = some t := by
      obtain ⟨hstate, -, -, rfl⟩ | ⟨hstate, -, -, r, hr, rfl⟩ := hbatch
      · exact State.centroidRoom_later hstate
      · exact State.centroidRoom_first hstate hr
    exact exec_vecSetCentroids hup hstruct hn hwords hwhole hfinite hlo hhi hend hdue hroom hquota hheld

end

namespace Sys2Proof.Machine

/-! ## Praol packets that an OPEN or DRAINING context hears (R274 to R276, R279, R280) -/

theorem Peer.live {v : Peer} (hlive : v.state = 2 ∨ v.state = 3) : (v.state == 2 || v.state == 3) = true := by
  simpa using hlive

section
variable {p sub : Nat} {s : State} (hlive : (s.peer p).state = 2 ∨ (s.peer p).state = 3)
include hlive

/-- A live context counts a packet, and hears it when it authenticates (R274). -/
theorem State.hear_live (auth : Bool) : s.hear p sub auth =
    if !auth then ((s.bump F.NET_CNT_RX_COUNT).bump F.NET_CNT_AUTH_FAIL_COUNT, false)
    else ((s.bump F.NET_CNT_RX_COUNT).setPeer p { s.peer p with rx := { (s.peer p).rx with heard := s.tick, sub := sub } }, true) := by
  have hopen : ¬ (!((s.peer p).state == 2 || (s.peer p).state == 3)) = true := by
    rw [Peer.live hlive]
    decide
  exact if_neg hopen

theorem State.hear_unauthentic : s.hear p sub false = ((s.bump F.NET_CNT_RX_COUNT).bump F.NET_CNT_AUTH_FAIL_COUNT, false) :=
  State.hear_live hlive false

theorem State.hear_heard : (s.hear p sub true).2 = true :=
  congrArg Prod.snd (State.hear_live hlive true)
end

/-- The lengths of R275. -/
def pktFits (k : Pkt) : Prop := 1 ≤ k.msgLen ∧ k.msgLen ≤ 1048576 ∧ k.offset + k.payload.length ≤ k.msgLen

theorem pktFits.kept {k : Pkt} (hfits : pktFits k) :
    (k.msgLen == 0 || decide (k.msgLen > 1048576) || decide (k.offset + k.payload.length > k.msgLen)) = false := by
  obtain ⟨hsome, hmax, hend⟩ := hfits
  simp
  omega

section
variable {sub p : Nat} {s t : State} (hup : s.linkUp sub = true)
include hup

/-! ### DATA (R275, R276, R279) -/

section
variable {ce : Bool} {k : Pkt} (hdst : k.dst = p) (hlive : (s.peer p).state = 2 ∨ (s.peer p).state = 3)
include hdst hlive

theorem exec_praolData_unauthentic :
    exec (.PRAOL_DATA sub ce false k) s = .next ((s.bump F.NET_CNT_RX_COUNT).bump F.NET_CNT_AUTH_FAIL_COUNT) := by
  subst hdst
  change execPRAOL_DATA sub ce false k s = _
  simp only [execPRAOL_DATA, hup, State.hear_unauthentic hlive, Bool.not_true, Bool.not_false, Bool.false_eq_true, if_false, if_true]

section
variable (ht : t = (s.hear p sub true).1) (hfits : pktFits k)
include ht hfits

theorem exec_praolData_again (hseen : (psnBefore k.psn (t.peer p).rx.expect || (t.peer p).rx.got.contains k.psn) = true) :
    exec (.PRAOL_DATA sub ce true k) s = .next ((if ce then t.noteCe p else t).countData p) := by
  subst hdst ht
  change execPRAOL_DATA sub ce true k s = _
  simp only [execPRAOL_DATA, hup, State.hear_heard hlive, hfits.kept, hseen, Bool.not_true, Bool.false_eq_true, if_false, if_true]

section
variable (hnew : (psnBefore k.psn (t.peer p).rx.expect || (t.peer p).rx.got.contains k.psn) = false)
include hnew

theorem exec_praolData_beyondCredit (hover : (t.peer p).rx.granted < (t.peer p).rx.seen + creditUnits k.payload.length) :
    exec (.PRAOL_DATA sub ce true k) s = .next (t.bump F.NET_CNT_CREDIT_VIOL_COUNT) := by
  subst hdst ht
  change execPRAOL_DATA sub ce true k s = _
  simp only [execPRAOL_DATA, hup, State.hear_heard hlive, hfits.kept, hnew, gt_iff_lt, hover, Bool.not_true, Bool.false_eq_true, if_false,
    if_true]

theorem exec_praolData_placed (hcredit : (t.peer p).rx.seen + creditUnits k.payload.length ≤ (t.peer p).rx.granted) {w u : State}
    (hw : w = if ce then t.noteCe p else t) (hu : u = w.updPeer p (fun v => { v with rx := v.rx.place k, idle := w.tick })) :
    exec (.PRAOL_DATA sub ce true k) s =
      .next ((State.passMessages p ((u.peer p).rx.complete.length) u).countData p) := by
  subst hdst ht hw hu
  change execPRAOL_DATA sub ce true k s = _
  simp only [execPRAOL_DATA, hup, State.hear_heard hlive, hfits.kept, hnew, gt_iff_lt, Nat.not_lt.mpr hcredit, Bool.not_true,
    Bool.false_eq_true, if_false]
end
end
end

/-! ### ACK and CNP (R276, R277, R279, R280) -/

section
variable (hlive : (s.peer p).state = 2 ∨ (s.peer p).state = 3) (ht : t = (s.hear p sub true).1)
include hlive ht

theorem exec_praolAck {cum limit sack : Nat} {v : Peer}
    (hv : v = { t.peer p with tx := (t.peer p).tx.ack cum limit sack (t.fld F.NET_REL_REORDER_THRESH) (t.fld F.NET_REL_RTO_INIT) }) :
    exec (.PRAOL_ACK p sub true cum limit sack) s =
      .next ((((t.peer p).tx.late cum sack (t.fld F.NET_REL_REORDER_THRESH)).foldl (fun s f => s.resend p f) (t.setPeer p v)).pump p) := by
  subst ht hv
  change execPRAOL_ACK p sub true cum limit sack s = _
  simp only [execPRAOL_ACK, hup, State.hear_heard hlive, Bool.not_true, Bool.false_eq_true, if_false]

section
variable {b : State} {x : PeerTx} (hb : b = t.bump F.NET_CNT_CNP_RX_COUNT) (hx : x = (b.peer p).tx)
include hb hx

theorem exec_praolCnp_cuts (hdue : x.lastCut = none ∨ ∃ c, x.lastCut = some c ∧ b.fld F.NET_CC_CC_TIMER * 100 ≤ b.tick - c) :
    exec (.PRAOL_CNP p sub true) s = .next (b.setPeer p { b.peer p with tx := { x with
      ceiling := x.rate, rate := max (b.fld F.NET_CC_RATE_MIN * 256) (x.rate * 3 / 4), lastCut := some b.tick,
      step := b.fld F.NET_CC_STEP_MIN * 256, cnpSeen := true } }) := by
  subst ht hb hx
  change execPRAOL_CNP p sub true s = _
  simp only [execPRAOL_CNP, hup, State.hear_heard hlive, Bool.not_true, Bool.false_eq_true, if_false]
  obtain hnever | ⟨c, hlast, hpast⟩ := hdue
  · simp only [hnever, if_true]
  · simp only [hlast, ge_iff_le, hpast, decide_true, if_true]

theorem exec_praolCnp_soon {c : Nat} (hlast : x.lastCut = some c) (hsoon : b.tick - c < b.fld F.NET_CC_CC_TIMER * 100) :
    exec (.PRAOL_CNP p sub true) s = .next (b.setPeer p { b.peer p with tx := { x with
      step := b.fld F.NET_CC_STEP_MIN * 256, cnpSeen := true } }) := by
  subst ht hb hx
  change execPRAOL_CNP p sub true s = _
  simp only [execPRAOL_CNP, hup, State.hear_heard hlive, hlast, ge_iff_le, Nat.not_le.mpr hsoon, decide_false, Bool.not_true,
    Bool.false_eq_true, if_false]
end
end
end

/-! ## Timers of an OPEN or DRAINING context (R276, R277, R280) -/

section
variable {p : Nat} {s : State} {x : PeerTx} (hlive : (s.peer p).state = 2 ∨ (s.peer p).state = 3) (hx : x = (s.peer p).tx)
include hlive hx

theorem exec_ccPeriod_congested (hseen : x.cnpSeen = true) :
    exec (.CC_PERIOD p) s = .next (s.setPeer p { s.peer p with tx := { x with cnpSeen := false } }) := by
  subst hx
  change execCC_PERIOD p s = _
  simp only [execCC_PERIOD, Peer.live hlive, hseen, Bool.not_true, Bool.false_eq_true, if_false, if_true]

section
variable (hquiet : x.cnpSeen = false)
include hquiet

theorem exec_ccPeriod_climbs (hlow : x.rate < x.ceiling) :
    exec (.CC_PERIOD p) s = .next (s.setPeer p { s.peer p with tx := { x with
      rate := min x.ceiling (x.rate + (x.ceiling - x.rate) / 2 + s.fld F.NET_CC_STEP_MIN * 256) } }) := by
  subst hx
  change execCC_PERIOD p s = _
  simp only [execCC_PERIOD, Peer.live hlive, hquiet, hlow, Bool.not_true, Bool.false_eq_true, if_false, if_true]

theorem exec_ccPeriod_probes (hfull : x.ceiling ≤ x.rate) :
    exec (.CC_PERIOD p) s = .next (s.setPeer p { s.peer p with tx := { x with
      rate := min s.lineRate (x.rate + x.step), ceiling := min s.lineRate (x.rate + x.step),
      step := min (s.fld F.NET_CC_STEP_MAX * 256) (2 * x.step) } }) := by
  subst hx
  change execCC_PERIOD p s = _
  simp only [execCC_PERIOD, Peer.live hlive, hquiet, Nat.not_lt.mpr hfull, Bool.not_true, Bool.false_eq_true, if_false]
end

omit hx in
theorem exec_ackDelay (howed : (s.peer p).rx.unacked ≠ 0) (hpast : s.fld F.NET_REL_ACK_DELAY * 100 ≤ s.tick - (s.peer p).rx.ackSince) :
    exec (.ACK_DELAY_EXPIRY p) s = .next (s.sendAck p) :=
  if_pos (by simp [hlive, howed, hpast])

section
variable {psn : Nat} {f : Flight} {b : State} (hb : b = s.bump F.NET_CNT_RTO_COUNT)
  (hflight : x.flight.find? (fun f => f.pkt.psn == psn) = some f) (hpast : x.rto * 100 ≤ s.tick - f.sent)
include hb hflight hpast

theorem exec_rto_fails (hmax : b.fld F.NET_REL_RETX_MAX ≤ x.timeouts + 1) : exec (.RTO_EXPIRY p psn) s = .next (b.failPeer p) := by
  subst hb hx
  change execRTO_EXPIRY p psn s = _
  simp only [execRTO_EXPIRY, Peer.live hlive, hflight, Nat.not_lt.mpr hpast, ge_iff_le, hmax, Bool.not_true, Bool.false_eq_true, if_false,
    if_true]

theorem exec_rto_resends (hmore : x.timeouts + 1 < b.fld F.NET_REL_RETX_MAX) {v : Peer} (hv : v = { s.peer p with tx := { x with
      rto := min (b.fld F.NET_REL_RTO_MAX) (max (b.fld F.NET_REL_RTO_MIN) (2 * x.rto)), timeouts := x.timeouts + 1,
      flight := x.flight.map (fun (g : Flight) => if g.pkt.psn == psn then { g with sent := s.tick } else g) } }) :
    exec (.RTO_EXPIRY p psn) s = .next ((b.setPeer p v).resend p f) := by
  subst hb hx hv
  change execRTO_EXPIRY p psn s = _
  simp only [execRTO_EXPIRY, Peer.live hlive, hflight, Nat.not_lt.mpr hpast, ge_iff_le, Nat.not_le.mpr hmore, Bool.not_true,
    Bool.false_eq_true, if_false, State.bump_tick]
end
end

end Sys2Proof.Machine

section
open Sys2Proof Sys2Proof.Machine

/-- Settles O31: each packet that a live context hears, and each of its timers, takes the branch its premises open. -/
theorem dataPacketsComplete : Obligations.DataPacketsComplete := by
  unfold Obligations.DataPacketsComplete
  refine ⟨?data, ?answers, ?timers⟩
  case data =>
    refine fun _ _ _ _ _ _ hup hdst hlive ht => ⟨exec_praolData_unauthentic hup hdst hlive, fun hsome hmax hend => ?_⟩
    have hfits := And.intro hsome (And.intro hmax hend)
    exact ⟨exec_praolData_again hup hdst hlive ht hfits, fun hnew => ⟨exec_praolData_beyondCredit hup hdst hlive ht hfits hnew,
      fun hcredit => ⟨_, _, rfl, rfl, exec_praolData_placed hup hdst hlive ht hfits hnew hcredit rfl rfl⟩⟩⟩
  case answers =>
    exact fun _ _ _ _ hup hlive ht => ⟨fun _ _ _ => ⟨_, rfl, exec_praolAck hup hlive ht rfl⟩,
      fun _ _ hb hx => ⟨fun hdue => ⟨_, rfl, exec_praolCnp_cuts hup hlive ht hb hx hdue⟩,
        fun _ hlast hsoon => ⟨_, rfl, exec_praolCnp_soon hup hlive ht hb hx hlast hsoon⟩⟩⟩
  case timers =>
    exact fun _ _ _ hlive hx => ⟨fun hseen => ⟨_, rfl, exec_ccPeriod_congested hlive hx hseen⟩,
      fun hquiet hlow => ⟨_, rfl, exec_ccPeriod_climbs hlive hx hquiet hlow⟩,
      fun hquiet hfull => ⟨_, rfl, exec_ccPeriod_probes hlive hx hquiet hfull⟩,
      exec_ackDelay hlive,
      fun _ _ _ hb hflight hpast => ⟨exec_rto_fails hlive hx hb hflight hpast,
        fun hmore => ⟨_, rfl, exec_rto_resends hlive hx hb hflight hpast hmore rfl⟩⟩⟩

end

namespace Sys2Proof.Machine

/-! ## DISCOVER (R283) -/

/-- Is this device a registrar, as the first entry of its ID in the device table says? -/
def State.firstEntryRegistrar (s : State) : Bool :=
  match tGet s.cat.devices s.devId with
  | some d => s.member && d.registrar
  | none => false

/-- The sixteen bytes of R283, of a device that says it is a registrar or not. -/
def State.discoverBody (s : State) (reg : Bool) : Bytes :=
  leBytes 4 (s.devId + (if s.flag F.DEV_DEVID_VALID then 2 ^ 31 else 0)) ++ leBytes 4 ((s.profile.map (·.id)).getD 0)
    ++ leBytes 4 s.epoch ++ leBytes 1 (b2n reg + 2 * b2n s.cat.leaving) ++ [0, 0, 0]

/-- The state that has counted a DISCOVER and queued an answer with this body. -/
def State.discoverAnswer (s : State) (sub : Nat) (body : Bytes) : State :=
  ((s.bump F.NET_CNT_RX_COUNT).sendFrame sub (14 + 40 + 8 + 40 + 16 + 4) body).bump F.NET_CNT_TX_COUNT

theorem exec_praolDiscover {sub : Nat} {s : State} (hup : s.linkUp sub = true) :
    exec (.PRAOL_DISCOVER sub) s = .next (s.discoverAnswer sub (s.discoverBody s.firstEntryRegistrar)) := by
  have hid : (s.bump F.NET_CNT_RX_COUNT).devId = s.devId := State.setFld_fld_of_ne (by decide) ..
  have hepoch : (s.bump F.NET_CNT_RX_COUNT).epoch = s.epoch := State.setFld_fld_of_ne (by decide) ..
  have hvalid : (s.bump F.NET_CNT_RX_COUNT).flag F.DEV_DEVID_VALID = s.flag F.DEV_DEVID_VALID :=
    congrArg (· == 1) (State.setFld_fld_of_ne (by decide) ..)
  have hprof : (match s.profile with | some p => p.id | none => 0) = (s.profile.map (·.id)).getD 0 := by cases s.profile <;> rfl
  change execPRAOL_DISCOVER sub s = _
  simp only [execPRAOL_DISCOVER, hup, hid, hepoch, hvalid, State.bump_cat, State.bump_profile, Bool.not_true, Bool.false_eq_true, if_false]
  rw [State.discoverBody, ← hprof]
  rfl

theorem State.discoverAnswer_body (s : State) (sub : Nat) (body : Bytes) :
    ((s.discoverAnswer sub body).port (sub / 4)).queue.getLast?.map (·.body) = some body := by
  have hport : ((s.discoverAnswer sub body).port (sub / 4)) =
      (((s.bump F.NET_CNT_RX_COUNT).sendFrame sub (14 + 40 + 8 + 40 + 16 + 4) body).port (sub / 4)) := rfl
  rw [hport, State.sendFrame, State.queueFrame, State.setPort_port_self, List.getLast?_concat]
  rfl

theorem State.discoverAnswer_inj {s : State} {sub : Nat} {b c : Bytes} (h : s.discoverAnswer sub b = s.discoverAnswer sub c) : b = c := by
  have hbody := s.discoverAnswer_body sub b
  rw [h, State.discoverAnswer_body] at hbody
  exact (Option.some.inj hbody).symm

/-- The byte that says whether the device is a registrar and whether it leaves tells the first. -/
theorem stateByte_inj {a b leaving : Bool} (h : leBytes 1 (b2n a + 2 * b2n leaving) = leBytes 1 (b2n b + 2 * b2n leaving)) : a = b := by
  revert a b leaving
  decide

theorem State.discoverBody_inj {s : State} {a b : Bool} (h : s.discoverBody a = s.discoverBody b) : a = b :=
  stateByte_inj (List.append_cancel_left (List.append_cancel_right h))

/-- The answer says what the first entry of the device's ID does. -/
theorem exec_praolDiscover_iff {sub : Nat} {s : State} {reg : Bool} (hup : s.linkUp sub = true) :
    exec (.PRAOL_DISCOVER sub) s = .next (s.discoverAnswer sub (s.discoverBody reg)) ↔ s.firstEntryRegistrar = reg := by
  rw [exec_praolDiscover hup]
  refine ⟨fun h => ?_, fun h => by rw [h]⟩
  exact State.discoverBody_inj (State.discoverAnswer_inj (Host.Outcome.next.inj h))

theorem tGet_of_mem {α : Type} {l : Tbl α} {k : Nat} {v : α} (hkeys : (l.map (·.1)).Nodup) (hmem : (k, v) ∈ l) : tGet l k = some v := by
  induction l with
  | nil => cases hmem
  | cons p l ih =>
    obtain ⟨hfirst, hrest⟩ := List.nodup_cons.mp hkeys
    rcases List.mem_cons.mp hmem with rfl | hlater
    · exact if_pos (beq_self_eq_true k)
    · have hne : p.1 ≠ k := fun h => hfirst (List.mem_map.mpr ⟨_, hlater, h.symm⟩)
      exact (if_neg (by simpa using hne)).trans (ih hrest hlater)

/-- With no device ID listed twice the first entry is the only one. -/
theorem State.firstEntryRegistrar_of_nodup {s : State} (hkeys : (s.cat.devices.map (·.1)).Nodup) :
    s.firstEntryRegistrar = s.registrar := by
  have hregs : s.cat.registrars.contains s.devId = true ↔ ∃ d, tGet s.cat.devices s.devId = some d ∧ d.registrar = true := by
    simp only [Cat.registrars, List.contains_iff_mem, List.mem_map, List.mem_filter]
    constructor
    · rintro ⟨⟨k, d⟩, ⟨hmem, hreg⟩, rfl⟩
      exact ⟨d, tGet_of_mem hkeys hmem, hreg⟩
    · rintro ⟨d, hget, hreg⟩
      exact ⟨(s.devId, d), ⟨mem_of_tGet hget, hreg⟩, rfl⟩
  rw [State.registrar, Bool.eq_iff_iff, Bool.and_eq_true, hregs, State.firstEntryRegistrar]
  cases tGet s.cat.devices s.devId <;> simp

/-- With no device ID listed twice DISCOVER is answered as R283 has it. -/
theorem exec_praolDiscover_of_nodup {sub : Nat} {s : State} (hup : s.linkUp sub = true) (hkeys : (s.cat.devices.map (·.1)).Nodup) :
    exec (.PRAOL_DISCOVER sub) s = .next (s.discoverAnswer sub (s.discoverBody s.registrar)) :=
  (exec_praolDiscover_iff hup).mpr (State.firstEntryRegistrar_of_nodup hkeys)

/-- A member whose device table lists its ID twice, which no map read or change list applied makes: the first entry says that it is no
registrar, the second that it is one. -/
def twiceListedRegistrar : State :=
  { State.reset.setFld F.DEV_DEVID_VALID 1 with
    ports := [(0, { Port.fresh with up := [true, false, false, false] })]
    cat := { Cat.empty with devices := [(State.reset.devId, CatDev.blank), (State.reset.devId, { CatDev.blank with registrar := true })] } }

theorem twiceListedRegistrar_disagrees : twiceListedRegistrar.firstEntryRegistrar ≠ twiceListedRegistrar.registrar := by decide

end Sys2Proof.Machine

section
open Sys2Proof Sys2Proof.Machine

/-- Refutes O32: the clause on DISCOVER has no premise that the device table lists an ID once, and without one the answer and
`State.registrar` may go by different entries; with that premise the clause holds (`exec_praolDiscover_of_nodup`). -/
theorem not_peerContextsComplete : ¬ Obligations.PeerContextsComplete := by
  unfold Obligations.PeerContextsComplete
  rintro ⟨-, -, -, -, -, -, -, hdiscover⟩
  have hup : twiceListedRegistrar.linkUp 0 = true := by decide
  obtain ⟨⟨_, _, rfl, -, rfl, hexec⟩, -⟩ := hdiscover 0 twiceListedRegistrar hup
  exact twiceListedRegistrar_disagrees ((exec_praolDiscover_iff hup).mp hexec)

end

namespace Sys2Proof.Machine

/-! ## Catalogue slips that are taken up (R284, R286 to R288, R290, R292, R293, R295, R296, R299) -/

section
variable {op : Nat} {x : Slip} {masks : List Nat} {s t : State} {f : State → SlipRes}

/-- A catalogue slip whose effect is done is answered at once. -/
theorem runCat_done {a : Answer} (hup : s.catUp op x masks = true) (hdone : f s = .done t a) :
    runCat op x masks s f = .next (t.finish op x a) := by
  rw [runCat_up hup, hdone, SlipRes.close_done]

/-- A catalogue slip whose effect leaves it waiting is answered by a later event. -/
theorem runCat_wait (hup : s.catUp op x masks = true) (hwait : f s = .wait t) :
    runCat op x masks s f = .next ((SlipRes.wait t).close op x) := by
  rw [runCat_up hup, hwait]
end

section
variable {x : Slip} {s : State}

/-! ### The map (R288, R293, R299) -/

theorem exec_catLookup_held {i : Nat} {e : Sess} {t : State}
    (hup : s.catUp Op.CAT_LOOKUP x [0, 0, 0, 0, 0xFFFFFFFF, 0xFFFFFFFF] = true) (ht : t = s.bump F.CAT_CNT_LOOKUP_COUNT)
    (hacc : x.acc ≠ 0) (hfind : t.findSess x.acc = some (i, e)) (hlive : e.state ≠ Ss.FREE) :
    exec (.CAT_LOOKUP x) s = .next (t.finish Op.CAT_LOOKUP x (t.lookupAnswer x t.devId (originOf x.acc != t.devId))) := by
  subst ht
  refine runCat_done hup ?_
  simp only [beq_eq_false_iff_ne.mpr hacc, hfind, beq_eq_false_iff_ne.mpr hlive, Bool.false_eq_true, if_false]

theorem exec_catMapFetch_part (hup : s.catUp Op.CAT_MAP_FETCH x [0xFFFFFFFF, 15, 0, 0, 0xFFFFFFFF, 0xFFFFFFFF] = true)
    (hwhole : x.P0 = 0) : exec (.CAT_MAP_FETCH x) s =
      .next (s.finish Op.CAT_MAP_FETCH x (Answer.ok s.epoch 0 (slice s.cat.image (65536 * x.P1) 65536))) :=
  runCat_done hup (if_pos (beq_iff_eq.mpr hwhole))

/-! ### Votes (R286, R287) -/

/-- A ballot for the next epoch that is not below the promise is not rejected. -/
theorem State.ballot_stands (hnext : x.P0 = s.epoch + 1) (hballot : s.cat.promised ≤ ballotOf x) :
    ¬ (x.P0 != s.epoch + 1 || decide (s.cat.promised > ballotOf x)) = true := by
  simp [hnext, hballot]

section
variable (hup : s.catUp Op.CAT_PROPOSE x [0xFFFFFFFF, 1, 0xFFFFFFFF, 0xFFFFFFFF, 0, 0] = true) (hreg : s.registrar = true)
  (hvotes : s.cat.abstaining = false) (hnext : x.P0 = s.epoch + 1) (hballot : s.cat.promised ≤ ballotOf x)
include hup hreg hvotes hnext hballot

theorem exec_catPropose_claim : exec (.CAT_PROPOSE_CLAIM x) s =
    .next (((s.updCat (fun c => { c with promised := ballotOf x })).vote (ballotOf x % 2 ^ 20) x.P0 0 (ballotOf x)
      s.cat.acceptedBallot s.cat.acceptedList).finish Op.CAT_PROPOSE x (Answer.ok 0)) := by
  refine runCat_done hup ?_
  simp only [hreg, hvotes, Bool.not_true, Bool.false_eq_true, if_false]
  exact if_neg (State.ballot_stands hnext hballot)

theorem exec_catPropose_accept (hlist : badChanges Op.CAT_PROPOSE x.payload = none) : exec (.CAT_PROPOSE_ACCEPT x) s =
    .next (((s.updCat (fun c => { c with
      promised := ballotOf x, acceptedBallot := ballotOf x, acceptedList := (readChanges x.payload).2 })).vote
        (ballotOf x % 2 ^ 20) x.P0 2 (ballotOf x) 0 []).finish Op.CAT_PROPOSE x (Answer.ok 0)) := by
  refine runCat_done hup ?_
  simp only [hreg, hlist, hvotes, Bool.not_true, Bool.false_eq_true, if_false]
  exact if_neg (State.ballot_stands hnext hballot)
end

theorem exec_catVote_plain {p : Nat}
    (hup : s.catUp Op.CAT_VOTE x [0xFFFFFFFF, 3, 0xFFFFFFFF, 0xFFFFFFFF, 0xFFFFFFFF, 0xFFFFFFFF] = true) (hsrc : x.src = .peer p)
    (hlow : x.P4 = 0) (hhigh : x.P5 = 0) : exec (.CAT_VOTE x) s =
      .next ((s.receiveVote (s.peer p).dev x.P0 x.P1 (ballotOf x) 0 []).finish Op.CAT_VOTE x (Answer.ok 0)) := by
  refine runCat_done hup ?_
  simp only [hsrc, hlow, hhigh, Nat.zero_mul, Nat.add_zero, beq_self_eq_true, if_true]

/-! ### Commits (R288) -/

section
variable (hup : s.catUp Op.CAT_COMMIT x [0xFFFFFFFF, 0, 0xFFFFFFFF, 0xFFFFFFFF, 0, 0] = true)
  (hlist : badChanges Op.CAT_COMMIT x.payload = none) (hmember : s.member = true)
include hup hlist hmember

theorem exec_catCommit_next {t : State} {l : Nat × List Change} (hnext : x.P0 = s.epoch + 1) (hl : l = readChanges x.payload)
    (happly : s.applyCommit l.1 l.2 = some t) : exec (.CAT_COMMIT x) s =
      .next ((t.relay s.cat.members (ballotOf x) x.P0 l.1 l.2).finish Op.CAT_COMMIT x (Answer.ok t.epoch)) := by
  subst hl
  have hahead : ¬ x.P0 ≤ s.epoch := by omega
  have hnear : ¬ x.P0 > s.epoch + 1 := by omega
  refine runCat_done hup ?_
  simp only [hlist, hmember, hahead, hnear, happly, Bool.not_true, Bool.false_eq_true, if_false]

theorem exec_catCommit_applied (hold : x.P0 ≤ s.epoch) :
    exec (.CAT_COMMIT x) s = .next (s.finish Op.CAT_COMMIT x (Answer.mk' St.ALREADY_DONE 0 s.epoch)) := by
  refine runCat_done hup ?_
  simp only [hlist, hmember, hold, Bool.not_true, Bool.false_eq_true, if_false, if_true]
end

/-! ### Joining (R290, R299) -/

section
variable {id : Nat} (hup : s.catUp Op.CAT_JOIN x [1, 0xFFFFFFFF, 0, 0, 0, 0] = true) (hany : x.P1 = 0xFFFFFFFF)
include hup hany

/-- Found from a host pair, the management port or within: `hsrc` rules out the branch of a peer. -/
theorem exec_catJoin_found (hsrc : ∀ q, x.src ≠ .peer q) (hout : s.member = false) (hidle : s.cat.joining = 0)
    (hfound : bitOf x.P0 0 = true) (hid : Cat.empty.joinId none = some id) :
    exec (.CAT_JOIN x) s = .next ((s.found id).finish Op.CAT_JOIN x (Answer.ok id)) := by
  refine runCat_done hup ?_
  simp only [hany, hout, hidle, hfound, hid, bne_self_eq_false, Bool.false_and, Bool.or_self, Bool.false_eq_true, if_false,
    beq_self_eq_true, if_true, Option.getD_some]

theorem exec_catJoin_proposed {p : Nat} {k : CatClient} (hsrc : x.src = .peer p) (hreg : s.registrar = true)
    (hlong : 20 ≤ x.payload.length) (hprof : rdLe x.payload 16 4 = (s.profile.map (·.id)).getD 0)
    (hid : s.cat.joinId none = some id)
    (hk : k = { kind := 1, dev := 0, address := slice x.payload 0 16, op := Op.CAT_JOIN, slip := x }) :
    exec (.CAT_JOIN x) s = .next ((SlipRes.wait ((s.updCat (fun c => { c with clients := c.clients ++ [k] })).wish
      (.join none (slice x.payload 0 16) (rdLe x.payload 16 4)))).close Op.CAT_JOIN x) := by
  subst hk
  refine runCat_wait hup ?_
  simp only [hany, hsrc, hreg, hid, Nat.not_lt.mpr hlong, bne_self_eq_false, Bool.false_and, Bool.not_true, beq_self_eq_true,
    Bool.false_eq_true, if_false, if_true]
  exact if_neg (by rw [hprof]; cases s.profile <;> simp)
end

/-! ### Leaving (R296) -/

theorem State.registrar_member (hreg : s.registrar = true) : s.member = true := (Bool.and_eq_true_iff.mp hreg).1

/-- The slip that waits for what a CAT_LEAVE asks. -/
def leaveClient (x : Slip) (kind dev : Nat) : CatClient := { kind := kind, dev := dev, address := [], op := Op.CAT_LEAVE, slip := x }

/-- A registrar proposes the change itself, whoever asks for it. -/
theorem State.leaveFor_registrar (hreg : s.registrar = true) (kind phase suspect dev : Nat) (w : Wish) :
    s.leaveFor x kind phase suspect dev w =
      .wait ((s.updCat (fun c => { c with clients := c.clients ++ [leaveClient x kind dev] })).wish w) := by
  unfold State.leaveFor
  simp only [hreg, Bool.not_true, Bool.and_false, Bool.false_eq_true, if_false]
  exact congrArg SlipRes.wait (if_pos hreg)

section
variable {d : Nat} (hup : s.catUp Op.CAT_LEAVE x [3, 0xFFFFF, 0, 0, 0, 0] = true) (hreg : s.registrar = true)
include hup hreg

theorem exec_catLeave_active (hphase : bitsOf x.P0 1 0 ≠ 3) (hd : d = s.leaver x) (hstate : s.devState d = 1) :
    exec (.CAT_LEAVE x) s = .next ((SlipRes.wait ((s.updCat (fun c => { c with
      clients := c.clients ++ [leaveClient x 2 d] })).wish (.leaving d))).close Op.CAT_LEAVE x) := by
  subst hd
  refine runCat_wait hup ?_
  simp [hphase, State.registrar_member hreg, hstate, State.leaveFor_registrar hreg]

theorem exec_catLeaveFinal_other (hd : d = s.leaver x) (hother : d ≠ s.devId) (hstate : s.devState d = 2) :
    exec (.CAT_LEAVE_FINAL x) s = .next ((SlipRes.wait ((s.updCat (fun c => { c with
      clients := c.clients ++ [leaveClient x 3 d] })).wish (.remove d))).close Op.CAT_LEAVE x) := by
  subst hd
  refine runCat_wait hup ?_
  simp [hother, State.registrar_member hreg, hstate, State.leaveFor_registrar hreg]

theorem exec_catLeaveSuspect_active {t : State} (hd : d = bitsOf x.P1 19 0) (hother : d ≠ s.devId) (hstate : s.devState d = 1)
    (ht : t = s.updCat (fun c => { c with
      clients := c.clients ++ [leaveClient x 3 d]
      suspects := if c.suspects.any (fun z => z.1 == d) then c.suspects else c.suspects ++ [(d, s.tick)] })) :
    exec (.CAT_LEAVE_SUSPECT x) s =
      .next ((SlipRes.wait (match t.reach d with | some (p, u) => u.probeAll p | none => t)).close Op.CAT_LEAVE x) := by
  subst hd ht
  refine runCat_wait hup ?_
  simp only [State.registrar_member hreg, hstate, beq_eq_false_iff_ne.mpr hother, hreg, Bool.not_true, beq_self_eq_true, Bool.true_or,
    Bool.or_self, Bool.false_eq_true, if_false, if_true] <;> rfl
end

/-! ### Location records (R292, R293, R295) -/

/-- Records taken over: those that no record already held of the session is as new as, in place of the older ones (R295). -/
def freshRecords (held came : List LocRec) : List LocRec :=
  came.filter (fun r => !held.any (fun q => q.accession == r.accession && q.epoch ≥ r.epoch))

/-- The records held after a transfer. -/
def takeRecords (held came : List LocRec) : List LocRec :=
  held.filter (fun q => !(freshRecords held came).any (fun r => r.accession == q.accession)) ++ freshRecords held came

section
variable {held came : List LocRec} {q r : LocRec}

theorem freshRecords_newer (hr : r ∈ freshRecords held came) (hq : q ∈ held) (hsame : q.accession = r.accession) : q.epoch < r.epoch := by
  have hnone := (List.mem_filter.mp hr).2
  simp only [Bool.not_eq_true', List.any_eq_false, Bool.and_eq_true, beq_iff_eq, decide_eq_true_eq, not_and] at hnone
  exact Nat.not_le.mp (hnone q hq hsame)

theorem held_newer_of_not_fresh (hr : r ∈ came) (hfresh : r ∉ freshRecords held came) :
    ∃ q ∈ held, q.accession = r.accession ∧ r.epoch ≤ q.epoch := by
  simpa [freshRecords, hr] using hfresh

/-- After a transfer each record that came is held, or one of its session that is as new. -/
theorem takeRecords_covers (hr : r ∈ came) : ∃ q ∈ takeRecords held came, q.accession = r.accession ∧ r.epoch ≤ q.epoch := by
  by_cases hfresh : r ∈ freshRecords held came
  · exact ⟨r, List.mem_append_right _ hfresh, rfl, Nat.le_refl _⟩
  obtain ⟨q, hq, hsame, hnew⟩ := held_newer_of_not_fresh hr hfresh
  by_cases hover : ∃ w ∈ freshRecords held came, w.accession = q.accession
  · obtain ⟨w, hw, hwq⟩ := hover
    have hless := freshRecords_newer hw hq hwq.symm
    exact ⟨w, List.mem_append_right _ hw, hwq.trans hsame, by omega⟩
  · refine ⟨q, List.mem_append_left _ (List.mem_filter.mpr ⟨hq, ?_⟩), hsame, hnew⟩
    simpa using hover
end

section
variable (hup : s.catUp Op.CAT_LOCATE x [3, 0xFFFFF, 0xFFFFFFFF, 0, 0, 0] = true)
include hup

section
variable (hhere : s.bucketWait x.acc = none)
include hhere

theorem exec_catLocate_query : exec (.CAT_LOCATE_QUERY x) s =
    .next ((s.bump F.CAT_CNT_LOCATE_COUNT).finish Op.CAT_LOCATE x (Answer.ok (s.locateResult x.acc))) := by
  refine runCat_done hup ?_
  simp only [hhere]

theorem exec_catLocate_register (hroom : s.locRoom [x.acc] = true) : exec (.CAT_LOCATE_REGISTER x) s =
    .next ((((s.bump F.CAT_CNT_LOCATE_COUNT).registerAt s.devId x.acc (bitsOf x.P1 19 0)).passRecord x.acc).finish Op.CAT_LOCATE x
      (Answer.ok (bitsOf x.P1 19 0 + 2 ^ 20))) := by
  refine runCat_done hup ?_
  simp only [hhere, hroom, Option.isSome_none, Bool.not_true, Bool.false_eq_true, if_false]

theorem exec_catLocate_remove : exec (.CAT_LOCATE_REMOVE x) s =
    .next (((s.bump F.CAT_CNT_LOCATE_COUNT).updCat (fun c =>
      { c with loc := c.loc.filter (fun l => l.accession != x.acc) })).finish Op.CAT_LOCATE x (Answer.ok (s.locateResult x.acc))) := by
  refine runCat_done hup ?_
  simp only [hhere, Option.isSome_none, Bool.false_eq_true, if_false]
end

theorem exec_catLocate_transfer (hsound : (readRecords x.payload).any LocRec.bad = false)
    (hroom : s.locRoom ((readRecords x.payload).map (fun r => r.accession)) = true) :
    ∃ t : State, exec (.CAT_LOCATE_TRANSFER x) s = .next (t.finish Op.CAT_LOCATE x (Answer.ok 0)) ∧
      t.cat.loc = takeRecords s.cat.loc (readRecords x.payload) := by
  change ∃ t : State, execCAT_LOCATE_TRANSFER x s = _ ∧ _
  simp only [execCAT_LOCATE_TRANSFER, w32, runCat_up hup, hsound, hroom, Bool.not_true, Bool.false_eq_true, if_false, SlipRes.close_done]
  exact ⟨_, rfl, rfl⟩
end
end

end Sys2Proof.Machine

section
open Sys2Proof Sys2Proof.Machine

/-- Settles O34: each slip, taken up at the device's own epoch, takes the branch its premises open. -/
theorem catalogueSlipsComplete : Obligations.CatalogueSlipsComplete := by
  unfold Obligations.CatalogueSlipsComplete
  refine ⟨fun _ _ _ _ _ => exec_catLookup_held, fun _ _ => exec_catMapFetch_part, ?propose, fun _ _ _ => exec_catVote_plain, ?commit,
    ?join, ?leave, ?locate⟩
  case propose =>
    exact fun _ _ hup hreg hvotes hnext hballot =>
      ⟨exec_catPropose_claim hup hreg hvotes hnext hballot, exec_catPropose_accept hup hreg hvotes hnext hballot⟩
  case commit =>
    exact fun _ _ _ _ hup hlist hmember => ⟨exec_catCommit_next hup hlist hmember, exec_catCommit_applied hup hlist hmember⟩
  case join =>
    exact fun _ _ _ hup => ⟨fun hsrc hout hidle hfound hany => exec_catJoin_found hup hany hsrc hout hidle hfound,
      fun _ _ hsrc hreg hlong hprof hany => exec_catJoin_proposed hup hany hsrc hreg hlong hprof⟩
  case leave =>
    refine fun _ _ _ hup hreg => ⟨?_, ?_, ?_⟩
    · rintro k hphase hd hstate rfl
      exact exec_catLeave_active hup hreg hphase hd hstate
    · rintro k hd hother hstate rfl
      exact exec_catLeaveFinal_other hup hreg hd hother hstate
    · rintro k t hd hother hstate rfl ht
      exact exec_catLeaveSuspect_active hup hreg hd hother hstate ht
  case locate =>
    intro x s hup hhere
    refine ⟨exec_catLocate_query hup hhere, exec_catLocate_register hup hhere, exec_catLocate_remove hup hhere, fun hsound hroom => ?_⟩
    obtain ⟨t, hexec, hloc⟩ := exec_catLocate_transfer hup hsound hroom
    exact ⟨t, hexec, fun r hr => hloc ▸ takeRecords_covers hr⟩

end

namespace Sys2Proof.Machine

/-! ## What every command keeps, read off `exec_keeps` (R309, R397, R405; log entry 1) -/

section
variable {i : Instr} {s t : State} (hexec : exec i s = .next t)
include hexec

theorem keeps_of_exec : Keeps s t := by
  have hkeeps : OutKeeps s (exec i s) := exec_keeps i (Keeps.refl s)
  rwa [hexec] at hkeeps

theorem exec_pending : t.pending = s.pending := (keeps_of_exec hexec).parts.pend

theorem exec_fuseBit {a : Nat} (hblown : s.fuseBit a = true) : t.fuseBit a = true := (keeps_of_exec hexec).parts.fuse a hblown

theorem exec_genFloor_le (hs : s.wf = true) : s.genFloor ≤ t.genFloor := (keeps_of_exec hexec).parts.floor hs

theorem exec_genFloor_lt (hs : s.wf = true) : t.genFloor < 2 ^ 32 := by
  obtain ⟨-, -, -, -, hfloor⟩ := (keeps_of_exec hexec).parts.canon hs
  exact hfloor
end

end Sys2Proof.Machine

section
open Sys2Proof Sys2Proof.Machine

/-- Settles O55: both halves are what every command keeps of a canonical state (`exec_keeps`). -/
theorem genFloorNeverFalls : Obligations.GenFloorNeverFalls := by
  unfold Obligations.GenFloorNeverFalls
  exact fun _ _ _ hs hexec => ⟨exec_genFloor_le hexec hs, exec_genFloor_lt hexec hs⟩

/-- Settles O54: blown fuse bits are among what every command keeps (`exec_keeps`). -/
theorem fusesNeverRevert : Obligations.FusesNeverRevert := by
  unfold Obligations.FusesNeverRevert
  exact fun _ _ _ _ hexec => exec_fuseBit hexec

/-- Settles O53: the queue is among what every command keeps (`exec_keeps`). -/
theorem commandsLeaveTheQueue : Obligations.CommandsLeaveTheQueue := by
  unfold Obligations.CommandsLeaveTheQueue
  exact fun _ _ _ => exec_pending

/-- Settles O1: `step` looks at the queue first. -/
theorem stepRunsTheFrontCommand : Obligations.StepRunsTheFrontCommand := by
  unfold Obligations.StepRunsTheFrontCommand
  intro c rest s
  simp only [step]

end

namespace Sys2Proof.Machine

/-! ## Slips taken up, by what their effect answers (R43, R63) -/

section
variable {op : Nat} {x : Slip} {s t : State} {f : State → SlipRes}

/-- A slip whose effect is done is answered at once. -/
theorem runSlip_done {a : Answer} (hup : s.takenUp op x = true) (hdone : f s = .done t a) : runSlip op x s f = .next (t.finish op x a) := by
  rw [runSlip_takenUp hup, hdone, SlipRes.close_done]

/-- Whatever the effect answers closes the slip. -/
theorem runSlip_closes {r : SlipRes} (hup : s.takenUp op x = true) (hres : f s = r) : runSlip op x s f = .next (r.close op x) := by
  rw [runSlip_takenUp hup, hres]
end

/-! ## Checkpoint slips (R302 to R325, Table 12.9) -/

/-- A copy of which nothing is kept yet holds none of the blocks a PUT brings. -/
theorem MirrorCopy.fresh_holds {m : MirrorCopy} {first n : Nat} (hblocks : m.blocks = []) (hfirst : first ≠ 0) (hn : 1 ≤ n) :
    m.holds first n = false := by
  simp only [MirrorCopy.holds, beq_eq_false_iff_ne.mpr hfirst, Bool.false_eq_true, if_false]
  exact List.all_eq_false.mpr ⟨0, List.mem_range.mpr hn, by simp [hblocks, tGet]⟩

section
variable {x : Slip} {s : State} (hacc : x.acc = 0)
include hacc

theorem acc_bne_zero : (x.acc != 0) = false := by simp [hacc]

theorem exec_ckptTake (hup : s.takenUp Op.CKPT_TAKE x = true) (hparam : badParam x [1, 0, 0, 0, 0, 0] = none)
    (hen : s.flag F.CKPT_CTRL_EN = true) (hphase : s.phase = 0) :
    exec (.CKPT_TAKE x) s = .next ((SlipRes.wait (s.trigger 2)).close Op.CKPT_TAKE x) := by
  refine runSlip_closes hup ?_
  simp only [acc_bne_zero hacc, hparam, hen, hphase, bne_self_eq_false, Bool.not_true, Bool.false_eq_true, if_false]

theorem exec_ckptQuery {newest mir : Nat} (hup : s.takenUp Op.CKPT_QUERY x = true)
    (hparam : badParam x [0, 0, 0, 0, 0xFFFFFFFF, 0xFFFFFFFF] = none)
    (hnewest : newest = if s.flag F.CKPT_LAST_VALID then s.fld F.CKPT_LAST_CKPT_NO else max (s.slotNo 0) (s.slotNo 1))
    (hmir : mir = if s.flag F.CKPT_LAST_VALID && s.flag F.CKPT_LAST_MIRRORED then s.fld F.CKPT_LAST_CKPT_NO
      else (s.ckpt.mirrored.map (·.no)).foldl max 0) :
    exec (.CKPT_QUERY x) s = .next (s.finish Op.CKPT_QUERY x (Answer.ok newest 0 (structure0 0x1C01 (leBytes 4 (s.slotNo 0)
      ++ leBytes 4 (s.slotNo 1) ++ leBytes 4 newest ++ leBytes 4 mir ++ leBytes 1 s.phase ++ leBytes 1 (s.fld F.CKPT_STATUS_PRESS)
      ++ leBytes 2 0 ++ leBytes 4 (s.fld F.CKPT_LAST_BLOCKS) ++ leBytes 8 s.fuseDigest ++ leBytes 4 ((s.profile.map (·.id)).getD 0)
      ++ leBytes 4 0)))) := by
  subst hnewest hmir
  change execCKPT_QUERY x s = _
  refine runSlip_done hup ?_
  simp only [acc_bne_zero hacc, w32, hparam, Bool.false_eq_true, if_false]


section
variable (hup : s.takenUp Op.CKPT_SET_TRIGGERS x = true) (hparam : badParam x [0xFFFFFFFF, 0xFFFFFFFF, 7, 0, 0, 0] = none)
  (htimer : x.P0 ≤ 0xFFFF) (hsteps : stepsOk x.P1 = true)

include htimer in
omit hacc in
theorem timer_given : (x.P0 == 0xFFFFFFFF) = false := beq_eq_false_iff_ne.mpr (by omega)

include hsteps in
omit hacc in
theorem steps_given : (x.P1 == 0xFFFFFFFF) = false := by
  refine beq_eq_false_iff_ne.mpr fun h => ?_
  rw [h] at hsteps
  exact absurd hsteps (by decide)

include hup hparam htimer hsteps

theorem exec_ckptSetTriggers_plain (hauto : bitOf x.P2 1 = false) (hformat : bitOf x.P2 2 = false) :
    exec (.CKPT_SET_TRIGGERS x) s =
      .next ((s.setTriggers (some x.P0) (some x.P1)).finish Op.CKPT_SET_TRIGGERS x (Answer.ok 0)) := by
  change execCKPT_SET_TRIGGERS x s = _
  refine runSlip_done hup ?_
  simp [acc_bne_zero hacc, w32, hparam, timer_given htimer, steps_given hsteps, hauto, hformat, Nat.not_lt.mpr htimer, hsteps]

theorem exec_ckptSetTriggers_format {t : State} (hauto : bitOf x.P2 1 = true) (hformat : bitOf x.P2 2 = true)
    (hcode : s.code x.src ≠ 2) (hphase : s.phase = 0) (ht : t = s.setTriggers (some x.P0) (some x.P1))
    (hfound : t.ckpt.press.found = true) : exec (.CKPT_SET_TRIGGERS x) s =
      .next ((SlipRes.wait ((t.updCkpt (fun c => { c with
        press := { c.press with writes := c.press.writes ++ [((t.fuseDigest, bitOf x.P2 0), x)] } })).emit
          (.nvme .labelWrite 0 0 1))).close Op.CKPT_SET_TRIGGERS x) := by
  subst ht
  change execCKPT_SET_TRIGGERS x s = _
  refine runSlip_closes hup ?_
  simp [acc_bne_zero hacc, w32, hparam, timer_given htimer, steps_given hsteps, hauto, hformat, Nat.not_lt.mpr htimer, hsteps, hcode,
    hphase, hfound]
end

theorem exec_ckptMirrorPut_fresh {body : Bytes} {m v : MirrorCopy} {t : State} (hup : s.takenUp Op.CKPT_MIRROR_PUT x = true)
    (hparam : badParam x [0xFFFFFFFF, 0xFFFFFFFF, 0xFFFFFFFF, 0, 0, 0] = none) (hlo : 1 ≤ x.P2) (hhi : x.P2 ≤ 15) (hfirst : 1 ≤ x.P1)
    (hend : x.P1 + x.P2 ≤ 131072) (hstruct : badStruct 0x1C10 (8 + 65536 * x.P2) x.payload = none)
    (hbody : body = (x.payload.drop 8).take (65536 * x.P2)) (hnone : s.ckpt.mirrors.filter (fun m => m.writer == s.writerOf x) = [])
    (hm : m = { writer := s.writerOf x, no := x.P0, leaf := s.leafOf x, blocks := [], sealRec := none })
    (hroom : s.holdUsed + (((chunks 65536 16 body).map (fun b => bodyQuarters b.length)).foldl (· + ·) 0) ≤ s.fld F.TIER_HOLD_CAP)
    (hkeep : s.keepMirror m x.P1 (chunks 65536 16 body) = some (t, v)) :
    exec (.CKPT_MIRROR_PUT x) s = .next (t.finish Op.CKPT_MIRROR_PUT x (Answer.ok 0 (65536 * x.P2))) := by
  have hnew := MirrorCopy.fresh_holds (m := m) (by rw [hm]) (Nat.one_le_iff_ne_zero.mp hfirst) hlo
  have hblock : (x.P1 == 0) = false := beq_eq_false_iff_ne.mpr (Nat.one_le_iff_ne_zero.mp hfirst)
  have hsome : (x.P2 == 0) = false := beq_eq_false_iff_ne.mpr (Nat.one_le_iff_ne_zero.mp hlo)
  subst hm hbody
  change execCKPT_MIRROR_PUT x s = _
  refine runSlip_done hup ?_
  simp only [acc_bne_zero hacc, w32, hparam, hblock, hsome, Nat.not_lt.mpr hhi, Nat.not_lt.mpr hend, hstruct, hnone, hnew,
    Nat.not_lt.mpr hroom, hkeep, List.find?_nil, Option.getD_none, List.length_nil, List.any_nil, Bool.false_and, Bool.false_eq_true,
    Bool.or_self, decide_false, if_false, ge_iff_le, Nat.reduceLeDiff, Bool.and_false]

theorem exec_ckptMirrorGet_seal {m : MirrorCopy} {r : Nat × Bytes} (hup : s.takenUp Op.CKPT_MIRROR_GET x = true)
    (hparam : badParam x [0xFFFFF, 0xFFFFFFFF, 0xFFFFFFFF, 0xFFFFFFFF, 0xFFFFFFFF, 0xFFFFFFFF] = none) (hseal : x.P2 = 0) (hnamed : x.P1 ≠ 0)
    (hheld : (s.ckpt.mirrors.filter (fun m => m.writer == bitsOf x.P0 19 0)).find? (fun m => m.no == x.P1) = some m)
    (hmay : s.mayReadMirror x (bitsOf x.P0 19 0) m = true) (hr : m.sealRec = some r) :
    exec (.CKPT_MIRROR_GET x) s = .next (s.finish Op.CKPT_MIRROR_GET x (Answer.ok x.P1 0 r.2)) := by
  change execCKPT_MIRROR_GET x s = _
  refine runSlip_done hup ?_
  simp only [acc_bne_zero hacc, w32, hparam, hseal, beq_eq_false_iff_ne.mpr hnamed, hheld, hmay, hr, bne_self_eq_false, Bool.false_and,
    Bool.not_true, beq_self_eq_true, Bool.false_eq_true, if_false, if_true]

theorem exec_ckptRestore {z : Restore} (hup : s.takenUp Op.CKPT_RESTORE x = true) (hparam : badParam x [3, 0xFFFFFFFF, 0, 0, 0, 0] = none)
    (hsource : bitsOf x.P0 1 0 ≠ 3) (hlist : x.payload = [] ∨ badStruct 0x1C02 24 x.payload = none) (hloaded : s.loaded = true)
    (hfree : s.sessions = []) (hout : s.member = false) (hphase : s.phase = 0)
    (hz : z = {
      slip := x, source := bitsOf x.P0 1 0, want := x.P1, stage := 0, since := s.tick, asked := [], cands := [],
      addrs := if bitsOf x.P0 1 0 = 1 then [] else if x.payload = [] then (s.membership.map (·.2)).getD [] else [slice x.payload 8 16],
      verified := false, fits := false, cur := none, blocks := [], former := (s.membership.map (·.1)).getD s.devId, newest := 0 }) :
    exec (.CKPT_RESTORE x) s = .next ((SlipRes.wait (((s.updCkpt (fun c => { c with restore := some z })).setPhase 5).wake
      .restore)).close Op.CKPT_RESTORE x) := by
  have hsound : (!x.payload.isEmpty && (badStruct 0x1C02 24 x.payload).isSome) = false := by
    obtain h | h := hlist <;> simp [h]
  subst hz
  change execCKPT_RESTORE x s = _
  refine runSlip_closes hup ?_
  simp only [acc_bne_zero hacc, w32, hparam, beq_eq_false_iff_ne.mpr hsource, hsound, hloaded, hfree, hout, hphase, List.isEmpty_nil,
    List.isEmpty_iff, Bool.not_true, Bool.or_self, bne_self_eq_false, beq_iff_eq, Bool.false_eq_true, if_false]
  cases s.membership <;> rfl
end

end Sys2Proof.Machine

section
open Sys2Proof Sys2Proof.Machine

/-- Settles O36: each slip, taken up with ACCESSION 0, takes the branch its premises open. -/
theorem checkpointSlipsComplete : Obligations.CheckpointSlipsComplete := by
  unfold Obligations.CheckpointSlipsComplete
  intro x s hacc
  refine ⟨exec_ckptTake hacc, fun _ _ => exec_ckptQuery hacc, ?triggers, fun _ _ _ _ => exec_ckptMirrorPut_fresh hacc,
    fun _ _ => exec_ckptMirrorGet_seal hacc, ?restore⟩
  case triggers =>
    refine fun hup hparam htimer hsteps => ⟨exec_ckptSetTriggers_plain hacc hup hparam htimer hsteps, ?_⟩
    rintro t _ hauto hformat hcode hphase ht hfound rfl
    exact exec_ckptSetTriggers_format hacc hup hparam htimer hsteps hauto hformat hcode hphase ht hfound
  case restore =>
    rintro z _ hup hparam hsource hlist hloaded hfree hout hphase hz rfl
    exact exec_ckptRestore hacc hup hparam hsource hlist hloaded hfree hout hphase hz

end

namespace Sys2Proof.Machine

/-! ## Checkpoint events: triggers and barriers (R305 to R307) -/

section
variable {s : State}

theorem exec_ckptTimerExpiry_due (h : s.timerDue = true) : exec .CKPT_TIMER_EXPIRY s = .next (s.trigger 0) :=
  congrArg Host.Outcome.next (if_pos h)

theorem exec_ckptTimerExpiry_early (h : s.timerDue = false) : exec .CKPT_TIMER_EXPIRY s = .next s :=
  congrArg Host.Outcome.next (if_neg (Bool.eq_false_iff.mp h))

theorem exec_ckptStepCount_due (h : s.stepsDue = true) : exec .CKPT_STEP_COUNT s = .next (s.trigger 1) :=
  congrArg Host.Outcome.next (if_pos h)

theorem exec_ckptStepCount_early (h : s.stepsDue = false) : exec .CKPT_STEP_COUNT s = .next s :=
  congrArg Host.Outcome.next (if_neg (Bool.eq_false_iff.mp h))

theorem exec_seqLimitNear (hplain : s.registrar = false) (hnear : s.fld F.CKPT_SEQ_SEQ_LIMIT ≤ s.fld F.SESS_SEQ_NEXT + 2 ^ 16) :
    exec .SEQ_LIMIT_NEAR s = .next (s.trigger 3) := by
  change execSEQ_LIMIT_NEAR s = _
  simp only [execSEQ_LIMIT_NEAR, hplain, Bool.false_and, Bool.false_eq_true, if_false]
  exact congrArg Host.Outcome.next (if_pos hnear)

theorem exec_deferredCkptStart (hdeferred : s.ckpt.deferred ≠ 0) (hfree : s.ckptFree = true) (hen : s.flag F.CKPT_CTRL_EN = true) :
    exec .DEFERRED_CKPT_START s = .next (s.beginCkpt s.ckpt.deferred) :=
  congrArg Host.Outcome.next (if_pos (by simp [hdeferred, hfree, hen]))

theorem exec_barrierOverrun (hphase : s.phase = 1) : exec .BARRIER_OVERRUN s =
    .next ((((s.setFld F.CKPT_STATUS_LAST_ABANDON 1).bump F.CKPT_CNT_BARRIER_ABORT_COUNT).endCkpt.updCkpt
      (fun c => { c with retry := some (s.tick + 100000, s.ckpt.cause) })).release (· == .barrier)) :=
  if_neg (by simp [hphase])

theorem exec_barrierRetry {r : Nat × Nat} (hr : s.ckpt.retry = some r) (hdue : r.1 ≤ s.tick) (hfree : s.ckptFree = true) :
    exec .BARRIER_RETRY s = .next (s.beginCkpt r.2) := by
  change execBARRIER_RETRY s = _
  simp only [execBARRIER_RETRY, hr, Nat.not_lt.mpr hdue, hfree, if_false, if_true]

theorem exec_ckptTrigWrite_ok {value : Word} (h : stepsOk (bitsOf value.toNat 5 0) = true) :
    exec (.CKPT_TRIG_WRITE value) s = .next (s.setTriggers (some (bitsOf value.toNat 47 32)) (some (bitsOf value.toNat 5 0))) :=
  if_neg (show ¬(!stepsOk (bitsOf value.toNat 5 0)) = true by simp [h])

theorem exec_ckptTrigWrite_bad {value : Word} (h : stepsOk (bitsOf value.toNat 5 0) = false) :
    exec (.CKPT_TRIG_WRITE value) s = .next s.regAccErr :=
  if_pos (show (!stepsOk (bitsOf value.toNat 5 0)) = true by simp [h])

/-! ## Press writes and mirror copies (R313 to R316) -/

theorem exec_pressWriteError {r : CkptRun} (hr : s.ckpt.run = some r) (hpress : r.press = true) (hopen : r.isSealed = false) :
    exec .PRESS_WRITE_ERROR s =
      .next ((s.pressFault.abandonCkpt 4 (Answer.st St.MEDIA s.lastErr)).bump F.CXL_CNT_NVME_ERR_COUNT) := by
  change execPRESS_WRITE_ERROR s = _
  simp [execPRESS_WRITE_ERROR, State.pressError, hr, hpress, hopen]

section
variable {dev status : Nat} {r : CkptRun} {m : Nat × Nat × Nat} (hr : s.ckpt.run = some r) (hphase : s.phase = 4)
  (hm : r.mirrors.find? (fun m => m.1 == dev) = some m) (hopen : m.2.2 ≤ 1)
include hr hphase hm hopen

theorem exec_mirrorAck_eq : exec (.MIRROR_ACK dev status) s =
    if statusClass status ≥ 2 then .next (s.mirrorLost dev) else if m.2.2 == 0 then .next (s.mirrorSend dev)
    else .next (s.updRun (fun r => { r with
      mirrors := r.mirrors.map (fun (z : Nat × Nat × Nat) => if z.1 == dev then (dev, z.2.1, 2) else z) })).mirrorEnd := by
  have hlive : (decide (m.2.2 ≥ 2) || s.phase != 4) = false := by simp [hphase]; omega
  change execMIRROR_ACK dev status s = _
  simp only [execMIRROR_ACK, hr, hm, hlive, Bool.false_eq_true, if_false]

theorem exec_mirrorAck_refused (hbad : 2 ≤ statusClass status) : exec (.MIRROR_ACK dev status) s = .next (s.mirrorLost dev) :=
  (exec_mirrorAck_eq hr hphase hm hopen).trans (if_pos hbad)

theorem exec_mirrorAck_next (hok : statusClass status ≤ 1) (hmore : m.2.2 = 0) :
    exec (.MIRROR_ACK dev status) s = .next (s.mirrorSend dev) :=
  (exec_mirrorAck_eq hr hphase hm hopen).trans ((if_neg (by omega)).trans (if_pos (by simp [hmore])))

theorem exec_mirrorAck_seal (hok : statusClass status ≤ 1) (hseal : m.2.2 = 1) : exec (.MIRROR_ACK dev status) s =
    .next (s.updRun (fun r => { r with
      mirrors := r.mirrors.map (fun (z : Nat × Nat × Nat) => if z.1 == dev then (dev, z.2.1, 2) else z) })).mirrorEnd :=
  (exec_mirrorAck_eq hr hphase hm hopen).trans ((if_neg (by omega)).trans (if_neg (by simp [hseal])))
end

theorem exec_mirrorCopyExpiry {dev t : Nat} (ht : tGet s.ckpt.removed dev = some t) (hday : 24 * 3600 * 100000000 ≤ s.tick - t) :
    exec (.MIRROR_COPY_EXPIRY dev) s = .next (s.updCkpt (fun c => { c with
      mirrors := c.mirrors.filter (fun m => m.writer != dev), removed := tDel c.removed dev })) := by
  change execMIRROR_COPY_EXPIRY dev s = _
  simp only [execMIRROR_COPY_EXPIRY, ht]
  exact if_neg (Nat.not_lt.mpr hday)

/-! ## Restores and re-homing (R317, R321) -/

theorem exec_restoreMapTimeout {r : Restore} (hr : s.ckpt.restore = some r) (hstage : r.stage = 0) (hfetch : s.cat.fetch.isSome = true)
    (hdue : 100000000 ≤ s.tick - r.since) :
    exec .RESTORE_MAP_TIMEOUT s = .next ((s.updCat (fun c => { c with fetch := none })).readSeals.wake .restore) := by
  change execRESTORE_MAP_TIMEOUT s = _
  simp only [execRESTORE_MAP_TIMEOUT, hr]
  exact if_pos (by simp [hstage, hfetch, hdue])

theorem exec_mirrorGetReply_seal {dev : Nat} {r : Reply} {z : Restore} (hz : s.ckpt.restore = some z)
    (hasked : z.asked.contains (dev + 2) = true) (hstage : z.stage = 2) (hok : statusClass r.status.toNat ≤ 1) :
    exec (.MIRROR_GET_REPLY dev r) s = .next (((s.updRestore (fun z => { z with
      asked := z.asked.filter (· != dev + 2) })).sealRead (dev + 2) r.data).wake .restore) := by
  change execMIRROR_GET_REPLY dev r s = _
  simp only [execMIRROR_GET_REPLY, hz, hasked, hstage, hok, Bool.not_true, beq_self_eq_true, Bool.false_eq_true, if_false, if_true]

/-- An adoption of a removed device's sessions before any holder has been asked (R321). -/
def freshAdoption (dev : Nat) (holders : List Nat) : Adoption :=
  { dev := dev, holders := holders, asked := 0, stage := 0, no := 0, first10 := 0, first11 := 0, wanted := [], todo := [], blocks := [] }

theorem exec_rehomeDelayExpiry {dev : Nat} {a : Adopt} (ha : s.cat.adopt.find? (fun a => a.dev == dev) = some a) (hnew : a.begun = false)
    (hfence : s.fenced = false) (hdue : s.fld F.CKPT_REHOME_REHOME_DELAY * 100000000 ≤ s.tick - a.since) (hfirst : s.ckpt.adoptions = []) :
    exec (.REHOME_DELAY_EXPIRY dev) s = .next (((s.updCat (fun c => { c with
      adopt := c.adopt.map (fun (y : Adopt) => if y.dev == dev then { y with begun := true } else y) })).updCkpt (fun c => { c with
      adoptions := [freshAdoption dev (mirrorPairOf s.cat dev)] })).nextHolder) := by
  change execREHOME_DELAY_EXPIRY dev s = _
  simp [execREHOME_DELAY_EXPIRY, ha, hnew, hfence, Nat.not_lt.mpr hdue, hfirst, State.updCkpt, State.updCat, freshAdoption]
end

end Sys2Proof.Machine

section
open Sys2Proof Sys2Proof.Machine

/-- Settles O37: each event takes the branch its premises open. -/
theorem checkpointEventsComplete : Obligations.CheckpointEventsComplete := by
  unfold Obligations.CheckpointEventsComplete
  refine ⟨fun _ => ⟨exec_ckptTimerExpiry_due, exec_ckptTimerExpiry_early, exec_ckptStepCount_due, exec_ckptStepCount_early,
    exec_seqLimitNear⟩, fun _ => exec_deferredCkptStart, ?overrun, fun _ _ => exec_barrierRetry, fun _ _ => rfl,
    fun _ _ => exec_pressWriteError, ?ack, ?map, ?copy, fun _ _ _ => exec_mirrorCopyExpiry, ?rehome, ?write⟩
  case overrun =>
    rintro s _ hphase rfl
    exact exec_barrierOverrun hphase
  case ack =>
    exact fun _ _ _ _ _ hr hphase hm hopen => ⟨exec_mirrorAck_refused hr hphase hm hopen, exec_mirrorAck_next hr hphase hm hopen,
      fun hok hseal => ⟨_, rfl, exec_mirrorAck_seal hr hphase hm hopen hok hseal⟩⟩
  case map =>
    exact fun _ _ hr hstage hfetch hdue => ⟨_, rfl, exec_restoreMapTimeout hr hstage hfetch hdue⟩
  case copy =>
    exact fun _ _ _ _ hz hasked hstage hok => ⟨_, rfl, exec_mirrorGetReply_seal hz hasked hstage hok⟩
  case rehome =>
    rintro dev s _ a _ ha hnew hfence hdue hfirst rfl rfl
    exact exec_rehomeDelayExpiry ha hnew hfence hdue hfirst
  case write =>
    rintro value s _ rfl
    exact ⟨exec_ckptTrigWrite_ok, exec_ckptTrigWrite_bad⟩

end

namespace Sys2Proof.Machine

/-! ## The press port (R442, R443) -/

/-- What the press port leaves when PERST is released: what was in flight has failed, and no SSD is known yet. -/
def State.pressReleased (s : State) : State :=
  (((s.pressError.dropLabelWrites.setFld F.CXL_PRESS_GEN 0).setFld F.CXL_PRESS_WIDTH 0).setFld F.CXL_PRESS_CAP_GB 0).updPress
    (fun p => { p with found := false })

/-- The rate, width and capacity of an SSD that has trained. -/
def State.pressTrained (s : State) (d : Ssd) : State :=
  ((s.setFld F.CXL_PRESS_GEN d.gen).setFld F.CXL_PRESS_WIDTH d.width).setFld F.CXL_PRESS_CAP_GB d.capGb

section
variable {s : State} (hup : s.takesSlips = true)
include hup

theorem exec_perstRelease_absent : exec (.PRESS_PERST_RELEASE none) s = .next (s.pressReleased.setPress 0 0 0) :=
  if_neg (by simp [hup])

section
variable {d : Ssd} (hlo : 1 ≤ d.gen) (hhi : d.gen ≤ 5) (hwidth : d.width ∈ [1, 2, 4])
include hlo hhi hwidth

omit hup in
/-- A link of a rate and a width the port can train to. -/
theorem Ssd.trains : (d.gen == 0 || decide (d.gen > 5) || !([1, 2, 4].contains d.width)) = false := by
  rw [List.contains_iff_mem.mpr hwidth]
  simp
  omega

theorem exec_perstRelease_unfit {c : Nat} (hunfit : unfit d = some c) :
    exec (.PRESS_PERST_RELEASE (some d)) s = .next ((s.pressReleased.pressTrained d).setPress 2 c 0) := by
  change execPRESS_PERST_RELEASE (some d) s = _
  simp only [execPRESS_PERST_RELEASE, hup, Ssd.trains hlo hhi hwidth, hunfit, Bool.not_true, Bool.false_eq_true, if_false]
  rfl

section
variable (hfit : unfit d = none)
include hfit

theorem exec_perstRelease_fatal (hfatal : d.fatal = true) :
    exec (.PRESS_PERST_RELEASE (some d)) s = .next ((s.pressReleased.pressTrained d).nvmeError.setPress 3 5 0) := by
  change execPRESS_PERST_RELEASE (some d) s = _
  simp only [execPRESS_PERST_RELEASE, hup, Ssd.trains hlo hhi hwidth, hfit, hfatal, Bool.not_true, Bool.false_eq_true, if_false, if_true]
  rfl

variable (hsound : d.fatal = false)
include hsound

theorem exec_perstRelease_own (hown : d.other = none) : exec (.PRESS_PERST_RELEASE (some d)) s =
    .next ((((s.pressReleased.pressTrained d).updPress (fun p => { p with found := true, fails := 0 })).setPress 1 0 0).emit
      (.nvme .labelRead 0 0 1)) := by
  change execPRESS_PERST_RELEASE (some d) s = _
  simp only [execPRESS_PERST_RELEASE, hup, Ssd.trains hlo hhi hwidth, hfit, hsound, hown, Bool.not_true, Bool.false_eq_true, if_false]
  rfl

theorem exec_perstRelease_other (l : Option (Nat × Bool)) (hother : d.other = some l) : exec (.PRESS_PERST_RELEASE (some d)) s =
    .next ((((s.pressReleased.pressTrained d).updPress (fun p => { p with found := true, fails := 0, label := l, slots := [] })).setPress
      1 0 0).emit (.nvme .labelRead 0 0 1)) := by
  change execPRESS_PERST_RELEASE (some d) s = _
  simp only [execPRESS_PERST_RELEASE, hup, Ssd.trains hlo hhi hwidth, hfit, hsound, hother, Bool.not_true, Bool.false_eq_true, if_false]
  rfl
end
end
end

/-! ## NVMe commands (R443, R444) -/

section
variable {s : State} {op : NvmeOp} (hdue : s.nvmeDue op = true)
include hdue

theorem exec_nvmeCompletion (ok intact : Bool) : exec (.NVME_COMPLETION op ok intact) s =
    .next ((if !ok || op == .fatal then s.nvmeError else s).nvmeDone op ok intact) :=
  if_neg (by simp [hdue])

theorem exec_nvmeTimeout (hop : op ≠ .fatal) : exec (.NVME_TIMEOUT op) s =
    .next (((s.nvmeError.nvmeDone op false false).setFld F.CXL_PRESS_STATE 3).setFld F.CXL_PRESS_CAUSE 6) :=
  if_neg (by simp [hdue, hop])
end

end Sys2Proof.Machine

section
open Sys2Proof Sys2Proof.Machine

/-- Settles O48: PERST release by what has trained, NVMe commands by whether they failed (`exec_nvmeCompletion`). -/
theorem pressPortComplete : Obligations.PressPortComplete := by
  unfold Obligations.PressPortComplete
  refine ⟨?release, ?nvme⟩
  case release =>
    rintro s _ hup rfl
    refine ⟨exec_perstRelease_absent hup, ?_⟩
    rintro d _ hlo hhi hwidth rfl
    exact ⟨fun _ => exec_perstRelease_unfit hup hlo hhi hwidth, exec_perstRelease_fatal hup hlo hhi hwidth,
      exec_perstRelease_own hup hlo hhi hwidth, fun l hfit hsound => exec_perstRelease_other hup hlo hhi hwidth hfit hsound l⟩
  case nvme =>
    intro op intact s hdue
    refine ⟨fun hop => ?_, exec_nvmeCompletion hdue false intact, ?_, exec_nvmeTimeout hdue⟩
    · rw [exec_nvmeCompletion hdue, beq_eq_false_iff_ne.mpr hop]
      rfl
    · rintro rfl
      exact exec_nvmeCompletion hdue true intact

end

namespace Sys2Proof.Machine

/-! ## Check-value slips (R342 to R346) -/

section
variable {x : Slip} {s : State} (hacc : x.acc = 0)
include hacc

theorem exec_chkCrc (hup : s.takenUp Op.CHK_CRC x = true) (hparam : badParam x [3, 0xFFFFFFFF, 0xFFFFFFFF, 0, 0, 0] = none)
    (hseed : bitOf x.P0 0 = true ∨ x.P2 = 0) (hunits : s.unitsOn A.CHK_UNIT 0 4 ≠ []) :
    exec (.CHK_CRC x) s =
      .next ((((s.bump F.CHK_CNT_CRC_COUNT).bumpBy F.CHK_CNT_BYTES_COUNT x.payload.length).jobOn A.CHK_UNIT 47 0 4).finish Op.CHK_CRC x
        (Answer.ok (crcOf (bitOf x.P0 0) (if bitOf x.P0 1 then some (x.P1 + 2 ^ 32 * x.P2) else none) x.payload) x.payload.length)) := by
  have hlow : (!bitOf x.P0 0 && x.P2 != 0) = false := by
    obtain h | h := hseed <;> simp [h]
  change execCHK_CRC x s = _
  refine runSlip_done hup ?_
  simp only [noSession_ok hacc hparam, w32, hlow, List.isEmpty_eq_false_iff.mpr hunits, Bool.false_eq_true, if_false]

theorem exec_chkScan {start : Nat} (hup : s.takenUp Op.CHK_SCAN x = true)
    (hparam : badParam x [7, 0xFFFFFFFF, 0xFFFFFFFF, 0xFFFFFFFF, 0xFFFFFFFF, 0xFFFFFFFF] = none) (hstart : start = x.P1 + 2 ^ 32 * x.P2)
    (halign : x.P1 % 64 = 0) (hsome : x.P3 ≠ 0) (hend : bitOf x.P0 0 = true → start + 64 * x.P3 ≤ hdm1Bytes)
    (hseed : bitOf x.P0 1 = true ∨ x.P5 = 0) (hthere : s.absentRange (bitOf x.P0 0) start (64 * x.P3) = false)
    (hvisible : x.src ≠ .rind → s.visibleRange (bitOf x.P0 0) start (64 * x.P3) = true) (hunits : s.unitsOn A.CHK_UNIT 4 1 ≠ [])
    (hroom : s.scanFull = false) : exec (.CHK_SCAN x) s =
      .next ((SlipRes.wait (s.queueScan {
        slip := x, hdm1 := bitOf x.P0 0, crc64 := bitOf x.P0 1, start := start, len := 64 * x.P3, seed := x.P4 + 2 ^ 32 * x.P5 })).close Op.CHK_SCAN x) := by
  subst hstart
  have hfirst : (bitOf x.P0 0 && decide (x.P1 + 2 ^ 32 * x.P2 ≥ hdm1Bytes)) = false := by
    simp only [Bool.and_eq_false_imp, decide_eq_false_iff_not]
    intro h
    have := hend h
    omega
  have hlast : (bitOf x.P0 0 && decide (x.P1 + 2 ^ 32 * x.P2 + 64 * x.P3 > hdm1Bytes)) = false := by
    simp only [Bool.and_eq_false_imp, decide_eq_false_iff_not]
    exact fun h => Nat.not_lt.mpr (hend h)
  have hlow : (!bitOf x.P0 1 && x.P5 != 0) = false := by
    obtain h | h := hseed <;> simp [h]
  have hseen : (x.src != .rind && !s.visibleRange (bitOf x.P0 0) (x.P1 + 2 ^ 32 * x.P2) (64 * x.P3)) = false := by
    simpa using hvisible
  change execCHK_SCAN x s = _
  refine runSlip_closes hup ?_
  simp only [noSession_ok hacc hparam, w32, halign, hfirst, hlast, hlow, hthere, hseen, hroom, beq_eq_false_iff_ne.mpr hsome,
    List.isEmpty_eq_false_iff.mpr hunits, bne_self_eq_false, Bool.or_self, Bool.false_eq_true, if_false]

section
variable {k : Bytes} (hparam : badParam x [0xFFFFFFFF, 0xFFFFFFFF, 0xFFFFFFFF, 0xFFFFFFFF, 0xFFFFFFFF, 0xFFFFFFFF] = none)
  (hblocks : x.payload.length % 16 = 0) (hsome : x.payload ≠ []) (hkeys : s.keyMissing x.ten = none) (hk : (s.tenant x.ten).key = some k)
  (hunits : s.unitsOn A.CHK_UNIT 5 4 ≠ []) (hcap : x.payload.length ≤ x.P5)
include hparam hblocks hsome hkeys hk hunits hcap

/-- Both XTS slips answer one data unit under the tenant's slip key (R346). -/
theorem State.xtsSlip_done (dec : Bool) : s.xtsSlip dec x =
    .done ((s.bump F.CHK_CNT_XTS_COUNT).jobOn A.CHK_UNIT 47 5 4) (Answer.ok 0 0
      (if dec then xtsDec (tenantXts k "yudar slip") (x.P0 + 2 ^ 32 * x.P1 + 2 ^ 64 * x.P2 + 2 ^ 96 * x.P3) x.payload
        else xtsEnc (tenantXts k "yudar slip") (x.P0 + 2 ^ 32 * x.P1 + 2 ^ 64 * x.P2 + 2 ^ 96 * x.P3) x.payload)) := by
  have hsize : (x.payload.length == 0 || x.payload.length % 16 != 0) = false := by simp [hblocks, hsome]
  simp only [State.xtsSlip, w32, noSession_ok hacc hparam, hsize, hkeys, hk, List.isEmpty_eq_false_iff.mpr hunits, gt_iff_lt,
    Nat.not_lt.mpr hcap, Bool.false_eq_true, if_false]

theorem exec_chkXtsEnc (hup : s.takenUp Op.CHK_XTS_ENC x = true) : exec (.CHK_XTS_ENC x) s =
    .next (((s.bump F.CHK_CNT_XTS_COUNT).jobOn A.CHK_UNIT 47 5 4).finish Op.CHK_XTS_ENC x (Answer.ok 0 0
      (xtsEnc (tenantXts k "yudar slip") (x.P0 + 2 ^ 32 * x.P1 + 2 ^ 64 * x.P2 + 2 ^ 96 * x.P3) x.payload))) :=
  runSlip_done hup (State.xtsSlip_done hacc hparam hblocks hsome hkeys hk hunits hcap false)

theorem exec_chkXtsDec (hup : s.takenUp Op.CHK_XTS_DEC x = true) : exec (.CHK_XTS_DEC x) s =
    .next (((s.bump F.CHK_CNT_XTS_COUNT).jobOn A.CHK_UNIT 47 5 4).finish Op.CHK_XTS_DEC x (Answer.ok 0 0
      (xtsDec (tenantXts k "yudar slip") (x.P0 + 2 ^ 32 * x.P1 + 2 ^ 64 * x.P2 + 2 ^ 96 * x.P3) x.payload))) :=
  runSlip_done hup (State.xtsSlip_done hacc hparam hblocks hsome hkeys hk hunits hcap true)
end

/-! ## Diagnostics (R347) -/

section
variable (hcode : s.code x.src = 4) (hdebug : s.flag F.SEC_STATE_DEBUG_UNLOCKED = true)
include hcode hdebug

/-- From an M context, while debug is unlocked, a diagnostic slip has its effect. -/
theorem State.diag_open {masks : List Nat} (hparam : badParam x masks = none) (f : SlipRes) : s.diag x masks f = f := by
  simp only [State.diag, hcode, hdebug, noSession_ok hacc hparam, bne_self_eq_false, Bool.not_true, Bool.or_self, Bool.false_eq_true, if_false]

theorem exec_diagInject (hup : s.takenUp Op.DIAG_INJECT x = true)
    (hparam : badParam x [0xFFFF00FF, 0xFFFFFFFF, 0xFFFFFFFF, 0xFF, 0, 0] = none)
    (hkind : bitsOf x.P0 7 0 ∈ [1, 3, 5, 7, 9, 11, 12, 13, 14]) (hcount : x.P3 ≠ 0)
    (hunit : bitsOf x.P0 31 16 / 8192 = 0 ∨ s.unitState (bitsOf x.P0 31 16) ≠ 0) : exec (.DIAG_INJECT x) s =
      .next ((s.updErrs (fun e => { e with inject := e.inject ++ [{
        kind := bitsOf x.P0 7 0, unit := bitsOf x.P0 31 16, address := x.P1 + 2 ^ 32 * x.P2, count := x.P3 }] })).finish
          Op.DIAG_INJECT x (Answer.ok 0)) := by
  have hknown : injectKinds.contains (bitsOf x.P0 7 0) = true := List.contains_iff_mem.mpr hkind
  have hthere : (bitsOf x.P0 31 16 / 8192 != 0 && s.unitState (bitsOf x.P0 31 16) == 0) = false := by
    obtain h | h := hunit <;> simp [h]
  change execDIAG_INJECT x s = _
  refine runSlip_done hup ?_
  simp only [State.diag_open hacc hcode hdebug hparam, w32, hknown, hthere, beq_eq_false_iff_ne.mpr hcount, Bool.not_true,
    Bool.false_eq_true, if_false]

section
variable (hup : s.takenUp Op.DIAG_TRACE x = true) (hparam : badParam x [3, 0xFF, 0xFFFFFFFF, 0, 0xFFFFFFFF, 0xFFFFFFFF] = none)
include hup hparam

theorem exec_diagTraceStop : exec (.DIAG_TRACE_STOP x) s =
    .next (({ s with trace := { s.trace with on := false } } : State).finish Op.DIAG_TRACE x (Answer.ok s.trace.recs.length)) :=
  runSlip_done hup (State.diag_open hacc hcode hdebug hparam _)

theorem exec_diagTraceStart : exec (.DIAG_TRACE_START x) s =
    .next (({ s with trace := { on := true, mask := x.P1, recs := [] } } : State).finish Op.DIAG_TRACE x (Answer.ok 0)) :=
  runSlip_done hup (State.diag_open hacc hcode hdebug hparam _)

theorem exec_diagTraceRead (hop : bitsOf x.P0 1 0 = 2) : exec (.DIAG_TRACE_READ x) s =
    .next (s.finish Op.DIAG_TRACE x (Answer.ok s.trace.recs.length 0
      (structure0 0xFC01 ((s.trace.recs.drop x.P2).flatMap TraceRec.bytes)))) :=
  runSlip_done hup ((State.diag_open hacc hcode hdebug hparam _).trans (if_neg (by simp [hop])))
end
end
end

/-! ## The end of a scan (R343) -/

/-- The mark of the first damaged line of a scan's range. -/
def State.scanHurt (s : State) (k : Scan) : Option (Nat × Nat) :=
  (List.range (k.len / 64)).findSome? (fun i => if s.lineHurt k.hdm1 (k.start + 64 * i) then s.lineOf k.hdm1 (k.start + 64 * i) else none)

/-- The CRC of a scan's range as it reads. -/
def State.scanCrc (s : State) (k : Scan) : Nat :=
  crcOf k.crc64 (if bitOf k.slip.P0 2 then some k.seed else none) (s.hdmRead k.hdm1 k.start k.len)

/-- The running scan has left the queue and is counted. -/
def State.scanOver (s : State) (k : Scan) (rest : List Scan) : State :=
  ((({ s with scans := rest, scanning := false } : State).bump F.CHK_CNT_SCAN_COUNT).bumpBy F.CHK_CNT_BYTES_COUNT k.len).jobOn
    A.CHK_UNIT 47 4 1

section
variable {s : State} {k : Scan} {rest : List Scan} (hscans : s.scans = k :: rest) (hrun : s.scanning = true)
include hscans hrun

theorem exec_scanComplete_sound (hsound : s.scanHurt k = none) : exec .SCAN_COMPLETE s =
    .next ((((s.scanOver k rest).setFld F.CHK_SCAN_LAST_CRC (s.scanCrc k)).finish Op.CHK_SCAN k.slip
      (Answer.ok (s.scanCrc k))).startScan) := by
  change execSCAN_COMPLETE s = _
  unfold State.scanHurt at hsound
  simp only [execSCAN_COMPLETE, hscans, hrun, hsound, Bool.not_true, Bool.false_eq_true, if_false]
  rfl

theorem exec_scanComplete_hurt {l : Nat × Nat} (hhurt : s.scanHurt k = some l) : exec .SCAN_COMPLETE s =
    .next (((((s.scanOver k rest).bump F.CHK_CNT_MEDIA_COUNT).lineRecord l).1.finish Op.CHK_SCAN k.slip
      (Answer.st St.MEDIA (((s.scanOver k rest).bump F.CHK_CNT_MEDIA_COUNT).lineRecord l).2)).startScan) := by
  change execSCAN_COMPLETE s = _
  unfold State.scanHurt at hhurt
  simp only [execSCAN_COMPLETE, hscans, hrun, hhurt, Bool.not_true, Bool.false_eq_true, if_false]
  rfl
end

end Sys2Proof.Machine

section
open Sys2Proof Sys2Proof.Machine

/-- Settles O38: the slips, taken up with ACCESSION 0, take the branch their premises open; a scan ends by whether its range is hurt. -/
theorem checksAndDiagnosticsComplete : Obligations.ChecksAndDiagnosticsComplete := by
  unfold Obligations.ChecksAndDiagnosticsComplete
  refine ⟨fun x s hacc => ⟨?crc, ?scan, ?xts, ?diag⟩, ?ends⟩
  case crc =>
    rintro _ hup hparam hseed hunits rfl
    exact exec_chkCrc hacc hup hparam hseed hunits
  case scan =>
    rintro start _ hup hparam hstart halign hsome hend hseed hthere hvisible hunits hroom rfl
    exact exec_chkScan hacc hup hparam hstart halign hsome hend hseed hthere hvisible hunits hroom
  case xts =>
    exact fun _ hparam hblocks hsome hkeys hk hunits hcap => ⟨exec_chkXtsEnc hacc hparam hblocks hsome hkeys hk hunits hcap,
      exec_chkXtsDec hacc hparam hblocks hsome hkeys hk hunits hcap⟩
  case diag =>
    refine fun hcode hdebug => ⟨?_, fun hup hparam => ⟨?_, ?_, exec_diagTraceRead hacc hcode hdebug hup hparam⟩⟩
    · rintro _ hup hparam hkind hcount hunit rfl
      exact exec_diagInject hacc hcode hdebug hup hparam hkind hcount hunit
    · rintro _ rfl
      exact exec_diagTraceStop hacc hcode hdebug hup hparam
    · rintro _ rfl
      exact exec_diagTraceStart hacc hcode hdebug hup hparam
  case ends =>
    rintro s _ k rest _ _ hscans hrun rfl rfl rfl
    refine ⟨exec_scanComplete_sound hscans hrun, ?_⟩
    rintro l _ hhurt rfl
    exact exec_scanComplete_hurt hscans hrun hhurt

end

namespace Sys2Proof.Machine

/-! ## Links (R328, R329) -/

section
variable {l w : Nat} {s : State}

theorem exec_linkParityError (hup : s.linkState l = 0) :
    exec (.LINK_PARITY_ERROR l) s = .next ((s.bump F.ERR_CNT_REPLAY_COUNT).bumpSat (F.ERR_LINK_REPLAYS.at (8 * l))) :=
  if_pos (by simp [hup])

/-- The record of exhausted replays is written and its time noted. -/
def State.replaysExhausted (s : State) (l w : Nat) : State :=
  (s.errRecord 1 Ek.LINK_REPLAY_EXHAUSTED (errUnit 4 l) w 0).updErrs
    (fun e => { e with exhausted := tPut e.exhausted l (s.errRecord 1 Ek.LINK_REPLAY_EXHAUSTED (errUnit 4 l) w 0).tick })

section
variable (hup : s.linkState l = 0)
include hup

theorem exec_linkRetrain_first (hfirst : tGet s.errs.exhausted l = none) : exec (.LINK_RETRAIN l w) s =
    .next ((((s.replaysExhausted l w).setFld (F.ERR_LINK_STATE.at (8 * l)) 1).bump F.ERR_CNT_RETRAIN_COUNT).bumpSat
      (F.ERR_LINK_RETRAINS.at (8 * l))) := by
  change execLINK_RETRAIN l w s = _
  simp only [execLINK_RETRAIN, hup, hfirst, bne_self_eq_false, Bool.false_eq_true, if_false]
  rfl

theorem exec_linkRetrain_again {z : Nat} (hz : tGet s.errs.exhausted l = some z) (hsoon : s.tick < z + 100000000) :
    exec (.LINK_RETRAIN l w) s = .next ((s.replaysExhausted l w).linkFailed l) := by
  change execLINK_RETRAIN l w s = _
  simp only [execLINK_RETRAIN, hup, hz, hsoon, decide_true, bne_self_eq_false, Bool.false_eq_true, if_false, if_true]
  rfl
end

theorem exec_linkRetrainDone (hretrain : s.linkState l = 1) (ok : Bool) : exec (.LINK_RETRAIN_DONE l ok) s =
    if ok then .next (s.setFld (F.ERR_LINK_STATE.at (8 * l)) 0) else .next (s.linkFailed l) :=
  if_neg (by simp [hretrain])
end

/-! ## Corrected errors (R331) -/

/-- Corrections not yet counted go to a total and to the count of their stack or channel. -/
def State.addCe (s : State) (total own : Fld) (n : Nat) : State :=
  (s.bumpBy total n).setFld own (sat 32 ((s.bumpBy total n).fld own + n))

section
variable (loc addr n : Nat) (s : State)

theorem exec_ceThreshold_hbm {h : State} (hh : h = s.addCe F.ERR_CNT_HBM_CE_COUNT (F.ERR_HBM_CE.at (8 * (loc % 12))) n) :
    exec (.CE_THRESHOLD 0 loc addr n) s = .next (if h.fld F.ERR_CE_CFG_CE_THRESH = 0 then h
      else (h.errRecord 0 Ek.HBM_CE_THRESHOLD (errUnit 6 (loc % 12)) addr 0).rowCandidate (addr / 2048 % 2 ^ 29) n) := by
  subst hh
  change execCE_THRESHOLD 0 loc addr n s = _
  simp only [execCE_THRESHOLD, beq_self_eq_true, if_true, beq_iff_eq, State.addCe]
  exact (apply_ite Host.Outcome.next _ _ _).symm

theorem exec_ceThreshold_ddr {d : State} (hd : d = s.addCe F.ERR_CNT_DDR_CE_COUNT (F.ERR_DDR_CE.at (8 * (loc % 12))) n) :
    exec (.CE_THRESHOLD 1 loc addr n) s = .next (if d.fld F.ERR_CE_CFG_CE_THRESH = 0 then d
      else d.errRecord 0 Ek.DDR_CE_THRESHOLD (errUnit 5 (loc % 12)) addr 0) := by
  subst hd
  change execCE_THRESHOLD 1 loc addr n s = _
  simp only [execCE_THRESHOLD, beq_self_eq_true, if_true, beq_iff_eq, Nat.one_ne_zero, if_false, State.addCe]
  exact (apply_ite Host.Outcome.next _ _ _).symm

theorem exec_ceThreshold_sram {r : State} (hr : r = s.bumpBy F.ERR_CNT_SRAM_CE_COUNT n) :
    exec (.CE_THRESHOLD 2 loc addr n) s = .next (if r.fld F.ERR_CE_CFG_CE_THRESH = 0 then r
      else r.errRecord 0 Ek.SRAM_CE_THRESHOLD 0 addr 0) := by
  subst hr
  change execCE_THRESHOLD 2 loc addr n s = _
  simp only [execCE_THRESHOLD, beq_iff_eq, OfNat.ofNat_ne_zero, OfNat.ofNat_ne_one, if_false]
  exact (apply_ite Host.Outcome.next _ _ _).symm
end

/-! ## Error registers (R336, R337, R350; log entry 64) -/

section
variable {s : State}

theorem exec_errIrqGapEnd {z : Nat} (hheld : s.errs.irqHeld = true) (hlast : s.errs.lastIrq = some z) (hgap : z + 1000 ≤ s.tick) :
    exec .ERR_IRQ_GAP_END s = .next ((s.updErrs (fun e => { e with irqHeld := false, lastIrq := some s.tick })).sendMsix
      ((s.updErrs (fun e => { e with irqHeld := false, lastIrq := some s.tick })).fld F.ERR_CTRL_VEC)) := by
  change execERR_IRQ_GAP_END s = _
  simp only [execERR_IRQ_GAP_END, hheld, hlast, hgap, decide_true, Bool.and_self, if_true]
  rfl

section
variable {value : Word} {t : State} (hclr : value.toNat.testBit 63 = true) (ht : t = s.updErrs (fun e => { e with sticky := [] }))
include hclr ht

theorem exec_errStickyClr_plain (hrun : t.flag F.RIND_AUDIT_STATUS_FAULT_HOLD = false) : exec (.ERR_STICKY_CLR value) s = .next t := by
  subst ht
  change execERR_STICKY_CLR value s = _
  simp only [execERR_STICKY_CLR, hclr, hrun, Bool.not_true, Bool.false_eq_true, if_false]

theorem exec_errStickyClr_held {u : State} (hhold : t.flag F.RIND_AUDIT_STATUS_FAULT_HOLD = true) (hu : u = t.beginWarm 3) :
    exec (.ERR_STICKY_CLR value) s = .next { u with boot := { u.boot with owed := true } } := by
  subst ht hu
  change execERR_STICKY_CLR value s = _
  simp only [execERR_STICKY_CLR, hclr, hhold, Bool.not_true, Bool.false_eq_true, if_false, if_true]
end

/-! ## Conserved quantities (R358 to R363; log entry 77) -/

theorem exec_conservationViolation {code : Nat} (hup : s.takesSlips = true) (hlo : 1 ≤ code) (hhi : code ≤ 7) (check object : Nat)
    (slip : Option (Ctx × BitVec 32)) : exec (.CONSERVATION_VIOLATION code check object slip) s = .next (s.violation code check object slip) :=
  if_pos (by simp [hup, hlo, hhi])

/-- The quantity a sweep takes after one (R359). -/
def nextQuantity (last : Nat) : Nat := if last ≥ 7 then 1 else last + 1

/-- A sweep has moved to a quantity and counts what it left. -/
def State.swept (s : State) (code left : Nat) : State :=
  ((s.setFld F.RIND_AUDIT_STATUS_SWEEP_CODE code).setFld F.RIND_AUDIT_STATUS_SWEEP_POS (s.sweepSize code)).bumpBy
    F.RIND_AUDIT_CNT_RECHECK_COUNT left

section
variable {left code : Nat} (hup : s.takesSlips = true) (hrun : s.fld F.BOOT_STATE_STATE ≠ 8)
  (hcode : code = nextQuantity (s.fld F.RIND_AUDIT_STATUS_SWEEP_CODE))
include hup hrun hcode

theorem exec_auditSweep_breach {o : Nat} (ho : (s.swept code left).breach code = some o) :
    exec (.AUDIT_SWEEP left) s = .next ((s.swept code left).violation code 1 o none) := by
  subst hcode
  unfold State.swept nextQuantity at ho
  change execAUDIT_SWEEP left s = _
  simp only [execAUDIT_SWEEP, hup, beq_eq_false_iff_ne.mpr hrun, ho, Bool.not_true, Bool.or_self, Bool.false_eq_true, if_false]
  rfl

theorem exec_auditSweep_clean (hnone : (s.swept code left).breach code = none) : exec (.AUDIT_SWEEP left) s =
    .next (if code = 7 then (s.swept code left).bump F.RIND_AUDIT_CNT_SWEEP_COUNT else s.swept code left) := by
  subst hcode
  unfold State.swept nextQuantity at hnone
  change execAUDIT_SWEEP left s = _
  simp only [execAUDIT_SWEEP, hup, beq_eq_false_iff_ne.mpr hrun, hnone, beq_iff_eq, Bool.not_true, Bool.or_self, Bool.false_eq_true, if_false]
  rfl
end
end

end Sys2Proof.Machine

section
open Sys2Proof Sys2Proof.Machine

/-- Settles O39: each event takes the branch its premises open. -/
theorem errorEventsComplete : Obligations.ErrorEventsComplete := by
  unfold Obligations.ErrorEventsComplete
  refine ⟨?link, fun _ _ hretrain => ⟨exec_linkRetrainDone hretrain true, exec_linkRetrainDone hretrain false⟩, fun _ _ _ _ => rfl,
    ?corrected, ?irq, ?select, ?sticky, fun _ check object slip _ hup hlo hhi => exec_conservationViolation hup hlo hhi check object slip,
    ?sweep⟩
  case link =>
    refine fun l w s hup => ⟨exec_linkParityError hup, ?_⟩
    rintro _ rfl
    exact ⟨exec_linkRetrain_first hup, fun _ => exec_linkRetrain_again hup⟩
  case corrected =>
    exact fun loc addr n s _ _ _ hh hd hr =>
      ⟨exec_ceThreshold_hbm loc addr n s hh, exec_ceThreshold_ddr loc addr n s hd, exec_ceThreshold_sram loc addr n s hr⟩
  case irq =>
    rintro s _ z hheld hlast hgap rfl
    exact exec_errIrqGapEnd hheld hlast hgap
  case select =>
    rintro value s _ _ rfl rfl
    rfl
  case sticky =>
    exact fun _ _ _ hclr ht => ⟨exec_errStickyClr_plain hclr ht, fun hhold => ⟨_, rfl, exec_errStickyClr_held hclr ht hhold rfl⟩⟩
  case sweep =>
    rintro left s code _ hup hrun hcode rfl
    exact ⟨fun _ => exec_auditSweep_breach hup hrun hcode, exec_auditSweep_clean hup hrun hcode⟩

end

namespace Sys2Proof.Machine

/-! ## Slips of no session, and those that need presence (R41, R389, R391) -/

section
variable {op : Nat} {x : Slip} {masks : List Nat} {s t : State} {f : State → SlipRes} {a : Answer} (hacc : x.acc = 0)
  (hup : s.takenUp op x = true) (hparam : badParam x masks = none)
include hacc hup hparam

theorem runPlain_closes {r : SlipRes} (hres : f s = r) :
    runSlip op x s (fun s => noSession x masks s (f s)) = .next (r.close op x) :=
  runSlip_closes hup ((noSession_ok hacc hparam s (f s)).trans hres)

theorem runPlain_done (hdone : f s = .done t a) :
    runSlip op x s (fun s => noSession x masks s (f s)) = .next (t.finish op x a) :=
  runPlain_closes hacc hup hparam hdone

variable (hpresent : s.present x.src = true)
include hpresent

theorem runPresent_done (hdone : f s = .done t a) : runSlip op x s (fun s => s.withPresence x (noSession x masks s (f s))) =
    .next ((t.usePresence x a.status).finish op x a) := by
  refine runSlip_done hup ?_
  simp only [State.withPresence, hpresent, noSession_ok hacc hparam, hdone, Bool.not_true, Bool.false_eq_true, if_false]

theorem runPresent_wait (hwait : f s = .wait t) : runSlip op x s (fun s => s.withPresence x (noSession x masks s (f s))) =
    .next ((SlipRes.wait t).close op x) := by
  refine runSlip_closes hup ?_
  simp only [State.withPresence, hpresent, noSession_ok hacc hparam, hwait, Bool.not_true, Bool.false_eq_true, if_false]
end

/-! ## Security slips (Table 15.12) -/

section
variable {x : Slip} {s : State} (hacc : x.acc = 0)
include hacc

/-! ### Principals (R387, R388) -/

/-- The principal an enrolment's structure gives. -/
def principalOf (x : Slip) : Principal :=
  { role := rdLe x.payload 8 1
    kinds := if rdLe x.payload 8 1 = 6 then rdLe x.payload 9 1 % 32 else 0
    tenant := if rdLe x.payload 8 1 = 6 then rdLe x.payload 10 2 else 0
    digest := sha384 (slice x.payload 16 (rdLe x.payload 12 2)) }

theorem exec_principalEnrol {i role n : Nat} (hup : s.takenUp Op.SEC_PRINCIPAL_ENROL x = true) (hpresent : s.present x.src = true)
    (hparam : badParam x [0, 0, 0, 0, 0, 0] = none) (hstruct : badStruct 0x2800 17 x.payload = none) (hrole : role = rdLe x.payload 8 1)
    (hn : n = rdLe x.payload 12 2) (hrlo : 1 ≤ role) (hrhi : role ≤ 7)
    (htenant : role = 6 → rdLe x.payload 10 2 ≤ 0xFFF ∨ 0xFFFF ≤ rdLe x.payload 10 2) (hnlo : 1 ≤ n) (hnhi : n ≤ 256)
    (hwhole : 16 + n ≤ rdLe x.payload 4 4)
    (hnew : s.principals.find? (fun q => q.2.digest == (principalOf x).digest && q.2.role == role) = none)
    (hfree : tFree s.principals 1 64 0 = some i) : exec (.SEC_PRINCIPAL_ENROL x) s =
      .next (((({ s with principals := tPut s.principals i (principalOf x) } : State).principalsChanged).usePresence x St.OK).finish
        Op.SEC_PRINCIPAL_ENROL x (Answer.ok i)) := by
  subst hrole hn
  have hgiven : (rdLe x.payload 8 1 == 0 || decide (rdLe x.payload 8 1 > 7) || rdLe x.payload 12 2 == 0 || decide (rdLe x.payload 12 2 > 256)
      || (rdLe x.payload 8 1 == 6 && decide (0xFFF < rdLe x.payload 10 2) && decide (rdLe x.payload 10 2 < 0xFFFF))) = false := by
    simp
    omega
  refine runPresent_done (a := Answer.ok i) hacc hup hparam hpresent ?_
  unfold principalOf at hnew
  simp only [hstruct, hgiven, Nat.not_lt.mpr hwhole, hnew, hfree, Bool.false_eq_true, if_false, gt_iff_lt, beq_iff_eq]
  rfl

section
variable (hup : s.takenUp Op.SEC_PRINCIPAL_REVOKE x = true) (hparam : badParam x [0x3F, 0, 0, 0, 0, 0] = none)
  (hheld : (tGet s.principals x.P0).isSome = true) {cs : List Nat} {t : State}
  (hcs : cs = (s.mgmt.filter (fun c => c.2.principal == x.P0)).map (·.1))
  (ht : t = ({ s with principals := tDel s.principals x.P0 } : State).principalsChanged)
include hup hparam hheld hcs ht

theorem exec_principalRevoke_other (hother : cs.any (fun c => x.src == .mgmt c) = false) : exec (.SEC_PRINCIPAL_REVOKE x) s =
    .next ((cs.foldl State.closeMgmt t).finish Op.SEC_PRINCIPAL_REVOKE x (Answer.ok cs.length)) := by
  subst hcs ht
  refine runPlain_done hacc hup hparam ?_
  simp only [Option.isNone_eq_false_iff.mpr hheld, hother, Bool.false_eq_true, if_false]

theorem exec_principalRevoke_own (hown : cs.any (fun c => x.src == .mgmt c) = true) : exec (.SEC_PRINCIPAL_REVOKE x) s =
    .next ((SlipRes.gone (cs.foldl State.closeMgmt
      { t with slips := t.slips.filter (fun o => !(o.slip.src == x.src && o.slip.tag == x.tag)) })).close Op.SEC_PRINCIPAL_REVOKE x) := by
  subst hcs ht
  refine runPlain_closes hacc hup hparam ?_
  simp only [Option.isNone_eq_false_iff.mpr hheld, hown, Bool.false_eq_true, if_false, if_true]
end

/-! ### Tenants (R395) -/

theorem exec_tenantStatus {v : Tenant} (hup : s.takenUp Op.SEC_TENANT_STATUS x = true) (hparam : badParam x [0, 0, 0, 0, 0, 0] = none)
    (hv : v = s.tenant x.ten) : exec (.SEC_TENANT_STATUS x) s = .next (s.finish Op.SEC_TENANT_STATUS x (Answer.ok
      (b2n v.key.isSome + 2 * b2n v.sealedErase + 4 * b2n v.trustOperator + 8 * v.trust.length + v.kcv * 2 ^ 32))) := by
  subst hv
  exact runPlain_done hacc hup hparam rfl

theorem exec_tenantErase {ss ids rs : List Nat} {a b c : State} (hup : s.takenUp Op.SEC_TENANT_ERASE x = true)
    (hpresent : s.present x.src = true) (hparam : badParam x [0, 0, 0, 0, 0, 0] = none)
    (hss : ss = (s.sessions.filter (fun p => p.2.tenant == x.ten && p.2.state != Ss.CLOSED)).map (·.1))
    (hsome : (s.tenant x.ten).key.isSome = true ∨ ss ≠ [])
    (ha : a = ss.foldl (fun (s : State) i => { (s.stopWork i).closeSess i with moves := tDel s.moves i }) s)
    (hids : ids = (a.shards.filter (fun v => v.2.tenant == x.ten)).map (·.1))
    (hb : b = ids.foldl (fun (s : State) i => (s.dropShard i).1) a)
    (hrs : rs = (b.rings.filter (fun r => r.2.tenant == x.ten && r.2.state != 0)).map (·.1))
    (hc : c = rs.foldl (fun (s : State) n => s.setRing n { s.ring n with state := 0, owner := none, pushes := [], batch := [] }) b) :
    exec (.SEC_TENANT_ERASE x) s = .next ((((c.forgetTenant x.ten).reclaimCheck.bump F.SEC_CNT_ERASE_COUNT).usePresence x St.OK).finish
      Op.SEC_TENANT_ERASE x (Answer.ok ss.length ids.length)) := by
  have hdue : ((s.tenant x.ten).key.isNone && ss.isEmpty) = false := by
    obtain h | h := hsome
    · rw [Option.isNone_eq_false_iff.mpr h, Bool.false_and]
    · rw [List.isEmpty_eq_false_iff.mpr h, Bool.and_false]
  subst hss ha hids hb hrs hc
  refine runPresent_done (a := Answer.ok _ _) hacc hup hparam hpresent ?_
  simp only [hdue, Bool.false_eq_true, if_false]

/-! ### Confidential host and debug (R385, R396) -/

theorem exec_confHost (hup : s.takenUp Op.SEC_CONF_HOST x = true) (hparam : badParam x [1, 0, 0, 0, 0, 0] = none)
    (hnew : s.sec.confNext ≠ bitOf x.P0 0) : exec (.SEC_CONF_HOST x) s =
      .next (((({ s with sec := { s.sec with confNext := bitOf x.P0 0 } } : State).setFld F.SEC_STATE_CONF_HOST_NEXT
        (b2n (bitOf x.P0 0))).emit (.flashWrite 0)).finish Op.SEC_CONF_HOST x (Answer.ok (b2n (bitOf x.P0 0)))) :=
  runPlain_done hacc hup hparam (if_neg (by simpa using hnew))

theorem exec_debugUnlock (hup : s.takenUp Op.SEC_DEBUG_UNLOCK x = true) (hpresent : s.present x.src = true)
    (hparam : badParam x [0, 0, 0, 0, 0, 0] = none) (hlocked : s.flag F.SEC_STATE_DEBUG_UNLOCKED = false) (hloaded : s.loaded = false)
    (hkeys : ∀ t ∈ s.tenants, t.2.key = none) : exec (.SEC_DEBUG_UNLOCK x) s =
      .next (((s.setFld F.SEC_STATE_DEBUG_UNLOCKED 1).measured.usePresence x St.OK).finish Op.SEC_DEBUG_UNLOCK x (Answer.ok)) := by
  have hkeyless : s.tenants.any (fun t => t.2.key.isSome) = false :=
    List.any_eq_false.mpr fun t ht => by simp [hkeys t ht]
  refine runPresent_done (a := Answer.ok) hacc hup hparam hpresent ?_
  simp only [hlocked, hloaded, hkeyless, Bool.false_eq_true, if_false]

/-! ### Fuses (R397, R426) -/

section
variable (hup : s.takenUp Op.SEC_FUSE_PROGRAM x = true) (hpresent : s.present x.src = true)
  (hparam : badParam x [0, 0, 0, 0, 0, 0] = none) (hstruct : badStruct 0x2806 12 x.payload = none) {n : Nat} {es : List Nat}
  (hn : n = rdLe x.payload 10 2) (hnlo : 1 ≤ n) (hnhi : n ≤ 64) (hwhole : 12 + 4 * n ≤ rdLe x.payload 4 4)
  (hes : es = (List.range n).map (fun k => rdLe x.payload (12 + 4 * k) 4))
include hup hpresent hparam hstruct hn hnlo hnhi hwhole hes

theorem exec_fuseProgram_marks {field : Nat} {fresh : List Nat} (hfield : field = rdLe x.payload 8 1) (hflo : 1 ≤ field) (hfhi : field ≤ 3)
    (hunits : ∀ e ∈ es, (markFuse field e).isSome = true ∧ s.markPresent field e = true)
    (hfresh : fresh = (es.filterMap (markFuse field)).eraseDups.filter (fun a => !s.fuseBit a)) : exec (.SEC_FUSE_PROGRAM x) s =
      .next (((if fresh = [] then s else (s.blow fresh).measured).usePresence x St.OK).finish Op.SEC_FUSE_PROGRAM x
        (Answer.ok fresh.length)) := by
  have hgiven : (field == 0 || decide (field > 4) || n == 0 || decide (n > 64)) = false := by
    simp
    omega
  have hmark : (field == 4) = false := beq_eq_false_iff_ne.mpr (by omega)
  have hrange : es.any (fun e => (markFuse field e).isNone) = false :=
    List.any_eq_false.mpr fun e he => by simpa [Option.isSome_iff_ne_none] using (hunits e he).1
  have hthere : es.any (fun e => !s.markPresent field e) = false :=
    List.any_eq_false.mpr fun e he => by simp [(hunits e he).2]
  subst hfresh hes hn hfield
  refine runPresent_done (a := Answer.ok _) hacc hup hparam hpresent ?_
  simp only [hstruct, hgiven, hmark, hrange, hthere, gt_iff_lt, Nat.not_lt.mpr hwhole, List.isEmpty_iff, Bool.false_eq_true, if_false]

/-- One row more is repaired, unless a row before it or it itself is barred. -/
def repairNext (a : State × Option Answer × Nat) (row : Nat) : State × Option Answer × Nat :=
  match a.2.1, a.1.repairBarred row with
  | some _, _ => a
  | none, some no => (a.1, some no, a.2.2)
  | none, none => ((a.1.repairMove row).repairBurn row, none, a.2.2 + 1)

theorem exec_fuseProgram_rows {r : State × Option Answer × Nat} (hfield : rdLe x.payload 8 1 = 4)
    (hrows : ∀ e ∈ es, e < 2 ^ 29 ∧ s.markPresent 4 e = true) (hr : r = es.foldl repairNext (s, none, 0)) (hnone : r.2.1 = none) :
    exec (.SEC_FUSE_PROGRAM x) s = .next ((r.1.usePresence x St.OK).finish Op.SEC_FUSE_PROGRAM x (Answer.ok r.2.2)) := by
  have hgiven : ((4 : Nat) == 0 || decide ((4 : Nat) > 4) || n == 0 || decide (n > 64)) = false := by
    simp
    omega
  have hrange : es.any (fun e => decide (e ≥ 2 ^ 29)) = false :=
    List.any_eq_false.mpr fun e he => by simpa using (hrows e he).1
  have hthere : es.any (fun e => !s.markPresent 4 e) = false :=
    List.any_eq_false.mpr fun e he => by simp [(hrows e he).2]
  subst hr hes hn
  refine runPresent_done (a := Answer.ok _) hacc hup hparam hpresent ?_
  simp only [hstruct, hfield, hgiven, hrange, hthere, gt_iff_lt, Nat.not_lt.mpr hwhole, beq_self_eq_true, Bool.false_eq_true, if_false, if_true]
  split
  next hbarred => cases hnone.symm.trans hbarred
  next => rfl
end
end

end Sys2Proof.Machine

section
open Sys2Proof Sys2Proof.Machine

/-- Settles O40: each slip, taken up with presence where it needs it, takes the branch its premises open. -/
theorem securitySlipsComplete : Obligations.SecuritySlipsComplete := by
  unfold Obligations.SecuritySlipsComplete
  intro x s hacc
  refine ⟨?enrol, ?revoke, fun _ => exec_tenantStatus hacc, fun _ _ _ _ _ _ => exec_tenantErase hacc, ?conf, exec_debugUnlock hacc, ?marks,
    ?rows⟩
  case enrol =>
    rintro _ i role n hup hpresent hparam hstruct hrole hn hrlo hrhi htenant hnlo hnhi hwhole rfl hnew hfree
    subst hrole hn
    exact exec_principalEnrol hacc hup hpresent hparam hstruct rfl rfl hrlo hrhi htenant hnlo hnhi hwhole hnew hfree
  case revoke =>
    exact fun cs t hup hparam hheld hcs ht => ⟨exec_principalRevoke_other hacc hup hparam hheld hcs ht,
      fun hown => ⟨_, rfl, exec_principalRevoke_own hacc hup hparam hheld hcs ht hown⟩⟩
  case conf =>
    rintro _ hup hparam hnew rfl
    exact exec_confHost hacc hup hparam hnew
  case marks =>
    exact fun field n es fresh hup hpresent hparam hstruct hfield hn hflo hfhi hnlo hnhi hwhole hes hunits hfresh =>
      exec_fuseProgram_marks hacc hup hpresent hparam hstruct hn hnlo hnhi hwhole hes hfield hflo hfhi hunits hfresh
  case rows =>
    exact fun n es r hup hpresent hparam hstruct hfield hn hnlo hnhi hwhole hes hrows hr hnone =>
      exec_fuseProgram_rows hacc hup hpresent hparam hstruct hn hnlo hnhi hwhole hes hfield hrows hr hnone

end

namespace Sys2Proof.Machine

/-! ## The Rind's messages (R374 to R378, R386; log entries 67 and 68) -/

section
variable {s : State} (hup : s.responds = true) (hrind : s.sec.rindUntil ≤ s.tick)
include hup hrind

section
variable {k role : Nat} {v : SpdmSess} (hv : tGet s.sec.spdm k = some v) (hrole : v.role = role)
include hv hrole

/-- In an open session of its role a vendor-defined message is answered with its status and body. -/
theorem State.vendor_open {f : SpdmSess → State × Nat × Bytes} {t : State} {st : Nat} {body : Bytes} (hf : f v = (t, st, body)) :
    s.vendor k role f = t.spdm v.transport 0x7E (leBytes 2 st ++ body) := by
  simp only [State.vendor, hup, hv, Nat.not_lt.mpr hrind, hrole, hf, Bool.not_true, bne_self_eq_false, Bool.false_eq_true, if_false]

/-- One that brings no body is answered with its status alone. -/
theorem State.vendor_status {f : SpdmSess → State × Nat × Bytes} {t : State} {st : Nat} (hf : f v = (t, st, [])) :
    s.vendor k role f = t.spdm v.transport 0x7E (leBytes 2 st) := by
  rw [State.vendor_open hup hrind hv hrole hf, List.append_nil]
end

/-! ### Keys (R377, R378) -/

section
variable {k : Nat} {v : SpdmSess} (hv : tGet s.sec.spdm k = some v) (hrole : v.role = 4)
include hv hrole

section
variable (hbar : s.keysBarred = none)
include hbar

section
variable {tenant flags kcv : Nat} {key : Bytes} {trust : List Bytes} {t : State} (hten : tenant ≤ 0xFFF ∨ tenant = 0xFFFF)
  (htrust : trust.length ≤ 16) (hlen : key.length = 32) (hkcv : kcvOf key = kcv)
  (ht : t = (s.updTenant tenant (fun w => { w with
    provisioned := true, key := some key, kcv := kcv, trustOperator := bitOf flags 0, trust := trust, sealedErase := false })).bump
      F.SEC_CNT_KEY_DELIVER_COUNT)

omit hup hrind hv hrole hbar in
include hten htrust hlen hkcv in
/-- A key of the right form for a tenant there can be. -/
theorem keyDelivery_ok : ((decide (0xFFF < tenant) && tenant != 0xFFFF) || decide (trust.length > 16) || key.length != 32 || kcvOf key != kcv)
    = false := by
  simp [hlen, hkcv]
  omega

include hten htrust hlen hkcv ht

theorem exec_keyDeliver_new (hnew : (s.tenant tenant).key = none) (hroom : (s.tenants.filter (fun z => z.2.key.isSome)).length < 4097) :
    exec (.KEY_DELIVER k tenant flags key kcv trust) s = .next ((t.keyHere tenant).spdm v.transport 0x7E (leBytes 2 St.OK)) := by
  subst ht
  refine congrArg Host.Outcome.next (State.vendor_status hup hrind hv hrole ?_)
  simp only [hbar, keyDelivery_ok hten htrust hlen hkcv, hnew, ge_iff_le, Nat.not_le.mpr hroom, Bool.false_eq_true, if_false]

theorem exec_keyDeliver_again (hheld : (s.tenant tenant).key = some key) : exec (.KEY_DELIVER k tenant flags key kcv trust) s =
    .next (t.spdm v.transport 0x7E (leBytes 2 St.ALREADY_DONE)) := by
  subst ht
  refine congrArg Host.Outcome.next (State.vendor_status hup hrind hv hrole ?_)
  simp only [hbar, keyDelivery_ok hten htrust hlen hkcv, hheld, beq_self_eq_true, Bool.false_eq_true, if_false, if_true]
end

theorem exec_bundleKey {profile : Nat} {key : Bytes} (hlen : key.length = 32) : exec (.BUNDLE_KEY k profile key) s =
    .next (({ s with boot := { s.boot with bundleKey := some (profile, key) } } : State).spdm v.transport 0x7E (leBytes 2 St.OK)) := by
  refine congrArg Host.Outcome.next (State.vendor_status hup hrind hv hrole ?_)
  simp only [hbar, hlen, bne_self_eq_false, Bool.false_eq_true, if_false]
end

theorem exec_keyQuery {tenant : Nat} (hten : tenant ≤ 0xFFF ∨ tenant = 0xFFFF) : exec (.KEY_QUERY k tenant) s =
    .next (s.spdm v.transport 0x7E (leBytes 2 St.OK ++ (leBytes 1 (b2n (s.tenant tenant).key.isSome + 2 * b2n (s.tenant tenant).sealedErase)
      ++ leBytes 4 (s.tenant tenant).kcv))) := by
  refine congrArg Host.Outcome.next (State.vendor_open hup hrind hv hrole (if_neg ?_))
  simp
  omega
end

/-! ### Bounce keys (R386) -/

theorem exec_bounceKeys {k : Nat} {v : SpdmSess} {t : State} {b : Bytes × Bytes} (hv : tGet s.sec.spdm k = some v) (hrole : v.role = 5)
    (hcxl : v.transport = 0) (hconf : s.conf = true) (hearly : s.sec.hostUsed = false)
    (hlocked : s.flag F.SEC_STATE_DEBUG_UNLOCKED = false) (hservice : s.flag F.SEC_STATE_SERVICE = false)
    (hb : b = (slice (Config.bounceKey s.freeCtr) 0 36, slice (Config.bounceKey (s.freeCtr + 1)) 0 36))
    (ht : t = { s with freeCtr := s.freeCtr + 2, sec := { s.sec with bounce := some b, bounceSeq := 0 } }) :
    exec (.BOUNCE_KEYS k) s = .next (t.spdm 0 0x7E (leBytes 2 St.OK ++ (b.1 ++ b.2))) := by
  have hanswer : exec (.BOUNCE_KEYS k) s = .next (t.spdm v.transport 0x7E (leBytes 2 St.OK ++ (b.1 ++ b.2))) := by
    subst hb ht
    refine congrArg Host.Outcome.next (State.vendor_open hup hrind hv hrole (if_neg ?_))
    simp [hcxl, hconf, hearly, hlocked, hservice]
  rwa [hcxl] at hanswer

/-! ### Standard requests (R374, R375) -/

section
variable {transport k : Nat}

theorem exec_spdmGetVersion : exec (.SPDM_REQUEST transport .getVersion) s = .next (s.spdm transport 0x04 [0x12]) := by
  change execSPDM_REQUEST transport .getVersion s = _
  simp only [execSPDM_REQUEST, hup, Nat.not_lt.mpr hrind, Bool.not_true, Bool.false_eq_true, if_false]

theorem exec_spdmFinish {leaf : Bytes} {p : Nat × Principal}
    (hp : s.principals.find? (fun p => p.2.digest == leaf && (p.2.role == 4 || p.2.role == 5)) = some p)
    (hfree : tFree s.sec.spdm 1 8 0 = some k) : exec (.SPDM_REQUEST transport (.finish leaf true)) s =
      .next (({ s with sec := { s.sec with spdm := tPut s.sec.spdm k { transport := transport, principal := p.1, role := p.2.role } } } :
        State).spdm transport 0x65 (leBytes 1 k)) := by
  change execSPDM_REQUEST transport (.finish leaf true) s = _
  simp only [execSPDM_REQUEST, hup, Nat.not_lt.mpr hrind, hp, hfree, Bool.not_true, Bool.false_eq_true, if_false]

theorem exec_spdmEndSession {v : SpdmSess} {t : State} (hv : tGet s.sec.spdm k = some v) (hmine : v.transport = transport)
    (ht : t = s.spdm transport 0x6C []) : exec (.SPDM_REQUEST transport (.endSession k)) s =
      .next { t with sec := { t.sec with spdm := tDel t.sec.spdm k } } := by
  subst ht
  change execSPDM_REQUEST transport (.endSession k) s = _
  simp only [execSPDM_REQUEST, hup, Nat.not_lt.mpr hrind, hv, hmine, beq_self_eq_true, Bool.not_true, Bool.false_eq_true, if_false, if_true]
end
end

end Sys2Proof.Machine

section
open Sys2Proof Sys2Proof.Machine

/-- Settles O41: vendor messages through `State.vendor_open`, standard requests by the branch their premises open. -/
theorem keyMessagesComplete : Obligations.KeyMessagesComplete := by
  unfold Obligations.KeyMessagesComplete
  refine ⟨?keys, fun _ _ _ _ hup hrind hv hrole hten => exec_keyQuery hup hrind hv hrole hten,
    fun _ _ _ _ _ hup hrind => exec_bounceKeys hup hrind, ?standard⟩
  case keys =>
    intro k tenant flags kcv key trust s t v hup hrind hv hrole hbar
    refine ⟨fun hten htrust hlen hkcv ht => ⟨exec_keyDeliver_new hup hrind hv hrole hbar hten htrust hlen hkcv ht,
      exec_keyDeliver_again hup hrind hv hrole hbar hten htrust hlen hkcv ht⟩, ?_⟩
    rintro hlen _ rfl
    exact exec_bundleKey hup hrind hv hrole hbar hlen
  case standard =>
    exact fun transport k s hup hrind => ⟨exec_spdmGetVersion hup hrind, fun _ _ hp hfree => ⟨_, rfl, exec_spdmFinish hup hrind hp hfree⟩,
      fun _ hv hmine => ⟨_, rfl, exec_spdmEndSession hup hrind hv hmine rfl⟩⟩

end

namespace Sys2Proof.Machine

/-! ## The Rind and the desk cores (R368, R369; log entry 33) -/

section
variable {s : State}

section
variable (hrun : s.boot.hold = 0)
include hrun

theorem exec_lockstepMismatch :
    exec .RIND_LOCKSTEP_MISMATCH s = .next ((s.bumpSat F.RIND_LOCKSTEP_MISMATCHES).rindReset (Config.errKind 0 % 256)) :=
  if_neg (by simp [hrun])

theorem exec_rindWatchdog : exec .RIND_WATCHDOG_EXPIRY s = .next ((s.bumpSat F.RIND_LOCKSTEP_WDOG_EXPIRIES).rindReset Ek.WATCHDOG) :=
  if_neg (by simp [hrun])
end

/-- A slip outstanding on a desk core is answered TIMEOUT, and what waited for it is given up (R45). -/
def State.timeOut (s : State) (k : Ctx × BitVec 32) : State :=
  match s.outst k.1 k.2 with
  | some o =>
    let s := { s with held := s.held.filter (fun h => !(h.1.slip.src == k.1 && h.1.slip.tag == k.2)) }
    let s := s.finish o.op o.slip (Answer.st St.TIMEOUT)
    if o.op == Op.SESS_PARK then s.giveUpPark o.slip.acc else s.giveUpRevive o.slip.acc
  | none => s

theorem exec_deskWatchdog {core u : Nat} {slips : List (Ctx × BitVec 32)} {v t : State} (hcore : core < 8)
    (hu : u = errUnit 7 (3 * 256 + core)) (hon : s.unitState u = 2) (hv : v = slips.foldl State.timeOut s)
    (ht : t = { v with sec := { v.sec with
      deskResets := (v.sec.deskResets.filter (fun d => v.tick < d.2 + 100000000)) ++ [(core, v.tick)] } }) :
    exec (.DESK_WATCHDOG_EXPIRY core slips) s = .next (if (t.sec.deskResets.filter (·.1 == core)).length ≥ 3 then
      ((t.errRecord 3 Ek.WATCHDOG u 0 0).resetUnit u).disableUnit u else (t.errRecord 3 Ek.WATCHDOG u 0 0).resetUnit u) := by
  subst hu hv ht
  exact if_neg (by simp [hcore, hon])

/-! ## Presence, inputs and the seal (R390 to R394; log entry 94) -/

theorem exec_presencePress {low : Nat} (hfree : s.sec.stuck = false) (hquiet : s.sec.quietUntil ≤ s.tick) (hlo : 100 ≤ low)
    (hhi : low ≤ 3000) (hrun : s.boot.hold = 0) : exec (.PRESENCE_PRESS low) s =
      .next (({ s with sec := { s.sec with windowEnd := some (s.tick + 3000000000) } } : State).bump F.SEC_CNT_PRESS_COUNT) :=
  if_neg (by simp [hfree, hquiet, hlo, hhi, hrun])

theorem exec_presenceWindowEnd {t : Nat} (ht : s.sec.windowEnd = some t) (hdue : t ≤ s.tick) :
    exec .PRESENCE_WINDOW_END s = .next s.closeWindow := by
  change execPRESENCE_WINDOW_END s = _
  simp only [execPRESENCE_WINDOW_END, ht, hdue, if_true]

theorem exec_presenceStuck {on : Bool} {t : State} (hchange : s.sec.stuck ≠ on)
    (ht : t = ((({ s with sec := { s.sec with stuck := on } } : State).setInput F.SEC_INPUTS_PRESENCE 0 on).setInput F.SEC_INPUTS_PRESENCE 1
      on).setInput F.SEC_INPUTS_PRESENCE 2 on) :
    exec (.PRESENCE_STUCK on) s = .next (if on then t.bump F.SEC_CNT_STUCK_COUNT else t) := by
  subst ht
  exact if_neg (by simpa using hchange)

/-- Chatter counts, and has its effect by the input it is on (Table 15.10). -/
theorem exec_inputChatter {input : Nat} {t : State} (hrun : s.boot.hold = 0) (ht : t = s.bump F.SEC_CNT_CHATTER_COUNT) :
    exec (.INPUT_CHATTER input) s =
      if input == 0 then .next { t with sec := { t.sec with quietUntil := t.tick + 1000000000 } }
      else if input == 1 then .next (t.noJumper.setInput F.SEC_INPUTS_JUMPER 3 true)
      else .next ((t.setInput F.SEC_INPUTS_SEAL 3 true).sealBreak) := by
  subst ht
  exact if_neg (by simp [hrun])

theorem exec_sealEpisode_begins (hnone : s.sec.episode = none) : exec (.SEAL_EPISODE true) s =
    .next ((({ s with sec := { s.sec with episode := some s.tick } } : State).setInput F.SEC_INPUTS_SEAL 1 false).bump
      F.SEC_CNT_SEAL_GLITCH_COUNT) := by
  change execSEAL_EPISODE true s = _
  simp only [execSEAL_EPISODE, hnone, if_true]

theorem exec_sealBreak {t : Nat} (ht : s.sec.episode = some t) (hlong : t + 50000 < s.tick) : exec .SEAL_BREAK s = .next s.sealBreak := by
  change execSEAL_BREAK s = _
  simp only [execSEAL_BREAK, ht, gt_iff_lt, hlong, if_true]
end

end Sys2Proof.Machine

section
open Sys2Proof Sys2Proof.Machine

/-- Settles O42: each event takes the branch its premises open. -/
theorem securityEventsComplete : Obligations.SecurityEventsComplete := by
  unfold Obligations.SecurityEventsComplete
  refine ⟨fun _ hrun => ⟨exec_lockstepMismatch hrun, exec_rindWatchdog hrun⟩, ?desk, ?press, fun _ _ => exec_presenceWindowEnd,
    fun _ _ _ => exec_presenceStuck, fun _ _ hrun ht => ⟨exec_inputChatter hrun ht, exec_inputChatter hrun ht, exec_inputChatter hrun ht⟩,
    fun _ => rfl, ?episode, fun _ _ => exec_sealBreak⟩
  case desk =>
    exact fun core u slips s v t hcore hu hon hv ht => exec_deskWatchdog hcore hu hon hv ht
  case press =>
    rintro low s _ hfree hquiet hlo hhi hrun rfl
    exact exec_presencePress hfree hquiet hlo hhi hrun
  case episode =>
    rintro s _ rfl
    exact ⟨exec_sealEpisode_begins, _, rfl, rfl⟩

end

namespace Sys2Proof.Machine

/-! ## MAINT_BUNDLE_LOAD (R381, R413 to R416) -/

section
variable {x : Slip} {s : State} (hacc : x.acc = 0) (hup : s.takenUp Op.MAINT_BUNDLE_LOAD x = true)
  (hparam : badParam x [3, 0xFFFFFFFF, 0xFFFFFFFF, 0, 0, 0] = none) (hstate : s.devState16 = 4 ∨ s.devState16 = 6)

omit hacc hup hparam in
include hstate in
theorem State.bundleEarly_eq_false : s.bundleEarly = false := by
  obtain h | h := hstate <;> simp [State.bundleEarly, h]

include hacc hup hparam hstate

theorem exec_bundleBegin {h : Bytes} (hstruct : badStruct 0x2C02 264 x.payload = none) (hh : h = slice x.payload 8 256)
    (hhold : s.holdBars = false) (hheader : s.headerRefused h = none) (hroom : bundleSize h + 2 ^ 30 ≤ s.cellarBytes) :
    exec (.BUNDLE_LOAD_BEGIN x) s =
      .next ((s.stage { header := h, size := bundleSize h, bytes := [] } 0 h).finish Op.MAINT_BUNDLE_LOAD x (Answer.ok)) := by
  subst hh
  refine runPlain_done hacc hup hparam ?_
  simp only [State.bundleEarly_eq_false hstate, hstruct, hhold, hheader, gt_iff_lt, Nat.not_lt.mpr hroom, Bool.false_eq_true, if_false]

/-- Bytes that agree with what overlaps them do not clash. -/
def Staging.clash (g : Staging) (o : Nat) (b : Bytes) : Bool :=
  ((List.range b.length).zip b).any (fun c => match tGet g.bytes (o + c.1) with | some v => v != c.2 | none => false)

omit hacc hup hparam hstate in
theorem Staging.clash_eq_false {g : Staging} {o : Nat} {b : Bytes}
    (hsame : ∀ c ∈ (List.range b.length).zip b, ∀ v, tGet g.bytes (o + c.1) = some v → v = c.2) : g.clash o b = false := by
  refine List.any_eq_false.mpr fun c hc => ?_
  cases hv : tGet g.bytes (o + c.1) with
  | none => simp
  | some v => simp [hsame c hc v hv]

theorem exec_bundleData {g : Staging} {o : Nat} {b : Bytes} (hstruct : badStruct 0x2C02 8 x.payload = none)
    (hg : s.boot.staging = some g) (ho : o = x.P1 + x.P2 * 2 ^ 32) (hb : b = (x.payload.drop 8).take (rdLe x.payload 4 4 - 8))
    (hend : o + b.length ≤ g.size) (hsame : ∀ c ∈ (List.range b.length).zip b, ∀ v, tGet g.bytes (o + c.1) = some v → v = c.2) :
    exec (.BUNDLE_LOAD_DATA x) s = .next ((s.stage g o b).finish Op.MAINT_BUNDLE_LOAD x (Answer.ok)) := by
  have hfits : ¬(decide (o + b.length > g.size) || g.clash o b) = true := by
    simp [Staging.clash_eq_false hsame, hend]
  subst ho hb
  refine runPlain_done hacc hup hparam ?_
  simp only [State.bundleEarly_eq_false hstate, hstruct, hg, Bool.false_eq_true, if_false]
  exact if_neg hfits

section
variable {g : Staging} {p q : Profile} (hg : s.boot.staging = some g) (hhold : s.holdBars = false)
  (hheader : s.headerRefused g.header = none) (hp : (g.open s.bundleKeyNow).bind Config.bundleProfile = some p)
  (hq : q = { p with id := headerProfile g.header, version := rdLe g.header 8 2 })
  (hfits : (q.cellarFirst + q.cellarUnits) * 16384 ≤ s.stagingBase g.size)
include hg hhold hheader hp hq hfits

theorem exec_bundleEnd_first {z : State × Nat} (hfirst : s.devState16 = 4) (hz : s.lockFor x Ac.PROGRAM_RELOAD 1 1 0 = .ok z) :
    exec (.BUNDLE_LOAD_END x) s = .next ((s.firstLoad q g).autoRestore.finish Op.MAINT_BUNDLE_LOAD x (Answer.ok q.id)) := by
  subst hq
  have hnot : (s.devState16 == 6) = false := by simp [hfirst]
  refine runPlain_done hacc hup hparam ?_
  simp only [State.bundleEarly_eq_false hstate, hg, hhold, hheader, hp, gt_iff_lt, Nat.not_lt.mpr hfits, hnot, hz, Bool.false_eq_true, if_false]

theorem exec_bundleEnd_reload (hserving : s.devState16 = 6) :
    exec (.BUNDLE_LOAD_END x) s = .next ((s.beginReload q g x).close Op.MAINT_BUNDLE_LOAD x) := by
  subst hq
  refine runPlain_closes hacc hup hparam ?_
  simp only [State.bundleEarly_eq_false hstate, hg, hhold, hheader, hp, gt_iff_lt, Nat.not_lt.mpr hfits, hserving, beq_self_eq_true,
    Bool.false_eq_true, if_false, if_true]
end

/-- What UNLOAD leaves of the bundle: no shards, no profile, no slots, no keys, T1 cleared (R415). -/
def State.bundleGone (s : State) : State :=
  { s.clearT1 with
    profile := none
    tenants := s.tenants.map (fun (t : Nat × Tenant) => (t.1, { t.2 with slots := [] }))
    boot := { s.boot with header := [], bundleKey := none, staging := none } }

theorem exec_bundleUnload {a b c d e : State} (hloaded : s.loaded = true) (hfree : s.sessions = []) (hout : s.member = false)
    (hreload : s.reloading = false) (hrestore : s.restoring = false)
    (ha : a = (s.shards.map (·.1)).foldl (fun (s : State) id => (s.dropShard id).1) s) (hb : b = a.bundleGone)
    (hc : c = (List.range 8).foldl (fun s k => s.setReg (A.NBU_PROG + 8 * k) 0) (b.setReg A.DEV_BUNDLE 0))
    (hd : d = (List.range 132).foldl (fun s e => s.setFld (F.ME_UNIT_POOL.at (8 * e)) 3) ((c.setReg A.TEXT_VOCAB 0).setReg A.ME_FMT 0))
    (he : e = [0, 1, 2].foldl (fun s p => s.setFld (F.ME_POOL_CUR.at (8 * p)) 0) d) :
    exec (.BUNDLE_UNLOAD x) s = .next ((e.measured.setFld F.BOOT_STATE_STATE 4).finish Op.MAINT_BUNDLE_LOAD x (Answer.ok)) := by
  subst ha hb hc hd he
  refine runPlain_done hacc hup hparam ?_
  simp only [State.bundleEarly_eq_false hstate, hloaded, hfree, hout, hreload, hrestore, List.isEmpty_nil, Bool.not_true, Bool.or_self,
    Bool.false_eq_true, if_false, State.bundleGone]
end

end Sys2Proof.Machine

section
open Sys2Proof Sys2Proof.Machine

/-- Settles O45: each operation of the slip, taken up in a state bundles are loaded in, takes the branch its premises open. -/
theorem bundleSlipsComplete : Obligations.BundleSlipsComplete := by
  unfold Obligations.BundleSlipsComplete
  intro x s hacc hup hparam hstate
  refine ⟨fun _ => exec_bundleBegin hacc hup hparam hstate, fun _ _ _ => exec_bundleData hacc hup hparam hstate, ?ending, ?unload⟩
  case ending =>
    exact fun _ _ _ hg hhold hheader hp hq hfits => ⟨fun _ => exec_bundleEnd_first hacc hup hparam hstate hg hhold hheader hp hq hfits,
      exec_bundleEnd_reload hacc hup hparam hstate hg hhold hheader hp hq hfits⟩
  case unload =>
    exact fun hloaded hfree hout hreload hrestore _ _ _ _ _ =>
      exec_bundleUnload hacc hup hparam hstate hloaded hfree hout hreload hrestore

end

namespace Sys2Proof.Machine

/-! ## Maintenance slips (R421 to R430, Table 16.10; log entry 38) -/

section
variable {x : Slip} {s : State} (hacc : x.acc = 0)
include hacc

/-! ### Locks (R421, R422) -/

theorem exec_maintLock (hup : s.takenUp Op.MAINT_LOCK x = true) (hparam : badParam x [15, 7, 0xFFFF, 0, 0, 0] = none) (hlo : 1 ≤ x.P0)
    (hhi : x.P0 ≤ 8) (hscope : x.P1 ∈ (activityScopes x.P0).1) (htier : x.P1 = 1 → x.P2 ∈ (activityScopes x.P0).2)
    (hwhole : x.P1 = 0 → x.P2 = 0) (hthere : s.scopeBad x.P1 x.P2 2 = none) (hfree : s.lockBusy x.P0 x.P1 x.P2 = none)
    (hroom : (s.locks.filter (fun o => !(o.against x.P0 x.P1 x.P2 && o.yields))).length < 32) :
    exec (.MAINT_LOCK x) s =
      .next ((s.takeLock (some x.src) x.P0 x.P1 x.P2 false false).finish Op.MAINT_LOCK x (Answer.ok s.lockId)) := by
  have hindex : (if x.P1 == 0 then 0 else x.P2) = x.P2 := by
    by_cases h : x.P1 = 0 <;> simp [h, hwhole]
  have hknown : (x.P0 == 0 || decide (x.P0 > 8)) = false := by
    simp
    omega
  have hgiven : (x.P1 == 1 && !(activityScopes x.P0).2.contains x.P2) = false := by
    simpa using htier
  refine runPlain_done hacc hup hparam ?_
  simp only [hindex, hknown, List.contains_iff_mem.mpr hscope, hgiven, hthere, hfree, ge_iff_le, Nat.not_le.mpr hroom, Bool.not_true,
    Bool.false_eq_true, if_false]

section
variable {l : Lock} (hup : s.takenUp Op.MAINT_UNLOCK x = true) (hparam : badParam x [0xFFFF, 0, 0, 0, 0, 0] = none)
  (hl : s.locks.find? (fun l => l.id == x.P0 && l.holder == some x.src) = some l)
include hup hparam hl

theorem exec_maintUnlock_idle (hidle : l.active = false) :
    exec (.MAINT_UNLOCK x) s = .next ((s.dropLocks (fun o => o.id == l.id)).finish Op.MAINT_UNLOCK x (Answer.ok)) := by
  refine runPlain_done hacc hup hparam ?_
  simp only [hl, hidle, Bool.false_eq_true, if_false]

theorem exec_maintUnlock_active (hactive : l.active = true) : exec (.MAINT_UNLOCK x) s =
    .next ((SlipRes.wait { s with locks := s.locks.map (fun (o : Lock) => if o.id == l.id then { o with ending := true } else o) }).close
      Op.MAINT_UNLOCK x) := by
  refine runPlain_closes hacc hup hparam ?_
  simp only [hl, hactive, if_true]
end

/-! ### Patrols, retrains and row repairs (R424 to R426) -/

theorem exec_maintPatrol {t : State} {l : Nat} (hup : s.takenUp Op.MAINT_PATROL x = true)
    (hparam : badParam x [7, 0xFFFF, 0xFF, 0xFFFFFFFF, 0, 0] = none) (hlo : 1 ≤ x.P0) (hhi : x.P0 ≤ 3) (htier : x.P0 = 1 → x.P1 ≤ 2)
    (hthere : s.scopeBad x.P0 x.P1 1 = none) (hplo : 1 ≤ x.P2) (hphi : x.P2 ≤ 64)
    (hl : s.lockFor x Ac.PATROL x.P0 x.P1 x.P3 = .ok (t, l)) : exec (.MAINT_PATROL x) s =
      .next ((SlipRes.wait (t.beginAct { lock := l, activity := Ac.PATROL, scope := x.P0, index := x.P1, slip := some x, row := 0 })).close
        Op.MAINT_PATROL x) := by
  have hscope : (x.P0 == 0 || decide (x.P0 > 3)) = false := by
    simp
    omega
  have hgiven : (x.P0 == 1 && decide (x.P1 > 2)) = false := by
    simpa using htier
  have hpace : (x.P2 == 0 || decide (x.P2 > 64)) = false := by
    simp
    omega
  refine runPlain_closes hacc hup hparam ?_
  simp only [hscope, hgiven, hthere, hpace, hl, Bool.false_eq_true, if_false]

theorem exec_maintRetrain {t u : State} {l : Nat} (hup : s.takenUp Op.MAINT_RETRAIN x = true)
    (hparam : badParam x [7, 0xFFFF, 0, 0xFFFFFFFF, 0, 0] = none) (hlo : 2 ≤ x.P0) (hhi : x.P0 ≤ 4) (hthere : s.scopeBad x.P0 x.P1 1 = none)
    (hl : s.lockFor x Ac.RETRAIN x.P0 x.P1 x.P3 = .ok (t, l))
    (hu : u = t.beginAct { lock := l, activity := Ac.RETRAIN, scope := x.P0, index := x.P1, slip := some x, row := 0 }) :
    exec (.MAINT_RETRAIN x) s = .next ((SlipRes.wait (if x.P0 = 4 then u.portDown x.P1 else u)).close Op.MAINT_RETRAIN x) := by
  have hscope : (decide (x.P0 < 2) || decide (x.P0 > 4)) = false := by
    simp
    omega
  subst hu
  refine runPlain_closes hacc hup hparam ?_
  simp only [hscope, hthere, hl, beq_iff_eq, Bool.false_eq_true, if_false]

theorem exec_maintRowRepair {t : State} {l : Nat} (hup : s.takenUp Op.MAINT_ROW_REPAIR x = true) (hpresent : s.present x.src = true)
    (hparam : badParam x [2 ^ 29 - 1, 0, 0, 0xFFFFFFFF, 0, 0] = none) (hon : s.stackOn (x.P0 / 2 ^ 25) = true)
    (hl : s.lockFor x Ac.ROW_REPAIR 2 (x.P0 / 2 ^ 25) x.P3 = .ok (t, l)) (hfree : s.repairBarred x.P0 = none) :
    exec (.MAINT_ROW_REPAIR x) s = .next ((SlipRes.wait ((t.repairMove x.P0).beginAct
      { lock := l, activity := Ac.ROW_REPAIR, scope := 2, index := x.P0 / 2 ^ 25, slip := some x, row := x.P0 })).close
        Op.MAINT_ROW_REPAIR x) := by
  refine runPresent_wait hacc hup hparam hpresent ?_
  simp only [hon, hl, hfree, Bool.not_true, Bool.false_eq_true, if_false]

/-! ### Resets (R417 to R419) -/

section
variable (hup : s.takenUp Op.MAINT_RESET x = true)
include hup

section
variable (hparam : badParam x [3, 0xFFFF, 0, 0, 0, 0] = none)
include hparam

theorem exec_maintResetUnit {t : State} {c : Nat} (hkind : resettable x.P1 = true) (hvalid : unitValid x.P1 = true)
    (hthere : s.unitState x.P1 ≠ 0) (hfree : s.unitResetting x.P1 = false) (ht : t = s.resetUnit x.P1) (hc : c = x.P1 % 8192 / 17) :
    exec (.MAINT_RESET_UNIT x) s =
      .next ((if x.P1 / 8192 = 3 ∧ 3 ≤ (t.boot.tidyResets.filter (·.1 == c)).length ∧ t.boot.clusters.contains c = false
        then t.beginCluster c 8 else t).finish Op.MAINT_RESET x (Answer.ok)) := by
  subst ht hc
  refine runPlain_done hacc hup hparam ?_
  simp only [hkind, hvalid, beq_eq_false_iff_ne.mpr hthere, hfree, Bool.not_true, Bool.or_self, Bool.and_eq_true, beq_iff_eq, ge_iff_le,
    decide_eq_true_eq, Bool.not_eq_true', and_assoc, Bool.false_eq_true, if_false]

omit hacc hup hparam in
theorem clusterUnit_mod {c : Nat} (hc : c < 16) : clusterUnit c % 256 = c := by
  simp only [clusterUnit, errUnit]
  omega

theorem exec_maintResetCluster {c : Nat} (hc : c < 16) (hunit : x.P1 = clusterUnit c) (hon : s.clusterOn c = true)
    (hfree : s.boot.clusters.contains c = false) (hactive : s.part (clusterPart c) = 3) :
    exec (.MAINT_RESET_CLUSTER x) s = .next ((SlipRes.wait (s.beginCluster c 1)).close Op.MAINT_RESET x) := by
  refine runPlain_closes hacc hup hparam ?_
  simp only [hunit, clusterUnit_mod hc, hon, hfree, hactive, ge_iff_le, Nat.not_le.mpr hc, bne_self_eq_false, decide_false, Bool.or_self,
    Bool.not_true, Bool.false_eq_true, if_false]

theorem exec_maintResetPartition (hpart : x.P1 ≤ 1) (hthere : x.P1 = 1 → s.onePartition = false) (hactive : s.part x.P1 = 3) :
    exec (.MAINT_RESET_PARTITION x) s = .next ((SlipRes.wait (s.resetPartition x.P1 1 [])).close Op.MAINT_RESET x) := by
  have hon : (x.P1 == 1 && s.onePartition) = false := by
    simpa using hthere
  refine runPlain_closes hacc hup hparam ?_
  simp only [gt_iff_lt, Nat.not_lt.mpr hpart, hon, hactive, Nat.reduceBEq, bne_self_eq_false, Bool.false_eq_true, if_false]
end

theorem exec_maintResetDevice (hparam : badParam x [3, 0, 0, 0, 0, 0] = none) :
    exec (.MAINT_RESET_DEVICE x) s = .next ((SlipRes.gone (s.beginWarm 1)).close Op.MAINT_RESET x) :=
  runPlain_closes hacc hup hparam rfl
end

/-! ### Units (R430) -/

theorem exec_maintUnitDisable {t : State} (hup : s.takenUp Op.MAINT_UNIT_DISABLE x = true)
    (hparam : badParam x [0xFFFF, 1, 0, 0, 0, 0] = none) (hkind : disablable x.P0 = true) (hvalid : unitValid x.P0 = true)
    (hon : s.unitState x.P0 = 2) (ht : t = s.disableUnit x.P0)
    (hfloor : x.P1 = 1 ∨ s.unitCount x.P0 ≤ t.unitCount x.P0 ∨ s.unitFloor x.P0 ≤ t.unitCount x.P0) :
    exec (.MAINT_UNIT_DISABLE x) s = .next (t.finish Op.MAINT_UNIT_DISABLE x (Answer.ok (t.unitCount x.P0))) := by
  have hkept : (decide (t.unitCount x.P0 < s.unitCount x.P0) && decide (t.unitCount x.P0 < s.unitFloor x.P0) && x.P1 == 0) = false := by
    simp
    omega
  subst ht
  refine runPlain_done hacc hup hparam ?_
  simp only [hkind, hvalid, hon, hkept, Nat.reduceBEq, Bool.not_true, Bool.or_self, Bool.false_eq_true, if_false]

/-! ### Firmware (R404, R428) -/

section
variable {n : Nat} {j : FlashJob} (hup : s.takenUp Op.MAINT_FW_UPDATE x = true) (hparam : badParam x [0xFFFFFFFF, 3, 0, 0, 0, 0] = none)
  (hstruct : badStruct 0x2C03 8 x.payload = none) (hn : n = rdLe x.payload 4 4 - 8) (hend : x.P0 + n ≤ 0x1F00000)
  (hj : j = FlashJob.image (imageBase s.inactive + x.P0) (slice x.payload 8 n) x)
include hup hparam hstruct hn hend hj

theorem exec_maintFwUpdate :
    exec (.MAINT_FW_UPDATE x) s = .next ((SlipRes.wait (s.flashJob j)).close Op.MAINT_FW_UPDATE x) := by
  subst hn hj
  refine runPlain_closes hacc hup hparam ?_
  simp only [State.fwWrite, hstruct, gt_iff_lt, Nat.not_lt.mpr hend, Bool.false_eq_true, if_false]

theorem exec_maintFwActivate {t : State} {l : Nat} (hl : s.lockFor x Ac.FW_ACTIVATE 0 0 0 = .ok (t, l)) :
    exec (.MAINT_FW_ACTIVATE x) s = .next ((SlipRes.wait (t.flashJob j)).close Op.MAINT_FW_UPDATE x) := by
  subst hn hj
  refine runPlain_closes hacc hup hparam ?_
  simp only [State.fwWrite, hstruct, gt_iff_lt, Nat.not_lt.mpr hend, hl, if_false, if_true]
end

theorem exec_maintFwRollback {t : State} {l : Nat} (hup : s.takenUp Op.MAINT_FW_ROLLBACK x = true) (hpresent : s.present x.src = true)
    (hparam : badParam x [0, 0, 0, 0, 0, 0] = none) (hl : s.lockFor x Ac.FW_ACTIVATE 0 0 0 = .ok (t, l)) (hok : s.imageOk s.inactive = true) :
    exec (.MAINT_FW_ROLLBACK x) s =
      .next ((SlipRes.wait (t.flashJob (.control s.inactive false (some x)))).close Op.MAINT_FW_ROLLBACK x) := by
  refine runPresent_wait hacc hup hparam hpresent ?_
  simp only [hl, hok, Bool.not_true, Bool.false_eq_true, if_false]
end

end Sys2Proof.Machine

section
open Sys2Proof Sys2Proof.Machine

/-- Settles O43: each slip, taken up with presence where it needs it, takes the branch its premises open. -/
theorem maintenanceSlipsComplete : Obligations.MaintenanceSlipsComplete := by
  unfold Obligations.MaintenanceSlipsComplete
  intro x s hacc
  refine ⟨exec_maintLock hacc, ?unlock, fun _ _ => exec_maintPatrol hacc, fun _ _ _ => exec_maintRetrain hacc,
    fun _ _ => exec_maintRowRepair hacc, ?reset, exec_maintResetDevice hacc, fun _ => exec_maintUnitDisable hacc, ?firmware,
    fun _ _ => exec_maintFwRollback hacc⟩
  case unlock =>
    exact fun _ hup hparam hl => ⟨exec_maintUnlock_idle hacc hup hparam hl,
      fun hactive => ⟨_, rfl, exec_maintUnlock_active hacc hup hparam hl hactive⟩⟩
  case reset =>
    exact fun hup hparam => ⟨fun _ _ => exec_maintResetUnit hacc hup hparam, fun _ => exec_maintResetCluster hacc hup hparam,
      exec_maintResetPartition hacc hup hparam⟩
  case firmware =>
    exact fun _ _ hup hparam hstruct hn hend hj => ⟨exec_maintFwUpdate hacc hup hparam hstruct hn hend hj,
      fun _ _ => exec_maintFwActivate hacc hup hparam hstruct hn hend hj⟩

end

namespace Sys2Proof.Machine

/-! ## Activities that end (R424 to R426; log entries 38 and 78) -/

section
variable {lock : Nat} {s : State} {a : Activity}

/-- The lines a patrol corrected are counted, for HBM or the cellar by its scope. -/
def State.patrolCounted (s : State) (a : Activity) (corrected : List (Nat × Nat)) : State :=
  corrected.foldl (fun s c => s.countCe (a.scope == 2 || (a.scope == 1 && a.index == 1)) c.1 c.2) s

theorem exec_patrolComplete (corrected bad : List (Nat × Nat)) (ha : s.actOf lock Ac.PATROL = some a) :
    exec (.PATROL_COMPLETE lock corrected bad) s = .next (((s.patrolCounted a corrected).patrolClean a bad).1.endAct a
      (Answer.ok ((corrected.map (·.2)).foldl (· + ·) 0) ((s.patrolCounted a corrected).patrolClean a bad).2)) := by
  change execPATROL_COMPLETE lock corrected bad s = _
  simp only [execPATROL_COMPLETE, ha, State.patrolCounted]

theorem exec_retrainComplete (ok : Bool) (ha : s.actOf lock Ac.RETRAIN = some a) : exec (.RETRAIN_COMPLETE lock ok) s =
    .next (s.endAct a (if ok then Answer.ok else Answer.st St.MEDIA)) := by
  change execRETRAIN_COMPLETE lock ok s = _
  simp only [execRETRAIN_COMPLETE, ha]

section
variable {x : Slip} (ha : s.actOf lock Ac.ROW_REPAIR = some a) (hx : a.slip = some x)
include ha hx

theorem exec_rowRepairDone_ok : exec (.ROW_REPAIR_DONE lock true) s =
    .next (((s.repairBurn a.row).usePresence x St.OK).endAct a (Answer.ok s.ledger)) := by
  change execROW_REPAIR_DONE lock true s = _
  simp only [execROW_REPAIR_DONE, ha, hx, if_true]

theorem exec_rowRepairDone_failed : exec (.ROW_REPAIR_DONE lock false) s =
    .next ((s.usePresence x St.MEDIA).endAct a (Answer.st St.MEDIA)) := by
  change execROW_REPAIR_DONE lock false s = _
  simp only [execROW_REPAIR_DONE, ha, hx, Bool.false_eq_true, if_false]
end

theorem exec_backgroundPatrol {scope index : Nat} (hup : s.takesSlips = true) (hscope : scope = 2 ∨ scope = 3)
    (hthere : s.scopeBad scope index 0 = none) (hfree : ∀ l ∈ s.locks, l.against Ac.PATROL scope index = false)
    (hroom : s.locks.length < 32) : exec (.BACKGROUND_PATROL scope index) s =
      .next ((s.takeLock none Ac.PATROL scope index true true).beginAct
        { lock := s.lockId, activity := Ac.PATROL, scope := scope, index := index, slip := none, row := 0 }) := by
  have hkind : (scope != 2 && scope != 3) = false := by
    obtain h | h := hscope <;> simp [h]
  have hbusy : s.lockBusy Ac.PATROL scope index = none :=
    List.find?_eq_none.mpr fun l hl => by simp [hfree l hl]
  have hagainst : s.locks.any (fun l => l.against Ac.PATROL scope index) = false :=
    List.any_eq_false.mpr fun l hl => Bool.eq_false_iff.mp (hfree l hl)
  refine if_neg ?_
  simp only [hup, hkind, hthere, hbusy, hagainst, ge_iff_le, Nat.not_le.mpr hroom, Option.isSome_none, Bool.not_true, decide_false,
    Bool.or_self, Bool.false_eq_true, not_false_eq_true]
end

/-! ## Clusters, partitions and units (R417 to R419, R430) -/

section
variable {s : State}

section
variable {c : Nat} (failed : List Nat) (hc : s.boot.clusters.contains c = true)
include hc

theorem exec_clusterReset_drained : exec (.CLUSTER_RESET c true failed) s =
    .next (((failed.filter (inCluster c)).foldl State.disableUnit
      { s with boot := { s.boot with clusters := s.boot.clusters.filter (· != c) } }).issue.resetDone 1 (fun p => p == clusterUnit c)
        (Answer.ok)) := by
  change execCLUSTER_RESET c true failed s = _
  simp only [execCLUSTER_RESET, hc, Bool.not_true, Bool.false_eq_true, if_false]

theorem exec_clusterReset_stuck : exec (.CLUSTER_RESET c false failed) s = .next (s.resetPartition (clusterPart c) 7 []) := by
  change execCLUSTER_RESET c false failed s = _
  simp only [execCLUSTER_RESET, hc, Bool.not_true, Bool.not_false, Bool.false_eq_true, if_false, if_true]
end

section
variable {p cause : Nat} {lost : List Nat} (hp : p ≤ 1) (hthere : p = 1 → s.onePartition = false) (hcause : cause ≤ 8)
include hp hthere hcause

theorem partition_known : (decide (p > 1) || p == 1 && s.onePartition || decide (cause > 8)) = false := by
  simp only [Bool.or_eq_false_iff, Bool.and_eq_false_imp, beq_iff_eq, decide_eq_false_iff_not, gt_iff_lt, Nat.not_lt]
  exact ⟨⟨hp, hthere⟩, hcause⟩

theorem exec_partitionReset_active (hactive : s.part p = 3) :
    exec (.PARTITION_RESET p cause lost) s = .next (s.resetPartition p cause lost) := by
  change execPARTITION_RESET p cause lost s = _
  simp only [execPARTITION_RESET, partition_known hp hthere hcause, hactive, beq_self_eq_true, Bool.false_eq_true, if_false, if_true]

theorem exec_partitionReset_underWay (hreset : s.part p = 4) : exec (.PARTITION_RESET p cause lost) s =
    .next ((lost.filter (fun i => s.home i == p)).foldl (fun s i => s.entryLost i Ek.SRAM_UE 0 0) s) := by
  change execPARTITION_RESET p cause lost s = _
  simp only [execPARTITION_RESET, partition_known hp hthere hcause, hreset, beq_self_eq_true, Nat.reduceBEq, Bool.false_eq_true, if_false,
    if_true]
end

section
variable {p : Nat} {failed : List Nat} {t : State} {mine : Nat → Bool} (hp : p ≤ 1) (hreset : s.part p = 4)
  (ht : t = { s with boot := { s.boot with partLink := tDel s.boot.partLink p } })
  (hmine : mine = fun u => u / 256 == clusterUnit 0 / 256 && clusterPart (u % 256) == p)
include hp hreset ht hmine

theorem exec_partitionActive_ok {u : State}
    (hu : u = ((((failed.filter (inPart p)).foldl State.disableUnit ((t.setPart p 3).partLinksUp p)).issue.resetDone 2 (· == p)
      (Answer.ok)).resetDone 1 mine (Answer.ok))) : exec (.PARTITION_ACTIVE p true failed) s =
        .next (((u.sessions.filter (fun q => u.home q.1 == p)).map (·.1)).foldl State.reviveArmed u) := by
  subst ht hmine hu
  change execPARTITION_ACTIVE p true failed s = _
  simp only [execPARTITION_ACTIVE, gt_iff_lt, Nat.not_lt.mpr hp, hreset, bne_self_eq_false, decide_false, Bool.or_self, Bool.not_true,
    Bool.false_eq_true, if_false]

theorem exec_partitionActive_failed : exec (.PARTITION_ACTIVE p false failed) s =
    .next (((t.setPart p 5).resetDone 2 (· == p) (Answer.st St.UNIT_FAILED)).resetDone 1 mine (Answer.st St.UNIT_FAILED)) := by
  subst ht hmine
  change execPARTITION_ACTIVE p false failed s = _
  simp only [execPARTITION_ACTIVE, gt_iff_lt, Nat.not_lt.mpr hp, hreset, bne_self_eq_false, decide_false, Bool.or_self, Bool.not_false,
    Bool.false_eq_true, if_false, if_true]
end

theorem exec_unitSoftDisable {u : Nat} (hkind : disablable u = true) (hvalid : unitValid u = true) :
    exec (.UNIT_SOFT_DISABLE u) s = .next (s.disableUnit u) :=
  if_pos (by simp [hkind, hvalid])

/-! ## Flash writes (R309, R428) -/

section
variable (hbusy : s.floorBusy = true)
include hbusy

theorem exec_floorWritten : exec (.FLASH_WRITE_DONE 0 true) s =
    .next { s with genFloor := min (s.genFloor + 2 ^ 16) (2 ^ 32 - 1), floorBusy := false } := by
  change execFLASH_WRITE_DONE 0 true s = _
  simp only [execFLASH_WRITE_DONE, hbusy, beq_self_eq_true, Bool.not_true, Bool.false_eq_true, if_false, if_true]

theorem exec_floorFailed : exec (.FLASH_WRITE_DONE 0 false) s = .next (s.emit (.flashWrite 0)) := by
  change execFLASH_WRITE_DONE 0 false s = _
  simp only [execFLASH_WRITE_DONE, hbusy, beq_self_eq_true, Bool.not_true, Bool.false_eq_true, if_false, if_true]
end

section
variable {ok : Bool} {rest : List FlashJob}

theorem exec_imageWritten {a : Nat} {b : Bytes} {x : Slip} (hjobs : s.flash.jobs = .image a b x :: rest) :
    exec (.FLASH_WRITE_DONE 1 ok) s =
      .next (({ s with flash := { s.flash with jobs := rest } } : State).imageWritten a b x ok) := by
  change execFLASH_WRITE_DONE 1 ok s = _
  simp only [execFLASH_WRITE_DONE, hjobs, Nat.reduceBEq, List.findIdx?_cons, List.eraseIdx_cons_zero, List.getElem?_cons_zero,
    beq_self_eq_true, Bool.false_eq_true, if_false, if_true]

theorem exec_controlWritten {p : Nat} {r : Bool} {x : Option Slip} (hjobs : s.flash.jobs = .control p r x :: rest) :
    exec (.FLASH_WRITE_DONE 2 ok) s =
      .next (({ s with flash := { s.flash with jobs := rest } } : State).controlWritten p r x ok) := by
  change execFLASH_WRITE_DONE 2 ok s = _
  simp only [execFLASH_WRITE_DONE, hjobs, Nat.reduceBEq, List.findIdx?_cons, List.eraseIdx_cons_zero, List.getElem?_cons_zero,
    beq_self_eq_true, Bool.false_eq_true, if_false, if_true]
end
end

end Sys2Proof.Machine

section
open Sys2Proof Sys2Proof.Machine

/-- Settles O44: each event takes the branch its premises open. -/
theorem maintenanceEventsComplete : Obligations.MaintenanceEventsComplete := by
  unfold Obligations.MaintenanceEventsComplete
  refine ⟨?patrol, fun _ ok _ _ => exec_retrainComplete ok, fun _ _ _ _ ha hx => ⟨exec_rowRepairDone_ok ha hx, exec_rowRepairDone_failed ha hx⟩,
    fun _ _ _ => exec_backgroundPatrol, ?cluster, fun _ _ _ _ => exec_partitionReset_active, fun _ _ _ _ => exec_partitionReset_underWay,
    ?active, fun _ _ => exec_unitSoftDisable, fun _ hbusy => ⟨exec_floorWritten hbusy, exec_floorFailed hbusy⟩, ?jobs⟩
  case patrol =>
    rintro lock corrected bad s _ a ha rfl
    exact exec_patrolComplete corrected bad ha
  case cluster =>
    rintro c failed s _ hc rfl
    exact ⟨exec_clusterReset_drained failed hc, exec_clusterReset_stuck failed hc⟩
  case active =>
    exact fun _ _ _ _ _ hp hreset ht hmine => ⟨fun _ => exec_partitionActive_ok hp hreset ht hmine,
      exec_partitionActive_failed hp hreset ht hmine⟩
  case jobs =>
    rintro ok s _ rest rfl
    exact ⟨fun _ _ _ => exec_imageWritten, fun _ _ _ => exec_controlWritten⟩

end

namespace Sys2Proof.Machine

/-! ## Power-on, waves, training and tests (R402 to R411) -/

section
variable {s : State}

/-- Device reset is released with the service jumper at a level (R392). -/
def State.released (s : State) (jumper : Bool) : State :=
  { s with boot := { s.boot with hold := 0 }, sec := { s.sec with jumper := jumper } }

theorem exec_powerOn {jumper fuseOk : Bool} (hhold : s.boot.hold ≤ 1) (hoff : s.fld F.BOOT_STATE_STATE = 0) :
    exec (.POWER_ON jumper fuseOk) s = .next ((s.released jumper).boot25 fuseOk) :=
  if_neg (by simp [hhold, hoff])

theorem exec_refclkReturn_core {jumper fuseOk : Bool} (hhold : s.boot.hold = 2) :
    exec (.REFCLK_RETURN 0 jumper fuseOk) s = .next ((s.released jumper).boot25 fuseOk) :=
  if_pos (by simp [hhold])

theorem exec_refclkReturn_rind {jumper fuseOk : Bool} (hhold : s.boot.hold = 3) :
    exec (.REFCLK_RETURN 4 jumper fuseOk) s = .next ((s.released jumper).boot25 fuseOk) :=
  if_pos (by simp [hhold])

theorem exec_refclkReturn_other {jumper fuseOk : Bool} {k : Nat} (hlo : 1 ≤ k) (hhi : k ≤ 3) :
    exec (.REFCLK_RETURN k jumper fuseOk) s = .next (s.setFld (clockBit k) 0) := by
  have hzero : (k == 0) = false := beq_eq_false_iff_ne.mpr (by omega)
  have hfour : (k == 4) = false := beq_eq_false_iff_ne.mpr (by omega)
  change execREFCLK_RETURN k jumper fuseOk s = _
  simp only [execREFCLK_RETURN, hzero, hfour, hlo, hhi, decide_true, Bool.false_and, Bool.or_self, Bool.and_self, Bool.false_eq_true,
    if_false, if_true]

section
variable (hpowering : s.fld F.BOOT_STATE_STATE = 1)
include hpowering

theorem exec_powerWave_cluster (hmore : s.fld F.BOOT_STATE_WAVES < s.waveCounts.1) :
    exec .POWER_WAVE s = .next (s.setFld F.BOOT_STATE_WAVES (s.fld F.BOOT_STATE_WAVES + 1)) := by
  change execPOWER_WAVE s = _
  simp only [execPOWER_WAVE, hpowering, hmore, bne_self_eq_false, Bool.false_eq_true, if_false, if_true]

theorem exec_powerWave_stack {t : State} (hdone : s.waveCounts.1 ≤ s.fld F.BOOT_STATE_WAVES)
    (ht : t = s.setFld F.BOOT_STATE_STACK_WAVES (s.fld F.BOOT_STATE_STACK_WAVES + 1)) : exec .POWER_WAVE s =
      .next (if s.waveCounts.2 ≤ s.fld F.BOOT_STATE_STACK_WAVES + 1 then t.setFld F.BOOT_STATE_STATE 2 else t) := by
  subst ht
  change execPOWER_WAVE s = _
  simp only [execPOWER_WAVE, hpowering, Nat.not_lt.mpr hdone, ge_iff_le, bne_self_eq_false, Bool.false_eq_true, if_false]
end

section
variable (htraining : s.fld F.BOOT_STATE_STATE = 2)
include htraining

theorem exec_hbmTrainingDone (hfirst : s.boot.hbm = false) : exec .HBM_TRAINING_DONE s =
    .next ({ s with boot := { s.boot with hbm := true } } : State).trained.tryReady :=
  if_neg (by simp [htraining, hfirst])

theorem exec_ddrTrainingDone (chans : List (Option Dimm × Option Dimm)) (xts : List Nat) (hfirst : s.boot.ddr = false) :
    ∃ t : State, t.boot.ddr = true ∧ exec (.DDR_TRAINING_DONE chans xts) s = .next t.trained.tryReady :=
  ⟨_, rfl, if_neg (by simp [htraining, hfirst])⟩

section
variable {scope i : Nat} (htarget : (scope = 2 ∧ s.stackOn i = true ∧ s.boot.hbm = false) ∨
  (scope = 3 ∧ s.channelOn i = true ∧ s.boot.ddr = false))
include htarget

/-- An attempt that fails while its stack or channel trains is remembered, and the second marks it absent (R407). -/
theorem exec_trainingFailed : exec (.TRAINING_FAILED scope i) s =
    if s.boot.retried.contains (scope, i) then .next (s.markAbsent scope i)
    else .next { s with boot := { s.boot with retried := s.boot.retried ++ [(scope, i)] } } := by
  refine if_neg ?_
  obtain ⟨rfl, hon, huntrained⟩ | ⟨rfl, hon, huntrained⟩ := htarget <;> simp [htraining, hon, huntrained]

theorem exec_trainingFailed_first (hfirst : (scope, i) ∉ s.boot.retried) : exec (.TRAINING_FAILED scope i) s =
    .next { s with boot := { s.boot with retried := s.boot.retried ++ [(scope, i)] } } :=
  (exec_trainingFailed htraining htarget).trans (if_neg (by simpa using hfirst))

theorem exec_trainingFailed_second (hagain : (scope, i) ∈ s.boot.retried) :
    exec (.TRAINING_FAILED scope i) s = .next (s.markAbsent scope i) :=
  (exec_trainingFailed htraining htarget).trans (if_pos (by simpa using hagain))
end
end

theorem exec_katDone (failed : List (Nat × Nat)) (gcm : Nat) (hstate : s.fld F.BOOT_STATE_STATE = 2 ∨ s.fld F.BOOT_STATE_STATE = 3)
    (hhbm : s.boot.hbm = true) (hfirst : s.boot.kat = false) :
    ∃ t : State, t.boot.kat = true ∧ t.boot.gcm = gcm ∧ exec (.KAT_DONE failed gcm) s = .next t.tryReady := by
  refine ⟨_, rfl, rfl, if_neg ?_⟩
  obtain h | h := hstate <;> simp [h, hhbm, hfirst]

/-! ## Restarts, clocks and temperatures (R318, R448, R453 to R455) -/

theorem exec_warmRestart_goesOn {cause : Nat} {fuseOk : Bool} (hbegun : s.fld F.BOOT_STATE_STATE = 7) :
    exec (.WARM_RESTART cause fuseOk) s = .next ((s.setFld F.BOOT_STATE_STATE 0).boot25 fuseOk) :=
  if_pos (by simp [hbegun])

/-- A device that takes slips is not in the middle of a restart. -/
theorem State.state_ne_seven (hup : s.takesSlips = true) : s.fld F.BOOT_STATE_STATE ≠ 7 := by
  intro h
  simp [State.takesSlips, h] at hup

theorem exec_warmRestart_begins {cause : Nat} {fuseOk : Bool} (hup : s.takesSlips = true) (hrun : s.boot.hold = 0) (hcause : cause ≤ 8) :
    exec (.WARM_RESTART cause fuseOk) s = .next (((s.beginWarm cause).setFld F.BOOT_STATE_STATE 0).boot25 fuseOk) := by
  change execWARM_RESTART cause fuseOk s = _
  simp only [execWARM_RESTART, beq_eq_false_iff_ne.mpr (State.state_ne_seven hup), hup, hrun, gt_iff_lt, Nat.not_lt.mpr hcause,
    bne_self_eq_false, decide_false, Bool.not_true, Bool.or_self, Bool.false_eq_true, if_false]

section
variable (hrun : s.boot.hold = 0)
include hrun

theorem exec_refclkLost_core : exec (.REFCLK_LOST 0) s = .next (s.coldReset 2) := by
  change execREFCLK_LOST 0 s = _
  simp [execREFCLK_LOST, hrun]

theorem exec_refclkLost_rind : exec (.REFCLK_LOST 4) s = .next (s.coldReset 3) := by
  change execREFCLK_LOST 4 s = _
  simp [execREFCLK_LOST, hrun]

theorem exec_refclkLost_port {k : Nat} {t : State} (hlo : 1 ≤ k) (hhi : k ≤ 3) (hfirst : s.flag (clockBit k) = false)
    (ht : t = (s.setFld (clockBit k) 1).bump F.CXL_CNT_REFCLK_LOSS_COUNT) : exec (.REFCLK_LOST k) s =
      .next (if k = 1 then t.portReset 3 else t.portsDown (if k = 2 then [0, 1, 2, 3] else [4, 5, 6, 7])) := by
  have hknown : ¬ k > 4 := by omega
  have hzero : (k == 0) = false := beq_eq_false_iff_ne.mpr (by omega)
  have hfour : (k == 4) = false := beq_eq_false_iff_ne.mpr (by omega)
  subst ht
  change execREFCLK_LOST k s = _
  simp only [execREFCLK_LOST, hrun, hknown, hzero, hfour, hfirst, beq_iff_eq, bne_self_eq_false, decide_false, Bool.or_self,
    Bool.false_eq_true, if_false]
end

theorem exec_thermalTrip {t : State} (hpowered : s.boot.hold ≠ 1) (ht : t = s.coldReset 4) :
    exec .THERMAL_TRIP s = .next { t with boot := { t.boot with thermTrip := true } } := by
  subst ht
  exact if_neg (by simpa using hpowered)

/-- The temperatures and the power of a period are kept; one throttled in counts its millisecond (R454, R455). -/
def State.thermalKept (s : State) (west east io hbm hot power : Nat) : State :=
  ((((((((if s.fld F.CXL_THROTTLE_LEVEL > 0 ∨ s.fld F.CXL_THROTTLE_HBM_LEVEL > 0 then s.bump F.CXL_CNT_THROTTLE_MS_COUNT else s).setFld
    F.CXL_THERM_WEST_C west).setFld F.CXL_THERM_EAST_C east).setFld F.CXL_THERM_HBM_C hbm).setFld F.CXL_THERM_IO_C io).setFld
    F.CXL_THERM_HOT_STACKS hot).setFld F.CXL_POWER_PWR_AVG power).maxFld F.CXL_POWER_PWR_MAX power)

theorem exec_throttlePeriod {west east io hbm hot power top : Nat} (hup : s.takesSlips = true) (hrun : s.boot.hold = 0)
    (htwo : s.onePartition = false) (htop : top = max west (max east io)) : exec (.THROTTLE_PERIOD west east io hbm hot power) s =
      .next (((s.thermalKept west east io hbm hot power).setFld F.CXL_THROTTLE_LEVEL (nextLevel (s.fld F.CXL_THROTTLE_LEVEL)
        (decide (top > s.fld F.CXL_THROTTLE_THROTTLE_C) || decide (power > s.fld F.CXL_POWER_PWR_CAP))
        (decide (top + 3 ≤ s.fld F.CXL_THROTTLE_THROTTLE_C) && decide (power < s.fld F.CXL_POWER_PWR_CAP)))).setFld
          F.CXL_THROTTLE_HBM_LEVEL (nextLevel (s.fld F.CXL_THROTTLE_HBM_LEVEL) (decide (hbm > s.fld F.CXL_THROTTLE_HBM_THROTTLE_C))
            (decide (hbm + 3 ≤ s.fld F.CXL_THROTTLE_HBM_THROTTLE_C)))) := by
  subst htop
  change execTHROTTLE_PERIOD west east io hbm hot power s = _
  simp only [execTHROTTLE_PERIOD, hup, hrun, htwo, State.thermalKept, Bool.or_eq_true, decide_eq_true_eq, bne_self_eq_false,
    Bool.not_true, Bool.or_self, Bool.false_eq_true, if_false]
end

end Sys2Proof.Machine

section
open Sys2Proof Sys2Proof.Machine

/-- Settles O46: each event takes the branch its premises open. -/
theorem bringUpComplete : Obligations.BringUpComplete := by
  unfold Obligations.BringUpComplete
  refine ⟨?release, fun _ _ hpowering => ⟨exec_powerWave_cluster hpowering, exec_powerWave_stack hpowering⟩, ?hbm,
    fun chans xts _ htraining => exec_ddrTrainingDone htraining chans xts, fun failed gcm _ => exec_katDone failed gcm, ?failed, ?loss,
    fun _ _ _ => ⟨exec_warmRestart_goesOn, exec_warmRestart_begins⟩, ?clock, fun _ _ => exec_thermalTrip, ?throttle⟩
  case release =>
    rintro jumper fuseOk s _ rfl
    exact ⟨exec_powerOn, exec_refclkReturn_core, exec_refclkReturn_rind, fun _ => exec_refclkReturn_other⟩
  case hbm =>
    rintro s _ htraining hfirst rfl
    exact exec_hbmTrainingDone htraining hfirst
  case failed =>
    exact fun scope i s htraining htarget => ⟨fun hfirst => ⟨_, rfl, exec_trainingFailed_first htraining htarget hfirst⟩,
      exec_trainingFailed_second htraining htarget⟩
  case loss =>
    rintro s _ rfl
    rfl
  case clock =>
    exact fun s t hrun => ⟨exec_refclkLost_core hrun, exec_refclkLost_rind hrun, fun _ => exec_refclkLost_port hrun⟩
  case throttle =>
    rintro west east io hbm hot power top s _ hup hrun htwo htop rfl
    exact exec_throttlePeriod hup hrun htwo htop

end

/-!
The host port: what its training, resets, decoders, memory accesses, snoops, vectors and configuration requests leave (R432-R441), with
the statement about its commands.
-/

namespace Sys2Proof.Machine

/-! ## Training and resets -/

/-- The port trains in CXL mode exactly where CXL is offered at 32 GT/s and ×16 or ×8 (R432). -/
theorem trainMode_cxl {offered cxl : Bool} {width rate : Nat} (hmode : trainMode offered width rate = some cxl) :
    cxl = (offered && rate == 4 && (width == 16 || width == 8)) := by
  unfold trainMode at hmode
  split at hmode
  case isTrue hcxl => exact (Option.some.inj hmode).symm.trans hcxl.symm
  case isFalse hpcie =>
    split at hmode
    case isTrue => exact (Option.some.inj hmode).symm.trans (Bool.eq_false_iff.mpr hpcie).symm
    case isFalse => exact absurd hmode (by simp)

theorem exec_hostLinkTraining {offered cxl : Bool} {width rate : Nat} {s : State} (hmode : trainMode offered width rate = some cxl)
    (hrun : s.boot.hold = 0) (hclock : s.flag F.CXL_REFCLK_CXL_LOST = false) : exec (.HOST_LINK_TRAINING offered width rate) s =
      .next { s with host := { s.host with up := true, cxl := cxl, width := width, rate := rate } } := by
  change execHOST_LINK_TRAINING offered width rate s = _
  simp only [execHOST_LINK_TRAINING, hmode, hrun, hclock, bne_self_eq_false, Bool.or_self, Bool.false_eq_true, if_false]

theorem exec_hostPortReset {kind : Nat} {s : State} (hkind : kind ≤ 3) (hrun : s.boot.hold = 0)
    (hup : 1 ≤ kind → s.host.up = true) : exec (.HOST_PORT_RESET kind) s = .next (s.portReset kind) := by
  have hrefused : ¬ (kind > 3 || s.boot.hold != 0 || (kind ≥ 1 && !s.host.up)) = true := by
    simp only [hrun, bne_self_eq_false, Bool.or_false, Bool.or_eq_true, Bool.and_eq_true, decide_eq_true_eq, Bool.not_eq_true']
    rintro (hbeyond | ⟨hlinked, hdown⟩)
    · omega
    · exact absurd (hup hlinked) (by simp [hdown])
  exact if_neg hrefused

/-! ## Decoders -/

theorem exec_hdmDecoderCommit {dec base size ways gran pos : Nat} {ok : Bool} {s : State} {d : Decoder} (hdec : dec ≤ 1)
    (hcxl : s.cxlMem = true) (hok : ok = decoderOk (s.hdmSize (dec == 1)) base size ways gran)
    (hd : d = { base := base, size := size, ways := ways, gran := gran, pos := pos, committed := ok, error := !ok }) :
    exec (.HDM_DECODER_COMMIT dec base size ways gran pos) s =
      .next { s with host := { s.host with decoders := s.host.decoders.set dec d } } := by
  subst hok hd
  exact if_neg (by simpa [hcxl] using hdec)

/-! ## A host access carried out -/

theorem State.lineHurt_hbm {s : State} {hdm1 : Bool} {a k : Nat} (hspot : s.spot hdm1 a = .hbm k) :
    s.lineHurt hdm1 a = s.errs.poison.contains (0, k / 64) := by
  simp only [State.lineHurt, State.lineOf, hspot]

/-- Only a cellar line waits for its channel: one of HBM waits at its pair (R425). -/
theorem State.channelBusy_hbm {s : State} {hdm1 : Bool} {a k : Nat} (hspot : s.spot hdm1 a = .hbm k) :
    s.channelBusy hdm1 a = none := by
  simp only [State.channelBusy, hspot]

section
variable {s : State} {hdm1 : Bool} {line : Nat} (hactive : s.memActive = true)
include hactive

theorem State.hostRead_outOfSight (hhidden : s.visibleAt hdm1 line = false) :
    s.hostRead hdm1 line = (s.bump F.CXL_CNT_HIDDEN_RD_COUNT).emit (.memData (List.replicate 64 0) false) := by
  simp only [State.hostRead, hactive, hhidden, Bool.not_true, Bool.not_false, Bool.false_eq_true, if_false, if_true]

theorem State.hostWriteLine_outOfSight (hhidden : s.visibleAt hdm1 line = false) (off : Nat) (b : Bytes) :
    s.hostWriteLine hdm1 line off b = s.bump F.CXL_CNT_HIDDEN_WR_COUNT := by
  simp only [State.hostWriteLine, hactive, hhidden, Bool.not_true, Bool.not_false, Bool.false_eq_true, if_false, if_true]

variable (hvisible : s.visibleAt hdm1 line = true)
include hvisible

theorem State.hostRead_hbm {k : Nat} (hspot : s.spot hdm1 line = .hbm k) :
    s.hostRead hdm1 line = s.access { addr := k, data := none, len := 64, since := s.tick, host := true } := by
  simp only [State.hostRead, hactive, hvisible, hspot, Bool.not_true, Bool.false_eq_true, if_false]

theorem State.hostRead_beyondHbm (hspot : ∀ k, s.spot hdm1 line ≠ .hbm k) :
    s.hostRead hdm1 line = if s.lineHurt hdm1 line then (s.bump F.CXL_CNT_POISON_RD_COUNT).emit (.memData [] true)
      else s.emit (.memData (s.hdmRead hdm1 line 64) false) := by
  cases hplace : s.spot hdm1 line with
  | hbm k => exact absurd hplace (hspot k)
  | cellar _ | nothing => simp only [State.hostRead, hactive, hvisible, hplace, Bool.not_true, Bool.false_eq_true, if_false]

theorem State.hostWriteLine_hbm {off k : Nat} (hspot : s.spot hdm1 (line + off) = .hbm k) (b : Bytes) :
    s.hostWriteLine hdm1 line off b = s.access { addr := k, data := some b, len := b.length, since := s.tick, host := true } := by
  simp only [State.hostWriteLine, hactive, hvisible, hspot, Bool.not_true, Bool.false_eq_true, if_false]

theorem State.hostWriteLine_beyondHbm {off : Nat} (hspot : ∀ k, s.spot hdm1 (line + off) ≠ .hbm k) (b : Bytes) :
    s.hostWriteLine hdm1 line off b = if b.length = 64 then (s.hdmWrite hdm1 (line + off) b).unmark hdm1 line
      else s.hdmWrite hdm1 (line + off) b := by
  cases hplace : s.spot hdm1 (line + off) with
  | hbm k => exact absurd hplace (hspot k)
  | cellar _ | nothing =>
    simp only [State.hostWriteLine, hactive, hvisible, hplace, Bool.not_true, Bool.false_eq_true, if_false, beq_iff_eq]
end

/-! ## HDM_ACCESS -/

section
variable {dec hpa a : Nat} {s : State} {d : Decoder} (hcxl : s.cxlMem = true) (hdec : s.host.decoders[dec]? = some d)
  (ha : d.offset (hpa / 64 * 64) = some a)
include hcxl hdec ha

/-- A read through a decoder that claims the line reads it, unless its channel holds it. -/
theorem exec_hdmRead (hfree : s.visibleAt (dec == 1) a = true → s.channelBusy (dec == 1) a = none) :
    exec (.HDM_ACCESS dec hpa .read) s = .next (s.hostRead (dec == 1) a) :=
  congrArg Host.Outcome.next (State.hostAccess_claimed hcxl hdec ha hfree).1

/-- A write within the line, not empty, through a decoder that claims it writes it, unless its channel holds it. -/
theorem exec_hdmWrite {off : Nat} {b : Bytes} (hsome : b ≠ []) (hin : off + b.length ≤ 64)
    (hfree : s.visibleAt (dec == 1) a = true → s.channelBusy (dec == 1) a = none) :
    exec (.HDM_ACCESS dec hpa (.write off b)) s = .next (s.hostWriteLine (dec == 1) a off b) :=
  congrArg Host.Outcome.next
    (((State.hostAccess_claimed hcxl hdec ha hfree).2 off b).trans (if_neg (by simp [hsome, hin])))

variable (hactive : s.memActive = true)
include hactive

theorem exec_hdmRead_hidden (hhidden : s.visibleAt (dec == 1) a = false) : exec (.HDM_ACCESS dec hpa .read) s =
    .next ((s.bump F.CXL_CNT_HIDDEN_RD_COUNT).emit (.memData (List.replicate 64 0) false)) := by
  rw [exec_hdmRead hcxl hdec ha (by simp [hhidden]), State.hostRead_outOfSight hactive hhidden]

theorem exec_hdmWrite_hidden {off : Nat} {b : Bytes} (hsome : b ≠ []) (hin : off + b.length ≤ 64)
    (hhidden : s.visibleAt (dec == 1) a = false) :
    exec (.HDM_ACCESS dec hpa (.write off b)) s = .next (s.bump F.CXL_CNT_HIDDEN_WR_COUNT) := by
  rw [exec_hdmWrite hcxl hdec ha hsome hin (by simp [hhidden]), State.hostWriteLine_outOfSight hactive hhidden]

variable (hvisible : s.visibleAt (dec == 1) a = true)
include hvisible

/-- An access of a line whose cellar channel is being retrained waits for it (R425). -/
theorem exec_hdmAccess_channelBusy {c : Nat} (hbusy : s.channelBusy (dec == 1) a = some c) (op : MemOp) :
    exec (.HDM_ACCESS dec hpa op) s = .next { s with boot := { s.boot with
      traffic := s.boot.traffic ++ [{ channel := c, dec := dec, hpa := hpa, op := op }] } } := by
  change execHDM_ACCESS dec hpa op s = _
  simp only [execHDM_ACCESS, State.hostAccess, hcxl, hdec, ha, hactive, hvisible, hbusy, Bool.not_true, Bool.and_self,
    Bool.false_eq_true, if_false, if_true]

/-! ### Reads of a visible line -/

section
variable {k : Nat} (hspot : s.spot (dec == 1) a = .hbm k)
include hspot

theorem exec_hdmRead_hbm : exec (.HDM_ACCESS dec hpa .read) s =
    .next (s.access { addr := k, data := none, len := 64, since := s.tick, host := true }) := by
  rw [exec_hdmRead hcxl hdec ha fun _ => State.channelBusy_hbm hspot, State.hostRead_hbm hactive hvisible hspot]

theorem exec_hdmRead_waits
    (hbusy : (s.nbu (k / 2 ^ 27)).run.isSome = true ∨ s.retraining 2 (k / 2 ^ 27 / 512) = true) :
    exec (.HDM_ACCESS dec hpa .read) s = .next (s.updNbu (k / 2 ^ 27) (fun v =>
      { v with waiting := v.waiting ++ [{ addr := k, data := none, len := 64, since := s.tick, host := true }] })) := by
  rw [exec_hdmRead_hbm hcxl hdec ha hactive hvisible hspot, State.access_waits hbusy]

variable (hrun : (s.nbu (k / 2 ^ 27)).run = none) (hretrain : s.retraining 2 (k / 2 ^ 27 / 512) = false)
include hrun hretrain

theorem exec_hdmRead_hbm_sound (hsound : s.lineHurt (dec == 1) a = false) :
    exec (.HDM_ACCESS dec hpa .read) s = .next (s.emit (.memData (s.hbmRd k 64) false)) := by
  rw [State.lineHurt_hbm hspot] at hsound
  rw [exec_hdmRead_hbm hcxl hdec ha hactive hvisible hspot, State.access_at_once hrun hretrain]
  simp only [State.doAccess, hsound, Bool.false_eq_true, if_true, if_false]

theorem exec_hdmRead_hbm_hurt (hhurt : s.lineHurt (dec == 1) a = true) :
    exec (.HDM_ACCESS dec hpa .read) s = .next ((s.bump F.CXL_CNT_POISON_RD_COUNT).emit (.memData [] true)) := by
  rw [State.lineHurt_hbm hspot] at hhurt
  rw [exec_hdmRead_hbm hcxl hdec ha hactive hvisible hspot, State.access_at_once hrun hretrain]
  simp only [State.doAccess, hhurt, if_true]
end

theorem exec_hdmRead_beyondHbm (hspot : ∀ k, s.spot (dec == 1) a ≠ .hbm k) (hfree : s.channelBusy (dec == 1) a = none) :
    (s.lineHurt (dec == 1) a = false → exec (.HDM_ACCESS dec hpa .read) s = .next (s.emit (.memData (s.hdmRead (dec == 1) a 64) false)))
    ∧ (s.lineHurt (dec == 1) a = true →
      exec (.HDM_ACCESS dec hpa .read) s = .next ((s.bump F.CXL_CNT_POISON_RD_COUNT).emit (.memData [] true))) := by
  rw [exec_hdmRead hcxl hdec ha fun _ => hfree, State.hostRead_beyondHbm hactive hvisible hspot]
  exact ⟨fun hsound => by rw [if_neg (by simp [hsound])], fun hhurt => by rw [if_pos hhurt]⟩

/-! ### Writes of a visible line -/

section
variable {off : Nat} {b : Bytes} (hsome : b ≠ []) (hin : off + b.length ≤ 64) (hfree : s.channelBusy (dec == 1) a = none)
include hsome hin hfree

theorem exec_hdmWrite_hbm {k : Nat} (hspot : s.spot (dec == 1) (a + off) = .hbm k) : exec (.HDM_ACCESS dec hpa (.write off b)) s =
    .next (s.access { addr := k, data := some b, len := b.length, since := s.tick, host := true }) := by
  rw [exec_hdmWrite hcxl hdec ha hsome hin fun _ => hfree, State.hostWriteLine_hbm hactive hvisible hspot]

theorem exec_hdmWrite_hbm_atOnce {k : Nat} (hspot : s.spot (dec == 1) (a + off) = .hbm k)
    (hrun : (s.nbu (k / 2 ^ 27)).run = none) (hretrain : s.retraining 2 (k / 2 ^ 27 / 512) = false) :
    exec (.HDM_ACCESS dec hpa (.write off b)) s = .next ((s.hbmWr k b).clearMarks k b.length) := by
  rw [exec_hdmWrite_hbm hcxl hdec ha hactive hvisible hsome hin hfree hspot, State.access_at_once hrun hretrain]
  rfl

theorem exec_hdmWrite_waits {k : Nat} (hspot : s.spot (dec == 1) (a + off) = .hbm k)
    (hbusy : (s.nbu (k / 2 ^ 27)).run.isSome = true ∨ s.retraining 2 (k / 2 ^ 27 / 512) = true) :
    exec (.HDM_ACCESS dec hpa (.write off b)) s = .next (s.updNbu (k / 2 ^ 27) (fun v =>
      { v with waiting := v.waiting ++ [{ addr := k, data := some b, len := b.length, since := s.tick, host := true }] })) := by
  rw [exec_hdmWrite_hbm hcxl hdec ha hactive hvisible hsome hin hfree hspot, State.access_waits hbusy]

theorem exec_hdmWrite_beyondHbm (hspot : ∀ k, s.spot (dec == 1) (a + off) ≠ .hbm k) : exec (.HDM_ACCESS dec hpa (.write off b)) s =
    .next (if b.length = 64 then (s.hdmWrite (dec == 1) (a + off) b).unmark (dec == 1) a else s.hdmWrite (dec == 1) (a + off) b) := by
  rw [exec_hdmWrite hcxl hdec ha hsome hin fun _ => hfree, State.hostWriteLine_beyondHbm hactive hvisible hspot]
end
end

/-! ## Snoops, vectors and configuration requests -/

theorem exec_h2dSnoop {s : State} (hcxl : s.cxlMem = true) :
    exec .H2D_SNOOP s = .next ((s.bump F.CXL_CNT_SNOOP_COUNT).emit (.snoopResp 0)) :=
  if_neg (by simp [hcxl])

theorem exec_msixUnmask {vec : Nat} {s : State} (hvec : vec < 2048) (hup : s.host.up = true) (addr data : Nat) :
    exec (.MSIX_UNMASK vec addr data) s = .next (s.setVec vec { addr := addr, data := data, masked := false }) :=
  if_neg (by simpa [hup] using hvec)

theorem exec_configRequest {s : State} (hup : s.host.up = true) (op : CfgOp) :
    (s.takesSlips = false → exec (.CONFIG_REQUEST op) s = .next (s.emit (.hostCompletion 2 0)))
    ∧ (s.takesSlips = true → exec (.CONFIG_REQUEST op) s = .next ((s.cfgWrite op).emit (.hostCompletion 0 (s.cfgData op)))) := by
  have hanswer : exec (.CONFIG_REQUEST op) s = if !s.takesSlips then .next (s.emit (.hostCompletion 2 0))
      else .next ((s.cfgWrite op).emit (.hostCompletion 0 (s.cfgData op))) := if_neg (by simp [hup])
  exact ⟨fun hbooting => hanswer.trans (if_pos (by simp [hbooting])), fun hrunning => hanswer.trans (if_neg (by simp [hrunning]))⟩

end Sys2Proof.Machine

section
open Sys2Proof Sys2Proof.Machine

/-- Settles O47: each command of the host port takes the branch its premises open. -/
theorem hostPortCommandsComplete : Obligations.HostPortCommandsComplete := by
  unfold Obligations.HostPortCommandsComplete
  refine ⟨fun _ _ _ _ _ hmode hrun hclock => ⟨trainMode_cxl hmode, exec_hostLinkTraining hmode hrun hclock⟩,
    fun _ _ => exec_hostPortReset, ?commit, fun dec hpa a s d hcxl hdec ha hactive => ⟨fun hvisible => ⟨?hbm, ?waits, ?beyond, ?channel⟩,
      exec_hdmRead_hidden hcxl hdec ha hactive, fun off b hsome hin =>
        ⟨exec_hdmWrite_hidden hcxl hdec ha hactive hsome hin, fun hvisible hfree => ⟨fun k hspot => ?written, ?writtenBeyond⟩⟩⟩,
    fun _ => exec_h2dSnoop, fun _ addr data _ hvec hup => exec_msixUnmask hvec hup addr data,
    fun op _ hup => exec_configRequest hup op⟩
  case commit =>
    rintro dec base size ways gran pos ok s _ d hdec hcxl hok hd rfl
    exact exec_hdmDecoderCommit hdec hcxl hok hd
  case hbm =>
    exact fun k hspot hrun hretrain => ⟨exec_hdmRead_hbm_sound hcxl hdec ha hactive hvisible hspot hrun hretrain,
      exec_hdmRead_hbm_hurt hcxl hdec ha hactive hvisible hspot hrun hretrain⟩
  case waits => exact fun k => exec_hdmRead_waits hcxl hdec ha hactive hvisible
  case beyond => exact exec_hdmRead_beyondHbm hcxl hdec ha hactive hvisible
  case channel => exact fun c op hbusy => ⟨_, rfl, exec_hdmAccess_channelBusy hcxl hdec ha hactive hvisible hbusy op⟩
  case written =>
    exact ⟨exec_hdmWrite_hbm_atOnce hcxl hdec ha hactive hvisible hsome hin hfree hspot,
      exec_hdmWrite_waits hcxl hdec ha hactive hvisible hsome hin hfree hspot⟩
  case writtenBeyond => exact exec_hdmWrite_beyondHbm hcxl hdec ha hactive hvisible hsome hin hfree

end
